-- ==== Sys2Proof/Word.lean ====
section
/-! DEFINITION. The word type: the module's structures are made of bytes (00 R5). -/

namespace Sys2Proof

/-- A byte of a register, message or memory. -/
abbrev Byte := BitVec 8

end Sys2Proof
end

