-- ==== Sys2Proof/Syntax.lean ====
section
/-! DEFINITION. The commands of the block: one constructor of `Instr` for every row of the table of operations and
events, with the row's operands. A mailbox command carries its request; an event carries the time `t` at which it
happens, in units of 2^-32 ns of always-on time (21 R532). -/

namespace Sys2Proof

/-- Which part of a 64-bit BAR0 register an access touches (19 R472). -/
inductive Half where
  | whole | low | high
deriving DecidableEq, Repr

/-- The two expansion pipelines (09 R203). -/
inductive Pipe where
  | primary | shadow
deriving DecidableEq, Repr

/-- The two chain connectors (15 R354): `inn` CHAIN-IN, `out` CHAIN-OUT. -/
inductive Side where
  | inn | out
deriving DecidableEq, Repr

/-- One request of a mailbox (17 R418), with the mailbox it arrived on. -/
structure Req where
  mb : Fin 8
  tag : BitVec 16
  flags : BitVec 16
  payload : List Byte
deriving DecidableEq, Repr

/-- A physical disturbance of one byte of a half-row line: `mask` is XORed into byte `byte`; mask 0 is none. -/
structure Upset where
  byte : Nat
  mask : Byte
deriving DecidableEq, Repr

/-- How often in a row the self-check fails of the check-value unit that makes a comparison, and of the two that hold the
opinion on the row's lower and upper side (09 R206, R210, R211). -/
structure CvuUpset where
  unit : Nat
  lower : Nat
  upper : Nat
deriving DecidableEq, Repr

/-- What the boot ROM finds in one firmware slot (22 R546): the signature and root-key verdict, the
section verdict after its re-read, how many sections needed the re-read, and the manifest's fields. -/
structure ImageCheck where
  signed : Bool
  sections : Bool
  retries : Nat
  secVer : Fin 64
  major : Byte
  minor : Byte
  patch : BitVec 16
deriving DecidableEq, Repr

/-- One entry of a key package (22 R551). -/
structure KeyEntry where
  slot : Fin 8
  headType : BitVec 16
  key : List Byte
  decrypts : Bool
deriving DecidableEq, Repr

/-- A key package copy whose signature verifies (22 R551). -/
structure KeyPackage where
  seq : BitVec 32
  ownSerial : Bool
  entries : List KeyEntry
deriving DecidableEq, Repr

/-- What a boot stage found (22 R545, R547). -/
inductive BootResult where
  | passed (transients : Nat)
  | failed
  | selfTest (stuck : List (Nat × Nat)) (unusable : List Nat)
  | images (slot0 slot1 : ImageCheck)
  | keys (copyA copyB : Option KeyPackage)
deriving DecidableEq, Repr

/-- What a flash operation of an update found (22 R556 to R559, 25 R599); `seq` is a key package's sequence number. -/
inductive FwResult where
  | done
  | verified (signed formatOk serialOk : Bool) (image : ImageCheck) (seq : BitVec 32) (mismatches : Nat)
deriving DecidableEq, Repr

/-- Causes of a rail fault (26 R606, R615). -/
inductive RailCause where
  | uv | ov | oc | vinUv | vinOv
deriving DecidableEq, Repr

/-- The crystals (21 R521). -/
inductive Crystal where
  | xa | xb
deriving DecidableEq, Repr

/-- A monitored clock source (21 R528). -/
inductive ClockSource where
  | fio | sio | xa | xb | pcie
  | pll (n : Fin 8)
deriving DecidableEq, Repr

/-- What the receiver at a strobe pad saw (14 R334): a pulse with its rising edge and its width, both in 0.5 ns, or no rising edge up
to now. -/
inductive PadEdge where
  | pulse (rise width : Nat)
  | absent
deriving DecidableEq, Repr

/-- What a lane's receiver has seen since its last command (12 R284, R286, R295): whether signal is detected, the sync headers of
blocks that brought nothing else, the eye margin of each partner preset, the adapted peaking, and the training blocks received and
those of them that failed `chk` since ALIGN. -/
structure LaneSeen where
  signal : Bool
  headers : List (BitVec 2)
  margins : List Nat
  ctle : Fin 16
  badBlocks : Nat
  blocks : Nat
deriving DecidableEq, Repr

/-- The header of a chain message as a hop delivers it (15 R357): the connector it arrived on, its source and destination,
hop sequence and epoch. -/
structure ChainHdr where
  side : Side
  src : Fin 16
  dst : Byte
  hseq : Byte
  epoch : BitVec 6
deriving DecidableEq, Repr

/-- The REJOIN message (15 R359, R363). -/
inductive RejoinMsg where
  | request (serial : BitVec 64)
  | answer (address count : Byte) (epoch : BitVec 6)
deriving DecidableEq, Repr

/-- One slot of a beacon (15 R365). -/
structure BeaconSlot where
  address : Fin 16
  filled : Bool
  latched : Bool
  armed : Bool
  encPending : Bool
  encLasting : Bool
  geom : BitVec 16
  pos : Int
  origin : Int
deriving DecidableEq, Repr

/-- A beacon's body (15 R365). -/
structure Beacon where
  seq : Byte
  lap : Byte
  count : Byte
  lineMode : Bool
  reference : Bool
  tk : Nat
  slots : List BeaconSlot
deriving DecidableEq, Repr

/-- The first NO vote of a PREPARE (15 R359, R370). -/
structure NoVote where
  address : Fin 16
  row : Byte
  status : Byte
  member : BitVec 16
deriving DecidableEq, Repr

/-- A TXN_PREPARE message (15 R359). -/
structure PrepareMsg where
  group : BitVec 32
  coordinator : Fin 16
  line : Nat
  yes : BitVec 16
  no : Option NoVote
deriving DecidableEq, Repr

/-- The states a TXN_ANSWER reports (15 R359). -/
inductive TxnAnswerState where
  | prepared | committed | aborted | unknown | inReset
deriving DecidableEq, Repr

/-- What is wrong with a drive's status slot (16 R402). -/
inductive SlotFault where
  | missing | crc | slot | tickEcho
deriving DecidableEq, Repr

/-- The readers of device memory (20 R509). -/
inductive MemReader where
  | cdx | dma | fsq | spc | plw | kettle | scrubber
deriving DecidableEq, Repr

/-- The SRAM arrays (20 R511, R512). -/
inductive SramArray where
  | lineBuffer | pnc | net | curves | engine | cvuContext | codec
deriving DecidableEq, Repr

/-- What a drift measurement of a channel found (20 R506). -/
inductive DriftResult where
  | small
  | adjust
  | outOfRange (retrained : Bool)
deriving DecidableEq, Repr

/-- The agents a region fence tells apart (22 R553). -/
inductive Agent where
  | kettle | housekeeping | firmwareDma | cdx | spc | engine | compressor | hostDma | bar2
deriving DecidableEq, Repr


/-- The commands, one for each row of the table. -/
inductive Instr where
  /-- R432: Command that echoes its payload and answers OK. -/
  | nop (q : Req)
  /-- R433: Command that returns part, serial, firmware and chain identity. -/
  | moduleInfo (q : Req)
  /-- R434: Command that assigns an event class to an event queue or reads the routing. -/
  | eventRoute (q : Req)
  /-- R435: Command that starts a commanded module reset 1 ms after its reply. -/
  | moduleReset (q : Req)
  /-- R560: Command that returns firmware slot, release and update state. -/
  | fwStatus (q : Req)
  /-- R557: Command that opens a firmware or key-package update and erases its target. -/
  | fwUpdateBegin (q : Req)
  /-- R558: Command that programs one piece of the update from the transfer zone. -/
  | fwUpdateData (q : Req)
  /-- R559: Command that verifies the update, writes the record and optionally raises the floor and activates. -/
  | fwUpdateCommit (q : Req)
  /-- R613: Command that returns input power, domain and temperature state. -/
  | powerStatus (q : Req)
  /-- R614: Command that sets the adjustable thermal thresholds. -/
  | thermalConfig (q : Req)
  /-- R277: Command that returns page store occupancy. -/
  | hamperStatus (q : Req)
  /-- R267: Command that accepts a tile for staging and reserves pages. -/
  | tileStage (q : Req)
  /-- R273: Command that frees a tile that nothing names. -/
  | tileFree (q : Req)
  /-- R274: Command that returns a tile directory entry. -/
  | tileInfo (q : Req)
  /-- R275: Command that accepts a placement list for staging. -/
  | listStage (q : Req)
  /-- R276: Command that frees a list that nothing names. -/
  | listFree (q : Req)
  /-- R271: Command that starts a proof capture of one row. -/
  | proofCapture (q : Req)
  /-- R271: Command that ends the active proof capture. -/
  | proofCancel (q : Req)
  /-- R253: Command that sets the compressor depth_cap. -/
  | codecConfig (q : Req)
  /-- R254: Command that returns codec unit state and counters. -/
  | codecStatus (q : Req)
  /-- R255: Command that starts a check of a stream without staging it. -/
  | codecCheck (q : Req)
  /-- R466: Command that returns the job state. -/
  | jobStatus (q : Req)
  /-- R446: Command that sets a plane's format. -/
  | planeDefine (q : Req)
  /-- R447: Command that assigns a row to a plane with interleave and phase. -/
  | rowDefine (q : Req)
  /-- R449: Command that defines or removes a panel slot after validation. -/
  | panelDefine (q : Req)
  /-- R450: Command that defines the panel sequence. -/
  | jobDefine (q : Req)
  /-- R453: Command that checks the job and starts arming. -/
  | jobArm (q : Req)
  /-- R456: Command that moves an armed job to STARTED and enables the origin latch. -/
  | jobStart (q : Req)
  /-- R459: Command that places a pause boundary. -/
  | jobPause (q : Req)
  /-- R459: Command that places, replaces or cancels a resume boundary. -/
  | jobResume (q : Req)
  /-- R461: Command that places each row's stop line or stops the job at once. -/
  | jobStop (q : Req)
  /-- R451: Command that discards the sequence, panels and bindings. -/
  | jobClear (q : Req)
  /-- R52: Command that sets encoder and line geometry. -/
  | webConfig (q : Req)
  /-- R53: Command that sets a row's offset, flight time and minimum fire interval. -/
  | rowGeometry (q : Req)
  /-- R54: Command that returns web position, velocity and fire lines. -/
  | webStatus (q : Req)
  /-- R126: Command that sets a plane's screening. -/
  | screenPlane (q : Req)
  /-- R128: Command that loads a threshold matrix slot. -/
  | screenMatrix (q : Req)
  /-- R149: Command that loads a history set. -/
  | histSet (q : Req)
  /-- R150: Command that selects a row's history set and mask code. -/
  | histRow (q : Req)
  /-- R174: Command that sets the steep window. -/
  | runaheadConfig (q : Req)
  /-- R175: Command that returns per-row lead and replay state. -/
  | runaheadStatus (q : Req)
  /-- R223: Command that switches the shadow pipeline off or on. -/
  | checkConfig (q : Req)
  /-- R196: Command that creates a correction group. -/
  | txnOpen (q : Req)
  /-- R197: Command that adds a member to an open group. -/
  | txnAdd (q : Req)
  /-- R182: Command that validates a group and builds the new generation. -/
  | txnSeal (q : Req)
  /-- R186: Command that commits a local group at its commit instant or starts a chain PREPARE. -/
  | txnCommit (q : Req)
  /-- R200: Command that removes a group. -/
  | txnDiscard (q : Req)
  /-- R201: Command that returns generation and group state. -/
  | txnStatus (q : Req)
  /-- R571: Command that returns calibration state. -/
  | calStatus (q : Req)
  /-- R563: Command that runs one internal trim on demand. -/
  | calTrim (q : Req)
  /-- R565: Command that starts building a calibration chart. -/
  | calChart (q : Req)
  /-- R566: Command that converts measured readings into group members. -/
  | calAlignLoad (q : Req)
  /-- R570: Command that sets plausibility limits. -/
  | calLimits (q : Req)
  /-- R348: Command that sets a row's strobe polarity and width. -/
  | strobeConfig (q : Req)
  /-- R349: Command that sets head accounting policy and counting. -/
  | hacConfig (q : Req)
  /-- R350: Command that returns head authentication state. -/
  | headAuthStatus (q : Req)
  /-- R351: Command that returns a head's usage record and pending counts. -/
  | headUsage (q : Req)
  /-- R352: Command that starts usage commits on connectors. -/
  | usageCommitNow (q : Req)
  /-- R300: Command that wakes, sleeps or resets head-link connectors. -/
  | linkControl (q : Req)
  /-- R301: Command that configures a connector's lanes. -/
  | laneConfig (q : Req)
  /-- R302: Command that returns every lane's state. -/
  | laneStatus (q : Req)
  /-- R325: Command that returns what a head driver declared. -/
  | headDriverInfo (q : Req)
  /-- R326: Command that passes opaque bytes to a head driver over the HMC. -/
  | headTunnel (q : Req)
  /-- R403: Command that sets servo period, links and gear lead. -/
  | drivePortConfig (q : Req)
  /-- R404: Command that sets an axis's limits. -/
  | axisConfig (q : Req)
  /-- R405: Command that enables, disables or fault-resets an axis. -/
  | axisEnable (q : Req)
  /-- R406: Command that starts a move, jog or stop. -/
  | axisMotion (q : Req)
  /-- R392: Command that gears an axis to the web or changes its ratio. -/
  | axisGear (q : Req)
  /-- R394: Command that starts homing against a hard stop. -/
  | axisHome (q : Req)
  /-- R388: Command that changes acceleration limits deferred or immediate. -/
  | axisLimits (q : Req)
  /-- R410: Command that returns an axis's state. -/
  | axisStatus (q : Req)
  /-- R436: Command that returns chain address, mode and beacon state. -/
  | chainStatus (q : Req)
  /-- R437: Command that starts enumeration on the head. -/
  | chainEnumerate (q : Req)
  /-- R438: Command that sets peer_stop and sleep_ms. -/
  | chainConfig (q : Req)
  /-- R439: Command that forwards a mailbox request to a peer module. -/
  | chainForward (q : Req)
  /-- R440: Command that wakes or sleeps the whole chain. -/
  | chainLink (q : Req)
  /-- R441: Command that returns fault log bounds. -/
  | logStatus (q : Req)
  /-- R442: Command that copies fault log records. -/
  | logRead (q : Req)
  /-- R516: Command that returns memory state and counters. -/
  | memStatus (q : Req)
  /-- R517: Command that sets neighbour refresh, set-point policy and scrub period. -/
  | memConfig (q : Req)
  /-- R518: Command that corrupts one stored word. -/
  | memInject (q : Req)
  /-- R225: Command that plants one checking fault. -/
  | checkInject (q : Req)
  /-- R226: Command that returns engine map, spares and check counters. -/
  | checkStatus (q : Req)
  /-- R303: Command that starts or stops a lane pattern test. -/
  | laneTest (q : Req)
  /-- R304: Command that returns a lane's test counters. -/
  | laneTestRead (q : Req)
  /-- R542: Command that returns clock sources, PLLs and domains. -/
  | clockStatus (q : Req)
  /-- R597: Management command that makes a NOW stop with reason MANAGEMENT. -/
  | mgmtJobStop (q : Req)
  /-- R597: Management command that reads domains or puts the module in standby. -/
  | mgmtDomains (q : Req)
  /-- R598: Management command that opens a recovery upload and erases the area. -/
  | recoveryBegin (q : Req)
  /-- R598: Management command that writes the next sequential piece of the recovery image. -/
  | recoveryData (q : Req)
  /-- R599: Management command that verifies, copies and activates the recovery image. -/
  | recoveryCommit (q : Req)
  /-- R416: Doorbell write to a request ring tail, accepted or discarded by distance. -/
  | reqTailWrite (m : Fin 4) (v : BitVec 32)
  /-- R416: Write that consumes replies, accepted or discarded. -/
  | rplHeadWrite (m : Fin 4) (v : BitVec 32)
  /-- R415: W1C write to host_reset or overrun of a mailbox. -/
  | mbStatusClear (m : Fin 4) (v : BitVec 32)
  /-- R474: W1C write to GLOBAL_FAULT, resignalling vector 0 if a bit remains. -/
  | globalFaultClear (v : BitVec 32)
  /-- R481: Write that assigns Bulk DMA channels to host or firmware. -/
  | bdAssignWrite (v : BitVec 32)
  /-- R485: Write that pulses software request lines. -/
  | drqSoftWrite (v : BitVec 32)
  /-- R478: Write that moves the BAR2 aperture base. -/
  | bar2BaseWrite (part : Half) (v : BitVec 64)
  /-- R483: Write of go that latches and checks a channel transfer. -/
  | go (c : Fin 32) (v : BitVec 32)
  /-- R486: Write of abort that stops new reads of an active channel. -/
  | abort (c : Fin 32) (v : BitVec 32)
  /-- R482: W1C write to a channel's drq_overflow or go_ignored. -/
  | bdStatusClear (c : Fin 32) (v : BitVec 32)
  /-- R490: Write of enable that resets the queue indices or is refused. -/
  | qCtrlEnable (n : Fin 48) (v : BitVec 32)
  /-- R490: Write that consumes queue records, discarded if it passes tail. -/
  | qHeadWrite (n : Fin 48) (v : BitVec 32)
  /-- R489: W1C write to a queue's error bits. -/
  | qStatusClear (n : Fin 48) (v : BitVec 32)
  /-- R7: Write to a BAR0 register without behaviour of its own. -/
  | bar0RegisterWrite (off : BitVec 24) (size : Nat) (v : BitVec 64)
  /-- R472: 4-byte read of a 64-bit register's low half that latches the high half. -/
  | bar0LowHalfRead (off : BitVec 24) (size : Nat)
  /-- R479: Host read through the aperture, zero outside open windows. -/
  | bar2Read (off : BitVec 32) (len : Nat)
  /-- R479: Host write through the aperture, discarded outside open windows. -/
  | bar2Write (off : BitVec 32) (data : List Byte)
  /-- R596: W1C SMBus write to ALERT_STATUS. -/
  | alertStatusClear (data : List Byte) (pec : Bool)
  /-- R597: Keyed SMBus write that powers and boots the domains from standby. -/
  | pwrCtrlWake (data : List Byte) (pec : Bool) (t : Nat)
  /-- R593: SMBus write of go that submits a tunnel request. -/
  | mbCtrlGo (n : Fin 2) (data : List Byte) (pec : Bool)
  /-- R593: SMBus write of pop that discards the oldest tunnel reply. -/
  | mbCtrlPop (n : Fin 2) (data : List Byte) (pec : Bool)
  /-- R592: W1C SMBus write to a tunnel's overrun bit. -/
  | mbCtrlClear (n : Fin 2) (data : List Byte) (pec : Bool)
  /-- R593: SMBus Block Write into a tunnel request buffer. -/
  | mbReqWrite (n : Fin 2) (data : List Byte) (pec : Bool)
  /-- R593: Process Call that reads a tunnel reply from an offset. -/
  | mbRplRead (n : Fin 2) (off : Byte)
  /-- R596: Alert Response Address read that releases SMBALERT_N. -/
  | alertResponseRead
  /-- R592: SMBus write to a management register without behaviour of its own. -/
  | mgmtRegisterWrite (code : Byte) (data : List Byte) (pec : Bool)
  /-- R591: SCL held low over 25 ms resets the bus interface. -/
  | sclTimeout (t : Nat)
  /-- R421: A mailbox starts its next request once the previous has replied and room exists. -/
  | mailboxRequestStart (t : Nat)
  /-- R421: A reply waiting for a full reply ring is written when room appears. -/
  | heldReplyWrite (m : Fin 8)
  /-- R424: A held or tunnel final reply is written when the result event is known. -/
  | finalReply (t : Nat)
  /-- R492: An event is written to its routed event queue. -/
  | eventPost (t : Nat)
  /-- R493: When room returns, the lost count and held records are written. -/
  | evqLost (n : Fin 16) (t : Nat)
  /-- R476: Expiry of coal_us signals a queue's vector. -/
  | queueInterruptTimer (n : Fin 48) (t : Nat)
  /-- R470: PERST#, hot reset, FLR or long link down resets the host domain. -/
  | perst (t : Nat)
  /-- R485: A request line pulse moves one burst of a DRQ-driven channel. -/
  | drqPulse (line : Fin 64) (t : Nat)
  /-- R487: A channel read completes or fails and is retried once. -/
  | dmaReadCompletion (c : Fin 48) (data : List Byte) (ok : Bool) (t : Nat)
  /-- R491: A channel transfer ends and writes its completion record. -/
  | dmaTransferDone (c : Fin 48) (t : Nat)
  /-- R493: A channel waiting in WAIT_CQ writes its record when room appears. -/
  | waitCqRecord (c : Fin 32) (t : Nat)
  /-- R534: Power-on or PD0 brownout resets PD0 to PD11. -/
  | powerOn (maddr : BitVec 3) (chainHead : Bool)
  /-- R534: MGMT_RESET_N held low starts a module reset. -/
  | mgmtResetN (level : Bool) (t : Nat)
  /-- R536: A module reset latches its cause, asserts WASTE, idles strobes and releases domains in order. -/
  | moduleResetSequence (t : Nat)
  /-- R536: End of reset hold releases PD1 on FIO and starts boot. -/
  | resetRelease (t : Nat)
  /-- R545: Completion of a boot stage moves boot to the next stage. -/
  | bootStage (r : BootResult) (t : Nat)
  /-- R556: An erase, program or verify of an update completes and posts FW_DONE. -/
  | fwOperationDone (r : FwResult) (t : Nat)
  /-- R559: 1 ms after FW_DONE with activate, a firmware activation reset. -/
  | firmwareActivation (t : Nat)
  /-- R535: A lockstep mismatch restarts the Kettle cores. -/
  | kettleFault (t : Nat)
  /-- R535: 10 ms without service restarts the Kettle, or a watchdog reset if lasting. -/
  | kettleWatchdog (t : Nat)
  /-- R534: 100 ms without service restarts the Thermos core. -/
  | thermosWatchdog (t : Nat)
  /-- R606: VIN under or over its threshold is handled as a PD1 rail fault. -/
  | vinFault (mv : Nat) (t : Nat)
  /-- R607: A rail fault powers the domain and its dependants down. -/
  | railFault (d : Fin 12) (cause : RailCause) (t : Nat)
  /-- R607: Expiry of the repower delay powers a faulted domain again. -/
  | repower (d : Fin 12) (mv : Nat) (t : Nat)
  /-- R604: A domain's rails are enabled, power good awaited, clamps and reset released. -/
  | domainPowerUp (d : Fin 12) (good : Bool) (t : Nat)
  /-- R605: A domain is reset, clamped and its rails discharged. -/
  | domainPowerDown (d : Fin 12) (t : Nat)
  /-- R610: Every millisecond the sensors are read and levels set. -/
  | temperatureSample (temps : List Int) (t : Nat)
  /-- R521: A crystal's output is released once amplitude and frequency are stable. -/
  | crystalStart (x : Crystal) (t : Nat)
  /-- R521: Expiry of a crystal start-up limit restarts it or makes the fault lasting. -/
  | crystalStartLimit (x : Crystal) (t : Nat)
  /-- R528: A monitor declares a clock lost after two bad windows. -/
  | clockLoss (src : ClockSource) (t : Nat)
  /-- R529: After 10 µs of relock, domains switch back to the PLL. -/
  | pllLock (p : Fin 8) (t : Nat)
  /-- R524: A domain's clock switch completes on the new clock's fourth edge. -/
  | clockSwitch (d : Fin 13) (t : Nat)
  /-- R525: No handshake in 64 SIO cycles forces the switch. -/
  | switchHandshakeTimeout (d : Fin 13) (t : Nat)
  /-- R526: Too few new-clock edges in 64 SIO cycles selects FIO or gates the domain. -/
  | newClockTimeout (d : Fin 13) (t : Nat)
  /-- R532: PD1 measures 32,768 XB cycles against XA and writes the increment. -/
  | xbIncrementUpdate (xaCycles : Nat) (t : Nat)
  /-- R533: At each XB edge a domain's time copy is reloaded, never backward. -/
  | timeCopyReload (d : Fin 13) (t : Nat)
  /-- R540: A crossing whose other side is reset flushes and drops traffic. -/
  | peerInReset (d : Fin 13) (drops : Nat)
  /-- R541: Traffic resumes once both sides have raised ready. -/
  | crossingReady (d : Fin 13)
  /-- R562: Every 10 s FIO is trimmed against XA. -/
  | fioTrim (khz : Nat) (code : Byte) (ok : Bool) (t : Nat)
  /-- R562: Every 1 s SIO is trimmed against XA. -/
  | sioTrim (hz : Nat) (code : Byte) (ok : Bool) (t : Nat)
  /-- R565: CAL finishes staging the chart tiles, lists and panel and posts CAL_DONE. -/
  | chartBuilt (ok : Bool) (t : Nat)
  /-- R563: Retraining of every channel completes and posts CAL_DONE. -/
  | memRetrainDone (failed : BitVec 32) (failedTwice : BitVec 32) (t : Nat)
  /-- R25: An accepted A or B edge updates count, velocity and backward-motion state. -/
  | encoderEdge (a : Bool) (b : Bool) (t : Nat)
  /-- R26: A Z pulse runs the index check, latches INDEX origin or confirms a pending encoder fault. -/
  | zPulse (t : Nat)
  /-- R32: A bad encoder line inhibits line starts at once. -/
  | lineFail (t : Nat)
  /-- R32: After 10 µs of good signal and confirmation, line starts resume. -/
  | lineGood (t : Nat)
  /-- R30: Velocity change over 1 ms above accel_limit fails the check. -/
  | accelerationCheck (t : Nat)
  /-- R28: No edge for stop_timeout_us sets velocity zero and STOPPED. -/
  | stopTimeout (t : Nat)
  /-- R48: Periodic evaluation asserts or deasserts SPEED_HIGH. -/
  | speedHigh (t : Nat)
  /-- R49: A JOB_MARK edge that stays stable for the filter time qualifies. -/
  | jobMark (level : Bool) (edge : Nat) (t : Nat)
  /-- R457: A PRINT_ENABLE level qualified after 10 µs enables the latch or pauses and resumes. -/
  | printEnable (level : Bool) (edge : Nat) (t : Nat)
  /-- R336: A FIRE_INHIBIT level qualified after 200 ns changes the qualified level. -/
  | fireInhibit (level : Bool) (edge : Nat) (t : Nat)
  /-- R41: A row's look-ahead position reaches its next start position and the line start is produced. -/
  | lineStart (r : Fin 16) (t : Nat)
  /-- R461: A row reaches its stop line and JOB_BOUNDARY STOP is posted. -/
  | rowStopped (r : Fin 16) (t : Nat)
  /-- R463: A row's last line has its fate reported and the row is done. -/
  | rowDone (r : Fin 16) (t : Nat)
  /-- R464: When the last row stops or is done, the job stop actions run. -/
  | jobEnd (t : Nat)
  /-- R465: A NOW stop made by the module itself. -/
  | faultStop (t : Nat)
  /-- R336: At t_s − 50 ns a pulse is cancelled if FIRE_INHIBIT is asserted. -/
  | inhibitTest (r : Fin 16) (t : Nat)
  /-- R331: FSQ emits the row's strobe pulse at t_s. -/
  | fireStrobe (r : Fin 16) (t : Nat)
  /-- R334: A strobe pad edge or missing edge is compared with the schedule. -/
  | strobeReadback (r : Fin 16) (e : PadEdge) (t : Nat)
  /-- R47: At most once per ms a row's withheld overspeed lines are reported. -/
  | lsdOverspeed (r : Fin 16) (t : Nat)
  /-- R454: An arming step completes and the next begins, or arming fails. -/
  | armingStep (t : Nat)
  /-- R160: A row has its first lines agreed, buffered and acknowledged. -/
  | rowReady (r : Fin 16) (t : Nat)
  /-- R204: An engine finishes a line and hands its signatures and coupling word to its CVU. -/
  | engineLineDone (p : Pipe) (h : Fin 32) (upset : Upset) (t : Nat)
  /-- R162: Checkpoint part CRCs are compared and the record marked valid or bad. -/
  | checkpointCompare (r : Fin 16) (bad : CvuUpset) (t : Nat)
  /-- R207: CVU compares primary and shadow sets of a half-row line. -/
  | lineCompare (h : Fin 32) (bad : CvuUpset) (t : Nat)
  /-- R208: One pipeline's set missing 16,384 clocks after the other's is a mismatch. -/
  | missingTimeout (h : Fin 32) (bad : CvuUpset) (t : Nat)
  /-- R117: A line waiting over 16,384 clocks for a coupling value is reported. -/
  | couplingTimeout (p : Pipe) (h : Fin 32) (waits : Nat) (bad : CvuUpset) (t : Nat)
  /-- R165: SPC discards lines at or beyond Q, restores a checkpoint and resumes expansion. -/
  | squash (r : Fin 16) (t : Nat)
  /-- R171: Lines withheld during a replay are reported once. -/
  | spcReplayLate (r : Fin 16) (t : Nat)
  /-- R172: Lines withheld because the window ran dry are reported at most once per ms. -/
  | spcDry (r : Fin 16) (t : Nat)
  /-- R221: HLK's pour-time recheck of a half-row is classified by one resend. -/
  | pourRecheck (h : Fin 32) (t : Nat)
  /-- R311: A lane queue sends the next frame, WITHHOLD or FLUSH by priority. `cvuBad`: how often in a row the self-check fails of the
  unit that rechecks the frame (09 R210, R220). -/
  | frameSend (l : Fin 32) (upset : Upset) (cvuBad : Nat) (t : Nat)
  /-- R314: A head driver ACK block ends a frame or queues a resend. -/
  | ack (l : Fin 32) (hdr : BitVec 2) (blk : BitVec 64) (t : Nat)
  /-- R314: No ACK within 4.5 µs of FRAME_END queues one resend or makes the fault lasting. -/
  | ackTimeout (l : Fin 32) (t : Nat)
  /-- R319: FLUSH is sent at arming or stop and FLUSHED awaited. -/
  | flush (l : Fin 32) (t : Nat)
  /-- R319: No FLUSHED within 4.5 µs resends FLUSH or fails arming. -/
  | flushTimeout (l : Fin 32) (t : Nat)
  /-- R283: A received lane training block drives polarity, order and stage progress. -/
  | laneTrainingBlock (l : Fin 34) (hdr : BitVec 2) (blk : BitVec 64) (t : Nat)
  /-- R284: A lane leaves a bring-up stage when its condition is met. -/
  | laneStageDone (l : Fin 34) (seen : LaneSeen) (t : Nat)
  /-- R285: A lane exceeding a stage limit restarts once or becomes FAILED. -/
  | stageLimit (l : Fin 34) (t : Nat)
  /-- R292: Loss of signal, lock or clock recovery on an active lane starts a retrain. -/
  | laneLoss (l : Fin 32) (cause : BitVec 4) (headers : List (BitVec 2)) (t : Nat)
  /-- R293: A lane retrain reaches READY or exceeds 40 µs. -/
  | retrainDone (l : Fin 32) (t : Nat)
  /-- R294: auto_sleep_ms after a job stop the connector enters SLEEP. -/
  | autoSleep (c : Fin 4) (t : Nat)
  /-- R303: A lane test reaches its duration and posts HLK_TEST_DONE. -/
  | laneTestEnd (t : Nat)
  /-- R322: A head driver's HMC answer is received and acted on. -/
  | hmcAnswer (c : Fin 4) (chars : List (Byte × Bool)) (t : Nat)
  /-- R322: No answer within 5 ms resends once or makes a lasting HMC fault. -/
  | hmcTimeout (c : Fin 4) (t : Nat)
  /-- R324: Every 10 ms the module sends STATUS to an active head driver. -/
  | hmcStatusPoll (c : Fin 4) (t : Nat)
  /-- R346: Every interval_s seconds HAC commits usage for each passed head. -/
  | usageCommit (t : Nat)
  /-- R358: A hop acknowledgement ends a chain message or triggers a resend. -/
  | chnAck (side : Side) (blk : BitVec 64) (t : Nat)
  /-- R358: No CHN_ACK within 2 µs resends once or loses the hop. -/
  | chnAckTimeout (side : Side) (t : Nat)
  /-- R360: An ENUM message assigns this module's address and is forwarded. -/
  | enum (h : ChainHdr) (value : Byte) (serial : BitVec 64) (t : Nat)
  /-- R360: ENUM_DONE sets count and epoch. -/
  | enumDone (h : ChainHdr) (count : Byte) (epoch : BitVec 6) (serial : BitVec 64) (t : Nat)
  /-- R361: The token not returning within 1 ms retries or posts NO_RETURN. -/
  | enumTimeout (t : Nat)
  /-- R361: A module without an address 1 s after its hops are up posts NO_HEAD. -/
  | noHead (t : Nat)
  /-- R363: A REJOIN request or answer assigns address, count and epoch after reset. -/
  | rejoin (h : ChainHdr) (m : RejoinMsg) (t : Nat)
  /-- R364: Every 1 ms each UP hop exchanges SYNC to track chain time. -/
  | sync (side : Side) (t1 : Nat) (t2 : Nat) (t3 : Nat) (t4 : Nat)
  /-- R365: At each T_k the module samples P and the head starts a BEACON. -/
  | beaconSample (t : Nat)
  /-- R365: A BEACON lap is filled and forwarded, or a lap-1 beacon is read. -/
  | beacon (h : ChainHdr) (b : Beacon) (t : Nat)
  /-- R369: No lap-1 beacon for 256 µs posts CHN_BEACON and may take over origination. -/
  | beaconLoss (t : Nat)
  /-- R193: A PREPARE is voted on and forwarded around the ring. -/
  | txnPrepare (h : ChainHdr) (m : PrepareMsg) (t : Nat)
  /-- R194: PREPARE not returning within 50 µs makes the coordinator decide ABORT. -/
  | prepareTimeout (t : Nat)
  /-- R194: The first decision copy commits or aborts a prepared group. -/
  | txnDecision (h : ChainHdr) (group : BitVec 32) (commit : Bool) (t : Nat)
  /-- R195: 256 µs without decision sends TXN_QUERY to every module. -/
  | decisionTimeout (t : Nat)
  /-- R195: A TXN_QUERY is answered with the group's state. -/
  | txnQuery (h : ChainHdr) (group : BitVec 32) (t : Nat)
  /-- R195: A TXN_ANSWER resolves an in-doubt group. -/
  | txnAnswer (h : ChainHdr) (group : BitVec 32) (st : TxnAnswerState) (t : Nat)
  /-- R372: A FAULT message from a peer may cause a fault stop. -/
  | chnFault (h : ChainHdr) (fclass : Byte) (stop : Bool) (time : BitVec 64) (t : Nat)
  /-- R371: A WASTE message from a peer adds a range with cause PEER. -/
  | chnWaste (h : ChainHdr) (cause : Byte) (first : Int) (last : Int) (t : Nat)
  /-- R373: A peer's RESET_NOTICE marks it in reset. -/
  | resetNotice (h : ChainHdr) (cause : Byte) (t : Nat)
  /-- R376: A forwarded request is placed in MB6 or MB7. -/
  | peerReq (h : ChainHdr) (mgmt : Bool) (msg : List Byte) (t : Nat)
  /-- R376: A peer's reply answers the pending CHAIN_FORWARD. -/
  | peerReply (h : ChainHdr) (msg : List Byte) (full : Nat) (t : Nat)
  /-- R376: No peer reply within 1 s answers LASTING_FAULT. -/
  | forwardTimeout (t : Nat)
  /-- R374: A lost hop is retrained once and otherwise goes DOWN into LINE mode. -/
  | hopLoss (side : Side) (cause : BitVec 4) (headers : List (BitVec 2)) (t : Nat)
  /-- R374: A hop retrain succeeds or times out after 100 µs. -/
  | hopRetrainDone (side : Side) (t : Nat)
  /-- R377: Upstream directions sleep once no module is armed for sleep_ms. -/
  | chainSleepTimer (t : Nat)
  /-- R371: Merged waste ranges are broadcast at most once per ms. -/
  | wasteBroadcast (t : Nat)
  /-- R382: At each tick MOT computes every axis and sends SETPOINT frames. -/
  | servoTick (t : Nat)
  /-- R399: A drive's STATUS frame is received and checked. -/
  | statusFrame (a : Fin 8) (frame : List Byte) (t : Nat)
  /-- R402: A missing or bad status slot is a link fault retried in the next period. -/
  | driveSlotFault (a : Fin 8) (cause : SlotFault) (t : Nat)
  /-- R405: An enable not reported within 100 ms completes with FAULT. -/
  | enableTimeout (a : Fin 8) (t : Nat)
  /-- R268: A tile staging ends, swapping in the result or discarding it. -/
  | hamperStaged (tile : BitVec 24) (data : List Byte) (readOk : Bool) (t : Nat)
  /-- R275: A list staging ends and posts its handle or failure. -/
  | hamperListStaged (data : List Byte) (readOk : Bool) (t : Nat)
  /-- R246: A decompressor finishes a block, retried and reassigned on error. -/
  | blockDecode (p : Pipe) (u : Fin 16) (fail : Bool) (t : Nat)
  /-- R252: A compressor's verify of a block passes or retries and isolates. -/
  | compressorVerify (u : Fin 8) (fail : Bool) (t : Nat)
  /-- R255: A CODEC_CHECK completes and posts its result. -/
  | cdxCheckDone (t : Nat)
  /-- R507: A DRAM read with an ECC error is corrected and re-read, or poisoned. -/
  | dramReadError (addr : Nat) (bit : Fin 72) (double : Bool) (again : Bool) (reader : MemReader) (t : Nat)
  /-- R512: An SRAM read with an error is corrected or handled by array. -/
  | sramReadError (arr : SramArray) (addr : Nat) (double : Bool) (again : Bool) (t : Nat)
  /-- R511: Each array's sweeper reads every word within 1 s. -/
  | sramSweep (arr : SramArray) (t : Nat)
  /-- R513: The scrubber reads its next 4 KiB burst. -/
  | scrubBurst (t : Nat)
  /-- R513: A scrub pass ends and MEM_SCRUB is posted if late. -/
  | scrubPassEnd (t : Nat)
  /-- R500: A rank refresh interval is due, deferred in panic up to 8 intervals. -/
  | refresh (ch : Fin 32) (rank : Fin 2) (t : Nat)
  /-- R502: A random draw at an activate refreshes adjacent rows. -/
  | neighbourRefresh (ch : Fin 32) (rank : Fin 2) (bank : Fin 16) (row : Fin 131072) (t : Nat)
  /-- R501: Every 32 ms the refresh multiplier is set from die status. -/
  | refreshRateRead (mult : Nat) (t : Nat)
  /-- R506: Every 256 ms background ZQ calibration runs. -/
  | zqCalibration (t : Nat)
  /-- R506: Every 32 ms write-clock drift is measured and adjusted or retrained. -/
  | driftMeasure (ch : Fin 32) (drift : DriftResult) (t : Nat)
  /-- R503: The memory set point is chosen and switched. -/
  | setPointDecision (t : Nat)
  /-- R504: 10 ms without traffic at FSP2 puts ranks in self-refresh. -/
  | selfRefresh (t : Nat)
  /-- R553: A write refused by a region fence is discarded and causes a fault stop. -/
  | fenceViolation (agent : Agent) (addr : Nat) (t : Nat)
  /-- R577: FSV receives a detection and applies the retry rule and logging. -/
  | faultDetection (t : Nat)
  /-- R585: A range closes when P − O passes its end and a WASTE record is written. -/
  | wasteRangeClose (t : Nat)
  /-- R586: 1 ms after P − O leaves a range, WASTE deasserts. -/
  | wasteHoldEnd (t : Nat)
  /-- R294: A connector finishes sending its stage-7 training blocks, idles its transmitters and stops its clocks, completing SLEEP. -/
  | sleepEntry (c : Fin 4) (t : Nat)
  /-- R361: The chain head that finds no signal on either chain connector within 100 ms becomes a chain of one with count 1. -/
  | chainOfOne (t : Nat)
  /-- R597: 1 ms after an accepted MGMT_DOMAINS STANDBY, the module stops any job and powers PD11 down to PD1. -/
  | standby (t : Nat)
  /-- R428: Release of PERST#, hot reset or FLR brings the host domain out of reset and sets host_reset. -/
  | perstRelease (t : Nat)
  /-- R278: Tiles freed by auto_free since the last report are posted with pages_free, at most once per ms. -/
  | hamperSpace (t : Nat)
  /-- R519: The count of transient correctable errors of a memory since the last post is reported at most once per second. -/
  | memEcc (memory : Fin 8) (t : Nat)
  /-- R298: A lane test checker gains sync after 64 error-free bits, or loses it when more than 256 of 1,024 bits are in error, and counts the loss. -/
  | checkerSync (l : Fin 32) (bits : List Bool) (t : Nat)
  /-- R299: Periodic injection inverts one transmitted bit every 10^n bits and counts it in injected. -/
  | errorInjection (l : Fin 32) (t : Nat)
  /-- R440: CHAIN_LINK WAKE answers LASTING_FAULT when the hops are not all UP 2 ms after the request. -/
  | chainWakeTimeout (t : Nat)
deriving DecidableEq, Repr

end Sys2Proof
end

