-- ==== Sys2Proof/Decode.lean ====
section
/-! DEFINITION. Words of the table of operations: the table gives no row any bits, so no word spells a command. -/

namespace Sys2Proof

/-- The command a word spells. The rows of the table have no bits, so there is none. -/
def decodeTableWord (_nbits _w : Nat) : Option Instr := none

end Sys2Proof
end

