-- ==== Sys2Proof/Config.lean ====
section
/-! DEFINITION. What an implementation fixes and what the spec leaves open. An `opaque` constant has no value a proof
could use: a statement that mentions one holds whatever it is. -/

namespace Sys2Proof.Config

/-! ### Identity of one module (17 R433): the spec gives the fields and no value. -/

/-- Module serial number (R433). -/
opaque serial : BitVec 64
/-- Hardware revision (R433, R473). -/
opaque hwRev : BitVec 16
/-- Firmware release of the running image, major (R433): 3 or higher by R1. -/
opaque fwMajor : Byte
opaque fwMinor : Byte
opaque fwPatch : BitVec 16

/-- The max read request size the host has programmed, as PCI Express codes it: 128 bytes times 2 to this power (19 R488). -/
opaque maxReadRequest : Fin 6

/-! ### Free values: applied to the counter `State.free`, which the step that draws one advances. -/

/-- The true random generator of the memory controller: DRAM address keys and refresh draws (20 R498, R502). -/
opaque random : Nat → BitVec 64
/-- A challenge nonce of head accounting (14 R341). -/
opaque nonce : Nat → BitVec 256
/-- A compressor's 3-byte hash, its code lengths for symbol counts within a limit, and its runs for a list of code lengths: the
firmware release's choices, the same for every input (10 R249, R250). -/
opaque hash3 : Byte → Byte → Byte → BitVec 15
opaque codeLengths : List Nat → Nat → List Nat
opaque lengthRuns : List Nat → List (Nat × Nat)

/-- The error code of a decode that fails for a reason outside the stored block (10 R246). -/
opaque decodeError : Nat → BitVec 8

/-- Input current in mA and input power in mW as measured when POWER_STATUS reads them (26 R613). -/
opaque inputCurrent : Nat → BitVec 32
opaque inputPower : Nat → BitVec 32
/-- Bytes that agents whose amounts no rule gives move in a 10 ms window (20 R516). -/
opaque otherTraffic : Nat → BitVec 32

end Sys2Proof.Config
end

