-- ==== Sys2Proof/Machine/Operands.lean ====
section
/-! DEFINITION. Byte strings and the fields in them: little-endian (00 R5), fixed-size messages, and the aligned data
fields of an event (19 R492). -/

namespace Sys2Proof.Machine

/-- The unsigned value of a little-endian byte string. -/
def leNat : List Byte → Nat
  | [] => 0
  | b :: r => b.toNat + 256 * leNat r

/-- The `n` bytes of a value, little-endian, modulo 2^(8n). -/
def le : Nat → Nat → List Byte
  | 0, _ => []
  | n + 1, v => BitVec.ofNat 8 v :: le n (v / 256)

/-- The unsigned field of `size` bytes at `off`; bytes past the end read 0. -/
def fld (p : List Byte) (off size : Nat) : Nat := leNat ((p.drop off).take size)

/-- Two's complement of `bits` bits. -/
def signed (bits v : Nat) : Int := if v % 2 ^ bits < 2 ^ (bits - 1) then (v % 2 ^ bits : Nat) else (v % 2 ^ bits : Nat) - (2 ^ bits : Nat)

/-- The signed field of `size` bytes at `off`. -/
def sfld (p : List Byte) (off size : Nat) : Int := signed (8 * size) (fld p off size)

/-- A signed value as `n` bytes, two's complement. -/
def sle (n : Nat) (v : Int) : List Byte := le n (v % (2 ^ (8 * n) : Nat)).toNat

/-- The bytes `off` to `off + n - 1` are all zero: a reserved field holds what R6 asks for. -/
def zeros (p : List Byte) (off n : Nat) : Bool := ((p.drop off).take n).all (· == 0)

def zeroBytes (n : Nat) : List Byte := List.replicate n 0

/-- `p` cut or padded with zeros to `n` bytes. -/
def padTo (n : Nat) (p : List Byte) : List Byte := p.take n ++ zeroBytes (n - p.length)

/-- Bit `i` of a value. -/
def bit (v i : Nat) : Bool := v.testBit i

/-- Bits `lo` to `lo + n - 1` of a value. -/
def bits (v lo n : Nat) : Nat := v / 2 ^ lo % 2 ^ n

def b2n (b : Bool) : Nat := if b then 1 else 0

/-- A bit mask of a list of Bools, element 0 in bit 0. -/
def maskOf : List Bool → Nat
  | [] => 0
  | b :: r => b2n b + 2 * maskOf r

/-- Signed value as an unsigned field of `bits` bits. -/
def wrapInt (bits : Nat) (v : Int) : Nat := (v % (2 ^ bits : Nat)).toNat

/-- A field of an event's data: size in bytes and value. -/
abbrev DataField := Nat × Nat

/-- The data of an event: the fields in order, each aligned within the data to its own size (19 R492). -/
def evData (fs : List DataField) : List Byte :=
  fs.foldl (fun acc f => acc ++ zeroBytes ((f.1 - acc.length % f.1) % f.1) ++ le f.1 f.2) []

/-- Saturating increment of a counter. -/
def satAdd {w : Nat} (c : BitVec w) (n : Nat) : BitVec w := BitVec.ofNat w (min (c.toNat + n) (2 ^ w - 1))

/-- Change one element of a fixed array. -/
def upd {α : Type} {n : Nat} (v : Vector α n) (i : Fin n) (f : α → α) : Vector α n := v.set i (f v[i])

/-- Floor division and remainder as the spec's ⌊x⌋: toward minus infinity for a positive divisor. -/
def fdiv (a : Int) (b : Int) : Int := a.fdiv b

/-- Ceiling division of naturals. -/
def cdiv (a b : Nat) : Nat := (a + b - 1) / b

/-- Round to nearest of a quotient with halves upward. -/
def rdiv (a : Int) (b : Nat) : Int := (2 * a + b).fdiv (2 * b)

/-- Replace or add an entry of an association list. -/
def assocSet {α β : Type} [BEq α] (l : List (α × β)) (k : α) (v : β) : List (α × β) := (k, v) :: l.filter (fun e => !(e.1 == k))

/-! ### CRC-32C (09 R204) -/

/-- One byte into a reflected CRC-32C register, polynomial 0x82F63B78. -/
def crcStep : Nat → BitVec 32 → BitVec 32
  | 0, c => c
  | k + 1, c => crcStep k (if c.getLsbD 0 then (c >>> 1) ^^^ 0x82F63B78#32 else c >>> 1)

def crcByte (c : BitVec 32) (b : Byte) : BitVec 32 := crcStep 8 (c ^^^ b.zeroExtend 32)

/-- CRC-32C of a byte string with the seed value `init` XORed into the all-ones register start (09 R204): `init` 0 is
the ordinary CRC-32C. -/
def crc32c (init : BitVec 32) (p : List Byte) : BitVec 32 := ~~~(p.foldl crcByte (init ^^^ 0xFFFFFFFF#32))

/-! ### Control blocks (12 R283, 13 R306) -/

/-- One bit of CRC-8, x^8 + x^2 + x + 1, not reflected. -/
def crc8Step : Nat → BitVec 8 → BitVec 8
  | 0, c => c
  | k + 1, c => crc8Step k (if c.getLsbD 7 then (c <<< 1) ^^^ 0x07#8 else c <<< 1)

def crc8 (p : List Byte) : Byte := p.foldl (fun c b => crc8Step 8 (c ^^^ b)) 0

def blockOf (p : List Byte) : BitVec 64 := BitVec.ofNat 64 (leNat p)
def blockBytes (b : BitVec 64) : List Byte := le 8 b.toNat

/-- A control block of seven bytes and their `chk`. -/
def ctl (p : List Byte) : Bool × BitVec 64 := (true, blockOf (padTo 7 p ++ [crc8 (padTo 7 p)]))

/-- A block whose `chk` in byte 7 holds. -/
def chkOk (b : BitVec 64) : Bool := crc8 ((blockBytes b).take 7) == (blockBytes b).getD 7 0

end Sys2Proof.Machine
end

