-- ==== Sys2Proof/Machine/State.lean ====
section
/-! DEFINITION. The state of the module as plain data: every register, queue, table, counter, mode and pin the spec
gives the block, the reasons a step can stop, and the state right after power-on reset. Times are in units of 2^-32 ns
of always-on time (21 R532) unless a field says ns. -/

namespace Sys2Proof.Machine

/-- Reasons a step stops with a fault. No meaning of this model raises one: every row has an effect in the spec. -/
inductive Fault where
  /-- Raised by nothing; kept so that the type has a name a statement can use. Safe. -/
  | none
deriving DecidableEq, Repr

/-- Reasons a step refuses a command. -/
inductive Refusal where
  /-- A row of the table without a meaning in this model. Safe: nothing can be proved of it. -/
  | notModelled (mnemonic : String)
deriving DecidableEq, Repr

/-! ### Messages, events and outputs -/

/-- The status codes of R430. -/
inductive Status where
  | ok | accepted | empty | badOpcode | badLength | badParam | badState | noResource | windowFault
  | leadTooShort | implausible | txnAborted | generationBusy | transientRecovered | lastingFault | internal
deriving DecidableEq, Repr

/-- The request a result belongs to: its mailbox and tag (R426). -/
structure Origin where
  mb : Fin 8
  tag : BitVec 16
deriving DecidableEq, Repr

/-- An event on its way to its event queue (19 R492); `data` is the encoded data of all its records. -/
structure Ev where
  code : BitVec 16
  cls : Fin 4
  origin : Option Origin
  status : Byte
  time : BitVec 64
  detail : BitVec 32
  data : List Byte
  /-- It belongs to a request that a reset of the host domain interrupted: it waits until its queue is enabled (R428). -/
  keep : Bool := false
deriving DecidableEq, Repr

/-- Everything the module puts on a wire: the model's own log of its outputs, newest first. -/
inductive Wire where
  /-- A posted write to host memory. -/
  | hostWrite (addr : Nat) (data : List Byte) (noSnoop : Bool)
  /-- A read of host memory asked for (19 R487, R488; 11 R266). -/
  | hostRead (addr : Nat) (length : Nat) (noSnoop : Bool)
  /-- An MSI-X vector is signalled (R475). -/
  | msix (vector : Nat)
  /-- Data returned for a read of BAR0, BAR2 or the management port. -/
  | readData (data : List Byte)
  /-- A BAR2 read that draws POISON: its completion is marked poisoned (20 R509). -/
  | readPoison (length : Nat)
  /-- The management port does not acknowledge (25 R590). -/
  | nack
  /-- The 64b/66b blocks a physical lane sends, control header or not, and payload before scrambling (12 R280, 13 R306). -/
  | laneBlocks (lane : Fin 34) (blocks : List (Bool × BitVec 64))
  /-- A NOTICE a lane inserts into the frame in progress: before the block of that number, counted from FRAME_START with the NOTICE
  blocks inserted earlier (13 R311). -/
  | laneNotice (lane : Fin 34) (before : Nat) (block : Bool × BitVec 64)
  /-- A physical lane begins to send a test pattern, uncoded (12 R297). -/
  | lanePattern (lane : Fin 34) (pattern : Nat)
  /-- A message of the HMC (13 R321). -/
  | hmc (connector : Fin 4) (msg : List Byte)
  /-- A setpoint frame of the drive port (16 R398). -/
  | setpoint (link : Fin 2) (frame : List Byte)
  /-- A strobe pulse: row, line, rising edge and width, and whether the legs of the pair are swapped (14 R328, R331). -/
  | strobe (row : Fin 16) (line : Nat) (rise : Nat) (width : Nat) (inverted : Bool)
  /-- A refresh of a rank, and a refresh of one row beside an activated one (20 R500, R502). -/
  | refresh (ch : Fin 32) (rank : Fin 2)
  | rowRefresh (ch : Fin 32) (rank : Fin 2) (bank : Fin 16) (row : Fin 131072)
deriving DecidableEq, Repr

/-! ### Mailboxes (17) -/

/-- One remembered request (R427). -/
structure Remembered where
  tag : BitVec 16
  opcode : BitVec 16
  crc : BitVec 32
  reply : List Byte
  pending : Bool
deriving DecidableEq, Repr

/-- A started request whose result is still to come, and how its result reaches it (R423, R425). -/
structure Outstanding where
  tag : BitVec 16
  opcode : BitVec 16
  /-- The mailbox still owes this request a final reply. -/
  owed : Bool
  /-- The reply is held, so the mailbox starts nothing else (R423). -/
  blocks : Bool
  /-- Its replies are discarded: it started before a reset of the host domain (R428). -/
  muted : Bool
  /-- A later request of its tag has taken its place in retry memory (R427). -/
  forgotten : Bool
deriving DecidableEq, Repr

/-- A known result waiting to be written as a final reply (R424). -/
structure Result where
  mb : Fin 8
  tag : BitVec 16
  status : Status
  detail : BitVec 32
  record : List Byte
deriving DecidableEq, Repr

/-- One mailbox: its ring registers (R415), queues and memory. -/
structure Box where
  reqTail : BitVec 7
  reqHead : BitVec 7
  rplTail : BitVec 7
  rplHead : BitVec 7
  replyIrq : Bool
  ready : Bool
  hostReset : Bool
  overrun : Bool
  /-- Requests of the internal rings of MB4 to MB7, oldest first (R414). -/
  requests : List (List Byte)
  /-- Replies not yet popped on MB4 and MB5, oldest first (25 R593). -/
  replies : List (List Byte)
  /-- Replies that wait for room in the reply ring (R421), oldest first. -/
  held : List (List Byte)
  outstanding : List Outstanding
  memory : List Remembered
deriving DecidableEq, Repr

/-- The mailbox unit MBX and the event routing of R434. -/
structure Mbx where
  boxes : Vector Box 8
  /-- The mailbox whose turn is next (R421). -/
  turn : Fin 8
  /-- The bytes of rings 0 to 7, keyed by BAR0 offset (R414). -/
  ringMem : List Host.Cell
  route : Vector Byte 4
  dropped : Vector (BitVec 32) 4
  /-- Events not yet posted, oldest first (R426). -/
  outbox : List Ev
  results : List Result
  /-- Origins of peers' requests in MB6 and MB7, oldest first (15 R376). -/
  peers : Vector (List (Fin 16)) 8
deriving DecidableEq, Repr

/-! ### Host interface, DMA and queues (19) -/

/-- One Host Window Table entry (22 R552). -/
structure Window where
  base : BitVec 64
  size : BitVec 32
  read : Bool
  write : Bool
  valid : Bool
deriving DecidableEq, Repr

/-- The endpoint and the BAR0 registers outside mailboxes, channels and queues (R471 to R480). -/
structure Hif where
  gen : BitVec 3
  width : BitVec 5
  /-- The host domain is in reset (R470). -/
  inReset : Bool
  globalFault : BitVec 8
  faultMask : BitVec 8
  bdAssign : BitVec 32
  /-- BD_ASSIGN changes that wait for the end of a transfer (R481). -/
  assignWanted : BitVec 32
  bar2Base : BitVec 64
  /-- Low halves written and waiting for their high half, by offset (R472). -/
  lowHalf : List (Nat × BitVec 32)
  /-- High halves latched by a read of a low half, by offset (R472). -/
  highLatch : List (Nat × BitVec 32)
  msixTable : Vector (BitVec 128) 64
  msixPending : BitVec 64
  rdFaults : BitVec 32
  wrFaults : BitVec 32
  dmaFaults : BitVec 32
  lastAddr : BitVec 38
  lastKind : BitVec 2
  windows : Vector Window 8
  locked : Bool
deriving DecidableEq, Repr

/-- What a `go` latches (R483). -/
structure Xfer where
  src : BitVec 64
  dst : BitVec 64
  count : BitVec 32
  reqSel : BitVec 32
  ctrl : BitVec 32
  user : BitVec 16
deriving DecidableEq, Repr

/-- The states of a channel (R482). -/
inductive ChanState where
  | idle | active | waitCq
deriving DecidableEq, Repr

/-- How a channel's transfer has ended and waits for its completion (R483, R486, R487). -/
structure XferEnd where
  status : Status
  faultAddr : BitVec 64
  aborted : Bool
  /-- Always-on time of the end, in ns. -/
  time : Nat
deriving DecidableEq, Repr

/-- One Bulk DMA channel (R482). -/
structure Chan where
  src : BitVec 64
  dst : BitVec 64
  count : BitVec 32
  reqSel : BitVec 32
  ctrl : BitVec 32
  user : BitVec 16
  state : ChanState
  lastStatus : Byte
  drqOverflow : Bool
  goIgnored : Bool
  moved : BitVec 32
  run : BitVec 32
  latched : Xfer
  /-- Bytes of the present burst still to move; without `drq_en` the whole transfer is one burst. -/
  burstLeft : Nat
  /-- Held request pulses, up to 15 (R485). -/
  heldPulses : Nat
  /-- This transfer lost a pulse. -/
  lostPulse : Bool
  abortWanted : Bool
  /-- A read failed once and is being issued again (R487). -/
  retrying : Bool
  transient : Bool
  ended : Option XferEnd
deriving DecidableEq, Repr

/-- One queue, CQ or EQ (R489). -/
structure Que where
  base : BitVec 64
  log2Size : BitVec 5
  enable : Bool
  irqEn : Bool
  ns : Bool
  coalCount : BitVec 8
  coalUs : BitVec 10
  tail : BitVec 17
  head : BitVec 17
  cfgError : Bool
  headError : Bool
  lost : BitVec 32
  /-- Whole events held for a full EQ, oldest first (R493). -/
  held : List Ev
  /-- Records lost since the last EVQ_LOST. -/
  lostSince : BitVec 32
  /-- Records written and not yet signalled, and when the first was (R476). -/
  unsignalled : Nat
  since : Nat
deriving DecidableEq, Repr

/-- The Bulk DMA block and the queues. -/
structure Dma where
  chans : Vector Chan 48
  queues : Vector Que 48
  /-- Request line pulses on their way to the channels (R485). -/
  pulses : List (Fin 64)
  /-- The reads outstanding, oldest first: channel and length; and the channel that was served last (R488). -/
  reads : List (Fin 48 × Nat)
  turn : Fin 48
deriving DecidableEq, Repr

/-! ### Faults and waste (24) -/

/-- The outcomes of a FAULT record (R583). -/
inductive FaultOutcome where
  | pending | transient | masked | detected | consequence | reported
deriving DecidableEq, Repr

/-- What a block tells FSV about a fault (R577, R583). -/
structure Detect where
  fclass : Byte
  source : Byte
  unit : Byte := 0xFF
  row : Byte := 0xFF
  rows : BitVec 16 := 0
  first : Int := 0
  last : Int := 0
  detail : BitVec 32 := 0
  generation : BitVec 32 := 0
  /-- The web position an encoder check failed at (02 R30). -/
  pos : Option Int := none
  injected : Bool := false
  outcome : FaultOutcome
  /-- For a consequence, the class of the fault that caused it (R578). -/
  cause : Byte := 0
  peer : Byte := 0
  /-- The lasting outcome is one of R580's causes of a fault stop. -/
  stops : Bool := false
deriving DecidableEq, Repr

/-- What waits for FSV, oldest first. -/
inductive FsvItem where
  /-- A detection or its classification. -/
  | detect (d : Detect) (time : Nat)
  /-- Lines first..last of a row are waste-marked under a cause (R584). -/
  | mark (row : Fin 16) (first last : Nat) (cause : Byte) (time : Nat)
  /-- A line of a half-row withheld as a lasting RECHECK or FRAME fault (R579). -/
  | pourFailed (half : Fin 32) (line : Nat) (time : Nat)
deriving DecidableEq, Repr

/-- A fault whose retry is pending (R578). -/
structure PendingFault where
  d : Detect
  time : Nat
  count : BitVec 32
  /-- Consequences of it, logged once it is classified. -/
  consequences : List (Detect × Nat)
deriving DecidableEq, Repr

/-- A fault log record, R583, without its CRC, which is a function of the rest. -/
structure LogRec where
  seq : Nat
  time : BitVec 64
  rtype : Byte
  fclass : Byte
  source : Byte
  outcome : Byte
  unit : Byte
  row : Byte
  rows : BitVec 16
  first : Int
  last : Int
  detail : BitVec 32
  count : BitVec 32
  generation : BitVec 32
  injected : Bool
  armed : Bool
  peer : Byte
  ref : BitVec 32
deriving DecidableEq, Repr

/-- A waste range in job positions, Q16 counts relative to O (R585). -/
structure WasteRange where
  cause : Byte
  first : Int
  last : Int
  rows : BitVec 16
  lines : BitVec 32
  /-- The marked lines it holds: row, first, last. -/
  spans : List (Fin 16 × Nat × Nat)
deriving DecidableEq, Repr

/-- A fault stop FSV has decided on and not yet made (R580, R465). -/
structure StopWanted where
  reason : Byte
  fclass : Byte
  seq : Nat
  rows : BitVec 16
  first : Nat
deriving DecidableEq, Repr

/-- The fault supervisor (R577 to R587). -/
structure Fsv where
  inbox : List FsvItem
  pendingFaults : List PendingFault
  /-- The fault log, oldest first, at most 262,144 records. -/
  log : List LogRec
  nextSeq : Nat
  lost : BitVec 32
  ranges : List WasteRange
  /-- The WASTE output (R586). -/
  waste : Bool
  /-- WASTE is held for cause POWER until the next accepted JOB_ARM. -/
  power : Bool
  /-- When P − O last left an open range; the hold ends 1 ms later. -/
  leftAt : Option Nat
  /-- P − O lay in an open range when last looked at. -/
  inside : Bool
  /-- O as kept from the run whose ranges are open (R585). -/
  origin : Int
  /-- Recent lines withheld as lasting RECHECK or FRAME faults of each half-row, newest first (R579). -/
  pourFails : Vector (List Nat) 32
  stopWanted : Option StopWanted
  /-- The 32 newest records Thermos keeps over a module reset, newest first (R583). -/
  thermos : List LogRec
deriving DecidableEq, Repr

/-! ### Web position and line starts (02) -/

/-- WEB_CONFIG as accepted (R52), with the reduced ratio of R35. -/
structure WebCfg where
  num : Nat
  den : Nat
  lpi : Nat
  dirInvert : Bool
  backlash : Nat
  speedHighPct : Nat
  velWindow : Nat
  encFilter : Nat
  originMode : Nat
  markFilterUs : Nat
  countsPerIndex : Nat
  originOffset : Int
  accelLimit : Nat
  stopTimeoutUs : Nat
deriving DecidableEq, Repr

/-- An accepted encoder edge: the count it gives, its stamp in ns, and the velocity estimated at it, counts over ns
(R28, R29). -/
structure Edge where
  count : Int
  dir : Int
  stamp : Nat
  vNum : Int
  vDen : Nat
  /-- When its velocity was set to zero, in ns (R28). -/
  stopAt : Option Nat := none
deriving DecidableEq, Repr

/-- The checks of R30. -/
inductive EncCheck where
  | lineFail | illegal | overrate | indexPeriod | acceleration | chain
  /-- A switch of CK_TIM while a job is armed (21 R531). -/
  | clock
deriving DecidableEq, Repr

/-- A failed check that waits for its confirmation (R31). -/
structure PendingCheck where
  check : EncCheck
  pos : Int
  time : Nat
  /-- Each row's next line when the check failed. -/
  next : List Nat
deriving DecidableEq, Repr

/-- One row of LSD: geometry (R53), line starts (R41) and the fire interval limit (R46, R47). -/
structure LsdRow where
  offset : Nat
  flight : Nat
  minFire : Nat
  /-- Minimum fire intervals the row's four heads declared, in ns; 0 none (R46). -/
  headFire : Vector Nat 4
  /-- The row's next line N; its line starts so far are those of 0 to N − 1. -/
  next : Nat
  /-- Strobe instants of counting pulses in 0.5 ns, newest first (R47). -/
  counting : List Nat
  /-- Overspeed withholdings since the last report: first, last, count, shortest interval in 0.1 ns. -/
  overspeed : Option (Nat × Nat × Nat × Nat)
  overspeedAt : Nat
  /-- The line start range of a reversal runs on to the row's next fired line (R45). -/
  reverseOpen : Bool
  /-- That range has begun at a line fired before the reversal; otherwise it holds only the first line fired after it. -/
  reverseBegun : Bool
  /-- The tick of the row's last line start and the strobe instant of the lines that start in it (R43). -/
  cross : Option (Nat × Nat)
deriving DecidableEq, Repr

/-- The line-start detector. -/
structure Lsd where
  a : Bool
  b : Bool
  count : Int
  /-- Direction of the last count: 1, −1, or 0 before the first. -/
  dir : Int
  /-- Edges that have taken effect, newest first (R28, R29). -/
  edges : List Edge
  /-- Edges accepted and not yet in effect, oldest first: each waits for its tick (R29). -/
  incoming : List Edge
  /-- Stamps of the last 16 accepted edges, newest first (R30 overrate). -/
  stamps : List Nat
  vNum : Int
  vDen : Nat
  stopped : Bool
  zCount : Option Int
  /-- Checks whose confirmation is pending, oldest first (R31). -/
  checks : List PendingCheck
  /-- The signal is bad (R30 line fail). -/
  lineBad : Bool
  /-- Line starts are inhibited by a line fail (R32). -/
  hold : Bool
  /-- The signal has been good for 10 µs. -/
  goodAgain : Bool
  /-- A lasting encoder fault stands until the job is armed again (R33). -/
  lasting : Bool
  /-- Velocities in force before this time, in ns, have been judged by a failed acceleration check (R30). -/
  accelFrom : Nat
  configured : Bool
  cfg : WebCfg
  /-- O in Q16 counts once latched (R39). -/
  origin : Option Int
  /-- Whether P may latch the origin: PRINT_ENABLE has allowed it (18 R457). -/
  latchEnabled : Bool
  /-- High-water mark in whole counts (R45). -/
  high : Int
  reverse : Bool
  speedHigh : Bool
  /-- JOB_MARK: the input, the qualified level (R49). -/
  markQualified : Bool
  rows : Vector LsdRow 16
deriving DecidableEq, Repr

/-! ### The job (18) -/

/-- The states of R443. -/
inductive JobState where
  | idle | defined | arming | armed | started | running | stopping | stopped
deriving DecidableEq, Repr

/-- A row's boundaries (R458 to R463). -/
structure JobRow where
  /-- The row's stop line E_r, once a stop is placed. -/
  stopLine : Option Nat
  stopped : Bool
  done : Bool
  /-- JOB_BOUNDARY PAUSE, RESUME has been posted. -/
  pausePosted : Bool
  resumePosted : Bool
  /-- Lines from here on are withheld after a lasting fault (24 R580), with the waste cause. -/
  withholdFrom : Option Nat
deriving DecidableEq, Repr

structure Job where
  state : JobState
  reason : Byte
  detail : BitVec 32
  peMode : Nat
  /-- Panel slots in sequence order; empty when no sequence is defined (R450). -/
  seq : List (Fin 4096)
  /-- Plane line of the pending or active pause, and of the pending resume (R459). -/
  pauseAt : Option Nat
  resumeAt : Option Nat
  /-- A stop is pending, and the plane line it names; none for NOW (R461). -/
  stopPending : Bool
  stopAt : Option Nat
  stopReason : Byte
  /-- The class of the fault that caused the stop, 0 for none (24 R583). -/
  stopClass : Byte
  rows : Vector JobRow 16
  /-- The arming step in progress, 1 to 7 (R454). -/
  armStep : Nat
  armReq : Option Origin
  /-- When the present arming step began. -/
  stepSince : Nat
  /-- JOB_STOP requests that wait for the job to stop, oldest first. -/
  stopReqs : List Origin
  /-- The qualified level of PRINT_ENABLE (R457) and of FIRE_INHIBIT (14 R336), and their pins. -/
  printEnable : Bool
  fireInhibit : Bool
  /-- When the last job stopped (12 R294). -/
  stoppedAt : Nat
deriving DecidableEq, Repr

/-! ### Layout, page store and codec (03, 10, 11) -/

/-- The policies of R73. -/
inductive Policy where
  | blank | dflt | required
deriving DecidableEq, Repr

/-- A slot entry (R73). -/
structure Slot where
  boxW : Nat
  boxH : Nat
  tile : Nat
  policy : Policy
deriving DecidableEq, Repr

/-- The composite operations of R63. -/
inductive BlendOp where
  | over | max | add | knockout | masked
deriving DecidableEq, Repr

/-- A placement record (R63). -/
structure Place where
  tile : Nat
  mirrorX : Bool
  mirrorY : Bool
  op : BlendOp
  x : Int
  y : Nat
  nx : Nat
  ny : Nat
  sx : Nat
  sy : Nat
deriving DecidableEq, Repr

/-- A run of 64 KiB pages of the store zone (R259). -/
structure Extent where
  start : Nat
  len : Nat
deriving DecidableEq, Repr

/-- A staged placement list (R62, R264); `units` are runs of its 4 KiB units, counted from the start of the store zone. -/
structure PList where
  handle : Nat
  isVar : Bool
  codes : Bool
  slots : List Slot
  places : List Place
  units : List Extent
deriving DecidableEq, Repr

/-- A codec block as stored (R230, R261): its index entry's type, fill value, address of the header and damaged mark, the payload
bytes behind the header, and the raw data they decode to; none when they do not decode (R243 structural check only), `fault` then
being the error (R244). -/
structure Blk where
  btype : Byte
  fillv : Byte
  payload : List Byte
  raw : Option (List Byte)
  fault : Byte
  addr : Nat
  damaged : Bool
deriving DecidableEq, Repr

/-- The fill value of a FILL block, which PLW reads from the block index (R261, 03 R82). -/
def Blk.fill (b : Blk) : Option Byte := if b.btype = 0xA2 then some b.fillv else none

/-- A block's share of the stream: header, payload, padding (R230). -/
def Blk.size (b : Blk) : Nat := 16 + (b.payload.length + 15) / 16 * 16

/-- A tile in the directory (R260); an id without an entry is FREE. -/
structure Tile where
  id : Nat
  ready : Bool
  codes : Bool
  w : Nat
  h : Nat
  autoFree : Bool
  fromRaw : Bool
  extents : List Extent
  /-- Device address of the block index. -/
  index : Nat
  blocks : List Blk
deriving DecidableEq, Repr

/-- A tile staging in progress (R266 to R268). -/
structure Staging where
  origin : Origin
  tile : Nat
  raw : Bool
  structural : Bool
  autoFree : Bool
  replace : Bool
  srcHost : Bool
  ns : Bool
  codes : Bool
  w : Nat
  h : Nat
  src : Nat
  length : Nat
  extents : List Extent
deriving DecidableEq, Repr

/-- A list staging in progress (R275). -/
structure ListStaging where
  origin : Origin
  src : Nat
  length : Nat
  srcHost : Bool
  ns : Bool
deriving DecidableEq, Repr

/-- A proof capture (R270, R271). -/
structure Capture where
  origin : Option Origin
  row : Fin 16
  first : Nat
  count : Nat
  dst : Nat
  written : Nat
  active : Bool
deriving DecidableEq, Repr

/-- The page store. -/
structure Hamper where
  tiles : List Tile
  lists : List PList
  stagings : List Staging
  listStagings : List ListStaging
  /-- The next list handle (R264). -/
  nextHandle : Nat
  capture : Option Capture
  /-- The capture that ended last: a pulse of its last line that is cancelled afterwards still corrects the record (R270). -/
  ended : Option Capture
  /-- Tiles freed by auto_free since the last HAMPER_SPACE, and when that was posted (R278). -/
  freed : Nat
  spaceAt : Nat
deriving DecidableEq, Repr

/-- A CODEC_CHECK in progress (R255). -/
structure CodecCheck where
  origin : Origin
  src : Nat
  length : Nat
  codes : Bool
deriving DecidableEq, Repr

/-- A block of a raw tile in a compressor (10 R249, R252); `again` once its verify has failed on this unit. -/
structure CompBlock where
  tile : Nat
  blk : Nat
  again : Bool
deriving DecidableEq, Repr

/-- A tile handed over raw: how many of its blocks have gone to the compressors, and how many are verified (10 R249). -/
structure RawWork where
  tile : Nat
  codes : Bool
  w : Nat
  h : Nat
  next : Nat
  verified : Nat
deriving DecidableEq, Repr

/-- A band of a tile that a row's engines need for a layer (10 R245, 01 R17): block `blk` of the tile. -/
structure Band where
  row : Fin 16
  layer : Fin 16
  tile : Nat
  blk : Nat
deriving DecidableEq, Repr

/-- A decode under way: the error it has failed with once on this unit, and the unit on which it failed twice before (10 R246). -/
structure DecodeJob where
  band : Band
  failed : Option Byte
  first : Option (Fin 16)
deriving DecidableEq, Repr

/-- The decompressors of a pipeline: what each works on, the decodes that wait for another unit, oldest first, and the bands the
pipeline's engines hold decoded (10 R245, R246). -/
structure Decoders where
  jobs : Vector (Option DecodeJob) 16
  handover : List (Band × Fin 16)
  held : List Band
deriving DecidableEq, Repr

/-- The codec units and counters (R246 to R254). -/
structure Codec where
  primary : BitVec 16
  shadow : BitVec 16
  comp : BitVec 8
  depthCap : Nat
  decTransient : BitVec 32
  decLasting : BitVec 32
  damaged : BitVec 32
  compTransient : BitVec 32
  compLasting : BitVec 32
  compIn : BitVec 64
  /-- CODEC_CHECK commands not yet done, oldest first. -/
  checks : List CodecCheck
  decP : Decoders
  decS : Decoders
  /-- Raw tiles under way, oldest first; the block in each compressor; blocks that start afresh on the next free unit (R252). -/
  works : List RawWork
  comps : Vector (Option CompBlock) 8
  afresh : List (Nat × Nat)
deriving DecidableEq, Repr

/-- A panel (R60): its non-zero list handles by plane × 16 + layer, ascending. -/
structure Panel where
  slot : Fin 4096
  length : Nat
  rpt : Nat
  lists : List (Nat × Nat)
deriving DecidableEq, Repr

/-- A binding (R74). -/
structure Binding where
  inst : Nat
  list : Nat
  slot : Nat
  tile : Nat
deriving DecidableEq, Repr

/-! ### Screening, tone and correction tables (04, 05, 06, 08) -/

/-- The screening modes of R105. -/
inductive ScreenMode where
  | passThrough | diffusion | matrix
deriving DecidableEq, Repr

/-- A plane's screening (R126). -/
structure Screen where
  mode : ScreenMode
  maxDose : Nat
  paperHold : Bool
  tInvert : Bool
  noiseAmp : Nat
  matrix : Fin 8
  xPhase : Nat
  yPhase : Nat
  seed : BitVec 32
  weights : List Nat
  levels : List Nat
deriving DecidableEq, Repr

/-- A plane: its format (18 R446) and its screening; none until a SCREEN_PLANE (R127). -/
structure Plane where
  codes : Bool
  screen : Option Screen
deriving DecidableEq, Repr

/-- A row's definition (18 R447), history setting (R150) and the curve fixed at arming (R102). -/
structure RowDef where
  plane : Option (Fin 16)
  k : Nat
  phase : Nat
  histSet : Fin 8
  maskCode : Nat
  armCurve : Nat
deriving DecidableEq, Repr

/-- A threshold matrix (R119). -/
structure Matrix where
  w : Nat
  h : Nat
  entries : List Nat
deriving DecidableEq, Repr

/-- A history set (R143): `class_of` by h, and `wave` by class × 16 + dose. -/
structure HistSet where
  classOf : List Nat
  wave : List Nat
deriving DecidableEq, Repr

/-- What the job commands and the configuration commands define. -/
structure Layout where
  planes : Vector Plane 16
  rows : Vector RowDef 16
  panels : List Panel
  matrices : Vector (Option Matrix) 8
  hist : Vector HistSet 8
deriving DecidableEq, Repr

/-- A Nozzle Exception Table entry (R132). -/
structure NetEntry where
  nozzle : Nat
  partner : Option (Fin 16)
  keep : Nat
  left : Nat
  right : Nat
  pgain : Nat
deriving DecidableEq, Repr

/-- One generation of the correction tables and bindings (08 R183). A table is its reset contents (R102) overlaid by
what members set: newest first. -/
structure Gen where
  number : BitVec 32
  curves : List (Nat × List Nat)
  /-- A row's committed curve, and its shift (R101). -/
  rowCurve : Vector (Option Nat) 16
  shift : Vector Int 16
  /-- Runs of Per-Nozzle Correction Table entries: first nozzle, (gain, offset) of each (R93). -/
  pnc : List (Nat × List (Nat × Int))
  bLeft : Nat
  bRight : Nat
  inset : Nat
  net : List NetEntry
  trim : Vector Int 16
  bindings : List Binding
deriving DecidableEq, Repr

/-! ### Run-ahead and checking (07, 09) -/

/-- An entry of a row's Active Placement Table: placement and repeat of a layer's list (03 R79, R84). -/
structure WEntry where
  layer : Fin 16
  index : Nat
  j : Nat
deriving DecidableEq, Repr

/-- The walker between two lines of a row (03 R84): the panel instance and its first plane line, per layer the activation
taken last (placement index and j; none before the first), and the Active Placement Table. -/
structure Walker where
  inst : Nat
  start : Nat
  cursors : Vector (Option (Nat × Nat)) 16
  table : List WEntry
deriving DecidableEq, Repr

/-- What one engine hands its CVU for a half-row line (09 R204, R205): the set compared and the codes behind it. -/
structure LineSet where
  line : Nat
  tag : Nat
  sigs : List (BitVec 32)
  couple : BitVec 32
  bytes : List Byte
  generation : BitVec 32
  unbound : Bool
  damaged : Bool
  at_ : Nat
  injected : Bool
deriving DecidableEq, Repr

/-- The expansion of one pipeline of a row: the line being expanded, which halves are done and since when, and the
carry and history before it; an empty list stands for the values of line 0 (05 R125, 06 R141). -/
structure PipeRun where
  line : Nat
  doneLo : Bool
  doneHi : Bool
  since : Nat
  walk : Walker
  carry : List Int
  hist : List Byte
  /-- What a planted coupling fault adds to the carry of the next line, by position (09 R224). -/
  spoilt : List (Nat × Int)
deriving DecidableEq, Repr

/-- CRC-32C of the three parts of a checkpoint (07 R161, R162). -/
structure PartCrcs where
  walker : BitVec 32
  carry : BitVec 32
  hist : BitVec 32
deriving DecidableEq, Repr

/-- A checkpoint (07 R161): the primary parts, the shadow CRCs once formed, the record CRC and the two marks. -/
structure Ckpt where
  line : Nat
  generation : BitVec 32
  walk : Walker
  carry : List Int
  hist : List Byte
  primDone : Bool
  /-- CRCs of the shadow engines' parts (R162). -/
  shadow : Option PartCrcs
  /-- CRC-32C of the parts and the noise check as written. -/
  recordCrc : BitVec 32
  noise : BitVec 32
  valid : Bool
  bad : Bool
  /-- The stored bytes have an uncorrectable memory error, so they do not meet `record_crc` at a restore (20 R509). -/
  poisoned : Bool
  injected : Bool
deriving DecidableEq, Repr

/-- A steep-ring slot with its descriptor (R155, R156). -/
structure Agreed where
  line : Nat
  generation : BitVec 32
  unbound : Bool
  damaged : Bool
  replayed : Bool
  sigs : List (BitVec 32)
  bytes : List Byte
deriving DecidableEq, Repr

/-- What has become of one half of a buffered line on its lane (13 R314, R320). -/
structure HalfSend where
  begun : Bool
  acked : Bool
  /-- A frame fault waits for its resend: its cause (R314); a recheck fault waits for its resend (09 R221). -/
  frameCause : Option Nat
  recheckPending : Bool
  /-- The recheck of the last frame, not yet classified: the segments that failed. -/
  check : Option (BitVec 16)
  /-- A planted fault has acted on a frame whose recheck is pending or not yet classified (09 R225). -/
  injected : Bool
  resent : Bool
deriving DecidableEq, Repr

/-- A line withheld before its line start: the WITHHOLD reason and the waste cause of the first cause recorded (13 R310, 24 R578). -/
structure Withheld where
  line : Nat
  reason : Byte
  cause : Byte
deriving DecidableEq, Repr

/-- A line-buffer slot (R158). -/
structure BufLine where
  data : Agreed
  poured : Bool
  lo : HalfSend
  hi : HalfSend
deriving DecidableEq, Repr

/-- The mismatch kinds of R208. -/
inductive MisKind where
  | segment | coupling | alive | missing | timeout | checkpoint
deriving DecidableEq, Repr

/-- A mismatch whose retry is pending (R214): its line, the half-row that reported it first, the segments that differ. -/
structure Mismatch where
  line : Nat
  kind : MisKind
  half : Fin 32
  segMask : BitVec 16
  injected : Bool
  /-- The squash has been applied: the next comparison of the line is the retry. -/
  retrying : Bool
  /-- The retry has failed and the fault is lasting; the verdict waits for a pair that runs as a separate replay (R215). -/
  waiting : Bool
  /-- The halves that have reported in this expansion. -/
  lo : Bool
  hi : Bool
deriving DecidableEq, Repr

/-- Why a squash is wanted (R165 to R168, R217). -/
inductive SquashWhy where
  | commit | retry | divergence | replacement
deriving DecidableEq, Repr

structure SquashReq where
  line : Nat
  why : SquashWhy
deriving DecidableEq, Repr

/-- A running replay (R165, R171): its line Q, its checkpoint, and the lines withheld meanwhile: first, last, count. -/
structure Replay where
  q : Nat
  c : Nat
  late : Option (Nat × Nat × Nat)
deriving DecidableEq, Repr

/-- A scheduled strobe pulse (14 R331): line, rising edge in 0.5 ns, and whether it has been emitted, with what was
seen of it. -/
structure Pulse where
  line : Nat
  ts : Nat
  emitted : Bool
  /-- The readback has found the pulse faulty (R334). -/
  faulty : Bool
  /-- Its readback has been judged. -/
  judged : Bool
deriving DecidableEq, Repr

/-- One row's run-ahead, line buffer and strobe. -/
structure SpcRow where
  window : Nat
  prim : PipeRun
  shad : PipeRun
  /-- Lines 0 to `agreed` − 1 are agreed: A + 1 (R153). -/
  agreed : Nat
  /-- The steep ring, newest first, at most 4,096 slots. -/
  ring : List Agreed
  ckpts : List Ckpt
  buffer : List BufLine
  /-- Lines not yet started that are withheld already (13 R310). -/
  withheld : List Withheld
  squash : Option SquashReq
  /-- Where the newest generation takes over in lines not yet expanded (R165 step 1). -/
  replay : Option Replay
  mismatch : List Mismatch
  /-- The line at which a replay diverged once (R167). -/
  diverged : Option Nat
  /-- Lines withheld outside a replay since the last SPC_DRY: first, last, count; and when that was posted (R172). -/
  dry : Option (Nat × Nat × Nat)
  dryAt : Option Nat
  squashes : BitVec 32
  lateLines : BitVec 32
  ready : Bool
  /-- The first line that a lasting fault of the row's expansion leaves without agreement (R173, 09 R218). -/
  faultAt : Option Nat
  /-- STROBE_CONFIG (14 R348). -/
  invert : Bool
  widthH : Nat
  pulses : List Pulse
  /-- A strobe fault waits for the row's next strobe (14 R335), with its line and kind. -/
  strobePending : Option (Nat × Byte)
  strobeOff : Bool
  /-- The last line announced with kind FIRE, and whether its strobe has come (14 R335). -/
  lastFire : Option (Nat × Bool)
  /-- The last line whose strobe has been emitted in this run (18 R462). -/
  lastFired : Option Nat
deriving DecidableEq, Repr

/-- The comparison a CVU of a half-row makes (R207, R212): the line it expects next and the sets it holds. -/
structure Cvu where
  /-- The line expected next: the alive counter's source. -/
  next : Nat
  prims : List LineSet
  shads : List LineSet
  /-- Lines that match and wait for the other half or for lower lines, oldest first. -/
  matched : List LineSet
deriving DecidableEq, Repr

/-- What a unit's context says it is doing (R212). -/
inductive UnitState where
  | idle | comparing | retryPending | opinionHeld
deriving DecidableEq, Repr

/-- The context of a check-value unit (R212), beside what `Cvu` and `Chk.engines` hold: its state, the mismatch kind and
retry count of the pending line, the latent-test phase and the fault counter. -/
structure UnitCtx where
  state : UnitState
  kind : Option MisKind
  retries : Nat
  latent : Fin 16
  faults : BitVec 32
deriving DecidableEq, Repr

/-- An opinion pair that stands in a row's retry (R215): the two spares by number 0 to 3 (PE32, PE33, SE32, SE33), lower
side first, and the checkpoint they have loaded. -/
structure Opinion where
  row : Fin 16
  lower : Fin 4
  upper : Fin 4
  run : PipeRun
deriving DecidableEq, Repr

/-- A pending injection (R224): how many more times it acts. -/
structure Injection where
  target : Fin 8
  row : Fin 16
  left : Nat
  mask : Byte
  position : Nat
  line : Nat
deriving DecidableEq, Repr

/-- The checking blocks. -/
structure Chk where
  cvus : Vector Cvu 32
  /-- The contexts of the functions of units 0 to 37 (R212). -/
  ctxs : Vector UnitCtx 38
  /-- Which unit serves the function of unit n, n below 38: none when it is lost (R211, R213). -/
  units : Vector (Option (Fin 40)) 38
  /-- The primary and shadow engine of each half-row (01 R12). -/
  engines : Vector (Fin 34 × Fin 34) 32
  /-- Engines retired, by pipeline, bit e for engine e. -/
  retiredP : BitVec 34
  retiredS : BitVec 34
  opinions : List Opinion
  /-- Engines that took over: pipeline, engine, row, line (R218). -/
  tookOver : List (Pipe × Fin 34 × Fin 16 × Nat)
  shadowOff : Bool
  injections : List Injection
  misTransient : BitVec 32
  misLasting : BitVec 32
  pourTransient : BitVec 32
  pourLasting : BitVec 32
  cvuFaults : BitVec 32
deriving DecidableEq, Repr

/-! ### Correction transactions (08) -/

/-- A member's decoded body (R177). -/
inductive Member where
  | toneCurve (curve : Nat) (entries : List Nat)
  | rowTone (row : Fin 16) (curve : Nat) (shift : Int)
  | pncRange (first : Nat) (entries : List (Nat × Int))
  | blanket (left right inset : Nat)
  | netSet (entries : List NetEntry)
  | netClear (first count : Nat)
  | binding (b : Binding)
  | rowTrim (row : Fin 16) (delta : Bool) (trim : Int)
deriving DecidableEq, Repr

/-- The states of a group. -/
inductive GroupState where
  | isOpen | sealed | prepared | aborted
deriving DecidableEq, Repr

/-- A correction group. -/
structure Group where
  id : BitVec 32
  chain : Bool
  state : GroupState
  /-- Members in order, with the length of their bodies. -/
  members : List (Member × Nat)
  /-- Loads of CAL: the index of the first member of each, and the generation it was computed from (23 R569). -/
  calBase : List (Nat × BitVec 32)
  /-- L, the coordinator and the vote's time while PREPARED (R193, R195). -/
  line : Nat
  coordinator : Fin 16
  votedAt : Nat
  /-- TXN_QUERY has been sent; the peers that answered, and that are known to be in reset. -/
  queried : Bool
  answered : BitVec 16
deriving DecidableEq, Repr

/-- A PREPARE this module coordinates (R194). -/
structure Coordination where
  group : BitVec 32
  line : Nat
  sentAt : Nat
  origin : Origin
deriving DecidableEq, Repr

/-- What a module remembers of a PREPARE or a decision (R194, R199, R202): the group, L and coordinator (0 where no PREPARE was seen),
the first NO vote it knows of, and how many more copies of the decision it ignores. -/
structure Voted where
  group : BitVec 32
  line : Nat
  coordinator : Fin 16
  no : Option NoVote
  skip : Nat
deriving DecidableEq, Repr

/-- The transaction unit. -/
structure Txn where
  newest : Gen
  older : Option Gen
  /-- E_r of each row the newest generation affects, while the older one lives (R190). -/
  eff : Vector (Option Nat) 16
  groups : List Group
  /-- The generation a sealed or prepared group has built (R182). -/
  built : Option Gen
  coordination : Option Coordination
  /-- Outcomes of the last 16 CHAIN groups prepared here: id, committed (R631). -/
  outcomes : List (BitVec 32 × Bool)
  /-- The last 16 groups a PREPARE or a decision has named. -/
  voted : List Voted
deriving DecidableEq, Repr

/-! ### Head link (12, 13) and head accounting (14) -/

/-- The states of a lane (12 R302). -/
inductive LaneState where
  | off | pll | signal | lock | align | equalise | ready | active | sleep | retrain | failed | test
deriving DecidableEq, Repr

/-- Block lock of a receiver (12 R286): locked or hunting, the candidate alignment in bits, and the headers counted: consecutive valid
ones while hunting, those of the present window while locked, and the invalid ones among the latter. -/
structure BlockSync where
  locked : Bool
  slip : Nat
  count : Nat
  bad : Nat
deriving DecidableEq, Repr

/-- A lane, head link 0 to 31, CHAIN-IN 32, CHAIN-OUT 33. -/
structure Lane where
  state : LaneState
  rxInv : Bool
  rxRev : Bool
  txInv : Bool
  txRev : Bool
  /-- Since when signal detect has been asserted without a break (12 R284, R302). -/
  signalAt : Option Nat
  sync : BlockSync
  ctle : Nat
  preset : Nat
  partnerPreset : Nat
  margin : Nat
  transients : BitVec 16
  /-- Presets, equaliser and polarity are stored for a wake or a retrain (12 R294). -/
  stored : Bool
  /-- The lane is waking with the stored values (12 R295). -/
  waking : Bool
  restarted : Bool
  since : Nat
  /-- The stage a retrain is in: 3 LOCK or 4 ALIGN (12 R293). -/
  stage : Nat
  /-- Consecutive agreeing training blocks (12 R284, R287); the `lane_id` last received, whether one has been, and whether its block
  came inverted. -/
  agree : Nat
  partnerId : Nat
  seenValid : Bool
  partnerInv : Bool
  /-- The partner's echo: id, inverted (12 R289). -/
  echo : Option (Nat × Bool)
  eqDone : Bool
  partnerEqDone : Bool
  partnerReady : Bool
  lossMask : BitVec 4
  dropped : BitVec 32
  /-- `seq` of the next training block it sends (12 R283). -/
  txSeq : BitVec 16
deriving DecidableEq, Repr

/-- A running or last lane test's counters of one lane (12 R304). -/
structure LaneTest where
  bits : BitVec 64
  errors : BitVec 64
  syncLosses : BitVec 32
  injected : BitVec 32
  inSync : Bool
  /-- The lane takes part in the test. -/
  selected : Bool
  /-- The pattern generator's register, and the checker's (12 R297). -/
  gen : BitVec 31
  reg : BitVec 31
  /-- Error-free bits before sync; bits and errors of the present window of 1,024 in sync (12 R298). -/
  run : Nat
  win : Nat
  winErrors : Nat
deriving DecidableEq, Repr

/-- The lane test in progress (12 R303). -/
structure TestRun where
  lanes : BitVec 32
  pattern : Nat
  mode : Nat
  inject : Nat
  injectExp : Nat
  durationMs : Nat
  started : Nat
  origin : Origin
deriving DecidableEq, Repr

/-- What a transmit lane has to send besides NOTICE blocks (13 R311). -/
inductive TxItem where
  | withhold (line : Nat) (reason : Byte)
  | flush (reason : Byte)
  | frame (line : Nat)
deriving DecidableEq, Repr

/-- A frame sent and not yet answered (13 R314). -/
structure Awaited where
  fseq : Byte
  line : Nat
  resend : Bool
  sentAt : Nat
  checkOk : Bool
deriving DecidableEq, Repr

/-- One head-link transmit lane's frame engine. -/
structure TxLane where
  fseq : Byte
  control : List TxItem
  resends : List Nat
  frames : List TxItem
  awaiting : List Awaited
  /-- A FLUSH ARM that waits for FLUSHED: fseq, when, tries (13 R319). -/
  flushWait : Option (Byte × Nat × Nat)
  flushed : Bool
  /-- When the frame last begun began, and when it ends or ended (13 R311). -/
  frameAt : Nat
  frameEnd : Nat
  /-- ACK blocks dropped: unawaited, and with a wrong lane (13 R313, R316). -/
  dropped : BitVec 32
  wiring : BitVec 32
deriving DecidableEq, Repr

/-- An HMC request (13 R321): type, payload, and the request of HEAD_TUNNEL that waits for its answer. -/
structure HmcReq where
  mtype : Byte
  payload : List Byte
  origin : Option Origin
deriving DecidableEq, Repr

/-- The lane settings of LANE_CONFIG (12 R301); no preset is negotiated. -/
structure LaneCfg where
  swing : Nat
  preset : Option Nat
  fixedCtle : Bool
  noTxFix : Bool
  ctleDb : Nat
  autoSleepMs : Nat
deriving DecidableEq, Repr

/-- A connector: its configuration (12 R301), its activity and its HMC. -/
structure Connector where
  cfg : LaneCfg
  /-- The settings of the present bring-up: LANE_CONFIG applies from the next (R301). -/
  inForce : LaneCfg
  /-- When the last bring-up or wake began. -/
  wokenAt : Nat
  /-- SLEEP is being entered; a WAKE waits for it to finish (12 R296). -/
  entering : Bool
  wakeAfter : Bool
  /-- SLEEP commands that wait until the connector is asleep. -/
  sleepReqs : List Origin
  /-- HLK_LINK has told that the connector is READY (12 R305). -/
  toldReady : Bool
  /-- HLK_WIRING has been posted in this bring-up for the receive, transmit direction. -/
  wiringRx : Bool
  wiringTx : Bool
  hmcQueue : List HmcReq
  /-- The request sent and not answered: mseq, when, tries. -/
  hmcWait : Option (Byte × Nat × Nat)
  /-- What the HMC receiver holds of the message it is in, from its `sync` (13 R321). -/
  rx : List Byte
  mseq : Byte
  /-- The IDENTIFY answer of this bring-up (13 R323). -/
  ident : Option (List Byte)
  /-- IDENTIFY and every HEAD_INFO of this bring-up have been answered (13 R324). -/
  identified : Bool
  hmcLasting : Bool
  statusAt : Nat
  crcErrors : BitVec 32
  faultBits : BitVec 4
deriving DecidableEq, Repr

/-- A LINK_CONTROL WAKE in progress (12 R300): connectors still open, and those that ended other than READY with the
status, in connector order. -/
structure WakeReq where
  origin : Origin
  open_ : BitVec 4
  named : BitVec 4
  bad : List (Fin 4 × Status)
  lanes : BitVec 32
deriving DecidableEq, Repr

/-- The head link. -/
structure Hlk where
  lanes : Vector Lane 34
  tx : Vector TxLane 32
  conns : Vector Connector 4
  wakes : List WakeReq
  test : Option TestRun
  tests : Vector LaneTest 32
deriving DecidableEq, Repr

/-- The states of a head's authentication (14 R350). -/
inductive AuthState where
  | absent | notRun | passed | failed | noKey
deriving DecidableEq, Repr

/-- A usage record (14 R344). -/
structure Usage where
  serial : BitVec 64
  recSeq : BitVec 32
  /-- The reserved bytes as they were received: `umac` and `ack_mac` cover them. A record of the module's own has zero there. -/
  res : BitVec 32
  lines : BitVec 64
  drops : BitVec 64
  umac : List Byte
deriving DecidableEq, Repr

/-- One head (13 R323, 14 R341 to R347). -/
structure Head where
  present : Bool
  headType : BitVec 16
  minFire : Nat
  serial : BitVec 64
  auth : AuthState
  keySlot : Option (Fin 8)
  transients : BitVec 16
  base : Usage
  pendLines : BitVec 64
  pendDrops : BitVec 64
  failCommits : BitVec 32
  nonce : List Byte
  /-- The present challenge or read has failed once. -/
  retried : Bool
  /-- The present commit has failed once (14 R346). -/
  commitRetried : Bool
  /-- Lines and drops lost at a reset, to be reported at the next identification (14 R347). -/
  lostCounts : Option (BitVec 64 × BitVec 64)
  /-- A commit is under way: the totals it carries, and whose request it answers. -/
  commit : Option (BitVec 64 × BitVec 64)
  commitFor : List Origin
deriving DecidableEq, Repr

/-- Head accounting. -/
structure Hac where
  policy : Nat
  countMask : BitVec 16
  intervalS : Nat
  lastCommit : Nat
  heads : Vector Head 64
  /-- The type keys: bound head_type and key (14 R339, 22 R551). -/
  keys : Vector (Option (BitVec 16 × List Byte)) 8
  /-- USAGE_COMMIT_NOW requests that wait, and whether one of their commits has failed (R352). -/
  requests : List (Origin × Bool)
deriving DecidableEq, Repr

/-! ### Urotte chain (15) -/

/-- A chain message (R357): type, source, destination, body; it waits to be sent on a side. -/
structure ChainMsg where
  mtype : Byte
  src : Byte
  dst : Byte
  body : List Byte
deriving DecidableEq, Repr

/-- One side's transmit direction: the message awaiting its CHN_ACK and those behind it (R357, R358). -/
structure HopTx where
  hseq : Byte
  wait : Option (Byte × ChainMsg × Bool × Nat)
  queue : List ChainMsg
deriving DecidableEq, Repr

/-- A hop: its directions are the lanes 32 and 33; what is known of its loss and sleep (R374, R377). -/
structure Hop where
  tx : HopTx
  /-- The transmit, receive direction sleeps. -/
  txSleep : Bool
  rxSleep : Bool
  /-- A retrain is running since, with its cause mask (R374). -/
  retrain : Option (Nat × BitVec 4)
  lostAt : Option Nat
  down : Bool
  /-- Measured hop delay in ns and the neighbour's chain time against this module's (R364). -/
  delay : Nat
  lead : Int
deriving DecidableEq, Repr

/-- A CHAIN_FORWARD that waits for its reply (R376). -/
structure Forward where
  origin : Origin
  dst : Fin 16
  sentAt : Nat
deriving DecidableEq, Repr

/-- The chain unit. -/
structure Chain where
  /-- The CHAIN_HEAD strap. -/
  strap : Bool
  address : Option (Fin 16)
  count : Nat
  epoch : BitVec 6
  hopIn : Hop
  hopOut : Hop
  /-- ENUM sent and not returned: when, second try; and the request it serves (R361). -/
  enumWait : Option (Nat × Bool)
  enumReq : Option Origin
  /-- The module has come out of a reset and rejoins; the answers of its CHAIN-IN and CHAIN-OUT neighbours: address, count,
  epoch (R363). -/
  rejoining : Bool
  rejoinIn : Option (Byte × Byte × BitVec 6)
  rejoinOut : Option (Byte × Byte × BitVec 6)
  /-- When the hops were first up, for NO_HEAD (R361). -/
  upSince : Option Nat
  noHeadPosted : Bool
  /-- Chain time minus always-on time in ns, and where it slews to (R364). -/
  offset : Int
  target : Int
  slewAt : Nat
  /-- The head's next beacon sets `reference` (R366). -/
  reference : Bool
  originator : Bool
  /-- The last beacon sample: k, P and the count of T_k (R365). -/
  sampleK : Nat
  samplePos : Int
  last : Option Beacon
  lastAt : Nat
  seqGaps : BitVec 32
  /-- D_ab for a = this module, by address (R366). -/
  dTable : Vector (Option Int) 16
  compared : BitVec 16
  agreed : BitVec 16
  lossPosted : Bool
  /-- Peers whose origin, geometry has been reported as different (R368). -/
  originBad : BitVec 16
  geomBad : BitVec 16
  /-- The first half of a beacon lap that came back to the head in LINE mode (R374). -/
  halfLap : Option Beacon
  /-- Modules the chain reports in reset (R373). -/
  inReset : BitVec 16
  peerStop : Bool
  sleepMs : Nat
  lastArmed : Nat
  forward : List Forward
  /-- Broadcast waste range waiting: cause, first, last; and the last send (R371). -/
  wasteOut : Option (Byte × Int × Int)
  wasteAt : Nat
  /-- A CHAIN_LINK WAKE that waits for its answer, and when it was asked (17 R440). -/
  linkReq : Option (Origin × Nat)
deriving DecidableEq, Repr

/-! ### Auxiliary axes (16) -/

/-- The states of R383. -/
inductive AxisState where
  | disabled | idle | moving | jogging | geared | homing | stopping | fault
deriving DecidableEq, Repr

/-- Limits of an axis (R384, R404). -/
structure AxisLimits where
  aMax : Nat
  dMax : Nat
  jerk : Nat
deriving DecidableEq, Repr

/-- The command in progress: kind, who asked (R385). -/
inductive AxisKind where
  | absolute | relative | jog | stop | quickStop | gear | home | enable
deriving DecidableEq, Repr

/-- Gearing (R390, R391): the ratio in force, the blend and its two ratios, the web position reached. -/
structure Gear where
  r0 : Int
  r1 : Int
  atPos : Int
  blend : Nat
  started : Bool
  pending : Bool
  /-- The web position sampled last, in Q16 counts. -/
  lastP : Int
  /-- P₀, and A₀ in Q16 counts with 16 further fraction bits. -/
  base : Int
  acc : Int
deriving DecidableEq, Repr

/-- Homing (R394, R408). -/
structure Homing where
  vel : Int
  pos : Int
  maxTravel : Nat
  backoff : Nat
  confirm : Nat
  count : Nat
  firstActual : Int
  startPos : Int
  backing : Bool
deriving DecidableEq, Repr

/-- One axis. Positions are signed Q16 drive counts with 32 further fraction bits; velocities and accelerations are in
the same units per tick (R382). -/
structure Axis where
  configured : Bool
  softLimits : Bool
  minPos : Int
  maxPos : Int
  vMax : Nat
  dStop : Nat
  lim : AxisLimits
  deferred : Option AxisLimits
  state : AxisState
  offset : Int
  homed : Bool
  pos : Int
  vel : Int
  acc : Int
  target : Int
  speed : Nat
  /-- Target velocity of a JOG, signed counts/s. -/
  jogVel : Int
  /-- The MOT_DONE status code a stop in progress will report at rest. -/
  ending : Nat
  kind : Option AxisKind
  origin : Option Origin
  overshoot : Bool
  gear : Option Gear
  homing : Option Homing
  enable : Bool
  faultReset : Bool
  enabledAt : Nat
  dstatus : Byte
  actual : Int
  linkTransients : BitVec 32
  /-- A link fault waits for its retry (R402). -/
  linkPending : Option SlotFault
  /-- Consecutive good frames. -/
  goodFrames : Nat
  /-- A lasting link fault stands: it is not retried until two good frames have come (R402). -/
  linkLost : Bool
  /-- The next tick when its slot was last judged; 0 before the first slot (R402: once per period). -/
  judged : Nat
  gearPostAt : Nat
deriving DecidableEq, Repr

/-- The motion block. -/
structure Mot where
  period : Nat
  links : BitVec 2
  gearLeadNs : Nat
  tick : Nat
  axes : Vector Axis 8
deriving DecidableEq, Repr

/-! ### Device memory and on-chip arrays (20) -/

/-- A word corrupted by MEM_INJECT: target 0 DRAM, 1 PNC, 2 line buffer; it lasts until the word is written (R518). -/
structure Corruption where
  target : Nat
  double : Bool
  bit : Fin 72
  addr : Nat
deriving DecidableEq, Repr

/-- Transient corrected errors of a memory since its last MEM_ECC post (R519). -/
structure EccPost where
  count : Nat
  addr : Nat
  reader : Byte
  injected : Bool
  postedAt : Option Nat
deriving DecidableEq, Repr

/-- The memory controller and the error units. -/
structure Miu where
  /-- Address keys (R498): secret, drawn at boot. -/
  kc : Vector (BitVec 25) 5
  kb : Vector (BitVec 20) 5
  /-- Frequency set point 0 to 2 (R503) and its policy. -/
  fsp : Fin 3
  fixed : Bool
  idleMs : Nat
  pnrLog2 : Nat
  scrubPeriod : Nat
  lastHost : Option Nat
  lastTraffic : Nat
  selfRefresh : Bool
  refreshMult : Nat
  /-- Refresh intervals postponed per rank, channel × 2 + rank (R500). -/
  deficit : Vector Nat 64
  /-- The stuck-bit table: word address and bit (R508), at most 1,024. -/
  stuck : List (Nat × Fin 72)
  /-- Words whose every read is uncorrectable (R508), and words poisoned until written (R509). -/
  dead : List Nat
  poison : List Nat
  corrupt : List Corruption
  ceTransient : BitVec 32
  ceLasting : BitVec 32
  ue : BitVec 32
  sramCe : BitVec 32
  sramUe : BitVec 32
  /-- Retired store-zone pages (R508, R514). -/
  retired : List Nat
  panics : BitVec 32
  forced : BitVec 32
  /-- The standing panic: since when, the row that raised it, refreshes forced during it. -/
  panicSince : Option Nat
  panicRow : Fin 16
  panicForced : Nat
  panicTime : Nat
  scrubPos : Nat
  passStart : Nat
  passErrors : Nat
  passes : BitVec 64
  /-- Bytes moved in the present 10 ms window, when it began, and in the last complete one (R516). -/
  bwNow : Nat
  bwStart : Nat
  bwLast : Nat
  /-- Of DRAM, and of the SRAM arrays 1 to 7 (R519). -/
  eccPosts : Vector EccPost 8
  /-- The last sweep of each array (R511), ZQ calibration and drift measurement (R506). -/
  sweptAt : Vector Nat 7
  zqAt : Nat
  driftAt : Vector Nat 32
  /-- Timing adjustments and background retrains of each channel. -/
  adjusts : Vector Nat 32
  /-- A channel's training has failed for good (R506). -/
  trainLasting : Bool
  /-- Correction-table words reloaded from their image once (R512). -/
  reloads : Nat
deriving DecidableEq, Repr

/-! ### Clocks and resets (21) -/

/-- The states of a clock source. -/
inductive SourceState where
  | off | starting | running | failed
deriving DecidableEq, Repr

/-- The states of a PLL. -/
inductive PllState where
  | off | locking | locked | relocking | failed
deriving DecidableEq, Repr

/-- A clock domain: the clock it runs on (R542's code), the target of the switch in progress and of those that wait for
it (R527). -/
structure ClkDomain where
  clock : Nat
  target : Option Nat
  waiting : List Nat
  forced : Bool
  gated : Bool
  switches : BitVec 16
deriving DecidableEq, Repr

/-- A crossing's reset status toward a domain (R540, R541). -/
structure Crossing where
  peerInReset : Bool
  drops : BitVec 16
  overflowed : Bool
deriving DecidableEq, Repr

/-- Clock and reset unit. -/
structure Clk where
  /-- FIO, SIO, XA, XB, PCIe reference. -/
  sources : Vector SourceState 5
  plls : Vector PllState 8
  /-- A source restarted once and not yet judged (R521, R529): FIO, SIO, XA, XB, PCIe. -/
  restarted : Vector Bool 5
  pllRetried : Vector Bool 8
  domains : Vector ClkDomain 13
  /-- The always-on counter runs on XB; its increment per XB cycle in 2^-32 ns (R532). -/
  onXb : Bool
  increment : Nat
  /-- Each domain's copy of the counter (R533). -/
  copies : Vector Nat 13
  crossings : Vector Crossing 13
  pulseOverflows : BitVec 32
  transients : BitVec 32
  lasting : BitVec 32
  lastReset : Byte
  /-- Power domains held in reset (R536, R537). -/
  inReset : BitVec 12
  /-- A module reset recognised and not yet run: its cause (R534). -/
  wanted : Option Byte
  /-- A module reset in its hold: since when. -/
  holdFrom : Option Nat
  /-- MGMT_RESET_N is low, since. -/
  pinLow : Option Nat
  /-- A PLL fault is lasting: arming is rejected (R529). -/
  armBlocked : Bool
deriving DecidableEq, Repr

/-! ### Boot, flash and firmware update (22, 25) -/

/-- What is known of a firmware slot since boot or since its update. -/
structure SlotInfo where
  valid : Bool
  major : Byte
  minor : Byte
  patch : BitVec 16
  secVer : Fin 64
deriving DecidableEq, Repr

/-- The flash and the fuses (R544, R548, R550): they outlive every reset and every loss of power. -/
structure Flash where
  /-- Active-slot record copies A and B, 32 bytes each. -/
  records : Vector (List Byte) 2
  /-- Programmed bytes of the two slots, the recovery area and the package copies, by flash offset; a byte that is not
  listed is erased or 0. -/
  cells : List Host.Cell
  /-- Package copies A and B that verified when last read: their sequence numbers. -/
  packages : Vector (Option (BitVec 32)) 2
  /-- The OTP security floor. -/
  floor : Fin 64
  /-- Module resets since manufacture, saturating (17 R433). -/
  resets : BitVec 32
deriving DecidableEq, Repr

/-- What an update opens (R557, R598). -/
inductive UpdItem where
  | firmware | keyPackage | recovery
deriving DecidableEq, Repr

/-- The flash operation an update is executing. -/
inductive UpdOp where
  | erase
  | program (off len : Nat) (src : Nat)
  | commit (activate raiseFloor : Bool)
deriving DecidableEq, Repr

/-- The open update (R556). -/
structure Update where
  item : UpdItem
  length : Nat
  /-- 256-byte pages programmed. -/
  pages : List Nat
  written : Nat
  busy : Option (UpdOp × Origin)
deriving DecidableEq, Repr

/-- Boot, protection, the control cluster and its timers. -/
structure Boot where
  stage : Byte
  stopCause : Byte
  /-- The boot ROM serves the recovery subset (25 R595). -/
  recovery : Bool
  fwReady : Bool
  fallback : Bool
  running : Fin 2
  slots : Vector SlotInfo 2
  flash : Flash
  update : Option Update
  bootTime : BitVec 64
  sectionTransients : Nat
  keysLoaded : Bool
  fenceRefused : BitVec 32
  /-- Resets and actions that fall due: MODULE_RESET, firmware activation, STANDBY. -/
  resetAt : Option Nat
  activateAt : Option Nat
  standbyAt : Option Nat
  /-- The last Kettle restart (21 R535), and that the Kettle does not serve yet after it (17 R429). -/
  kettleAt : Option Nat
  kettleDown : Bool
deriving DecidableEq, Repr

/-! ### Calibration (23) -/

/-- CAL_LIMITS (R570). -/
structure CalLimits where
  dwMax : Nat
  cwMax : Nat
  dMin : Nat
  dMax : Nat
  medMin : Nat
  medMax : Nat
deriving DecidableEq, Repr

/-- A chart being built (R565). -/
structure Chart where
  origin : Origin
  kind : Fin 3
  code : Nat
  rows : BitVec 16
  panel : Fin 4096
  tileBase : Nat
deriving DecidableEq, Repr

/-- The calibration manager. -/
structure Cal where
  fioCode : Byte
  /-- A FIO code found while a domain ran on FIO: it takes effect when none does (R562). -/
  fioNext : Option Byte
  sioCode : Byte
  fioKhz : BitVec 32
  sioHz : BitVec 32
  transients : BitVec 32
  lasting : BitVec 32
  loads : BitVec 32
  implausible : BitVec 32
  baseGen : BitVec 32
  limits : CalLimits
  chart : Option Chart
  /-- The last run of the trim failed and is to be run once more (R562). -/
  fioRetry : Bool
  sioRetry : Bool
  /-- CAL_TRIM requests that wait: FIO, SIO, MEM_RETRAIN (R563). -/
  fioReq : List Origin
  sioReq : List Origin
  retrain : List Origin
deriving DecidableEq, Repr

/-! ### Management port (25) -/

/-- One tunnel: request buffer and flags (R593). -/
structure Tunnel where
  buffer : List Byte
  reqFree : Bool
  overrun : Bool
deriving DecidableEq, Repr

/-- The management port's own registers (R592), in PD0. -/
structure Mgt where
  maddr : BitVec 3
  alertStatus : BitVec 11
  alertMask : BitVec 32
  /-- SMBALERT_N is asserted (R596). -/
  alert : Bool
  pecErrors : Byte
  nacks : Byte
  timeouts : Byte
  flogIndex : BitVec 5
  tunnels : Vector Tunnel 2
deriving DecidableEq, Repr

/-! ### Power and temperature (26) -/

/-- The Thermos core's power and thermal control. -/
structure Pwr where
  powered : BitVec 12
  /-- Rail faults since module reset and since PD0 power-on (R592, R613). -/
  railFaults : BitVec 12
  railSince : BitVec 12
  /-- Domains off for good (R607). -/
  off : BitVec 12
  /-- Repower due, and the last repower, per domain (R607). -/
  repowerAt : Vector (Option Nat) 12
  repowered : Vector (Option Nat) 12
  vinMv : Nat
  /-- VIN has fallen below 33.0 V and not risen to 35.0 V since; since when it has stood at 35.0 V or more. -/
  vinLow : Bool
  vinSince : Option Nat
  temps : Vector Int 20
  excluded : Vector Bool 20
  suspect : Vector Bool 20
  /-- Levels of die, DRAM, converter, plate: 0 to 3 (R611). -/
  levels : Vector Nat 4
  dieWarn : Nat
  dieThrottle : Nat
  dramWarn : Nat
  dramThrottle : Nat
  plateWarn : Nat
  transients : BitVec 32
  lasting : BitVec 32
  /-- The module stands by after CRITICAL until it has cooled (R611). -/
  criticalHold : Bool
  /-- Events of a power-down, posted after the next boot (R615). -/
  lateEvents : List Ev
deriving DecidableEq, Repr

/-! ### The module -/

/-- The whole state. -/
structure State where
  /-- Commands that wait, first in, first out. -/
  pending : List Instr
  /-- The always-on counter: nanoseconds and a 32-bit fraction (21 R532). -/
  aon : Nat
  /-- The model's own counter of free values drawn; no rule gives it. -/
  free : Nat
  /-- The model's own log of outputs, newest first. -/
  wires : List Wire
  /-- Device memory (11 R257): strictly rising addresses, no zero byte listed. -/
  mem : List Host.Cell
  mbx : Mbx
  hif : Hif
  dma : Dma
  fsv : Fsv
  lsd : Lsd
  job : Job
  layout : Layout
  hamper : Hamper
  codec : Codec
  rows : Vector SpcRow 16
  chk : Chk
  txn : Txn
  hlk : Hlk
  hac : Hac
  chain : Chain
  mot : Mot
  miu : Miu
  clk : Clk
  boot : Boot
  cal : Cal
  mgt : Mgt
  pwr : Pwr
deriving DecidableEq, Repr

/-! ### The state right after power-on reset

PD0 has just come up; the boot ROM has not run (21 R534, 22 R545). A field whose reset value the spec does not give has
the value the assumption log names. -/

def Box.init : Box :=
  { reqTail := 0, reqHead := 0, rplTail := 0, rplHead := 0, replyIrq := true, ready := false, hostReset := false,
    overrun := false, requests := [], replies := [], held := [], outstanding := [], memory := [] }

def Mbx.init : Mbx :=
  { boxes := Vector.replicate 8 Box.init, turn := 0, ringMem := [], route := #v[0, 1, 2, 3],
    dropped := Vector.replicate 4 0, outbox := [], results := [], peers := Vector.replicate 8 [] }

def Window.none : Window := { base := 0, size := 0, read := false, write := false, valid := false }

def Hif.init : Hif :=
  { gen := 5, width := 16, inReset := true, globalFault := 0, faultMask := 0, bdAssign := 0xFFFFFFFF,
    assignWanted := 0xFFFFFFFF, bar2Base := 0x3400000000, lowHalf := [], highLatch := [],
    msixTable := Vector.replicate 64 (1#128 <<< 96), msixPending := 0, rdFaults := 0, wrFaults := 0, dmaFaults := 0, lastAddr := 0,
    lastKind := 0, windows := Vector.replicate 8 Window.none, locked := false }

def Xfer.init : Xfer := { src := 0, dst := 0, count := 0, reqSel := 0, ctrl := 0, user := 0 }

def Chan.init : Chan :=
  { src := 0, dst := 0, count := 0, reqSel := 0, ctrl := 0, user := 0, state := .idle, lastStatus := 0,
    drqOverflow := false, goIgnored := false, moved := 0, run := 0, latched := Xfer.init, burstLeft := 0,
    heldPulses := 0, lostPulse := false, abortWanted := false, retrying := false, transient := false, ended := none }

def Que.init : Que :=
  { base := 0, log2Size := 4, enable := false, irqEn := false, ns := false, coalCount := 0, coalUs := 0, tail := 0,
    head := 0, cfgError := false, headError := false, lost := 0, held := [], lostSince := 0, unsignalled := 0, since := 0 }

def Dma.init : Dma := { chans := Vector.replicate 48 Chan.init, queues := Vector.replicate 48 Que.init, pulses := [], reads := [], turn := 47 }

def Fsv.init : Fsv :=
  { inbox := [], pendingFaults := [], log := [], nextSeq := 0, lost := 0, ranges := [], waste := false, power := false,
    leftAt := none, inside := false, origin := 0, pourFails := Vector.replicate 32 [], stopWanted := none, thermos := [] }

def WebCfg.init : WebCfg :=
  { num := 1, den := 1, lpi := 0, dirInvert := false, backlash := 2, speedHighPct := 95, velWindow := 3, encFilter := 8,
    originMode := 0, markFilterUs := 10, countsPerIndex := 0, originOffset := 0, accelLimit := 0, stopTimeoutUs := 10000 }

def LsdRow.init : LsdRow :=
  { offset := 0, flight := 0, minFire := 0, headFire := Vector.replicate 4 0, next := 0, counting := [],
    overspeed := none, overspeedAt := 0, reverseOpen := false, reverseBegun := false, cross := none }

def Lsd.init : Lsd :=
  { a := false, b := false, count := 0, dir := 0, edges := [], incoming := [], stamps := [], vNum := 0, vDen := 1, stopped := true,
    zCount := none, checks := [], lineBad := false, hold := false, goodAgain := false, lasting := false,
    accelFrom := 0, configured := false, cfg := WebCfg.init, origin := none, latchEnabled := false, high := 0,
    reverse := false, speedHigh := false, markQualified := false, rows := Vector.replicate 16 LsdRow.init }

def JobRow.init : JobRow :=
  { stopLine := none, stopped := false, done := false, pausePosted := false, resumePosted := false, withholdFrom := none }

def Job.init : Job :=
  { state := .idle, reason := 0, detail := 0, peMode := 0, seq := [], pauseAt := none, resumeAt := none,
    stopPending := false, stopAt := none, stopReason := 0, stopClass := 0, rows := Vector.replicate 16 JobRow.init, armStep := 0,
    armReq := none, stepSince := 0, stopReqs := [], printEnable := false, fireInhibit := true, stoppedAt := 0 }

def RowDef.init : RowDef := { plane := none, k := 1, phase := 0, histSet := 0, maskCode := 0, armCurve := 0 }

/-- Reset contents of a history set (06 R145): one class, waveform d for dose d. -/
def HistSet.init : HistSet :=
  { classOf := List.replicate 256 0, wave := (List.range 128).map (fun i => i % 16) }

def Layout.init : Layout :=
  { planes := Vector.replicate 16 { codes := false, screen := none }, rows := Vector.replicate 16 RowDef.init,
    panels := [], matrices := Vector.replicate 8 none, hist := Vector.replicate 8 HistSet.init }

def Hamper.init : Hamper :=
  { tiles := [], lists := [], stagings := [], listStagings := [], nextHandle := 1, capture := none, ended := none, freed := 0, spaceAt := 0 }

def Decoders.init : Decoders := { jobs := Vector.replicate 16 none, handover := [], held := [] }

def Codec.init : Codec :=
  { primary := 0xFFFF, shadow := 0xFFFF, comp := 0xFF, depthCap := 32, decTransient := 0, decLasting := 0, damaged := 0,
    compTransient := 0, compLasting := 0, compIn := 0, checks := [], decP := Decoders.init, decS := Decoders.init, works := [],
    comps := Vector.replicate 8 none, afresh := [] }

/-- Generation 0 (08 R191): every table at its reset contents (04 R102). -/
def Gen.init : Gen :=
  { number := 0, curves := [], rowCurve := Vector.replicate 16 none, shift := Vector.replicate 16 0, pnc := [], bLeft := 0,
    bRight := 0, inset := 0, net := [], trim := Vector.replicate 16 0, bindings := [] }

/-- Before a row's first line: instance 0, nothing activated (07 R161). -/
def Walker.init : Walker := { inst := 0, start := 0, cursors := Vector.replicate 16 none, table := [] }

def PipeRun.init : PipeRun :=
  { line := 0, doneLo := false, doneHi := false, since := 0, walk := Walker.init, carry := [], hist := [], spoilt := [] }

def SpcRow.init : SpcRow :=
  { window := 4096, prim := PipeRun.init, shad := PipeRun.init, agreed := 0, ring := [], ckpts := [], buffer := [],
    withheld := [], squash := none, replay := none, mismatch := [], diverged := none, dry := none, dryAt := none,
    squashes := 0, lateLines := 0, ready := false, faultAt := none, invert := false, widthH := 400, pulses := [],
    strobePending := none, strobeOff := false, lastFire := none, lastFired := none }

def Cvu.init : Cvu := { next := 0, prims := [], shads := [], matched := [] }

def UnitCtx.init : UnitCtx := { state := .idle, kind := none, retries := 0, latent := 0, faults := 0 }

def Chk.init : Chk :=
  { cvus := Vector.replicate 32 Cvu.init
    ctxs := Vector.replicate 38 UnitCtx.init
    units := Vector.ofFn (fun i : Fin 38 => some ⟨i.val, by omega⟩)
    engines := Vector.ofFn (fun i : Fin 32 => (⟨i.val, by omega⟩, ⟨i.val, by omega⟩))
    retiredP := 0, retiredS := 0, opinions := [], tookOver := [], shadowOff := false, injections := [],
    misTransient := 0, misLasting := 0, pourTransient := 0, pourLasting := 0, cvuFaults := 0 }

def Txn.init : Txn :=
  { newest := Gen.init, older := none, eff := Vector.replicate 16 none, groups := [], built := none, coordination := none,
    outcomes := [], voted := [] }

def BlockSync.init : BlockSync := { locked := false, slip := 0, count := 0, bad := 0 }

def Lane.init : Lane :=
  { state := .off, rxInv := false, rxRev := false, txInv := false, txRev := false, signalAt := none,
    sync := BlockSync.init, ctle := 0, preset := 0,
    partnerPreset := 0, margin := 0, transients := 0, stored := false, waking := false, restarted := false, since := 0,
    stage := 3, agree := 0, partnerId := 0, seenValid := false, partnerInv := false, echo := none, eqDone := false, partnerEqDone := false,
    partnerReady := false, lossMask := 0, dropped := 0, txSeq := 0 }

def TxLane.init : TxLane :=
  { fseq := 0, control := [], resends := [], frames := [], awaiting := [], flushWait := none, flushed := false,
    frameAt := 0, frameEnd := 0, dropped := 0, wiring := 0 }

def LaneCfg.init : LaneCfg := { swing := 20, preset := none, fixedCtle := false, noTxFix := false, ctleDb := 0, autoSleepMs := 0 }

def Connector.init : Connector :=
  { cfg := LaneCfg.init, inForce := LaneCfg.init, wokenAt := 0, entering := false, wakeAfter := false,
    sleepReqs := [], toldReady := false, wiringRx := false, wiringTx := false, hmcQueue := [], hmcWait := none, rx := [], mseq := 0, ident := none, identified := false, hmcLasting := false,
    statusAt := 0, crcErrors := 0, faultBits := 0 }

def LaneTest.init : LaneTest :=
  { bits := 0, errors := 0, syncLosses := 0, injected := 0, inSync := false, selected := false, gen := 0x7FFFFFFF, reg := 0,
    run := 0, win := 0, winErrors := 0 }

def Hlk.init : Hlk :=
  { lanes := Vector.replicate 34 Lane.init, tx := Vector.replicate 32 TxLane.init, conns := Vector.replicate 4 Connector.init,
    wakes := [], test := none, tests := Vector.replicate 32 LaneTest.init }

def Head.init : Head :=
  { present := false, headType := 0, minFire := 0, serial := 0, auth := .absent, keySlot := none, transients := 0,
    base := { serial := 0, recSeq := 0, res := 0, lines := 0, drops := 0, umac := [] }, pendLines := 0, pendDrops := 0,
    failCommits := 0, nonce := [], retried := false, commitRetried := false, lostCounts := none, commit := none, commitFor := [] }

def Hac.init : Hac :=
  { policy := 0, countMask := 0xFFFE, intervalS := 60, lastCommit := 0, heads := Vector.replicate 64 Head.init,
    keys := Vector.replicate 8 none, requests := [] }

def Hop.init : Hop :=
  { tx := { hseq := 0, wait := none, queue := [] }, txSleep := false, rxSleep := false, retrain := none, lostAt := none,
    down := false, delay := 0, lead := 0 }

def Chain.init : Chain :=
  { strap := false, address := none, count := 0, epoch := 0, hopIn := Hop.init, hopOut := Hop.init, enumWait := none,
    enumReq := none, rejoining := false, rejoinIn := none, rejoinOut := none, upSince := none, noHeadPosted := false, offset := 0, target := 0, slewAt := 0,
    reference := false, originator := false, sampleK := 0, samplePos := 0, last := none, lastAt := 0, seqGaps := 0,
    dTable := Vector.replicate 16 none, compared := 0, agreed := 0, lossPosted := false, originBad := 0, geomBad := 0, halfLap := none, inReset := 0, peerStop := true,
    sleepMs := 0, lastArmed := 0, forward := [], wasteOut := none, wasteAt := 0, linkReq := none }

def Axis.init : Axis :=
  { configured := false, softLimits := false, minPos := 0, maxPos := 0, vMax := 0, dStop := 0,
    lim := { aMax := 0, dMax := 0, jerk := 0 }, deferred := none, state := .disabled, offset := 0, homed := false,
    pos := 0, vel := 0, acc := 0, target := 0, speed := 0, jogVel := 0, ending := 0, kind := none, origin := none, overshoot := false, gear := none,
    homing := none, enable := false, faultReset := false, enabledAt := 0, dstatus := 0, actual := 0, linkTransients := 0,
    linkPending := none, goodFrames := 0, linkLost := false, judged := 0, gearPostAt := 0 }

def Mot.init : Mot :=
  { period := 62500, links := 0, gearLeadNs := 62500, tick := 0, axes := Vector.replicate 8 Axis.init }

def EccPost.init : EccPost := { count := 0, addr := 0, reader := 0, injected := false, postedAt := none }

def Miu.init : Miu :=
  { kc := Vector.replicate 5 0, kb := Vector.replicate 5 0, fsp := 2, fixed := false, idleMs := 100, pnrLog2 := 9,
    scrubPeriod := 128, lastHost := none, lastTraffic := 0, selfRefresh := false, refreshMult := 1,
    deficit := Vector.replicate 64 0, stuck := [], dead := [], poison := [], corrupt := [], ceTransient := 0,
    ceLasting := 0, ue := 0, sramCe := 0, sramUe := 0, retired := [], panics := 0, forced := 0, panicSince := none,
    panicRow := 0, panicForced := 0, panicTime := 0, scrubPos := 0, passStart := 0, passErrors := 0, passes := 0,
    bwNow := 0, bwStart := 0, bwLast := 0, eccPosts := Vector.replicate 8 EccPost.init,
    sweptAt := Vector.replicate 7 0, zqAt := 0, driftAt := Vector.replicate 32 0, adjusts := Vector.replicate 32 0,
    trainLasting := false, reloads := 0 }

/-- The clock code a domain has before boot: the always-on domain and the time domain on SIO, those with an alternate on
FIO, the others on their own clock (21 R523, R542). -/
def ClkDomain.init (d : Fin 13) : ClkDomain :=
  { clock := if d.val < 2 then 0 else if d.val = 3 then 11 else if d.val = 10 ∨ d.val = 11 then 12
             else if d.val = 12 then 10 else 2
    target := none, waiting := [], forced := false, gated := false, switches := 0 }

/-- 30,517.578125 ns in 2^-32 ns (21 R532). -/
def nominalIncrement : Nat := 30517578125 * 2 ^ 32 / 1000000

def Clk.init : Clk :=
  { sources := #v[.off, .running, .off, .starting, .off], plls := Vector.replicate 8 .off,
    restarted := Vector.replicate 5 false, pllRetried := Vector.replicate 8 false,
    domains := Vector.ofFn ClkDomain.init, onXb := false, increment := nominalIncrement,
    copies := Vector.replicate 13 0, crossings := Vector.replicate 13 { peerInReset := false, drops := 0, overflowed := false },
    pulseOverflows := 0, transients := 0, lasting := 0, lastReset := 0, inReset := 0xFFE, wanted := none, holdFrom := none,
    pinLow := none, armBlocked := false }

/-- A flash with nothing in it: what the factory programs is outside the module's rules. -/
def Flash.blank : Flash :=
  { records := Vector.replicate 2 [], cells := [], packages := Vector.replicate 2 none, floor := 0, resets := 0 }

def SlotInfo.none : SlotInfo := { valid := false, major := 0, minor := 0, patch := 0, secVer := 0 }

def Boot.init : Boot :=
  { stage := 0, stopCause := 0, recovery := false, fwReady := false, fallback := false, running := 0,
    slots := Vector.replicate 2 SlotInfo.none, flash := Flash.blank, update := none, bootTime := 0, sectionTransients := 0,
    keysLoaded := false, fenceRefused := 0, resetAt := none, activateAt := none, standbyAt := none, kettleAt := none, kettleDown := false }

def CalLimits.init : CalLimits :=
  { dwMax := 10000, cwMax := 100000, dMin := 683, dMax := 3072, medMin := 870, medMax := 1178 }

def Cal.init : Cal :=
  { fioCode := 0, fioNext := none, sioCode := 0, fioKhz := 0, sioHz := 0, transients := 0, lasting := 0, loads := 0, implausible := 0,
    baseGen := 0, limits := CalLimits.init, chart := none, fioRetry := false, sioRetry := false, fioReq := [],
    sioReq := [], retrain := [] }

def Tunnel.init : Tunnel := { buffer := List.replicate 256 0, reqFree := true, overrun := false }

def Mgt.init : Mgt :=
  { maddr := 0, alertStatus := 0, alertMask := 0, alert := false, pecErrors := 0, nacks := 0, timeouts := 0,
    flogIndex := 0, tunnels := Vector.replicate 2 Tunnel.init }

def Pwr.init : Pwr :=
  { powered := 1, railFaults := 0, railSince := 0, off := 0, repowerAt := Vector.replicate 12 none,
    repowered := Vector.replicate 12 none, vinMv := 48000, vinLow := false, vinSince := none,
    temps := Vector.replicate 20 0, excluded := Vector.replicate 20 false, suspect := Vector.replicate 20 false,
    levels := Vector.replicate 4 0, dieWarn := 95, dieThrottle := 100, dramWarn := 85, dramThrottle := 90,
    plateWarn := 58, transients := 0, lasting := 0, criticalHold := false, lateEvents := [] }

/-- The module right after power-on reset (21 R534, cause 0). -/
def State.reset : State :=
  { pending := [], aon := 0, free := 0, wires := [], mem := [], mbx := Mbx.init, hif := Hif.init, dma := Dma.init,
    fsv := Fsv.init, lsd := Lsd.init, job := Job.init, layout := Layout.init, hamper := Hamper.init, codec := Codec.init,
    rows := Vector.replicate 16 SpcRow.init, chk := Chk.init, txn := Txn.init, hlk := Hlk.init, hac := Hac.init,
    chain := Chain.init, mot := Mot.init, miu := Miu.init, clk := Clk.init, boot := Boot.init, cal := Cal.init,
    mgt := Mgt.init, pwr := Pwr.init }

end Sys2Proof.Machine
end

