-- ==== Sys2Proof/Machine/CodecOps.lean ====
section
/-! DEFINITION. The Plyneri block format (10 R228 to R244) as pure functions: block geometry, the decoder of CODED payloads,
and the check of a whole stream with the error codes of R244. -/

namespace Sys2Proof.Machine

/-! ### Error codes (R244) -/

def errMagic : Byte := 0x01
def errVersion : Byte := 0x02
def errHeaderCrc : Byte := 0x03
def errType : Byte := 0x04
def errGeometry : Byte := 0x05
def errPayLength : Byte := 0x06
def errReserved : Byte := 0x07
def errTable : Byte := 0x08
def errCode : Byte := 0x09
def errDistance : Byte := 0x0A
def errOverrun : Byte := 0x0B
def errUnderrun : Byte := 0x0C
def errTrailing : Byte := 0x0D
def errRawCrc : Byte := 0x0E
def errPadNibble : Byte := 0x0F
def errEnd : Byte := 0x10
def errPoison : Byte := 0x11

/-! ### Geometry (R228, R231, 03 R68) -/

/-- Blocks per band, and blocks in all. -/
def blockCols (w : Nat) : Nat := cdiv w 4096
def blockCount (w h : Nat) : Nat := cdiv h 16 * blockCols w

/-- Width of block `i` in positions and its lines. -/
def blockWidth (w i : Nat) : Nat := let c := i % blockCols w; if c + 1 = blockCols w then w - 4096 * c else 4096
def blockLines (w h i : Nat) : Nat := min 16 (h - i / blockCols w * 16)

/-- The line stride of a block in bytes. -/
def blockStride (codes : Bool) (w i : Nat) : Nat := if codes then cdiv (blockWidth w i) 2 else blockWidth w i

def rawLength (codes : Bool) (w h i : Nat) : Nat := blockStride codes w i * blockLines w h i

/-- The seed of a block's `raw_crc` (R232). -/
def blockSeed (w i : Nat) : BitVec 32 := BitVec.ofNat 32 (i / blockCols w * 16 + i % blockCols w)

/-- The raw data of a FILL block (R231): every position the value, pad nibbles zero. -/
def fillRaw (codes : Bool) (v width lines : Nat) : List Byte :=
  let line := if codes then List.replicate (width / 2) (BitVec.ofNat 8 (17 * (v % 16))) ++ (if width % 2 = 1 then [BitVec.ofNat 8 (v % 16)] else [])
    else List.replicate width (BitVec.ofNat 8 v)
  (List.replicate lines line).flatten

/-- The pad nibble of every line is zero. -/
def padsZero (codes : Bool) (width stride : Nat) (raw : List Byte) : Bool :=
  !codes || width % 2 == 0 || (List.range (raw.length / max 1 stride)).all (fun l => (raw.getD (l * stride + stride - 1) 0).toNat < 16)

/-! ### Bits (R234) -/

/-- The bit string of a payload. -/
def bitString (p : List Byte) : List Bool := p.flatMap (fun b => (List.range 8).map (fun i => b.getLsbD i))

/-- A fixed-width field, least significant bit first. -/
def takeBits : Nat → List Bool → Option (Nat × List Bool)
  | 0, bs => some (0, bs)
  | _ + 1, [] => none
  | n + 1, b :: bs => (takeBits n bs).map (fun r => (b2n b + 2 * r.1, r.2))

/-! ### Canonical codes (R239, R240) -/

/-- A code: how many codes each length has, and the symbols in code order. -/
structure Code where
  counts : List Nat
  symbols : List Nat

/-- The code of a list of code lengths, 0 for an unused symbol. -/
def codeOf (lens : List Nat) : Code :=
  { counts := (List.range 13).map (fun n => if n = 0 then 0 else (lens.filter (· == n)).length)
    symbols := (List.range 13).flatMap (fun n => if n = 0 then [] else (lens.zipIdx.filter (fun e => e.1 == n)).map (·.2)) }

/-- Sum of 2^(12 − length) over the used symbols: 4,096 for a complete code. -/
def kraft (lens : List Nat) : Nat := lens.foldl (fun k n => if n = 0 then k else k + 2 ^ (12 - n)) 0

def usedSymbols (lens : List Nat) : Nat := (lens.filter (· != 0)).length

/-- Complete, or one symbol of length 1. -/
def tableOk (lens : List Nat) : Bool := kraft lens == 4096 || (usedSymbols lens == 1 && lens.any (· == 1))

/-- Read one symbol, first bit of the code first: `code` and `first` are the code read and the first code of its length,
`index` counts the symbols of shorter lengths. -/
def readSymbol (c : Code) : List Nat → Nat → Nat → Nat → List Bool → Except Byte (Nat × List Bool)
  | [], _, _, _, _ => .error errCode
  | _ :: _, _, _, _, [] => if c.symbols.isEmpty then .error errCode else .error errUnderrun
  | n :: ns, code, first, index, b :: bs =>
    let code := 2 * code + b2n b
    let first := 2 * first
    if code < first + n then .ok (c.symbols.getD (index + (code - first)) 0, bs)
    else if ns.all (· == 0) then .error errCode
    else readSymbol c ns code (first + n) (index + n) bs

def Code.read (c : Code) (bs : List Bool) : Except Byte (Nat × List Bool) := readSymbol c (c.counts.drop 1) 0 0 0 bs

/-! ### Tables (R241, R242) -/

def fixedLengths : List Nat × List Nat := (List.replicate 256 9 ++ List.replicate 32 6, 1 :: List.replicate 32 6)

/-- Sixteen 3-bit code lengths. -/
def readClens : Nat → List Bool → Option (List Nat × List Bool)
  | 0, bs => some ([], bs)
  | n + 1, bs => match takeBits 3 bs with
    | none => none
    | some (v, r) => (readClens n r).map (fun x => (v :: x.1, x.2))

/-- The 321 code lengths, newest first; `fuel` bounds the symbols read. -/
def readLengths (c : Code) : Nat → List Nat → List Bool → Except Byte (List Nat × List Bool)
  | 0, acc, bs => .ok (acc, bs)
  | fuel + 1, acc, bs =>
    if 321 ≤ acc.length then .ok (acc, bs)
    else match c.read bs with
      | .error e => .error e
      | .ok (s, r) =>
        let run (extra base v : Nat) : Except Byte (List Nat × List Bool) :=
          match takeBits extra r with
          | none => .error errUnderrun
          | some (x, r') => if 321 < acc.length + base + x then .error errTable else .ok (List.replicate (base + x) v ++ acc, r')
        let next : Except Byte (List Nat × List Bool) :=
          if s ≤ 12 then .ok (s :: acc, r)
          else if s = 13 then (match acc with | [] => .error errTable | p :: _ => run 3 3 p)
          else if s = 14 then run 3 3 0
          else run 8 11 0
        match next with
        | .error e => .error e
        | .ok (acc', r') => readLengths c fuel acc' r'

/-- The tables of a payload behind `tsel`. -/
def readTables (bs : List Bool) : Except Byte ((List Nat × List Nat) × List Bool) :=
  match takeBits 2 bs with
  | none => .error errUnderrun
  | some (1, r) => .ok (fixedLengths, r)
  | some (0, r) =>
    match readClens 16 r with
    | none => .error errUnderrun
    | some (cl, r1) =>
      if !tableOk cl then .error errTable
      else match readLengths (codeOf cl) 321 [] r1 with
        | .error e => .error e
        | .ok (rev, r2) =>
          let lens := rev.reverse
          let lit := lens.take 288
          let dist := lens.drop 288
          if tableOk lit && (tableOk dist || usedSymbols dist == 0) then .ok ((lit, dist), r2) else .error errTable
  | some _ => .error errType

/-! ### Symbols (R236 to R238) -/

/-- Extra bits and base of length symbol 256 + k. -/
def lengthBase (k : Nat) : Nat × Nat :=
  if k < 8 then (0, 3 + k) else let g := (k - 8) / 4 + 1; (g, 3 + 8 * 2 ^ (g - 1) + (k - 8) % 4 * 2 ^ g)

/-- Extra bits and base of a distance symbol; UP is the stride. -/
def distanceBase (stride s : Nat) : Nat × Nat :=
  if s = 0 then (0, stride) else if s < 5 then (0, s) else let e := (s - 5) / 2 + 1; (e, 2 ^ (e + 1) + 1 + (s - 5) % 2 * 2 ^ e)

/-- Copy `n` bytes from `d` back, one after another; the output stands newest first. -/
def copyBack (d : Nat) : Nat → List Byte → List Byte
  | 0, out => out
  | n + 1, out => copyBack d n (out.getD (d - 1) 0 :: out)

/-- The bytes of a payload, newest first: `n` produced, `raw` wanted, at most `fuel` symbols. -/
def readBytes (lit dist : Code) (stride raw : Nat) : Nat → Nat → List Byte → List Bool → Except Byte (List Byte × List Bool)
  | 0, _, out, bs => .ok (out, bs)
  | fuel + 1, n, out, bs =>
    if raw ≤ n then .ok (out, bs)
    else match lit.read bs with
      | .error e => .error e
      | .ok (s, r) =>
        if s < 256 then readBytes lit dist stride raw fuel (n + 1) (BitVec.ofNat 8 s :: out) r
        else
          let (le, lb) := lengthBase (s - 256)
          match takeBits le r with
          | none => .error errUnderrun
          | some (lx, r1) => match dist.read r1 with
            | .error e => .error e
            | .ok (ds, r2) =>
              let (de, db) := distanceBase stride ds
              match takeBits de r2 with
              | none => .error errUnderrun
              | some (dx, r3) =>
                let len := lb + lx
                let d := db + dx
                if n < d then .error errDistance
                else if raw < n + len then .error errOverrun
                else readBytes lit dist stride raw fuel (n + len) (copyBack d len out) r3

/-- Decode a CODED payload of `raw` bytes (R235). -/
def decodePayload (stride raw : Nat) (p : List Byte) : Except Byte (List Byte) :=
  match readTables (bitString p) with
  | .error e => .error e
  | .ok (t, bs) => match readBytes (codeOf t.1) (codeOf t.2) stride raw raw 0 [] bs with
    | .error e => .error e
    | .ok (out, rest) => if rest.length < 8 ∧ rest.all (fun b => !b) = true then .ok out.reverse else .error errTrailing

/-! ### Blocks and streams (R229, R230, R243) -/

/-- `hdr_crc` of a 16-byte header. -/
def hdrOk (h : List Byte) : Bool := fld h 12 4 == (crc32c 0 (h.take 12)).toNat

/-- The checks of a block's raw data: `raw_crc`, then the pad nibbles. -/
def rawFault (codes : Bool) (w i : Nat) (crc : Nat) (raw : List Byte) : Option Byte :=
  if (crc32c (blockSeed w i) raw).toNat ≠ crc then some errRawCrc
  else if !padsZero codes (blockWidth w i) (blockStride codes w i) raw then some errPadNibble
  else none

/-- A block that has passed, and the rest of the stream. With `full` a payload that fails is an error; without, the block is
kept as one that will not decode. -/
def readBlock (full codes : Bool) (w h i : Nat) (p : List Byte) : Except Byte (Blk × List Byte) :=
  let hd := p.take 16
  let raw := rawLength codes w h i
  let ty := fld hd 0 1
  let pay := fld hd 4 2
  let crc := fld hd 8 4
  if hd.length < 16 then .error errEnd
  else if !hdrOk hd then .error errHeaderCrc
  else if !(ty == 0xA1 || ty == 0xA2 || ty == 0xA3) then .error errType
  else if fld hd 2 2 + 1 ≠ raw then .error errGeometry
  else if (ty == 0xA1 && pay + 1 != raw) || (ty == 0xA2 && pay != 0) || (ty == 0xA3 && decide (raw ≤ pay)) then .error errPayLength
  else if !zeros hd 6 2 || (ty != 0xA2 && fld hd 1 1 != 0) || (ty == 0xA2 && codes && decide (15 < fld hd 1 1)) then .error errReserved
  else if ty = 0xA2 then
    match rawFault codes w i crc (fillRaw codes (fld hd 1 1) (blockWidth w i) (blockLines w h i)) with
    | some e => .error e
    | none => .ok ({ btype := 0xA2, fillv := BitVec.ofNat 8 (fld hd 1 1), payload := [], raw := none, fault := 0, addr := 0, damaged := false }, p.drop 16)
  else
    let n := pay + 1
    let padded := cdiv n 16 * 16
    let body := (p.drop 16).take padded
    if body.length < padded then .error errEnd
    else if !zeros body n (padded - n) then .error errReserved
    else
      let data : Except Byte (List Byte) := if ty = 0xA1 then .ok (body.take n) else decodePayload (blockStride codes w i) raw (body.take n)
      let judged : Except Byte (List Byte) := match data with
        | .error e => .error e
        | .ok d => match rawFault codes w i crc d with
          | some e => .error e
          | none => .ok d
      let rest := (p.drop 16).drop padded
      let b : Blk := { btype := BitVec.ofNat 8 ty, fillv := 0, payload := body.take n, raw := none, fault := 0, addr := 0, damaged := false }
      match judged with
      | .ok d => .ok ({ b with raw := some d }, rest)
      | .error e => if full then .error e else .ok ({ b with fault := e }, rest)

/-- Blocks `i` on, `n` of them: an error comes with its block's index. -/
def readBlocks (full codes : Bool) (w h : Nat) : Nat → Nat → List Byte → Except (Byte × Nat) (List Blk × List Byte)
  | 0, _, p => .ok ([], p)
  | n + 1, i, p => match readBlock full codes w h i p with
    | .error e => .error (e, i)
    | .ok (b, rest) => match readBlocks full codes w h n (i + 1) rest with
      | .error e => .error e
      | .ok (bs, r) => .ok (b :: bs, r)

/-- The END block. -/
def endFault (n : Nat) (p : List Byte) : Option Byte :=
  let hd := p.take 16
  if hd.length < 16 then some errEnd
  else if !hdrOk hd then some errHeaderCrc
  else if fld hd 0 1 ≠ 0xAE ∨ fld hd 8 4 ≠ n then some errEnd
  else if fld hd 4 2 ≠ 0 then some errPayLength
  else if !zeros hd 1 7 then some errReserved
  else none

/-- What a stream holds. -/
structure Stream where
  w : Nat
  h : Nat
  blocks : List Blk

def streamIndex : Nat := 0xFFFFFF

/-- The stream header against what the command says; `want` none where it names no size (CODEC_CHECK). -/
def headerFault (codes : Bool) (want : Option (Nat × Nat)) (p : List Byte) : Option Byte :=
  let hd := p.take 16
  if hd.length < 16 then some errEnd
  else if hd.take 4 ≠ [0x50, 0x4C, 0x4E, 0x42] then some errMagic
  else if fld hd 4 1 ≠ 1 then some errVersion
  else if !hdrOk hd then some errHeaderCrc
  else if fld hd 5 1 != b2n codes || (match want with | some g => g != (fld hd 6 2 + 1, bits (fld hd 8 4) 0 20 + 1) | none => false) then some errGeometry
  else if 2 ^ 20 ≤ fld hd 8 4 then some errReserved
  else none

/-- Check a stream (R243): the error code and the index it is found at, or its content. -/
def readStream (full codes : Bool) (want : Option (Nat × Nat)) (p : List Byte) : Except (Byte × Nat) Stream :=
  match headerFault codes want p with
  | some e => .error (e, streamIndex)
  | none =>
    let w := fld p 6 2 + 1
    let h := bits (fld p 8 4) 0 20 + 1
    let n := blockCount w h
    match readBlocks full codes w h n 0 (p.drop 16) with
    | .error e => .error e
    | .ok (bs, rest) => match endFault n rest with
      | some e => .error (e, n)
      | none => .ok { w := w, h := h, blocks := bs }

/-- Bytes of a stream, header and END included. -/
def streamBytes (bs : List Blk) : Nat := bs.foldl (fun n b => n + b.size) 32

/-- Raw bytes of a tile. -/
def rawBytes (codes : Bool) (w h : Nat) : Nat := h * (List.range (blockCols w)).foldl (fun n c => n + blockStride codes w c) 0

/-- The detail of a stream that fails (R244). -/
def streamDetail (e : Byte × Nat) : Nat := e.1.toNat * 2 ^ 24 + e.2 % 2 ^ 24

/-- The bound of R233: every block STORED. -/
def storedBound (codes : Bool) (w h : Nat) : Nat :=
  (List.range (blockCount w h)).foldl (fun n i => n + 16 + 16 * cdiv (rawLength codes w h i) 16) 32

/-! ### Raw staging (R249) -/

/-- The raw data of block `i` of a tile handed over raw (R266). -/
def cutBlock (codes : Bool) (w h i : Nat) (p : List Byte) : List Byte :=
  let line := if codes then cdiv w 2 else w
  let c := i % blockCols w
  let off := if codes then 2048 * c else 4096 * c
  (List.range (blockLines w h i)).flatMap (fun l => (p.drop ((i / blockCols w * 16 + l) * line + off)).take (blockStride codes w i))

/-- The value of every position, when they all hold the same. -/
def fillOf (codes : Bool) (width lines : Nat) (raw : List Byte) : Option Nat :=
  let v := if codes then (raw.headD 0).toNat % 16 else (raw.headD 0).toNat
  if raw = fillRaw codes v width lines then some v else none

end Sys2Proof.Machine
end

