-- ==== Sys2Proof/Machine/Compress.lean ====
section
/-! DEFINITION. The compressor (10 R249, R250) as pure functions: the match search, the symbols of a block, transmitted tables, and
the choice among FILL, CODED and STORED. The functions take the hash, the code lengths and the run choices as arguments;
`compressBlock` supplies those of the firmware release, which the spec leaves to it. -/

namespace Sys2Proof.Machine

/-! ### The match search (R250) -/

abbrev Hash3 := Byte → Byte → Byte → BitVec 15

/-- What a compressor makes of a position: a literal, or a copy of `len` bytes from `dist` back. -/
inductive Token where
  | lit (b : Byte)
  | copy (len dist : Nat) (up : Bool)
deriving DecidableEq, Repr

/-- Equal bytes at the front of two lists, at most `n`. -/
def commonPrefix : Nat → List Byte → List Byte → Nat
  | n + 1, a :: as, b :: bs => if a = b then commonPrefix n as bs + 1 else 0
  | _, _, _ => 0

/-- The bytes from `d` back of the present position on; `back` holds the bytes before it, newest first. -/
def sourceAt (back rest : List Byte) (d : Nat) : List Byte := (back.take d).reverse ++ rest

def matchLength (back rest : List Byte) (d : Nat) : Nat := commonPrefix 514 (sourceAt back rest d) rest

def hashAt (hash : Hash3) : List Byte → Option (BitVec 15)
  | a :: b :: c :: _ => some (hash a b c)
  | _ => none

/-- The chain of the present position's hash, newest first, at most `cap` of it. -/
def chain (hash : Hash3) (cap : Nat) (back rest : List Byte) : List Nat :=
  (((List.range back.length).map (· + 1)).filter (fun d => hashAt hash (sourceAt back rest d) = hashAt hash rest)).take cap

/-- The longest match, UP before the chain and the chain newest first, so that a tie goes to UP and then to the smaller distance:
length, distance, UP. -/
def bestMatch (hash : Hash3) (stride cap : Nat) (back rest : List Byte) : Option (Nat × Nat × Bool) :=
  if (hashAt hash rest).isNone then none
  else
    let up := if stride ≤ back.length then [(stride, true)] else []
    (up ++ (chain hash cap back rest).map (·, false)).foldl (fun best c =>
      let n := matchLength back rest c.1
      if n < 3 then best
      else match best with
        | none => some (n, c)
        | some b => if b.1 < n then some (n, c) else best) none

/-- The tokens of a block; a match gives way to a longer one at the next position. `fuel` bounds the tokens. -/
def tokens (hash : Hash3) (stride cap : Nat) : Nat → List Byte → List Byte → List Token
  | 0, _, _ => []
  | _, _, [] => []
  | fuel + 1, back, b :: rest =>
    let literal := Token.lit b :: tokens hash stride cap fuel (b :: back) rest
    match bestMatch hash stride cap back (b :: rest) with
    | none => literal
    | some (n, d, up) =>
      if (bestMatch hash stride cap (b :: back) rest).any (fun m => n < m.1) then literal
      else .copy n d up :: tokens hash stride cap fuel (((b :: rest).take n).reverse ++ back) ((b :: rest).drop n)

/-! ### Symbols and their bits (R234, R236, R237, R239) -/

/-- Symbol, extra bits and their value: the length symbols count from 256. -/
def lengthSymbol (n : Nat) : Nat × Nat × Nat :=
  let k := ((List.range 32).find? (fun k => (lengthBase k).2 ≤ n && n < (lengthBase k).2 + 2 ^ (lengthBase k).1)).getD 0
  (256 + k, (lengthBase k).1, n - (lengthBase k).2)

def distanceSymbol (d : Nat) (up : Bool) : Nat × Nat × Nat :=
  if up then (0, 0, 0)
  else
    let b (s : Nat) := distanceBase 0 (s + 1)
    let s := ((List.range 32).find? (fun s => (b s).2 ≤ d && d < (b s).2 + 2 ^ (b s).1)).getD 0
    (s + 1, (b s).1, d - (b s).2)

/-- A fixed-width field, least significant bit first. -/
def fieldBits (n v : Nat) : List Bool := (List.range n).map v.testBit

/-- The canonical code of a symbol, first bit first. -/
def codeBits (lens : List Nat) (s : Nat) : List Bool :=
  let n := lens.getD s 0
  let first := (List.range n).foldl (fun c m => 2 * (c + if m = 0 then 0 else (lens.filter (· == m)).length)) 0
  let code := first + ((lens.take s).filter (· == n)).length
  (List.range n).map (fun i => code.testBit (n - 1 - i))

def Token.bits (lit dist : List Nat) : Token → List Bool
  | .lit b => codeBits lit b.toNat
  | .copy n d up =>
    let l := lengthSymbol n
    let s := distanceSymbol d up
    codeBits lit l.1 ++ fieldBits l.2.1 l.2.2 ++ codeBits dist s.1 ++ fieldBits s.2.1 s.2.2

/-- A bit string in bytes, bit 0 first, the last filled with zeros; `fuel` bounds the bytes. -/
def packBits : Nat → List Bool → List Byte
  | 0, _ => []
  | _, [] => []
  | fuel + 1, bs => BitVec.ofNat 8 (maskOf (bs.take 8)) :: packBits fuel (bs.drop 8)

/-- The payload with the fixed tables (R241). -/
def fixedPayload (ts : List Token) : List Byte :=
  let bs := [true, false] ++ ts.flatMap (Token.bits fixedLengths.1 fixedLengths.2)
  packBits bs.length bs

/-! ### Transmitted tables (R240, R242, R249) -/

/-- How often each symbol of an alphabet occurs. -/
def symbolCounts (n : Nat) (l : List Nat) : List Nat := (List.range n).map (fun s => (l.filter (· == s)).length)

/-- Code lengths that R240 accepts, within the limit, with a code for every symbol that occurs. -/
def lengthsFit (limit : Nat) (counts lens : List Nat) : Bool :=
  lens.length == counts.length && lens.all (· ≤ limit) && (counts.zip lens).all (fun e => e.1 == 0 || e.2 != 0) &&
  (tableOk lens || (usedSymbols lens == 0 && counts.all (· == 0)))

/-- The release's code lengths for the counts; `other` where they would not fit. -/
def fitted (choose : List Nat → Nat → List Nat) (limit : Nat) (counts other : List Nat) : List Nat :=
  if lengthsFit limit counts (choose counts limit) then choose counts limit else other

/-- Extra bits of a code-length symbol, and the shortest run it stands for. -/
def runExtra (s : Nat) : Nat × Nat := if s = 13 ∨ s = 14 then (3, 3) else if s = 15 then (8, 11) else (0, 1)

/-- The lengths that code-length symbols with their extra values stand for, newest first. -/
def expandRuns : List (Nat × Nat) → List Nat → Option (List Nat)
  | [], acc => some acc
  | (s, x) :: r, acc =>
    if 15 < s ∨ 2 ^ (runExtra s).1 ≤ x then none
    else if s ≤ 12 then expandRuns r (s :: acc)
    else if s = 13 then (match acc with | [] => none | p :: _ => expandRuns r (List.replicate (3 + x) p ++ acc))
    else expandRuns r (List.replicate ((runExtra s).2 + x) 0 ++ acc)

/-- The release's runs for the 321 lengths; every length by itself where they would not give them. -/
def fittedRuns (choose : List Nat → List (Nat × Nat)) (lens : List Nat) : List (Nat × Nat) :=
  if expandRuns (choose lens) [] = some lens.reverse then choose lens else lens.map (·, 0)

/-- The payload with transmitted tables. -/
def tablePayload (lengths : List Nat → Nat → List Nat) (runs : List Nat → List (Nat × Nat)) (ts : List Token) : List Byte :=
  let lit := fitted lengths 12 (symbolCounts 288 (ts.map (fun t => match t with | .lit b => b.toNat | .copy n _ _ => (lengthSymbol n).1)))
    fixedLengths.1
  let dist := fitted lengths 12 (symbolCounts 33 (ts.filterMap (fun t => match t with | .lit _ => none | .copy _ d up => some (distanceSymbol d up).1)))
    fixedLengths.2
  let rs := fittedRuns runs (lit ++ dist)
  let cl := fitted lengths 7 (symbolCounts 16 (rs.map (·.1))) (List.replicate 16 4)
  let bs := [false, false] ++ cl.flatMap (fieldBits 3) ++ rs.flatMap (fun e => codeBits cl e.1 ++ fieldBits (runExtra e.1).1 e.2) ++
    ts.flatMap (Token.bits lit dist)
  packBits bs.length bs

/-! ### A block (R249) -/

/-- The shorter payload; the fixed tables' on a tie. -/
def keptPayload (fixed table : List Byte) : List Byte := if table.length < fixed.length then table else fixed

/-- A block as a compressor leaves it at a `depth_cap`: FILL, CODED, or STORED where the kept payload is not shorter than the raw
data. The hash, the code lengths and the runs are the firmware release's, the same for every input (R250). -/
def compressBlock (codes : Bool) (w h cap i : Nat) (p : List Byte) : Blk :=
  let raw := cutBlock codes w h i p
  match fillOf codes (blockWidth w i) (blockLines w h i) raw with
  | some v => { btype := 0xA2, fillv := BitVec.ofNat 8 v, payload := [], raw := none, fault := 0, addr := 0, damaged := false }
  | none =>
    let ts := tokens Config.hash3 (blockStride codes w i) cap raw.length [] raw
    let kept := keptPayload (fixedPayload ts) (tablePayload Config.codeLengths Config.lengthRuns ts)
    if kept.length < raw.length then
      { btype := 0xA3, fillv := 0, payload := kept, raw := some raw, fault := 0, addr := 0, damaged := false }
    else { btype := 0xA1, fillv := 0, payload := raw, raw := some raw, fault := 0, addr := 0, damaged := false }

/-- The blocks of a tile handed over raw. -/
def compressTile (codes : Bool) (w h cap : Nat) (p : List Byte) : List Blk :=
  (List.range (blockCount w h)).map (fun i => compressBlock codes w h cap i p)

end Sys2Proof.Machine
end

