-- ==== Sys2Proof/Machine/Ops.lean ====
section
/-! DEFINITION. Named operations over the state that every family uses: time, outputs, device memory, events, replies
and results of the mailboxes, what is told to FSV, request line pulses. -/

namespace Sys2Proof.Machine

/-! ### Time (21 R532) -/

def ns (n : Nat) : Nat := n * 2 ^ 32
def us (n : Nat) : Nat := ns (1000 * n)
def ms (n : Nat) : Nat := ns (1000000 * n)
def sec (n : Nat) : Nat := ns (1000000000 * n)

/-- An event at time `t`: the always-on counter never runs backward. -/
def State.at (s : State) (t : Nat) : State := { s with aon := max s.aon t }

/-- Always-on time in whole nanoseconds. -/
def State.nowNs (s : State) : Nat := s.aon / 2 ^ 32

/-- Always-on time as the 64-bit stamp of records and replies. -/
def State.stamp (s : State) : BitVec 64 := BitVec.ofNat 64 s.nowNs

/-! ### Outputs and free values -/

def State.emit (s : State) (w : Wire) : State := { s with wires := w :: s.wires }

/-- The index of a fresh free value; the counter goes past it. -/
def State.draw (s : State) : State := { s with free := s.free + 1 }

/-! ### Device memory: a canonical list of cells (11 R257) -/

/-- The byte at an address; an unlisted one reads 0 (20 R514). -/
def Memory.get : List Host.Cell → Nat → Byte
  | [], _ => 0
  | c :: r, a => if c.1 = a then c.2 else Memory.get r a

/-- Write one byte; a zero byte is not listed. -/
def Memory.set : List Host.Cell → Nat → Byte → List Host.Cell
  | [], a, v => if v = 0 then [] else [(a, v)]
  | c :: r, a, v =>
    if a < c.1 then (if v = 0 then c :: r else (a, v) :: c :: r)
    else if a = c.1 then (if v = 0 then r else (a, v) :: r)
    else c :: Memory.set r a v

/-- The canonical form: addresses strictly rise and no entry is zero. -/
def Memory.wf : List Host.Cell → Bool
  | [] => true
  | [c] => c.2 != 0
  | c :: d :: r => c.2 != 0 && c.1 < d.1 && Memory.wf (d :: r)

/-- The `n` bytes from an address on. -/
def Memory.read (m : List Host.Cell) : Nat → Nat → List Byte
  | _, 0 => []
  | a, n + 1 => Memory.get m a :: Memory.read m (a + 1) n

/-- Write a byte string from an address on. -/
def Memory.write (m : List Host.Cell) (a : Nat) : List Byte → List Host.Cell
  | [] => m
  | b :: r => Memory.write (Memory.set m a b) (a + 1) r

/-- The transfer zone, 16 GiB (11 R257). -/
def zoneBase : Nat := 0x3400000000
def zoneSize : Nat := 0x400000000

def State.memRead (s : State) (a n : Nat) : List Byte := Memory.read s.mem a n

/-- The 8-byte word at `w` is touched by `n` bytes from `a` on. -/
def touches (a n w : Nat) : Bool := decide (w < a + n ∧ a < w + 8)

/-- `n` bytes of device memory are written: their words are no longer poisoned nor corrupted (20 R509, R518). -/
def Miu.wrote (m : Miu) (a n : Nat) : Miu :=
  { m with poison := m.poison.filter (fun w => !touches a n w), corrupt := m.corrupt.filter (fun c => !(c.target == 0 && touches a n c.addr)) }

def State.wrote (s : State) (a n : Nat) : State := { s with miu := s.miu.wrote a n }

/-- Write device memory. -/
def State.memWrite (s : State) (a : Nat) (p : List Byte) : State := { s with mem := Memory.write s.mem a p, miu := s.miu.wrote a p.length }

/-- A range lies in an open window that grants the access (19 R23, 22 R552). -/
def Window.grants (w : Window) (write : Bool) (a n : Nat) : Bool :=
  w.valid && (if write then w.write else w.read) && decide (w.base.toNat ≤ a) &&
    decide (a + n ≤ w.base.toNat + w.size.toNat * 4096)

def State.inWindow (s : State) (write : Bool) (a n : Nat) : Bool := s.hif.windows.toList.any (fun w => w.grants write a n)

/-! ### Global fault and interrupts (19 R473 to R476) -/

/-- Signal an MSI-X vector; one whose mask bit is set in the table becomes pending (R475). -/
def State.msix (s : State) (v : Nat) : State :=
  if (s.hif.msixTable.toList.getD v 0).getLsbD 96 then { s with hif := { s.hif with msixPending := s.hif.msixPending ||| (1#64 <<< v) } }
  else s.emit (.msix v)

/-- Set a bit of GLOBAL_FAULT; vector 0 is signalled when it was clear and is not masked (R474). -/
def State.setGlobalFault (s : State) (b : Nat) : State :=
  let s' := { s with hif := { s.hif with globalFault := s.hif.globalFault ||| (1#8 <<< b) } }
  if s.hif.globalFault.getLsbD b || s.hif.faultMask.getLsbD b then s' else s'.msix 0

/-- Set a bit of ALERT_STATUS; an unmasked rise asserts SMBALERT_N (25 R596). -/
def State.setAlert (s : State) (b : Nat) : State :=
  { s with mgt := { s.mgt with
      alertStatus := s.mgt.alertStatus ||| (1#11 <<< b)
      alert := s.mgt.alert || (!s.mgt.alertStatus.getLsbD b && !s.mgt.alertMask.getLsbD b) } }

/-- A request line pulses (R485): it is on its way to the channels. -/
def State.drq (s : State) (line : Fin 64) : State := { s with dma := { s.dma with pulses := s.dma.pulses ++ [line] } }

/-! ### Status codes (17 R430) -/

def Status.code : Status → Byte
  | .ok => 0x00 | .accepted => 0x01 | .empty => 0x02 | .badOpcode => 0x10 | .badLength => 0x11 | .badParam => 0x12
  | .badState => 0x13 | .noResource => 0x14 | .windowFault => 0x15 | .leadTooShort => 0x20 | .implausible => 0x21
  | .txnAborted => 0x22 | .generationBusy => 0x23 | .transientRecovered => 0x30 | .lastingFault => 0x31 | .internal => 0x3F

/-! ### Events (19 R492): classes 0 JOB, 1 MOTION, 2 FAULT, 3 SYSTEM -/

def clsJob : Fin 4 := 0
def clsMotion : Fin 4 := 1
def clsFault : Fin 4 := 2
def clsSystem : Fin 4 := 3

/-- The event answers a request whose replies a reset of the host domain has muted (17 R428). -/
def State.answersMuted (s : State) (e : Ev) : Bool :=
  match e.origin with
  | some o => (s.mbx.boxes[o.mb]).outstanding.any (fun x => x.tag == o.tag && x.muted)
  | none => false

/-- Hand an event to the posting unit. -/
def State.postEv (s : State) (e : Ev) : State :=
  { s with mbx := { s.mbx with outbox := s.mbx.outbox ++ [{ e with keep := s.answersMuted e }] } }

/-- An event that no request caused. -/
def State.post (s : State) (code : BitVec 16) (cls : Fin 4) (data : List DataField) (detail : Nat := 0) : State :=
  s.postEv { code := code, cls := cls, origin := none, status := 0, time := s.stamp, detail := BitVec.ofNat 32 detail,
             data := evData data }

/-- Records the event needs: 40 data bytes each, at least one, at most 16 (R492). -/
def Ev.count (e : Ev) : Nat := max 1 (min 16 (cdiv e.data.length 40))

/-- Record `i` of an event, with the phase bit of its slot (R490, R492). -/
def Ev.record (e : Ev) (i : Nat) (phase : Bool) : List Byte :=
  le 2 e.code.toNat ++ le 1 e.cls.val ++ le 1 (i + 16 * (e.count - 1)) ++
  le 1 (match e.origin with | some o => o.mb.val | none => 0xFF) ++ [e.status] ++
  le 2 (match e.origin with | some o => o.tag.toNat | none => 0) ++ le 8 e.time.toNat ++ le 4 e.detail.toNat ++
  padTo 40 (e.data.drop (40 * i)) ++ le 4 (b2n phase * 2 ^ 31)

/-! ### Chain messages (15 R357, R358) -/

def State.hop (s : State) (side : Side) : Hop := match side with | .inn => s.chain.hopIn | .out => s.chain.hopOut

def State.setHop (s : State) (side : Side) (h : Hop) : State :=
  match side with
  | .inn => { s with chain := { s.chain with hopIn := h } }
  | .out => { s with chain := { s.chain with hopOut := h } }

/-- The lane of a side's connector. -/
def hopLane (side : Side) : Fin 34 := match side with | .inn => 32 | .out => 33

/-- A hop is UP: both directions are ACTIVE (R355) and it is neither lost nor asleep (R374, R377). -/
def State.hopUp (s : State) (side : Side) : Bool :=
  let h := s.hop side
  (s.hlk.lanes[hopLane side]).state == .active && !h.down && h.retrain.isNone && !h.txSleep && !h.rxSleep

/-- A side's transmit direction carries messages. -/
def State.canSend (s : State) (side : Side) : Bool :=
  let h := s.hop side
  (s.hlk.lanes[hopLane side]).state == .active && !h.down && h.retrain.isNone && !h.txSleep

/-- The blocks of a chain message on one side (R357): CHN_START, the body, CHN_END. -/
def ChainMsg.blocks (m : ChainMsg) (side : Side) (hseq : Byte) (resend : Bool) (epoch : BitVec 6) : List (Bool × BitVec 64) :=
  let n := cdiv m.body.length 8
  let flags := b2n (side == .inn) + 2 * b2n resend + 4 * epoch.toNat
  let body := padTo (8 * n) m.body
  [ctl [0xC1, m.mtype, m.src, m.dst, hseq, BitVec.ofNat 8 n, BitVec.ofNat 8 flags]] ++
  (List.range n).map (fun i => (false, blockOf ((body.drop (8 * i)).take 8))) ++
  [(true, blockOf ([0xC2, hseq, 0, crc8 [0xC2, hseq, 0]] ++
    le 4 (crc32c (BitVec.ofNat 32 (hseq.toNat * 65536 + 0x300 + m.src.toNat)) body).toNat))]

/-- The physical lane at the mirrored position of its connector (12 R288, R289); chain lanes have no order. -/
def mirrorLane (l : Fin 34) : Fin 34 := if h : l.val < 32 then ⟨l.val / 8 * 8 + (7 - l.val % 8), by omega⟩ else l

/-- The physical lane a lane sends on, mirrored where that correction of R289 is applied. -/
def Lane.sendsOn (n : Lane) (l : Fin 34) : Fin 34 := if n.txRev then mirrorLane l else l

/-- A block as a lane sends it, inverted where that correction of R289 is applied. -/
def Lane.sends (n : Lane) (b : Bool × BitVec 64) : Bool × BitVec 64 := if n.txInv then (!b.1, ~~~b.2) else b

/-- A lane sends blocks. -/
def State.laneOut (s : State) (l : Fin 34) (b : List (Bool × BitVec 64)) : State :=
  let n := s.hlk.lanes[l]
  s.emit (.laneBlocks (n.sendsOn l) (b.map n.sends))

/-! ### Training blocks (12 R283) -/

def State.lane (s : State) (l : Fin 34) : Lane := s.hlk.lanes[l]
def State.updLane (s : State) (l : Fin 34) (f : Lane → Lane) : State :=
  { s with hlk := { s.hlk with lanes := upd s.hlk.lanes l f } }

/-- The stage a lane announces. -/
def LaneState.stage : LaneState → Nat
  | .pll => 1 | .signal => 2 | .lock => 3 | .retrain => 3 | .align => 4 | .equalise => 5 | .ready => 6 | .active => 6 | _ => 0

/-- The preset the module asks for: each in turn for 1 ms, then the best (R284). -/
def Lane.request (l : Lane) (now : Nat) : Nat :=
  if l.state == .equalise then (if l.eqDone then l.partnerPreset else min 7 ((now - l.since) / ms 1)) else 0xF

/-- The stage a lane announces: a retrain runs stages 3 and 4 (R293). -/
def Lane.announced (n : Lane) : Nat := if n.state == .retrain then n.stage else n.state.stage

/-- The training block a lane sends (R283); `seen_inv` is never set (R287). -/
def State.trainingBlock (s : State) (l : Fin 34) (stage : Nat) : Bool × BitVec 64 :=
  let n := s.lane l
  let id := if l.val < 32 then l.val else 0
  let v := 0xD2 + id * 2 ^ 8 + stage * 2 ^ 16 + n.request s.aon * 2 ^ 20 + n.partnerId % 32 * 2 ^ 24 +
    b2n n.sync.locked * 2 ^ 30 + b2n n.seenValid * 2 ^ 31 +
    n.txSeq.toNat * 2 ^ 32 + b2n n.eqDone * 2 ^ 48 + b2n (n.state == .ready || n.state == .active) * 2 ^ 49
  ctl (le 7 v)

/-- Send one training block, as a sample of the stream of them. -/
def State.sendTraining (s : State) (l : Fin 34) (stage : Nat) : State :=
  (s.laneOut l [s.trainingBlock l stage]).updLane l (fun n => { n with txSeq := n.txSeq + 1 })

/-- Sleep entry: 64 training blocks with stage 7, and then idle (12 R294, R377). -/
def State.sleepOut (s : State) (l : Fin 34) : State := (List.range 64).foldl (fun s _ => s.sendTraining l 7) s

/-- A lane inserts a NOTICE into its frame (13 R311). -/
def State.laneInsert (s : State) (l : Fin 34) (before : Nat) (b : Bool × BitVec 64) : State :=
  let n := s.hlk.lanes[l]
  s.emit (.laneNotice (n.sendsOn l) before (n.sends b))

/-- Beacons go before every other message, and then transaction messages (R358). -/
def chainUrgency (m : ChainMsg) : Nat :=
  if m.mtype = 0x10 then 0 else if 0x20 ≤ m.mtype.toNat ∧ m.mtype.toNat ≤ 0x23 then 1 else 2

/-- The message a side sends next: the oldest of the most urgent. -/
def chainNext (q : List ChainMsg) : Option ChainMsg :=
  match q.find? (fun m => chainUrgency m = 0) with
  | some m => some m
  | none => match q.find? (fun m => chainUrgency m = 1) with
    | some m => some m
    | none => q.head?

/-- A side that awaits no acknowledgement sends its next message. -/
def State.chainPump (s : State) (side : Side) : State :=
  let h := s.hop side
  match h.tx.wait, chainNext h.tx.queue with
  | none, some m =>
    (s.setHop side { h with tx := { hseq := h.tx.hseq + 1, wait := some (h.tx.hseq, m, false, s.aon),
                                    queue := h.tx.queue.erase m } }).laneOut
      (hopLane side) (m.blocks side h.tx.hseq false s.chain.epoch)
  | _, _ => s

/-- Send a message on one side; a side that cannot carry one sends none. -/
def State.chainTo (s : State) (side : Side) (m : ChainMsg) : State :=
  if s.canSend side then
    let h := s.hop side
    (s.setHop side { h with tx := { h.tx with queue := h.tx.queue ++ [m] } }).chainPump side
  else s

def otherSide : Side → Side
  | .inn => .out
  | .out => .inn

/-- The sender of a message that needs a sleeping direction wakes it, for the next message (R377). -/
def State.wakeDir (s : State) (side : Side) : State :=
  if (s.hop side).txSleep then (s.setHop side { s.hop side with txSleep := false }).sendTraining (hopLane side) 6 else s

/-- A direction enters sleep where it carries messages. -/
def State.sleepDir (s : State) (side : Side) : State :=
  if s.canSend side then (s.sleepOut (hopLane side)).setHop side { s.hop side with txSleep := true } else s

/-- The chain runs in LINE mode as far as this module knows (R374). -/
def State.lineMode (s : State) : Bool := s.chain.hopIn.down || s.chain.hopOut.down || (s.chain.last.map (·.lineMode)).getD false

/-- This module's address as a message field. -/
def State.ownAddress (s : State) : Byte := match s.chain.address with | some a => BitVec.ofNat 8 a.val | none => 0xFF

/-- A message that needs a side which is asleep or lost goes the other way, and the side is woken; where neither carries
one it goes once its side is awake (R377). -/
def State.chainVia (s : State) (side : Side) (m : ChainMsg) : State :=
  if s.canSend side then s.chainTo side m
  else if s.canSend (otherSide side) then (s.chainTo (otherSide side) m).wakeDir side
  else (s.wakeDir side).chainTo side m

/-- Send a message of this module: downstream in ring mode; in LINE mode a broadcast goes both ways (R374). -/
def State.chainSend (s : State) (m : ChainMsg) : State :=
  if s.lineMode && m.dst == 0xFF then (((s.wakeDir .out).wakeDir .inn).chainTo .out m).chainTo .inn m
  else s.chainVia .out m

/-- Broadcast a body under this module's address. -/
def State.chainBroadcast (s : State) (mtype : Byte) (body : List Byte) : State :=
  s.chainSend { mtype := mtype, src := s.ownAddress, dst := 0xFF, body := body }

/-! ### Replies (17 R419, R421, R425) -/

/-- A reply message: header and payload. -/
def replyMsg (opcode tag : BitVec 16) (st : Status) (detail : Nat) (payload : List Byte) : List Byte :=
  le 2 opcode.toNat ++ le 2 tag.toNat ++ le 2 payload.length ++ [st.code, 0] ++ le 4 detail ++ zeroBytes 4 ++ payload

def State.box (s : State) (m : Fin 8) : Box := s.mbx.boxes[m]
def State.setBox (s : State) (m : Fin 8) (b : Box) : State := { s with mbx := { s.mbx with boxes := s.mbx.boxes.set m b } }
def State.updBox (s : State) (m : Fin 8) (f : Box → Box) : State := s.setBox m (f (s.box m))

/-- Room for one more reply: the reply ring of MB0 to MB3 (R415), the four-reply store of MB4 and MB5 (25 R593), and
always for a peer's mailbox, whose reply leaves on the chain. -/
def Box.room (b : Box) (m : Fin 8) : Bool :=
  if m.val < 4 then (b.rplTail - b.rplHead).toNat < 64 else if m.val < 6 then b.replies.length < 4 else true

/-- BAR0 offset of a slot of a mailbox's ring; `reply` picks ring 2m + 1 (R414). -/
def slotAddr (m : Fin 8) (reply : Bool) (idx : BitVec 7) : Nat :=
  0x20000 + (2 * m.val + b2n reply) * 0x4000 + idx.toNat % 64 * 0x100

/-- A forwarded reply that fits in 240 bytes: its payload cut to 224 bytes, the embedded length following (R439). -/
def peerMsg (msg : List Byte) : List Byte :=
  if msg.length ≤ 240 then msg else msg.take 4 ++ le 2 224 ++ (msg.drop 6).take 234

/-- Write a reply where there is room for it. -/
def State.writeReply (s : State) (m : Fin 8) (msg : List Byte) : State :=
  let b := s.box m
  if m.val < 4 then
    let s1 := { s with mbx := { s.mbx with ringMem := Memory.write s.mbx.ringMem (slotAddr m true b.rplTail) msg } }
    let s2 := s1.updBox m (fun b => { b with rplTail := b.rplTail + 1 })
    if b.replyIrq then s2.msix (1 + m.val) else s2
  else if m.val < 6 then (s.updBox m (fun b => { b with replies := b.replies ++ [msg] })).setAlert (m.val - 4)
  else
    let dst := s.mbx.peers[m].headD 0
    let s1 := { s with mbx := { s.mbx with peers := s.mbx.peers.set m (s.mbx.peers[m].drop 1) } }
    s1.chainSend { mtype := 0x41, src := s.ownAddress, dst := BitVec.ofNat 8 dst.val, body := peerMsg msg }

/-- Deliver a reply: write it, or hold it behind a full ring or behind replies already held (R421). -/
def State.deliver (s : State) (m : Fin 8) (msg : List Byte) : State :=
  let b := s.box m
  if b.held.isEmpty && b.room m then s.writeReply m msg
  else s.updBox m (fun b => { b with held := b.held ++ [msg] })

/-- Remember a started request; a request with the same tag is replaced, and 64 are kept (R427). -/
def Box.remember (b : Box) (r : Remembered) : Box :=
  { b with memory := (r :: b.memory.filter (fun x => x.tag != r.tag)).take 64 }

/-- Give the remembered request its last reply. -/
def Box.rememberReply (b : Box) (tag : BitVec 16) (reply : List Byte) (pending : Bool) : Box :=
  { b with memory := b.memory.map (fun x => if x.tag = tag then { x with reply := reply, pending := pending } else x) }

/-- Forget the oldest entry of a tag: its request has been answered. -/
def Box.answered (b : Box) (tag : BitVec 16) : Box := { b with outstanding := b.outstanding.eraseP (fun x => x.tag = tag) }

/-- Change or, where `f` answers none, forget the newest entry of a tag: the request just started. -/
def updNewest (tag : BitVec 16) (f : Outstanding → Option Outstanding) : List Outstanding → List Outstanding
  | [] => []
  | x :: r => if x.tag = tag ∧ (r.any (fun y => y.tag = tag)) = false then (f x).toList ++ r else x :: updNewest tag f r

/-- The last reply to a started request enters retry memory, unless a later request of its tag has taken its place (R427). -/
def Box.lastReply (b : Box) (x : Outstanding) (reply : List Byte) : Box :=
  let b1 := b.answered x.tag
  if x.forgotten then b1 else b1.rememberReply x.tag reply false

/-! ### Results of commands that answered ACCEPTED or wait for their answer (R423 to R426) -/

/-- A request's deferred answer becomes known: a final reply is written by FINAL_REPLY when one is owed, and retry
memory no longer calls the result pending. -/
def State.resolve (s : State) (o : Origin) (st : Status) (detail : Nat) (payload : List Byte) : State :=
  let b := s.box o.mb
  match b.outstanding.find? (fun x => x.tag = o.tag) with
  | none => s
  | some x =>
    if x.owed then
      { s with mbx := { s.mbx with results := s.mbx.results ++
          [{ mb := o.mb, tag := o.tag, status := st, detail := BitVec.ofNat 32 detail, record := payload }] } }
    else s.setBox o.mb { b.answered o.tag with
      memory := if x.forgotten then b.memory else b.memory.map (fun y => if y.tag = o.tag then { y with pending := false } else y) }

/-- Post a result event for a request and resolve it; `final` is the status of the final reply where the owning
chapter states one other than the event's (R424). -/
def State.result (s : State) (o : Option Origin) (code : BitVec 16) (cls : Fin 4) (st : Status) (detail : Nat)
    (data : List DataField) (final : Option Status := none) : State :=
  let e : Ev := { code := code, cls := cls, origin := o, status := st.code, time := s.stamp,
                  detail := BitVec.ofNat 32 detail, data := evData data }
  let s1 := s.postEv e
  match o with
  | none => s1
  | some o => s1.resolve o (final.getD st) detail (e.record 0 false)

/-! ### What is told to FSV (24 R577 to R585) -/

def State.tellFsv (s : State) (i : FsvItem) : State := { s with fsv := { s.fsv with inbox := s.fsv.inbox ++ [i] } }

def State.detect (s : State) (d : Detect) : State := s.tellFsv (.detect d s.aon)

/-- Waste-mark lines first..last of a row. -/
def State.wasteMark (s : State) (row : Fin 16) (first last : Nat) (cause : Byte) : State :=
  s.tellFsv (.mark row first last cause s.aon)

end Sys2Proof.Machine
end

