-- ==== Sys2Proof/Machine/Mailbox.lean ====
section
/-! DEFINITION. How a mailbox serves one request: the checks of R420, retry memory (R427), and the replies of R421 and
R423 to R425. A family gives each command its opcode, the payload lengths it allows and what it does. -/

namespace Sys2Proof

def Req.asyncOk (q : Req) : Bool := q.flags.getLsbD 0
def Req.retry (q : Req) : Bool := q.flags.getLsbD 1
def Req.origin (q : Req) : Machine.Origin := { mb := q.mb, tag := q.tag }

end Sys2Proof

namespace Sys2Proof.Machine

/-- What a command answers. `status` none: the answer comes later, without an ACCEPTED before it. -/
structure Ans where
  state : State
  status : Option Status := some .ok
  detail : Nat := 0
  payload : List Byte := []

/-- A command of the index R431. -/
structure Cmd where
  opcode : Nat
  /-- Payload lengths the opcode allows. -/
  okLen : Nat → Bool
  run : Req → State → Ans

/-- Answer a status and nothing else. -/
def Ans.fail (s : State) (st : Status) (detail : Nat := 0) : Ans := { state := s, status := some st, detail := detail }

/-- The first condition that holds decides the status (R420); otherwise the command goes on. -/
def checks (s : State) : List (Bool × Status) → (Unit → Ans) → Ans
  | [], k => k ()
  | c :: r, k => if c.1 then .fail s c.2 else checks s r k

/-- Opcodes 0x0F00 to 0x0FFF run on MB4 and MB5 only (R413). -/
def opPermitted (opcode : Nat) (m : Fin 8) : Bool := opcode / 256 != 0x0F || m.val == 4 || m.val == 5

/-- Reply to a request and remember the reply as its last (R427). -/
def State.reply (s : State) (q : Req) (opcode : Nat) (st : Status) (detail : Nat) (payload : List Byte) (pending : Bool) : State :=
  let msg := replyMsg (BitVec.ofNat 16 opcode) q.tag st detail payload
  (s.updBox q.mb (fun b => b.rememberReply q.tag msg pending)).deliver q.mb msg

/-- The entry of a started request whose answer may come later (R423, R425). -/
def outstandingOf (q : Req) (opcode : Nat) : Outstanding :=
  let tunnel := q.mb.val == 4 || q.mb.val == 5
  { tag := q.tag, opcode := BitVec.ofNat 16 opcode, owed := tunnel || !q.asyncOk, blocks := !tunnel && !q.asyncOk, muted := false,
    forgotten := false }

/-- Start a request's bookkeeping: remembered in place of an earlier request of its tag, and outstanding until answered. -/
def State.start (s : State) (q : Req) (opcode : Nat) : State :=
  s.updBox q.mb (fun b =>
    let b1 := b.remember { tag := q.tag, opcode := BitVec.ofNat 16 opcode, crc := crc32c 0 q.payload, reply := [],
                           pending := true }
    let older := b1.outstanding.map (fun (x : Outstanding) => if x.tag = q.tag then { x with forgotten := true } else x)
    { b1 with outstanding := older ++ [outstandingOf q opcode] })

/-- What the command answers under R420: opcode and length first, then its own checks and its effect. -/
def Cmd.answer (c : Cmd) (q : Req) (s : State) : Ans :=
  if !opPermitted c.opcode q.mb then .fail s .badOpcode
  else if !(decide (q.payload.length ≤ 240) && c.okLen q.payload.length) then .fail s .badLength
  else c.run q s

/-- Deliver an answer: at once, as ACCEPTED, or later (R423, R425). -/
def Ans.deliver (a : Ans) (q : Req) (opcode : Nat) : State :=
  match a.status with
  | none =>
    let owe (x : Outstanding) : Option Outstanding := some { x with owed := true, blocks := true }
    a.state.updBox q.mb (fun b => { b with outstanding := updNewest q.tag owe b.outstanding })
  | some .accepted =>
    if q.mb.val == 4 || q.mb.val == 5 || q.asyncOk then
      a.state.reply q opcode .accepted a.detail a.payload ((a.state.box q.mb).outstanding.any (fun x => x.tag = q.tag))
    else a.state
  | some st =>
    (a.state.updBox q.mb (fun b => { b with outstanding := updNewest q.tag (fun _ => none) b.outstanding })).reply q opcode st a.detail a.payload false

/-- Execute a request as a new one. -/
def Cmd.execute (c : Cmd) (q : Req) (s : State) : State := (c.answer q (s.start q c.opcode)).deliver q c.opcode

/-- Serve a request: a RETRY that meets a remembered request of its tag executes nothing (R427). -/
def serve (c : Cmd) (q : Req) (s : State) : State :=
  match if q.retry then (s.box q.mb).memory.find? (fun x => x.tag = q.tag) else none with
  | none => c.execute q s
  | some r =>
    if r.opcode = BitVec.ofNat 16 c.opcode ∧ r.crc = crc32c 0 q.payload then
      if r.pending then s.deliver q.mb (replyMsg r.opcode q.tag .accepted 0 []) else s.deliver q.mb r.reply
    else s.deliver q.mb (replyMsg (BitVec.ofNat 16 c.opcode) q.tag .badParam 0xFFFF0001 [])

/-- A command's answer that came later is written as its reply. -/
def State.answerLater (s : State) (r : Result) (x : Outstanding) : State :=
  let msg := replyMsg x.opcode r.tag r.status r.detail.toNat r.record
  let s1 := s.updBox r.mb (fun b => b.lastReply x msg)
  if x.muted then s1 else s1.deliver r.mb msg

end Sys2Proof.Machine
end

