-- ==== Sys2Proof/Machine/Walker.lean ====
section
/-! DEFINITION. PLW, the placement walker (03): panel instances, the Active Placement Table and its steps per line, the ranking
of instances, the spans of a layer on a half-row line, and the walker's part of a checkpoint. -/

namespace Sys2Proof.Machine

/-! ### Panel instances (R58, R59) -/

/-- Where a plane line lies: the panel instance, its first plane line, its panel. -/
structure InstAt where
  inst : Nat
  start : Nat
  panel : Panel

/-- The panels of a sequence; a slot that is not defined stands for none. -/
def seqPanels (ly : Layout) (seq : List (Fin 4096)) : List Panel :=
  seq.filterMap (fun sl => ly.panels.find? (fun p => p.slot = sl))

/-- The instance that holds plane line `line`: none beyond a finite sequence. -/
def instanceAt : List Panel → Nat → Nat → Nat → Option InstAt
  | [], _, _, _ => none
  | p :: r, inst, start, line =>
    if p.length = 0 then instanceAt r inst start line
    else if p.rpt = 0 || line < start + p.length * p.rpt then
      let k := (line - start) / p.length
      some { inst := inst + k, start := start + k * p.length, panel := p }
    else instanceAt r (inst + p.rpt) (start + p.length * p.rpt) line

/-- Instances and plane lines of a sequence: none when it runs until stopped (18 R450). -/
def seqTotals : List Panel → Option (Nat × Nat)
  | [] => some (0, 0)
  | p :: r => if p.rpt = 0 then none else (seqTotals r).map (fun t => (t.1 + p.rpt, t.2 + p.length * p.rpt))

/-- The first plane line of instance `n` and its panel. -/
def instanceStart : List Panel → Nat → Nat → Option (Nat × Panel)
  | [], _, _ => none
  | p :: r, start, n =>
    if p.rpt = 0 || n < p.rpt then some (start + n * p.length, p)
    else instanceStart r (start + p.length * p.rpt) (n - p.rpt)

/-! ### Where a placement lands (R69, R70) -/

/-- The size of what a placement places: a tile, or a variable box (R69). -/
def placeSize (tiles : List Tile) (l : PList) (p : Place) : Nat × Nat :=
  if l.isVar then
    match l.slots[p.tile]? with
    | some sl => (sl.boxW, sl.boxH)
    | none => (0, 0)
  else
    match tiles.find? (fun t => t.id = p.tile && t.ready) with
    | some t => (t.w, t.h)
    | none => (0, 0)

/-- A placement with the size it places (R69): a tile's, or a variable box's. -/
structure Placed where
  list : PList
  place : Place
  w : Nat
  h : Nat

def PList.placed (tiles : List Tile) (l : PList) : List Placed :=
  l.places.map (fun p => let z := placeSize tiles l p; { list := l, place := p, w := z.1, h := z.2 })

/-- The first instance of the placement whose right edge lies at or beyond position `lo` (R81). -/
def Placed.firstMeeting (e : Placed) (lo : Int) : Nat :=
  if lo < e.place.x + e.w then 0 else cdiv (lo + 1 - e.place.x - e.w).toNat e.place.sx

/-- Repeats across the web. -/
def Placed.across (e : Placed) : Nat := if e.place.sx = 0 then 1 else max 1 e.place.nx

/-- Some instance of the placement meets positions `lo` to `hi`. -/
def Placed.meets (e : Placed) (lo hi : Int) : Bool :=
  let i := e.firstMeeting lo
  decide (0 < e.w ∧ i < e.across ∧ lo < e.place.x + i * e.place.sx + e.w ∧ e.place.x + i * e.place.sx ≤ hi)

/-- Some instance of the placement meets the clip window (R57, R79). -/
def Placed.visible (e : Placed) : Bool := e.meets 0 16383

/-- The highest repeat of a run of `n` repeats at `start`, `step` apart, each `size` long, that covers `at_`. -/
def topRepeat (start : Int) (step n size : Nat) (at_ : Int) : Option (Nat × Nat) :=
  if at_ < start then none
  else
    let d := (at_ - start).toNat
    let i := if n ≤ 1 || step = 0 then 0 else min (n - 1) (d / step)
    let a := d - i * step
    if a < size then some (i, a) else none

/-- Y_j: the plane line of the panel instance at which repeat `j` begins. -/
def Place.lineOf (p : Place) (j : Nat) : Nat := p.y + j * p.sy

/-- Repeats down the web. -/
def Place.down (p : Place) : Nat := if p.sy = 0 then 1 else max 1 p.ny

/-! ### The Active Placement Table and the steps per line (R79, R80) -/

/-- The repeat of a placement that comes next after the activation `(y, i, j)` in the order of Y, index and j. -/
def Place.nextRepeat (p : Place) (index : Nat) : Option (Nat × Nat × Nat) → Option Nat
  | none => some 0
  | some (y, i, _) =>
    let low := if y ≤ p.y then 0 else if p.sy = 0 then p.down else cdiv (y - p.y) p.sy
    let k := if p.lineOf low = y ∧ index ≤ i then low + 1 else low
    if k < p.down then some k else none

/-- The lower of two activations in the order of Y, index and j. -/
def lowerAct (a : Option (Nat × Nat × Nat)) (b : Nat × Nat × Nat) : Option (Nat × Nat × Nat) :=
  match a with
  | none => some b
  | some x => if b.1 < x.1 ∨ (b.1 = x.1 ∧ (b.2.1 < x.2.1 ∨ (b.2.1 = x.2.1 ∧ b.2.2 < x.2.2))) then some b else some x

/-- The next activation of a layer after its cursor: line, placement index and j (R80's steps take them in ascending Y_j). -/
def PList.nextAct (l : PList) (cursor : Option (Nat × Nat)) : Option (Nat × Nat × Nat) :=
  let at_ := cursor.bind (fun c => (l.places[c.1]?).map (fun p => (p.lineOf c.2, c.1, c.2)))
  l.places.zipIdx.foldl (fun acc e => match e.1.nextRepeat e.2 at_ with
    | some j => lowerAct acc (e.1.lineOf j, e.2, j)
    | none => acc) none

/-- A layer's part of a line's steps: its cursor, the table, and the entries activated. -/
structure LayerStep where
  cursor : Option (Nat × Nat)
  table : List WEntry
  changes : Nat

/-- "While the next activation of the layer has Y_j at or before y": an entry is created when y lies above its end and some
instance of it meets the window; `fuel` bounds the activations a list has. -/
def PList.activate (l : PList) (tiles : List Tile) (layer : Fin 16) (length y : Nat) : Nat → LayerStep → LayerStep
  | 0, a => a
  | fuel + 1, a =>
    match l.nextAct a.cursor with
    | none => a
    | some (line, index, j) =>
      if y < line then a
      else
        let b := { a with cursor := some (index, j) }
        match (l.placed tiles)[index]? with
        | some e =>
          if y < min (line + e.h) length ∧ e.visible = true then
            l.activate tiles layer length y fuel { b with table := b.table ++ [{ layer := layer, index := index, j := j }], changes := b.changes + 1 }
          else l.activate tiles layer length y fuel b
        | none => l.activate tiles layer length y fuel b

/-- The activations a list has in all. -/
def PList.acts (l : PList) : Nat := l.places.foldl (fun n p => n + p.down) 0

/-- The end line of an entry: none when its placement is not there. -/
def WEntry.endLine (e : WEntry) (tiles : List Tile) (l : PList) (length : Nat) : Option Nat :=
  (l.placed tiles)[e.index]?.map (fun p => min (p.place.lineOf e.j + p.h) length)

/-- The layers of a plane in a panel, bottom first, with their lists (R60). -/
def planeLayers (hp : Hamper) (p : Panel) (plane : Fin 16) : List (Fin 16 × PList) :=
  (p.lists.filter (fun e => e.1 / 16 = plane.val)).filterMap
    (fun e => (hp.lists.find? (fun l => l.handle = e.2)).map (fun l => (Fin.ofNat 16 (e.1 % 16), l)))

def planeLists (hp : Hamper) (p : Panel) (plane : Fin 16) : List PList := (planeLayers hp p plane).map (·.2)

/-- A line's walk: the state after it and A, the entries activated or retired (R83). -/
structure Walked where
  walk : Walker
  changes : Nat

/-- One layer's activations and retirements on panel line `y`. -/
def Walked.layer (tiles : List Tile) (length y : Nat) (w : Walked) (e : Fin 16 × PList) : Walked :=
  let a := e.2.activate tiles e.1 length y (e.2.acts + 1) { cursor := w.walk.cursors[e.1], table := w.walk.table, changes := w.changes }
  let ended (x : WEntry) : Bool := x.layer == e.1 &&
    (match x.endLine tiles e.2 length with | some n => decide (n ≤ y) | none => true)
  { walk := { w.walk with cursors := w.walk.cursors.set e.1 a.cursor, table := a.table.filter (fun x => !ended x) }
    changes := a.changes + (a.table.filter ended).length }

/-- The steps of a line up to the spans; `i` is the instance that holds its plane line. -/
def Walker.step (hp : Hamper) (plane : Fin 16) (i : InstAt) (line : Nat) (w : Walker) : Walked :=
  let start : Walked :=
    if w.inst = i.inst then { walk := w, changes := 0 }
    else { walk := { inst := i.inst, start := i.start, cursors := Vector.replicate 16 none, table := [] }, changes := w.table.length }
  (planeLayers hp i.panel plane).foldl (Walked.layer hp.tiles i.panel.length (line - i.start)) start

/-! ### Ranking and spans (R70 to R76, R81, R82) -/

/-- The winner of a layer at a position: placement index, j, i, the place inside the instance, and the placement (R72). -/
structure Winner where
  index : Nat
  j : Nat
  i : Nat
  u : Nat
  v : Nat
  place : Place

/-- The winner among a layer's active entries at position `x`, panel line `y` (R69, R70, R72). -/
def layerWinner (tiles : List Tile) (l : PList) (table : List WEntry) (x y : Nat) : Option Winner :=
  table.foldl (fun acc e =>
    match (l.placed tiles)[e.index]? with
    | none => acc
    | some p =>
      let below := match acc with
        | some (w : Winner) => decide (w.index < e.index ∨ (w.index = e.index ∧ w.j < e.j))
        | none => true
      let down := y - p.place.lineOf e.j
      match topRepeat p.place.x p.place.sx p.place.nx p.w x with
      | some (i, a) =>
        if below = true ∧ p.place.lineOf e.j ≤ y ∧ down < p.h then
          some { index := e.index, j := e.j, i := i, place := p.place
                 u := if p.place.mirrorX then p.w - 1 - a else a, v := if p.place.mirrorY then p.h - 1 - down else down }
        else acc
      | none => acc) none

/-- What a winning instance of a layer holds in panel instance `n` (R74, R76). -/
inductive Shown where
  | tile (t : Tile)
  /-- An unbound REQUIRED box. -/
  | unbound
  | nothing

def shown (tiles : List Tile) (bindings : List Binding) (l : PList) (n : Nat) (w : Winner) : Shown :=
  let show_ (id : Nat) : Shown :=
    match tiles.find? (fun t => t.id = id && t.ready) with
    | some t => .tile t
    | none => .nothing
  if l.isVar then
    match bindings.find? (fun b => b.inst = n && b.list = l.handle && b.slot = w.place.tile) with
    | some b => show_ b.tile
    | none =>
      match l.slots[w.place.tile]? with
      | none => .nothing
      | some sl =>
        match sl.policy with
        | .blank => .nothing
        | .dflt => show_ sl.tile
        | .required => .unbound
  else show_ w.place.tile

def opCode : BlendOp → Nat
  | .over => 0 | .max => 1 | .add => 2 | .knockout => 3 | .masked => 4

/-- A span (R82); `len` 0 is the zero-length marker of an unbound box, or of a damaged block (10 R248). -/
structure Span where
  start : Nat
  len : Nat
  layer : Fin 16
  op : BlendOp
  rev : Bool
  fill : Option Byte
  band : Nat
  tile : Nat
  line : Nat
  block : Nat
  u0 : Nat
  /-- The marker stands for a damaged block; not in the record. -/
  damaged : Bool
deriving DecidableEq, Repr

def Span.provisional (s : Span) : Bool := s.len == 0

/-- The 16-byte record of R82. -/
def Span.bytes (s : Span) : List Byte :=
  le 2 s.start ++ le 2 (s.len - 1) ++ le 1 (s.layer.val + 16 * opCode s.op + 128 * b2n s.rev) ++
  le 1 (b2n s.fill.isSome + 2 * b2n s.provisional) ++ le 2 s.band ++ le 3 s.tile ++ le 1 (s.line + 16 * s.block) ++ le 2 s.u0 ++
  le 1 (s.fill.getD 0).toNat ++ le 1 0

/-- Columns of a tile's blocks (R68). -/
def Tile.cols (t : Tile) : Nat := cdiv t.w 4096

/-- What a layer shows at a position, and the instance it comes from: a span continues while all of this stays (R81). -/
structure SpanKey where
  index : Nat
  j : Nat
  i : Nat
  /-- Tile and block; none for an unbound box. -/
  block : Option (Nat × Nat)
deriving DecidableEq, Repr

/-- The span of one position: none where the layer is transparent. -/
def spanAt (tiles : List Tile) (bindings : List Binding) (l : PList) (layer : Fin 16) (table : List WEntry) (n x y : Nat) :
    Option (SpanKey × Span) :=
  match layerWinner tiles l table x y with
  | none => none
  | some w =>
    match shown tiles bindings l n w with
    | .nothing => none
    | .unbound =>
      some ({ index := w.index, j := w.j, i := w.i, block := none },
            { start := x, len := 0, layer := layer, op := w.place.op, rev := false, fill := none, band := 0, tile := 0, line := 0, block := 0,
              u0 := 0, damaged := false })
    | .tile t =>
      if t.w ≤ w.u ∨ t.h ≤ w.v then none
      else
        let c := w.u / 4096
        let b := t.blocks[w.v / 16 * t.cols + c]?
        let bad := b.any (·.damaged)
        some ({ index := w.index, j := w.j, i := w.i, block := some (t.id, c) },
              { start := x, len := if bad then 0 else 1, layer := layer, op := w.place.op, rev := w.place.mirrorX, fill := b.bind Blk.fill
                band := w.v / 16, tile := t.id, line := w.v % 16, block := c, u0 := w.u % 4096, damaged := bad })

/-- The spans made so far, newest first, and the key the last position had. -/
structure SpanRun where
  done : List (SpanKey × Span)
  last : Option SpanKey

/-- A position joins the run that stands, or begins one; a box without a binding, and a damaged block, gives one marker. -/
def SpanRun.add (a : SpanRun) : Option (SpanKey × Span) → SpanRun
  | none => { a with last := none }
  | some (k, s) =>
    if a.last = some k then
      match a.done with
      | (k', t) :: r => { done := (k', if t.len = 0 then t else { t with len := t.len + 1 }) :: r, last := some k }
      | [] => { done := [(k, s)], last := some k }
    else if s.len = 0 ∧ a.done.any (fun e => e.1 = k) = true then { a with last := some k }
    else { done := (k, s) :: a.done, last := some k }

/-- `emit_spans`: the spans of a layer on positions `lo` to `lo` + 8,191, in ascending start (R81). -/
def layerSpans (tiles : List Tile) (bindings : List Binding) (l : PList) (layer : Fin 16) (table : List WEntry) (n lo y : Nat) : List Span :=
  let mine := table.filter (fun e => e.layer = layer &&
    ((l.placed tiles)[e.index]?.any (fun p => p.meets lo (lo + 8191))))
  if mine.isEmpty then []
  else
    (((List.range 8192).foldl (fun (a : SpanRun) i => a.add (spanAt tiles bindings l layer mine n (lo + i) y))
      { done := [], last := none }).done.map (·.2)).reverse

/-- The bands that spans need decoded: FILL blocks and markers need none (01 R17, 10 R245). -/
def bandsOf (tiles : List Tile) (r : Fin 16) (spans : List Span) : List Band :=
  (spans.filterMap (fun s =>
    if s.len = 0 ∨ s.fill.isSome = true then none
    else (tiles.find? (fun t => t.id = s.tile)).map (fun t => Band.mk r s.layer t.id (s.band * t.cols + s.block)))).dedup

/-- The spans of every layer of a plane on a half-row line, bottom layer first. -/
def lineSpans (hp : Hamper) (bindings : List Binding) (plane : Fin 16) (i : InstAt) (table : List WEntry) (lo line : Nat) : List Span :=
  (planeLayers hp i.panel plane).flatMap (fun e => layerSpans hp.tiles bindings e.2 e.1 table i.inst lo (line - i.start))

/-! ### The walker's part of a checkpoint (R84) -/

def Walker.cursorBytes : Option (Nat × Nat) → List Byte
  | some (index, j) => le 4 index ++ le 4 j
  | none => le 8 (2 ^ 64 - 1)

/-- Layer in [3:0], placement index in [23:4], j in [39:24]. -/
def WEntry.bytes (e : WEntry) : List Byte := le 8 (e.layer.val + e.index * 2 ^ 4 + e.j * 2 ^ 24)

/-- 8,336 bytes; an entry that is not in use is written as ones. -/
def Walker.bytes (w : Walker) : List Byte :=
  le 8 w.inst ++ le 8 w.start ++ w.cursors.toList.flatMap Walker.cursorBytes ++
  (w.table.take 1024).flatMap WEntry.bytes ++ List.replicate (8 * (1024 - w.table.length)) 0xFF

end Sys2Proof.Machine
end

