-- ==== Sys2Proof/Machine/Expand.lean ====
section
/-! DEFINITION. Expansion of one line of a row, PLW to HST, as one pure function of the stored layout, the tables of a
generation and the state between two lines (01 R15): the walker's spans and the composite (03, 04), tone, screening (05), nozzle
compensation and history (06), and the signatures over the result (09). -/

namespace Sys2Proof.Machine

/-! ### The composite (03 R76, R82, 04 R87) -/

/-- What a span gives at a position. -/
inductive Pixel where
  | ink (value : Nat)
  /-- A position of a block whose decode has not succeeded: no engine receives bytes for it (10 R246). -/
  | undecoded
deriving DecidableEq, Repr

/-- The pixel a span lands on position `x` (R67, R68, R82). -/
def Span.pixel (tiles : List Tile) (s : Span) (x : Nat) : Pixel :=
  match s.fill with
  | some f => .ink f.toNat
  | none =>
    match tiles.find? (fun t => t.id = s.tile && t.ready) with
    | none => .undecoded
    | some t =>
      let u := if s.rev then s.u0 - (x - s.start) else s.u0 + (x - s.start)
      let bw := if s.block + 1 = t.cols then t.w - 4096 * s.block else 4096
      match t.blocks[s.band * t.cols + s.block]? with
      | none => .undecoded
      | some b =>
        match b.raw with
        | none => .undecoded
        | some raw =>
          if t.codes then
            let byte := (raw.getD (s.line * cdiv bw 2 + u / 2) 0).toNat
            .ink (if u % 2 = 0 then byte % 16 else byte / 16)
          else .ink (raw.getD (s.line * bw + u) 0).toNat

/-- One composite step (04 R87). -/
def blend (codes : Bool) (op : BlendOp) (r a : Nat) : Nat :=
  let top := if codes then 15 else 255
  match op with
  | .over => a
  | .max => max r a
  | .add => min top (r + a)
  | .knockout => r - a
  | .masked => if codes then (if a = 0 then 0 else r) else (2 * r * a + 255) / 510

/-- A position's composite value, and whether it lacks data. -/
structure Comp where
  value : Nat
  undecoded : Bool

/-- The spans that cover a position are combined bottom layer first; CMP ignores markers. -/
def composite (tiles : List Tile) (codes : Bool) (spans : List Span) (x : Nat) : Comp :=
  spans.foldl (fun c s =>
    if s.start ≤ x ∧ x < s.start + s.len then
      match s.pixel tiles x with
      | .ink a => { c with value := blend codes s.op c.value a }
      | .undecoded => { c with undecoded := true }
    else c) { value := 0, undecoded := false }

/-! ### Tables of a generation -/

/-- Entry i of a logical curve (04 R91, R102). -/
def Gen.curveEntry (g : Gen) (curve c : Nat) : Nat :=
  match g.curves.find? (fun e => e.1 = curve) with
  | some e => e.2.getD c 0
  | none => (c * 4095 + 127) / 255

/-- Gain and offset of a nozzle (R93, R102). -/
def Gen.pncEntry (g : Gen) (nozzle : Nat) : Nat × Int :=
  match g.pnc.find? (fun e => e.1 ≤ nozzle && nozzle < e.1 + e.2.length) with
  | some e => e.2.getD (nozzle - e.1) (2048, 0)
  | none => (2048, 0)

def Gen.entry (g : Gen) (nozzle : Nat) : Option NetEntry := g.net.find? (fun e => e.nozzle = nozzle)

/-- The screening settings in force for a plane (05 R126, R127). -/
def Plane.settings (p : Plane) (number : Nat) : Screen :=
  match p.screen with
  | some sc => sc
  | none =>
    { mode := if p.codes then .passThrough else .diffusion, maxDose := 15, paperHold := true, tInvert := false,
      noiseAmp := 64, matrix := 0, xPhase := 0, yPhase := 0, seed := BitVec.ofNat 32 number,
      weights := [16, 6, 3, 9, 14, 10, 6], levels := (List.range 16).map (fun d => 273 * d) }

/-- A row's tone curve: the committed one, or the one fixed at arming (R102). -/
def rowCurve (ly : Layout) (g : Gen) (r : Fin 16) : Nat := (g.rowCurve[r]).getD ly.rows[r].armCurve

/-! ### Tone, registration and blanket (04 R89 to R98) -/

/-- The shifted value at an output position (R89). -/
def shifted (codes : Bool) (shift : Int) (c : Int → Nat) (p : Nat) : Nat :=
  let src : Int := p * 16 - shift
  if codes then c ((src + 8).fdiv 16)
  else
    let q := src.fdiv 16
    let f := (src - 16 * q).toNat
    (c q * (16 - f) + c (q + 1) * f + 8) / 16

/-- Gain and offset (R94). -/
def toned (t c gain : Nat) (offset : Int) : Nat :=
  if c = 0 then 0 else (max 0 (min 4095 ((((t * gain + 1024) / 2048 : Nat) : Int) + offset))).toNat

/-- Weight of the left module of a pair (R96). -/
def leftWeight (b inset k : Nat) : Nat :=
  let d := b - 2 * inset
  if k < inset then 256
  else if b ≤ k + inset then 0
  else (256 * (2 * (d - (k - inset)) - 1) + d) / (2 * d)

/-- The weight at a position, and its blanket index and side when it lies in a blanket: `true` right (R95, R96). -/
def blanketAt (bl br inset p : Nat) : Nat × Option (Nat × Bool) :=
  if p < bl then (256 - leftWeight bl inset p, some (p, false))
  else if 16384 - br ≤ p then (leftWeight br inset (p - (16384 - br)), some (p - (16384 - br), true))
  else (256, none)

/-- The pick threshold of R98. -/
def pickThreshold (k line : Nat) : Nat :=
  let y := line % 16
  let z := (k % 16) ^^^ y
  let s := (List.range 4).foldl (fun s i => s + (y / 2 ^ i % 2) * 2 ^ (2 * i) + (z / 2 ^ i % 2) * 2 ^ (2 * i + 1)) 0
  (List.range 8).foldl (fun t i => t + (s / 2 ^ i % 2) * 2 ^ (7 - i)) 0

/-- The blanket step on a code plane (R98). -/
def pickCode (code w : Nat) (place : Option (Nat × Bool)) (line : Nat) : Nat :=
  match place with
  | none => code
  | some (k, right) =>
    if (if right then pickThreshold k line < w else 255 - pickThreshold k line < w) then code else 0

/-- What SCA receives at a position (R100). -/
def toneAt (ly : Layout) (g : Gen) (r : Fin 16) (codes : Bool) (line : Nat) (c : Int → Nat) (p : Nat) : Nat :=
  let v := shifted codes g.shift[r] c p
  let w := blanketAt g.bLeft g.bRight g.inset p
  if codes then pickCode v w.1 w.2 line
  else
    let e := g.pncEntry (r.val * 16384 + p)
    let u := toned (g.curveEntry (rowCurve ly g r) v) v e.1 e.2
    (u * w.1 + 128) / 256

/-! ### Screening (05) -/

/-- The mixer of R113. -/
def mix (x : BitVec 32) : BitVec 32 :=
  let a := (x ^^^ (x >>> 16)) * 0x5A3D7C4B#32
  let b := (a ^^^ (a >>> 13)) * 0x6B29E1F5#32
  b ^^^ (b >>> 16)

/-- The line's noise state s (R113). -/
def noiseState (seed : BitVec 32) (line : Nat) (r : Fin 16) : BitVec 32 :=
  mix (mix (seed ^^^ BitVec.ofNat 32 line) ^^^ (BitVec.ofNat 32 (line / 2 ^ 32) <<< 4) ^^^ BitVec.ofNat 32 r.val)

/-- The noise value at a position (R113). -/
def noiseAt (s : BitVec 32) (amp p : Nat) : Int :=
  let rp := mix (s + BitVec.ofNat 32 p * 0x9E3779B9#32)
  ((((rp >>> 20).toNat : Int) - 2048) * amp).fdiv 4096

/-- The threshold between codes d − 1 and d (R107). -/
def threshold (levels : List Nat) (d : Nat) : Nat := (levels.getD (d - 1) 0 + levels.getD d 0 + 1) / 2

/-- The highest code, up to M, whose threshold a level reaches, thresholds moved by `n` (R109, R139). -/
def quantise (levels : List Nat) (m : Nat) (level n : Int) : Nat :=
  (List.range m).foldl (fun d i => if (threshold levels (i + 1) : Int) + n ≤ level then i + 1 else d) 0

def clampInt (lo hi v : Int) : Int := max lo (min hi v)

/-- Add to an element of an array of carries; a place outside is lost (R111). -/
def addAt (a : Array Int) (i : Int) (v : Int) : Array Int :=
  if 0 ≤ i then a.modify i.toNat (· + v) else a

/-- The sweep of one engine: error for the next position and the one after, contributions to the next line, codes in
sweep order, newest first. -/
structure Sweep where
  e1 : Int
  e2 : Int
  next : Array Int
  codes : List Nat

/-- One position of error diffusion (R109 to R111); `dir` is 1 in the lower engine, −1 in the upper. -/
def diffuse (sc : Screen) (s : BitVec 32) (dir : Int) (carry : Array Int) (w : Sweep) (p : Nat) (x : Nat) : Sweep :=
  if x = 0 && sc.paperHold then { w with e1 := w.e2, e2 := 0, codes := 0 :: w.codes }
  else
    let m := clampInt (-2048) 6143 (x + carry.getD p 0 + w.e1)
    let d := quantise sc.levels sc.maxDose m (noiseAt s sc.noiseAmp p)
    let e := clampInt (-2048) 2047 (m - (sc.levels.getD d 0 : Int))
    let at_ (dx : Int) : Int := p + dir * dx
    let inside (q : Int) : Bool := decide (0 ≤ q ∧ q ≤ 16383)
    let same (q : Int) : Bool := inside q && decide (q / 8192 = (p : Int) / 8192)
    let part (k : Nat) (ok : Bool) : Int := if ok then (e * (sc.weights.getD k 0 : Int)).fdiv 64 else 0
    let c0 := part 0 (same (at_ 1))
    let c1 := part 1 (same (at_ 2))
    let c2 := part 2 (inside (at_ (-2)))
    let c3 := part 3 (inside (at_ (-1)))
    let c5 := part 5 (inside (at_ 1))
    let c6 := part 6 (inside (at_ 2))
    let c4 := e - (c0 + c1 + c2 + c3 + c5 + c6)
    let next := addAt (addAt (addAt (addAt (addAt w.next (at_ (-2)) c2) (at_ (-1)) c3) p c4) (at_ 1) c5) (at_ 2) c6
    { e1 := w.e2 + c0, e2 := c1, next := next, codes := d :: w.codes }

/-- Threshold-matrix screening of one position (R119). -/
def matrixDose (sc : Screen) (m : Matrix) (line p x : Nat) : Nat :=
  if sc.levels.getD sc.maxDose 0 ≤ x then sc.maxDose
  else
    let d := (List.range sc.maxDose).foldl (fun d i => if sc.levels.getD i 0 ≤ x then i else d) 0
    let f := (x - sc.levels.getD d 0) * 4096 / (sc.levels.getD (d + 1) 0 - sc.levels.getD d 0)
    let t := m.entries.getD ((line + sc.yPhase) % m.h * m.w + (p + sc.xPhase) % m.w) 0
    let t := if sc.tInvert then 4095 - t else t
    if t < f then d + 1 else d

/-- SCA over a row line: dose codes and each half's contributions to the next line's carry. -/
structure Screened where
  dose : Array Nat
  nextLo : Array Int
  nextHi : Array Int

def zeroCarry : Array Int := Array.replicate 16384 0

def screenLine (ly : Layout) (sc : Screen) (r : Fin 16) (n line : Nat) (x : Array Nat) (carry : Array Int) : Screened :=
  match sc.mode with
  | .passThrough => { dose := x, nextLo := zeroCarry, nextHi := zeroCarry }
  | .matrix =>
    let m := (ly.matrices[sc.matrix]).getD { w := 1, h := 1, entries := [0] }
    { dose := (x.toList.zipIdx.map (fun e => matrixDose sc m line e.2 e.1)).toArray, nextLo := zeroCarry, nextHi := zeroCarry }
  | .diffusion =>
    let s := noiseState sc.seed n r
    let start : Sweep := { e1 := 0, e2 := 0, next := zeroCarry, codes := [] }
    let lo := (List.range 8192).foldl (fun w p => diffuse sc s 1 carry w p (x.getD p 0)) start
    let hi := (List.range 8192).foldl (fun w k => diffuse sc s (-1) carry w (16383 - k) (x.getD (16383 - k) 0)) start
    { dose := (lo.codes.reverse ++ hi.codes).toArray, nextLo := lo.next, nextHi := hi.next }

/-! ### Nozzle compensation (06 R137 to R139) -/

/-- Levels NZC works with: those of the plane, or 273 × d for PASS_THROUGH (R137). -/
def nzcLevels (sc : Screen) : List Nat × Nat :=
  match sc.mode with
  | .passThrough => ((List.range 16).map (fun d => 273 * d), 15)
  | _ => (sc.levels, sc.maxDose)

/-- The boost a row's nozzle takes over for entries of other rows of its plane (R130, R134, R138). -/
def partnerGain (ly : Layout) (g : Gen) (r : Fin 16) (p : Nat) : Nat :=
  match g.net.find? (fun e => decide (e.partner = some r) && e.nozzle % 16384 == p && e.nozzle / 16384 != r.val &&
      decide ((ly.rows.toList[e.nozzle / 16384]?.bind (·.plane)) = ly.rows[r].plane)) with
  | some e => e.pgain
  | none => 0

/-- The dose code handed to HST at a position (R138, R139). -/
def compensated (levels : List Nat) (m : Nat) (entry : Nat → Option NetEntry) (pgain : Nat → Nat) (dose : Nat → Nat)
    (p : Nat) : Nat :=
  let v (q : Nat) : Nat := levels.getD (dose q) 0
  let fromRight := if p + 1 < 16384 then (match entry (p + 1) with | some e => v (p + 1) * e.left / 64 | none => 0) else 0
  let fromLeft := if 0 < p then (match entry (p - 1) with | some e => v (p - 1) * e.right / 64 | none => 0) else 0
  let keep := match entry p with | some e => e.keep | none => 64
  let level := (v p + fromRight + fromLeft + v p * pgain p / 64) * keep / 64
  if levels.getD m 0 ≤ level then m else quantise levels m level 0

/-! ### History (06 R141, R143) -/

def histNext (h : Byte) (dn : Nat) : Byte :=
  if dn = 0 then (if h.toNat / 16 < 15 then h + 16 else h) else BitVec.ofNat 8 dn

def firingCode (hs : HistSet) (maskCode : Nat) (masked : Bool) (h : Byte) (dn : Nat) : Nat :=
  if masked then maskCode else hs.wave.getD (hs.classOf.getD h.toNat 0 * 16 + dn) 0

/-! ### The line -/

/-- Everything a line's expansion makes. -/
structure LineOut where
  /-- The spans of the lower and of the upper half-row line (03 R82), and A (R83). -/
  spansLo : List Span
  spansHi : List Span
  changes : Nat
  walk : Walker
  /-- Firing codes, two to a byte (R144): 8,192 bytes. -/
  bytes : List Byte
  carry : List Int
  hist : List Byte
  unbound : Bool
  damaged : Bool
  /-- Some block the line needs has not been decoded. -/
  undecoded : Bool
  /-- The 38 bytes each engine sends across the coupling (09 R205). -/
  coupleLo : List Byte
  coupleHi : List Byte

/-- Two codes per byte, the lower position in the low nibble (R106, R144). -/
def packCodes : List Nat → List Byte
  | a :: b :: r => BitVec.ofNat 8 (a % 16 + 16 * (b % 16)) :: packCodes r
  | [a] => [BitVec.ofNat 8 (a % 16)]
  | [] => []

/-- The instance that holds a row line's plane line, and that plane line (03 R56, R59). -/
def lineInst (ly : Layout) (seq : List (Fin 4096)) (r : Fin 16) (n : Nat) : Option InstAt × Nat :=
  let rd := ly.rows[r]
  let line := rd.k * n + rd.phase
  (instanceAt (seqPanels ly seq) 0 0 line, line)

/-- The walker's step to line `n` of row `r`, and the spans of both halves under generation `g`. -/
def lineWalk (hp : Hamper) (ly : Layout) (seq : List (Fin 4096)) (g : Gen) (r : Fin 16) (n : Nat) (walk : Walker) :
    Walked × List Span × List Span :=
  let plane := (ly.rows[r]).plane.getD 0
  let line := (lineInst ly seq r n).2
  match (lineInst ly seq r n).1 with
  | some i =>
    let walked := walk.step hp plane i line
    let spans (lo : Nat) := lineSpans hp g.bindings plane i walked.walk.table lo line
    (walked, spans 0, spans 8192)
  | none => ({ walk := walk, changes := 0 }, [], [])

/-- Expand line `n` of row `r` under generation `g` from the walker, carry and history before it. An empty carry stands for
zeros and an empty history for 0xF0 everywhere, as at line 0 (R125, R141). -/
def expandLine (hp : Hamper) (ly : Layout) (seq : List (Fin 4096)) (g : Gen) (r : Fin 16) (n : Nat)
    (walk : Walker) (carry : List Int) (hist : List Byte) : LineOut :=
  let rd := ly.rows[r]
  let plane := rd.plane.getD 0
  let codes := ly.planes[plane].codes
  let sc := ly.planes[plane].settings plane.val
  let line := (lineInst ly seq r n).2
  let walked := lineWalk hp ly seq g r n walk
  let spansLo := walked.2.1
  let spansHi := walked.2.2
  let comps : Array Comp := ((List.range 16384).map (fun x =>
    composite hp.tiles codes (if x < 8192 then spansLo else spansHi) x)).toArray
  let c (q : Int) : Nat := if 0 ≤ q ∧ q ≤ 16383 then (comps[q.toNat]?.map (·.value)).getD 0 else 0
  let x := ((List.range 16384).map (toneAt ly g r codes line c)).toArray
  let carryIn := if carry.isEmpty then zeroCarry else carry.toArray
  let scr := screenLine ly sc r n line x carryIn
  let lv := nzcLevels sc
  let entry (p : Nat) := g.entry (r.val * 16384 + p)
  let dn := ((List.range 16384).map (compensated lv.1 lv.2 entry (partnerGain ly g r) (fun q => scr.dose.getD q 0)))
  let h0 := if hist.isEmpty then List.replicate 16384 (0xF0 : Byte) else hist
  let hs := ly.hist[rd.histSet]
  let fc := (List.range 16384).zip (dn.zip h0) |>.map (fun e =>
    firingCode hs rd.maskCode (match entry e.1 with | some t => t.keep == 0 | none => false) e.2.2 e.2.1)
  let two (a : Array Int) (p q : Nat) : List Byte := sle 2 (a.getD p 0) ++ sle 2 (a.getD q 0)
  let comp33 (lo : Nat) : List Byte := (List.range 33).map (fun i => BitVec.ofNat 8 (c (lo + i)))
  { spansLo := spansLo
    spansHi := spansHi
    changes := walked.1.changes
    walk := walked.1.walk
    bytes := packCodes fc
    carry := (scr.nextLo.toList.zip scr.nextHi.toList).map (fun e => e.1 + e.2)
    hist := (h0.zip dn).map (fun e => histNext e.1 e.2)
    unbound := (spansLo ++ spansHi).any (fun s => s.provisional && !s.damaged)
    damaged := (spansLo ++ spansHi).any (·.damaged)
    undecoded := comps.any (·.undecoded)
    coupleLo := comp33 8159 ++ two scr.nextLo 8192 8193 ++ [BitVec.ofNat 8 (scr.dose.getD 8191 0)]
    coupleHi := comp33 8192 ++ two scr.nextHi 8191 8190 ++ [BitVec.ofNat 8 (scr.dose.getD 8192 0)] }

/-! ### Checkpoint parts (07 R161, 05 R122, 06 R147) -/

def carryBytes (c : List Int) : List Byte := if c.isEmpty then zeroBytes 32768 else c.flatMap (sle 2)
def histBytes (h : List Byte) : List Byte := if h.isEmpty then List.replicate 16384 0xF0 else h

/-- CRC-32C of the three parts of a checkpoint (07 R161). -/
def partCrcs (w : Walker) (c : List Int) (h : List Byte) : PartCrcs :=
  { walker := crc32c 0 w.bytes, carry := crc32c 0 (carryBytes c), hist := crc32c 0 (histBytes h) }

/-- `record_crc` over bytes 64 to 57,555: walker, carry, noise check, history (07 R161, 05 R122). -/
def recordCrc (w : Walker) (c : List Int) (noise : BitVec 32) (h : List Byte) : BitVec 32 :=
  crc32c 0 (w.bytes ++ carryBytes c ++ le 4 noise.toNat ++ histBytes h)

def Ckpt.parts (c : Ckpt) : PartCrcs := partCrcs c.walk c.carry c.hist

/-! ### Signatures (09 R204, R205) -/

def lineTag (n : Nat) : Nat := n % 65536

/-- The signature of check segment `k` of a row line (R204). -/
def signature (r : Fin 16) (n k : Nat) (bytes : List Byte) : BitVec 32 :=
  crc32c (BitVec.ofNat 32 (lineTag n * 65536 + r.val * 16 + k)) bytes

/-- The eight signatures of a half-row line of 4,096 bytes. -/
def halfSignatures (h : Fin 32) (n : Nat) (bytes : List Byte) : List (BitVec 32) :=
  (List.range 8).map (fun i =>
    signature ⟨h.val / 2, by omega⟩ n (h.val % 2 * 8 + i) ((bytes.drop (512 * i)).take 512))

/-- The coupling word of a half-row line (R205). -/
def couplingWord (h : Fin 32) (n : Nat) (sent : List Byte) : BitVec 32 :=
  crc32c (BitVec.ofNat 32 (lineTag n * 65536 + 0x100 + h.val)) sent

end Sys2Proof.Machine
end

