-- ==== Sys2Proof/Machine/Geometry.lean ====
section
/-! DEFINITION. Where lines lie on the web and in the job: web position (02 R29), start positions (02 R36), the
generation in force for a line (08 R184, R190), panel instances, and the terms of 18 R444 and R463. -/

namespace Sys2Proof.Machine

/-! ### Web position (02 R29) -/

/-- The first 4 ns tick, in ns, from which an edge counts. -/
def WebCfg.effective (c : WebCfg) (e : Edge) : Nat := cdiv (e.stamp + 24 + c.encFilter) 4 * 4

/-- The edge's velocity has been set to zero by the tick (R28). -/
def Edge.standsAt (e : Edge) (tick : Nat) : Bool := match e.stopAt with | some z => decide (z ≤ tick) | none => false

/-- P at the tick `tick`, in ns, from edge `e`. -/
def Edge.posAt (e : Edge) (tick : Nat) : Int :=
  if e.standsAt tick then e.count * 65536
  else min ((65536 * (e.count * e.vDen + e.vNum * ((tick : Int) - e.stamp))).fdiv (max 1 e.vDen)) (e.count * 65536 + 65535)

/-- Every edge accepted, newest first, in effect or not. -/
def Lsd.known (l : Lsd) : List Edge := l.incoming.reverse ++ l.edges

/-- The tick, in ns, that a time falls in. R29 takes one fixed grid of 4 ns from CK_TIM and gives it no phase: the ticks are the
multiples of 4 ns of always-on time (DESIGN CHOICE, log 55). -/
def tickOf (t : Nat) : Nat := t / 2 ^ 32 / 4 * 4

/-- P in Q16 counts at a time, at the tick it falls in: from the newest edge in effect there, whose velocity is the one that stood
then. -/
def Lsd.posAt (l : Lsd) (t : Nat) : Int :=
  match l.known.find? (fun e => l.cfg.effective e ≤ tickOf t) with
  | some e => e.posAt (tickOf t)
  | none =>
    match l.known.getLast? with
    | some e => (e.count - e.dir) * 65536
    | none => l.count * 65536

/-- The count and direction with the edges that are still to take effect (R25). -/
def Lsd.accepted (l : Lsd) : Int × Int := match l.incoming.getLast? with | some e => (e.count, e.dir) | none => (l.count, l.dir)

def State.posNow (s : State) : Int := s.lsd.posAt s.aon

/-- The tick, in ns, of the present time. -/
def State.tick (s : State) : Nat := tickOf s.aon

/-- The velocity in force, counts per ns as a ratio; 0 when STOPPED. -/
def Lsd.vel (l : Lsd) : Int × Nat := if l.stopped then (0, 1) else (l.vNum, max 1 l.vDen)

/-! ### The job -/

/-- "While a job is armed": ARMING to STOPPING (18 R444). -/
def State.armed (s : State) : Bool :=
  match s.job.state with
  | .arming | .armed | .started | .running | .stopping => true
  | _ => false

def State.started (s : State) : Bool :=
  match s.job.state with
  | .started | .running | .stopping => true
  | _ => false

def State.assigned (s : State) (r : Fin 16) : Bool := s.layout.rows[r].plane.isSome

/-- The rows of a test, in order. -/
def rowsWhere (p : Fin 16 → Bool) : List (Fin 16) := (List.finRange 16).filter p

/-- Bit r set for each row of a test. -/
def rowMask (p : Fin 16 → Bool) : Nat := maskOf ((List.finRange 16).map p)

/-- An assigned row that is neither done nor stopped. -/
def State.live (s : State) (r : Fin 16) : Bool := s.assigned r && !s.job.rows[r].done && !s.job.rows[r].stopped

/-- Panels of the defined sequence in order. -/
def State.panels (s : State) : List Panel := seqPanels s.layout s.job.seq

/-- Instances and plane lines of the whole job; none when it runs until stopped. -/
def State.totals (s : State) : Option (Nat × Nat) := seqTotals s.panels

/-- How many lines a row has: none without bound (18 R455, R463). -/
def State.rowLines (s : State) (r : Fin 16) : Option Nat :=
  s.totals.map (fun t => let d := s.layout.rows[r]; if t.2 ≤ d.phase then 0 else (t.2 - 1 - d.phase) / d.k + 1)

/-- Line `n` is one of the row's lines. -/
def State.hasLine (s : State) (r : Fin 16) (n : Nat) : Bool :=
  match s.rowLines r with
  | some m => n < m
  | none => true

/-- The plane line of a row line. -/
def State.planeLine (s : State) (r : Fin 16) (n : Nat) : Nat := s.layout.rows[r].k * n + s.layout.rows[r].phase

/-- Where a plane line takes effect in a row: ceil((L − j) / K) (08 R184). -/
def State.effLine (s : State) (r : Fin 16) (l : Nat) : Nat := cdiv (l - s.layout.rows[r].phase) s.layout.rows[r].k

/-- F, the fire line: −1 before the first line start (07 R153). -/
def State.fireLine (s : State) (r : Fin 16) : Int := (s.lsd.rows[r].next : Int) - 1

/-! ### Generations -/

/-- The generation in force for a line of a row. -/
def Txn.genAt (x : Txn) (r : Fin 16) (n : Nat) : Gen :=
  match x.older, x.eff[r] with
  | some g, some e => if n < e then g else x.newest
  | _, _ => x.newest

/-- The curve a row selects: the one committed, or its plane's number, which arming fixes (04 R102). -/
def State.curveOf (s : State) (g : Gen) (r : Fin 16) : Nat := (g.rowCurve[r]).getD ((s.layout.rows[r].plane.map (·.val)).getD 0)

/-- The record of a row's state before line `n.line`, as the primary engines write it. -/
def State.ckptRecord (s : State) (r : Fin 16) (n : PipeRun) (shadow : Option PartCrcs) : Ckpt :=
  let plane := (s.layout.rows[r].plane).getD 0
  let noise := noiseState ((s.layout.planes[plane].settings plane.val).seed) n.line r
  { line := n.line, generation := (s.txn.genAt r n.line).number, walk := n.walk, carry := n.carry, hist := n.hist, primDone := true
    shadow := shadow, recordCrc := recordCrc n.walk n.carry noise n.hist, noise := noise
    valid := false, bad := false, poisoned := false, injected := false }

/-! ### Start positions (02 R36) -/

/-- The line distance in Q16 counts. -/
def WebCfg.distance (c : WebCfg) (planeLine : Nat) : Int := ((planeLine * c.num * 65536 / c.den : Nat) : Int)

/-- S_r(N) − O, in Q16 counts. -/
def State.startRel (s : State) (r : Fin 16) (n : Nat) : Int :=
  s.lsd.rows[r].offset + (s.txn.genAt r n).trim[r] + s.lsd.cfg.distance (s.planeLine r n)

/-- A row's line length in Q16 counts. -/
def State.lineLength (s : State) (r : Fin 16) : Int := s.lsd.cfg.distance s.layout.rows[r].k

/-! ### Fates (14 R338) -/

/-- The fate of a line has been reported: its line start is past and no pulse of it is still to come or to end (18 R463). -/
def State.fateReported (s : State) (r : Fin 16) (n : Nat) : Bool :=
  decide (n < s.lsd.rows[r].next) &&
    !s.rows[r].pulses.any (fun p => p.line = n && (!p.emitted || decide (s.aon / 2 ^ 31 < p.ts + s.rows[r].widthH)))

end Sys2Proof.Machine
end

