-- ==== Sys2Proof/Machine/Fsv.lean ====
section
/-! DEFINITION. The fault supervisor: the log (24 R582, R583), the retry rule (R577, R578), pour-path faults (R579), the
decision to stop (R580), waste ranges (R584, R585) and the WASTE output (R586). -/

namespace Sys2Proof.Machine

/-! ### Blocks by their row in 01 R9, and fault classes (24 R576) -/

def srcPwr : Byte := 0
def srcClk : Byte := 1
def srcRcu : Byte := 2
def srcBoot : Byte := 3
def srcKettle : Byte := 4
def srcMem : Byte := 9
def srcMiu : Byte := 10
def srcCdx : Byte := 12
def srcCvu : Byte := 20
def srcSpc : Byte := 21
def srcTxn : Byte := 22
def srcLsd : Byte := 23
def srcFsq : Byte := 24
def srcHlk : Byte := 25
def srcChn : Byte := 26
def srcMot : Byte := 27
def srcCal : Byte := 28
def srcHac : Byte := 29
def srcFsv : Byte := 30
def srcPeer : Byte := 31

def fcExpansion : Byte := 0x01
def fcCheckpoint : Byte := 0x02
def fcRecheck : Byte := 0x03
def fcFrame : Byte := 0x04
def fcLane : Byte := 0x05
def fcStrobe : Byte := 0x06
def fcDram : Byte := 0x07
def fcSram : Byte := 0x08
def fcCodec : Byte := 0x09
def fcCvu : Byte := 0x0A
def fcEncoder : Byte := 0x0B
def fcClock : Byte := 0x0C
def fcRail : Byte := 0x0D
def fcKettle : Byte := 0x0E
def fcChain : Byte := 0x0F
def fcTrim : Byte := 0x10
def fcHmc : Byte := 0x11
def fcDrive : Byte := 0x12
def fcFence : Byte := 0x13
def fcCrossing : Byte := 0x14
def fcThermal : Byte := 0x15
def fcPourPath : Byte := 0x16

/-- The code a fault class field of an event carries: pending, transient, lasting. -/
def clsPending : Nat := 0
def clsTransient : Nat := 1
def clsLasting : Nat := 2

/-! ### The log (R582, R583) -/

def FaultOutcome.code : FaultOutcome → Byte
  | .pending => 0 | .transient => 1 | .masked => 2 | .detected => 3 | .consequence => 4 | .reported => 5

/-- A lasting outcome. -/
def FaultOutcome.lasting : FaultOutcome → Bool
  | .masked | .detected | .reported => true
  | _ => false

/-- The 64 bytes of a record. -/
def LogRec.bytes (r : LogRec) : List Byte :=
  let p := le 8 r.seq ++ le 8 r.time.toNat ++ [r.rtype, r.fclass, r.source, r.outcome, r.unit, r.row] ++ le 2 r.rows.toNat ++
    sle 8 r.first ++ sle 8 r.last ++ le 4 r.detail.toNat ++ le 4 r.count.toNat ++ le 4 r.generation.toNat ++
    [BitVec.ofNat 8 (b2n r.injected + 2 * b2n r.armed), r.peer, 0, 0] ++ le 4 r.ref.toNat
  p ++ le 4 (crc32c 0 p).toNat

def logCapacity : Nat := 262144

/-- The Thermos core copies records of outcome MASKED or DETECTED and of type STOP (R583). -/
def LogRec.copied (r : LogRec) : Bool := (r.rtype == 0 && (r.outcome == 2 || r.outcome == 3)) || r.rtype == 2

/-- Write a record under the next sequence number; DRQ17 pulses (R582). -/
def State.logWrite (s : State) (r0 : LogRec) : State :=
  let r := { r0 with seq := s.fsv.nextSeq, armed := s.armed }
  let full := logCapacity ≤ s.fsv.log.length
  let s1 := { s with fsv := { s.fsv with
    log := (if full then s.fsv.log.drop 1 else s.fsv.log) ++ [r]
    lost := if full then satAdd s.fsv.lost 1 else s.fsv.lost
    nextSeq := s.fsv.nextSeq + 1
    thermos := if r.copied then (r :: s.fsv.thermos).take 32 else s.fsv.thermos } }
  (if r.copied then s1.setAlert 10 else s1).drq 17

def LogRec.zero : LogRec :=
  { seq := 0, time := 0, rtype := 0, fclass := 0, source := 30, outcome := 0, unit := 0xFF, row := 0xFF, rows := 0, first := 0,
    last := 0, detail := 0, count := 0, generation := 0, injected := false, armed := false, peer := 0, ref := 0 }

/-- The generation in force for a record's row at its first line; 0 when there is none. -/
def State.generationFor (s : State) (row : Byte) (first : Int) : BitVec 32 :=
  if h : row.toNat < 16 then (s.txn.genAt ⟨row.toNat, h⟩ first.toNat).number else 0

/-- Write the FAULT record of a classified detection; a lasting one is announced (R372, R473, R587);
a lasting encoder fault carries the stop flag. -/
def State.logFault (s : State) (d : Detect) (time : Nat) (count : BitVec 32) (ref : Nat) : State :=
  let seq := s.fsv.nextSeq
  let s1 := s.logWrite { LogRec.zero with
    time := BitVec.ofNat 64 (time / 2 ^ 32), fclass := d.fclass, source := d.source, outcome := d.outcome.code,
    unit := d.unit, row := d.row, rows := d.rows, first := d.first, last := d.last, detail := d.detail, count := count,
    generation := s.generationFor d.row d.first, injected := d.injected, peer := d.peer, ref := BitVec.ofNat 32 ref }
  let s2 := s1.post 0x0320 clsFault [(4, seq), (1, d.fclass.toNat), (1, d.source.toNat), (1, d.outcome.code.toNat),
    (1, d.unit.toNat), (1, d.row.toNat), (8, wrapInt 64 d.first), (8, wrapInt 64 d.last)]
  if d.outcome.lasting && d.source != srcPeer then
    ((s2.setGlobalFault 0).setAlert 3).chainBroadcast 0x30
      ([s.ownAddress, d.fclass, BitVec.ofNat 8 (b2n (d.fclass == fcEncoder))] ++ le 8 s.nowNs)
  else s2

/-! ### The decision to stop (R580) -/

/-- Withhold the lines of a mask of rows from a line on, until each row's stop line. -/
def State.withholdRows (s : State) (rows : BitVec 16) (first : Nat) : State :=
  let jr := Vector.ofFn (fun r : Fin 16 =>
    let j := s.job.rows[r]
    if rows.getLsbD r.val then { j with withholdFrom := some (min first (j.withholdFrom.getD first)) } else j)
  { s with job := { s.job with rows := jr } }

/-- FSV decides on a fault stop of an armed job: at the first lasting outcome, and not again. -/
def State.wantStop (s : State) (reason fclass : Byte) (seq : Nat) (rows : BitVec 16) (first : Nat) : State :=
  if s.armed then
    let s1 := s.withholdRows rows first
    let w : StopWanted := { reason := reason, fclass := fclass, seq := seq, rows := rows, first := first }
    { s1 with fsv := { s1.fsv with stopWanted := some (s.fsv.stopWanted.getD w) } }
  else s

/-! ### The retry rule (R577, R578) -/

/-- Two detections concern the same unit; one that cannot name its unit yet is of the row's. -/
def Detect.sameUnit (a b : Detect) : Bool := a.fclass == b.fclass && (a.unit == b.unit || a.unit == 0xFF || b.unit == 0xFF) && a.row == b.row

/-- Log consequences of a record. -/
def State.logConsequences (s : State) (ref : Nat) : List (Detect × Nat) → State
  | [] => s
  | c :: r => (s.logFault { c.1 with outcome := .consequence } c.2 1 ref).logConsequences ref r

/-- One detection or classification reaches FSV. The lines of a pour path are withheld from the third one counted (R579), those
of every other fault from the first it affects (R580). -/
def State.fsvDetect (s : State) (d : Detect) (time : Nat) : State :=
  match d.outcome with
  | .pending =>
    let joined := s.fsv.pendingFaults.any (fun p => p.d.sameUnit d)
    let faults := if joined then s.fsv.pendingFaults.map (fun p =>
        if p.d.sameUnit d then { p with count := satAdd p.count 1 } else p)
      else s.fsv.pendingFaults ++ [{ d := d, time := time, count := 1, consequences := [] }]
    { s with fsv := { s.fsv with pendingFaults := faults } }
  | .consequence =>
    if s.fsv.pendingFaults.any (fun p => p.d.fclass == d.cause) then
      let faults := s.fsv.pendingFaults.map (fun p =>
        if p.d.fclass == d.cause then { p with consequences := p.consequences ++ [(d, time)] } else p)
      { s with fsv := { s.fsv with pendingFaults := faults } }
    else
      let ref := match s.fsv.log.reverse.find? (fun r => r.rtype == 0 && r.fclass == d.cause) with
        | some r => r.seq
        | none => 0
      s.logFault d time 1 ref
  | _ =>
    let seq := s.fsv.nextSeq
    let s1 := match s.fsv.pendingFaults.find? (fun p => p.d.sameUnit d) with
      | some p =>
        let s0 := { s with fsv := { s.fsv with pendingFaults := s.fsv.pendingFaults.filter (fun q => !q.d.sameUnit d) } }
        (s0.logFault { d with injected := d.injected || p.d.injected } p.time p.count 0).logConsequences seq p.consequences
      | none => s.logFault d time 1 0
    if d.stops then s1.wantStop (if d.source == srcPeer then 4 else 3) d.fclass seq d.rows
      (if d.fclass == fcPourPath then d.last else d.first).toNat else s1

/-! ### Waste ranges (R585) -/

/-- What is left of lines a..b after the spans of a list. -/
def uncovered : List (Nat × Nat) → List (Nat × Nat) → List (Nat × Nat)
  | spans, [] => spans
  | spans, c :: r => uncovered (spans.flatMap (fun p =>
      if p.2 < c.1 ∨ c.2 < p.1 then [p]
      else (if p.1 < c.1 then [(p.1, c.1 - 1)] else []) ++ (if c.2 < p.2 then [(c.2 + 1, p.2)] else []))) r

/-- Two ranges overlap or lie within a length of each other. -/
def WasteRange.near (a b : WasteRange) (len : Int) : Bool := decide (a.first ≤ b.last + len ∧ b.first ≤ a.last + len)

/-- One range of two, under the cause of the first. -/
def WasteRange.join (a b : WasteRange) : WasteRange :=
  { cause := a.cause, first := min a.first b.first, last := max a.last b.last, rows := a.rows ||| b.rows,
    lines := satAdd a.lines b.lines.toNat, spans := a.spans ++ b.spans }

/-- The gap between two ranges. -/
def WasteRange.gap (a b : WasteRange) : Nat := (max (a.first - b.last) (b.first - a.last)).toNat

/-- The two ranges with the smallest gap. -/
def closestPair : List WasteRange → Option (WasteRange × WasteRange)
  | [] => none
  | a :: r =>
    let here := r.foldl (fun best b => match best with
      | none => some b
      | some c => if a.gap b < a.gap c then some b else some c) none
    match here, closestPair r with
    | none, o => o
    | some b, none => some (a, b)
    | some b, some (c, d) => if c.gap d < a.gap b then some (c, d) else some (a, b)

/-- Hold at most 256 open ranges. -/
def capRanges (l : List WasteRange) : List WasteRange :=
  if l.length ≤ 256 then l
  else match closestPair l with
    | some (a, b) => (l.filter (fun x => x != b)).map (fun x => if x = a then a.join b else x)
    | none => l

/-- Merge a range into the open ones; it answers the list and the range as it stands. -/
def addRange (l : List WasteRange) (w : WasteRange) (len : Int) : List WasteRange × WasteRange :=
  match l.filter (fun x => x.near w len) with
  | [] =>
    let l' := capRanges (l ++ [w])
    (l', (l'.find? (fun x => decide (x.first ≤ w.first ∧ w.last ≤ x.last))).getD w)
  | c :: touch =>
    let m := touch.foldl WasteRange.join (c.join w)
    ((l.filter (fun x => !touch.contains x)).map (fun x => if x = c then m else x), m)

/-- P − O as FSV follows it. -/
def State.jobPos (s : State) : Int := s.posNow - s.fsv.origin

/-- WASTE rises: GLOBAL_FAULT and ALERT_STATUS say so (19 R473, 25 R592). -/
def State.wasteOn (s : State) : State :=
  if s.fsv.waste then s else (({ s with fsv := { s.fsv with waste := true } }).setGlobalFault 1).setAlert 5

/-- WASTE for cause POWER, until the next accepted JOB_ARM (R586). -/
def State.wastePower (s : State) : State := ({ s with fsv := { s.fsv with power := true } }).wasteOn

/-- Follow P − O across range boundaries (R586). -/
def State.wasteTrack (s : State) : State :=
  let inside := s.fsv.ranges.any (fun w => decide (w.first ≤ s.jobPos ∧ s.jobPos ≤ w.last))
  let s1 := { s with fsv := { s.fsv with
    inside := inside
    leftAt := if inside then none else if s.fsv.inside then some s.aon else s.fsv.leftAt } }
  if inside then s1.wasteOn else s1

/-- A range is taken in: announced, and WASTE follows at once where its first position has been passed. -/
def State.takeRange (s : State) (w : WasteRange) (len : Int) : State :=
  let r := addRange s.fsv.ranges w len
  let s1 := ({ s with fsv := { s.fsv with ranges := r.1 } }).post 0x0321 clsFault
    [(1, r.2.cause.toNat), (2, r.2.rows.toNat), (8, wrapInt 64 r.2.first), (8, wrapInt 64 r.2.last), (4, r.2.lines.toNat)]
  let s2 := s1.wasteTrack
  if w.last < s.jobPos then (({ s2 with fsv := { s2.fsv with leftAt := some s.aon } }).wasteOn) else s2

/-- Ranges merged for the next broadcast (15 R371). -/
def State.wasteOut (s : State) (cause : Byte) (first last : Int) : State :=
  let w := match s.chain.wasteOut with
    | none => (cause, first, last)
    | some (c, a, b) => (c, min a first, max b last)
  { s with chain := { s.chain with wasteOut := some w } }

/-- Lines first..last of a row are waste-marked (R584, R585). A line marked before keeps its first cause. -/
def State.fsvMark (s : State) (row : Fin 16) (first last : Nat) (cause : Byte) : State :=
  if s.lsd.origin.isNone then s
  else
    let old := s.fsv.ranges.flatMap (fun w => (w.spans.filter (fun p => p.1 = row)).map (·.2))
    (uncovered [(first, last)] old).foldl (fun s p =>
      let a := s.startRel row p.1
      let b := s.startRel row (p.2 + 1)
      (s.takeRange { cause := cause, first := a, last := b, rows := 1#16 <<< row.val,
                     lines := BitVec.ofNat 32 (p.2 - p.1 + 1), spans := [(row, p.1, p.2)] } (s.lineLength row)).wasteOut cause a b) s

/-- A WASTE record of a range that closes (R583). -/
def State.logRange (s : State) (w : WasteRange) : State :=
  s.logWrite { LogRec.zero with time := s.stamp, rtype := 1, fclass := w.cause, rows := w.rows, first := w.first,
                                last := w.last, count := w.lines }

/-- Close every open range whose last position P − O has passed. -/
def State.closePassed (s : State) : State :=
  let gone := s.fsv.ranges.filter (fun w => decide (w.last < s.jobPos))
  let s1 := s.wasteTrack
  gone.foldl State.logRange { s1 with fsv := { s1.fsv with
    ranges := s1.fsv.ranges.filter (fun w => !decide (w.last < s.jobPos)) } }

/-- JOB_ARM closes every range still open and ends WASTE for cause POWER (R585, R586). -/
def State.closeAll (s : State) : State :=
  let s1 := s.fsv.ranges.foldl State.logRange { s with fsv := { s.fsv with ranges := [], power := false } }
  if s1.fsv.inside || (s1.fsv.waste && s1.fsv.leftAt.isNone) then
    { s1 with fsv := { s1.fsv with
        inside := false
        leftAt := if s1.fsv.inside then some s.aon else none
        waste := s1.fsv.inside } }
  else s1

/-! ### Repeated withheld lines of one half-row (R579) -/

/-- Three such lines within 64 consecutive lines make a lasting fault of the half-row's pour path. -/
def State.pourPath (s : State) (half : Fin 32) (line time : Nat) : State :=
  let row : Fin 16 := ⟨half.val / 2, by omega⟩
  let seen := line :: (s.fsv.pourFails[half].filter (fun x => x ≠ line ∧ line < x + 64 ∧ x < line + 64))
  if 3 ≤ seen.length then
    let first := seen.foldl min line
    let last := seen.foldl max line
    ({ s with fsv := { s.fsv with pourFails := s.fsv.pourFails.set half [] } }).fsvDetect
      { fclass := fcPourPath, source := srcFsv, unit := BitVec.ofNat 8 half.val, row := BitVec.ofNat 8 row.val,
        rows := 1#16 <<< row.val, first := first, last := last, outcome := .detected, stops := true } time
  else { s with fsv := { s.fsv with pourFails := s.fsv.pourFails.set half seen } }

/-- One item of FSV's inbox. -/
def State.fsvItem (s : State) : FsvItem → State
  | .detect d time => s.fsvDetect d time
  | .mark row first last cause _ => s.fsvMark row first last cause
  | .pourFailed half line time => s.pourPath half line time

end Sys2Proof.Machine
end

