-- ==== Sys2Proof/Machine/ResetOps.lean ====
section
/-! DEFINITION. What resets and power losses do to the state: the power domains and their contents (01 R10, 26 R604,
R605), the module reset (21 R534 to R536), the restart of the control cluster (17 R429) and the reset of the host domain
(17 R428, 19 R470). -/

namespace Sys2Proof.Machine

/-! ### Power domains (01 R10) -/

/-- The domain a domain depends on. -/
def parentOf : Fin 12 → Fin 12
  | 0 => 0 | 1 => 0 | 2 => 1 | 3 => 1 | 4 => 3 | 5 => 4 | 6 => 4 | 7 => 3 | 8 => 1 | 9 => 8 | 10 => 8 | 11 => 1

/-- Domain `a` is `d` or depends on it, through at most four parents. -/
def dependsOn (a d : Fin 12) : Bool :=
  a == d || (a != 0 && (parentOf a == d || (parentOf a != 0 && (parentOf (parentOf a) == d ||
    (parentOf (parentOf a) != 0 && parentOf (parentOf (parentOf a)) == d)))))

def State.poweredOn (s : State) (d : Fin 12) : Bool := s.pwr.powered.getLsbD d.val

/-- The clock domain of a power domain other than PD0 (21 R523). -/
def powerClock (d : Fin 12) : Fin 13 := ⟨d.val + 1, by omega⟩

/-- A domain works: it is powered, out of reset and its clock is not stopped (21 R526, R529, R536, R537). -/
def State.domainUp (s : State) (d : Fin 12) : Bool :=
  s.poweredOn d && !s.clk.inReset.getLsbD d.val && !(s.clk.domains[powerClock d]).gated

/-! ### The host domain (17 R428, 19 R470) -/

/-- A host mailbox at a reset of PD2: requests not started are discarded, replies of started ones are muted, the indices
return to 0. -/
def Box.hostReset_ (b : Box) : Box :=
  { b with reqTail := 0, reqHead := 0, rplTail := 0, rplHead := 0, replyIrq := true, hostReset := false, overrun := false,
           held := [], outstanding := b.outstanding.map (fun x => { x with muted := true }) }

/-- A queue at a reset of PD2: its registers return to reset; events held for an EQ stay to be posted. -/
def Que.hostReset (q : Que) : Que := { Que.init with held := q.held, lostSince := q.lostSince }

/-- A channel that the host holds ends aborted; its registers return to reset. RUN counts on. -/
def Chan.hostReset (c : Chan) : Chan := { Chan.init with run := c.run }

/-- Reset of PD2: configuration space and BAR0 registers, not the window counters. -/
def State.hostDomainReset (s : State) : State :=
  let boxes := Vector.ofFn (fun m : Fin 8 => if m.val < 4 then (s.box m).hostReset_ else s.box m)
  let chans := Vector.ofFn (fun c : Fin 48 =>
    if h : c.val < 32 then (if s.hif.bdAssign.getLsbD c.val then (s.dma.chans[c]).hostReset else s.dma.chans[c])
    else s.dma.chans[c])
  { s with
    mbx := { s.mbx with boxes := boxes, ringMem := [] }
    dma := { s.dma with chans := chans, queues := s.dma.queues.map Que.hostReset
                        reads := s.dma.reads.filter (fun r => (chans[r.1]).state == .active) }
    hif := { Hif.init with
      gen := s.hif.gen, width := s.hif.width, rdFaults := s.hif.rdFaults, wrFaults := s.hif.wrFaults,
      dmaFaults := s.hif.dmaFaults, lastAddr := s.hif.lastAddr, lastKind := s.hif.lastKind, windows := s.hif.windows,
      locked := s.hif.locked } }

/-! ### The contents of a domain -/

/-- Lanes `lo` to `hi` are OFF and their frame engines empty. -/
def State.lanesOff (s : State) (lo hi : Nat) : State :=
  { s with hlk := { s.hlk with
      lanes := Vector.ofFn (fun l : Fin 34 => if lo ≤ l.val ∧ l.val ≤ hi then Lane.init else s.hlk.lanes[l])
      tx := Vector.ofFn (fun l : Fin 32 => if lo ≤ l.val ∧ l.val ≤ hi then TxLane.init else s.hlk.tx[l]) } }

/-- A connector without its lanes: identification and messages are gone, its configuration stays. -/
def Connector.idle (c : Connector) : Connector :=
  { c with entering := false, wakeAfter := false, sleepReqs := [], toldReady := false, hmcQueue := [], hmcWait := none, rx := [], ident := none, identified := false,
           hmcLasting := false, faultBits := 0 }

/-- What a row keeps when its run-ahead and buffers are lost. -/
def SpcRow.emptied (r : SpcRow) : SpcRow :=
  { SpcRow.init with window := r.window, squashes := r.squashes, lateLines := r.lateLines, faultAt := r.faultAt,
                     invert := r.invert, widthH := r.widthH, strobeOff := r.strobeOff, dryAt := r.dryAt }

/-- A unit's context with no line pending: the counters and the latent phase stay (09 R212, R226). -/
def UnitCtx.idle (c : UnitCtx) : UnitCtx := { c with state := .idle, kind := none, retries := 0 }

/-- Memory without power: what is stored and what runs is lost; settings, keys and counters stay until module reset (20 R498, R508,
R516, R517). -/
def Miu.emptied (m : Miu) : Miu :=
  { m with fsp := Miu.init.fsp, lastHost := none, selfRefresh := false, deficit := Miu.init.deficit, poison := [], corrupt := [],
           panicSince := none, scrubPos := 0 }

/-- Reset the contents of one power domain other than PD0 and PD1. What a rule keeps until module reset (02 R38, 04 R102,
08 R631, 09 R226 and the settings of the rows) stays. -/
def State.resetDomain (s : State) (d : Fin 12) : State :=
  match d with
  | 2 => s.hostDomainReset
  | 3 => { s with mem := [], miu := s.miu.emptied }
  | 4 => { s with dma := { s.dma with chans := s.dma.chans.map (fun c => { Chan.init with run := c.run }), pulses := [], reads := [] },
                  hamper := { s.hamper with stagings := [], listStagings := [] },
                  codec := { s.codec with checks := [], works := [], comps := Codec.init.comps, afresh := [] } }
  | 5 => { s with rows := s.rows.map (fun r => { r with prim := PipeRun.init }), codec := { s.codec with decP := Decoders.init } }
  | 6 => { s with rows := s.rows.map (fun r => { r with shad := PipeRun.init }), codec := { s.codec with decS := Decoders.init } }
  | 7 => { s with rows := s.rows.map SpcRow.emptied
                  txn := { Txn.init with newest := s.txn.newest, outcomes := s.txn.outcomes }
                  chk := { s.chk with cvus := Chk.init.cvus, ctxs := s.chk.ctxs.map UnitCtx.idle, opinions := [], tookOver := [],
                                      injections := [] } }
  | 8 => { s with lsd := { Lsd.init with configured := s.lsd.configured, cfg := s.lsd.cfg, a := s.lsd.a, b := s.lsd.b,
                                         markQualified := s.lsd.markQualified, lineBad := s.lsd.lineBad, hold := s.lsd.lineBad,
                                         rows := s.lsd.rows.map (fun r => { LsdRow.init with
                                           offset := r.offset, flight := r.flight, minFire := r.minFire, headFire := r.headFire }) },
                  rows := s.rows.map (fun r => { r with buffer := [], pulses := [], strobePending := none, lastFire := none }) }
  | 9 => let s1 := s.lanesOff 0 15
    { s1 with hlk := { s1.hlk with conns := (upd s1.hlk.conns 0 Connector.idle |> fun v => upd v 1 Connector.idle) } }
  | 10 => let s1 := s.lanesOff 16 31
    { s1 with hlk := { s1.hlk with conns := (upd s1.hlk.conns 2 Connector.idle |> fun v => upd v 3 Connector.idle) } }
  | 11 =>
    let s1 := s.lanesOff 32 33
    { s1 with chain := { Chain.init with strap := s.chain.strap, peerStop := s.chain.peerStop, sleepMs := s.chain.sleepMs },
              mot := { s.mot with axes := s.mot.axes.map (fun a => { a with
                state := .disabled, homed := false, vel := 0, acc := 0, kind := none, origin := none, gear := none,
                homing := none, enable := false, dstatus := 0, linkPending := none, goodFrames := 0, linkLost := false, judged := 0 }) } }
  | _ => s

/-- Power a domain down with its dependants, in reverse order (R605): reset asserted, contents lost. PD1 takes the whole
of PD1 to PD11 with it; `State.afterReset` gives what is left then. -/
def State.downOne (s : State) (d : Fin 12) : State :=
  if s.poweredOn d then
    let s1 := s.resetDomain d
    { s1 with pwr := { s1.pwr with powered := s1.pwr.powered &&& ~~~(1#12 <<< d.val) },
              clk := { s1.clk with inReset := s1.clk.inReset ||| (1#12 <<< d.val) } }
  else s

def State.powerDown (s : State) (d : Fin 12) : State :=
  ([11, 10, 9, 8, 7, 6, 5, 4, 3, 2, 1] : List (Fin 12)).foldl (fun s e => if dependsOn e d then s.downOne e else s) s

/-! ### Module reset (21 R534 to R536) -/

/-- A clock domain held in reset: on the clock boot starts from, nothing switching. -/
def ClkDomain.held (d : Fin 13) (c : ClkDomain) : ClkDomain := if d.val < 2 then { c with forced := false, switches := 0 } else ClkDomain.init d

/-- Clocks at a module reset: PLLs reset; FIO, XA and the always-on sources run on. -/
def Clk.held (c : Clk) (cause : Byte) (now : Nat) : Clk :=
  { c with
    plls := Vector.replicate 8 .off, pllRetried := Vector.replicate 8 false
    domains := Vector.ofFn (fun d : Fin 13 => ClkDomain.held d c.domains[d])
    crossings := Vector.replicate 13 { peerInReset := false, drops := 0, overflowed := false }
    pulseOverflows := 0, transients := 0, lasting := 0, lastReset := cause, inReset := 0xFFE, wanted := none
    holdFrom := some now, armBlocked := false }

/-- The management port at a module reset: both tunnels are emptied (25 R594). -/
def Mgt.held (m : Mgt) : Mgt := { m with tunnels := Vector.replicate 2 Tunnel.init }

/-- Power supervision at a module reset: settings and counters since module reset return; domains stay powered. -/
def Pwr.held (p : Pwr) : Pwr :=
  { Pwr.init with powered := p.powered, railSince := p.railSince, repowered := p.repowered, repowerAt := p.repowerAt,
                  vinMv := p.vinMv, vinLow := p.vinLow, vinSince := p.vinSince, temps := p.temps,
                  excluded := p.excluded, levels := p.levels, criticalHold := p.criticalHold, lateEvents := p.lateEvents }

/-- A head at a module reset: its pending counts are lost, and the loss is reported later (14 R347). -/
def Head.held (h : Head) : Head :=
  { Head.init with lostCounts := if h.pendLines == 0 && h.pendDrops == 0 then h.lostCounts else some (h.pendLines, h.pendDrops) }

/-- Everything in PD1 to PD11 returns to its reset value; what PD0, the flash and the fuses hold stays. -/
def State.afterReset (s : State) : State :=
  { State.reset with
    pending := s.pending, aon := s.aon, free := s.free, wires := s.wires, mem := s.mem
    hif := { Hif.init with gen := s.hif.gen, width := s.hif.width }
    lsd := { Lsd.init with markQualified := s.lsd.markQualified, a := s.lsd.a, b := s.lsd.b }
    job := { Job.init with printEnable := s.job.printEnable, fireInhibit := s.job.fireInhibit }
    fsv := { Fsv.init with waste := s.fsv.power, power := s.fsv.power, thermos := s.fsv.thermos }
    chain := { Chain.init with strap := s.chain.strap }
    hac := { Hac.init with heads := s.hac.heads.map Head.held }
    boot := { Boot.init with stage := s.boot.stage, flash := s.boot.flash }
    clk := s.clk, mgt := s.mgt.held, pwr := s.pwr.held }

/-- RESET_NOTICE leaves on both hops before the lanes fall idle (R536, 15 R373). -/
def State.resetNotice (s : State) (cause : Byte) : State :=
  let m : ChainMsg := { mtype := 0x32, src := s.ownAddress, dst := 0xFF, body := [cause] }
  (s.chainTo .out m).chainTo .inn m

/-- The module reset up to its hold: cause latched, WASTE for an armed job, RESET_NOTICE, then reset asserted in PD1 to
PD11. -/
def State.moduleReset (s : State) (cause : Byte) : State :=
  let s1 := if s.armed then s.wastePower else s
  let s2 := s1.resetNotice cause
  let s3 := s2.afterReset
  let s4 := { s3 with
    clk := s3.clk.held cause s.aon
    boot := { s3.boot with flash := { s3.boot.flash with resets := satAdd s3.boot.flash.resets 1 } } }
  s4.setAlert 9

/-! ### Kettle restart (17 R429) -/

/-- A mailbox over a Kettle restart: every started request without a final reply gets INTERNAL. One of a peer that has had its
PEER_REPLY has nobody waiting. -/
def State.internalReplies (s : State) (m : Fin 8) : State :=
  (s.box m).outstanding.foldl (fun s x =>
    let msg := replyMsg x.opcode x.tag .internal 0xFFFFFFFF []
    let s1 := s.updBox m (fun b => b.lastReply x msg)
    if x.muted || (decide (6 ≤ m.val) && !x.owed) then s1 else s1.deliver m msg) s

/-- The Kettle restarts: started requests are answered, and no mailbox is served until it is back. -/
def State.kettleRestart (s : State) : State :=
  let s1 := (List.finRange 8).foldl State.internalReplies s
  let s2 : State := { s1 with
    mbx := { s1.mbx with results := [], boxes := if s1.boot.fwReady then s1.mbx.boxes.map (fun b => { b with ready := false }) else s1.mbx.boxes }
    boot := { s1.boot with update := none, kettleAt := some s1.aon, kettleDown := s1.boot.fwReady } }
  (s2.setGlobalFault 3).setAlert 7

/-- The Kettle serves its mailboxes again after a restart. -/
def State.kettleBack (s : State) : State :=
  if s.boot.kettleDown then
    { s with mbx := { s.mbx with boxes := s.mbx.boxes.map (fun b => { b with ready := true }) }, boot := { s.boot with kettleDown := false } }
  else s

end Sys2Proof.Machine
end

