-- ==== Sys2Proof/Machine/Store.lean ====
section
/-! DEFINITION. The page store's shared operations: pages (11 R259), the names held on tiles and lists (R262, R265), and
what happens when the last name goes (R263). -/

namespace Sys2Proof.Machine

def storeBase : Nat := 0x00C4C00000
def storePages : Nat := 3357504

/-- The page that holds a device address, when it lies in the store zone. -/
def pageOf (addr : Nat) : Option Nat :=
  if storeBase ≤ addr ∧ addr < storeBase + storePages * 65536 then some ((addr - storeBase) / 65536) else none

def extentPages (l : List Extent) : Nat := l.foldl (fun n e => n + e.len) 0

/-- Page `p` lies in an extent. -/
def inExtents (l : List Extent) (p : Nat) : Bool := l.any (fun e => e.start ≤ p && p < e.start + e.len)

/-- The pages that runs of 4 KiB units touch. -/
def unitPages (l : List Extent) : List Extent := l.map (fun e => { start := e.start / 16, len := (e.start + e.len + 15) / 16 - e.start / 16 })

def PList.pages (l : PList) : List Extent := unitPages l.units

/-- Every extent in use: tiles, the pages that hold lists, and what stagings have reserved. -/
def Hamper.used (h : Hamper) : List Extent :=
  h.tiles.flatMap (·.extents) ++ h.lists.flatMap PList.pages ++ h.stagings.flatMap (·.extents)

/-- Bindings live in either generation (03 R78). -/
def Txn.liveBindings (x : Txn) : List Binding :=
  match x.older with
  | some g => x.newest.bindings ++ g.bindings.filter (fun b => !x.newest.bindings.contains b)
  | none => x.newest.bindings

/-- Binding members of a sealed or prepared group. -/
def Txn.stagedBindings (x : Txn) : List Binding :=
  (x.groups.filter (fun g => g.state == .sealed || g.state == .prepared)).flatMap (fun g =>
    g.members.filterMap (fun m => match m.1 with | .binding b => some b | _ => none))

/-- A list names a tile in at least one placement. -/
def PList.placesTile (l : PList) (id : Nat) : Bool := !l.isVar && l.places.any (fun p => p.tile = id)

/-- Names held on a tile (R262). -/
def State.tileRefs (s : State) (id : Nat) : Nat :=
  (s.hamper.lists.filter (fun l => l.placesTile id)).length +
  (s.hamper.lists.flatMap (fun l => l.slots.filter (fun e => e.policy == .dflt && e.tile = id))).length +
  (s.txn.stagedBindings.filter (fun b => b.tile = id)).length +
  (s.txn.liveBindings.filter (fun b => b.tile = id)).length

/-- A panel, or a staged or live binding, names a list (R265). -/
def State.listNamed (s : State) (handle : Nat) : Bool :=
  s.layout.panels.any (fun p => p.lists.any (fun e => e.2 = handle)) ||
  s.txn.stagedBindings.any (fun b => b.list = handle) || s.txn.liveBindings.any (fun b => b.list = handle)

/-- Pages that come free and hold a stuck bit are retired (20 R508). -/
def State.retirePages (s : State) (ext : List Extent) : State :=
  let bad := (s.miu.stuck.filterMap (fun e => pageOf e.1)).filter (fun p =>
    inExtents ext p && !inExtents s.hamper.used p && !s.miu.retired.contains p)
  { s with miu := { s.miu with retired := s.miu.retired ++ bad.dedup } }

/-- Free a tile's entry and pages. -/
def State.freeTile (s : State) (id : Nat) : State :=
  let gone := s.hamper.tiles.filter (fun t => t.id = id)
  ({ s with hamper := { s.hamper with tiles := s.hamper.tiles.filter (fun t => t.id ≠ id) } }).retirePages
    (gone.flatMap Tile.extents)

/-- Free the tiles with `auto_free` whose names fell to zero between two states (R263); not one
whose replacement is being staged (R268). -/
def State.autoFree (before s : State) : State :=
  (before.hamper.tiles.filter (fun t => t.autoFree && t.ready && !before.hamper.stagings.any (fun g => g.tile = t.id))).foldl (fun s t =>
    if 0 < before.tileRefs t.id ∧ s.tileRefs t.id = 0 then
      let s1 := s.freeTile t.id
      { s1 with hamper := { s1.hamper with freed := s1.hamper.freed + 1 } }
    else s) s

/-- Remove a list and its names. -/
def State.freeList (s : State) (handle : Nat) : State :=
  let gone := s.hamper.lists.filter (fun l => l.handle = handle)
  let s1 := ({ s with hamper := { s.hamper with lists := s.hamper.lists.filter (fun l => l.handle ≠ handle) } }).retirePages
    (gone.flatMap PList.pages)
  s.autoFree s1

/-- Retire every live binding (18 R452). -/
def State.retireBindings (s : State) : State :=
  let s1 := { s with txn := { s.txn with
    newest := { s.txn.newest with bindings := [] }
    older := s.txn.older.map (fun g => { g with bindings := [] }) } }
  s.autoFree s1

/-- Insert into a rising list, once. -/
def insertNat (n : Nat) : List Nat → List Nat
  | [] => [n]
  | m :: r => if n < m then n :: m :: r else if n = m then m :: r else m :: insertNat n r

/-- The numbers of a list, rising and once each. -/
def sortNats (l : List Nat) : List Nat := l.foldr insertNat []

/-- What follows a used run: candidates for the start of a free one. -/
def runStarts (total : Nat) (used : List Extent) : List Nat := (0 :: used.map (fun e => e.start + e.len)).filter (fun p => p < total)

/-- The length of the free run at a page or unit: to the next used one. -/
def runLength (total : Nat) (used : List Extent) (p : Nat) : Nat :=
  if inExtents used p then 0 else ((used.map (·.start)).filter (fun q => p < q)).foldl min total - p

/-- Free runs by address: start and length. -/
def freeRuns (total : Nat) (used : List Extent) : List (Nat × Nat) :=
  ((sortNats (runStarts total used)).map (fun p => (p, runLength total used p))).filter (fun r => r.2 ≠ 0)

/-- Pages in use or retired, and the same in units of 4 KiB, where a page that holds lists counts by their units. -/
def State.takenPages (s : State) : List Extent := s.hamper.used ++ s.miu.retired.map (fun p => Extent.mk p 1)
def State.takenUnits (s : State) : List Extent :=
  (s.hamper.tiles.flatMap (·.extents) ++ s.hamper.stagings.flatMap (·.extents) ++ s.miu.retired.map (fun p => Extent.mk p 1)).map
    (fun (e : Extent) => Extent.mk (16 * e.start) (16 * e.len)) ++ s.hamper.lists.flatMap (·.units)

/-- Pages free for allocation. -/
def State.pagesFree (s : State) : Nat := (freeRuns storePages s.takenPages).foldl (fun n r => n + r.2) 0

/-- The most bytes that a run loses where the next piece does not fit: a block of 65,536 bytes with its header and END. -/
def pieceSlack : Nat := 65568

/-- Runs in turn for `need` bytes of blocks, lowest address first; each but the last loses what a piece that no longer fits leaves. -/
def takeRuns : List (Nat × Nat) → Nat → Option (List Extent)
  | [], _ => none
  | (p, len) :: r, need =>
    if need ≤ len * 65536 then some [{ start := p, len := cdiv need 65536 }]
    else if len * 65536 ≤ pieceSlack then takeRuns r need
    else (takeRuns r (need - (len * 65536 - pieceSlack))).map ({ start := p, len := len } :: ·)

/-- Reserve `need` bytes for a tile of `n` blocks (R259, R268): the lowest run that holds them all, else the lowest runs in turn from
the first that holds the index with the first block, in at most 64 extents. -/
def State.allocate (s : State) (need n : Nat) : Option (List Extent) :=
  let runs := freeRuns storePages s.takenPages
  match runs.find? (fun r => need ≤ r.2 * 65536) with
  | some r => some [{ start := r.1, len := cdiv need 65536 }]
  | none => (takeRuns (runs.dropWhile (fun r => r.2 * 65536 < 16 * n + 16 + pieceSlack)) need).filter (fun l => l.length ≤ 64)

/-- Units in turn, lowest address first. -/
def takeUnits : List (Nat × Nat) → Nat → List Extent
  | _, 0 => []
  | [], _ + 1 => []
  | (p, len) :: r, n + 1 => { start := p, len := min len (n + 1) } :: takeUnits r (n + 1 - min len (n + 1))

/-- Allocate units of 4 KiB for a list of `bytes` (R264): the lowest run that holds them all, else the lowest in turn. -/
def State.allocateUnits (s : State) (bytes : Nat) : Option (List Extent) :=
  let n := cdiv bytes 4096
  let runs := freeRuns (16 * storePages) s.takenUnits
  match runs.find? (fun r => n ≤ r.2) with
  | some r => some [{ start := r.1, len := n }]
  | none => let ext := takeUnits runs n; if extentPages ext = n then some ext else none

/-! ### The place of a stream (R259 to R261) -/

/-- The pieces that no extent end may cut: index and stream header with the first block, END with the last. DESIGN CHOICE (log 80):
the spec gives the index no place in the tile's extents; the model puts it in front of the stream. -/
def pieces (blocks : List Blk) : List Nat :=
  let n := blocks.length
  ((blocks.map Blk.size).modify 0 (· + (16 * n + 16))).modify (n - 1) (· + 16)

/-- Lay pieces one after another over extents, going on to the next where one does not fit: extent and offset of each. `fuel` bounds
the pieces and extents. -/
def layOut : Nat → List Extent → Nat → List Nat → List (Extent × Nat)
  | 0, _, _, _ => []
  | _, [], _, _ => []
  | _, _, _, [] => []
  | fuel + 1, e :: es, at_, n :: ns =>
    if at_ + n ≤ e.len * 65536 then (e, at_) :: layOut fuel (e :: es) (at_ + n) ns else layOut fuel es 0 (n :: ns)

/-- What a stream keeps of its reservation: each extent up to its last block, empty ones not at all. -/
def keptExtents (ext : List Extent) (placed : List (Extent × Nat)) (sizes : List Nat) : List Extent :=
  ext.filterMap (fun e =>
    let last := (placed.zip sizes).foldl (fun m x => if x.1.1 = e then max m (x.1.2 + x.2) else m) 0
    if last = 0 then none else some { e with len := cdiv last 65536 })

def pieceAddr (x : Extent × Nat) : Nat := storeBase + x.1.start * 65536 + x.2

/-- A stream in its reserved extents: what it keeps of them, the address of its index, and its blocks with the addresses of their
headers. -/
def placeStream (ext : List Extent) (blocks : List Blk) : List Extent × Nat × List Blk :=
  let sizes := pieces blocks
  let placed := layOut (ext.length + sizes.length) ext 0 sizes
  let addrs := placed.map pieceAddr
  let index := addrs.headD storeBase
  (keptExtents ext placed sizes, index,
   (blocks.zip (addrs.modify 0 (· + (16 * blocks.length + 16)))).map (fun e => { e.1 with addr := e.2 }))

/-- An address range lies in the transfer zone (R258). -/
def inZone (a n : Nat) : Bool := decide (zoneBase ≤ a ∧ a + n ≤ zoneBase + zoneSize)

/-- A proof capture ends and is reported: reason 0 count reached, 1 job stop, 2 cancel, 3 row unused (R271, R278). -/
def State.endCapture (s : State) (reason : Nat) : State :=
  match s.hamper.capture with
  | none => s
  | some c =>
    let s1 := { s with hamper := { s.hamper with capture := none, ended := some c } }
    s1.result c.origin 0x02A3 clsJob .ok 0 [(1, c.row.val), (8, c.first), (4, c.written), (1, reason)]

end Sys2Proof.Machine
end

