-- ==== Sys2Proof/Machine/MemOps.lean ====
section
/-! DEFINITION. Shared operations of the memory subsystem: the address map (20 R497), traffic (R503, R504, R516), memory
panic (01 R20), and what an error in a word leads to (R507 to R512). -/

namespace Sys2Proof.Machine

def memSize : Nat := 0x3800000000

/-! ### The address map (R497) -/

/-- The parity of the common bits of two values. -/
def parityOf (x k : Nat) : Bool := ((List.range 32).filter (fun i => x.testBit i && k.testBit i)).length % 2 == 1

/-- H(x, K). -/
def keyHash {w : Nat} (x : Nat) (k : Vector (BitVec w) 5) : Nat := maskOf (k.toList.map (fun m => parityOf x m.toNat))

/-- Where a device address lies: channel, rank, bank, row, slot. -/
structure DramPlace where
  channel : Nat
  rank : Nat
  bank : Nat
  row : Nat
  slot : Nat
deriving DecidableEq, Repr

def Miu.place (m : Miu) (a : Nat) : DramPlace :=
  let g := a / 256
  let u := g % 32
  let v := g / 32 % 32
  let w := g / 1024
  let rb := v ^^^ keyHash w m.kb
  { channel := u ^^^ keyHash (g / 32) m.kc, rank := rb / 16, bank := rb % 16, row := w / 7, slot := w % 7 }

/-! ### Traffic -/

/-- `n` bytes move between a requester and memory: the 10 ms window of R516 counts them, ranks leave self-refresh (R504),
and HOST traffic holds the set point (R503). -/
def State.traffic (s : State) (n : Nat) (host : Bool) : State :=
  let m := s.miu
  let old := m.bwStart + ms 10 ≤ s.aon
  let window := m.bwStart + (s.aon - m.bwStart) / ms 10 * ms 10
  { s with miu := { m with
    bwNow := if old then n else m.bwNow + n
    bwStart := if old then window else m.bwStart
    bwLast := if old then (if s.aon < m.bwStart + ms 20 then m.bwNow else 0) else m.bwLast
    selfRefresh := false
    lastTraffic := s.aon
    lastHost := if host then some s.aon else m.lastHost } }

/-! ### Panic (01 R20) -/

/-- FSQ raises memory panic. -/
def State.raisePanic (s : State) (r : Fin 16) : State :=
  match s.miu.panicSince with
  | some _ => s
  | none =>
    ({ s with miu := { s.miu with panicSince := some s.aon, panicRow := r, panics := satAdd s.miu.panics 1, panicForced := 0 } }).post
      0x02F1 clsSystem [(1, 1), (1, r.val), (8, 0), (4, 0)]

/-- FSQ clears it. -/
def State.clearPanic (s : State) : State :=
  match s.miu.panicSince with
  | none => s
  | some t0 =>
    let d := (s.aon - t0) / 2 ^ 32
    ({ s with miu := { s.miu with panicSince := none, panicTime := s.miu.panicTime + d } }).post
      0x02F1 clsSystem [(1, 0), (1, s.miu.panicRow.val), (8, d), (4, s.miu.panicForced)]

/-- Agreed lines a row holds in its line buffer beyond its fire line; lines beyond its last line count as held. -/
def State.heldBeyond (s : State) (r : Fin 16) : Nat :=
  ((List.range 64).filter (fun i =>
    let n := s.lsd.rows[r].next + i
    !s.hasLine r n || s.rows[r].buffer.any (fun b => b.data.line = n))).length

/-- Raise or clear panic by the line-buffer levels. -/
def State.panicEval (s : State) : State :=
  if s.started then
    match s.miu.panicSince with
    | none =>
      match (rowsWhere (fun r => s.live r && s.heldBeyond r < 24)).head? with
      | some r => s.raisePanic r
      | none => s
    | some _ => if (rowsWhere s.live).all (fun r => 28 ≤ s.heldBeyond r) then s.clearPanic else s
  else s

/-! ### Errors -/

/-- The code of a reader in MEM_ECC. -/
def readerCode : MemReader → Nat
  | .cdx => 0 | .dma => 1 | .fsq => 2 | .spc => 3 | .plw => 4 | .kettle => 5 | .scrubber => 6

/-- MEM_ECC's memory field: 0 DRAM, 1 to 7 the SRAM arrays. -/
def arrayCode : SramArray → Nat
  | .lineBuffer => 1 | .pnc => 2 | .net => 3 | .curves => 4 | .engine => 5 | .cvuContext => 6 | .codec => 7

/-- MEM_ECC at once: every class but a transient corrected error (R519). -/
def State.memEccNow (s : State) (memory addr kind cls reader : Nat) (injected : Bool) : State :=
  s.post 0x02F0 clsFault [(1, memory), (8, addr), (1, kind), (1, cls), (1, reader), (1, b2n injected)]

/-- Another transient corrected error since the last post. -/
def EccPost.add (e : EccPost) (addr reader : Nat) (injected : Bool) : EccPost :=
  { e with count := e.count + 1, addr := addr, reader := BitVec.ofNat 8 reader, injected := e.injected || injected }

/-- The FSV detection of a DRAM or SRAM error. -/
def memDetect (fclass : Byte) (unit : Nat) (injected : Bool) (o : FaultOutcome) (stops : Bool := false) : Detect :=
  { fclass := fclass, source := srcMiu, unit := BitVec.ofNat 8 unit, injected := injected, outcome := o, stops := stops }

/-- The word that holds an address. -/
def wordOf (a : Nat) : Nat := a / 8 * 8

/-- The first word of a read that the code cannot correct (20 R508, R509, R518). -/
def Miu.badWord (m : Miu) (a n : Nat) : Option Nat :=
  (m.poison ++ m.dead ++ (m.corrupt.filter (fun c => c.target == 0 && c.double)).map (·.addr)).find? (touches a n)

/-- A read of device memory draws uncorrectable data. -/
def State.readFails (s : State) (a n : Nat) : Bool := (s.miu.badWord a n).isSome

def Miu.corrupted (m : Miu) (target word : Nat) : Bool := m.corrupt.any (fun c => c.target = target && c.addr = word)

/-- One read draws POISON where its range holds it: counted, and reported once it is lasting (R509). `reader` is MEM_ECC's code; 7 is
an access of BAR2. -/
def State.poisonRead (s : State) (reader a n : Nat) (last : Bool) : State :=
  match s.miu.badWord a n with
  | none => s
  | some w =>
    let inj := s.miu.corrupted 0 w
    let s1 : State := { s with miu := { s.miu with ue := satAdd s.miu.ue 1 } }
    if last then (s1.memEccNow 0 w 1 clsLasting reader inj).detect (memDetect fcDram (s.miu.place w).channel inj .reported) else s1

/-- A transient corrected error is counted towards the next MEM_ECC of its memory: 0 DRAM, 1 to 7 the SRAM arrays (R519). -/
def Miu.addPost (m : Miu) (memory : Fin 8) (addr reader : Nat) (injected : Bool) : Miu :=
  { m with eccPosts := upd m.eccPosts memory (fun e => e.add addr reader injected) }

/-- A single-bit DRAM error found on a read (R507, R508): corrected and written back; `again` when the re-read needs
correction too, which a planted error never does (R518). A second error in a word of the stuck-bit table makes every later read of it
uncorrectable. -/
def State.dramSingle (s : State) (addr : Nat) (bit : Fin 72) (again : Bool) (reader : MemReader) : State :=
  let w := wordOf addr
  let inj := s.miu.corrupted 0 w
  let ch := (s.miu.place addr).channel
  let known := s.miu.stuck.any (fun e => e.1 = w && e.2 = bit)
  let other := s.miu.stuck.any (fun e => e.1 = w && e.2 ≠ bit)
  let s1 := { s with miu := { s.miu with
    corrupt := s.miu.corrupt.filter (fun c => !(c.target == 0 && c.addr == w))
    dead := if other && !s.miu.dead.contains w then s.miu.dead ++ [w] else s.miu.dead } }
  if again && !inj then
    let s2 := { s1 with miu := { s1.miu with
      ceLasting := satAdd s1.miu.ceLasting 1
      stuck := if known || other || 1024 ≤ s1.miu.stuck.length then s1.miu.stuck else s1.miu.stuck ++ [(w, bit)] } }
    (s2.memEccNow 0 w 0 clsLasting (readerCode reader) inj).detect (memDetect fcDram ch inj .masked)
  else
    ({ s1 with miu := { s1.miu with ceTransient := satAdd s1.miu.ceTransient 1 }.addPost 0 w (readerCode reader) inj }).detect
      (memDetect fcDram ch inj .transient)

/-- A read corrects the planted single-bit errors in its range (R507, R518). -/
def State.readSingles (s : State) (reader : MemReader) (a n : Nat) : State :=
  (s.miu.corrupt.filter (fun c => c.target == 0 && !c.double && touches a n c.addr)).foldl
    (fun s c => s.dramSingle c.addr c.bit false reader) s

/-! ### Where SPC keeps its lines and records (07 R155, R157, R161, R163) -/

/-- The steep-ring slot and the descriptor of a line, and the slot of a checkpoint (log 62). -/
def ringSlot (r : Fin 16) (n : Nat) : Nat := 0xA4C00000 + r.val * 0x2000000 + n % 4096 * 0x2000
def descSlot (r : Fin 16) (n : Nat) : Nat := 0xA0200000 + r.val * 0x80000 + n % 4096 * 128
def ckptSlot (r : Fin 16) (c : Nat) : Nat := 0xA0A00000 + r.val * 0x420000 + c / 64 % 66 * 0x10000

/-- The uncorrectable word that FSQ meets when it copies a line. -/
def Miu.ringBad (m : Miu) (r : Fin 16) (n : Nat) : Option Nat := (m.badWord (ringSlot r n) 0x2000).or (m.badWord (descSlot r n) 128)

/-- SPC writes a line into its steep ring. -/
def State.ringWrote (s : State) (r : Fin 16) (n : Nat) : State := (s.wrote (ringSlot r n) 0x2000).wrote (descSlot r n) 128

/-- The line that a steep-ring address belongs to, when the row's ring holds it (07 R155). -/
def State.ringLine (s : State) (addr : Nat) : Option (Fin 16 × Nat) :=
  if 0xA4C00000 ≤ addr ∧ addr < 0xC4C00000 then
    let r : Fin 16 := ⟨(addr - 0xA4C00000) / 0x2000000 % 16, Nat.mod_lt _ (by omega)⟩
    let slot := (addr - 0xA4C00000) / 0x2000 % 4096
    (s.rows[r].ring.find? (fun a => a.line % 4096 = slot)).map (fun a => (r, a.line))
  else if 0xA0200000 ≤ addr ∧ addr < 0xA0A00000 then
    let r : Fin 16 := ⟨(addr - 0xA0200000) / 0x80000 % 16, Nat.mod_lt _ (by omega)⟩
    let slot := (addr - 0xA0200000) / 128 % 4096
    (s.rows[r].ring.find? (fun a => a.line % 4096 = slot)).map (fun a => (r, a.line))
  else none

/-- The checkpoint whose record holds an address (07 R161, R163). DESIGN CHOICE (log 62): the record of line C stands in slot
C / 64 mod 66 of its row; the spec maps no line to a slot. -/
def State.poisonCheckpoint (s : State) (addr : Nat) : State :=
  if 0xA0A00000 ≤ addr ∧ addr < 0xA4C00000 then
    let r : Fin 16 := ⟨(addr - 0xA0A00000) / 0x420000 % 16, Nat.mod_lt _ (by omega)⟩
    let slot := (addr - 0xA0A00000) / 0x10000 % 66
    { s with rows := upd s.rows r (fun x => { x with
        ckpts := x.ckpts.map (fun c => if c.line / 64 % 66 = slot then { c with poisoned := true } else c) }) }
  else s

/-- Rows whose plane names a list that holds a page of an address; every assigned row for a directory. -/
def State.rowsReading (s : State) (addr : Nat) : BitVec 16 :=
  let handles := match pageOf addr with
    | some p => (s.hamper.lists.filter (fun (l : PList) => inExtents l.pages p)).map PList.handle
    | none => s.hamper.lists.map PList.handle
  BitVec.ofNat 16 (rowMask (fun r => s.assigned r && s.panels.any (fun p => p.lists.any (fun e =>
    e.1 / 16 = ((s.layout.rows[r].plane.map (·.val)).getD 16) && handles.contains e.2))))

/-- What a second POISON means to a reader (R509). -/
def State.poisonLasting (s : State) (addr : Nat) (reader : MemReader) : State :=
  match reader with
  | .cdx | .dma => s
  | .fsq =>
    match s.ringLine addr with
    | some (r, n) =>
      if s.rows[r].withheld.any (fun w => w.line = n) || s.rows[r].buffer.any (fun b => b.data.line = n) then s
      else ({ s with rows := upd s.rows r (fun x => { x with withheld := x.withheld ++ [Withheld.mk n 0 0x01] }) }).wasteMark r n n 0x01
    | none => s
  | .spc => s.poisonCheckpoint addr
  | .plw =>
    let rows := s.rowsReading addr
    let first := (rowsWhere (fun r => rows.getLsbD r.val)).foldl (fun m r => min m s.rows[r].prim.line) (2 ^ 48)
    s.detect { fclass := fcExpansion, source := 13, rows := rows, first := first, last := first, outcome := .detected, stops := true }
  | .kettle => s.kettleRestart
  | .scrubber => s

/-- An uncorrectable DRAM read (R509): POISON, each read of it counted, and handled by its reader; `again` when its second read is
POISON too. -/
def State.dramDouble (s : State) (addr : Nat) (again : Bool) (reader : MemReader) : State :=
  let w := wordOf addr
  let inj := s.miu.corrupted 0 w
  let ch := (s.miu.place addr).channel
  let last := again || reader == .spc || s.miu.dead.contains w || inj
  let s1 := { s with miu := { s.miu with
    ue := satAdd s.miu.ue (if last && reader != MemReader.spc then 2 else 1)
    poison := if !last || s.miu.poison.contains w then s.miu.poison else w :: s.miu.poison } }
  let s2 := (s1.memEccNow 0 w 1 (if last then clsLasting else clsTransient) (readerCode reader) inj).detect
    (memDetect fcDram ch inj (if last then .reported else .transient))
  if last then s2.poisonLasting addr reader else s2

/-- A corrected SRAM read (R511). -/
def State.sramSingle (s : State) (arr : SramArray) (addr : Nat) (again : Bool) (inj : Bool) : State :=
  let s1 := { s with miu := { s.miu with sramCe := satAdd s.miu.sramCe 1 } }
  if again && !inj then
    (s1.memEccNow (arrayCode arr) addr 0 clsLasting 0xFF inj).detect (memDetect fcSram (arrayCode arr) inj .masked)
  else
    ({ s1 with miu := s1.miu.addPost (Fin.ofNat 8 (arrayCode arr)) addr 0xFF inj }).detect
      (memDetect fcSram (arrayCode arr) inj .transient)

/-- MEM_INJECT's target of an array: 1 PNC, 2 line buffer. -/
def arrayTarget : SramArray → Nat
  | .pnc => 1 | .lineBuffer => 2 | _ => 3

/-- An uncorrectable SRAM read (R512): a correction table is reloaded from its image and read again; the other arrays
leave it to the check of their block. -/
def State.sramDouble (s : State) (arr : SramArray) (addr : Nat) (again : Bool) (inj : Bool) : State :=
  let s1 := { s with miu := { s.miu with sramUe := satAdd s.miu.sramUe 1 } }
  match arr with
  | .pnc | .net | .curves =>
    let s2 := { s1 with miu := { s1.miu with
      reloads := s1.miu.reloads + 1
      corrupt := s1.miu.corrupt.filter (fun c => !(c.target == (arrayTarget arr) && c.addr == addr)) } }
    (s2.memEccNow (arrayCode arr) addr 1 (if again then clsLasting else clsTransient) 0xFF inj).detect
      (memDetect fcSram (arrayCode arr) inj (if again then .detected else .transient) again)
  | .lineBuffer =>
    let c : Corruption := { target := 2, double := true, bit := 0, addr := wordOf addr }
    let s2 := { s1 with miu := { s1.miu with
      corrupt := if s1.miu.corrupted 2 (wordOf addr) then s1.miu.corrupt else c :: s1.miu.corrupt } }
    s2.memEccNow (arrayCode arr) addr 1 clsTransient 0xFF inj
  | .engine | .cvuContext | .codec =>
    s1.memEccNow (arrayCode arr) addr 1 clsTransient 0xFF inj

end Sys2Proof.Machine
end

