-- ==== Sys2Proof/Machine/HlkOps.lean ====
section
/-! DEFINITION. Shared operations of the head link: lanes and connectors (12), training blocks (R283), the outcome of a
wake (R300), sleep and reset (R294, R296), lane tests (R303), the transmit queues (13 R311), withheld lines (13 R310) and
the head management channel (13 R321, R322). -/

namespace Sys2Proof.Machine

/-! ### Lanes, rows and connectors (R279) -/

def connOf (l : Fin 32) : Fin 4 := ⟨l.val / 8, by omega⟩
def connLanes (c : Fin 4) : List (Fin 32) := (List.finRange 8).map (fun i => ⟨8 * c.val + i.val, by omega⟩)
def rowOf (h : Fin 32) : Fin 16 := ⟨h.val / 2, by omega⟩
def rowHalves (r : Fin 16) : List (Fin 32) := [⟨2 * r.val, by omega⟩, ⟨2 * r.val + 1, by omega⟩]
def asLane (l : Fin 32) : Fin 34 := ⟨l.val, by omega⟩
def connRows (c : Fin 4) : List (Fin 16) := (List.finRange 4).map (fun i => ⟨4 * c.val + i.val, by omega⟩)
def connHeads (c : Fin 4) : List (Fin 64) := (List.finRange 16).map (fun i => ⟨16 * c.val + i.val, by omega⟩)
/-- The row of a head (13 R323). -/
def headRow (h : Fin 64) : Fin 16 := ⟨h.val / 4, by omega⟩

def State.updConn (s : State) (c : Fin 4) (f : Connector → Connector) : State :=
  { s with hlk := { s.hlk with conns := upd s.hlk.conns c f } }
def State.updTx (s : State) (l : Fin 32) (f : TxLane → TxLane) : State :=
  { s with hlk := { s.hlk with tx := upd s.hlk.tx l f } }
def State.updHead (s : State) (h : Fin 64) (f : Head → Head) : State :=
  { s with hac := { s.hac with heads := upd s.hac.heads h f } }
def State.updRow (s : State) (r : Fin 16) (f : SpcRow → SpcRow) : State := { s with rows := upd s.rows r f }

/-- The code of a lane state (R302). -/
def LaneState.code : LaneState → Nat
  | .off => 0 | .pll => 1 | .signal => 2 | .lock => 3 | .align => 4 | .equalise => 5 | .ready => 6 | .active => 7
  | .sleep => 8 | .retrain => 9 | .failed => 10 | .test => 11

/-- READY or ACTIVE; a lane that wakes with stored values is not up before its first 100 µs have been judged (R295). -/
def Lane.up (l : Lane) : Bool := (l.state == .ready && !l.waking) || l.state == .active

/-- Bring-up is in one of its stages 1 to 6, or a retrain runs. -/
def Lane.busy (l : Lane) : Bool :=
  l.state == .pll || l.state == .signal || l.state == .lock || l.state == .align || l.state == .equalise || l.state == .ready ||
  l.state == .active || l.state == .retrain

def State.connUp (s : State) (c : Fin 4) : Bool := (connLanes c).all (fun l => (s.lane (asLane l)).up)

/-- Bit h set for each lane of a test. -/
def laneMask (p : Fin 32 → Bool) : Nat := maskOf ((List.finRange 32).map p)

/-- The failed lanes of a connector. -/
def State.failedLanes (s : State) (c : Fin 4) : Nat := laneMask (fun l => connOf l = c && (s.lane (asLane l)).state == .failed)

/-! ### Block lock (R286) -/

/-- Sync headers as sent, h0 first: bit 0 is h0. -/
def hdrControl : BitVec 2 := 1
def hdrData : BitVec 2 := 2
def hdrValid (h : BitVec 2) : Bool := h == hdrControl || h == hdrData

/-- The receiver examines a sync header. -/
def BlockSync.header (b : BlockSync) (h : BitVec 2) : BlockSync :=
  if b.locked then
    let bad := b.bad + if hdrValid h then 0 else 1
    if b.count + 1 < 64 then { b with count := b.count + 1, bad := bad }
    else { b with locked := decide (bad < 16), count := 0, bad := 0 }
  else if hdrValid h then
    if b.count + 1 < 64 then { b with count := b.count + 1 } else { b with locked := true, count := 0, bad := 0 }
  else { b with slip := (b.slip + 1) % 66, count := 0 }

/-- Lock is held and lost within a run of headers. -/
def BlockSync.loses : BlockSync → List (BitVec 2) → Bool
  | _, [] => false
  | b, h :: r => (b.locked && !(b.header h).locked) || BlockSync.loses (b.header h) r

/-! ### Blocks (R280, R283, 13 R306) -/

/-- A valid lane training block. -/
def isTraining (b : BitVec 64) : Bool := (blockBytes b).getD 0 0 == 0xD2 && chkOk b

def bitAt (b : BitVec 64) (lo n : Nat) : Nat := bits b.toNat lo n

/-! ### The head management channel (13 R321, R322) -/

/-- A message of the HMC. -/
def hmcMsg (mtype mseq : Byte) (payload : List Byte) : List Byte :=
  let body := [BitVec.ofNat 8 payload.length, mtype, mseq] ++ payload
  [0xC5] ++ body ++ le 4 (crc32c 0 body).toNat

/-- A request goes out to a connector's head driver; while CK_CHM is stopped the channel is silent (21 R523). -/
def State.hmcSend (s : State) (c : Fin 4) (msg : List Byte) : State :=
  if s.clk.domains[(12 : Fin 13)].gated then s else s.emit (.hmc c msg)

/-- Send the next request when none is unanswered; after a lasting fault none is sent. -/
def State.hmcPump (s : State) (c : Fin 4) : State :=
  let n := s.hlk.conns[c]
  match n.hmcWait, n.hmcQueue with
  | none, q :: _ =>
    if n.hmcLasting then s
    else (s.hmcSend c (hmcMsg q.mtype n.mseq q.payload)).updConn c (fun n => { n with hmcWait := some (n.mseq, s.aon, 1) })
  | _, _ => s

def State.hmcAsk (s : State) (c : Fin 4) (q : HmcReq) : State :=
  (s.updConn c (fun n => { n with hmcQueue := n.hmcQueue ++ [q] })).hmcPump c

/-! ### Bring-up, and the outcome of a wake (R284, R296, R300) -/

/-- A lane starts stage 1: with its stored values when it wakes from SLEEP (R295), else with preset P4 or the fixed one. -/
def Lane.begin_ (n : Lane) (cfg : LaneCfg) (now : Nat) : Lane :=
  let waking := n.state == .sleep && n.stored
  { n with
    state := .pll, since := now, restarted := false, waking := waking, sync := BlockSync.init, agree := 0, seenValid := false, echo := none
    eqDone := waking, partnerEqDone := false, partnerReady := false, lossMask := 0
    preset := if waking then n.preset else cfg.preset.getD 4 }

/-- A head at a new bring-up of its connector: what it declared and how it authenticated no longer hold. -/
def Head.unidentified (h : Head) : Head := { h with present := false, auth := .absent, keySlot := none, minFire := 0, retried := false }

/-- A request that outlives a bring-up: a tunnel and a commit (R326, 14 R346). Identification and what follows it begin anew. -/
def HmcReq.lasts (q : HmcReq) : Bool := q.origin.isSome || q.mtype == 0x42

/-- A new bring-up drops the requests of the last one; one of them that waits for its answer is given up. -/
def Connector.asked (n : Connector) : Connector :=
  let gone := match n.hmcQueue with | q :: _ => !q.lasts | [] => true
  { n with
    hmcQueue := n.hmcQueue.filter HmcReq.lasts, hmcWait := if gone then none else n.hmcWait
    mseq := if gone && n.hmcWait.isSome then n.mseq + 1 else n.mseq }

/-- Begin the bring-up of every lane of a connector that is OFF or asleep. -/
def State.beginConn (s : State) (c : Fin 4) : State :=
  let starts (l : Fin 32) : Bool := connOf l = c && ((s.lane (asLane l)).state == .off || (s.lane (asLane l)).state == .sleep)
  if (connLanes c).any starts then
    let cfg := s.hlk.conns[c].cfg
    let s1 := (connLanes c).foldl (fun s l =>
      if starts l then s.updLane (asLane l) (fun n => n.begin_ cfg s.aon) else s) s
    let s2 := s1.updConn c (fun n => { n.asked with
      inForce := n.cfg, wokenAt := s.aon, toldReady := false, ident := none, identified := false, wiringRx := false, wiringTx := false })
    let s3 := (connHeads c).foldl (fun s h => s.updHead h Head.unidentified) s2
    let s4 : State := (connRows c).foldl (fun s r => { s with lsd := { s.lsd with
      rows := upd s.lsd.rows r (fun x => { x with headFire := Vector.replicate 4 0 }) } }) s3
    s4.hmcPump c
  else s

/-- WAKE of one connector: a sleep entry finishes first, a bring-up or retrain is waited for (R296). -/
def State.wakeConn (s : State) (c : Fin 4) : State :=
  if s.hlk.conns[c].entering then s.updConn c (fun n => { n with wakeAfter := true }) else s.beginConn c

/-- Causes of HLK_LINK: 0 none, 1 stage limit, 2 retrain, 3 RESET. -/
def linkNone : Nat := 0
def linkLimit : Nat := 1
def linkRetrain : Nat := 2
def linkReset : Nat := 3

/-- One pending wake meets the outcome of a connector: its HLK_LINK, and the result once no connector is open. -/
def State.wakeOne (s : State) (c : Fin 4) (st : Status) (code stage cause lanes : Nat) (w : WakeReq) : State :=
  if w.open_.getLsbD c.val then
    let failed := s.failedLanes c
    let e : Ev := { code := 0x02B0, cls := clsJob, origin := some w.origin, status := st.code, time := s.stamp, detail := 0,
                    data := evData [(1, c.val), (1, code), (4, failed), (1, stage), (1, cause)] }
    let s1 := s.postEv e
    let w' : WakeReq := { w with
      open_ := w.open_ &&& ~~~(1#4 <<< c.val)
      bad := if st == .ok then w.bad else w.bad ++ [(c, st)]
      lanes := w.lanes ||| BitVec.ofNat 32 (failed ||| lanes) }
    if w'.open_ = 0 then
      let first := (List.finRange 4).findSome? (fun c => (w'.bad.find? (fun b => b.1 = c)).map (·.2))
      s1.resolve w.origin (first.getD .ok) w'.lanes.toNat (e.record 0 false)
    else { s1 with hlk := { s1.hlk with wakes := s1.hlk.wakes ++ [w'] } }
  else { s with hlk := { s.hlk with wakes := s.hlk.wakes ++ [w] } }

/-- A connector reaches READY, FAILED, SLEEP or OFF: every wake that waits for it hears of it. -/
def State.wakeDone (s : State) (c : Fin 4) (st : Status) (code stage cause lanes : Nat) : State :=
  s.hlk.wakes.foldl (fun s w => s.wakeOne c st code stage cause lanes w) { s with hlk := { s.hlk with wakes := [] } }

/-- HLK_LINK for no WAKE: connector, state, failed lanes, stage and cause (R305). -/
def State.linkPost (s : State) (c : Fin 4) (st : Status) (code stage cause : Nat) : State :=
  s.result none 0x02B0 clsJob st 0 [(1, c.val), (1, code), (4, s.failedLanes c), (1, stage), (1, cause)]

/-- A connector reaches a state: the WAKEs that wait for it hear of it, or HLK_LINK is posted for none. -/
def State.linkDone (s : State) (c : Fin 4) (st : Status) (code stage cause lanes : Nat) : State :=
  if s.hlk.wakes.any (fun w => w.open_.getLsbD c.val) then s.wakeDone c st code stage cause lanes else s.linkPost c st code stage cause

/-- When every lane of a connector is READY the module identifies the head driver (13 R324). -/
def State.identify (s : State) (c : Fin 4) : State :=
  let n := s.hlk.conns[c]
  if n.ident.isNone && !n.hmcQueue.any (fun q => q.mtype == 0x01) then s.hmcAsk c { mtype := 0x01, payload := [], origin := none }
  else s

/-- A lane may pass to the head frame engine (R284, 13 R324). -/
def State.activate (s : State) (l : Fin 32) : State :=
  if (s.lane (asLane l)).state == .ready && (s.lane (asLane l)).partnerReady && s.hlk.conns[connOf l].identified then
    s.updLane (asLane l) (fun n => { n with state := .active })
  else s

/-- After a lane's state has changed: READY connectors are identified, wakes answered, lanes activated. -/
def State.linkCheck (s : State) (c : Fin 4) : State :=
  if s.connUp c then
    let s1 := s.identify c
    let s2 := if s.hlk.conns[c].toldReady then s1.wakeDone c .ok 6 0 linkNone 0 else s1.linkDone c .ok 6 0 linkNone 0
    (connLanes c).foldl State.activate (s2.updConn c (fun n => { n with toldReady := true }))
  else s

/-- The FSV detection of a lane fault. -/
def laneDetect (l : Fin 32) (o : FaultOutcome) (stops : Bool := false) (first : Nat := 0) : Detect :=
  { fclass := fcLane, source := srcHlk, unit := BitVec.ofNat 8 l.val, row := BitVec.ofNat 8 (l.val / 2),
    rows := 1#16 <<< (l.val / 2), first := first, last := first, outcome := o, stops := stops }

/-- HLK_LANE (R305). -/
def State.laneEvent (s : State) (l : Fin 32) (cause : BitVec 4) (cls : Nat) : State :=
  s.post 0x02B1 clsJob [(1, l.val), (1, cause.toNat), (1, cls)]

/-! ### Sleep and reset (R294, R296) -/

/-- A connector begins to enter SLEEP: a bring-up ends. -/
def State.enterSleep (s : State) (c : Fin 4) (o : Option Origin) : State :=
  if (connLanes c).any (fun l => (s.lane (asLane l)).busy) then
    s.updConn c (fun n => { n with entering := true, wakeAfter := false, toldReady := false, sleepReqs := n.sleepReqs ++ o.toList })
  else s

/-- Empty a transmit lane's queues; its frame sequence goes on. -/
def TxLane.emptied (x : TxLane) : TxLane :=
  { x with control := [], resends := [], frames := [], awaiting := [], flushWait := none, flushed := false }

/-- A SLEEP is answered once no connector it named still enters SLEEP. -/
def State.sleepAnswer (st : Status) (s : State) (o : Origin) : State :=
  if (List.finRange 4).any (fun d => s.hlk.conns[d].sleepReqs.contains o) then s else s.resolve o st 0 []

/-- Sleep entry is over: the SLEEP commands that waited for this connector are answered. -/
def State.entryOver (s : State) (c : Fin 4) (st : Status) : State :=
  (s.hlk.conns[c].sleepReqs).foldl (State.sleepAnswer st)
    (s.updConn c (fun n => { n with entering := false, wakeAfter := false, sleepReqs := [] }))

/-- A lane with nothing stored. -/
def Lane.cleared (n : Lane) (st : LaneState) : Lane :=
  { Lane.init with state := st, transients := n.transients, dropped := n.dropped, txSeq := n.txSeq }

/-- A connector returns to OFF (R300). -/
def State.resetConn (s : State) (c : Fin 4) : State :=
  let was := (connLanes c).any (fun l => (s.lane (asLane l)).state != .off)
  let s1 := (connLanes c).foldl (fun s l => (s.updLane (asLane l) (fun n => n.cleared .off)).updTx l TxLane.emptied) s
  let s2 := (s1.entryOver c .badState).updConn c (fun n => { n with toldReady := false })
  if was then s2.linkDone c .badState 0 0 linkReset (0xFF * 2 ^ (8 * c.val)) else s2

/-! ### Lane tests (R303) -/

/-- A test ends, reason 0 duration reached, 1 stopped, 2 job armed: its lanes sleep with nothing stored. -/
def State.endTest (s : State) (reason : Nat) : State :=
  match s.hlk.test with
  | none => s
  | some t =>
    let s1 := (List.finRange 32).foldl (fun s l =>
      if (s.lane (asLane l)).state == .test then s.updLane (asLane l) (fun n => n.cleared .sleep) else s) s
    ({ s1 with hlk := { s1.hlk with test := none } }).result (some t.origin) 0x02B2 clsJob .ok 0 [(4, t.lanes.toNat), (1, reason)]

/-! ### The transmit queues (13 R308 to R312) -/

def withholdBlock (h : Fin 32) (line : Nat) (reason : Byte) : Bool × BitVec 64 :=
  ctl ([0xE3, BitVec.ofNat 8 h.val] ++ le 2 line ++ [reason])

/-- NOTICE: 0 FIRE, 1 SKIP_WITHHELD, 2 SKIP_INHIBIT. -/
def noticeBlock (h : Fin 32) (line : Nat) (kind : Byte) : Bool × BitVec 64 :=
  ctl ([0xE4, BitVec.ofNat 8 h.val] ++ le 2 line ++ [kind])

def flushBlock (h : Fin 32) (fseq reason : Byte) : Bool × BitVec 64 := ctl [0xE5, BitVec.ofNat 8 h.val, 0, 0, fseq, reason]

def State.sendBlocks (s : State) (l : Fin 32) (b : List (Bool × BitVec 64)) : State := s.laneOut (asLane l) b

/-- The time of one block, 2.56 ns, and of the 514 blocks of a frame (13 R311). -/
def blockTime : Nat := 256 * 2 ^ 32 / 100
def frameTime : Nat := 514 * 256 * 2 ^ 32 / 100

/-- A frame is in progress on a lane. -/
def State.inFrame (s : State) (h : Fin 32) : Bool := decide (s.aon < s.hlk.tx[h].frameEnd)

/-- A NOTICE goes before the next block of what the lane is sending: a frame in progress ends one block later (13 R311). -/
def State.insertNotice (s : State) (h : Fin 32) (b : Bool × BitVec 64) : State :=
  let x := s.hlk.tx[h]
  if s.inFrame h then
    (s.laneInsert (asLane h) ((s.aon - x.frameAt + blockTime - 1) / blockTime) b).updTx h (fun x => { x with
      frameEnd := x.frameEnd + blockTime
      awaiting := x.awaiting.map (fun a => if a.sentAt = x.frameEnd then { a with sentAt := a.sentAt + blockTime } else a) })
  else s.sendBlocks h [b]

/-- NOTICE on both lanes of a row; a lane that is not ACTIVE carries none, and none is resent (13 R310, R320). -/
def State.notice (s : State) (r : Fin 16) (line : Nat) (kind : Byte) : State :=
  (rowHalves r).foldl (fun s h => if (s.lane (asLane h)).state == .active then s.insertNotice h (noticeBlock h line kind) else s) s

/-- The line start of X − 8 is past (13 R312). -/
def State.deadlinePast (s : State) (r : Fin 16) (x : Nat) : Bool := decide (8 ≤ x ∧ x - 8 < s.lsd.rows[r].next)

/-- One half of a buffered line. -/
def BufLine.half (b : BufLine) (h : Fin 32) : HalfSend := if h.val % 2 = 0 then b.lo else b.hi

def HalfSend.fresh : HalfSend :=
  { begun := false, acked := false, frameCause := none, recheckPending := false, check := none, injected := false, resent := false }

/-- A row's buffered line. -/
def SpcRow.line? (x : SpcRow) (n : Nat) : Option BufLine := x.buffer.find? (fun b => b.data.line = n)

/-- Change one half of a buffered line. -/
def State.updHalf (s : State) (h : Fin 32) (n : Nat) (f : HalfSend → HalfSend) : State :=
  s.updRow (rowOf h) (fun x => { x with buffer := x.buffer.map (fun b =>
    if b.data.line = n then (if h.val % 2 = 0 then { b with lo := f b.lo } else { b with hi := f b.hi }) else b) })

/-- A line of a row is withheld already. -/
def SpcRow.isWithheld (x : SpcRow) (n : Nat) : Bool := x.withheld.any (fun w => w.line = n)

/-- A line is recorded as withheld under its first cause and waste-marked. -/
def State.noteWithheld (s : State) (r : Fin 16) (n : Nat) (reason cause : Byte) : State :=
  if s.rows[r].isWithheld n then s
  else (s.updRow r (fun x => { x with withheld := x.withheld ++ [{ line := n, reason := reason, cause := cause }] })).wasteMark r n n cause

/-- A line already handed to the lanes is withheld: WITHHOLD goes out on both lanes of the row (13 R310). -/
def State.withholdSent (s : State) (r : Fin 16) (n : Nat) (reason cause : Byte) : State :=
  if s.rows[r].isWithheld n then s
  else (rowHalves r).foldl (fun s h => s.updTx h (fun x => { x with control := x.control ++ [.withhold n reason] }))
    (s.noteWithheld r n reason cause)

/-- The line lies at or beyond the first line withheld after a lasting fault (24 R580). -/
def State.faultWithheld (s : State) (r : Fin 16) (n : Nat) : Bool :=
  match s.job.rows[r].withholdFrom with | some f => decide (f ≤ n) | none => false

/-- Lines already poured that a lasting fault withholds are called back with reason FAULT (13 R310). -/
def State.withholdPoured (s : State) (r : Fin 16) : State :=
  let lines := (s.rows[r].buffer.filter (fun b => b.poured && s.faultWithheld r b.data.line &&
    decide (s.lsd.rows[r].next ≤ b.data.line))).map (fun b => b.data.line)
  lines.foldl (fun s n => s.withholdSent r n 4 0x06) s

/-- A line is withheld at its pour point: WITHHOLD stands in its frame's place. -/
def State.withholdPour (s : State) (r : Fin 16) (n : Nat) (reason cause : Byte) : State :=
  (rowHalves r).foldl (fun s h => s.updTx h (fun x => { x with frames := x.frames ++ [.withhold n reason] }))
    (s.noteWithheld r n reason cause)

/-- FLUSH is queued on every lane of a connector (13 R319): reason 0 ARM, 1 STOP. -/
def State.queueFlush (s : State) (c : Fin 4) (reason : Byte) : State :=
  (connLanes c).foldl (fun s l => s.updTx l (fun x => { x.emptied with control := x.control ++ [.flush reason] })) s

/-- The connectors that carry an assigned row (12 R291). -/
def State.armConns (s : State) : List (Fin 4) := (List.finRange 4).filter (fun c => (connRows c).any (fun r => s.assigned r))

end Sys2Proof.Machine
end

