-- ==== Sys2Proof/Machine/TxnMsgs.lean ====
section
/-! DEFINITION. Messages of chain transactions (08 R193 to R195, 15 R359, R370): their bodies, the shorter path, the query
of a group without a decision and its end by ABORT. -/

namespace Sys2Proof

open Machine

/-! ### Bodies (15 R359); an empty first NO holds address 0xFF -/

def NoVote.bytes (v : NoVote) : List Byte := le 1 v.address.val ++ [v.row, v.status] ++ le 2 v.member.toNat

def PrepareMsg.bytes (m : PrepareMsg) : List Byte :=
  le 4 m.group.toNat ++ le 1 m.coordinator.val ++ le 8 m.line ++ le 2 m.yes.toNat ++
  (match m.no with | some v => v.bytes | none => [0xFF, 0, 0, 0, 0])

def TxnAnswerState.code : TxnAnswerState → Nat
  | .prepared => 0 | .committed => 1 | .aborted => 2 | .unknown => 3 | .inReset => 4

/-- The detail of TXN_RESULT for a NO vote (08 R202). -/
def NoVote.detail (v : NoVote) : Nat := v.address.val * 2 ^ 28 + v.row.toNat % 16 * 2 ^ 24 + v.status.toNat * 2 ^ 16 + v.member.toNat

end Sys2Proof

namespace Sys2Proof.Machine

def State.updGroup (s : State) (id : BitVec 32) (f : Group → Group) : State :=
  { s with txn := { s.txn with groups := s.txn.groups.map (fun g => if g.id = id then f g else g) } }

def State.group? (s : State) (id : BitVec 32) : Option Group := s.txn.groups.find? (fun g => g.id = id)

/-- The prepared group. -/
def State.preparedGroup (s : State) : Option Group := s.txn.groups.find? (fun g => g.state == .prepared)

/-! ### Paths (15 R358, R370) -/

/-- The neighbour's address on a side. -/
def State.neighbour (s : State) (side : Side) : Option Nat :=
  s.chain.address.map (fun a => match side with
    | .out => (a.val + 1) % max 1 s.chain.count
    | .inn => (a.val + s.chain.count - 1) % max 1 s.chain.count)

/-- The side of the shorter path to an address. -/
def State.nearSide (s : State) (dst : Nat) : Side :=
  match s.chain.address with
  | some a => if 2 * ((dst + s.chain.count - a.val) % max 1 s.chain.count) ≤ s.chain.count then .out else .inn
  | none => .out

/-- An addressed message takes the shorter path through UP hops. -/
def State.chainAddressed (s : State) (mtype : Byte) (src dst : Nat) (body : List Byte) : State :=
  s.chainVia (s.nearSide dst) { mtype := mtype, src := BitVec.ofNat 8 src, dst := BitVec.ofNat 8 dst, body := body }

/-! ### Outcomes (R202, R631) -/

/-- TXN_RESULT: group, status, detail, generation, L, coordinator address. -/
def State.txnResult (s : State) (o : Option Origin) (group : BitVec 32) (st : Status) (detail line : Nat) (coordinator : Fin 16) : State :=
  s.result o 0x0270 clsJob st detail
    [(4, group.toNat), (1, st.code.toNat), (4, detail), (4, s.txn.newest.number.toNat), (8, line), (1, coordinator.val)]

/-- Detail of an ABORT without a NO vote. -/
def noVoteDetail : Nat := 0xFFFF

/-- The outcomes of the last 16 CHAIN groups prepared, one for each id. -/
def Txn.record (x : Txn) (id : BitVec 32) (committed : Bool) : Txn :=
  { x with outcomes := ((id, committed) :: x.outcomes.filter (fun o => o.1 ≠ id)).take 16 }

/-- What is remembered of a group replaces what was. -/
def Txn.remember (x : Txn) (v : Voted) : Txn := { x with voted := (v :: x.voted.filter (fun y => y.group ≠ v.group)).take 16 }

def Txn.voted? (x : Txn) (id : BitVec 32) : Option Voted := x.voted.find? (fun v => v.group = id)

/-- Detail of an ABORT: the first NO vote this module knows of, its own among them (R202). -/
def State.abortDetail (s : State) (id : BitVec 32) : Nat := (((s.txn.voted? id).bind (·.no)).map NoVote.detail).getD noVoteDetail

/-- The group is resolved without a decision: both copies of one that still comes are ignored (R194, R195). -/
def Txn.resolved (x : Txn) (id : BitVec 32) : Txn :=
  match x.voted? id with
  | some v => x.remember { v with skip := 2 }
  | none => x

/-- ABORT: the group returns to SEALED (R194). -/
def State.txnAbort (s : State) (g : Group) (o : Option Origin) (detail : Nat) : State :=
  let s1 := s.updGroup g.id (fun x => { x with state := .sealed, votedAt := 0, queried := false, answered := 0 })
  let s2 := if g.state == .prepared then { s1 with txn := s1.txn.record g.id false } else s1
  s2.txnResult o g.id .txnAborted detail g.line g.coordinator

/-! ### Without a decision (R195) -/

/-- The other modules of the chain. -/
def State.peerAddresses (s : State) : List (Fin 16) :=
  (List.finRange 16).filter (fun a => decide (a.val < s.chain.count) && s.chain.address != some a)

/-- Ask the coordinator and every other module, once. -/
def State.txnAsk (s : State) : State :=
  match s.preparedGroup with
  | some g =>
    if g.queried then s
    else
      let own := (s.chain.address.map (·.val)).getD 0
      s.peerAddresses.foldl (fun s a => s.chainAddressed 0x22 own a.val (le 4 g.id.toNat))
        (s.updGroup g.id (fun x => { x with queried := true }))
  | none => s

/-- With the coordinator in reset, ABORT once every other module has answered and none has committed. -/
def State.txnResolve (s : State) : State :=
  match s.preparedGroup with
  | some g =>
    if s.chain.inReset.getLsbD g.coordinator.val && s.chain.address != some g.coordinator &&
        s.peerAddresses.all (fun a => a == g.coordinator || g.answered.getLsbD a.val) then
      { s with txn := s.txn.resolved g.id }.txnAbort g none (s.abortDetail g.id)
    else s
  | none => s

/-- The chain reports a module in reset: a group it coordinates is asked for at once. -/
def State.txnPeerReset (s : State) (a : Fin 16) : State :=
  match s.preparedGroup with
  | some g => if g.coordinator = a then s.txnAsk.txnResolve else s
  | none => s

end Sys2Proof.Machine
end

