-- ==== Sys2Proof/Machine/WebOps.lean ====
section
/-! DEFINITION. Encoder plausibility (02 R30 to R33): a failed check, its confirmation, and a lasting encoder fault; and an edge
that takes effect (R29, R44): count, velocity, backward motion (R45) and SPEED_HIGH (R48). -/

namespace Sys2Proof.Machine

/-- The check's code in LSD_ENCODER_FAULT, in the order of R30's table. -/
def EncCheck.code : EncCheck → Nat
  | .lineFail => 0 | .illegal => 1 | .overrate => 2 | .indexPeriod => 3 | .acceleration => 4 | .chain => 5 | .clock => 6

def State.encEvent (s : State) (p : PendingCheck) (cls : Nat) : State :=
  s.post 0x0245 clsJob [(1, p.check.code), (8, wrapInt 64 p.pos), (8, p.time / 2 ^ 32), (1, cls)]

def encDetect (p : PendingCheck) (o : FaultOutcome) : Detect :=
  { fclass := fcEncoder, source := srcLsd, detail := BitVec.ofNat 32 p.check.code, outcome := o, pos := some p.pos }

/-- A confirmation source is configured (R31, R34): the index check, or peers to compare positions with. -/
def State.confirmable (s : State) : Bool :=
  (decide (0 < s.lsd.cfg.countsPerIndex) && s.lsd.configured) || (decide (1 < s.chain.count) && s.chain.dTable.toList.any Option.isSome)

/-- A lasting encoder fault (R33): no line starts until the job is armed again, and the rows' lines since the failed check
are waste-marked. -/
def State.encLasting (s : State) (p : PendingCheck) : State :=
  let s1 := ({ s with lsd := { s.lsd with lasting := true } }).encEvent p clsLasting
  let s2 := s1.detect (encDetect p .detected)
  (List.finRange 16).foldl (fun s r =>
    let from_ := p.next.getD r.val 0
    let n := s.lsd.rows[r].next
    if s.started && decide (from_ < n) then s.wasteMark r from_ (n - 1) 0x09 else s) s2

/-- A check fails (R30): pending until the next confirmation, or lasting where none is configured. Checks run on while a lasting
fault stands. -/
def State.encFail (s : State) (check : EncCheck) : State :=
  let p : PendingCheck := { check := check, pos := s.posNow, time := s.aon, next := s.lsd.rows.toList.map (·.next) }
  if s.confirmable then
    (({ s with lsd := { s.lsd with checks := s.lsd.checks ++ [p] } }).encEvent p clsPending).detect (encDetect p .pending)
  else s.encLasting p

/-- Line starts resume once the signal is good again, CK_TIM back on PL5, and the confirmation has passed (R32, 21 R531). -/
def State.encResume (s : State) : State :=
  if s.lsd.goodAgain && !s.lsd.checks.any (fun p => p.check == .lineFail || p.check == .clock) then { s with lsd := { s.lsd with hold := false } } else s

/-- The confirmation comes: it classifies every check that waits (R31); one that passes with none waiting may still lift a hold. -/
def State.encConfirm (s : State) (ok : Bool) : State :=
  match s.lsd.checks with
  | [] => if ok then s.encResume else s
  | p :: rest =>
    let s1 := { s with lsd := { s.lsd with checks := [] } }
    if ok then
      ((rest.foldl (fun s q => s.encEvent q clsTransient) (s1.encEvent p clsTransient)).detect (encDetect p .transient)).encResume
    else rest.foldl (fun s q => s.encEvent q clsLasting) (s1.encLasting p)

/-! ### Rows of LSD -/

def State.updLsd (s : State) (r : Fin 16) (f : LsdRow → LsdRow) : State := { s with lsd := { s.lsd with rows := upd s.lsd.rows r f } }

/-- t_lim in ns × 10 (R46). -/
def LsdRow.limit (x : LsdRow) : Nat := max (max (x.headFire.toList.foldl max 0 * 10) (x.minFire * 10)) 19841

/-- A new arming forgets the last run: no origin, no high-water mark, every row before its first line start; a lasting encoder fault
ends, and a hold whose cause is over (R32, R33). -/
def State.armLsd (s : State) : State :=
  let rows := s.lsd.rows.map (fun (x : LsdRow) =>
    { x with next := 0, counting := [], overspeed := none, reverseOpen := false, reverseBegun := false, cross := none })
  ({ s with lsd := { s.lsd with origin := none, latchEnabled := false, high := 0, reverse := false, lasting := false, rows := rows } }).encResume

/-- PD8 comes out of reset: the position is zero (R27). -/
def Lsd.zeroed (l : Lsd) : Lsd :=
  { l with count := 0, dir := 0, edges := [], incoming := [], stamps := [], vNum := 0, vDen := 1, stopped := true, zCount := none, accelFrom := 0 }

/-- A power domain leaves reset. -/
def State.release (s : State) (d : Fin 12) : State :=
  { s with
    clk := { s.clk with inReset := s.clk.inReset &&& ~~~(1#12 <<< d.val) }
    lsd := if d = 8 ∧ s.clk.inReset.getLsbD 8 = true then s.lsd.zeroed else s.lsd }

/-! ### SPEED_HIGH (R48) -/

/-- Rate of a row relative to its limit reaches `pct` percent: v / (K × num / den) against 1 / t_lim. -/
def State.rateReaches (s : State) (r : Fin 16) (pct : Nat) : Bool :=
  let v := s.lsd.vel
  let c := s.lsd.cfg
  decide (((pct * v.2 * s.layout.rows[r].k * c.num : Nat) : Int) ≤ v.1 * (c.den * s.lsd.rows[r].limit * 10 : Nat))

/-- The same rate in whole percent. -/
def State.ratePct (s : State) (r : Fin 16) : Nat :=
  let v := s.lsd.vel
  let c := s.lsd.cfg
  ((v.1 * (c.den * s.lsd.rows[r].limit * 10 : Nat)).fdiv (max 1 (v.2 * s.layout.rows[r].k * c.num))).toNat

def State.speedEval (s : State) : State :=
  if !s.lsd.configured || !s.domainUp 8 then s
  else
    let rows := rowsWhere s.assigned
    let now := if rows.any (fun r => s.rateReaches r s.lsd.cfg.speedHighPct) then true
      else if rows.any (fun r => s.rateReaches r (s.lsd.cfg.speedHighPct - 2)) then s.lsd.speedHigh
      else false
    if now = s.lsd.speedHigh then s
    else ({ s with lsd := { s.lsd with speedHigh := now } }).post 0x0244 clsJob
      [(1, b2n now), (4, rows.foldl (fun m r => max m (s.ratePct r)) 0)]

/-! ### Backward motion (R45) -/

/-- The origin of the armed job is latched, so a high-water mark is kept: from the latch the job is RUNNING (18 R443). -/
def State.keepsHigh (s : State) : Bool := (s.job.state == .running || s.job.state == .stopping) && s.lsd.origin.isSome

/-- The range of a reversal begins at each row's last fired line, and takes in the pulses still to come (R45). -/
def State.reverseOpenRow (s : State) (r : Fin 16) : State :=
  let x := s.rows[r]
  let coming := (x.pulses.filter (fun p => !p.emitted)).map (·.line)
  let s1 := s.updLsd r (fun y => { y with reverseOpen := true, reverseBegun := x.lastFired.isSome || !coming.isEmpty })
  match x.lastFired, coming.head? with
  | some a, _ => s1.wasteMark r a (coming.getLast?.getD a) 0x08
  | none, some b => s1.wasteMark r b (coming.getLast?.getD b) 0x08
  | none, none => s1

/-- LSD_REVERSE (R55), with the position and the time of a tick in ns. -/
def State.reverseEvent (s : State) (tick : Nat) : State :=
  s.post 0x0242 clsJob [(8, wrapInt 64 (s.lsd.posAt (ns tick))), (8, wrapInt 64 s.lsd.high), (8, tick)]

/-- Backward motion of an armed job, after the count has moved at a tick. -/
def State.motionEval (s : State) (tick : Nat) : State :=
  if !s.keepsHigh then s
  else if s.lsd.high ≤ s.lsd.count then
    let s1 : State := { s with lsd := { s.lsd with high := s.lsd.count, reverse := false } }
    if s.lsd.reverse then s1.reverseEvent tick else s1
  else if s.lsd.high - s.lsd.count ≤ s.lsd.cfg.backlash ∨ s.lsd.reverse = true then s
  else
    let s1 := ({ s with lsd := { s.lsd with reverse := true } }).reverseEvent tick
    (rowsWhere s1.live).foldl State.reverseOpenRow s1

/-! ### An edge takes effect (R29, R44) -/

/-- Edges kept: 64 for the window, and those a JOB_MARK filter or the acceleration check may look back to (R30, R49). -/
def keepEdges (l : List Edge) (now : Nat) : List Edge := l.take 65 ++ (l.drop 65).takeWhile (fun e => decide (now ≤ e.stamp + 1100000))

/-- The edge update of count and velocity at the edge's tick, and then the evaluation of backward motion. -/
def State.takeEdge (s : State) (e : Edge) : State :=
  let s1 : State := { s with lsd := { s.lsd with
    count := e.count, dir := e.dir, edges := keepEdges (e :: s.lsd.edges) e.stamp, vNum := e.vNum, vDen := e.vDen, stopped := false } }
  (s1.motionEval (s.lsd.cfg.effective e)).speedEval

/-- Every edge whose tick has come takes effect, in order. -/
def State.webSettle (s : State) : State :=
  let due (e : Edge) : Bool := decide (s.lsd.cfg.effective e ≤ s.tick)
  (s.lsd.incoming.takeWhile due).foldl State.takeEdge { s with lsd := { s.lsd with incoming := s.lsd.incoming.dropWhile due } }

end Sys2Proof.Machine
end

