-- ==== Sys2Proof/Machine/ChainOps.lean ====
section
/-! DEFINITION. Shared operations of the chain (15): chain time (R364), enumeration (R360), hops that come up, are lost,
sleep and wake (R374, R377), messages received and forwarded (R358), and beacons (R365 to R368). -/

namespace Sys2Proof

open Machine

def Side.code : Side → Nat
  | .inn => 0 | .out => 1

def BeaconSlot.bytes (b : BeaconSlot) : List Byte :=
  le 1 b.address.val ++ le 1 (maskOf [b.filled, b.latched, b.armed, b.encPending, b.encLasting]) ++ le 2 b.geom.toNat ++ zeroBytes 4 ++
  sle 8 b.pos ++ sle 8 (if b.latched then b.origin else 0)

def Beacon.slot (b : Beacon) (a : Fin 16) : Option BeaconSlot := b.slots.find? (fun x => x.address = a && x.filled)

def Beacon.bytes (b : Beacon) : List Byte :=
  [b.seq, b.lap, b.count] ++ le 1 (b2n b.lineMode + 2 * b2n b.reference) ++ zeroBytes 4 ++ le 8 b.tk ++
  (List.finRange 16).flatMap (fun a => match b.slot a with | some x => x.bytes | none => le 1 a.val ++ zeroBytes 23)

def Beacon.fill (b : Beacon) (x : BeaconSlot) : Beacon := { b with slots := b.slots.filter (fun y => y.address ≠ x.address) ++ [x] }

/-- Two halves of a lap, merged by the head in LINE mode (R374). -/
def Beacon.merge (a b : Beacon) : Beacon := (b.slots.filter (·.filled)).foldl Beacon.fill a

/-- Two samples may be compared at a reference beacon. -/
def BeaconSlot.usable (x : BeaconSlot) : Bool := !x.encPending && !x.encLasting

end Sys2Proof

namespace Sys2Proof.Machine

/-! ### Chain time (R364) -/

/-- The offset at a time: it moves toward its target by at most 100 ppm. -/
def Chain.offsetAt (c : Chain) (now : Nat) : Int :=
  let room : Int := ((now - c.slewAt) / (10000 * 2 ^ 32) : Nat)
  if |c.target - c.offset| ≤ room then c.target else if c.offset < c.target then c.offset + room else c.offset - room

/-- Chain time in ns. -/
def State.chainNs (s : State) : Int := s.nowNs + s.chain.offsetAt s.aon

/-- Settle the offset where it has come to, and give it a new target. -/
def State.slewTo (s : State) (target : Int) : State :=
  { s with chain := { s.chain with offset := s.chain.offsetAt s.aon, target := target, slewAt := s.aon } }

/-- The number of the last servo tick before the present chain time (16 R382). -/
def State.tickNow (s : State) (period : Nat) : Nat := s.chainNs.toNat / max 1 period

/-- A step of the offset, only forward: at ENUM_DONE or REJOIN. The servo ticks stepped over do not fall. -/
def State.stepTime (s : State) : State :=
  let s1 : State := { s with chain := { s.chain with offset := max (s.chain.offsetAt s.aon) s.chain.target, slewAt := s.aon } }
  if s1.chain.offset = s.chain.offsetAt s.aon then s1
  else { s1 with mot := { s1.mot with tick := max s1.mot.tick (s1.tickNow s1.mot.period) } }

/-- The always-on time of a chain time. -/
def State.chainMoment (s : State) (t : Nat) : Nat := min s.aon (((t : Int) - s.chain.offsetAt s.aon).toNat * 2 ^ 32)

/-! ### Modes -/

/-- RING 0, LINE 1, SPLIT 2 (R374, R375). -/
def State.chainMode (s : State) : Nat :=
  if s.chain.hopIn.down && s.chain.hopOut.down then 2 else if s.lineMode then 1 else 0

def State.postMode (s : State) : State :=
  s.post 0x02D2 clsJob [(1, s.chainMode), (1, b2n s.chain.hopIn.down + 2 * b2n s.chain.hopOut.down)]

/-- Every hop is UP and the chain is in ring mode; a chain of one has no hop (R375, R378). -/
def State.ringUp (s : State) : Bool := s.chain.count == 1 || (s.hopUp .inn && s.hopUp .out && s.chainMode == 0)

/-! ### Enumeration (R360, R361) -/

def serialBytes : List Byte := le 8 Config.serial.toNat

/-- CHN_ENUM: 0 DONE, 1 TOO_LONG, 2 NO_RETURN, 3 TWO_HEADS, 4 NO_HEAD, 5 MISMATCH. -/
def State.enumEvent (s : State) (cause : Nat) (o : Option Origin) (st : Status) : State :=
  s.result o 0x02D0 clsJob st 0
    [(1, cause), (1, s.ownAddress.toNat), (4, s.chain.count), (1, s.chain.epoch.toNat)]

/-- The head sends the token. -/
def State.sendEnum (s : State) (second : Bool) : State :=
  let s1 := { s with chain := { s.chain with address := some 0, enumWait := some (s.aon, second) } }
  s1.chainTo .out { mtype := 0x01, src := 0, dst := 0xFF, body := 1 :: serialBytes }

/-- A module that rejoins asks its neighbours (R363). -/
def State.askRejoin (s : State) (side : Side) : State :=
  s.chainTo side { mtype := 0x03, src := s.ownAddress, dst := 0xFE, body := serialBytes }

/-- A module that comes out of reset takes the address its neighbours agree on (R363). -/
def State.rejoinDecide (s : State) : State :=
  match s.chain.rejoinIn, s.chain.rejoinOut with
  | some (a, n, e), some (b, _, _) =>
    let own := (a.toNat + 1) % max 1 n.toNat
    let s1 := { s with chain := { s.chain with rejoining := false, rejoinIn := none, rejoinOut := none } }
    if b.toNat = (a.toNat + 2) % max 1 n.toNat ∧ (own ≠ 0 ∨ s.chain.strap = true) ∧ own < 16 then
      ({ s1 with chain := { s1.chain with address := some (Fin.ofNat 16 own), count := n.toNat, epoch := e } }).stepTime
    else s1.enumEvent 5 none .ok
  | _, _ => s

/-! ### Hops -/

def Lane.alignedTo (n : Lane) : Bool := decide (16 ≤ n.agree)

/-- ALIGN's condition for a chain lane: polarity only (R355). -/
def State.chainAligned (s : State) (l : Fin 34) : Bool :=
  (s.lane l).alignedTo && (match (s.lane l).echo with | some (_, inv) => !inv | none => false)

/-- CHN_HOP. -/
def State.hopEvent (s : State) (side : Side) (cause : BitVec 4) (cls : Nat) : State :=
  s.post 0x02D1 clsJob [(1, side.code), (1, cause.toNat), (1, cls)]

def hopDetect (side : Side) (o : FaultOutcome) : Detect :=
  { fclass := fcChain, source := srcChn, unit := BitVec.ofNat 8 side.code, outcome := o }

/-- A CHAIN_LINK WAKE is answered once every hop is UP (17 R440). -/
def State.linkAnswer (s : State) : State :=
  match s.chain.linkReq with
  | some (o, _) =>
    if s.chain.count = 1 ∨ (s.hopUp .inn && s.hopUp .out) = true then ({ s with chain := { s.chain with linkReq := none } }).resolve o .ok 0 [] else s
  | none => s

/-- A chain lane becomes ACTIVE: a DOWN hop returns, and enumeration or a rejoin begins (R360, R363, R374). -/
def State.hopActive (s : State) (side : Side) : State :=
  let was := (s.hop side).down
  let s1 := s.setHop side { s.hop side with down := false, retrain := none }
  let s2 := if was then s1.postMode else s1
  let up := s2.hopUp .inn && s2.hopUp .out
  let s3 := if up && s2.chain.upSince.isNone then { s2 with chain := { s2.chain with upSince := some s2.aon } } else s2
  let s4 := if s3.chain.rejoining then s3.askRejoin side
            else if up && s3.chain.strap && s3.chain.address.isNone then s3.sendEnum false else s3
  s4.linkAnswer

/-- The peer at an address is in reset (R373): with `peer_stop` the module's own job stops (R372). -/
def State.peerInReset (s : State) (a : Fin 16) (cause : Byte) : State :=
  let s1 := { s with chain := { s.chain with inReset := s.chain.inReset ||| (1#16 <<< a.val) } }
  ((s1.post 0x02D5 clsJob [(1, a.val), (1, 0), (4, cause.toNat)]).detect
    { fclass := fcChain, source := srcPeer, unit := BitVec.ofNat 8 a.val, peer := BitVec.ofNat 8 a.val, outcome := .reported,
      stops := s.chain.peerStop }).txnPeerReset a

/-- The partner's direction of a hop sleeps. A downstream direction sleeps only on CHAIN_LINK SLEEP, which acts on every module: this
one's own follows (R377, 17 R440). -/
def State.peerSleeps (s : State) (side : Side) : State :=
  let s1 := s.setHop side { s.hop side with rxSleep := true }
  if side = .inn ∧ s.armed = false then s1.sleepDir .out else s1

/-- The partner's direction of a hop wakes: this module's directions wake with it (R377, R378). -/
def State.peerWakes (s : State) (side : Side) : State :=
  (((s.setHop side { s.hop side with rxSleep := false }).wakeDir side).wakeDir .out).linkAnswer

/-- A hop is lost (R374): both directions retrain once from stage 3; what it had to send goes the other way. On a chain of two, both
hops lost within 10 µs show the peer in reset (R373). -/
def State.loseHop (s : State) (side : Side) (cause : BitVec 4) : State :=
  let h := s.hop side
  let waiting := (match h.tx.wait with | some w => [w.2.1] | none => []) ++ h.tx.queue
  let s1 := s.setHop side { h with retrain := some (s.aon, cause), lostAt := some s.aon, tx := { h.tx with wait := none, queue := [] } }
  let s2 := (s1.updLane (hopLane side) (fun n => { n with
    state := .retrain, stage := 3, since := s.aon, lossMask := cause, partnerReady := false
    sync := if cause &&& 5 = 0 then n.sync else BlockSync.init })).hopEvent side cause clsPending
  let s3 := waiting.foldl (fun s m => s.chainTo (otherSide side) m) ((s2.detect (hopDetect side .pending)).sendTraining (hopLane side) 3)
  match (s.hop (otherSide side)).lostAt, s.chain.address with
  | some t0, some a =>
    if s.chain.count = 2 ∧ s.aon ≤ t0 + us 10 then s3.peerInReset (if a.val = 0 then 1 else 0) 0 else s3
  | _, _ => s3

/-- Wake every direction of this module and start lanes that are OFF (R377, R378). -/
def State.wakeChain (s : State) : State :=
  let wake (s : State) (side : Side) : State :=
    let s1 := s.wakeDir side
    let l := hopLane side
    if (s1.lane l).state == .off || (s1.lane l).state == .sleep then s1.updLane l (fun n => n.begin_ LaneCfg.init s.aon) else s1
  wake (wake s .inn) .out

/-- Boot, or the return of PD11, starts the chain lanes; a module that comes out of a reset rejoins. -/
def State.startChain (s : State) (rejoining : Bool) : State :=
  ({ s with chain := { s.chain with rejoining := rejoining } }).wakeChain

/-! ### Messages received -/

/-- The answer to a received message (R357). -/
def State.ackChain (s : State) (h : ChainHdr) : State := s.laneOut (hopLane h.side) [ctl [0xC3, h.hseq, 0]]

/-- A message of another epoch is dropped (R359). -/
def State.current (s : State) (h : ChainHdr) : Bool := h.epoch == s.chain.epoch

/-- It is for this module alone. -/
def State.forMe (s : State) (h : ChainHdr) : Bool := h.dst == s.ownAddress

/-- Pass a message on in its direction, awake for it (R377), unless it has come back to its sender. -/
def State.passOn (s : State) (h : ChainHdr) (mtype : Byte) (body : List Byte) : State :=
  let src : Byte := BitVec.ofNat 8 h.src.val
  if src == s.ownAddress || s.forMe h then s
  else (s.wakeDir (otherSide h.side)).chainTo (otherSide h.side) { mtype := mtype, src := src, dst := h.dst, body := body }

/-! ### Beacons (R365 to R368) -/

/-- The geometry word of a slot. -/
def WebCfg.geom (c : WebCfg) : BitVec 16 := (crc32c 0 (le 4 c.num ++ le 4 c.den ++ le 2 c.lpi)).truncate 16

def State.ownSlot (s : State) (a : Fin 16) : BeaconSlot :=
  { address := a, filled := true, latched := s.lsd.origin.isSome, armed := s.armed, encPending := !s.lsd.checks.isEmpty,
    encLasting := s.lsd.lasting, geom := s.lsd.cfg.geom, pos := s.chain.samplePos, origin := s.lsd.origin.getD 0 }

/-- The pair differences of a reference beacon (R366). -/
def State.storeRef (s : State) (b : Beacon) (own : BeaconSlot) : State :=
  { s with chain := { s.chain with dTable := Vector.ofFn (fun i : Fin 16 => match b.slot i with
      | some x => if x.address ≠ own.address ∧ x.usable ∧ own.usable then some (own.pos - x.pos) else none
      | none => none) } }

/-- The peers compared with, and how far each deviates (R367). -/
def State.deviations (s : State) (b : Beacon) (own : BeaconSlot) : List (Fin 16 × Int) :=
  (List.finRange 16).filterMap (fun i => match b.slot i, s.chain.dTable[i] with
    | some x, some d => if x.address ≠ own.address ∧ x.encLasting = false then some (i, own.pos - x.pos - d) else none
    | _, _ => none)

/-- ±2 counts. -/
def agrees (d : Int) : Bool := decide (|d| ≤ 131072)

def peerMask (l : List (Fin 16)) : Nat := l.foldl (fun m a => m + 2 ^ a.val) 0

/-- The chain cross-check (R367): it fails when the module disagrees with more than half of its peers, and every lap-1
beacon is the confirmation of a check that waits. -/
def State.crossCheck (s : State) (b : Beacon) (own : BeaconSlot) : State :=
  let devs := s.deviations b own
  let bad := devs.filter (fun e => !agrees e.2)
  let s1 := { s with chain := { s.chain with
    compared := BitVec.ofNat 16 (peerMask (devs.map (·.1)))
    agreed := BitVec.ofNat 16 (peerMask ((devs.filter (fun e => agrees e.2)).map (·.1))) } }
  let failed := decide (devs.length < 2 * bad.length)
  let worst := bad.foldl (fun m e => max m |e.2|) 0
  let ev (s : State) (cls : Nat) : State :=
    s.post 0x02D4 clsJob [(1, b.seq.toNat), (2, peerMask (bad.map (·.1))), (8, wrapInt 64 worst), (1, cls)]
  if devs.isEmpty then s1
  else if s1.lsd.checks.isEmpty then
    if failed then ev (s1.encFail .chain) clsPending else s1
  else if failed then ev (s1.encConfirm false) clsLasting
  else
    let mine := s1.lsd.checks.any (fun p => p.check == .chain)
    let s2 := s1.encConfirm true
    if mine then ev s2 clsTransient else s2

/-- Origins and geometry of latched peers (R368); a difference is reported when it is first seen. -/
def State.geomCheck (s : State) (b : Beacon) (own : BeaconSlot) : State :=
  (List.finRange 16).foldl (fun s i => match b.slot i with
    | none => s
    | some x =>
      if x.address = own.address ∨ (own.latched && x.latched) = false then s
      else
        let dev := match s.chain.dTable[i] with | some d => own.origin - x.origin - d | none => 0
        let o := !agrees dev
        let g := x.geom != own.geom
        let s1 := if o && !s.chain.originBad.getLsbD i.val then s.post 0x02D6 clsJob [(1, i.val), (1, 0), (8, wrapInt 64 dev)] else s
        let s2 := if g && !s.chain.geomBad.getLsbD i.val then s1.post 0x02D6 clsJob [(1, i.val), (1, 1), (8, 0)] else s1
        let m := 1#16 <<< i.val
        { s2 with chain := { s2.chain with
            originBad := if o then s2.chain.originBad ||| m else s2.chain.originBad &&& ~~~m
            geomBad := if g then s2.chain.geomBad ||| m else s2.chain.geomBad &&& ~~~m } }) s

/-- Peers that fill a slot again are in service; a module that has rejoined makes the head refer anew (R363). -/
def State.peersBack (s : State) (b : Beacon) : State :=
  let back := (List.finRange 16).filter (fun i => (b.slot i).isSome && s.chain.inReset.getLsbD i.val)
  { s with chain := { s.chain with
      inReset := s.chain.inReset &&& ~~~(BitVec.ofNat 16 (peerMask back))
      reference := s.chain.reference || (s.chain.strap && !back.isEmpty) } }

/-- A lap-1 beacon is read. -/
def State.readBeacon (s : State) (b : Beacon) : State :=
  let gap := match s.chain.last with | some l => b.seq != l.seq + 1 | none => false
  let s0 := (if s.chain.lossPosted then s.detect { fclass := fcChain, source := srcChn, outcome := .transient } else s).drq 19
  let s1 := (s0.peersBack b)
  let s2 := { s1 with chain := { s1.chain with
    last := some b, lastAt := s.aon, lossPosted := false
    originator := s1.chain.originator && (b.slot 0).isNone
    seqGaps := if gap then satAdd s1.chain.seqGaps 1 else s1.chain.seqGaps
    lastArmed := if b.slots.any (fun x => x.filled && x.armed) then s.aon else s1.chain.lastArmed } }
  match s2.chain.address.bind b.slot with
  | none => s2
  | some own =>
    let s3 := if b.reference then s2.storeRef b own else s2.crossCheck b own
    s3.geomCheck b own

/-- Send a beacon on its lap: downstream, or both ways in LINE mode. It wakes no direction: a downstream one that sleeps
stops the beacons (R377). -/
def State.sendBeacon (s : State) (b : Beacon) : State :=
  let m : ChainMsg := { mtype := 0x10, src := s.ownAddress, dst := 0xFF, body := b.bytes }
  if s.lineMode then (s.chainTo .out m).chainTo .inn m else s.chainTo .out m

/-- The head's lap 0 is back: lap 1 goes out and is read. -/
def State.lapDone (s : State) (b : Beacon) : State :=
  let b1 := { b with lap := 1 }
  ({ s with chain := { s.chain with halfLap := none } }).sendBeacon b1 |>.readBeacon b1

end Sys2Proof.Machine
end

