-- ==== Sys2Proof/Machine/ClkOps.lean ====
section
/-! DEFINITION. Shared operations of clocks and boot: switching a clock domain (21 R524 to R527), clock faults (R529), the
stop of boot (22 R547) and the loss of every domain but PD0 (26 R605, R607). -/

namespace Sys2Proof.Machine

/-- A trim of FIO takes effect once no domain runs on FIO (23 R562). -/
def State.fioTake (s : State) : State :=
  match s.cal.fioNext with
  | some c => if s.clk.domains.toList.any (fun d => d.clock == 2) then s else { s with cal := { s.cal with fioCode := c, fioNext := none } }
  | none => s

/-- A clock domain's switch completes (R524): CLK_SWITCH is posted. -/
def State.setClock (s : State) (d : Fin 13) (clock : Nat) (forced : Bool) : State :=
  let c := s.clk.domains[d]
  let c' : ClkDomain := { c with clock := clock, target := none, gated := false, forced := c.forced || forced,
                                 switches := satAdd c.switches 1 }
  ({ s with clk := { s.clk with domains := s.clk.domains.set d c' } }).fioTake.post 0x0301 clsSystem
    [(1, d.val), (1, c.clock), (1, clock), (1, b2n forced)]

/-- Ask for a switch: it waits for one in progress; to the clock already selected it is nothing (R527). A domain that stays gated
switches no more: it needs a module reset (R526). -/
def State.switchTo (s : State) (d : Fin 13) (clock : Nat) : State :=
  let c := s.clk.domains[d]
  let c' : ClkDomain := match c.target with
    | some _ => { c with waiting := c.waiting ++ [clock] }
    | none => if c.gated || c.clock == clock then c else { c with target := some clock }
  { s with clk := { s.clk with domains := s.clk.domains.set d c' } }

/-- The next switch that waited starts. -/
def State.nextSwitch (s : State) (d : Fin 13) : State :=
  let c := s.clk.domains[d]
  match c.waiting with
  | [] => s
  | w :: r => ({ s with clk := { s.clk with domains := s.clk.domains.set d { c with waiting := r } } }).switchTo d w

/-- Stop a domain's clock with its flops held. -/
def State.gate (s : State) (d : Fin 13) : State :=
  { s with clk := { s.clk with domains := upd s.clk.domains d (fun c => { c with gated := true, target := none }) } }

/-- The clock domain a PLL feeds (R522, R523). -/
def pllDomain : Fin 8 → Fin 13
  | 0 => 2 | 1 => 6 | 2 => 7 | 3 => 4 | 4 => 5 | 5 => 9 | 6 => 8 | 7 => 12

/-- The code of a PLL as a clock (R542). -/
def pllClock (p : Fin 8) : Nat := 3 + p.val

/-- The power domain of a clock domain (R523). -/
def clockPower : Fin 13 → Fin 12
  | 0 => 0 | 1 => 0 | 2 => 1 | 3 => 2 | 4 => 3 | 5 => 4 | 6 => 5 | 7 => 6 | 8 => 7 | 9 => 8 | 10 => 9 | 11 => 10 | 12 => 11

/-- CLK_FAULT (R543). -/
def State.clkFault (s : State) (source : Nat) (domains : List (Fin 13)) (cls forced : Nat) : State :=
  s.post 0x0300 clsFault [(1, source), (2, domains.foldl (fun m d => m + 2 ^ d.val) 0), (1, cls), (4, forced)]

/-- The FSV detection of a clock fault; its unit is the clock's code. -/
def clkDetect (source : Nat) (o : FaultOutcome) (stops : Bool := false) : Detect :=
  { fclass := fcClock, source := srcClk, unit := BitVec.ofNat 8 source, outcome := o, stops := stops }

def State.clkTransient (s : State) (source : Nat) (domains : List (Fin 13)) : State :=
  ((({ s with clk := { s.clk with transients := satAdd s.clk.transients 1 } }).clkFault source domains clsTransient 0).detect
    (clkDetect source .transient))

def State.clkLasting (s : State) (source : Nat) (domains : List (Fin 13)) (o : FaultOutcome) (stops : Bool) : State :=
  ((({ s with clk := { s.clk with lasting := satAdd s.clk.lasting 1 } }).clkFault source domains clsLasting 0).detect
    (clkDetect source o stops))

def State.clkPending (s : State) (source : Nat) (domains : List (Fin 13)) : State :=
  (s.clkFault source domains clsPending 0).detect (clkDetect source .pending)

/-- Boot stops at a row of R547's failure table, counted from 1: the ROM serves the tunnels (22 R547, 25 R595). -/
def State.bootStop (s : State) (cause : Byte) : State :=
  let serve_ (b : Box) : Box := { b with ready := true }
  ({ s with
    boot := { s.boot with stopCause := cause, recovery := true }
    mbx := { s.mbx with boxes := upd (upd s.mbx.boxes 4 serve_) 5 serve_ } }).setAlert 2

/-- Events of a power-down are posted after the next boot (26 R615). -/
def State.lateEvent (s : State) (code : BitVec 16) (cls : Fin 4) (data : List DataField) : State :=
  { s with pwr := { s.pwr with lateEvents := s.pwr.lateEvents ++
    [{ code := code, cls := cls, origin := none, status := 0, time := s.stamp, detail := 0, data := evData data }] } }

/-- Power PD11 down to PD1: only PD0 and what outlives it is left. -/
def State.standbyDown (s : State) : State :=
  let s1 := (s.resetNotice s.clk.lastReset).afterReset
  { s1 with
    mem := []
    pwr := { s1.pwr with powered := 1 }
    clk := { s.clk.held s.clk.lastReset s.aon with
      holdFrom := none, sources := #v[.off, s.clk.sources[1], .off, s.clk.sources[3], .off] } }

end Sys2Proof.Machine
end

