-- ==== Sys2Proof/Machine/Clocks.lean ====
section
/-! DEFINITION. Clocks, crossings and resets (21): CLOCK_STATUS, the events of sources, PLLs and clock domains, the
always-on time, and the reset sources. -/

namespace Sys2Proof.Machine

/-! ### CLOCK_STATUS (R542) -/

def SourceState.code : SourceState → Nat
  | .off => 0 | .starting => 1 | .running => 2 | .failed => 3

def PllState.code : PllState → Nat
  | .off => 0 | .locking => 1 | .locked => 2 | .relocking => 3 | .failed => 4

def ClkDomain.bytes (c : ClkDomain) : List Byte :=
  le 1 c.clock ++ le 1 (maskOf [c.forced, c.target.isSome, c.gated]) ++ le 2 c.switches.toNat

/-- The drops of every crossing, saturating (R540). -/
def Clk.peerDrops (c : Clk) : Nat := min (2 ^ 32 - 1) (c.crossings.toList.foldl (fun n x => n + x.drops.toNat) 0)

def State.clockStatusBytes (s : State) : List Byte :=
  let c := s.clk
  le 8 s.nowNs ++ c.sources.toList.flatMap (fun x => le 1 x.code) ++ zeroBytes 3 ++
  c.plls.toList.flatMap (fun x => le 1 x.code) ++ c.domains.toList.flatMap ClkDomain.bytes ++
  le 4 c.pulseOverflows.toNat ++ le 4 c.peerDrops ++ le 4 c.transients.toNat ++ le 4 c.lasting.toNat ++
  [c.lastReset] ++ zeroBytes 3

def cmdClockStatus : Cmd :=
  { opcode := 0x0840, okLen := fun n => n == 0, run := fun _ s => { state := s, payload := s.clockStatusBytes } }

def execClockStatus (q : Req) (s : State) : Host.Outcome State Fault Refusal := .next (serve cmdClockStatus q s)

/-! ### Crystals (R521) -/

def crystalIndex : Crystal → Fin 5
  | .xa => 2 | .xb => 3

/-- The code of a crystal as a clock: XB is 1; XA feeds only the PLLs and is reported with the first of them. -/
def crystalClock : Crystal → Nat
  | .xa => 3 | .xb => 1

/-- The clock domains a crystal's loss affects (R542's mask). -/
def crystalDomains : Crystal → List (Fin 13)
  | .xa => (List.finRange 8).map pllDomain | .xb => [1]

def State.setSource (s : State) (i : Fin 5) (x : SourceState) : State :=
  { s with clk := { s.clk with sources := s.clk.sources.set i x } }

def State.setRestarted (s : State) (i : Fin 5) (b : Bool) : State :=
  { s with clk := { s.clk with restarted := s.clk.restarted.set i b } }

/-- PLLs that wait for XA begin to lock again (R529). -/
def State.relockAll (s : State) : State :=
  { s with clk := { s.clk with plls := s.clk.plls.map (fun p => if p = .locked then .relocking else p) } }

/-- A crystal's output is released: XB takes CK_TIME over from SIO (R532), XA feeds the PLLs. -/
def State.crystalReleased (s : State) (x : Crystal) : State :=
  match x with
  | .xb => ({ s with clk := { s.clk with onXb := true } }).switchTo 1 1
  | .xa => s.relockAll

def execCrystalStart (x : Crystal) (t : Nat) (s : State) : Host.Outcome State Fault Refusal :=
  let s1 := s.at t
  let i := crystalIndex x
  if s1.clk.sources[i] = .starting then
    let s2 := (s1.setSource i .running).crystalReleased x
    .next (if s2.clk.restarted[i] then (s2.setRestarted i false).clkTransient (crystalClock x) (crystalDomains x) else s2)
  else .next s1

/-- A crystal that misses its limit twice (R521): XA stops a boot in progress; on XB the counter stays on SIO. -/
def State.crystalFailed (s : State) (x : Crystal) : State :=
  match x with
  | .xa =>
    let s1 := (s.setSource 2 .failed).clkLasting (crystalClock x) (crystalDomains x) .detected true
    let s2 := { s1 with clk := { s1.clk with armBlocked := true } }
    if s2.boot.fwReady then s2 else s2.bootStop 2
  | .xb => (s.setSource 3 .failed).clkLasting (crystalClock x) (crystalDomains x) .reported false

def execCrystalStartLimit (x : Crystal) (t : Nat) (s : State) : Host.Outcome State Fault Refusal :=
  let s1 := s.at t
  let i := crystalIndex x
  if s1.clk.sources[i] = .starting then
    .next (if s1.clk.restarted[i] then s1.crystalFailed x
           else (s1.setRestarted i true).clkPending (crystalClock x) (crystalDomains x))
  else .next s1

/-! ### Loss of a clock (R528, R529, R531) -/

/-- LSD holds line starts over any switch of CK_TIM while a job is armed: an encoder fault whose confirmation is pending (R531). -/
def State.timHold (s : State) : State :=
  if s.armed then
    let p : PendingCheck := { check := .clock, pos := s.posNow, time := s.aon, next := s.lsd.rows.toList.map (·.next) }
    let s1 : State := { s with lsd := { s.lsd with hold := true, goodAgain := false, checks := s.lsd.checks ++ [p] } }
    (s1.encEvent p clsPending).detect (encDetect p .pending)
  else s

/-- A domain leaves a PLL that has failed: to FIO, or with its flops held where it has no alternate. -/
def State.leavePll (s : State) (p : Fin 8) : State :=
  let d := pllDomain p
  if s.clk.domains[d].clock = pllClock p then
    let s1 := if p = 5 then s.timHold else s
    if p = 7 then s1.gate d else s1.switchTo d 2
  else s

/-- A PLL is lost: restarted once, lasting the second time. -/
def State.pllLost (s : State) (p : Fin 8) : State :=
  let d := pllDomain p
  match s.clk.plls[p] with
  | .locked =>
    let s1 := s.leavePll p
    ({ s1 with clk := { s1.clk with plls := s1.clk.plls.set p .relocking, pllRetried := s1.clk.pllRetried.set p true } }).clkPending
      (pllClock p) [d]
  | .relocking =>
    ({ s with clk := { s.clk with plls := s.clk.plls.set p .failed, armBlocked := true } }).clkLasting (pllClock p) [d] .detected true
  | _ => s

/-- XA is lost: every PLL-fed domain leaves its PLL and the job stops. -/
def State.xaLost (s : State) : State :=
  if s.clk.sources[(2 : Fin 5)] = .running then
    let s1 := (List.finRange 8).foldl State.leavePll s
    ((((s1.setSource 2 .starting).setRestarted 2 true).relockAll).clkPending 3 ((List.finRange 8).map pllDomain)).wantStop
      3 fcClock s.fsv.nextSeq 0 0
  else if s.clk.sources[(2 : Fin 5)] = .starting && s.clk.restarted[(2 : Fin 5)] then s.crystalFailed .xa
  else s

/-- SIO, XB or FIO is lost: restarted once; the domains that ran on it move. -/
def State.sourceLost (s : State) (i : Fin 5) (clock : Nat) (domains : List (Fin 13)) (move : State → State) : State :=
  if s.clk.sources[i] = .running then (move ((s.setSource i .starting).setRestarted i true)).clkPending clock domains
  else if s.clk.sources[i] = .starting && s.clk.restarted[i] then (s.setSource i .failed).clkLasting clock domains .reported false
  else s

def execClockLoss (src : ClockSource) (t : Nat) (s : State) : Host.Outcome State Fault Refusal :=
  let s1 := s.at t
  match src with
  | .pll n => .next (s1.pllLost n)
  | .xa => .next s1.xaLost
  | .fio => .next (s1.sourceLost 0 2 [] id)
  | .sio => .next (s1.sourceLost 1 0 [0] (fun s => s.switchTo 0 1))
  | .xb => .next (s1.sourceLost 3 1 [1] (fun s => ({ s with clk := { s.clk with onXb := false } }).switchTo 1 0))
  | .pcie => .next (s1.setSource 4 .off)

/-! ### PLLs and switches (R522 to R527) -/

/-- A PLL has been seen locked for 10 µs: its domains switch to it, CK_CHM restarts (R529). -/
def execPllLock (p : Fin 8) (t : Nat) (s : State) : Host.Outcome State Fault Refusal :=
  let s1 := s.at t
  let d := pllDomain p
  let ready := s1.clk.sources[(2 : Fin 5)] = .running && (s1.clk.plls[p] = .locking || s1.clk.plls[p] = .relocking)
  if ready then
    let s2 := { s1 with clk := { s1.clk with plls := s1.clk.plls.set p .locked } }
    let s3 := if p = 7 then { s2 with clk := { s2.clk with domains := upd s2.clk.domains d (fun c =>
        { c with gated := false, clock := pllClock p }) } }
      else s2.switchTo d (pllClock p)
    .next (if s1.clk.pllRetried[p] then
        ({ s3 with clk := { s3.clk with pllRetried := s3.clk.pllRetried.set p false } }).clkTransient (pllClock p) [d]
      else s3)
  else .next s1

/-- CK_TIM is back on PL5: line starts may resume once the confirmation has passed. Where no confirmation is configured, a
web that did not move during the gap is the confirmation (R531). -/
def State.timBack (s : State) (d : Fin 13) : State :=
  if d = 9 ∧ s.clk.domains[(9 : Fin 13)].clock = 8 ∧ s.lsd.hold = true then
    let s1 : State := { s with lsd := { s.lsd with goodAgain := !s.lsd.lineBad } }
    let s2 := match s1.lsd.checks.find? (fun c => c.check == .clock) with
      | some c => if s1.confirmable then s1 else s1.encConfirm (s1.lsd.accepted.1 == c.pos.fdiv 65536)
      | none => s1
    s2.encResume
  else s

def execClockSwitch (d : Fin 13) (t : Nat) (s : State) : Host.Outcome State Fault Refusal :=
  let s1 := s.at t
  match s1.clk.domains[d].target with
  | some c => .next (((s1.setClock d c false).timBack d).nextSwitch d)
  | none => .next s1

/-- The domain's PLL or its reference is being restarted. -/
def Clk.recovering (c : Clk) (d : Fin 13) : Bool :=
  c.restarted.any id || (List.finRange 8).any (fun p => pllDomain p == d && c.pllRetried[p])

/-- The fault of a forced switch is part of the clock fault that caused it (R529); one of another switch is a fault of its own that
the forced switch has repaired (R525). -/
def State.forcedFault (s : State) (d : Fin 13) (clock : Nat) : State :=
  if s.clk.recovering d then (s.clkFault clock [d] clsPending 1).detect { clkDetect clock .consequence with cause := fcClock }
  else (({ s with clk := { s.clk with transients := satAdd s.clk.transients 1 } }).clkFault clock [d] clsTransient 1).detect
    (clkDetect clock .transient)

def execSwitchHandshakeTimeout (d : Fin 13) (t : Nat) (s : State) : Host.Outcome State Fault Refusal :=
  let s1 := s.at t
  let old := s1.clk.domains[d].clock
  match s1.clk.domains[d].target with
  | some c => .next ((((s1.setClock d c true).forcedFault d old).timBack d).nextSwitch d)
  | none => .next s1

/-- Too few edges of the new clock (R526): FIO instead; where FIO is the clock that fails or was the old clock the
domain stays gated, and the job stops. -/
def execNewClockTimeout (d : Fin 13) (t : Nat) (s : State) : Host.Outcome State Fault Refusal :=
  let s1 := s.at t
  let c := s1.clk.domains[d]
  match c.target with
  | none => .next s1
  | some new =>
    if new = 2 ∨ c.clock = 2 ∨ s1.clk.sources[(0 : Fin 5)] ≠ .running then
      let s2 := s1.gate d
      let s3 := { s2 with clk := { s2.clk with armBlocked := true, domains := upd s2.clk.domains d (fun c => { c with forced := true }) } }
      .next (s3.clkLasting new [d] .detected true)
    else .next (((s1.setClock d 2 true).forcedFault d new).nextSwitch d)

/-! ### Always-on time (R532, R533) -/

/-- PD1 measures 32,768 XB cycles in XA cycles of 20 ns and writes the increment. -/
def execXbIncrementUpdate (xaCycles t : Nat) (s : State) : Host.Outcome State Fault Refusal :=
  let s1 := s.at t
  if s1.poweredOn 1 && s1.clk.sources[(2 : Fin 5)] = .running && s1.clk.onXb then
    .next { s1 with clk := { s1.clk with increment := xaCycles * 20 * 2 ^ 32 / 32768 } }
  else .next s1

def execTimeCopyReload (d : Fin 13) (t : Nat) (s : State) : Host.Outcome State Fault Refusal :=
  let s1 := s.at t
  .next { s1 with clk := { s1.clk with copies := s1.clk.copies.set d (max s1.clk.copies[d] s1.aon) } }

/-! ### Crossings (R540, R541) -/

def State.domainInReset (s : State) (d : Fin 13) : Bool := s.clk.inReset.getLsbD (clockPower d).val

def execPeerInReset (d : Fin 13) (drops : Nat) (s : State) : Host.Outcome State Fault Refusal :=
  if s.domainInReset d then
    .next { s with clk := { s.clk with crossings := upd s.clk.crossings d (fun c =>
      { c with peerInReset := true, drops := satAdd c.drops drops }) } }
  else .next s

def execCrossingReady (d : Fin 13) (s : State) : Host.Outcome State Fault Refusal :=
  if s.domainInReset d then .next s
  else .next { s with clk := { s.clk with crossings := upd s.clk.crossings d (fun c => { c with peerInReset := false }) } }

/-! ### Resets (R534 to R537) -/

/-- Power-on: only the flash and the fuses, and what the model keeps for itself, are older (R534, R532). The straps are
sampled once (25 R589, 15 R354). -/
def State.powerOn (s : State) (maddr : BitVec 3) (head : Bool) : State :=
  { State.reset with
    pending := s.pending, free := s.free, wires := s.wires
    boot := { Boot.init with flash := s.boot.flash }
    chain := { Chain.init with strap := head }
    mgt := { Mgt.init with maddr := maddr } }

def execPowerOn (maddr : BitVec 3) (chainHead : Bool) (s : State) : Host.Outcome State Fault Refusal :=
  .next (s.powerOn maddr chainHead)

/-- MGMT_RESET_N: low for 1 µs starts a module reset; the hold lasts until 10 µs after the rise (R534, R536). -/
def execMgmtResetN (level : Bool) (t : Nat) (s : State) : Host.Outcome State Fault Refusal :=
  let s1 := s.at t
  let longEnough := match s1.clk.pinLow with | some t0 => decide (t0 + us 1 ≤ s1.aon) | none => false
  let recognised := s1.clk.wanted.isSome || (s1.clk.holdFrom.isSome && s1.clk.lastReset == 1)
  let s2 := if longEnough && !recognised then { s1 with clk := { s1.clk with wanted := some 1 } } else s1
  if level then
    .next { s2 with clk := { s2.clk with
      pinLow := none
      holdFrom := if s2.clk.holdFrom.isSome && s2.clk.lastReset == 1 then some s2.aon else s2.clk.holdFrom } }
  else .next { s2 with clk := { s2.clk with pinLow := some (s2.clk.pinLow.getD s2.aon) } }

/-- The cause of the module reset that is due: one recognised, or MODULE_RESET's millisecond (17 R435). -/
def State.resetDue (s : State) : Option Byte :=
  match s.clk.wanted with
  | some c => some c
  | none => match s.boot.resetAt with
    | some t0 => if t0 ≤ s.aon then some 2 else none
    | none => none

def execModuleResetSequence (t : Nat) (s : State) : Host.Outcome State Fault Refusal :=
  let s1 := s.at t
  match s1.resetDue with
  | some c => .next (s1.moduleReset c)
  | none => .next s1

/-- PD1 is released on FIO and the boot ROM begins (R536, 22 R545); MGMT_RESET_N also ends a standby (26 R611). -/
def State.startBoot (s : State) : State :=
  { s with
    boot := { s.boot with stage := 1, stopCause := 0, recovery := false }
    clk := { s.clk with
      holdFrom := none, inReset := s.clk.inReset &&& ~~~2#12
      sources := #v[.running, s.clk.sources[1], if s.clk.sources[2] = .off then .starting else s.clk.sources[2],
                    s.clk.sources[3], s.clk.sources[4]] } }

def execResetRelease (t : Nat) (s : State) : Host.Outcome State Fault Refusal :=
  let s1 := s.at t
  match s1.clk.holdFrom with
  | some t0 =>
    let up := s1.poweredOn 1 || (s1.clk.lastReset == 1 && !s1.pwr.criticalHold)
    .next (if t0 + us 10 ≤ s1.aon ∧ s1.clk.pinLow = none ∧ up = true then
        ({ s1 with pwr := { s1.pwr with powered := s1.pwr.powered ||| 2#12 } }).startBoot
      else s1)
  | none => .next s1

/-- A Kettle fault: the restart is the retry; a second within 1 s is lasting and the Thermos core resets the module
(R535). -/
def State.kettleFaulted (s : State) (detail : Nat) : State :=
  let again := match s.boot.kettleAt with | some t0 => decide (s.aon < t0 + sec 1) | none => false
  let d : Detect := { fclass := fcKettle, source := srcKettle, detail := BitVec.ofNat 32 detail,
                      outcome := if again then .detected else .transient }
  if again then { s.detect d with clk := { s.clk with wanted := some 3 } }
  else s.kettleRestart.detect d

def execKettleFault (t : Nat) (s : State) : Host.Outcome State Fault Refusal := .next ((s.at t).kettleFaulted 0)

def execKettleWatchdog (t : Nat) (s : State) : Host.Outcome State Fault Refusal := .next ((s.at t).kettleFaulted 1)

/-- The Thermos core restarts; its registers and the counter are kept (R534). -/
def execThermosWatchdog (t : Nat) (s : State) : Host.Outcome State Fault Refusal := .next (s.at t)

end Sys2Proof.Machine
end

