-- ==== Sys2Proof/Machine/Sha.lean ====
section
/-! DEFINITION. HMAC-SHA-256, the MAC of head accounting (14 R339 names FIPS 198-1; the hash is that of FIPS 180-4). Its constants are
computed from the primes they are roots of. -/

namespace Sys2Proof.Machine

abbrev Word32 := BitVec 32

/-- The first 64 primes, by their distances from 2. -/
def primeSteps : List Nat :=
  [0, 1, 2, 2, 4, 2, 4, 2, 4, 6, 2, 6, 4, 2, 4, 6] ++ [6, 2, 6, 4, 2, 6, 4, 6, 8, 4, 2, 4, 2, 4, 14, 4] ++
  [6, 2, 10, 2, 6, 6, 4, 6, 6, 2, 10, 2, 4, 2, 12, 12] ++ [4, 2, 4, 6, 2, 10, 6, 6, 6, 2, 6, 4, 2, 10, 14, 4]

def primesFrom : Nat → List Nat → List Nat
  | _, [] => []
  | n, d :: r => (n + d) :: primesFrom (n + d) r

/-- The largest number that `r` can become with its lowest `k` bits free and whose power `e` does not exceed `n`. -/
def rootBelow (e n : Nat) : Nat → Nat → Nat
  | 0, r => r
  | k + 1, r => rootBelow e n k (if (r + 2 ^ k) ^ e ≤ n then r + 2 ^ k else r)

/-- The first 32 bits of the fraction of a root of `p`. -/
def rootFraction (e p : Nat) : Word32 := BitVec.ofNat 32 (rootBelow e (p * 2 ^ (32 * e)) 40 0)

/-- The constant of each of the 64 steps: cube roots; and the initial hash: square roots of the first eight. -/
def stepKeys : List Word32 := (primesFrom 2 primeSteps).map (rootFraction 3)
def startHash : List Word32 := ((primesFrom 2 primeSteps).take 8).map (rootFraction 2)

/-- A number of bytes from its big-endian string. -/
def beNat (p : List Byte) : Nat := p.foldl (fun n b => 256 * n + b.toNat) 0

def beBytes (n w : Nat) : List Byte := (le n w).reverse

/-- Three copies of a word, two turned right by `i` and `j` places and a third that `f` makes of it, added without carry. -/
def mixed (x : Word32) (i j : Nat) (f : Word32 → Word32) : Word32 := x.rotateRight i ^^^ (x.rotateRight j ^^^ f x)

/-- Words 16 to 63 of the schedule: `past` holds the words so far, the newest first. -/
def stretch : Nat → List Word32 → List Word32
  | 0, past => past
  | k + 1, past =>
    let at_ (i : Nat) : Word32 := past.getD (i - 1) 0
    stretch k ((mixed (at_ 2) 17 19 (· >>> 10) + at_ 7 + mixed (at_ 15) 7 18 (· >>> 3) + at_ 16) :: past)

/-- The working variables as two shift registers of four words, a to d and e to h. -/
structure Registers8 where
  front : List Word32
  back : List Word32

/-- One step with the sum of its key and its schedule word. -/
def Registers8.step (x : Registers8) (kw : Word32) : Registers8 :=
  match x.front, x.back with
  | [a, b, c, d], [e, f, g, h] =>
    let choose := g ^^^ (e &&& (f ^^^ g))
    let most := (a &&& (b ||| c)) ||| (b &&& c)
    let carry := kw + choose + mixed e 6 11 (·.rotateRight 25) + h
    { front := [carry + most + mixed a 2 13 (·.rotateRight 22), a, b, c], back := [carry + d, e, f, g] }
  | _, _ => x

/-- A block of 64 bytes is taken into the hash. -/
def absorb (hash : List Word32) (block : List Byte) : List Word32 :=
  let first := (List.range 16).map (fun i => BitVec.ofNat 32 (beNat ((block.drop (4 * i)).take 4)))
  let keyed := List.zipWith (· + ·) stepKeys (stretch 48 first.reverse).reverse
  let out := keyed.foldl Registers8.step { front := hash.take 4, back := hash.drop 4 }
  List.zipWith (· + ·) hash (out.front ++ out.back)

def absorbAll : Nat → List Byte → List Word32 → List Word32
  | 0, _, hash => hash
  | k + 1, p, hash => absorbAll k (p.drop 64) (absorb hash (p.take 64))

def sha256 (p : List Byte) : List Byte :=
  let message := p ++ [0x80] ++ zeroBytes ((119 - p.length % 64) % 64) ++ beBytes 8 (8 * p.length)
  (absorbAll (message.length / 64) message startHash).flatMap (fun w => beBytes 4 w.toNat)

/-- HMAC-SHA-256 with a key of at most 64 bytes. -/
def hmac (key p : List Byte) : List Byte :=
  let keyed (pad : Byte) (text : List Byte) : List Byte := sha256 ((padTo 64 key).map (· ^^^ pad) ++ text)
  keyed 0x5C (keyed 0x36 p)

end Sys2Proof.Machine
end

