-- ==== Sys2Proof/Machine/HacOps.lean ====
section
/-! DEFINITION. Shared operations of head accounting (14): authentication of a head (R341), its usage record (R344, R345)
and commits (R346). -/

namespace Sys2Proof.Machine

def headConn (h : Fin 64) : Fin 4 := ⟨h.val / 16, by omega⟩
/-- The head's number within its connector. -/
def headPos (h : Fin 64) : Byte := BitVec.ofNat 8 (h.val % 16)
def headAt (c : Fin 4) (i : Nat) : Fin 64 := ⟨16 * c.val + i % 16, by omega⟩

def AuthState.code : AuthState → Nat
  | .absent => 0 | .notRun => 1 | .passed => 2 | .failed => 3 | .noKey => 4

/-- Bytes 0 to 31 of a usage record (R344). -/
def Usage.head (u : Usage) : List Byte :=
  le 8 u.serial.toNat ++ le 4 u.recSeq.toNat ++ le 4 u.res.toNat ++ le 8 u.lines.toNat ++ le 8 u.drops.toNat

def Usage.bytes (u : Usage) : List Byte := u.head ++ padTo 32 u.umac

def Usage.parse (p : List Byte) : Usage :=
  { serial := BitVec.ofNat 64 (fld p 0 8), recSeq := BitVec.ofNat 32 (fld p 8 4), res := BitVec.ofNat 32 (fld p 12 4), lines := BitVec.ofNat 64 (fld p 16 8),
    drops := BitVec.ofNat 64 (fld p 24 8), umac := (p.drop 32).take 32 }

/-- The key slot bound to a head's type, with the head's own key (R339). -/
def State.headKey (s : State) (h : Fin 64) : Option (Fin 8 × List Byte) :=
  let x := s.hac.heads[h]
  (List.finRange 8).findSome? (fun k => match s.hac.keys[k] with
    | some (ty, key) => if ty = x.headType then some (k, hmac key (le 8 x.serial.toNat)) else none
    | none => none)

/-- "PLNA", "PLNU", "PLNS". -/
def plna : List Byte := [0x50, 0x4C, 0x4E, 0x41]
def plnu : List Byte := [0x50, 0x4C, 0x4E, 0x55]
def plns : List Byte := [0x50, 0x4C, 0x4E, 0x53]

/-- HAC_AUTH. -/
def State.authEvent (s : State) (h : Fin 64) (cls : Nat) : State :=
  s.post 0x02C1 clsJob [(1, (headConn h).val), (1, h.val % 16), (1, (s.hac.heads[h]).auth.code), (1, cls)]

/-- The FSV detection of an accounting fault of a head. -/
def hacDetect (h : Fin 64) (o : FaultOutcome) : Detect :=
  { fclass := fcHmc, source := srcHac, unit := BitVec.ofNat 8 h.val, row := BitVec.ofNat 8 (headRow h).val, outcome := o }

/-- Send an AUTH_CHALLENGE with a fresh nonce. -/
def State.challenge (s : State) (h : Fin 64) (slot : Fin 8) : State :=
  let nonce := le 16 (Config.nonce s.free).toNat
  let s1 := s.draw.updHead h (fun x => { x with nonce := nonce, keySlot := some slot })
  s1.hmcAsk (headConn h) { mtype := 0x40, origin := none,
                           payload := [headPos h, BitVec.ofNat 8 slot.val, 0, 0] ++ nonce ++ le 8 Config.serial.toNat }

/-- Authenticate a present head (R341). -/
def State.startAuth (s : State) (h : Fin 64) : State :=
  match s.headKey h with
  | none => (s.updHead h (fun x => { x with auth := .noKey, keySlot := none })).authEvent h clsLasting
  | some (slot, _) => (s.updHead h (fun x => { x with retried := false })).challenge h slot

/-- Read a head's usage record. -/
def State.readUsage (s : State) (h : Fin 64) : State :=
  s.hmcAsk (headConn h) { mtype := 0x41, payload := [headPos h], origin := none }

/-- A retry has succeeded. -/
def State.authRecovered (s : State) (h : Fin 64) : State :=
  if (s.hac.heads[h]).retried then
    ((s.updHead h (fun x => { x with retried := false, transients := satAdd x.transients 1 })).authEvent h clsTransient).detect (hacDetect h .transient)
  else s

/-- A record's `umac` and `head_serial` hold (R345). -/
def State.usageValid (s : State) (h : Fin 64) (u : Usage) : Bool :=
  match s.headKey h with
  | none => false
  | some (_, key) => u.serial == (s.hac.heads[h]).serial && u.umac == hmac key (plnu ++ u.head)

/-! ### Commits (R346) -/

/-- HAC_USAGE: outcome 0 STORED, 1 STALE, 2 lasting failure, 3 counts lost. -/
def State.usageEv (s : State) (h : Fin 64) (o : Option Origin) (outcome recSeq lines drops : Nat) : Ev :=
  { code := 0x02C2, cls := clsJob, origin := o, time := s.stamp, detail := 0
    status := if o.isSome ∧ outcome = 2 then Status.lastingFault.code else 0
    data := evData [(1, h.val), (1, outcome), (4, recSeq), (4, min lines 0xFFFFFFFF), (4, min drops 0xFFFFFFFF)] }

/-- The record of the commit under way: the base and the counts it carries. -/
def State.commitRecord (s : State) (h : Fin 64) : Usage :=
  let x := s.hac.heads[h]
  let c := x.commit.getD (0, 0)
  let u : Usage := { serial := x.serial, recSeq := x.base.recSeq + 1, res := 0, lines := x.base.lines + c.1, drops := x.base.drops + c.2, umac := [] }
  match s.headKey h with
  | none => u
  | some (_, key) => { u with umac := hmac key (plnu ++ u.head) }

def State.sendCommit (s : State) (h : Fin 64) : State :=
  s.hmcAsk (headConn h) { mtype := 0x42, payload := [headPos h, 0, 0, 0] ++ (s.commitRecord h).bytes, origin := none }

/-- A USAGE_COMMIT_NOW whose last commit has come to its end is answered. -/
def State.settle (s : State) (o : Origin) (e : Ev) : State :=
  if (List.finRange 64).any (fun h => (s.hac.heads[h]).commitFor.contains o) then s
  else
    let bad := s.hac.requests.any (fun r => r.1 = o && r.2)
    ({ s with hac := { s.hac with requests := s.hac.requests.filter (fun r => r.1 ≠ o) } }).resolve o
      (if bad then .lastingFault else .ok) 0 (e.record 0 false)

/-- A commit ends: reported to each request that waits for it. -/
def State.commitDone (s : State) (h : Fin 64) (outcome recSeq lines drops : Nat) : State :=
  let origins := (s.hac.heads[h]).commitFor
  let s1 := s.updHead h (fun x => { x with commit := none, commitFor := [], commitRetried := false })
  if origins.isEmpty then s1.postEv (s1.usageEv h none outcome recSeq lines drops)
  else origins.foldl (fun s o =>
    let e := s.usageEv h (some o) outcome recSeq lines drops
    let s2 := { s with hac := { s.hac with requests := s.hac.requests.map (fun (r : Origin × Bool) => if r.1 = o then (o, r.2 || outcome == 2) else r) } }
    (s2.postEv e).settle o e) s1

/-- A commit fails for good; its counts stay pending. -/
def State.commitFailed (s : State) (h : Fin 64) : State :=
  let x := s.hac.heads[h]
  let c := x.commit.getD (0, 0)
  ((s.updHead h (fun x => { x with failCommits := satAdd x.failCommits 1 })).detect (hacDetect h .reported)).commitDone h 2
    x.base.recSeq.toNat c.1.toNat c.2.toNat

/-- Start a commit of a head, or join the one under way. -/
def State.startCommit (s : State) (h : Fin 64) (o : Option Origin) : State :=
  let x := s.hac.heads[h]
  let s1 := s.updHead h (fun x => { x with commitFor := x.commitFor ++ o.toList })
  if x.commit.isSome then s1
  else
    let s2 := s1.updHead h (fun x => { x with commit := some (x.pendLines, x.pendDrops), commitRetried := false })
    if s.hlk.conns[headConn h].hmcLasting then s2.commitFailed h else s2.sendCommit h

/-- Heads whose usage is committed: PASSED ones, unless the policy is OFF (R342). -/
def State.commitHeads (s : State) (conns : Fin 4 → Bool) : List (Fin 64) :=
  (List.finRange 64).filter (fun h => s.hac.policy != 0 && conns (headConn h) && (s.hac.heads[h]).auth == .passed)

def State.commitAll (s : State) : State := (s.commitHeads (fun _ => true)).foldl (fun s h => s.startCommit h none) s

/-- Commit again at once, with the counts that are pending now (R346). -/
def State.recommit (s : State) (h : Fin 64) : State :=
  (s.updHead h (fun x => { x with commit := some (x.pendLines, x.pendDrops) })).sendCommit h

/-- A commit draws WRITE_FAIL, an invalid `ack_mac` or a request the head driver does not know: once more, then it has failed. -/
def State.commitFault (s : State) (h : Fin 64) : State :=
  if (s.hac.heads[h]).commitRetried then s.commitFailed h
  else ((s.updHead h (fun x => { x with commitRetried := true })).detect (hacDetect h .pending)).sendCommit h

/-! ### Authentication and the record that follows it (R341, R345) -/

/-- A head fails for good; a commit that waited for its record fails with it. -/
def State.authFailed (s : State) (h : Fin 64) : State :=
  let s1 := ((s.updHead h (fun x => { x with auth := .failed, retried := false })).authEvent h clsLasting).detect (hacDetect h .reported)
  if (s.hac.heads[h]).commit.isSome then s1.commitFailed h else s1

/-- A challenge or a record fails: once more, then the head is FAILED (R341, R345). -/
def State.authFault (s : State) (h : Fin 64) (again : State → State) : State :=
  if (s.hac.heads[h]).retried then s.authFailed h
  else again (((s.updHead h (fun x => { x with retried := true })).authEvent h clsPending).detect (hacDetect h .pending))

/-- An AUTH_CHALLENGE answer. -/
def State.authAnswer (s : State) (h : Fin 64) (p : List Byte) : State :=
  let x := s.hac.heads[h]
  match s.headKey h with
  | none => s
  | some (slot, key) =>
    let mac := hmac key (plna ++ x.nonce ++ le 8 Config.serial.toNat ++ le 8 x.serial.toNat ++ le 2 x.headType.toNat)
    if fld p 4 8 = x.serial.toNat ∧ (p.drop 12).take 32 = mac then
      ((s.updHead h (fun x => { x with auth := .passed })).authRecovered h).readUsage h
    else s.authFault h (fun s => s.challenge h slot)

/-- A usage record that a head returns becomes its base where it holds; one that fails is read once more (R345). A commit that
the head's record was behind goes on from the new base (R346). -/
def State.takeBase (s : State) (h : Fin 64) (u : Usage) : State :=
  if s.usageValid h u then
    let s1 := (s.updHead h (fun x => { x with base := u })).authRecovered h
    let sent := s.hlk.conns[headConn h].hmcQueue.any (fun q => q.mtype == 0x42 && q.payload.getD 0 0 == headPos h)
    if (s.hac.heads[h]).commit.isSome && !sent then s1.recommit h else s1
  else s.authFault h (fun s => s.readUsage h)

/-- A USAGE_READ answer. -/
def State.usageAnswer (s : State) (h : Fin 64) (p : List Byte) : State := s.takeBase h (Usage.parse (p.drop 4))

/-- A USAGE_COMMIT answer. -/
def State.commitAnswer (s : State) (h : Fin 64) (p : List Byte) : State :=
  let x := s.hac.heads[h]
  let stored := Usage.parse (p.drop 4)
  let c := x.commit.getD (0, 0)
  let ack := match s.headKey h with
    | some (_, key) => (p.drop 68).take 32 == hmac key (plns ++ stored.head)
    | none => false
  if x.commit.isNone then s
  else if fld p 1 1 = 0 ∧ stored = s.commitRecord h ∧ ack = true then
    let s1 := if x.commitRetried then s.detect (hacDetect h .transient) else s
    (s1.updHead h (fun x => { x with base := stored, pendLines := x.pendLines - c.1, pendDrops := x.pendDrops - c.2 })).commitDone h 0
      stored.recSeq.toNat c.1.toNat c.2.toNat
  else if fld p 1 1 = 1 then
    (s.postEv (s.usageEv h x.commitFor.head? 1 stored.recSeq.toNat c.1.toNat c.2.toNat)).takeBase h stored
  else s.commitFault h

/-! ### Requests without an answer (13 R322) -/

/-- A request that will never be answered. -/
def State.hmcDrop (s : State) (c : Fin 4) (q : HmcReq) : State :=
  let h := headAt c (fld q.payload 0 1)
  match q.origin with
  | some o => s.resolve o .lastingFault 0 []
  | none => if (q.mtype = 0x42 ∨ q.mtype = 0x41) ∧ (s.hac.heads[h]).commit.isSome = true then s.commitFailed h else s

/-- The connectors that lose power with a domain: what waits for them on the HMC, a WAKE and a SLEEP end there. -/
def State.linkLost (s : State) (d : Fin 12) : State :=
  let gone (c : Fin 4) : Bool := let p : Fin 12 := if c.val < 2 then 9 else 10; dependsOn p d && s.poweredOn p
  ((List.finRange 4).filter gone).foldl (fun s c =>
    let s1 := s.updConn c (fun n => { n with hmcQueue := [], hmcWait := none })
    let s2 := (s.hlk.conns[c].hmcQueue).foldl (fun s q => s.hmcDrop c q) s1
    (s2.entryOver c .lastingFault).wakeDone c .lastingFault 0 0 linkNone 0) s

/-- The counts of a head that are lost are reported (R347). -/
def State.countsLost (s : State) (h : Fin 64) (lines drops : BitVec 64) : State :=
  s.postEv (s.usageEv h none 3 (s.hac.heads[h]).base.recSeq.toNat lines.toNat drops.toNat)

/-- A head has fired a line: `lines` and `drops` of its 4,096 nozzles (R343); the row line's bytes hold two codes each. -/
def dropsIn (mask : BitVec 16) (bytes : List Byte) : Nat :=
  bytes.foldl (fun n b => n + b2n (mask.getLsbD (b.toNat % 16)) + b2n (mask.getLsbD (b.toNat / 16))) 0

def State.countUsage (s : State) (r : Fin 16) (bytes : List Byte) : State :=
  (List.finRange 4).foldl (fun s i =>
    let h : Fin 64 := ⟨4 * r.val + i.val, by omega⟩
    if (s.hac.heads[h]).present then
      s.updHead h (fun x => { x with
        pendLines := x.pendLines + 1
        pendDrops := x.pendDrops + BitVec.ofNat 64 (dropsIn s.hac.countMask ((bytes.drop (2048 * i.val)).take 2048)) })
    else s) s

end Sys2Proof.Machine
end

