-- ==== Sys2Proof/Machine/JobOps.lean ====
section
/-! DEFINITION. Shared operations of the job (18): its events, the end of an arming (R634), how rows reach their stop line
(R461 to R463), the actions of a job stop (R464), and the retirement of a generation (08 R191). -/

namespace Sys2Proof.Machine

/-! ### Codes (R443, R466) -/

def JobState.code : JobState → Nat
  | .idle => 0 | .defined => 1 | .arming => 2 | .armed => 3 | .started => 4 | .running => 5 | .stopping => 6 | .stopped => 7

def reasonEnd : Byte := 1
def reasonCommand : Byte := 2
def reasonFault : Byte := 3
def reasonPeer : Byte := 4
def reasonManagement : Byte := 5
def reasonArmFailed : Byte := 6

def jobData (state : JobState) (reason : Byte) (st : Status) (detail : Nat) (o : Option Origin) : List DataField :=
  [(1, state.code), (1, reason.toNat), (1, st.code.toNat), (4, detail),
   (1, match o with | some o => o.mb.val | none => 0xFF), (2, match o with | some o => o.tag.toNat | none => 0)]

/-- JOB_STATE as the result of a request, or of none. -/
def State.jobResult (s : State) (o : Option Origin) (state : JobState) (reason : Byte) (st : Status) (detail : Nat) : State :=
  s.result o 0x0200 clsJob st detail (jobData state reason st detail o)

/-- JOB_STATE on a change of state that no request waits for. -/
def State.jobEvent (s : State) (o : Option Origin) (st : Status) : State :=
  s.postEv { code := 0x0200, cls := clsJob, origin := o, status := st.code, time := s.stamp, detail := 0,
             data := evData (jobData s.job.state s.job.reason st 0 o) }

def State.setJob (s : State) (state : JobState) : State := { s with job := { s.job with state := state } }

/-- JOB_BOUNDARY: kind 0 PAUSE, 1 RESUME, 2 STOP, 3 DONE. -/
def State.boundary (s : State) (r : Fin 16) (kind line : Nat) : State :=
  s.post 0x0201 clsJob [(1, r.val), (1, kind), (8, line), (8, s.planeLine r line)]

def State.updJobRow (s : State) (r : Fin 16) (f : JobRow → JobRow) : State :=
  { s with job := { s.job with rows := upd s.job.rows r f } }

/-- The STOP record of the fault log: outcome is the reason (24 R582, R583). -/
def State.logStop (s : State) (reason fclass : Byte) : State :=
  s.logWrite { LogRec.zero with time := s.stamp, rtype := 2, fclass := fclass, outcome := reason, unit := 0xFF, row := 0xFF }

/-! ### The end of an arming (R454, R634) -/

/-- A capture accepted for the job keeps waiting for the next arming. -/
def Hamper.captureWaits (h : Hamper) : Hamper := { h with capture := h.capture.map (fun c => { c with active := false }) }

def State.armEnd (s : State) (reason : Byte) (st : Status) (detail : Nat) (fclass : Byte := 0) : State :=
  let arm := s.job.armReq
  let stops := s.job.stopReqs
  let s1 := { s with job := { s.job with
    state := .stopped, reason := reason, detail := BitVec.ofNat 32 detail, armStep := 0, armReq := none, stopReqs := []
    stopPending := false, stopAt := none, stoppedAt := s.aon }, hamper := s.hamper.captureWaits }
  let s2 := (s1.logStop reason fclass).jobResult arm .stopped reason st detail
  stops.foldl (fun s o => s.jobResult (some o) .stopped reason .ok 0) s2

def State.armFail (s : State) (st : Status) (detail : Nat) : State := s.armEnd reasonArmFailed st detail

/-! ### Generations (08 R191) -/

/-- The older generation retires: its tables and the names of its bindings go. -/
def State.retireOlder (s : State) : State :=
  match s.txn.older with
  | none => s
  | some g =>
    let s1 := { s with txn := { s.txn with older := none, eff := Vector.replicate 16 none } }
    (s.autoFree s1).post 0x0271 clsJob [(4, g.number.toNat), (4, s.txn.newest.number.toNat)]

/-- Checkpoints at or below the pour point are freed (07 R163). -/
def State.freeCkpts (s : State) (r : Fin 16) : State :=
  let f := s.lsd.rows[r].next
  s.updRow r (fun x => { x with ckpts := x.ckpts.filter (fun c => decide (f + 15 < c.line + 64)) })

/-- Every affected row has passed its effective line and holds no checkpoint below it. -/
def State.retireCheck (s : State) : State :=
  if s.txn.older.isSome && (List.finRange 16).all (fun r => match s.txn.eff[r] with
      | some e => decide (e < s.lsd.rows[r].next) && !s.rows[r].ckpts.any (fun c => decide (c.line < e))
      | none => true) then s.retireOlder
  else s

/-! ### Replay reports (07 R171) -/

/-- SPC_REPLAY_LATE, once per replay. -/
def State.replayLate (s : State) (r : Fin 16) : State :=
  match s.rows[r].replay with
  | some p => match p.late with
    | some (a, b, n) =>
      (s.updRow r (fun x => { x with replay := some { p with late := none } })).post 0x0251 clsJob
        [(1, r.val), (8, p.q), (8, a), (8, b), (4, n)]
    | none => s
  | none => s

/-! ### The actions of a job stop (R464) -/

/-- Expansion of a row ends: ring, checkpoints and buffer are discarded; the strobes already out are still judged. -/
def State.endRow (s : State) (r : Fin 16) : State :=
  (s.replayLate r).updRow r (fun x => { x.emptied with
    pulses := x.pulses.filter (·.emitted), strobePending := x.strobePending, lastFire := x.lastFire })

/-- The checking blocks between jobs: nothing held, no injection. -/
def Chk.idle (c : Chk) : Chk :=
  { c with cvus := Chk.init.cvus, ctxs := c.ctxs.map UnitCtx.idle, opinions := [], injections := [], tookOver := [] }

def State.jobStopped (s : State) (reason : Byte) (st : Status) (detail : Nat) (fclass : Byte) : State :=
  let s1 := (List.finRange 16).foldl State.endRow s.webSettle
  let s2 := { s1 with chk := s1.chk.idle }
  let s3 := s2.armConns.foldl (fun s c => s.queueFlush c 1) s2
  let s4 := s3.retireOlder.retireBindings
  let s5 := s4.commitAll.endCapture 1
  let s6 := s5.clearPanic
  let stops := s6.job.stopReqs
  let s7 := { s6 with job := { s6.job with
    state := .stopped, reason := reason, detail := BitVec.ofNat 32 detail, stopReqs := [], armReq := none
    stopPending := false, stopAt := none, pauseAt := none, resumeAt := none, stoppedAt := s6.aon } }
  let s8 := s7.logStop reason fclass
  if stops.isEmpty then s8.jobResult none .stopped reason st detail
  else stops.foldl (fun s o => s.jobResult (some o) .stopped reason st detail) s8

/-! ### Rows reach their stop line or their end (R461 to R463) -/

/-- The first row that stops or is done takes a running job to STOPPING. -/
def State.toStopping (s : State) : State :=
  if s.job.state == .running then ((s.setJob .stopping).jobEvent none .ok) else s

/-- The fired lines of an incomplete panel instance are waste-marked (R462). -/
def State.incomplete (s : State) (r : Fin 16) (e : Nat) : State :=
  match s.rows[r].lastFired with
  | none => s
  | some n =>
    match instanceAt s.panels 0 0 (s.planeLine r n) with
    | none => s
    | some i =>
      if s.planeLine r e < i.start + i.panel.length then s.wasteMark r (s.effLine r i.start) n 0x0E else s

def State.rowStop (s : State) (r : Fin 16) (e : Nat) : State :=
  ((((s.updJobRow r (fun j => { j with stopped := true })).toStopping).boundary r 2 e).incomplete r e).panicEval

/-- A row has reached its stop line: the fate of the line before it has been reported. -/
def State.atStop (s : State) (r : Fin 16) : Option Nat :=
  if s.live r then
    match s.job.rows[r].stopLine with
    | some e => if e = 0 ∨ s.fateReported r (e - 1) = true then some e else none
    | none => none
  else none

def State.stopCheck (s : State) (r : Fin 16) : State :=
  match s.atStop r with
  | some e => s.rowStop r e
  | none => s

/-- A row's last line has had its fate reported. -/
def State.atEnd (s : State) (r : Fin 16) : Option Nat :=
  if s.live r then
    match s.rowLines r with
    | some 0 => none
    | some (m + 1) => if s.fateReported r m then some m else none
    | none => none
  else none

def State.rowIsDone (s : State) (r : Fin 16) (m : Nat) : State :=
  (((s.updJobRow r (fun j => { j with done := true })).toStopping).boundary r 3 m).panicEval

/-- Status of JOB_STATE for a stop. -/
def stopStatus (reason : Byte) : Status := if reason = reasonFault ∨ reason = reasonPeer then .lastingFault else .ok

/-- A NOW stop (R461, R465). In ARMING it ends the arming, in ARMED and STARTED the job at once; a second one keeps the
first one's reason. -/
def State.stopNow (s : State) (reason : Byte) (detail : Nat := 0) (fclass : Byte := 0) : State :=
  match s.job.state with
  | .arming =>
    s.armEnd reason (if reason = reasonFault ∨ reason = reasonPeer then .lastingFault else .badState) detail fclass
  | .armed | .started => s.jobStopped reason (stopStatus reason) detail fclass
  | .running | .stopping =>
    let rows := Vector.ofFn (fun r : Fin 16 =>
      let j := s.job.rows[r]
      if s.live r then { j with stopLine := some s.lsd.rows[r].next } else j)
    let first := !(s.job.stopPending && s.job.stopAt.isNone)
    let s1 := { s with job := { s.job with
      rows := rows, stopPending := true, stopAt := none
      stopReason := if first then reason else s.job.stopReason
      stopClass := if first then fclass else s.job.stopClass
      detail := if first then BitVec.ofNat 32 detail else s.job.detail } }
    (List.finRange 16).foldl State.stopCheck s1
  | _ => s

/-- A stop by the management port. -/
def State.stopManagement (s : State) (o : Option Origin) : State :=
  ({ s with job := { s.job with stopReqs := s.job.stopReqs ++ o.toList } }).stopNow reasonManagement

end Sys2Proof.Machine
end

