-- ==== Sys2Proof/Machine/Faults.lean ====
section
/-! DEFINITION. The fault supervisor at work (24): detections (R577 to R583), fault stops (R580, 18 R465), waste ranges and the
WASTE output (R585, R586), and the commands that read the log (17 R441, R442). -/

namespace Sys2Proof.Machine

/-- FSV takes the oldest item that waits for it; poured lines that its decision withholds are called back. -/
def execFaultDetection (t : Nat) (s : State) : Host.Outcome State Fault Refusal :=
  let s1 := s.at t
  match s1.fsv.inbox with
  | [] => .next s1
  | i :: rest => .next ((List.finRange 16).foldl State.withholdPoured (({ s1 with fsv := { s1.fsv with inbox := rest } }).fsvItem i))

/-- FSV_STOP, the chain's FAULT with the stop flag, and what the host and the board see of a fault stop (R580). -/
def State.announceStop (s : State) (w : StopWanted) : State :=
  let s1 := s.post 0x0322 clsFault [(1, w.reason.toNat), (1, w.fclass.toNat), (4, w.seq)]
  ((s1.chainBroadcast 0x30 ([s.ownAddress, w.fclass, 1] ++ le 8 s.nowNs)).setGlobalFault 2).setAlert 4

def execFaultStop (t : Nat) (s : State) : Host.Outcome State Fault Refusal :=
  let s1 := s.at t
  match s1.fsv.stopWanted with
  | none => .next s1
  | some w =>
    let s2 := { s1 with fsv := { s1.fsv with stopWanted := none } }
    .next (if s2.armed then (s2.announceStop w).stopNow w.reason 0 w.fclass else s2)

def execWasteRangeClose (t : Nat) (s : State) : Host.Outcome State Fault Refusal := .next (s.at t).closePassed

/-- 1 ms after P − O last left an open range WASTE falls, unless it stands for cause POWER (R586). -/
def execWasteHoldEnd (t : Nat) (s : State) : Host.Outcome State Fault Refusal :=
  let s1 := (s.at t).wasteTrack
  match s1.fsv.leftAt with
  | none => .next s1
  | some l =>
    .next (if l + ms 1 ≤ s1.aon ∧ s1.fsv.inside = false ∧ s1.fsv.power = false then
      { s1 with fsv := { s1.fsv with waste := false, leftAt := none } } else s1)

/-! ### The fault log (17 R441, R442) -/

/-- Sequence numbers of the oldest and the newest record kept. -/
def Fsv.oldest (f : Fsv) : Nat := f.nextSeq - f.log.length
def Fsv.newest (f : Fsv) : Nat := if f.log.isEmpty then 2 ^ 64 - 1 else f.nextSeq - 1

def cmdLogStatus : Cmd :=
  { opcode := 0x0800, okLen := fun n => n == 0
    run := fun _ s =>
      { state := s
        payload := le 8 s.fsv.oldest ++ le 8 s.fsv.newest ++ le 4 logCapacity ++ le 4 s.fsv.lost.toNat ++ le 8 s.nowNs } }

def execLogStatus (q : Req) (s : State) : Host.Outcome State Fault Refusal := .next (serve cmdLogStatus q s)

def cmdLogRead : Cmd :=
  { opcode := 0x0801, okLen := fun n => n == 24
    run := fun q s =>
      let p := q.payload
      let count := fld p 8 4
      let dst := fld p 16 8
      checks s [(count == 0 || decide ((if dst = 0 then 3 else 65536) < count) || !zeros p 12 4 || dst % 64 != 0, .badParam),
                (dst != 0 && !inZone dst (64 * count), .windowFault),
                (s.fsv.log.isEmpty || decide (s.fsv.newest < fld p 0 8), .empty)] fun _ =>
        let first := max (fld p 0 8) s.fsv.oldest
        let recs := (s.fsv.log.drop (first - s.fsv.oldest)).take count
        let bytes := recs.flatMap LogRec.bytes
        let head := le 8 first ++ le 4 recs.length ++ zeroBytes 4
        if dst = 0 then { state := s, payload := head ++ bytes }
        else { state := s.memWrite dst bytes, payload := head } }

def execLogRead (q : Req) (s : State) : Host.Outcome State Fault Refusal := .next (serve cmdLogRead q s)

end Sys2Proof.Machine
end

