-- ==== Sys2Proof/Machine/Flags.lean ====
section
/-! DEFINITION. The status words of BAR0 as their fields make them: HOST_STATUS (19 R473), MB_STATUS (17 R415), a channel's STATUS
and CTRL (19 R482), Q_CTRL and Q_STATUS (19 R489), WIN_LOCK, LAST_FAULT and WIN_PERM (19 R480). -/

namespace Sys2Proof.Machine

/-- A word of fields: bit position and value. -/
def fields (l : List (Nat × Nat)) : Nat := l.foldl (fun w f => w + f.2 * 2 ^ f.1) 0

/-- The Kettle firmware serves its mailboxes (19 R473). -/
def State.fwServes (s : State) : Bool := s.boot.fwReady && !s.boot.kettleDown

/-- HOST_STATUS: fw_ready, gen, width, locked, panic. -/
def State.hostStatus (s : State) : Nat :=
  fields [(0, b2n s.fwServes), (1, s.hif.gen.toNat), (4, s.hif.width.toNat), (9, b2n s.hif.locked), (10, b2n s.miu.panicSince.isSome)]

/-- A started request of the mailbox has no final reply yet. -/
def Box.busy (b : Box) : Bool := b.outstanding.any (fun x => x.owed && !x.muted)

/-- MB_STATUS: ready, host_reset, busy, held, overrun. -/
def Box.statusWord (b : Box) : Nat :=
  fields [(0, b2n b.ready), (1, b2n b.hostReset), (2, b2n b.busy), (3, b2n (!b.held.isEmpty)), (4, b2n b.overrun)]

def ChanState.code : ChanState → Nat
  | .idle => 0 | .active => 1 | .waitCq => 2

/-- STATUS of a channel: state, last_status, drq_overflow, go_ignored. -/
def Chan.statusWord (c : Chan) : Nat :=
  fields [(0, c.state.code), (8, c.lastStatus.toNat), (16, b2n c.drqOverflow), (17, b2n c.goIgnored)]

/-- CTRL as it reads: src_dev, dst_dev, ns, cq; `go`, `abort` and reserved bits read zero. -/
def Chan.ctrlWord (c : Chan) : Nat := (c.ctrl &&& 0x003F0700#32).toNat

/-- Q_CTRL: enable, irq_en, ns, coal_count, coal_us. -/
def Que.ctrlWord (q : Que) : Nat :=
  fields [(0, b2n q.enable), (1, b2n q.irqEn), (2, b2n q.ns), (8, q.coalCount.toNat), (16, q.coalUs.toNat)]

/-- Ring size in records. -/
def Que.size (q : Que) : Nat := 2 ^ q.log2Size.toNat

/-- Records in the ring: indices count modulo twice the size (19 R490). -/
def Que.used (q : Que) : Nat := (q.tail.toNat + 2 * q.size - q.head.toNat) % (2 * q.size)

/-- Q_STATUS: enabled, full, cfg_error, head_error. -/
def Que.statusWord (q : Que) : Nat :=
  fields [(0, b2n q.enable), (1, b2n (q.used == q.size)), (2, b2n q.cfgError), (3, b2n q.headError)]

/-- WIN_LOCK: locked, entries in use. -/
def Hif.winLock (h : Hif) : Nat := fields [(0, b2n h.locked), (4, (h.windows.toList.filter (·.valid)).length)]

/-- LAST_FAULT: address and kind. -/
def Hif.lastFault (h : Hif) : Nat := h.lastAddr.toNat + h.lastKind.toNat * 2 ^ 62

/-- WIN_PERM: read, write, valid. -/
def Window.perm (w : Window) : Nat := maskOf [w.read, w.write, w.valid]

end Sys2Proof.Machine
end

