-- ==== Sys2Proof/Machine/Power.lean ====
section
/-! DEFINITION. Power, domains and thermal (26): the two commands, sequencing, supply faults and temperature. -/

namespace Sys2Proof.Machine

/-! ### Commands (R613, R614) -/

/-- The highest level over all groups. -/
def Pwr.tstate (p : Pwr) : Nat := p.levels.toList.foldl max 0

def Pwr.throttled (p : Pwr) : Bool := decide (2 ≤ p.tstate)

/-- A sensor's reading, or 0x8000 when it is excluded. -/
def Pwr.tempField (p : Pwr) (i : Fin 20) : Nat := if p.excluded[i] then 0x8000 else wrapInt 16 p.temps[i]

def State.powerStatusBytes (s : State) : List Byte :=
  let p := s.pwr
  le 4 p.vinMv ++ le 4 (Config.inputCurrent s.free).toNat ++ le 4 (Config.inputPower s.free).toNat ++ le 2 p.powered.toNat ++
  le 2 p.railFaults.toNat ++ le 1 p.tstate ++ le 1 (maskOf [p.throttled, decide (p.vinMv < 35000)]) ++ zeroBytes 2 ++
  (List.finRange 20).flatMap (fun i => le 2 (p.tempField i)) ++ le 4 p.transients.toNat ++ le 4 p.lasting.toNat ++ zeroBytes 4 ++
  le 8 s.nowNs

/-- Input current and power are measured when they are read: free values. -/
def cmdPowerStatus : Cmd :=
  { opcode := 0x0020, okLen := fun n => n == 0, run := fun _ s => { state := s.draw, payload := s.powerStatusBytes } }

def execPowerStatus (q : Req) (s : State) : Host.Outcome State Fault Refusal := .next (serve cmdPowerStatus q s)

/-- A value outside a range. -/
def outside (v lo hi : Nat) : Bool := decide (v < lo ∨ hi < v)

/-- The plate's throttle threshold is fixed at 65 °C (R611). -/
def cmdThermalConfig : Cmd :=
  { opcode := 0x0021, okLen := fun n => n == 8
    run := fun q s =>
      let p := q.payload
      let dw := fld p 0 1
      let dt := fld p 1 1
      let mw := fld p 2 1
      let mt := fld p 3 1
      let pw := fld p 4 1
      checks s [(outside dw 70 100 || outside dt 75 105 || outside mw 60 90 || outside mt 65 92 || outside pw 30 64 ||
                 !zeros p 5 3 || decide (dt < dw ∨ mt < mw), .badParam)] fun _ =>
        { state := { s with pwr := { s.pwr with dieWarn := dw, dieThrottle := dt, dramWarn := mw, dramThrottle := mt, plateWarn := pw } } } }

def execThermalConfig (q : Req) (s : State) : Host.Outcome State Fault Refusal := .next (serve cmdThermalConfig q s)

/-! ### Rail faults (R606, R607) -/

def causeCode : RailCause → Nat
  | .uv => 0 | .ov => 1 | .oc => 2 | .vinUv => 3 | .vinOv => 4

def railData (d : Fin 12) (cause cls mv : Nat) : List DataField := [(1, d.val), (1, cause), (1, cls), (4, mv)]

def railDetect (d : Fin 12) (o : FaultOutcome) (stops : Bool) : Detect :=
  { fclass := fcRail, source := srcPwr, unit := BitVec.ofNat 8 d.val, outcome := o, stops := stops }

/-- A second fault of a domain within 10 s of its repower. -/
def State.railAgain (s : State) (d : Fin 12) : Bool :=
  match s.pwr.repowered[d] with | some t0 => decide (s.aon < t0 + sec 10) | none => false

/-- Record a rail fault: flags, alert, the counters. -/
def State.railMark (s : State) (d : Fin 12) (lasting : Bool) : State :=
  let b := 1#12 <<< d.val
  ({ s with pwr := { s.pwr with
      railFaults := s.pwr.railFaults ||| b, railSince := s.pwr.railSince ||| b
      off := if lasting then s.pwr.off ||| b else s.pwr.off
      lasting := if lasting then satAdd s.pwr.lasting 1 else s.pwr.lasting } }).setAlert 8

/-- When the domains that go down with `d` come up again: none for a lasting fault. -/
def State.planRepower (s : State) (d : Fin 12) (due : Option Nat) : State :=
  { s with pwr := { s.pwr with repowerAt := Vector.ofFn (fun e : Fin 12 =>
      if dependsOn e d && (e == d || s.poweredOn e) then due else s.pwr.repowerAt[e]) } }

/-- A fault of PD1, or of VIN: WASTE for an armed job, strobes idle, every domain but PD0 down; the module boots again
after its repower, or stands by when the fault is lasting. -/
def State.mainRail (s : State) (cause : RailCause) (delay : Nat) : State :=
  let again := s.railAgain 1
  let s1 := if s.armed then s.wastePower else s
  let s2 := (s1.railMark 1 again).standbyDown
  let s3 := s2.lateEvent 0x0330 clsFault (railData 1 (causeCode cause) (if again then clsLasting else clsPending) s.pwr.vinMv)
  if again then
    ({ s3 with pwr := { s3.pwr with off := s3.pwr.off ||| 2#12, repowerAt := Vector.replicate 12 none } }).setAlert 2
  else { s3 with pwr := { s3.pwr with repowerAt := (Vector.replicate 12 none).set 1 (some (s3.aon + delay)) } }

/-- A domain of the print path is lost while a job is armed (01 R11): WASTE for cause POWER, a fault stop, and no row fires a further
line. -/
def State.armedLoss (s : State) (seq : Nat) : State :=
  if s.armed then s.wastePower.wantStop 3 fcRail seq 0xFFFF 0 else s

/-- A fault of PD2 to PD11. -/
def State.sideRail (s : State) (d : Fin 12) (cause : RailCause) : State :=
  let again := s.railAgain d
  let s2 := (s.planRepower d (if again then none else some (s.aon + ms 1))).railMark d again
  let s3 := ((s2.linkLost d).powerDown d).post 0x0330 clsFault (railData d (causeCode cause) (if again then clsLasting else clsPending) s.pwr.vinMv)
  let s4 := s3.detect (railDetect d (if !again then .pending else if 3 ≤ d.val then .detected else .reported) (again && decide (3 ≤ d.val)))
  if 3 ≤ d.val then s4.armedLoss s4.fsv.nextSeq else s4

def State.railFault (s : State) (d : Fin 12) (cause : RailCause) : State :=
  if s.poweredOn d then
    if d = 0 then s.powerOn s.mgt.maddr s.chain.strap
    else if d = 1 then s.mainRail cause (ms 10)
    else s.sideRail d cause
  else s

def execRailFault (d : Fin 12) (cause : RailCause) (t : Nat) (s : State) : Host.Outcome State Fault Refusal :=
  .next ((s.at t).railFault d cause)

/-- VIN as it stands: since when it has stood at 35.0 V or more. -/
def State.vinSeen (s : State) (mv : Nat) : State :=
  { s with pwr := { s.pwr with vinMv := mv, vinSince := if mv < 35000 then none else some (s.pwr.vinSince.getD s.aon) } }

/-- VIN leaves its range (R602, R606): a rail fault of PD1, repowered only once VIN has stood at 35.0 V for 100 ms. -/
def execVinFault (mv t : Nat) (s : State) : Host.Outcome State Fault Refusal :=
  let s1 := s.at t
  let s2 := s1.vinSeen mv
  if s2.poweredOn 1 && (decide (mv < 33000) || decide (78000 < mv)) then
    .next (({ s2 with pwr := { s2.pwr with vinLow := true, vinSince := none } }).mainRail (if mv < 33000 then .vinUv else .vinOv) 0)
  else .next s2

/-! ### The power-good pins (R609): released, that is true, when good -/

def State.pgoodAon (s : State) : Bool := s.poweredOn 0

/-- Every domain the firmware has powered is in regulation, and `fw_ready` is set. -/
def State.pgoodMain (s : State) : Bool :=
  s.fwServes && ([4, 5, 7, 8, 9, 10, 11] : List (Fin 12)).all s.poweredOn && (s.chk.shadowOff || s.poweredOn 6)

/-! ### Sequencing (R604, R605) -/

/-- A domain comes up: power good, clamps and reset released. PD1 starts boot (22 R545). -/
def State.powerUp (s : State) (d : Fin 12) : State :=
  let b := 1#12 <<< d.val
  let s1 := ({ s with pwr := { s.pwr with powered := s.pwr.powered ||| b } }).release d
  if d = 1 then s1.startBoot else if d = 11 ∧ s.boot.fwReady = true then s1.startChain true else s1

/-- The order in which the Thermos core, the boot ROM and the firmware power the domains (R604). -/
def bootOrder : List (Fin 12) := [1, 2, 3, 4, 7, 8, 11, 5, 6, 9, 10]

/-- The boot stage from which a domain is powered (22 R545). -/
def bootStageOf (d : Fin 12) : Nat := if d.val < 2 then 0 else if d.val < 4 then 3 else 10

/-- A domain's turn: while the module boots, its stage has come and the domains before it are up, switched off for good, or waiting
for their repower; PD6 is passed over while the shadow is off. PD1 follows PD0 at power-on; from a standby it comes back by a wake, MGMT_RESET_N or its repower. -/
def State.powerTurn (s : State) (d : Fin 12) : Bool :=
  if d = 1 then s.boot.stage == 0
  else s.boot.fwReady || decide (bootStageOf d ≤ s.boot.stage.toNat) && s.boot.stopCause == 0 &&
    (bootOrder.takeWhile (· != d)).all (fun e => s.poweredOn e || (e == 6 && s.chk.shadowOff) || s.pwr.off.getLsbD e.val ||
      s.pwr.repowerAt[e].isSome)

/-- The domain a domain needs is up, and none of it is already. -/
def State.mayPower (s : State) (d : Fin 12) : Bool := d != 0 && !s.poweredOn d && s.poweredOn (parentOf d)

def execDomainPowerUp (d : Fin 12) (good : Bool) (t : Nat) (s : State) : Host.Outcome State Fault Refusal :=
  let s1 := s.at t
  if s1.mayPower d && s1.powerTurn d && !s1.pwr.off.getLsbD d.val && !(d == 6 && s1.chk.shadowOff) then
    .next (if good then s1.powerUp d
           else if d = 1 then s1.mainRail .uv (ms 10) else s1.sideRail d .uv)
  else .next s1

def execDomainPowerDown (d : Fin 12) (t : Nat) (s : State) : Host.Outcome State Fault Refusal :=
  let s1 := s.at t
  if d = 0 ∨ s1.poweredOn d = false then .next s1
  else
    let byDesign := d == 2 || (d == 6 && s1.chk.shadowOff)
    .next (if d = 1 then (if s1.armed then s1.wastePower else s1).standbyDown
           else if byDesign then s1.powerDown d else ((s1.linkLost d).powerDown d).armedLoss s1.fsv.nextSeq)

/-- VIN permits a repower of PD1: after a VIN fault, 100 ms at 35.0 V. -/
def State.vinReady (s : State) : Bool :=
  !s.pwr.vinLow || (match s.pwr.vinSince with | some t0 => decide (t0 + ms 100 ≤ s.aon) | none => false)

/-- The repower is the retry: it makes the fault transient for the domain. -/
def State.repowered (s : State) (d : Fin 12) : State :=
  let s1 := (s.powerUp d)
  let s2 := { s1 with pwr := { s1.pwr with
    repowerAt := s1.pwr.repowerAt.set d none, repowered := s1.pwr.repowered.set d (some s1.aon)
    transients := satAdd s1.pwr.transients 1, vinLow := if d = 1 then false else s1.pwr.vinLow } }
  let s3 := s2.detect (railDetect d .transient false)
  if d = 1 then
    ({ s3 with clk := { s3.clk with lastReset := 4 } }).lateEvent 0x0330 clsFault (railData d 0 clsTransient s.pwr.vinMv)
  else s3.post 0x0330 clsFault (railData d 0 clsTransient s.pwr.vinMv)

def execRepower (d : Fin 12) (mv t : Nat) (s : State) : Host.Outcome State Fault Refusal :=
  let s1 := (s.at t).vinSeen mv
  match s1.pwr.repowerAt[d] with
  | some due =>
    .next (if due ≤ s1.aon ∧ s1.mayPower d = true ∧ (d ≠ 1 ∨ s1.vinReady = true) then s1.repowered d else s1)
  | none => .next s1

/-! ### Temperature (R610, R611) -/

/-- The groups: die, DRAM, converter, plate, by their sensors. -/
def groupSensors : Fin 4 → List (Fin 20)
  | 0 => [0, 1, 2, 3, 4, 5, 6, 7]
  | 1 => [8, 9, 10, 11, 12, 13, 14, 15]
  | 2 => [16, 17]
  | 3 => [18, 19]

def groupOf (i : Fin 20) : Fin 4 := if i.val < 8 then 0 else if i.val < 16 then 1 else if i.val < 18 then 2 else 3

/-- WARN, THROTTLE, CRITICAL of a group in °C. -/
def Pwr.thresholds (p : Pwr) : Fin 4 → Nat × Nat × Nat
  | 0 => (p.dieWarn, p.dieThrottle, 110)
  | 1 => (p.dramWarn, p.dramThrottle, 95)
  | 2 => (110, 115, 125)
  | 3 => (p.plateWarn, 65, 70)

/-- A reading that R610 retries: out of −40 °C to 150 °C, or more than 20 °C from the mean of the group's others. -/
def Pwr.badReading (p : Pwr) (temps : List Int) (i : Fin 20) : Bool :=
  let v := temps.getD i.val 0
  let others := ((groupSensors (groupOf i)).filter (fun j => j ≠ i && !p.excluded[j])).map (fun j => temps.getD j.val 0)
  let n : Int := others.length
  let sum := others.foldl (· + ·) 0
  decide (v < -640 ∨ 2400 < v) || (decide (0 < n) && decide (320 * n < |v * n - sum|))

/-- One sensor's sample. -/
def State.sampleSensor (temps : List Int) (s : State) (i : Fin 20) : State :=
  let p := s.pwr
  let d : Detect := { fclass := fcThermal, source := srcPwr, unit := BitVec.ofNat 8 i.val, outcome := .pending }
  if p.excluded[i] then s
  else if p.badReading temps i then
    if p.suspect[i] then
      ({ s with pwr := { p with excluded := p.excluded.set i true, suspect := p.suspect.set i false,
                                lasting := satAdd p.lasting 1 } }).detect { d with outcome := .reported }
    else ({ s with pwr := { p with suspect := p.suspect.set i true } }).detect d
  else
    let s1 := { s with pwr := { p with temps := p.temps.set i (temps.getD i.val 0), suspect := p.suspect.set i false } }
    if p.suspect[i] then
      ({ s1 with pwr := { s1.pwr with transients := satAdd p.transients 1 } }).detect { d with outcome := .transient }
    else s1

/-- A group's hottest sensor; none when all are excluded. -/
def Pwr.hottest (p : Pwr) (g : Fin 4) : Option (Fin 20 × Int) :=
  ((groupSensors g).filter (fun i => !p.excluded[i])).foldl (fun m i => match m with
    | none => some (i, p.temps[i])
    | some (j, v) => if v < p.temps[i] then some (i, p.temps[i]) else some (j, v)) none

/-- A group's level: a level is entered at its threshold and left 5 °C below it. -/
def Pwr.levelOf (p : Pwr) (g : Fin 4) : Nat :=
  match p.hottest g with
  | none => 3
  | some (_, v) =>
    let (w, th, c) := p.thresholds g
    let old := p.levels[g]
    let at_ (l th : Nat) : Bool := decide ((th : Int) * 16 ≤ v) || (decide (l ≤ old) && decide (((th : Int) - 5) * 16 < v))
    if at_ 3 c then 3 else if at_ 2 th then 2 else if at_ 1 w then 1 else 0

/-- A group's level changes: PWR_THERMAL, and `thermal` on the way up. -/
def State.groupLevel (s : State) (g : Fin 4) : State :=
  let l := s.pwr.levelOf g
  let old := s.pwr.levels[g]
  let (i, v) := (s.pwr.hottest g).getD (0, 0)
  if l = old then s
  else
    let s1 := ({ s with pwr := { s.pwr with levels := s.pwr.levels.set g l } }).post 0x0331 clsSystem
      [(1, g.val), (1, i.val), (1, max l old), (2, wrapInt 16 v)]
    if old < l then (s1.setGlobalFault 6).setAlert 6 else s1

/-- FSV's fault stop of an armed job, with waste cause POWER. -/
def State.criticalStop (s : State) : State :=
  if s.armed then
    (s.wastePower.announceStop { reason := reasonFault, fclass := fcThermal, seq := s.fsv.nextSeq, rows := 0, first := 0 }).stopNow reasonFault 0
      fcThermal
  else s

/-- Every group is below its WARN threshold (R611). -/
def Pwr.cool (p : Pwr) : Bool :=
  (List.finRange 4).all (fun g => match p.hottest g with
    | none => false
    | some (_, v) => decide (v < ((p.thresholds g).1 : Int) * 16))

/-- CRITICAL: fault stop with waste cause POWER, then PD11 to PD1 down; standby until cooled (R611). The events of the
group are posted after the next boot (R615). -/
def State.criticalDown (s : State) : State :=
  if s.pwr.tstate = 3 ∧ s.poweredOn 1 = true then
    let s2 := s.criticalStop.standbyDown
    { s2 with pwr := { s2.pwr with criticalHold := true, lateEvents := s2.pwr.lateEvents ++ s.mbx.outbox.filter (fun e => e.code == 0x0331) } }
  else if s.pwr.cool then { s with pwr := { s.pwr with criticalHold := false } }
  else s

def execTemperatureSample (temps : List Int) (t : Nat) (s : State) : Host.Outcome State Fault Refusal :=
  let s1 := (List.finRange 20).foldl (State.sampleSensor temps) (s.at t)
  .next ((List.finRange 4).foldl State.groupLevel s1).criticalDown

end Sys2Proof.Machine
end

