-- ==== Sys2Proof/Machine/Codec.lean ====
section
/-! DEFINITION. The codec units (10): CODEC_CONFIG, CODEC_STATUS and CODEC_CHECK (R253 to R255), and the compressors
(R249, R252). -/

namespace Sys2Proof.Machine

/-! ### Commands -/

def cmdCodecConfig : Cmd :=
  { opcode := 0x0130, okLen := fun n => n == 8
    run := fun q s =>
      let cap := fld q.payload 0 2
      checks s [(cap == 0 || decide (256 < cap) || !zeros q.payload 2 6, .badParam), (s.hamper.stagings.any (·.raw), .badState)] fun _ =>
        { state := { s with codec := { s.codec with depthCap := cap } } } }

def execCodecConfig (q : Req) (s : State) : Host.Outcome State Fault Refusal := .next (serve cmdCodecConfig q s)

def State.codecStatus (s : State) : List Byte :=
  let c := s.codec
  le 2 c.primary.toNat ++ le 2 c.shadow.toNat ++ le 1 c.comp.toNat ++ [0] ++ le 2 c.depthCap ++ le 4 c.decTransient.toNat ++
  le 4 c.decLasting.toNat ++ le 4 c.damaged.toNat ++ le 4 c.compTransient.toNat ++ le 4 c.compLasting.toNat ++ zeroBytes 4 ++
  le 8 c.compIn.toNat ++ le 8 s.nowNs

def cmdCodecStatus : Cmd := { opcode := 0x0131, okLen := fun n => n == 0, run := fun _ s => { state := s, payload := s.codecStatus } }

def execCodecStatus (q : Req) (s : State) : Host.Outcome State Fault Refusal := .next (serve cmdCodecStatus q s)

def cmdCodecCheck : Cmd :=
  { opcode := 0x0132, okLen := fun n => n == 16
    run := fun q s =>
      let p := q.payload
      let c : CodecCheck := { origin := q.origin, src := fld p 0 8, length := fld p 8 4, codes := fld p 12 1 == 1 }
      checks s [(decide (c.length < 32) || decide (1 < fld p 12 1) || !zeros p 13 3, .badParam),
                (!inZone c.src c.length, .windowFault)] fun _ =>
        { state := { s with codec := { s.codec with checks := s.codec.checks ++ [c] } }, status := some .accepted } }

def execCodecCheck (q : Req) (s : State) : Host.Outcome State Fault Refusal := .next (serve cmdCodecCheck q s)

/-- CDX_CHECK_DONE: status, error code, block index, stream bytes, raw bytes, blocks. -/
def State.checkResult (s : State) (c : CodecCheck) : State :=
  match readStream true c.codes none (s.memRead c.src c.length) with
  | .error e => s.result (some c.origin) 0x0292 clsJob .badParam (streamDetail e)
      [(1, Status.badParam.code.toNat), (4, e.1.toNat), (4, e.2), (8, 0), (8, 0), (4, 0)]
  | .ok t => s.result (some c.origin) 0x0292 clsJob .ok 0
      [(1, 0), (4, 0), (4, 0), (8, streamBytes t.blocks), (8, rawBytes c.codes t.w t.h), (4, t.blocks.length)]

/-- The oldest check is done; checks wait while the module is throttled (26 R611). -/
def execCdxCheckDone (t : Nat) (s : State) : Host.Outcome State Fault Refusal :=
  let s1 := s.at t
  match s1.codec.checks with
  | [] => .next s1
  | c :: rest =>
    .next (if s1.pwr.throttled then s1 else ({ s1 with codec := { s1.codec with checks := rest } }).checkResult c)

/-! ### Faults (R246, R252, R256) -/

/-- CDX_FAULT: unit kind, unit, class, error code, tile, band, block. -/
def State.cdxFault (s : State) (kind unit cls err : Nat) (tile band block : Nat) : State :=
  s.post 0x0290 clsJob [(1, kind), (1, unit), (1, cls), (4, err), (4, tile), (4, band), (4, block)]

/-- The FSV detection of a codec fault; units count primary, shadow, compressors. -/
def codecDetect (kind unit : Nat) (o : FaultOutcome) (stops : Bool := false) : Detect :=
  { fclass := fcCodec, source := srcCdx, unit := BitVec.ofNat 8 (16 * kind + unit), outcome := o, stops := stops }

/-! ### Compressors (R249, R252) -/

/-- The next block for a compressor: one that starts afresh, else the next of the oldest raw tile. -/
def Codec.nextBlock (c : Codec) : Option (CompBlock × Codec) :=
  match c.afresh with
  | b :: r => some ({ tile := b.1, blk := b.2, again := false }, { c with afresh := r })
  | [] =>
    (c.works.find? (fun w => w.next < blockCount w.w w.h)).map (fun w =>
      ({ tile := w.tile, blk := w.next, again := false },
       { c with works := c.works.map (fun x => if x.tile = w.tile then { x with next := x.next + 1 } else x) }))

def Codec.freeComp (c : Codec) : Option (Fin 8) := (List.finRange 8).find? (fun u => c.comp.getLsbD u.val && (c.comps[u]).isNone)

/-- Blocks go to the lowest-numbered free compressors; `n` bounds how many. -/
def Codec.handOut : Nat → Codec → Codec
  | 0, c => c
  | n + 1, c => match c.freeComp, c.nextBlock with
    | some u, some (b, c1) => Codec.handOut n { c1 with comps := c1.comps.set u (some b) }
    | _, _ => c

/-- Raw staging waits while the module is throttled (26 R611). -/
def State.feedCompressors (s : State) : State := if s.pwr.throttled then s else { s with codec := s.codec.handOut 8 }

/-- A tile's raw blocks go to the compressors. -/
def State.startRaw (s : State) (tile : Nat) (codes : Bool) (w h : Nat) : State :=
  ({ s with codec := { s.codec with
    works := s.codec.works ++ [RawWork.mk tile codes w h 0 0] } }).feedCompressors

/-- Nothing of a tile is under way any more. -/
def State.endRaw (s : State) (tile : Nat) : State :=
  let c := s.codec
  { s with codec := { c with works := c.works.filter (fun w => w.tile ≠ tile), afresh := c.afresh.filter (fun b => b.1 ≠ tile),
                             comps := c.comps.map (fun b => b.filter (fun b => b.tile ≠ tile)) } }

/-- Every block of a raw tile is verified. -/
def Codec.rawDone (c : Codec) (tile : Nat) : Bool := c.works.any (fun w => w.tile = tile && w.verified = blockCount w.w w.h)

/-- CDX_FAULT of a compressor, with an error code that the spec leaves open, and its FSV detection. -/
def State.compFault (s : State) (u : Fin 8) (b : CompBlock) (cls : Nat) (o : FaultOutcome) : State :=
  let w := ((s.codec.works.find? (fun w => w.tile = b.tile)).map RawWork.w).getD 1
  (s.draw.cdxFault 2 u.val cls (Config.decodeError s.free).toNat (b.tile % 2 ^ 24) (b.blk / blockCols w) (b.blk % blockCols w)).detect
    (codecDetect 2 u.val o)

/-- A verified block: it is written to the Hamper, and the unit is free. -/
def Codec.verifiedBlock (c : Codec) (u : Fin 8) (b : CompBlock) : Codec :=
  let n := ((c.works.find? (fun w => w.tile = b.tile)).map (fun w => rawLength w.codes w.w w.h b.blk)).getD 0
  { c with comps := c.comps.set u none, compIn := satAdd c.compIn n,
           works := c.works.map (fun w => if w.tile = b.tile then { w with verified := w.verified + 1 } else w) }

/-- The verify of a unit's block ends: a first failure compresses it again from the held input, a second isolates the unit and the
block starts afresh on the next free one. -/
def State.verifyEnd (s : State) (u : Fin 8) (b : CompBlock) (fail : Bool) : State :=
  let c := s.codec
  if !fail then
    let s1 := { s with codec := c.verifiedBlock u b }
    if b.again then ({ s1 with codec := { s1.codec with compTransient := satAdd c.compTransient 1 } }).compFault u b clsTransient .transient
    else s1
  else if b.again then
    let left := c.comp &&& ~~~(1#8 <<< u.val)
    ({ s with codec := { c with comp := left, compLasting := satAdd c.compLasting 1, comps := c.comps.set u none,
                                afresh := c.afresh ++ [(b.tile, b.blk)] } }).compFault u b clsLasting
      (if left = 0 then .reported else .masked)
  else { s with codec := { c with comps := c.comps.set u (some { b with again := true }) } }

/-- The verify decoder of a compressor finishes the unit's block; without one nothing happens. -/
def execCompressorVerify (u : Fin 8) (fail : Bool) (t : Nat) (s : State) : Host.Outcome State Fault Refusal :=
  let s1 := (s.at t).feedCompressors
  match s1.codec.comps[u] with
  | none => .next s1
  | some b => .next (s1.verifyEnd u b fail).feedCompressors

end Sys2Proof.Machine
end

