-- ==== Sys2Proof/Machine/Hamper.lean ====
section
/-! DEFINITION. The Hamper's commands and events (11): staging tiles and lists (R266 to R268, R275), freeing them, proof capture
(R271), status and HAMPER_SPACE (R277, R278). -/

namespace Sys2Proof.Machine

/-! ### Tiles -/

def State.tile? (s : State) (id : Nat) : Option Tile := s.hamper.tiles.find? (fun t => t.id = id)
def State.staging? (s : State) (id : Nat) : Option Staging := s.hamper.stagings.find? (fun g => g.tile = id)

/-- Bytes of a stream with its block index of 16 bytes a block. -/
def storeNeed (bytes blocks : Nat) : Nat := bytes + 16 * blocks

/-- Largest possible result of a staging (R268). -/
def Staging.bound (g : Staging) : Nat := if g.raw then storedBound g.codes g.w g.h else g.length

/-- The request's fields (R266). -/
def stagingOf (q : Req) : Staging :=
  let p := q.payload
  let f := fld p 3 1
  { origin := q.origin, tile := fld p 0 3, raw := bit f 0, structural := bit f 1, autoFree := bit f 2, replace := bit f 3,
    srcHost := bit f 4, ns := bit f 5, codes := fld p 4 1 == 1, w := fld p 6 2 + 1, h := bits (fld p 8 4) 0 20 + 1,
    src := fld p 16 8, length := fld p 24 8, extents := [] }

def stagingBad (q : Req) (g : Staging) : Bool :=
  let p := q.payload
  g.tile == 0 || decide (63 < fld p 3 1) || decide (1 < fld p 4 1) || fld p 5 1 != 0 || decide (2 ^ 20 ≤ fld p 8 4) || !zeros p 12 4 ||
  (g.raw && (g.structural || g.length != rawBytes g.codes g.w g.h)) || (!g.raw && decide (g.length < 32))

/-- The Hamper asks for a source in host memory; the read is snooped unless `ns` is set (R266). -/
def State.readSource (s : State) (srcHost ns : Bool) (src length : Nat) : State := if srcHost then s.emit (.hostRead src length ns) else s

/-- A staging is accepted: pages reserved, the source asked for, a raw tile's blocks handed to the compressors (R268, 10 R249). -/
def State.beginStaging (s : State) (g : Staging) (ext : List Extent) : State :=
  let s1 := { s with hamper := { s.hamper with stagings := s.hamper.stagings ++ [{ g with extents := ext }] } }
  let s2 := s1.readSource g.srcHost g.ns g.src g.length
  if g.raw then s2.startRaw g.tile g.codes g.w g.h else s2

def cmdTileStage : Cmd :=
  { opcode := 0x0101, okLen := fun n => n == 32
    run := fun q s =>
      let g := stagingOf q
      let refs := s.tileRefs g.tile
      let n := blockCount g.w g.h
      let busy := (s.staging? g.tile).isSome || ((s.tile? g.tile).isSome && (!g.replace || refs != 0))
      checks s [(stagingBad q g, .badParam), (!g.srcHost && !inZone g.src g.length, .windowFault)] fun _ =>
        if busy then .fail s .badState refs
        else if 16 ≤ s.hamper.stagings.length then .fail s .noResource
        else match s.allocate (storeNeed g.bound n) n with
          | none => .fail s .noResource
          | some ext =>
            if g.raw && s.codec.comp == 0 then .fail s .lastingFault
            else { state := s.beginStaging g ext, status := some .accepted } }

def execTileStage (q : Req) (s : State) : Host.Outcome State Fault Refusal := .next (serve cmdTileStage q s)

/-- HAMPER_STAGED: tile, status, detail, pages, stream bytes, raw bytes. -/
def State.stagedEvent (s : State) (g : Staging) (st : Status) (detail pages stream raw : Nat) : State :=
  s.result (some g.origin) 0x02A0 clsJob st detail [(4, g.tile), (1, st.code.toNat), (4, detail), (4, pages), (8, stream), (8, raw)]

/-- The tile of a staging that has passed, its stream placed in what was reserved for it. -/
def tileOf (g : Staging) (blocks : List Blk) : Tile :=
  let p := placeStream g.extents blocks
  { id := g.tile, ready := true, codes := g.codes, w := g.w, h := g.h, autoFree := g.autoFree, fromRaw := g.raw,
    extents := p.1, index := p.2.1, blocks := p.2.2 }

/-- The result takes the id's place, unless a name has come to the old tile meanwhile (R268). -/
def State.swapIn (s : State) (g : Staging) (blocks : List Blk) : State :=
  let refs := s.tileRefs g.tile
  if (s.tile? g.tile).isSome && refs != 0 then s.stagedEvent g .badState refs 0 0 0
  else
    let t := tileOf g blocks
    let s1 := s.freeTile g.tile
    ({ s1 with hamper := { s1.hamper with tiles := s1.hamper.tiles ++ [t] } }).stagedEvent g .ok 0 (extentPages t.extents)
      (streamBytes blocks) (rawBytes g.codes g.w g.h)

/-- A staging ends with its source bytes. -/
def State.stageEnd (s : State) (g : Staging) (p : List Byte) : State :=
  if g.raw then
    if s.codec.comp = 0 then s.stagedEvent g .lastingFault 0 0 0 0
    else s.swapIn g (compressTile g.codes g.w g.h s.codec.depthCap p)
  else match readStream (!g.structural) g.codes (some (g.w, g.h)) p with
    | .error e => s.stagedEvent g .badParam (streamDetail e) 0 0 0
    | .ok t => s.swapIn g t.blocks

/-- A raw staging cannot end yet: the module is throttled (26 R611), or blocks are still to be verified (10 R252). -/
def State.rawWaits (s : State) (g : Staging) : Bool := g.raw && (s.pwr.throttled || (s.codec.comp != 0 && !s.codec.rawDone g.tile))

/-- A staging reads its source in the transfer zone by Bulk DMA: POISON that stands is lasting at the second read (19 R487, 20 R509). -/
def State.zoneRead (s : State) (a n : Nat) : State × Bool :=
  if s.readFails a n then ((s.poisonRead 1 a n false).poisonRead 1 a n true, false) else (s.readSingles .dma a n, true)

/-- The staging of a tile ends. The bytes of a host source are the operand, those of the transfer zone are in device memory. -/
def execHamperStaged (tile : BitVec 24) (data : List Byte) (readOk : Bool) (t : Nat) (s : State) : Host.Outcome State Fault Refusal :=
  let s1 := s.at t
  match s1.staging? tile.toNat with
  | none => .next s1
  | some g =>
    if readOk && s1.rawWaits g then .next s1
    else
      let z := if g.srcHost then (s1, true) else s1.zoneRead g.src g.length
      let s2 := ({ z.1 with hamper := { s1.hamper with stagings := s1.hamper.stagings.filter (fun x => x.tile ≠ g.tile) } }).endRaw g.tile
      let p := if g.srcHost then padTo g.length data else s1.memRead g.src g.length
      .next (if readOk && z.2 then (s2.traffic p.length true).stageEnd g p else s2.stagedEvent g .lastingFault 0 0 0 0)

def cmdTileFree : Cmd :=
  { opcode := 0x0102, okLen := fun n => n == 8
    run := fun q s =>
      let id := fld q.payload 0 3
      checks s [(!zeros q.payload 3 5, .badParam)] fun _ =>
        match s.tile? id, s.staging? id with
        | none, none => .fail s .badParam
        | some t, none => if s.tileRefs id = 0 then { state := s.freeTile id, detail := extentPages t.extents } else .fail s .badState (s.tileRefs id)
        | _, some _ => .fail s .badState (s.tileRefs id) }

def execTileFree (q : Req) (s : State) : Host.Outcome State Fault Refusal := .next (serve cmdTileFree q s)

/-- A directory entry (R260): an id being staged for the first time shows its reservation. -/
def entryBytes (st : Nat) (codes : Bool) (w h refs flags : Nat) (index pages blocks : Nat) : List Byte :=
  le 1 st ++ le 1 (b2n codes) ++ le 2 (w - 1) ++ le 4 (h - 1) ++ le 4 refs ++ le 1 flags ++ zeroBytes 3 ++ le 8 index ++
  le 4 pages ++ le 4 blocks

def State.tileInfo (s : State) (id : Nat) : List Byte :=
  match s.tile? id, s.staging? id with
  | some t, g =>
    let bad := (t.blocks.filter (·.damaged)).length
    entryBytes 2 t.codes t.w t.h (s.tileRefs id) (maskOf [t.autoFree, bad != 0, t.fromRaw, g.isSome]) t.index
      (extentPages t.extents) t.blocks.length ++ le 4 bad ++ zeroBytes 4
  | none, some g =>
    entryBytes 1 g.codes g.w g.h 0 (maskOf [g.autoFree, false, g.raw]) 0 (extentPages g.extents) (blockCount g.w g.h) ++ zeroBytes 8
  | none, none => zeroBytes 40

def cmdTileInfo : Cmd :=
  { opcode := 0x0103, okLen := fun n => n == 8
    run := fun q s =>
      checks s [(!zeros q.payload 3 5, .badParam)] fun _ => { state := s, payload := s.tileInfo (fld q.payload 0 3) } }

def execTileInfo (q : Req) (s : State) : Host.Outcome State Fault Refusal := .next (serve cmdTileInfo q s)

/-! ### Lists (R275, 03 R62 to R65, R630) -/

def cmdListStage : Cmd :=
  { opcode := 0x0104, okLen := fun n => n == 16
    run := fun q s =>
      let p := q.payload
      let f := fld p 12 1
      let g : ListStaging := { origin := q.origin, src := fld p 0 8, length := fld p 8 4, srcHost := bit f 4, ns := bit f 5 }
      checks s [(f &&& 0xCF != 0 || !zeros p 13 3 || decide (g.length < 32) || g.length % 16 != 0, .badParam),
                (!g.srcHost && !inZone g.src g.length, .windowFault),
                (decide (2 ^ 32 ≤ s.hamper.nextHandle + s.hamper.listStagings.length) ||
                  decide (65536 ≤ s.hamper.lists.length + s.hamper.listStagings.length), .noResource)] fun _ =>
        { state := ({ s with hamper := { s.hamper with listStagings := s.hamper.listStagings ++ [g] } }).readSource g.srcHost g.ns g.src g.length
          status := some .accepted } }

def execListStage (q : Req) (s : State) : Host.Outcome State Fault Refusal := .next (serve cmdListStage q s)

def policyOf : Nat → Policy
  | 0 => .blank | 1 => .dflt | _ => .required

def opOf : Nat → BlendOp
  | 0 => .over | 1 => .max | 2 => .add | 3 => .knockout | _ => .masked

/-- A tile a list names must be present in its format (R65). -/
def State.namedTile (s : State) (codes : Bool) (id : Nat) : Option Status :=
  match s.tile? id with
  | none => some .badState
  | some t => if t.codes == codes then none else some .badParam

def slotFields (p : List Byte) : Bool :=
  let tile := fld p 8 3
  decide (1 ≤ fld p 0 4 ∧ fld p 0 4 ≤ 65536 ∧ 1 ≤ fld p 4 4 ∧ fld p 4 4 ≤ 1048576 ∧ fld p 11 1 ≤ 2) &&
  ((fld p 11 1 == 1) == (tile != 0))

def State.readSlot (s : State) (codes : Bool) (p : List Byte) : Except Status Slot :=
  let tile := fld p 8 3
  if !slotFields p then .error .badParam
  else match if fld p 11 1 = 1 then s.namedTile codes tile else none with
    | some st => .error st
    | none => .ok { boxW := fld p 0 4, boxH := fld p 4 4, tile := tile, policy := policyOf (fld p 11 1) }

def placeFields (isVar : Bool) (slots : Nat) (p : List Byte) : Bool :=
  let tile := fld p 0 3
  decide (fld p 4 1 ≤ 4) && fld p 16 2 != 0 && fld p 18 2 != 0 && !(decide (1 < fld p 16 2) && fld p 20 4 == 0) && !(decide (1 < fld p 18 2) && fld p 24 4 == 0) &&
  (if isVar then decide (tile < slots) else tile != 0)

def State.readPlace (s : State) (isVar codes : Bool) (slots : Nat) (p : List Byte) : Except Status Place :=
  if !placeFields isVar slots p then .error .badParam
  else match if isVar then none else s.namedTile codes (fld p 0 3) with
    | some st => .error st
    | none =>
      .ok { tile := fld p 0 3, mirrorX := bit (fld p 3 1) 0, mirrorY := bit (fld p 3 1) 1, op := opOf (fld p 4 1), x := sfld p 8 4,
            y := fld p 12 4, nx := fld p 16 2, ny := fld p 18 2, sx := fld p 20 4, sy := fld p 24 4 }

/-- Read `n` records of `size` bytes; the first that fails comes with its index. -/
def readRecords {α : Type} (f : List Byte → Except Status α) (size : Nat) : Nat → Nat → List Byte → Except (Status × Nat) (List α)
  | 0, _, _ => .ok []
  | n + 1, i, p => match f (p.take size) with
    | .error st => .error (st, i)
    | .ok a => match readRecords f size n (i + 1) (p.drop size) with
      | .error e => .error e
      | .ok r => .ok (a :: r)

/-- The header (R62) and the exact length (R275); reserved bytes of stored records are ignored (00 R6). -/
def listHeaderOk (p : List Byte) (length : Nat) : Bool :=
  let kind := fld p 0 1
  let slots := fld p 2 2
  decide (kind ≤ 3) && (if kind < 2 then slots == 0 else decide (1 ≤ slots ∧ slots ≤ 256)) &&
  decide (fld p 4 4 ≤ 1048576) && length == 32 + 16 * slots + 32 * fld p 4 4

/-- Check a list in the order in which it is stored (R630): the status and detail of what fails, or the list. -/
def State.readList (s : State) (handle : Nat) (p : List Byte) (length : Nat) : Except (Status × Nat) PList :=
  if !listHeaderOk p length then .error (.badParam, 0xFFFFFFFF)
  else
    let kind := fld p 0 1
    let nSlots := fld p 2 2
    let codes := kind % 2 == 1
    let isVar := decide (2 ≤ kind)
    match readRecords (s.readSlot codes) 16 nSlots 0 (p.drop 32) with
    | .error e => .error (e.1, 2 ^ 31 + e.2)
    | .ok slots => match readRecords (s.readPlace isVar codes nSlots) 32 (fld p 4 4) 0 (p.drop (32 + 16 * nSlots)) with
      | .error e => .error (e.1, e.2)
      | .ok places => .ok { handle := handle, isVar := isVar, codes := codes, slots := slots, places := places, units := [] }

/-- HAMPER_LIST_STAGED: status, detail, handle, `src`. -/
def State.listEvent (s : State) (g : ListStaging) (st : Status) (detail handle : Nat) : State :=
  s.result (some g.origin) 0x02A1 clsJob st detail [(1, st.code.toNat), (4, detail), (4, handle), (8, g.src)]

/-- A list that has passed is stored, in units of 4 KiB, under the next handle (R264). -/
def State.storeList (s : State) (g : ListStaging) (l : PList) : State :=
  match s.allocateUnits g.length with
  | none => s.listEvent g .noResource 0 0
  | some ext =>
    ({ s with hamper := { s.hamper with lists := s.hamper.lists ++ [{ l with units := ext }], nextHandle := s.hamper.nextHandle + 1 } }).listEvent
      g .ok 0 l.handle

/-- The oldest list staging ends. -/
def execHamperListStaged (data : List Byte) (readOk : Bool) (t : Nat) (s : State) : Host.Outcome State Fault Refusal :=
  let s1 := s.at t
  match s1.hamper.listStagings with
  | [] => .next s1
  | g :: rest =>
    let z := if g.srcHost then (s1, true) else s1.zoneRead g.src g.length
    let s2 := { z.1 with hamper := { s1.hamper with listStagings := rest } }
    let p := if g.srcHost then padTo g.length data else s1.memRead g.src g.length
    if readOk && z.2 then
      let s3 := s2.traffic p.length true
      match s3.readList s3.hamper.nextHandle p g.length with
      | .error e => .next (s3.listEvent g e.1 e.2 0)
      | .ok l => .next (s3.storeList g l)
    else .next (s2.listEvent g .lastingFault 0 0)

def cmdListFree : Cmd :=
  { opcode := 0x0105, okLen := fun n => n == 8
    run := fun q s =>
      let h := fld q.payload 0 4
      checks s [(!zeros q.payload 4 4 || !s.hamper.lists.any (fun l => l.handle = h), .badParam), (s.listNamed h, .badState)] fun _ =>
        { state := s.freeList h } }

def execListFree (q : Req) (s : State) : Host.Outcome State Fault Refusal := .next (serve cmdListFree q s)

/-! ### Proof capture (R271) -/

/-- The fire line as the next run counts it: −1 until arming has reset the rows. -/
def State.captureNext (s : State) (r : Fin 16) : Nat := if s.job.state == .arming && decide (s.job.armStep < 7) then 0 else s.lsd.rows[r].next

def cmdProofCapture : Cmd :=
  { opcode := 0x0110, okLen := fun n => n == 32
    run := fun q s =>
      let p := q.payload
      let r : Fin 16 := Fin.ofNat 16 (fld p 0 1)
      let first := fld p 8 8
      let count := fld p 16 4
      let dst := fld p 24 8
      let running := s.armed && !(s.job.state == .arming && decide (s.job.armStep < 7))
      let c : Capture := { origin := some q.origin, row := r, first := first, count := count, dst := dst, written := 0, active := running }
      checks s [(decide (15 < fld p 0 1) || !zeros p 1 7 || decide (2 ^ 48 ≤ first) || count == 0 || !zeros p 20 4 || dst % 64 != 0, .badParam),
                (!inZone dst (count * 8256), .windowFault), (s.hamper.capture.isSome, .noResource),
                (s.armed && !s.assigned r, .badState), (s.armed && !s.hasLine r first, .badParam),
                (s.armed && decide (first < s.captureNext r + 15), .leadTooShort)] fun _ =>
        { state := { s with hamper := { s.hamper with capture := some c } }, status := some .accepted } }

def execProofCapture (q : Req) (s : State) : Host.Outcome State Fault Refusal := .next (serve cmdProofCapture q s)

def cmdProofCancel : Cmd := { opcode := 0x0111, okLen := fun n => n == 0, run := fun _ s => { state := s.endCapture 2 } }

def execProofCancel (q : Req) (s : State) : Host.Outcome State Fault Refusal := .next (serve cmdProofCancel q s)

/-! ### Status (R277, R278) -/

def State.largestRun (s : State) : Nat := (freeRuns storePages s.takenPages).foldl (fun m r => max m r.2) 0

def State.hamperStatus (s : State) : List Byte :=
  le 4 storePages ++ le 4 s.pagesFree ++ le 4 s.largestRun ++ le 4 (s.hamper.tiles.filter (·.ready)).length ++ le 4 s.hamper.lists.length ++
  le 1 s.hamper.stagings.length ++ le 1 (match s.hamper.capture with | none => 0 | some c => if c.active then 2 else 1) ++ zeroBytes 2 ++
  le 8 zoneBase ++ le 8 zoneSize ++ le 8 s.nowNs

def cmdHamperStatus : Cmd := { opcode := 0x0100, okLen := fun n => n == 0, run := fun _ s => { state := s, payload := s.hamperStatus } }

def execHamperStatus (q : Req) (s : State) : Host.Outcome State Fault Refusal := .next (serve cmdHamperStatus q s)

/-- Tiles freed by `auto_free` are reported, at most once a millisecond. -/
def execHamperSpace (t : Nat) (s : State) : Host.Outcome State Fault Refusal :=
  let s1 := s.at t
  .next (if 0 < s1.hamper.freed ∧ s1.hamper.spaceAt + ms 1 ≤ s1.aon then
    ({ s1 with hamper := { s1.hamper with freed := 0, spaceAt := s1.aon } }).post 0x02A2 clsJob [(4, s1.hamper.freed), (4, s1.pagesFree)]
  else s1)

end Sys2Proof.Machine
end

