-- ==== Sys2Proof/Machine/CvuOps.lean ====
section
/-! DEFINITION. The check-value units (09): their contexts (R212), the latent test and the self-check (R210), and what follows a
fault of one (R211, R213). -/

namespace Sys2Proof.Machine

/-- The function of the unit that serves a half-row (09 R206). -/
def lineUnit (h : Fin 32) : Fin 38 := ⟨h.val, by omega⟩

def State.updCtx (s : State) (fn : Fin 38) (f : UnitCtx → UnitCtx) : State := { s with chk := { s.chk with ctxs := upd s.chk.ctxs fn f } }

/-- A lasting fault of a row's expansion: no line from here on is agreed, and FSV stops the job (R218). -/
def State.rowFault (s : State) (r : Fin 16) (line : Nat) : State :=
  s.updRow r (fun x => { x with faultAt := some (min line (x.faultAt.getD line)) })

/-! ### Faults of the check-value units (R210 to R213) -/

/-- A spare unit: CVU38, or CVU39 once CVU38 has been used; none once a function has been lost. -/
def Chk.spareUnit (c : Chk) : Option (Fin 40) :=
  let u := c.units.toList
  if u.any Option.isNone || u.contains (some 39) then none
  else if u.contains (some 38) then some 39 else some 38

/-- CHK_CVU: unit, class, standing-in unit or 0xFF, `injected`. -/
def State.cvuEvent (s : State) (unit : Fin 40) (cls standing : Nat) (inj : Bool) : State :=
  s.post 0x0283 clsJob [(1, unit.val), (1, cls), (1, standing), (1, b2n inj)]

/-- The latent test of CVU0 to CVU33 on every 64th line takes the next held signature (R210, log 66). -/
def State.latentStep (s : State) (fn : Fin 38) (line : Nat) : State :=
  if fn.val < 34 ∧ line % 64 = 0 then s.updCtx fn (fun c => { c with latent := c.latent + 1 }) else s

/-- The self-check of the unit that serves function `fn` fails `bad` times in a row on a line: once is transient, twice replaces
the unit, which loads its context; with no spare left the function is lost (R211, R213). The answer says whether the comparison
is made. -/
def State.cvuSelf (s : State) (fn : Fin 38) (r : Fin 16) (line bad : Nat) (inj : Bool) : State × Bool :=
  match s.chk.units[fn] with
  | none => (s, false)
  | some unit =>
    let d (o : FaultOutcome) (stops : Bool) : Detect :=
      { fclass := fcCvu, source := srcCvu, unit := BitVec.ofNat 8 unit.val, row := BitVec.ofNat 8 r.val, rows := 1#16 <<< r.val,
        first := line, last := line, injected := inj, outcome := o, stops := stops }
    let s0 := s.latentStep fn line
    let s1 := { s0 with chk := { s0.chk with cvuFaults := satAdd s.chk.cvuFaults 1 } }
    let s2 := s1.updCtx fn (fun c => { c with faults := satAdd c.faults 1 })
    match bad with
    | 0 => (s0, true)
    | 1 => ((s2.cvuEvent unit clsTransient 0xFF inj).detect (d .transient false), true)
    | _ =>
      let spare := s2.chk.spareUnit
      let s3 := { s2 with chk := { s2.chk with units := s2.chk.units.set fn spare } }
      match spare with
      | some v => ((s3.cvuEvent unit clsLasting v.val inj).detect (d .masked false), true)
      | none =>
        let s4 := s3.cvuEvent unit clsLasting 0xFF inj
        ((if fn.val < 32 then (s4.rowFault r line).detect (d .detected true) else s4.detect (d .detected false)), false)

end Sys2Proof.Machine
end

