-- ==== Sys2Proof/Machine/Frames.lean ====
section
/-! DEFINITION. The head frame protocol (13): sending frames, WITHHOLD and FLUSH (R308 to R312), the answers of the head
driver (R313 to R316), the pour-time recheck (09 R220, R221) and frames that miss their deadline (R633). -/

namespace Sys2Proof.Machine

/-! ### What is told about a line -/

/-- Causes of HLK_FRAME: 0 NAK_CRC, 1 NAK_FORMAT, 2 NAK_NOBUF, 3 NO_ACK, 4 RECHECK, 5 DEADLINE; its class 3 is WITHHELD. -/
def State.frameEvent (s : State) (l : Fin 32) (n cause cls : Nat) : State :=
  s.post 0x02B4 clsJob [(1, l.val), (8, n), (1, cause), (1, cls)]

def lineDetect (fclass : Byte) (h : Fin 32) (n : Nat) (inj : Bool) (o : FaultOutcome) : Detect :=
  { fclass := fclass, source := srcHlk, unit := BitVec.ofNat 8 h.val, row := BitVec.ofNat 8 (rowOf h).val, rows := 1#16 <<< (rowOf h).val,
    first := n, last := n, injected := inj, outcome := o }

/-- CHK_POUR. -/
def State.pourEvent (s : State) (h : Fin 32) (n : Nat) (mask : BitVec 16) (cls : Nat) (inj : Bool) : State :=
  s.post 0x0282 clsJob [(1, (rowOf h).val), (1, h.val), (8, n), (2, mask.toNat), (1, cls), (1, b2n inj)]

def State.pourCount (s : State) (h : Fin 32) (n : Nat) : State := s.tellFsv (.pourFailed h n s.aon)

/-- A lasting frame fault of a line: withheld with reason LINK (R314). -/
def State.frameLasting (s : State) (l : Fin 32) (n cause : Nat) : State :=
  ((((s.frameEvent l n cause clsLasting).detect (lineDetect fcFrame l n false .detected)).updHalf l n
    (fun x => { x with frameCause := none })).withholdSent (rowOf l) n 2 0x03).pourCount l n

/-- Half-row state whose recheck has been classified. -/
def HalfSend.rechecked (x : HalfSend) : HalfSend := { x with recheckPending := false, check := none, injected := false }

/-- A lasting recheck fault of a line: withheld with reason RECHECK (09 R221). -/
def State.pourLasting (s : State) (h : Fin 32) (n : Nat) (mask : BitVec 16) (inj : Bool) : State :=
  let s1 := { s with chk := { s.chk with pourLasting := satAdd s.chk.pourLasting 1 } }
  ((((s1.pourEvent h n mask clsLasting inj).detect (lineDetect fcRecheck h n inj .detected)).updHalf h n
    HalfSend.rechecked).withholdSent (rowOf h) n 1 0x02).pourCount h n

/-- Queue one resend of a line (R311); one resend serves every fault of its frame (R315). -/
def State.queueResend (s : State) (l : Fin 32) (n : Nat) : State :=
  s.updTx l (fun x => { x with resends := if x.resends.contains n then x.resends else x.resends ++ [n] })

/-! ### Sending (R308, R309, 09 R220) -/

/-- Where a half-row line lies in the line buffers (07 R158, 20 R518). -/
def bufferAddr (h : Fin 32) (n : Nat) : Nat := (rowOf h).val * 0x80000 + n % 64 * 0x2000 + h.val % 2 * 0x1000

/-- XOR a mask into a byte of a byte string. -/
def xorAt (p : List Byte) (i : Nat) (m : Byte) : List Byte := p.modify i (· ^^^ m)

/-- A line-buffer word with two flipped bits, as it is read. -/
def flipWord (p : List Byte) (base : Nat) (c : Corruption) : List Byte :=
  let flip (p : List Byte) (b : Nat) : List Byte := if b < 64 then xorAt p (c.addr - base + b / 8) (1#8 <<< (b % 8)) else p
  flip (flip p c.bit.val) ((c.bit.val + 1) % 72)

/-- What HLK transmits for a half-row line, the segments an uncorrectable word spoils, and whether a fault was planted. -/
structure HalfRead where
  bytes : List Byte
  spoilt : Nat
  injected : Bool

def Injection.at_ (i : Injection) (target : Nat) (h : Fin 32) (n : Nat) : Bool :=
  i.target.val = target && i.row = rowOf h && i.line = n && decide (i.position / 8192 = h.val % 2)

def State.readHalf (s : State) (h : Fin 32) (d : Agreed) (u : Upset) : HalfRead :=
  let base := bufferAddr h d.line
  let raw := (d.bytes.drop (h.val % 2 * 4096)).take 4096
  let bad := s.miu.corrupt.filter (fun c => c.target = 2 && c.double && decide (base ≤ c.addr ∧ c.addr < base + 4096))
  let inj := s.chk.injections.filter (fun i => i.at_ 4 h d.line)
  let p1 := bad.foldl (fun p c => flipWord p base c) raw
  let p2 := inj.foldl (fun p i => xorAt p (i.position % 8192 / 2) i.mask) p1
  { bytes := xorAt p2 u.byte u.mask
    spoilt := bad.foldl (fun m c => m ||| 2 ^ ((c.addr - base) / 512)) 0
    injected := !inj.isEmpty }

/-- An injection that has acted once more. -/
def State.useInjection (s : State) (target : Nat) (h : Fin 32) (n : Nat) : State :=
  { s with chk := { s.chk with injections := (s.chk.injections.map (fun i =>
      if i.at_ target h n then { i with left := i.left - 1 } else i)).filter (fun i => i.left ≠ 0) } }

/-- CVU36 rechecks the half-rows of rows 0 to 7, CVU37 those of rows 8 to 15 (09 R206). -/
def pourUnit (h : Fin 32) : Fin 38 := ⟨36 + h.val / 16, by omega⟩

/-- The segments of the row that fail the recheck of one half; every segment where the unit is lost (09 R213). -/
def State.recheckMask (s : State) (h : Fin 32) (d : Agreed) (r : HalfRead) : BitVec 16 :=
  let agreed := (d.sigs.drop (h.val % 2 * 8)).take 8
  let seen := halfSignatures h d.line r.bytes
  let bad := if s.chk.units[pourUnit h].isNone then 0xFF
    else maskOf ((List.range 8).map (fun k => seen.getD k 0 != agreed.getD k 0)) ||| r.spoilt
  BitVec.ofNat 16 (bad * 2 ^ (8 * (h.val % 2)))

/-- The 514 blocks of a frame. -/
def frameBlocks (h : Fin 32) (n : Nat) (fseq : Byte) (resend ok : Bool) (bytes : List Byte) : List (Bool × BitVec 64) :=
  let tag := lineTag n
  let e : List Byte := [0xE2, BitVec.ofNat 8 (b2n ok), fseq]
  [ctl ([0xE1, BitVec.ofNat 8 (h.val + 32 * b2n resend)] ++ le 2 tag ++ [fseq])] ++
  (List.range 512).map (fun j => (false, blockOf ((bytes.drop (8 * j)).take 8))) ++
  [(true, blockOf (e ++ [crc8 e] ++ le 4 (crc32c (BitVec.ofNat 32 (tag * 65536 + 0x200 + h.val)) bytes).toNat))]

/-- HLK's read of a line-buffer half meets what is planted in it: one bit is corrected, two are counted (20 R511, R512). -/
def State.bufferErrors (s : State) (h : Fin 32) (n : Nat) : State :=
  let base := bufferAddr h n
  (s.miu.corrupt.filter (fun c => c.target = 2 && decide (base ≤ c.addr ∧ c.addr < base + 4096))).foldl (fun s c =>
    if c.double then s.sramDouble .lineBuffer c.addr false true
    else ({ s with miu := { s.miu with corrupt := s.miu.corrupt.filter (fun x => x != c) } }).sramSingle .lineBuffer c.addr false true) s

/-- Send the frame of a buffered line. `cvuBad` tells how often in a row the self-check of the unit that rechecks it fails. -/
def State.sendFrame (s : State) (h : Fin 32) (b : BufLine) (resend : Bool) (u : Upset) (cvuBad : Nat) : State :=
  let n := b.data.line
  let s0 := (s.cvuSelf (pourUnit h) (rowOf h) n cvuBad false).1
  let r := s0.readHalf h b.data u
  let mask := s0.recheckMask h b.data r
  let ok := mask == 0
  let f := (s0.hlk.tx[h]).fseq
  let s1 := ((s0.bufferErrors h n).useInjection 4 h n).sendBlocks h (frameBlocks h n f resend ok r.bytes)
  let s2 := s1.updTx h (fun x => { x with
    fseq := x.fseq + 1, frameAt := s.aon, frameEnd := s.aon + frameTime
    awaiting := x.awaiting.filter (fun a => a.line ≠ n) ++
      [{ fseq := f, line := n, resend := resend, sentAt := s.aon + frameTime, checkOk := ok }] })
  s2.updHalf h n (fun x => { x with
    begun := true, resent := x.resent || resend
    check := if !ok || x.recheckPending then some mask else none
    injected := (x.injected || r.injected) && (!ok || x.recheckPending) })

/-! ### The recheck (09 R221) -/

/-- HLK_FRAME with cause RECHECK tells of the frame whose recheck is classified, CHK_POUR of the segments (R327, log 114). -/
def State.recheckEvent (s : State) (h : Fin 32) (n : Nat) (mask : BitVec 16) (cls : Nat) (inj : Bool) : State :=
  (s.pourEvent h n mask cls inj).frameEvent h n 4 cls

/-- Classify the recheck of the last frame of a half-row line. -/
def State.classifyRecheck (s : State) (h : Fin 32) (n : Nat) (x : HalfSend) (mask : BitVec 16) : State :=
  let inj := x.injected
  if mask = 0 then
    let s1 := { s with chk := { s.chk with pourTransient := satAdd s.chk.pourTransient 1 } }
    ((s1.recheckEvent h n mask clsTransient inj).detect (lineDetect fcRecheck h n inj .transient)).updHalf h n HalfSend.rechecked
  else if x.recheckPending || s.deadlinePast (rowOf h) n then (s.pourLasting h n mask inj).frameEvent h n 4 clsLasting
  else
    (((s.recheckEvent h n mask clsPending inj).detect (lineDetect fcRecheck h n inj .pending)).updHalf h n
      (fun x => { x with recheckPending := true, check := none })).queueResend h n

/-- Classify what the last frame of a half-row has left open. -/
def State.recheckDue (s : State) (h : Fin 32) : State :=
  match s.rows[rowOf h].buffer.find? (fun b => (b.half h).check.isSome) with
  | some b => s.classifyRecheck h b.data.line (b.half h) ((b.half h).check.getD 0)
  | none => s

def execPourRecheck (h : Fin 32) (t : Nat) (s : State) : Host.Outcome State Fault Refusal := .next ((s.at t).recheckDue h)

/-! ### Deadlines (R312, R633) -/

/-- A lane has nothing more to send of a line. -/
def TxLane.without (x : TxLane) (n : Nat) : TxLane :=
  { x with resends := x.resends.filter (· ≠ n), frames := x.frames.filter (fun i => i != .frame n) }

/-- The line start of n − 8 is past, and a lane still owes a frame of line n: a first send or a resend. `before` tells whether the
line was withheld before this moment; a first send of such a line is owed no more. -/
def State.missDeadline (s : State) (before : Bool) (l : Fin 32) (n : Nat) : State :=
  match s.rows[rowOf l].line? n with
  | none => s
  | some b =>
    let h := b.half l
    let x := s.hlk.tx[l]
    let first := x.frames.contains (.frame n)
    let owed := first || x.resends.contains n
    let s0 := s.updTx l (fun x => x.without n)
    let mask := h.check.getD 0
    if mask != 0 || (h.recheckPending && owed) then
      let s1 := if h.frameCause.isSome then
          ((s0.frameEvent l n 5 clsLasting).detect (lineDetect fcFrame l n false .detected)).updHalf l n (fun x => { x with frameCause := none })
        else s0
      s1.pourLasting l n mask h.injected
    else if h.frameCause.isSome && owed then s0.frameLasting l n 5
    else if first && !before then (s0.frameEvent l n 5 3).withholdSent (rowOf l) n 2 0x03
    else s0

/-- The deadline of line N + 8 at the line start of N. -/
def State.deadlines (s : State) (r : Fin 16) (n : Nat) : State :=
  (rowHalves r).foldl (fun s' h => s'.missDeadline (s.rows[r].isWithheld (n + 8)) h (n + 8)) s

/-! ### The transmit queue (R311) -/

/-- Send the FLUSH at the front of a lane's control queue: an ARM's FLUSHED is awaited (R319). -/
def State.sendFlush (s : State) (l : Fin 32) (reason : Byte) (tries : Nat) : State :=
  let f := (s.hlk.tx[l]).fseq
  (s.sendBlocks l [flushBlock l f reason]).updTx l (fun x => { x with
    fseq := x.fseq + 1, flushWait := if reason = 0 then some (f, s.aon, tries) else x.flushWait })

def State.popControl (s : State) (l : Fin 32) : State := s.updTx l (fun x => { x with control := x.control.drop 1 })

/-- A first send that is owed no more: its line has been withheld, and no recheck waits for the frame (R310, R320). -/
def SpcRow.callsOff (x : SpcRow) (l : Fin 32) (i : TxItem) : Bool :=
  match i with
  | .frame n => x.isWithheld n && !((x.line? n).map (fun b => (b.half l).recheckPending)).getD false
  | _ => false

/-- Send line n, first or again, unless its deadline is past (R312). -/
def State.sendLine (s : State) (l : Fin 32) (n : Nat) (resend : Bool) (u : Upset) (cvuBad : Nat) : State :=
  match s.rows[rowOf l].line? n with
  | some b => if s.deadlinePast (rowOf l) n then s.missDeadline (s.rows[rowOf l].isWithheld n) l n
    else (s.updTx l (fun x => x.without n)).sendFrame l b resend u cvuBad
  | none => s.updTx l (fun x => x.without n)

/-- The next item of a transmit lane, by priority (R311). -/
def State.sendNext (s : State) (l : Fin 32) (u : Upset) (cvuBad : Nat) : State :=
  let x := s.hlk.tx[l]
  match x.control, x.resends, x.frames.dropWhile (s.rows[rowOf l].callsOff l) with
  | .withhold n reason :: _, _, _ => (s.popControl l).sendBlocks l [withholdBlock l n reason]
  | .flush reason :: _, _, _ => (s.popControl l).sendFlush l reason 1
  | .frame _ :: _, _, _ => s.popControl l
  | [], n :: _, _ => s.sendLine l n true u cvuBad
  | [], [], frames =>
    let s1 := s.updTx l (fun x => { x with frames := frames.drop 1 })
    match frames with
    | [] => s1
    | .withhold n reason :: _ => s1.sendBlocks l [withholdBlock l n reason]
    | .flush reason :: _ => s1.sendFlush l reason 1
    | .frame n :: _ => (s.updTx l (fun x => { x with frames := frames })).sendLine l n false u cvuBad

/-- The lane carries blocks and no frame is in progress. -/
def State.laneFree (s : State) (l : Fin 32) : Bool := (s.lane (asLane l)).state == .active && !s.inFrame l

def execFrameSend (l : Fin 32) (upset : Upset) (cvuBad t : Nat) (s : State) : Host.Outcome State Fault Refusal :=
  let s1 := s.at t
  .next (if s1.laneFree l then (s1.recheckDue l).sendNext l upset cvuBad else s1)

/-! ### FLUSH (R319) -/

def execFlush (l : Fin 32) (t : Nat) (s : State) : Host.Outcome State Fault Refusal :=
  let s1 := s.at t
  match (s1.hlk.tx[l]).control with
  | .flush reason :: _ => .next (if s1.laneFree l then (s1.popControl l).sendFlush l reason 1 else s1)
  | _ => .next s1

/-- 4.5 µs. -/
def answerTime : Nat := ns 4500

/-- One more FLUSH; a second miss fails arming with the lane in `detail`. -/
def execFlushTimeout (l : Fin 32) (t : Nat) (s : State) : Host.Outcome State Fault Refusal :=
  let s1 := s.at t
  match (s1.hlk.tx[l]).flushWait with
  | some (_, sent, tries) =>
    .next (if s1.aon < sent + answerTime then s1
      else if tries < 2 then s1.sendFlush l 0 2
      else
        let s2 := s1.updTx l (fun x => { x with flushWait := none })
        if s2.job.state == .arming then s2.armFail .lastingFault l.val else s2)
  | none => .next s1

/-! ### Answers (R313 to R316) -/

/-- A frame draws a NAK or no answer: cause 0 to 3. The first queues one resend, a resend that fails is lasting; each line of each lane
is judged, also one that has been withheld in the meantime (R314). -/
def State.frameFault (s : State) (l : Fin 32) (n cause : Nat) : State :=
  match s.rows[rowOf l].line? n with
  | none => s
  | some b =>
    if (b.half l).frameCause.isSome then s.frameLasting l n cause
    else
      let s1 := ((s.frameEvent l n cause clsPending).detect (lineDetect fcFrame l n false .pending)).updHalf l n
        (fun x => { x with frameCause := some cause })
      if s.deadlinePast (rowOf l) n then s1.frameLasting l n 5 else s1.queueResend l n

/-- The fault of a frame whose resend has been taken is transient. -/
def State.frameRecovered (s : State) (l : Fin 32) (n : Nat) : State :=
  match (s.rows[rowOf l].line? n).bind (fun b => (b.half l).frameCause) with
  | some cause => ((s.frameEvent l n cause clsTransient).detect (lineDetect fcFrame l n false .transient)).updHalf l n
      (fun x => { x with frameCause := none })
  | none => s

def State.unawait (s : State) (l : Fin 32) (a : Awaited) : State :=
  s.updTx l (fun x => { x with awaiting := x.awaiting.filter (fun b => b.fseq ≠ a.fseq) })

/-- The answer of a frame that awaits one. -/
def State.frameAnswer (s : State) (l : Fin 32) (a : Awaited) (result : Nat) : State :=
  match result with
  | 0 =>
    let s1 := (s.unawait l a).frameRecovered l a.line
    if a.checkOk then s1.updHalf l a.line (fun h => { h with acked := true }) else s1
  | 1 => (s.unawait l a).frameFault l a.line 0
  | 2 => (s.unawait l a).frameFault l a.line 1
  | 3 => (s.unawait l a).frameFault l a.line 2
  | 4 => if a.checkOk then s else (s.unawait l a).frameRecovered l a.line
  | _ => s

def State.ackBlock (s : State) (l : Fin 32) (blk : BitVec 64) : State :=
  let x := s.hlk.tx[l]
  let fseq : Byte := BitVec.ofNat 8 (bitAt blk 32 8)
  let result := bitAt blk 40 8
  if bitAt blk 8 3 ≠ l.val % 8 then s.updTx l (fun x => { x with wiring := satAdd x.wiring 1 })
  else
    let flushed := match x.flushWait with | some (f, _, _) => f == fseq && result == 5 | none => false
    if flushed then s.updTx l (fun x => { x with flushWait := none, flushed := true })
    else match x.awaiting.find? (fun a => a.fseq = fseq) with
      | some a => s.frameAnswer l a result
      | none => s.updTx l (fun x => { x with dropped := satAdd x.dropped 1 })

/-- No answer within 4.5 µs of FRAME_END. -/
def execAckTimeout (l : Fin 32) (t : Nat) (s : State) : Host.Outcome State Fault Refusal :=
  let s1 := s.at t
  match (s1.hlk.tx[l]).awaiting.find? (fun a => decide (a.sentAt + answerTime ≤ s1.aon)) with
  | some a => .next ((s1.unawait l a).frameFault l a.line 3)
  | none => .next s1

end Sys2Proof.Machine
end

