-- ==== Sys2Proof/Machine/Lanes.lean ====
section
/-! DEFINITION. Head-link lanes (12): the lane commands, training and bring-up, loss and retrain, sleep, and lane tests. -/

namespace Sys2Proof.Machine

/-! ### LINK_CONTROL (R300) -/

/-- The connectors a mask names. -/
def namedConns (m : Nat) : List (Fin 4) := (List.finRange 4).filter (fun c => m.testBit c.val)

def State.wakeConns (s : State) (o : Origin) (named : Nat) : Ans :=
  let open_ := (namedConns named).filter (fun c => !s.connUp c || s.hlk.conns[c].entering)
  if open_.isEmpty then { state := s }
  else
    let failed := open_.filter (fun c => s.failedLanes c ≠ 0)
    let w : WakeReq := { origin := o, open_ := BitVec.ofNat 4 (open_.foldl (fun m c => m + 2 ^ c.val) 0),
                         named := BitVec.ofNat 4 named, bad := [], lanes := 0 }
    let s1 := { s with hlk := { s.hlk with wakes := s.hlk.wakes ++ [w] } }
    let s2 := (open_.filter (fun c => s.failedLanes c = 0)).foldl State.wakeConn s1
    { state := failed.foldl (fun s c => s.wakeDone c .lastingFault 10 0 linkNone 0) s2, status := some .accepted }

def State.sleepConns (s : State) (o : Origin) (named : Nat) : Ans :=
  let go := (namedConns named).filter (fun c => (connLanes c).any (fun l => (s.lane (asLane l)).busy))
  if go.isEmpty then { state := s }
  else
    { state := go.foldl (fun s c => (s.enterSleep c (some o)).wakeDone c .badState 8 0 linkNone 0) s, status := none }

def cmdLinkControl : Cmd :=
  { opcode := 0x0510, okLen := fun n => n == 8
    run := fun q s =>
      let act := fld q.payload 0 1
      let named := fld q.payload 1 1
      checks s [(decide (2 < act) || decide (15 < named) || !zeros q.payload 2 6, .badParam)] fun _ =>
        if named = 0 then { state := s }
        else if act = 0 then s.wakeConns q.origin named
        else if s.armed then .fail s .badState
        else if act = 1 then s.sleepConns q.origin named
        else { state := (namedConns named).foldl State.resetConn s } }

def execLinkControl (q : Req) (s : State) : Host.Outcome State Fault Refusal := .next (serve cmdLinkControl q s)

/-! ### LANE_CONFIG and LANE_STATUS (R301, R302) -/

def cmdLaneConfig : Cmd :=
  { opcode := 0x0511, okLen := fun n => n == 16
    run := fun q s =>
      let p := q.payload
      let c := fld p 0 1
      let pre := fld p 2 1
      let bad := decide (3 < c) || decide (fld p 1 1 < 8 ∨ 24 < fld p 1 1) || (decide (7 < pre) && pre != 0xFF) || decide (3 < fld p 3 1) ||
        decide (15 < fld p 4 1) || !zeros p 5 3 || decide (3600000 < fld p 8 4) || !zeros p 12 4
      checks s [(bad, .badParam), (s.armed, .badState)] fun _ =>
        let cfg : LaneCfg := { swing := fld p 1 1, preset := if pre = 0xFF then none else some pre, fixedCtle := bit (fld p 3 1) 0,
                               noTxFix := bit (fld p 3 1) 1, ctleDb := fld p 4 1, autoSleepMs := fld p 8 4 }
        { state := s.updConn (Fin.ofNat 4 c) (fun n => { n with cfg := cfg }) } }

def execLaneConfig (q : Req) (s : State) : Host.Outcome State Fault Refusal := .next (serve cmdLaneConfig q s)

def Lane.bytes (n : Lane) : List Byte :=
  le 1 n.state.code ++ le 1 (maskOf [n.rxInv, n.rxRev, n.txInv, n.txRev, n.signalAt.isSome]) ++ le 1 (n.ctle % 16 + 16 * (n.preset % 8)) ++
  le 1 n.margin ++ le 2 n.transients.toNat

def cmdLaneStatus : Cmd :=
  { opcode := 0x0512, okLen := fun n => n == 0
    run := fun _ s => { state := s, payload := le 8 s.nowNs ++ zeroBytes 8 ++
      (List.finRange 32).flatMap (fun l => (s.lane (asLane l)).bytes) } }

def execLaneStatus (q : Req) (s : State) : Host.Outcome State Fault Refusal := .next (serve cmdLaneStatus q s)

/-! ### Training (R283, R287 to R289) -/

/-- The partner's lane ids on a connector's receive lanes, in position order. -/
def State.seenIds (s : State) (c : Fin 4) : List Nat := (connLanes c).map (fun l => (s.lane (asLane l)).partnerId)

/-- Identity and reversal, the two orders accepted (R288). -/
def identityIds : List Nat := List.range 8
def reversedIds : List Nat := (List.range 8).reverse

/-- What the partner's lane k echoes. -/
def State.echoOf (s : State) (c : Fin 4) (k : Fin 8) : Option (Nat × Bool) := (s.lane (asLane ⟨8 * c.val + k.val, by omega⟩)).echo

/-- HLK_WIRING: direction 0 receive, 1 transmit. -/
def State.wiring (s : State) (c : Fin 4) (dir : Nat) (seen : List Nat) : State :=
  s.post 0x02B3 clsJob ([(1, c.val), (1, dir)] ++ seen.map (fun v => (1, v)))

def State.updConnLanes (s : State) (c : Fin 4) (f : Lane → Lane) : State :=
  (connLanes c).foldl (fun s l => s.updLane (asLane l) f) s

/-- A lane's receiver hands over to another pair: everything learnt of the pair goes with it. -/
def Lane.receiver (n m : Lane) : Lane :=
  { n with rxInv := m.rxInv, signalAt := m.signalAt, sync := m.sync, ctle := m.ctle, margin := m.margin, partnerPreset := m.partnerPreset,
           agree := m.agree, partnerId := m.partnerId, seenValid := m.seenValid, partnerInv := m.partnerInv, echo := m.echo,
           partnerEqDone := m.partnerEqDone, partnerReady := m.partnerReady }

/-- The receive crossbar of a connector is turned around (R288). -/
def State.turnReceive (s : State) (c : Fin 4) : State :=
  (connLanes c).foldl (fun u l =>
    u.updLane (asLane l) (fun n => { n.receiver (s.lane (mirrorLane (asLane l))) with rxRev := !n.rxRev })) s

/-- Receive order, once every lane of the connector agrees. -/
def State.receiveOrder (s : State) (c : Fin 4) : State :=
  if (connLanes c).all (fun l => (s.lane (asLane l)).alignedTo) then
    let ids := s.seenIds c
    if ids = identityIds then s
    else if ids = reversedIds then s.turnReceive c
    else if s.hlk.conns[c].wiringRx then s
    else (s.wiring c 0 ids).updConn c (fun n => { n with wiringRx := true })
  else s

/-- Transmit order and polarity from the partner's echoes (R289). -/
def State.transmitOrder (s : State) (c : Fin 4) : State :=
  let echoes := (List.finRange 8).map (s.echoOf c)
  if s.seenIds c = identityIds ∧ echoes.all Option.isSome = true then
    let seen := echoes.filterMap (fun e => e.map (·.1))
    let inverted (l : Fin 32) : Bool := match (s.lane (asLane l)).echo with | some x => x.2 | none => false
    let straight := seen = (List.range 8).map (fun k => 8 * c.val + k)
    let turned := seen = (List.range 8).map (fun k => 8 * c.val + 7 - k)
    let fix := !s.hlk.conns[c].inForce.noTxFix
    let bad (s : State) : State :=
      if s.hlk.conns[c].wiringTx then s else (s.wiring c 1 seen).updConn c (fun n => { n with wiringTx := true })
    if turned then
      if fix then s.updConnLanes c (fun n => { n with txRev := !n.txRev, echo := none }) else bad s
    else if straight then
      if (connLanes c).any inverted then
        if fix then
          (connLanes c).foldl (fun u l => if inverted l then u.updLane (asLane l) (fun n => { n with txInv := !n.txInv, echo := none }) else u) s
        else bad s
      else s
    else bad s
  else s

/-- ALIGN's condition for a head-link lane: order and polarity are right on all 8 lanes. -/
def State.alignOk (s : State) (c : Fin 4) : Bool :=
  (connLanes c).all (fun l => (s.lane (asLane l)).alignedTo) && s.seenIds c == identityIds &&
    (List.finRange 8).all (fun k => s.echoOf c k == some (8 * c.val + k.val, false))

/-- A chain lane decides polarity only (15 R355). -/
def State.chainAlign (s : State) (l : Fin 34) : State :=
  match (s.lane l).echo with
  | some (_, true) => s.updLane l (fun n => { n with txInv := !n.txInv, echo := none })
  | _ => s

/-- ALIGN, in a bring-up or in a retrain. -/
def Lane.aligning (n : Lane) : Bool := n.state == .align || (n.state == .retrain && n.stage == 4)

/-- What a lane takes from a valid training block; `inv` when it arrived inverted. -/
def Lane.train (n : Lane) (fixed : Bool) (b : BitVec 64) (inv : Bool) : Lane :=
  let id := bitAt b 8 5
  let same := decide (0 < n.agree) && n.partnerId == id && n.partnerInv == inv
  let agree := if n.aligning then (if same then min 16 (n.agree + 1) else 1) else n.agree
  let req := bitAt b 20 4
  { n with
    agree := agree
    partnerId := id
    seenValid := true
    partnerInv := inv
    rxInv := if n.aligning && agree == 16 then inv else n.rxInv
    echo := if bitAt b 31 1 = 1 then some (bitAt b 24 5, bitAt b 29 1 == 1) else n.echo
    preset := if decide (req ≤ 7) && !fixed then req else n.preset
    partnerEqDone := n.partnerEqDone || bitAt b 48 1 == 1
    partnerReady := bitAt b 49 1 == 1 }

/-- The line an item of a transmit queue concerns. -/
def txLine : TxItem → Nat
  | .withhold n _ => n
  | .frame n => n
  | .flush _ => 0

def insertTx (i : TxItem) : List TxItem → List TxItem
  | [] => [i]
  | j :: r => if txLine i < txLine j then i :: j :: r else j :: insertTx i r

/-- What a lost lane owes: every line it has not had acknowledged is queued again in tag order; a recheck fault stays pending, and a
frame that was cut off gives no verdict; a line whose deadline is past is withheld (13 R320). -/
def State.requeue (s0 : State) (l : Fin 32) : State :=
  let s := if s0.inFrame l then s0 else s0.recheckDue l
  let r := rowOf l
  let row := s.rows[r]
  let due := (row.buffer.filter (fun b => b.poured && !(b.half l).acked && (!row.isWithheld b.data.line || (b.half l).recheckPending) &&
    decide (s.lsd.rows[r].next ≤ b.data.line))).map (fun b => b.data.line)
  let kept := s.hlk.tx[l].frames.filter (fun i => match i with | .frame _ => false | _ => true)
  let s1 := s.updTx l (fun x => { x with
    resends := [], awaiting := [], frameEnd := 0, frames := due.foldl (fun q n => insertTx (.frame n) q) kept })
  let s2 := due.foldl (fun s n => s.updHalf l n (fun h => { h with
    begun := false, check := none, frameCause := none })) s1
  (due.filter (s2.deadlinePast r)).foldl (fun s n => s.missDeadline (row.isWithheld n) l n) s2

/-- A lost ACTIVE lane: both directions retrain once, from stage 3 (R292, R293). -/
def State.loseLane (s : State) (l : Fin 32) (cause : BitVec 4) : State :=
  let s1 := s.updLane (asLane l) (fun n => { n with
    state := .retrain, stage := 3, since := s.aon, lossMask := cause, partnerReady := false
    sync := if cause &&& 5 = 0 then n.sync else BlockSync.init })
  (((s1.requeue l).laneEvent l cause clsPending).detect (laneDetect l .pending)).sendTraining (asLane l) 3

/-- A valid training block on a lane. On an ACTIVE lane it is the partner's report of a loss; on a chain lane, stage 7
announces that the partner's direction sleeps, and any other stage that it wakes (15 R377). -/
def State.trainLane (s : State) (l : Fin 34) (b : BitVec 64) (inv : Bool) : State :=
  let n := s.lane l
  if h : l.val < 32 then
    let hl : Fin 32 := ⟨l.val, h⟩
    let c := connOf hl
    if n.state == .active then s.loseLane hl 8
    else
      let s1 := s.updLane l (fun n => n.train s.hlk.conns[c].inForce.preset.isSome b inv)
      if n.aligning then ((s1.receiveOrder c).transmitOrder c).sendTraining l 4
      else (s1.sendTraining l (s1.lane l).announced).linkCheck c
  else
    let side : Side := if l.val = 32 then .inn else .out
    let hop := s.hop side
    if n.state == .active then
      if bitAt b 16 4 = 7 then s.peerSleeps side
      else if hop.rxSleep then s.peerWakes side
      else if hop.retrain.isNone then s.loseHop side 8
      else s
    else
      let s1 := s.updLane l (fun n => n.train false b inv)
      if n.aligning then (s1.chainAlign l).sendTraining l 4 else s1.sendTraining l (s1.lane l).announced

/-! ### Blocks received (R286, R287, 13 R307) -/

/-- The lane that a physical receive pair serves behind the crossbar (R288). -/
def State.rxLane (s : State) (l : Fin 34) : Fin 34 := if (s.lane l).rxRev then mirrorLane l else l

def State.dropBlock (s : State) (l : Fin 34) : State := s.updLane l (fun n => { n with dropped := satAdd n.dropped 1 })

/-- A control block on an ACTIVE lane: training, IDLE, ACK; any other, and a chain lane's own, is dropped here and counted. -/
def State.controlBlock (s : State) (l : Fin 34) (b : BitVec 64) : State :=
  if isTraining b then s.trainLane l b (s.lane l).rxInv
  else if b = 0 then s
  else if h : l.val < 32 then
    if (blockBytes b).getD 0 0 = 0xF1 ∧ chkOk b = true then s.ackBlock ⟨l.val, h⟩ b else s.dropBlock l
  else s.dropBlock l

/-- A block of a lane that holds block lock. In ALIGN a control header with a valid training block shows the lane true, a data header
whose inverted payload is one shows it inverted; a block that shows neither breaks the run (R287). Elsewhere the receive inversion
is applied first. -/
def State.lockedBlock (s : State) (l : Fin 34) (hdr : BitVec 2) (blk : BitVec 64) : State :=
  let n := s.lane l
  if n.aligning then
    let b := if hdr = hdrData then ~~~blk else blk
    if hdrValid hdr && isTraining b then s.trainLane l b (hdr == hdrData)
    else (s.dropBlock l).updLane l (fun n => { n with agree := 0 })
  else
    let b := if n.rxInv then ~~~blk else blk
    let control := hdr == (if n.rxInv then hdrData else hdrControl)
    match n.state with
    | .active => if control then s.controlBlock l b else s.dropBlock l
    | .equalise | .ready => if control && isTraining b then s.trainLane l b n.rxInv else s.dropBlock l
    | _ => s

/-- A lane in a state that receives blocks; one of a connector that enters SLEEP ignores them (R296). -/
def State.receives (s : State) (l : Fin 34) : Bool :=
  let n := s.lane l
  (n.state == .lock || n.state == .align || n.state == .equalise || n.state == .ready || n.state == .active || n.state == .retrain) &&
    !(if h : l.val < 32 then s.hlk.conns[connOf ⟨l.val, h⟩].entering else false)

/-- A block arrives on a physical pair: its header is examined, and under block lock the block is taken. -/
def State.receive (s : State) (pair : Fin 34) (hdr : BitVec 2) (blk : BitVec 64) : State :=
  let l := s.rxLane pair
  if s.receives l then
    let s1 := s.updLane l (fun n => { n with sync := n.sync.header hdr })
    if (s.lane l).sync.locked then s1.lockedBlock l hdr blk else s1
  else s

def execLaneTrainingBlock (l : Fin 34) (hdr : BitVec 2) (blk : BitVec 64) (t : Nat) (s : State) : Host.Outcome State Fault Refusal :=
  .next ((s.at t).receive l hdr blk)

/-- A head driver's ACK block arrives (13 R313, R314). -/
def execAck (l : Fin 32) (hdr : BitVec 2) (blk : BitVec 64) (t : Nat) (s : State) : Host.Outcome State Fault Refusal :=
  .next ((s.at t).receive (asLane l) hdr blk)

/-! ### Bring-up stages (R284, R285, R295) -/

/-- A bring-up or a retrain runs. -/
def Lane.training (n : Lane) : Bool :=
  n.state == .pll || n.state == .signal || n.state == .lock || n.state == .align || n.state == .equalise || n.state == .ready ||
  n.state == .retrain

/-- The partner preset with the largest eye margin, the first of equals. -/
def bestPreset (margins : List Nat) : Nat × Nat :=
  ((margins.take 8).zipIdx).foldl (fun best e => if best.2 < e.1 then (e.2, e.1) else best) (0, margins.headD 0)

/-- EQUALISE has tried the eight partner presets, 1 ms each: the receiver keeps the best and has adapted. -/
def Lane.equalised (n : Lane) (cfg : LaneCfg) (seen : LaneSeen) (now : Nat) : Lane :=
  if n.eqDone || decide (now < n.since + ms 8) then n
  else
    let best := bestPreset seen.margins
    { n with eqDone := true, partnerPreset := best.1, margin := best.2 % 256,
             ctle := if cfg.fixedCtle then cfg.ctleDb else seen.ctle.val }

/-- Signal detect and sync headers since the last command. -/
def Lane.saw (n : Lane) (seen : LaneSeen) (now : Nat) : Lane :=
  { n with signalAt := if seen.signal then some (n.signalAt.getD now) else none, sync := seen.headers.foldl BlockSync.header n.sync }

/-- Signal has been detected for 100 µs of the stage. -/
def Lane.steady (n : Lane) (now : Nat) : Bool := match n.signalAt with | some t0 => decide (max t0 n.since + us 100 ≤ now) | none => false

/-- The next stage of a lane whose condition is met, `n` as it has seen; `aligned` is ALIGN's, `lost` that block lock was lost meanwhile.
A lane that wakes with stored values falls back to EQUALISE where its first 100 µs are bad (R295). -/
def Lane.advance (n : Lane) (cfg : LaneCfg) (aligned lost : Bool) (seen : LaneSeen) (now : Nat) : Lane :=
  match n.state with
  | .pll => { n with state := .signal, since := now }
  | .signal => if n.steady now then { n with state := .lock, since := now, sync := BlockSync.init } else n
  | .lock => if n.sync.locked then { n with state := .align, since := now, agree := 0, echo := none } else n
  | .align =>
    if aligned then { n with state := if n.waking then .ready else .equalise, since := now } else n
  | .equalise =>
    let m := n.equalised cfg seen now
    if m.eqDone && m.partnerEqDone then { m with state := .ready, since := now, stored := true } else m
  | .ready =>
    if !n.waking then n
    else if lost || decide (seen.blocks < 10000 * seen.badBlocks) then
      { n with state := .equalise, since := now, waking := false, eqDone := false, stored := false }
    else { n with waking := decide (now < n.since + us 100) }
  | .retrain => if n.stage == 3 && n.sync.locked then { n with stage := 4, agree := 0, echo := none } else n
  | _ => n

def State.stageDone (s : State) (l : Fin 34) (seen : LaneSeen) : State :=
  let lost := (s.lane l).sync.loses seen.headers
  let s0 := s.updLane l (fun n => n.saw seen s.aon)
  if h : l.val < 32 then
    let c := connOf ⟨l.val, h⟩
    if s.hlk.conns[c].entering || !(s.lane l).training then s0
    else
      let s1 := s0.updLane l (fun n => n.advance s.hlk.conns[c].inForce (s0.alignOk c) lost seen s.aon)
      (s1.sendTraining l (s1.lane l).announced).linkCheck c
  else if !(s.lane l).training then s0
  else
    let side : Side := if l.val = 32 then .inn else .out
    let s1 := s0.updLane l (fun n => n.advance LaneCfg.init (s0.chainAligned l) lost seen s.aon)
    let s2 := s1.sendTraining l (s1.lane l).announced
    if (s2.lane l).state == .ready && (s2.lane l).partnerReady then
      (s2.updLane l (fun n => { n with state := .active })).hopActive side
    else s2

/-- A lane reports what its receiver has seen, and leaves its stage when the condition is met. A lane that is OFF sees nothing; an ACTIVE
one reports by LANE_LOSS. -/
def execLaneStageDone (l : Fin 34) (seen : LaneSeen) (t : Nat) (s : State) : Host.Outcome State Fault Refusal :=
  let s1 := s.at t
  let n := s1.lane l
  .next (if n.state == .off || n.state == .active || n.state == .test then s1 else s1.stageDone l seen)

/-- The limit of a stage; OFF and READY have none. -/
def stageLimit_ : LaneState → Option Nat
  | .pll => some (us 200)
  | .signal => some (ms 100)
  | .lock => some (ms 1)
  | .align => some (ms 1)
  | .equalise => some (ms 20)
  | _ => none

/-- A lane exceeds its stage's limit: it starts again once, and then is FAILED. -/
def State.overLimit (s : State) (l : Fin 34) : State :=
  let n := s.lane l
  let stage := n.state.stage
  if h : l.val < 32 then
    let hl : Fin 32 := ⟨l.val, h⟩
    if n.restarted then
      ((s.updLane l (fun n => { n with state := .failed })).detect (laneDetect hl .detected)).linkDone (connOf hl) .lastingFault 10 stage linkLimit 0
    else
      (s.updLane l (fun n => { n.begin_ s.hlk.conns[connOf hl].inForce s.aon with restarted := true, waking := false, eqDone := false })).detect
        (laneDetect hl .pending)
  else
    let side : Side := if l.val = 32 then .inn else .out
    if n.restarted then (s.updLane l (fun n => { n with state := .failed })).detect (hopDetect side .reported)
    else (s.updLane l (fun n => { n.begin_ LaneCfg.init s.aon with restarted := true, waking := false, eqDone := false })).detect
      (hopDetect side .pending)

/-- The limit is exceeded; a bring-up that a SLEEP has ended has none (R296). -/
def execStageLimit (l : Fin 34) (t : Nat) (s : State) : Host.Outcome State Fault Refusal :=
  let s1 := s.at t
  let ended := if h : l.val < 32 then s1.hlk.conns[connOf ⟨l.val, h⟩].entering else false
  match stageLimit_ (s1.lane l).state with
  | some d => .next (if (s1.lane l).since + d < s1.aon ∧ ended = false then s1.overLimit l else s1)
  | none => .next s1

/-! ### Loss and retrain (R292, R293) -/

/-- Loss of signal (bit 0), of block lock by the headers received (bit 1), or of clock recovery (bit 2); a partner's report (bit 3) is a
training block. A loss during sleep entry is ignored (R296). -/
def execLaneLoss (l : Fin 32) (cause : BitVec 4) (headers : List (BitVec 2)) (t : Nat) (s : State) : Host.Outcome State Fault Refusal :=
  let s1 := s.at t
  let n := s1.lane (asLane l)
  let all := (cause &&& 5) ||| (if n.sync.loses headers then 2 else 0)
  .next (if n.state == .active && !s1.hlk.conns[connOf l].entering then
      let s2 := s1.updLane (asLane l) (fun n => { n with
        sync := headers.foldl BlockSync.header n.sync, signalAt := if cause.getLsbD 0 then none else n.signalAt })
      if all = 0 then s2 else s2.loseLane l all
    else s1)

/-- The first line of a lane's row that has not been acknowledged on it. -/
def State.firstUnacked (s : State) (l : Fin 32) : Nat :=
  let n0 := s.lsd.rows[rowOf l].next
  ((List.range 64).map (fun i => n0 + i)).find? (fun n => match s.rows[rowOf l].line? n with
    | some b => !(b.half l).acked
    | none => true) |>.getD n0

/-- The retrain has reached READY. -/
def State.retrainOk (s : State) (l : Fin 32) : State :=
  let n := s.lane (asLane l)
  let s1 := s.updLane (asLane l) (fun n => { n with state := .ready, since := s.aon, transients := satAdd n.transients 1 })
  (((s1.laneEvent l n.lossMask clsTransient).detect (laneDetect l .transient)).sendTraining (asLane l) 6).linkCheck (connOf l)

/-- The retrain has not reached READY within 40 µs. -/
def State.retrainLost (s : State) (l : Fin 32) : State :=
  let n := s.lane (asLane l)
  let s1 := s.updLane (asLane l) (fun n => { n with state := .failed })
  let s2 := (s1.laneEvent l n.lossMask clsLasting).detect (laneDetect l .detected true (s.firstUnacked l))
  s2.linkDone (connOf l) .lastingFault 10 n.stage linkRetrain 0

/-- A retrain whose ALIGN holds within 40 µs is READY; one that takes longer fails. -/
def execRetrainDone (l : Fin 32) (t : Nat) (s : State) : Host.Outcome State Fault Refusal :=
  let s1 := s.at t
  let n := s1.lane (asLane l)
  .next (if n.state == .retrain && !s1.hlk.conns[connOf l].entering then
      if n.since + us 40 < s1.aon then s1.retrainLost l
      else if n.stage == 4 && s1.alignOk (connOf l) then s1.retrainOk l
      else s1
    else s1)

/-! ### Sleep (R294) -/

def execAutoSleep (c : Fin 4) (t : Nat) (s : State) : Host.Outcome State Fault Refusal :=
  let s1 := s.at t
  let n := s1.hlk.conns[c]
  .next (if 0 < n.inForce.autoSleepMs ∧ s1.armed = false ∧ 0 < s1.job.stoppedAt ∧ s1.job.stoppedAt + ms n.inForce.autoSleepMs ≤ s1.aon ∧
      n.wokenAt ≤ s1.job.stoppedAt ∧ n.entering = false then
    (s1.enterSleep c none).wakeDone c .badState 8 0 linkNone 0
  else s1)

/-- Sleep entry completes: 64 training blocks of stage 7 on each lane, then idle; signal detect stays on. -/
def State.asleep (s : State) (c : Fin 4) : State :=
  let s1 := (connLanes c).foldl (fun s l =>
    if (s.lane (asLane l)).busy then
      ((s.sleepOut (asLane l)).updLane (asLane l) (fun n => { n with state := .sleep })).updTx l TxLane.emptied
    else s) s
  let s2 := (s1.entryOver c .ok).linkPost c .ok 8 0 linkNone
  if s.hlk.conns[c].wakeAfter then s2.beginConn c else s2

def execSleepEntry (c : Fin 4) (t : Nat) (s : State) : Host.Outcome State Fault Refusal :=
  let s1 := s.at t
  .next (if s1.hlk.conns[c].entering then s1.asleep c else s1)

/-! ### Lane tests (R297 to R299, R303, R304) -/

/-- Error counting runs: SQUARE is not checked, TX_ONLY checks nothing. -/
def TestRun.checked (t : TestRun) : Bool := t.pattern != 4 && t.mode != 2

/-- A test starts on the selected lanes; a FAILED lane stays FAILED (R285). DEDUCED: R303 has the selected lanes enter TEST, and R285
lets a FAILED lane leave FAILED only by RESET (log 86). -/
def State.startTest (s : State) (t : TestRun) : State :=
  let s1 := s.endTest 1
  let once := t.inject == 1
  let sel (l : Fin 32) : Bool := t.lanes.getLsbD l.val && (s1.lane (asLane l)).state != .failed
  let tests := Vector.ofFn (fun l : Fin 32 =>
    { LaneTest.init with
      selected := sel l, injected := if sel l && once then 1 else 0
      errors := if sel l && once && t.mode == 0 && t.checked then 1 else 0 })
  let s2 := { s1 with hlk := { s1.hlk with test := some t, tests := tests } }
  (List.finRange 32).foldl (fun s l =>
    if sel l then
      let n := s.lane (asLane l)
      (s.updLane (asLane l) (fun n => { n with state := .test })).emit
        (.lanePattern (if n.txRev then mirrorLane (asLane l) else asLane l) t.pattern)
    else s) s2

def cmdLaneTest : Cmd :=
  { opcode := 0x0830, okLen := fun n => n == 16
    run := fun q s =>
      let p := q.payload
      let lanes := fld p 0 4
      let exp := fld p 7 1
      let bad := decide (4 < fld p 4 1) || decide (2 < fld p 5 1) || decide (2 < fld p 6 1) ||
        (fld p 6 1 == 2 && decide (exp < 6 ∨ 12 < exp)) || decide (fld p 8 4 = 0 ∨ 3600000 < fld p 8 4)
      checks s [(!zeros p 12 4 || (lanes != 0 && bad), .badParam), (s.armed, .badState)] fun _ =>
        if lanes = 0 then { state := s.endTest 1 }
        else
          { state := s.startTest { lanes := BitVec.ofNat 32 lanes, pattern := fld p 4 1, mode := fld p 5 1, inject := fld p 6 1,
                                   injectExp := exp, durationMs := fld p 8 4, started := s.aon, origin := q.origin }
            status := some .accepted } }

def execLaneTest (q : Req) (s : State) : Host.Outcome State Fault Refusal := .next (serve cmdLaneTest q s)

def cmdLaneTestRead : Cmd :=
  { opcode := 0x0831, okLen := fun n => n == 8
    run := fun q s =>
      let l := fld q.payload 0 1
      checks s [(decide (31 < l) || !zeros q.payload 1 7, .badParam)] fun _ =>
        let t := s.hlk.tests[(Fin.ofNat 32 l : Fin 32)]
        let running := match s.hlk.test with | some r => r.lanes.getLsbD l | none => false
        { state := s, payload := le 8 t.bits.toNat ++ le 8 t.errors.toNat ++ le 4 t.syncLosses.toNat ++ le 4 t.injected.toNat ++
            le 1 (maskOf [t.inSync, running]) ++ zeroBytes 7 } }

def execLaneTestRead (q : Req) (s : State) : Host.Outcome State Fault Refusal := .next (serve cmdLaneTestRead q s)

def execLaneTestEnd (t : Nat) (s : State) : Host.Outcome State Fault Refusal :=
  let s1 := s.at t
  match s1.hlk.test with
  | some r => .next (if r.started + ms r.durationMs ≤ s1.aon then s1.endTest 0 else s1)
  | none => .next s1

def State.updTest (s : State) (l : Fin 32) (f : LaneTest → LaneTest) : State :=
  { s with hlk := { s.hlk with tests := upd s.hlk.tests l f } }

/-! ### Patterns (R297, R298) -/

/-- The exponents of a PRBS polynomial. -/
def prbsTaps : Nat → Nat × Nat
  | 0 => (7, 6) | 1 => (15, 14) | 2 => (23, 18) | _ => (31, 28)

/-- The bit that follows a register's bits, the newest at 0. -/
def prbsNext (p : Nat) (r : BitVec 31) : Bool := r.getLsbD ((prbsTaps p).1 - 1) ^^ r.getLsbD ((prbsTaps p).2 - 1)

def shiftIn (r : BitVec 31) (b : Bool) : BitVec 31 := (r <<< 1) ||| (BitVec.ofBool b).zeroExtend 31

/-- `n` bits of the generator. DESIGN CHOICE (log 86): it starts from all ones; the spec gives no seed. -/
def LaneTest.generate (p : Nat) : Nat → LaneTest → List Bool × LaneTest
  | 0, c => ([], c)
  | n + 1, c =>
    let b := prbsNext p c.gen
    let x := LaneTest.generate p n { c with gen := shiftIn c.gen b }
    (b :: x.1, x.2)

/-- The checker takes one bit. Without sync it predicts a bit from those received, and 64 error-free ones in a row give sync; a register
of zeros is no part of any of the patterns. In sync it runs on its own and counts, in windows of 1,024 bits, and more than 256 errors
in one lose sync. -/
def LaneTest.bit (p : Nat) (c : LaneTest) (b : Bool) : LaneTest :=
  let want := prbsNext p c.reg
  if c.inSync then
    let e := b2n (b != want)
    let c1 := { c with bits := satAdd c.bits 1, errors := satAdd c.errors e, reg := shiftIn c.reg want }
    if 256 < c.winErrors + e then { c1 with inSync := false, run := 0, win := 0, winErrors := 0, syncLosses := satAdd c.syncLosses 1 }
    else if c.win + 1 = 1024 then { c1 with win := 0, winErrors := 0 }
    else { c1 with win := c.win + 1, winErrors := c.winErrors + e }
  else
    let run := if b == want && c.reg.toNat % 2 ^ (prbsTaps p).1 != 0 then c.run + 1 else 0
    { c with reg := shiftIn c.reg b, run := if run = 64 then 0 else run, inSync := run = 64 }

/-- Bits reach a lane's checker: under NEAR_LOOP as many of the lane's own generator, under FAR_CHECK the partner's. -/
def LaneTest.saw (r : TestRun) (c : LaneTest) (bits : List Bool) : LaneTest :=
  if r.mode = 0 then
    let x := c.generate r.pattern bits.length
    x.1.foldl (LaneTest.bit r.pattern) x.2
  else bits.foldl (LaneTest.bit r.pattern) c

def execCheckerSync (l : Fin 32) (bits : List Bool) (t : Nat) (s : State) : Host.Outcome State Fault Refusal :=
  let s1 := s.at t
  match s1.hlk.test with
  | some r => .next (if (s1.hlk.tests[l]).selected && r.checked then s1.updTest l (fun c => c.saw r bits) else s1)
  | none => .next s1

/-- Bits a lane has sent since the test began, at 25.78125 Gb/s. -/
def State.sentBits (s : State) (r : TestRun) : Nat := (s.aon - r.started) * 2578125 / (100000 * 2 ^ 32)

/-- One of every 10^n bits sent is inverted; under NEAR_LOOP it is one error at the checker. -/
def execErrorInjection (l : Fin 32) (t : Nat) (s : State) : Host.Outcome State Fault Refusal :=
  let s1 := s.at t
  match s1.hlk.test with
  | some r =>
    let c := s1.hlk.tests[l]
    .next (if c.selected && r.inject == 2 && decide ((c.injected.toNat + 1) * 10 ^ r.injectExp ≤ s1.sentBits r) then
      s1.updTest l (fun c => { c with
        injected := satAdd c.injected 1
        errors := if r.mode = 0 ∧ r.checked = true ∧ c.inSync = true then satAdd c.errors 1 else c.errors })
      else s1)
  | none => .next s1

end Sys2Proof.Machine
end

