-- ==== Sys2Proof/Machine/Mem.lean ====
section
/-! DEFINITION. The memory subsystem (20): its three commands and its events. -/

namespace Sys2Proof.Machine

/-! ### Commands (R516 to R518) -/

/-- Data rate of a set point (R503). -/
def megaTransfers : Fin 3 → Nat
  | 0 => 8533 | 1 => 4266 | 2 => 1600

/-- Bytes moved in the last complete 10 ms window: those of requesters whose amounts the rules give, and an open amount
for the rest. -/
def State.bandwidth (s : State) : Nat :=
  let m := s.miu
  (if s.aon < m.bwStart + ms 10 then m.bwLast else if s.aon < m.bwStart + ms 20 then m.bwNow else 0) + (Config.otherTraffic s.free).toNat

/-- MEM_STATUS's payload. -/
def State.memStatusBytes (s : State) : List Byte :=
  let m := s.miu
  let panicNs := m.panicTime + (match m.panicSince with | some t0 => (s.aon - t0) / 2 ^ 32 | none => 0)
  le 2 (megaTransfers m.fsp) ++ le 1 m.fsp.val ++
  le 1 (maskOf [m.panicSince.isSome, m.panicSince.isSome, m.selfRefresh]) ++ le 1 m.pnrLog2 ++ le 1 m.refreshMult ++
  le 2 m.stuck.length ++ le 4 m.ceTransient.toNat ++ le 4 m.ceLasting.toNat ++ le 4 m.ue.toNat ++ zeroBytes 4 ++
  le 4 m.sramCe.toNat ++ le 4 m.sramUe.toNat ++ le 4 m.retired.length ++ le 4 m.panics.toNat ++ le 4 m.forced.toNat ++
  le 4 m.scrubPeriod ++ le 8 m.passes.toNat ++ le 8 s.bandwidth ++ le 8 panicNs ++ le 8 s.nowNs

def cmdMemStatus : Cmd :=
  { opcode := 0x0810, okLen := fun n => n == 0, run := fun _ s => { state := s.draw, payload := s.memStatusBytes } }

def execMemStatus (q : Req) (s : State) : Host.Outcome State Fault Refusal := .next (serve cmdMemStatus q s)

def cmdMemConfig : Cmd :=
  { opcode := 0x0811, okLen := fun n => n == 16
    run := fun q s =>
      let p := q.payload
      let pnr := fld p 0 1
      let scrub := fld p 2 2
      let idle := fld p 4 4
      checks s [(decide (pnr < 6 ∨ 12 < pnr ∨ 1 < fld p 1 1 ∨ scrub < 32 ∨ 1024 < scrub ∨ idle < 10 ∨ 60000 < idle) ||
                 !zeros p 8 8, .badParam)] fun _ =>
        { state := { s with miu := { s.miu with pnrLog2 := pnr, fixed := fld p 1 1 == 1, scrubPeriod := scrub, idleMs := idle } } } }

def execMemConfig (q : Req) (s : State) : Host.Outcome State Fault Refusal := .next (serve cmdMemConfig q s)

/-- A MEM_INJECT address in range for its target: DRAM outside the firmware area, a PNC word, a line-buffer offset. -/
def injectOk (target addr : Nat) : Bool :=
  if target = 0 then addr % 8 == 0 && decide (0x80000000 ≤ addr ∧ addr < memSize)
  else if target = 1 then decide (addr ≤ 131071)
  else addr % 8 == 0 && decide (addr ≤ 8 * 1024 * 1024 - 8)

def cmdMemInject : Cmd :=
  { opcode := 0x0812, okLen := fun n => n == 16
    run := fun q s =>
      let p := q.payload
      let target := fld p 0 1
      let bit := fld p 2 1
      let addr := fld p 8 8
      checks s [(decide (2 < target ∨ 1 < fld p 1 1 ∨ 71 < bit) || !zeros p 3 5 || !injectOk target addr, .badParam)] fun _ =>
        let c : Corruption := { target := target, double := fld p 1 1 == 1, bit := ⟨bit % 72, Nat.mod_lt _ (by omega)⟩, addr := addr }
        { state := { s with miu := { s.miu with corrupt := c :: s.miu.corrupt } } } }

def execMemInject (q : Req) (s : State) : Host.Outcome State Fault Refusal := .next (serve cmdMemInject q s)

/-! ### Errors (R507 to R512, R519) -/

def execDramReadError (addr : Nat) (bit : Fin 72) (double again : Bool) (reader : MemReader) (t : Nat) (s : State) :
    Host.Outcome State Fault Refusal :=
  let s1 := s.at t
  let s2 := if reader = .scrubber then { s1 with miu := { s1.miu with passErrors := s1.miu.passErrors + 1 } } else s1
  .next (if double || s2.miu.dead.contains (wordOf addr) then s2.dramDouble addr again reader
         else s2.dramSingle addr bit again reader)

def execSramReadError (arr : SramArray) (addr : Nat) (double again : Bool) (t : Nat) (s : State) :
    Host.Outcome State Fault Refusal :=
  let s1 := s.at t
  let inj := s1.miu.corrupted (arrayTarget arr) addr
  .next (if double then s1.sramDouble arr addr again inj
         else
           let s2 := { s1 with miu := { s1.miu with corrupt := s1.miu.corrupt.filter (fun c =>
             !(c.target == arrayTarget arr && c.addr == addr)) } }
           s2.sramSingle arr addr again inj)

/-- The sweeper of an array meets what is planted in it: one bit is corrected, two are not (R511, R518). -/
def State.sweepWord (arr : SramArray) (s : State) (c : Corruption) : State :=
  if c.double then s.sramDouble arr c.addr false true
  else ({ s with miu := { s.miu with corrupt := s.miu.corrupt.filter (fun x => x != c) } }).sramSingle arr c.addr false true

def execSramSweep (arr : SramArray) (t : Nat) (s : State) : Host.Outcome State Fault Refusal :=
  let s1 := s.at t
  let i : Fin 7 := ⟨(arrayCode arr - 1) % 7, Nat.mod_lt _ (by omega)⟩
  let s2 := { s1 with miu := { s1.miu with sweptAt := s1.miu.sweptAt.set i s1.aon } }
  .next ((s2.miu.corrupt.filter (fun c => c.target = arrayTarget arr)).foldl (State.sweepWord arr) s2)

/-- Transient corrected errors of a memory since its last post, at most once per second (R519). -/
def EccPost.due (e : EccPost) (now : Nat) : Bool :=
  decide (0 < e.count) && (match e.postedAt with | some t0 => decide (t0 + sec 1 ≤ now) | none => true)

def State.memEccPost (s : State) (memory : Nat) (e : EccPost) : State :=
  s.post 0x02F0 clsFault [(1, memory), (8, e.addr), (1, 0), (1, clsTransient), (1, e.reader.toNat), (1, b2n e.injected)] e.count

def execMemEcc (m : Fin 8) (t : Nat) (s : State) : Host.Outcome State Fault Refusal :=
  let s1 := s.at t
  let e := s1.miu.eccPosts[m]
  if e.due s1.aon then
    let s2 := s1.memEccPost m.val e
    .next { s2 with miu := { s2.miu with eccPosts := s2.miu.eccPosts.set m { EccPost.init with postedAt := some s1.aon } } }
  else .next s1

/-! ### Scrubber (R513) -/

/-- The scrubber reads a planted word: one bit is corrected, two are lasting after the second read (R509). -/
def State.scrubWord (s : State) (c : Corruption) : State :=
  let s1 := { s with miu := { s.miu with passErrors := s.miu.passErrors + 1 } }
  if c.double then s1.dramDouble c.addr true .scrubber else s1.dramSingle c.addr c.bit false .scrubber

/-- It reads a word that stays uncorrectable. -/
def State.scrubBad (s : State) (w : Nat) : State :=
  ({ s with miu := { s.miu with passErrors := s.miu.passErrors + 1 } }).dramDouble w true .scrubber

def execScrubBurst (t : Nat) (s : State) : Host.Outcome State Fault Refusal :=
  let s1 := s.at t
  let pos := s1.miu.scrubPos
  if s1.miu.panicSince.isSome || decide (memSize ≤ pos) then .next s1
  else
    let here (a : Nat) : Bool := decide (pos ≤ a ∧ a < pos + 4096)
    let bad := (s1.miu.poison ++ s1.miu.dead).dedup.filter (fun w => here w && !s1.miu.corrupted 0 w)
    let found := s1.miu.corrupt.filter (fun c => c.target == 0 && here c.addr)
    let s2 := bad.foldl State.scrubBad (found.foldl State.scrubWord s1)
    .next { s2 with miu := { s2.miu with scrubPos := pos + 4096 } }

def execScrubPassEnd (t : Nat) (s : State) : Host.Outcome State Fault Refusal :=
  let s1 := s.at t
  if memSize ≤ s1.miu.scrubPos then
    let d := (s1.aon - s1.miu.passStart) / ms 1
    let n := s1.miu.passes.toNat + 1
    let s2 := { s1 with miu := { s1.miu with
      passes := BitVec.ofNat 64 n, scrubPos := 0, passStart := s1.aon, passErrors := 0 } }
    .next (if s1.miu.scrubPeriod * 1100 < d then
        s2.post 0x02F2 clsSystem [(4, n), (4, d), (4, s1.miu.passErrors)]
      else s2)
  else .next s1

/-! ### Refresh (R500 to R502) -/

def execRefresh (ch : Fin 32) (rank : Fin 2) (t : Nat) (s : State) : Host.Outcome State Fault Refusal :=
  let s1 := s.at t
  let i : Fin 64 := ⟨2 * ch.val + rank.val, by omega⟩
  let d := s1.miu.deficit[i]
  if s1.miu.selfRefresh then .next s1
  else if s1.miu.panicSince.isSome then
    if d < 8 then .next { s1 with miu := { s1.miu with deficit := s1.miu.deficit.set i (d + 1) } }
    else .next (({ s1 with miu := { s1.miu with forced := satAdd s1.miu.forced 1, panicForced := s1.miu.panicForced + 1 } }).emit
      (.refresh ch rank))
  else
    let s2 := s1.emit (.refresh ch rank)
    .next (if d = 0 then s2 else ({ s2 with miu := { s2.miu with deficit := s2.miu.deficit.set i (d - 1) } }).emit (.refresh ch rank))

def execNeighbourRefresh (ch : Fin 32) (rank : Fin 2) (bank : Fin 16) (row : Fin 131072) (t : Nat) (s : State) :
    Host.Outcome State Fault Refusal :=
  let s1 := (s.at t).draw
  if (Config.random s.free).toNat % 2 ^ s1.miu.pnrLog2 = 0 then
    let below := if 0 < row.val then s1.emit (.rowRefresh ch rank bank ⟨row.val - 1, by omega⟩) else s1
    .next (if h : row.val + 1 < 131072 then below.emit (.rowRefresh ch rank bank ⟨row.val + 1, h⟩) else below)
  else .next s1

def execRefreshRateRead (mult : Nat) (t : Nat) (s : State) : Host.Outcome State Fault Refusal :=
  let s1 := s.at t
  if mult = 1 ∨ mult = 2 ∨ mult = 4 then .next { s1 with miu := { s1.miu with refreshMult := mult } } else .next s1

/-! ### Background calibration (R506) -/

def execZqCalibration (t : Nat) (s : State) : Host.Outcome State Fault Refusal :=
  let s1 := s.at t
  .next { s1 with miu := { s1.miu with zqAt := s1.aon } }

/-- The detection of a background calibration, a trim of R562. -/
def trainDetect (ch : Nat) (o : FaultOutcome) (stops : Bool) : Detect :=
  { fclass := fcTrim, source := srcMem, unit := BitVec.ofNat 8 ch, outcome := o, stops := stops }

/-- A channel that fails twice: no job can be armed until module reset (R506). -/
def State.trainFailed (s : State) (ch : Nat) : State :=
  (({ s with miu := { s.miu with trainLasting := true } }).post 0x02F3 clsSystem [(1, ch), (1, 1), (1, clsLasting)]).detect
    (trainDetect ch .detected true)

def execDriftMeasure (ch : Fin 32) (drift : DriftResult) (t : Nat) (s : State) : Host.Outcome State Fault Refusal :=
  let s1 := s.at t
  let s2 := { s1 with miu := { s1.miu with driftAt := s1.miu.driftAt.set ch s1.aon } }
  let held := { s2 with miu := { s2.miu with adjusts := upd s2.miu.adjusts ch (· + 1) } }
  match drift with
  | .small => .next s2
  | .adjust => .next held
  | .outOfRange true =>
    .next ((held.post 0x02F3 clsSystem [(1, ch.val), (1, 0), (1, clsTransient)]).detect (trainDetect ch.val .transient false))
  | .outOfRange false => .next (held.trainFailed ch.val)

/-! ### Set points and self-refresh (R503, R504) -/

/-- The set point R503 asks for. -/
def State.wantedSetPoint (s : State) : Fin 3 :=
  if s.miu.fixed || s.armed then 0
  else match s.miu.lastHost with
    | some h => if s.aon < h + ms s.miu.idleMs then 1 else 2
    | none => 2

def execSetPointDecision (t : Nat) (s : State) : Host.Outcome State Fault Refusal :=
  let s1 := s.at t
  let f := s1.wantedSetPoint
  let s2 := { s1 with miu := { s1.miu with fsp := f, selfRefresh := s1.miu.selfRefresh && f == 2 } }
  .next (if f = s1.miu.fsp then s1 else (s2.setClock 4 2 false).setClock 4 6 false)

def execSelfRefresh (t : Nat) (s : State) : Host.Outcome State Fault Refusal :=
  let s1 := s.at t
  if !s1.armed && s1.miu.fsp == 2 && decide (s1.miu.lastTraffic + ms 10 ≤ s1.aon) then
    .next { s1 with miu := { s1.miu with selfRefresh := true } }
  else .next s1

/-! ### Region fences (22 R553) -/

/-- The agents that may write the region an address lies in. -/
def fenceAllows (a : Agent) (addr : Nat) : Bool :=
  if zoneBase ≤ addr then true
  else if addr < 0x80000000 then a == .kettle || a == .housekeeping || a == .firmwareDma
  else if addr < 0xA0200000 then a == .kettle || a == .cdx
  else if addr < storeBase then a == .spc || a == .engine
  else a == .compressor || a == .cdx || a == .firmwareDma || a == .kettle

def execFenceViolation (agent : Agent) (addr : Nat) (t : Nat) (s : State) : Host.Outcome State Fault Refusal :=
  let s1 := s.at t
  if fenceAllows agent addr then .next s1
  else .next (({ s1 with boot := { s1.boot with fenceRefused := satAdd s1.boot.fenceRefused 1 } }).detect
    { fclass := fcFence, source := srcBoot, detail := BitVec.ofNat 32 addr, outcome := .detected, stops := true })

end Sys2Proof.Machine
end

