-- ==== Sys2Proof/Machine/TxnOps.lean ====
section
/-! DEFINITION. Correction transactions (08): the bodies of members (04 R103, 06 R151, R179), the generation they build
(R178, R182), the rows they affect (R184), the commit (R186, R187, R189), and a group in doubt (R195). -/

namespace Sys2Proof.Machine

/-! ### Member bodies (R181) -/

def within (v hi : Nat) : Bool := decide (v ≤ hi)

/-- A Nozzle Exception Table entry whose own fields are legal (06 R132, R133). -/
def NetEntry.parse (p : List Byte) : Option NetEntry :=
  let w := fld p 0 4
  let nozzle := bits w 0 18
  let partner := bits w 18 4
  let valid := bit w 22
  if w < 2 ^ 23 ∧ fld p 4 1 ≤ 64 ∧ fld p 5 1 ≤ 64 ∧ fld p 6 1 ≤ 64 ∧ fld p 7 1 ≤ 64 ∧
      (valid && partner == nozzle / 16384) = false then
    some { nozzle := nozzle, partner := if valid then some (Fin.ofNat 16 partner) else none, keep := fld p 4 1, left := fld p 5 1,
           right := fld p 6 1, pgain := fld p 7 1 }
  else none

def parseTone (p : List Byte) : Option Member :=
  let es := (List.range 256).map (fun i => fld p (4 + 2 * i) 2)
  if p.length = 516 ∧ fld p 0 1 ≤ 31 ∧ zeros p 1 3 = true ∧ es.all (fun e => within e 4095) = true ∧ es.headD 0 = 0 then
    some (.toneCurve (fld p 0 1) es)
  else none

def parseRowTone (p : List Byte) : Option Member :=
  let shift := sfld p 2 2
  if p.length = 8 ∧ fld p 0 1 ≤ 15 ∧ fld p 1 1 ≤ 31 ∧ -512 ≤ shift ∧ shift ≤ 512 ∧ zeros p 4 4 = true then
    some (.rowTone (Fin.ofNat 16 (fld p 0 1)) (fld p 1 1) shift)
  else none

def parsePnc (p : List Byte) : Option Member :=
  let first := fld p 0 4
  let count := fld p 4 4
  let es := (List.range ((p.length - 8) / 4)).map (fun i => fld p (8 + 4 * i) 4)
  if p.length = 8 + 4 * count ∧ 1 ≤ count ∧ first + count ≤ 262144 ∧ es.all (fun e => decide (e < 2 ^ 24)) = true then
    some (.pncRange first (es.map (fun e => (bits e 0 12, signed 12 (bits e 12 12)))))
  else none

def parseBlanket (p : List Byte) : Option Member :=
  let l := fld p 0 2
  let r := fld p 2 2
  let i := fld p 4 1
  if p.length = 8 ∧ l ≤ 256 ∧ r ≤ 256 ∧ i ≤ 32 ∧ zeros p 5 3 = true ∧ (l = 0 ∨ 2 * i + 1 ≤ l) ∧ (r = 0 ∨ 2 * i + 1 ≤ r) then
    some (.blanket l r i)
  else none

def parseNetSet (p : List Byte) : Option Member :=
  let count := fld p 0 4
  let es := (List.range ((p.length - 8) / 8)).map (fun i => NetEntry.parse ((p.drop (8 + 8 * i)).take 8))
  if p.length = 8 + 8 * count ∧ 1 ≤ count ∧ count ≤ 8192 ∧ zeros p 4 4 = true ∧ es.all Option.isSome = true then
    some (.netSet (es.filterMap id))
  else none

def parseNetClear (p : List Byte) : Option Member :=
  if p.length = 8 ∧ 1 ≤ fld p 4 4 ∧ fld p 0 4 + fld p 4 4 ≤ 262144 then some (.netClear (fld p 0 4) (fld p 4 4)) else none

def parseBinding (p : List Byte) : Option Member :=
  if p.length = 16 ∧ fld p 0 8 < 2 ^ 48 then
    some (.binding { inst := fld p 0 8, list := fld p 8 4, slot := fld p 12 1, tile := fld p 13 3 })
  else none

def parseRowTrim (p : List Byte) : Option Member :=
  if p.length = 8 ∧ fld p 0 1 ≤ 15 ∧ fld p 1 1 ≤ 1 ∧ zeros p 2 2 = true then
    some (.rowTrim (Fin.ofNat 16 (fld p 0 1)) (fld p 1 1 == 1) (sfld p 4 4))
  else none

/-- A member of a type R177 names, with a legal body. -/
def Member.parse (ty : Nat) (p : List Byte) : Option Member :=
  match ty with
  | 0x10 => parseTone p
  | 0x11 => parseRowTone p
  | 0x12 => parsePnc p
  | 0x13 => parseBlanket p
  | 0x20 => parseNetSet p
  | 0x21 => parseNetClear p
  | 0x30 => parseBinding p
  | 0x31 => parseRowTrim p
  | _ => none

/-! ### The new generation (R178) -/

def Gen.setNet (g : Gen) (e : NetEntry) : Gen := { g with net := g.net.filter (fun x => x.nozzle ≠ e.nozzle) ++ [e] }

def Gen.bind_ (g : Gen) (b : Binding) : Gen :=
  { g with bindings := g.bindings.filter (fun x => !(x.inst = b.inst && x.list = b.list && x.slot = b.slot)) ++ [b] }

def Gen.apply (g : Gen) : Member → Gen
  | .toneCurve c es => { g with curves := assocSet g.curves c es }
  | .rowTone r c sh => { g with rowCurve := g.rowCurve.set r (some c), shift := g.shift.set r sh }
  | .pncRange first es => { g with pnc := (first, es) :: g.pnc.filter (fun e => !(e.1 = first && e.2.length = es.length)) }
  | .blanket l r i => { g with bLeft := l, bRight := r, inset := i }
  | .netSet es => es.foldl Gen.setNet g
  | .netClear first count => { g with net := g.net.filter (fun e => !(decide (first ≤ e.nozzle ∧ e.nozzle < first + count))) }
  | .binding b => g.bind_ b
  | .rowTrim r delta v => { g with trim := g.trim.set r (if delta then g.trim[r] + v else v) }

/-! ### The checks of the seal (R182) -/

/-- A binding against its list, its tile and the defined sequence (03 R74, 18 R452). DESIGN CHOICE (log 72): BAD_STATE, which needs no
member's contents, comes before BAD_PARAM; the spec gives the seal's checks no order. -/
def State.bindingCheck (s : State) (b : Binding) : Option Status :=
  if s.job.state == .idle then some .badState
  else
    let inside := match s.totals with | some t => decide (b.inst < t.1) | none => true
    let named := match instanceStart s.panels 0 b.inst with | some p => p.2.lists.any (fun e => e.2 = b.list) | none => false
    match s.hamper.lists.find? (fun l => l.handle = b.list) with
    | none => some .badParam
    | some l =>
      match l.slots[b.slot]? with
      | none => some .badParam
      | some sl =>
        let tileOk := b.tile = 0 || (match s.hamper.tiles.find? (fun t => t.id = b.tile && t.ready) with
          | some t => t.codes == l.codes && decide (t.w ≤ sl.boxW ∧ t.h ≤ sl.boxH)
          | none => false)
        if l.isVar && inside && named && tileOk then none else some .badParam

/-- A trim against the newest live generation (02 R38); BAD_STATE before BAD_PARAM (log 72). DEDUCED (log 72): each ROW_TRIM is held to
R38 with the T_r it sets, also where a later member of the group overrides it. -/
def State.trimCheck (s : State) (r : Fin 16) (v : Int) : Option Status :=
  if !s.lsd.configured then some .badState
  else
    let d := |v - s.txn.newest.trim[r]|
    let k : Int := (s.layout.rows[r].k * s.lsd.cfg.num * 65536 : Nat)
    if k ≤ 2 * d * (s.lsd.cfg.den : Int) ∨ v < -(2 ^ 31) ∨ 2 ^ 31 ≤ v then some .badParam else none

/-- Two entries name the same partner nozzle. -/
def partnerClash (es : List NetEntry) : Bool :=
  let names := es.filterMap (fun e => e.partner.map (fun r => (r, e.nozzle % 16384)))
  names.dedup.length != names.length

def State.memberCheck (s : State) (g : Gen) : Member → Option Status
  | .binding b => s.bindingCheck b
  | .rowTrim r _ _ => s.trimCheck r g.trim[r]
  | _ => none

/-- Build a group's generation: the status and the index of the first member that fails. -/
def State.buildFrom (s : State) : Nat → Gen → List (Member × Nat) → Except (Status × Nat) Gen
  | _, g, [] => .ok g
  | i, g, m :: rest =>
    let g' := g.apply m.1
    match s.memberCheck g' m.1 with
    | some st => .error (st, i)
    | none => s.buildFrom (i + 1) g' rest

/-- The last member of a kind. -/
def lastIndex (p : Member → Bool) (ms : List (Member × Nat)) : Nat :=
  ms.zipIdx.foldl (fun n e => if p e.1.1 then e.2 else n) 0

def Member.isNet : Member → Bool
  | .netSet _ => true
  | _ => false

def Member.isBinding : Member → Bool
  | .binding _ => true
  | _ => false

/-- Every check of the seal, and the generation that passes them. DESIGN CHOICE (log 72): the spec gives the checks no order; the base of
CAL's loads comes first, then the members one by one, then partners and capacities. -/
def State.build (s : State) (g : Group) : Except (Status × Nat) Gen :=
  match g.calBase.find? (fun c => c.2 ≠ s.txn.newest.number) with
  | some c => .error (.badState, c.1)
  | none =>
    match s.buildFrom 0 s.txn.newest g.members with
    | .error e => .error e
    | .ok n =>
      if partnerClash n.net then .error (.badParam, lastIndex Member.isNet g.members)
      else if 8192 < n.net.length then .error (.noResource, lastIndex Member.isNet g.members)
      else if 65536 < n.bindings.length then .error (.noResource, lastIndex Member.isBinding g.members)
      else .ok { n with number := s.txn.newest.number + 1 }

/-- An aborted group keeps its id and state alone (R181). -/
def Group.abort (g : Group) : Group := { g with state := .aborted, members := [], calBase := [] }

def Group.holds (g : Group) : Bool := g.state == .sealed || g.state == .prepared

/-- Seal a group (R182); `some` is the status it fails with and the member. -/
def State.seal (s : State) (g : Group) : State × Option (Status × Nat) :=
  if g.state == .sealed || g.state == .prepared then (s, none)
  else if s.txn.older.isSome || s.txn.groups.any (fun x => x.id ≠ g.id && x.holds) then (s, some (.generationBusy, 0))
  else match s.build g with
    | .error e => (s.updGroup g.id Group.abort, some e)
    | .ok n =>
      let s1 := s.updGroup g.id (fun x => { x with state := .sealed })
      ({ s1 with txn := { s1.txn with built := some n } }, none)

/-! ### Affected rows (R184) -/

def netRows (e : NetEntry) : List Nat := e.nozzle / 16384 :: (match e.partner with | some r => [r.val] | none => [])

/-- Rows a member affects, unassigned ones among them. -/
def State.memberRows (s : State) (old new : Gen) (all : List Member) : Member → Fin 16 → Bool
  | .toneCurve c _, r => s.curveOf old r = c || s.curveOf new r = c
  | .rowTone q _ _, r => q = r
  | .rowTrim q _ _, r => q = r
  | .pncRange first es, r => decide (first < (r.val + 1) * 16384 ∧ r.val * 16384 < first + es.length)
  | .blanket _ _ _, _ => true
  | .netSet es, r =>
    let replaced := (old.net ++ all.flatMap (fun m => match m with | .netSet l => l | _ => [])).filter (fun x => es.any (fun e => e.nozzle = x.nozzle))
    (es ++ replaced).any (fun e => (netRows e).contains r.val)
  | .netClear first count, r =>
    let gone := (old.net ++ all.flatMap (fun m => match m with | .netSet l => l | _ => [])).filter (fun x => decide (first ≤ x.nozzle ∧ x.nozzle < first + count))
    gone.any (fun e => (netRows e).contains r.val)
  | .binding b, r =>
    match instanceStart s.panels 0 b.inst, s.layout.rows[r].plane with
    | some p, some plane => p.2.lists.any (fun e => e.2 = b.list && e.1 / 16 = plane.val)
    | _, _ => false

/-- The rows a group affects; an unassigned row is never one (18 R448). -/
def State.affected (s : State) (g : Group) (new : Gen) (r : Fin 16) : Bool :=
  s.assigned r && g.members.any (fun m => s.memberRows s.txn.newest new (g.members.map (·.1)) m.1 r)

/-! ### Leads (R185, R186, R193) -/

/-- A binding whose instance starts below L. -/
def State.earlyBinding (s : State) (g : Group) (l : Nat) : Option Nat :=
  (g.members.zipIdx.find? (fun e => match e.1.1 with
    | .binding b => (match instanceStart s.panels 0 b.inst with | some p => decide (p.1 < l) | none => false)
    | _ => false)).map (·.2)

/-- The first affected row whose effective line lies less than `lead` lines beyond F, and by how much. -/
def State.shortRow (s : State) (rows : Fin 16 → Bool) (l lead : Nat) : Option (Fin 16 × Nat) :=
  (rowsWhere rows).findSome? (fun r =>
    let want := s.lsd.rows[r].next + lead - 1
    if s.effLine r l < want then some (r, want - s.effLine r l) else none)

/-- The smallest L that gives every affected row a lead of 72 lines (R188). -/
def State.asapLine (s : State) (rows : Fin 16 → Bool) : Nat :=
  (rowsWhere rows).foldl (fun m r =>
    let d := s.layout.rows[r]
    max m (d.k * (s.lsd.rows[r].next + 70) + d.phase + 1)) 0

/-! ### The commit (R187, R189) -/

/-- A squash of a row at a line: one at the lower line when another waits (01 R18). -/
def State.wantSquash (s : State) (r : Fin 16) (q : Nat) (why : SquashWhy) : State :=
  s.updRow r (fun x => { x with squash := match x.squash with
    | some y => some { line := min y.line q, why := if y.why == .commit then why else y.why }
    | none => some { line := q, why := why } })

/-- Entries whose partner row is not on the entry's own plane are ignored in the job (06 R134). -/
def State.partnerCheck (s : State) (g : Gen) : State :=
  g.net.foldl (fun s e => match e.partner with
    | none => s
    | some p =>
      let own := (s.layout.rows.toList[e.nozzle / 16384]?).bind (·.plane)
      let other := s.layout.rows[p].plane
      if own = other ∨ (own = none ∧ other = none) then s
      else s.post 0x0260 clsJob [(4, e.nozzle), (1, p.val), (4, g.number.toNat)]) s

/-- An unaffected row runs on under the new number (R187). -/
def State.renumber (s : State) (r : Fin 16) (number : BitVec 32) : State :=
  s.updRow r (fun x => { x with
    ckpts := x.ckpts.map (fun c => { c with generation := number })
    ring := x.ring.map (fun a => { a with generation := number })
    buffer := x.buffer.map (fun b => { b with data := { b.data with generation := number } }) })

/-- A sealed generation as its commit finds it: bindings that have retired since the seal stay retired (03 R78, 18 R452). -/
def Gen.atCommit (n old : Gen) (g : Group) : Gen :=
  let own := g.members.filterMap (fun m => match m.1 with | .binding b => some b | _ => none)
  { n with bindings := n.bindings.filter (fun b => own.contains b || old.bindings.contains b) }

/-- The group ends and its generation becomes the newest. -/
def State.commit (s : State) (g : Group) (l : Nat) : State :=
  match s.txn.built with
  | none => s
  | some built =>
    let old := s.txn.newest
    let n := built.atCommit old g
    let rows := s.affected g n
    let groups := s.txn.groups.filter (fun x => x.id ≠ g.id)
    if s.armed then
      let eff := Vector.ofFn (fun r : Fin 16 => if rows r then some (s.effLine r l) else none)
      let s1 : State := { s with txn := { s.txn with newest := n, older := some old, eff := eff, groups := groups, built := none } }
      let s2 := (List.finRange 16).foldl (fun s r =>
        if rows r then s.wantSquash r (s.effLine r l) .commit else s.renumber r n.number) (s.autoFree s1)
      (s2.partnerCheck n).retireCheck
    else
      let s1 : State := { s with txn := { s.txn with newest := n, older := none, eff := Vector.replicate 16 none, groups := groups, built := none } }
      (s.autoFree s1).post 0x0271 clsJob [(4, old.number.toNat), (4, n.number.toNat)]

/-! ### A group in doubt (R195) -/

/-- Its lead has fallen to 64 lines in an affected row: its lines are withheld and the job stops. -/
def State.inDoubtCheck (s : State) : State :=
  match s.preparedGroup, s.txn.built with
  | some g, some n =>
    let rows := s.affected g n
    if s.armed && (rowsWhere rows).any (fun r => decide (s.effLine r g.line ≤ s.lsd.rows[r].next + 63)) then
      let s1 := (s.updGroup g.id Group.abort).post 0x0272 clsJob
        ([(4, g.id.toNat), (1, g.coordinator.val)] ++ (rowsWhere rows).map (fun r => (8, s.effLine r g.line)))
      let s2 := s.autoFree { s1 with txn := { s1.txn with built := none } }
      let s3 := (rowsWhere rows).foldl (fun (s : State) r => s.updJobRow r (fun j =>
        { j with withholdFrom := some (min (s.effLine r g.line) (j.withholdFrom.getD (s.effLine r g.line))) })) s2
      let s3 := (rowsWhere rows).foldl State.withholdPoured s3
      s3.wantStop 3 0 0 0 0
    else s
  | _, _ => s

end Sys2Proof.Machine
end

