-- ==== Sys2Proof/Machine/Cal.lean ====
section
/-! DEFINITION. Calibration and trims (23): CAL_STATUS, CAL_LIMITS, the internal trims on demand and in the background (R562,
R563), charts (R564, R565), and measured readings turned into members of a correction group (R566 to R569). -/

namespace Sys2Proof.Machine

/-! ### Status and limits (R570, R571) -/

def CalLimits.bytes (l : CalLimits) : List Byte := le 4 l.dwMax ++ le 4 l.cwMax ++ le 2 l.dMin ++ le 2 l.dMax ++ le 2 l.medMin ++ le 2 l.medMax

def State.calStatusBytes (s : State) : List Byte :=
  let c := s.cal
  [c.fioCode, c.sioCode] ++ le 1 (b2n c.chart.isSome) ++ zeroBytes 1 ++ le 4 c.fioKhz.toNat ++ le 4 c.sioHz.toNat ++
  le 4 c.transients.toNat ++ le 4 c.lasting.toNat ++ le 4 c.loads.toNat ++ le 4 c.implausible.toNat ++ le 4 c.baseGen.toNat ++
  c.limits.bytes ++ le 8 s.nowNs

def cmdCalStatus : Cmd := { opcode := 0x0400, okLen := fun n => n == 0, run := fun _ s => { state := s, payload := s.calStatusBytes } }

def execCalStatus (q : Req) (s : State) : Host.Outcome State Fault Refusal := .next (serve cmdCalStatus q s)

def limitsOf (p : List Byte) : CalLimits :=
  { dwMax := fld p 0 4, cwMax := fld p 4 4, dMin := fld p 8 2, dMax := fld p 10 2, medMin := fld p 12 2, medMax := fld p 14 2 }

def CalLimits.legal (l : CalLimits) : Bool :=
  decide (1 ≤ l.dwMax ∧ l.dwMax ≤ 1000000 ∧ 1 ≤ l.cwMax ∧ l.cwMax ≤ 677000 ∧ 513 ≤ l.dMin ∧ l.dMin < l.dMax ∧ 1 ≤ l.medMin ∧ l.medMin < l.medMax)

def cmdCalLimits : Cmd :=
  { opcode := 0x0404, okLen := fun n => n == 16
    run := fun q s =>
      checks s [(!(limitsOf q.payload).legal, .badParam)] fun _ => { state := { s with cal := { s.cal with limits := limitsOf q.payload } } } }

def execCalLimits (q : Req) (s : State) : Host.Outcome State Fault Refusal := .next (serve cmdCalLimits q s)

/-! ### Internal trims (R562, R563) -/

def cmdCalTrim : Cmd :=
  { opcode := 0x0401, okLen := fun n => n == 8
    run := fun q s =>
      let trim := fld q.payload 0 1
      let named := fld q.payload 1 1
      checks s [(decide (3 < trim ∨ 15 < named) || (trim != 2 && named != 0) || !zeros q.payload 2 6, .badParam)] fun _ =>
        match trim with
        | 0 => { state := { s with cal := { s.cal with fioReq := s.cal.fioReq ++ [q.origin] } }, status := none }
        | 1 => { state := { s with cal := { s.cal with sioReq := s.cal.sioReq ++ [q.origin] } }, status := none }
        | 2 => if s.armed then .fail s .badState else ((namedConns named).foldl State.resetConn s).wakeConns q.origin named
        | _ =>
          if s.armed then .fail s .badState
          else { state := { s with cal := { s.cal with retrain := s.cal.retrain ++ [q.origin] } }, status := some .accepted } }

def execCalTrim (q : Req) (s : State) : Host.Outcome State Fault Refusal := .next (serve cmdCalTrim q s)

/-- The FSV detection of a trim; its unit is the trim's number. -/
def calDetect (trim : Nat) (o : FaultOutcome) : Detect := { fclass := fcTrim, source := srcCal, unit := BitVec.ofNat 8 trim, outcome := o }

/-- CAL_TRIM_FAULT: trim, class, measured value. -/
def State.trimFault (s : State) (trim cls measured : Nat) : State := s.post 0x0311 clsFault [(1, trim), (1, cls), (4, measured)]

/-- A trim that succeeded on its second run, and one that failed it. -/
def State.trimTransient (s : State) (trim measured : Nat) : State :=
  (({ s with cal := { s.cal with transients := satAdd s.cal.transients 1 } }).trimFault trim clsTransient measured).detect (calDetect trim .transient)

def State.trimLasting (s : State) (trim measured : Nat) : State :=
  (({ s with cal := { s.cal with lasting := satAdd s.cal.lasting 1 } }).trimFault trim clsLasting measured).detect (calDetect trim .reported)

/-- The answer of the CAL_TRIM requests that waited for this run; a run that is to be repeated answers none. -/
def State.trimAnswers (s : State) (reqs : List Origin) (retry ok : Bool) : State :=
  reqs.foldl (fun s o =>
    if !ok then s.resolve o .lastingFault 0 [] else if retry then s.resolve o .transientRecovered 0x10 [] else s.resolve o .ok 0 []) s

/-- A source that was restarted is seen running again (21 R529). -/
def State.sourceBack (s : State) (i : Fin 5) (clock : Nat) (domains : List (Fin 13)) : State :=
  if s.clk.sources[i] = .starting then
    let s1 := s.setSource i .running
    if s.clk.restarted[i] then (s1.setRestarted i false).clkTransient clock domains else s1
  else s

/-- A trim against XA can run: XA and the trimmed source stand. -/
def State.canTrim (s : State) (i : Fin 5) : Bool :=
  s.poweredOn 1 && s.clk.sources[(2 : Fin 5)] == .running && (s.clk.sources[i] == .running || s.clk.sources[i] == .starting)

def execFioTrim (khz : Nat) (code : Byte) (ok : Bool) (t : Nat) (s : State) : Host.Outcome State Fault Refusal :=
  let s1 := s.at t
  let retry := s1.cal.fioRetry
  let reqs := s1.cal.fioReq
  if s1.canTrim 0 then
    let s2 := { s1 with cal := { s1.cal with fioKhz := BitVec.ofNat 32 khz } }
    if ok then
      let s3 := { s2 with cal := { s2.cal with fioNext := some code, fioRetry := false, fioReq := [] } }
      let s4 := (s3.fioTake).sourceBack 0 2 []
      .next ((if retry then s4.trimTransient 0 khz else s4).trimAnswers reqs retry true)
    else if retry then
      let s3 := { s2 with cal := { s2.cal with fioRetry := false, fioReq := [] } }
      .next ((s3.trimLasting 0 khz).trimAnswers reqs true false)
    else .next (({ s2 with cal := { s2.cal with fioRetry := true } }).detect (calDetect 0 .pending))
  else .next s1

/-- SIO back in its place, the always-on domain returns to it (21 R529). -/
def State.sioBack (s : State) : State := if s.clk.sources[(1 : Fin 5)] = .starting then (s.sourceBack 1 0 [0]).switchTo 0 0 else s

def execSioTrim (hz : Nat) (code : Byte) (ok : Bool) (t : Nat) (s : State) : Host.Outcome State Fault Refusal :=
  let s1 := s.at t
  let retry := s1.cal.sioRetry
  let reqs := s1.cal.sioReq
  if s1.canTrim 1 then
    let s2 := { s1 with cal := { s1.cal with sioHz := BitVec.ofNat 32 hz } }
    if ok then
      let s3 := { s2 with cal := { s2.cal with sioCode := code, sioRetry := false, sioReq := [] } }
      let s4 := s3.sioBack
      .next ((if retry then s4.trimTransient 1 hz else s4).trimAnswers reqs retry true)
    else if retry then
      let s3 := { s2 with cal := { s2.cal with sioRetry := false, sioReq := [] } }
      .next ((s3.trimLasting 1 hz).trimAnswers reqs true false)
    else .next (({ s2 with cal := { s2.cal with sioRetry := true } }).detect (calDetect 1 .pending))
  else .next s1

/-! ### MEM_RETRAIN (R563, 20 R505, R506) -/

/-- CAL_DONE: command (0 CHART, 1 MEM_RETRAIN), status, panel length, list handles. -/
def calDoneData (command : Nat) (st : Status) (length : Nat) (handles : List Nat) : List DataField :=
  [(1, command), (1, st.code.toNat), (4, length)] ++ handles.map (fun h => (4, h))

/-- What the retraining found in one channel: trained at the second try, or lasting. -/
def State.channelRetrained (failed twice : BitVec 32) (s : State) (ch : Fin 32) : State :=
  if twice.getLsbD ch.val then s.trainFailed ch.val
  else if failed.getLsbD ch.val then
    (s.post 0x02F3 clsSystem [(1, ch.val), (1, 1), (1, clsTransient)]).detect (trainDetect ch.val .transient false)
  else s

/-- Retraining of every channel ends: memory keeps its contents, CAL_DONE follows for every request. -/
def execMemRetrainDone (failed failedTwice : BitVec 32) (t : Nat) (s : State) : Host.Outcome State Fault Refusal :=
  let s1 := s.at t
  if s1.cal.retrain.isEmpty then .next s1
  else
    let s2 := (List.finRange 32).foldl (State.channelRetrained failed failedTwice) { s1 with cal := { s1.cal with retrain := [] } }
    let st : Status := if failedTwice = 0 then .ok else .lastingFault
    .next (s1.cal.retrain.foldl (fun s o => s.result (some o) 0x0310 clsSystem st 0 (calDoneData 1 st 0 [])) s2)

/-! ### Charts (R564, R565) -/

/-- A row that prints on its own: the only one of a CODES plane, with `k` 1. -/
def State.chartRow (s : State) (r : Fin 16) : Bool :=
  match s.layout.rows[r].plane with
  | none => false
  | some p => s.layout.rows[r].k == 1 && s.layout.planes[p].codes &&
      (List.finRange 16).all (fun q => q = r || s.layout.rows[q].plane != some p)

/-- The rows of a mask, in order. -/
def maskRows (m : BitVec 16) : List (Fin 16) := rowsWhere (fun r => m.getLsbD r.val)

/-- An id that is not FREE. -/
def State.tileTaken (s : State) (id : Nat) : Bool := (s.tile? id).isSome || (s.staging? id).isSome

/-- What keeps a chart from being built now: the detail of BAD_STATE. -/
def State.chartBlock (s : State) (c : Chart) : Option Nat :=
  let rows := maskRows c.rows
  if s.armed then some 0
  else match rows.find? (fun r => !s.chartRow r) with
    | some r => some r.val
    | none => match (List.range rows.length).find? (fun i => s.tileTaken (c.tileBase + i)) with
      | some i => some (c.tileBase + i)
      | none => if s.job.seq.contains c.panel then some 0 else none

/-- Panel length of a chart of `n` rows. -/
def chartLength (kind : Fin 3) (n : Nat) : Nat :=
  match kind with
  | 0 => 256 * n + 768
  | 1 => 128 * n + 128
  | 2 => 512 * n + 64

/-- The compressors' name of a chart's tile: it cannot be that of a staging of the same id. -/
def chartKey (c : Chart) (i : Nat) : Nat := 2 ^ 24 + c.tileBase + i

/-- The blocks of a chart's tiles go to the compressors (10 R249). -/
def State.chartRaw (s : State) (c : Chart) : State :=
  let n := (maskRows c.rows).length
  (List.range n).foldl (fun s i => s.startRaw (chartKey c i) true 16384 (chartLength c.kind n)) s

/-- Every block of the chart is verified (10 R252). -/
def State.chartVerified (s : State) (c : Chart) : Bool := (List.range (maskRows c.rows).length).all (fun i => s.codec.rawDone (chartKey c i))

def State.chartEnd (s : State) (c : Chart) : State :=
  (List.range (maskRows c.rows).length).foldl (fun s i => s.endRaw (chartKey c i)) { s with cal := { s.cal with chart := none } }

def cmdCalChart : Cmd :=
  { opcode := 0x0402, okLen := fun n => n == 16
    run := fun q s =>
      let p := q.payload
      let rows : BitVec 16 := BitVec.ofNat 16 (fld p 2 2)
      let base := fld p 8 3
      let c : Chart := { origin := q.origin, kind := Fin.ofNat 3 (fld p 0 1), code := fld p 1 1, rows := rows,
                         panel := Fin.ofNat 4096 (fld p 4 2), tileBase := base }
      let bad := decide (2 < fld p 0 1 ∨ fld p 1 1 < 1 ∨ 15 < fld p 1 1 ∨ 4095 < fld p 4 2 ∨ base = 0 ∨ 0xFFFFFF < base + (maskRows rows).length - 1) ||
        rows == 0 || !zeros p 6 2 || !zeros p 11 5
      checks s [(bad, .badParam)] fun _ =>
        match s.chartBlock c with
        | some d => .fail s .badState d
        | none =>
          if s.cal.chart.isSome then .fail s .noResource
          else { state := ({ s with cal := { s.cal with chart := some c } }).chartRaw c, status := some .accepted } }

def execCalChart (q : Req) (s : State) : Host.Outcome State Fault Refusal := .next (serve cmdCalChart q s)

/-- Whether chart row `i` of `n` prints at a position of a panel line. -/
def chartInk (kind : Fin 3) (n i line p : Nat) : Bool :=
  match kind with
  | 0 =>
    decide (256 * (i + 1) ≤ line ∧ line ≤ 256 * (i + 1) + 3) ||
    (decide (256 * n + 256 ≤ line ∧ line ≤ 256 * n + 767) && (p % 1024 == 32 * i + 16 || p % 1024 == 32 * i + 17))
  | 1 => decide (128 * i + 64 + 8 * (p % 16) ≤ line ∧ line ≤ 128 * i + 64 + 8 * (p % 16) + 3)
  | 2 => decide (64 + 512 * i ≤ line ∧ line ≤ 64 + 512 * i + 447)

/-- The raw codes of a chart row's tile, two positions a byte, the even one low (10 R231). -/
def chartBytes (c : Chart) (n i : Nat) : List Byte :=
  (List.range (chartLength c.kind n)).flatMap (fun line => (List.range 8192).map (fun k =>
    BitVec.ofNat 8 (c.code * (b2n (chartInk c.kind n i line (2 * k)) + 16 * b2n (chartInk c.kind n i line (2 * k + 1))))))

/-- CAL stages the tile and the list of one chart row (R565). -/
def State.chartStage (s : State) (c : Chart) (n i : Nat) : Option (State × Nat) :=
  let h := chartLength c.kind n
  let id := c.tileBase + i
  match s.allocate (storeNeed (storedBound true 16384 h) (blockCount 16384 h)) (blockCount 16384 h) with
  | none => none
  | some ext =>
    let g : Staging := { origin := c.origin, tile := id, raw := true, structural := false, autoFree := true, replace := false,
                         srcHost := false, ns := false, codes := true, w := 16384, h := h, src := 0, length := rawBytes true 16384 h, extents := ext }
    let p := chartBytes c n i
    let tile := tileOf g (compressTile true 16384 h s.codec.depthCap p)
    let s3 := { s with hamper := { s.hamper with tiles := s.hamper.tiles ++ [tile] } }
    match s3.allocateUnits 64 with
    | none => none
    | some units =>
      if 2 ^ 32 ≤ s3.hamper.nextHandle ∨ 65536 ≤ s3.hamper.lists.length then none
      else
        let place : Place := { tile := id, mirrorX := false, mirrorY := false, op := .over, x := 0, y := 0, nx := 1, ny := 1, sx := 0, sy := 0 }
        let l : PList := { handle := s3.hamper.nextHandle, isVar := false, codes := true, slots := [], places := [place], units := units }
        some ({ s3 with hamper := { s3.hamper with lists := s3.hamper.lists ++ [l], nextHandle := l.handle + 1 } }, l.handle)

/-- Stage rows `i` on; the handles come in row order. -/
def State.chartRows (s : State) (c : Chart) (n : Nat) : Nat → List (Fin 16) → Option (State × List (Nat × Nat))
  | _, [] => some (s, [])
  | i, r :: rest =>
    match s.chartStage c n i with
    | none => none
    | some (s1, h) => (State.chartRows s1 c n (i + 1) rest).map (fun x =>
        (x.1, (16 * ((s.layout.rows[r].plane.map (·.val)).getD 0), h) :: x.2))

/-- Put a panel record in its slot. -/
def State.setPanel (s : State) (p : Panel) : State :=
  { s with layout := { s.layout with panels := p :: s.layout.panels.filter (fun x => x.slot ≠ p.slot) } }

/-- The chart is complete: its panel is defined and CAL_DONE posted. -/
def State.chartDone (s : State) (c : Chart) (n : Nat) (lists : List (Nat × Nat)) : State :=
  let keyed := (List.range 256).filterMap (fun k => lists.find? (fun e => e.1 = k))
  let length := chartLength c.kind n
  (s.setPanel { slot := c.panel, length := length, rpt := 1, lists := keyed }).result (some c.origin) 0x0310 clsSystem .ok 0
    (calDoneData 0 .ok length (lists.map (·.2)))

def State.chartFail (s : State) (c : Chart) (st : Status) (detail : Nat) : State :=
  s.result (some c.origin) 0x0310 clsSystem st detail (calDoneData 0 st 0 [])

/-- The building of a chart ends; a step that fails leaves nothing staged. -/
def execChartBuilt (ok : Bool) (t : Nat) (s : State) : Host.Outcome State Fault Refusal :=
  let s1 := s.at t
  match s1.cal.chart with
  | none => .next s1
  | some c =>
    let s2 := s1.chartEnd c
    if ok && s1.codec.comp != 0 && !s1.chartVerified c then .next s1
    else if !ok || s2.codec.comp == 0#8 then .next (s2.chartFail c .lastingFault 0)
    else match s2.chartBlock c with
      | some d => .next (s2.chartFail c .badState d)
      | none =>
        let rows := maskRows c.rows
        match s2.chartRows c rows.length 0 rows with
        | none => .next (s2.chartFail c .noResource 0)
        | some (s3, lists) => .next (s3.chartDone c rows.length lists)

/-! ### Loading measured values (R566 to R568) -/

/-- A REGISTER reading. -/
structure Reading where
  row : Fin 16
  dwValid : Bool
  cwValid : Bool
  eDw : Int
  eCw : Int

def readingAt (p : List Byte) (i : Nat) : List Byte := (p.drop (24 + 12 * i)).take 12

def readingOf (p : List Byte) : Reading :=
  { row := Fin.ofNat 16 (fld p 0 1), dwValid := bit (fld p 1 1) 0, cwValid := bit (fld p 1 1) 1, eDw := sfld p 4 4, eCw := sfld p 8 4 }

/-- Round to nearest, halves away from zero. -/
def roundAway (a : Int) (b : Nat) : Int := if 0 ≤ a then rdiv a b else -(rdiv (-a) b)

/-- A DELTA trim in Q16 counts (R567), from the reduced ratio of R35. -/
def dwTrim (c : WebCfg) (e : Int) : Int := -(roundAway (e * ((c.num * c.lpi * 65536 : Nat) : Int)) (c.den * 25400 * 1000))

/-- The change of a row's shift (R567). -/
def cwShift (e : Int) : Int := -(roundAway (e * 96) 127000)

/-- The curve a row's ROW_TONE repeats: the committed one, else the row's own of R102. -/
def State.baseCurve (s : State) (r : Fin 16) : Nat :=
  s.curveOf s.txn.newest r

/-- The members of one reading, with the length of their bodies. -/
def State.readingMembers (s : State) (e : Reading) : List (Member × Nat) :=
  (if e.dwValid then [(.rowTrim e.row true (dwTrim s.lsd.cfg e.eDw), 8)] else []) ++
  (if e.cwValid then [(.rowTone e.row (s.baseCurve e.row) (s.txn.newest.shift[e.row] + cwShift e.eCw), 8)] else [])

/-- A failed check: status and detail. -/
abbrev LoadError := Status × Nat

def coded (k v : Nat) : Nat := k * 2 ^ 28 + v % 2 ^ 28

/-- Check 2 of one reading. -/
def CalLimits.implausible (l : CalLimits) (e : Reading) : Option LoadError :=
  if e.dwValid && decide (l.dwMax < e.eDw.natAbs) then some (.implausible, coded 1 e.row.val)
  else if e.cwValid && decide (l.cwMax < e.eCw.natAbs) then some (.implausible, coded 2 e.row.val)
  else none

/-- Check 5 of one reading. -/
def State.readingRange (s : State) (e : Reading) : Option LoadError :=
  let shift := s.txn.newest.shift[e.row] + cwShift e.eCw
  if (e.dwValid && (s.trimCheck e.row (s.txn.newest.trim[e.row] + dwTrim s.lsd.cfg e.eDw)).isSome) ||
      (e.cwValid && decide (shift < -512 ∨ 512 < shift)) then some (.badParam, coded 5 e.row.val)
  else none

/-- Insert into a rising list. -/
def insertKeep (n : Nat) : List Nat → List Nat
  | [] => [n]
  | m :: r => if n ≤ m then n :: m :: r else m :: insertKeep n r

/-- Twice the median: of an even number of readings, the sum of the middle two. -/
def median2 (l : List Nat) : Nat :=
  let v := l.foldr insertKeep []
  v.getD (v.length / 2) 0 + v.getD ((v.length - 1) / 2) 0

/-- Checks 3 and 4. -/
def CalLimits.density (l : CalLimits) (first : Nat) (ds : List Nat) : Option LoadError :=
  match ds.zipIdx.find? (fun e => e.1 != 0 && decide (e.1 < l.dMin ∨ l.dMax < e.1)) with
  | some e => some (.implausible, coded 3 (first + e.2))
  | none =>
    let nz := ds.filter (· != 0)
    if nz.isEmpty || decide (median2 nz < 2 * l.medMin ∨ 2 * l.medMax < median2 nz) then some (.implausible, coded 4 0) else none

/-- The PNC_RANGE of density readings. -/
def densityMember (g : Gen) (first : Nat) (ds : List Nat) : Member × Nat :=
  (.pncRange first (ds.zipIdx.map (fun e =>
    let old := g.pncEntry (first + e.2)
    if e.1 = 0 then old else ((2 * 2097152 + e.1) / (2 * e.1), old.2))), 8 + 4 * ds.length)

/-- Bytes of members staged (R180). -/
def Group.bytes (g : Group) : Nat := g.members.foldl (fun n m => n + m.2) 0

def State.stagedBytes (s : State) : Nat := s.txn.groups.foldl (fun n g => n + g.bytes) 0

/-- Check 6, and the members added. -/
def State.loadMembers (s : State) (g : Group) (ms : List (Member × Nat)) : Ans :=
  if 1024 < g.members.length + ms.length ∨ 8 * 2 ^ 20 < s.stagedBytes + ms.foldl (fun n m => n + m.2) 0 then .fail s .noResource
  else
    let base := s.txn.newest.number
    let s1 := s.updGroup g.id (fun x => { x with
      members := x.members ++ ms, calBase := if ms.isEmpty then x.calBase else x.calBase ++ [(x.members.length, base)] })
    { state := { s1 with cal := { s1.cal with loads := satAdd s1.cal.loads 1, baseGen := base } }, detail := ms.length }

def Ans.loadFail (s : State) (e : LoadError) : Ans :=
  .fail (if e.1 == .implausible then { s with cal := { s.cal with implausible := satAdd s.cal.implausible 1 } } else s) e.1 e.2

/-- Field ranges of check 1. -/
def loadBad (p : List Byte) (kind countR : Nat) : Bool :=
  decide (1 < kind) || !zeros p 6 2 ||
  (if kind = 0 then decide (countR < 1 ∨ 16 < countR) || fld p 12 4 != 0 || fld p 16 8 != 0 ||
      (List.range countR).any (fun i => let e := readingAt p i
        decide (15 < fld e 0 1 ∨ 3 < fld e 1 1) || !zeros e 2 2)
   else countR != 0 || decide (262144 ≤ fld p 8 4 ∨ fld p 12 4 < 1 ∨ 262144 < fld p 8 4 + fld p 12 4))

def cmdCalAlignLoad : Cmd :=
  { opcode := 0x0403, okLen := fun n => decide (24 ≤ n) && (n - 24) % 12 == 0
    run := fun q s =>
      let p := q.payload
      let kind := fld p 4 1
      let countR := fld p 5 1
      let first := fld p 8 4
      let count := fld p 12 4
      let src := fld p 16 8
      let es := (List.range countR).map (fun i => readingOf (readingAt p i))
      let found := s.group? (BitVec.ofNat 32 (fld p 0 4))
      let state := found.map (·.state)
      let noRow := kind == 0 && es.any (fun e => !s.assigned e.row || (e.dwValid && !s.lsd.configured))
      checks s [(p.length != (if kind = 0 then 24 + 12 * countR else 24), .badLength), (loadBad p kind countR, .badParam),
                (found.isNone, .badParam), (state == some .aborted, .txnAborted), (state != some .isOpen || noRow, .badState),
                (kind == 1 && !inZone src (2 * count), .windowFault)] fun _ =>
        match found with
        | none => .fail s .badParam
        | some g =>
          if kind = 0 then
            match es.findSome? s.cal.limits.implausible with
            | some e => .loadFail s e
            | none => match es.findSome? s.readingRange with
              | some e => .loadFail s e
              | none => s.loadMembers g (es.flatMap s.readingMembers)
          else
            let ds := (List.range count).map (fun i => leNat (s.memRead (src + 2 * i) 2))
            match s.cal.limits.density first ds with
            | some e => .loadFail s e
            | none => s.loadMembers g [densityMember s.txn.newest first ds] }

def execCalAlignLoad (q : Req) (s : State) : Host.Outcome State Fault Refusal := .next (serve cmdCalAlignLoad q s)

end Sys2Proof.Machine
end

