-- ==== Sys2Proof/Machine/Chain.lean ====
section
/-! DEFINITION. The chain (15, 17 R436 to R440): its commands, hop acknowledgements, enumeration, time, beacons, notices of
peers and peer mailboxes. -/

namespace Sys2Proof.Machine

/-! ### Commands -/

/-- A direction of a hop: 0 OFF, 1 TRAINING, 2 ACTIVE, 3 SLEEP, 4 FAILED. -/
def hopDirection (n : Lane) (asleep : Bool) : Nat :=
  match n.state with
  | .off => 0
  | .failed => 4
  | .sleep => 3
  | .active => if asleep then 3 else 2
  | _ => 1

def State.hopByte (s : State) (side : Side) : Nat :=
  let h := s.hop side
  let n := s.lane (hopLane side)
  hopDirection n h.rxSleep + 16 * hopDirection n h.txSleep

def State.chainStatusBytes (s : State) : List Byte :=
  let c := s.chain
  [s.ownAddress] ++ le 1 (if c.address.isSome then c.count else 0) ++ le 1 c.epoch.toNat ++ le 1 s.chainMode ++ le 1 (s.hopByte .inn) ++
  le 1 (s.hopByte .out) ++ le 1 (maskOf [c.strap, c.peerStop, (c.strap && c.address.isSome) || c.originator]) ++
  [(c.last.map Beacon.seq).getD 0] ++ le 4 c.sleepMs ++ le 2 c.compared.toNat ++ le 2 c.agreed.toNat ++
  le 8 ((c.last.map Beacon.tk).getD 0) ++ sle 8 s.chainNs ++ le 8 s.nowNs ++ zeroBytes 8

def cmdChainStatus : Cmd :=
  { opcode := 0x0700, okLen := fun n => n == 0, run := fun _ s => { state := s, payload := s.chainStatusBytes } }

def execChainStatus (q : Req) (s : State) : Host.Outcome State Fault Refusal := .next (serve cmdChainStatus q s)

/-- Some module shows `armed` in the last complete beacon. -/
def State.chainArmed (s : State) : Bool :=
  s.armed || (match s.chain.last with | some b => b.slots.any (fun x => x.filled && x.armed) | none => false)

def cmdChainEnumerate : Cmd :=
  { opcode := 0x0701, okLen := fun n => n == 0
    run := fun q s => checks s [(!s.chain.strap || s.chainArmed, .badState)] fun _ =>
      { state := ({ s with chain := { s.chain with enumReq := some q.origin } }).sendEnum false, status := some .accepted } }

def execChainEnumerate (q : Req) (s : State) : Host.Outcome State Fault Refusal := .next (serve cmdChainEnumerate q s)

def cmdChainConfig : Cmd :=
  { opcode := 0x0702, okLen := fun n => n == 8
    run := fun q s =>
      let p := q.payload
      checks s [(decide (1 < fld p 0 1) || !zeros p 1 3 || decide (3600000 < fld p 4 4), .badParam), (s.armed, .badState)] fun _ =>
        { state := { s with chain := { s.chain with peerStop := bit (fld p 0 1) 0, sleepMs := fld p 4 4 } } } }

def execChainConfig (q : Req) (s : State) : Host.Outcome State Fault Refusal := .next (serve cmdChainConfig q s)

/-- The request goes to the peer; its reply is this command's answer (R439, 15 R376). -/
def cmdChainForward : Cmd :=
  { opcode := 0x0703, okLen := fun n => decide (16 ≤ n)
    run := fun q s =>
      let p := q.payload
      let dst := fld p 8 1
      checks s [(fld p 4 2 != p.length - 16, .badLength), (decide (15 < dst) || some dst == s.chain.address.map (·.val), .badParam),
                (s.chain.address.isNone, .badState)] fun _ =>
        let origin : Byte := if q.mb.val = 4 ∨ q.mb.val = 5 ∨ q.mb.val = 7 then 1 else 0
        let f : Forward := { origin := q.origin, dst := Fin.ofNat 16 dst, sentAt := s.aon }
        { state := ({ s with chain := { s.chain with forward := s.chain.forward ++ [f] } }).chainSend
            { mtype := 0x40, src := s.ownAddress, dst := BitVec.ofNat 8 dst, body := origin :: p }
          status := none } }

def execChainForward (q : Req) (s : State) : Host.Outcome State Fault Refusal := .next (serve cmdChainForward q s)

/-- CHAIN_LINK acts on this module's directions: WAKE on both, SLEEP on the downstream one; a peer follows when it sees its
lane wake or sleep (R377, R378). -/
def cmdChainLink : Cmd :=
  { opcode := 0x0704, okLen := fun n => n == 8
    run := fun q s =>
      let act := fld q.payload 0 1
      checks s [(decide (1 < act) || !zeros q.payload 1 7, .badParam), (act == 1 && s.chainArmed, .badState)] fun _ =>
        if act = 0 then
          { state := ({ s with chain := { s.chain with linkReq := some (q.origin, s.aon) } }).wakeChain.linkAnswer, status := none }
        else
          { state := s.sleepDir .out } }

def execChainLink (q : Req) (s : State) : Host.Outcome State Fault Refusal := .next (serve cmdChainLink q s)

/-- The directions of this module's hops that are not up: its CHAIN-OUT hop under its own address, its CHAIN-IN hop under
the address before it (R440). -/
def State.directionsDown (s : State) : Nat :=
  let a := (s.chain.address.map (·.val)).getD 0
  let before := if a = 0 then max 1 s.chain.count - 1 else a - 1
  let side (x : Side) (b : Nat) : Nat :=
    let n := s.lane (hopLane x)
    let h := s.hop x
    let lane := n.state == .active && !h.down && h.retrain.isNone
    b2n (!(lane && !h.rxSleep)) * 2 ^ b ||| b2n (!(lane && !h.txSleep)) * 2 ^ (16 + b)
  side .out a ||| side .inn before

def execChainWakeTimeout (t : Nat) (s : State) : Host.Outcome State Fault Refusal :=
  let s1 := s.at t
  match s1.chain.linkReq with
  | some (o, t0) =>
    .next (if t0 + ms 2 ≤ s1.aon ∧ s1.chain.count ≠ 1 ∧ (s1.hopUp .inn && s1.hopUp .out) = false then
      ({ s1 with chain := { s1.chain with linkReq := none } }).resolve o .lastingFault s1.directionsDown []
    else s1)
  | none => .next s1

/-! ### Hop acknowledgements (R358) -/

/-- A message on a hop meets a result other than OK, or no answer: it is sent once more; a second time the hop is lost and
the message goes the other way. -/
def State.hopMiss (s : State) (side : Side) : State :=
  let h := s.hop side
  match h.tx.wait with
  | none => s
  | some (hseq, m, resend, _) =>
    if resend then s.loseHop side 0
    else
      (((s.setHop side { h with tx := { h.tx with wait := some (hseq, m, true, s.aon) } }).laneOut
        (hopLane side) (m.blocks side hseq true s.chain.epoch)).hopEvent side 0 clsPending).detect (hopDetect side .pending)

def execChnAck (side : Side) (blk : BitVec 64) (t : Nat) (s : State) : Host.Outcome State Fault Refusal :=
  let s1 := s.at t
  let p := blockBytes blk
  let h := s1.hop side
  if !(p.getD 0 0 == 0xC3 && chkOk blk) then
    .next (s1.updLane (hopLane side) (fun n => { n with dropped := satAdd n.dropped 1 }))
  else
    match h.tx.wait with
    | some (hseq, _, resend, _) =>
      if p.getD 1 0 != hseq then .next (s1.updLane (hopLane side) (fun n => { n with dropped := satAdd n.dropped 1 }))
      else if p.getD 2 0 = 0 then
        let s2 := s1.setHop side { h with tx := { h.tx with wait := none } }
        let s3 := if resend then (s2.hopEvent side 0 clsTransient).detect (hopDetect side .transient) else s2
        .next (s3.chainPump side)
      else .next (s1.hopMiss side)
    | none => .next (s1.updLane (hopLane side) (fun n => { n with dropped := satAdd n.dropped 1 }))

def execChnAckTimeout (side : Side) (t : Nat) (s : State) : Host.Outcome State Fault Refusal :=
  let s1 := s.at t
  match (s1.hop side).tx.wait with
  | some (_, _, _, t0) => .next (if t0 + us 2 ≤ s1.aon then s1.hopMiss side else s1)
  | none => .next s1

/-! ### Enumeration (R360, R361, R363) -/

def State.takeEnum (s : State) (value : Byte) (serial : BitVec 64) : State :=
  if s.chain.strap then
    if serial ≠ Config.serial then
      (({ s with chain := { s.chain with enumWait := none, enumReq := none } }).enumEvent 3 s.chain.enumReq .lastingFault) |>
        fun s => { s with chain := { s.chain with address := none } }
    else if s.chain.enumWait.isSome then
      let s1 := { s with chain := { s.chain with
        address := some 0, count := value.toNat, epoch := s.chain.epoch + 1, enumWait := none, enumReq := none, reference := true } }
      let s2 := s1.chainTo .out { mtype := 0x02, src := 0, dst := 0xFF, body := [value] ++ le 1 s1.chain.epoch.toNat ++ serialBytes }
      (s2.enumEvent 0 s.chain.enumReq .ok).stepTime
    else s
  else if 15 < value.toNat then ({ s with chain := { s.chain with address := none } }).enumEvent 1 none .ok
  else
    ({ s with chain := { s.chain with address := some (Fin.ofNat 16 value.toNat) } }).chainTo .out
      { mtype := 0x01, src := 0, dst := 0xFF, body := [value + 1] ++ le 8 serial.toNat }

def execEnum (h : ChainHdr) (value : Byte) (serial : BitVec 64) (t : Nat) (s : State) : Host.Outcome State Fault Refusal :=
  .next (((s.at t).ackChain h).takeEnum value serial)

def execEnumDone (h : ChainHdr) (count : Byte) (epoch : BitVec 6) (serial : BitVec 64) (t : Nat) (s : State) :
    Host.Outcome State Fault Refusal :=
  let s1 := (s.at t).ackChain h
  if s1.chain.strap then .next s1
  else
    let s2 := s1.chainTo .out { mtype := 0x02, src := 0, dst := 0xFF, body := [count] ++ le 1 epoch.toNat ++ le 8 serial.toNat }
    let s3 := { s2 with chain := { s2.chain with count := count.toNat, epoch := epoch } }
    .next ((s3.enumEvent 0 none .ok).stepTime)

def execEnumTimeout (t : Nat) (s : State) : Host.Outcome State Fault Refusal :=
  let s1 := s.at t
  match s1.chain.enumWait with
  | some (t0, second) =>
    .next (if t0 + ms 1 ≤ s1.aon then
      (if second then ({ s1 with chain := { s1.chain with enumWait := none, enumReq := none } }).enumEvent 2 s1.chain.enumReq .lastingFault
       else s1.sendEnum true)
    else s1)
  | none => .next s1

def execNoHead (t : Nat) (s : State) : Host.Outcome State Fault Refusal :=
  let s1 := s.at t
  match s1.chain.upSince with
  | some t0 =>
    .next (if t0 + sec 1 ≤ s1.aon ∧ s1.chain.strap = false ∧ s1.chain.address = none ∧ s1.chain.noHeadPosted = false then
      ({ s1 with chain := { s1.chain with noHeadPosted := true } }).enumEvent 4 none .ok
    else s1)
  | none => .next s1

/-- A lane that has found no signal, and has not been looking for less than 100 ms. -/
def State.silent (s : State) (l : Fin 34) : Bool :=
  (s.lane l).signalAt.isNone && ((s.lane l).state != .signal || decide ((s.lane l).since + ms 100 ≤ s.aon))

def execChainOfOne (t : Nat) (s : State) : Host.Outcome State Fault Refusal :=
  let s1 := s.at t
  .next (if s1.chain.strap && (s1.chain.address.isNone || s1.chain.enumWait.isSome) && s1.silent 32 && s1.silent 33 then
    ({ s1 with chain := { s1.chain with
        address := some 0, count := 1, epoch := s1.chain.epoch + 1, enumWait := none, enumReq := none, rejoining := false } }).enumEvent
      0 s1.chain.enumReq .ok
  else s1)

/-- REJOIN: a neighbour's request is answered by a module that holds an address; a neighbour's answer counts while this
module rejoins. -/
def execRejoin (h : ChainHdr) (m : RejoinMsg) (t : Nat) (s : State) : Host.Outcome State Fault Refusal :=
  let s1 := (s.at t).ackChain h
  match m with
  | .request _ =>
    match s1.chain.address with
    | some a =>
      let body := le 1 a.val ++ le 1 s1.chain.count ++ le 1 s1.chain.epoch.toNat
      .next (s1.chainTo h.side { mtype := 0x03, src := s1.ownAddress, dst := 0xFE, body := body })
    | none => .next s1
  | .answer a n e =>
    if s1.chain.rejoining then
      .next ((match h.side with
        | .inn => { s1 with chain := { s1.chain with rejoinIn := some (a, n, e) } }
        | .out => { s1 with chain := { s1.chain with rejoinOut := some (a, n, e) } }).rejoinDecide)
    else .next s1

/-! ### Chain time (R364) -/

/-- The side of the shorter path to the head through UP hops. -/
def State.headSide (s : State) : Option Side :=
  match s.chain.address with
  | none => none
  | some a =>
    let near : Side := if 2 * a.val ≤ s.chain.count then .inn else .out
    if s.canSend near then some near else if s.canSend (otherSide near) then some (otherSide near) else none

/-- A SYNC exchange (the head follows a neighbour only while it rejoins): `t1` left this module, `t2` and `t3` are the neighbour's stamps, `t4` came back. -/
def execSync (side : Side) (t1 t2 t3 t4 : Nat) (s : State) : Host.Outcome State Fault Refusal :=
  let h := s.hop side
  if s.canSend side then
    let trip : Int := ((t4 : Int) - t1) - ((t3 : Int) - t2)
    let lead : Int := (((t2 : Int) - t1) + ((t3 : Int) - t4)).fdiv 2
    let s1 := s.setHop side { h with delay := (trip.fdiv 2).toNat, lead := lead }
    let follows := if s.chain.strap then s.chain.rejoining else s.chain.address.isNone || s.headSide == some side
    .next (if follows then s1.slewTo (s1.chain.offsetAt s1.aon + lead) else s1)
  else .next s

/-! ### Beacons (R365 to R369) -/

/-- This module starts the beacons: the head, or its stand-in. -/
def State.originates (s : State) : Bool := (s.chain.strap && s.chain.address.isSome) || s.chain.originator

/-- P is sampled at chain time T_k (R365). -/
def execBeaconSample (t : Nat) (s : State) : Host.Outcome State Fault Refusal :=
  let s1 := s.at t
  let k := (s1.chainNs / 125000).toNat
  if k ≤ s1.chain.sampleK then .next s1
  else
    let s2 := { s1 with chain := { s1.chain with sampleK := k, samplePos := s1.lsd.posAt (s1.chainMoment (k * 125000)) } }
    match s2.chain.address with
    | none => .next s2
    | some a =>
      if s2.originates then
        let b : Beacon := { seq := BitVec.ofNat 8 k, lap := 0, count := BitVec.ofNat 8 s2.chain.count,
                            lineMode := s2.chain.hopIn.down || s2.chain.hopOut.down, reference := s2.chain.reference,
                            tk := k * 125000, slots := [s2.ownSlot a] }
        let s3 := { s2 with chain := { s2.chain with reference := false, halfLap := none } }
        .next (if s3.chain.count = 1 then s3.readBeacon { b with lap := 1 } else s3.sendBeacon b)
      else .next s2

/-- Lap 0 comes back to its originator: in LINE mode with both hops in use its two halves are merged. -/
def State.lapBack (s : State) (b : Beacon) : State :=
  if b.lineMode && s.canSend .inn && s.canSend .out then
    match s.chain.halfLap with
    | some a => if a.seq = b.seq then s.lapDone (a.merge b) else { s with chain := { s.chain with halfLap := some b } }
    | none => { s with chain := { s.chain with halfLap := some b } }
  else s.lapDone b

/-- A beacon that another module has started: it is filled or read, and passed on. -/
def State.passBeacon (s : State) (h : ChainHdr) (b : Beacon) : State :=
  let end_ := b.lineMode && (s.hop (otherSide h.side)).down
  let msg (b : Beacon) : ChainMsg := { mtype := 0x10, src := BitVec.ofNat 8 h.src.val, dst := 0xFF, body := b.bytes }
  if b.lap = 0 then
    let b1 := match s.chain.address with
      | some a => if b.tk = s.chain.sampleK * 125000 then b.fill (s.ownSlot a) else b
      | none => b
    s.chainTo (if end_ then h.side else otherSide h.side) (msg b1)
  else (if end_ then s else s.chainTo (otherSide h.side) (msg b)).readBeacon b

/-- The head takes its own beacons only; a stand-in gives way to a beacon of the head (R369). -/
def State.takeBeacon (s : State) (h : ChainHdr) (b : Beacon) : State :=
  if s.originates then
    if s.chain.address = some h.src then (if b.lap = 0 ∧ b.tk = s.chain.sampleK * 125000 then s.lapBack b else s)
    else if s.chain.strap then s
    else { s with chain := { s.chain with originator := false } }.passBeacon h b
  else s.passBeacon h b

def execBeacon (h : ChainHdr) (b : Beacon) (t : Nat) (s : State) : Host.Outcome State Fault Refusal :=
  let s1 := (s.at t).ackChain h
  .next (if s1.current h then s1.takeBeacon h b else s1)

/-- No lap-1 beacon for 256 µs; with the head in reset, the lowest address in service originates. -/
def execBeaconLoss (t : Nat) (s : State) : Host.Outcome State Fault Refusal :=
  let s1 := s.at t
  let c := s1.chain
  if c.lastAt + us 256 ≤ s1.aon ∧ c.lossPosted = false ∧ 1 < c.count ∧ c.address.isSome = true then
    let lowest := (List.finRange 16).find? (fun a => !c.inReset.getLsbD a.val)
    let stands := c.inReset.getLsbD 0 && lowest == c.address
    let s2 := { s1 with chain := { c with lossPosted := true, originator := c.originator || stands } }
    .next ((s2.post 0x02D3 clsJob [(1, ((c.last.map Beacon.seq).getD 0).toNat), (4, (s1.aon - c.lastAt) / us 125),
        (1, b2n s2.chain.originator)]).detect { fclass := fcChain, source := srcChn, outcome := .pending })
  else .next s1

/-! ### Notices of peers (R371 to R373) -/

def execChnFault (h : ChainHdr) (fclass : Byte) (stop : Bool) (time : BitVec 64) (t : Nat) (s : State) : Host.Outcome State Fault Refusal :=
  let s1 := (s.at t).ackChain h
  if s1.current h then
    let src : Byte := BitVec.ofNat 8 h.src.val
    let s2 := s1.passOn h 0x30 ([src, fclass, BitVec.ofNat 8 (b2n stop)] ++ le 8 time.toNat)
    let s3 := s2.post 0x02D5 clsJob [(1, h.src.val), (1, 1), (4, fclass.toNat + 256 * b2n stop)]
    .next (s3.detect { fclass := fclass, source := srcPeer, unit := src, peer := src, outcome := .reported, stops := stop && s3.chain.peerStop })
  else .next s1

/-- A peer's range enters the waste records with cause PEER; before the origin is latched no range exists (24 R586). -/
def execChnWaste (h : ChainHdr) (cause : Byte) (first last : Int) (t : Nat) (s : State) : Host.Outcome State Fault Refusal :=
  let s1 := (s.at t).ackChain h
  if s1.current h then
    let s2 := s1.passOn h 0x31 ([BitVec.ofNat 8 h.src.val, cause] ++ zeroBytes 6 ++ sle 8 first ++ sle 8 last)
    let s3 := s2.post 0x02D5 clsJob [(1, h.src.val), (1, 2), (4, cause.toNat)]
    .next (if s3.lsd.origin.isSome then
      s3.takeRange { cause := 0x0F, first := first, last := last, rows := 0, lines := 0, spans := [] }
        ((rowsWhere s3.assigned).foldl (fun m r => max m (s3.lineLength r)) 0)
    else s3)
  else .next s1

def execResetNotice (h : ChainHdr) (cause : Byte) (t : Nat) (s : State) : Host.Outcome State Fault Refusal :=
  let s1 := (s.at t).ackChain h
  .next (if s1.current h then (s1.passOn h 0x32 [cause]).peerInReset h.src cause else s1)

/-- Merged ranges go out at most once per ms. -/
def execWasteBroadcast (t : Nat) (s : State) : Host.Outcome State Fault Refusal :=
  let s1 := s.at t
  match s1.chain.wasteOut with
  | some (c, a, b) =>
    .next (if s1.chain.wasteAt + ms 1 ≤ s1.aon ∨ s1.chain.wasteAt = 0 then
      ({ s1 with chain := { s1.chain with wasteOut := none, wasteAt := s1.aon } }).chainBroadcast 0x31
        ([s1.ownAddress, c] ++ zeroBytes 6 ++ sle 8 a ++ sle 8 b)
    else s1)
  | none => .next s1

/-! ### Peer mailboxes (R376) -/

/-- A forwarded request is placed in MB6 or MB7, byte 8 cleared. -/
def execPeerReq (h : ChainHdr) (mgmt : Bool) (msg : List Byte) (t : Nat) (s : State) : Host.Outcome State Fault Refusal :=
  let s1 := (s.at t).ackChain h
  if !s1.current h then .next s1
  else if s1.forMe h then
    let m : Fin 8 := if mgmt then 7 else 6
    let s2 := s1.updBox m (fun b => { b with requests := b.requests ++ [msg.set 8 0] })
    .next { s2 with mbx := { s2.mbx with peers := upd s2.mbx.peers m (fun l => l ++ [h.src]) } }
  else .next (s1.passOn h 0x40 (BitVec.ofNat 8 (b2n mgmt) :: msg))

/-- A peer's reply answers the CHAIN_FORWARD that waits for it. -/
def execPeerReply (h : ChainHdr) (msg : List Byte) (full t : Nat) (s : State) : Host.Outcome State Fault Refusal :=
  let s1 := (s.at t).ackChain h
  if !s1.current h then .next s1
  else if s1.forMe h then
    match s1.chain.forward.find? (fun f => f.dst = h.src) with
    | some f => .next (({ s1 with chain := { s1.chain with forward := s1.chain.forward.erase f } }).resolve f.origin .ok
        (if 224 < full then full else 0) (msg.take 240))
    | none => .next s1
  else .next (s1.passOn h 0x41 msg)

def execForwardTimeout (t : Nat) (s : State) : Host.Outcome State Fault Refusal :=
  let s1 := s.at t
  let late := s1.chain.forward.filter (fun f => decide (f.sentAt + sec 1 ≤ s1.aon))
  let s2 := { s1 with chain := { s1.chain with forward := s1.chain.forward.filter (fun f => !decide (f.sentAt + sec 1 ≤ s1.aon)) } }
  .next (late.foldl (fun s f => s.resolve f.origin .lastingFault 0 []) s2)

/-! ### Lost hops and sleep (R374, R377) -/

/-- Loss of signal (bit 0), of block lock by the headers received (bit 1), or of clock recovery (bit 2); a partner's report is a training
block. Sleep is not loss (R377). -/
def execHopLoss (side : Side) (cause : BitVec 4) (headers : List (BitVec 2)) (t : Nat) (s : State) : Host.Outcome State Fault Refusal :=
  let s1 := s.at t
  let l := hopLane side
  let n := s1.lane l
  let all := (cause &&& 5) ||| (if n.sync.loses headers then 2 else 0)
  .next (if n.state == .active && (s1.hop side).retrain.isNone && !(s1.hop side).rxSleep then
      let s2 := s1.updLane l (fun n => { n with
        sync := headers.foldl BlockSync.header n.sync, signalAt := if cause.getLsbD 0 then none else n.signalAt })
      if all = 0 then s2 else s2.loseHop side all
    else s1)

/-- The retrain has failed: the hop is DOWN, and trains anew (R374). -/
def State.hopDown (s : State) (side : Side) (cause : BitVec 4) : State :=
  let s1 := (s.setHop side { s.hop side with retrain := none, down := true }).updLane (hopLane side) (fun n => n.begin_ LaneCfg.init s.aon)
  ((s1.hopEvent side cause clsLasting).detect (hopDetect side .reported)).postMode

/-- The retrain has reached READY; the hop is up again once the partner is too. -/
def State.hopBack (s : State) (side : Side) (cause : BitVec 4) : State :=
  let l := hopLane side
  let s1 := (s.setHop side { s.hop side with retrain := none }).updLane l (fun n => { n with
    state := .ready, since := s.aon, transients := satAdd n.transients 1 })
  let s2 := ((s1.hopEvent side cause clsTransient).detect (hopDetect side .transient)).sendTraining l 6
  if (s2.lane l).partnerReady then (s2.updLane l (fun n => { n with state := .active })).hopActive side else s2

/-- A retrain whose ALIGN holds within 100 µs succeeds; one that takes longer fails. -/
def execHopRetrainDone (side : Side) (t : Nat) (s : State) : Host.Outcome State Fault Refusal :=
  let s1 := s.at t
  let l := hopLane side
  match (s1.hop side).retrain with
  | none => .next s1
  | some (t0, cause) =>
    .next (if t0 + us 100 < s1.aon then s1.hopDown side cause
      else if (s1.lane l).stage = 4 ∧ s1.chainAligned l = true then s1.hopBack side cause
      else s1)

/-- The upstream direction of this module's CHAIN-IN hop sleeps. -/
def execChainSleepTimer (t : Nat) (s : State) : Host.Outcome State Fault Refusal :=
  let s1 := s.at t
  .next (if 0 < s1.chain.sleepMs ∧ s1.chain.lastArmed + ms s1.chain.sleepMs ≤ s1.aon ∧ s1.armed = false then s1.sleepDir .inn
  else s1)

end Sys2Proof.Machine
end

