-- ==== Sys2Proof/Machine/Lines.lean ====
section
/-! DEFINITION. What happens to a row's lines around the head: the copy to the line buffer, the pour (07 R158), the line start
and its decision (02 R41 to R47, 14 R336, 18 R460), proof capture (11 R270) and the fate of a line (14 R338). -/

namespace Sys2Proof.Machine

/-! ### Copy and pour (07 R158, R172) -/

/-- A line that a stop has not cut off. -/
def State.wanted (s : State) (r : Fin 16) (n : Nat) : Bool :=
  s.hasLine r n && (match s.job.rows[r].stopLine with | some e => decide (n < e) | none => true)

/-- FSQ copies an agreed line from the steep ring; the buffer slot is written, so an old corruption of it is gone. A line it reads
twice as POISON is not copied and will be withheld (20 R509). -/
def State.copyLine (s : State) (r : Fin 16) (n : Nat) : State :=
  match s.rows[r].ring.find? (fun a => a.line = n) with
  | some a =>
    if s.rows[r].isWithheld n || (s.rows[r].line? n).isSome then s
    else match s.miu.ringBad r n with
    | some w => s.dramDouble w true .fsq
    | none =>
      let base := r.val * 0x80000 + n % 64 * 0x2000
      let s1 := ((s.readSingles .fsq (ringSlot r n) 0x2000).readSingles .fsq (descSlot r n) 128).updRow r (fun x => { x with buffer := x.buffer ++ [{ data := a, poured := false, lo := HalfSend.fresh, hi := HalfSend.fresh }] })
      { s1 with miu := { s1.miu with corrupt := s1.miu.corrupt.filter (fun c => !(c.target = 2 && decide (base ≤ c.addr ∧ c.addr < base + 0x2000))) } }
  | none => s

/-- Lines first, last and count, one more line taken in. -/
def rangeAdd (o : Option (Nat × Nat × Nat)) (n : Nat) : Option (Nat × Nat × Nat) :=
  match o with
  | some (a, b, c) => some (min a n, max b n, c + 1)
  | none => some (n, n, 1)

/-- SPC_DRY (R172): at most once per millisecond. -/
def State.dryPost (s : State) (r : Fin 16) : State :=
  let x := s.rows[r]
  let due := match x.dryAt with | some t => decide (t + ms 1 ≤ s.aon) | none => true
  match x.dry with
  | some (a, b, c) =>
    if due then (s.updRow r (fun x => { x with dry := none, dryAt := some s.aon })).post 0x0250 clsJob [(1, r.val), (8, a), (8, b), (4, c)]
    else s
  | none => s

/-- A line that is not agreed at its pour point: late in a replay, or because the window ran dry. -/
def State.notAgreed (s : State) (r : Fin 16) (n : Nat) : State :=
  let s1 := (s.withholdPour r n 0 0x01).updRow r (fun x => { x with lateLines := satAdd x.lateLines 1 })
  match s1.rows[r].replay with
  | some p => s1.updRow r (fun x => { x with replay := some { p with late := rangeAdd p.late n } })
  | none => (s1.updRow r (fun x => { x with dry := rangeAdd x.dry n })).dryPost r

/-- HLK pours a line, or WITHHOLD takes its place (13 R310). -/
def State.pourLine (s : State) (r : Fin 16) (n : Nat) : State :=
  let x := s.rows[r]
  if !s.wanted r n then s
  else match x.withheld.find? (fun w => w.line = n) with
    | some w => (rowHalves r).foldl (fun s h => s.updTx h (fun x => { x with frames := x.frames ++ [.withhold n w.reason] })) s
    | none =>
      if s.faultWithheld r n then s.withholdPour r n 4 0x06
      else match x.line? n with
        | none => s.notAgreed r n
        | some b =>
          if b.data.damaged then s.withholdPour r n 3 0x05
          else if b.data.unbound then s.withholdPour r n 3 0x04
          else
            let s1 := s.updRow r (fun x => { x with buffer := x.buffer.map (fun b => if b.data.line = n then { b with poured := true } else b) })
            let s2 := (rowHalves r).foldl (fun s h => s.updTx h (fun x => { x with frames := x.frames ++ [.frame n] })) s1
            s2.replayLate r

/-- After the decision of line N: its slot is freed, line N + 16 poured, line N + 32 copied. -/
def State.advanceBuffer (s : State) (r : Fin 16) (n : Nat) : State :=
  ((s.updRow r (fun x => { x with buffer := x.buffer.filter (fun b => b.data.line ≠ n) })).pourLine r (n + 16)).copyLine r (n + 32)

/-- A line that has just been agreed is copied, and before the first line start poured, where its time has come (R158, R160). -/
def State.feedLine (s : State) (r : Fin 16) (n : Nat) : State :=
  let next := s.lsd.rows[r].next
  let s1 := if n ≤ next + 31 then (s.copyLine r n).panicEval else s
  if next = 0 ∧ n ≤ 15 then s1.pourLine r n else s1

/-! ### Proof capture (11 R270) -/

/-- Record of a line: status 0 FIRED, 1 WITHHELD, 2 INHIBITED. -/
def captureRecord (n : Nat) (b : Option BufLine) (status : Nat) (strobeNs : Nat) : List Byte :=
  let d := b.map (·.data)
  let resent := match b with | some b => b.lo.resent || b.hi.resent | none => false
  le 8 n ++ le 4 ((d.map (·.generation.toNat)).getD 0) ++ le 1 status ++
  le 1 (maskOf [(d.map (fun a => a.unbound || a.damaged)).getD false, resent, (d.map (·.replayed)).getD false]) ++ zeroBytes 2 ++
  le 8 (if status = 0 then strobeNs else 0) ++ zeroBytes 40 ++
  (if status = 1 then zeroBytes 8192 else padTo 8192 ((d.map (·.bytes)).getD []))

def State.capture (s : State) (r : Fin 16) (n : Nat) (status strobeNs : Nat) : State :=
  match s.hamper.capture with
  | none => s
  | some c =>
    if c.active && c.row = r && decide (c.first + c.written = n) then
      let s1 := s.memWrite (c.dst + c.written * 8256) (captureRecord n (s.rows[r].line? n) status strobeNs)
      let s2 := ({ s1 with hamper := { s1.hamper with capture := some { c with written := c.written + 1 } } }).drq 16
      if c.written + 1 = c.count then s2.endCapture 0 else s2
    else s

/-- A pulse that was announced is cancelled: its record turns INHIBITED, also where the capture ended with it. -/
def State.recapture (s : State) (r : Fin 16) (n : Nat) : State :=
  match (s.hamper.capture.toList ++ s.hamper.ended.toList).find? (fun c =>
      c.active && c.row = r && decide (c.first ≤ n ∧ n < c.first + c.written)) with
  | none => s
  | some c => (s.memWrite (c.dst + (n - c.first) * 8256 + 12) [2]).memWrite (c.dst + (n - c.first) * 8256 + 16) (zeroBytes 8)

/-! ### Bindings that have been fired (03 R78) -/

/-- Every row of every plane that uses the list has started the instance's last line. -/
def State.bindingFired (s : State) (b : Binding) : Bool :=
  match instanceStart s.panels 0 b.inst with
  | none => false
  | some (start, p) =>
    (List.finRange 16).all (fun r => match s.layout.rows[r].plane with
      | some plane =>
        !p.lists.any (fun e => e.2 = b.list && e.1 / 16 = plane.val) || decide (s.effLine r (start + p.length) ≤ s.lsd.rows[r].next)
      | none => true)

def State.retireFired (s : State) : State :=
  if s.txn.liveBindings.any s.bindingFired then
    let keep (g : Gen) : Gen := { g with bindings := g.bindings.filter (fun b => !s.bindingFired b) }
    s.autoFree { s with txn := { s.txn with newest := keep s.txn.newest, older := s.txn.older.map keep } }
  else s

/-! ### The decision of a line start (02 R41 to R47, 14 R336) -/

/-- Q_r − O in Q16 counts from a position and a velocity: the look-ahead position of a row (R41), its fraction dropped. -/
def State.lookFrom (s : State) (r : Fin 16) (pos : Int) (v : Int × Nat) : Int := pos + (65536 * v.1 * (192 + s.lsd.rows[r].flight)).fdiv v.2

/-- Q_r − O at the position in force. -/
def State.lookAhead (s : State) (r : Fin 16) (pos : Int) : Int := s.lookFrom r pos s.lsd.vel

/-- Position and velocity at the present tick without the edge that takes effect in it, where one does. -/
def State.withoutEdge (s : State) : Option (Int × (Int × Nat)) :=
  match s.lsd.edges with
  | e :: older =>
    if s.lsd.cfg.effective e = s.tick then
      match older with
      | f :: _ => some (f.posAt s.tick, if f.standsAt s.tick then (0, 1) else (f.vNum, max 1 f.vDen))
      | [] => some ((e.count - e.dir) * 65536, (0, 1))
    else none
  | [] => none

/-- The crossing comes from an edge jump: without the edge that takes effect in this tick, the row had not reached the line. -/
def State.edgeJump (s : State) (r : Fin 16) (n : Nat) : Bool :=
  match s.withoutEdge with
  | some (pos, v) => decide (s.lookFrom r (pos - s.lsd.origin.getD 0) v < s.startRel r n)
  | none => false

/-- t_s of a crossing in half-nanoseconds (R42). -/
def State.crossTime (s : State) (r : Fin 16) (n : Nat) : Nat :=
  let v := s.lsd.vel
  let tc := s.tick
  if v.1 ≤ 0 ∨ s.edgeJump r n = true then 2 * (tc + 192)
  else
    let num : Int := (s.startRel r n + s.lsd.origin.getD 0 - s.posNow) * v.2 - 65536 * v.1 * s.lsd.rows[r].flight
    let half := rdiv (2 * num) (65536 * v.1).toNat
    2 * tc + (clampInt 376 384 half).toNat

/-- t_s of the row's next line: lines that one position update carries past share that of the first (R43). -/
def State.strobeTime (s : State) (r : Fin 16) (n : Nat) : Nat :=
  match s.lsd.rows[r].cross with
  | some (tick, ts) => if tick = s.tick then ts else s.crossTime r n
  | none => s.crossTime r n

/-- How a line is met at its line start. -/
inductive Fate where
  | fire (ts : Nat)
  | withheld (cause : Byte)
  | inhibited (cause : Byte)
deriving DecidableEq, Repr

/-- A paused line (18 R460). -/
def State.paused (s : State) (r : Fin 16) (n : Nat) : Bool :=
  match s.job.pauseAt with
  | some p => decide (s.effLine r p ≤ n) && (match s.job.resumeAt with | some q => decide (n < s.effLine r q) | none => true)
  | none => false

/-- The strobe would come too soon after the row's last counting pulse (R47); the interval in 0.1 ns. -/
def LsdRow.tooSoon (x : LsdRow) (ts : Nat) : Option Nat :=
  match x.counting with
  | c :: _ => if (ts - c) * 5 < x.limit then some ((ts - c) * 5) else none
  | [] => none

/-- Withheld before inhibited; a line recorded as withheld keeps its first cause. -/
def State.fateOf (s : State) (r : Fin 16) (n : Nat) (late : Bool) : Fate :=
  let ts := s.strobeTime r n
  match s.rows[r].withheld.find? (fun w => w.line = n) with
  | some w => .withheld w.cause
  | none =>
    if s.fsv.power then .withheld 0x10
    else if s.faultWithheld r n then .withheld 0x06
    else if late then .withheld 0x0A
    else if s.rows[r].strobeOff then .withheld 0x0B
    else if (s.lsd.rows[r].tooSoon ts).isSome then .withheld 0x07
    else if s.job.fireInhibit then .inhibited 0x0C
    else if s.paused r n then .inhibited 0x0D
    else .fire ts

/-- Overspeed withholdings of a row since the last report. -/
def overspeedAdd (o : Option (Nat × Nat × Nat × Nat)) (n interval : Nat) : Option (Nat × Nat × Nat × Nat) :=
  match o with
  | some (a, _, c, i) => some (a, n, c + 1, min i interval)
  | none => some (n, n, 1, interval)

/-- NOTICE, pulse and capture of a line start, and its fate as FSV hears of it (14 R338): FIRED is the row's `lastFired` once the pulse
is out; a line withheld or inhibited is marked, and one marked before keeps its mark (24 R578). -/
def State.decide_ (s : State) (r : Fin 16) (n : Nat) (fate : Fate) : State :=
  match fate with
  | .fire ts =>
    let s1 := s.notice r n 0
    let s2 := s1.updRow r (fun x => { x with
      pulses := x.pulses ++ [{ line := n, ts := ts, emitted := false, faulty := false, judged := false }], lastFire := some (n, false) })
    let s3 := s2.updLsd r (fun x => { x with counting := (ts :: x.counting).take 8 })
    s3.capture r n 0 (ts / 2)
  | .withheld cause =>
    let s2 := (s.notice r n 1).wasteMark r n n cause
    let s3 := if cause = 0x07 then s2.updLsd r (fun x => { x with
        overspeed := overspeedAdd x.overspeed n ((x.tooSoon (s.strobeTime r n)).getD 0) }) else s2
    (s3.capture r n 1 0).advanceBuffer r n
  | .inhibited cause => (((s.notice r n 2).wasteMark r n n cause).capture r n 2 0).advanceBuffer r n

/-- The range of a reversal runs on to the first fired line; for a row that had fired none it holds that line only (R45). -/
def State.reverseMark (s : State) (r : Fin 16) (n : Nat) (fate : Fate) : State :=
  if s.lsd.rows[r].reverseOpen then
    match fate with
    | .fire _ => (s.wasteMark r n n 0x08).updLsd r (fun x => { x with reverseOpen := false })
    | _ => if s.lsd.rows[r].reverseBegun then s.wasteMark r n n 0x08 else s
  else s

/-- A row reaches its pause and resume lines (18 R459). -/
def State.boundaries (s : State) (r : Fin 16) (n : Nat) : State :=
  let s1 := match s.job.pauseAt with
    | some p => if s.effLine r p ≤ n ∧ s.job.rows[r].pausePosted = false then
        (s.boundary r 0 (s.effLine r p)).updJobRow r (fun j => { j with pausePosted := true }) else s
    | none => s
  match s1.job.resumeAt with
  | some q =>
    if s1.effLine r q ≤ n ∧ s1.job.rows[r].resumePosted = false then
      (s1.boundary r 1 (s1.effLine r q)).updJobRow r (fun j => { j with resumePosted := true })
    else s1
  | none => s1

/-- Once every live row has resumed, the pause is over and a new one may be placed. -/
def State.pauseOver (s : State) : State :=
  if s.job.resumeAt.isSome && (rowsWhere s.live).all (fun r => s.job.rows[r].resumePosted) then
    { s with job := { s.job with
      pauseAt := none, resumeAt := none
      rows := s.job.rows.map (fun j => { j with pausePosted := false, resumePosted := false }) } }
  else s

/-- What follows any line start: checkpoints and generations, panic, WASTE, and a group in doubt. -/
def State.afterStart (s : State) (r : Fin 16) (n : Nat) : State :=
  let s1 := (((s.boundaries r n).pauseOver).deadlines r n).freeCkpts r
  let s2 := s1.updRow r (fun x => { x with withheld := x.withheld.filter (fun w => n < w.line) })
  (((s2.retireFired.retireCheck).panicEval).inDoubtCheck).wasteTrack

/-- The line start of a row's next line; `late` for one behind the origin latch (R40). -/
def State.startLine (s : State) (r : Fin 16) (late : Bool) : State :=
  let n := s.lsd.rows[r].next
  let fate := s.fateOf r n late
  let s1 := (s.updLsd r (fun x => { x with next := n + 1, cross := some (s.tick, s.strobeTime r n) })).drq ⟨r.val, by omega⟩
  (((s1.reverseMark r n fate).decide_ r n fate)).afterStart r n

/-- A row may produce line starts at all. -/
def State.rowRuns (s : State) (r : Fin 16) : Bool :=
  s.domainUp 8 && s.started && s.live r && s.lsd.origin.isSome && s.wanted r s.lsd.rows[r].next && !s.lsd.hold && !s.lsd.lasting &&
    decide (s.lsd.high ≤ s.lsd.count)

/-- The row's look-ahead position has reached its next start position (R41). -/
def State.reaches (s : State) (r : Fin 16) : Bool :=
  decide (s.startRel r s.lsd.rows[r].next ≤ s.lookAhead r (s.posNow - s.lsd.origin.getD 0))

/-! ### The origin latch (02 R39, R40) -/

/-- Line starts behind the look-ahead position are produced at once and withheld, at most `fuel` of them. -/
def State.lateStarts : Nat → State → Fin 16 → State
  | 0, s, _ => s
  | k + 1, s, r => if s.rowRuns r && s.reaches r then State.lateStarts k (s.startLine r true) r else s

/-- More than the lines that can lie behind the look-ahead position. -/
def State.lateFuel (s : State) (r : Fin 16) : Nat :=
  ((s.lookAhead r (s.posNow - s.lsd.origin.getD 0) - s.startRel r 0).toNat / max 1 (s.lineLength r).toNat) + 2

/-- LSD latches the origin at a position and a time in ns: high-water mark, LSD_ORIGIN, RUNNING (R39, R55). -/
def State.latch (s : State) (at_ : Int) (time : Nat) : State :=
  let o := at_ + s.lsd.cfg.originOffset
  let s1 : State := { s with
    lsd := { s.lsd with origin := some o, high := s.lsd.count, latchEnabled := false, reverse := false }
    fsv := { s.fsv with origin := o } }
  let s2 := s1.post 0x0240 clsJob [(8, wrapInt 64 o), (8, time), (1, s.lsd.cfg.originMode)]
  let s3 := (s2.setJob .running).jobEvent none .ok
  (List.finRange 16).foldl (fun s r => State.lateStarts (s.lateFuel r) s r) s3

end Sys2Proof.Machine
end

