-- ==== Sys2Proof/Machine/Bands.lean ====
section
/-! DEFINITION. The expansion of a row as far as its pipelines ask for it, and the decompressors that serve them: which bands a row's
next line needs, which unit decodes them (10 R245), and what a decode that fails leads to (R246 to R248). -/

namespace Sys2Proof.Machine

/-! ### Rows at work (07 R153, R154) -/

/-- `n` engine clocks of 1.2 GHz. -/
def clocks (n : Nat) : Nat := n * 10 * 2 ^ 32 / 12

def half0 (r : Fin 16) : Fin 32 := ⟨2 * r.val, by omega⟩
def half1 (r : Fin 16) : Fin 32 := ⟨2 * r.val + 1, by omega⟩

def State.cvu (s : State) (h : Fin 32) : Cvu := s.chk.cvus[h]
def State.updCvu (s : State) (h : Fin 32) (f : Cvu → Cvu) : State := { s with chk := { s.chk with cvus := upd s.chk.cvus h f } }

def SpcRow.run (x : SpcRow) : Pipe → PipeRun
  | .primary => x.prim | .shadow => x.shad

def SpcRow.setRun (x : SpcRow) (p : Pipe) (n : PipeRun) : SpcRow :=
  match p with
  | .primary => { x with prim := n }
  | .shadow => { x with shad := n }

/-- X, the expansion frontier: a line of which one half is done in either pipeline has been begun (R153). -/
def SpcRow.frontier (x : SpcRow) : Nat :=
  if x.prim.doneLo || x.prim.doneHi || (decide (x.prim.line ≤ x.shad.line) && (x.shad.doneLo || x.shad.doneHi)) then x.prim.line + 1
  else x.prim.line

/-- The generation a row line is expanded under: the one it was begun under where an engine has handed over a half of it, so that
no line mixes two (04 R101, 08 R192); else the one in force for the row at that line. -/
def State.lineGen (s : State) (r : Fin 16) (n : Nat) : Gen :=
  let held (u : Cvu) : Option LineSet := (u.prims ++ u.shads ++ u.matched).find? (fun x => x.line = n)
  let begun := ((held (s.cvu (half0 r))).or (held (s.cvu (half1 r)))).bind (fun x =>
    (s.txn.newest :: s.txn.older.toList).find? (fun g => g.number = x.generation))
  begun.getD (s.txn.genAt r n)

/-- The run of the armed job has been prepared: rows expand (18 R454, R455). -/
def State.expanding (s : State) : Bool := s.armed && !(s.job.state == .arming && decide (s.job.armStep < 7))

/-- A pipeline's engines of a row are at work on its next line: within the window, the shadow not ahead of the primary (R154,
09 R203). -/
def State.works (s : State) (p : Pipe) (r : Fin 16) : Bool :=
  let x := s.rows[r]
  let n := (x.run p).line
  s.expanding && s.assigned r && s.hasLine r n && decide (n < s.lsd.rows[r].next + x.window) &&
  (match p with
   | .primary => s.poweredOn 5
   | .shadow => s.poweredOn 6 && !s.chk.shadowOff && decide (n ≤ x.prim.line))

/-! ### Band requests (10 R245) -/

/-- Unit kinds of CDX_FAULT: 0 primary, 1 shadow, 2 compressor. -/
def pipeKind : Pipe → Nat
  | .primary => 0 | .shadow => 1

/-- Decompressors in service. -/
def Codec.units (c : Codec) : Pipe → BitVec 16
  | .primary => c.primary | .shadow => c.shadow


def Codec.dec (c : Codec) : Pipe → Decoders
  | .primary => c.decP | .shadow => c.decS

def State.updDec (s : State) (p : Pipe) (f : Decoders → Decoders) : State :=
  match p with
  | .primary => { s with codec := { s.codec with decP := f s.codec.decP } }
  | .shadow => { s with codec := { s.codec with decS := f s.codec.decS } }

/-- The bands of a row's next line in a pipeline. -/
def State.needs (s : State) (p : Pipe) (r : Fin 16) : List Band :=
  if s.works p r then
    let n := (s.rows[r]).run p
    let w := lineWalk s.hamper s.layout s.job.seq (s.lineGen r n.line) r n.line n.walk
    bandsOf s.hamper.tiles r (w.2.1 ++ w.2.2)
  else []

/-- Every band of the row's next line stands decoded before the pipeline's engines. -/
def State.fed (s : State) (p : Pipe) (r : Fin 16) : Bool := (s.needs p r).all (fun b => (s.codec.dec p).held.contains b)

/-- Put a row where its line's age places it. -/
def insertRow (age : Fin 16 → Nat) (r : Fin 16) : List (Fin 16) → List (Fin 16)
  | [] => [r]
  | q :: l => if age r ≤ age q then r :: q :: l else q :: insertRow age r l

/-- Rows by the age of the line they work on. DESIGN CHOICE (log 118): the spec says "oldest line first" of lines of several rows; the
model takes the line whose expansion began first, then the lower row. -/
def State.oldestFirst (s : State) (p : Pipe) : List (Fin 16) :=
  (List.finRange 16).foldr (insertRow (fun r => ((s.rows[r]).run p).since)) []

/-- The decode of a band is under way, or waits for another unit. -/
def Decoders.busyWith (d : Decoders) (b : Band) : Bool := d.jobs.toList.any (fun j => j.any (fun j => j.band = b)) || d.handover.any (fun h => h.1 = b)

/-- Band requests that wait, oldest line first. -/
def State.bandRequests (s : State) (p : Pipe) : List Band :=
  let d := s.codec.dec p
  ((s.oldestFirst p).flatMap (s.needs p)).filter (fun b => !d.held.contains b && !d.busyWith b)

/-- The lowest-numbered free unit in service, not the one that has failed. -/
def Decoders.free (d : Decoders) (units : BitVec 16) (failed : Option (Fin 16)) : Option (Fin 16) :=
  (List.finRange 16).find? (fun u => units.getLsbD u.val && (d.jobs[u]).isNone && failed != some u)

def Decoders.start (d : Decoders) (u : Fin 16) (b : Band) (first : Option (Fin 16)) : Decoders :=
  { d with jobs := d.jobs.set u (some { band := b, failed := none, first := first }) }

/-- A decode that failed twice on a unit goes to another, ahead of any request (R246). -/
def Decoders.passOn (units : BitVec 16) (d : Decoders) (h : Band × Fin 16) : Decoders :=
  match d.free units (some h.2) with
  | some u => { d.start u h.1 (some h.2) with handover := d.handover.erase h }
  | none => d

def Decoders.take (units : BitVec 16) (d : Decoders) (b : Band) : Decoders :=
  match d.free units none with
  | some u => d.start u b none
  | none => d

/-- Free units take what waits. -/
def State.feedDecoders (s : State) (p : Pipe) : State :=
  let units := s.codec.units p
  let waits := s.bandRequests p
  s.updDec p (fun d => waits.foldl (Decoders.take units) (d.handover.foldl (Decoders.passOn units) d))

/-- A row goes on to its next line: of its bands only those of the line before stay (01 R17). -/
def State.keepBands (s : State) (p : Pipe) (r : Fin 16) (used : List Band) : State :=
  s.updDec p (fun d => { d with held := d.held.filter (fun b => b.row ≠ r || used.contains b) })

/-- A row holds no decoded band: it restarts, and decoded bands are part of no checkpoint (R245). -/
def State.dropBands (s : State) (r : Fin 16) : State := (s.keepBands .primary r []).keepBands .shadow r []

/-! ### Decodes (R246 to R248) -/

def State.setBlock (s : State) (id i : Nat) (f : Blk → Blk) : State :=
  { s with hamper := { s.hamper with tiles := s.hamper.tiles.map (fun t => if t.id = id then { t with blocks := t.blocks.modify i f } else t) } }

/-- A damaged block is marked for both pipelines (R248). -/
def State.damage (s : State) (t : Tile) (i : Nat) : State :=
  let s1 := s.setBlock t.id i (fun b => { b with damaged := true })
  ({ s1 with codec := { s1.codec with damaged := satAdd s1.codec.damaged 1 } }).post 0x0291 clsJob
    [(4, t.id), (4, i / blockCols t.w), (4, i % blockCols t.w)]

def Codec.isolate (c : Codec) (p : Pipe) (u : Fin 16) : Codec :=
  match p with
  | .primary => { c with primary := c.primary &&& ~~~(1#16 <<< u.val) }
  | .shadow => { c with shadow := c.shadow &&& ~~~(1#16 <<< u.val) }

def State.isolate (s : State) (p : Pipe) (u : Fin 16) : State := { s with codec := s.codec.isolate p u }

/-- The only unit in service has failed a block twice: the pipeline decodes nothing more, and FSV stops the job (R247). -/
def State.lastUnit (s : State) (p : Pipe) (u : Fin 16) : State :=
  ((s.isolate p u).updDec p (fun d => { d with handover := [] })).detect (codecDetect (pipeKind p) u.val .detected true)

/-- CDX_FAULT of a decompressor. -/
def State.bandFault (s : State) (p : Pipe) (u : Fin 16) (cls : Nat) (err : Byte) (b : Band) : State :=
  let cols := ((s.hamper.tiles.find? (fun t => t.id = b.tile)).map (fun t => blockCols t.w)).getD 1
  s.cdxFault (pipeKind p) u.val cls err.toNat b.tile (b.blk / cols) (b.blk % cols)

/-- The unit is free. -/
def State.unitFree (s : State) (p : Pipe) (u : Fin 16) : State := s.updDec p (fun d => { d with jobs := d.jobs.set u none })

/-- A band stands decoded before the engines, where they still need it. -/
def State.hold (s : State) (p : Pipe) (b : Band) : State :=
  if (s.needs p b.row).contains b then s.updDec p (fun d => { d with held := d.held ++ [b] }) else s

/-- Why the decode of a block fails: POISON on its bytes, or the error its payload fails with; `fail` is a fault of the unit, whose
code the spec leaves open (R244, R246). -/
def State.decodeError (s : State) (b : Blk) (fail : Bool) : Option Byte :=
  if s.readFails b.addr b.size then some errPoison
  else if b.raw.isNone then some b.fault
  else if fail then some (Config.decodeError s.free) else none

/-- A decode succeeds: at the second attempt the fault was transient; on another unit the first unit is isolated, and where that
leaves a single unit with a block it has failed itself, R247 holds for it. -/
def State.decoded (s : State) (p : Pipe) (u : Fin 16) (j : DecodeJob) : State :=
  let s1 := (s.unitFree p u).hold p j.band
  match j.first with
  | some f =>
    let s2 := (s1.isolate p f).detect (codecDetect (pipeKind p) f.val .masked)
    if s2.codec.units p = 1#16 <<< u.val ∧ (s2.codec.dec p).handover.any (fun h => h.2 = u) = true then s2.lastUnit p u else s2
  | none =>
    match j.failed with
    | some e =>
      (({ s1 with codec := { s1.codec with decTransient := satAdd s1.codec.decTransient 1 } }).bandFault p u clsTransient e j.band).detect
        (codecDetect (pipeKind p) u.val .transient)
    | none => s1

/-- A decode fails: it is done once more; then it is lasting and goes to another unit; there the block is damaged. -/
def State.decodeFailed (s : State) (p : Pipe) (u : Fin 16) (j : DecodeJob) (t : Tile) (err : Byte) : State :=
  match j.first with
  | some f => ((s.unitFree p u).damage t j.band.blk).detect (codecDetect (pipeKind p) f.val .detected)
  | none =>
    if j.failed.isNone then s.updDec p (fun d => { d with jobs := d.jobs.set u (some { j with failed := some err }) })
    else
      let s0 := s.unitFree p u
      let s1 := ({ s0 with codec := { s0.codec with decLasting := satAdd s.codec.decLasting 1 } }).bandFault p u clsLasting err j.band
      if s.codec.units p = 1#16 <<< u.val then s1.lastUnit p u
      else s1.updDec p (fun d => { d with handover := d.handover ++ [(j.band, u)] })

/-- One attempt of a unit on its block ends; a block that has been marked damaged, or is gone, is not decoded. -/
def State.decodeEnd (s : State) (p : Pipe) (u : Fin 16) (j : DecodeJob) (fail : Bool) : State :=
  match s.hamper.tiles.find? (fun x => x.id = j.band.tile) with
  | none => s.unitFree p u
  | some t => match t.blocks[j.band.blk]? with
    | none => s.unitFree p u
    | some b =>
      if b.damaged then s.unitFree p u
      else
        let s1 := s.poisonRead 0 b.addr b.size (j.first.isSome || j.failed.isSome)
        match s.decodeError b fail with
        | none => (s1.readSingles .cdx b.addr b.size).decoded p u j
        | some e => (if fail then s1.draw else s1).decodeFailed p u j t e

/-- A decompressor finishes a block; a unit that has none takes what waits. -/
def execBlockDecode (p : Pipe) (u : Fin 16) (fail : Bool) (t : Nat) (s : State) : Host.Outcome State Fault Refusal :=
  let s1 := (s.at t).feedDecoders p
  match (s1.codec.dec p).jobs[u] with
  | none => .next s1
  | some j => .next ((s1.decodeEnd p u j fail).feedDecoders p)

end Sys2Proof.Machine
end

