-- ==== Sys2Proof/Machine/RunOps.lean ====
section
/-! DEFINITION. Shared operations of run-ahead and checking (07, 09): what an engine makes of a line, checkpoints (07 R161, R162),
agreed lines (R157, R167, R172), mismatches and their retry (09 R214), the third
opinion (R215, R216) and replacement (R217, R218). -/

namespace Sys2Proof.Machine

/-! ### Injections (09 R224) -/

/-- The engine that serves a half-row in a pipeline (01 R12). -/
def State.engine (s : State) (p : Pipe) (h : Fin 32) : Fin 34 :=
  match p with
  | .primary => (s.chk.engines[h]).1
  | .shadow => (s.chk.engines[h]).2

/-- Planted faults of a target that act on a half-row line; spares are never affected. -/
def State.planted (s : State) (target : Nat) (p : Pipe) (h : Fin 32) (n : Nat) : List Injection :=
  if 32 ≤ (s.engine p h).val then [] else s.chk.injections.filter (fun i => i.at_ target h n)

/-! ### Checkpoints (07 R161, R162, 05 R123, 06 R147) -/

def SpcRow.putCkpt (x : SpcRow) (c : Ckpt) : SpcRow := { x with ckpts := c :: x.ckpts.filter (fun y => y.line ≠ c.line) }

/-- The primary engines have written a checkpoint; a record that stood is replaced and compared anew. The shadow's CRCs are kept
where it formed them in this same pass (`State.restart` drops those of an interrupted one). -/
def State.ckptWrite (s : State) (r : Fin 16) (n : PipeRun) : State :=
  let early := match (s.rows[r]).ckpts.find? (fun c => c.line = n.line) with
    | some c => if c.primDone then none else c.shadow
    | none => none
  (s.updRow r (fun x => x.putCkpt { s.ckptRecord r n early with valid := s.chk.shadowOff })).wrote (ckptSlot r n.line) 0x10000

/-- The shadow engines have formed their CRCs; the record itself stands until the primary rewrites it. -/
def State.ckptShadow (s : State) (r : Fin 16) (n : PipeRun) : State :=
  let crcs := partCrcs n.walk n.carry n.hist
  s.updRow r (fun x => match x.ckpts.find? (fun c => c.line = n.line) with
    | some c => x.putCkpt (if c.valid || c.bad then { c with shadow := some crcs, primDone := false } else { c with shadow := some crcs })
    | none => x.putCkpt { s.ckptRecord r n (some crcs) with primDone := false })

/-! ### A line leaves an engine (09 R204, R205) -/

/-- Add what a planted coupling fault has spoilt to a carry. -/
def spoil (c : List Int) : List (Nat × Int) → List Int
  | [] => c
  | e :: r => spoil (c.modify e.1 (· + e.2)) r

/-- The pipeline of a row goes on to its next line. -/
def State.lineThrough (s : State) (p : Pipe) (r : Fin 16) (out : LineOut) : State :=
  let n := (s.rows[r]).run p
  let next : PipeRun := { line := n.line + 1, doneLo := false, doneHi := false, since := s.aon, walk := out.walk,
                          carry := spoil out.carry n.spoilt, hist := out.hist, spoilt := [] }
  let s1 := ((s.updRow r (fun x => x.setRun p next)).keepBands p r (bandsOf s.hamper.tiles r (out.spansLo ++ out.spansHi))).feedDecoders p
  if next.line % 64 = 0 ∧ s1.hasLine r next.line = true then
    match p with
    | .primary => s1.ckptWrite r next
    | .shadow => s1.ckptShadow r next
  else s1

/-- One half of a line is done. -/
def PipeRun.doneHalf (n : PipeRun) (h : Fin 32) : PipeRun := if h.val % 2 = 0 then { n with doneLo := true } else { n with doneHi := true }
def PipeRun.halfDone (n : PipeRun) (h : Fin 32) : Bool := if h.val % 2 = 0 then n.doneLo else n.doneHi

/-- The first diffusion sum a half sends and the position it goes to (05 R116). -/
def couplePosition (h : Fin 32) : Nat := if h.val % 2 = 0 then 8192 else 8191

/-- A half-row's 4,096 bytes of a line, and the 38 bytes its engine sends across the coupling (09 R205). -/
def LineOut.half (o : LineOut) (h : Fin 32) : List Byte := (o.bytes.drop (h.val % 2 * 4096)).take 4096
def LineOut.sent (o : LineOut) (h : Fin 32) : List Byte := if h.val % 2 = 0 then o.coupleLo else o.coupleHi

/-- An engine hands its set to its CVU. -/
def State.lineDone (s : State) (p : Pipe) (h : Fin 32) (u : Upset) (out : LineOut) (g : Gen) : State :=
  let r := rowOf h
  let n := (s.rows[r]).run p
  let side : Nat := match p with | .primary => 0 | .shadow => 1
  let clean := out.half h
  let data := s.planted side p h n.line
  let bytes := xorAt (data.foldl (fun b i => xorAt b (i.position % 8192 / 2) i.mask) clean) u.byte u.mask
  let sent := out.sent h
  let coupling := s.planted (2 + side) p h n.line
  let sent' := coupling.foldl (fun b i => xorAt b 33 i.mask) sent
  let alive := match p with | .primary => s.planted 5 p h n.line | .shadow => []
  let set : LineSet :=
    { line := n.line, tag := if alive.isEmpty then lineTag n.line else lineTag (n.line + 65535)
      sigs := halfSignatures h n.line bytes, couple := couplingWord h n.line sent', bytes := bytes, generation := g.number
      unbound := out.unbound, damaged := out.damaged, at_ := s.aon, injected := !(data ++ coupling ++ alive).isEmpty }
  let plane := (s.layout.rows[r].plane).getD 0
  let delta := sfld sent' 33 2 - sfld sent 33 2
  let spoilt := if delta ≠ 0 ∧ (s.layout.planes[plane].settings plane.val).mode = .diffusion then [(couplePosition h, delta)] else []
  let s1 := s.updCvu h (fun c => match p with
    | .primary => { c with prims := c.prims ++ [set] }
    | .shadow => { c with shads := c.shads ++ [set] })
  let used (s : State) (t : Nat) (l : List Injection) : State := if l.isEmpty then s else s.useInjection t h n.line
  let s2 := used (used (used s1 side data) (2 + side) coupling) 5 alive
  let n1 := { n.doneHalf h with spoilt := n.spoilt ++ spoilt }
  let s3 := s2.updRow r (fun x => x.setRun p n1)
  if n1.doneLo && n1.doneHi then s3.lineThrough p r out else s3

/-! ### Mismatches (09 R208, R214) -/

def MisKind.code : MisKind → Nat
  | .segment => 0 | .coupling => 1 | .alive => 2 | .missing => 3 | .timeout => 4 | .checkpoint => 5

/-- CHK_MISMATCH: row, half-row, line, kind, segment mask, class, `injected`. -/
def State.misEvent (s : State) (r : Fin 16) (m : Mismatch) (cls : Nat) : State :=
  s.post 0x0280 clsJob [(1, r.val), (1, m.half.val), (8, m.line), (1, m.kind.code), (2, m.segMask.toNat), (1, cls), (1, b2n m.injected)]

/-- What FSV is told of a mismatch. -/
def misDetect (r : Fin 16) (m : Mismatch) (unit : Byte) (o : FaultOutcome) (stops : Bool := false) : Detect :=
  { fclass := if m.kind = .checkpoint then fcCheckpoint else fcExpansion, source := srcCvu, unit := unit, row := BitVec.ofNat 8 r.val,
    rows := 1#16 <<< r.val, first := m.line, last := m.line, injected := m.injected, outcome := o, stops := stops }

def SpcRow.dropMismatch (x : SpcRow) (line : Nat) : SpcRow := { x with mismatch := x.mismatch.filter (fun m => m.line ≠ line) }

/-- The pair of a row is released (R217). -/
def State.releasePair (s : State) (r : Fin 16) : State :=
  let left := s.chk.opinions.filter (fun o => o.row ≠ r)
  let s1 := { s with chk := { s.chk with opinions := left } }
  if left.isEmpty then (s1.updCtx 32 UnitCtx.idle).updCtx 33 UnitCtx.idle else s1

/-- The pair's task is over once no retry of the row is pending. -/
def State.freeOpinion (s : State) (r : Fin 16) : State := if s.rows[r].mismatch = [] then s.releasePair r else s

/-- A retry that matched: the fault was transient (R166). `ckpt` tells the comparison of parts from that of a line. -/
def State.misTransient (s : State) (r : Fin 16) (line : Nat) (ckpt : Bool) : State :=
  match s.rows[r].mismatch.find? (fun m => m.line = line && m.retrying && (m.kind == .checkpoint) == ckpt) with
  | none => s
  | some m =>
    let s1 := { s with chk := { s.chk with misTransient := satAdd s.chk.misTransient 1 } }
    let s2 := ((s1.updRow r (fun x => x.dropMismatch line)).freeOpinion r).updCtx (lineUnit m.half) UnitCtx.idle
    (s2.misEvent r m clsTransient).detect (misDetect r m 0xFF .transient)

/-! ### Spares and opinions (R215 to R218) -/

def sparePipe (i : Fin 4) : Pipe := if i.val < 2 then .primary else .shadow
def spareEngine (i : Fin 4) : Fin 34 := ⟨32 + i.val % 2, by omega⟩

def Chk.retired (c : Chk) : Pipe → BitVec 34
  | .primary => c.retiredP | .shadow => c.retiredS

/-- A spare that serves no half-row and is not retired. -/
def State.spareIdle (s : State) (i : Fin 4) : Bool :=
  let p := sparePipe i
  !(s.chk.retired p).getLsbD (spareEngine i).val && !(List.finRange 32).any (fun h => s.engine p h == spareEngine i)

/-- Nor stands in an opinion. -/
def State.spareFree (s : State) (i : Fin 4) : Bool := s.spareIdle i && !s.chk.opinions.any (fun o => o.lower == i || o.upper == i)

/-- The first two free spares in the order PE32, PE33, SE32, SE33. -/
def State.freePair (s : State) : Option (Fin 4 × Fin 4) :=
  match (List.finRange 4).filter s.spareFree with
  | a :: b :: _ => some (a, b)
  | _ => none

/-- CVU32 and CVU33 can hold an opinion (R213). -/
def State.opinionUnits (s : State) : Bool := (s.chk.units[(32 : Fin 38)]).isSome && (s.chk.units[(33 : Fin 38)]).isSome

def State.pairOf (s : State) (r : Fin 16) : Option Opinion := s.chk.opinions.find? (fun o => o.row = r)

/-- A pair joins a row's replay and loads its checkpoint, where two spares are free; the pair that stands restarts with the
replay (R215). -/
def State.joinPair (s : State) (r : Fin 16) (run : PipeRun) : State :=
  if (s.pairOf r).isSome then
    { s with chk := { s.chk with opinions := s.chk.opinions.map (fun o => if o.row = r then { o with run := run } else o) } }
  else if s.opinionUnits then
    match s.freePair with
    | some (a, b) =>
      let hold (c : UnitCtx) : UnitCtx := { c with state := .opinionHeld }
      (({ s with chk := { s.chk with opinions := s.chk.opinions ++ [Opinion.mk r a b run] } }).updCtx 32 hold).updCtx 33 hold
    | none => s
  else s

/-- An opinion can still be cast: two spares serve no half-row, be they in another row's pair, and CVU32 and CVU33 are there. -/
def State.opinionCan (s : State) : Bool := s.opinionUnits && decide (2 ≤ ((List.finRange 4).filter s.spareIdle).length)

/-- What the pair has expanded after `k` lines from its checkpoint, under the generations the replay uses, with its own fetches
and decoders and undisturbed (R215, R224): none where a block cannot be decoded. -/
def State.opinionRun (s : State) (r : Fin 16) : Nat → PipeRun → Option PipeRun
  | 0, n => some n
  | k + 1, n =>
    let out := expandLine s.hamper s.layout s.job.seq (s.lineGen r n.line) r n.line n.walk n.carry n.hist
    if out.undecoded then none
    else s.opinionRun r k { n with line := n.line + 1, walk := out.walk, carry := out.carry, hist := out.hist }

/-- One engine's result as a verdict compares it (R216). -/
structure Held where
  tag : Nat
  sigs : List (BitVec 32)
  couple : BitVec 32
deriving DecidableEq

def LineSet.held (x : LineSet) : Held := { tag := x.tag, sigs := x.sigs, couple := x.couple }

/-- The opinion on line `line`: the pair's result for a half-row. -/
def State.opinionOn (s : State) (r : Fin 16) (o : Opinion) (line : Nat) (h : Fin 32) : Option Held :=
  match s.opinionRun r (line - o.run.line) o.run with
  | none => none
  | some n =>
    let out := expandLine s.hamper s.layout s.job.seq (s.lineGen r line) r line n.walk n.carry n.hist
    if out.undecoded then none
    else some { tag := lineTag line, sigs := halfSignatures h line (out.half h), couple := couplingWord h line (out.sent h) }

/-- The primary and the shadow result of a half for a line, and the opinion. -/
structure Triple where
  p : Option Held
  s : Option Held
  o : Option Held

/-- Both results a CVU holds for a line; a line that has matched is held once. -/
def Cvu.held (u : Cvu) (line : Nat) : Option Held × Option Held :=
  let m := u.matched.find? (fun x => x.line = line)
  let a := u.prims.find? (fun x => x.line = line)
  let b := u.shads.find? (fun x => x.line = line)
  ((a.or m).map LineSet.held, (b.or m).map LineSet.held)

/-- Which pipeline a half's three results put at fault: none where they do not differ. -/
inductive HalfVerdict where
  | same | at_ (p : Pipe) | unresolved
deriving DecidableEq

/-- R216's table; an absent result counts as one that differs only where `due`, on the half-row that reported it missing. -/
def Triple.verdict (t : Triple) (due : Bool) : HalfVerdict :=
  if t.p = t.s ∨ (due = false ∧ (t.p.isNone ∨ t.s.isNone)) then .same
  else if t.o.isNone then .unresolved
  else if t.p = t.o then .at_ .shadow
  else if t.s = t.o then .at_ .primary
  else .unresolved

/-- The engine that sent a bad coupling word. -/
def Triple.coupled (t : Triple) : Bool :=
  match t.p, t.s with
  | some a, some b => a.couple != b.couple
  | _, _ => false

/-- Faulty engines by pipeline and half-row from the verdicts of the halves, or none when UNRESOLVED (R216). -/
def namedEngines (vs : List (Fin 32 × Bool × HalfVerdict)) : Option (List (Pipe × Fin 32)) :=
  if vs.any (fun v => v.2.2 == .unresolved) then none
  else
    let named := if vs.any (fun v => v.2.1) then vs.filter (fun v => v.2.1) else vs
    match named.filterMap (fun v => match v.2.2 with | .at_ p => some (p, v.1) | _ => none) with
    | [] => none
    | l => some l

/-- Both engines of a row in a pipeline (R216). -/
def bothEngines (p : Pipe) (r : Fin 16) : List (Pipe × Fin 32) := [(p, half0 r), (p, half1 r)]

/-- The verdict on a checkpoint: the part CRCs of primary, shadow and pair at the line (R216). -/
def State.ckptVerdict (s : State) (r : Fin 16) (line : Nat) (o : Opinion) : Option (List (Pipe × Fin 32)) :=
  match s.rows[r].ckpts.find? (fun c => c.line = line), s.opinionRun r (line - o.run.line) o.run with
  | some c, some n =>
    let pair := partCrcs n.walk n.carry n.hist
    if c.shadow = some pair ∧ c.parts ≠ pair then some (bothEngines .primary r)
    else if c.parts = pair ∧ c.shadow ≠ some pair then some (bothEngines .shadow r)
    else none
  | _, _ => none

/-- The verdict on a lasting mismatch with the pair's opinion. -/
def State.faulty (s : State) (r : Fin 16) (m : Mismatch) (o : Opinion) : Option (List (Pipe × Fin 32)) :=
  if s.chk.shadowOff then none
  else if m.kind = .checkpoint then s.ckptVerdict r m.line o
  else
    let late (h : Fin 32) : Bool := h == m.half && (m.kind == .missing || m.kind == .timeout)
    namedEngines ([half0 r, half1 r].map (fun h =>
      let x := (s.cvu h).held m.line
      let t : Triple := { p := x.1, s := x.2, o := s.opinionOn r o m.line h }
      (h, t.coupled, t.verdict (late h))))

/-- Verdict codes of CHK_VERDICT: 0 primary, 1 shadow, 2 UNRESOLVED, 3 NO_OPINION. -/
def pipeCode : Pipe → Nat
  | .primary => 0 | .shadow => 1

/-- CHK_VERDICT: row, line, verdict, up to two engines retired and two taking over (0xFF none), spares after. -/
def State.verdictEvent (s : State) (r : Fin 16) (line verdict : Nat) (moves : List (Fin 34 × Fin 34)) : State :=
  let at_ (f : Fin 34 × Fin 34 → Fin 34) (i : Nat) : Nat := match moves[i]? with | some m => (f m).val | none => 0xFF
  s.post 0x0281 clsJob [(1, r.val), (8, line), (1, verdict), (1, at_ (·.1) 0), (1, at_ (·.1) 1), (1, at_ (·.2) 0), (1, at_ (·.2) 1),
    (1, maskOf ((List.finRange 4).map s.spareFree))]

/-- An engine took over within the last 4,096 lines of the row (R218). -/
def State.tookOverLately (s : State) (r : Fin 16) (line : Nat) (f : Pipe × Fin 32) : Bool :=
  s.chk.tookOver.any (fun t => t.1 = f.1 && t.2.1 = s.engine f.1 f.2 && t.2.2.1 = r && decide (line < t.2.2.2 + 4096))

/-- The spare that stood on a faulty engine's side of the pair, when it is of its pipeline (R217 step 1). -/
def ownSpare (pair : Opinion) (f : Pipe × Fin 32) : Option (Fin 4) :=
  let i := if f.2.val % 2 = 0 then pair.lower else pair.upper
  if sparePipe i = f.1 then some i else none

/-- Spares for the faulty engines: step 1 for every one of them, then the lowest free of each pipeline. -/
def State.pickSpares (s : State) (pair : Opinion) (fs : List (Pipe × Fin 32)) : Option (List ((Pipe × Fin 32) × Fin 4)) :=
  let own := fs.filterMap (ownSpare pair)
  fs.foldl (fun acc f => match acc with
    | none => none
    | some l =>
      let used := l.map (·.2)
      match ownSpare pair f with
      | some i => some (l ++ [(f, i)])
      | none =>
        ((List.finRange 4).find? (fun i => sparePipe i = f.1 && s.spareFree i && !used.contains i && !own.contains i)).map
          (fun i => l ++ [(f, i)])) (some [])

/-- A spare takes over a half-row; the engine it replaces is retired. -/
def State.replaceOne (r : Fin 16) (line : Nat) (s : State) (m : (Pipe × Fin 32) × Fin 4) : State :=
  let p := m.1.1
  let h := m.1.2
  let old := s.engine p h
  let new := spareEngine m.2
  let c := s.chk
  let e := c.engines[h]
  { s with chk := { c with
      engines := c.engines.set h (match p with | .primary => (new, e.2) | .shadow => (e.1, new))
      retiredP := match p with | .primary => c.retiredP ||| (1#34 <<< old.val) | .shadow => c.retiredP
      retiredS := match p with | .primary => c.retiredS | .shadow => c.retiredS ||| (1#34 <<< old.val)
      tookOver := (p, new, r, line) :: c.tookOver } }

/-- A lasting fault without a replacement: the row's lines from Q on are withheld and the job stops (R218). -/
def State.detectedOnly (s : State) (r : Fin 16) (m : Mismatch) (verdict : Nat) : State :=
  let s1 := (s.verdictEvent r m.line verdict []).rowFault r m.line
  s1.detect (misDetect r m 0xFF .detected true)

/-- The engines a verdict has named are replaced, and the row is squashed again: that replay is no retry (R217). -/
def State.replaceAll (s : State) (r : Fin 16) (m : Mismatch) (moves : List ((Pipe × Fin 32) × Fin 4)) : State :=
  let changed (p : Pipe) : List (Fin 34 × Fin 34) :=
    (moves.filter (fun x => x.1.1 = p)).map (fun x => (s.engine p x.1.2, spareEngine x.2))
  let s1 := moves.foldl (State.replaceOne r m.line) s
  let tell (s : State) (p : Pipe) : State :=
    match changed p with
    | [] => s
    | l => s.verdictEvent r m.line (pipeCode p) l
  let s2 := tell (tell s1 .primary) .shadow
  let unit : Byte := match changed .primary ++ changed .shadow with | e :: _ => BitVec.ofNat 8 e.1.val | [] => 0xFF
  (s2.detect (misDetect r m unit .masked)).wantSquash r m.line .replacement

/-- The verdict has been taken with the opinion of a pair, which has been released. -/
def State.decideVerdict (s : State) (r : Fin 16) (m : Mismatch) (pair : Opinion) (fs : Option (List (Pipe × Fin 32))) : State :=
  match fs with
  | none => s.detectedOnly r m 2
  | some l =>
    let code := match l with | f :: _ => pipeCode f.1 | [] => 2
    if l.any (s.tookOverLately r m.line) then s.detectedOnly r m code
    else match s.pickSpares pair l with
      | none => s.detectedOnly r m code
      | some moves => s.replaceAll r m moves

/-- The mismatch is settled: it leaves the row, and the units' contexts are idle. -/
def State.settled (s : State) (r : Fin 16) (m : Mismatch) : State :=
  (s.updRow r (fun x => x.dropMismatch m.line)).updCtx (lineUnit m.half) UnitCtx.idle

/-- No opinion can be cast (R218). -/
def State.noOpinion (s : State) (r : Fin 16) (m : Mismatch) : State := ((s.settled r m).releasePair r).detectedOnly r m 3

/-- FSV takes the verdict with the pair that stands in the row: CVU32 and CVU33 make the comparison (R206, R216). -/
def State.takeVerdict (s : State) (r : Fin 16) (m : Mismatch) (bad : CvuUpset) (o : Opinion) : State :=
  let fs := s.faulty r m o
  let a := s.cvuSelf 32 r m.line bad.lower m.injected
  let b := a.1.cvuSelf 33 r m.line bad.upper m.injected
  if a.2 && b.2 then ((b.1.settled r m).releasePair r).decideVerdict r m o fs else b.1.noOpinion r m

/-- A mismatch that is lasting and has no opinion yet: once two spares are free a pair runs as a separate replay from the
replay's checkpoint, and the verdict follows when it has ended (R215). -/
def State.lateOpinion (s : State) (r : Fin 16) (m : Mismatch) (bad : CvuUpset) : State :=
  match s.pairOf r with
  | some o => s.takeVerdict r m bad o
  | none =>
    let c := s.rows[r].replay.bind (fun p => s.rows[r].ckpts.find? (fun c => c.line = p.c))
    match c with
    | some c =>
      if s.opinionCan then
        s.joinPair r { PipeRun.init with line := c.line, since := s.aon, walk := c.walk, carry := c.carry, hist := c.hist }
      else s.noOpinion r m
    | none => s.noOpinion r m

/-- A second mismatch of a line, of any kind: lasting (R214). The opinion is the pair's that ran along; without one the mismatch
waits for a pair where one can still be had (R215, R216). -/
def State.misLasting (s : State) (r : Fin 16) (m : Mismatch) (bad : CvuUpset) : State :=
  let s1 := ({ s with chk := { s.chk with misLasting := satAdd s.chk.misLasting 1 } }).misEvent r m clsLasting
  if s.chk.shadowOff then ((s1.settled r m).releasePair r).detectedOnly r m 2
  else match s1.pairOf r with
    | some o => s1.takeVerdict r m bad o
    | none =>
      if s1.opinionCan then
        let w := { m with waiting := true, retrying := true }
        (s1.updRow r (fun x => { x with mismatch := w :: (x.dropMismatch m.line).mismatch })).lateOpinion r w bad
      else s1.noOpinion r m

/-- A mismatch is reported: the first asks for a squash at its line, one more of the same expansion joins it, and one on the
retry is lasting. -/
def State.mismatchAt (s : State) (r : Fin 16) (h : Fin 32) (line : Nat) (kind : MisKind) (seg : BitVec 16) (inj : Bool)
    (bad : CvuUpset) : State :=
  let lo := decide (h.val % 2 = 0)
  let m : Mismatch := { line := line, kind := kind, half := h, segMask := seg, injected := inj, retrying := false, waiting := false, lo := lo, hi := !lo }
  match s.rows[r].mismatch.find? (fun x => x.line = line) with
  | none =>
    let s1 := (s.updRow r (fun x => { x with mismatch := x.mismatch ++ [m] })).updCtx (lineUnit h)
      (fun c => { c with state := .retryPending, kind := some kind, retries := 0 })
    ((s1.misEvent r m clsPending).detect (misDetect r m 0xFF .pending)).wantSquash r line .retry
  | some old =>
    if old.waiting then s
    else if old.retrying then
      (s.updCtx (lineUnit h) (fun c => { c with kind := some kind, retries := 1 })).misLasting r { m with injected := inj || old.injected } bad
    else
      let j := { old with segMask := old.segMask ||| seg, injected := old.injected || inj, lo := old.lo || lo, hi := old.hi || !lo }
      let s1 := s.updRow r (fun x => { x with mismatch := x.mismatch.map (fun y => if y.line = line then j else y) })
      ((s1.misEvent r m clsPending).detect (misDetect r m 0xFF .pending))

/-- The mismatch of a row that waits for its opinion. -/
def SpcRow.waiting (x : SpcRow) : Option Mismatch := x.mismatch.find? (·.waiting)

/-- The half has already reported this line in the present expansion. -/
def SpcRow.reported (x : SpcRow) (h : Fin 32) (line : Nat) : Bool :=
  x.mismatch.any (fun m => m.line = line && !m.retrying && (if h.val % 2 = 0 then m.lo else m.hi))

/-- Lines of a row are compared up to a lasting fault. -/
def SpcRow.compares (x : SpcRow) (line : Nat) : Bool := match x.faultAt with | some f => decide (line < f) | none => true

/-! ### Agreed lines (07 R157, R167, R172) -/

/-- What both halves of a line agreed on. -/
def agreedOf (lo hi : LineSet) (replayed : Bool) : Agreed :=
  { line := lo.line, generation := lo.generation, unbound := lo.unbound || hi.unbound, damaged := lo.damaged || hi.damaged,
    replayed := replayed, sigs := lo.sigs ++ hi.sigs, bytes := lo.bytes ++ hi.bytes }

/-- A replayed line below Q differs from what is stored while both pipelines agree (R167): the squash is repeated once. -/
def State.diverges (s : State) (r : Fin 16) (line : Nat) : State :=
  let q := (s.rows[r].replay.map (·.q)).getD line
  let d (o : FaultOutcome) (first : Nat) (stops : Bool) : Detect :=
    { fclass := fcExpansion, source := srcSpc, row := BitVec.ofNat 8 r.val, rows := 1#16 <<< r.val, first := first, last := line,
      outcome := o, stops := stops }
  if s.rows[r].diverged = some line then
    ((s.updRow r (fun x => { x with diverged := none })).rowFault r q).detect (d .detected q true)
  else ((s.updRow r (fun x => { x with diverged := some line })).detect (d .pending line false)).wantSquash r q .divergence

/-- A replayed line comes out as stored, and its data are dropped. -/
def State.sameAgain (s : State) (r : Fin 16) (line : Nat) : State :=
  if s.rows[r].diverged = some line then
    (s.updRow r (fun x => { x with diverged := none })).detect
      { fclass := fcExpansion, source := srcSpc, row := BitVec.ofNat 8 r.val, rows := 1#16 <<< r.val, first := line, last := line, outcome := .transient }
  else s

/-- A new line is agreed, the lowest that was not: written to the ring, copied and poured where its time has come; one that is
late is not (R157, R172). -/
def State.newAgreed (s : State) (r : Fin 16) (a : Agreed) : State :=
  let n := a.line
  let s1 := s.updRow r (fun x => { x with agreed := n + 1 })
  if s.rows[r].isWithheld n || decide (n < s.lsd.rows[r].next) then s1
  else
    let s2 := (s1.updRow r (fun x => { x with ring := (a :: x.ring).take 4096 })).ringWrote r n
    let s3 := s2.feedLine r n
    match s3.rows[r].replay with
    | some p => if p.q ≤ n then (s3.replayLate r).updRow r (fun x => { x with replay := none }) else s3
    | none => s3

def State.agree (s : State) (r : Fin 16) (lo hi : LineSet) : State :=
  let n := lo.line
  let s1 := s.misTransient r n false
  let x := s1.rows[r]
  let a := agreedOf lo hi x.replay.isSome
  if n < x.agreed then
    match x.ring.find? (fun y => y.line = n) with
    | some y => if y.sigs = a.sigs then s1.sameAgain r n else s1.diverges r n
    | none => s1
  else if n = x.agreed then s1.newAgreed r a
  else s1

/-- A row line is agreed when both halves match (R153). -/
def State.tryAgree (s : State) (r : Fin 16) : State :=
  match (s.cvu (half0 r)).matched, (s.cvu (half1 r)).matched with
  | lo :: _, hi :: _ =>
    let drop (u : Cvu) : Cvu := { u with matched := u.matched.drop 1 }
    if lo.line = hi.line then ((s.updCvu (half0 r) drop).updCvu (half1 r) drop).agree r lo hi else s
  | _, _ => s

/-! ### The comparison (R207) -/

/-- What differs between the sets of a half-row line: the kind and the segments of the row. -/
def differs (h : Fin 32) (next : Nat) (a : LineSet) (b : Option LineSet) : Option (MisKind × BitVec 16) :=
  let tagBad := a.tag != lineTag next || (match b with | some y => y.tag != lineTag next | none => false)
  let segs := match b with
    | some y => maskOf ((List.range 8).map (fun k => a.sigs.getD k 0 != y.sigs.getD k 0))
    | none => 0
  let couple := match b with | some y => a.couple != y.couple | none => false
  let mask := BitVec.ofNat 16 (segs * 2 ^ (8 * (h.val % 2)))
  if tagBad then some (.alive, mask) else if couple then some (.coupling, mask) else if segs ≠ 0 then some (.segment, mask) else none

/-- The CVU compares the sets of its next line. -/
def State.compareSets (s : State) (h : Fin 32) (a : LineSet) (b : Option LineSet) (bad : CvuUpset) : State :=
  let r := rowOf h
  let next := (s.cvu h).next
  match differs h next a b with
  | some (k, m) => s.mismatchAt r h next k m (a.injected || (b.map (·.injected)).getD false) bad
  | none =>
    let s1 := s.updCvu h (fun u => { u with next := next + 1, prims := u.prims.drop 1, shads := u.shads.drop 1, matched := u.matched ++ [a] })
    s1.tryAgree r

end Sys2Proof.Machine
end

