-- ==== Sys2Proof/Machine/Check.lean ====
section
/-! DEFINITION. Checking (09): CHECK_CONFIG (R223), CHECK_INJECT (R224, R225), CHECK_STATUS (R226), the comparison of a
half-row line (R207 to R211) and the two timeouts (R208, 05 R117). -/

namespace Sys2Proof.Machine

/-! ### CHECK_CONFIG (R223) -/

def cmdCheckConfig : Cmd :=
  { opcode := 0x0226, okLen := fun n => n == 8
    run := fun q s =>
      let p := q.payload
      checks s [(decide (1 < fld p 0 1) || !zeros p 1 7, .badParam), (s.armed, .badState)] fun _ =>
        { state := { s with chk := { s.chk with shadowOff := bit (fld p 0 1) 0 } } } }

def execCheckConfig (q : Req) (s : State) : Host.Outcome State Fault Refusal := .next (serve cmdCheckConfig q s)

/-! ### CHECK_INJECT (R224, R225) -/

/-- Targets judged against the expansion frontier. -/
def frontierTarget (t : Nat) : Bool := t != 4 && t != 6

def cmdCheckInject : Cmd :=
  { opcode := 0x0820, okLen := fun n => n == 16
    run := fun q s =>
      let p := q.payload
      let target := fld p 0 1
      let r : Fin 16 := Fin.ofNat 16 (fld p 1 1)
      let line := fld p 8 8
      let i : Injection := { target := Fin.ofNat 8 target, row := r, left := 1 + fld p 2 1, mask := BitVec.ofNat 8 (fld p 3 1),
                             position := fld p 4 2, line := line }
      checks s
        [(fld p 3 1 == 0 || decide (7 < target ∨ 15 < fld p 1 1 ∨ 1 < fld p 2 1 ∨ 16383 < fld p 4 2 ∨ 2 ^ 48 ≤ line) || !zeros p 6 2 ||
            (target == 7 && line % 64 != 0), .badParam),
         (!s.armed, .badState),
         (s.chk.shadowOff && (target == 1 || target == 3 || target == 7), .badState),
         (!s.assigned r, .badState),
         (frontierTarget target && decide (line < s.rows[r].frontier), .leadTooShort),
         (target == 4 && decide (line ≤ s.lsd.rows[r].next + 31), .leadTooShort),
         (decide (4 ≤ s.chk.injections.length), .noResource)] fun _ =>
        { state := { s with chk := { s.chk with injections := s.chk.injections ++ [i] } } } }

def execCheckInject (q : Req) (s : State) : Host.Outcome State Fault Refusal := .next (serve cmdCheckInject q s)

/-! ### CHECK_STATUS (R226) -/

/-- The function a spare unit stands in for, 0xFF when none. -/
def Chk.standsFor (c : Chk) (unit : Fin 40) : Nat :=
  match (List.finRange 38).find? (fun f => c.units[f] == some unit) with
  | some f => f.val
  | none => 0xFF

def cmdCheckStatus : Cmd :=
  { opcode := 0x0821, okLen := fun n => n == 0
    run := fun _ s =>
      let c := s.chk
      { state := s
        payload := c.engines.toList.flatMap (fun e => le 1 e.1.val ++ le 1 e.2.val) ++
          le 1 (maskOf ((List.finRange 4).map s.spareFree)) ++ le 1 (b2n c.shadowOff) ++ zeroBytes 2 ++
          le 1 (c.standsFor 38) ++ le 1 (c.standsFor 39) ++ zeroBytes 2 ++ le 4 c.misTransient.toNat ++ le 4 c.misLasting.toNat ++
          le 4 c.pourTransient.toNat ++ le 4 c.pourLasting.toNat ++ le 4 c.cvuFaults.toNat ++ zeroBytes 4 ++ le 8 s.nowNs } }

def execCheckStatus (q : Req) (s : State) : Host.Outcome State Fault Refusal := .next (serve cmdCheckStatus q s)

/-! ### The comparison of a half-row line (R207 to R211) -/

/-- The sets a CVU needs for its next line: the primary's, and the shadow's unless it is off (R223). -/
def State.setsReady (s : State) (h : Fin 32) : Option (LineSet × Option LineSet) :=
  let u := s.cvu h
  match u.prims, u.shads with
  | a :: _, b :: _ => some (a, if s.chk.shadowOff then none else some b)
  | a :: _, [] => if s.chk.shadowOff then some (a, none) else none
  | [], _ => none

/-- CVUh compares its next line; a mismatch of the row that waits for its opinion comes first. -/
def State.lineCompare (s : State) (h : Fin 32) (bad : CvuUpset) : State :=
  let r := rowOf h
  match s.rows[r].waiting, s.setsReady h with
  | some m, _ => s.lateOpinion r m bad
  | none, some (a, b) =>
    let line := (s.cvu h).next
    if !(s.rows[r].compares line) || s.rows[r].reported h line then s
    else
      let inj := s.chk.injections.filter (fun i => i.at_ 6 h line)
      let fails := bad.unit + inj.foldl (fun n i => n + i.left) 0
      let s1 : State := { s with chk := { s.chk with injections := s.chk.injections.filter (fun i => !i.at_ 6 h line) } }
      let x := s1.cvuSelf (lineUnit h) r line fails (!inj.isEmpty)
      if x.2 then x.1.compareSets h a b bad else x.1
  | none, none => s

/-- `bad` tells how often the units' self-checks fail on this line, beside what is planted. -/
def execLineCompare (h : Fin 32) (bad : CvuUpset) (t : Nat) (s : State) : Host.Outcome State Fault Refusal := .next ((s.at t).lineCompare h bad)

/-! ### Timeouts (R208) -/

/-- One pipeline's set for the CVU's next line has waited 16,384 clocks for the other's. -/
def State.setMissing (s : State) (h : Fin 32) : Option LineSet :=
  let u := s.cvu h
  let old (x : LineSet) : Bool := decide (x.at_ + clocks 16384 ≤ s.aon)
  if s.chk.shadowOff then none
  else match u.prims, u.shads with
    | a :: _, [] => if old a then some a else none
    | [], b :: _ => if old b then some b else none
    | _, _ => none

def State.missing (s : State) (h : Fin 32) (bad : CvuUpset) : State :=
  let r := rowOf h
  let line := (s.cvu h).next
  match s.setMissing h with
  | some x => if s.rows[r].compares line && !s.rows[r].reported h line then s.mismatchAt r h line .missing 0 x.injected bad else s
  | none => s

def execMissingTimeout (h : Fin 32) (bad : CvuUpset) (t : Nat) (s : State) : Host.Outcome State Fault Refusal := .next ((s.at t).missing h bad)

/-- The engine of a half-row has waited for more than 16,384 clocks for a coupling value of its line (05 R117): the engine on the
other side of the row, which sends it, has not finished the line, and the wait is no longer than the work on it. -/
def State.stalled (s : State) (p : Pipe) (h : Fin 32) (waits : Nat) : Bool :=
  let n := (s.rows[rowOf h]).run p
  s.works p (rowOf h) && !n.doneLo && !n.doneHi && decide (16384 < waits ∧ n.since + clocks waits ≤ s.aon)

/-- COUPLING_TIMEOUT of the row: `waits` is the wait in engine clocks. -/
def State.couplingTimeout (s : State) (p : Pipe) (h : Fin 32) (waits : Nat) (bad : CvuUpset) : State :=
  let r := rowOf h
  let line := ((s.rows[r]).run p).line
  if s.stalled p h waits && s.rows[r].compares line && !s.rows[r].reported h line then s.mismatchAt r h line .timeout 0 false bad else s

def execCouplingTimeout (p : Pipe) (h : Fin 32) (waits : Nat) (bad : CvuUpset) (t : Nat) (s : State) : Host.Outcome State Fault Refusal :=
  .next ((s.at t).couplingTimeout p h waits bad)

end Sys2Proof.Machine
end

