-- ==== Sys2Proof/Machine/QueOps.lean ====
section
/-! DEFINITION. Shared operations of the queues (19 R489 to R493): room, the write of a record, its interrupt (R476), the posting of
an event and what a full event queue holds or loses. -/

namespace Sys2Proof.Machine

def State.que (s : State) (q : Fin 48) : Que := s.dma.queues[q]
def State.updQue (s : State) (q : Fin 48) (f : Que → Que) : State := { s with dma := { s.dma with queues := upd s.dma.queues q f } }

/-- Free records of a ring. -/
def Que.space (q : Que) : Nat := q.size - q.used

/-- The phase of the record at the tail (R490). -/
def Que.phase (q : Que) : Bool := !q.tail.toNat.testBit q.log2Size.toNat

/-- The index after the tail, modulo twice the size. -/
def Que.nextTail (q : Que) : BitVec 17 := BitVec.ofNat 17 ((q.tail.toNat + 1) % (2 * q.size))

/-- Record length: 32 bytes in a CQ, 64 in an EQ. -/
def recordLen (q : Fin 48) : Nat := if q.val < 32 then 32 else 64

/-- Signal a queue's vector and count its records afresh (R475, R476). -/
def State.signalQue (s : State) (q : Fin 48) : State := (s.updQue q (fun x => { x with unsignalled := 0 })).msix (5 + q.val)

/-- One more record is unsignalled; `coal_count` of them signal the vector, 0 every one (R476). -/
def State.announce (s : State) (q : Fin 48) : State :=
  let x := s.que q
  if !x.irqEn then s
  else
    let s1 := s.updQue q (fun x => { x with unsignalled := x.unsignalled + 1, since := if x.unsignalled = 0 then s.aon else x.since })
    if x.coalCount.toNat ≤ x.unsignalled + 1 then s1.signalQue q else s1

/-- Write a record, all but its last four bytes first (R494). -/
def State.writeRecord (s : State) (q : Fin 48) (record : Bool → List Byte) : State :=
  let x := s.que q
  let p := record x.phase
  let n := recordLen q
  let addr := x.base.toNat + x.tail.toNat % x.size * n
  let s1 := (s.emit (.hostWrite addr (p.take (n - 4)) x.ns)).emit (.hostWrite (addr + (n - 4)) (p.drop (n - 4)) x.ns)
  (s1.updQue q (fun x => { x with tail := x.nextTail })).announce q

/-! ### Event queues -/

def eqIndex (n : Fin 16) : Fin 48 := ⟨32 + n.val, by omega⟩

/-- Write all records of an event. -/
def State.writeEvent (s : State) (n : Fin 16) (e : Ev) : State :=
  (List.range e.count).foldl (fun s i => s.writeRecord (eqIndex n) (e.record i)) s

/-- Records held for an event queue. -/
def Que.heldRecords (q : Que) : Nat := (q.held.map Ev.count).sum

/-- An event that the queue has no room for is held, up to 256 records; beyond that it is lost whole (R493). -/
def State.holdEvent (s : State) (n : Fin 16) (e : Ev) : State :=
  let x := s.que (eqIndex n)
  if x.heldRecords + e.count ≤ 256 then s.updQue (eqIndex n) (fun x => { x with held := x.held ++ [e] })
  else
    (s.updQue (eqIndex n) (fun x => { x with lost := satAdd x.lost e.count, lostSince := satAdd x.lostSince e.count })).setGlobalFault 4

/-- Nothing waits in front of a new event. -/
def Que.clear (q : Que) : Bool := q.held.isEmpty && q.lostSince == 0

/-- An event of a class is discarded: not routed, or its queue not enabled (17 R434). -/
def State.dropEvent (s : State) (cls : Fin 4) : State :=
  { s with mbx := { s.mbx with dropped := upd s.mbx.dropped cls (fun c => satAdd c 1) } }

/-- An event goes to the queue of its class. -/
def State.routeEvent (s : State) (e : Ev) : State :=
  let r := s.mbx.route[e.cls]
  if 15 < r.toNat then s.dropEvent e.cls
  else
    let n : Fin 16 := Fin.ofNat 16 r.toNat
    let x := s.que (eqIndex n)
    if !x.enable then (if e.keep then s.updQue (eqIndex n) (fun x => { x with held := x.held ++ [e] }) else s.dropEvent e.cls)
    else if x.clear && decide (e.count ≤ x.space) then s.writeEvent n e
    else s.holdEvent n e

/-- EVQ_LOST. -/
def State.lostEvent (s : State) (count : BitVec 32) : Ev :=
  { code := 0x0010, cls := clsSystem, origin := none, status := 0, time := s.stamp, detail := 0, data := evData [(4, count.toNat)] }

/-- Held events are written while they fit, oldest first. -/
def State.writeHeld : List Ev → State → Fin 16 → State
  | [], s, _ => s
  | e :: r, s, n =>
    if e.count ≤ (s.que (eqIndex n)).space then
      State.writeHeld r ((s.writeEvent n e).updQue (eqIndex n) (fun x => { x with held := x.held.drop 1 })) n
    else s

/-- Room has returned: EVQ_LOST first, then what is held (R493). -/
def State.drainQue (s : State) (n : Fin 16) : State :=
  let x := s.que (eqIndex n)
  if !x.enable || x.space == 0 then s
  else
    let s1 := if x.lostSince = 0 then s
      else (s.writeEvent n (s.lostEvent x.lostSince)).updQue (eqIndex n) (fun x => { x with lostSince := 0 })
    State.writeHeld x.held s1 n

/-! ### Registers (R489, R490) -/

/-- A write of Q_CTRL: `enable` resets the indices, or is refused. -/
def State.qCtrlWrite (s : State) (q : Fin 48) (v : Nat) : State :=
  let x := s.que q
  let wants := bit v 0
  let size := x.log2Size.toNat
  let ok := decide (4 ≤ size ∧ size ≤ 16) && x.base != 0
  let y : Que := { x with irqEn := bit v 1, ns := bit v 2, coalCount := BitVec.ofNat 8 (bits v 8 8), coalUs := BitVec.ofNat 10 (bits v 16 10) }
  let z : Que :=
    if wants && !x.enable then
      (if ok then { y with enable := true, tail := 0, head := 0, lost := 0, unsignalled := 0 } else { y with cfgError := true })
    else { y with enable := wants }
  s.updQue q (fun _ => z)

/-- A write of Q_HEAD: discarded where it would pass the tail. -/
def State.qHeadWrite (s : State) (q : Fin 48) (v : Nat) : State :=
  let x := s.que q
  let m := 2 * x.size
  let h := v % 2 ^ 17
  if h < m ∧ (x.tail.toNat + m - h) % m ≤ x.used then s.updQue q (fun x => { x with head := BitVec.ofNat 17 h })
  else s.updQue q (fun x => { x with headError := true })

/-- W1C of `cfg_error` and `head_error`. -/
def State.qStatusWrite (s : State) (q : Fin 48) (v : Nat) : State :=
  s.updQue q (fun x => { x with cfgError := x.cfgError && !bit v 2, headError := x.headError && !bit v 3 })

def State.qBaseWrite (s : State) (q : Fin 48) (v : Nat) : State :=
  if (s.que q).enable then s else s.updQue q (fun x => { x with base := BitVec.ofNat 64 (v / 4096 * 4096) })

def State.qSizeWrite (s : State) (q : Fin 48) (v : Nat) : State :=
  if (s.que q).enable then s else s.updQue q (fun x => { x with log2Size := BitVec.ofNat 5 v })

end Sys2Proof.Machine
end

