-- ==== Sys2Proof/Machine/DmaOps.lean ====
section
/-! DEFINITION. Shared operations of Bulk DMA (19 R481 to R491): assignment, `go`, bursts, reads, the end of a transfer and its
completion record. -/

namespace Sys2Proof.Machine

def State.chan (s : State) (c : Fin 48) : Chan := s.dma.chans[c]
def State.updChan (s : State) (c : Fin 48) (f : Chan → Chan) : State := { s with dma := { s.dma with chans := upd s.dma.chans c f } }

/-- A host channel by its number. -/
def hostChan (c : Fin 32) : Fin 48 := ⟨c.val, by omega⟩

/-! ### What a transfer latched -/

def Xfer.srcDev (x : Xfer) : Bool := x.ctrl.getLsbD 8
def Xfer.dstDev (x : Xfer) : Bool := x.ctrl.getLsbD 9
def Xfer.ns (x : Xfer) : Bool := x.ctrl.getLsbD 10
def Xfer.cq (x : Xfer) : Nat := bits x.ctrl.toNat 16 6
def Xfer.drqEn (x : Xfer) : Bool := x.reqSel.getLsbD 7
def Xfer.line (x : Xfer) : Nat := x.reqSel.toNat % 64
def Xfer.burst (x : Xfer) : Nat := (bits x.reqSel.toNat 8 12 + 1) * 64

/-- A copy within device memory whose ends overlap upward runs descending (R484). -/
def Xfer.descending (x : Xfer) : Bool :=
  x.srcDev && x.dstDev && decide (x.src.toNat < x.dst.toNat ∧ x.dst.toNat < x.src.toNat + x.count.toNat)

/-- Check 1 of R483. -/
def Xfer.bad (x : Xfer) : Bool :=
  (!x.srcDev && !x.dstDev) || decide (20 ≤ x.line ∧ x.line ≤ 31) || decide (2 ^ 64 < x.src.toNat + x.count.toNat) ||
  decide (2 ^ 64 < x.dst.toNat + x.count.toNat) || (x.ctrl &&& 0xFFC0F8FC#32) != 0 || decide (32 ≤ x.cq ∧ x.cq ≤ 62)

/-- The device address of the first side that is not wholly inside an open window. -/
def State.windowMiss (s : State) (x : Xfer) : Option Nat :=
  if x.srcDev && !s.inWindow false x.src.toNat x.count.toNat then some x.src.toNat
  else if x.dstDev && !s.inWindow true x.dst.toNat x.count.toNat then some x.dst.toNat
  else none

/-! ### Assignment (R481) -/

/-- The assignment in effect follows the wanted one, but for channels in the middle of a transfer. -/
def State.assign (s : State) : State :=
  let keep (c : Fin 32) : Bool := (s.chan (hostChan c)).state == .active
  let mask := maskOf ((List.finRange 32).map keep)
  let m := BitVec.ofNat 32 mask
  { s with hif := { s.hif with bdAssign := (s.hif.bdAssign &&& m) ||| (s.hif.assignWanted &&& ~~~m) } }

/-! ### The end of a transfer (R483, R491) -/

/-- The completion record. -/
def Chan.record (c : Chan) (number : Nat) (e : XferEnd) (phase : Bool) : List Byte :=
  le 2 c.latched.user.toNat ++ le 1 number ++ [e.status.code] ++ le 4 c.moved.toNat ++ le 8 e.time ++ le 8 e.faultAddr.toNat ++
  le 4 c.run.toNat ++ le 4 (fields [(0, b2n e.aborted), (1, b2n c.lostPulse), (2, b2n c.latched.descending), (31, b2n phase)])

/-- The record is written, waits for room, or is not written at all: no CQ, or one that is not enabled (R493). -/
def State.complete (s : State) (c : Fin 48) (e : XferEnd) : State :=
  let x := s.chan c
  let idle (s : State) : State := (s.updChan c (fun x => { x with state := .idle, ended := none })).assign
  if h : x.latched.cq < 32 then
    let q : Fin 48 := ⟨x.latched.cq, by omega⟩
    let y := s.que q
    if !y.enable then idle (s.updQue q (fun y => { y with lost := satAdd y.lost 1 }))
    else if y.space = 0 then (s.updChan c (fun x => { x with state := .waitCq, ended := some e })).assign
    else idle (s.writeRecord q (x.record c.val e))
  else idle s

/-- A transfer ends with a status. -/
def State.finish (s : State) (c : Fin 48) (st : Status) (faultAddr : Nat) (aborted : Bool) : State :=
  let e : XferEnd := { status := st, faultAddr := BitVec.ofNat 64 faultAddr, aborted := aborted, time := s.nowNs }
  let s1 := s.updChan c (fun x => { x with lastStatus := st.code, burstLeft := 0, heldPulses := 0, abortWanted := false, retrying := false })
  (if st = .lastingFault then s1.setGlobalFault 5 else s1).complete c e

/-! ### The read engine (R488) -/

/-- The host's programmed max read request size. -/
def maxRead : Nat := 128 * 2 ^ Config.maxReadRequest.val

/-- A channel's outstanding reads: how many, and their bytes. -/
def Dma.inFlight (d : Dma) (c : Fin 48) : Nat := (d.reads.filter (fun r => r.1 = c)).length
def Dma.asked (d : Dma) (c : Fin 48) : Nat := ((d.reads.filter (fun r => r.1 = c)).map (·.2)).sum

/-- A channel has data to ask for and a read left to ask with; `abort` and a lasting fault stop new reads (R486, R487). -/
def State.wantsRead (s : State) (c : Fin 48) : Bool :=
  let x := s.chan c
  x.state == .active && x.ended.isNone && !x.abortWanted && decide (s.dma.asked c < x.burstLeft) && decide (s.dma.inFlight c < 32)

/-- Offset of a run of `n` bytes that begins `done` bytes into the transfer: from the starting end (R484). -/
def Chan.offset (x : Chan) (done n : Nat) : Nat := if x.latched.descending then x.latched.count.toNat - done - n else done

/-- A read goes out; one of host memory is a request on the link. -/
def State.readOut (s : State) (c : Fin 48) (done n : Nat) : State :=
  let x := s.chan c
  if x.latched.srcDev then s else s.emit (.hostRead (x.latched.src.toNat + x.offset done n) n x.latched.ns)

/-- One read of a channel is issued. -/
def State.issueRead (s : State) (c : Fin 48) : State :=
  let x := s.chan c
  let asked := s.dma.asked c
  let n := min maxRead (x.burstLeft - asked)
  let s1 := s.readOut c (x.moved.toNat + asked) n
  { s1 with dma := { s1.dma with reads := s1.dma.reads ++ [(c, n)], turn := c } }

/-- The next channel in the rotation that has a read to issue. -/
def State.readTurn (s : State) : Option (Fin 48) := ((List.finRange 48).map (fun i => s.dma.turn + 1 + i)).find? s.wantsRead

/-- Reads are issued in rotation as far as 64 outstanding ones allow. -/
def State.issueReads : Nat → State → State
  | 0, s => s
  | k + 1, s => if 64 ≤ s.dma.reads.length then s else match s.readTurn with
    | some c => State.issueReads k (s.issueRead c)
    | none => s

/-! ### go and abort (R483, R486) -/

/-- `go` on an IDLE channel; an ACTIVE one takes its turn at the reads. -/
def State.chanGo (s : State) (c : Fin 48) : State :=
  let x := s.chan c
  let l : Xfer := { src := x.src, dst := x.dst, count := x.count, reqSel := x.reqSel, ctrl := x.ctrl, user := x.user }
  let y : Chan := { x with latched := l, run := x.run + 1, moved := 0, lostPulse := false, transient := false, retrying := false
                           abortWanted := false, heldPulses := 0, ended := none, burstLeft := if l.drqEn then 0 else l.count.toNat }
  let s1 := s.updChan c (fun _ => y)
  if l.bad then s1.finish c .badParam 0 false
  else if l.count = 0 then s1.finish c .empty 0 false
  else match s1.windowMiss l with
    | some a =>
      let h := s1.hif
      ({ s1 with hif := { h with dmaFaults := satAdd h.dmaFaults 1, lastAddr := BitVec.ofNat 38 a, lastKind := 3 } }).finish c .windowFault 0 false
    | none => (s1.updChan c (fun y => { y with state := .active })).issueReads 64

/-- A write of CTRL: `abort` first, then `go`. -/
def State.ctrlWrite (s : State) (c : Fin 48) (v : Nat) : State :=
  let s1 := s.updChan c (fun x => { x with ctrl := BitVec.ofNat 32 v &&& 0xFFFFFFFC#32,
                                           abortWanted := x.abortWanted || (bit v 1 && x.state == .active) })
  if !bit v 0 then s1
  else if (s.chan c).state = .idle then s1.chanGo c
  else s1.updChan c (fun x => { x with goIgnored := true })

/-! ### Bursts (R485) -/

/-- Bytes a channel has still to move. -/
def Chan.left (x : Chan) : Nat := x.latched.count.toNat - x.moved.toNat

/-- A request pulse reaches a channel. -/
def State.chanPulse (line : Fin 64) (s : State) (c : Fin 48) : State :=
  let x := s.chan c
  if x.state ≠ .active ∨ x.latched.drqEn = false ∨ x.latched.line ≠ line.val then s
  else if x.burstLeft = 0 then s.updChan c (fun x => { x with burstLeft := min x.latched.burst x.left })
  else if x.heldPulses < 15 then s.updChan c (fun x => { x with heldPulses := x.heldPulses + 1 })
  else
    let s1 := s.updChan c (fun x => { x with drqOverflow := true, lostPulse := true })
    let full (y : Crossing) : Crossing := { y with overflowed := true }
    let s2 : State := { s1 with clk := { s1.clk with pulseOverflows := satAdd s1.clk.pulseOverflows 1, crossings := upd s1.clk.crossings 5 full } }
    let stopped := s.clk.domains[(5 : Fin 13)].gated || s.clk.domains[(5 : Fin 13)].target.isSome
    s2.detect { fclass := fcCrossing, source := srcRcu, unit := 5, outcome := if stopped then .consequence else .reported
                cause := if stopped then fcClock else 0 }

/-- A burst has ended: the next held pulse starts another. -/
def Chan.nextBurst (x : Chan) : Chan :=
  if x.latched.drqEn && x.burstLeft == 0 && decide (0 < x.heldPulses) then
    { x with heldPulses := x.heldPulses - 1, burstLeft := min x.latched.burst x.left }
  else x

/-! ### Reads (R484, R487) -/

/-- Data are written to the destination. -/
def State.moveChunk (s : State) (c : Fin 48) (off : Nat) (p : List Byte) : State :=
  let l := (s.chan c).latched
  let dst := l.dst.toNat + off
  let s1 := if l.dstDev then s.memWrite dst p else s.emit (.hostWrite dst p l.ns)
  (s1.traffic p.length (s.hif.bdAssign.getLsbD c.val)).updChan c (fun x =>
    ({ x with moved := x.moved + BitVec.ofNat 32 p.length, burstLeft := x.burstLeft - p.length, transient := x.transient || x.retrying
              retrying := false }).nextBurst)

/-- A channel's oldest read is over. -/
def State.readOver (s : State) (c : Fin 48) (n : Nat) : State := { s with dma := { s.dma with reads := s.dma.reads.erase (c, n) } }

/-- A read fails: once it is issued again, twice it ends the transfer, and what was asked for after it is dropped. -/
def State.readFailed (s : State) (c : Fin 48) (n : Nat) : State :=
  let x := s.chan c
  if x.retrying then
    let addr := x.latched.src.toNat + x.offset x.moved.toNat n
    let s1 := s.updChan c (fun x => { x with
      ended := some { status := .lastingFault, faultAddr := BitVec.ofNat 64 addr, aborted := false, time := 0 }, burstLeft := 0, heldPulses := 0 })
    { s1 with dma := { s1.dma with reads := s1.dma.reads.filter (fun r => r.1 ≠ c) } }
  else (s.updChan c (fun x => { x with retrying := true })).readOut c x.moved.toNat n

/-- A channel's oldest outstanding read comes back with its data or fails; `data` is what host memory gave. -/
def State.readDone (s : State) (c : Fin 48) (data : List Byte) (ok : Bool) : State :=
  match s.dma.reads.find? (fun r => r.1 = c) with
  | none => s
  | some (_, n) =>
    let x := s.chan c
    let off := x.offset x.moved.toNat n
    let a := x.latched.src.toNat + off
    if x.latched.srcDev && s.readFails a n then ((s.poisonRead 1 a n x.retrying).readFailed c n).issueReads 64
    else if !ok then (s.readFailed c n).issueReads 64
    else if x.latched.srcDev then (((s.readSingles .dma a n).readOver c n).moveChunk c off (s.memRead a n)).issueReads 64
    else if data.length = n then ((s.readOver c n).moveChunk c off data).issueReads 64
    else s

/-- Whether and how an ACTIVE channel's transfer has come to its end; an abort waits for the reads in flight (R486). -/
def State.ending (s : State) (c : Fin 48) : Option (Status × Nat × Bool) :=
  let x := s.chan c
  if x.state ≠ .active then none
  else match x.ended with
    | some e => some (e.status, e.faultAddr.toNat, false)
    | none =>
      if x.left = 0 then some (if x.transient then .transientRecovered else .ok, 0, false)
      else if x.abortWanted && s.dma.inFlight c == 0 then some (.ok, 0, true)
      else none

end Sys2Proof.Machine
end

