-- ==== Sys2Proof/Machine/Bar0.lean ====
section
/-! DEFINITION. BAR0 (19 R471 to R482, R489; 17 R414 to R416): the register map as it reads, and what a write of each register does. -/

namespace Sys2Proof.Machine

/-- The host domain is powered and out of reset: the function answers. -/
def State.hostUp (s : State) : Bool := !s.hif.inReset && s.pwr.powered.getLsbD 2

def State.badAccess (s : State) : State := s.setGlobalFault 7

/-! ### Where an offset lies -/

/-- The registers of BAR0, by region and offset within it. -/
inductive Reg where
  | global (off : Nat)
  | msix (vector : Fin 64) (word : Nat)
  | pending (off : Nat)
  | mailbox (m : Fin 4) (off : Nat)
  | ring (off : Nat)
  | channel (c : Fin 32) (off : Nat)
  | queue (q : Fin 48) (off : Nat)
  | window (off : Nat)
  | bar2 (off : Nat)
  | reserved

/-- R471. -/
def regAt (a : Nat) : Reg :=
  if a < 0x8000 then .global a
  else if a < 0x8400 then .msix ⟨(a - 0x8000) / 16 % 64, Nat.mod_lt _ (by omega)⟩ ((a - 0x8000) % 16)
  else if 0xC000 ≤ a ∧ a < 0xC008 then .pending (a - 0xC000)
  else if 0x10000 ≤ a ∧ a < 0x10100 then .mailbox ⟨(a - 0x10000) / 64 % 4, Nat.mod_lt _ (by omega)⟩ ((a - 0x10000) % 64)
  else if 0x20000 ≤ a ∧ a < 0x40000 then .ring a
  else if 0x100000 ≤ a ∧ a < 0x102000 then .channel ⟨(a - 0x100000) / 256 % 32, Nat.mod_lt _ (by omega)⟩ ((a - 0x100000) % 256)
  else if 0x200000 ≤ a ∧ a < 0x200C00 then .queue ⟨(a - 0x200000) / 64 % 48, Nat.mod_lt _ (by omega)⟩ ((a - 0x200000) % 64)
  else if 0x300000 ≤ a ∧ a < 0x300200 then .window (a - 0x300000)
  else if 0x400000 ≤ a ∧ a < 0x400008 then .bar2 (a - 0x400000)
  else .reserved

/-- The 64-bit registers, at their low halves. -/
def wide (a : Nat) : Bool :=
  match regAt a with
  | .global o => o == 0x10
  | .pending o => o == 0
  | .channel _ o => o == 0 || o == 8
  | .queue _ o => o == 0
  | .window o => o == 0x20 || (decide (0x100 ≤ o ∧ o < 0x180) && o % 16 == 0)
  | .bar2 o => o == 0
  | _ => false

/-! ### Reads -/

/-- Half 0 or 1 of a 64-bit value. -/
def halfOf (v : Nat) (high : Bool) : Nat := if high then v / 2 ^ 32 % 2 ^ 32 else v % 2 ^ 32

def State.globalWord (s : State) (o : Nat) : Nat :=
  match o with
  | 0x00 => 0x4826 + Config.hwRev.toNat * 65536
  | 0x04 => s.hostStatus
  | 0x08 => s.hif.globalFault.toNat
  | 0x0C => s.hif.faultMask.toNat
  | 0x10 => halfOf s.nowNs false
  | 0x14 => halfOf s.nowNs true
  | 0x18 => s.hif.bdAssign.toNat
  | _ => 0

def State.mailboxWord (s : State) (m : Fin 4) (o : Nat) : Nat :=
  let b := s.box ⟨m.val, by omega⟩
  match o with
  | 0x00 => b.reqTail.toNat
  | 0x04 => b.reqHead.toNat
  | 0x08 => b.rplTail.toNat
  | 0x0C => b.rplHead.toNat
  | 0x10 => b2n b.replyIrq
  | 0x14 => b.statusWord
  | _ => 0

def Chan.word (x : Chan) (o : Nat) : Nat :=
  match o with
  | 0x00 => halfOf x.src.toNat false
  | 0x04 => halfOf x.src.toNat true
  | 0x08 => halfOf x.dst.toNat false
  | 0x0C => halfOf x.dst.toNat true
  | 0x10 => x.count.toNat
  | 0x14 => (x.reqSel &&& 0x000FFFBF#32).toNat
  | 0x18 => x.ctrlWord
  | 0x1C => x.user.toNat
  | 0x20 => x.statusWord
  | 0x24 => x.moved.toNat
  | 0x28 => x.run.toNat
  | _ => 0

def Que.word (x : Que) (o : Nat) : Nat :=
  match o with
  | 0x00 => halfOf x.base.toNat false
  | 0x04 => halfOf x.base.toNat true
  | 0x08 => x.log2Size.toNat
  | 0x0C => x.ctrlWord
  | 0x10 => x.tail.toNat
  | 0x14 => x.head.toNat
  | 0x18 => x.statusWord
  | 0x1C => x.lost.toNat
  | _ => 0

def Hif.windowWord (x : Hif) (o : Nat) : Nat :=
  match o with
  | 0x00 => x.winLock
  | 0x10 => x.rdFaults.toNat
  | 0x14 => x.wrFaults.toNat
  | 0x18 => x.dmaFaults.toNat
  | 0x20 => halfOf x.lastFault false
  | 0x24 => halfOf x.lastFault true
  | _ =>
    if 0x100 ≤ o ∧ o < 0x180 then
      let w := x.windows[(⟨(o - 0x100) / 16 % 8, Nat.mod_lt _ (by omega)⟩ : Fin 8)]
      match o % 16 with
      | 0 => halfOf w.base.toNat false
      | 4 => halfOf w.base.toNat true
      | 8 => w.size.toNat
      | _ => w.perm
    else 0

/-- The 32-bit word at an aligned offset. -/
def State.bar0Word (s : State) (a : Nat) : Nat :=
  match regAt a with
  | .global o => s.globalWord o
  | .msix v w => (s.hif.msixTable[v]).toNat / 2 ^ (8 * w) % 2 ^ 32
  | .pending o => s.hif.msixPending.toNat / 2 ^ (8 * o) % 2 ^ 32
  | .mailbox m o => s.mailboxWord m o
  | .ring o => leNat (Memory.read s.mbx.ringMem o 4)
  | .channel c o => (s.chan (hostChan c)).word o
  | .queue q o => (s.que q).word o
  | .window o => s.hif.windowWord o
  | .bar2 o => s.hif.bar2Base.toNat / 2 ^ (8 * o) % 2 ^ 32
  | .reserved => 0

/-- The high half latched for a low half's offset. -/
def Hif.latched? (x : Hif) (low : Nat) : Option (BitVec 32) := (x.highLatch.find? (fun e => e.1 = low)).map (·.2)

/-- A 4-byte read: of a low half latches the high half, which the next read of that half returns (R472). -/
def State.readWord (s : State) (a : Nat) : State :=
  let give (s : State) (v : Nat) : State := s.emit (.readData (le 4 v))
  if wide a then
    let hi := BitVec.ofNat 32 (s.bar0Word (a + 4))
    give { s with hif := { s.hif with highLatch := assocSet s.hif.highLatch a hi } } (s.bar0Word a)
  else if 4 ≤ a ∧ wide (a - 4) = true then
    match s.hif.latched? (a - 4) with
    | some v => give { s with hif := { s.hif with highLatch := s.hif.highLatch.filter (fun e => e.1 ≠ a - 4) } } v.toNat
    | none => give s (s.bar0Word a)
  else give s (s.bar0Word a)

/-- A BAR0 read (R472). -/
def State.bar0Read (s : State) (a size : Nat) : State :=
  if !s.hostUp then s
  else if size = 4 ∧ a % 4 = 0 then s.readWord a
  else if size = 8 ∧ a % 8 = 0 then s.emit (.readData (le 4 (s.bar0Word a) ++ le 4 (s.bar0Word (a + 4))))
  else (s.emit (.readData (zeroBytes size))).badAccess

/-! ### Writes of single registers -/

/-- W1C of GLOBAL_FAULT: an unmasked bit that stays set signals vector 0 again (R474). -/
def State.globalFaultWrite (s : State) (v : Nat) : State :=
  let old := s.hif.globalFault
  let now := old &&& ~~~(BitVec.ofNat 8 v)
  let s1 : State := { s with hif := { s.hif with globalFault := now } }
  if now ≠ old ∧ (now &&& ~~~s.hif.faultMask) ≠ 0 then s1.msix 0 else s1

/-- BD_ASSIGN (R481). -/
def State.assignWrite (s : State) (v : Nat) : State :=
  ({ s with hif := { s.hif with assignWanted := BitVec.ofNat 32 v } }).assign

/-- DRQ_SOFT: bit i pulses DRQ32 + i (R485). -/
def State.drqSoft (s : State) (v : Nat) : State :=
  (List.finRange 32).foldl (fun s i => if bit v i.val then s.drq ⟨32 + i.val, by omega⟩ else s) s

/-- REQ_TAIL is judged by its distance from REQ_HEAD (R416). -/
def Box.tailWrite (b : Box) (v : BitVec 7) : Box :=
  let old := (b.reqTail - b.reqHead).toNat
  let new := (v - b.reqHead).toNat
  if old ≤ new ∧ new ≤ 64 then { b with reqTail := v } else { b with overrun := true }

/-- RPL_HEAD (R416). -/
def Box.headWrite (b : Box) (v : BitVec 7) : Box :=
  if (b.rplTail - v).toNat ≤ (b.rplTail - b.rplHead).toNat then { b with rplHead := v } else { b with overrun := true }

/-- W1C of `host_reset` and `overrun` (R415). -/
def Box.statusWrite (b : Box) (v : Nat) : Box := { b with hostReset := b.hostReset && !bit v 1, overrun := b.overrun && !bit v 4 }

/-- A mailbox register. -/
def State.mailboxWrite (s : State) (m : Fin 4) (o v : Nat) : State :=
  let i : Fin 8 := ⟨m.val, by omega⟩
  match o with
  | 0x00 => s.updBox i (fun b => b.tailWrite (BitVec.ofNat 7 v))
  | 0x0C => s.updBox i (fun b => b.headWrite (BitVec.ofNat 7 v))
  | 0x10 => s.updBox i (fun b => { b with replyIrq := bit v 0 })
  | 0x14 => s.updBox i (fun b => b.statusWrite v)
  | _ => s

/-- A 32-bit register of a channel of the host; one that is not the host's is a bad access (R481). -/
def State.chanWrite (s : State) (c : Fin 32) (o v : Nat) : State :=
  let i := hostChan c
  if !s.hif.bdAssign.getLsbD c.val then s.badAccess
  else match o with
    | 0x10 => s.updChan i (fun x => { x with count := BitVec.ofNat 32 v })
    | 0x14 => s.updChan i (fun x => { x with reqSel := BitVec.ofNat 32 v &&& 0x000FFFBF#32 })
    | 0x18 => s.ctrlWrite i v
    | 0x1C => s.updChan i (fun x => { x with user := BitVec.ofNat 16 v })
    | 0x20 => s.updChan i (fun x => { x with drqOverflow := x.drqOverflow && !bit v 16, goIgnored := x.goIgnored && !bit v 17 })
    | _ => s

def State.queWrite (s : State) (q : Fin 48) (o v : Nat) : State :=
  match o with
  | 0x08 => s.qSizeWrite q v
  | 0x0C => s.qCtrlWrite q v
  | 0x14 => s.qHeadWrite q v
  | 0x18 => s.qStatusWrite q v
  | _ => s

/-- A word of the MSI-X table; a vector whose mask goes is signalled if it is pending. -/
def State.msixWrite (s : State) (i : Fin 64) (w v : Nat) : State :=
  let sh := 8 * w
  let old := s.hif.msixTable[i]
  let entry := (old &&& ~~~(0xFFFFFFFF#128 <<< sh)) ||| (BitVec.ofNat 128 (v % 2 ^ 32) <<< sh)
  let s1 : State := { s with hif := { s.hif with msixTable := s.hif.msixTable.set i entry } }
  if !entry.getLsbD 96 && s.hif.msixPending.getLsbD i.val then
    ({ s1 with hif := { s1.hif with msixPending := s1.hif.msixPending &&& ~~~(1#64 <<< i.val) } }).msix i.val
  else s1

/-- A 64-bit register takes its value; `a` is its offset. -/
def State.wideWrite (s : State) (a v : Nat) : State :=
  match regAt a with
  | .channel c o =>
    if !s.hif.bdAssign.getLsbD c.val then s.badAccess
    else s.updChan (hostChan c) (fun x => if o = 0 then { x with src := BitVec.ofNat 64 v } else { x with dst := BitVec.ofNat 64 v })
  | .queue q _ => s.qBaseWrite q v
  | .bar2 _ => { s with hif := { s.hif with bar2Base := BitVec.ofNat 64 (v % 2 ^ 38 / 2 ^ 20 * 2 ^ 20) } }
  | _ => s

/-- A 32-bit register takes its value. -/
def State.wordWrite (s : State) (a v : Nat) : State :=
  match regAt a with
  | .global 0x08 => s.globalFaultWrite v
  | .global 0x0C => { s with hif := { s.hif with faultMask := BitVec.ofNat 8 v } }
  | .global 0x18 => s.assignWrite v
  | .global 0x1C => s.drqSoft v
  | .msix i w => s.msixWrite i w v
  | .mailbox m o => s.mailboxWrite m o v
  | .ring o => { s with mbx := { s.mbx with ringMem := Memory.write s.mbx.ringMem o (le 4 v) } }
  | .channel c o => s.chanWrite c o v
  | .queue q o => s.queWrite q o v
  | _ => s

/-! ### Accesses (R472) -/

/-- The low half of a 64-bit register waits for its high half. -/
def State.lowWrite (s : State) (a v : Nat) : State :=
  { s with hif := { s.hif with lowHalf := assocSet s.hif.lowHalf a (BitVec.ofNat 32 v) } }

/-- The high half makes the value take effect; without a low half written before, the low half stays. -/
def State.highWrite (s : State) (low v : Nat) : State :=
  let lo := match s.hif.lowHalf.find? (fun e => e.1 = low) with | some e => e.2.toNat | none => s.bar0Word low
  let s1 : State := { s with hif := { s.hif with lowHalf := s.hif.lowHalf.filter (fun e => e.1 ≠ low) } }
  s1.wideWrite low (lo + v % 2 ^ 32 * 2 ^ 32)

/-- A 4-byte write at an aligned offset. -/
def State.write4 (s : State) (a v : Nat) : State :=
  if wide a then s.lowWrite a v
  else if 4 ≤ a ∧ wide (a - 4) = true then s.highWrite (a - 4) v
  else s.wordWrite a v

/-- An 8-byte write at an aligned offset. -/
def State.write8 (s : State) (a v : Nat) : State :=
  if wide a then s.wideWrite a v else (s.wordWrite a (v % 2 ^ 32)).wordWrite (a + 4) (v / 2 ^ 32)

/-- A BAR0 write (R472). -/
def State.bar0Write (s : State) (a size v : Nat) : State :=
  if !s.hostUp then s
  else if size = 4 ∧ a % 4 = 0 then s.write4 a (v % 2 ^ 32)
  else if size = 8 ∧ a % 8 = 0 then s.write8 a v
  else s.badAccess

/-! ### BAR2 (01 R23, R477 to R480) -/

/-- An access of the aperture outside the open windows is counted: kind 1 a read, 2 a write. -/
def State.bar2Refused (s : State) (a : Nat) (write : Bool) : State :=
  let h := s.hif
  if write then { s with hif := { h with wrFaults := satAdd h.wrFaults 1, lastAddr := BitVec.ofNat 38 a, lastKind := 2 } }
  else { s with hif := { h with rdFaults := satAdd h.rdFaults 1, lastAddr := BitVec.ofNat 38 a, lastKind := 1 } }

def State.apertureRead (s : State) (off n : Nat) : State :=
  let a := s.hif.bar2Base.toNat + off
  if !s.hostUp then s
  else if s.inWindow false a n then
    let s1 := s.traffic n true
    if s1.readFails a n then (s1.poisonRead 7 a n true).emit (.readPoison n)
    else (s1.readSingles .dma a n).emit (.readData (s.memRead a n))
  else (s.bar2Refused a false).emit (.readData (zeroBytes n))

def State.apertureWrite (s : State) (off : Nat) (p : List Byte) : State :=
  let a := s.hif.bar2Base.toNat + off
  if !s.hostUp then s
  else if s.inWindow true a p.length then (s.traffic p.length true).memWrite a p
  else s.bar2Refused a true

end Sys2Proof.Machine
end

