-- ==== Sys2Proof/Machine/Dma.lean ====
section
/-! DEFINITION. Bulk DMA (19): CTRL and STATUS of a channel (R482, R483, R486), request pulses (R485), reads (R487), the end of a
transfer (R491) and a record that waited for its CQ (R493). -/

namespace Sys2Proof.Machine

/-- A write of CTRL with `go` (R483). -/
def execGo (c : Fin 32) (v : BitVec 32) (s : State) : Host.Outcome State Fault Refusal := .next (s.bar0Write (0x100018 + 256 * c.val) 4 v.toNat)

/-- A write of CTRL with `abort` (R486). -/
def execAbort (c : Fin 32) (v : BitVec 32) (s : State) : Host.Outcome State Fault Refusal := .next (s.bar0Write (0x100018 + 256 * c.val) 4 v.toNat)

def execBdStatusClear (c : Fin 32) (v : BitVec 32) (s : State) : Host.Outcome State Fault Refusal :=
  .next (s.bar0Write (0x100020 + 256 * c.val) 4 v.toNat)

/-- A pulse that is on its way reaches every channel that selects its line. -/
def execDrqPulse (line : Fin 64) (t : Nat) (s : State) : Host.Outcome State Fault Refusal :=
  let s1 := s.at t
  .next (if s1.dma.pulses.contains line then
    let s2 : State := { s1 with dma := { s1.dma with pulses := s1.dma.pulses.erase line } }
    ((List.finRange 48).foldl (State.chanPulse line) s2).issueReads 64 else s1)

/-- The oldest outstanding read of a channel completes, with `data` of host memory, or fails. -/
def execDmaReadCompletion (c : Fin 48) (data : List Byte) (ok : Bool) (t : Nat) (s : State) : Host.Outcome State Fault Refusal :=
  .next ((s.at t).readDone c data ok)

def execDmaTransferDone (c : Fin 48) (t : Nat) (s : State) : Host.Outcome State Fault Refusal :=
  let s1 := s.at t
  match s1.ending c with
  | some e => .next (s1.finish c e.1 e.2.1 e.2.2)
  | none => .next s1

/-- Room has appeared, or the queue is no longer enabled. -/
def execWaitCqRecord (c : Fin 32) (t : Nat) (s : State) : Host.Outcome State Fault Refusal :=
  let s1 := s.at t
  let x := s1.chan (hostChan c)
  match x.state, x.ended with
  | .waitCq, some e => .next (s1.complete (hostChan c) e)
  | _, _ => .next s1

end Sys2Proof.Machine
end

