-- ==== Sys2Proof/Machine/Firmware.lean ====
section
/-! DEFINITION. Boot, protection and firmware update (22), with the update side of a recovery upload (25 R598, R599). -/

namespace Sys2Proof.Machine

/-! ### Active-slot records (22 R548, R549) -/

/-- A record copy's 32 bytes. -/
def recordBytes (seq : BitVec 32) (slot : Nat) : List Byte :=
  let p := [0x50, 0x4C, 0x53, 0x52] ++ le 4 seq.toNat ++ le 1 slot ++ zeroBytes 19
  p ++ le 4 (crc32c 0 p).toNat

/-- A copy's sequence number and slot when `magic`, `crc` and `slot` check. -/
def recordOf (p : List Byte) : Option (BitVec 32 × Fin 2) :=
  let slot := fld p 8 1
  if p.take 4 = [0x50, 0x4C, 0x53, 0x52] ∧ fld p 28 4 = (crc32c 0 (p.take 28)).toNat ∧ slot < 2 then
    some (BitVec.ofNat 32 (fld p 4 4), if slot = 1 then 1 else 0)
  else none

/-- Copy A counts as newer than copy B. -/
def newerA (a b : BitVec 32) : Bool := decide (0 ≤ (a - b).toInt)

/-- What the boot ROM reads: the newer copy's index, sequence number and slot. -/
def Flash.newest (f : Flash) : Option (Fin 2 × BitVec 32 × Fin 2) :=
  match recordOf f.records[(0 : Fin 2)], recordOf f.records[(1 : Fin 2)] with
  | some a, some b => if newerA a.1 b.1 then some (0, a) else some (1, b)
  | some a, none => some (0, a)
  | none, some b => some (1, b)
  | none, none => none

/-- The slot the records name: slot 0 where none is valid. -/
def Flash.named (f : Flash) : Fin 2 := match f.newest with | some r => r.2.2 | none => 0

/-- A commit writes one copy: an invalid one, else the older (R549). -/
def Flash.writeRecord (f : Flash) (slot : Fin 2) : Flash :=
  let a := recordOf f.records[(0 : Fin 2)]
  let b := recordOf f.records[(1 : Fin 2)]
  let target : Fin 2 := match a, b with
    | none, _ => 0
    | some _, none => 1
    | some a, some b => if newerA a.1 b.1 then 1 else 0
  let seq := match f.newest with | some r => r.2.1 + 1 | none => 1
  { f with records := f.records.set target (recordBytes seq slot.val) }

/-- The package copy an update writes, chosen as a record copy is. -/
def Flash.packageTarget (f : Flash) : Fin 2 :=
  match f.packages[(0 : Fin 2)], f.packages[(1 : Fin 2)] with
  | none, _ => 0
  | some _, none => 1
  | some a, some b => if newerA a b then 1 else 0

/-! ### Boot stages (R545 to R555) -/

/-- The slot's image is accepted (R546). -/
def ImageCheck.valid (c : ImageCheck) (floor : Fin 64) : Bool :=
  c.signed && c.sections && decide (floor.val ≤ c.secVer.val ∧ 3 ≤ c.major.toNat)

def slotInfoOf (c : ImageCheck) (floor : Fin 64) : SlotInfo :=
  { valid := ImageCheck.valid c floor, major := c.major, minor := c.minor, patch := c.patch, secVer := c.secVer }

/-- The next stage is reached. -/
def State.stage (s : State) (n : Byte) : State := { s with boot := { s.boot with stage := n } }

/-- A DRAM hash key mask is never zero (20 R498). -/
def nonZero {w : Nat} (v : BitVec w) : BitVec w := if v = 0 then 1 else v

/-- Draw the address keys: ten free values. -/
def State.drawKeys (s : State) : State :=
  { s with
    free := s.free + 10
    miu := { s.miu with
      kc := Vector.ofFn (fun i : Fin 5 => nonZero ((Config.random (s.free + i.val)).setWidth 25))
      kb := Vector.ofFn (fun i : Fin 5 => nonZero ((Config.random (s.free + 5 + i.val)).setWidth 20)) } }

/-- A stuck bit as the table holds it: its word and its place in the 72 stored bits. -/
def stuckEntry (e : Nat × Nat) : Nat × Fin 72 := (e.1 / 8 * 8, ⟨e.2 % 72, Nat.mod_lt _ (by omega)⟩)

/-- The start-up self-test leaves memory zero, with its stuck bits and retired pages (20 R514); it fails on an unusable
granule outside the store zone, on more than 1,024 retired pages and on a table that overflows. -/
def State.selfTested (s : State) (stuck : List (Nat × Nat)) (unusable : List Nat) : State :=
  let pages := (unusable.filterMap pageOf).dedup
  if unusable.any (fun a => (pageOf a).isNone) || decide (1024 < pages.length ∨ 1024 < stuck.length) then s.bootStop 2
  else ({ s with
    mem := []
    miu := { s.miu with
      stuck := stuck.map stuckEntry, retired := pages } }).stage 7

/-- Slot selection (R547, R548). -/
def State.chooseSlot (s : State) (slot0 slot1 : ImageCheck) : State :=
  let fl := s.boot.flash
  let i0 := slotInfoOf slot0 fl.floor
  let i1 := slotInfoOf slot1 fl.floor
  let named := fl.named
  let other : Fin 2 := if named = 0 then 1 else 0
  let slots : Vector SlotInfo 2 := #v[i0, i1]
  let s1 := { s with boot := { s.boot with slots := slots, sectionTransients := slot0.retries + slot1.retries } }
  if slots[named].valid then ({ s1 with boot := { s1.boot with running := named, fallback := false } }).stage 8
  else if slots[other].valid then ({ s1 with boot := { s1.boot with running := other, fallback := true } }).stage 8
  else s1.bootStop 6

/-- Key slots a package fills: an entry that does not decrypt leaves its slot empty (R551). -/
def packageKeys (p : KeyPackage) : Vector (Option (BitVec 16 × List Byte)) 8 :=
  Vector.ofFn (fun i : Fin 8 => (p.entries.find? (fun e => e.slot = i && e.decrypts)).map (fun e => (e.headType, e.key)))

/-- Load the valid copy whose number is newer, bound to this module (R551). -/
def State.loadKeys (s : State) (a b : Option KeyPackage) : State :=
  let own (p : Option KeyPackage) : Option KeyPackage := match p with | some k => if k.ownSerial then some k else none | none => none
  let chosen := match own a, own b with
    | some x, some y => if newerA x.seq y.seq then some x else some y
    | some x, none => some x
    | none, y => y
  let keys := match chosen with | some p => packageKeys p | none => Vector.replicate 8 none
  ({ s with
    boot := { s.boot with
      keysLoaded := chosen.isSome
      flash := { s.boot.flash with packages := #v[a.map KeyPackage.seq, b.map KeyPackage.seq] } }
    hac := { s.hac with keys := keys } }).stage 9

/-- The protection set-up and the lock (R552, R555). -/
def State.lock (s : State) : State :=
  let w : Window := { base := 0x3400000000, size := 0x400000, read := true, write := true, valid := true }
  ({ s with hif := { s.hif with windows := (Vector.replicate 8 Window.none).set 0 w, locked := true } }).stage 10

def State.keysMask (s : State) : Nat := maskOf (s.hac.keys.toList.map (·.isSome))

/-- Every domain the firmware powers is up; PD6 only while the shadow is on (26 R604). -/
def State.allPowered (s : State) : Bool :=
  ([4, 5, 7, 8, 9, 10, 11] : List (Fin 12)).all s.poweredOn && (s.chk.shadowOff || s.poweredOn 6)

/-- Boot is complete: the domains that kept their power through a module reset leave reset too (21 R536), the mailboxes are served, BOOT_REPORT and the events of a power-down are posted. -/
def State.bootDone (s0 : State) : State :=
  let s := (([4, 5, 6, 7, 8, 9, 10, 11] : List (Fin 12)).filter s0.poweredOn).foldl State.release s0
  let s1 : State := { s with
    boot := { s.boot with fwReady := true, bootTime := s.stamp }
    mbx := { s.mbx with boxes := s.mbx.boxes.map (fun b => { b with ready := true }) } }
  let s2 := s1.post 0x0012 clsSystem [(1, s.boot.running.val), (1, b2n s.boot.fallback), (4, s.boot.sectionTransients),
    (1, s.keysMask), (4, s.miu.retired.length), (8, s.nowNs)]
  (s2.pwr.lateEvents.foldl State.postEv { s2 with pwr := { s2.pwr with lateEvents := [] } }).startChain (s2.clk.lastReset != 0)

/-- A stage completes (R545). What a stage finds that is not its own kind of result is no completion of it. -/
def State.bootStage (s : State) (r : BootResult) : State :=
  match s.boot.stage.toNat, r with
  | 1, .passed _ =>
    let s1 := if s.clk.sources[(2 : Fin 5)] = .failed then s
      else { s with clk := { s.clk with plls := s.clk.plls.map (fun p => if p = .off then .locking else p) } }
    s1.stage 2
  | 1, .failed => s.bootStop 1
  | 2, .passed _ => if s.clk.plls.all (· == .locked) then s.stage 3 else s
  | 2, .failed => s.bootStop 2
  | 3, .passed _ => if s.poweredOn 2 then (({ s with hif := { s.hif with inReset := false } }).release 2).stage 4 else s
  | 4, .passed _ => if s.poweredOn 3 then (s.release 3).stage 5 else s
  | 4, .failed => s.bootStop 2
  | 5, .passed _ => s.drawKeys.stage 6
  | 6, .passed _ => s.selfTested [] []
  | 6, .selfTest stuck unusable => s.selfTested stuck unusable
  | 6, .failed => s.bootStop 2
  | 7, .images slot0 slot1 => s.chooseSlot slot0 slot1
  | 7, .failed => s.bootStop 6
  | 8, .keys a b => s.loadKeys a b
  | 8, .failed => s.loadKeys none none
  | 9, .passed _ => s.lock
  | 10, .passed _ => if s.allPowered then s.bootDone else s
  | _, _ => s

/-- A boot is in progress: PD1 is out of reset and boot has neither stopped nor finished. -/
def State.booting (s : State) : Bool :=
  s.poweredOn 1 && !s.clk.inReset.getLsbD 1 && s.boot.stopCause == 0 && !s.boot.fwReady

def execBootStage (r : BootResult) (t : Nat) (s : State) : Host.Outcome State Fault Refusal :=
  let s1 := s.at t
  .next (if s1.booting then s1.bootStage r else s1)

/-! ### Update commands (R556 to R560) -/

def SlotInfo.release (i : SlotInfo) : Nat :=
  if i.valid then i.major.toNat + 256 * i.minor.toNat + 65536 * i.patch.toNat else 0

def State.fwStatusBytes (s : State) : List Byte :=
  let b := s.boot
  let i0 := b.slots[(0 : Fin 2)]
  let i1 := b.slots[(1 : Fin 2)]
  let upd := match b.update with | none => 0 | some u => if u.busy.isSome then 2 else 1
  let item := match b.update with | some u => if u.item = .keyPackage then 1 else 0 | none => 0
  le 1 b.running.val ++ le 1 (maskOf [b.fallback, i0.valid, i1.valid, b.keysLoaded]) ++ le 1 b.flash.floor.val ++
  le 1 s.keysMask ++ le 4 i0.release ++ le 4 i1.release ++ le 1 i0.secVer.val ++ le 1 i1.secVer.val ++ le 1 upd ++ le 1 item ++
  le 4 ((b.flash.newest.map (fun r => r.2.1.toNat)).getD 0) ++ le 4 ((b.update.map Update.written).getD 0) ++ zeroBytes 16 ++
  le 8 s.nowNs

def cmdFwStatus : Cmd :=
  { opcode := 0x0010, okLen := fun n => n == 0, run := fun _ s => { state := s, payload := s.fwStatusBytes } }

def execFwStatus (q : Req) (s : State) : Host.Outcome State Fault Refusal := .next (serve cmdFwStatus q s)

/-- A flash operation of the open update is executing. -/
def State.updBusy (s : State) : Bool := match s.boot.update with | some u => u.busy.isSome | none => false

def State.openUpdate (s : State) (u : Option Update) : State := { s with boot := { s.boot with update := u } }

def otherSlot (i : Fin 2) : Fin 2 := if i = 0 then 1 else 0

/-- The firmware slot an image goes to: the one not running; after a boot stop the one no record names, or slot 0
where no copy is valid (25 R599). -/
def State.targetSlot (s : State) : Fin 2 :=
  if s.boot.recovery then (match s.boot.flash.newest with | some r => otherSlot r.2.2 | none => 0)
  else otherSlot s.boot.running

/-- The erase of a target begins: what stood there is no longer valid, whatever becomes of the update (R556). -/
def State.unset (s : State) (item : UpdItem) : State :=
  let fl := s.boot.flash
  match item with
  | .firmware => { s with boot := { s.boot with slots := s.boot.slots.set s.targetSlot SlotInfo.none } }
  | .keyPackage => { s with boot := { s.boot with flash := { fl with packages := fl.packages.set fl.packageTarget none } } }
  | .recovery => s

def cmdFwUpdateBegin : Cmd :=
  { opcode := 0x0011, okLen := fun n => n == 16
    run := fun q s =>
      let p := q.payload
      let item := fld p 0 1
      let len := fld p 4 4
      let badLen := if item = 0 then decide (len < 4096 ∨ 67108864 < len) else decide (len < 64 ∨ 65536 < len)
      checks s [(decide (1 < item) || !zeros p 1 3 || !zeros p 8 8 || badLen, .badParam), (s.updBusy, .badState)] fun _ =>
        let i : UpdItem := if item = 0 then .firmware else .keyPackage
        { state := (s.unset i).openUpdate (some { item := i, length := len, pages := [], written := 0, busy := some (.erase, q.origin) })
          status := some .accepted } }

def execFwUpdateBegin (q : Req) (s : State) : Host.Outcome State Fault Refusal := .next (serve cmdFwUpdateBegin q s)

/-- The 256-byte pages of a piece. -/
def piecePages (off len : Nat) : List Nat := (List.range (cdiv (off % 256 + len) 256)).map (· + off / 256)

/-- The update commands of firmware and key packages work on an update they opened. -/
def State.fwUpdate (s : State) : Option Update :=
  match s.boot.update with | some u => if u.item = .recovery then none else some u | none => none

def cmdFwUpdateData : Cmd :=
  { opcode := 0x0012, okLen := fun n => n == 24
    run := fun q s =>
      let p := q.payload
      let off := fld p 0 4
      let len := fld p 4 4
      let src := fld p 8 8
      match s.fwUpdate with
      | none => .fail s .badState
      | some u =>
        checks s [(s.updBusy, .badState),
          (decide (off % 256 ≠ 0 ∨ len = 0 ∨ 1048576 < len ∨ u.length < off + len) || !zeros p 16 8 ||
            (piecePages off len).any u.pages.contains, .badParam),
          (!inZone src len, .windowFault)] fun _ =>
          { state := s.openUpdate (some { u with busy := some (.program off len src, q.origin) }), status := some .accepted } }

def execFwUpdateData (q : Req) (s : State) : Host.Outcome State Fault Refusal := .next (serve cmdFwUpdateData q s)

/-- The offset of the first page of an item that is not programmed. -/
def Update.gap (u : Update) : Option Nat :=
  ((List.range (cdiv u.length 256)).find? (fun i => !u.pages.contains i)).map (· * 256)

def cmdFwUpdateCommit : Cmd :=
  { opcode := 0x0013, okLen := fun n => n == 8
    run := fun q s =>
      let p := q.payload
      let act := bit (fld p 0 1) 0
      checks s [(decide (3 < fld p 0 1) || !zeros p 1 7, .badParam)] fun _ =>
        match s.fwUpdate with
        | none => .fail s .badState
        | some u =>
          if u.busy.isSome then .fail s .badState
          else match u.gap with
            | some g => .fail s .badState g
            | none =>
              if act && s.armed then .fail s .badState
              else { state := s.openUpdate (some { u with busy := some (.commit act (bit (fld p 0 1) 1), q.origin) })
                     status := some .accepted } }

def execFwUpdateCommit (q : Req) (s : State) : Host.Outcome State Fault Refusal := .next (serve cmdFwUpdateCommit q s)

/-! ### Flash operations complete (R556 to R559, 25 R598, R599) -/

/-- Where in flash an item is written (R544). -/
def State.itemBase (s : State) : UpdItem → Nat
  | .firmware => if s.targetSlot = 0 then 0x1000000 else 0x5000000
  | .keyPackage => if s.boot.flash.packageTarget = 0 then 0x10000 else 0x20000
  | .recovery => 0x9000000

def itemSize : UpdItem → Nat
  | .keyPackage => 0x10000
  | _ => 0x4000000

/-- An erased area lists no byte. -/
def State.erased (s : State) (item : UpdItem) : State :=
  let base := s.itemBase item
  let fl := s.boot.flash
  let fl1 := { fl with cells := fl.cells.filter (fun c => !decide (base ≤ c.1 ∧ c.1 < base + itemSize item)) }
  { s with boot := { s.boot with flash := fl1 } }

def State.programmed (s : State) (u : Update) (off : Nat) (data : List Byte) : State :=
  let fl := s.boot.flash
  { s with boot := { s.boot with
      flash := { fl with cells := Memory.write fl.cells (s.itemBase u.item + off) data }
      update := some { u with pages := u.pages ++ piecePages off data.length, written := u.written + data.length, busy := none } } }

/-- Why an image is refused (R559). -/
def refusedCause (item : UpdItem) (floor : Fin 64) (signed formatOk serialOk : Bool) (image : ImageCheck) : Nat :=
  if !signed then 1
  else if !formatOk then 2
  else if item = .keyPackage then (if serialOk then 0 else 5)
  else if image.secVer.val < floor.val then 3
  else if image.major.toNat < 3 then 4
  else 0

/-- The recovery image area copied into a slot (25 R599). -/
def copyImage (cells : List Host.Cell) (base : Nat) : List Host.Cell :=
  let area := cells.filter (fun c => decide (0x9000000 ≤ c.1 ∧ c.1 < 0x9000000 + 0x4000000))
  let rest := cells.filter (fun c => !decide (base ≤ c.1 ∧ c.1 < base + 0x4000000))
  area.foldl (fun m c => Memory.set m (base + (c.1 - 0x9000000)) c.2) rest

/-- The image is in place: a firmware image in its slot with its record, or a package copy. -/
def State.committed (s : State) (u : Update) (image : ImageCheck) (seq : BitVec 32) (raise : Bool) : State :=
  let fl := s.boot.flash
  let floor := if raise && decide (fl.floor.val < image.secVer.val) then image.secVer else fl.floor
  match u.item with
  | .keyPackage =>
    { s with boot := { s.boot with update := none, flash := { fl with packages := fl.packages.set fl.packageTarget (some seq) } } }
  | _ =>
    let slot := s.targetSlot
    let fl1 := if u.item = .recovery then { fl with cells := copyImage fl.cells (s.itemBase .firmware) } else fl
    { s with boot := { s.boot with
        update := none, slots := s.boot.slots.set slot (slotInfoOf image fl.floor)
        flash := { fl1.writeRecord slot with floor := floor } } }

/-- FW_DONE (R561), the result of the three update commands; a recovery upload has only its final reply (25 R598). -/
def State.fwDone (s : State) (u : Update) (o : Origin) (cmd : Nat) (st : Status) (detail off : Nat) : State :=
  if u.item = .recovery then s.resolve o st detail []
  else s.result (some o) 0x0011 clsSystem st detail [(1, cmd), (1, st.code.toNat), (4, detail), (4, off)]

def execFwOperationDone (r : FwResult) (t : Nat) (s : State) : Host.Outcome State Fault Refusal :=
  let s1 := s.at t
  match s1.boot.update with
  | none => .next s1
  | some u =>
    let idle := { u with busy := none }
    match u.busy, r with
    | some (.erase, o), .done => .next (((s1.erased u.item).openUpdate (some idle)).fwDone u o 0 .ok 0 0)
    | some (.program off len src, o), .done =>
      .next ((s1.programmed u off (s1.memRead src len)).fwDone u o 1 .ok 0 off)
    | some (.commit act raise, o), .verified signed formatOk serialOk image seq mismatches =>
      let cause := refusedCause u.item s1.boot.flash.floor signed formatOk serialOk image
      if cause ≠ 0 then .next ((s1.openUpdate (some idle)).fwDone u o 2 .badParam cause 0)
      else if 2 ≤ mismatches then .next ((s1.openUpdate (some idle)).fwDone u o 2 .lastingFault 0 0)
      else
        let s2 := (s1.committed u image seq raise).fwDone u o 2 .ok (b2n (raise && u.item != .keyPackage)) 0
        .next (if act then { s2 with boot := { s2.boot with activateAt := some (s2.aon + ms 1) } } else s2)
    | _, _ => .next s1

/-- A firmware activation reset, cause code 5, 1 ms after FW_DONE (R559). -/
def execFirmwareActivation (t : Nat) (s : State) : Host.Outcome State Fault Refusal :=
  let s1 := s.at t
  match s1.boot.activateAt with
  | some t0 => .next (if t0 ≤ s1.aon then s1.moduleReset 5 else s1)
  | none => .next s1

end Sys2Proof.Machine
end

