-- ==== Sys2Proof/Machine/Hmc.lean ====
section
/-! DEFINITION. The head management channel (13 R321 to R324), its commands (R325, R326), and the commands of head
accounting (14 R349 to R352). -/

namespace Sys2Proof.Machine

/-! ### Answers (R322, R323) -/

/-- HLK_HMC: cause 0 no answer, else the `fault` bits. -/
def State.hmcEvent (s : State) (c : Fin 4) (cause cls : Nat) : State := s.post 0x02B5 clsJob [(1, c.val), (1, cause), (1, cls)]

def hmcDetect (c : Fin 4) (o : FaultOutcome) : Detect :=
  { fclass := fcHmc, source := srcHlk, unit := BitVec.ofNat 8 c.val, outcome := o }

/-- The payload length an answer must have; a tunnel's is free. -/
def answerLength (mtype : Byte) (n : Nat) : Bool :=
  match mtype.toNat with
  | 0x01 => n == 24
  | 0x02 => n == 20
  | 0x03 => n == 12
  | 0x30 => true
  | 0x40 => n == 44
  | 0x41 => n == 68
  | 0x42 => n == 100
  | _ => false

/-- The payload of a message that is a valid answer to a request, and whether the head driver knows the request: one it does not know
is answered with `len` 0 and `mtype` 0xFF (R322). -/
def validAnswer (q : HmcReq) (mseq : Byte) (msg : List Byte) : Option (List Byte × Bool) :=
  let n := fld msg 1 1
  let framed := msg.length = n + 8 ∧ n ≤ 240 ∧ msg.getD 0 0 = 0xC5 ∧ msg.getD 3 0 = mseq ∧
    fld msg (n + 4) 4 = (crc32c 0 ((msg.drop 1).take (n + 3))).toNat
  if framed ∧ msg.getD 2 0 = q.mtype ||| 0x80 ∧ answerLength q.mtype n = true then some ((msg.drop 4).take n, true)
  else if framed ∧ msg.getD 2 0 = 0xFF ∧ n = 0 then some ([], false)
  else none

/-- One character, with whether a gap of more than 2 character times preceded it: what the receiver holds afterwards, and the message
it ends. After a gap or a `len` above 240 the receiver hunts for the next 0xC5 (R321). -/
def hmcReceive (rx : List Byte) (x : Byte × Bool) : List Byte × Option (List Byte) :=
  let m := (if x.2 then [] else rx) ++ [x.1]
  if m.getD 0 0 ≠ 0xC5 ∨ (m.length = 2 ∧ 240 < x.1.toNat) then ([], none)
  else if 2 ≤ m.length ∧ m.length = fld m 1 1 + 8 then ([], some m)
  else (m, none)

/-- IDENTIFY and every HEAD_INFO are answered: the lanes may become ACTIVE (R324). -/
def State.identifiedCheck (s : State) (c : Fin 4) : State :=
  if s.hlk.conns[c].ident.isSome && !s.hlk.conns[c].hmcQueue.any (fun q => q.mtype == 0x02) then
    (connLanes c).foldl State.activate (s.updConn c (fun n => { n with identified := true }))
  else s

def State.identifyAnswer (s : State) (c : Fin 4) (p : List Byte) : State :=
  let s1 := s.updConn c (fun n => { n with ident := some p })
  (((List.range 16).filter (fun i => bit (fld p 6 2) i)).foldl (fun s i =>
    s.hmcAsk c { mtype := 0x02, payload := [BitVec.ofNat 8 i], origin := none }) s1).identifiedCheck c

/-- HEAD_INFO: the head's declaration enters its row's fire interval limit (02 R46); counts lost are reported (14 R347). -/
def State.headInfoAnswer (s : State) (h : Fin 64) (p : List Byte) : State :=
  let old := s.hac.heads[h]
  let serial : BitVec 64 := BitVec.ofNat 64 (fld p 8 8)
  if bit (fld p 1 1) 0 then
    let s1 := match old.lostCounts with
      | some (l, d) => (s.countsLost h l d).updHead h (fun x => { x with lostCounts := none })
      | none => s
    let other := decide (old.serial ≠ serial)
    let s1 := if other && old.commit.isSome then s1.commitFailed h else s1
    let s2 := if other && !(old.pendLines == 0 && old.pendDrops == 0) then s1.countsLost h old.pendLines old.pendDrops else s1
    let s3 := s2.updHead h (fun x => { x with
      present := true, headType := BitVec.ofNat 16 (fld p 2 2), minFire := fld p 4 4, serial := serial, auth := .notRun
      pendLines := if other then 0 else x.pendLines, pendDrops := if other then 0 else x.pendDrops
      base := if other then { serial := serial, recSeq := 0, res := 0, lines := 0, drops := 0, umac := [] } else x.base })
    let i : Fin 4 := ⟨h.val % 4, by omega⟩
    let s4 : State := { s3 with lsd := { s3.lsd with rows := upd s3.lsd.rows (headRow h) (fun x => { x with headFire := x.headFire.set i (fld p 4 4) }) } }
    if s4.hac.policy ≠ 0 then s4.startAuth h else s4
  else s.updHead h (fun x => { x with present := false, auth := .absent })

def State.statusAnswer (s : State) (c : Fin 4) (p : List Byte) : State :=
  let faults := fld p 0 4 % 16
  let s1 := s.updConn c (fun n => { n with faultBits := BitVec.ofNat 4 faults, crcErrors := BitVec.ofNat 32 (fld p 4 4) })
  if faults = 0 then s1 else s1.hmcEvent c faults clsLasting

/-- What an answer means to the request it answers. -/
def State.hmcMeaning (s : State) (c : Fin 4) (q : HmcReq) (p : List Byte) : State :=
  let h := headAt c (fld q.payload 0 1)
  match q.mtype.toNat with
  | 0x01 => s.identifyAnswer c p
  | 0x02 => (s.headInfoAnswer h p).identifiedCheck c
  | 0x03 => s.statusAnswer c p
  | 0x30 =>
    match q.origin with
    | some o => s.resolve o .ok (if 232 < p.length then p.length else 0) (p.take 232)
    | none => s
  | 0x40 => s.authAnswer h p
  | 0x41 => s.usageAnswer h p
  | 0x42 => s.commitAnswer h p
  | _ => s

/-- The head driver does not know a request: a head that it cannot authenticate or read fails like one that answers wrongly, a head it
cannot describe is not present, and a connector without IDENTIFY stays unidentified (log 115). -/
def State.hmcUnknown (s : State) (c : Fin 4) (q : HmcReq) : State :=
  let h := headAt c (fld q.payload 0 1)
  match q.mtype.toNat with
  | 0x02 => (s.updHead h (fun x => { x with present := false, auth := .absent })).identifiedCheck c
  | 0x40 => s.authFault h (fun s => match s.headKey h with | some (slot, _) => s.challenge h slot | none => s)
  | 0x41 => s.authFault h (fun s => s.readUsage h)
  | 0x42 => if (s.hac.heads[h]).commit.isSome then s.commitFault h else s
  | _ => match q.origin with
    | some o => s.resolve o .ok 0 []
    | none => s

/-- A request ends: the next takes the next `mseq`. -/
def State.hmcEnd (s : State) (c : Fin 4) : State :=
  s.updConn c (fun n => { n with hmcQueue := n.hmcQueue.drop 1, hmcWait := none, mseq := n.mseq + 1 })

/-- A whole message arrives; one that is no valid answer to the request that waits is discarded. -/
def State.hmcMessage (s : State) (c : Fin 4) (msg : List Byte) : State :=
  let n := s.hlk.conns[c]
  match n.hmcWait, n.hmcQueue with
  | some (mseq, _, tries), q :: _ =>
    match validAnswer q mseq msg with
    | some (p, known) =>
      let s2 := s.hmcEnd c
      let s3 := if 1 < tries then (s2.hmcEvent c 0 clsTransient).detect (hmcDetect c .transient) else s2
      (if known then s3.hmcMeaning c q p else s3.hmcUnknown c q).hmcPump c
    | none => s
  | _, _ => s

/-- One character from the head driver. -/
def State.hmcChar (c : Fin 4) (s : State) (x : Byte × Bool) : State :=
  let r := hmcReceive s.hlk.conns[c].rx x
  let s1 := s.updConn c (fun n => { n with rx := r.1 })
  match r.2 with
  | some m => s1.hmcMessage c m
  | none => s1

/-- Characters arrive, each with whether a gap of more than 2 character times preceded it. -/
def execHmcAnswer (c : Fin 4) (chars : List (Byte × Bool)) (t : Nat) (s : State) : Host.Outcome State Fault Refusal :=
  .next (chars.foldl (State.hmcChar c) (s.at t))

/-! ### No answer (R322) -/

def State.hmcMiss (s : State) (c : Fin 4) (mseq : Byte) (tries : Nat) (q : HmcReq) : State :=
  if tries < 2 then
    (((s.hmcEvent c 0 clsPending).detect (hmcDetect c .pending)).hmcSend c (hmcMsg q.mtype mseq q.payload)).updConn c
      (fun n => { n with hmcWait := some (mseq, s.aon, 2) })
  else
    let gone := s.hlk.conns[c].hmcQueue
    let s1 := s.updConn c (fun n => { n with hmcLasting := true, hmcWait := none, hmcQueue := [], mseq := n.mseq + 1 })
    gone.foldl (fun s q => s.hmcDrop c q) ((s1.hmcEvent c 0 clsLasting).detect (hmcDetect c .reported))

def execHmcTimeout (c : Fin 4) (t : Nat) (s : State) : Host.Outcome State Fault Refusal :=
  let s1 := s.at t
  let n := s1.hlk.conns[c]
  match n.hmcWait, n.hmcQueue with
  | some (mseq, sent, tries), q :: _ => .next (if sent + ms 5 ≤ s1.aon then s1.hmcMiss c mseq tries q else s1)
  | _, _ => .next s1

/-! ### STATUS (R324) -/

def execHmcStatusPoll (c : Fin 4) (t : Nat) (s : State) : Host.Outcome State Fault Refusal :=
  let s1 := s.at t
  let n := s1.hlk.conns[c]
  .next (if (connLanes c).any (fun l => (s1.lane (asLane l)).state == .active) && decide (n.statusAt + ms 10 ≤ s1.aon) &&
      !n.hmcLasting && !n.hmcQueue.any (fun q => q.mtype == 0x03) then
    (s1.updConn c (fun n => { n with statusAt := s1.aon })).hmcAsk c { mtype := 0x03, payload := [], origin := none }
  else s1)

/-! ### HEAD_DRIVER_INFO and HEAD_TUNNEL (R325, R326) -/

def cmdHeadDriverInfo : Cmd :=
  { opcode := 0x0513, okLen := fun n => n == 8
    run := fun q s =>
      let c := fld q.payload 0 1
      let conn : Fin 4 := Fin.ofNat 4 c
      let n := s.hlk.conns[conn]
      checks s [(decide (3 < c) || !zeros q.payload 1 7, .badParam), (!n.identified, .badState)] fun _ =>
        let heads := (connHeads conn).map (fun h => s.hac.heads[h])
        { state := s, payload := padTo 24 ((n.ident.getD []).take 20) ++
            heads.flatMap (fun h => le 2 (if h.present then h.headType.toNat else 0)) ++
            heads.flatMap (fun h => le 4 (if h.present then h.minFire else 0)) ++ le 8 s.nowNs } }

def execHeadDriverInfo (q : Req) (s : State) : Host.Outcome State Fault Refusal := .next (serve cmdHeadDriverInfo q s)

def cmdHeadTunnel : Cmd :=
  { opcode := 0x0514, okLen := fun n => decide (8 ≤ n)
    run := fun q s =>
      let p := q.payload
      let c := fld p 0 1
      let conn : Fin 4 := Fin.ofNat 4 c
      let n := s.hlk.conns[conn]
      checks s [(p.length != 8 + fld p 4 2, .badLength),
                (decide (3 < c) || !zeros p 1 3 || decide (232 < fld p 4 2) || !zeros p 6 2, .badParam),
                (!n.identified, .badState), (n.hmcLasting, .lastingFault)] fun _ =>
        { state := s.hmcAsk conn { mtype := 0x30, payload := p.drop 8, origin := some q.origin }, status := none } }

def execHeadTunnel (q : Req) (s : State) : Host.Outcome State Fault Refusal := .next (serve cmdHeadTunnel q s)

/-! ### Head accounting commands (14 R349 to R352) -/

def cmdHacConfig : Cmd :=
  { opcode := 0x0501, okLen := fun n => n == 8
    run := fun q s =>
      let p := q.payload
      checks s [(decide (2 < fld p 0 1) || !zeros p 1 1 || decide (fld p 4 4 < 10 ∨ 3600 < fld p 4 4), .badParam),
                (s.armed, .badState)] fun _ =>
        { state := { s with hac := { s.hac with policy := fld p 0 1, countMask := BitVec.ofNat 16 (fld p 2 2), intervalS := fld p 4 4 } } } }

def execHacConfig (q : Req) (s : State) : Host.Outcome State Fault Refusal := .next (serve cmdHacConfig q s)

def cmdHeadAuthStatus : Cmd :=
  { opcode := 0x0502, okLen := fun n => n == 8
    run := fun q s =>
      let c := fld q.payload 0 1
      checks s [(decide (3 < c) || !zeros q.payload 1 7, .badParam)] fun _ =>
        { state := s, payload := (connHeads (Fin.ofNat 4 c)).flatMap (fun h =>
            let x := s.hac.heads[h]
            le 1 x.auth.code ++ le 1 (match x.keySlot with | some k => k.val | none => 0xFF) ++ le 2 x.transients.toNat ++
              le 4 x.base.recSeq.toNat) ++ le 8 s.nowNs } }

def execHeadAuthStatus (q : Req) (s : State) : Host.Outcome State Fault Refusal := .next (serve cmdHeadAuthStatus q s)

def cmdHeadUsage : Cmd :=
  { opcode := 0x0503, okLen := fun n => n == 8
    run := fun q s =>
      let h := fld q.payload 0 1
      let x := s.hac.heads[(Fin.ofNat 64 h : Fin 64)]
      checks s [(decide (63 < h) || !zeros q.payload 1 7, .badParam), (!x.present, .badState)] fun _ =>
        { state := s, payload := { x.base with res := 0 }.bytes ++ le 8 x.pendLines.toNat ++ le 8 x.pendDrops.toNat ++ le 4 x.failCommits.toNat ++
            zeroBytes 4 ++ le 8 s.nowNs } }

def execHeadUsage (q : Req) (s : State) : Host.Outcome State Fault Refusal := .next (serve cmdHeadUsage q s)

/-- With no PASSED head on the connectors there is nothing to commit and nothing follows: the result is known at once. -/
def cmdUsageCommitNow : Cmd :=
  { opcode := 0x0504, okLen := fun n => n == 8
    run := fun q s =>
      let m := fld q.payload 0 1
      checks s [(decide (15 < m) || !zeros q.payload 1 7, .badParam)] fun _ =>
        let heads := s.commitHeads (fun c => bit m c.val)
        if heads.isEmpty then { state := s }
        else
          let s1 := { s with hac := { s.hac with requests := s.hac.requests ++ [(q.origin, false)] } }
          let s2 := heads.foldl (fun (s : State) h => s.updHead h (fun x => { x with commitFor := x.commitFor ++ [q.origin] })) s1
          { state := heads.foldl (fun s h => s.startCommit h none) s2, status := some .accepted } }

def execUsageCommitNow (q : Req) (s : State) : Host.Outcome State Fault Refusal := .next (serve cmdUsageCommitNow q s)

def execUsageCommit (t : Nat) (s : State) : Host.Outcome State Fault Refusal :=
  let s1 := s.at t
  .next (if s1.hac.lastCommit + sec s1.hac.intervalS ≤ s1.aon then
    ({ s1 with hac := { s1.hac with lastCommit := s1.aon } }).commitAll else s1)

end Sys2Proof.Machine
end

