-- ==== Sys2Proof/Machine/HostIf.lean ====
section
/-! DEFINITION. The host interface (19, 17): register writes of BAR0 that act, the other BAR0 accesses, the BAR2 aperture, and the reset
of the host domain (17 R428, R470). -/

namespace Sys2Proof.Machine

/-! ### Mailbox registers (17 R415, R416) -/

def execReqTailWrite (m : Fin 4) (v : BitVec 32) (s : State) : Host.Outcome State Fault Refusal := .next (s.bar0Write (0x10000 + 64 * m.val) 4 v.toNat)

def execRplHeadWrite (m : Fin 4) (v : BitVec 32) (s : State) : Host.Outcome State Fault Refusal :=
  .next (s.bar0Write (0x1000C + 64 * m.val) 4 v.toNat)

def execMbStatusClear (m : Fin 4) (v : BitVec 32) (s : State) : Host.Outcome State Fault Refusal :=
  .next (s.bar0Write (0x10014 + 64 * m.val) 4 v.toNat)

/-! ### GLOBAL registers (R473, R474, R481, R485) -/

def execGlobalFaultClear (v : BitVec 32) (s : State) : Host.Outcome State Fault Refusal := .next (s.bar0Write 0x08 4 v.toNat)

def execBdAssignWrite (v : BitVec 32) (s : State) : Host.Outcome State Fault Refusal := .next (s.bar0Write 0x18 4 v.toNat)

def execDrqSoftWrite (v : BitVec 32) (s : State) : Host.Outcome State Fault Refusal := .next (s.bar0Write 0x1C 4 v.toNat)

/-! ### BAR2_BASE and the aperture (R477 to R479) -/

/-- The base as one write, or as the write of one half. -/
def execBar2BaseWrite (part : Half) (v : BitVec 64) (s : State) : Host.Outcome State Fault Refusal :=
  match part with
  | .whole => .next (s.bar0Write 0x400000 8 v.toNat)
  | .low => .next (s.bar0Write 0x400000 4 v.toNat)
  | .high => .next (s.bar0Write 0x400004 4 v.toNat)

def execBar2Read (off : BitVec 32) (len : Nat) (s : State) : Host.Outcome State Fault Refusal := .next (s.apertureRead off.toNat len)

def execBar2Write (off : BitVec 32) (data : List Byte) (s : State) : Host.Outcome State Fault Refusal := .next (s.apertureWrite off.toNat data)

/-! ### Any register (R6, R7, R472) -/

def execBar0RegisterWrite (off : BitVec 24) (size : Nat) (v : BitVec 64) (s : State) : Host.Outcome State Fault Refusal :=
  .next (s.bar0Write off.toNat size v.toNat)

def execBar0LowHalfRead (off : BitVec 24) (size : Nat) (s : State) : Host.Outcome State Fault Refusal := .next (s.bar0Read off.toNat size)

/-! ### Reset of the host domain (17 R428, R470) -/

/-- Transfers from host memory in progress fail; their results wait until event queues are enabled again. -/
def State.failHostReads (s : State) : State :=
  let tiles := s.hamper.stagings.filter (·.srcHost)
  let lists := s.hamper.listStagings.filter (·.srcHost)
  let s1 : State := { s with hamper := { s.hamper with stagings := s.hamper.stagings.filter (fun g => !g.srcHost),
                                                       listStagings := s.hamper.listStagings.filter (fun g => !g.srcHost) } }
  let s2 := tiles.foldl (fun s (g : Staging) => s.stagedEvent g .lastingFault 0 0 0 0) s1
  lists.foldl (fun s (g : ListStaging) => s.listEvent g .lastingFault 0 0) s2

def execPerst (t : Nat) (s : State) : Host.Outcome State Fault Refusal :=
  let s1 := (s.at t).hostDomainReset
  let s2 : State := { s1 with clk := { s1.clk with inReset := s1.clk.inReset ||| 4#12 } }
  .next s2.failHostReads

/-- The domain comes out of reset once boot has brought the host link up: `host_reset` is set (17 R428). -/
def execPerstRelease (t : Nat) (s : State) : Host.Outcome State Fault Refusal :=
  let s1 := s.at t
  let mark (m : Fin 8) : Box := if m.val < 4 then { s1.box m with hostReset := true } else s1.box m
  .next (if s1.hif.inReset && s1.poweredOn 2 && decide (4 ≤ s1.boot.stage.toNat) then
    { s1 with
      hif := { s1.hif with inReset := false }
      clk := { s1.clk with inReset := s1.clk.inReset &&& ~~~4#12 }
      mbx := { s1.mbx with boxes := Vector.ofFn mark } } else s1)

end Sys2Proof.Machine
end

