-- ==== Sys2Proof/Machine/Panels.lean ====
section
/-! DEFINITION. Panel records: their checks (03 R61), the Active Placement Table count (R79, R80) and the largest S + A
(R83) that PANEL_DEFINE reports (18 R449). -/

namespace Sys2Proof.Machine

def placedOf (tiles : List Tile) (lists : List PList) : List Placed := lists.flatMap (·.placed tiles)

def Placed.first (e : Placed) : Nat := e.place.y

/-- Repeats down the web. -/
def Placed.repeats (e : Placed) : Nat := if e.place.sy = 0 then 1 else max 1 e.place.ny

/-- How many repeats start `d` lines below the first one. -/
def Placed.startingAt (e : Placed) (d : Nat) : Nat :=
  if e.repeats ≤ 1 then b2n (d == 0) else b2n (d % e.place.sy == 0 && decide (d / e.place.sy < e.repeats))

/-- Entries of the placement on a panel line. -/
def Placed.activeAt (e : Placed) (line : Nat) : Nat :=
  if line < e.first then 0
  else
    let d := line - e.first
    let top := if e.repeats ≤ 1 then 0 else min (e.repeats - 1) (d / e.place.sy)
    let low := if d < e.h then 0 else if e.repeats ≤ 1 then 1 else (d - e.h) / e.place.sy + 1
    top + 1 - low

/-- Entries of the placement activated or retired on a panel line. -/
def Placed.changesAt (e : Placed) (line : Nat) : Nat :=
  (if line < e.first then 0 else e.startingAt (line - e.first)) +
  (if line < e.first + e.h then 0 else e.startingAt (line - e.first - e.h))

/-- The panel lines at which a placement's entries change. -/
def Placed.lines (e : Placed) : List Nat :=
  (List.range e.repeats).flatMap (fun j => [e.first + j * e.place.sy, e.first + j * e.place.sy + e.h])

/-- The lines at which a plane's entries can change, rising, line 0 among them. -/
def changeLines (es : List Placed) (length : Nat) : List Nat :=
  sortNats (0 :: (es.flatMap Placed.lines).filter (fun l => l < length))

def entriesAt (es : List Placed) (line : Nat) : Nat := es.foldl (fun n e => n + e.activeAt line) 0

/-- The entries of a layer that stand on a panel line, as the walker's steps leave them (R79). -/
def activeEntries (tiles : List Tile) (l : PList) (layer : Fin 16) (length line : Nat) : List WEntry :=
  ((l.activate tiles layer length line (l.acts + 1) { cursor := none, table := [], changes := 0 }).table)

/-- S of a layer in positions `lo` to `lo` + 8,191 of a panel line (R81, R83). DEDUCED (log 45): no binding is known when a
panel is defined, so a variable box counts as a tile as wide and as high as the box. -/
def spanCount (tiles : List Tile) (l : PList) (table : List WEntry) (lo line : Nat) : Nat :=
  ((List.range 8192).foldl (fun (acc : Nat × Option (Nat × Nat × Nat × Nat)) i =>
    let key := (layerWinner tiles l table (lo + i) line).map (fun w => (w.index, w.j, w.i, w.u / 4096))
    (if key.isSome ∧ key ≠ acc.2 then acc.1 + 1 else acc.1, key)) (0, none)).1

/-- S + A of a plane on a panel line: the larger of its two half-rows. DEDUCED (log 45): the entries of the instance before,
which the walker retires on panel line 0 (R71), are not the panel's and are not counted. -/
def spansAndChanges (tiles : List Tile) (layers : List (Fin 16 × PList)) (es : List Placed) (length line : Nat) : Nat :=
  let tables := layers.map (fun e => (e, activeEntries tiles e.2 e.1 length line))
  let spans (lo : Nat) := tables.foldl (fun n e => n + spanCount tiles e.1.2 e.2 lo line) 0
  max (spans 0) (spans 8192) + es.foldl (fun n e => n + e.changesAt line) 0

/-! ### The record (R60, R61) -/

/-- The handles of a record by plane × 16 + layer, ascending. -/
def recordLists (p : List Byte) : List (Nat × Nat) :=
  (List.range 256).filterMap (fun i => let h := fld p (16 + 4 * i) 4; if h = 0 then none else some (i, h))

def placeDetail (i index : Nat) : Nat := i / 16 * 2 ^ 28 + i % 16 * 2 ^ 24 + index

/-- R61's first three conditions of one list: the detail of what fails. -/
def State.listFault (s : State) (length : Nat) (e : Nat × Nat) : Option Nat :=
  match s.hamper.lists.find? (fun l => l.handle = e.2) with
  | none => some (placeDetail e.1 0)
  | some l =>
    if l.codes != (s.layout.planes.toList.getD (e.1 / 16) { codes := false, screen := none }).codes then some (placeDetail e.1 0)
    else (l.places.zipIdx.find? (fun p => length ≤ p.1.y)).map (fun p => placeDetail e.1 p.2)

/-- The planes of a record. -/
def State.recordPlane (s : State) (p : Panel) (plane : Fin 16) : List (Fin 16 × PList) × List Placed :=
  let layers := planeLayers s.hamper p plane
  (layers, (placedOf s.hamper.tiles (layers.map (·.2))).filter Placed.visible)

/-- The first plane and line whose entries pass the limit of R80. -/
def State.recordOverflow (s : State) (p : Panel) : Option (Fin 16 × Nat) :=
  (List.finRange 16).findSome? (fun plane =>
    let es := (s.recordPlane p plane).2
    ((changeLines es p.length).find? (fun l => 1024 < entriesAt es l)).map (fun l => (plane, l)))

/-- What a check of a panel record found. -/
inductive PanelCheck where
  | badRecord
  | badList (detail : Nat)
  | overflow (plane : Fin 16) (line : Nat)
  | good (p : Panel)

def State.checkPanel (s : State) (slot : Fin 4096) (p : List Byte) : PanelCheck :=
  let length := fld p 0 4
  let panel : Panel := { slot := slot, length := length, rpt := fld p 4 4, lists := recordLists p }
  if length = 0 then .badRecord
  else match panel.lists.findSome? (s.listFault length) with
    | some d => .badList d
    | none => match s.recordOverflow panel with
      | some (plane, line) => .overflow plane line
      | none => .good panel

/-- `max_sa`, its first line and plane, and `max_entries` (18 R449). -/
def State.panelFigures (s : State) (p : Panel) : Nat × Nat × Nat × Nat :=
  (List.finRange 16).foldl (fun (acc : Nat × Nat × Nat × Nat) plane =>
    let (layers, es) := s.recordPlane p plane
    if layers.isEmpty then acc
    else (changeLines es p.length).foldl (fun (acc : Nat × Nat × Nat × Nat) line =>
      let sa := spansAndChanges s.hamper.tiles layers es p.length line
      let n := max acc.2.2.2 (entriesAt es line)
      if acc.1 < sa ∨ (acc.1 = sa ∧ line < acc.2.1) then (sa, line, plane.val, n) else (acc.1, acc.2.1, acc.2.2.1, n)) acc) (0, 0, 0, 0)

end Sys2Proof.Machine
end

