-- ==== Sys2Proof/Machine/Job.lean ====
section
/-! DEFINITION. The job commands and the job's own events (18): definition (R446 to R451), arming (R453 to R455, R634),
start (R456, R457), pause, resume and stop (R458 to R465), status (R466). -/

namespace Sys2Proof.Machine

def JobState.defines (j : JobState) : Bool := j == .idle || j == .defined || j == .stopped

/-! ### Planes and rows (R446, R447) -/

/-- Some defined panel names a list for the plane. -/
def State.planeNamed (s : State) (plane : Nat) : Bool := s.layout.panels.any (fun p => p.lists.any (fun e => e.1 / 16 = plane))

def cmdPlaneDefine : Cmd :=
  { opcode := 0x0201, okLen := fun n => n == 8
    run := fun q s =>
      let p := q.payload
      let plane := fld p 0 1
      let codes := fld p 1 1 == 1
      checks s [(decide (15 < plane) || decide (1 < fld p 1 1) || !zeros p 2 6, .badParam), (!s.job.state.defines, .badState),
                ((s.layout.planes[Fin.ofNat 16 plane]).codes != codes && s.planeNamed plane, .badState)] fun _ =>
        { state := { s with layout := { s.layout with
            planes := upd s.layout.planes (Fin.ofNat 16 plane) (fun x => { x with codes := codes }) } } } }

def execPlaneDefine (q : Req) (s : State) : Host.Outcome State Fault Refusal := .next (serve cmdPlaneDefine q s)

def cmdRowDefine : Cmd :=
  { opcode := 0x0202, okLen := fun n => n == 8
    run := fun q s =>
      let p := q.payload
      let plane := fld p 1 1
      let k := fld p 2 1
      let phase := fld p 3 1
      checks s [(decide (15 < fld p 0 1) || (decide (15 < plane) && plane != 0xFF) || !(k == 1 || k == 2 || k == 4) ||
                  decide (k ≤ phase) || (plane == 0xFF && k != 1) || !zeros p 4 4, .badParam),
                (!s.job.state.defines, .badState)] fun _ =>
        { state := { s with layout := { s.layout with
            rows := upd s.layout.rows (Fin.ofNat 16 (fld p 0 1)) (fun d =>
              { d with plane := if plane = 0xFF then none else some (Fin.ofNat 16 plane), k := k, phase := phase }) } } } }

def execRowDefine (q : Req) (s : State) : Host.Outcome State Fault Refusal := .next (serve cmdRowDefine q s)

/-! ### Panels and the sequence (R449 to R451) -/

def State.setPanels (s : State) (panels : List Panel) : State := { s with layout := { s.layout with panels := panels } }

/-- The reply to a record that passed. -/
def panelReply (f : Nat × Nat × Nat × Nat) : List Byte :=
  le 4 f.1 ++ le 4 f.2.1 ++ le 1 f.2.2.1 ++ [0] ++ le 2 f.2.2.2 ++ zeroBytes 4

def definePanel (slot : Fin 4096) (src : Nat) (s : State) : Ans :=
  match s.checkPanel slot (s.memRead src 1040) with
  | .badRecord => .fail s .badParam
  | .badList d => .fail s .badParam d
  | .overflow plane line =>
    { state := s, status := some .noResource, detail := plane.val * 2 ^ 28 + line % 2 ^ 28
      payload := le 1 plane.val ++ zeroBytes 3 ++ le 4 line }
  | .good p =>
    { state := s.setPanels (s.layout.panels.filter (fun x => x.slot ≠ slot) ++ [p]), payload := panelReply (s.panelFigures p) }

def cmdPanelDefine : Cmd :=
  { opcode := 0x0203, okLen := fun n => n == 16
    run := fun q s =>
      let p := q.payload
      let slot : Fin 4096 := Fin.ofNat 4096 (fld p 0 2)
      let undefine := bit (fld p 2 1) 0
      let src := fld p 8 8
      checks s [(decide (4095 < fld p 0 2) || decide (1 < fld p 2 1) || !zeros p 3 5, .badParam),
                (!undefine && !inZone src 1040, .windowFault), (!s.job.state.defines || s.job.seq.contains slot, .badState)] fun _ =>
        if undefine then { state := s.setPanels (s.layout.panels.filter (fun x => x.slot ≠ slot)), payload := zeroBytes 16 }
        else definePanel slot src s }

def execPanelDefine (q : Req) (s : State) : Host.Outcome State Fault Refusal := .next (serve cmdPanelDefine q s)

/-- A binding is live or staged in a sealed or prepared group. -/
def State.bound (s : State) : Bool := !s.txn.liveBindings.isEmpty || !s.txn.stagedBindings.isEmpty

/-- Instances and plane lines of the defined sequence; all ones when it repeats until stopped. -/
def totalsBytes (t : Option (Nat × Nat)) : List Byte :=
  match t with
  | some (i, l) => le 8 i ++ le 8 l
  | none => le 8 (2 ^ 64 - 1) ++ le 8 (2 ^ 64 - 1)

/-- The first position of a sequence of slot numbers that fails: its slot is not defined. -/
def State.undefinedAt (s : State) (seq : List Nat) : Option Nat :=
  (seq.zipIdx.find? (fun e => !s.layout.panels.any (fun p => p.slot.val = e.1))).map (·.2)

/-- A panel before the last that repeats until stopped. -/
def endlessAt (panels : List Panel) : Option Nat :=
  (panels.zipIdx.find? (fun e => e.1.rpt = 0 && decide (e.2 + 1 < panels.length))).map (·.2)

def cmdJobDefine : Cmd :=
  { opcode := 0x0204, okLen := fun n => n == 16
    run := fun q s =>
      let p := q.payload
      let count := fld p 0 2
      let src := fld p 8 8
      let nums := (List.range count).map (fun i => fld (s.memRead (src + 2 * i) 2) 0 2)
      let seq : List (Fin 4096) := nums.map (Fin.ofNat 4096)
      let panels := seqPanels s.layout seq
      checks s [(count == 0 || decide (4096 < count) || decide (2 < fld p 2 1) || !zeros p 3 5, .badParam),
                (!inZone src (2 * count), .windowFault), (!s.job.state.defines, .badState), (s.bound, .badState)] fun _ =>
        match s.undefinedAt nums, endlessAt panels with
        | some i, _ => .fail s .badParam i
        | none, some i => .fail s .badParam i
        | none, none =>
          if (match seqTotals panels with | some t => decide (2 ^ 48 ≤ t.2) | none => false) then .fail s .badParam
          else
            { state := { s with job := { s.job with state := .defined, seq := seq, peMode := fld p 2 1 } }
              payload := totalsBytes (seqTotals panels) } }

def execJobDefine (q : Req) (s : State) : Host.Outcome State Fault Refusal := .next (serve cmdJobDefine q s)

def cmdJobClear : Cmd :=
  { opcode := 0x020A, okLen := fun n => n == 0
    run := fun _ s =>
      checks s [(!s.job.state.defines, .badState)] fun _ =>
        { state := if s.job.state == .idle then s
            else
              let s1 := { (s.setPanels []) with job := { s.job with seq := [], state := .idle } }
              s1.retireBindings } }

def execJobClear (q : Req) (s : State) : Host.Outcome State Fault Refusal := .next (serve cmdJobClear q s)

/-! ### Arming: the command (R453) -/

/-- The rows of a plane break R129. -/
def State.interleaveBad (s : State) (plane : Fin 16) : Bool :=
  let rows := (s.layout.rows.toList).filter (fun d => d.plane = some plane)
  match rows with
  | [] => false
  | d :: _ => rows.any (fun e => e.k ≠ d.k) || (List.range d.k).any (fun j => !rows.any (fun e => e.phase = j))

/-- A plane with a row breaks R105, or screens with an empty matrix slot (05 R126). -/
def State.screenBad (s : State) (plane : Fin 16) : Bool :=
  let used := s.layout.rows.toList.any (fun d => d.plane = some plane)
  let pl := s.layout.planes[plane]
  let sc := pl.settings plane.val
  used && (pl.codes != (sc.mode == .passThrough) || (sc.mode == .matrix && (s.layout.matrices[sc.matrix]).isNone))

/-- An armed peer of the last lap-1 beacon with another geometry (15 R368). -/
def State.geometryPeer (s : State) : Option (Fin 16) :=
  match s.chain.last with
  | none => none
  | some b => (b.slots.find? (fun x => x.filled && x.armed && some x.address ≠ s.chain.address && x.geom ≠ s.lsd.cfg.geom)).map (·.address)

/-- A lasting fault that rejects arming until a reset: a PLL (21 R529), DRAM training (20 R506), a domain off (26 R607). -/
def State.armBlockedByFault (s : State) : Bool := s.clk.armBlocked || s.miu.trainLasting || (s.pwr.off &&& 0xFF8) != 0

/-- Arming is accepted: waste of the old run is closed, a lasting encoder fault and a lane test end, step 1 begins. -/
def State.beginArm (s : State) (o : Origin) : State :=
  let s1 := (s.webSettle.closeAll.endTest 2).armLsd
  let s2 := { s1 with
    fsv := { s1.fsv with stopWanted := none }
    job := { s1.job with state := .arming, armStep := 1, armReq := some o, stepSince := s1.aon, stopReqs := [] } }
  s2.wakeChain

def cmdJobArm : Cmd :=
  { opcode := 0x0205, okLen := fun n => n == 0
    run := fun q s =>
      checks s [(!(s.job.state == .defined || s.job.state == .stopped), .badState), (!s.lsd.configured, .badState),
                (s.chain.address.isNone, .badState), (!(List.finRange 16).any s.assigned, .badParam)] fun _ =>
        match (List.finRange 16).find? s.interleaveBad, (List.finRange 16).find? s.screenBad, s.geometryPeer with
        | some p, _, _ => .fail s .badParam p.val
        | none, some p, _ => .fail s .badParam p.val
        | none, none, some a => .fail s .badParam a.val
        | none, none, none =>
          if s.armBlockedByFault then .fail s .lastingFault
          else { state := s.beginArm q.origin, status := some .accepted } }

def execJobArm (q : Req) (s : State) : Host.Outcome State Fault Refusal := .next (serve cmdJobArm q s)

/-! ### Arming: its steps (R454, R455) -/

def State.armAt (s : State) (step : Nat) : State := { s with job := { s.job with armStep := step, stepSince := s.aon } }

/-- Heads of rows assigned to a plane, by connector. -/
def State.jobHeads (s : State) : List (Fin 64) := (List.finRange 64).filter (fun h => s.assigned (headRow h))

/-- Step 1: every hop UP and ring mode within 2 ms. -/
def State.armChain (s : State) : State :=
  if s.ringUp then (s.armConns.foldl State.wakeConn s).armAt 2
  else if s.job.stepSince + ms 2 ≤ s.aon then s.armFail .badState 0
  else s

/-- Step 2: every lane of the connectors is up (12 R291). -/
def State.armLanes (s : State) : State :=
  let bad := s.armConns.foldl (fun n c => n + s.failedLanes c) 0
  if bad ≠ 0 then s.armFail .lastingFault bad
  else if s.armConns.all s.connUp then s.armAt 3
  else s

/-- `buffer_lines` of an IDENTIFY answer (13 R323). -/
def identLines (c : Connector) : Nat := match c.ident with | some p => fld p 5 1 | none => 0

/-- Step 3's verdict on one connector (13 R317, R324): the status it fails with, or none while all is well. -/
def State.connFault (s : State) (c : Fin 4) : Option Status :=
  let n := s.hlk.conns[c]
  if n.hmcLasting then some .lastingFault
  else if !n.identified then none
  else if identLines n < 24 then some .badParam
  else if (connHeads c).any (fun h => s.assigned (headRow h) && !(s.hac.heads[h]).present) then some .lastingFault
  else none

/-- Step 3, and the challenges of step 4 where a policy asks for them (14 R341). -/
def State.armIdentify (s : State) : State :=
  match s.armConns.findSome? (fun c => (s.connFault c).map (fun st => (c, st))) with
  | some (c, st) => s.armFail st (c.val * 2 ^ 28)
  | none =>
    if s.armConns.all (fun c => (s.hlk.conns[c]).identified) then
      let heads := (s.armConns.flatMap connHeads).filter (fun h => (s.hac.heads[h]).present && (s.hac.heads[h]).auth == .notRun)
      (if s.hac.policy = 0 then s else heads.foldl State.startAuth s).armAt 4
    else s

/-- Step 4: once no head's authentication runs on, the policy decides (14 R342): 0 OFF, 1 REPORT, 2 REQUIRE. -/
def State.armHeads (s : State) : State :=
  let present := (s.armConns.flatMap connHeads).filter (fun h => (s.hac.heads[h]).present)
  let go (s : State) : State := (s.armConns.foldl (fun s c => s.queueFlush c 0) s).armAt 5
  if s.hac.policy = 0 then go s
  else if present.any (fun h => (s.hac.heads[h]).auth == .notRun) then s
  else
    let bad := present.filter (fun h => (s.hac.heads[h]).auth != .passed)
    if s.hac.policy = 1 then go (bad.foldl (fun s h => s.authEvent h clsLasting) s)
    else match s.jobHeads.find? (fun h => (s.hac.heads[h]).auth != .passed) with
      | some h => s.armFail .badState ((headConn h).val * 2 ^ 28 + h.val % 16 * 2 ^ 24)
      | none => go s

/-- The checkpoint at line 0 (07 R161): the initial state, the same in both pipelines. -/
def State.initCkpt (s : State) (r : Fin 16) : Ckpt :=
  { s.ckptRecord r PipeRun.init none with valid := true }

/-- A capture that waits and can write nothing in this job ends (11 R272). -/
def State.captureCheck (s : State) : State :=
  match s.hamper.capture with
  | none => s
  | some c =>
    if !s.assigned c.row || !s.hasLine c.row c.first then s.endCapture 3
    else { s with hamper := { s.hamper with capture := some { c with active := true } } }

/-- Step 6 (R455). -/
def State.prepareRun (s : State) : State :=
  let rows := Vector.ofFn (fun r : Fin 16 =>
    let x := { s.rows[r].emptied with squashes := 0, lateLines := 0, faultAt := none }
    if s.assigned r then { x with ckpts := [s.initCkpt r], ready := s.rowLines r == some 0 } else x)
  let defs := s.layout.rows.map (fun (d : RowDef) => { d with armCurve := match d.plane with | some p => p.val | none => d.armCurve })
  let jobRows := Vector.ofFn (fun r : Fin 16 => { JobRow.init with done := s.assigned r && s.rowLines r == some 0 })
  let s1 : State := { s with
    layout := { s.layout with rows := defs }
    rows := rows
    chk := { s.chk with cvus := Chk.init.cvus, ctxs := s.chk.ctxs.map UnitCtx.idle }
    codec := { s.codec with decP := Decoders.init, decS := Decoders.init }
    fsv := { s.fsv with pourFails := Vector.replicate 32 [] }
    job := { s.job with rows := jobRows, pauseAt := none, resumeAt := none, stopPending := false, stopAt := none } }
  (s1.partnerCheck s1.txn.newest).captureCheck

/-- Step 5: every lane of the connectors has answered FLUSHED, and the memory runs at FSP0 (20 R503); then step 6. -/
def State.armFlush (s : State) : State :=
  if s.armConns.all (fun c => (connLanes c).all (fun l => (s.hlk.tx[l]).flushed)) && s.miu.fsp == 0 then s.prepareRun.armAt 7
  else s

/-- Step 7: every assigned row is ready, and every lane of the connectors ACTIVE (12 R291). -/
def State.armReady (s : State) : State :=
  if (rowsWhere s.assigned).all (fun r => s.rows[r].ready) &&
      s.armConns.all (fun c => (connLanes c).all (fun l => (s.lane (asLane l)).state == .active)) then
    let arm := s.job.armReq
    ({ s with job := { s.job with state := .armed, armStep := 0, armReq := none } }).jobResult arm .armed 0 .ok 0
  else s

def execArmingStep (t : Nat) (s : State) : Host.Outcome State Fault Refusal :=
  let s1 := s.at t
  .next (if s1.job.state == .arming then
      match s1.job.armStep with
      | 1 => s1.armChain
      | 2 => s1.armLanes
      | 3 => s1.armIdentify
      | 4 => s1.armHeads
      | 5 => s1.armFlush
      | _ => s1.armReady
    else s1)

/-! ### Readiness (07 R160) -/

/-- A line has been acknowledged on both lanes of its row, with ACK (13 R319); a withheld line never is. -/
def SpcRow.handled (x : SpcRow) (n : Nat) : Bool := match x.line? n with | some b => b.lo.acked && b.hi.acked | none => false

def State.rowIsReady (s : State) (r : Fin 16) : Bool :=
  let x := s.rows[r]
  let last (n : Nat) : Nat := match s.rowLines r with | some m => min n m | none => n
  decide (last 256 ≤ x.agreed) && (List.range (last 32)).all (fun n => (x.line? n).isSome) &&
    (List.range (last 16)).all x.handled

def execRowReady (r : Fin 16) (t : Nat) (s : State) : Host.Outcome State Fault Refusal :=
  let s1 := s.at t
  .next (if s1.job.state == .arming && s1.job.armStep == 7 && s1.assigned r && s1.rowIsReady r then
    s1.updRow r (fun x => { x with ready := true }) else s1)

/-! ### Start and the origin (R456, R457) -/

def cmdJobStart : Cmd :=
  { opcode := 0x0206, okLen := fun n => n == 0
    run := fun _ s =>
      checks s [(s.job.state != .armed, .badState)] fun _ =>
        let enabled := s.job.peMode == 0 || s.job.printEnable
        let s0 := s.webSettle
        let s1 := (({ s0 with lsd := { s0.lsd with latchEnabled := enabled } }).setJob .started).jobEvent none .ok
        { state := if enabled && s1.lsd.cfg.originMode == 0 then s1.latch s1.posNow s1.nowNs else s1 } }

def execJobStart (q : Req) (s : State) : Host.Outcome State Fault Refusal := .next (serve cmdJobStart q s)

/-! ### Boundaries (R458, R459) -/

/-- The smallest start of a panel instance at or beyond plane line `m`. -/
def instanceFrom : List Panel → Nat → Nat → Option Nat
  | [], _, _ => none
  | p :: r, start, m =>
    let k := cdiv (m - start) p.length
    if p.rpt = 0 ∨ k < p.rpt then some (start + k * p.length) else instanceFrom r (start + p.length * p.rpt) m

/-- The smallest plane line whose effective line lies 8 lines beyond F in every live row. -/
def State.leadLine (s : State) : Nat :=
  (rowsWhere s.live).foldl (fun m r =>
    let d := s.layout.rows[r]
    max m (d.k * (s.lsd.rows[r].next + 6) + d.phase + 1)) 0

/-- The plane line of a boundary, or the status and detail that refuse it. -/
def State.boundaryLine (s : State) (nextInstance : Bool) (line : Nat) : Except (Status × Nat) Nat :=
  if nextInstance then
    match instanceFrom s.panels 0 s.leadLine with
    | some l => .ok l
    | none => .error (.badState, 0)
  else match s.shortRow s.live line 8 with
    | some (r, short) => .error (.leadTooShort, r.val * 2 ^ 28 + short % 2 ^ 28)
    | none => .ok line

/-- Some assigned row has started its line of a boundary. -/
def State.reached (s : State) (l : Nat) : Bool := (rowsWhere s.assigned).any (fun r => decide (s.effLine r l < s.lsd.rows[r].next))

/-- Every live row has. -/
def State.allReached (s : State) (l : Nat) : Bool := (rowsWhere s.live).all (fun r => decide (s.effLine r l < s.lsd.rows[r].next))

/-- Place a pause. -/
def State.placePause (s : State) (nextInstance : Bool) (line : Nat) : Except (Status × Nat) (State × Nat) :=
  if s.job.pauseAt.isSome then .error (.badState, 0)
  else match s.boundaryLine nextInstance line with
    | .error e => .error e
    | .ok l => .ok ({ s with job := { s.job with
        pauseAt := some l, resumeAt := none
        rows := s.job.rows.map (fun j => { j with pausePosted := false, resumePosted := false }) } }, l)

/-- Place a resume, or one that replaces a pending one no row has reached. -/
def State.placeResume (s : State) (nextInstance : Bool) (line : Nat) : Except (Status × Nat) (State × Nat) :=
  match s.job.pauseAt with
  | none => .error (.badState, 0)
  | some p =>
    if (match s.job.resumeAt with | some q => s.reached q | none => false) then .error (.badState, 0)
    else match s.boundaryLine nextInstance line with
      | .error e => .error (if !nextInstance && decide (line ≤ p) then (.badParam, 0) else e)
      | .ok l => if l ≤ p then .error (.badParam, 0) else .ok ({ s with job := { s.job with resumeAt := some l } }, l)

/-- Cancel a pause that no row has reached; a resume placed for it goes too. -/
def State.cancelPause (s : State) : Except (Status × Nat) (State × Nat) :=
  match s.job.pauseAt with
  | some p => if s.reached p then .error (.badState, 0)
    else .ok ({ s with job := { s.job with pauseAt := none, resumeAt := none } }, p)
  | none => .error (.badState, 0)

/-- The answer to a boundary command: L in an 8-byte payload. -/
def boundaryAns (s : State) (r : Except (Status × Nat) (State × Nat)) : Ans :=
  match r with
  | .ok (s1, l) => { state := s1, payload := le 8 l }
  | .error (st, d) => .fail s st d

def cmdJobPause : Cmd :=
  { opcode := 0x0207, okLen := fun n => n == 16
    run := fun q s =>
      let p := q.payload
      let f := fld p 0 1
      checks s [(decide (1 < f) || !zeros p 1 7 || (f == 0 && decide (2 ^ 48 ≤ fld p 8 8)), .badParam),
                (s.job.state != .running || s.job.peMode == 2, .badState)] fun _ =>
        boundaryAns s (s.placePause (bit f 0) (fld p 8 8)) }

def execJobPause (q : Req) (s : State) : Host.Outcome State Fault Refusal := .next (serve cmdJobPause q s)

def cmdJobResume : Cmd :=
  { opcode := 0x0208, okLen := fun n => n == 16
    run := fun q s =>
      let p := q.payload
      let f := fld p 0 1
      checks s [(decide (3 < f) || !zeros p 1 7 || (f == 0 && decide (2 ^ 48 ≤ fld p 8 8)), .badParam),
                (s.job.state != .running || s.job.peMode == 2, .badState)] fun _ =>
        boundaryAns s (if bit f 1 then s.cancelPause else s.placeResume (bit f 0) (fld p 8 8)) }

def execJobResume (q : Req) (s : State) : Host.Outcome State Fault Refusal := .next (serve cmdJobResume q s)

/-! ### PRINT_ENABLE (R457) -/

/-- JOB_PRINT_ENABLE: action 0 none, 1 latch enabled, 2 pause, 3 resume, 4 cancel, 5 ignored; L all ones where there is none. -/
def State.peEvent (s : State) (action : Nat) (line : Option Nat) : State :=
  s.post 0x0202 clsJob [(1, b2n s.job.printEnable), (1, action), (8, line.getD (2 ^ 64 - 1))]

/-- A boundary placed by the level, or ignored. -/
def State.peBoundary (s : State) (action : Nat) (r : Except (Status × Nat) (State × Nat)) : State :=
  match r with
  | .ok (s1, l) => s1.peEvent action (some l)
  | .error _ => s.peEvent 5 none

def State.peEdge (s : State) : State :=
  if s.job.peMode = 0 then s.peEvent 0 none
  else if s.job.state == .started && s.job.printEnable && !s.lsd.latchEnabled then
    let s1 := ({ s with lsd := { s.lsd with latchEnabled := true } }).peEvent 1 none
    if s1.lsd.cfg.originMode = 0 then s1.latch s1.posNow s1.nowNs else s1
  else if s.job.peMode = 2 && s.job.state == .running then
    if !s.job.printEnable then s.peBoundary 2 (s.placePause true 0)
    else match s.job.pauseAt with
      | some p => if s.reached p then s.peBoundary 3 (s.placeResume true 0) else s.peBoundary 4 s.cancelPause
      | none => s.peEvent 5 none
  else s.peEvent 0 none

/-- A level is qualified once the input has been stable for 10 µs. -/
def execPrintEnable (level : Bool) (edge t : Nat) (s : State) : Host.Outcome State Fault Refusal :=
  let s1 := (s.at t).webSettle
  .next (if edge + us 10 ≤ s1.aon ∧ s1.job.printEnable ≠ level then
    ({ s1 with job := { s1.job with printEnable := level } }).peEdge else s1)

/-! ### Stop (R461 to R465) -/

/-- Stop lines at a plane line; one already placed earlier stands. -/
def State.placeStop (s : State) (l : Nat) : State :=
  let rows := Vector.ofFn (fun r : Fin 16 =>
    let j := s.job.rows[r]
    if s.live r then { j with stopLine := some (min (s.effLine r l) (j.stopLine.getD (s.effLine r l))) } else j)
  let now := s.job.stopPending && s.job.stopAt.isNone
  let s1 := { s with job := { s.job with
    rows := rows, stopPending := true
    stopAt := if now then none else some (min l (s.job.stopAt.getD l))
    stopReason := if s.job.stopPending then s.job.stopReason else reasonCommand
    stopClass := if s.job.stopPending then s.job.stopClass else 0
    detail := if s.job.stopPending then s.job.detail else 0 } }
  (List.finRange 16).foldl State.stopCheck s1

/-- A stop request joins those that wait for the job to stop. -/
def State.awaitStop (s : State) (o : Origin) : State := { s with job := { s.job with stopReqs := s.job.stopReqs ++ [o] } }

def cmdJobStop : Cmd :=
  { opcode := 0x0209, okLen := fun n => n == 16
    run := fun q s =>
      let p := q.payload
      let mode := fld p 0 1
      let early := s.job.state == .arming || s.job.state == .armed || s.job.state == .started
      checks s [(decide (2 < mode) || !zeros p 1 7 || (mode == 1 && decide (2 ^ 48 ≤ fld p 8 8)), .badParam),
                (!s.armed || (s.job.state == .stopping && mode != 0), .badState)] fun _ =>
        if early || mode == 0 then { state := (s.awaitStop q.origin).stopNow reasonCommand, status := some .accepted }
        else match s.boundaryLine (mode == 2) (fld p 8 8) with
          | .error (st, d) => .fail s st d
          | .ok l => { state := (s.awaitStop q.origin).placeStop l, status := some .accepted } }

def execJobStop (q : Req) (s : State) : Host.Outcome State Fault Refusal := .next (serve cmdJobStop q s)

def execRowStopped (r : Fin 16) (t : Nat) (s : State) : Host.Outcome State Fault Refusal := .next ((s.at t).stopCheck r)

def execRowDone (r : Fin 16) (t : Nat) (s : State) : Host.Outcome State Fault Refusal :=
  let s1 := s.at t
  .next (match s1.atEnd r with
    | some m => s1.rowIsDone r m
    | none => s1)

/-- The last row has stopped or is done (R464). -/
def execJobEnd (t : Nat) (s : State) : Host.Outcome State Fault Refusal :=
  let s1 := s.at t
  let rows := rowsWhere s1.assigned
  .next (if (s1.job.state == .running || s1.job.state == .stopping) && rows.all (fun r => !s1.live r) then
      if rows.all (fun r => s1.job.rows[r].done) then s1.jobStopped reasonEnd .ok 0 0
      else s1.jobStopped s1.job.stopReason (stopStatus s1.job.stopReason) s1.job.detail.toNat s1.job.stopClass
    else s1)

/-! ### Status (R466) -/

/-- The highest plane line for which a row has had a line start. -/
def State.topLine (s : State) : Option Nat :=
  ((rowsWhere s.assigned).filterMap (fun r => match s.lsd.rows[r].next with
    | 0 => none
    | n + 1 => some (s.planeLine r n))).foldl (fun m l => some (max l (m.getD 0))) none

def ones64 : Nat := 2 ^ 64 - 1

def State.jobStatus (s : State) : List Byte :=
  let j := s.job
  let inEffect := match j.pauseAt with | some p => s.allReached p | none => false
  let pausedRow (r : Fin 16) : Bool := match j.pauseAt with
    | some p => s.assigned r && decide (s.effLine r p < s.lsd.rows[r].next) &&
        (match j.resumeAt with | some q => decide (s.lsd.rows[r].next ≤ s.effLine r q) | none => true)
    | none => false
  le 1 j.state.code ++ [j.reason] ++
  le 1 (maskOf [s.lsd.origin.isSome, j.pauseAt.isSome && !inEffect, inEffect, j.stopPending, j.printEnable] + 32 * j.peMode) ++ [0] ++
  le 2 (rowMask s.assigned) ++ le 2 (rowMask (fun r => s.rows[r].ready)) ++ le 2 (rowMask pausedRow) ++
  le 2 (rowMask (fun r => j.rows[r].stopped || j.rows[r].done)) ++ le 4 j.detail.toNat ++
  le 8 (s.topLine.getD ones64) ++
  le 8 ((s.topLine.bind (fun l => (instanceAt s.panels 0 0 l).map (·.inst))).getD ones64) ++
  le 8 (j.pauseAt.getD ones64) ++ le 8 (j.stopAt.getD ones64) ++
  le 8 ((s.totals.map (·.2)).getD ones64) ++ le 8 s.nowNs

def cmdJobStatus : Cmd := { opcode := 0x0200, okLen := fun n => n == 0, run := fun _ s => { state := s, payload := s.jobStatus } }

def execJobStatus (q : Req) (s : State) : Host.Outcome State Fault Refusal := .next (serve cmdJobStatus q s)

end Sys2Proof.Machine
end

