-- ==== Sys2Proof/Machine/Layout.lean ====
section
/-! DEFINITION. Screening and history settings: SCREEN_PLANE (05 R126), SCREEN_MATRIX (05 R128), HIST_SET (06 R149), HIST_ROW
(06 R150). -/

namespace Sys2Proof.Machine

/-! ### SCREEN_PLANE (05 R126) -/

def screenModeOf : Nat → ScreenMode
  | 0 => .passThrough
  | 1 => .diffusion
  | _ => .matrix

/-- The sixteen 16-bit level words. -/
def levelWords (p : List Byte) : List Nat := (List.range 16).map (fun i => fld p (24 + 2 * i) 2)

def screenOf (p : List Byte) : Screen :=
  { mode := screenModeOf (fld p 1 1), maxDose := fld p 2 1, paperHold := bit (fld p 3 1) 0, tInvert := bit (fld p 3 1) 1
    noiseAmp := fld p 4 2, matrix := Fin.ofNat 8 (fld p 6 1), xPhase := fld p 8 1, yPhase := fld p 9 1
    seed := BitVec.ofNat 32 (fld p 12 4), weights := (List.range 7).map (fun i => fld p (16 + i) 1)
    levels := (levelWords p).map (· % 4096) }

/-- Levels of a mode that screens: V[0] is 0, V[1] to V[M] rise strictly above 0, those above M are 0. -/
def levelsBad (m : Nat) (v : List Nat) : Bool :=
  v.any (fun x => decide (4095 < x)) || v.getD 0 0 != 0 || v.getD 1 0 == 0 ||
  (List.range (m - 1)).any (fun i => decide (v.getD (i + 2) 0 ≤ v.getD (i + 1) 0)) || (v.drop (m + 1)).any (· != 0)

def screenBad (p : List Byte) : Bool :=
  let m := fld p 2 1
  let w := (List.range 7).map (fun i => fld p (16 + i) 1)
  decide (15 < fld p 0 1 ∨ 2 < fld p 1 1 ∨ 3 < fld p 3 1 ∨ 1023 < fld p 4 2 ∨ 7 < fld p 6 1 ∨ 127 < fld p 8 1 ∨ 127 < fld p 9 1) ||
  !zeros p 7 1 || !zeros p 10 2 || !zeros p 23 1 || w.any (fun x => decide (64 < x)) || w.sum != 64 ||
  (fld p 1 1 != 0 && (decide (m = 0 ∨ 15 < m) || levelsBad m (levelWords p)))

def cmdScreenPlane : Cmd :=
  { opcode := 0x0220, okLen := fun n => n == 56
    run := fun q s =>
      checks s [(screenBad q.payload, .badParam), (s.armed, .badState)] fun _ =>
        let set_ (x : Plane) : Plane := { x with screen := some (screenOf q.payload) }
        { state := { s with layout := { s.layout with planes := upd s.layout.planes (Fin.ofNat 16 (fld q.payload 0 1)) set_ } } } }

def execScreenPlane (q : Req) (s : State) : Host.Outcome State Fault Refusal := .next (serve cmdScreenPlane q s)

/-! ### SCREEN_MATRIX (05 R128) -/

/-- A plane of the armed job uses the matrix slot. -/
def State.matrixUsed (s : State) (slot : Nat) : Bool :=
  s.armed && (List.finRange 16).any (fun r => match s.layout.rows[r].plane with
    | some plane => let x := s.layout.planes[plane].settings plane.val; x.mode == .matrix && x.matrix.val == slot
    | none => false)

/-- The 16-bit words of a byte string. -/
def words16 : List Byte → List Nat
  | a :: b :: r => leNat [a, b] :: words16 r
  | _ => []

def cmdScreenMatrix : Cmd :=
  { opcode := 0x0221, okLen := fun n => n == 16
    run := fun q s =>
      let p := q.payload
      let w := fld p 1 1 + 1
      let h := fld p 2 1 + 1
      let src := fld p 8 8
      let entries := words16 (s.memRead src (2 * w * h))
      checks s [(decide (7 < fld p 0 1 ∨ 128 < w ∨ 128 < h) || !zeros p 3 5, .badParam), (s.matrixUsed (fld p 0 1), .badState),
                (!inZone src (2 * w * h), .windowFault)] fun _ =>
        if entries.any (fun e => decide (4095 < e)) then .fail s .badParam
        else
          let m : Matrix := { w := w, h := h, entries := entries }
          { state := { s with layout := { s.layout with matrices := s.layout.matrices.set (Fin.ofNat 8 (fld p 0 1)) (some m) } } } }

def execScreenMatrix (q : Req) (s : State) : Host.Outcome State Fault Refusal := .next (serve cmdScreenMatrix q s)

/-! ### HIST_SET (06 R149) -/

/-- Even doses in the low half of a byte. -/
def nibbles (p : List Byte) : List Nat := p.flatMap (fun b => [b.toNat % 16, b.toNat / 16])

def histOf (image : List Byte) : HistSet :=
  { classOf := (image.take 256).map (·.toNat % 8), wave := nibbles ((image.drop 256).take 64) }

def cmdHistSet : Cmd :=
  { opcode := 0x0222, okLen := fun n => n == 16
    run := fun q s =>
      let p := q.payload
      let src := fld p 8 8
      let image := s.memRead src 320
      checks s [(decide (7 < fld p 0 1) || !zeros p 1 7, .badParam), (s.armed, .badState), (!inZone src 320, .windowFault)] fun _ =>
        if (image.take 256).any (fun b => decide (7 < b.toNat)) then .fail s .badParam
        else { state := { s with layout := { s.layout with hist := s.layout.hist.set (Fin.ofNat 8 (fld p 0 1)) (histOf image) } } } }

def execHistSet (q : Req) (s : State) : Host.Outcome State Fault Refusal := .next (serve cmdHistSet q s)

/-! ### HIST_ROW (06 R150) -/

def cmdHistRow : Cmd :=
  { opcode := 0x0223, okLen := fun n => n == 8
    run := fun q s =>
      let p := q.payload
      let set_ (d : RowDef) : RowDef := { d with histSet := Fin.ofNat 8 (fld p 1 1), maskCode := fld p 2 1 }
      checks s [(decide (15 < fld p 0 1 ∨ 7 < fld p 1 1 ∨ 15 < fld p 2 1) || !zeros p 3 5, .badParam), (s.armed, .badState)] fun _ =>
        { state := { s with layout := { s.layout with rows := upd s.layout.rows (Fin.ofNat 16 (fld p 0 1)) set_ } } } }

def execHistRow (q : Req) (s : State) : Host.Outcome State Fault Refusal := .next (serve cmdHistRow q s)

end Sys2Proof.Machine
end

