-- ==== Sys2Proof/Machine/Mgmt.lean ====
section
/-! DEFINITION. The management port (25): its registers (R592), the tunnels of MB4 and MB5 (R593), the alert line (R596), the
management commands and STANDBY (R597), and the recovery upload (R598, R599). -/

namespace Sys2Proof.Machine

/-! ### Register words (R592) -/

/-- Bits of a 32-bit word: position and value, fields that do not overlap. -/
def word (fs : List (Nat × Nat)) : Nat := fs.foldl (fun n f => n + f.2 * 2 ^ f.1) 0

def mgId : Nat := word [(0, 0x4826), (16, 1)]

def State.mgStatus (s : State) : Nat :=
  word [(0, s.boot.stage.toNat), (8, s.boot.stopCause.toNat), (16, b2n s.fwServes), (17, b2n s.boot.recovery),
        (18, b2n s.armed), (19, b2n s.fsv.waste), (20, s.mgt.maddr.toNat), (24, s.clk.lastReset.toNat)]

def State.mgDomains (s : State) : Nat := word [(0, s.pwr.powered.toNat), (16, s.pwr.railSince.toNat)]

def State.mgErrors (s : State) : Nat := word [(0, s.mgt.pecErrors.toNat), (8, s.mgt.nacks.toNat), (16, s.mgt.timeouts.toNat)]

def State.mgFlogIndex (s : State) : Nat := word [(0, s.mgt.flogIndex.toNat), (8, s.fsv.thermos.length)]

/-- FLOG_DATA: the record of the Thermos copy that FLOG_INDEX names, zeros when there is none. -/
def State.mgFlogData (s : State) : List Byte :=
  match s.fsv.thermos[s.mgt.flogIndex.toNat]? with
  | some r => r.bytes
  | none => zeroBytes 64

/-- The mailbox of a tunnel. -/
def tunnelBox (n : Fin 2) : Fin 8 := ⟨4 + n.val, by omega⟩

def State.mgMbCtrl (s : State) (n : Fin 2) : Nat :=
  let b := s.box (tunnelBox n)
  word [(8, b2n (s.mgt.tunnels[n]).reqFree), (9, b2n (b.ready || s.boot.recovery)), (10, b.replies.length),
        (13, b2n (!b.held.isEmpty)), (14, b2n (s.mgt.tunnels[n]).overrun)]

/-! ### Writes (R590) -/

/-- A transaction that is not acknowledged. -/
def State.mgNack (s : State) : State := ({ s with mgt := { s.mgt with nacks := satAdd s.mgt.nacks 1 } }).emit .nack

/-- A write with a wrong count is NACKed, one without its PEC discarded and counted. -/
def State.mgWrite (s : State) (okLen pec : Bool) (f : State → State) : State :=
  if !okLen then s.mgNack
  else if !pec then { s with mgt := { s.mgt with pecErrors := satAdd s.mgt.pecErrors 1 } }
  else f s

/-- Some bit of ALERT_STATUS is set and not masked. -/
def Mgt.wanted (m : Mgt) : Bool := (m.alertStatus &&& ~~~(m.alertMask.truncate 11)) != 0

/-- W1C of ALERT_STATUS; with no unmasked bit left SMBALERT_N is released (R596). -/
def State.alertClear (s : State) (v : Nat) : State :=
  let m := { s.mgt with alertStatus := s.mgt.alertStatus &&& ~~~(BitVec.ofNat 11 v) }
  { s with mgt := { m with alert := m.alert && m.wanted } }

def execAlertStatusClear (data : List Byte) (pec : Bool) (s : State) : Host.Outcome State Fault Refusal :=
  .next (s.mgWrite (data.length == 4) pec (fun s => s.alertClear (fld data 0 4)))

/-- A new ALERT_MASK: a set bit it uncovers asserts the line, and none left releases it. -/
def State.setMask (s : State) (v : Nat) : State :=
  let bare := s.mgt.alertStatus &&& s.mgt.alertMask.truncate 11 &&& ~~~(BitVec.ofNat 11 v)
  let m := { s.mgt with alertMask := BitVec.ofNat 32 v }
  { s with mgt := { m with alert := m.wanted && (m.alert || bare != 0) } }

/-- PWR_CTRL `wake` in standby: the domains are powered and boot begins with cause code 1, unless the module still has to cool
after CRITICAL (R597, 26 R611). -/
def State.wake (s : State) : State :=
  if s.poweredOn 1 || s.pwr.criticalHold then s
  else
    let s1 := { s with clk := { s.clk with lastReset := 1 }, pwr := { s.pwr with off := 0, repowerAt := Vector.replicate 12 none } }
    s1.powerUp 1

/-- A write of PWR_CTRL; with another key it does nothing. -/
def State.pwrCtrl (s : State) (v : Nat) : State := if v % 65536 = 0x5AA5 ∧ bit v 16 = true then s.wake else s

def execPwrCtrlWake (data : List Byte) (pec : Bool) (t : Nat) (s : State) : Host.Outcome State Fault Refusal :=
  .next ((s.at t).mgWrite (data.length == 4) pec (fun s => s.pwrCtrl (fld data 0 4)))

/-! ### Tunnels (R593) -/

def State.updTunnel (s : State) (n : Fin 2) (f : Tunnel → Tunnel) : State := { s with mgt := { s.mgt with tunnels := upd s.mgt.tunnels n f } }

/-- A write or `go` while `req_free` is clear. -/
def State.tunnelOverrun (s : State) (n : Fin 2) : State :=
  ({ s with mgt := { s.mgt with nacks := satAdd s.mgt.nacks 1 } }).updTunnel n (fun t => { t with overrun := true })

def State.tunnelClear (s : State) (n : Fin 2) : State := s.updTunnel n (fun t => { t with overrun := false })

def State.tunnelPop (s : State) (n : Fin 2) : State := s.updBox (tunnelBox n) (fun b => { b with replies := b.replies.drop 1 })

/-- `go`: the buffer is submitted to the mailbox. -/
def State.tunnelGo (s : State) (n : Fin 2) : State :=
  let t := s.mgt.tunnels[n]
  if t.reqFree then
    (s.updTunnel n (fun t => { t with reqFree := false })).updBox (tunnelBox n) (fun b => { b with requests := b.requests ++ [t.buffer] })
  else s.tunnelOverrun n

/-- A write of MB_CTRL: [0] go, [1] pop, [14] overrun W1C. A bit cleared and set in one write stays set (R596). -/
def State.mbCtrl (s : State) (n : Fin 2) (v : Nat) : State :=
  let s1 := if bit v 14 then s.tunnelClear n else s
  let s2 := if bit v 1 then s1.tunnelPop n else s1
  if bit v 0 then s2.tunnelGo n else s2

def execMbCtrlGo (n : Fin 2) (data : List Byte) (pec : Bool) (s : State) : Host.Outcome State Fault Refusal :=
  .next (s.mgWrite (data.length == 4) pec (fun s => s.mbCtrl n (fld data 0 4)))

def execMbCtrlPop (n : Fin 2) (data : List Byte) (pec : Bool) (s : State) : Host.Outcome State Fault Refusal :=
  .next (s.mgWrite (data.length == 4) pec (fun s => s.mbCtrl n (fld data 0 4)))

def execMbCtrlClear (n : Fin 2) (data : List Byte) (pec : Bool) (s : State) : Host.Outcome State Fault Refusal :=
  .next (s.mgWrite (data.length == 4) pec (fun s => s.mbCtrl n (fld data 0 4)))

/-- Data byte 0 is the offset; what runs past the buffer's end is lost. -/
def bufferPut (buf data : List Byte) : List Byte :=
  match data with
  | [] => buf
  | o :: rest => (buf.take o.toNat ++ rest ++ buf.drop (o.toNat + rest.length)).take 256

/-- A write of MB_REQ while the buffer is free, else an overrun. -/
def State.mbReq (s : State) (n : Fin 2) (data : List Byte) : State :=
  if (s.mgt.tunnels[n]).reqFree then s.updTunnel n (fun t => { t with buffer := bufferPut t.buffer data }) else s.tunnelOverrun n

def execMbReqWrite (n : Fin 2) (data : List Byte) (pec : Bool) (s : State) : Host.Outcome State Fault Refusal :=
  .next (s.mgWrite (decide (2 ≤ data.length ∧ data.length ≤ 255)) pec (fun s => s.mbReq n data))

/-- Up to 128 bytes of the oldest reply from an offset; nothing where no reply is held or the offset lies past it. -/
def execMbRplRead (n : Fin 2) (off : Byte) (s : State) : Host.Outcome State Fault Refusal :=
  .next (s.emit (.readData ((((s.box (tunnelBox n)).replies.headD []).drop off.toNat).take 128)))

/-! ### A Block Write by its command code (R590, R592) -/

/-- The byte counts a register takes. -/
def mgCounts (code : Nat) (n : Nat) : Bool :=
  match code with
  | 0x05 => n == 8
  | 0x09 => n == 64
  | 0x11 | 0x19 => decide (2 ≤ n ∧ n ≤ 255)
  | 0x12 | 0x1A => n == 1
  | _ => n == 4

/-- What a Block Write does to a register; a read-only one is left as it is (00 R7). -/
def State.mgPut (s : State) (code : Nat) (data : List Byte) : State :=
  let v := fld data 0 4
  match code with
  | 0x03 => s.alertClear v
  | 0x04 => s.setMask v
  | 0x06 => s.pwrCtrl v
  | 0x08 => { s with mgt := { s.mgt with flogIndex := BitVec.ofNat 5 v } }
  | 0x10 => s.mbCtrl 0 v
  | 0x18 => s.mbCtrl 1 v
  | 0x11 => s.mbReq 0 data
  | 0x19 => s.mbReq 1 data
  | _ => s

/-- The command codes of R592. -/
def mgCodes : List Nat := [0, 1, 2, 3, 4, 5, 6, 7, 8, 9, 0x10, 0x11, 0x12, 0x18, 0x19, 0x1A]

/-- A Block Write: an unknown code and a wrong count are NACKed. -/
def execMgmtRegisterWrite (code : Byte) (data : List Byte) (pec : Bool) (s : State) : Host.Outcome State Fault Refusal :=
  .next (s.mgWrite (mgCodes.contains code.toNat && mgCounts code.toNat data.length) pec (fun s => s.mgPut code.toNat data))

/-! ### Alert and bus (R591, R596) -/

/-- The module's 7-bit address, 0x58 + MADDR (R589). -/
def Mgt.address (m : Mgt) : Nat := 0x58 + m.maddr.toNat

/-- A module that asserts SMBALERT_N returns its address in bits [7:1] and releases the line; another does not answer. -/
def execAlertResponseRead (s : State) : Host.Outcome State Fault Refusal :=
  .next (if s.mgt.alert then ({ s with mgt := { s.mgt with alert := false } }).emit (.readData (le 1 (2 * s.mgt.address)))
    else s.emit .nack)

def execSclTimeout (t : Nat) (s : State) : Host.Outcome State Fault Refusal :=
  let s1 := s.at t
  .next { s1 with mgt := { s1.mgt with timeouts := satAdd s1.mgt.timeouts 1 } }

/-! ### Commands (R597) -/

def cmdMgmtJobStop : Cmd :=
  { opcode := 0x0F00, okLen := fun n => n == 8
    run := fun q s =>
      checks s [(fld q.payload 0 2 != 0xA55A || !zeros q.payload 2 6, .badParam), (!s.armed, .badState)] fun _ =>
        { state := s.stopManagement (some q.origin), status := some .accepted } }

def execMgmtJobStop (q : Req) (s : State) : Host.Outcome State Fault Refusal := .next (serve cmdMgmtJobStop q s)

def cmdMgmtDomains : Cmd :=
  { opcode := 0x0F01, okLen := fun n => n == 8
    run := fun q s =>
      let p := q.payload
      let standby := fld p 0 1 == 1
      checks s [(decide (1 < fld p 0 1) || decide (1 < fld p 1 1) || (standby && fld p 2 2 != 0xA55A) || !zeros p 4 4, .badParam),
                (standby && s.armed && !bit (fld p 1 1) 0, .badState)] fun _ =>
        if standby then { state := { s with boot := { s.boot with standbyAt := some (s.aon + ms 1) } } }
        else { state := s, payload := le 4 s.mgDomains } }

def execMgmtDomains (q : Req) (s : State) : Host.Outcome State Fault Refusal := .next (serve cmdMgmtDomains q s)

/-- The accepted STANDBY falls due: any job stops, WASTE follows 01 R11, and PD11 to PD1 power down. -/
def execStandby (t : Nat) (s : State) : Host.Outcome State Fault Refusal :=
  let s1 := s.at t
  match s1.boot.standbyAt with
  | some t0 =>
    .next (if t0 ≤ s1.aon then
      let s2 := s1.stopManagement none
      (if s2.armed then s2.wastePower else s2).standbyDown
    else s1)
  | none => .next s1

/-! ### The recovery upload (R598, R599) -/

def State.recoveryUpdate (s : State) : Option Update :=
  match s.boot.update with | some u => if u.item = .recovery then some u else none | none => none

def cmdRecoveryBegin : Cmd :=
  { opcode := 0x0F02, okLen := fun n => n == 8
    run := fun q s =>
      let len := fld q.payload 0 4
      checks s [(decide (len < 4096 ∨ 67108864 < len) || !zeros q.payload 4 4, .badParam), (s.updBusy, .badState)] fun _ =>
        { state := s.openUpdate (some { item := .recovery, length := len, pages := [], written := 0, busy := some (.erase, q.origin) })
          status := some .accepted } }

def execRecoveryBegin (q : Req) (s : State) : Host.Outcome State Fault Refusal := .next (serve cmdRecoveryBegin q s)

def cmdRecoveryData : Cmd :=
  { opcode := 0x0F03, okLen := fun n => decide (9 ≤ n ∧ n ≤ 232)
    run := fun q s =>
      let p := q.payload
      let off := fld p 0 4
      let len := fld p 4 2
      checks s [(p.length != 8 + len, .badLength), (!zeros p 6 2, .badParam)] fun _ =>
        match s.recoveryUpdate with
        | none => .fail s .badState
        | some u =>
          if u.busy.isSome then .fail s .badState
          else if off ≠ u.written ∨ u.length < off + len then .fail s .badParam u.written
          else { state := s.programmed u off (p.drop 8) } }

def execRecoveryData (q : Req) (s : State) : Host.Outcome State Fault Refusal := .next (serve cmdRecoveryData q s)

def cmdRecoveryCommit : Cmd :=
  { opcode := 0x0F04, okLen := fun n => n == 8
    run := fun q s =>
      let act := bit (fld q.payload 0 1) 0
      checks s [(decide (1 < fld q.payload 0 1) || !zeros q.payload 1 7, .badParam)] fun _ =>
        match s.recoveryUpdate with
        | none => .fail s .badState
        | some u =>
          if u.busy.isSome || u.written != u.length || (act && s.armed) then .fail s .badState
          else { state := s.openUpdate (some { u with busy := some (.commit act false, q.origin) }), status := some .accepted } }

def execRecoveryCommit (q : Req) (s : State) : Host.Outcome State Fault Refusal := .next (serve cmdRecoveryCommit q s)

end Sys2Proof.Machine
end

