-- ==== Sys2Proof/Machine/MotOps.lean ====
section
/-! DEFINITION. Shared operations of motion (16): units, the profile of one tick (R382, R384 to R389), gearing (R390, R391), and
how a command of an axis ends (R385, R411). The spec bounds a profile and fixes its ends; the recurrence is the model's
(design choice). -/

namespace Sys2Proof.Machine

/-! ### Units: 2^-48 counts and ticks (R382) -/

/-- counts/s in units per tick of `t` ns. -/
def velUnits (t v : Nat) : Nat := v * 2 ^ 48 * t / 10 ^ 9
def accUnits (t a : Nat) : Nat := max 1 (a * 2 ^ 48 * t ^ 2 / 10 ^ 18)
def jerkUnits (t j : Nat) : Nat := if j = 0 then 0 else max 1 (j * 2 ^ 48 * t ^ 3 / 10 ^ 27)

/-- A velocity in counts/s, rounded to nearest. -/
def velCounts (t : Nat) (v : Int) : Int := rdiv (v * 10 ^ 9) (2 ^ 48 * max 1 t)

/-- A set point in Q16 counts, rounded to nearest (R382). -/
def q16 (p : Int) : Int := rdiv p (2 ^ 32)

/-- Limits of a profile per tick; `j` 0 is a trapezoid. -/
structure Limits where
  a : Nat
  d : Nat
  j : Nat

/-- Position, velocity and acceleration. -/
structure Kin where
  pos : Int
  vel : Int
  acc : Int

def Kin.rest (p : Int) : Kin := { pos := p, vel := 0, acc := 0 }

/-! ### One tick of a profile -/

/-- Velocity after a trapezoid's tick toward a target `d` ahead: the fastest from which the axis still stops at it. -/
def trapVel (l : Limits) (speed v d : Int) : Int :=
  let dec : Int := l.d
  let inside := dec * dec + 8 * dec * d - 4 * dec * v
  let cand : Int := if inside < 0 then -1 else ((Nat.sqrt inside.toNat : Int) - dec) / 2
  max (v - dec) (min (min speed (v + l.a)) cand)

/-- The way to rest from velocity v under deceleration d and jerk j, starting without acceleration. -/
def stopFlat (d j v : Nat) : Nat :=
  if d * d ≤ v * j then v * (v * j + d * d) / (2 * d * j)
  else v * Nat.sqrt (v * 2 ^ 32 / j) / 2 ^ 16

/-- The way to rest from velocity v and acceleration a (R389): with jerk j, or at once at d when j is 0. -/
def stopDist (l : Limits) (v a : Int) : Int :=
  let n (x : Int) : Nat := x.toNat
  if l.j = 0 then ((n v) ^ 2 / (2 * l.d) : Nat)
  else if 0 ≤ a then
    (n v * n a / l.j + (n a) ^ 3 / (3 * l.j ^ 2) : Nat) + (stopFlat l.d l.j (n v + (n a) ^ 2 / (2 * l.j)) : Int)
  else
    let b := n (-a)
    let v0 := n v + b ^ 2 / (2 * l.j)
    max 0 ((stopFlat l.d l.j v0 : Int) - ((v0 * b / l.j : Nat) : Int) + ((b ^ 3 / (6 * l.j ^ 2) : Nat) : Int))

/-- The acceleration an S-curve takes in a tick: the largest of its three choices that keeps the speed and the stop. -/
def curveAcc (l : Limits) (speed v a d : Int) : Int :=
  let ok (a' : Int) : Bool :=
    let v' := v + (a + a') / 2
    decide (v' + max 0 a' * max 0 a' / (2 * l.j) ≤ speed ∧ stopDist l v' a' + (v + v') / 2 ≤ d)
  let up := min (a + l.j) l.a
  let down := max (a - l.j) (-(l.d : Int))
  if ok up then up else if ok a then a else down

/-- One tick toward rest. -/
def slowStep (l : Limits) (k : Kin) : Kin :=
  let sg : Int := if k.vel < 0 then -1 else 1
  let v := sg * k.vel
  let a := sg * k.acc
  let a' : Int :=
    if l.j = 0 then 0
    else if a < 0 ∧ v * (2 * l.j) ≤ a * a then min 0 (a + l.j) else max (a - l.j) (-(l.d : Int))
  let v' := if l.j = 0 then v - l.d else v + (a + a') / 2
  if v' ≤ 0 ∨ (l.j ≠ 0 ∧ v ≤ l.j ∧ a.natAbs ≤ 2 * l.j) then { pos := k.pos + sg * (v / 2), vel := 0, acc := 0 }
  else { pos := k.pos + sg * ((v + v') / 2), vel := sg * v', acc := sg * a' }

/-- One tick toward a target; at the target the axis rests (R384). -/
def moveStep (l : Limits) (speed : Nat) (target : Int) (k : Kin) : Kin :=
  let dist := target - k.pos
  let sg : Int := if dist < 0 then -1 else 1
  let d := sg * dist
  let v := sg * k.vel
  let a := sg * k.acc
  if v < 0 then slowStep l k
  else if l.j = 0 then
    let v' := trapVel l speed v d
    if v' ≤ 0 ∧ v ≤ l.d then Kin.rest target else { pos := k.pos + sg * ((v + v') / 2), vel := sg * v', acc := 0 }
  else if d ≤ v + 2 * l.j ∧ v ≤ 2 * l.j ∧ a.natAbs ≤ 2 * l.j then Kin.rest target
  else if (speed : Int) < v ∧ d = 0 then slowStep l k
  else
    let a' := curveAcc l speed v a d
    let v' := max 0 (v + (a + a') / 2)
    { pos := k.pos + sg * ((v + v') / 2), vel := sg * v', acc := if v' = 0 then 0 else sg * a' }

/-! ### Axes -/

def Axis.kin (a : Axis) : Kin := { pos := a.pos, vel := a.vel, acc := a.acc }
def Axis.setKin (a : Axis) (k : Kin) : Axis := { a with pos := k.pos, vel := k.vel, acc := k.acc }

def Axis.limits (a : Axis) (t : Nat) : Limits := { a := accUnits t a.lim.aMax, d := accUnits t a.lim.dMax, j := jerkUnits t a.lim.jerk }

/-- Deceleration at `d_stop`, without jerk limit. -/
def Axis.hardLimits (a : Axis) (t : Nat) : Limits := { a := accUnits t a.lim.aMax, d := accUnits t a.dStop, j := 0 }

/-- Soft limits apply only after a successful home (R404). -/
def Axis.softOn (a : Axis) : Bool := a.softLimits && a.homed

/-- Limits that waited for the end of a segment take effect (R388). -/
def Axis.takeDeferred (a : Axis) : Axis :=
  match a.deferred with
  | some l => { a with lim := l, deferred := none }
  | none => a

/-- The axis rests, with no command. -/
def Axis.toIdle (a : Axis) : Axis := { a with state := .idle, vel := 0, acc := 0, gear := none, homing := none }

/-- MOT_DONE status codes, in the order of R411. -/
def doneDONE : Nat := 0
def doneOVERSHOOT : Nat := 1
def doneREPLACED : Nat := 2
def doneSTOPPED : Nat := 3
def doneLIMIT : Nat := 4
def doneHOME_FAIL : Nat := 5
def doneFAULT : Nat := 6

def AxisKind.code : AxisKind → Nat
  | .absolute => 0 | .relative => 1 | .jog => 2 | .stop => 3 | .quickStop => 4 | .gear => 5 | .home => 6 | .enable => 7

def State.axis (s : State) (i : Fin 8) : Axis := s.mot.axes[i]
def State.updAxis (s : State) (i : Fin 8) (f : Axis → Axis) : State := { s with mot := { s.mot with axes := upd s.mot.axes i f } }

/-- The command of an axis ends: MOT_DONE (R385, R411). -/
def State.motDone (s : State) (i : Fin 8) (code : Nat) : State :=
  let a := s.axis i
  match a.kind with
  | none => s
  | some k =>
    (s.updAxis i (fun a => ({ a with kind := none, origin := none, overshoot := false }).takeDeferred)).result a.origin 0x02E0 clsMotion
      (if 5 ≤ code then .lastingFault else .ok) 0 [(1, i.val), (1, k.code), (1, code), (8, wrapInt 64 (q16 a.pos))]

/-- A command takes an axis over; what was in progress has ended with `code`. -/
def State.takeAxis (s : State) (i : Fin 8) (code : Nat) (k : AxisKind) (o : Origin) (f : Axis → Axis) : State :=
  (s.motDone i code).updAxis i (fun a => { f a with kind := some k, origin := some o })

/-! ### Gearing (R390, R391) -/

/-- The blend in Q16 web counts, at least 1. -/
def Gear.span (g : Gear) : Nat := max 1 (g.blend * 65536)

/-- 2·B ∫ r from `at_pos` to x, exact: Q16 counts with 16 further fraction bits, times twice the span (R390, R391). -/
def Gear.integral (g : Gear) (x : Int) : Int :=
  let u := x - g.atPos
  let b : Int := g.span
  if u ≤ 0 then 2 * b * (g.r0 * u)
  else if b ≤ u then 2 * b * (g.r1 * u) - (g.r1 - g.r0) * b * (if g.blend = 0 then 0 else b)
  else 2 * b * (g.r0 * u) + (g.r1 - g.r0) * u * u

/-- A at web position x. -/
def Gear.position (g : Gear) (x : Int) : Int := (2 * g.span * g.acc + g.integral x - g.integral g.base).fdiv (2 * g.span)

/-- r at web position x. -/
def Gear.ratio (g : Gear) (x : Int) : Int :=
  let u := x - g.atPos
  let b : Int := g.blend * 65536
  if u < 0 then g.r0 else if b ≤ u then g.r1 else g.r0 + (g.r1 - g.r0) * u / b

/-- The web position sampled at a time and extrapolated by `gear_lead_ns` (R390). -/
def State.webAhead (s : State) (t : Nat) : Int :=
  let v := s.lsd.vel
  s.lsd.posAt t + (65536 * v.1 * s.mot.gearLeadNs).fdiv v.2

end Sys2Proof.Machine
end

