-- ==== Sys2Proof/Machine/Motion.lean ====
section
/-! DEFINITION. Auxiliary axes and the drive port (16): the axis commands (R403 to R410), the servo tick (R382 to R398), a drive's
STATUS frame (R396, R399), link faults (R402) and the enable timeout (R405). -/

namespace Sys2Proof.Machine

/-! ### DRIVE_PORT_CONFIG, AXIS_CONFIG (R403, R404) -/

/-- The periods of R403 in ns. -/
def periodNs (code : Nat) : Nat := 62500 * 2 ^ code

def cmdDrivePortConfig : Cmd :=
  { opcode := 0x0600, okLen := fun n => n == 8
    run := fun q s =>
      let p := q.payload
      let period := periodNs (fld p 0 1)
      checks s [(decide (4 < fld p 0 1 ∨ 3 < fld p 1 1 ∨ 1000000 < fld p 4 4) || !zeros p 2 2, .badParam),
                (s.mot.axes.toList.any (fun a => a.state != .disabled), .badState)] fun _ =>
        { state := { s with mot := { s.mot with period := period, links := BitVec.ofNat 2 (fld p 1 1), gearLeadNs := fld p 4 4,
                                                tick := s.tickNow period } } } }

def execDrivePortConfig (q : Req) (s : State) : Host.Outcome State Fault Refusal := .next (serve cmdDrivePortConfig q s)

/-- The axis's link is enabled (R397). -/
def State.linkOn (s : State) (i : Fin 8) : Bool := s.mot.links.getLsbD (i.val / 4)

def inRate (lo v : Nat) : Bool := decide (lo ≤ v ∧ v < 2 ^ 31)

def axisOf (p : List Byte) : Fin 8 := Fin.ofNat 8 (fld p 0 1)
def axisBad (p : List Byte) : Bool := decide (7 < fld p 0 1)

def cmdAxisConfig : Cmd :=
  { opcode := 0x0601, okLen := fun n => n == 40
    run := fun q s =>
      let p := q.payload
      let i := axisOf p
      let soft := bit (fld p 1 1) 0
      let lim : AxisLimits := { aMax := fld p 8 4, dMax := fld p 12 4, jerk := fld p 16 4 }
      let set_ (a : Axis) : Axis := { a with
        configured := true, softLimits := soft, minPos := sfld p 24 8, maxPos := sfld p 32 8, vMax := fld p 4 4
        dStop := fld p 20 4, lim := lim, deferred := none }
      checks s [(axisBad p || decide (1 < fld p 1 1) || !zeros p 2 2 || !inRate 1 (fld p 4 4) || !inRate 1 (fld p 8 4) ||
                  !inRate 1 (fld p 12 4) || !inRate 0 (fld p 16 4) || !inRate (fld p 12 4) (fld p 20 4) ||
                  (soft && decide (sfld p 32 8 ≤ sfld p 24 8)), .badParam),
                (!s.linkOn i, .badParam),
                ((s.axis i).state != .disabled && (s.axis i).state != .idle, .badState)] fun _ =>
        { state := s.updAxis i set_ } }

def execAxisConfig (q : Req) (s : State) : Host.Outcome State Fault Refusal := .next (serve cmdAxisConfig q s)

/-! ### AXIS_ENABLE (R405, R396) -/

/-- Clear `enable`: the command in progress ends with STOPPED. -/
def State.disableAxis (s : State) (i : Fin 8) : State :=
  (s.motDone i doneSTOPPED).updAxis i (fun a =>
    let b := a.toIdle
    { b with enable := false, state := if a.state = .fault then .fault else .disabled })

/-- A command that is complete as soon as it is accepted. -/
def State.doneAtOnce (s : State) (i : Fin 8) (k : AxisKind) (o : Origin) : State :=
  let a := s.axis i
  s.result (some o) 0x02E0 clsMotion .ok 0 [(1, i.val), (1, k.code), (1, doneDONE), (8, wrapInt 64 (q16 a.pos))]

def cmdAxisEnable : Cmd :=
  { opcode := 0x0602, okLen := fun n => n == 8
    run := fun q s =>
      let p := q.payload
      let i := axisOf p
      let en := bit (fld p 1 1) 0
      let reset := bit (fld p 1 1) 1
      let a := s.axis i
      checks s [(axisBad p || decide (3 < fld p 1 1) || !zeros p 2 6, .badParam), (!a.configured, .badState)] fun _ =>
        let waits (s : State) : State := s.takeAxis i doneREPLACED .enable q.origin (fun a =>
          { a with enable := en, faultReset := a.faultReset || reset, enabledAt := s.aon })
        let s1 :=
          if en then (if a.state = .disabled ∨ a.state = .fault then waits s else s.doneAtOnce i .enable q.origin)
          else if a.state = .fault ∧ reset = true then waits s
          else (s.disableAxis i).doneAtOnce i .enable q.origin
        { state := s1, status := some .accepted } }

def execAxisEnable (q : Req) (s : State) : Host.Outcome State Fault Refusal := .next (serve cmdAxisEnable q s)

/-- Enable is not reported within 100 ms (R405). -/
def execEnableTimeout (i : Fin 8) (t : Nat) (s : State) : Host.Outcome State Fault Refusal :=
  let s1 := s.at t
  let a := s1.axis i
  .next (if a.kind = some .enable ∧ a.enabledAt + ms 100 ≤ s1.aon then
    (s1.motDone i doneFAULT).updAxis i (fun a => { a with enable := false, faultReset := false }) else s1)

/-! ### AXIS_MOTION (R385 to R387, R406) -/

/-- Whole counts within ±2^31. -/
def posRange (v : Int) : Bool := decide (-(2 ^ 47 : Int) ≤ v ∧ v < 2 ^ 47)

/-- A target outside the soft limits in force (R404). -/
def Axis.offLimits (a : Axis) (target : Int) : Bool := a.softOn && decide (target < a.minPos ∨ a.maxPos < target)

/-- The target of ABSOLUTE or RELATIVE, in Q16 counts. -/
def Axis.targetOf (a : Axis) (kind : Nat) (v : Int) : Int :=
  if kind = 0 then v else (if a.state = .moving then a.target else q16 a.pos) + v

def AxisState.enabled : AxisState → Bool
  | .disabled | .fault => false
  | _ => true

/-- States in which a move or a jog may be commanded. -/
def AxisState.takesMotion : AxisState → Bool
  | .idle | .moving | .jogging | .stopping => true
  | _ => false

def Axis.atRest (a : Axis) : Bool := a.state == .idle

def State.startMove (s : State) (i : Fin 8) (kind : Nat) (o : Origin) (vel target : Int) : State :=
  let a := s.axis i
  let k : AxisKind := if kind = 0 then .absolute else .relative
  if a.atRest ∧ target * 2 ^ 32 = a.pos then s.doneAtOnce i k o
  else s.takeAxis i doneREPLACED k o (fun a => { a with
    state := .moving, target := target, speed := if vel = 0 then a.vMax else vel.natAbs, overshoot := false })

def State.startJog (s : State) (i : Fin 8) (o : Origin) (vel : Int) : State :=
  let a := s.axis i
  if a.atRest ∧ vel = 0 then s.doneAtOnce i .jog o
  else s.takeAxis i doneREPLACED .jog o (fun a => { a with state := .jogging, jogVel := vel })

def State.startStop (s : State) (i : Fin 8) (k : AxisKind) (o : Origin) : State :=
  let a := s.axis i
  if a.atRest then s.doneAtOnce i k o
  else s.takeAxis i doneSTOPPED k o (fun a => { a with state := .stopping, ending := doneDONE, gear := none, homing := none })

def cmdAxisMotion : Cmd :=
  { opcode := 0x0603, okLen := fun n => n == 16
    run := fun q s =>
      let p := q.payload
      let i := axisOf p
      let a := s.axis i
      let kind := fld p 1 1
      let vel := sfld p 4 4
      let target := a.targetOf kind (sfld p 8 8)
      let stops := decide (3 ≤ kind)
      checks s [(axisBad p || decide (4 < kind) || !zeros p 2 2, .badParam), (!a.configured, .badState),
                ((!stops && decide (a.vMax < vel.natAbs)) || (decide (kind < 2) && (!posRange target || a.offLimits target)), .badParam),
                (if stops then !a.state.enabled else !a.state.takesMotion, .badState)] fun _ =>
        { status := some .accepted
          state := match kind with
            | 0 | 1 => s.startMove i kind q.origin vel target
            | 2 => s.startJog i q.origin vel
            | 3 => s.startStop i .stop q.origin
            | _ => s.startStop i .quickStop q.origin } }

def execAxisMotion (q : Req) (s : State) : Host.Outcome State Fault Refusal := .next (serve cmdAxisMotion q s)

/-! ### AXIS_GEAR (R391, R392, R407) -/

/-- A blend is in progress. -/
def Axis.blending (a : Axis) : Bool := match a.gear with | some g => g.started | none => false

/-- The gearing an axis takes up: from rest at ratio 0, or from what it follows now. -/
def State.newGear (s : State) (a : Axis) (r1 at_ : Int) (blend : Nat) : Gear :=
  match a.gear with
  | some g => { r0 := g.ratio g.lastP, r1 := r1, atPos := at_, blend := blend, started := false, pending := true, lastP := g.lastP,
                base := g.lastP, acc := g.position g.lastP }
  | none =>
    let p := s.webAhead s.aon
    { r0 := 0, r1 := r1, atPos := at_, blend := blend, started := false, pending := true, lastP := p, base := p, acc := a.pos.fdiv 65536 }

def cmdAxisGear : Cmd :=
  { opcode := 0x0604, okLen := fun n => n == 24
    run := fun q s =>
      let p := q.payload
      let i := axisOf p
      let a := s.axis i
      checks s [(axisBad p || !zeros p 1 3 || !zeros p 20 4, .badParam), (!a.configured, .badState),
                (!(a.state == .idle || (a.state == .geared && !a.blending)), .badState)] fun _ =>
        let g := s.newGear a (sfld p 4 4) (sfld p 8 8) (fld p 16 4)
        { status := some .accepted
          state := s.takeAxis i doneREPLACED .gear q.origin (fun a => { a with state := .geared, gear := some g }) } }

def execAxisGear (q : Req) (s : State) : Host.Outcome State Fault Refusal := .next (serve cmdAxisGear q s)

/-! ### AXIS_HOME (R394, R408) -/

def cmdAxisHome : Cmd :=
  { opcode := 0x0605, okLen := fun n => n == 32
    run := fun q s =>
      let p := q.payload
      let i := axisOf p
      let a := s.axis i
      let vel := sfld p 4 4
      let h : Homing := { vel := vel, pos := sfld p 8 8, maxTravel := fld p 16 4, backoff := fld p 20 4, confirm := fld p 24 1
                          count := 0, firstActual := 0, startPos := a.pos, backing := false }
      checks s [(axisBad p || !zeros p 1 3 || vel == 0 || !posRange (sfld p 8 8) || !inRate 1 (fld p 16 4) || !inRate 0 (fld p 20 4) ||
                  fld p 24 1 == 0 || !zeros p 25 7, .badParam),
                (!a.configured, .badState), (decide (a.vMax < vel.natAbs), .badParam), (a.state != .idle, .badState)] fun _ =>
        { status := some .accepted
          state := s.takeAxis i doneREPLACED .home q.origin (fun a => { a with state := .homing, homing := some h, speed := vel.natAbs }) } }

def execAxisHome (q : Req) (s : State) : Host.Outcome State Fault Refusal := .next (serve cmdAxisHome q s)

/-! ### AXIS_LIMITS (R388, R389, R409) -/

/-- New limits at once; a move that can no longer stop at its target will overshoot it. -/
def Axis.changeNow (a : Axis) (t : Nat) (l : AxisLimits) : Axis :=
  let b := { a with lim := l, deferred := none }
  let dist := a.target * 2 ^ 32 - a.pos
  let sg : Int := if a.vel < 0 then -1 else 1
  if a.state = .moving ∧ 0 < sg * dist ∧ sg * dist < stopDist (b.limits t) (sg * a.vel) (sg * a.acc) then { b with overshoot := true } else b

def Axis.changeLimits (a : Axis) (t : Nat) (immediate : Bool) (l : AxisLimits) : Axis :=
  match a.state with
  | .idle | .disabled | .fault => { a with lim := l, deferred := none }
  | .geared | .homing => { a with deferred := some l }
  | _ => if immediate then a.changeNow t l else { a with deferred := some l }

def cmdAxisLimits : Cmd :=
  { opcode := 0x0606, okLen := fun n => n == 16
    run := fun q s =>
      let p := q.payload
      let i := axisOf p
      let a := s.axis i
      let l : AxisLimits := { aMax := fld p 4 4, dMax := fld p 8 4, jerk := fld p 12 4 }
      checks s [(axisBad p || decide (1 < fld p 1 1) || !zeros p 2 2 || !inRate 1 l.aMax || !inRate 1 l.dMax || !inRate 0 l.jerk, .badParam),
                (!a.configured, .badState), (decide (a.dStop < l.dMax), .badParam)] fun _ =>
        { state := s.updAxis i (fun a => a.changeLimits s.mot.period (fld p 1 1 == 1) l) } }

def execAxisLimits (q : Req) (s : State) : Host.Outcome State Fault Refusal := .next (serve cmdAxisLimits q s)

/-! ### AXIS_STATUS (R410) -/

def AxisState.code : AxisState → Nat
  | .disabled => 0 | .idle => 1 | .moving => 2 | .jogging => 3 | .geared => 4 | .homing => 5 | .stopping => 6 | .fault => 7

def State.axisStatus (s : State) (i : Fin 8) : List Byte :=
  let a := s.axis i
  let ratio : Int := match a.state, a.gear with | .geared, some g => g.ratio g.lastP | _, _ => 0
  le 1 a.state.code ++ [a.dstatus] ++ le 1 (b2n a.homed) ++ zeroBytes 1 ++ le 4 a.linkTransients.toNat ++ sle 8 (q16 a.pos) ++
  sle 4 (velCounts s.mot.period a.vel) ++ sle 4 ratio ++ sle 8 (a.actual * 65536 + a.offset) ++ sle 8 a.offset ++ sle 8 a.target ++ le 8 s.nowNs

def cmdAxisStatus : Cmd :=
  { opcode := 0x0607, okLen := fun n => n == 8
    run := fun q s =>
      let p := q.payload
      checks s [(axisBad p || !zeros p 1 7, .badParam)] fun _ => { state := s, payload := s.axisStatus (axisOf p) } }

def execAxisStatus (q : Req) (s : State) : Host.Outcome State Fault Refusal := .next (serve cmdAxisStatus q s)

/-! ### The servo tick (R382 to R398) -/

/-- A move, a jog or a stop has come to rest. -/
def Axis.resting (a : Axis) : Bool := a.vel == 0 && a.acc == 0

/-- The axis stands at or beyond the soft limit its jog leads to. -/
def Axis.beyond (a : Axis) : Bool :=
  a.softOn && (if a.jogVel < 0 then decide (a.pos ≤ a.minPos * 2 ^ 32) else decide (a.maxPos * 2 ^ 32 ≤ a.pos))

/-- An axis takes one tick; the answer says with which status its command completes. -/
def Axis.run (a : Axis) (t : Nat) : Axis × Option Nat :=
  match a.state with
  | .disabled | .fault => ({ a with pos := (a.actual * 65536 + a.offset) * 2 ^ 32, vel := 0, acc := 0 }, none)
  | .idle => (a, none)
  | .geared => (a, none)
  | .moving =>
    let goal := a.target * 2 ^ 32
    let b := a.setKin (moveStep (a.limits t) (velUnits t a.speed) goal a.kin)
    if b.pos = goal ∧ b.resting = true then (b.toIdle, some (if b.overshoot then doneOVERSHOOT else doneDONE)) else (b, none)
  | .jogging =>
    if a.jogVel = 0 then
      let b := a.setKin (slowStep (a.limits t) a.kin)
      if b.resting then (b.toIdle, some doneDONE) else (b, none)
    else
      let far : Int := if a.jogVel < 0 then a.pos - 2 ^ 90 else a.pos + 2 ^ 90
      let goal := if a.softOn then (if a.jogVel < 0 then a.minPos else a.maxPos) * 2 ^ 32 else far
      if a.beyond then
        let b := a.setKin (slowStep (a.limits t) a.kin)
        if b.resting then (b.toIdle, some doneLIMIT) else (b, none)
      else
        let b := a.setKin (moveStep (a.limits t) (velUnits t a.jogVel.natAbs) goal a.kin)
        if b.pos = goal ∧ b.resting = true then (b.toIdle, some doneLIMIT) else (b, none)
  | .stopping =>
    let hard := a.kind == some .quickStop || a.kind == some .gear
    let b := a.setKin (slowStep (if hard then a.hardLimits t else a.limits t) a.kin)
    if b.resting then (b.toIdle, some b.ending) else (b, none)
  | .homing =>
    match a.homing with
    | none => (a.toIdle, some doneHOME_FAIL)
    | some h =>
      if h.backing then
        let goal := a.target * 2 ^ 32
        let b := a.setKin (moveStep (a.limits t) (velUnits t a.speed) goal a.kin)
        if b.pos = goal ∧ b.resting = true then ({ b.toIdle with homed := true }, some doneDONE) else (b, none)
      else if (h.maxTravel : Int) * 2 ^ 48 ≤ (a.pos - h.startPos).natAbs then
        let b := a.takeDeferred
        ({ b.setKin (slowStep (b.limits t) b.kin) with state := .stopping, ending := doneHOME_FAIL, homing := none }, none)
      else
        let goal : Int := if h.vel < 0 then a.pos - 2 ^ 90 else a.pos + 2 ^ 90
        (a.setKin (moveStep (a.limits t) (velUnits t a.speed) goal a.kin), none)

/-- MOT_GEAR: kind 0 OVERSPEED, 1 BLEND_START, 2 BLEND_END. -/
def State.gearEvent (s : State) (i : Fin 8) (kind : Nat) (p ratio : Int) : State :=
  s.post 0x02E2 clsMotion [(1, i.val), (1, kind), (8, wrapInt 64 p), (4, wrapInt 32 ratio)]

/-- Gearing ends early: the axis decelerates at `d_stop` (R393), with the limits stored meanwhile (R389). -/
def State.gearStop (s : State) (i : Fin 8) (code : Nat) : State :=
  s.updAxis i (fun a => { a.takeDeferred with state := .stopping, ending := code, gear := none })

/-- The stopping distance at `d_stop` reaches a soft limit. -/
def Axis.nearLimit (a : Axis) (t : Nat) : Bool :=
  let way := stopDist (a.hardLimits t) (a.vel.natAbs : Int) 0
  a.softOn && decide (a.pos - (if a.vel < 0 then way else 0) ≤ a.minPos * 2 ^ 32 ∨ a.maxPos * 2 ^ 32 ≤ a.pos + (if 0 < a.vel then way else 0))

/-- MOT_GEAR OVERSPEED, at most once per 10 ms. -/
def State.gearSpeed (s : State) (i : Fin 8) (p ratio : Int) : State :=
  let a := s.axis i
  if a.vMax < (velCounts s.mot.period a.vel).natAbs ∧ (a.gearPostAt = 0 ∨ a.gearPostAt + ms 10 ≤ s.aon) then
    (s.updAxis i (fun a => { a with gearPostAt := s.aon })).gearEvent i 0 p ratio
  else s

/-- A geared axis takes the tick that falls at the always-on time `at_`. -/
def State.gearTick (s : State) (i : Fin 8) (g : Gear) (at_ : Nat) : State :=
  let p := s.webAhead at_
  let t := s.mot.period
  let pos := g.position p * 2 ^ 16
  let begins := g.pending && decide (g.atPos ≤ p)
  let ends := (begins || g.started) && decide (g.atPos + g.blend * 65536 ≤ p)
  let g1 : Gear :=
    if ends then { r0 := g.r1, r1 := g.r1, atPos := p, blend := 0, started := false, pending := false, lastP := p, base := p, acc := g.position p }
    else { g with started := g.started || begins, pending := g.pending && !begins, lastP := p }
  let s1 := s.updAxis i (fun a => { a with pos := pos, vel := pos - a.pos, acc := 0, gear := some g1 })
  let s2 := if begins then s1.gearEvent i 1 p (g.ratio p) else s1
  let s3 := if ends then s2.gearEvent i 2 p g.r1 else s2
  if ends ∧ g.r1 = 0 then (s3.updAxis i Axis.toIdle).motDone i doneDONE
  else if s3.lsd.hold || s3.lsd.lasting then s3.gearStop i doneFAULT
  else if (s3.axis i).nearLimit t then s3.gearStop i doneLIMIT
  else s3.gearSpeed i p (g1.ratio p)

/-- An axis takes the tick that falls at the always-on time `at_`. -/
def State.axisTick (at_ : Nat) (s : State) (i : Fin 8) : State :=
  let a := s.axis i
  match a.state, a.gear with
  | .geared, some g => s.gearTick i g at_
  | _, _ =>
    let r := a.run s.mot.period
    let s1 := s.updAxis i (fun _ => r.1)
    match r.2 with
    | some code => s1.motDone i code
    | none => s1

/-- A slot of a SETPOINT frame (R398). -/
def State.setpointEntry (s : State) (i : Fin 8) : List Byte :=
  let a := s.axis i
  if !a.configured then zeroBytes 12
  else
    le 1 (maskOf [a.enable, a.state == .stopping && a.kind == some .quickStop, a.faultReset, true]) ++ zeroBytes 1 ++
    sle 6 (q16 a.pos - a.offset) ++ sle 4 (velCounts s.mot.period a.vel)

def State.setpointFrame (s : State) (link : Fin 2) : List Byte :=
  let body := le 1 0x01 ++ le 2 s.mot.tick ++ (List.range 4).flatMap (fun k => s.setpointEntry (Fin.ofNat 8 (4 * link.val + k)))
  [0xA5] ++ body ++ le 4 (crc32c 0 body).toNat

def State.sendSetpoints (s : State) : State :=
  let one (s : State) (link : Fin 2) : State := if s.mot.links.getLsbD link.val then s.emit (.setpoint link (s.setpointFrame link)) else s
  one (one s 0) 1

/-- The next tick, which falls at chain time n × `period`: every axis, then the SETPOINT frames (R382, R398). -/
def State.servoTick (s : State) : State :=
  let n := s.mot.tick + 1
  let at_ := s.chainMoment (n * s.mot.period)
  (((List.finRange 8).foldl (State.axisTick at_) { s with mot := { s.mot with tick := n } }).sendSetpoints).drq 18

/-- The next tick of chain time has come (R382); a later one waits for its own command. Without PD11 no tick is kept. -/
def execServoTick (t : Nat) (s : State) : Host.Outcome State Fault Refusal :=
  let s1 := (s.at t).webSettle
  let n := s1.tickNow s1.mot.period
  .next (if !s1.domainUp 11 then { s1 with mot := { s1.mot with tick := max s1.mot.tick n } }
    else if s1.mot.tick < n then s1.servoTick else s1)

/-! ### Drives (R396, R399, R402) -/

def SlotFaultCode : SlotFault → Nat
  | .missing => 0 | .crc => 1 | .slot => 2 | .tickEcho => 3

/-- MOT_DRIVE: cause 0 missing, 1 CRC, 2 slot, 3 tick echo, 4 drive fault. -/
def State.driveEvent (s : State) (i : Fin 8) (cause cls : Nat) : State := s.post 0x02E1 clsMotion [(1, i.val), (1, cause), (1, cls)]

def driveDetect (i : Fin 8) (o : FaultOutcome) : Detect := { fclass := fcDrive, source := srcMot, unit := BitVec.ofNat 8 i.val, outcome := o }

/-- An axis goes to FAULT; its command ends. -/
def State.axisFault (s : State) (i : Fin 8) : State :=
  (s.motDone i doneFAULT).updAxis i (fun a => { a.toIdle with state := .fault, faultReset := false })

/-- The axis takes part in its link's slots. -/
def State.slotUsed (s : State) (i : Fin 8) : Bool := (s.axis i).configured && s.linkOn i && s.domainUp 11

/-- The slot of the present period has not been judged: a slot is checked once per period (R402). -/
def State.slotOpen (s : State) (i : Fin 8) : Bool := s.slotUsed i && decide ((s.axis i).judged ≤ s.mot.tick)

def State.judge (s : State) (i : Fin 8) : State := s.updAxis i (fun a => { a with judged := s.mot.tick + 1 })

/-- A status slot of a homing axis says whether `torque_limit` is set. After `confirm` slots in a row the axis stands at once where
the drive reported itself in the first of them, that position becomes `home_pos`, and the axis backs off (R394). -/
def Axis.homeSlot (a : Axis) (limit : Bool) (actual : Int) : Axis :=
  match a.state, a.homing with
  | .homing, some h =>
    if h.backing then a
    else if !limit then { a with homing := some { h with count := 0 } }
    else
      let first := if h.count = 0 then actual else h.firstActual
      let h1 := { h with count := h.count + 1, firstActual := first }
      if h1.count < h.confirm then { a with homing := some h1 }
      else
        let away : Int := if h.vel < 0 then h.backoff else -(h.backoff : Int)
        { a with pos := h.pos * 2 ^ 32, vel := 0, acc := 0, offset := h.pos - first * 65536, target := h.pos + away * 65536
                 homing := some { h1 with backing := true } }
  | _, _ => a

/-- A slot fails: pending once, lasting the second time in a row; a lasting one is not retried again before two good frames. A run of
flagged slots of a homing axis ends (R394). -/
def State.slotFault (s : State) (i : Fin 8) (fault : SlotFault) : State :=
  let cause := SlotFaultCode fault
  let a := s.axis i
  let s1 := s.updAxis i (fun a => ({ a with goodFrames := 0 } : Axis).homeSlot false a.actual)
  if a.linkPending.isSome then
    let s2 := (s1.axisFault i).updAxis i (fun a => { a with enable := false, linkPending := none, linkLost := true })
    (s2.driveEvent i cause clsLasting).detect (driveDetect i .reported)
  else if a.linkLost then s1
  else ((s1.updAxis i (fun a => { a with linkPending := some fault })).driveEvent i cause clsPending).detect (driveDetect i .pending)

def execDriveSlotFault (i : Fin 8) (cause : SlotFault) (t : Nat) (s : State) : Host.Outcome State Fault Refusal :=
  let s1 := s.at t
  .next (if s1.slotOpen i then (s1.judge i).slotFault i cause else s1)

/-- What is wrong with a STATUS frame (R399, R400). -/
def State.statusFault (s : State) (i : Fin 8) (f : List Byte) : Option SlotFault :=
  if f.length ≠ 12 ∨ fld f 0 1 ≠ 0x5A then some .missing
  else if fld f 8 4 ≠ (crc32c 0 ((f.drop 1).take 7)).toNat then some .crc
  else if fld f 1 1 % 4 ≠ i.val % 4 then some .slot
  else if fld f 2 1 ≠ (s.mot.tick + 255) % 256 then some .tickEcho
  else none

/-- The 64-bit value with these low 32 bits nearest to `near`. -/
def extend32 (near : Int) (low : Nat) : Int := near + signed 32 (wrapInt 32 ((low : Int) - near))

/-- A good frame's contents. -/
def State.driveSays (s : State) (i : Fin 8) (d : Byte) (low : Nat) : State :=
  s.updAxis i (fun a =>
    let actual := extend32 ((q16 a.pos - a.offset).fdiv 65536) low
    ({ a with dstatus := d &&& 0x0F, actual := actual, goodFrames := a.goodFrames + 1
              linkLost := a.linkLost && decide (a.goodFrames = 0) } : Axis).homeSlot (d.getLsbD 2) actual)

/-- FAULT clears after a reset, once the drive reports no fault and a lasting link fault has passed (R396, R402). -/
def State.faultClears (s : State) (i : Fin 8) : State :=
  let a := s.axis i
  if a.state = .fault ∧ a.faultReset = true ∧ a.dstatus.getLsbD 1 = false ∧ a.linkLost = false then
    let s1 := s.updAxis i (fun a => { a with state := .disabled, faultReset := false })
    if a.enable then s1 else s1.motDone i doneDONE
  else s

/-- Enable completes once the drive reports `enabled`. -/
def State.enableDone (s : State) (i : Fin 8) : State :=
  let a := s.axis i
  if a.state = .disabled ∧ a.enable = true ∧ a.kind = some .enable ∧ a.dstatus.getLsbD 0 = true then
    (s.updAxis i (fun a => { a with state := .idle })).motDone i doneDONE
  else s

def State.goodFrame (s : State) (i : Fin 8) (f : List Byte) : State :=
  let a := s.axis i
  let s1 := match a.linkPending with
    | some c =>
      ((s.updAxis i (fun a => { a with linkPending := none, linkTransients := satAdd a.linkTransients 1 })).driveEvent i (SlotFaultCode c)
        clsTransient).detect (driveDetect i .transient)
    | none => s
  let s2 := s1.driveSays i (BitVec.ofNat 8 (fld f 3 1)) (fld f 4 4)
  if bit (fld f 3 1) 1 ∧ a.state ≠ .fault then (s2.axisFault i).driveEvent i 4 clsLasting
  else (s2.faultClears i).enableDone i

def execStatusFrame (i : Fin 8) (f : List Byte) (t : Nat) (s : State) : Host.Outcome State Fault Refusal :=
  let s1 := s.at t
  .next (if s1.slotOpen i then
    (match s1.statusFault i f with
     | some c => (s1.judge i).slotFault i c
     | none => (s1.judge i).goodFrame i f) else s1)

end Sys2Proof.Machine
end

