-- ==== Sys2Proof/Machine/Queues.lean ====
section
/-! DEFINITION. Queues (19): Q_CTRL, Q_HEAD, Q_STATUS (R489, R490), the posting of events (R492, R493) and the coalescing timer
(R476). -/

namespace Sys2Proof.Machine

def execQCtrlEnable (n : Fin 48) (v : BitVec 32) (s : State) : Host.Outcome State Fault Refusal := .next (s.bar0Write (0x20000C + 64 * n.val) 4 v.toNat)

def execQHeadWrite (n : Fin 48) (v : BitVec 32) (s : State) : Host.Outcome State Fault Refusal := .next (s.bar0Write (0x200014 + 64 * n.val) 4 v.toNat)

def execQStatusClear (n : Fin 48) (v : BitVec 32) (s : State) : Host.Outcome State Fault Refusal :=
  .next (s.bar0Write (0x200018 + 64 * n.val) 4 v.toNat)

/-- The oldest event goes to its queue. -/
def execEventPost (t : Nat) (s : State) : Host.Outcome State Fault Refusal :=
  let s1 := s.at t
  match s1.mbx.outbox with
  | [] => .next s1
  | e :: r =>
    let s2 : State := { s1 with mbx := { s1.mbx with outbox := r } }
    .next (s2.routeEvent e)

def execEvqLost (n : Fin 16) (t : Nat) (s : State) : Host.Outcome State Fault Refusal := .next ((s.at t).drainQue n)

/-- `coal_us` after the first unsignalled record (R476). -/
def execQueueInterruptTimer (n : Fin 48) (t : Nat) (s : State) : Host.Outcome State Fault Refusal :=
  let s1 := s.at t
  let x := s1.que n
  .next (if x.enable && x.irqEn && decide (0 < x.coalUs.toNat ∧ 0 < x.unsignalled ∧ x.since + us x.coalUs.toNat ≤ s1.aon) then s1.signalQue n else s1)

end Sys2Proof.Machine
end

