-- ==== Sys2Proof/Machine/RunAhead.lean ====
section
/-! DEFINITION. Run-ahead (07): RUNAHEAD_CONFIG (R174), RUNAHEAD_STATUS (R175), the line an engine finishes (09 R204), the
comparison of checkpoint parts (R162), the squash (R164 to R168, R173) and its reports (R171, R172). -/

namespace Sys2Proof.Machine

/-! ### RUNAHEAD_CONFIG (R174) -/

def cmdRunaheadConfig : Cmd :=
  { opcode := 0x0224, okLen := fun n => n == 8
    run := fun q s =>
      let p := q.payload
      let r := fld p 0 1
      let w := fld p 2 2
      let set_ (x : SpcRow) : SpcRow := { x with window := w }
      checks s [((r != 0xFF && decide (15 < r)) || decide (w < 256 ∨ 4096 < w ∨ w % 64 ≠ 0) || !zeros p 1 1 || !zeros p 4 4, .badParam),
                (s.armed, .badState)] fun _ =>
        { state := if r = 0xFF then { s with rows := s.rows.map set_ } else s.updRow (Fin.ofNat 16 r) set_ } }

def execRunaheadConfig (q : Req) (s : State) : Host.Outcome State Fault Refusal := .next (serve cmdRunaheadConfig q s)

/-! ### RUNAHEAD_STATUS (R175) -/

/-- 0 IDLE, 1 FILLING, 2 RUNNING, 3 REPLAY, 4 DRY, 5 FAULTED. -/
def State.rowStateCode (s : State) (r : Fin 16) : Nat :=
  let x := s.rows[r]
  let next := s.lsd.rows[r].next
  if !s.expanding || !s.assigned r then 0
  else if x.faultAt.isSome then 5
  else if x.replay.isSome then 3
  else if !x.ready then 1
  else if 0 < next ∧ x.agreed < next + 16 ∧ s.hasLine r x.agreed then 4
  else 2

def State.rowEntry (s : State) (r : Fin 16) : List Byte :=
  let x := s.rows[r]
  let next := s.lsd.rows[r].next
  le 2 (if s.armed then min 4096 (x.agreed - next) else 0) ++
  le 1 (min 32 (x.buffer.filter (fun b => decide (next ≤ b.data.line))).length) ++ le 1 (s.rowStateCode r) ++
  le 4 x.squashes.toNat ++ le 4 x.lateLines.toNat

def cmdRunaheadStatus : Cmd :=
  { opcode := 0x0225, okLen := fun n => n == 0
    run := fun _ s => { state := s, payload := le 8 s.nowNs ++ zeroBytes 8 ++ (List.finRange 16).flatMap s.rowEntry } }

def execRunaheadStatus (q : Req) (s : State) : Host.Outcome State Fault Refusal := .next (serve cmdRunaheadStatus q s)

/-! ### A finished line (09 R204) -/

/-- One engine of a pipeline finishes its half of the row's next line. It does not while a band of the line is still to be decoded
(10 R245, R247). -/
def State.engineDone (s : State) (p : Pipe) (h : Fin 32) (u : Upset) : State :=
  let r := rowOf h
  let n := (s.rows[r]).run p
  if s.works p r && !n.halfDone h && s.fed p r then
    let g := s.lineGen r n.line
    s.lineDone p h u (expandLine s.hamper s.layout s.job.seq g r n.line n.walk n.carry n.hist) g
  else s

def execEngineLineDone (p : Pipe) (h : Fin 32) (u : Upset) (t : Nat) (s : State) : Host.Outcome State Fault Refusal :=
  .next ((s.at t).engineDone p h u)

/-! ### Checkpoint parts (R162) -/

/-- SPC_CKPT_FAULT: part 0 walker, 1 carry, 2 history, 3 record CRC, 4 noise check; action 0 MARKED_BAD, 1 PASSED_OVER, 2 R173. -/
def State.ckptEvent (s : State) (r : Fin 16) (line part action : Nat) : State :=
  s.post 0x0252 clsJob [(1, r.val), (8, line), (1, part), (1, action)]

/-- The unit that compares a row's part CRCs (09 R206). -/
def ckptUnit (r : Fin 16) : Fin 38 := ⟨34 + r.val / 8, by omega⟩

/-- A checkpoint whose parts both pipelines have formed and that has not been compared; one above a squash that is asked for
is not compared, as the squash discards it. -/
def SpcRow.comparable (x : SpcRow) : Option Ckpt :=
  let limit (c : Ckpt) : Bool := match x.squash with | some q => decide (c.line ≤ q.line) | none => true
  let l := x.ckpts.filter (fun c => c.primDone && c.shadow.isSome && !c.valid && !c.bad && limit c)
  l.foldl (fun (m : Option Ckpt) c => match m with
    | some y => if c.line < y.line then some c else some y
    | none => some c) none

def State.setCkpt (s : State) (r : Fin 16) (c : Ckpt) : State := s.updRow r (fun x => x.putCkpt c)

/-- Planted faults of the shadow carry CRC at a checkpoint (09 R224). -/
def State.ckptPlanted (s : State) (r : Fin 16) (line : Nat) : List Injection :=
  s.planted 7 .shadow (half0 r) line ++ s.planted 7 .shadow (half1 r) line

/-- The part SPC_CKPT_FAULT names: the first that disagrees in the record's order walker, carry, history; one event is posted however
many disagree. DESIGN CHOICE (log 62): the spec names one part and says nothing of several. -/
def badPart (mine shadow : PartCrcs) : Nat := if mine.walker ≠ shadow.walker then 0 else if mine.carry ≠ shadow.carry then 1 else 2

/-- SPC compares the parts of the lowest checkpoint that is complete; CVU34 or CVU35 makes the comparison. A mismatch that waits for
its opinion comes first. -/
def State.ckptCompare (s : State) (r : Fin 16) (bad : CvuUpset) : State :=
  if !s.armed then s
  else match (s.rows[r]).waiting, (s.rows[r]).comparable with
  | some m, _ => s.lateOpinion r m bad
  | none, none => s
  | none, some c =>
    let inj := s.ckptPlanted r c.line
    let a := s.cvuSelf (ckptUnit r) r c.line bad.unit false
    if !a.2 then a.1
    else
      let stored := c.shadow.getD c.parts
      let seen := { stored with carry := inj.foldl (fun v i => v ^^^ i.mask.zeroExtend 32) stored.carry }
      let s2 := if inj.isEmpty then a.1 else (a.1.useInjection 7 (half0 r) c.line).useInjection 7 (half1 r) c.line
      if seen = c.parts then (s2.setCkpt r { c with valid := true }).misTransient r c.line true
      else
        let s3 := (s2.setCkpt r { c with bad := true, shadow := some seen, injected := !inj.isEmpty }).ckptEvent r c.line (badPart c.parts seen) 0
        s3.mismatchAt r (half0 r) c.line .checkpoint 0 (!inj.isEmpty) bad

def execCheckpointCompare (r : Fin 16) (bad : CvuUpset) (t : Nat) (s : State) : Host.Outcome State Fault Refusal :=
  .next ((s.at t).ckptCompare r bad)

/-! ### Squash (R164, R165) -/

/-- Why a checkpoint fails at a restore: the record CRC or the noise check (R164, 05 R124). -/
def State.ckptFault (s : State) (r : Fin 16) (c : Ckpt) : Option Nat :=
  let plane := (s.layout.rows[r].plane).getD 0
  if c.poisoned || s.readFails (ckptSlot r c.line) 0x10000 || c.recordCrc != recordCrc c.walk c.carry c.noise c.hist then some 3
  else if c.noise ≠ noiseState ((s.layout.planes[plane].settings plane.val).seed) c.line r then some 4
  else none

/-- Insertion by falling line. -/
def ckptInsert (c : Ckpt) : List Ckpt → List Ckpt
  | [] => [c]
  | d :: r => if d.line < c.line then c :: d :: r else d :: ckptInsert c r

/-- The candidates of a restore at Q, highest first. -/
def SpcRow.candidates (x : SpcRow) (q : Nat) : List Ckpt :=
  (x.ckpts.filter (fun c => decide (c.line ≤ q) && c.valid && !c.bad)).foldl (fun l c => ckptInsert c l) []

/-- The candidates that fail above the first good one, with the part; and the good one. -/
def State.pickCkpt (s : State) (r : Fin 16) : List Ckpt → List (Ckpt × Nat) × Option Ckpt
  | [] => ([], none)
  | c :: l => match s.ckptFault r c with
    | some part => let x := s.pickCkpt r l; ((c, part) :: x.1, x.2)
    | none => ([], some c)

/-- A checkpoint is passed over: marked bad and reported. -/
def State.passOver (r : Fin 16) (o : FaultOutcome) (s : State) (f : Ckpt × Nat) : State :=
  (((s.poisonRead 3 (ckptSlot r f.1.line) 0x10000 true).setCkpt r { f.1 with bad := true }).ckptEvent r f.1.line f.2 1).detect
    { fclass := fcCheckpoint, source := srcSpc, row := BitVec.ofNat 8 r.val, rows := 1#16 <<< r.val, first := f.1.line,
      last := f.1.line, injected := f.1.injected, outcome := o }

/-- No checkpoint is left for line Q (R173). DESIGN CHOICE (log 62): SPC_CKPT_FAULT then carries Q as its line and part 3 (record
CRC); the spec gives neither where no checkpoint exists. -/
def State.noCkpt (s : State) (r : Fin 16) (q : Nat) : State :=
  ((s.ckptEvent r q 3 2).rowFault r q).detect
    { fclass := fcExpansion, source := srcSpc, row := BitVec.ofNat 8 r.val, rows := 1#16 <<< r.val, first := q, last := q,
      outcome := .detected, stops := true }

/-- A checkpoint above the one restored: it stands as it is until the replay rewrites it, and what was not compared is not
compared any more (R161, R164). -/
def Ckpt.interrupted (c : Ckpt) : Ckpt :=
  if c.valid || c.bad then (if c.primDone then c else { c with primDone := true, shadow := none }) else { c with primDone := false, shadow := none }

/-- A CVU expects line `c` next; sets of lines below it, which both pipelines have finished, stay and are compared first, so that
a retry that awaits its comparison gets it (01 R18, 09 R209, log 61). -/
def Cvu.restart (u : Cvu) (c : Nat) : Cvu :=
  let keep (l : List LineSet) := l.filter (fun x => decide (x.line < c))
  { next := min u.next c, prims := keep u.prims, shads := keep u.shads, matched := keep u.matched }

/-- Both pipelines of a row restart from a checkpoint, and its CVUs expect that line (R165 steps 4 to 7, 09 R209); a pair joins
the retry of a mismatch (09 R215). -/
def State.restart (s : State) (r : Fin 16) (c : Ckpt) (q : Nat) : State :=
  let run : PipeRun :=
    { line := c.line, doneLo := false, doneHi := false, since := s.aon, walk := c.walk, carry := c.carry, hist := c.hist, spoilt := [] }
  let s1 := s.updRow r (fun x => { x with
    prim := run, shad := run, replay := some { q := q, c := c.line, late := none }
    ckpts := x.ckpts.map (fun d => if c.line < d.line then d.interrupted else d)
    mismatch := x.mismatch.map (fun m =>
      { m with retrying := true, waiting := m.waiting && decide (m.line < c.line), lo := false, hi := false }) })
  let s2 := ((s1.dropBands r).updCvu (half0 r) (·.restart c.line)).updCvu (half1 r) (·.restart c.line)
  if s2.rows[r].mismatch.isEmpty then s2 else s2.joinPair r run

/-- Lines at or beyond Q are discarded (R165 steps 3 and 4). -/
def SpcRow.discard (x : SpcRow) (q : Nat) : SpcRow :=
  { x with agreed := min x.agreed q, ring := x.ring.filter (fun a => decide (a.line < q)), ckpts := x.ckpts.filter (fun c => decide (c.line ≤ q)) }

/-- Nothing at or beyond Q has been expanded or is stored: expansion simply uses the new generation from Q on (R165 step 1); in a
running replay only a Q at or above its own can be so (R168). -/
def SpcRow.untouched (x : SpcRow) (q : Nat) : Bool :=
  decide (x.frontier ≤ q) && (match x.replay with | some p => decide (p.q ≤ q) | none => true)

/-- A squash of a row at Q; a mismatch is always replayed (R166). -/
def State.squashRow (s : State) (r : Fin 16) (q : SquashReq) : State :=
  let x := s.rows[r]
  let s1 := s.updRow r (fun x => { x with squash := none, squashes := satAdd x.squashes 1 })
  if x.untouched q.line = true ∧ q.why = .commit then s1
  else
    let s2 := (s1.replayLate r).updRow r (fun x => x.discard q.line)
    let pick := s2.pickCkpt r (s2.rows[r].candidates q.line)
    match pick.2 with
    | some c => (pick.1.foldl (State.passOver r .transient) s2).restart r c q.line
    | none => ((pick.1.foldl (State.passOver r .detected) s2).noCkpt r q.line).updRow r (fun x => { x with replay := none })

/-- SPC applies the row's squash. -/
def State.applySquash (s : State) (r : Fin 16) : State :=
  match s.rows[r].squash with
  | some q => if s.armed then s.squashRow r q else s
  | none => s

def execSquash (r : Fin 16) (t : Nat) (s : State) : Host.Outcome State Fault Refusal := .next ((s.at t).applySquash r)

/-! ### Reports (R171, R172) -/

/-- A moment of R171 has come: a later line of the row is agreed before its pour point, or the job has stopped. -/
def State.lateDue (s : State) (r : Fin 16) : Bool :=
  let x := s.rows[r]
  match x.replay.bind (·.late) with
  | some l => !s.armed || decide (l.2.1 + 1 < x.agreed ∧ s.lsd.rows[r].next + 16 < x.agreed)
  | none => false

def execSpcReplayLate (r : Fin 16) (t : Nat) (s : State) : Host.Outcome State Fault Refusal :=
  let s1 := s.at t
  .next (if s1.lateDue r then s1.replayLate r else s1)

def execSpcDry (r : Fin 16) (t : Nat) (s : State) : Host.Outcome State Fault Refusal := .next ((s.at t).dryPost r)

end Sys2Proof.Machine
end

