-- ==== Sys2Proof/Machine/Strobe.lean ====
section
/-! DEFINITION. Line starts and fire strobes: LINE_START (02 R41), STROBE_CONFIG (14 R348), FIRE_INHIBIT (R336), the pulse
(R331) and its readback (R334, R335). -/

namespace Sys2Proof.Machine

/-- A row's next line start is produced once its look-ahead position reaches it (02 R41). -/
def execLineStart (r : Fin 16) (t : Nat) (s : State) : Host.Outcome State Fault Refusal :=
  let s1 := (s.at t).webSettle
  .next (if s1.rowRuns r && s1.reaches r then s1.startLine r false else s1.wasteTrack)

/-! ### STROBE_CONFIG (R348) -/

def cmdStrobeConfig : Cmd :=
  { opcode := 0x0500, okLen := fun n => n == 8
    run := fun q s =>
      let p := q.payload
      let r := fld p 0 1
      let w := fld p 2 2
      let set_ (x : SpcRow) : SpcRow := { x with invert := bit (fld p 1 1) 0, widthH := w }
      checks s [((r != 0xFF && decide (15 < r)) || decide (1 < fld p 1 1) || decide (w < 40 ∨ 2000 < w) || !zeros p 4 4, .badParam),
                (s.armed, .badState)] fun _ =>
        { state := if r = 0xFF then { s with rows := s.rows.map set_ } else s.updRow (Fin.ofNat 16 r) set_ } }

def execStrobeConfig (q : Req) (s : State) : Host.Outcome State Fault Refusal := .next (serve cmdStrobeConfig q s)

/-! ### FIRE_INHIBIT (R336) -/

/-- A level is qualified once the input has been stable for 200 ns. -/
def execFireInhibit (level : Bool) (edge t : Nat) (s : State) : Host.Outcome State Fault Refusal :=
  let s1 := s.at t
  .next (if edge + ns 200 ≤ s1.aon then { s1 with job := { s1.job with fireInhibit := level } } else s1)

/-- What an idle strobe drives on its pair: true for P above N; none while PD8 is unpowered (R330). An inverted row swaps the legs (R328). -/
def State.idleStrobe (s : State) (r : Fin 16) : Option Bool := if s.poweredOn 8 then some s.rows[r].invert else none

/-- Present time in half-nanoseconds. -/
def State.halfNs (s : State) : Nat := s.aon / 2 ^ 31

/-- The row's oldest pulse still to come. -/
def SpcRow.nextPulse (x : SpcRow) : Option Pulse := x.pulses.find? (fun p => !p.emitted)

/-- A pulse is withdrawn: it stops counting (02 R47) and its line is INHIBITED. -/
def State.cancelPulse (s : State) (r : Fin 16) (p : Pulse) (cause : Byte) : State :=
  let s1 := s.updRow r (fun x => { x with pulses := x.pulses.filter (fun q => q.emitted || q.line ≠ p.line) })
  let s2 := s1.updLsd r (fun x => { x with counting := x.counting.erase p.ts })
  ((s2.recapture r p.line).wasteMark r p.line p.line cause).advanceBuffer r p.line

/-- At t_s − 50 ns (R336). -/
def execInhibitTest (r : Fin 16) (t : Nat) (s : State) : Host.Outcome State Fault Refusal :=
  let s1 := s.at t
  match s1.rows[r].nextPulse with
  | some p => .next (if s1.job.fireInhibit && decide (p.ts ≤ s1.halfNs + 100) then s1.cancelPulse r p 0x0C else s1)
  | none => .next s1

/-! ### The pulse (R331) -/

def State.firePulse (s : State) (r : Fin 16) (p : Pulse) : State :=
  let x := s.rows[r]
  let s1 := s.emit (.strobe r p.line p.ts x.widthH x.invert)
  let s2 := s1.countUsage r (((x.line? p.line).map (fun b => b.data.bytes)).getD [])
  let s3 := s2.updRow r (fun x => { x with
    pulses := x.pulses.map (fun q => if q.line = p.line then { q with emitted := true } else q)
    lastFire := x.lastFire.map (fun f => if f.1 = p.line then (f.1, true) else f), lastFired := some p.line })
  s3.advanceBuffer r p.line

/-- FSQ emits the pulse at t_s; once strobes are lasting faulty the row emits none (R335), and none after a loss of power (01 R11). -/
def execFireStrobe (r : Fin 16) (t : Nat) (s : State) : Host.Outcome State Fault Refusal :=
  let s1 := s.at t
  match s1.rows[r].nextPulse with
  | some p =>
    .next (if s1.halfNs < p.ts then s1
      else if s1.fsv.power then s1.cancelPulse r p 0x10
      else if s1.rows[r].strobeOff then s1.cancelPulse r p 0x0B
      else s1.firePulse r p)
  | none => .next s1

/-! ### Readback (R334, R335) -/

/-- FSQ_STROBE: kind 0 MISSING, 1 TIMING, 2 EXTRA; offset and width in half-nanoseconds. -/
def State.strobeEvent (s : State) (r : Fin 16) (line kind cls : Nat) (offset : Int) (width : Nat) : State :=
  s.post 0x02C0 clsJob [(1, r.val), (8, line), (1, kind), (1, cls), (8, wrapInt 64 offset), (8, width)]

def strobeDetect (r : Fin 16) (line : Nat) (o : FaultOutcome) : Detect :=
  { fclass := fcStrobe, source := srcFsq, row := BitVec.ofNat 8 r.val, rows := 1#16 <<< r.val, first := line, last := line,
    outcome := o, stops := o.lasting }

/-- A strobe fault: pending, or lasting at the scheduled strobe that was its retry. -/
def State.strobeFault (s : State) (r : Fin 16) (line kind : Nat) (mark : Option Nat) (offset : Int) (width : Nat) : State :=
  let s1 := match mark with | some n => s.wasteMark r n n 0x0B | none => s
  match s1.rows[r].strobePending with
  | some _ =>
    if kind = 2 then (s1.strobeEvent r line kind clsPending offset width).detect (strobeDetect r line .pending)
    else
      let s2 := s1.updRow r (fun x => { x with strobeOff := true, strobePending := none })
      (s2.strobeEvent r line kind clsLasting offset width).detect
        { strobeDetect r line .detected with first := s2.lsd.rows[r].next }
  | none =>
    let s2 := s1.updRow r (fun x => { x with strobePending := some (line, BitVec.ofNat 8 kind) })
    (s2.strobeEvent r line kind clsPending offset width).detect (strobeDetect r line .pending)

/-- A clean strobe ends a pending fault as transient. -/
def State.strobeClean (s : State) (r : Fin 16) (line : Nat) : State :=
  match s.rows[r].strobePending with
  | some (n, kind) =>
    ((s.updRow r (fun x => { x with strobePending := none })).strobeEvent r n kind.toNat clsTransient 0 0).detect (strobeDetect r line .transient)
  | none => s

/-- An edge outside any scheduled pulse: it may have fired the line announced last, before that line's own strobe. -/
def State.strobeExtra (s : State) (r : Fin 16) (offset : Int) (width : Nat) : State :=
  match s.rows[r].lastFire with
  | some (n, false) => s.strobeFault r n 2 (some n) offset width
  | some (n, true) => s.strobeFault r n 2 none offset width
  | none => s.strobeFault r 0 2 none offset width

/-- The pulse has been judged. -/
def State.judged (s : State) (r : Fin 16) (p : Pulse) : State :=
  s.updRow r (fun x => { x with pulses := x.pulses.filter (fun q => !(q.emitted && q.line == p.line)) })

/-- A pulse at the pad lies in the scheduled pulse of a line: it meets the time from t_s − 2 ns to the end of the pulse (R334). -/
def Pulse.meets (p : Pulse) (widthH rise width : Nat) : Bool := decide (rise ≤ p.ts + widthH ∧ p.ts ≤ rise + width + 4)

/-- What the receiver saw, against the schedule: a pulse that meets none of the row's pulses still to be judged is EXTRA at its edge;
one that meets a scheduled pulse is clean or TIMING; a scheduled pulse that none has met 10 ns after its end is MISSING. -/
def State.readback (s : State) (r : Fin 16) (e : PadEdge) : State :=
  let x := s.rows[r]
  match e with
  | .pulse rise width =>
    match x.pulses.find? (fun p => p.emitted && p.meets x.widthH rise width) with
    | some p =>
      let off : Int := (rise : Int) - p.ts
      let dw : Int := (width : Int) - x.widthH
      let s1 := s.judged r p
      if |off| ≤ 4 ∧ |dw| ≤ 4 then s1.strobeClean r p.line else s1.strobeFault r p.line 1 (some p.line) off width
    | none => s.strobeExtra r 0 width
  | .absent =>
    match x.pulses.find? (fun p => p.emitted && decide (p.ts + x.widthH + 20 ≤ s.halfNs)) with
    | some p => (s.judged r p).strobeFault r p.line 0 (some p.line) 0 0
    | none => s

def execStrobeReadback (r : Fin 16) (e : PadEdge) (t : Nat) (s : State) : Host.Outcome State Fault Refusal :=
  .next ((s.at t).readback r e)

end Sys2Proof.Machine
end

