-- ==== Sys2Proof/Machine/System.lean ====
section
/-! DEFINITION. The system commands: NOP, MODULE_INFO, EVENT_ROUTE and MODULE_RESET (17 R432 to R435). -/

namespace Sys2Proof.Machine

/-! ### NOP (R432) -/

def cmdNop : Cmd := { opcode := 0x0000, okLen := fun n => n ≤ 240, run := fun q s => { state := s, payload := q.payload } }

def execNop (q : Req) (s : State) : Host.Outcome State Fault Refusal := .next (serve cmdNop q s)

/-! ### MODULE_INFO (R433) -/

/-- ASCII "PLN-4826". -/
def partName : List Byte := [0x50, 0x4C, 0x4E, 0x2D, 0x34, 0x38, 0x32, 0x36]

def State.moduleInfo (s : State) (m : Fin 8) : List Byte :=
  partName ++ le 8 Config.serial.toNat ++ le 2 Config.hwRev.toNat ++ [Config.fwMajor, Config.fwMinor] ++
  le 2 Config.fwPatch.toNat ++ le 1 s.boot.running.val ++ le 1 m.val ++ [s.ownAddress] ++
  le 1 (if s.chain.address.isSome then s.chain.count else 0) ++ zeroBytes 2 ++ le 4 s.boot.flash.resets.toNat ++
  le 8 s.boot.bootTime.toNat ++ le 8 s.nowNs ++ zeroBytes 16

def cmdModuleInfo : Cmd :=
  { opcode := 0x0001, okLen := fun n => n == 0, run := fun q s => { state := s, payload := s.moduleInfo q.mb } }

def execModuleInfo (q : Req) (s : State) : Host.Outcome State Fault Refusal := .next (serve cmdModuleInfo q s)

/-! ### EVENT_ROUTE (R434) -/

def Mbx.routeBytes (m : Mbx) : List Byte := m.route.toList ++ m.dropped.toList.flatMap (fun c => le 4 c.toNat)

def cmdEventRoute : Cmd :=
  { opcode := 0x0002, okLen := fun n => n == 8
    run := fun q s =>
      let p := q.payload
      let cls := fld p 0 1
      let eq := fld p 1 1
      checks s [((decide (3 < cls) && cls != 0xFF) || (decide (15 < eq) && eq != 0xFF) || !zeros p 2 6, .badParam)] fun _ =>
        let s1 := if cls = 0xFF then s else { s with mbx := { s.mbx with route := s.mbx.route.set (Fin.ofNat 4 cls) (BitVec.ofNat 8 eq) } }
        { state := s1, payload := s1.mbx.routeBytes } }

def execEventRoute (q : Req) (s : State) : Host.Outcome State Fault Refusal := .next (serve cmdEventRoute q s)

/-! ### MODULE_RESET (R435) -/

def cmdModuleReset : Cmd :=
  { opcode := 0x0003, okLen := fun n => n == 8
    run := fun q s =>
      let p := q.payload
      checks s [(fld p 0 2 != 0xA55A || decide (1 < fld p 2 1) || !zeros p 3 5, .badParam),
                (s.armed && !bit (fld p 2 1) 0, .badState)] fun _ =>
        { state := { s with boot := { s.boot with resetAt := some (s.aon + ms 1) } } } }

def execModuleReset (q : Req) (s : State) : Host.Outcome State Fault Refusal := .next (serve cmdModuleReset q s)

end Sys2Proof.Machine
end

