-- ==== Sys2Proof/Machine/Txn.lean ====
section
/-! DEFINITION. Correction transactions (08): the commands TXN_OPEN to TXN_STATUS (R196 to R201) and the messages and
timeouts of a chain commit (R193 to R195). -/

namespace Sys2Proof.Machine

/-- Groups that count toward the limit of 8 (R180). -/
def Group.active (g : Group) : Bool := g.state != .aborted

def State.activeGroups (s : State) : Nat := (s.txn.groups.filter Group.active).length

def groupField (q : Req) : BitVec 32 := BitVec.ofNat 32 (fld q.payload 0 4)

/-! ### TXN_OPEN, TXN_ADD -/

def cmdTxnOpen : Cmd :=
  { opcode := 0x0300, okLen := fun n => n == 8
    run := fun q s =>
      let id := groupField q
      let scope := fld q.payload 4 1
      checks s [(id == 0 || decide (1 < scope) || !zeros q.payload 5 3, .badParam),
                (s.txn.groups.any (fun g => g.id = id && g.active), .badState), (decide (8 ≤ s.activeGroups), .noResource)] fun _ =>
        let g : Group := { id := id, chain := scope == 1, state := .isOpen, members := [], calBase := [], line := 0, coordinator := 0,
                           votedAt := 0, queried := false, answered := 0 }
        { state := { s with txn := { s.txn with groups := s.txn.groups.filter (fun x => x.id ≠ id) ++ [g] } } } }

def execTxnOpen (q : Req) (s : State) : Host.Outcome State Fault Refusal := .next (serve cmdTxnOpen q s)

/-- A member's own body is checked last: one that fails aborts its group (R181). -/
def State.addMember (s : State) (g : Group) (ty length : Nat) (body : List Byte) : Ans :=
  if 1024 ≤ g.members.length ∨ 8 * 2 ^ 20 < s.stagedBytes + length then .fail s .noResource
  else match Member.parse ty body with
    | none => .fail (s.updGroup g.id Group.abort) .badParam
    | some m => { state := s.updGroup g.id (fun x => { x with members := x.members ++ [(m, length)] }), detail := g.members.length }

def cmdTxnAdd : Cmd :=
  { opcode := 0x0301, okLen := fun n => decide (16 ≤ n)
    run := fun q s =>
      let p := q.payload
      let flags := fld p 5 1
      let byRef := bit flags 0
      let length := fld p 8 4
      let src := fld p 16 8
      let found := s.group? (groupField q)
      let state := found.map (·.state)
      checks s [(p.length != (if byRef then 24 else 16 + length), .badLength),
                (decide (1 < flags ∨ length < 1 ∨ (if byRef then 1048584 else 224) < length) || !zeros p 6 2 || !zeros p 12 4, .badParam),
                (byRef && !inZone src length, .windowFault), (found.isNone, .badParam), (state == some .aborted, .txnAborted),
                (state != some .isOpen, .badState)] fun _ =>
        match found with
        | none => .fail s .badParam
        | some g => s.addMember g (fld p 4 1) length (if byRef then s.memRead src length else p.drop 16) }

def execTxnAdd (q : Req) (s : State) : Host.Outcome State Fault Refusal := .next (serve cmdTxnAdd q s)

/-! ### TXN_SEAL, TXN_DISCARD, TXN_STATUS -/

/-- The checks of a command that names a group (R632, R181). -/
def State.namedGroup (s : State) (q : Req) (bad : Bool) (k : Group → Ans) : Ans :=
  if bad then .fail s .badParam
  else match s.group? (groupField q) with
    | none => .fail s .badParam
    | some g => if g.state == .aborted then .fail s .txnAborted else k g

/-- What a seal answers. -/
def sealAns (r : State × Option (Status × Nat)) (k : State → Ans) : Ans :=
  match r.2 with
  | some e => .fail r.1 e.1 (e.2 % 65536)
  | none => k r.1

def cmdTxnSeal : Cmd :=
  { opcode := 0x0302, okLen := fun n => n == 8
    run := fun q s => s.namedGroup q (!zeros q.payload 4 4) fun g =>
      if g.state == .prepared then .fail s .badState else sealAns (s.seal g) (fun s1 => { state := s1 }) }

def execTxnSeal (q : Req) (s : State) : Host.Outcome State Fault Refusal := .next (serve cmdTxnSeal q s)

/-- A group goes; the names its bindings held go with it (11 R262, R263). -/
def State.dropGroup (s : State) (g : Group) : State :=
  let s1 : State := { s with txn := { s.txn with
    groups := s.txn.groups.filter (fun x => x.id ≠ g.id), built := if g.holds then none else s.txn.built } }
  s.autoFree s1

def cmdTxnDiscard : Cmd :=
  { opcode := 0x0304, okLen := fun n => n == 8
    run := fun q s =>
      match s.group? (groupField q) with
      | none => .fail s .badParam
      | some g => checks s [(!zeros q.payload 4 4, .badParam), (g.state == .prepared, .badState)] fun _ => { state := s.dropGroup g } }

def execTxnDiscard (q : Req) (s : State) : Host.Outcome State Fault Refusal := .next (serve cmdTxnDiscard q s)

/-- A row that keeps the older generation from retiring (R191). -/
def State.pendingRow (s : State) (r : Fin 16) : Bool :=
  s.txn.older.isSome && (match s.txn.eff[r] with
    | some e => !decide (e < s.lsd.rows[r].next) || s.rows[r].ckpts.any (fun c => decide (c.line < e))
    | none => false)

def State.groupIn (s : State) (st : GroupState) : Nat := ((s.txn.groups.find? (fun g => g.state == st)).map (·.id.toNat)).getD 0

def State.txnStatusBytes (s : State) : List Byte :=
  let old := match s.txn.older with | some g => g.number | none => s.txn.newest.number
  le 4 s.txn.newest.number.toNat ++ le 4 old.toNat ++ le 1 (if s.txn.older.isSome then 2 else 1) ++ le 1 s.activeGroups ++
  le 2 (rowMask s.pendingRow) ++ le 4 (s.groupIn .sealed) ++ le 4 (s.groupIn .prepared) ++ le 4 s.stagedBytes ++ le 8 s.nowNs

def cmdTxnStatus : Cmd := { opcode := 0x0305, okLen := fun n => n == 0, run := fun _ s => { state := s, payload := s.txnStatusBytes } }

def execTxnStatus (q : Req) (s : State) : Host.Outcome State Fault Refusal := .next (serve cmdTxnStatus q s)

/-! ### A chain commit (R193, R194) -/

/-- This module's address as a message field; a module without one counts as the head. -/
def State.addressOr0 (s : State) : Fin 16 := s.chain.address.getD 0

def noVote (a : Fin 16) (row : Nat) (st : Status) (member : Nat) : NoVote :=
  { address := a, row := BitVec.ofNat 8 row, status := st.code, member := BitVec.ofNat 16 member }

/-- The vote on a sealed group: the lead of 256 lines, and the bindings against L. DESIGN CHOICE (log 70): the spec names a NO
vote's status and member for a binding only; a short lead votes LEAD_TOO_SHORT with its row. -/
def State.voteSealed (s : State) (g : Group) (n : Gen) (line : Nat) : Option NoVote :=
  let a := s.addressOr0
  if s.armed then
    match s.shortRow (s.affected g n) line 256 with
    | some (r, _) => some (noVote a r.val .leadTooShort 0xFFFF)
    | none => (s.earlyBinding g line).map (fun i => noVote a 0 .badParam i)
  else none

/-- The module's vote; none is YES. A group of scope LOCAL is no group of the chain's. DESIGN CHOICE (log 70): a group that is not
SEALED, or that this module coordinates itself, votes NO with BAD_STATE, another one PREPARED with GENERATION_BUSY; row 0 stands
where no row applies. -/
def State.vote (s : State) (m : PrepareMsg) : Option NoVote :=
  let a := s.addressOr0
  let rival := match s.txn.coordination with | some c => c.group = m.group && m.coordinator != a | none => false
  match s.group? m.group, s.txn.built with
  | some g, some n =>
    if g.state != .sealed || !g.chain || rival then some (noVote a 0 .badState 0xFFFF)
    else if s.txn.groups.any (fun x => x.id ≠ g.id && x.state == .prepared) then some (noVote a 0 .generationBusy 0xFFFF)
    else s.voteSealed g n m.line
  | _, _ => some (noVote a 0 .badState 0xFFFF)

/-- Vote on a PREPARE: YES moves the group to PREPARED; the module remembers the PREPARE and its first NO vote. -/
def State.voteOn (s : State) (m : PrepareMsg) : State × PrepareMsg :=
  let v := s.vote m
  let s1 := s.updGroup m.group (fun g =>
    if g.state == .sealed then { g with state := if v.isNone then .prepared else .sealed, line := m.line, coordinator := m.coordinator,
                                        votedAt := max 1 s.aon, queried := false, answered := 0 }
    else g)
  let no := if m.no.isSome then m.no else v
  ({ s1 with txn := s1.txn.remember { group := m.group, line := m.line, coordinator := m.coordinator, no := no, skip := 0 } },
   { m with yes := if v.isNone then m.yes ||| (1#16 <<< s.addressOr0.val) else m.yes, no := no })

/-- COMMIT reaches a prepared group: its commit instant (R194). -/
def State.txnCommitted (s : State) (g : Group) (o : Option Origin) : State :=
  let s1 := s.commit g g.line
  ({ s1 with txn := s1.txn.record g.id true }).txnResult o g.id .ok 0 g.line g.coordinator

/-- The coordinator's decision goes both ways. -/
def State.sendDecision (s : State) (group : BitVec 32) (commit : Bool) : State :=
  let m : ChainMsg := { mtype := 0x21, src := s.ownAddress, dst := 0xFF, body := le 4 group.toNat ++ le 1 (b2n commit) }
  (s.chainTo .out m).chainTo .inn m

/-- The coordinator decides. -/
def State.decideTxn (s : State) (c : Coordination) (commit : Bool) (detail : Nat) : State :=
  let s1 := ({ s with txn := { s.txn with coordination := none } }).sendDecision c.group commit
  match s1.group? c.group with
  | some g => if commit && g.state == .prepared then s1.txnCommitted g (some c.origin) else s1.txnAbort g (some c.origin) detail
  | none => s1.txnResult (some c.origin) c.group .txnAborted detail c.line s1.addressOr0

/-- The YES mask of every module the enumeration counted. -/
def State.fullMask (s : State) : BitVec 16 := BitVec.ofNat 16 (2 ^ s.chain.count - 1)

/-- PREPARE is back at its coordinator. -/
def State.prepareBack (s : State) (c : Coordination) (m : PrepareMsg) : State :=
  let yes := m.no.isNone && m.yes == s.fullMask && decide (s.aon ≤ c.sentAt + us 50)
  s.decideTxn c yes ((m.no.map NoVote.detail).getD noVoteDetail)

/-- The coordinator votes and sends PREPARE; on a chain of one it has then come back. -/
def State.startPrepare (s : State) (g : Group) (line : Nat) (o : Origin) : State :=
  let r := s.voteOn { group := g.id, coordinator := s.addressOr0, line := line, yes := 0, no := none }
  let c : Coordination := { group := g.id, line := line, sentAt := s.aon, origin := o }
  let s1 := { r.1 with txn := { r.1.txn with coordination := some c } }
  if s.chain.count = 1 then s1.prepareBack c r.2
  else s1.chainTo .out { mtype := 0x20, src := s.ownAddress, dst := 0xFF, body := r.2.bytes }

/-! ### TXN_COMMIT (R199) -/

/-- The reply of a local commit: generation, affected rows, L and E_r. -/
def State.commitBytes (s : State) (number : BitVec 32) (rows : Fin 16 → Bool) (l : Nat) : List Byte :=
  le 4 number.toNat ++ le 2 (rowMask rows) ++ zeroBytes 2 ++ le 8 l ++
  (List.finRange 16).flatMap (fun r => le 8 (if s.armed && rows r then s.effLine r l else 2 ^ 64 - 1))

/-- A local commit of a sealed group at its commit instant (R185, R186, R188). -/
def State.commitLocal (s : State) (g : Group) (n : Gen) (asap : Bool) (line : Nat) : Ans :=
  let rows := s.affected g n
  let l := if asap then (if s.armed then s.asapLine rows else 0) else line
  if s.armed then
    match s.earlyBinding g l with
    | some i => .fail s .badParam (i % 65536)
    | none => match s.shortRow rows l 64 with
      | some (r, d) => .fail s .leadTooShort (r.val * 2 ^ 28 + d % 2 ^ 28)
      | none => { state := s.commit g l, payload := s.commitBytes n.number rows l }
  else { state := s.commit g l, payload := s.commitBytes n.number rows l }

def State.commitSealed (s : State) (id : BitVec 32) (o : Origin) (asap : Bool) (line : Nat) : Ans :=
  match s.group? id, s.txn.built with
  | some g, some n =>
    if g.chain then { state := s.startPrepare g line o, status := some .accepted } else s.commitLocal g n asap line
  | _, _ => .fail s .badState

def cmdTxnCommit : Cmd :=
  { opcode := 0x0303, okLen := fun n => n == 16
    run := fun q s =>
      let p := q.payload
      let flags := fld p 4 1
      let line := fld p 8 8
      let asap := bit flags 0
      s.namedGroup q (decide (1 < flags) || !zeros p 5 3 || (!asap && decide (2 ^ 48 ≤ line))) fun g =>
        let busy := g.state == .prepared || (match s.txn.coordination with | some c => c.group = g.id | none => false)
        checks s [(asap && (g.chain || g.members.any (fun m => m.1.isBinding)), .badParam), (busy, .badState)] fun _ =>
          sealAns (s.seal g) (fun s1 => s1.commitSealed g.id q.origin asap line) }

def execTxnCommit (q : Req) (s : State) : Host.Outcome State Fault Refusal := .next (serve cmdTxnCommit q s)

/-! ### Messages and timeouts -/

/-- The coordinator's own PREPARE has come round, or another module's is voted on and passed on. -/
def State.takePrepare (s : State) (m : PrepareMsg) : State :=
  if s.chain.address = some m.coordinator then
    match s.txn.coordination with
    | some c => if c.group = m.group then s.prepareBack c m else s
    | none => s
  else
    let r := s.voteOn m
    r.1.chainTo .out { mtype := 0x20, src := BitVec.ofNat 8 m.coordinator.val, dst := 0xFF, body := r.2.bytes }

def execTxnPrepare (h : ChainHdr) (m : PrepareMsg) (t : Nat) (s : State) : Host.Outcome State Fault Refusal :=
  let s1 := (s.at t).ackChain h
  .next (if s1.current h then s1.takePrepare m else s1)

def execPrepareTimeout (t : Nat) (s : State) : Host.Outcome State Fault Refusal :=
  let s1 := s.at t
  match s1.txn.coordination with
  | some c => .next (if c.sentAt + us 50 ≤ s1.aon then s1.decideTxn c false noVoteDetail else s1)
  | none => .next s1

/-- The first copy of a decision acts, the second is ignored (R194); every module posts TXN_RESULT (R199). DESIGN CHOICE (log 70): a
module on which the group is not PREPARED posts TXN_ABORTED, with the L it saw in the PREPARE (else 0). The coordinator has
acted when it decided. -/
def State.takeDecision (s : State) (h : ChainHdr) (group : BitVec 32) (commit : Bool) : State :=
  let seen := (s.txn.voted? group).getD { group := group, line := 0, coordinator := h.src, no := none, skip := 0 }
  if s.chain.address = some h.src then s
  else if 0 < seen.skip then { s with txn := s.txn.remember { seen with skip := seen.skip - 1 } }
  else
    let s1 : State := { s with txn := s.txn.remember { seen with skip := 1 } }
    match s1.preparedGroup with
    | some g =>
      if g.id = group then (if commit then s1.txnCommitted g none else s1.txnAbort g none (s1.abortDetail group))
      else s1.txnResult none group .txnAborted (s1.abortDetail group) seen.line seen.coordinator
    | none => s1.txnResult none group .txnAborted (s1.abortDetail group) seen.line seen.coordinator

def execTxnDecision (h : ChainHdr) (group : BitVec 32) (commit : Bool) (t : Nat) (s : State) : Host.Outcome State Fault Refusal :=
  let s1 := (s.at t).ackChain h
  .next (if s1.current h then (s1.passOn h 0x21 (le 4 group.toNat ++ le 1 (b2n commit))).takeDecision h group commit else s1)

/-- 256 µs after the vote (R195). -/
def execDecisionTimeout (t : Nat) (s : State) : Host.Outcome State Fault Refusal :=
  let s1 := s.at t
  match s1.preparedGroup with
  | some g => .next (if g.votedAt + us 256 ≤ s1.aon then s1.txnAsk.txnResolve else s1)
  | none => .next s1

/-- The state this module reports for a group (R631). -/
def State.txnState (s : State) (group : BitVec 32) : TxnAnswerState :=
  if s.txn.groups.any (fun g => g.id = group && g.state == .prepared) then .prepared
  else match s.txn.outcomes.find? (fun o => o.1 = group) with
    | some o => if o.2 then .committed else .aborted
    | none => .unknown

def State.sendAnswer (s : State) (src dst : Nat) (group : BitVec 32) (st : TxnAnswerState) : State :=
  s.chainAddressed 0x23 src dst (le 4 group.toNat ++ le 1 st.code)

/-- A query for this module, for a neighbour that is in reset, or one to be passed on (15 R370). -/
def State.takeQuery (s : State) (h : ChainHdr) (group : BitVec 32) : State :=
  let dst := h.dst.toNat
  if s.forMe h then s.sendAnswer dst h.src.val group (s.txnState group)
  else if s.neighbour (otherSide h.side) = some dst ∧ s.chain.inReset.getLsbD dst = true then s.sendAnswer dst h.src.val group .inReset
  else s.passOn h 0x22 (le 4 group.toNat)

def execTxnQuery (h : ChainHdr) (group : BitVec 32) (t : Nat) (s : State) : Host.Outcome State Fault Refusal :=
  let s1 := (s.at t).ackChain h
  .next (if s1.current h then s1.takeQuery h group else s1)

/-- What an answer means to a prepared group (R195). -/
def State.takeAnswer (s : State) (src : Fin 16) (group : BitVec 32) (st : TxnAnswerState) : State :=
  match s.preparedGroup with
  | some g =>
    if g.id ≠ group then s
    else match st with
      | .committed => { s with txn := s.txn.resolved group }.txnCommitted g none
      | .aborted =>
        if g.coordinator = src then { s with txn := s.txn.resolved group }.txnAbort g none (s.abortDetail group)
        else (s.updGroup group (fun x => { x with answered := x.answered ||| (1#16 <<< src.val) })).txnResolve
      | .inReset =>
        let s1 := { s with chain := { s.chain with inReset := s.chain.inReset ||| (1#16 <<< src.val) } }
        (s1.updGroup group (fun x => { x with answered := x.answered ||| (1#16 <<< src.val) })).txnResolve
      | _ => (s.updGroup group (fun x => { x with answered := x.answered ||| (1#16 <<< src.val) })).txnResolve
  | none => s

def execTxnAnswer (h : ChainHdr) (group : BitVec 32) (st : TxnAnswerState) (t : Nat) (s : State) : Host.Outcome State Fault Refusal :=
  let s1 := (s.at t).ackChain h
  .next (if s1.current h then
      (if s1.forMe h then s1.takeAnswer h.src group st else s1.passOn h 0x23 (le 4 group.toNat ++ le 1 st.code))
    else s1)

end Sys2Proof.Machine
end

