-- ==== Sys2Proof/Machine/Web.lean ====
section
/-! DEFINITION. Web position (02): WEB_CONFIG (R52), ROW_GEOMETRY (R53), WEB_STATUS (R54), the encoder edge (R25 to R29, R45),
the Z pulse (R26, R31, R39), line fail (R32), the timed checks (R28, R30), SPEED_HIGH (R48), JOB_MARK (R49, R50) and the overspeed
report (R47). -/

namespace Sys2Proof.Machine

/-! ### WEB_CONFIG (R35, R52) -/

/-- num / den in lowest terms (R35). -/
def webRatio (counts um lpi : Nat) : Nat × Nat :=
  let a := counts * 25400
  let b := um * lpi
  (a / Nat.gcd a b, b / Nat.gcd a b)

def webCfgOf (p : List Byte) : WebCfg :=
  let q := webRatio (fld p 0 4) (fld p 4 4) (fld p 8 2)
  { num := q.1, den := q.2, lpi := fld p 8 2, dirInvert := bit (fld p 10 1) 0, backlash := fld p 11 1, speedHighPct := fld p 12 1
    velWindow := fld p 13 1, encFilter := fld p 14 1, originMode := fld p 15 1, markFilterUs := fld p 16 2
    countsPerIndex := fld p 20 4, originOffset := sfld p 24 8, accelLimit := fld p 32 4, stopTimeoutUs := fld p 36 4 }

/-- The ranges of R52 and the three cases of R35. -/
def webBad (p : List Byte) : Bool :=
  let c := webCfgOf p
  decide (fld p 0 4 = 0 ∨ fld p 4 4 = 0 ∨ c.lpi < 600 ∨ 2400 < c.lpi ∨ 1 < fld p 10 1 ∨ 15 < c.backlash ∨ c.speedHighPct < 50 ∨
    100 < c.speedHighPct ∨ 6 < c.velWindow ∨ 20 < c.encFilter ∨ 2 < c.originMode ∨ 1023 < c.markFilterUs ∨ c.stopTimeoutUs < 100 ∨
    1000000 < c.stopTimeoutUs ∨ 2 ^ 32 ≤ c.num ∨ 2 ^ 32 ≤ c.den ∨ 2 * c.num < c.den ∨ 65536 * c.den < c.num) || !zeros p 18 2

def cmdWebConfig : Cmd :=
  { opcode := 0x0210, okLen := fun n => n == 40
    run := fun q s =>
      checks s [(webBad q.payload, .badParam), (s.armed, .badState)] fun _ =>
        let s1 := s.webSettle
        { state := { s1 with lsd := { s1.lsd with configured := true, cfg := webCfgOf q.payload } } } }

def execWebConfig (q : Req) (s : State) : Host.Outcome State Fault Refusal := .next (serve cmdWebConfig q s)

/-! ### ROW_GEOMETRY (R53) -/

def cmdRowGeometry : Cmd :=
  { opcode := 0x0211, okLen := fun n => n == 24
    run := fun q s =>
      let p := q.payload
      let m := fld p 16 4
      checks s [(decide (15 < fld p 0 1 ∨ 2 ^ 48 ≤ fld p 4 8 ∨ 500000 < fld p 12 4 ∨ (m ≠ 0 ∧ (m < 1985 ∨ 1000000 < m))) ||
                  !zeros p 1 3 || !zeros p 20 4, .badParam), (s.armed, .badState)] fun _ =>
        { state := s.updLsd (Fin.ofNat 16 (fld p 0 1)) (fun x => { x with offset := fld p 4 8, flight := fld p 12 4, minFire := m }) } }

def execRowGeometry (q : Req) (s : State) : Host.Outcome State Fault Refusal := .next (serve cmdRowGeometry q s)

/-! ### WEB_STATUS (R54) -/

/-- 0 STOPPED, 1 FORWARD, 2 BACKLASH, 3 REVERSE, 4 ENCODER_HOLD, 5 ENCODER_FAULT. -/
def State.webStateCode (s : State) : Nat :=
  if s.lsd.lasting then 5
  else if s.lsd.hold then 4
  else if s.keepsHigh && s.lsd.reverse then 3
  else if s.keepsHigh ∧ s.lsd.count < s.lsd.high then 2
  else if s.lsd.stopped then 0
  else 1

/-- Velocity in 1/16 counts/s. R54 gives no rounding: the model rounds down, toward minus infinity (DESIGN CHOICE, log 56). -/
def Lsd.velocity16 (l : Lsd) : Int := (l.vel.1 * 16000000000).fdiv l.vel.2

def cmdWebStatus : Cmd :=
  { opcode := 0x0212, okLen := fun n => n == 0
    run := fun _ s0 =>
      let s := s0.webSettle
      let line (r : Fin 16) : List Byte := let n := s.lsd.rows[r].next; if n = 0 then List.replicate 8 0xFF else le 8 (n - 1)
      { state := s
        payload := sle 8 s.posNow ++ sle 8 (if s.keepsHigh then s.lsd.high else 0) ++ sle 4 s.lsd.velocity16 ++ le 1 s.webStateCode ++
          le 1 (maskOf [s.lsd.origin.isSome, s.lsd.speedHigh]) ++ zeroBytes 2 ++ le 8 s.nowNs ++ (List.finRange 16).flatMap line } }

def execWebStatus (q : Req) (s : State) : Host.Outcome State Fault Refusal := .next (serve cmdWebStatus q s)

/-! ### SPEED_HIGH (R48) -/

def execSpeedHigh (t : Nat) (s : State) : Host.Outcome State Fault Refusal := .next (s.at t).webSettle.speedEval

/-! ### The encoder edge -/

/-- ×4 decoding (R25): +1 where A leads B, none where nothing or both levels change. -/
def quadStep (a b a' b' : Bool) : Option Int :=
  if a = a' ∧ b ≠ b' then some (if a = b' then 1 else -1)
  else if a ≠ a' ∧ b = b' then some (if a' = b then -1 else 1)
  else none

/-- The edges of the velocity window: those of the present direction since it was last taken (R28). -/
def Lsd.window (l : Lsd) (d : Int) : List Edge := l.known.takeWhile (fun e => e.dir == d)

/-- Edge j of R28 among the earlier edges of the window, newest first. R28 names no edge when fewer than 2^`vel_window_log2` earlier
edges stand in the window: the model takes the oldest of them within 50 µs, else the one immediately before (DESIGN CHOICE, log 55). -/
def windowEdge (w : List Edge) (log2 now : Nat) : Option Edge :=
  let near (e : Edge) : Bool := decide (now ≤ e.stamp + 50000)
  match w[2 ^ log2 - 1]? with
  | some e => if near e then some e else ((w.takeWhile near).getLast?).or w.head?
  | none => ((w.takeWhile near).getLast?).or w.head?

/-- Velocity at an edge: zero until two edges of its direction have arrived. -/
def edgeVelocity (l : Lsd) (count dir : Int) (now : Nat) : Int × Nat :=
  match windowEdge (l.window dir) l.cfg.velWindow now with
  | some e => (count - e.count, max 1 (now - e.stamp))
  | none => (0, 1)

/-- More than 44 M counts/s fast the 15 intervals of 16 edges (R30). -/
def overrate (stamps : List Nat) : Bool :=
  match stamps[0]?, stamps[15]? with
  | some a, some b => decide ((a - b) * 44 < 15000)
  | _, _ => false

/-- An edge is accepted (R25, R28): its count and the velocity estimated at it wait for its tick; the overrate check runs on stamps. -/
def State.countEdge (s : State) (a b : Bool) (d0 : Int) : State :=
  let l := s.lsd
  let d := if l.cfg.dirInvert then -d0 else d0
  let count := l.accepted.1 + d
  let now := s.nowNs
  let v := edgeVelocity l count d now
  let e : Edge := { count := count, dir := d, stamp := now, vNum := v.1, vDen := v.2 }
  let stamps := (now :: l.stamps).take 16
  let fast := overrate stamps
  let s1 : State := { s with lsd := { l with a := a, b := b, incoming := l.incoming ++ [e], stamps := if fast then [] else stamps } }
  (if fast then s1.encFail .overrate else s1).wasteTrack

/-- A and B as accepted; both changing at once is no count and fails the check (R30). While PD8 is unpowered or in reset nothing
counts (R27). -/
def State.edge (s : State) (a b : Bool) : State :=
  let s1 : State := { s with lsd := { s.lsd with a := a, b := b } }
  if !s.domainUp 8 then s1
  else match quadStep s.lsd.a s.lsd.b a b with
    | some d => s.countEdge a b d
    | none => if a ≠ s.lsd.a ∧ b ≠ s.lsd.b then s1.encFail .illegal else s1

/-- `t` is the physical time of the edge (R24). -/
def execEncoderEdge (a b : Bool) (t : Nat) (s : State) : Host.Outcome State Fault Refusal := .next ((s.at t).webSettle.edge a b)

/-! ### The Z pulse -/

/-- The index period check (R30): none before a second Z, or where it is disabled. Z passes the same delay as A and B, so its count
is that of the edges accepted before it (log 55). -/
def State.indexOk (s : State) : Option Bool :=
  match s.lsd.zCount with
  | some c =>
    let n := (s.lsd.accepted.1 - c).natAbs
    if 0 < s.lsd.cfg.countsPerIndex then some (decide (n ≤ s.lsd.cfg.countsPerIndex + 2 ∧ s.lsd.cfg.countsPerIndex ≤ n + 2)) else none
  | none => none

def State.zPulse (s : State) : State :=
  if !s.domainUp 8 then s
  else
    let s1 : State := { s with lsd := { s.lsd with zCount := some s.lsd.accepted.1 } }
    let s2 := match s.indexOk with
      | some true => s1.encConfirm true
      | some false => if s1.lsd.checks.isEmpty then s1.encFail .indexPeriod else s1.encConfirm false
      | none => s1
    if s2.job.state == .started && s2.lsd.latchEnabled && s2.lsd.cfg.originMode == 2 then s2.latch (s2.lsd.accepted.1 * 65536) s2.nowNs else s2

def execZPulse (t : Nat) (s : State) : Host.Outcome State Fault Refusal := .next (s.at t).webSettle.zPulse

/-! ### Line fail and the timed checks -/

def execLineFail (t : Nat) (s : State) : Host.Outcome State Fault Refusal :=
  let s1 := (s.at t).webSettle
  .next (if s1.domainUp 8 && !s1.lsd.lineBad then
    let s2 : State := { s1 with lsd := { s1.lsd with lineBad := true, hold := true, goodAgain := false } }
    s2.encFail .lineFail else s1)

/-- The signal has been good for 10 µs (R32). -/
def execLineGood (t : Nat) (s : State) : Host.Outcome State Fault Refusal :=
  let s1 := s.at t
  .next (if s1.lsd.lineBad then
    let s2 : State := { s1 with lsd := { s1.lsd with lineBad := false, goodAgain := true } }
    s2.encResume else s1)

/-- The velocities an edge has given since a time in ns: its estimate, and zero once the web counts as stopped (R28). -/
def Edge.velsSince (e : Edge) (from_ : Nat) : List (Int × Nat) :=
  match e.stopAt with
  | none => [(e.vNum, max 1 e.vDen)]
  | some z => if z < from_ then [(0, 1)] else [(e.vNum, max 1 e.vDen), (0, 1)]

/-- The velocities in force from a time in ns on: those of the edges since, and the one that stood then. -/
def Lsd.velsSince (l : Lsd) (from_ : Nat) : List (Int × Nat) :=
  let inn := l.edges.takeWhile (fun e => decide (from_ ≤ l.cfg.effective e))
  let at_ := match (l.edges.drop inn.length).head? with | some e => e.velsSince from_ | none => [(0, 1)]
  inn.flatMap (fun e => e.velsSince from_) ++ at_

/-- Two velocities differ by more than a limit in counts/s. -/
def velJump (limit : Nat) (v w : Int × Nat) : Bool := decide (limit * v.2 * w.2 < (v.1 * w.2 - w.1 * v.2).natAbs * 1000000000)

/-- Every change of velocity within the last 1 ms (R30); a change that has failed the check fails it once. -/
def execAccelerationCheck (t : Nat) (s : State) : Host.Outcome State Fault Refusal :=
  let s1 := (s.at t).webSettle
  let l := s1.lsd
  let vels := l.velsSince (max (s1.nowNs - 1000000) l.accelFrom)
  .next (if s1.domainUp 8 && decide (0 < l.cfg.accelLimit) && vels.any (fun v => vels.any (velJump l.cfg.accelLimit v)) then
      ({ s1 with lsd := { l with accelFrom := s1.nowNs } }).encFail .acceleration
    else s1)

/-- No edge for `stop_timeout_us`: from now on velocity is zero, and so P stands at the count (R28, R29). -/
def execStopTimeout (t : Nat) (s : State) : Host.Outcome State Fault Refusal :=
  let s1 := (s.at t).webSettle
  let still : List Edge := match s1.lsd.edges with
    | e :: r => { e with stopAt := some s1.nowNs } :: r
    | [] => []
  let due := s1.lsd.incoming.isEmpty && (match s1.lsd.edges with
    | e :: _ => decide (e.stamp + 1000 * s1.lsd.cfg.stopTimeoutUs ≤ s1.nowNs)
    | [] => true)
  .next (if due && !s1.lsd.stopped then
    let s2 : State := { s1 with lsd := { s1.lsd with edges := still, vNum := 0, vDen := 1, stopped := true } }
    s2.speedEval else s1)

/-! ### JOB_MARK (R49, R50) -/

/-- The row-0 line N with S_0(N) ≤ P < S_0(N + 1); none below S_0(0). -/
def State.markLine (s : State) (pos : Int) : Option Nat :=
  let c := s.lsd.cfg
  let d := s.layout.rows[(0 : Fin 16)]
  let rel := pos - s.lsd.origin.getD 0
  let guess := (((rel - s.lsd.rows[(0 : Fin 16)].offset - (s.txn.newest.trim[(0 : Fin 16)])) * c.den).fdiv (65536 * c.num) - d.phase).fdiv d.k
  let near := ([2, 1, 0, -1, -2] : List Int).map (fun i => guess + i)
  (near.find? (fun n => decide (0 ≤ n) && decide (s.startRel 0 n.toNat ≤ rel))).map Int.toNat

def State.markEvent (s : State) (edge : Nat) : State :=
  let pos := s.lsd.posAt edge
  s.post 0x0241 clsJob [(8, wrapInt 64 pos), (8, edge / 2 ^ 32), (8, (s.markLine pos).getD (2 ^ 64 - 1))]

/-- A qualified rising edge. -/
def State.markRise (s : State) (edge : Nat) : State :=
  if !s.started then s
  else match s.lsd.origin with
    | some _ => s.markEvent edge
    | none =>
      if s.job.state == .started && s.lsd.latchEnabled && s.lsd.cfg.originMode == 1 then s.latch (s.lsd.posAt edge) (edge / 2 ^ 32) else s

/-- The level that stood since `edge` qualifies once it has been stable for the filter time. -/
def execJobMark (level : Bool) (edge t : Nat) (s : State) : Host.Outcome State Fault Refusal :=
  let s1 := (s.at t).webSettle
  let s2 : State := { s1 with lsd := { s1.lsd with markQualified := level } }
  .next (if edge + us s1.lsd.cfg.markFilterUs ≤ s1.aon then
    (if level && !s1.lsd.markQualified && s1.domainUp 8 then s2.markRise edge else s2) else s1)

/-! ### The overspeed report (R47) -/

/-- LSD_OVERSPEED, at most once per row and millisecond. -/
def State.overspeedPost (s : State) (r : Fin 16) : State :=
  let x := s.lsd.rows[r]
  match x.overspeed with
  | some (a, b, n, i) =>
    if x.overspeedAt = 0 ∨ x.overspeedAt + ms 1 ≤ s.aon then
      (s.updLsd r (fun y => { y with overspeed := none, overspeedAt := s.aon })).post 0x0243 clsJob [(1, r.val), (8, a), (8, b), (4, n), (8, i / 10)]
    else s
  | none => s

def execLsdOverspeed (r : Fin 16) (t : Nat) (s : State) : Host.Outcome State Fault Refusal := .next ((s.at t).overspeedPost r)

end Sys2Proof.Machine
end

