-- ==== Sys2Proof/Machine/Transport.lean ====
section
/-! DEFINITION. Mailbox transport (17): the start of a mailbox's next request (R418, R420 to R422), held replies (R421) and final
replies (R424). -/

namespace Sys2Proof.Machine

/-! ### The command index (R431) -/

/-- System, firmware, power, page store and codec. -/
def indexSystem : List Cmd :=
  [cmdNop, cmdModuleInfo, cmdEventRoute, cmdModuleReset, cmdFwStatus, cmdFwUpdateBegin, cmdFwUpdateData, cmdFwUpdateCommit, cmdPowerStatus,
   cmdThermalConfig, cmdHamperStatus, cmdTileStage, cmdTileFree, cmdTileInfo, cmdListStage, cmdListFree, cmdProofCapture, cmdProofCancel,
   cmdCodecConfig, cmdCodecStatus, cmdCodecCheck]

/-- Job, web, screening, run-ahead, transactions and calibration. -/
def indexJob : List Cmd :=
  [cmdJobStatus, cmdPlaneDefine, cmdRowDefine, cmdPanelDefine, cmdJobDefine, cmdJobArm, cmdJobStart, cmdJobPause, cmdJobResume, cmdJobStop,
   cmdJobClear, cmdWebConfig, cmdRowGeometry, cmdWebStatus, cmdScreenPlane, cmdScreenMatrix, cmdHistSet, cmdHistRow, cmdRunaheadConfig,
   cmdRunaheadStatus, cmdCheckConfig, cmdTxnOpen, cmdTxnAdd, cmdTxnSeal, cmdTxnCommit, cmdTxnDiscard, cmdTxnStatus, cmdCalStatus, cmdCalTrim,
   cmdCalChart, cmdCalAlignLoad, cmdCalLimits]

/-- Heads, lanes, axes, chain, faults, memory, checking, clocks and management. -/
def indexLink : List Cmd :=
  [cmdStrobeConfig, cmdHacConfig, cmdHeadAuthStatus, cmdHeadUsage, cmdUsageCommitNow, cmdLinkControl, cmdLaneConfig, cmdLaneStatus,
   cmdHeadDriverInfo, cmdHeadTunnel, cmdDrivePortConfig, cmdAxisConfig, cmdAxisEnable, cmdAxisMotion, cmdAxisGear, cmdAxisHome, cmdAxisLimits,
   cmdAxisStatus, cmdChainStatus, cmdChainEnumerate, cmdChainConfig, cmdChainForward, cmdChainLink, cmdLogStatus, cmdLogRead, cmdMemStatus,
   cmdMemConfig, cmdMemInject, cmdCheckInject, cmdCheckStatus, cmdLaneTest, cmdLaneTestRead, cmdClockStatus, cmdMgmtJobStop, cmdMgmtDomains,
   cmdRecoveryBegin, cmdRecoveryData, cmdRecoveryCommit]

def commandIndex : List Cmd := indexSystem ++ indexJob ++ indexLink

/-- A request of an opcode that answers one status whatever it carries. -/
def cmdAnswers (opcode : Nat) (st : Status) : Cmd := { opcode := opcode, okLen := fun _ => true, run := fun _ s => .fail s st }

/-- What the boot ROM serves while boot has stopped (25 R595). -/
def recoveryServes (opcode : Nat) : Bool := opcode == 0x0000 || opcode == 0x0001 || opcode == 0x0010 || opcode / 256 == 0x0F

/-- The command a request names, or the status it is refused with. -/
def State.commandFor (s : State) (opcode : Nat) : Cmd :=
  match commandIndex.find? (fun c => c.opcode = opcode) with
  | none => cmdAnswers opcode .badOpcode
  | some c => if s.boot.recovery && !recoveryServes opcode then cmdAnswers opcode .badState else c

/-- An opcode outside the index is refused before its length is looked at (R420). -/
def unknownOp (opcode : Nat) : Bool := !commandIndex.any (fun c => c.opcode = opcode)

/-! ### The start of a request (R421, R422) -/

/-- The request in a 256-byte slot (R418). -/
def reqOf (m : Fin 8) (slot : List Byte) : Req :=
  let length := if unknownOp (fld slot 0 2) then min 240 (fld slot 4 2) else fld slot 4 2
  { mb := m, tag := BitVec.ofNat 16 (fld slot 2 2), flags := BitVec.ofNat 16 (fld slot 6 2), payload := padTo length (slot.drop 16) }

/-- The firmware, or for the tunnels the boot ROM, serves the mailbox. -/
def State.servesBox (s : State) (m : Fin 8) : Bool := (s.box m).ready || (s.boot.recovery && (m == 4 || m == 5))

/-- The oldest request that waits in a mailbox. -/
def State.nextRequest (s : State) (m : Fin 8) : Option (List Byte) :=
  let b := s.box m
  if m.val < 4 then
    if b.reqTail = b.reqHead then none else some (Memory.read s.mbx.ringMem (slotAddr m false b.reqHead) 256)
  else b.requests.head?

/-- A mailbox may start its next request: served, the one before answered, and room for a reply; the memory is not being
retrained (23 R563). -/
def State.canStart (s : State) (m : Fin 8) : Bool :=
  let b := s.box m
  s.servesBox m && b.held.isEmpty && b.room m && !b.outstanding.any (·.blocks) && s.cal.retrain.isEmpty && (s.nextRequest m).isSome

/-- The mailboxes in round-robin order from the one whose turn it is. -/
def State.turns (s : State) : List (Fin 8) := (List.range 8).map (fun i => Fin.ofNat 8 (s.mbx.turn.val + i))

/-- The request has been taken: its slot is free. -/
def State.takeRequest (s : State) (m : Fin 8) : State :=
  let s1 := if m.val < 4 then s.updBox m (fun b => { b with reqHead := b.reqHead + 1 }) else s.updBox m (fun b => { b with requests := b.requests.drop 1 })
  let free (t : Tunnel) : Tunnel := { t with reqFree := true }
  let s2 : State := if m = 4 then { s1 with mgt := { s1.mgt with tunnels := upd s1.mgt.tunnels 0 free } }
    else if m = 5 then { s1 with mgt := { s1.mgt with tunnels := upd s1.mgt.tunnels 1 free } } else s1
  { s2 with mbx := { s2.mbx with turn := m + 1 } }

def State.startNext (s : State) : State :=
  match s.turns.find? s.canStart with
  | none => s
  | some m => match s.nextRequest m with
    | none => s
    | some slot => serve (s.commandFor (fld slot 0 2)) (reqOf m slot) (s.takeRequest m)

/-- A request starts; the first one after a Kettle restart shows that the firmware serves again. -/
def execMailboxRequestStart (t : Nat) (s : State) : Host.Outcome State Fault Refusal :=
  .next ((s.at t).kettleBack).startNext

/-! ### Replies that come later (R421, R424) -/

/-- A held reply is written once its reply ring has room. -/
def execHeldReplyWrite (m : Fin 8) (s : State) : Host.Outcome State Fault Refusal :=
  let b := s.box m
  match b.held with
  | [] => .next s
  | msg :: r => .next (if b.room m then (s.updBox m (fun b => { b with held := r })).writeReply m msg else s)

/-- The oldest known result becomes the final reply it is owed as. -/
def execFinalReply (t : Nat) (s : State) : Host.Outcome State Fault Refusal :=
  let s1 := s.at t
  match s1.mbx.results with
  | [] => .next s1
  | r :: rest =>
    let s2 : State := { s1 with mbx := { s1.mbx with results := rest } }
    match (s2.box r.mb).outstanding.find? (fun x => x.tag = r.tag) with
    | some x => .next (s2.answerLater r x)
    | none => .next s2

end Sys2Proof.Machine
end

