-- ==== Sys2Proof/Machine/Dispatch.lean ====
section
/-! DEFINITION. One arm for every command: the meaning it has. -/

namespace Sys2Proof.Machine

/-- The effect of a command on everything but the queue of commands that wait. -/
def exec (i : Instr) (s : State) : Host.Outcome State Fault Refusal :=
  match i with
  | .nop q => Sys2Proof.Machine.execNop q s
  | .moduleInfo q => Sys2Proof.Machine.execModuleInfo q s
  | .eventRoute q => Sys2Proof.Machine.execEventRoute q s
  | .moduleReset q => Sys2Proof.Machine.execModuleReset q s
  | .fwStatus q => Sys2Proof.Machine.execFwStatus q s
  | .fwUpdateBegin q => Sys2Proof.Machine.execFwUpdateBegin q s
  | .fwUpdateData q => Sys2Proof.Machine.execFwUpdateData q s
  | .fwUpdateCommit q => Sys2Proof.Machine.execFwUpdateCommit q s
  | .powerStatus q => Sys2Proof.Machine.execPowerStatus q s
  | .thermalConfig q => Sys2Proof.Machine.execThermalConfig q s
  | .hamperStatus q => Sys2Proof.Machine.execHamperStatus q s
  | .tileStage q => Sys2Proof.Machine.execTileStage q s
  | .tileFree q => Sys2Proof.Machine.execTileFree q s
  | .tileInfo q => Sys2Proof.Machine.execTileInfo q s
  | .listStage q => Sys2Proof.Machine.execListStage q s
  | .listFree q => Sys2Proof.Machine.execListFree q s
  | .proofCapture q => Sys2Proof.Machine.execProofCapture q s
  | .proofCancel q => Sys2Proof.Machine.execProofCancel q s
  | .codecConfig q => Sys2Proof.Machine.execCodecConfig q s
  | .codecStatus q => Sys2Proof.Machine.execCodecStatus q s
  | .codecCheck q => Sys2Proof.Machine.execCodecCheck q s
  | .jobStatus q => Sys2Proof.Machine.execJobStatus q s
  | .planeDefine q => Sys2Proof.Machine.execPlaneDefine q s
  | .rowDefine q => Sys2Proof.Machine.execRowDefine q s
  | .panelDefine q => Sys2Proof.Machine.execPanelDefine q s
  | .jobDefine q => Sys2Proof.Machine.execJobDefine q s
  | .jobArm q => Sys2Proof.Machine.execJobArm q s
  | .jobStart q => Sys2Proof.Machine.execJobStart q s
  | .jobPause q => Sys2Proof.Machine.execJobPause q s
  | .jobResume q => Sys2Proof.Machine.execJobResume q s
  | .jobStop q => Sys2Proof.Machine.execJobStop q s
  | .jobClear q => Sys2Proof.Machine.execJobClear q s
  | .webConfig q => Sys2Proof.Machine.execWebConfig q s
  | .rowGeometry q => Sys2Proof.Machine.execRowGeometry q s
  | .webStatus q => Sys2Proof.Machine.execWebStatus q s
  | .screenPlane q => Sys2Proof.Machine.execScreenPlane q s
  | .screenMatrix q => Sys2Proof.Machine.execScreenMatrix q s
  | .histSet q => Sys2Proof.Machine.execHistSet q s
  | .histRow q => Sys2Proof.Machine.execHistRow q s
  | .runaheadConfig q => Sys2Proof.Machine.execRunaheadConfig q s
  | .runaheadStatus q => Sys2Proof.Machine.execRunaheadStatus q s
  | .checkConfig q => Sys2Proof.Machine.execCheckConfig q s
  | .txnOpen q => Sys2Proof.Machine.execTxnOpen q s
  | .txnAdd q => Sys2Proof.Machine.execTxnAdd q s
  | .txnSeal q => Sys2Proof.Machine.execTxnSeal q s
  | .txnCommit q => Sys2Proof.Machine.execTxnCommit q s
  | .txnDiscard q => Sys2Proof.Machine.execTxnDiscard q s
  | .txnStatus q => Sys2Proof.Machine.execTxnStatus q s
  | .calStatus q => Sys2Proof.Machine.execCalStatus q s
  | .calTrim q => Sys2Proof.Machine.execCalTrim q s
  | .calChart q => Sys2Proof.Machine.execCalChart q s
  | .calAlignLoad q => Sys2Proof.Machine.execCalAlignLoad q s
  | .calLimits q => Sys2Proof.Machine.execCalLimits q s
  | .strobeConfig q => Sys2Proof.Machine.execStrobeConfig q s
  | .hacConfig q => Sys2Proof.Machine.execHacConfig q s
  | .headAuthStatus q => Sys2Proof.Machine.execHeadAuthStatus q s
  | .headUsage q => Sys2Proof.Machine.execHeadUsage q s
  | .usageCommitNow q => Sys2Proof.Machine.execUsageCommitNow q s
  | .linkControl q => Sys2Proof.Machine.execLinkControl q s
  | .laneConfig q => Sys2Proof.Machine.execLaneConfig q s
  | .laneStatus q => Sys2Proof.Machine.execLaneStatus q s
  | .headDriverInfo q => Sys2Proof.Machine.execHeadDriverInfo q s
  | .headTunnel q => Sys2Proof.Machine.execHeadTunnel q s
  | .drivePortConfig q => Sys2Proof.Machine.execDrivePortConfig q s
  | .axisConfig q => Sys2Proof.Machine.execAxisConfig q s
  | .axisEnable q => Sys2Proof.Machine.execAxisEnable q s
  | .axisMotion q => Sys2Proof.Machine.execAxisMotion q s
  | .axisGear q => Sys2Proof.Machine.execAxisGear q s
  | .axisHome q => Sys2Proof.Machine.execAxisHome q s
  | .axisLimits q => Sys2Proof.Machine.execAxisLimits q s
  | .axisStatus q => Sys2Proof.Machine.execAxisStatus q s
  | .chainStatus q => Sys2Proof.Machine.execChainStatus q s
  | .chainEnumerate q => Sys2Proof.Machine.execChainEnumerate q s
  | .chainConfig q => Sys2Proof.Machine.execChainConfig q s
  | .chainForward q => Sys2Proof.Machine.execChainForward q s
  | .chainLink q => Sys2Proof.Machine.execChainLink q s
  | .logStatus q => Sys2Proof.Machine.execLogStatus q s
  | .logRead q => Sys2Proof.Machine.execLogRead q s
  | .memStatus q => Sys2Proof.Machine.execMemStatus q s
  | .memConfig q => Sys2Proof.Machine.execMemConfig q s
  | .memInject q => Sys2Proof.Machine.execMemInject q s
  | .checkInject q => Sys2Proof.Machine.execCheckInject q s
  | .checkStatus q => Sys2Proof.Machine.execCheckStatus q s
  | .laneTest q => Sys2Proof.Machine.execLaneTest q s
  | .laneTestRead q => Sys2Proof.Machine.execLaneTestRead q s
  | .clockStatus q => Sys2Proof.Machine.execClockStatus q s
  | .mgmtJobStop q => Sys2Proof.Machine.execMgmtJobStop q s
  | .mgmtDomains q => Sys2Proof.Machine.execMgmtDomains q s
  | .recoveryBegin q => Sys2Proof.Machine.execRecoveryBegin q s
  | .recoveryData q => Sys2Proof.Machine.execRecoveryData q s
  | .recoveryCommit q => Sys2Proof.Machine.execRecoveryCommit q s
  | .reqTailWrite m v => Sys2Proof.Machine.execReqTailWrite m v s
  | .rplHeadWrite m v => Sys2Proof.Machine.execRplHeadWrite m v s
  | .mbStatusClear m v => Sys2Proof.Machine.execMbStatusClear m v s
  | .globalFaultClear v => Sys2Proof.Machine.execGlobalFaultClear v s
  | .bdAssignWrite v => Sys2Proof.Machine.execBdAssignWrite v s
  | .drqSoftWrite v => Sys2Proof.Machine.execDrqSoftWrite v s
  | .bar2BaseWrite part v => Sys2Proof.Machine.execBar2BaseWrite part v s
  | .go c v => Sys2Proof.Machine.execGo c v s
  | .abort c v => Sys2Proof.Machine.execAbort c v s
  | .bdStatusClear c v => Sys2Proof.Machine.execBdStatusClear c v s
  | .qCtrlEnable n v => Sys2Proof.Machine.execQCtrlEnable n v s
  | .qHeadWrite n v => Sys2Proof.Machine.execQHeadWrite n v s
  | .qStatusClear n v => Sys2Proof.Machine.execQStatusClear n v s
  | .bar0RegisterWrite off size v => Sys2Proof.Machine.execBar0RegisterWrite off size v s
  | .bar0LowHalfRead off size => Sys2Proof.Machine.execBar0LowHalfRead off size s
  | .bar2Read off len => Sys2Proof.Machine.execBar2Read off len s
  | .bar2Write off data => Sys2Proof.Machine.execBar2Write off data s
  | .alertStatusClear data pec => Sys2Proof.Machine.execAlertStatusClear data pec s
  | .pwrCtrlWake data pec t => Sys2Proof.Machine.execPwrCtrlWake data pec t s
  | .mbCtrlGo n data pec => Sys2Proof.Machine.execMbCtrlGo n data pec s
  | .mbCtrlPop n data pec => Sys2Proof.Machine.execMbCtrlPop n data pec s
  | .mbCtrlClear n data pec => Sys2Proof.Machine.execMbCtrlClear n data pec s
  | .mbReqWrite n data pec => Sys2Proof.Machine.execMbReqWrite n data pec s
  | .mbRplRead n off => Sys2Proof.Machine.execMbRplRead n off s
  | .alertResponseRead => Sys2Proof.Machine.execAlertResponseRead s
  | .mgmtRegisterWrite code data pec => Sys2Proof.Machine.execMgmtRegisterWrite code data pec s
  | .sclTimeout t => Sys2Proof.Machine.execSclTimeout t s
  | .mailboxRequestStart t => Sys2Proof.Machine.execMailboxRequestStart t s
  | .heldReplyWrite m => Sys2Proof.Machine.execHeldReplyWrite m s
  | .finalReply t => Sys2Proof.Machine.execFinalReply t s
  | .eventPost t => Sys2Proof.Machine.execEventPost t s
  | .evqLost n t => Sys2Proof.Machine.execEvqLost n t s
  | .queueInterruptTimer n t => Sys2Proof.Machine.execQueueInterruptTimer n t s
  | .perst t => Sys2Proof.Machine.execPerst t s
  | .drqPulse line t => Sys2Proof.Machine.execDrqPulse line t s
  | .dmaReadCompletion c data ok t => Sys2Proof.Machine.execDmaReadCompletion c data ok t s
  | .dmaTransferDone c t => Sys2Proof.Machine.execDmaTransferDone c t s
  | .waitCqRecord c t => Sys2Proof.Machine.execWaitCqRecord c t s
  | .powerOn maddr chainHead => Sys2Proof.Machine.execPowerOn maddr chainHead s
  | .mgmtResetN level t => Sys2Proof.Machine.execMgmtResetN level t s
  | .moduleResetSequence t => Sys2Proof.Machine.execModuleResetSequence t s
  | .resetRelease t => Sys2Proof.Machine.execResetRelease t s
  | .bootStage r t => Sys2Proof.Machine.execBootStage r t s
  | .fwOperationDone r t => Sys2Proof.Machine.execFwOperationDone r t s
  | .firmwareActivation t => Sys2Proof.Machine.execFirmwareActivation t s
  | .kettleFault t => Sys2Proof.Machine.execKettleFault t s
  | .kettleWatchdog t => Sys2Proof.Machine.execKettleWatchdog t s
  | .thermosWatchdog t => Sys2Proof.Machine.execThermosWatchdog t s
  | .vinFault mv t => Sys2Proof.Machine.execVinFault mv t s
  | .railFault d cause t => Sys2Proof.Machine.execRailFault d cause t s
  | .repower d mv t => Sys2Proof.Machine.execRepower d mv t s
  | .domainPowerUp d good t => Sys2Proof.Machine.execDomainPowerUp d good t s
  | .domainPowerDown d t => Sys2Proof.Machine.execDomainPowerDown d t s
  | .temperatureSample temps t => Sys2Proof.Machine.execTemperatureSample temps t s
  | .crystalStart x t => Sys2Proof.Machine.execCrystalStart x t s
  | .crystalStartLimit x t => Sys2Proof.Machine.execCrystalStartLimit x t s
  | .clockLoss src t => Sys2Proof.Machine.execClockLoss src t s
  | .pllLock p t => Sys2Proof.Machine.execPllLock p t s
  | .clockSwitch d t => Sys2Proof.Machine.execClockSwitch d t s
  | .switchHandshakeTimeout d t => Sys2Proof.Machine.execSwitchHandshakeTimeout d t s
  | .newClockTimeout d t => Sys2Proof.Machine.execNewClockTimeout d t s
  | .xbIncrementUpdate xaCycles t => Sys2Proof.Machine.execXbIncrementUpdate xaCycles t s
  | .timeCopyReload d t => Sys2Proof.Machine.execTimeCopyReload d t s
  | .peerInReset d drops => Sys2Proof.Machine.execPeerInReset d drops s
  | .crossingReady d => Sys2Proof.Machine.execCrossingReady d s
  | .fioTrim khz code ok t => Sys2Proof.Machine.execFioTrim khz code ok t s
  | .sioTrim hz code ok t => Sys2Proof.Machine.execSioTrim hz code ok t s
  | .chartBuilt ok t => Sys2Proof.Machine.execChartBuilt ok t s
  | .memRetrainDone failed failedTwice t => Sys2Proof.Machine.execMemRetrainDone failed failedTwice t s
  | .encoderEdge a b t => Sys2Proof.Machine.execEncoderEdge a b t s
  | .zPulse t => Sys2Proof.Machine.execZPulse t s
  | .lineFail t => Sys2Proof.Machine.execLineFail t s
  | .lineGood t => Sys2Proof.Machine.execLineGood t s
  | .accelerationCheck t => Sys2Proof.Machine.execAccelerationCheck t s
  | .stopTimeout t => Sys2Proof.Machine.execStopTimeout t s
  | .speedHigh t => Sys2Proof.Machine.execSpeedHigh t s
  | .jobMark level edge t => Sys2Proof.Machine.execJobMark level edge t s
  | .printEnable level edge t => Sys2Proof.Machine.execPrintEnable level edge t s
  | .fireInhibit level edge t => Sys2Proof.Machine.execFireInhibit level edge t s
  | .lineStart r t => Sys2Proof.Machine.execLineStart r t s
  | .rowStopped r t => Sys2Proof.Machine.execRowStopped r t s
  | .rowDone r t => Sys2Proof.Machine.execRowDone r t s
  | .jobEnd t => Sys2Proof.Machine.execJobEnd t s
  | .faultStop t => Sys2Proof.Machine.execFaultStop t s
  | .inhibitTest r t => Sys2Proof.Machine.execInhibitTest r t s
  | .fireStrobe r t => Sys2Proof.Machine.execFireStrobe r t s
  | .strobeReadback r e t => Sys2Proof.Machine.execStrobeReadback r e t s
  | .lsdOverspeed r t => Sys2Proof.Machine.execLsdOverspeed r t s
  | .armingStep t => Sys2Proof.Machine.execArmingStep t s
  | .rowReady r t => Sys2Proof.Machine.execRowReady r t s
  | .engineLineDone p h upset t => Sys2Proof.Machine.execEngineLineDone p h upset t s
  | .checkpointCompare r bad t => Sys2Proof.Machine.execCheckpointCompare r bad t s
  | .lineCompare h bad t => Sys2Proof.Machine.execLineCompare h bad t s
  | .missingTimeout h bad t => Sys2Proof.Machine.execMissingTimeout h bad t s
  | .couplingTimeout p h waits bad t => Sys2Proof.Machine.execCouplingTimeout p h waits bad t s
  | .squash r t => Sys2Proof.Machine.execSquash r t s
  | .spcReplayLate r t => Sys2Proof.Machine.execSpcReplayLate r t s
  | .spcDry r t => Sys2Proof.Machine.execSpcDry r t s
  | .pourRecheck h t => Sys2Proof.Machine.execPourRecheck h t s
  | .frameSend l upset cvuBad t => Sys2Proof.Machine.execFrameSend l upset cvuBad t s
  | .ack l hdr blk t => Sys2Proof.Machine.execAck l hdr blk t s
  | .ackTimeout l t => Sys2Proof.Machine.execAckTimeout l t s
  | .flush l t => Sys2Proof.Machine.execFlush l t s
  | .flushTimeout l t => Sys2Proof.Machine.execFlushTimeout l t s
  | .laneTrainingBlock l hdr blk t => Sys2Proof.Machine.execLaneTrainingBlock l hdr blk t s
  | .laneStageDone l seen t => Sys2Proof.Machine.execLaneStageDone l seen t s
  | .stageLimit l t => Sys2Proof.Machine.execStageLimit l t s
  | .laneLoss l cause headers t => Sys2Proof.Machine.execLaneLoss l cause headers t s
  | .retrainDone l t => Sys2Proof.Machine.execRetrainDone l t s
  | .autoSleep c t => Sys2Proof.Machine.execAutoSleep c t s
  | .laneTestEnd t => Sys2Proof.Machine.execLaneTestEnd t s
  | .hmcAnswer c chars t => Sys2Proof.Machine.execHmcAnswer c chars t s
  | .hmcTimeout c t => Sys2Proof.Machine.execHmcTimeout c t s
  | .hmcStatusPoll c t => Sys2Proof.Machine.execHmcStatusPoll c t s
  | .usageCommit t => Sys2Proof.Machine.execUsageCommit t s
  | .chnAck side blk t => Sys2Proof.Machine.execChnAck side blk t s
  | .chnAckTimeout side t => Sys2Proof.Machine.execChnAckTimeout side t s
  | .enum h value serial t => Sys2Proof.Machine.execEnum h value serial t s
  | .enumDone h count epoch serial t => Sys2Proof.Machine.execEnumDone h count epoch serial t s
  | .enumTimeout t => Sys2Proof.Machine.execEnumTimeout t s
  | .noHead t => Sys2Proof.Machine.execNoHead t s
  | .rejoin h m t => Sys2Proof.Machine.execRejoin h m t s
  | .sync side t1 t2 t3 t4 => Sys2Proof.Machine.execSync side t1 t2 t3 t4 s
  | .beaconSample t => Sys2Proof.Machine.execBeaconSample t s
  | .beacon h b t => Sys2Proof.Machine.execBeacon h b t s
  | .beaconLoss t => Sys2Proof.Machine.execBeaconLoss t s
  | .txnPrepare h m t => Sys2Proof.Machine.execTxnPrepare h m t s
  | .prepareTimeout t => Sys2Proof.Machine.execPrepareTimeout t s
  | .txnDecision h group commit t => Sys2Proof.Machine.execTxnDecision h group commit t s
  | .decisionTimeout t => Sys2Proof.Machine.execDecisionTimeout t s
  | .txnQuery h group t => Sys2Proof.Machine.execTxnQuery h group t s
  | .txnAnswer h group st t => Sys2Proof.Machine.execTxnAnswer h group st t s
  | .chnFault h fclass stop time t => Sys2Proof.Machine.execChnFault h fclass stop time t s
  | .chnWaste h cause first last t => Sys2Proof.Machine.execChnWaste h cause first last t s
  | .resetNotice h cause t => Sys2Proof.Machine.execResetNotice h cause t s
  | .peerReq h mgmt msg t => Sys2Proof.Machine.execPeerReq h mgmt msg t s
  | .peerReply h msg full t => Sys2Proof.Machine.execPeerReply h msg full t s
  | .forwardTimeout t => Sys2Proof.Machine.execForwardTimeout t s
  | .hopLoss side cause headers t => Sys2Proof.Machine.execHopLoss side cause headers t s
  | .hopRetrainDone side t => Sys2Proof.Machine.execHopRetrainDone side t s
  | .chainSleepTimer t => Sys2Proof.Machine.execChainSleepTimer t s
  | .wasteBroadcast t => Sys2Proof.Machine.execWasteBroadcast t s
  | .servoTick t => Sys2Proof.Machine.execServoTick t s
  | .statusFrame a frame t => Sys2Proof.Machine.execStatusFrame a frame t s
  | .driveSlotFault a cause t => Sys2Proof.Machine.execDriveSlotFault a cause t s
  | .enableTimeout a t => Sys2Proof.Machine.execEnableTimeout a t s
  | .hamperStaged tile data readOk t => Sys2Proof.Machine.execHamperStaged tile data readOk t s
  | .hamperListStaged data readOk t => Sys2Proof.Machine.execHamperListStaged data readOk t s
  | .blockDecode p u fail t => Sys2Proof.Machine.execBlockDecode p u fail t s
  | .compressorVerify u fail t => Sys2Proof.Machine.execCompressorVerify u fail t s
  | .cdxCheckDone t => Sys2Proof.Machine.execCdxCheckDone t s
  | .dramReadError addr bit double again reader t => Sys2Proof.Machine.execDramReadError addr bit double again reader t s
  | .sramReadError arr addr double again t => Sys2Proof.Machine.execSramReadError arr addr double again t s
  | .sramSweep arr t => Sys2Proof.Machine.execSramSweep arr t s
  | .scrubBurst t => Sys2Proof.Machine.execScrubBurst t s
  | .scrubPassEnd t => Sys2Proof.Machine.execScrubPassEnd t s
  | .refresh ch rank t => Sys2Proof.Machine.execRefresh ch rank t s
  | .neighbourRefresh ch rank bank row t => Sys2Proof.Machine.execNeighbourRefresh ch rank bank row t s
  | .refreshRateRead mult t => Sys2Proof.Machine.execRefreshRateRead mult t s
  | .zqCalibration t => Sys2Proof.Machine.execZqCalibration t s
  | .driftMeasure ch drift t => Sys2Proof.Machine.execDriftMeasure ch drift t s
  | .setPointDecision t => Sys2Proof.Machine.execSetPointDecision t s
  | .selfRefresh t => Sys2Proof.Machine.execSelfRefresh t s
  | .fenceViolation agent addr t => Sys2Proof.Machine.execFenceViolation agent addr t s
  | .faultDetection t => Sys2Proof.Machine.execFaultDetection t s
  | .wasteRangeClose t => Sys2Proof.Machine.execWasteRangeClose t s
  | .wasteHoldEnd t => Sys2Proof.Machine.execWasteHoldEnd t s
  | .sleepEntry c t => Sys2Proof.Machine.execSleepEntry c t s
  | .chainOfOne t => Sys2Proof.Machine.execChainOfOne t s
  | .standby t => Sys2Proof.Machine.execStandby t s
  | .perstRelease t => Sys2Proof.Machine.execPerstRelease t s
  | .hamperSpace t => Sys2Proof.Machine.execHamperSpace t s
  | .memEcc memory t => Sys2Proof.Machine.execMemEcc memory t s
  | .checkerSync l bits t => Sys2Proof.Machine.execCheckerSync l bits t s
  | .errorInjection l t => Sys2Proof.Machine.execErrorInjection l t s
  | .chainWakeTimeout t => Sys2Proof.Machine.execChainWakeTimeout t s

end Sys2Proof.Machine
end

