-- ==== Sys2Proof/Safety.lean ====
section
/-! DEFINITION. What counts as a safe run, in the terms statements use. -/

namespace Sys2Proof.Safety

open Sys2Proof.Machine

/-- A command completes: it answers a next state. -/
def Completes (i : Instr) (s : State) : Prop := ∃ t, exec i s = .next t

/-- A property every step keeps. -/
def Kept (inv : State → Prop) : Prop := ∀ s s', inv s → step s = .next s' → inv s'

/-- Device memory is in its canonical form. -/
def MemoryCanonical (s : State) : Prop := Memory.wf s.mem = true

/-- No head fires: a strobe of a row is on the wires after a step only if it was before. -/
def FiresNothing (s s' : State) : Prop :=
  ∀ r line rise width inv, Wire.strobe r line rise width inv ∈ s'.wires → Wire.strobe r line rise width inv ∈ s.wires

end Sys2Proof.Safety
end

