-- ==== Sys2Proof/Certificates/Slice0/Obligations.lean ====
section
/-! DEFINITION. The statements for the provers, chapter by chapter of the spec. -/

open Sys2Proof Sys2Proof.Machine

namespace Sys2Proof.Claims

/-! What the statements say of a request and of its answer. -/

/-- A request that is executed: its mailbox permits the opcode, its payload fits a slot, and it is no RETRY of a remembered
request (R413, R418, R427). -/
def Fresh (opcode : Nat) (q : Req) (s : State) : Prop :=
  opPermitted opcode q.mb = true ∧ q.payload.length ≤ 240 ∧
  (q.retry = false ∨ (s.box q.mb).memory.all (fun x => decide (x.tag ≠ q.tag)) = true)

/-- A request of one payload length. -/
def FreshOf (opcode len : Nat) (q : Req) (s : State) : Prop := Fresh opcode q s ∧ q.payload.length = len

/-- An OK answer. -/
def ok (s : State) (payload : List Byte := []) : Ans := { state := s, payload := payload }

/-- An ACCEPTED answer: the command has started and its result comes later. -/
def accepted (s : State) : Ans := { state := s, status := some .accepted }

/-- An answer that comes later and without an ACCEPTED before it. -/
def later (s : State) : Ans := { state := s, status := none }

/-- Everything but the mailboxes, the host interface and the wires is as before. -/
def OnlyMailboxes (s t : State) : Prop := t = { s with mbx := t.mbx, hif := t.hif, wires := t.wires }

/-- The events handed to the posting unit between two states, by their codes. -/
def Posts (s u : State) (codes : List (BitVec 16)) : Prop := u.mbx.outbox.map (·.code) = s.mbx.outbox.map (·.code) ++ codes

/-- What the fault supervisor was told between two states. -/
def Tells (s u : State) (items : List FsvItem) : Prop := u.fsv.inbox = s.fsv.inbox ++ items

/-- The strobe pulses that have left the pads, newest first. -/
def isStrobe : Wire → Bool
  | .strobe _ _ _ _ _ => true
  | _ => false

def Strobes (s : State) : List Wire := s.wires.filter isStrobe

/-- The engines' part of a state: what a checker or engine command of this chapter leaves alone. -/
def SameElsewhere (s u : State) : Prop :=
  u.pending = s.pending ∧ u.mem = s.mem ∧ u.job = s.job ∧ u.lsd = s.lsd ∧ u.layout = s.layout ∧ u.hamper = s.hamper ∧ u.txn = s.txn ∧
  u.hac = s.hac ∧ u.chain = s.chain ∧ u.mot = s.mot ∧ u.clk = s.clk ∧ u.boot = s.boot ∧ u.cal = s.cal ∧ u.pwr = s.pwr

/-- Commands that may write a proof capture's buffer. -/
def captures : Instr → Bool
  | .lineStart _ _ | .fireStrobe _ _ | .inhibitTest _ _ | .zPulse _ | .printEnable _ _ _ | .jobStart _ | .jobMark _ _ _ => true
  | _ => false

/-- Commands that write device memory otherwise: the host's window, a transfer, a log read or the request that holds one; and those
that may power device memory down or start it anew. -/
def movesMemory : Instr → Bool
  | .bar2Write _ _ | .dmaReadCompletion _ _ _ _ | .logRead _ | .mailboxRequestStart _ | .powerOn _ _ | .railFault _ _ _ | .firmwareActivation _
  | .moduleResetSequence _ | .vinFault _ _ | .temperatureSample _ _ | .standby _ | .bootStage _ _ | .domainPowerDown _ _ | .domainPowerUp _ _ _ => true
  | _ => false

end Sys2Proof.Claims

/-- A step takes the command at the front of the queue and runs it with the rest of the queue. For every command c and
every state whose queue is c followed by rest, step answers what exec c answers on the state with the queue rest. The
order of commands is the order of the queue, as one mailbox starts its requests in ring order and all requests run in
one total order. With no command waiting the block idles for the 4 ns of a look-ahead tick and changes nothing else:
that is the model's design choice (log entry 2), not a rule of the spec. (R29, R421) -/
def Obligations.StepRunsTheFrontCommand : Prop :=
  (∀ (c : Instr) (rest : List Instr) (s : State), s.pending = c :: rest → step s = exec c { s with pending := rest }) ∧
  ∀ s : State, s.pending = [] → step s = .next { s with aon := s.aon + 4 * 2 ^ 32 }

/-- No command faults and none is refused. For every command and every state exec answers a next state: ordinary data
never ends a run. (R420) -/
def Obligations.EveryCommandAnswersANextState : Prop :=
  ∀ (i : Instr) (s : State), ∃ t, exec i s = .next t

/-- Right after power-on every register the spec gives a reset value holds it. In the state right after power-on the
command queue is empty, the always-on counter is 0 and no byte of device memory differs from 0; every mailbox has
empty rings, reply_irq set, ready, host_reset and overrun clear; events of class JOB, MOTION, FAULT and SYSTEM go to
EQ0 to EQ3; GLOBAL_FAULT and FAULT_MASK are 0, every channel is assigned to the host and IDLE, BAR2_BASE is
0x34_0000_0000; every queue is disabled with log2_size 4; the job is IDLE; generation 0 is in force with zero trims;
every history set maps all cells to class 0 with waveform d for dose d. (R415, R434, R473, R477, R481, R489, R102,
R145, R443, R532, R257, R514) -/
def Obligations.ResetLeavesTheStatedValues : Prop :=
  State.reset.pending = [] ∧ State.reset.aon = 0 ∧ (∀ a, Memory.get State.reset.mem a = 0) ∧
  (∀ m : Fin 8, let b := State.reset.box m
    b.reqTail = 0 ∧ b.reqHead = 0 ∧ b.rplTail = 0 ∧ b.rplHead = 0 ∧ b.replyIrq = true ∧ b.ready = false ∧ b.hostReset = false ∧
    b.overrun = false) ∧
  State.reset.mbx.route = #v[0, 1, 2, 3] ∧
  State.reset.hif.globalFault = 0 ∧ State.reset.hif.faultMask = 0 ∧ State.reset.hif.bdAssign = 0xFFFFFFFF ∧
  State.reset.hif.bar2Base = 0x3400000000 ∧
  (∀ c : Fin 48, (State.reset.chan c).state = .idle ∧ (State.reset.chan c).run = 0) ∧
  (∀ q : Fin 48, (State.reset.que q).enable = false ∧ (State.reset.que q).log2Size = 4) ∧
  State.reset.job.state = .idle ∧
  State.reset.txn.newest.number = 0 ∧ (∀ r : Fin 16, (State.reset.txn.newest.trim)[r] = 0) ∧
  (∀ i : Fin 8, (State.reset.layout.hist[i]).classOf = List.replicate 256 0 ∧
    ∀ d < 16, (State.reset.layout.hist[i]).wave[d]? = some d)

/-- Device memory is in its canonical form right after power-on. The memory of the state right after power-on lists
strictly rising addresses and no zero byte. (R257, R514) -/
def Obligations.ResetMemoryIsCanonical : Prop :=
  Safety.MemoryCanonical State.reset

/-- Every step keeps device memory in its canonical form. For every state whose device memory lists strictly rising
addresses and no zero byte, whatever command the step takes, the next state's memory has that form too: equal memories
stay equal data. (R257, R479, R514) -/
def Obligations.StepKeepsMemoryCanonical : Prop :=
  Safety.Kept Safety.MemoryCanonical

/-- No command adds to, removes from or reorders the commands that wait behind it. For every command and state, when exec
answers a next state its queue of waiting commands is the queue before: what runs next is decided by the order of
arrival alone. (R421) -/
def Obligations.CommandsLeaveTheQueueAlone : Prop :=
  ∀ (i : Instr) (s t : State), exec i s = .next t → t.pending = s.pending

/-- Only power-on sets the always-on counter back. For every state and every command other than POWER_ON and a rail fault
of PD0, which is a power-on (R606), when exec answers a next state the always-on counter of that state is not below
the one before. (R532) -/
def Obligations.TimeNeverRunsBackward : Prop :=
  ∀ (i : Instr) (s t : State), (∀ maddr head, i ≠ .powerOn maddr head) → (∀ c x, i ≠ .railFault 0 c x) → exec i s = .next t → s.aon ≤ t.aon

/-- Device memory reads back what was last written and nothing else changes. For every state with canonical memory, every
address and byte string: after the write, reading as many bytes from the address gives the string; every byte outside
it reads as before; and the form stays canonical. (R257, R479) -/
def Obligations.MemoryReadsBackWhatIsWritten : Prop :=
  ∀ (s : State) (a : Nat) (p : List Byte), Safety.MemoryCanonical s →
    (s.memWrite a p).memRead a p.length = p ∧
    (∀ b, b < a ∨ a + p.length ≤ b → Memory.get (s.memWrite a p).mem b = Memory.get s.mem b) ∧
    Safety.MemoryCanonical (s.memWrite a p)

/-- NOP, MODULE_INFO, EVENT_ROUTE and MODULE_RESET complete with their effect. Executed as new requests: NOP of 0 to 240
bytes answers OK at once with a copy of its payload, and a longer one BAD_LENGTH. MODULE_INFO answers OK with 64 bytes
that begin with the part name and carry the serial number, the mailbox, the own address, the counts of resets and the
always-on time in ns, and changes nothing. EVENT_ROUTE of a class 0 to 3 and a queue 0 to 15 or 0xFF sets that class's
route and answers the 20 bytes of the routing after the change; of class 0xFF it only answers them. MODULE_RESET with
confirm 0xA55A, unless a job is armed and force is clear, answers OK and sets the reset for 1 ms after the command.
Nothing else changes, and the reply is delivered to the request's mailbox. (R432) -/
def Obligations.SystemCommandsComplete : Prop :=
  (∀ (q : Req) (s : State), Claims.Fresh 0x0000 q s →
    exec (.nop q) s = .next ((Claims.ok (s.start q 0x0000) q.payload).deliver q 0x0000)) ∧
  (∀ (q : Req) (s : State), 240 < q.payload.length → q.retry = false →
    exec (.nop q) s = .next ((Ans.fail (s.start q 0x0000) .badLength).deliver q 0x0000)) ∧
  (∀ (q : Req) (s : State), Claims.FreshOf 0x0001 0 q s → ∃ p : List Byte,
    exec (.moduleInfo q) s = .next ((Claims.ok (s.start q 0x0001) p).deliver q 0x0001) ∧ p.length = 64 ∧
    p.take 8 = [0x50, 0x4C, 0x4E, 0x2D, 0x34, 0x38, 0x32, 0x36] ∧ fld p 8 8 = Config.serial.toNat ∧ fld p 23 1 = q.mb.val ∧
    fld p 24 1 = s.ownAddress.toNat ∧ fld p 28 4 = s.boot.flash.resets.toNat ∧ fld p 32 8 = s.boot.bootTime.toNat ∧
    fld p 40 8 = s.nowNs % 2 ^ 64) ∧
  (∀ (q : Req) (s : State) (cls : Fin 4) (eq : Byte), Claims.Fresh 0x0002 q s → (eq.toNat ≤ 15 ∨ eq = 0xFF) →
    q.payload = [BitVec.ofNat 8 cls.val, eq, 0, 0, 0, 0, 0, 0] →
    let s1 := s.start q 0x0002
    let m : Mbx := { s1.mbx with route := s1.mbx.route.set cls eq }
    exec (.eventRoute q) s = .next ((Claims.ok { s1 with mbx := m } (m.route.toList ++ m.dropped.toList.flatMap (fun c => le 4 c.toNat))).deliver
      q 0x0002)) ∧
  (∀ (q : Req) (s : State) (eq : Byte), Claims.Fresh 0x0002 q s → (eq.toNat ≤ 15 ∨ eq = 0xFF) →
    q.payload = [0xFF, eq, 0, 0, 0, 0, 0, 0] →
    exec (.eventRoute q) s = .next ((Claims.ok (s.start q 0x0002)
      (s.mbx.route.toList ++ s.mbx.dropped.toList.flatMap (fun c => le 4 c.toNat))).deliver q 0x0002)) ∧
  (∀ (q : Req) (s : State) (force : Bool), Claims.Fresh 0x0003 q s → (s.armed = false ∨ force = true) →
    q.payload = [0x5A, 0xA5, if force then 1 else 0, 0, 0, 0, 0, 0] →
    exec (.moduleReset q) s = .next ((Claims.ok { s.start q 0x0003 with
      boot := { s.boot with resetAt := some (s.aon + 1000000 * 2 ^ 32) } }).deliver q 0x0003))

/-- Opcode and length are checked before a command acts. For every command of the index executed as a new request: on a
mailbox that does not permit its opcode, which is so only for opcodes 0x0F00 to 0x0FFF outside MB4 and MB5, it answers
BAD_OPCODE; on a permitted one, with a length above 240 or one the opcode does not allow, BAD_LENGTH. In both cases
the only effects are the request's bookkeeping and the reply. On a permitted mailbox with an allowed length the
command is executed. (R413) -/
def Obligations.RequestsAreCheckedInOrder : Prop :=
  (∀ (opcode : Nat) (m : Fin 8), opPermitted opcode m = false ↔ (0x0F00 ≤ opcode ∧ opcode ≤ 0x0FFF ∧ m ≠ 4 ∧ m ≠ 5)) ∧
  (∀ (c : Cmd) (q : Req) (s : State), c ∈ commandIndex → opPermitted c.opcode q.mb = false →
    c.execute q s = (Ans.fail (s.start q c.opcode) .badOpcode).deliver q c.opcode) ∧
  (∀ (c : Cmd) (q : Req) (s : State), c ∈ commandIndex → opPermitted c.opcode q.mb = true →
    (240 < q.payload.length ∨ c.okLen q.payload.length = false) →
    c.execute q s = (Ans.fail (s.start q c.opcode) .badLength).deliver q c.opcode) ∧
  (∀ (c : Cmd) (q : Req) (s : State), c ∈ commandIndex → opPermitted c.opcode q.mb = true → q.payload.length ≤ 240 →
    c.okLen q.payload.length = true → c.execute q s = (c.run q (s.start q c.opcode)).deliver q c.opcode)

/-- A reply is written whole into the next slot of the reply ring, or held behind a full ring; a RETRY of a remembered
request executes nothing. For a host mailbox with room and no held reply, delivering a reply message of at most 256
bytes advances RPL_TAIL by one, puts the message into the slot the old tail names, and signals vector 1 + m when
reply_irq is set and the vector is not masked; requests, results and other mailboxes are as before, and everything but
the mailboxes, the host interface and the wires is unchanged. With a full ring, or behind a reply already held, the
message waits at the end of the held replies and nothing else changes. A reply message is the 16-byte header of
opcode, tag, length, status and detail, then the payload. For every command of the index, a request with RETRY set
that meets a remembered request of its tag is not executed: with the same opcode and payload CRC and a final reply,
the remembered reply is sent again; with the result still pending, ACCEPTED is sent again; with another opcode or
payload the answer is BAD_PARAM with detail 0xFFFF_0001. In each case the only change is the reply delivered to the
mailbox. A RETRY that meets none is served as a request without RETRY is: with the remembered requests as they are, the
same answer follows whatever the RETRY bit. (R414, R415, R419, R421, R427, R476) -/
def Obligations.RepliesAreWritten : Prop :=
  (∀ (s : State) (m : Fin 8) (msg : List Byte), m.val < 4 → (s.box m).held = [] → ((s.box m).rplTail - (s.box m).rplHead).toNat < 64 →
    Memory.wf s.mbx.ringMem = true → msg.length ≤ 256 →
    let t := s.deliver m msg
    Claims.OnlyMailboxes s t ∧ (t.box m) = { s.box m with rplTail := (s.box m).rplTail + 1 } ∧ (∀ k, k ≠ m → t.box k = s.box k) ∧
    Memory.read t.mbx.ringMem (0x20000 + (2 * m.val + 1) * 0x4000 + (s.box m).rplTail.toNat % 64 * 0x100) msg.length = msg ∧
    t.wires = (if (s.box m).replyIrq = true ∧ (s.hif.msixTable.toList.getD (1 + m.val) 0).getLsbD 96 = false
      then .msix (1 + m.val) :: s.wires else s.wires)) ∧
  (∀ (s : State) (m : Fin 8) (msg : List Byte), m.val < 4 →
    ((s.box m).held ≠ [] ∨ 64 ≤ ((s.box m).rplTail - (s.box m).rplHead).toNat) →
    s.deliver m msg = s.setBox m { s.box m with held := (s.box m).held ++ [msg] }) ∧
  (∀ (opcode tag : BitVec 16) (st : Status) (detail : Nat) (p : List Byte), p.length ≤ 240 → detail < 2 ^ 32 →
    let r := replyMsg opcode tag st detail p
    r.length = 16 + p.length ∧ fld r 0 2 = opcode.toNat ∧ fld r 2 2 = tag.toNat ∧ fld r 4 2 = p.length ∧ fld r 6 2 = st.code.toNat ∧
    fld r 8 4 = detail ∧ fld r 12 4 = 0 ∧ r.drop 16 = p) ∧
  (∀ (c : Cmd) (q : Req) (s : State) (r : Remembered), c ∈ commandIndex → q.retry = true →
    (s.box q.mb).memory.find? (fun x => x.tag = q.tag) = some r →
    serve c q s = s.deliver q.mb
      (if r.opcode = BitVec.ofNat 16 c.opcode ∧ r.crc = crc32c 0 q.payload then
        (if r.pending then replyMsg r.opcode q.tag .accepted 0 [] else r.reply)
      else replyMsg (BitVec.ofNat 16 c.opcode) q.tag .badParam 0xFFFF0001 [])) ∧
  (∀ (c : Cmd) (q : Req) (s : State), c ∈ commandIndex → q.retry = true →
    (s.box q.mb).memory.find? (fun x => x.tag = q.tag) = none → serve c q s = c.execute q s) ∧
  (∀ (c : Cmd) (q : Req) (s : State), c ∈ commandIndex → q.retry = false → serve c q s = c.execute q s)

/-- Requests start, held replies are written, and final replies and events go out. MAILBOX_REQUEST_START: when it is a
host mailbox's turn, the mailbox is served, holds no reply, has room for one, no started request blocks it, no memory
retraining runs, the firmware is not restarting and its ring holds a request, that request is taken from the slot REQ_HEAD names, REQ_HEAD advances,
the turn passes to the next mailbox, and the command its opcode names is served. HELD_REPLY_WRITE writes the oldest
held reply once the ring has room. FINAL_REPLY takes the oldest known result; it becomes the reply it is owed as, with
the opcode and tag of its request, and the request is answered. EVENT_POST takes the oldest event; an event of one
record whose class is routed to an enabled queue with nothing waiting and room goes into that queue, and one whose
class is not routed is counted in dropped. CHAIN_FORWARD to a peer waits for its reply; PEER_REQ goes to MB6 or MB7, byte 8
cleared; PEER_REPLY ends its CHAIN_FORWARD, as does 1 s without one. (R376, R421, R422, R424, R426, R439, R493) -/
def Obligations.TransportEventsComplete : Prop :=
  (∀ (t : Nat) (s : State) (m : Fin 4), let i : Fin 8 := ⟨m.val, by omega⟩
    let b := s.box i
    s.boot.kettleDown = false → s.mbx.turn = i → b.ready = true → b.held = [] → (b.rplTail - b.rplHead).toNat < 64 → b.outstanding.any (·.blocks) = false →
    s.cal.retrain = [] → b.reqTail ≠ b.reqHead →
    let slot := Memory.read s.mbx.ringMem (0x20000 + 2 * m.val * 0x4000 + b.reqHead.toNat % 64 * 0x100) 256
    let s1 := (s.at t).updBox i (fun b => { b with reqHead := b.reqHead + 1 })
    exec (.mailboxRequestStart t) s =
      .next (serve (s.commandFor (fld slot 0 2)) (reqOf i slot) { s1 with mbx := { s1.mbx with turn := i + 1 } })) ∧
  (∀ (m : Fin 8) (s : State) (msg : List Byte) (rest : List (List Byte)), (s.box m).held = msg :: rest → (s.box m).room m = true →
    exec (.heldReplyWrite m) s = .next ((s.setBox m { s.box m with held := rest }).writeReply m msg)) ∧
  (∀ (t : Nat) (s : State) (r : Result) (rest : List Result) (x : Outstanding), s.mbx.results = r :: rest →
    (s.box r.mb).outstanding.find? (fun y => y.tag = r.tag) = some x → x.muted = false →
    let s1 : State := { s.at t with mbx := { s.mbx with results := rest } }
    let msg := replyMsg x.opcode r.tag r.status r.detail.toNat r.record
    exec (.finalReply t) s =
      .next ((s1.updBox r.mb (fun b => b.lastReply x msg)).deliver r.mb msg)) ∧
  (∀ (t : Nat) (s : State) (e : Ev) (rest : List Ev) (n : Fin 16), s.mbx.outbox = e :: rest → s.mbx.route[e.cls] = BitVec.ofNat 8 n.val →
    (s.que (eqIndex n)).enable = true → (s.que (eqIndex n)).held = [] → (s.que (eqIndex n)).lostSince = 0 →
    e.data.length ≤ 40 → 1 ≤ (s.que (eqIndex n)).space →
    exec (.eventPost t) s = .next (({ s.at t with mbx := { s.mbx with outbox := rest } } : State).writeRecord (eqIndex n) (e.record 0))) ∧
  (∀ (t : Nat) (s : State) (e : Ev) (rest : List Ev), s.mbx.outbox = e :: rest → 15 < (s.mbx.route[e.cls]).toNat →
    exec (.eventPost t) s = .next { s.at t with mbx := { s.mbx with
      outbox := rest, dropped := upd s.mbx.dropped e.cls (fun c => satAdd c 1) } }) ∧
  (∀ (q : Req) (s : State) (a b : Fin 16), Claims.Fresh 0x0703 q s → 16 ≤ q.payload.length → fld q.payload 4 2 = q.payload.length - 16 →
    fld q.payload 8 1 = b.val → s.chain.address = some a → a ≠ b → ∃ u, exec (.chainForward q) s = .next ((Claims.later u).deliver q 0x0703) ∧
      u.chain.forward = s.chain.forward ++ [{ origin := q.origin, dst := b, sentAt := s.aon }]) ∧
  (∀ (h : ChainHdr) (mgmt : Bool) (msg : List Byte) (t : Nat) (s : State), h.epoch = s.chain.epoch → h.dst = s.ownAddress →
    ∃ u, exec (.peerReq h mgmt msg t) s = .next u ∧
      (u.box (if mgmt then 7 else 6)).requests = (s.box (if mgmt then 7 else 6)).requests ++ [msg.set 8 0]) ∧
  (∀ (h : ChainHdr) (msg : List Byte) (full t : Nat) (f : Forward) (s : State), h.epoch = s.chain.epoch → h.dst = s.ownAddress →
    s.chain.forward.find? (fun x => x.dst = h.src) = some f → ∃ u, exec (.peerReply h msg full t) s = .next u ∧ u.chain.forward = s.chain.forward.erase f) ∧
  (∀ (t : Nat) (s : State), ∃ u, exec (.forwardTimeout t) s = .next u ∧
    ∀ f, f ∈ u.chain.forward ↔ f ∈ s.chain.forward ∧ max s.aon t < f.sentAt + 1000000000 * 2 ^ 32)

/-- Writes of the mailbox registers, GLOBAL_FAULT, BD_ASSIGN, DRQ_SOFT and BAR2_BASE take effect. With the host domain up,
for each host mailbox: a write of REQ_TAIL whose distance from REQ_HEAD is at least the present distance and at most
64 sets REQ_TAIL; a write of RPL_HEAD whose distance from RPL_TAIL is at most the present distance sets RPL_HEAD; any
other write of either keeps the register and sets overrun; a write of MB_STATUS clears host_reset and overrun where
bits 1 and 4 are 1. Distances count modulo 128. Nothing else changes. With the host domain up: a write of GLOBAL_FAULT
clears the bits written as 1; where it cleared one and an unmasked bit stays set, vector 0 is signalled again,
otherwise nothing else changes. A write of BD_ASSIGN takes effect at once for every channel that is not ACTIVE and
reads back as the assignment in effect; the rest follows when the transfer ends. A write of DRQ_SOFT sends a pulse on
DRQ32 + i for each bit i set, in rising order. A write of BAR2_BASE takes bits 37 to 20 of the value as the base.
(R415, R416, R474, R477, R481, R485) -/
def Obligations.MailboxAndGlobalRegistersComplete : Prop :=
  (
    (∀ (m : Fin 4) (v : BitVec 32) (s : State), s.hostUp = true →
      let i : Fin 8 := ⟨m.val, by omega⟩
      let b := s.box i
      let x : BitVec 7 := v.setWidth 7
      exec (.reqTailWrite m v) s = .next (s.setBox i (if (b.reqTail - b.reqHead).toNat ≤ (x - b.reqHead).toNat ∧ (x - b.reqHead).toNat ≤ 64
        then { b with reqTail := x } else { b with overrun := true }))) ∧
    (∀ (m : Fin 4) (v : BitVec 32) (s : State), s.hostUp = true →
      let i : Fin 8 := ⟨m.val, by omega⟩
      let b := s.box i
      let x : BitVec 7 := v.setWidth 7
      exec (.rplHeadWrite m v) s = .next (s.setBox i (if (b.rplTail - x).toNat ≤ (b.rplTail - b.rplHead).toNat
        then { b with rplHead := x } else { b with overrun := true }))) ∧
    (∀ (m : Fin 4) (v : BitVec 32) (s : State), s.hostUp = true →
      let i : Fin 8 := ⟨m.val, by omega⟩
      let b := s.box i
      exec (.mbStatusClear m v) s = .next (s.setBox i { b with
        hostReset := b.hostReset && !v.getLsbD 1, overrun := b.overrun && !v.getLsbD 4 }))
  ) ∧ (
    (∀ (v : BitVec 32) (s : State), s.hostUp = true →
      let now := s.hif.globalFault &&& ~~~(v.setWidth 8)
      let t : State := { s with hif := { s.hif with globalFault := now } }
      exec (.globalFaultClear v) s =
        .next (if now ≠ s.hif.globalFault ∧ now &&& ~~~s.hif.faultMask ≠ 0 then t.msix 0 else t)) ∧
    (∀ (v : BitVec 32) (s : State), s.hostUp = true → ∃ a : BitVec 32,
      exec (.bdAssignWrite v) s = .next { s with hif := { s.hif with assignWanted := v, bdAssign := a } } ∧
      ∀ c : Fin 32, a.getLsbD c.val = if (s.chan (hostChan c)).state = .active then s.hif.bdAssign.getLsbD c.val else v.getLsbD c.val) ∧
    (∀ (v : BitVec 32) (s : State), s.hostUp = true →
      let new : List (Fin 64) := ((List.finRange 32).filter (fun i => v.getLsbD i.val)).map (fun i => ⟨32 + i.val, by omega⟩)
      exec (.drqSoftWrite v) s = .next { s with dma := { s.dma with pulses := s.dma.pulses ++ new } }) ∧
    (∀ (v : BitVec 64) (s : State), s.hostUp = true →
      exec (.bar2BaseWrite .whole v) s = .next { s with hif := { s.hif with bar2Base := v &&& 0x3FFFF00000#64 } })
  )

/-- BAR2 accesses reach device memory inside the open windows and are counted outside; BAR0 registers read and write
in 4 and 8 bytes, 64-bit ones as two halves. With the host domain up, and the range wholly inside an open
window that grants the access: a BAR2 write leaves the data at base + offset, every other byte of device memory as
before, and touches only memory and its bookkeeping; a BAR2 read of words without errors returns the bytes at base +
offset and changes no memory, and one of a range with an uncorrectable word completes as poisoned and counts one
uncorrectable read. A refused write stores nothing and a refused read returns zeros; each counts one in its window
counter and records the address and the kind in LAST_FAULT. With the host domain up: a 4-byte write of FAULT_MASK at
0x0C sets the mask; a 4-byte read of ID at 0 returns the device and hardware revision numbers and changes nothing
else; a 4-byte read of the low half of TIME at 0x10 returns the low 32 bits of the always-on time and latches its high
32 bits, which are what the next 4-byte read at 0x14 returns. A write of reserved addresses has no effect; an access
whose size is not 4 or 8 or whose address is not a multiple of it sets bad_access, a read then returning zeros. A
4-byte write of the low half of Q_BASE waits, and the write of the high half makes both take effect on a queue that is
not enabled. (R6, R7, R23, R472, R473, R477, R479, R480, R509) -/
def Obligations.BarAccessesComplete : Prop :=
  (∀ (off : BitVec 32) (data : List Byte) (s : State), s.hostUp = true → Safety.MemoryCanonical s →
    let a := s.hif.bar2Base.toNat + off.toNat
    s.inWindow true a data.length = true →
    ∃ t, exec (.bar2Write off data) s = .next t ∧ t.memRead a data.length = data ∧
      (∀ b, b < a ∨ a + data.length ≤ b → Memory.get t.mem b = Memory.get s.mem b) ∧ t = { s with mem := t.mem, miu := t.miu }) ∧
  (∀ (off : BitVec 32) (len : Nat) (s : State), s.hostUp = true → s.miu.corrupt = [] →
    let a := s.hif.bar2Base.toNat + off.toNat
    s.inWindow false a len = true → s.readFails a len = false →
    ∃ t, exec (.bar2Read off len) s = .next t ∧ t.wires = .readData (s.memRead a len) :: s.wires ∧ t = { s with wires := t.wires, miu := t.miu }) ∧
  (∀ (off : BitVec 32) (len : Nat) (s : State), s.hostUp = true →
    let a := s.hif.bar2Base.toNat + off.toNat
    s.inWindow false a len = true → s.readFails a len = true →
    ∃ t, exec (.bar2Read off len) s = .next t ∧ t.wires = .readPoison len :: s.wires ∧ t.mem = s.mem ∧ t.miu.ue = satAdd s.miu.ue 1) ∧
  (∀ (off : BitVec 32) (data : List Byte) (s : State), s.hostUp = true →
    let a := s.hif.bar2Base.toNat + off.toNat
    s.inWindow true a data.length = false →
    exec (.bar2Write off data) s = .next { s with hif := { s.hif with
      wrFaults := satAdd s.hif.wrFaults 1, lastAddr := BitVec.ofNat 38 a, lastKind := 2 } }) ∧
  (∀ (off : BitVec 32) (len : Nat) (s : State), s.hostUp = true →
    let a := s.hif.bar2Base.toNat + off.toNat
    s.inWindow false a len = false →
    exec (.bar2Read off len) s = .next { s with
      hif := { s.hif with rdFaults := satAdd s.hif.rdFaults 1, lastAddr := BitVec.ofNat 38 a, lastKind := 1 }
      wires := .readData (List.replicate len 0) :: s.wires }) ∧
  (∀ (v : BitVec 64) (s : State), s.hostUp = true →
    exec (.bar0RegisterWrite 0x0C 4 v) s = .next { s with hif := { s.hif with faultMask := v.setWidth 8 } }) ∧
  (∀ s : State, s.hostUp = true →
    exec (.bar0LowHalfRead 0 4) s = .next { s with wires := .readData ([0x26, 0x48] ++ le 2 Config.hwRev.toNat) :: s.wires }) ∧
  (∀ s t : State, s.hostUp = true → exec (.bar0LowHalfRead 0x10 4) s = .next t →
    t.wires = .readData (le 4 (s.nowNs % 2 ^ 32)) :: s.wires ∧ t.aon = s.aon ∧
    ∀ now, exec (.bar0LowHalfRead 0x14 4) { t with aon := now } =
      .next { t with aon := now, wires := .readData (le 4 (s.nowNs / 2 ^ 32 % 2 ^ 32)) :: t.wires
                     hif := { t.hif with highLatch := t.hif.highLatch.filter (fun e => e.1 ≠ 0x10) } }) ∧
  (∀ (v : BitVec 64) (s : State), s.hostUp = true → exec (.bar0RegisterWrite 0x20 4 v) s = .next s) ∧
  (∀ (off : BitVec 24) (size : Nat) (v : BitVec 64) (s : State), s.hostUp = true →
    ¬ (size = 4 ∧ off.toNat % 4 = 0) → ¬ (size = 8 ∧ off.toNat % 8 = 0) →
    exec (.bar0RegisterWrite off size v) s = .next (s.setGlobalFault 7) ∧
    exec (.bar0LowHalfRead off size) s = .next ((s.emit (.readData (List.replicate size 0))).setGlobalFault 7)) ∧
  (∀ (n : Fin 48) (lo hi : BitVec 32) (s t : State), s.hostUp = true → (s.que n).enable = false →
    exec (.bar0RegisterWrite (BitVec.ofNat 24 (0x200000 + 64 * n.val)) 4 (lo.setWidth 64)) s = .next t →
    (t.que n) = s.que n ∧
    ∃ u, exec (.bar0RegisterWrite (BitVec.ofNat 24 (0x200004 + 64 * n.val)) 4 (hi.setWidth 64)) t = .next u ∧
      (u.que n).base = (hi ++ lo) &&& 0xFFFFFFFFFFFFF000#64)

/-- go latches the transfer of an IDLE channel and starts it once every check of R483 passes; abort stops an ACTIVE one and
the W1C bits of STATUS clear. With the host domain up, an IDLE channel that the host holds and a written CTRL value
with go set: when a side is device memory, the request line is not 20 to 31, neither range passes 2^64, no reserved
CTRL field is set, cq is 0 to 31 or 0x3F, the count is not 0 and each device side lies wholly in an open window that
grants its access, the channel becomes ACTIVE with SRC, DST, COUNT, REQ_SEL, CTRL and USER latched, RUN one higher,
nothing moved, and the whole count as its burst unless drq_en is set. Every other channel and queue is as before, and
the reads then issued are each of 1 byte to the programmed max read request size, with never more than 64 outstanding
over all channels. A count of 0 ends the channel with EMPTY, and a side outside the windows with WINDOW_FAULT counted
in DMA_WIN_FAULTS: it stays IDLE and nothing moves. With the host domain up and a channel the host holds: a CTRL write
with abort set and go clear on an ACTIVE channel marks the transfer for its aborted end and stores the written control
bits; on an IDLE or WAIT_CQ channel only the control bits are stored. A STATUS write clears drq_overflow and
go_ignored where bits 16 and 17 are 1. A write to a channel that is not the host's sets bad_access and changes no
channel. (R23, R481, R482, R483, R486, R488) -/
def Obligations.ChannelRegistersComplete : Prop :=
  (∀ (c : Fin 32) (v : BitVec 32) (s : State), s.hostUp = true → s.hif.bdAssign.getLsbD c.val = true →
    let o := s.chan (hostChan c)
    o.state = .idle → v.getLsbD 0 = true → (v.getLsbD 8 = true ∨ v.getLsbD 9 = true) →
    ¬ (20 ≤ o.reqSel.toNat % 64 ∧ o.reqSel.toNat % 64 ≤ 31) → o.src.toNat + o.count.toNat ≤ 2 ^ 64 → o.dst.toNat + o.count.toNat ≤ 2 ^ 64 →
    v &&& 0xFFC0F8FC#32 = 0 → (v.toNat / 65536 % 64 ≤ 31 ∨ v.toNat / 65536 % 64 = 63) → o.count ≠ 0 →
    (v.getLsbD 8 = true → s.inWindow false o.src.toNat o.count.toNat = true) →
    (v.getLsbD 9 = true → s.inWindow true o.dst.toNat o.count.toNat = true) → s.dma.reads.length ≤ 64 →
    ∃ t, exec (.go c v) s = .next t ∧ t = { s with dma := t.dma, wires := t.wires } ∧
      t.dma.queues = s.dma.queues ∧ t.dma.pulses = s.dma.pulses ∧ (∀ k, k ≠ hostChan c → t.chan k = s.chan k) ∧
      t.dma.reads.length ≤ 64 ∧ (∀ r ∈ t.dma.reads, r ∈ s.dma.reads ∨ (0 < r.2 ∧ r.2 ≤ maxRead)) ∧
      let x := t.chan (hostChan c)
      x.state = .active ∧
      x.latched = { src := o.src, dst := o.dst, count := o.count, reqSel := o.reqSel, ctrl := v &&& 0xFFFFFFFC#32, user := o.user } ∧
      x.run = o.run + 1 ∧ x.moved = 0 ∧ x.burstLeft = (if o.reqSel.getLsbD 7 = true then 0 else o.count.toNat) ∧
      x.src = o.src ∧ x.dst = o.dst ∧ x.count = o.count ∧ x.reqSel = o.reqSel ∧ x.user = o.user ∧ x.lastStatus = o.lastStatus) ∧
  (∀ (c : Fin 32) (v : BitVec 32) (s : State), s.hostUp = true → s.hif.bdAssign.getLsbD c.val = true →
    let o := s.chan (hostChan c)
    o.state = .idle → v.getLsbD 0 = true → v.getLsbD 9 = true → v.getLsbD 8 = false → o.reqSel = 0 → o.src.toNat + o.count.toNat ≤ 2 ^ 64 →
    o.dst.toNat + o.count.toNat ≤ 2 ^ 64 → v &&& 0xFFC0F8FC#32 = 0 → v.toNat / 65536 % 64 = 63 →
    (o.count = 0 ∨ s.inWindow true o.dst.toNat o.count.toNat = false) →
    ∃ t, exec (.go c v) s = .next t ∧ (t.chan (hostChan c)).state = .idle ∧ (t.chan (hostChan c)).moved = 0 ∧ t.mem = s.mem ∧
      (t.chan (hostChan c)).lastStatus = (if o.count = 0 then Status.empty.code else Status.windowFault.code) ∧
      t.hif.dmaFaults = (if o.count = 0 then s.hif.dmaFaults else satAdd s.hif.dmaFaults 1)) ∧
  (∀ (c : Fin 32) (v : BitVec 32) (s : State), s.hostUp = true → s.hif.bdAssign.getLsbD c.val = true → v.getLsbD 0 = false →
    v.getLsbD 1 = true →
    exec (.abort c v) s = .next (s.updChan (hostChan c) (fun x => { x with
      ctrl := v &&& 0xFFFFFFFC#32, abortWanted := x.abortWanted || (x.state == .active) }))) ∧
  (∀ (c : Fin 32) (v : BitVec 32) (s : State), s.hostUp = true → s.hif.bdAssign.getLsbD c.val = true →
    exec (.bdStatusClear c v) s = .next (s.updChan (hostChan c) (fun x => { x with
      drqOverflow := x.drqOverflow && !v.getLsbD 16, goIgnored := x.goIgnored && !v.getLsbD 17 }))) ∧
  (∀ (c : Fin 32) (v : BitVec 32) (s : State), s.hostUp = true → s.hif.bdAssign.getLsbD c.val = false →
    exec (.abort c v) s = .next (s.setGlobalFault 7) ∧ exec (.bdStatusClear c v) s = .next (s.setGlobalFault 7) ∧
    exec (.go c v) s = .next (s.setGlobalFault 7))

/-- Request pulses, reads, completions and waiting records of Bulk DMA complete. DRQ_PULSE of a pulse on its way takes it
off and lets an ACTIVE channel with drq_en on that line move a burst of (burst_m1 + 1) x 64 bytes, or what remains,
where none is in progress. DMA_READ_COMPLETION with the data of a channel's oldest outstanding read, of host memory and
into device memory, stores them at the destination behind what is moved already and counts them in moved; every other
byte of device memory and every other channel is as before. A read that fails once is marked and issued again, and
nothing moves; one that fails twice ends the transfer with LASTING_FAULT to come, and none of the channel's reads stays
outstanding. DMA_TRANSFER_DONE of an ACTIVE channel with everything moved and no retry needed ends it IDLE with OK,
and where its CQ is enabled with room writes a completion record there. WAIT_CQ_RECORD writes the waiting record once
its CQ has room and frees the channel. (R484, R485, R487, R488, R491, R493) -/
def Obligations.DmaEventsComplete : Prop :=
  (∀ (line : Fin 64) (t : Nat) (s : State) (c : Fin 48), line ∈ s.dma.pulses → (s.chan c).state = .active → (s.chan c).latched.drqEn = true →
    (s.chan c).latched.line = line.val → (s.chan c).burstLeft = 0 →
    ∃ u, exec (.drqPulse line t) s = .next u ∧ u.dma.pulses = s.dma.pulses.erase line ∧
      (u.chan c).burstLeft = min (((s.chan c).latched.reqSel.toNat / 256 % 4096 + 1) * 64) ((s.chan c).latched.count.toNat - (s.chan c).moved.toNat)) ∧
  (∀ (c : Fin 48) (data : List Byte) (t : Nat) (s : State), Safety.MemoryCanonical s →
    s.dma.reads.find? (fun r => r.1 = c) = some (c, data.length) → (s.chan c).latched.srcDev = false → (s.chan c).latched.dstDev = true →
    let a := (s.chan c).latched.dst.toNat + (s.chan c).moved.toNat
    ∃ u, exec (.dmaReadCompletion c data true t) s = .next u ∧ u.memRead a data.length = data ∧
      (∀ b, b < a ∨ a + data.length ≤ b → Memory.get u.mem b = Memory.get s.mem b) ∧
      (u.chan c).moved = (s.chan c).moved + BitVec.ofNat 32 data.length ∧ (∀ k, k ≠ c → u.chan k = s.chan k)) ∧
  (∀ (c : Fin 48) (data : List Byte) (n t : Nat) (s : State), s.dma.reads.find? (fun r => r.1 = c) = some (c, n) →
    (s.chan c).latched.srcDev = false →
    ∃ u, exec (.dmaReadCompletion c data false t) s = .next u ∧ u.mem = s.mem ∧ (u.chan c).moved = (s.chan c).moved ∧
      (∀ k, k ≠ c → u.chan k = s.chan k) ∧
      ((s.chan c).retrying = false → (u.chan c) = { s.chan c with retrying := true } ∧ (∀ r ∈ s.dma.reads, r ∈ u.dma.reads) ∧
        .hostRead ((s.chan c).latched.src.toNat + (s.chan c).moved.toNat) n (s.chan c).latched.ns ∈ u.wires) ∧
      ((s.chan c).retrying = true → (u.chan c).ended.map (·.status) = some .lastingFault ∧ ∀ r ∈ u.dma.reads, r.1 ≠ c)) ∧
  (∀ (c : Fin 48) (t : Nat) (s : State), (s.chan c).state = .active → (s.chan c).ended = none →
    (s.chan c).latched.count.toNat ≤ (s.chan c).moved.toNat → (s.chan c).transient = false →
    (∃ q : Fin 48, q.val = (s.chan c).latched.cq ∧ q.val < 32 ∧ (s.que q).enable = true ∧ 1 ≤ (s.que q).space) →
    ∃ u, exec (.dmaTransferDone c t) s = .next u ∧ (u.chan c).state = .idle ∧ (u.chan c).lastStatus = Status.ok.code ∧
      ∀ q : Fin 48, q.val = (s.chan c).latched.cq → (u.que q).tail = (s.que q).nextTail) ∧
  (∀ (c : Fin 32) (t : Nat) (s : State) (e : XferEnd) (q : Fin 48), (s.chan (hostChan c)).state = .waitCq → (s.chan (hostChan c)).ended = some e →
    q.val = (s.chan (hostChan c)).latched.cq → q.val < 32 → (s.que q).enable = true → 1 ≤ (s.que q).space →
    ∃ u, exec (.waitCqRecord c t) s = .next u ∧ (u.chan (hostChan c)).state = .idle ∧ (u.que q).tail = (s.que q).nextTail)

/-- Enabling a queue, its head and its error bits. With the host domain up: setting enable of a queue that is not enabled,
with log2_size 4 to 16 and a base that is not 0, enables it with tail and head 0; with another size or base 0 it is
refused with cfg_error set. A write of Q_HEAD that does not pass the tail sets the head, and one that would is
discarded with head_error set. A write of Q_STATUS clears cfg_error and head_error where bits 2 and 3 are 1. Writes of
Q_BASE and Q_SIZE while the queue is enabled change nothing. A record of a queue without interrupt goes to the slot of
its index, its last four bytes after the others, with phase 1 exactly when bit log2_size of the index is 0, and the
index advances modulo twice the size. Only that queue changes. (R489, R490) -/
def Obligations.QueueRegistersComplete : Prop :=
  (∀ (n : Fin 48) (v : BitVec 32) (s : State), s.hostUp = true → v.getLsbD 0 = true → (s.que n).enable = false →
    4 ≤ (s.que n).log2Size.toNat → (s.que n).log2Size.toNat ≤ 16 → (s.que n).base ≠ 0 →
    exec (.qCtrlEnable n v) s = .next (s.updQue n (fun x => { x with
      enable := true, tail := 0, head := 0, lost := 0, unsignalled := 0, irqEn := v.getLsbD 1, ns := v.getLsbD 2
      coalCount := (v >>> 8).setWidth 8, coalUs := (v >>> 16).setWidth 10 }))) ∧
  (∀ (n : Fin 48) (v : BitVec 32) (s : State), s.hostUp = true → v.getLsbD 0 = true → (s.que n).enable = false →
    ((s.que n).log2Size.toNat < 4 ∨ 16 < (s.que n).log2Size.toNat ∨ (s.que n).base = 0) →
    ∃ x, exec (.qCtrlEnable n v) s = .next (s.updQue n (fun _ => x)) ∧ x.enable = false ∧ x.cfgError = true) ∧
  (∀ (n : Fin 48) (v : BitVec 32) (s : State), s.hostUp = true →
    let x := s.que n
    let size := 2 ^ x.log2Size.toNat
    let h := v.toNat % 2 ^ 17
    exec (.qHeadWrite n v) s = .next (s.updQue n (fun x =>
      if h < 2 * size ∧ (x.tail.toNat + 2 * size - h) % (2 * size) ≤ (x.tail.toNat + 2 * size - x.head.toNat) % (2 * size)
      then { x with head := BitVec.ofNat 17 h } else { x with headError := true }))) ∧
  (∀ (n : Fin 48) (v : BitVec 32) (s : State), s.hostUp = true →
    exec (.qStatusClear n v) s = .next (s.updQue n (fun x => { x with
      cfgError := x.cfgError && !v.getLsbD 2, headError := x.headError && !v.getLsbD 3 }))) ∧
  (∀ (n : Fin 48) (v : BitVec 64) (s : State), s.hostUp = true → (s.que n).enable = true →
    exec (.bar0RegisterWrite (BitVec.ofNat 24 (0x200000 + 64 * n.val)) 8 v) s = .next s ∧
    exec (.bar0RegisterWrite (BitVec.ofNat 24 (0x200008 + 64 * n.val)) 4 v) s = .next s) ∧
  (∀ (s : State) (q : Fin 48) (record : Bool → List Byte), (s.que q).irqEn = false →
    let x := s.que q
    let n := if q.val < 32 then 32 else 64
    let a := x.base.toNat + x.tail.toNat % 2 ^ x.log2Size.toNat * n
    let p := record (!x.tail.toNat.testBit x.log2Size.toNat)
    s.writeRecord q record = ({ s with
      wires := .hostWrite (a + (n - 4)) (p.drop (n - 4)) x.ns :: .hostWrite a (p.take (n - 4)) x.ns :: s.wires } : State).updQue q
      (fun x => { x with tail := BitVec.ofNat 17 ((x.tail.toNat + 1) % (2 * 2 ^ x.log2Size.toNat)) }))

/-- EVQ_LOST, the coalescing timer, PERST# and its release complete. EVQ_LOST of an enabled event queue with room, which
holds records lost and nothing else, writes one EVQ_LOST record and clears the count. QUEUE_INTERRUPT_TIMER signals
the queue's vector once coal_us have passed since the first unsignalled record. PERST resets the host domain: with no
transfer from host memory in progress every queue is disabled, every host mailbox has empty rings and every started
request's replies are discarded, BAR2_BASE and BD_ASSIGN have their reset values, the window counters keep theirs, and
device memory, the job and MB4 to MB7 are as before. PERST_RELEASE brings the powered host domain up after boot with
host_reset set on MB0 to MB3. (R428, R470, R475, R476, R493) -/
def Obligations.QueueEventsComplete : Prop :=
  (∀ (n : Fin 16) (t : Nat) (s : State), (s.que (eqIndex n)).enable = true → 1 ≤ (s.que (eqIndex n)).space → (s.que (eqIndex n)).lostSince ≠ 0 →
    (s.que (eqIndex n)).held = [] →
    exec (.evqLost n t) s = .next (((s.at t).writeRecord (eqIndex n) (((s.at t).lostEvent (s.que (eqIndex n)).lostSince).record 0)).updQue (eqIndex n)
      (fun x => { x with lostSince := 0 }))) ∧
  (∀ (n : Fin 48) (t : Nat) (s : State), (s.que n).enable = true → (s.que n).irqEn = true → (s.que n).coalUs ≠ 0 → 0 < (s.que n).unsignalled →
    (s.que n).since + (s.que n).coalUs.toNat * 1000 * 2 ^ 32 ≤ max s.aon t →
    exec (.queueInterruptTimer n t) s = .next (((s.at t).updQue n (fun x => { x with unsignalled := 0 })).msix (5 + n.val))) ∧
  (∀ (t : Nat) (s : State), (s.hamper.stagings.all (fun g => !g.srcHost)) = true → (s.hamper.listStagings.all (fun g => !g.srcHost)) = true →
    ∃ u, exec (.perst t) s = .next u ∧ u.hif.inReset = true ∧ (∀ q : Fin 48, (u.que q).enable = false ∧ (u.que q).held = (s.que q).held) ∧
      (∀ m : Fin 8, m.val < 4 → (u.box m).reqTail = 0 ∧ (u.box m).reqHead = 0 ∧ (u.box m).rplTail = 0 ∧ (u.box m).rplHead = 0 ∧
        (u.box m).held = [] ∧ (u.box m).memory = (s.box m).memory ∧ (∀ x ∈ (u.box m).outstanding, x.muted = true)) ∧
      (∀ m : Fin 8, 4 ≤ m.val → u.box m = s.box m) ∧ u.hif.bar2Base = 0x3400000000 ∧ u.hif.bdAssign = 0xFFFFFFFF ∧
      u.hif.rdFaults = s.hif.rdFaults ∧ u.hif.wrFaults = s.hif.wrFaults ∧ u.hif.dmaFaults = s.hif.dmaFaults ∧ u.mem = s.mem ∧ u.job = s.job) ∧
  (∀ (t : Nat) (s : State), s.hif.inReset = true → s.pwr.powered.getLsbD 2 = true → 4 ≤ s.boot.stage.toNat →
    ∃ u, exec (.perstRelease t) s = .next u ∧ u.hif.inReset = false ∧
      (∀ m : Fin 8, u.box m = if m.val < 4 then { s.box m with hostReset := true } else s.box m) ∧
      u = { s.at t with hif := u.hif, clk := u.clk, mbx := u.mbx })

/-- Supply faults, power-down, repower and power-up of a domain; temperature samples are judged. VIN below 33.0 V or above
78.0 V while PD1 is powered, with no repower of PD1 within the last 10 s, leaves only PD0 powered, the job IDLE,
device memory without contents, PD1 due to come up again, the alert bit of rail faults set, and WASTE held for cause
POWER where a job was armed. A rail fault of PD2 to PD11 without a repower within 10 s powers the domain and
everything that depends on it down, plans their repower 1 ms later and, with no powered connector among them, posts
PWR_RAIL alone. REPOWER of a domain that is
due, down and whose parent is up powers it and posts PWR_RAIL: the fault was transient. DOMAIN_POWER_UP of a domain
that may be powered, with the firmware serving, sets it powered and out of reset, and PD8 counts its web position from
0; DOMAIN_POWER_DOWN of a powered domain other than PD0 and PD1
takes it and its dependants down. TEMPERATURE_SAMPLE with one good reading for all 20 sensors below every WARN
threshold, no sensor excluded or suspect and every group at NORMAL, stores the readings, keeps every level and posts
nothing. With a reading at or above the die's WARN and below its THROTTLE threshold on the die sensors, the die
group's level becomes WARN, PWR_THERMAL is posted, and thermal is set in GLOBAL_FAULT and in ALERT_STATUS. (R604,
R605, R606, R607, R586, R610, R611) -/
def Obligations.SupplyFaultsAndTemperaturesAct : Prop :=
  (
    (∀ (mv t : Nat) (s : State), s.poweredOn 1 = true → (mv < 33000 ∨ 78000 < mv) → s.pwr.repowered[(1 : Fin 12)] = none →
      ∃ u, exec (.vinFault mv t) s = .next u ∧ u.pwr.powered = 1 ∧ u.pwr.vinMv = mv ∧ u.pwr.vinLow = true ∧ u.job.state = .idle ∧ u.mem = [] ∧
        u.pwr.repowerAt[(1 : Fin 12)] = some (max s.aon t) ∧ u.mgt.alertStatus.getLsbD 8 = true ∧
        (s.armed = true → u.fsv.waste = true ∧ u.fsv.power = true)) ∧
    (∀ (d : Fin 12) (c : RailCause) (t : Nat) (s : State), 2 ≤ d.val → s.poweredOn d = true → s.pwr.repowered[d] = none → s.armed = false →
      ∃ u, exec (.railFault d c t) s = .next u ∧ (∀ e : Fin 12, dependsOn e d = true → u.poweredOn e = false) ∧
        u.pwr.repowerAt[d] = some (max s.aon t + 1000000 * 2 ^ 32) ∧ u.pwr.railFaults.getLsbD d.val = true ∧
        ((dependsOn 9 d = true → s.poweredOn 9 = false) → (dependsOn 10 d = true → s.poweredOn 10 = false) → Claims.Posts s u [0x0330])) ∧
    (∀ (d : Fin 12) (mv t : Nat) (s : State) (due : Nat), 2 ≤ d.val → d ≠ 11 → s.pwr.repowerAt[d] = some due → due ≤ max s.aon t →
      s.poweredOn d = false → s.poweredOn (parentOf d) = true →
      ∃ u, exec (.repower d mv t) s = .next u ∧ u.poweredOn d = true ∧ u.pwr.repowerAt[d] = none ∧
        u.pwr.transients = satAdd s.pwr.transients 1 ∧ Claims.Posts s u [0x0330]) ∧
    (∀ (d : Fin 12) (t : Nat) (s : State), 2 ≤ d.val → d ≠ 11 → s.poweredOn d = false → s.poweredOn (parentOf d) = true →
      s.pwr.off.getLsbD d.val = false → (d ≠ 6 ∨ s.chk.shadowOff = false) → s.boot.fwReady = true →
      exec (.domainPowerUp d true t) s = .next { s.at t with
        pwr := { s.pwr with powered := s.pwr.powered ||| 1#12 <<< d.val }, clk := { s.clk with inReset := s.clk.inReset &&& ~~~(1#12 <<< d.val) }
        lsd := if d = 8 ∧ s.clk.inReset.getLsbD 8 = true then s.lsd.zeroed else s.lsd }) ∧
    (∀ (d : Fin 12) (t : Nat) (s : State), 2 ≤ d.val → s.poweredOn d = true → s.armed = false →
      ∃ u, exec (.domainPowerDown d t) s = .next u ∧ (∀ e : Fin 12, dependsOn e d = true → u.poweredOn e = false ∧
        (s.poweredOn e = true → u.clk.inReset.getLsbD e.val = true)) ∧ (∀ e : Fin 12, dependsOn e d = false → u.poweredOn e = s.poweredOn e))
  ) ∧ (
    (∀ (v : Int) (t : Nat) (s : State), -640 ≤ v → v < 16 * s.pwr.dieWarn → v < 16 * s.pwr.dramWarn → v < 16 * s.pwr.plateWarn → v < 1760 →
      s.pwr.dieWarn ≤ s.pwr.dieThrottle → s.pwr.dramWarn ≤ s.pwr.dramThrottle → s.pwr.plateWarn ≤ 65 → s.pwr.dieWarn ≤ 110 → s.pwr.dramWarn ≤ 95 →
      s.pwr.dieThrottle ≤ 110 → s.pwr.dramThrottle ≤ 95 →
      s.pwr.excluded = Vector.replicate 20 false → s.pwr.suspect = Vector.replicate 20 false → s.pwr.levels = Vector.replicate 4 0 →
      exec (.temperatureSample (List.replicate 20 v) t) s =
        .next { s.at t with pwr := { s.pwr with temps := Vector.replicate 20 v, criticalHold := false } }) ∧
    (∀ (v : Int) (t : Nat) (s : State), 16 * s.pwr.dieWarn ≤ v → v < 16 * s.pwr.dieThrottle → v < 1760 → -640 ≤ v →
      s.pwr.excluded = Vector.replicate 20 false → s.pwr.suspect = Vector.replicate 20 false → s.pwr.levels = Vector.replicate 4 0 →
      0 < s.pwr.dramWarn → 0 < s.pwr.plateWarn → s.pwr.dramWarn ≤ s.pwr.dramThrottle → s.pwr.dramThrottle ≤ 95 → s.pwr.plateWarn ≤ 64 →
      ∃ u, exec (.temperatureSample (List.replicate 8 v ++ List.replicate 12 0) t) s = .next u ∧ u.pwr.levels = #v[1, 0, 0, 0] ∧
        Claims.Posts s u [0x0331] ∧ u.hif.globalFault.getLsbD 6 = true ∧ u.mgt.alertStatus.getLsbD 6 = true)
  )

/-- CLOCK_STATUS, crystals, PLL locks and losses complete. CLOCK_STATUS answers OK with 96 bytes that carry the time, the
source and PLL states, the counters and the last reset's cause, and changes nothing. CRYSTAL_START of XB while it
starts makes it RUNNING, puts the always-on counter on it and asks CK_TIME to switch to it; of XA it makes it RUNNING.
CRYSTAL_START_LIMIT the first time marks the crystal restarted, posts CLK_FAULT and tells the supervisor of a pending
clock fault. PLL_LOCK of a PLL other than PL7 that locks, with XA running, makes it LOCKED and asks its domain, unless
it is gated, to switch to it. CLOCK_LOSS of a locked PLL other than PL5 and PL7 that its domain runs on ungated starts its relock,
asks the domain to switch to FIO, posts CLK_FAULT and tells the supervisor. (R521, R522, R528, R529, R542, R543) -/
def Obligations.ClockSourcesComplete : Prop :=
  (∀ (q : Req) (s : State), Claims.FreshOf 0x0840 0 q s → ∃ p : List Byte,
    exec (.clockStatus q) s = .next ((Claims.ok (s.start q 0x0840) p).deliver q 0x0840) ∧ p.length = 96 ∧ fld p 0 8 = s.nowNs % 2 ^ 64 ∧
    (∀ i : Fin 5, fld p (8 + i.val) 1 = (s.clk.sources[i]).code) ∧ (∀ i : Fin 8, fld p (16 + i.val) 1 = (s.clk.plls[i]).code) ∧
    fld p 84 4 = s.clk.transients.toNat ∧ fld p 88 4 = s.clk.lasting.toNat ∧ fld p 92 1 = s.clk.lastReset.toNat) ∧
  (∀ (t : Nat) (s : State), s.clk.sources[(3 : Fin 5)] = .starting → s.clk.restarted[(3 : Fin 5)] = false → (s.clk.domains[(1 : Fin 13)]).target = none →
    (s.clk.domains[(1 : Fin 13)]).clock ≠ 1 → (s.clk.domains[(1 : Fin 13)]).gated = false →
    ∃ u, exec (.crystalStart .xb t) s = .next u ∧ u.clk.sources = s.clk.sources.set 3 .running ∧ u.clk.onXb = true ∧
      (u.clk.domains[(1 : Fin 13)]).target = some 1 ∧ u = { s.at t with clk := u.clk }) ∧
  (∀ (t : Nat) (s : State), s.clk.sources[(2 : Fin 5)] = .starting → s.clk.restarted[(2 : Fin 5)] = false →
    ∃ u, exec (.crystalStart .xa t) s = .next u ∧ u.clk.sources = s.clk.sources.set 2 .running ∧ u = { s.at t with clk := u.clk }) ∧
  (∀ (x : Crystal) (t : Nat) (s : State), s.clk.sources[crystalIndex x] = .starting → s.clk.restarted[crystalIndex x] = false →
    ∃ u, exec (.crystalStartLimit x t) s = .next u ∧ u.clk = { s.clk with restarted := s.clk.restarted.set (crystalIndex x) true } ∧
      Claims.Posts s u [0x0300] ∧ Claims.Tells s u [.detect { fclass := 0x0C, source := 1, unit := BitVec.ofNat 8 (crystalClock x), outcome := .pending } (max s.aon t)]) ∧
  (∀ (p : Fin 8) (t : Nat) (s : State), p ≠ 7 → s.clk.sources[(2 : Fin 5)] = .running → (s.clk.plls[p] = .locking ∨ s.clk.plls[p] = .relocking) →
    s.clk.pllRetried[p] = false → (s.clk.domains[pllDomain p]).target = none → (s.clk.domains[pllDomain p]).clock ≠ 3 + p.val →
    (s.clk.domains[pllDomain p]).gated = false →
    ∃ u, exec (.pllLock p t) s = .next u ∧ u.clk.plls = s.clk.plls.set p .locked ∧ (u.clk.domains[pllDomain p]).target = some (3 + p.val) ∧
      u = { s.at t with clk := u.clk }) ∧
  (∀ (p : Fin 8) (t : Nat) (s : State), p ≠ 5 → p ≠ 7 → s.clk.plls[p] = .locked → (s.clk.domains[pllDomain p]).clock = 3 + p.val →
    (s.clk.domains[pllDomain p]).target = none → (s.clk.domains[pllDomain p]).gated = false →
    ∃ u, exec (.clockLoss (.pll p) t) s = .next u ∧ u.clk.plls = s.clk.plls.set p .relocking ∧ u.clk.pllRetried = s.clk.pllRetried.set p true ∧
      (u.clk.domains[pllDomain p]).target = some 2 ∧ Claims.Posts s u [0x0300] ∧
      Claims.Tells s u [.detect { fclass := 0x0C, source := 1, unit := BitVec.ofNat 8 (3 + p.val), outcome := .pending } (max s.aon t)])

/-- Clock switches, time copies and crossings complete. For a domain whose switch is in progress and none waits (CK_TIM
only while LSD holds no line starts): CLOCK_SWITCH selects the new clock, counts the switch, clears gated and posts
CLK_SWITCH; SWITCH_HANDSHAKE_TIMEOUT does so with forced set and also posts CLK_FAULT; NEW_CLOCK_TIMEOUT, with FIO
running and neither clock FIO, selects FIO with forced set. XB_INCREMENT_UPDATE, with PD1 powered, XA running and the
counter on XB, sets the increment to the measured time of one XB cycle. TIME_COPY_RELOAD never moves a copy backward.
PEER_IN_RESET of a crossing whose domain is in reset reports it and counts the drops, saturating; CROSSING_READY of
one out of reset clears the report. (R524, R525, R526, R532, R533, R540, R541) -/
def Obligations.ClockSwitchesComplete : Prop :=
  (∀ (d : Fin 13) (t : Nat) (s : State) (c : Nat), (s.clk.domains[d]).target = some c → (s.clk.domains[d]).waiting = [] → (d ≠ 9 ∨ s.lsd.hold = false) →
    let o := s.clk.domains[d]
    ∃ u, exec (.clockSwitch d t) s = .next u ∧ u.clk.domains = s.clk.domains.set d { o with
        clock := c, target := none, gated := false, switches := satAdd o.switches 1 } ∧ Claims.Posts s u [0x0301]) ∧
  (∀ (d : Fin 13) (t : Nat) (s : State) (c : Nat), (s.clk.domains[d]).target = some c → (s.clk.domains[d]).waiting = [] → (d ≠ 9 ∨ s.lsd.hold = false) →
    let o := s.clk.domains[d]
    ∃ u, exec (.switchHandshakeTimeout d t) s = .next u ∧ u.clk.domains = s.clk.domains.set d { o with
        clock := c, target := none, gated := false, forced := true, switches := satAdd o.switches 1 } ∧ Claims.Posts s u [0x0301, 0x0300]) ∧
  (∀ (d : Fin 13) (t : Nat) (s : State) (c : Nat), (s.clk.domains[d]).target = some c → (s.clk.domains[d]).waiting = [] → c ≠ 2 →
    (s.clk.domains[d]).clock ≠ 2 → s.clk.sources[(0 : Fin 5)] = .running →
    let o := s.clk.domains[d]
    ∃ u, exec (.newClockTimeout d t) s = .next u ∧ u.clk.domains = s.clk.domains.set d { o with
        clock := 2, target := none, gated := false, forced := true, switches := satAdd o.switches 1 } ∧ Claims.Posts s u [0x0301, 0x0300]) ∧
  (∀ (x t : Nat) (s : State), s.poweredOn 1 = true → s.clk.sources[(2 : Fin 5)] = .running → s.clk.onXb = true →
    exec (.xbIncrementUpdate x t) s = .next { s.at t with clk := { s.clk with increment := x * 20 * 2 ^ 32 / 32768 } }) ∧
  (∀ (d : Fin 13) (t : Nat) (s : State),
    exec (.timeCopyReload d t) s = .next { s.at t with clk := { s.clk with copies := s.clk.copies.set d (max s.clk.copies[d] (max s.aon t)) } }) ∧
  (∀ (d : Fin 13) (n : Nat) (s : State), s.clk.inReset.getLsbD (clockPower d).val = true →
    exec (.peerInReset d n) s = .next { s with clk := { s.clk with crossings := upd s.clk.crossings d (fun c =>
      { c with peerInReset := true, drops := satAdd c.drops n }) } }) ∧
  (∀ (d : Fin 13) (s : State), s.clk.inReset.getLsbD (clockPower d).val = false →
    exec (.crossingReady d) s = .next { s with clk := { s.clk with crossings := upd s.clk.crossings d (fun c => { c with peerInReset := false }) } })

/-- Power-on, module reset, its release and Kettle restarts complete. POWER_ON leaves the state right after power-on but
for the flash, the straps and what the model keeps for itself. MGMT_RESET_N low for at least 1 us asks for a module
reset with cause 1. MODULE_RESET_SEQUENCE with a reset wanted latches its cause, counts it, returns the job to IDLE,
empties every mailbox, holds PD1 to PD11 in reset from then on and keeps WASTE only for cause POWER, which it sets for
an armed job. RESET_RELEASE 10 us after the hold began, with the pin high and PD1 powered, starts boot. A first Kettle
fault, or one a second or more after the last restart, restarts the Kettle: every started request is answered,
requests not started are kept, results and an open update are dropped, kettle_restart is set; a second within 1 s asks
for a watchdog reset with cause 3. THERMOS_WATCHDOG keeps everything. RESET_NOTICE of
the present epoch marks the peer as in reset. (R373, R429, R532, R534, R535, R536) -/
def Obligations.ResetsComplete : Prop :=
  (∀ (maddr : BitVec 3) (head : Bool) (s : State),
    exec (.powerOn maddr head) s = .next { State.reset with
      pending := s.pending, free := s.free, wires := s.wires, boot := { State.reset.boot with flash := s.boot.flash }
      chain := { State.reset.chain with strap := head }, mgt := { State.reset.mgt with maddr := maddr } }) ∧
  (∀ (t t0 : Nat) (s : State), s.clk.pinLow = some t0 → t0 + 1000 * 2 ^ 32 ≤ max s.aon t → s.clk.wanted = none → s.clk.holdFrom = none →
    exec (.mgmtResetN true t) s = .next { s.at t with clk := { s.clk with wanted := some 1, pinLow := none } } ∧
    exec (.mgmtResetN false t) s = .next { s.at t with clk := { s.clk with wanted := some 1 } }) ∧
  (∀ (t : Nat) (s : State) (c : Byte), s.clk.wanted = some c →
    ∃ u, exec (.moduleResetSequence t) s = .next u ∧ u.clk.lastReset = c ∧ u.clk.wanted = none ∧ u.clk.holdFrom = some (max s.aon t) ∧
      u.clk.inReset = 0xFFE ∧ u.job.state = .idle ∧ u.mbx = Mbx.init ∧ u.boot.flash.resets = satAdd s.boot.flash.resets 1 ∧
      u.boot.fwReady = false ∧ u.fsv.waste = u.fsv.power ∧ (s.armed = true → u.fsv.power = true) ∧ u.pwr.powered = s.pwr.powered ∧
      u.mgt.alertStatus.getLsbD 9 = true ∧ u.mem = s.mem) ∧
  (∀ (t t0 : Nat) (s : State), s.clk.holdFrom = some t0 → t0 + 10000 * 2 ^ 32 ≤ max s.aon t → s.clk.pinLow = none → s.poweredOn 1 = true →
    ∃ u, exec (.resetRelease t) s = .next u ∧ u.boot.stage = 1 ∧ u.clk.holdFrom = none ∧ u.clk.inReset = s.clk.inReset &&& ~~~2#12 ∧
      u.clk.sources[(0 : Fin 5)] = .running) ∧
  (∀ (t : Nat) (s : State), (s.boot.kettleAt = none ∨ ∃ t0, s.boot.kettleAt = some t0 ∧ t0 + 1000000000 * 2 ^ 32 ≤ max s.aon t) →
    (∃ u, exec (.kettleFault t) s = .next u ∧ (∀ m : Fin 8, (u.box m).outstanding = [] ∧ (u.box m).reqTail = (s.box m).reqTail ∧
        (u.box m).reqHead = (s.box m).reqHead ∧ (u.box m).requests = (s.box m).requests) ∧ u.mbx.results = [] ∧ u.boot.update = none ∧
      u.boot.kettleAt = some (max s.aon t) ∧ u.hif.globalFault.getLsbD 3 = true ∧ u.job = s.job) ∧
    (∃ u, exec (.kettleWatchdog t) s = .next u ∧ u.boot.kettleAt = some (max s.aon t) ∧ u.hif.globalFault.getLsbD 3 = true ∧ u.job = s.job)) ∧
  (∀ (t t0 : Nat) (s : State), s.boot.kettleAt = some t0 → max s.aon t < t0 + 1000000000 * 2 ^ 32 →
    (∃ u, exec (.kettleFault t) s = .next u ∧ u.clk.wanted = some 3) ∧ (∃ u, exec (.kettleWatchdog t) s = .next u ∧ u.clk.wanted = some 3)) ∧
  (∀ (t : Nat) (s : State), exec (.thermosWatchdog t) s = .next { s with aon := max s.aon t }) ∧
  (∀ (h : ChainHdr) (c : Byte) (t : Nat) (s : State), h.epoch = s.chain.epoch →
    ∃ u, exec (.resetNotice h c t) s = .next u ∧ u.chain.inReset.getLsbD h.src.val = true)

/-- FW_STATUS and the three update commands complete. FW_STATUS answers OK with 48 bytes and changes nothing.
FW_UPDATE_BEGIN of a firmware image of 4,096 to 67,108,864 bytes, or of a key package of 64 to 65,536, with no
operation executing, is ACCEPTED and opens an update of that item that erases its target, which is not valid from then
on. FW_UPDATE_DATA on an open
idle update, with an offset that is a multiple of 256, a length of 1 to 1,048,576 within the declared length, no page
programmed before and a source in the transfer zone, is ACCEPTED and programs the piece. FW_UPDATE_COMMIT on an open
idle update with every page programmed, and activate only while no job is armed, is ACCEPTED and verifies the item.
While an operation executes the three answer BAD_STATE, and only the request's bookkeeping and reply follow. Only the
open update and its target's validity change. (R556, R557, R558, R559, R560) -/
def Obligations.UpdateCommandsComplete : Prop :=
  (∀ (q : Req) (s : State), Claims.FreshOf 0x0010 0 q s → ∃ p : List Byte,
    exec (.fwStatus q) s = .next ((Claims.ok (s.start q 0x0010) p).deliver q 0x0010) ∧ p.length = 48 ∧ fld p 0 1 = s.boot.running.val ∧
    fld p 2 1 = s.boot.flash.floor.val ∧ fld p 40 8 = s.nowNs % 2 ^ 64) ∧
  (∀ (q : Req) (s : State) (key : Bool) (len : Nat), Claims.Fresh 0x0011 q s → s.updBusy = false →
    (if key = true then 64 ≤ len ∧ len ≤ 65536 else 4096 ≤ len ∧ len ≤ 67108864) →
    q.payload = [if key then 1 else 0, 0, 0, 0] ++ le 4 len ++ List.replicate 8 0 →
    let u : Update := { item := if key then .keyPackage else .firmware, length := len, pages := [], written := 0, busy := some (.erase, q.origin) }
    let fl := s.boot.flash
    let b : Boot := if key then { s.boot with update := some u, flash := { fl with packages := fl.packages.set fl.packageTarget none } }
      else { s.boot with update := some u, slots := s.boot.slots.set s.targetSlot SlotInfo.none }
    exec (.fwUpdateBegin q) s = .next ((Claims.accepted { s.start q 0x0011 with boot := b }).deliver q 0x0011)) ∧
  (∀ (q : Req) (s : State) (o : Update) (off len src : Nat), Claims.Fresh 0x0012 q s → s.boot.update = some o → o.item ≠ .recovery → o.busy = none →
    off % 256 = 0 → off < 2 ^ 32 → 1 ≤ len → len ≤ 1048576 → off + len ≤ o.length → (piecePages off len).any o.pages.contains = false →
    0x3400000000 ≤ src → src + len ≤ 0x3800000000 → q.payload = le 4 off ++ le 4 len ++ le 8 src ++ List.replicate 8 0 →
    let u : Update := { o with busy := some (.program off len src, q.origin) }
    exec (.fwUpdateData q) s = .next ((Claims.accepted { s.start q 0x0012 with boot := { s.boot with update := some u } }).deliver q 0x0012)) ∧
  (∀ (q : Req) (s : State) (o : Update) (act raise : Bool), Claims.Fresh 0x0013 q s → s.boot.update = some o → o.item ≠ .recovery → o.busy = none →
    o.gap = none → (act = false ∨ s.armed = false) →
    q.payload = [BitVec.ofNat 8 ((if act then 1 else 0) + if raise then 2 else 0), 0, 0, 0, 0, 0, 0, 0] →
    let u : Update := { o with busy := some (.commit act raise, q.origin) }
    exec (.fwUpdateCommit q) s = .next ((Claims.accepted { s.start q 0x0013 with boot := { s.boot with update := some u } }).deliver q 0x0013)) ∧
  (∀ (q : Req) (s : State), s.updBusy = true →
    (Claims.Fresh 0x0011 q s → q.payload = [0, 0, 0, 0, 0, 0x10, 0, 0, 0, 0, 0, 0, 0, 0, 0, 0] →
      exec (.fwUpdateBegin q) s = .next ((Ans.fail (s.start q 0x0011) .badState).deliver q 0x0011)) ∧
    (Claims.FreshOf 0x0012 24 q s → exec (.fwUpdateData q) s = .next ((Ans.fail (s.start q 0x0012) .badState).deliver q 0x0012)) ∧
    (Claims.Fresh 0x0013 q s → q.payload = List.replicate 8 0 →
      exec (.fwUpdateCommit q) s = .next ((Ans.fail (s.start q 0x0013) .badState).deliver q 0x0013)))

/-- The erase, program and commit of a firmware update complete, and its activation resets the module. FW_OPERATION_DONE
ends the operation of the open update. An erase leaves no byte of the target area programmed and the update idle. A
program leaves the piece's bytes, as device memory holds them, in flash at the area's base plus the offset, with its
pages marked programmed. A commit of a verified image at or above the security floor and of release 3 or later writes
the record: the records then name the target slot, the slot is valid, and the update is closed; with activate the
reset is due 1 ms later. A commit whose signature fails leaves the records and slots as before and the update open and
idle. Each of a firmware update posts FW_DONE. FIRMWARE_ACTIVATION when due is a module reset of cause 5. (R548, R549,
R556, R559, R561) -/
def Obligations.FlashOperationsComplete : Prop :=
  (∀ (t : Nat) (s : State) (u : Update) (o : Origin), s.boot.update = some u → u.busy = some (.erase, o) → u.item = .firmware →
    ∃ v, exec (.fwOperationDone .done t) s = .next v ∧ v.boot.update = some { u with busy := none } ∧ Claims.Posts s v [0x0011] ∧
      (∀ c ∈ v.boot.flash.cells, c.1 < s.itemBase .firmware ∨ s.itemBase .firmware + 0x4000000 ≤ c.1) ∧
      v.boot.slots = s.boot.slots ∧ v.boot.flash.packages = s.boot.flash.packages) ∧
  (∀ (t : Nat) (s : State) (u : Update) (o : Origin) (off len src : Nat), s.boot.update = some u → u.busy = some (.program off len src, o) →
    u.item = .firmware → Memory.wf s.boot.flash.cells = true →
    ∃ v, exec (.fwOperationDone .done t) s = .next v ∧ Claims.Posts s v [0x0011] ∧
      Memory.read v.boot.flash.cells (s.itemBase .firmware + off) len = s.memRead src len ∧
      v.boot.update = some { u with pages := u.pages ++ piecePages off len, written := u.written + len, busy := none }) ∧
  (∀ (t : Nat) (s : State) (u : Update) (o : Origin) (act : Bool) (image : ImageCheck), s.boot.update = some u → u.busy = some (.commit act false, o) →
    u.item = .firmware → s.boot.flash.floor.val ≤ image.secVer.val → 3 ≤ image.major.toNat →
    ∃ v, exec (.fwOperationDone (.verified true true true image 0 0) t) s = .next v ∧ v.boot.update = none ∧ v.boot.flash.named = s.targetSlot ∧
      v.boot.slots = s.boot.slots.set s.targetSlot (slotInfoOf image s.boot.flash.floor) ∧ v.boot.flash.floor = s.boot.flash.floor ∧
      Claims.Posts s v [0x0011] ∧ v.boot.activateAt = (if act then some (max s.aon t + 1000000 * 2 ^ 32) else s.boot.activateAt)) ∧
  (∀ (t : Nat) (s : State) (u : Update) (o : Origin) (act raise : Bool) (image : ImageCheck), s.boot.update = some u →
    u.busy = some (.commit act raise, o) → u.item = .firmware →
    ∃ v, exec (.fwOperationDone (.verified false true true image 0 0) t) s = .next v ∧ v.boot.update = some { u with busy := none } ∧
      v.boot.flash = s.boot.flash ∧ v.boot.slots = s.boot.slots ∧ Claims.Posts s v [0x0011]) ∧
  (∀ (t t0 : Nat) (s : State), s.boot.activateAt = some t0 → t0 ≤ max s.aon t →
    ∃ v, exec (.firmwareActivation t) s = .next v ∧ v.clk.lastReset = 5 ∧ v.mbx = Mbx.init ∧ v.boot.fwReady = false ∧ v.boot.update = none ∧
      v.clk.inReset = 0xFFE)

/-- Boot stages complete in order, and a lasting failure stops boot. While boot runs: stage 0x01 passed starts the PLLs
that are off and reaches 0x02; 0x04 passed with PD3 powered releases PD3 from reset and reaches 0x05, which draws non-zero DRAM address keys and
reaches 0x06; 0x06 with nothing found leaves device memory zero and reaches 0x07; 0x07 with the named slot valid
chooses it; 0x09 passed opens the transfer zone to the host, sets the lock and reaches 0x0A; 0x0A passed with every
domain powered sets fw_ready and ready of every mailbox, records the boot time and posts BOOT_REPORT first. A failure
of stage 0x01, or a self-test with a retired granule outside the page store, stops boot: the boot ROM serves MB4 and
MB5 and boot_stop is set. (R545, R547, R548, R551, R552, R555) -/
def Obligations.BootStagesComplete : Prop :=
  (∀ (t n : Nat) (s : State), s.booting = true → s.boot.stage = 1 → s.clk.sources[(2 : Fin 5)] ≠ .failed →
    exec (.bootStage (.passed n) t) s = .next { s.at t with
      boot := { s.boot with stage := 2 }, clk := { s.clk with plls := s.clk.plls.map (fun p => if p = .off then .locking else p) } }) ∧
  (∀ (t n : Nat) (s : State), s.booting = true → s.boot.stage = 4 → s.poweredOn 3 = true →
    exec (.bootStage (.passed n) t) s = .next { s.at t with boot := { s.boot with stage := 5 }
                                                            clk := { s.clk with inReset := s.clk.inReset &&& ~~~8#12 } }) ∧
  (∀ (t n : Nat) (s : State), s.booting = true → s.boot.stage = 5 →
    ∃ u, exec (.bootStage (.passed n) t) s = .next u ∧ u.boot = { s.boot with stage := 6 } ∧ u.free = s.free + 10 ∧
      (∀ i : Fin 5, u.miu.kc[i] ≠ 0 ∧ u.miu.kb[i] ≠ 0)) ∧
  (∀ (t n : Nat) (s : State), s.booting = true → s.boot.stage = 6 →
    exec (.bootStage (.passed n) t) s = .next { s.at t with
      boot := { s.boot with stage := 7 }, mem := [], miu := { s.miu with stuck := [], retired := [] } }) ∧
  (∀ (t : Nat) (s : State) (a b : ImageCheck), s.booting = true → s.boot.stage = 7 →
    (if s.boot.flash.named = 0 then Machine.ImageCheck.valid a s.boot.flash.floor else Machine.ImageCheck.valid b s.boot.flash.floor) = true →
    ∃ u, exec (.bootStage (.images a b) t) s = .next u ∧ u.boot.stage = 8 ∧ u.boot.running = s.boot.flash.named ∧ u.boot.fallback = false) ∧
  (∀ (t n : Nat) (s : State), s.booting = true → s.boot.stage = 9 →
    ∃ u, exec (.bootStage (.passed n) t) s = .next u ∧ u.boot = { s.boot with stage := 10 } ∧ u.hif.locked = true ∧
      u.hif.windows = (Vector.replicate 8 Window.none).set 0 { base := 0x3400000000, size := 0x400000, read := true, write := true, valid := true }) ∧
  (∀ (t n : Nat) (s : State), s.booting = true → s.boot.stage = 10 → (∀ d : Fin 12, 4 ≤ d.val → s.poweredOn d = true) →
    ∃ u rest, exec (.bootStage (.passed n) t) s = .next u ∧ u.boot.fwReady = true ∧ u.boot.bootTime = BitVec.ofNat 64 (max s.aon t / 2 ^ 32) ∧
      (∀ m : Fin 8, (u.box m).ready = true) ∧ Claims.Posts s u (0x0012 :: rest)) ∧
  (∀ (t : Nat) (s : State), s.booting = true → s.boot.stage = 1 →
    ∃ u, exec (.bootStage .failed t) s = .next u ∧ u.boot.recovery = true ∧ u.boot.stopCause = 1 ∧ (u.box 4).ready = true ∧ (u.box 5).ready = true ∧
      u.mgt.alertStatus.getLsbD 2 = true ∧ u.boot.stage = 1) ∧
  (∀ (t : Nat) (s : State), s.booting = true → s.boot.stage = 6 →
    ∃ u, exec (.bootStage (.selfTest [] [0]) t) s = .next u ∧ u.boot.recovery = true ∧ u.boot.stopCause = 2 ∧ u.boot.stage = 6)

/-- Writes and reads of the management registers take effect. With the right byte count and a good PEC: a write of
ALERT_STATUS clears the bits written as 1 and releases SMBALERT_N once no unmasked bit is left; a write of FLOG_INDEX
sets the index and one of the read-only ID nothing; MB_CTRL go submits the buffer to the tunnel's mailbox and makes the buffer busy, and with the buffer
busy it is discarded with overrun set and a NACK counted; pop discards the oldest reply; bit 14 clears overrun; MB_REQ
places bytes into a free buffer from the offset that leads them. MB_RPL reads up to 128 bytes of the oldest reply from
an offset. An Alert Response read while the line is asserted releases it and returns the address 0x58 + MADDR, and is
not acknowledged otherwise. An SCL timeout is counted. A wrong count is NACKed, and a missing PEC discards the write
and counts it. (R590, R591, R592, R593, R596) -/
def Obligations.ManagementRegistersComplete : Prop :=
  (∀ (v : Nat) (s : State), let a := s.mgt.alertStatus &&& ~~~(BitVec.ofNat 11 (v % 2 ^ 32))
    exec (.alertStatusClear (le 4 v) true) s = .next { s with mgt := { s.mgt with
      alertStatus := a, alert := s.mgt.alert && (a &&& ~~~(s.mgt.alertMask.truncate 11)) != 0 } }) ∧
  (∀ (v : Nat) (s : State), exec (.mgmtRegisterWrite 0x08 (le 4 v) true) s =
    .next { s with mgt := { s.mgt with flogIndex := BitVec.ofNat 5 (v % 2 ^ 32) } } ∧
    exec (.mgmtRegisterWrite 0x00 (le 4 v) true) s = .next s) ∧
  (∀ (n : Fin 2) (s : State), let m : Fin 8 := ⟨4 + n.val, by omega⟩
    (s.mgt.tunnels[n]).reqFree = true →
    exec (.mbCtrlGo n [1, 0, 0, 0] true) s = .next ((s.updTunnel n (fun t => { t with reqFree := false })).setBox m
      { s.box m with requests := (s.box m).requests ++ [(s.mgt.tunnels[n]).buffer] })) ∧
  (∀ (n : Fin 2) (s : State), (s.mgt.tunnels[n]).reqFree = false →
    exec (.mbCtrlGo n [1, 0, 0, 0] true) s = .next (({ s with mgt := { s.mgt with nacks := satAdd s.mgt.nacks 1 } } : State).updTunnel n
      (fun t => { t with overrun := true }))) ∧
  (∀ (n : Fin 2) (s : State), let m : Fin 8 := ⟨4 + n.val, by omega⟩
    exec (.mbCtrlPop n [2, 0, 0, 0] true) s = .next (s.setBox m { s.box m with replies := (s.box m).replies.drop 1 })) ∧
  (∀ (n : Fin 2) (s : State), exec (.mbCtrlClear n [0, 0x40, 0, 0] true) s = .next (s.updTunnel n (fun t => { t with overrun := false }))) ∧
  (∀ (n : Fin 2) (off : Byte) (data : List Byte) (s : State), (s.mgt.tunnels[n]).reqFree = true → (s.mgt.tunnels[n]).buffer.length = 256 →
    1 ≤ data.length → data.length ≤ 254 → off.toNat + data.length ≤ 256 →
    ∃ b : List Byte, exec (.mbReqWrite n (off :: data) true) s = .next (s.updTunnel n (fun t => { t with buffer := b })) ∧ b.length = 256 ∧
      (b.drop off.toNat).take data.length = data ∧ b.take off.toNat = (s.mgt.tunnels[n]).buffer.take off.toNat ∧
      b.drop (off.toNat + data.length) = (s.mgt.tunnels[n]).buffer.drop (off.toNat + data.length)) ∧
  (∀ (n : Fin 2) (off : Byte) (s : State) (r : List Byte) (rest : List (List Byte)), (s.box ⟨4 + n.val, by omega⟩).replies = r :: rest →
    exec (.mbRplRead n off) s = .next { s with wires := .readData ((r.drop off.toNat).take 128) :: s.wires }) ∧
  (∀ s : State, s.mgt.alert = true → exec .alertResponseRead s =
    .next { s with mgt := { s.mgt with alert := false }, wires := .readData [BitVec.ofNat 8 (2 * (0x58 + s.mgt.maddr.toNat))] :: s.wires }) ∧
  (∀ s : State, s.mgt.alert = false → exec .alertResponseRead s = .next { s with wires := .nack :: s.wires }) ∧
  (∀ (t : Nat) (s : State), exec (.sclTimeout t) s = .next { s.at t with mgt := { s.mgt with timeouts := satAdd s.mgt.timeouts 1 } }) ∧
  (∀ (data : List Byte) (pec : Bool) (s : State), data.length ≠ 4 →
    exec (.alertStatusClear data pec) s = .next { s with mgt := { s.mgt with nacks := satAdd s.mgt.nacks 1 }, wires := .nack :: s.wires }) ∧
  (∀ (data : List Byte) (s : State), data.length = 4 →
    exec (.alertStatusClear data false) s = .next { s with mgt := { s.mgt with pecErrors := satAdd s.mgt.pecErrors 1 } })

/-- MGMT_DOMAINS, standby, wake, the recovery upload, POWER_STATUS and THERMAL_CONFIG complete. On MB4 or MB5: MGMT_DOMAINS
READ answers OK with the powered domains and the rail faults since power-on and changes nothing; STANDBY with its
confirm value, unless a job is armed and force is clear, answers OK and falls due 1 ms later. RECOVERY_BEGIN of 4,096
to 67,108,864 bytes with no flash operation executing is ACCEPTED and erases the recovery area. RECOVERY_DATA of the
next piece stores its bytes at the count written and counts them. RECOVERY_COMMIT of a complete idle upload is
ACCEPTED and verifies it. STANDBY when due, with the job IDLE, leaves only PD0 powered and device memory without
contents. A PWR_CTRL wake with its key while PD1 is unpowered, outside the hold after CRITICAL, powers PD1 and starts
boot with cause code 1; with PD1 powered it does nothing. POWER_STATUS answers OK with 80 bytes that carry VIN, the
powered domains, the rail faults and the time; input current and power are free values the step draws, and nothing
else changes. THERMAL_CONFIG with thresholds in range, no throttle threshold below its warning threshold and reserved
bytes zero sets the five thresholds and nothing else; a throttle threshold below its warning threshold answers
BAD_PARAM and sets nothing. (R595, R597, R598, R599, R612, R613, R614) -/
def Obligations.ManagementCommandsComplete : Prop :=
  (∀ (q : Req) (s : State), Claims.Fresh 0x0F01 q s → q.payload = List.replicate 8 0 → ∃ p : List Byte,
    exec (.mgmtDomains q) s = .next ((Claims.ok (s.start q 0x0F01) p).deliver q 0x0F01) ∧ p.length = 4 ∧
    fld p 0 2 = s.pwr.powered.toNat ∧ fld p 2 2 = s.pwr.railSince.toNat) ∧
  (∀ (q : Req) (s : State) (force : Bool), Claims.Fresh 0x0F01 q s → q.payload = [1, if force then 1 else 0, 0x5A, 0xA5, 0, 0, 0, 0] →
    (force = true ∨ s.armed = false) →
    exec (.mgmtDomains q) s = .next ((Claims.ok { s.start q 0x0F01 with
      boot := { s.boot with standbyAt := some (s.aon + 1000000 * 2 ^ 32) } }).deliver q 0x0F01)) ∧
  (∀ (q : Req) (s : State) (len : Nat), Claims.Fresh 0x0F02 q s → s.updBusy = false → 4096 ≤ len → len ≤ 67108864 →
    q.payload = le 4 len ++ [0, 0, 0, 0] →
    let u : Update := { item := .recovery, length := len, pages := [], written := 0, busy := some (.erase, q.origin) }
    exec (.recoveryBegin q) s = .next ((Claims.accepted { s.start q 0x0F02 with boot := { s.boot with update := some u } }).deliver q 0x0F02)) ∧
  (∀ (q : Req) (s : State) (o : Update) (data : List Byte), Claims.Fresh 0x0F03 q s → s.boot.update = some o → o.item = .recovery → o.busy = none →
    Memory.wf s.boot.flash.cells = true → 1 ≤ data.length → data.length ≤ 224 → o.written + data.length ≤ o.length → o.length ≤ 67108864 →
    q.payload = le 4 o.written ++ le 2 data.length ++ [0, 0] ++ data →
    ∃ u : State, exec (.recoveryData q) s = .next ((Claims.ok u).deliver q 0x0F03) ∧
      Memory.read u.boot.flash.cells (0x9000000 + o.written) data.length = data ∧ u = { s.start q 0x0F03 with boot := u.boot } ∧
      u.boot.update.map (·.written) = some (o.written + data.length)) ∧
  (∀ (q : Req) (s : State) (o : Update) (act : Bool), Claims.Fresh 0x0F04 q s → s.boot.update = some o → o.item = .recovery → o.busy = none →
    o.written = o.length → (act = false ∨ s.armed = false) → q.payload = [if act then 1 else 0, 0, 0, 0, 0, 0, 0, 0] →
    let u : Update := { o with busy := some (.commit act false, q.origin) }
    exec (.recoveryCommit q) s = .next ((Claims.accepted { s.start q 0x0F04 with boot := { s.boot with update := some u } }).deliver q 0x0F04)) ∧
  (∀ (t t0 : Nat) (s : State), s.boot.standbyAt = some t0 → t0 ≤ max s.aon t → s.job.state = .idle →
    ∃ u, exec (.standby t) s = .next u ∧ u.pwr.powered = 1 ∧ u.mem = [] ∧ u.mbx = Mbx.init) ∧
  (∀ (t : Nat) (s : State), s.poweredOn 1 = false → s.pwr.criticalHold = false →
    ∃ u, exec (.pwrCtrlWake [0xA5, 0x5A, 1, 0] true t) s = .next u ∧ u.poweredOn 1 = true ∧ u.boot.stage = 1 ∧ u.clk.lastReset = 1) ∧
  (∀ (t : Nat) (s : State), s.poweredOn 1 = true → exec (.pwrCtrlWake [0xA5, 0x5A, 1, 0] true t) s = .next (s.at t)) ∧
  (∀ (q : Req) (s : State), Claims.FreshOf 0x0020 0 q s → ∃ p : List Byte,
    exec (.powerStatus q) s = .next ((Claims.ok { s.start q 0x0020 with free := s.free + 1 } p).deliver q 0x0020) ∧ p.length = 80 ∧
    fld p 0 4 = s.pwr.vinMv % 2 ^ 32 ∧ fld p 12 2 = s.pwr.powered.toNat ∧ fld p 14 2 = s.pwr.railFaults.toNat ∧
    fld p 60 4 = s.pwr.transients.toNat ∧ fld p 64 4 = s.pwr.lasting.toNat ∧ fld p 72 8 = s.nowNs % 2 ^ 64) ∧
  (∀ (q : Req) (s : State) (dw dt mw mt pw : Nat), Claims.Fresh 0x0021 q s → 70 ≤ dw → dw ≤ 100 → 75 ≤ dt → dt ≤ 105 → 60 ≤ mw → mw ≤ 90 →
    65 ≤ mt → mt ≤ 92 → 30 ≤ pw → pw ≤ 64 → dw ≤ dt → mw ≤ mt →
    q.payload = [BitVec.ofNat 8 dw, BitVec.ofNat 8 dt, BitVec.ofNat 8 mw, BitVec.ofNat 8 mt, BitVec.ofNat 8 pw, 0, 0, 0] →
    exec (.thermalConfig q) s = .next ((Claims.ok { s.start q 0x0021 with pwr := { s.pwr with
      dieWarn := dw, dieThrottle := dt, dramWarn := mw, dramThrottle := mt, plateWarn := pw } }).deliver q 0x0021)) ∧
  (∀ (q : Req) (s : State), Claims.FreshOf 0x0021 8 q s → (fld q.payload 1 1 < fld q.payload 0 1 ∨ fld q.payload 3 1 < fld q.payload 2 1) →
    exec (.thermalConfig q) s = .next ((Ans.fail (s.start q 0x0021) .badParam).deliver q 0x0021))

/-- PLANE_DEFINE, ROW_DEFINE, PANEL_DEFINE, JOB_DEFINE, JOB_CLEAR and JOB_STATUS complete. In IDLE, DEFINED or STOPPED:
PLANE_DEFINE of a plane 0 to 15 that no panel names sets its format. ROW_DEFINE of a row 0 to 15 assigns it to a plane
with an interleave 1, 2 or 4 and a phase below it. PANEL_DEFINE of a slot outside the sequence, with a record in the
transfer zone that passes the checks of R61, replaces the slot's panel by it, and with undefine removes it. JOB_DEFINE
of 1 to 4,096 defined slots in the transfer zone, none but the last repeating until stopped, fewer than 2^48 lines in
all and no binding live or staged, defines that sequence and the mode of PRINT_ENABLE, and the job is DEFINED.
JOB_CLEAR discards sequence, panels and bindings and the job is IDLE. JOB_STATUS answers OK with 64 bytes that begin
with the state and the reason, and changes nothing. All but JOB_STATUS answer BAD_STATE in every other state. (R446,
R447, R449, R450, R451, R466) -/
def Obligations.JobDefinitionCompletes : Prop :=
  (∀ (q : Req) (s : State) (plane : Fin 16) (codes : Bool), Claims.Fresh 0x0201 q s → s.job.state.defines = true →
    s.planeNamed plane.val = false → q.payload = [BitVec.ofNat 8 plane.val, if codes then 1 else 0, 0, 0, 0, 0, 0, 0] →
    exec (.planeDefine q) s = .next ((Claims.ok { s.start q 0x0201 with layout := { s.layout with
      planes := upd s.layout.planes plane (fun x => { x with codes := codes }) } }).deliver q 0x0201)) ∧
  (∀ (q : Req) (s : State) (row plane : Fin 16) (k phase : Nat), Claims.Fresh 0x0202 q s → s.job.state.defines = true → (k = 1 ∨ k = 2 ∨ k = 4) →
    phase < k → q.payload = [BitVec.ofNat 8 row.val, BitVec.ofNat 8 plane.val, BitVec.ofNat 8 k, BitVec.ofNat 8 phase, 0, 0, 0, 0] →
    exec (.rowDefine q) s = .next ((Claims.ok { s.start q 0x0202 with layout := { s.layout with
      rows := upd s.layout.rows row (fun d => { d with plane := some plane, k := k, phase := phase }) } }).deliver q 0x0202)) ∧
  (∀ (q : Req) (s : State) (slot : Fin 4096) (src : Nat) (p : Panel), Claims.Fresh 0x0203 q s → s.job.state.defines = true →
    s.job.seq.contains slot = false → 0x3400000000 ≤ src → src + 1040 ≤ 0x3800000000 → s.checkPanel slot (s.memRead src 1040) = .good p →
    q.payload = le 2 slot.val ++ List.replicate 6 0 ++ le 8 src → ∃ r : List Byte,
    exec (.panelDefine q) s = .next ((Claims.ok { s.start q 0x0203 with layout := { s.layout with
      panels := s.layout.panels.filter (fun x => x.slot ≠ slot) ++ [p] } } r).deliver q 0x0203) ∧ r.length = 16) ∧
  (∀ (q : Req) (s : State) (slot : Fin 4096), Claims.Fresh 0x0203 q s → s.job.state.defines = true → s.job.seq.contains slot = false →
    q.payload = le 2 slot.val ++ [1] ++ List.replicate 13 0 →
    exec (.panelDefine q) s = .next ((Claims.ok { s.start q 0x0203 with layout := { s.layout with
      panels := s.layout.panels.filter (fun x => x.slot ≠ slot) } } (List.replicate 16 0)).deliver q 0x0203)) ∧
  (∀ (q : Req) (s : State) (count mode src : Nat), Claims.Fresh 0x0204 q s → s.job.state.defines = true → 1 ≤ count → count ≤ 4096 → mode ≤ 2 →
    0x3400000000 ≤ src → src + 2 * count ≤ 0x3800000000 → s.bound = false →
    let nums := (List.range count).map (fun i => fld (s.memRead (src + 2 * i) 2) 0 2)
    let seq : List (Fin 4096) := nums.map (Fin.ofNat 4096)
    let panels := seqPanels s.layout seq
    (∀ n ∈ nums, ∃ p ∈ s.layout.panels, p.slot.val = n) → (∀ p ∈ panels.dropLast, p.rpt ≠ 0) →
    (∀ t, seqTotals panels = some t → t.2 < 2 ^ 48) →
    q.payload = le 2 count ++ [BitVec.ofNat 8 mode, 0, 0, 0, 0, 0] ++ le 8 src →
    exec (.jobDefine q) s = .next ((Claims.ok { s.start q 0x0204 with job := { s.job with state := .defined, seq := seq, peMode := mode } }
      (totalsBytes (seqTotals panels))).deliver q 0x0204)) ∧
  (∀ (q : Req) (s : State), Claims.FreshOf 0x020A 0 q s → (s.job.state = .defined ∨ s.job.state = .stopped) →
    ∃ u : State, exec (.jobClear q) s = .next ((Claims.ok u).deliver q 0x020A) ∧ u.job = { s.job with state := .idle, seq := [] } ∧
      u.layout.panels = [] ∧ u.txn.newest.bindings = [] ∧ u.layout.planes = s.layout.planes ∧ u.layout.rows = s.layout.rows) ∧
  (∀ (q : Req) (s : State), Claims.FreshOf 0x0200 0 q s → ∃ p : List Byte,
    exec (.jobStatus q) s = .next ((Claims.ok (s.start q 0x0200) p).deliver q 0x0200) ∧ p.length = 64 ∧
    fld p 0 1 = s.job.state.code ∧ fld p 1 1 = s.job.reason.toNat ∧ fld p 12 4 = s.job.detail.toNat ∧ fld p 56 8 = s.nowNs % 2 ^ 64) ∧
  (∀ (q : Req) (s : State), s.job.state.defines = false →
    (Claims.Fresh 0x0201 q s → q.payload = List.replicate 8 0 →
      exec (.planeDefine q) s = .next ((Ans.fail (s.start q 0x0201) .badState).deliver q 0x0201)) ∧
    (Claims.Fresh 0x0202 q s → q.payload = [0, 0, 1, 0, 0, 0, 0, 0] →
      exec (.rowDefine q) s = .next ((Ans.fail (s.start q 0x0202) .badState).deliver q 0x0202)) ∧
    (Claims.FreshOf 0x020A 0 q s → exec (.jobClear q) s = .next ((Ans.fail (s.start q 0x020A) .badState).deliver q 0x020A)))

/-- JOB_ARM, the arming steps and readiness of rows complete. JOB_ARM of a defined or stopped job, with the web
configured, a chain address held, some row assigned, no plane with bad interleave or screening, no armed peer of other
geometry and no lasting fault that blocks arming, is ACCEPTED: the job is ARMING at step 1 for that request, a lasting
encoder fault ends, every waste range is closed and WASTE for cause POWER ends. ARMING_STEP with every lane of the
needed connectors up takes step 2 to step 3, and with every assigned row ready and every one of those lanes
ACTIVE ends step 7: the job is ARMED and
JOB_STATE is posted. ROW_READY at step 7 of an assigned row whose first lines are agreed, buffered and acknowledged
makes it ready. Without a configured web JOB_ARM answers BAD_STATE. (R453, R454, R160, R634, R466, R33, R585, R586) -/
def Obligations.ArmingCompletes : Prop :=
  (∀ (q : Req) (s : State), Claims.FreshOf 0x0205 0 q s → (s.job.state = .defined ∨ s.job.state = .stopped) → s.lsd.configured = true →
    s.chain.address.isSome = true → (∃ r, s.assigned r = true) → (∀ p, s.interleaveBad p = false) → (∀ p, s.screenBad p = false) →
    s.geometryPeer = none → s.armBlockedByFault = false →
    ∃ u : State, exec (.jobArm q) s = .next ((Claims.accepted u).deliver q 0x0205) ∧ u.job.state = .arming ∧ u.job.armStep = 1 ∧
      u.job.armReq = some q.origin ∧ u.lsd.lasting = false ∧ u.fsv.ranges = [] ∧ u.fsv.power = false ∧ u.mem = s.mem ∧ u.layout = s.layout) ∧
  (∀ (t : Nat) (s : State), s.job.state = .arming → s.job.armStep = 2 → (∀ c ∈ s.armConns, s.failedLanes c = 0 ∧ s.connUp c = true) →
    exec (.armingStep t) s = .next { s.at t with job := { s.job with armStep := 3, stepSince := max s.aon t } }) ∧
  (∀ (t : Nat) (s : State), s.job.state = .arming → s.job.armStep = 7 → (∀ r, s.assigned r = true → (s.rows[r]).ready = true) →
    (∀ c ∈ s.armConns, ∀ l ∈ connLanes c, (s.lane (asLane l)).state = .active) →
    ∃ u, exec (.armingStep t) s = .next u ∧ u.job = { s.job with state := .armed, armStep := 0, armReq := none } ∧ Claims.Posts s u [0x0200] ∧
      u = { s.at t with job := u.job, mbx := u.mbx }) ∧
  (∀ (r : Fin 16) (t : Nat) (s : State), s.job.state = .arming → s.job.armStep = 7 → s.assigned r = true → s.rowIsReady r = true →
    exec (.rowReady r t) s = .next ((s.at t).updRow r (fun x => { x with ready := true }))) ∧
  (∀ (q : Req) (s : State), Claims.FreshOf 0x0205 0 q s → s.lsd.configured = false →
    exec (.jobArm q) s = .next ((Ans.fail (s.start q 0x0205) .badState).deliver q 0x0205))

/-- Jobs start, pause, resume, stop and end: their commands, their rows and the fault stop complete. JOB_START of an ARMED
job whose PRINT_ENABLE mode holds the latch back makes it STARTED and posts JOB_STATE,
what edges are due taking effect first. JOB_PAUSE by line in RUNNING,
not in mode PAUSE, with no pause and every live row 8 lines of lead, places the pause and answers the line; JOB_RESUME
by a line beyond a pause with no resume placed and that lead places the resume. JOB_STOP NOW and MGMT_JOB_STOP of an
ARMED or STARTED job are ACCEPTED: the job is STOPPED with reason COMMAND or MANAGEMENT and no request waits for its
stop. JOB_STOP NOW of a RUNNING job with lines already fired gives every live row its next line as stop line or stops
it. A PRINT_ENABLE level that has stood for 10 us is qualified, and in mode IGNORE only reported. ROW_STOPPED of a
live row with its stop line at 0, or behind a line whose fate has been reported, stops the row and posts JOB_BOUNDARY
as its last but one or last event. ROW_DONE of a live row whose last line's fate has been reported makes it done.
JOB_END with every assigned row done ends a RUNNING or STOPPING job: STOPPED with reason END. FAULT_STOP of an ARMED
or STARTED job with a stop decided by FSV announces it, sets fault_stop in GLOBAL_FAULT and ALERT_STATUS, and stops
the job with its reason; with no job armed only the decision goes. (R456, R457, R458, R459, R461, R466, R39, R463,
R464, R465, R580) -/
def Obligations.JobRunsAndEndsComplete : Prop :=
  (
    (∀ (q : Req) (s : State), Claims.FreshOf 0x0206 0 q s → s.job.state = .armed → s.job.peMode ≠ 0 → s.job.printEnable = false →
      let w := (s.start q 0x0206).webSettle
      ∃ u : State, exec (.jobStart q) s = .next ((Claims.ok u).deliver q 0x0206) ∧ u.job = { s.job with state := .started } ∧
        u.lsd = { w.lsd with latchEnabled := false } ∧ u.mbx.outbox.length = w.mbx.outbox.length + 1) ∧
    (∀ (q : Req) (s : State), Claims.FreshOf 0x0206 0 q s → s.job.state = .armed → s.job.peMode = 0 → s.lsd.cfg.originMode ≠ 0 →
      ∃ u : State, exec (.jobStart q) s = .next ((Claims.ok u).deliver q 0x0206) ∧ u.job = { s.job with state := .started } ∧ u.lsd.latchEnabled = true) ∧
    (∀ (q : Req) (s : State) (line : Nat), Claims.Fresh 0x0207 q s → s.job.state = .running → s.job.peMode ≠ 2 → s.job.pauseAt = none → line < 2 ^ 48 →
      (∀ r, s.live r = true → s.lsd.rows[r].next + 7 ≤ s.effLine r line) → q.payload = List.replicate 8 0 ++ le 8 line →
      ∃ u : State, exec (.jobPause q) s = .next ((Claims.ok u (le 8 line)).deliver q 0x0207) ∧ u.job.pauseAt = some line ∧ u.job.resumeAt = none ∧
        u.job.state = .running ∧ u = { s.start q 0x0207 with job := u.job }) ∧
    (∀ (q : Req) (s : State) (p line : Nat), Claims.Fresh 0x0208 q s → s.job.state = .running → s.job.peMode ≠ 2 → s.job.pauseAt = some p →
      s.job.resumeAt = none → p < line → line < 2 ^ 48 → (∀ r, s.live r = true → s.lsd.rows[r].next + 7 ≤ s.effLine r line) →
      q.payload = List.replicate 8 0 ++ le 8 line →
      exec (.jobResume q) s = .next ((Claims.ok { s.start q 0x0208 with job := { s.job with resumeAt := some line } } (le 8 line)).deliver q 0x0208)) ∧
    (∀ (q : Req) (s : State), Claims.Fresh 0x0209 q s → (s.job.state = .armed ∨ s.job.state = .started) → q.payload = List.replicate 16 0 →
      ∃ u : State, exec (.jobStop q) s = .next ((Claims.accepted u).deliver q 0x0209) ∧ u.job.state = .stopped ∧ u.job.reason = 2 ∧ u.job.stopReqs = [] ∧
        u.job.pauseAt = none) ∧
    (∀ (q : Req) (s : State), Claims.Fresh 0x0209 q s → s.job.state = .running → q.payload = List.replicate 16 0 →
      ∃ u : State, exec (.jobStop q) s = .next ((Claims.accepted u).deliver q 0x0209) ∧ u.job.stopPending = true ∧
        (∀ r, s.live r = true → u.job.rows[r].stopLine = some s.lsd.rows[r].next) ∧ u.job.stopReqs = s.job.stopReqs ++ [q.origin]) ∧
    (∀ (q : Req) (s : State), Claims.Fresh 0x0F00 q s → (s.job.state = .armed ∨ s.job.state = .started) → q.payload = [0x5A, 0xA5, 0, 0, 0, 0, 0, 0] →
      ∃ u : State, exec (.mgmtJobStop q) s = .next ((Claims.accepted u).deliver q 0x0F00) ∧ u.job.state = .stopped ∧ u.job.reason = 5 ∧ u.job.stopReqs = []) ∧
    (∀ (level : Bool) (edge t : Nat) (s : State), edge + 10000 * 2 ^ 32 ≤ max s.aon t → s.job.printEnable ≠ level → s.job.peMode = 0 →
      ∃ u, exec (.printEnable level edge t) s = .next u ∧ u.job = { s.job with printEnable := level } ∧ Claims.Posts (s.at t).webSettle u [0x0202] ∧
        u = { (s.at t).webSettle with job := u.job, mbx := u.mbx })
  ) ∧ (
    (∀ (r : Fin 16) (t : Nat) (s : State) (e : Nat), s.live r = true → s.job.rows[r].stopLine = some e → (e = 0 ∨ s.fateReported r (e - 1) = true) →
      ∃ u, exec (.rowStopped r t) s = .next u ∧ (u.job.rows[r]).stopped = true ∧ u.live r = false ∧
        (u.job.state = if s.job.state = .running then .stopping else s.job.state) ∧ (∃ e ∈ u.mbx.outbox, e.code = 0x0201)) ∧
    (∀ (r : Fin 16) (t : Nat) (s : State) (m : Nat), s.live r = true → s.rowLines r = some (m + 1) → s.fateReported r m = true →
      ∃ u, exec (.rowDone r t) s = .next u ∧ (u.job.rows[r]).done = true ∧ u.live r = false ∧ (∃ e ∈ u.mbx.outbox, e.code = 0x0201)) ∧
    (∀ (t : Nat) (s : State), (s.job.state = .running ∨ s.job.state = .stopping) → (∀ r, s.assigned r = true → (s.job.rows[r]).done = true) →
      ∃ u, exec (.jobEnd t) s = .next u ∧ u.job.state = .stopped ∧ u.job.reason = 1 ∧ u.job.stopReqs = [] ∧ u.job.pauseAt = none ∧ u.job.resumeAt = none) ∧
    (∀ (t : Nat) (s : State) (w : StopWanted), s.fsv.stopWanted = some w → (s.job.state = .armed ∨ s.job.state = .started) →
      ∃ u, exec (.faultStop t) s = .next u ∧ u.job.state = .stopped ∧ u.job.reason = w.reason ∧ u.fsv.stopWanted = none ∧
        u.hif.globalFault.getLsbD 2 = true ∧ u.mgt.alertStatus.getLsbD 4 = true) ∧
    (∀ (t : Nat) (s : State) (w : StopWanted), s.fsv.stopWanted = some w → s.armed = false →
      exec (.faultStop t) s = .next { s.at t with fsv := { s.fsv with stopWanted := none } })
  )

/-- WEB_CONFIG, ROW_GEOMETRY and WEB_STATUS complete with their effect, and a line start advances its own row by one line.
With no job armed, WEB_CONFIG with every value in the range of R52 and the ratio of R35 within its bounds takes the
configuration in, after every edge whose tick has come has taken effect, and ROW_GEOMETRY of a row 0 to 15 sets its
offset, flight time and minimum fire interval; nothing else changes. While a job is armed both answer BAD_STATE. The
ratio num / den is the one of R35 in lowest terms. WEB_STATUS answers OK with 160 bytes that carry the state, the time
and each row's last line start, all ones before the first, after the due edges have taken effect, and changes nothing
else. LINE_START, once the due edges have taken effect, of a row that may produce line starts (the job is started, the
row live, the origin latched, its next line not cut off, no encoder hold or lasting fault, the count not below the
high-water mark, PD8 at work) and whose look-ahead position has reached the next start position makes the next line
of that row one higher and leaves the next line of every other row; origin and count stay. A row that may not, or has
not reached the line, keeps its next line. (R29, R35, R36, R41, R52, R53, R54) -/
def Obligations.WebCommandsAndLineStartsComplete : Prop :=
  (∀ (q : Req) (s : State), Claims.FreshOf 0x0210 40 q s → webBad q.payload = false → s.armed = false →
    let w := (s.start q 0x0210).webSettle
    exec (.webConfig q) s = .next ((Claims.ok { w with lsd := { w.lsd with
      configured := true, cfg := webCfgOf q.payload } }).deliver q 0x0210)) ∧
  (∀ (q : Req) (s : State) (r : Fin 16) (off flight m : Nat), Claims.Fresh 0x0211 q s → s.armed = false → off < 2 ^ 48 → flight ≤ 500000 →
    (m = 0 ∨ (1985 ≤ m ∧ m ≤ 1000000)) → q.payload = [BitVec.ofNat 8 r.val, 0, 0, 0] ++ le 8 off ++ le 4 flight ++ le 4 m ++ [0, 0, 0, 0] →
    exec (.rowGeometry q) s = .next ((Claims.ok { s.start q 0x0211 with lsd := { s.lsd with
      rows := upd s.lsd.rows r (fun x => { x with offset := off, flight := flight, minFire := m }) } }).deliver q 0x0211)) ∧
  (∀ (q : Req) (s : State), Claims.FreshOf 0x0210 40 q s → webBad q.payload = false → s.armed = true →
    exec (.webConfig q) s = .next ((Ans.fail (s.start q 0x0210) .badState).deliver q 0x0210)) ∧
  (∀ counts um lpi : Nat, 0 < counts → 0 < um → 0 < lpi → let w := webRatio counts um lpi
    Nat.gcd w.1 w.2 = 1 ∧ w.1 * (um * lpi) = w.2 * (counts * 25400)) ∧
  (∀ (q : Req) (s : State), Claims.FreshOf 0x0212 0 q s → let w := (s.start q 0x0212).webSettle
    ∃ p : List Byte, exec (.webStatus q) s = .next ((Claims.ok w p).deliver q 0x0212) ∧ p.length = 160 ∧
    fld p 20 1 = w.webStateCode ∧ fld p 24 8 = s.nowNs % 2 ^ 64 ∧
    ∀ r : Fin 16, fld p (32 + 8 * r.val) 8 = if (s.lsd.rows[r]).next = 0 then 2 ^ 64 - 1 else ((s.lsd.rows[r]).next - 1) % 2 ^ 64) ∧
  (∀ (r : Fin 16) (t : Nat) (s : State), let w := (s.at t).webSettle
    w.rowRuns r = true → w.reaches r = true →
    ∃ u, exec (.lineStart r t) s = .next u ∧ (u.lsd.rows[r]).next = (s.lsd.rows[r]).next + 1 ∧
      (∀ k : Fin 16, k ≠ r → (u.lsd.rows[k]).next = (s.lsd.rows[k]).next) ∧ u.lsd.origin = s.lsd.origin ∧ u.lsd.count = w.lsd.count) ∧
  (∀ (r : Fin 16) (t : Nat) (s : State), let w := (s.at t).webSettle
    (w.rowRuns r = false ∨ w.reaches r = false) →
    ∃ u, exec (.lineStart r t) s = .next u ∧ u.lsd = w.lsd ∧ u.job = s.job ∧ u.rows = s.rows ∧ u.mem = s.mem)

/-- Encoder edges move the count by one in their tick; the checks, the timed reports and the index origin act. Every command
here first lets the edges whose tick has come take effect. An edge that waits takes effect in its tick, 24 ns and the
filter after its stamp, and not before. While PD8 works, an accepted edge with B low counts one: A rising counts
forward, A falling back, and dir_invert reverses both; the levels are taken in, and the count in force stays until its
tick. Both levels changing at once count nothing and post LSD_ENCODER_FAULT. While PD8 does not work only the levels
are taken in. A Z pulse with no job started records the accepted count and never moves it. A line fail inhibits line
starts at once; with no check left to confirm, 10 us of good signal release them. ACCELERATION_CHECK with the check
off does nothing; two edges of the last millisecond whose velocities differ by more than the limit fail it.
STOP_TIMEOUT with no edge for stop_timeout_us and no row assigned makes the web STOPPED with velocity zero. SPEED_HIGH
of a configured web takes the output low, with an event, when it was high and no row is assigned. JOB_MARK: a level
that has stood for the filter time is qualified; with no job started nothing else follows; of a rising edge with the
origin latched LSD_JOB_MARK is posted. LSD_OVERSPEED of a row with withholdings since the last report, none in the
last millisecond, posts it and clears them. A Z pulse of a STARTED job in INDEX mode that may latch, the index check
off, latches O as the accepted count plus origin_offset, and the job runs. (R25, R27, R28, R29, R30, R39, R44, R45, R47,
R48, R49, R50) -/
def Obligations.EncoderAndWebTimersAct : Prop :=
  (
    (∀ (s : State) (e : Edge), s.lsd.incoming = [e] →
      s.webSettle.lsd.count = (if s.lsd.cfg.effective e ≤ s.tick then e.count else s.lsd.count) ∧
      s.webSettle.lsd.incoming = (if s.lsd.cfg.effective e ≤ s.tick then [] else [e])) ∧
    (∀ (t : Nat) (s : State) (up_ : Bool), s.domainUp 8 = true → s.lsd.a = !up_ → s.lsd.b = false → let w := (s.at t).webSettle
      ∃ u, exec (.encoderEdge up_ false t) s = .next u ∧ u.lsd.accepted.1 = s.lsd.accepted.1 + (if s.lsd.cfg.dirInvert = up_ then -1 else 1) ∧
        u.lsd.count = w.lsd.count ∧ u.lsd.a = up_ ∧ u.lsd.b = false ∧ u.job = s.job ∧ u.mem = s.mem ∧ u.lsd.origin = s.lsd.origin) ∧
    (∀ (t : Nat) (s : State), s.domainUp 8 = true → let w := (s.at t).webSettle
      ∃ u, exec (.encoderEdge (!s.lsd.a) (!s.lsd.b) t) s = .next u ∧ u.lsd.accepted = s.lsd.accepted ∧ u.lsd.count = w.lsd.count ∧
        u.lsd.a = !s.lsd.a ∧ u.lsd.b = !s.lsd.b ∧ Claims.Posts w u [0x0245]) ∧
    (∀ (a b : Bool) (t : Nat) (s : State), s.domainUp 8 = false → let w := (s.at t).webSettle
      exec (.encoderEdge a b t) s = .next { w with lsd := { w.lsd with a := a, b := b } }) ∧
    (∀ (t : Nat) (s : State), s.domainUp 8 = true → s.job.state ≠ .started → let w := (s.at t).webSettle
      ∃ u, exec (.zPulse t) s = .next u ∧ u.lsd.zCount = some s.lsd.accepted.1 ∧ u.lsd.count = w.lsd.count ∧ u.lsd.origin = s.lsd.origin) ∧
    (∀ (t : Nat) (s : State), s.domainUp 8 = true → s.lsd.lineBad = false →
      ∃ u, exec (.lineFail t) s = .next u ∧ u.lsd.lineBad = true ∧ u.lsd.hold = true ∧ u.lsd.count = (s.at t).webSettle.lsd.count) ∧
    (∀ (t : Nat) (s : State), s.lsd.lineBad = true → s.lsd.checks = [] →
      exec (.lineGood t) s = .next { s.at t with lsd := { s.lsd with lineBad := false, goodAgain := true, hold := false } })
  ) ∧ (
    (∀ (t : Nat) (s : State), s.lsd.cfg.accelLimit = 0 → exec (.accelerationCheck t) s = .next (s.at t).webSettle) ∧
    (∀ (t : Nat) (s : State) (e f : Edge) (older : List Edge), s.domainUp 8 = true → s.lsd.incoming = [] → s.lsd.edges = e :: f :: older →
      0 < s.lsd.cfg.accelLimit → e.stopAt = none → f.stopAt = none → max (max s.aon t / 2 ^ 32 - 1000000) s.lsd.accelFrom ≤ s.lsd.cfg.effective f →
      f.stamp ≤ e.stamp → velJump s.lsd.cfg.accelLimit (e.vNum, max 1 e.vDen) (f.vNum, max 1 f.vDen) = true →
      ∃ u, exec (.accelerationCheck t) s = .next u ∧ u.lsd.accelFrom = max s.aon t / 2 ^ 32 ∧ Claims.Posts s u [0x0245]) ∧
    (∀ (t : Nat) (s : State) (e : Edge) (older : List Edge), s.lsd.edges = e :: older → s.lsd.incoming = [] → s.lsd.stopped = false →
      s.lsd.speedHigh = false → e.stamp + 1000 * s.lsd.cfg.stopTimeoutUs ≤ max s.aon t / 2 ^ 32 → (∀ r, s.assigned r = false) →
      exec (.stopTimeout t) s = .next { s.at t with lsd := { s.lsd with
        edges := { e with stopAt := some (max s.aon t / 2 ^ 32) } :: older, vNum := 0, vDen := 1, stopped := true } }) ∧
    (∀ (t : Nat) (s : State), s.lsd.configured = true → s.domainUp 8 = true → s.lsd.speedHigh = true → s.lsd.incoming = [] →
      (∀ r, s.assigned r = false) →
      ∃ u, exec (.speedHigh t) s = .next u ∧ u.lsd = { s.lsd with speedHigh := false } ∧ Claims.Posts s u [0x0244] ∧
        u = { s.at t with lsd := u.lsd, mbx := u.mbx }) ∧
    (∀ (level : Bool) (edge t : Nat) (s : State), edge + us s.lsd.cfg.markFilterUs ≤ max s.aon t → s.started = false →
      let w := (s.at t).webSettle
      exec (.jobMark level edge t) s = .next { w with lsd := { w.lsd with markQualified := level } }) ∧
    (∀ (edge t : Nat) (s : State) (o : Int), edge + us s.lsd.cfg.markFilterUs ≤ max s.aon t → s.started = true → s.lsd.origin = some o →
      s.lsd.markQualified = false → s.domainUp 8 = true → let w := (s.at t).webSettle
      ∃ u, exec (.jobMark true edge t) s = .next u ∧ u.lsd = { w.lsd with markQualified := true } ∧ Claims.Posts w u [0x0241] ∧
        u = { w with lsd := u.lsd, mbx := u.mbx }) ∧
    (∀ (r : Fin 16) (t : Nat) (s : State), (s.lsd.rows[r]).overspeed.isSome = true → (s.lsd.rows[r]).overspeedAt + 1000000 * 2 ^ 32 ≤ max s.aon t →
      ∃ u, exec (.lsdOverspeed r t) s = .next u ∧ (u.lsd.rows[r]).overspeed = none ∧ (u.lsd.rows[r]).overspeedAt = max s.aon t ∧
        Claims.Posts s u [0x0243] ∧ u = { s.at t with lsd := u.lsd, mbx := u.mbx }) ∧
    (∀ (t : Nat) (s : State), s.domainUp 8 = true → s.job.state = .started → s.lsd.latchEnabled = true → s.lsd.cfg.originMode = 2 →
      s.lsd.cfg.countsPerIndex = 0 → (∀ r, s.assigned r = false) → let w := (s.at t).webSettle
      ∃ u, exec (.zPulse t) s = .next u ∧ u.lsd.origin = some (s.lsd.accepted.1 * 65536 + s.lsd.cfg.originOffset) ∧ u.lsd.high = w.lsd.count ∧
        u.job = { s.job with state := .running } ∧ Claims.Posts w u [0x0240, 0x0200])
  )

/-- SCREEN_PLANE, SCREEN_MATRIX, HIST_SET and HIST_ROW complete with their effect. With no job armed: SCREEN_PLANE with
every field in its range sets the plane's screening and nothing else; HIST_SET with an image in the transfer zone
whose class bytes are 0 to 7 sets the history set; HIST_ROW sets a row's set and mask code. SCREEN_MATRIX of a slot
that no plane of the armed job uses, with its entries in the transfer zone and none above 4,095, fills the slot. While
a job is armed SCREEN_PLANE, HIST_SET and HIST_ROW answer BAD_STATE. (R126, R128, R149, R150) -/
def Obligations.ScreeningCommandsComplete : Prop :=
  (∀ (q : Req) (s : State) (plane : Fin 16), Claims.FreshOf 0x0220 56 q s → screenBad q.payload = false → fld q.payload 0 1 = plane.val → s.armed = false →
    exec (.screenPlane q) s = .next ((Claims.ok { s.start q 0x0220 with layout := { s.layout with
      planes := upd s.layout.planes plane (fun x => { x with screen := some (screenOf q.payload) }) } }).deliver q 0x0220)) ∧
  (∀ (q : Req) (s : State) (slot : Fin 8) (w h src : Nat), Claims.Fresh 0x0221 q s → 1 ≤ w → w ≤ 128 → 1 ≤ h → h ≤ 128 →
    s.matrixUsed slot.val = false → 0x3400000000 ≤ src → src + 2 * w * h ≤ 0x3800000000 →
    (∀ e ∈ words16 (s.memRead src (2 * w * h)), e ≤ 4095) →
    q.payload = [BitVec.ofNat 8 slot.val, BitVec.ofNat 8 (w - 1), BitVec.ofNat 8 (h - 1), 0, 0, 0, 0, 0] ++ le 8 src →
    exec (.screenMatrix q) s = .next ((Claims.ok { s.start q 0x0221 with layout := { s.layout with
      matrices := s.layout.matrices.set slot (some { w := w, h := h, entries := words16 (s.memRead src (2 * w * h)) }) } }).deliver q 0x0221)) ∧
  (∀ (q : Req) (s : State) (k : Fin 8) (src : Nat), Claims.Fresh 0x0222 q s → s.armed = false → 0x3400000000 ≤ src → src + 320 ≤ 0x3800000000 →
    (∀ b ∈ (s.memRead src 320).take 256, b.toNat ≤ 7) → q.payload = [BitVec.ofNat 8 k.val, 0, 0, 0, 0, 0, 0, 0] ++ le 8 src →
    exec (.histSet q) s = .next ((Claims.ok { s.start q 0x0222 with layout := { s.layout with
      hist := s.layout.hist.set k (histOf (s.memRead src 320)) } }).deliver q 0x0222)) ∧
  (∀ (q : Req) (s : State) (r : Fin 16) (k : Fin 8) (m : Fin 16), Claims.Fresh 0x0223 q s → s.armed = false →
    q.payload = [BitVec.ofNat 8 r.val, BitVec.ofNat 8 k.val, BitVec.ofNat 8 m.val, 0, 0, 0, 0, 0] →
    exec (.histRow q) s = .next ((Claims.ok { s.start q 0x0223 with layout := { s.layout with
      rows := upd s.layout.rows r (fun d => { d with histSet := k, maskCode := m.val }) } }).deliver q 0x0223)) ∧
  (∀ (q : Req) (s : State), s.armed = true →
    (Claims.FreshOf 0x0220 56 q s → screenBad q.payload = false →
      exec (.screenPlane q) s = .next ((Ans.fail (s.start q 0x0220) .badState).deliver q 0x0220)) ∧
    (Claims.Fresh 0x0222 q s → q.payload = List.replicate 16 0 →
      exec (.histSet q) s = .next ((Ans.fail (s.start q 0x0222) .badState).deliver q 0x0222)) ∧
    (Claims.Fresh 0x0223 q s → q.payload = List.replicate 8 0 →
      exec (.histRow q) s = .next ((Ans.fail (s.start q 0x0223) .badState).deliver q 0x0223)))

/-- No strobe pulse leaves the pads but by FIRE_STROBE. For every state and every command other than FIRE_STROBE, every
strobe pulse on the wires after the command was there before it: a withheld or inhibited line, a job that is not
started, a fault or a configuration command never fires a head. (R331) -/
def Obligations.OnlyFireStrobeFires : Prop :=
  ∀ (i : Instr) (s u : State), (∀ r t, i ≠ .fireStrobe r t) → exec i s = .next u → Safety.FiresNothing s u

/-- STROBE_CONFIG, FIRE_INHIBIT and the strobe pulse with its readback complete. STROBE_CONFIG with no job armed sets
polarity and width of one row, or of all rows for 0xFF. A FIRE_INHIBIT level that has stood for 200 ns is qualified; a
shorter one is not. INHIBIT_TEST with the qualified level low, or with no pulse to come, changes nothing; with it
asserted, at t_s - 50 ns, it withdraws the row's pulse, and the line is waste-marked. FIRE_STROBE at t_s emits the
row's oldest pulse with its width and polarity on the strobe wire and remembers the line as last fired. STROBE_READBACK
of an emitted pulse within 2 ns of time and width is clean: the pulse is judged and nothing else follows when no fault
is pending. A pulse at the pads that meets no scheduled one is EXTRA, a first fault pending. A scheduled pulse still
missing 10 ns after its end makes a first fault pending, and a second in a row lasting:
the row emits no further strobe. (R47, R331, R334, R335, R336, R348) -/
def Obligations.StrobesComplete : Prop :=
  (∀ (q : Req) (s : State) (r : Fin 16) (inv : Bool) (w : Nat), Claims.Fresh 0x0500 q s → s.armed = false → 40 ≤ w → w ≤ 2000 →
    q.payload = [BitVec.ofNat 8 r.val, if inv then 1 else 0] ++ le 2 w ++ [0, 0, 0, 0] →
    exec (.strobeConfig q) s = .next ((Claims.ok { s.start q 0x0500 with
      rows := upd s.rows r (fun x => { x with invert := inv, widthH := w }) }).deliver q 0x0500)) ∧
  (∀ (q : Req) (s : State) (inv : Bool) (w : Nat), Claims.Fresh 0x0500 q s → s.armed = false → 40 ≤ w → w ≤ 2000 →
    q.payload = [0xFF, if inv then 1 else 0] ++ le 2 w ++ [0, 0, 0, 0] →
    exec (.strobeConfig q) s = .next ((Claims.ok { s.start q 0x0500 with
      rows := s.rows.map (fun x => { x with invert := inv, widthH := w }) }).deliver q 0x0500)) ∧
  (∀ (level : Bool) (edge t : Nat) (s : State), exec (.fireInhibit level edge t) s = .next
    (if edge + 200 * 2 ^ 32 ≤ max s.aon t then { s.at t with job := { s.job with fireInhibit := level } } else s.at t)) ∧
  (∀ (r : Fin 16) (t : Nat) (s : State), s.job.fireInhibit = false ∨ (s.rows[r]).nextPulse = none →
    exec (.inhibitTest r t) s = .next (s.at t)) ∧
  (∀ (r : Fin 16) (t : Nat) (s : State) (p : Pulse), (s.rows[r]).nextPulse = some p → s.job.fireInhibit = true → p.ts ≤ max s.aon t / 2 ^ 31 + 100 →
    ∃ u, exec (.inhibitTest r t) s = .next u ∧ (∀ x ∈ (u.rows[r]).pulses, x.emitted = true ∨ x.line ≠ p.line) ∧
      .mark r p.line p.line 0x0C (max s.aon t) ∈ u.fsv.inbox ∧ Claims.Strobes u = Claims.Strobes s) ∧
  (∀ (r : Fin 16) (t : Nat) (s : State) (p : Pulse), (s.rows[r]).nextPulse = some p → p.ts ≤ max s.aon t / 2 ^ 31 → (s.rows[r]).strobeOff = false → s.fsv.power = false →
    ∃ u, exec (.fireStrobe r t) s = .next u ∧ Claims.Strobes u = .strobe r p.line p.ts (s.rows[r]).widthH (s.rows[r]).invert :: Claims.Strobes s ∧
      (u.rows[r]).lastFired = some p.line) ∧
  (∀ (r : Fin 16) (rise width t : Nat) (s : State) (p : Pulse), (s.rows[r]).pulses.find? (fun x => x.emitted && x.meets (s.rows[r]).widthH rise width) = some p →
    p.ts ≤ rise + 4 → rise ≤ p.ts + 4 → (s.rows[r]).widthH ≤ width + 4 → width ≤ (s.rows[r]).widthH + 4 → (s.rows[r]).strobePending = none →
    exec (.strobeReadback r (.pulse rise width) t) s = .next ((s.at t).updRow r (fun x => { x with
      pulses := x.pulses.filter (fun y => !(y.emitted && y.line == p.line)) }))) ∧
  (∀ (r : Fin 16) (rise width t : Nat) (s : State), (s.rows[r]).pulses.any (fun x => x.emitted && x.meets (s.rows[r]).widthH rise width) = false →
    (s.rows[r]).strobePending = none →
    ∃ u, exec (.strobeReadback r (.pulse rise width) t) s = .next u ∧ (u.rows[r]).pulses = (s.rows[r]).pulses ∧
      (u.rows[r]).strobePending = some (((s.rows[r]).lastFire.map (·.1)).getD 0, 2) ∧ Claims.Posts s u [0x02C0]) ∧
  (∀ (r : Fin 16) (t : Nat) (s : State) (p : Pulse),
    (s.rows[r]).pulses.find? (fun x => x.emitted && decide (x.ts + (s.rows[r]).widthH + 20 ≤ max s.aon t / 2 ^ 31)) = some p →
    (s.rows[r]).strobePending = none →
    ∃ u d, exec (.strobeReadback r .absent t) s = .next u ∧ (u.rows[r]).strobePending = some (p.line, 0) ∧ (u.rows[r]).strobeOff = (s.rows[r]).strobeOff ∧
      Claims.Posts s u [0x02C0] ∧ Claims.Tells s u [.mark r p.line p.line 0x0B (max s.aon t), .detect d (max s.aon t)] ∧ d.outcome = .pending) ∧
  (∀ (r : Fin 16) (t : Nat) (s : State) (p : Pulse),
    (s.rows[r]).pulses.find? (fun x => x.emitted && decide (x.ts + (s.rows[r]).widthH + 20 ≤ max s.aon t / 2 ^ 31)) = some p →
    (s.rows[r]).strobePending.isSome = true →
    ∃ u d, exec (.strobeReadback r .absent t) s = .next u ∧ (u.rows[r]).strobePending = none ∧ (u.rows[r]).strobeOff = true ∧
      Claims.Posts s u [0x02C0] ∧ Claims.Tells s u [.mark r p.line p.line 0x0B (max s.aon t), .detect d (max s.aon t)] ∧ d.outcome = .detected ∧ d.stops = true)

/-- RUNAHEAD_CONFIG, RUNAHEAD_STATUS, CHECK_CONFIG, CHECK_INJECT and CHECK_STATUS complete. With no job armed
RUNAHEAD_CONFIG of a window that is a multiple of 64 from 256 to 4,096 sets it for one row, or for all rows with 0xFF,
and CHECK_CONFIG sets shadow_off. CHECK_INJECT for an assigned row of an armed job, with the shadow on where its
target is one of the shadow's, the line not begun and fewer than four injections pending, plants one that acts once,
or twice with persist. With no job armed it answers BAD_STATE; with four pending NO_RESOURCE. The two status commands
answer OK with 208 and 104 bytes of counts and change nothing. (R174, R175, R223, R224, R225, R226) -/
def Obligations.RunAheadCommandsComplete : Prop :=
  (∀ (q : Req) (s : State) (r : Fin 16) (w : Nat), Claims.Fresh 0x0224 q s → s.armed = false → 256 ≤ w → w ≤ 4096 → w % 64 = 0 →
    q.payload = [BitVec.ofNat 8 r.val, 0] ++ le 2 w ++ [0, 0, 0, 0] →
    exec (.runaheadConfig q) s = .next ((Claims.ok { s.start q 0x0224 with rows := upd s.rows r (fun x => { x with window := w }) }).deliver q 0x0224)) ∧
  (∀ (q : Req) (s : State) (w : Nat), Claims.Fresh 0x0224 q s → s.armed = false → 256 ≤ w → w ≤ 4096 → w % 64 = 0 →
    q.payload = [0xFF, 0] ++ le 2 w ++ [0, 0, 0, 0] →
    exec (.runaheadConfig q) s = .next ((Claims.ok { s.start q 0x0224 with rows := s.rows.map (fun x => { x with window := w }) }).deliver q 0x0224)) ∧
  (∀ (q : Req) (s : State), Claims.FreshOf 0x0225 0 q s → ∃ p : List Byte,
    exec (.runaheadStatus q) s = .next ((Claims.ok (s.start q 0x0225) p).deliver q 0x0225) ∧ p.length = 208 ∧ fld p 0 8 = s.nowNs % 2 ^ 64 ∧
    ∀ r : Fin 16, fld p (16 + 12 * r.val + 4) 4 = (s.rows[r]).squashes.toNat ∧ fld p (16 + 12 * r.val + 8) 4 = (s.rows[r]).lateLines.toNat ∧
      fld p (16 + 12 * r.val) 2 = if s.armed then min 4096 ((s.rows[r]).agreed - (s.lsd.rows[r]).next) else 0) ∧
  (∀ (q : Req) (s : State) (off : Bool), Claims.Fresh 0x0226 q s → s.armed = false → q.payload = [if off then 1 else 0, 0, 0, 0, 0, 0, 0, 0] →
    exec (.checkConfig q) s = .next ((Claims.ok { s.start q 0x0226 with chk := { s.chk with shadowOff := off } }).deliver q 0x0226)) ∧
  (∀ (q : Req) (s : State) (target : Fin 8) (r : Fin 16) (twice : Bool) (mask : Byte) (pos line : Nat), Claims.Fresh 0x0820 q s →
    s.armed = true → s.assigned r = true → mask ≠ 0 → pos ≤ 16383 → line < 2 ^ 48 → (s.rows[r]).frontier ≤ line → (s.lsd.rows[r]).next + 31 < line →
    line % 64 = 0 → s.chk.shadowOff = false → s.chk.injections.length < 4 →
    q.payload = [BitVec.ofNat 8 target.val, BitVec.ofNat 8 r.val, if twice then 1 else 0, mask] ++ le 2 pos ++ [0, 0] ++ le 8 line →
    let i : Injection := { target := target, row := r, left := if twice then 2 else 1, mask := mask, position := pos, line := line }
    exec (.checkInject q) s = .next ((Claims.ok { s.start q 0x0820 with
      chk := { s.chk with injections := s.chk.injections ++ [i] } }).deliver q 0x0820)) ∧
  (∀ (q : Req) (s : State), Claims.Fresh 0x0820 q s → q.payload = [0, 0, 0, 1] ++ List.replicate 12 0 →
    (s.armed = false → exec (.checkInject q) s = .next ((Ans.fail (s.start q 0x0820) .badState).deliver q 0x0820)) ∧
    (s.armed = true → s.assigned 0 = true → (s.rows[(0 : Fin 16)]).frontier = 0 → 4 ≤ s.chk.injections.length →
      exec (.checkInject q) s = .next ((Ans.fail (s.start q 0x0820) .noResource).deliver q 0x0820))) ∧
  (∀ (q : Req) (s : State), Claims.FreshOf 0x0821 0 q s → ∃ p : List Byte,
    exec (.checkStatus q) s = .next ((Claims.ok (s.start q 0x0821) p).deliver q 0x0821) ∧ p.length = 104 ∧
    fld p 65 1 = (if s.chk.shadowOff then 1 else 0) ∧ fld p 72 4 = s.chk.misTransient.toNat ∧ fld p 76 4 = s.chk.misLasting.toNat ∧
    fld p 80 4 = s.chk.pourTransient.toNat ∧ fld p 84 4 = s.chk.pourLasting.toNat ∧ fld p 88 4 = s.chk.cvuFaults.toNat ∧ fld p 96 8 = s.nowNs % 2 ^ 64)

/-- Engines hand their halves to the check-value units, which compare them; lines are agreed. ENGINE_LINE_DONE of a
pipeline at work on its next line, with the half not done and every band of the line decoded before it, appends one
set of that line and of the generation the line was begun under to the half's unit, in the primary's or the shadow's
queue, and the half is done; when it was the last half, the pipeline goes on to the next line. LINE_COMPARE of two
equal sets, tag, signatures and coupling word, with no self-check failing, moves the unit to its next line and holds
the set as matched; when the other half of the row has matched that line too and it is the next to be agreed, it is
agreed. Two sets that differ, in a row with no mismatch yet, are a pending mismatch: CHK_MISMATCH is posted, the fault
supervisor told, and a squash at that line wanted. MISSING_TIMEOUT of a set that waited 16,384 clocks for the other,
and COUPLING_TIMEOUT of an engine that has waited for more than 16,384 clocks for a coupling value, do the same with
kinds MISSING and TIMEOUT. (R117, R153, R204, R205, R207, R208, R210, R247) -/
def Obligations.EnginesHandOverLines : Prop :=
  (∀ (p : Pipe) (h : Fin 32) (x : Upset) (t : Nat) (s : State), (s.at t).works p (rowOf h) = true → (s.at t).fed p (rowOf h) = true →
    ((s.rows[rowOf h]).run p).halfDone h = false →
    let n := (s.rows[rowOf h]).run p
    let g := s.lineGen (rowOf h) n.line
    let out := expandLine s.hamper s.layout s.job.seq g (rowOf h) n.line n.walk n.carry n.hist
    ∃ (u : State) (d : LineSet), exec (.engineLineDone p h x t) s = .next u ∧ d.line = n.line ∧ d.generation = g.number ∧ d.at_ = max s.aon t ∧
      (u.cvu h).prims = (match p with | .primary => (s.cvu h).prims ++ [d] | .shadow => (s.cvu h).prims) ∧
      (u.cvu h).shads = (match p with | .primary => (s.cvu h).shads | .shadow => (s.cvu h).shads ++ [d]) ∧
      (s.chk.injections = [] → d.bytes = xorAt (out.half h) x.byte x.mask) ∧
      ((n.doneHalf h).doneLo && (n.doneHalf h).doneHi = false →
        ((u.rows[rowOf h]).run p).halfDone h = true ∧ ((u.rows[rowOf h]).run p).line = n.line) ∧
      ((n.doneHalf h).doneLo = true → (n.doneHalf h).doneHi = true → ((u.rows[rowOf h]).run p).line = n.line + 1) ∧
      (u.rows[rowOf h]).agreed = (s.rows[rowOf h]).agreed ∧ Claims.SameElsewhere s u) ∧
  (∀ (h : Fin 32) (bad : CvuUpset) (t : Nat) (s : State) (a : LineSet) (b : Option LineSet), (s.chk.units[lineUnit h]).isSome = true →
    s.setsReady h = some (a, b) → (s.rows[rowOf h]).compares (s.cvu h).next = true → (s.rows[rowOf h]).reported h (s.cvu h).next = false →
    (s.rows[rowOf h]).waiting = none → s.chk.injections = [] → bad.unit = 0 →
    (differs h (s.cvu h).next a b = none → (∀ k : Fin 32, rowOf k = rowOf h → k ≠ h → (s.cvu k).matched = []) →
      exec (.lineCompare h bad t) s = .next (((s.at t).latentStep (lineUnit h) (s.cvu h).next).updCvu h (fun u => { u with
        next := u.next + 1, prims := u.prims.drop 1, shads := u.shads.drop 1, matched := u.matched ++ [a] }))) ∧
    (∀ (o : LineSet) (k : Fin 32), differs h (s.cvu h).next a b = none → (s.cvu h).matched = [] → rowOf k = rowOf h → k ≠ h →
      (s.cvu k).matched.head? = some o → o.line = (s.rows[rowOf h]).agreed → a.line = (s.rows[rowOf h]).agreed →
      ∃ u, exec (.lineCompare h bad t) s = .next u ∧ (u.rows[rowOf h]).agreed = (s.rows[rowOf h]).agreed + 1) ∧
    (∀ (k : MisKind) (m : BitVec 16), differs h (s.cvu h).next a b = some (k, m) → (s.rows[rowOf h]).mismatch = [] → (s.rows[rowOf h]).squash = none →
      ∃ u, exec (.lineCompare h bad t) s = .next u ∧ (u.rows[rowOf h]).mismatch.map (fun y => (y.line, y.kind, y.half)) = [((s.cvu h).next, k, h)] ∧
        (u.rows[rowOf h]).squash = some { line := (s.cvu h).next, why := .retry } ∧ Claims.Posts s u [0x0280] ∧ (u.cvu h).prims = (s.cvu h).prims ∧
        u.fsv.inbox.length = s.fsv.inbox.length + 1 ∧ Claims.SameElsewhere s u)) ∧
  (∀ (h : Fin 32) (bad : CvuUpset) (t : Nat) (s : State) (d : LineSet), (s.at t).setMissing h = some d →
    (s.rows[rowOf h]).compares (s.cvu h).next = true → (s.rows[rowOf h]).mismatch = [] → (s.rows[rowOf h]).squash = none →
    ∃ u, exec (.missingTimeout h bad t) s = .next u ∧ (u.rows[rowOf h]).mismatch.map (fun y => (y.line, y.kind, y.half)) = [((s.cvu h).next, .missing, h)] ∧
      (u.rows[rowOf h]).squash = some { line := (s.cvu h).next, why := .retry } ∧ Claims.Posts s u [0x0280] ∧ Claims.SameElsewhere s u) ∧
  (∀ (p : Pipe) (h : Fin 32) (waits : Nat) (bad : CvuUpset) (t : Nat) (s : State), (s.at t).stalled p h waits = true →
    let n := ((s.rows[rowOf h]).run p).line
    (s.rows[rowOf h]).compares n = true → (s.rows[rowOf h]).mismatch = [] → (s.rows[rowOf h]).squash = none →
    ∃ u, exec (.couplingTimeout p h waits bad t) s = .next u ∧ (u.rows[rowOf h]).mismatch.map (fun y => (y.line, y.kind, y.half)) = [(n, .timeout, h)] ∧
      (u.rows[rowOf h]).squash = some { line := n, why := .retry } ∧ Claims.Posts s u [0x0280] ∧ Claims.SameElsewhere s u)

/-- Checkpoints are compared, squashes restart rows, and late or dry lines are reported. CHECKPOINT_COMPARE of a
checkpoint whose stored CRCs are those of its parts, walker, carry and history, with no retry pending in the row, makes
it valid and nothing else; of one whose CRCs differ, it marks the checkpoint bad, posts SPC_CKPT_FAULT and
CHK_MISMATCH, and wants a squash at its line. SQUASH of an armed row that was wanted by a commit and finds nothing
begun at or beyond its line, nor a replay that reaches further, is only counted. SQUASH at a line already begun, with
a good checkpoint at or below it, restarts both pipelines at that checkpoint with its carry and history, discards
lines and checkpoints beyond, and expects a replay; with no checkpoint left, the row's lines from there on are lost to
a fault and the fault supervisor told. With no squash wanted nothing changes. SPC_REPLAY_LATE, once due, posts what a
replay withheld, once; SPC_DRY posts what was withheld because the window ran dry, at most once a millisecond. (R162,
R164, R165, R166, R167, R168, R171, R172, R173) -/
def Obligations.SquashesRestartRows : Prop :=
  (∀ (r : Fin 16) (bad : CvuUpset) (t : Nat) (s : State) (c : Ckpt), (s.rows[r]).comparable = some c → s.armed = true →
    (s.chk.units[ckptUnit r]).isSome = true → c.shadow = some c.parts → (s.rows[r]).mismatch = [] → s.chk.injections = [] → bad.unit = 0 →
    exec (.checkpointCompare r bad t) s = .next ((s.at t).updRow r (fun x => { x with
      ckpts := { c with valid := true } :: x.ckpts.filter (fun y => y.line ≠ c.line) }))) ∧
  (∀ (r : Fin 16) (bad : CvuUpset) (t : Nat) (s : State) (c : Ckpt) (v : PartCrcs), (s.rows[r]).comparable = some c → s.armed = true →
    (s.chk.units[ckptUnit r]).isSome = true → c.shadow = some v → v ≠ c.parts → (s.rows[r]).mismatch = [] → (s.rows[r]).squash = none →
    s.chk.injections = [] → bad.unit = 0 →
    ∃ u, exec (.checkpointCompare r bad t) s = .next u ∧ (∀ y ∈ (u.rows[r]).ckpts, y.line = c.line → y.bad = true) ∧
      (u.rows[r]).squash = some { line := c.line, why := .retry } ∧ Claims.Posts s u [0x0252, 0x0280] ∧ Claims.SameElsewhere s u) ∧
  (∀ (r : Fin 16) (t : Nat) (s : State) (n : Nat), (s.rows[r]).squash = some { line := n, why := .commit } → s.armed = true →
    (s.rows[r]).frontier ≤ n → (∀ p, (s.rows[r]).replay = some p → p.q ≤ n) →
    exec (.squash r t) s = .next ((s.at t).updRow r (fun x => { x with squash := none, squashes := satAdd x.squashes 1 }))) ∧
  (∀ (r : Fin 16) (t : Nat) (s : State) (n : Nat) (c : Ckpt) (why : SquashWhy), (s.rows[r]).squash = some { line := n, why := why } → s.armed = true →
    n < (s.rows[r]).frontier → s.pickCkpt r ((s.rows[r]).candidates n) = ([], some c) →
    ∃ u, exec (.squash r t) s = .next u ∧ (u.rows[r]).prim.line = c.line ∧ (u.rows[r]).shad.line = c.line ∧ (u.rows[r]).prim.carry = c.carry ∧
      (u.rows[r]).shad.hist = c.hist ∧ (u.rows[r]).replay = some { q := n, c := c.line, late := none } ∧ (u.rows[r]).agreed = min (s.rows[r]).agreed n ∧
      (∀ a ∈ (u.rows[r]).ring, a.line < n) ∧ (∀ y ∈ (u.rows[r]).ckpts, y.line ≤ n) ∧ (u.rows[r]).squash = none ∧
      (u.rows[r]).squashes = satAdd (s.rows[r]).squashes 1 ∧ (u.cvu (half0 r)).next = min (s.cvu (half0 r)).next c.line ∧
      (u.cvu (half1 r)).next = min (s.cvu (half1 r)).next c.line ∧
      (∀ k : Fin 16, k ≠ r → u.rows[k] = s.rows[k]) ∧ Claims.SameElsewhere s u) ∧
  (∀ (r : Fin 16) (t : Nat) (s : State) (n : Nat) (why : SquashWhy), (s.rows[r]).squash = some { line := n, why := why } → s.armed = true →
    n < (s.rows[r]).frontier → s.pickCkpt r ((s.rows[r]).candidates n) = ([], none) → (s.rows[r]).faultAt = none → (s.rows[r]).replay = none →
    ∃ u, exec (.squash r t) s = .next u ∧ (u.rows[r]).faultAt = some n ∧ (u.rows[r]).replay = none ∧ Claims.Posts s u [0x0252] ∧
      u.fsv.inbox.length = s.fsv.inbox.length + 1 ∧ Claims.SameElsewhere s u) ∧
  (∀ (r : Fin 16) (t : Nat) (s : State), (s.rows[r]).squash = none → exec (.squash r t) s = .next (s.at t)) ∧
  (∀ (r : Fin 16) (t : Nat) (s : State) (p : Replay), (s.rows[r]).replay = some p → s.lateDue r = true →
    ∃ u, exec (.spcReplayLate r t) s = .next u ∧ u.rows = upd s.rows r (fun x => { x with replay := some { p with late := none } }) ∧
      Claims.Posts s u [0x0251] ∧ u = { s.at t with rows := u.rows, mbx := u.mbx }) ∧
  (∀ (r : Fin 16) (t : Nat) (s : State), (s.rows[r]).dry.isSome = true → (∀ t0, (s.rows[r]).dryAt = some t0 → t0 + 1000000 * 2 ^ 32 ≤ max s.aon t) →
    ∃ u, exec (.spcDry r t) s = .next u ∧ u.rows = upd s.rows r (fun x => { x with dry := none, dryAt := some (max s.aon t) }) ∧
      Claims.Posts s u [0x0250] ∧ u = { s.at t with rows := u.rows, mbx := u.mbx })

/-- TXN_OPEN, TXN_ADD, TXN_SEAL, TXN_COMMIT and TXN_STATUS complete. TXN_OPEN of an id other than 0 that no
active group has, with fewer than 8 active groups, opens an empty group. TXN_ADD of a member whose body is legal,
inline or from the transfer zone, appends it to an open group with room and answers its index; one whose body is not
legal aborts the group. TXN_SEAL of an open group that builds, with one generation live and no other group sealed or
prepared, seals it on the new generation; one that does not build is aborted with the status and the member.
TXN_COMMIT of a sealed local group with no job armed makes its generation the newest and ends the group; with a job
armed and the lead too short it answers LEAD_TOO_SHORT with the row and the shortfall and the group stays sealed;
otherwise the generation is the newest and every affected row is to be squashed at or below its effective line.
TXN_STATUS answers OK with 32 bytes and changes nothing. (R180,
R181, R182, R186, R187, R189, R196, R197, R198, R199, R201) -/
def Obligations.CorrectionGroupsComplete : Prop :=
  (∀ (q : Req) (s : State) (id : BitVec 32) (chain : Bool), Claims.Fresh 0x0300 q s → id ≠ 0 → (∀ g ∈ s.txn.groups, g.id = id → g.state = .aborted) →
    s.activeGroups < 8 → q.payload = le 4 id.toNat ++ [if chain then 1 else 0, 0, 0, 0] →
    let g : Group := { id := id, chain := chain, state := .isOpen, members := [], calBase := [], line := 0, coordinator := 0, votedAt := 0,
                       queried := false, answered := 0 }
    exec (.txnOpen q) s = .next ((Claims.ok { s.start q 0x0300 with txn := { s.txn with
      groups := s.txn.groups.filter (fun x => x.id ≠ id) ++ [g] } }).deliver q 0x0300)) ∧
  (∀ (q : Req) (s : State) (g : Group) (ty : Byte) (body : List Byte), Claims.Fresh 0x0301 q s → s.group? g.id = some g → g.state = .isOpen →
    1 ≤ body.length → body.length ≤ 224 → g.members.length < 1024 → s.stagedBytes + body.length ≤ 8 * 2 ^ 20 →
    q.payload = le 4 g.id.toNat ++ [ty, 0, 0, 0] ++ le 4 body.length ++ [0, 0, 0, 0] ++ body →
    (∀ m, Member.parse ty.toNat body = some m → exec (.txnAdd q) s = .next (Ans.deliver { Claims.ok ((s.start q 0x0301).updGroup g.id (fun x =>
      { x with members := x.members ++ [(m, body.length)] })) with detail := g.members.length } q 0x0301)) ∧
    (Member.parse ty.toNat body = none → exec (.txnAdd q) s = .next ((Ans.fail ((s.start q 0x0301).updGroup g.id (fun x =>
      { x with state := .aborted, members := [], calBase := [] })) .badParam).deliver q 0x0301))) ∧
  (∀ (q : Req) (s : State) (g : Group) (ty : Byte) (m : Member) (len src : Nat), Claims.Fresh 0x0301 q s → s.group? g.id = some g → g.state = .isOpen →
    1 ≤ len → len ≤ 1048584 → 0x3400000000 ≤ src → src + len ≤ 0x3800000000 → g.members.length < 1024 → s.stagedBytes + len ≤ 8 * 2 ^ 20 →
    Member.parse ty.toNat (s.memRead src len) = some m →
    q.payload = le 4 g.id.toNat ++ [ty, 1, 0, 0] ++ le 4 len ++ [0, 0, 0, 0] ++ le 8 src →
    exec (.txnAdd q) s = .next (Ans.deliver { Claims.ok ((s.start q 0x0301).updGroup g.id (fun x =>
      { x with members := x.members ++ [(m, len)] })) with detail := g.members.length } q 0x0301)) ∧
  (∀ (q : Req) (s : State) (g : Group), Claims.Fresh 0x0302 q s → s.group? g.id = some g → g.state = .isOpen → s.txn.older = none →
    (∀ x ∈ s.txn.groups, x.id ≠ g.id → x.holds = false) → q.payload = le 4 g.id.toNat ++ [0, 0, 0, 0] →
    (∀ n, s.build g = .ok n → ∃ u : State, exec (.txnSeal q) s = .next ((Claims.ok u).deliver q 0x0302) ∧
      u.txn = { s.txn with groups := s.txn.groups.map (fun x => if x.id = g.id then { x with state := .sealed } else x), built := some n } ∧
      u = { s.start q 0x0302 with txn := u.txn }) ∧
    (∀ st i, s.build g = .error (st, i) → exec (.txnSeal q) s = .next ((Ans.fail ((s.start q 0x0302).updGroup g.id Group.abort) st
      (i % 65536)).deliver q 0x0302))) ∧
  (∀ (q : Req) (s : State) (g : Group) (n : Gen) (line : Nat), Claims.Fresh 0x0303 q s → s.group? g.id = some g → g.state = .sealed → g.chain = false →
    s.txn.built = some n → (∀ c, s.txn.coordination = some c → c.group ≠ g.id) → line < 2 ^ 48 →
    q.payload = le 4 g.id.toNat ++ [0, 0, 0, 0] ++ le 8 line →
    (s.armed = false → ∃ (u : State) (p : List Byte), exec (.txnCommit q) s = .next ((Claims.ok u p).deliver q 0x0303) ∧ p.length = 144 ∧
      u.txn.newest = n.atCommit s.txn.newest g ∧ u.txn.older = none ∧ u.txn.built = none ∧ u.txn.groups = s.txn.groups.filter (fun x => x.id ≠ g.id) ∧
      u.job = s.job ∧ u.rows = s.rows ∧ u.mem = s.mem) ∧
    (s.armed = true → s.earlyBinding g line = none → s.shortRow (s.affected g n) line 64 = none →
      ∃ (u : State) (p : List Byte), exec (.txnCommit q) s = .next ((Claims.ok u p).deliver q 0x0303) ∧ p.length = 144 ∧
        u.txn.newest = n.atCommit s.txn.newest g ∧ u.txn.built = none ∧ u.txn.groups = s.txn.groups.filter (fun x => x.id ≠ g.id) ∧
        (∀ r, s.affected g (n.atCommit s.txn.newest g) r = true → ∃ y, (u.rows[r]).squash = some y ∧ y.line ≤ s.effLine r line) ∧ u.mem = s.mem) ∧
    (∀ r d, s.armed = true → s.earlyBinding g line = none → s.shortRow (s.affected g n) line 64 = some (r, d) →
      exec (.txnCommit q) s = .next ((Ans.fail (s.start q 0x0303) .leadTooShort (r.val * 2 ^ 28 + d % 2 ^ 28)).deliver q 0x0303))) ∧
  (∀ (q : Req) (s : State), Claims.FreshOf 0x0305 0 q s → ∃ p : List Byte,
    exec (.txnStatus q) s = .next ((Claims.ok (s.start q 0x0305) p).deliver q 0x0305) ∧ p.length = 32 ∧ fld p 0 4 = s.txn.newest.number.toNat ∧
    fld p 8 1 = (if s.txn.older.isSome then 2 else 1) ∧ fld p 24 8 = s.nowNs % 2 ^ 64)

/-- TXN_DISCARD completes, and votes, decisions, queries and answers of a chain commit act. TXN_DISCARD removes a group that is not
prepared. TXN_PREPARE of the present epoch at a module that does
not coordinate it, which holds the group of scope CHAIN sealed, with no job armed and no other group prepared, makes it PREPARED with
the line and the coordinator; at one that does not hold the group it changes no group and no generation. A message of
another epoch is only acknowledged. PREPARE_TIMEOUT 50 us after a PREPARE decides ABORT. TXN_DECISION COMMIT at a
prepared group makes its generation the newest; ABORT returns it to SEALED; where no group of that id is prepared no group and no
generation changes, and TXN_RESULT is posted. A second copy is ignored. DECISION_TIMEOUT 256 us after the vote, with the coordinator
not known to be in reset, asks once. TXN_QUERY for this module is answered with the state it holds. TXN_ANSWER: a
committed answer commits the prepared group, the coordinator's ABORT returns it to SEALED, and any other is noted.
(R193, R194, R195, R199, R200, R202, R631) -/
def Obligations.ChainCommitsComplete : Prop :=
  (∀ (q : Req) (s : State) (g : Group), Claims.Fresh 0x0304 q s → s.group? g.id = some g → q.payload = le 4 g.id.toNat ++ [0, 0, 0, 0] →
    (g.state ≠ .prepared → ∃ u : State, exec (.txnDiscard q) s = .next ((Claims.ok u).deliver q 0x0304) ∧
      u.txn.groups = s.txn.groups.filter (fun x => x.id ≠ g.id) ∧ u.txn.newest = s.txn.newest ∧ u.job = s.job ∧ u.mem = s.mem) ∧
    (g.state = .prepared → exec (.txnDiscard q) s = .next ((Ans.fail (s.start q 0x0304) .badState).deliver q 0x0304))) ∧
  (∀ (h : ChainHdr) (m : PrepareMsg) (t : Nat) (s : State), h.epoch = s.chain.epoch → s.chain.address ≠ some m.coordinator →
    (∀ (g : Group) (n : Gen), s.group? m.group = some g → g.state = .sealed → g.chain = true → s.txn.built = some n → s.txn.coordination = none → s.armed = false →
      (∀ x ∈ s.txn.groups, x.id ≠ g.id → x.state ≠ .prepared) →
      ∃ u, exec (.txnPrepare h m t) s = .next u ∧
        (u.group? m.group).map (fun g => (g.state, g.line, g.coordinator)) = some (.prepared, m.line, m.coordinator) ∧ u.txn.newest = s.txn.newest ∧
        u.job = s.job ∧ u.mem = s.mem) ∧
    (s.group? m.group = none → ∃ u, exec (.txnPrepare h m t) s = .next u ∧ u.txn = { s.txn with voted := u.txn.voted } ∧ u.job = s.job ∧ u.mem = s.mem)) ∧
  (∀ (h : ChainHdr) (m : PrepareMsg) (g : BitVec 32) (c : Bool) (a : TxnAnswerState) (t : Nat) (s : State), h.epoch ≠ s.chain.epoch →
    exec (.txnPrepare h m t) s = .next ((s.at t).ackChain h) ∧ exec (.txnDecision h g c t) s = .next ((s.at t).ackChain h) ∧
    exec (.txnQuery h g t) s = .next ((s.at t).ackChain h) ∧ exec (.txnAnswer h g a t) s = .next ((s.at t).ackChain h)) ∧
  (∀ (t : Nat) (s : State) (c : Coordination) (g : Group), s.txn.coordination = some c → c.sentAt + 50000 * 2 ^ 32 ≤ max s.aon t → s.group? c.group = some g →
    ∃ u, exec (.prepareTimeout t) s = .next u ∧ u.txn.coordination = none ∧ (u.group? c.group).map (·.state) = some .sealed ∧
      u.txn.newest = s.txn.newest ∧ Claims.Posts s u [0x0270]) ∧
  (∀ (h : ChainHdr) (t : Nat) (s : State) (g : Group), h.epoch = s.chain.epoch → s.chain.address ≠ some h.src → s.group? g.id = some g →
    s.preparedGroup = some g → (∀ v, s.txn.voted? g.id = some v → v.skip = 0) →
    (∀ n, s.txn.built = some n → s.armed = false → ∃ u, exec (.txnDecision h g.id true t) s = .next u ∧
      u.txn.newest = n.atCommit s.txn.newest g ∧ u.txn.outcomes.head? = some (g.id, true) ∧ u.group? g.id = none ∧ u.job = s.job) ∧
    (∃ u, exec (.txnDecision h g.id false t) s = .next u ∧ (u.group? g.id).map (·.state) = some .sealed ∧
      u.txn.outcomes.head? = some (g.id, false) ∧ u.txn.newest = s.txn.newest ∧ u.txn.built = s.txn.built ∧ Claims.Posts s u [0x0270])) ∧
  (∀ (h : ChainHdr) (g : BitVec 32) (commit : Bool) (t : Nat) (s : State), h.epoch = s.chain.epoch → s.chain.address ≠ some h.src →
    ((∀ p, s.preparedGroup = some p → p.id ≠ g) → (∀ v, s.txn.voted? g = some v → v.skip = 0) →
      ∃ u, exec (.txnDecision h g commit t) s = .next u ∧ u.txn = { s.txn with voted := u.txn.voted } ∧ u.job = s.job ∧ u.mem = s.mem ∧
        Claims.Posts s u [0x0270]) ∧
    (∀ v, s.txn.voted? g = some v → 0 < v.skip → ∃ u, exec (.txnDecision h g commit t) s = .next u ∧
      u.txn = { s.txn with voted := u.txn.voted } ∧ u.job = s.job ∧ u.mem = s.mem ∧ Claims.Posts s u [])) ∧
  (∀ (t : Nat) (s : State) (g : Group), s.preparedGroup = some g → g.votedAt + 256000 * 2 ^ 32 ≤ max s.aon t → g.queried = false →
    s.chain.inReset.getLsbD g.coordinator.val = false →
    ∃ u, exec (.decisionTimeout t) s = .next u ∧ (u.group? g.id).map (·.queried) = some true ∧ u.txn.newest = s.txn.newest ∧ u.job = s.job) ∧
  (∀ (h : ChainHdr) (g : BitVec 32) (t : Nat) (s : State), h.epoch = s.chain.epoch → h.dst = s.ownAddress →
    exec (.txnQuery h g t) s = .next (((s.at t).ackChain h).sendAnswer h.dst.toNat h.src.val g (s.txnState g))) ∧
  (∀ (h : ChainHdr) (t : Nat) (s : State) (g : Group), h.epoch = s.chain.epoch → h.dst = s.ownAddress → s.preparedGroup = some g →
    s.group? g.id = some g →
    (∀ n, s.txn.built = some n → s.armed = false → ∃ u, exec (.txnAnswer h g.id .committed t) s = .next u ∧
      u.txn.newest = n.atCommit s.txn.newest g ∧ u.group? g.id = none) ∧
    (g.coordinator = h.src → ∃ u, exec (.txnAnswer h g.id .aborted t) s = .next u ∧ (u.group? g.id).map (·.state) = some .sealed ∧
      u.txn.newest = s.txn.newest) ∧
    (s.chain.inReset.getLsbD g.coordinator.val = false → exec (.txnAnswer h g.id .prepared t) s = .next (((s.at t).ackChain h).updGroup g.id
      (fun x => { x with answered := x.answered ||| (1#16 <<< h.src.val) }))))

/-- CAL_STATUS, CAL_TRIM, CAL_LIMITS, CAL_CHART and CAL_ALIGN_LOAD complete. CAL_STATUS answers OK with 56 bytes and
changes nothing. CAL_TRIM of FIO or SIO waits for the next run of that trim; MEM_RETRAIN with no job armed is ACCEPTED
and waits for the retraining; EQUALISE of no connector answers OK; with a job armed both answer BAD_STATE. CAL_LIMITS
with legal limits sets them in every state. CAL_CHART whose rows print alone on CODES planes, with no job armed, its
tile ids free and its panel not in the sequence, is ACCEPTED when no chart is being built, its blocks going to the
compressors, and answers NO_RESOURCE when one is. CAL_ALIGN_LOAD of one down-web reading of an assigned row within the limits and the trim range appends a
delta ROW_TRIM to the open group, noted with the newest generation; a reading beyond dw_max_nm answers IMPLAUSIBLE
with check 1 and the row, is counted, and adds nothing. (R563, R564, R566, R567, R568, R569, R570, R571) -/
def Obligations.CalibrationCommandsComplete : Prop :=
  (∀ (q : Req) (s : State), Claims.FreshOf 0x0400 0 q s → ∃ p : List Byte,
    exec (.calStatus q) s = .next ((Claims.ok (s.start q 0x0400) p).deliver q 0x0400) ∧ p.length = 56 ∧ fld p 0 1 = s.cal.fioCode.toNat ∧
    fld p 4 4 = s.cal.fioKhz.toNat ∧ fld p 12 4 = s.cal.transients.toNat ∧ fld p 20 4 = s.cal.loads.toNat ∧ fld p 28 4 = s.cal.baseGen.toNat ∧
    fld p 48 8 = s.nowNs % 2 ^ 64) ∧
  (∀ (q : Req) (s : State), Claims.Fresh 0x0401 q s →
    (q.payload = [0, 0, 0, 0, 0, 0, 0, 0] → exec (.calTrim q) s = .next ((Claims.later { s.start q 0x0401 with
      cal := { s.cal with fioReq := s.cal.fioReq ++ [q.origin] } }).deliver q 0x0401)) ∧
    (q.payload = [1, 0, 0, 0, 0, 0, 0, 0] → exec (.calTrim q) s = .next ((Claims.later { s.start q 0x0401 with
      cal := { s.cal with sioReq := s.cal.sioReq ++ [q.origin] } }).deliver q 0x0401)) ∧
    (q.payload = [2, 0, 0, 0, 0, 0, 0, 0] → exec (.calTrim q) s = .next ((if s.armed then Ans.fail (s.start q 0x0401) .badState
      else Claims.ok (s.start q 0x0401)).deliver q 0x0401)) ∧
    (q.payload = [3, 0, 0, 0, 0, 0, 0, 0] → exec (.calTrim q) s = .next ((if s.armed then Ans.fail (s.start q 0x0401) .badState
      else Claims.accepted { s.start q 0x0401 with cal := { s.cal with retrain := s.cal.retrain ++ [q.origin] } }).deliver q 0x0401))) ∧
  (∀ (q : Req) (s : State) (l : CalLimits), Claims.Fresh 0x0404 q s → l.legal = true → l.dMax ≤ 65535 → l.medMax ≤ 65535 →
    q.payload = le 4 l.dwMax ++ le 4 l.cwMax ++ le 2 l.dMin ++ le 2 l.dMax ++ le 2 l.medMin ++ le 2 l.medMax →
    exec (.calLimits q) s = .next ((Claims.ok { s.start q 0x0404 with cal := { s.cal with limits := l } }).deliver q 0x0404)) ∧
  (∀ (q : Req) (s : State) (c : Chart), Claims.Fresh 0x0402 q s → 1 ≤ c.code → c.code ≤ 15 → c.rows ≠ 0 → 1 ≤ c.tileBase →
    c.tileBase + (maskRows c.rows).length - 1 ≤ 0xFFFFFF → s.chartBlock c = none → c.origin = q.origin →
    q.payload = [BitVec.ofNat 8 c.kind.val, BitVec.ofNat 8 c.code] ++ le 2 c.rows.toNat ++ le 2 c.panel.val ++ [0, 0] ++ le 3 c.tileBase ++ [0, 0, 0, 0, 0] →
    (s.cal.chart = none → exec (.calChart q) s = .next ((Claims.accepted (State.chartRaw { s.start q 0x0402 with
      cal := { s.cal with chart := some c } } c)).deliver q 0x0402)) ∧
    (s.cal.chart.isSome = true → exec (.calChart q) s = .next ((Ans.fail (s.start q 0x0402) .noResource).deliver q 0x0402))) ∧
  (∀ (q : Req) (s : State) (g : Group) (r : Fin 16) (e : Int), Claims.Fresh 0x0403 q s → s.group? g.id = some g → g.state = .isOpen →
    s.assigned r = true → s.lsd.configured = true → -(2 ^ 31) ≤ e → e < 2 ^ 31 →
    q.payload = le 4 g.id.toNat ++ [0, 1, 0, 0] ++ List.replicate 16 0 ++ [BitVec.ofNat 8 r.val, 1, 0, 0] ++ sle 4 e ++ [0, 0, 0, 0] →
    (e.natAbs ≤ s.cal.limits.dwMax → s.trimCheck r (s.txn.newest.trim[r] + dwTrim s.lsd.cfg e) = none → g.members.length < 1024 →
      s.stagedBytes + 8 ≤ 8 * 2 ^ 20 →
      ∃ u : State, exec (.calAlignLoad q) s = .next (Ans.deliver { Claims.ok u with detail := 1 } q 0x0403) ∧
        (u.group? g.id).map (·.members) = some (g.members ++ [(.rowTrim r true (dwTrim s.lsd.cfg e), 8)]) ∧
        (u.group? g.id).map (·.calBase) = some (g.calBase ++ [(g.members.length, s.txn.newest.number)]) ∧
        u.cal = { s.cal with loads := satAdd s.cal.loads 1, baseGen := s.txn.newest.number } ∧
        u = { s.start q 0x0403 with txn := u.txn, cal := u.cal }) ∧
    (s.cal.limits.dwMax < e.natAbs → exec (.calAlignLoad q) s = .next ((Ans.fail { s.start q 0x0403 with
      cal := { s.cal with implausible := satAdd s.cal.implausible 1 } } .implausible (2 ^ 28 + r.val)).deliver q 0x0403)))

/-- Trim runs, chart building and memory retraining end. FIO_TRIM against a running XA that succeeds at once, FIO running,
holds the measured frequency, and the code is in force or waits for the moment no domain runs on FIO; SIO_TRIM takes
measurement and code. A first failure is remembered and told as pending; a second in a row counts as lasting, posts
CAL_TRIM_FAULT and leaves the code. With XA not running nothing changes. CHART_BUILT that failed ends the chart with
CAL_DONE and stages nothing; one that succeeded, nothing blocking it, a compressor working and every block verified, defines the
panel with the chart's length and one list per row, or where the pages do not suffice stages nothing; before every
block is verified nothing changes. MEM_RETRAIN_DONE without
failures answers every request that waits with CAL_DONE. Without a chart or a request nothing changes. (R562, R563,
R565) -/
def Obligations.TrimsAndChartsComplete : Prop :=
  (∀ (khz : Nat) (code : Byte) (t : Nat) (s : State), s.canTrim 0 = true → s.clk.sources[(0 : Fin 5)] = .running → s.cal.fioReq = [] →
    (s.cal.fioRetry = false → ∃ u, exec (.fioTrim khz code true t) s = .next u ∧ u.cal.fioKhz = BitVec.ofNat 32 khz ∧ u.cal.fioRetry = false ∧
      (u.cal.fioCode = code ∧ u.cal.fioNext = none ∨ u.cal.fioNext = some code ∧ u.cal.fioCode = s.cal.fioCode) ∧ u = { s.at t with cal := u.cal }) ∧
    (s.cal.fioRetry = false → ∃ u d, exec (.fioTrim khz code false t) s = .next u ∧
      u.cal = { s.cal with fioKhz := BitVec.ofNat 32 khz, fioRetry := true } ∧ Claims.Tells s u [.detect d (max s.aon t)] ∧ d.outcome = .pending ∧
      u = { s.at t with cal := u.cal, fsv := u.fsv }) ∧
    (s.cal.fioRetry = true → ∃ u d, exec (.fioTrim khz code false t) s = .next u ∧ u.cal.fioCode = s.cal.fioCode ∧ u.cal.fioRetry = false ∧
      u.cal.lasting = satAdd s.cal.lasting 1 ∧ Claims.Posts s u [0x0311] ∧ Claims.Tells s u [.detect d (max s.aon t)] ∧ d.outcome = .reported)) ∧
  (∀ (hz : Nat) (code : Byte) (t : Nat) (s : State), s.canTrim 1 = true → s.clk.sources[(1 : Fin 5)] = .running → s.cal.sioReq = [] →
    (s.cal.sioRetry = false → exec (.sioTrim hz code true t) s = .next { s.at t with
      cal := { s.cal with sioHz := BitVec.ofNat 32 hz, sioCode := code } }) ∧
    (s.cal.sioRetry = true → ∃ u, exec (.sioTrim hz code false t) s = .next u ∧ u.cal.sioCode = s.cal.sioCode ∧ u.cal.lasting = satAdd s.cal.lasting 1 ∧
      Claims.Posts s u [0x0311])) ∧
  (∀ (x : Nat) (code : Byte) (good : Bool) (t : Nat) (s : State), s.clk.sources[(2 : Fin 5)] ≠ .running →
    exec (.fioTrim x code good t) s = .next (s.at t) ∧ exec (.sioTrim x code good t) s = .next (s.at t)) ∧
  (∀ (t : Nat) (s : State) (c : Chart), s.cal.chart = some c →
    (∃ u, exec (.chartBuilt false t) s = .next u ∧ u.cal = { s.cal with chart := none } ∧ Claims.Posts s u [0x0310] ∧ u.hamper = s.hamper ∧ u.layout = s.layout) ∧
    (s.codec.comp ≠ 0 → s.chartVerified c = false → exec (.chartBuilt true t) s = .next (s.at t)) ∧
    (s.codec.comp ≠ 0 → s.chartVerified c = true → s.chartBlock c = none → ∃ u, exec (.chartBuilt true t) s = .next u ∧ u.cal.chart = none ∧ Claims.Posts s u [0x0310] ∧
      match ((s.at t).chartEnd c).chartRows c (maskRows c.rows).length 0 (maskRows c.rows) with
      | none => u.hamper = s.hamper ∧ u.layout = s.layout
      | some r => u.hamper = r.1.hamper ∧ r.2.length = (maskRows c.rows).length ∧
          ∃ p ∈ u.layout.panels, p.slot = c.panel ∧ p.rpt = 1 ∧ p.length = chartLength c.kind (maskRows c.rows).length)) ∧
  (∀ (ok : Bool) (t : Nat) (s : State), s.cal.chart = none → exec (.chartBuilt ok t) s = .next (s.at t)) ∧
  (∀ (t : Nat) (s : State), ∃ u, exec (.memRetrainDone 0 0 t) s = .next u ∧ u.cal = { s.cal with retrain := [] } ∧
    Claims.Posts s u (s.cal.retrain.map (fun _ => 0x0310)) ∧ u = { s.at t with cal := u.cal, mbx := u.mbx })

/-- The commands of the page store complete with their effect. HAMPER_STATUS and TILE_INFO answer OK with 48 and 40 bytes
and change nothing. TILE_STAGE of a legal request, its source in range, the id not being staged nor
named, fewer than 16 stagings, and pages found for the largest result, is ACCEPTED and reserves them, asks for a source
in host memory and hands raw blocks to the compressors; a raw one needs a compressor. TILE_FREE of a tile without names
frees it and answers its pages; of a named or staged one it answers BAD_STATE with the names, of a FREE id BAD_PARAM.
LIST_STAGE of a legal length in range is ACCEPTED; LIST_FREE of an unnamed
list removes it. PROOF_CAPTURE in the transfer zone, with none waiting, is ACCEPTED with no job armed, and of a
running job for a line of an assigned row at least 15 lines ahead; nearer it answers LEAD_TOO_SHORT. PROOF_CANCEL ends
the capture and reports it. (R260, R266, R267, R268, R271, R273, R274, R275, R276, R277) -/
def Obligations.StoreCommandsComplete : Prop :=
  (∀ (q : Req) (s : State), Claims.FreshOf 0x0100 0 q s → ∃ p : List Byte,
    exec (.hamperStatus q) s = .next ((Claims.ok (s.start q 0x0100) p).deliver q 0x0100) ∧ p.length = 48 ∧ fld p 0 4 = 3357504 ∧
    fld p 16 4 = s.hamper.lists.length % 2 ^ 32 ∧ fld p 40 8 = s.nowNs % 2 ^ 64) ∧
  (∀ (q : Req) (s : State) (ext : List Extent), Claims.FreshOf 0x0101 32 q s → let g := stagingOf q
    stagingBad q g = false → (g.srcHost = true ∨ (0x3400000000 ≤ g.src ∧ g.src + g.length ≤ 0x3800000000)) → s.staging? g.tile = none →
    (s.tile? g.tile = none ∨ (g.replace = true ∧ s.tileRefs g.tile = 0)) → s.hamper.stagings.length < 16 →
    s.allocate (storeNeed g.bound (blockCount g.w g.h)) (blockCount g.w g.h) = some ext → (g.raw = false ∨ s.codec.comp ≠ 0) →
    exec (.tileStage q) s = .next ((Claims.accepted ((s.start q 0x0101).beginStaging g ext)).deliver q 0x0101)) ∧
  (∀ (q : Req) (s : State) (id : Nat), Claims.Fresh 0x0102 q s → id < 2 ^ 24 → q.payload = le 3 id ++ [0, 0, 0, 0, 0] →
    ((s.staging? id).isSome = true → exec (.tileFree q) s = .next ((Ans.fail (s.start q 0x0102) .badState (s.tileRefs id)).deliver q 0x0102)) ∧
    (s.staging? id = none → s.tile? id = none → exec (.tileFree q) s = .next ((Ans.fail (s.start q 0x0102) .badParam).deliver q 0x0102)) ∧
    (∀ x, s.staging? id = none → s.tile? id = some x → exec (.tileFree q) s = .next (Ans.deliver (if s.tileRefs id = 0
      then { Claims.ok ((s.start q 0x0102).freeTile id) with detail := extentPages x.extents }
      else Ans.fail (s.start q 0x0102) .badState (s.tileRefs id)) q 0x0102))) ∧
  (∀ (q : Req) (s : State) (id : Nat), Claims.Fresh 0x0103 q s → id < 2 ^ 24 → q.payload = le 3 id ++ [0, 0, 0, 0, 0] → ∃ p : List Byte,
    exec (.tileInfo q) s = .next ((Claims.ok (s.start q 0x0103) p).deliver q 0x0103) ∧ p.length = 40 ∧
    fld p 0 1 = if (s.tile? id).isSome then 2 else if (s.staging? id).isSome then 1 else 0) ∧
  (∀ (q : Req) (s : State) (src len : Nat), Claims.Fresh 0x0104 q s → 32 ≤ len → len % 16 = 0 → 0x3400000000 ≤ src → src + len ≤ 0x3800000000 →
    s.hamper.nextHandle + s.hamper.listStagings.length < 2 ^ 32 → s.hamper.lists.length + s.hamper.listStagings.length < 65536 → len < 2 ^ 32 →
    q.payload = le 8 src ++ le 4 len ++ [0, 0, 0, 0] → let g : ListStaging := { origin := q.origin, src := src, length := len, srcHost := false, ns := false }
    exec (.listStage q) s = .next ((Claims.accepted { s.start q 0x0104 with hamper := { s.hamper with
      listStagings := s.hamper.listStagings ++ [g] } }).deliver q 0x0104)) ∧
  (∀ (q : Req) (s : State) (l : PList), Claims.Fresh 0x0105 q s → l ∈ s.hamper.lists → l.handle < 2 ^ 32 → s.listNamed l.handle = false →
    q.payload = le 4 l.handle ++ [0, 0, 0, 0] → ∃ u : State, exec (.listFree q) s = .next ((Claims.ok u).deliver q 0x0105) ∧
    u.hamper.lists = s.hamper.lists.filter (fun x => x.handle ≠ l.handle) ∧ u.layout = s.layout ∧ u.mem = s.mem ∧ u.job = s.job) ∧
  (∀ (q : Req) (s : State) (r : Fin 16) (first count dst : Nat), Claims.Fresh 0x0110 q s → first < 2 ^ 48 → 1 ≤ count → count < 2 ^ 32 → dst % 64 = 0 →
    0x3400000000 ≤ dst → dst + count * 8256 ≤ 0x3800000000 → s.hamper.capture = none →
    q.payload = [BitVec.ofNat 8 r.val, 0, 0, 0, 0, 0, 0, 0] ++ le 8 first ++ le 4 count ++ [0, 0, 0, 0] ++ le 8 dst →
    let c : Capture := { origin := some q.origin, row := r, first := first, count := count, dst := dst, written := 0, active := s.armed }
    (s.armed = false ∨ (s.job.state = .running ∧ s.assigned r = true ∧ s.hasLine r first = true ∧ (s.lsd.rows[r]).next + 15 ≤ first) →
      exec (.proofCapture q) s = .next ((Claims.accepted { s.start q 0x0110 with hamper := { s.hamper with capture := some c } }).deliver q 0x0110)) ∧
    (s.job.state = .running → s.assigned r = true → s.hasLine r first = true → first < (s.lsd.rows[r]).next + 15 →
      exec (.proofCapture q) s = .next ((Ans.fail (s.start q 0x0110) .leadTooShort).deliver q 0x0110))) ∧
  (∀ (q : Req) (s : State), Claims.FreshOf 0x0111 0 q s →
    (s.hamper.capture = none → exec (.proofCancel q) s = .next ((Claims.ok (s.start q 0x0111)).deliver q 0x0111)) ∧
    (∀ c, s.hamper.capture = some c → ∃ u : State, exec (.proofCancel q) s = .next ((Claims.ok u).deliver q 0x0111) ∧
      u.hamper = { s.hamper with capture := none, ended := some c } ∧ Claims.Posts s u [0x02A3] ∧ u = { s.start q 0x0111 with hamper := u.hamper, mbx := u.mbx }))

/-- Stagings end as their data say. HAMPER_STAGED of a coded stream that passes the check of its staging puts the tile, with
that stream's blocks, in the directory under an id that held none and reports OK; one that fails, or whose source
could not be read, adds none and reports it, POISON on a source in the transfer zone with MEM_ECC before it. A raw
staging with a compressor stores the tile in the blocks the compressors make of it once every one is verified, and
waits till then. HAMPER_LIST_STAGED stores a list that passes, in units of 4 KiB, under the next handle; one that fails
is only reported. HAMPER_SPACE reports tiles freed by auto_free at most once a millisecond. (R243, R249, R252, R264,
R268, R278) -/
def Obligations.StoreEventsComplete : Prop :=
  (∀ (data : List Byte) (t : Nat) (s : State) (g : Staging), g.tile < 2 ^ 24 → s.staging? g.tile = some g → g.raw = false →
    (g.srcHost = true ∨ s.readFails g.src g.length = false) → let p := if g.srcHost then padTo g.length data else s.memRead g.src g.length
    (∀ x : Stream, readStream (!g.structural) g.codes (some (g.w, g.h)) p = .ok x → s.tile? g.tile = none →
      ∃ u, exec (.hamperStaged (BitVec.ofNat 24 g.tile) data true t) s = .next u ∧ u.hamper.tiles = s.hamper.tiles ++ [tileOf g x.blocks] ∧
        u.hamper.stagings = s.hamper.stagings.filter (fun z => z.tile ≠ g.tile) ∧ Claims.Posts s u [0x02A0] ∧ u.mem = s.mem) ∧
    (∀ e, readStream (!g.structural) g.codes (some (g.w, g.h)) p = .error e →
      ∃ u, exec (.hamperStaged (BitVec.ofNat 24 g.tile) data true t) s = .next u ∧ u.hamper.tiles = s.hamper.tiles ∧ Claims.Posts s u [0x02A0] ∧
        u.hamper.stagings = s.hamper.stagings.filter (fun z => z.tile ≠ g.tile)) ∧
    (∃ u, exec (.hamperStaged (BitVec.ofNat 24 g.tile) data false t) s = .next u ∧ u.hamper.tiles = s.hamper.tiles ∧ Claims.Posts s u [0x02A0])) ∧
  (∀ (data : List Byte) (t : Nat) (s : State) (g : Staging), g.tile < 2 ^ 24 → s.staging? g.tile = some g → g.raw = false → g.srcHost = false →
    s.readFails g.src g.length = true →
    ∃ u, exec (.hamperStaged (BitVec.ofNat 24 g.tile) data true t) s = .next u ∧ u.hamper.tiles = s.hamper.tiles ∧
      u.hamper.stagings = s.hamper.stagings.filter (fun z => z.tile ≠ g.tile) ∧ Claims.Posts s u [0x02F0, 0x02A0]) ∧
  (∀ (data : List Byte) (t : Nat) (s : State) (g : Staging), g.tile < 2 ^ 24 → s.staging? g.tile = some g → g.raw = true →
    (s.rawWaits g = true → exec (.hamperStaged (BitVec.ofNat 24 g.tile) data true t) s = .next (s.at t)) ∧
    (s.rawWaits g = false → s.codec.comp ≠ 0 → s.tile? g.tile = none → (g.srcHost = true ∨ s.readFails g.src g.length = false) →
      ∃ u, exec (.hamperStaged (BitVec.ofNat 24 g.tile) data true t) s = .next u ∧
        u.hamper.tiles = s.hamper.tiles ++ [tileOf g (compressTile g.codes g.w g.h s.codec.depthCap
          (if g.srcHost then padTo g.length data else s.memRead g.src g.length))] ∧ Claims.Posts s u [0x02A0])) ∧
  (∀ (data : List Byte) (ok : Bool) (tile : BitVec 24) (t : Nat) (s : State), s.staging? tile.toNat = none →
    exec (.hamperStaged tile data ok t) s = .next (s.at t)) ∧
  (∀ (data : List Byte) (t : Nat) (s : State) (g : ListStaging) (rest : List ListStaging), s.hamper.listStagings = g :: rest →
    (g.srcHost = true ∨ s.readFails g.src g.length = false) → let p := if g.srcHost then padTo g.length data else s.memRead g.src g.length
    (∀ (l : PList) (units : List Extent), s.readList s.hamper.nextHandle p g.length = .ok l → s.allocateUnits g.length = some units →
      ∃ u, exec (.hamperListStaged data true t) s = .next u ∧ u.hamper = { s.hamper with
        lists := s.hamper.lists ++ [{ l with units := units }], nextHandle := s.hamper.nextHandle + 1, listStagings := rest } ∧ Claims.Posts s u [0x02A1]) ∧
    (∀ e, s.readList s.hamper.nextHandle p g.length = .error e → ∃ u, exec (.hamperListStaged data true t) s = .next u ∧
      u.hamper = { s.hamper with listStagings := rest } ∧ Claims.Posts s u [0x02A1])) ∧
  (∀ (t : Nat) (s : State), exec (.hamperSpace t) s = .next (if 0 < s.hamper.freed ∧ s.hamper.spaceAt + 1000000 * 2 ^ 32 ≤ max s.aon t then
      State.post { s.at t with hamper := { s.hamper with freed := 0, spaceAt := max s.aon t } } 0x02A2 clsJob [(4, s.hamper.freed), (4, s.pagesFree)]
    else s.at t))

/-- The codec's commands and units complete. CODEC_CONFIG sets the depth cap while nothing raw is staged, CODEC_STATUS
answers OK with 48 bytes and changes nothing, CODEC_CHECK is ACCEPTED and queued, and CDX_CHECK_DONE reports the oldest
check; while the module is throttled it waits. BLOCK_DECODE at a unit that has no block after the waiting bands were
handed out does nothing more. At one that has a sound block of a stored tile: a success puts a band its row still
needs before the engines; a first failure is remembered; a success after one is transient and reported; a second
failure is reported and counted as lasting, and on the only unit in service isolates it and stops the job; on the
second unit a success isolates the first and a failure damages the block. COMPRESSOR_VERIFY counts a verified block, a
first failure compresses it again, a success then is transient, and a second failure isolates the unit. (R245, R246,
R247, R248, R249, R252, R253, R254, R255) -/
def Obligations.CodecCompletes : Prop :=
  (∀ (q : Req) (s : State) (cap : Nat), Claims.Fresh 0x0130 q s → 1 ≤ cap → cap ≤ 256 → (∀ g ∈ s.hamper.stagings, g.raw = false) →
    q.payload = le 2 cap ++ [0, 0, 0, 0, 0, 0] →
    exec (.codecConfig q) s = .next ((Claims.ok { s.start q 0x0130 with codec := { s.codec with depthCap := cap } }).deliver q 0x0130)) ∧
  (∀ (q : Req) (s : State), Claims.FreshOf 0x0131 0 q s → ∃ p : List Byte,
    exec (.codecStatus q) s = .next ((Claims.ok (s.start q 0x0131) p).deliver q 0x0131) ∧ p.length = 48 ∧ fld p 0 2 = s.codec.primary.toNat ∧
    fld p 2 2 = s.codec.shadow.toNat ∧ fld p 4 1 = s.codec.comp.toNat ∧ fld p 16 4 = s.codec.damaged.toNat ∧ fld p 40 8 = s.nowNs % 2 ^ 64) ∧
  (∀ (q : Req) (s : State) (src len : Nat) (codes : Bool), Claims.Fresh 0x0132 q s → 32 ≤ len → len < 2 ^ 32 → 0x3400000000 ≤ src →
    src + len ≤ 0x3800000000 → q.payload = le 8 src ++ le 4 len ++ [if codes then 1 else 0, 0, 0, 0] →
    let c : CodecCheck := { origin := q.origin, src := src, length := len, codes := codes }
    exec (.codecCheck q) s = .next ((Claims.accepted { s.start q 0x0132 with codec := { s.codec with checks := s.codec.checks ++ [c] } }).deliver q 0x0132)) ∧
  (∀ (t : Nat) (s : State) (c : CodecCheck) (rest : List CodecCheck), s.codec.checks = c :: rest →
    (s.pwr.throttled = false → ∃ u, exec (.cdxCheckDone t) s = .next u ∧ u.codec = { s.codec with checks := rest } ∧ Claims.Posts s u [0x0292] ∧
      u = { s.at t with codec := u.codec, mbx := u.mbx }) ∧
    (s.pwr.throttled = true → exec (.cdxCheckDone t) s = .next (s.at t))) ∧
  (∀ (p : Pipe) (i : Fin 16) (fail : Bool) (t : Nat) (s : State), let v := (s.at t).feedDecoders p
    (v.codec.dec p).jobs[i] = none → exec (.blockDecode p i fail t) s = .next v) ∧
  (∀ (p : Pipe) (i : Fin 16) (t : Nat) (s : State) (j : DecodeJob) (x : Tile) (b : Blk), let v := (s.at t).feedDecoders p
    (v.codec.dec p).jobs[i] = some j → s.hamper.tiles.find? (fun y => y.id = j.band.tile) = some x → x.blocks[j.band.blk]? = some b →
    b.damaged = false → b.raw.isSome = true → s.readFails b.addr b.size = false →
    ∃ u w, exec (.blockDecode p i false t) s = .next u ∧ exec (.blockDecode p i true t) s = .next w ∧
      (j.first = none → j.failed = none → u.codec.decTransient = s.codec.decTransient ∧ u.hamper = s.hamper ∧ Claims.Posts s u [] ∧
        ((v.needs p j.band.row).contains j.band = true → j.band ∈ (u.codec.dec p).held) ∧
        (w.codec.dec p).jobs[i] = some { j with failed := some (Config.decodeError s.free) } ∧ Claims.Posts s w []) ∧
      (j.first = none → j.failed.isSome = true → u.codec.decTransient = satAdd s.codec.decTransient 1 ∧ Claims.Posts s u [0x0290] ∧
        w.codec.decLasting = satAdd s.codec.decLasting 1 ∧ Claims.Posts s w [0x0290] ∧ w.hamper = s.hamper ∧
        (s.codec.units p = 1#16 <<< i.val → w.codec.units p = 0 ∧ ∃ d, Claims.Tells s w [.detect d (max s.aon t)] ∧ d.stops = true)) ∧
      (∀ f, j.first = some f → (u.codec.units p).getLsbD f.val = false ∧ w.codec.damaged = satAdd s.codec.damaged 1 ∧
        w.codec.units p = s.codec.units p ∧ Claims.Posts s w [0x0291])) ∧
  (∀ (i : Fin 8) (fail : Bool) (t : Nat) (s : State), let v := (s.at t).feedCompressors
    v.codec.comps[i] = none → exec (.compressorVerify i fail t) s = .next v) ∧
  (∀ (i : Fin 8) (t : Nat) (s : State) (b : CompBlock), let v := (s.at t).feedCompressors
    v.codec.comps[i] = some b →
    ∃ u w, exec (.compressorVerify i false t) s = .next u ∧ exec (.compressorVerify i true t) s = .next w ∧
      (u.codec.works.filter (fun x => x.tile = b.tile)).map (·.verified) = (v.codec.works.filter (fun x => x.tile = b.tile)).map (·.verified + 1) ∧
      (b.again = false → Claims.Posts s u [] ∧ w.codec.comps[i] = some { b with again := true } ∧ Claims.Posts s w []) ∧
      (b.again = true → u.codec.compTransient = satAdd s.codec.compTransient 1 ∧ Claims.Posts s u [0x0290] ∧
        w.codec.comp.getLsbD i.val = false ∧ w.codec.compLasting = satAdd s.codec.compLasting 1 ∧ Claims.Posts s w [0x0290]))

/-- HAC_CONFIG, HEAD_AUTH_STATUS, HEAD_USAGE, USAGE_COMMIT_NOW, HEAD_DRIVER_INFO and HEAD_TUNNEL complete. HAC_CONFIG with
no job armed sets policy 0 to 2, count mask and interval 10 to 3,600. HEAD_AUTH_STATUS answers OK with 136 bytes;
HEAD_USAGE of a present head with 96 bytes of its usage; HEAD_DRIVER_INFO of an identified connector with 128 bytes;
none changes anything, and of an absent head or an unidentified connector they answer BAD_STATE. USAGE_COMMIT_NOW with
no PASSED head on its connectors answers OK and does nothing; otherwise it is ACCEPTED, waits, and a commit is under
way for each of those heads. HEAD_TUNNEL of 0 to 232 bytes on an identified connector without a lasting fault queues
the message and answers later. (R325, R326, R349, R350, R351, R352) -/
def Obligations.HeadCommandsComplete : Prop :=
  (∀ (q : Req) (s : State) (policy : Fin 3) (mask : BitVec 16) (sec_ : Nat), Claims.Fresh 0x0501 q s → s.armed = false → 10 ≤ sec_ → sec_ ≤ 3600 →
    q.payload = [BitVec.ofNat 8 policy.val, 0] ++ le 2 mask.toNat ++ le 4 sec_ →
    exec (.hacConfig q) s = .next ((Claims.ok { s.start q 0x0501 with hac := { s.hac with
      policy := policy.val, countMask := mask, intervalS := sec_ } }).deliver q 0x0501)) ∧
  (∀ (q : Req) (s : State) (c : Fin 4), Claims.Fresh 0x0502 q s → q.payload = [BitVec.ofNat 8 c.val, 0, 0, 0, 0, 0, 0, 0] → ∃ p : List Byte,
    exec (.headAuthStatus q) s = .next ((Claims.ok (s.start q 0x0502) p).deliver q 0x0502) ∧ p.length = 136 ∧ fld p 128 8 = s.nowNs % 2 ^ 64 ∧
    ∀ i : Fin 16, fld p (8 * i.val) 1 = (s.hac.heads[(⟨16 * c.val + i.val, by omega⟩ : Fin 64)]).auth.code) ∧
  (∀ (q : Req) (s : State) (h : Fin 64), Claims.Fresh 0x0503 q s → q.payload = [BitVec.ofNat 8 h.val, 0, 0, 0, 0, 0, 0, 0] →
    ((s.hac.heads[h]).present = true → ∃ p : List Byte, exec (.headUsage q) s = .next ((Claims.ok (s.start q 0x0503) p).deliver q 0x0503) ∧
      p.length = 96 ∧ fld p 64 8 = (s.hac.heads[h]).pendLines.toNat ∧ fld p 72 8 = (s.hac.heads[h]).pendDrops.toNat ∧ fld p 88 8 = s.nowNs % 2 ^ 64) ∧
    ((s.hac.heads[h]).present = false → exec (.headUsage q) s = .next ((Ans.fail (s.start q 0x0503) .badState).deliver q 0x0503))) ∧
  (∀ (q : Req) (s : State) (m : Fin 16), Claims.Fresh 0x0504 q s → q.payload = [BitVec.ofNat 8 m.val, 0, 0, 0, 0, 0, 0, 0] →
    (s.commitHeads (fun c => m.val.testBit c.val) = [] → exec (.usageCommitNow q) s = .next ((Claims.ok (s.start q 0x0504)).deliver q 0x0504)) ∧
    (s.commitHeads (fun c => m.val.testBit c.val) ≠ [] → (∀ c : Fin 4, (s.hlk.conns[c]).hmcLasting = false) →
      ∃ u : State, exec (.usageCommitNow q) s = .next ((Claims.accepted u).deliver q 0x0504) ∧ u.hac.requests = s.hac.requests ++ [(q.origin, false)] ∧
        (∀ h ∈ s.commitHeads (fun c => m.val.testBit c.val), (u.hac.heads[h]).commit.isSome = true ∧ q.origin ∈ (u.hac.heads[h]).commitFor) ∧
        u.job = s.job ∧ u.mem = s.mem)) ∧
  (∀ (q : Req) (s : State) (c : Fin 4), Claims.Fresh 0x0513 q s → q.payload = [BitVec.ofNat 8 c.val, 0, 0, 0, 0, 0, 0, 0] →
    ((s.hlk.conns[c]).identified = true → ∃ p : List Byte, exec (.headDriverInfo q) s = .next ((Claims.ok (s.start q 0x0513) p).deliver q 0x0513) ∧
      p.length = 128 ∧ fld p 120 8 = s.nowNs % 2 ^ 64) ∧
    ((s.hlk.conns[c]).identified = false → exec (.headDriverInfo q) s = .next ((Ans.fail (s.start q 0x0513) .badState).deliver q 0x0513))) ∧
  (∀ (q : Req) (s : State) (c : Fin 4) (body : List Byte), Claims.Fresh 0x0514 q s → body.length ≤ 232 → (s.hlk.conns[c]).identified = true →
    (s.hlk.conns[c]).hmcLasting = false → q.payload = [BitVec.ofNat 8 c.val, 0, 0, 0] ++ le 2 body.length ++ [0, 0] ++ body →
    let r : HmcReq := { mtype := 0x30, payload := body, origin := some q.origin }
    exec (.headTunnel q) s = .next ((Claims.later ((s.start q 0x0514).hmcAsk c r)).deliver q 0x0514))

/-- The head management channel's answers, timeouts and polls, and the commit timer act. HMC_ANSWER with no request
unanswered is only received; characters outside a message are skipped until the next 0xC5, and a whole message of
another sequence number changes nothing. A whole valid answer to the only queued tunnel message ends the request, takes the next sequence number and leaves heads and job alone; a valid STATUS answer without
faults holds its error count. HMC_TIMEOUT 5 ms after the first sending sends the same message once more and reports a
pending fault; after the second the channel is lasting faulty, its queue empty, and that is reported. HMC_STATUS_POLL
of a connector with an ACTIVE lane, 10 ms after the last and none queued, queues a STATUS request. USAGE_COMMIT at the
end of the interval notes the time and starts a commit for every PASSED head; earlier it changes nothing. (R321, R322,
R324, R346) -/
def Obligations.HeadChannelEventsComplete : Prop :=
  (∀ (c : Fin 4) (chars : List (Byte × Bool)) (t : Nat) (s : State),
    ((s.hlk.conns[c]).hmcWait = none ∨ (s.hlk.conns[c]).hmcQueue = [] →
      ∃ u, exec (.hmcAnswer c chars t) s = .next u ∧ u.hlk.conns[c] = { s.hlk.conns[c] with rx := (u.hlk.conns[c]).rx } ∧ u = { s.at t with hlk := u.hlk }) ∧
    ((∀ x ∈ chars, x.1 ≠ 0xC5) → (s.hlk.conns[c]).rx = [] → exec (.hmcAnswer c chars t) s = .next (s.at t))) ∧
  (∀ (c : Fin 4) (p : List Byte) (t : Nat) (s : State) (mseq : Byte) (sent : Nat) (q : HmcReq) (rest : List HmcReq), p.length ≤ 240 →
    (s.hlk.conns[c]).hmcWait = some (mseq, sent, 1) → (s.hlk.conns[c]).hmcQueue = q :: rest → (s.hlk.conns[c]).rx = [] →
    (∀ (ty m : Byte), m ≠ mseq → exec (.hmcAnswer c ((hmcMsg ty m p).map (·, false)) t) s = .next (s.at t)) ∧
    (q.mtype = 0x30 → rest = [] → ∃ u, exec (.hmcAnswer c ((hmcMsg 0xB0 mseq p).map (·, false)) t) s = .next u ∧ (u.hlk.conns[c]).hmcQueue = [] ∧
      (u.hlk.conns[c]).hmcWait = none ∧ (u.hlk.conns[c]).mseq = (s.hlk.conns[c]).mseq + 1 ∧ u = { s.at t with hlk := u.hlk, mbx := u.mbx }) ∧
    (q.mtype = 0x03 → rest = [] → p.length = 12 → fld p 0 4 % 16 = 0 →
      ∃ u, exec (.hmcAnswer c ((hmcMsg 0x83 mseq p).map (·, false)) t) s = .next u ∧ (u.hlk.conns[c]).hmcWait = none ∧
        (u.hlk.conns[c]).faultBits = 0 ∧ (u.hlk.conns[c]).crcErrors = BitVec.ofNat 32 (fld p 4 4) ∧ u = { s.at t with hlk := u.hlk })) ∧
  (∀ (c : Fin 4) (t : Nat) (s : State) (mseq : Byte) (sent : Nat) (q : HmcReq) (rest : List HmcReq), (s.hlk.conns[c]).hmcQueue = q :: rest →
    sent + 5000000 * 2 ^ 32 ≤ max s.aon t →
    ((s.hlk.conns[c]).hmcWait = some (mseq, sent, 1) → (s.clk.domains[(12 : Fin 13)]).gated = false → ∃ u d, exec (.hmcTimeout c t) s = .next u ∧
      (u.hlk.conns[c]).hmcWait = some (mseq, max s.aon t, 2) ∧ (u.hlk.conns[c]).hmcQueue = q :: rest ∧ u.wires = .hmc c (hmcMsg q.mtype mseq q.payload) :: s.wires ∧
      Claims.Posts s u [0x02B5] ∧ Claims.Tells s u [.detect d (max s.aon t)] ∧ d.outcome = .pending) ∧
    ((s.hlk.conns[c]).hmcWait = some (mseq, sent, 2) → (∀ x ∈ q :: rest, x.origin = none ∧ x.mtype ≠ 0x41 ∧ x.mtype ≠ 0x42) → ∃ u d, exec (.hmcTimeout c t) s = .next u ∧
      (u.hlk.conns[c]).hmcLasting = true ∧ (u.hlk.conns[c]).hmcQueue = [] ∧ (u.hlk.conns[c]).hmcWait = none ∧ Claims.Posts s u [0x02B5] ∧
      Claims.Tells s u [.detect d (max s.aon t)] ∧ d.outcome = .reported)) ∧
  (∀ (c : Fin 4) (l : Fin 32) (t : Nat) (s : State), connOf l = c → (s.lane (asLane l)).state = .active →
    (s.hlk.conns[c]).statusAt + 10000000 * 2 ^ 32 ≤ max s.aon t → (s.hlk.conns[c]).hmcLasting = false →
    (∀ x ∈ (s.hlk.conns[c]).hmcQueue, x.mtype ≠ 0x03) →
    ∃ u, exec (.hmcStatusPoll c t) s = .next u ∧ (u.hlk.conns[c]).statusAt = max s.aon t ∧
      (u.hlk.conns[c]).hmcQueue = (s.hlk.conns[c]).hmcQueue ++ [{ mtype := 0x03, payload := [], origin := none }] ∧
      u = { s.at t with hlk := u.hlk, wires := u.wires }) ∧
  (∀ (t : Nat) (s : State), s.hac.lastCommit + s.hac.intervalS * 1000000000 * 2 ^ 32 ≤ max s.aon t → (∀ c : Fin 4, (s.hlk.conns[c]).hmcLasting = false) →
    ∃ u, exec (.usageCommit t) s = .next u ∧ u.hac.lastCommit = max s.aon t ∧
      (∀ h ∈ s.commitHeads (fun _ => true), (u.hac.heads[h]).commit.isSome = true) ∧ u.job = s.job ∧ u.mem = s.mem) ∧
  (∀ (t : Nat) (s : State), max s.aon t < s.hac.lastCommit + s.hac.intervalS * 1000000000 * 2 ^ 32 → exec (.usageCommit t) s = .next (s.at t))

/-- LINK_CONTROL, LANE_CONFIG, LANE_STATUS and SLEEP entry complete. LINK_CONTROL of no connector answers OK and does nothing; WAKE of a
connector whose lanes are all READY or ACTIVE and that enters no SLEEP, too; WAKE of one whose lanes are all OFF, no
sleep entry under way, is ACCEPTED and every lane of it starts at stage PLL; SLEEP of one with a busy lane, with no job
armed, begins to enter sleep and answers later, and of one without answers OK; RESET with no job armed returns every
lane of it to OFF, with HLK_LINK where one was not. SLEEP and RESET while a job is armed answer BAD_STATE. LANE_CONFIG
with no job armed sets the settings of the next bring-up, auto-sleep time among them. LANE_STATUS answers OK with 208
bytes and changes nothing. AUTO_SLEEP, no wake waiting, the time since the last stop passed and the connector not woken
since, begins sleep; while a job is armed nothing changes. SLEEP_ENTRY puts every busy lane to SLEEP. (R294, R296, R300, R301, R302, R305) -/
def Obligations.LinkCommandsComplete : Prop :=
  (∀ (q : Req) (s : State) (act : Fin 3), Claims.Fresh 0x0510 q s → q.payload = [BitVec.ofNat 8 act.val, 0, 0, 0, 0, 0, 0, 0] →
    exec (.linkControl q) s = .next ((Claims.ok (s.start q 0x0510)).deliver q 0x0510)) ∧
  (∀ (q : Req) (s : State) (c : Fin 4), Claims.Fresh 0x0510 q s →
    (q.payload = [0, BitVec.ofNat 8 (2 ^ c.val), 0, 0, 0, 0, 0, 0] → s.connUp c = true → (s.hlk.conns[c]).entering = false →
      exec (.linkControl q) s = .next ((Claims.ok (s.start q 0x0510)).deliver q 0x0510)) ∧
    (q.payload = [0, BitVec.ofNat 8 (2 ^ c.val), 0, 0, 0, 0, 0, 0] → (∀ l, connOf l = c → (s.lane (asLane l)).state = .off) →
      (s.hlk.conns[c]).entering = false →
      ∃ u : State, exec (.linkControl q) s = .next ((Claims.accepted u).deliver q 0x0510) ∧
        (∀ l, connOf l = c → (u.lane (asLane l)).state = .pll ∧ (u.lane (asLane l)).since = s.aon) ∧
        (∀ l, connOf l ≠ c → u.lane (asLane l) = s.lane (asLane l)) ∧ u.hlk.wakes.length = s.hlk.wakes.length + 1 ∧ u.job = s.job ∧ u.mem = s.mem) ∧
    (q.payload = [1, BitVec.ofNat 8 (2 ^ c.val), 0, 0, 0, 0, 0, 0] → s.armed = false →
      ((∃ l, connOf l = c ∧ (s.lane (asLane l)).busy = true) → s.hlk.wakes = [] →
        ∃ u : State, exec (.linkControl q) s = .next ((Claims.later u).deliver q 0x0510) ∧ (u.hlk.conns[c]).entering = true ∧
          q.origin ∈ (u.hlk.conns[c]).sleepReqs ∧ u.hlk.lanes = s.hlk.lanes ∧ u = { s.start q 0x0510 with hlk := u.hlk }) ∧
      ((∀ l, connOf l = c → (s.lane (asLane l)).busy = false) →
        exec (.linkControl q) s = .next ((Claims.ok (s.start q 0x0510)).deliver q 0x0510))) ∧
    (q.payload = [2, BitVec.ofNat 8 (2 ^ c.val), 0, 0, 0, 0, 0, 0] → s.armed = false → s.hlk.wakes = [] → (s.hlk.conns[c]).sleepReqs = [] →
      ∃ u : State, exec (.linkControl q) s = .next ((Claims.ok u).deliver q 0x0510) ∧ (∀ l, connOf l = c → (u.lane (asLane l)).state = .off) ∧
        (u.hlk.conns[c]).entering = false ∧ (∀ l, connOf l ≠ c → u.lane (asLane l) = s.lane (asLane l)) ∧
        ((∃ l, connOf l = c ∧ (s.lane (asLane l)).state ≠ .off) → Claims.Posts s u [0x02B0]) ∧
        u = { s.start q 0x0510 with hlk := u.hlk, mbx := u.mbx }) ∧
    (∀ act : Byte, (act = 1 ∨ act = 2) → q.payload = [act, BitVec.ofNat 8 (2 ^ c.val), 0, 0, 0, 0, 0, 0] → s.armed = true →
      exec (.linkControl q) s = .next ((Ans.fail (s.start q 0x0510) .badState).deliver q 0x0510))) ∧
  (∀ (q : Req) (s : State) (c : Fin 4) (swing preset ctle sleep : Nat) (fixed noFix : Bool), Claims.Fresh 0x0511 q s → s.armed = false → 8 ≤ swing →
    swing ≤ 24 → preset ≤ 7 → ctle ≤ 15 → sleep ≤ 3600000 →
    q.payload = [BitVec.ofNat 8 c.val, BitVec.ofNat 8 swing, BitVec.ofNat 8 preset, BitVec.ofNat 8 (maskOf [fixed, noFix]), BitVec.ofNat 8 ctle, 0, 0, 0] ++
      le 4 sleep ++ [0, 0, 0, 0] →
    let cfg : LaneCfg := { swing := swing, preset := some preset, fixedCtle := fixed, noTxFix := noFix, ctleDb := ctle, autoSleepMs := sleep }
    exec (.laneConfig q) s = .next ((Claims.ok ((s.start q 0x0511).updConn c (fun n => { n with cfg := cfg }))).deliver q 0x0511)) ∧
  (∀ (q : Req) (s : State), Claims.FreshOf 0x0512 0 q s → ∃ p : List Byte,
    exec (.laneStatus q) s = .next ((Claims.ok (s.start q 0x0512) p).deliver q 0x0512) ∧ p.length = 208 ∧ fld p 0 8 = s.nowNs % 2 ^ 64 ∧
    ∀ l : Fin 32, fld p (16 + 6 * l.val) 1 = (s.lane (asLane l)).state.code ∧ fld p (16 + 6 * l.val + 4) 2 = (s.lane (asLane l)).transients.toNat) ∧
  (∀ (c : Fin 4) (l : Fin 32) (t : Nat) (s : State),
    (s.armed = true → exec (.autoSleep c t) s = .next (s.at t)) ∧
    (s.armed = false → 0 < (s.hlk.conns[c]).inForce.autoSleepMs → 0 < s.job.stoppedAt →
      s.job.stoppedAt + (s.hlk.conns[c]).inForce.autoSleepMs * 1000000 * 2 ^ 32 ≤ max s.aon t → (s.hlk.conns[c]).wokenAt ≤ s.job.stoppedAt →
      (s.hlk.conns[c]).entering = false → connOf l = c → (s.lane (asLane l)).busy = true → s.hlk.wakes = [] →
      ∃ u, exec (.autoSleep c t) s = .next u ∧ (u.hlk.conns[c]).entering = true ∧ u.hlk.lanes = s.hlk.lanes ∧ u = { s.at t with hlk := u.hlk })) ∧
  (∀ (c : Fin 4) (t : Nat) (s : State),
    ((s.hlk.conns[c]).entering = false → exec (.sleepEntry c t) s = .next (s.at t)) ∧
    ((s.hlk.conns[c]).entering = true → (s.hlk.conns[c]).wakeAfter = false → s.hlk.wakes = [] →
      ∃ u, exec (.sleepEntry c t) s = .next u ∧ (u.hlk.conns[c]).entering = false ∧
        (∀ l, connOf l = c → if (s.lane (asLane l)).busy then (u.lane (asLane l)).state = .sleep else u.lane (asLane l) = s.lane (asLane l)) ∧
        ((s.hlk.conns[c]).sleepReqs = [] → Claims.Posts s u [0x02B0]) ∧ u = { s.at t with hlk := u.hlk, mbx := u.mbx, wires := u.wires }))

/-- Lane tests run. LANE_TEST with no job armed is ACCEPTED, and the selected lanes that are not FAILED enter TEST and send
the pattern; with no lane it ends a running test and reports it. LANE_TEST_READ answers OK with 32 bytes and changes
nothing. CHECKER_SYNC of a bit at a lane of the test that is checked: out of sync, the bit that follows a register that
is not zero is counted, and the 64th in a row gives sync; in sync it counts the bit and an error where it differs, and
loses sync past 256 errors in a window; under NEAR_LOOP the lane's own bit comes back without an error. At another lane,
under SQUARE or TX_ONLY nothing changes. ERROR_INJECTION under a periodic test with a period of bits sent counts the
injected bit, and under NEAR_LOOP, in sync and checked, one error; before that nothing changes. LANE_TEST_END at the end
of the duration reports the test and puts its lanes to SLEEP with nothing stored; earlier it changes nothing. With no
test running the three change nothing. (R285, R297, R298, R299, R303, R304) -/
def Obligations.LaneTestsComplete : Prop :=
  (∀ (q : Req) (s : State) (lanes : BitVec 32) (pattern mode inject dur : Nat), Claims.Fresh 0x0830 q s → s.armed = false → lanes ≠ 0 → pattern ≤ 4 →
    mode ≤ 2 → inject ≤ 1 → 1 ≤ dur → dur ≤ 3600000 → s.hlk.test = none →
    q.payload = le 4 lanes.toNat ++ [BitVec.ofNat 8 pattern, BitVec.ofNat 8 mode, BitVec.ofNat 8 inject, 0] ++ le 4 dur ++ [0, 0, 0, 0] →
    ∃ u : State, exec (.laneTest q) s = .next ((Claims.accepted u).deliver q 0x0830) ∧
      u.hlk.test = some { lanes := lanes, pattern := pattern, mode := mode, inject := inject, injectExp := 0, durationMs := dur, started := s.aon,
                          origin := q.origin } ∧
      (∀ l : Fin 32, let n := s.lane (asLane l)
        if lanes.getLsbD l.val = true ∧ n.state ≠ .failed then
          (u.lane (asLane l)).state = .test ∧ (u.hlk.tests[l]).selected = true ∧ .lanePattern (n.sendsOn (asLane l)) pattern ∈ u.wires
        else u.lane (asLane l) = n) ∧ u = { s.start q 0x0830 with hlk := u.hlk, wires := u.wires }) ∧
  (∀ (q : Req) (s : State), Claims.Fresh 0x0830 q s → s.armed = false → q.payload = List.replicate 16 0 →
    (s.hlk.test = none → exec (.laneTest q) s = .next ((Claims.ok (s.start q 0x0830)).deliver q 0x0830)) ∧
    (s.hlk.test.isSome = true → ∃ u : State, exec (.laneTest q) s = .next ((Claims.ok u).deliver q 0x0830) ∧ u.hlk.test = none ∧ Claims.Posts s u [0x02B2])) ∧
  (∀ (q : Req) (s : State) (l : Fin 32), Claims.Fresh 0x0831 q s → q.payload = [BitVec.ofNat 8 l.val, 0, 0, 0, 0, 0, 0, 0] → ∃ p : List Byte,
    exec (.laneTestRead q) s = .next ((Claims.ok (s.start q 0x0831) p).deliver q 0x0831) ∧ p.length = 32 ∧ fld p 0 8 = (s.hlk.tests[l]).bits.toNat ∧
    fld p 8 8 = (s.hlk.tests[l]).errors.toNat ∧ fld p 16 4 = (s.hlk.tests[l]).syncLosses.toNat ∧ fld p 20 4 = (s.hlk.tests[l]).injected.toNat) ∧
  (∀ (l : Fin 32) (b : Bool) (t : Nat) (s : State) (r : TestRun), s.hlk.test = some r → let c := s.hlk.tests[l]
    ∃ u, exec (.checkerSync l [b] t) s = .next u ∧ u = { s.at t with hlk := { s.hlk with tests := upd s.hlk.tests l (fun _ => u.hlk.tests[l]) } } ∧
      (c.selected = false ∨ r.checked = false → u = s.at t) ∧
      (c.selected = true → r.checked = true → r.mode = 1 → c.inSync = false → c.reg.toNat % 2 ^ (prbsTaps r.pattern).1 ≠ 0 →
        b = prbsNext r.pattern c.reg → (u.hlk.tests[l]).inSync = decide (c.run = 63) ∧ (u.hlk.tests[l]).bits = c.bits) ∧
      (c.selected = true → r.checked = true → r.mode = 1 → c.inSync = true → let e := b2n (b != prbsNext r.pattern c.reg)
        (u.hlk.tests[l]).bits = satAdd c.bits 1 ∧ (u.hlk.tests[l]).errors = satAdd c.errors e ∧
        (u.hlk.tests[l]).inSync = decide (c.winErrors + e ≤ 256) ∧
        (256 < c.winErrors + e → (u.hlk.tests[l]).syncLosses = satAdd c.syncLosses 1)) ∧
      (c.selected = true → r.checked = true → r.mode = 0 → c.inSync = true → c.reg = c.gen →
        (u.hlk.tests[l]).bits = satAdd c.bits 1 ∧ (u.hlk.tests[l]).errors = satAdd c.errors 0)) ∧
  (∀ (l : Fin 32) (t : Nat) (s : State) (r : TestRun), s.hlk.test = some r → (s.hlk.tests[l]).selected = true → r.inject = 2 →
    exec (.errorInjection l t) s = .next (if ((s.hlk.tests[l]).injected.toNat + 1) * 10 ^ r.injectExp ≤ (s.at t).sentBits r then
      { s.at t with hlk := { s.hlk with tests := upd s.hlk.tests l (fun c => { c with
        injected := satAdd c.injected 1
        errors := if r.mode = 0 ∧ r.checked = true ∧ c.inSync = true then satAdd c.errors 1 else c.errors }) } }
      else s.at t)) ∧
  (∀ (t : Nat) (s : State) (r : TestRun), s.hlk.test = some r →
    (r.started + r.durationMs * 1000000 * 2 ^ 32 ≤ max s.aon t → ∃ u, exec (.laneTestEnd t) s = .next u ∧ u.hlk.test = none ∧
      (∀ l : Fin 32, let n := u.lane (asLane l)
        if (s.lane (asLane l)).state = .test then n.state = .sleep ∧ n.stored = false else n = s.lane (asLane l)) ∧ Claims.Posts s u [0x02B2] ∧
      u = { s.at t with hlk := u.hlk, mbx := u.mbx }) ∧
    (max s.aon t < r.started + r.durationMs * 1000000 * 2 ^ 32 → exec (.laneTestEnd t) s = .next (s.at t))) ∧
  (∀ (l : Fin 32) (bits : List Bool) (t : Nat) (s : State), s.hlk.test = none → exec (.checkerSync l bits t) s = .next (s.at t) ∧
    exec (.errorInjection l t) s = .next (s.at t) ∧ exec (.laneTestEnd t) s = .next (s.at t))

/-- Lanes train, are lost and retrain. A block on a pair whose lane receives none changes nothing; without block lock
only its header counts; on a locked ACTIVE lane, not inverted, a data block is dropped and counted, IDLE only counts its
header, and a training block of a head lane reports its loss. LANE_STAGE_DONE takes a lane from PLL to SIGNAL, after
100 us of signal to LOCK, with block lock to ALIGN, with order and polarity right to EQUALISE or awake to READY, and
with both ends equalised, 8 ms in, to READY; a waking lane with more than 1 in 10,000 blocks bad falls back to
EQUALISE. STAGE_LIMIT starts a lane again once, and the second time it is FAILED. LANE_LOSS of an ACTIVE lane with a
cause makes it RETRAIN and posts HLK_LANE; during a sleep entry nothing changes. RETRAIN_DONE within 40 us of a lane
aligned again makes it READY and counts it; past 40 us it is FAILED and the job stops. No wake is waiting, and no line of a lost lane stands in its row's buffer. (R284, R285, R286,
R287, R292, R293, R295, R305, R307) -/
def Obligations.LanesComplete : Prop :=
  (∀ (l : Fin 34) (k : Fin 32) (hdr : BitVec 2) (b : BitVec 64) (t : Nat) (s : State),
    (s.receives (s.rxLane l) = false → exec (.laneTrainingBlock l hdr b t) s = .next (s.at t)) ∧
    (s.receives (s.rxLane (asLane k)) = false → exec (.ack k hdr b t) s = .next (s.at t)) ∧
    (s.receives (s.rxLane l) = true → (s.lane (s.rxLane l)).sync.locked = false →
      exec (.laneTrainingBlock l hdr b t) s = .next ((s.at t).updLane (s.rxLane l) (fun n => { n with sync := n.sync.header hdr }))) ∧
    (s.receives (s.rxLane l) = true → (s.lane (s.rxLane l)).sync.locked = true → (s.lane (s.rxLane l)).state = .active →
      (s.lane (s.rxLane l)).rxInv = false →
      (hdr ≠ hdrControl → exec (.laneTrainingBlock l hdr b t) s = .next ((s.at t).updLane (s.rxLane l) (fun n =>
        { n with sync := n.sync.header hdr, dropped := satAdd n.dropped 1 }))) ∧
      (exec (.laneTrainingBlock l hdrControl 0 t) s = .next ((s.at t).updLane (s.rxLane l) (fun n => { n with sync := n.sync.header hdrControl }))) ∧
      (isTraining b = true → s.rxLane l = asLane k → (s.rows[rowOf k]).buffer = [] →
        ∃ u, exec (.laneTrainingBlock l hdrControl b t) s = .next u ∧ (u.lane (asLane k)).state = .retrain ∧ (u.lane (asLane k)).lossMask = 8 ∧
          Claims.Posts s u [0x02B1]))) ∧
  (∀ (l : Fin 32) (x : LaneSeen) (t : Nat) (s : State), (s.hlk.conns[connOf l]).entering = false → let n := s.lane (asLane l)
    let goes (st : LaneState) : Prop := ∃ u, exec (.laneStageDone (asLane l) x t) s = .next u ∧ (u.lane (asLane l)).state = st ∧
      (u.lane (asLane l)).since = max s.aon t ∧ (∀ k, k ≠ asLane l → u.lane k = s.lane k) ∧ u = { s.at t with hlk := u.hlk, wires := u.wires }
    (n.state = .pll → goes .signal) ∧
    (∀ t0, n.state = .signal → x.signal = true → n.signalAt = some t0 → max t0 n.since + 100000 * 2 ^ 32 ≤ max s.aon t → goes .lock) ∧
    (n.state = .lock → (x.headers.foldl BlockSync.header n.sync).locked = true → goes .align) ∧
    (n.state = .align → s.alignOk (connOf l) = true → goes (if n.waking then .ready else .equalise)) ∧
    (∀ k, n.state = .equalise → n.eqDone = false → n.partnerEqDone = true → n.since + 8000000 * 2 ^ 32 ≤ max s.aon t → connOf k = connOf l → k ≠ l →
      (s.lane (asLane k)).up = false → goes .ready) ∧
    (n.state = .ready → n.waking = true → x.blocks < 10000 * x.badBlocks → goes .equalise)) ∧
  (∀ (l : Fin 32) (d t : Nat) (s : State), stageLimit_ (s.lane (asLane l)).state = some d → (s.lane (asLane l)).since + d < max s.aon t →
    (s.hlk.conns[connOf l]).entering = false → s.hlk.wakes = [] → ∃ u x, exec (.stageLimit (asLane l) t) s = .next u ∧
      Claims.Tells s u [.detect x (max s.aon t)] ∧ if (s.lane (asLane l)).restarted then
        (u.lane (asLane l)).state = .failed ∧ Claims.Posts s u [0x02B0] ∧ x.outcome = .detected
      else (u.lane (asLane l)).state = .pll ∧ (u.lane (asLane l)).restarted = true ∧ x.outcome = .pending) ∧
  (∀ (l : Fin 32) (cause : BitVec 4) (hs : List (BitVec 2)) (t : Nat) (s : State), (s.lane (asLane l)).state = .active →
    ((s.hlk.conns[connOf l]).entering = true → exec (.laneLoss l cause hs t) s = .next (s.at t)) ∧
    (let all := (cause &&& 5) ||| (if (s.lane (asLane l)).sync.loses hs then 2 else 0);
      (s.hlk.conns[connOf l]).entering = false → all ≠ 0 → (s.rows[rowOf l]).buffer = [] →
      ∃ u x, exec (.laneLoss l cause hs t) s = .next u ∧ (u.lane (asLane l)).state = .retrain ∧ (u.lane (asLane l)).lossMask = all ∧
        (u.lane (asLane l)).since = max s.aon t ∧ Claims.Posts s u [0x02B1] ∧ Claims.Tells s u [.detect x (max s.aon t)] ∧ x.outcome = .pending)) ∧
  (∀ (l : Fin 32) (t : Nat) (s : State), (s.lane (asLane l)).state = .retrain → (s.hlk.conns[connOf l]).entering = false → s.hlk.wakes = [] →
    (max s.aon t ≤ (s.lane (asLane l)).since + 40000 * 2 ^ 32 → (s.lane (asLane l)).stage = 4 → s.alignOk (connOf l) = true →
      (s.lane (asLane l)).partnerReady = false → (s.hlk.conns[connOf l]).toldReady = true → (s.hlk.conns[connOf l]).ident.isSome = true →
      ∃ u x, exec (.retrainDone l t) s = .next u ∧ (u.lane (asLane l)).state = .ready ∧ Claims.Posts s u [0x02B1] ∧
        (u.lane (asLane l)).transients = satAdd (s.lane (asLane l)).transients 1 ∧ Claims.Tells s u [.detect x (max s.aon t)] ∧ x.outcome = .transient) ∧
    ((s.lane (asLane l)).since + 40000 * 2 ^ 32 < max s.aon t → ∃ u x, exec (.retrainDone l t) s = .next u ∧ (u.lane (asLane l)).state = .failed ∧
      Claims.Posts s u [0x02B1, 0x02B0] ∧ Claims.Tells s u [.detect x (max s.aon t)] ∧ x.outcome = .detected ∧ x.stops = true))

/-- A transmit lane sends its next item. With the lane not free FRAME_SEND and FLUSH change nothing. With no recheck left
open, FRAME_SEND on a free lane sends a WITHHOLD of the control queue as one block; with no control item and no resend
waiting it sends a buffered line as 514 blocks, FRAME_START with its tag and fseq first, counts fseq and awaits the
answer. FLUSH sends one FLUSH block; after 4.5 us without FLUSHED the first is repeated, after the second, with no job
arming, none is awaited, and sooner nothing changes. POUR_RECHECK, with CHK_POUR and HLK_FRAME: a passed recheck counts
as transient; a first failure queues one resend; a second withholds the line. (R220, R221, R308, R309, R310, R311, R315,
R319, R327) -/
def Obligations.FramesComplete : Prop :=
  (∀ (l : Fin 32) (x : Upset) (bad t : Nat) (s : State), (s.at t).laneFree l = false →
    exec (.frameSend l x bad t) s = .next (s.at t) ∧ exec (.flush l t) s = .next (s.at t)) ∧
  (∀ (l : Fin 32) (x : Upset) (bad n : Nat) (reason : Byte) (rest : List TxItem) (t : Nat) (s : State), (s.at t).laneFree l = true →
    (s.rows[rowOf l]).buffer.find? (fun b => (b.half l).check.isSome) = none →
    (s.hlk.tx[l]).control = .withhold n reason :: rest → exec (.frameSend l x bad t) s = .next (State.laneOut { s.at t with
      hlk := { s.hlk with tx := upd s.hlk.tx l (fun y => { y with control := rest }) } } (asLane l) [withholdBlock l n reason])) ∧
  (∀ (l : Fin 32) (x : Upset) (n : Nat) (b : BufLine) (rest : List TxItem) (t : Nat) (s : State), (s.at t).laneFree l = true →
    (s.rows[rowOf l]).buffer.find? (fun b => (b.half l).check.isSome) = none → (s.rows[rowOf l]).isWithheld n = false →
    (s.hlk.tx[l]).control = [] → (s.hlk.tx[l]).resends = [] → (s.hlk.tx[l]).frames = .frame n :: rest → (s.rows[rowOf l]).line? n = some b →
    s.deadlinePast (rowOf l) n = false → ∃ (u : State) (bl : List (Bool × BitVec 64)) (ok : Bool), exec (.frameSend l x 0 t) s = .next u ∧
      u.wires = .laneBlocks ((s.lane (asLane l)).sendsOn (asLane l)) (bl.map (s.lane (asLane l)).sends) :: s.wires ∧
      bl.length = 514 ∧ bl[0]? = some (ctl ([0xE1, BitVec.ofNat 8 l.val] ++ le 2 (lineTag n) ++ [(s.hlk.tx[l]).fseq])) ∧
      (u.hlk.tx[l]).frames = rest.filter (fun i => i != .frame n) ∧ (u.hlk.tx[l]).fseq = (s.hlk.tx[l]).fseq + 1 ∧
      { fseq := (s.hlk.tx[l]).fseq, line := n, resend := false, sentAt := max s.aon t + frameTime, checkOk := ok } ∈ (u.hlk.tx[l]).awaiting ∧
      ((u.rows[rowOf l]).line? n).map (fun y => (y.half l).begun) = some true) ∧
  (∀ (l : Fin 32) (reason : Byte) (rest : List TxItem) (t : Nat) (s : State), (s.at t).laneFree l = true →
    (s.hlk.tx[l]).control = .flush reason :: rest → exec (.flush l t) s = .next { (s.at t).laneOut (asLane l) [flushBlock l (s.hlk.tx[l]).fseq reason] with
      hlk := { s.hlk with tx := upd s.hlk.tx l (fun y => { y with
        control := rest
        fseq := y.fseq + 1
        flushWait := if reason = 0 then some (y.fseq, max s.aon t, 1) else y.flushWait }) } }) ∧
  (∀ (l : Fin 32) (t tries sent : Nat) (f : Byte) (s : State), (s.hlk.tx[l]).flushWait = some (f, sent, tries) →
    (max s.aon t < sent + answerTime → exec (.flushTimeout l t) s = .next (s.at t)) ∧
    (sent + answerTime ≤ max s.aon t → tries = 1 → exec (.flushTimeout l t) s = .next
      { (s.at t).laneOut (asLane l) [flushBlock l (s.hlk.tx[l]).fseq 0] with
        hlk := { s.hlk with tx := upd s.hlk.tx l (fun y => { y with fseq := y.fseq + 1, flushWait := some (y.fseq, max s.aon t, 2) }) } }) ∧
    (sent + answerTime ≤ max s.aon t → tries = 2 → s.job.state ≠ .arming → exec (.flushTimeout l t) s = .next
      ((s.at t).updTx l (fun y => { y with flushWait := none })))) ∧
  (∀ (h : Fin 32) (t : Nat) (s : State), (s.rows[rowOf h]).buffer.find? (fun b => (b.half h).check.isSome) = none →
    exec (.pourRecheck h t) s = .next (s.at t)) ∧
  (∀ (h : Fin 32) (t : Nat) (s : State) (b : BufLine) (mask : BitVec 16),
    (s.rows[rowOf h]).buffer.find? (fun b => (b.half h).check.isSome) = some b →
    (b.half h).check = some mask → ∃ u, exec (.pourRecheck h t) s = .next u ∧ Claims.Posts s u [0x0282, 0x02B4] ∧
      (mask = 0 → u.chk.pourTransient = satAdd s.chk.pourTransient 1 ∧ u.hlk = s.hlk) ∧
      (mask ≠ 0 → (b.half h).recheckPending = false → s.deadlinePast (rowOf h) b.data.line = false →
        b.data.line ∈ (u.hlk.tx[h]).resends ∧ u.chk = s.chk) ∧
      (mask ≠ 0 → (b.half h).recheckPending = true → (s.rows[rowOf h]).isWithheld b.data.line = false →
        u.chk.pourLasting = satAdd s.chk.pourLasting 1 ∧
        (u.rows[rowOf h]).isWithheld b.data.line = true ∧ .withhold b.data.line 1 ∈ (u.hlk.tx[h]).control))

/-- Every answer of the head driver acts on its frame. ACK on an ACTIVE lane with block lock, neither mirrored nor inverted
nor entering sleep: a control block that is no training block, no IDLE and no valid ACK is dropped and counted; one
with a foreign lane number counts as a wiring fault; one whose fseq no frame awaits is dropped and counted; FLUSHED ends
the wait of the FLUSH; TAKEN ends the wait of its frame and acknowledges the half; a first NAK, or no answer within
4.5 us of FRAME_END, posts HLK_FRAME and queues one resend; a second withholds the line. (R307, R313, R314, R316, R319,
R327) -/
def Obligations.FrameAnswersComplete : Prop :=
  (∀ (l : Fin 32) (blk : BitVec 64) (t : Nat) (s : State), (s.lane (asLane l)).state = .active → (s.hlk.conns[connOf l]).entering = false →
    (s.lane (asLane l)).sync.locked = true → (s.lane (asLane l)).rxRev = false → (s.lane (asLane l)).rxInv = false →
    let v := (s.at t).updLane (asLane l) (fun n => { n with sync := n.sync.header hdrControl })
    let valid := (blockBytes blk).getD 0 0 == 0xF1 && chkOk blk
    (valid = false → isTraining blk = false → blk ≠ 0 →
      exec (.ack l hdrControl blk t) s = .next (v.updLane (asLane l) (fun n => { n with dropped := satAdd n.dropped 1 }))) ∧
    (valid = true → bitAt blk 8 3 ≠ l.val % 8 → exec (.ack l hdrControl blk t) s = .next (v.updTx l (fun n => { n with wiring := satAdd n.wiring 1 }))) ∧
    (valid = true → bitAt blk 8 3 = l.val % 8 → ∀ (f : Byte) (sent tries : Nat), (s.hlk.tx[l]).flushWait = some (f, sent, tries) →
      f = BitVec.ofNat 8 (bitAt blk 32 8) → bitAt blk 40 8 = 5 →
      exec (.ack l hdrControl blk t) s = .next (v.updTx l (fun x => { x with flushWait := none, flushed := true }))) ∧
    (valid = true → bitAt blk 8 3 = l.val % 8 → (s.hlk.tx[l]).flushWait = none →
      ((∀ y ∈ (s.hlk.tx[l]).awaiting, y.fseq ≠ BitVec.ofNat 8 (bitAt blk 32 8)) →
        exec (.ack l hdrControl blk t) s = .next (v.updTx l (fun x => { x with dropped := satAdd x.dropped 1 }))) ∧
      (∀ (a : Awaited) (b : BufLine), (s.hlk.tx[l]).awaiting.find? (fun y => y.fseq = BitVec.ofNat 8 (bitAt blk 32 8)) = some a →
        (s.rows[rowOf l]).line? a.line = some b → (b.half l).frameCause = none →
        (bitAt blk 40 8 = 0 → ∃ u, exec (.ack l hdrControl blk t) s = .next u ∧ (∀ y ∈ (u.hlk.tx[l]).awaiting, y.fseq ≠ a.fseq) ∧
          ((u.rows[rowOf l]).line? a.line).map (fun y => (y.half l).acked) = some (a.checkOk || (b.half l).acked) ∧
          u = { s.at t with hlk := u.hlk, rows := u.rows }) ∧
        (1 ≤ bitAt blk 40 8 → bitAt blk 40 8 ≤ 3 → s.deadlinePast (rowOf l) a.line = false →
          ∃ u d, exec (.ack l hdrControl blk t) s = .next u ∧ a.line ∈ (u.hlk.tx[l]).resends ∧ Claims.Posts s u [0x02B4] ∧
            Claims.Tells s u [.detect d (max s.aon t)] ∧ d.outcome = .pending)))) ∧
  (∀ (l : Fin 32) (t : Nat) (s : State) (a : Awaited) (b : BufLine),
    (s.hlk.tx[l]).awaiting.find? (fun y => decide (y.sentAt + answerTime ≤ max s.aon t)) = some a → (s.rows[rowOf l]).line? a.line = some b →
    ((b.half l).frameCause = none → s.deadlinePast (rowOf l) a.line = false → ∃ u d, exec (.ackTimeout l t) s = .next u ∧
      a.line ∈ (u.hlk.tx[l]).resends ∧ Claims.Posts s u [0x02B4] ∧ Claims.Tells s u [.detect d (max s.aon t)] ∧ d.outcome = .pending) ∧
    ((b.half l).frameCause.isSome = true → (s.rows[rowOf l]).isWithheld a.line = false → ∃ u, exec (.ackTimeout l t) s = .next u ∧
      (u.rows[rowOf l]).isWithheld a.line = true ∧ .withhold a.line 2 ∈ (u.hlk.tx[l]).control ∧ Claims.Posts s u [0x02B4])) ∧
  (∀ (l : Fin 32) (t : Nat) (s : State), (∀ a ∈ (s.hlk.tx[l]).awaiting, max s.aon t < a.sentAt + answerTime) →
    exec (.ackTimeout l t) s = .next (s.at t))

/-- AXIS_CONFIG, AXIS_MOTION, AXIS_GEAR, AXIS_HOME and AXIS_LIMITS complete. AXIS_CONFIG of a DISABLED or IDLE axis on an
enabled link sets its limits; AXIS_MOTION moves an IDLE axis toward a target in range, completes a zero-length move and
a STOP at rest at once, jogs, and stops a moving axis; AXIS_GEAR makes an IDLE axis GEARED from ratio 0; AXIS_HOME makes
it HOMING; AXIS_LIMITS acts at once on an IDLE axis and is DEFERRED on a moving one. (R385, R386, R387, R388, R392, R404,
R406, R407, R408, R409) -/
def Obligations.AxisCommandsComplete : Prop :=
  (∀ (q : Req) (s : State) (i : Fin 8) (soft : Bool) (v a d j stop : Nat) (lo hi : Int), Claims.Fresh 0x0601 q s → 1 ≤ v → v < 2 ^ 31 → 1 ≤ a →
    a < 2 ^ 31 → 1 ≤ d → j < 2 ^ 31 → d ≤ stop → stop < 2 ^ 31 → -(2 ^ 63 : Int) ≤ lo → lo < hi → hi < 2 ^ 63 → s.linkOn i = true →
    ((s.axis i).state = .disabled ∨ (s.axis i).state = .idle) →
    q.payload = [BitVec.ofNat 8 i.val, if soft then 1 else 0, 0, 0] ++ le 4 v ++ le 4 a ++ le 4 d ++ le 4 j ++ le 4 stop ++ sle 8 lo ++ sle 8 hi →
    exec (.axisConfig q) s = .next ((Claims.ok ((s.start q 0x0601).updAxis i (fun x => { x with
      configured := true, softLimits := soft, minPos := lo, maxPos := hi, vMax := v, dStop := stop, deferred := none
      lim := { aMax := a, dMax := d, jerk := j } }))).deliver q 0x0601)) ∧
  (∀ (q : Req) (s : State) (i : Fin 8) (kind : Nat) (vel target : Int), Claims.Fresh 0x0603 q s → (s.axis i).configured = true →
    vel.natAbs ≤ (s.axis i).vMax → -(2 ^ 31 : Int) ≤ vel → vel < 2 ^ 31 → -(2 ^ 47 : Int) ≤ target → target < 2 ^ 47 →
    q.payload = [BitVec.ofNat 8 i.val, BitVec.ofNat 8 kind, 0, 0] ++ sle 4 vel ++ sle 8 target →
    (kind = 0 → (s.axis i).state = .idle → (s.axis i).offLimits target = false → target * 2 ^ 32 ≠ (s.axis i).pos →
      ∃ u, exec (.axisMotion q) s = .next ((Claims.accepted u).deliver q 0x0603) ∧ (u.axis i).state = .moving ∧ (u.axis i).target = target ∧
        (u.axis i).kind = some .absolute ∧ (u.axis i).speed = if vel = 0 then (s.axis i).vMax else vel.natAbs) ∧
    (kind = 0 → (s.axis i).state = .idle → (s.axis i).offLimits target = false → target * 2 ^ 32 = (s.axis i).pos →
      ∃ u, exec (.axisMotion q) s = .next ((Claims.accepted u).deliver q 0x0603) ∧ u.mot = s.mot ∧ Claims.Posts s u [0x02E0]) ∧
    (kind = 2 → (s.axis i).state = .idle → vel ≠ 0 → ∃ u, exec (.axisMotion q) s = .next ((Claims.accepted u).deliver q 0x0603) ∧
      (u.axis i).state = .jogging ∧ (u.axis i).jogVel = vel) ∧
    ((kind = 3 ∨ kind = 4) → (s.axis i).state = .idle → ∃ u, exec (.axisMotion q) s = .next ((Claims.accepted u).deliver q 0x0603) ∧
      u.mot = s.mot ∧ Claims.Posts s u [0x02E0]) ∧
    ((kind = 3 ∨ kind = 4) → (s.axis i).state = .moving → ∃ u, exec (.axisMotion q) s = .next ((Claims.accepted u).deliver q 0x0603) ∧
      (u.axis i).state = .stopping ∧ (u.axis i).pos = (s.axis i).pos ∧ (u.axis i).vel = (s.axis i).vel ∧
      (u.axis i).kind = some (if kind = 3 then .stop else .quickStop))) ∧
  (∀ (q : Req) (s : State) (i : Fin 8) (r1 at_ : Int) (blend : Nat), Claims.Fresh 0x0604 q s → (s.axis i).configured = true →
    (s.axis i).state = .idle → -(2 ^ 31 : Int) ≤ r1 → r1 < 2 ^ 31 → -(2 ^ 63 : Int) ≤ at_ → at_ < 2 ^ 63 → blend < 2 ^ 32 →
    q.payload = [BitVec.ofNat 8 i.val, 0, 0, 0] ++ sle 4 r1 ++ sle 8 at_ ++ le 4 blend ++ [0, 0, 0, 0] →
    ∃ u g, exec (.axisGear q) s = .next ((Claims.accepted u).deliver q 0x0604) ∧ (u.axis i).state = .geared ∧ (u.axis i).gear = some g ∧
      g.r1 = r1 ∧ g.atPos = at_ ∧ g.blend = blend ∧ g.pending = true ∧ ((s.axis i).gear = none → g.r0 = 0)) ∧
  (∀ (q : Req) (s : State) (i : Fin 8) (vel pos : Int) (travel back confirm : Nat), Claims.Fresh 0x0605 q s → (s.axis i).configured = true →
    (s.axis i).state = .idle → vel ≠ 0 → vel.natAbs ≤ (s.axis i).vMax → -(2 ^ 31 : Int) ≤ vel → vel < 2 ^ 31 → -(2 ^ 47 : Int) ≤ pos → pos < 2 ^ 47 →
    1 ≤ travel → travel < 2 ^ 31 → back < 2 ^ 31 → 1 ≤ confirm → confirm ≤ 255 →
    q.payload = [BitVec.ofNat 8 i.val, 0, 0, 0] ++ sle 4 vel ++ sle 8 pos ++ le 4 travel ++ le 4 back ++ [BitVec.ofNat 8 confirm, 0, 0, 0, 0, 0, 0, 0] →
    ∃ u, exec (.axisHome q) s = .next ((Claims.accepted u).deliver q 0x0605) ∧ (u.axis i).state = .homing ∧ (u.axis i).homing = some
      { vel := vel, pos := pos, maxTravel := travel, backoff := back, confirm := confirm, count := 0, firstActual := 0,
        startPos := (s.axis i).pos, backing := false }) ∧
  (∀ (q : Req) (s : State) (i : Fin 8) (a d j : Nat), Claims.Fresh 0x0606 q s → (s.axis i).configured = true → 1 ≤ a → a < 2 ^ 31 → 1 ≤ d →
    d ≤ (s.axis i).dStop → d < 2 ^ 31 → j < 2 ^ 31 → q.payload = [BitVec.ofNat 8 i.val, 0, 0, 0] ++ le 4 a ++ le 4 d ++ le 4 j →
    ((s.axis i).state = .idle → exec (.axisLimits q) s = .next ((Claims.ok ((s.start q 0x0606).updAxis i (fun x => { x with
      lim := { aMax := a, dMax := d, jerk := j }, deferred := none }))).deliver q 0x0606)) ∧
    ((s.axis i).state = .moving → exec (.axisLimits q) s = .next ((Claims.ok ((s.start q 0x0606).updAxis i (fun x => { x with
      deferred := some { aMax := a, dMax := d, jerk := j } }))).deliver q 0x0606)))

/-- The drive port and its axes run. DRIVE_PORT_CONFIG with every axis DISABLED sets period, links and lead; AXIS_ENABLE of
a DISABLED axis waits for the drive, and a disable of an IDLE axis completes at once; AXIS_STATUS answers 56 bytes.
SERVO_TICK acts on the state with the web edges that are due taken in: once the next tick of chain time has come it is
the tick, a DISABLED or FAULT axis follows its drive, an IDLE one stands still, every enabled link carries a 56-byte
SETPOINT frame; while PD11 is not up the tick only follows the time. A slot that is not used, or has been judged in the
present period, changes nothing. A good STATUS frame is taken in, completes a waited-for enable, and a reported fault
puts the axis in FAULT. A first slot fault is pending, a second in a row lasting, and a lasting one is not told again.
An enable not reported within 100 ms fails. (R382, R383, R384, R396, R398, R399, R402, R403, R405, R410) -/
def Obligations.AxesRunComplete : Prop :=
  (∀ (q : Req) (s : State) (c links lead : Nat), Claims.Fresh 0x0600 q s → c ≤ 4 → links ≤ 3 → lead ≤ 1000000 →
    (∀ i : Fin 8, (s.axis i).state = .disabled) → q.payload = [BitVec.ofNat 8 c, BitVec.ofNat 8 links, 0, 0] ++ le 4 lead →
    exec (.drivePortConfig q) s = .next ((Claims.ok { s.start q 0x0600 with mot := { s.mot with
      period := 62500 * 2 ^ c, links := BitVec.ofNat 2 links, gearLeadNs := lead, tick := s.tickNow (62500 * 2 ^ c) } }).deliver q 0x0600)) ∧
  (∀ (q : Req) (s : State) (i : Fin 8), Claims.Fresh 0x0602 q s → (s.axis i).configured = true →
    (q.payload = [BitVec.ofNat 8 i.val, 1, 0, 0, 0, 0, 0, 0] → (s.axis i).state = .disabled →
      ∃ u, exec (.axisEnable q) s = .next ((Claims.accepted u).deliver q 0x0602) ∧ (u.axis i).enable = true ∧ (u.axis i).kind = some .enable ∧
        (u.axis i).state = .disabled ∧ (u.axis i).enabledAt = s.aon) ∧
    (q.payload = [BitVec.ofNat 8 i.val, 0, 0, 0, 0, 0, 0, 0] → (s.axis i).state = .idle → (s.axis i).kind = none →
      ∃ u, exec (.axisEnable q) s = .next ((Claims.accepted u).deliver q 0x0602) ∧ (u.axis i).enable = false ∧ (u.axis i).state = .disabled ∧
        Claims.Posts s u [0x02E0])) ∧
  (∀ (q : Req) (s : State) (i : Fin 8), Claims.Fresh 0x0607 q s → q.payload = [BitVec.ofNat 8 i.val, 0, 0, 0, 0, 0, 0, 0] →
    ∃ p, exec (.axisStatus q) s = .next ((Claims.ok (s.start q 0x0607) p).deliver q 0x0607) ∧ p.length = 56 ∧ fld p 0 1 = (s.axis i).state.code ∧
      fld p 1 1 = (s.axis i).dstatus.toNat ∧ fld p 4 4 = (s.axis i).linkTransients.toNat ∧ fld p 48 8 = s.nowNs % 2 ^ 64) ∧
  (∀ (t : Nat) (s : State), let w := (s.at t).webSettle
    (w.domainUp 11 = false → exec (.servoTick t) s = .next { w with mot := { w.mot with tick := max w.mot.tick (w.tickNow w.mot.period) } }) ∧
    (w.domainUp 11 = true → w.tickNow w.mot.period ≤ w.mot.tick → exec (.servoTick t) s = .next w) ∧
    (w.domainUp 11 = true → w.mot.tick < w.tickNow w.mot.period → ∃ u, exec (.servoTick t) s = .next u ∧
      u.mot.tick = w.mot.tick + 1 ∧ (∀ i : Fin 8, ((w.axis i).state = .disabled ∨ (w.axis i).state = .fault) →
        (u.axis i).pos = ((w.axis i).actual * 65536 + (w.axis i).offset) * 2 ^ 32) ∧
      (∀ i : Fin 8, (w.axis i).state = .idle → u.axis i = w.axis i) ∧
      (∀ k : Fin 2, w.mot.links.getLsbD k.val = true → ∃ f, .setpoint k f ∈ u.wires ∧ f.length = 56) ∧ u.mem = w.mem ∧ u.job = w.job)) ∧
  (∀ (i : Fin 8) (c : SlotFault) (f : List Byte) (t : Nat) (s : State), s.slotOpen i = false →
    exec (.driveSlotFault i c t) s = .next (s.at t) ∧ exec (.statusFrame i f t) s = .next (s.at t)) ∧
  (∀ (i : Fin 8) (c : SlotFault) (t : Nat) (s : State), s.slotOpen i = true → (s.axis i).kind = none →
    ((s.axis i).linkPending = none → (s.axis i).linkLost = false → ∃ u d, exec (.driveSlotFault i c t) s = .next u ∧
      (u.axis i).linkPending = some c ∧ (u.axis i).state = (s.axis i).state ∧ Claims.Posts s u [0x02E1] ∧
      Claims.Tells s u [.detect d (max s.aon t)] ∧ d.outcome = .pending) ∧
    ((s.axis i).linkPending.isSome = true → ∃ u, exec (.driveSlotFault i c t) s = .next u ∧ (u.axis i).state = .fault ∧
      (u.axis i).enable = false ∧ (u.axis i).linkPending = none ∧ (u.axis i).linkLost = true ∧ Claims.Posts s u [0x02E1]) ∧
    ((s.axis i).linkPending = none → (s.axis i).linkLost = true → ∃ u, exec (.driveSlotFault i c t) s = .next u ∧
      (u.axis i).state = (s.axis i).state ∧ (u.axis i).linkLost = true ∧ Claims.Posts s u [])) ∧
  (∀ (i : Fin 8) (f : List Byte) (t : Nat) (s : State), s.slotOpen i = true → s.statusFault i f = none → (s.axis i).linkPending = none →
    (bit (fld f 3 1) 1 = false → (s.axis i).state = .idle → exec (.statusFrame i f t) s = .next ((s.at t).updAxis i (fun a => { a with
      judged := s.mot.tick + 1, dstatus := BitVec.ofNat 8 (fld f 3 1) &&& 0x0F, goodFrames := a.goodFrames + 1
      linkLost := a.linkLost && decide (a.goodFrames = 0), actual := extend32 ((q16 a.pos - a.offset).fdiv 65536) (fld f 4 4) }))) ∧
    (bit (fld f 3 1) 1 = false → bit (fld f 3 1) 0 = true → (s.axis i).state = .disabled → (s.axis i).enable = true → (s.axis i).kind = some .enable →
      ∃ u, exec (.statusFrame i f t) s = .next u ∧ (u.axis i).state = .idle ∧ (u.axis i).kind = none ∧ Claims.Posts s u [0x02E0]) ∧
    (bit (fld f 3 1) 1 = true → (s.axis i).state = .idle → (s.axis i).kind = none → ∃ u, exec (.statusFrame i f t) s = .next u ∧
      (u.axis i).state = .fault ∧ Claims.Posts s u [0x02E1])) ∧
  (∀ (i : Fin 8) (t : Nat) (s : State),
    ((s.axis i).kind ≠ some .enable ∨ max s.aon t < (s.axis i).enabledAt + 100000000 * 2 ^ 32 → exec (.enableTimeout i t) s = .next (s.at t)) ∧
    ((s.axis i).kind = some .enable → (s.axis i).enabledAt + 100000000 * 2 ^ 32 ≤ max s.aon t → ∃ u, exec (.enableTimeout i t) s = .next u ∧
      (u.axis i).enable = false ∧ (u.axis i).kind = none ∧ Claims.Posts s u [0x02E0]))

/-- The chain's commands and its enumeration complete. CHAIN_STATUS answers 48 bytes. CHAIN_ENUMERATE of the head sends the
token and waits; elsewhere BAD_STATE. CHAIN_CONFIG sets peer_stop and sleep_ms. CHAIN_LINK WAKE wakes both directions and
answers once every hop is up; SLEEP puts the downstream one to sleep. ENUM back at the head completes the enumeration,
elsewhere gives the address; ENUM_DONE brings count and epoch; no return within 1 ms repeats once, then fails. NO_HEAD
posts after 1 s. CHAIN_OF_ONE makes the head a chain of one. REJOIN answers give the address between the neighbours'.
CHAIN_SLEEP_TIMER sleeps the upstream direction, and CHAIN_WAKE_TIMEOUT ends a wake after 2 ms. (R359, R360, R361, R363,
R377, R378, R436, R437, R438, R440) -/
def Obligations.ChainComplete : Prop :=
  (∀ (q : Req) (s : State), Claims.FreshOf 0x0700 0 q s → ∃ p, exec (.chainStatus q) s = .next ((Claims.ok (s.start q 0x0700) p).deliver q 0x0700) ∧
    p.length = 48 ∧ p[0]? = some s.ownAddress ∧ fld p 8 4 = s.chain.sleepMs % 2 ^ 32 ∧ fld p 32 8 = s.nowNs % 2 ^ 64) ∧
  (∀ (q : Req) (s : State), Claims.FreshOf 0x0701 0 q s →
    (s.chain.strap = false → exec (.chainEnumerate q) s = .next ((Ans.fail (s.start q 0x0701) .badState).deliver q 0x0701)) ∧
    (s.chain.strap = true → s.chainArmed = false → ∃ u, exec (.chainEnumerate q) s = .next ((Claims.accepted u).deliver q 0x0701) ∧
      u.chain.address = some 0 ∧ u.chain.enumWait = some (s.aon, false) ∧ u.chain.enumReq = some q.origin)) ∧
  (∀ (q : Req) (s : State) (stop : Bool) (sleep : Nat), Claims.Fresh 0x0702 q s → s.armed = false → sleep ≤ 3600000 →
    q.payload = [if stop then 1 else 0, 0, 0, 0] ++ le 4 sleep →
    exec (.chainConfig q) s = .next ((Claims.ok { s.start q 0x0702 with chain := { s.chain with peerStop := stop, sleepMs := sleep } }).deliver q 0x0702)) ∧
  (∀ (q : Req) (s : State), Claims.Fresh 0x0704 q s →
    (q.payload = [0, 0, 0, 0, 0, 0, 0, 0] → ∃ u, exec (.chainLink q) s = .next ((Claims.later u).deliver q 0x0704) ∧ u.chain.hopIn.txSleep = false ∧
      u.chain.hopOut.txSleep = false ∧ (u.chain.linkReq = none ↔ s.chain.count = 1 ∨ (u.hopUp .inn && u.hopUp .out) = true)) ∧
    (q.payload = [1, 0, 0, 0, 0, 0, 0, 0] → s.chainArmed = false → s.canSend .out = true →
      ∃ u, exec (.chainLink q) s = .next ((Claims.ok u).deliver q 0x0704) ∧ u.chain = { s.chain with hopOut := { s.chain.hopOut with txSleep := true } })) ∧
  (∀ (h : ChainHdr) (v : Byte) (serial : BitVec 64) (t : Nat) (s : State),
    (s.chain.strap = true → serial = Config.serial → s.chain.enumWait.isSome = true → ∃ u, exec (.enum h v serial t) s = .next u ∧
      u.chain.address = some 0 ∧ u.chain.count = v.toNat ∧ u.chain.epoch = s.chain.epoch + 1 ∧ u.chain.enumWait = none ∧ Claims.Posts s u [0x02D0]) ∧
    (s.chain.strap = false → v.toNat ≤ 15 → ∃ u, exec (.enum h v serial t) s = .next u ∧ u.chain.address.map (·.val) = some v.toNat ∧
      Claims.Posts s u []) ∧
    (s.chain.strap = false → 15 < v.toNat → ∃ u, exec (.enum h v serial t) s = .next u ∧ u.chain.address = none ∧ Claims.Posts s u [0x02D0])) ∧
  (∀ (h : ChainHdr) (n : Byte) (e : BitVec 6) (serial : BitVec 64) (t : Nat) (s : State), s.chain.strap = false →
    ∃ u, exec (.enumDone h n e serial t) s = .next u ∧ u.chain.count = n.toNat ∧ u.chain.epoch = e ∧ Claims.Posts s u [0x02D0]) ∧
  (∀ (t t0 : Nat) (again : Bool) (s : State), s.chain.enumWait = some (t0, again) →
    (max s.aon t < t0 + 1000000 * 2 ^ 32 → exec (.enumTimeout t) s = .next (s.at t)) ∧
    (t0 + 1000000 * 2 ^ 32 ≤ max s.aon t → ∃ u, exec (.enumTimeout t) s = .next u ∧
      u.chain.enumWait = (if again then none else some (max s.aon t, true)) ∧ Claims.Posts s u (if again then [0x02D0] else []))) ∧
  (∀ (t t0 : Nat) (s : State), s.chain.upSince = some t0 → t0 + 1000000000 * 2 ^ 32 ≤ max s.aon t → s.chain.strap = false → s.chain.address = none →
    s.chain.noHeadPosted = false → ∃ u, exec (.noHead t) s = .next u ∧ u.chain = { s.chain with noHeadPosted := true } ∧ Claims.Posts s u [0x02D0]) ∧
  (∀ (t : Nat) (s : State), (s.chain.strap = false → exec (.chainOfOne t) s = .next (s.at t)) ∧
    (s.chain.strap = true → s.chain.address = none → (s.at t).silent 32 = true → (s.at t).silent 33 = true → ∃ u, exec (.chainOfOne t) s = .next u ∧
      u.chain.address = some 0 ∧ u.chain.count = 1 ∧ u.chain.epoch = s.chain.epoch + 1 ∧ Claims.Posts s u [0x02D0])) ∧
  (∀ (h : ChainHdr) (a b n : Byte) (e e' : BitVec 6) (t : Nat) (s : State), h.side = .inn → s.chain.rejoining = true → s.chain.rejoinOut = some (b, n, e') →
    b.toNat = a.toNat + 2 → b.toNat < n.toNat → n.toNat ≤ 16 → ∃ u, exec (.rejoin h (.answer a n e) t) s = .next u ∧
      u.chain.address.map (·.val) = some (a.toNat + 1) ∧ u.chain.count = n.toNat ∧ u.chain.epoch = e ∧ u.chain.rejoining = false) ∧
  (∀ (t : Nat) (s : State), (s.chain.sleepMs = 0 → exec (.chainSleepTimer t) s = .next (s.at t)) ∧
    (0 < s.chain.sleepMs → s.chain.lastArmed + s.chain.sleepMs * 1000000 * 2 ^ 32 ≤ max s.aon t → s.armed = false → s.canSend .inn = true →
      ∃ u, exec (.chainSleepTimer t) s = .next u ∧ u.chain = { s.chain with hopIn := { s.chain.hopIn with txSleep := true } })) ∧
  (∀ (t t0 : Nat) (o : Origin) (s : State), s.chain.linkReq = some (o, t0) →
    (max s.aon t < t0 + 2000000 * 2 ^ 32 → exec (.chainWakeTimeout t) s = .next (s.at t)) ∧
    (t0 + 2000000 * 2 ^ 32 ≤ max s.aon t → s.chain.count ≠ 1 → (s.hopUp .inn && s.hopUp .out) = false → ∃ u, exec (.chainWakeTimeout t) s = .next u ∧
      u.chain = { s.chain with linkReq := none }))

/-- Hops, chain time and beacons. CHN_ACK with OK ends the wait; another result, or none within 2 us, resends once, then
loses the hop. HOP_LOSS of an ACTIVE hop with a cause retrains it, not one whose partner sleeps; HOP_RETRAIN_DONE of a
hop aligned again within 100 us restores it, active once its partner is ready, and past 100 us takes it DOWN. SYNC gives
the hop's lead. BEACON_SAMPLE samples P at the beacon's chain time; a lap-1 BEACON becomes the last one; BEACON_LOSS
posts. A message of another epoch is only acknowledged. (R357, R358, R359, R364, R365, R367, R369, R374) -/
def Obligations.HopsAndBeaconsComplete : Prop :=
  (∀ (side : Side) (blk : BitVec 64) (t t0 : Nat) (s : State) (n : Byte) (m : ChainMsg), (s.hop side).tx.wait = some (n, m, false, t0) →
    ((blockBytes blk).getD 0 0 == 0xC3 && chkOk blk) = true → (blockBytes blk).getD 1 0 = n →
    ((blockBytes blk).getD 2 0 = 0 → (s.hop side).tx.queue = [] → exec (.chnAck side blk t) s = .next ((s.at t).setHop side { s.hop side with
      tx := { (s.hop side).tx with wait := none } })) ∧
    ((blockBytes blk).getD 2 0 ≠ 0 → ∃ u, exec (.chnAck side blk t) s = .next u ∧ (u.hop side).tx.wait = some (n, m, true, max s.aon t) ∧
      Claims.Posts s u [0x02D1])) ∧
  (∀ (side : Side) (t t0 : Nat) (s : State) (n : Byte) (m : ChainMsg) (resend : Bool), (s.hop side).tx.wait = some (n, m, resend, t0) →
    (max s.aon t < t0 + 2000 * 2 ^ 32 → exec (.chnAckTimeout side t) s = .next (s.at t)) ∧
    (t0 + 2000 * 2 ^ 32 ≤ max s.aon t → resend = true → s.chain.count ≠ 2 → ∃ u, exec (.chnAckTimeout side t) s = .next u ∧
      (u.hop side).retrain = some (max s.aon t, 0) ∧ (u.lane (hopLane side)).state = .retrain ∧ Claims.Posts s u [0x02D1])) ∧
  (∀ (side : Side) (c : BitVec 4) (hs : List (BitVec 2)) (t : Nat) (s : State),
    let all := (c &&& 5) ||| (if (s.lane (hopLane side)).sync.loses hs then 2 else 0)
    ((s.hop side).rxSleep = true → exec (.hopLoss side c hs t) s = .next (s.at t)) ∧
    ((s.lane (hopLane side)).state = .active → (s.hop side).retrain = none → (s.hop side).rxSleep = false → all ≠ 0 → s.chain.count ≠ 2 →
      ∃ u d, exec (.hopLoss side c hs t) s = .next u ∧ (u.hop side).retrain = some (max s.aon t, all) ∧
        (u.lane (hopLane side)).state = .retrain ∧ Claims.Posts s u [0x02D1] ∧ Claims.Tells s u [.detect d (max s.aon t)] ∧ d.outcome = .pending)) ∧
  (∀ (side : Side) (t t0 : Nat) (c : BitVec 4) (s : State), (s.hop side).retrain = some (t0, c) → let n := s.lane (hopLane side)
    (max s.aon t ≤ t0 + 100000 * 2 ^ 32 → n.stage = 4 → s.chainAligned (hopLane side) = true → n.partnerReady = false →
      ∃ u, exec (.hopRetrainDone side t) s = .next u ∧ (u.hop side).retrain = none ∧ (u.lane (hopLane side)).state = .ready ∧
        (u.lane (hopLane side)).transients = satAdd n.transients 1 ∧ Claims.Posts s u [0x02D1]) ∧
    (max s.aon t ≤ t0 + 100000 * 2 ^ 32 → n.stage = 4 → s.chainAligned (hopLane side) = true → n.partnerReady = true → (s.hop side).down = false →
      s.chain.rejoining = false → s.chain.strap = false → s.chain.linkReq = none →
      ∃ u, exec (.hopRetrainDone side t) s = .next u ∧ (u.hop side).retrain = none ∧ (u.lane (hopLane side)).state = .active ∧
        Claims.Posts s u [0x02D1]) ∧
    (max s.aon t ≤ t0 + 100000 * 2 ^ 32 → n.stage ≠ 4 → exec (.hopRetrainDone side t) s = .next (s.at t)) ∧
    (t0 + 100000 * 2 ^ 32 < max s.aon t → ∃ u, exec (.hopRetrainDone side t) s = .next u ∧ (u.hop side).retrain = none ∧ (u.hop side).down = true ∧
      Claims.Posts s u [0x02D1, 0x02D2])) ∧
  (∀ (side : Side) (t1 t2 t3 t4 : Nat) (s : State), (s.canSend side = false → exec (.sync side t1 t2 t3 t4) s = .next s) ∧
    (s.canSend side = true → ∃ u, exec (.sync side t1 t2 t3 t4) s = .next u ∧
      (u.hop side).lead = (((t2 : Int) - t1) + ((t3 : Int) - t4)).fdiv 2 ∧ (u.hop side).tx = (s.hop side).tx)) ∧
  (∀ (t : Nat) (s : State), (((s.at t).chainNs / 125000).toNat ≤ s.chain.sampleK → exec (.beaconSample t) s = .next (s.at t)) ∧
    (s.chain.sampleK < ((s.at t).chainNs / 125000).toNat → ∃ u, exec (.beaconSample t) s = .next u ∧
      u.chain.sampleK = ((s.at t).chainNs / 125000).toNat ∧
      u.chain.samplePos = s.lsd.posAt ((s.at t).chainMoment (((s.at t).chainNs / 125000).toNat * 125000)))) ∧
  (∀ (h : ChainHdr) (b : Beacon) (t : Nat) (s : State), h.epoch = s.chain.epoch → s.originates = false → b.lap ≠ 0 →
    ∃ u, exec (.beacon h b t) s = .next u ∧ u.chain.last = some b ∧ u.chain.lastAt = max s.aon t) ∧
  (∀ (t : Nat) (s : State), s.chain.lastAt + 256000 * 2 ^ 32 ≤ max s.aon t → s.chain.lossPosted = false → 1 < s.chain.count →
    s.chain.address.isSome = true → ∃ u d, exec (.beaconLoss t) s = .next u ∧ u.chain.lossPosted = true ∧ Claims.Posts s u [0x02D3] ∧
      Claims.Tells s u [.detect d (max s.aon t)] ∧ d.outcome = .pending) ∧
  (∀ (h : ChainHdr) (b : Beacon) (c : Byte) (stop mgmt : Bool) (time : BitVec 64) (first last : Int) (msg : List Byte) (full t : Nat) (s : State),
    h.epoch ≠ s.chain.epoch → ∀ i ∈ [Instr.beacon h b t, .chnFault h c stop time t, .chnWaste h c first last t, .resetNotice h c t,
      .peerReq h mgmt msg t, .peerReply h msg full t], exec i s = .next ((s.at t).ackChain h))

/-- A command that does not write device memory leaves every byte of it as it was. For every state: after every command
but the few that write device memory, each of its bytes is as before. Of those, the commands that decide or fire a
line write nothing without a proof capture, and with one whose lines are not all written they leave every byte outside
the capture's buffer of count records of 8,256 bytes. The others are BAR2 writes, transfers, LOG_READ and the request
that holds it, and the commands that may reset a domain or power it down or up. (R257, R270, R442, R479) -/
def Obligations.OnlyItsWritersChangeMemory : Prop :=
  (∀ (i : Instr) (s u : State), Claims.captures i = false → Claims.movesMemory i = false → exec i s = .next u → u.mem = s.mem) ∧
  (∀ (i : Instr) (s u : State), Claims.captures i = true → s.hamper.capture = none → exec i s = .next u → u.mem = s.mem) ∧
  (∀ (i : Instr) (s u : State) (c : Capture), Claims.captures i = true → s.hamper.capture = some c → c.written < c.count → exec i s = .next u →
    ∀ a, a < c.dst ∨ c.dst + c.count * 8256 ≤ a → Memory.get u.mem a = Memory.get s.mem a)

/-- The memory commands, scrubs, refreshes and background calibration complete. MEM_STATUS answers 80 bytes; MEM_CONFIG sets
pnr, policy, scrub period and idle time; MEM_INJECT plants a corruption. SCRUB_BURST moves on by 4,096 bytes, not in panic
nor past the end; SCRUB_PASS_END counts the pass and posts when it took over 110% of its period. REFRESH refreshes,
postpones up to 8 in panic and then forces, makes one up after it. NEIGHBOUR_REFRESH refreshes the rows on either side when
the drawn value says so, whatever it is. REFRESH_RATE_READ takes 1, 2 or 4. ZQ_CALIBRATION and DRIFT_MEASURE note their
time; drift out of range twice ends training for good. SET_POINT_DECISION takes the wanted set point. SELF_REFRESH begins
after 10 ms without traffic at FSP2 with no job armed. (R500, R501, R502, R503, R504, R506, R513, R516, R517, R518) -/
def Obligations.MemoryCommandsComplete : Prop :=
  (∀ (q : Req) (s : State), Claims.FreshOf 0x0810 0 q s → ∃ p, exec (.memStatus q) s = .next ((Claims.ok (s.start q 0x0810).draw p).deliver q 0x0810) ∧
    p.length = 80 ∧ fld p 0 2 = megaTransfers s.miu.fsp ∧ fld p 8 4 = s.miu.ceTransient.toNat ∧ fld p 12 4 = s.miu.ceLasting.toNat ∧
    fld p 16 4 = s.miu.ue.toNat ∧ fld p 72 8 = s.nowNs % 2 ^ 64) ∧
  (∀ (q : Req) (s : State) (pnr scrub idle : Nat) (fixed : Bool), Claims.Fresh 0x0811 q s → 6 ≤ pnr → pnr ≤ 12 → 32 ≤ scrub → scrub ≤ 1024 →
    10 ≤ idle → idle ≤ 60000 → q.payload = [BitVec.ofNat 8 pnr, if fixed then 1 else 0] ++ le 2 scrub ++ le 4 idle ++ List.replicate 8 0 →
    exec (.memConfig q) s = .next ((Claims.ok { s.start q 0x0811 with miu := { s.miu with
      pnrLog2 := pnr, fixed := fixed, scrubPeriod := scrub, idleMs := idle } }).deliver q 0x0811)) ∧
  (∀ (q : Req) (s : State) (c : Corruption), Claims.Fresh 0x0812 q s → c.target ≤ 2 → injectOk c.target c.addr = true →
    q.payload = [BitVec.ofNat 8 c.target, if c.double then 1 else 0, BitVec.ofNat 8 c.bit.val, 0, 0, 0, 0, 0] ++ le 8 c.addr →
    exec (.memInject q) s = .next ((Claims.ok { s.start q 0x0812 with miu := { s.miu with corrupt := c :: s.miu.corrupt } }).deliver q 0x0812)) ∧
  (∀ (t : Nat) (s : State),
    (s.miu.panicSince.isSome = true ∨ memSize ≤ s.miu.scrubPos → exec (.scrubBurst t) s = .next (s.at t)) ∧
    (s.miu.panicSince = none → s.miu.scrubPos < memSize → s.miu.corrupt = [] → s.miu.poison = [] → s.miu.dead = [] →
      exec (.scrubBurst t) s = .next { s.at t with miu := { s.miu with scrubPos := s.miu.scrubPos + 4096 } }) ∧
    (s.miu.scrubPos < memSize → exec (.scrubPassEnd t) s = .next (s.at t)) ∧
    (memSize ≤ s.miu.scrubPos → ∃ u, exec (.scrubPassEnd t) s = .next u ∧ u.miu.passes = s.miu.passes + 1 ∧ u.miu.scrubPos = 0 ∧
      Claims.Posts s u (if s.miu.scrubPeriod * 1100 < (max s.aon t - s.miu.passStart) / (1000000 * 2 ^ 32) then [0x02F2] else []))) ∧
  (∀ (ch : Fin 32) (rank : Fin 2) (i : Fin 64) (t : Nat) (s : State), i.val = 2 * ch.val + rank.val →
    (s.miu.selfRefresh = true → exec (.refresh ch rank t) s = .next (s.at t)) ∧
    (s.miu.selfRefresh = false → s.miu.panicSince.isSome = true → s.miu.deficit[i] < 8 → ∃ u, exec (.refresh ch rank t) s = .next u ∧
      u.miu.deficit[i] = s.miu.deficit[i] + 1 ∧ u.wires = s.wires) ∧
    (s.miu.selfRefresh = false → s.miu.panicSince.isSome = true → 8 ≤ s.miu.deficit[i] → ∃ u, exec (.refresh ch rank t) s = .next u ∧
      u.miu.forced = satAdd s.miu.forced 1 ∧ u.wires = .refresh ch rank :: s.wires) ∧
    (s.miu.selfRefresh = false → s.miu.panicSince = none → ∃ u, exec (.refresh ch rank t) s = .next u ∧ u.miu.deficit[i] = s.miu.deficit[i] - 1 ∧
      u.wires = List.replicate (if s.miu.deficit[i] = 0 then 1 else 2) (.refresh ch rank) ++ s.wires)) ∧
  (∀ (ch : Fin 32) (rank : Fin 2) (bank : Fin 16) (row : Fin 131072) (t : Nat) (s : State), ∃ u,
    exec (.neighbourRefresh ch rank bank row t) s = .next u ∧ u.free = s.free + 1 ∧
    u.wires = if (Config.random s.free).toNat % 2 ^ s.miu.pnrLog2 = 0 then
        (if h : row.val + 1 < 131072 then [.rowRefresh ch rank bank ⟨row.val + 1, h⟩] else []) ++
        (if 0 < row.val then [.rowRefresh ch rank bank ⟨row.val - 1, by omega⟩] else []) ++ s.wires
      else s.wires) ∧
  (∀ (m t : Nat) (s : State), exec (.refreshRateRead m t) s = .next (if m = 1 ∨ m = 2 ∨ m = 4 then
      { s.at t with miu := { s.miu with refreshMult := m } } else s.at t) ∧
    exec (.zqCalibration t) s = .next { s.at t with miu := { s.miu with zqAt := max s.aon t } }) ∧
  (∀ (ch : Fin 32) (t : Nat) (s : State),
    exec (.driftMeasure ch .small t) s = .next { s.at t with miu := { s.miu with driftAt := s.miu.driftAt.set ch (max s.aon t) } } ∧
    (∃ u, exec (.driftMeasure ch .adjust t) s = .next u ∧ (u.miu.adjusts[ch]) = (s.miu.adjusts[ch]) + 1 ∧ Claims.Posts s u []) ∧
    (∃ u d, exec (.driftMeasure ch (.outOfRange true) t) s = .next u ∧ Claims.Posts s u [0x02F3] ∧ Claims.Tells s u [.detect d (max s.aon t)] ∧
      d.outcome = .transient ∧ u.miu.trainLasting = s.miu.trainLasting) ∧
    (∃ u d, exec (.driftMeasure ch (.outOfRange false) t) s = .next u ∧ Claims.Posts s u [0x02F3] ∧ Claims.Tells s u [.detect d (max s.aon t)] ∧
      d.outcome = .detected ∧ d.stops = true ∧ u.miu.trainLasting = true)) ∧
  (∀ (t : Nat) (s : State), ∃ u, exec (.setPointDecision t) s = .next u ∧ u.miu.fsp = (s.at t).wantedSetPoint ∧
    ((s.at t).wantedSetPoint = s.miu.fsp → u = s.at t)) ∧
  (∀ (t : Nat) (s : State), (s.armed = true → exec (.selfRefresh t) s = .next (s.at t)) ∧
    (s.armed = false → s.miu.fsp = 2 → s.miu.lastTraffic + 10000000 * 2 ^ 32 ≤ max s.aon t →
      exec (.selfRefresh t) s = .next { s.at t with miu := { s.miu with selfRefresh := true } }) ∧
    (s.miu.fsp ≠ 2 ∨ max s.aon t < s.miu.lastTraffic + 10000000 * 2 ^ 32 → exec (.selfRefresh t) s = .next (s.at t)))

/-- Memory errors, sweeps and fences act. A single-bit DRAM error that the re-read does not show is transient and counts
towards the next MEM_ECC; one it shows enters the stuck-bit table and posts MEM_ECC. A double error counts and posts, and
poisons its word when the second read fails too. A corrected SRAM error is transient; an uncorrectable one of an engine's
array counts and posts. SRAM_SWEEP notes its time. MEM_ECC posts what is due and starts over. FENCE_VIOLATION lets an
allowed write be, and refuses, counts and stops at another; memory keeps its bytes. (R507, R508, R509, R511, R512, R519,
R553) -/
def Obligations.MemoryErrorsComplete : Prop :=
  (∀ (a : Nat) (b : Fin 72) (reader : MemReader) (t : Nat) (s : State), s.miu.dead.contains (wordOf a) = false →
    (∃ u d, exec (.dramReadError a b false false reader t) s = .next u ∧ u.miu.ceTransient = satAdd s.miu.ceTransient 1 ∧
      (u.miu.eccPosts[(0 : Fin 8)]).count = (s.miu.eccPosts[(0 : Fin 8)]).count + 1 ∧ Claims.Posts s u [] ∧
      Claims.Tells s u [.detect d (max s.aon t)] ∧ d.outcome = .transient ∧ u.miu.corrupted 0 (wordOf a) = false) ∧
    (s.miu.corrupted 0 (wordOf a) = false → s.miu.stuck.any (fun e => e.1 = wordOf a) = false → s.miu.stuck.length < 1024 →
      ∃ u d, exec (.dramReadError a b false true reader t) s = .next u ∧ u.miu.ceLasting = satAdd s.miu.ceLasting 1 ∧
        u.miu.stuck = s.miu.stuck ++ [(wordOf a, b)] ∧ Claims.Posts s u [0x02F0] ∧ Claims.Tells s u [.detect d (max s.aon t)] ∧ d.outcome = .masked)) ∧
  (∀ (a : Nat) (b : Fin 72) (again : Bool) (reader : MemReader) (t : Nat) (s : State), reader = .cdx ∨ reader = .dma →
    ∃ u d, exec (.dramReadError a b true again reader t) s = .next u ∧ (let last := again || s.miu.dead.contains (wordOf a) || s.miu.corrupted 0 (wordOf a)
      u.miu.ue = satAdd s.miu.ue (if last then 2 else 1) ∧ (last = true → wordOf a ∈ u.miu.poison) ∧
      d.outcome = if last then .reported else .transient) ∧
      Claims.Posts s u [0x02F0] ∧ Claims.Tells s u [.detect d (max s.aon t)]) ∧
  (∀ (arr : SramArray) (a t : Nat) (s : State), ∃ u d, exec (.sramReadError arr a false false t) s = .next u ∧
    u.miu.sramCe = satAdd s.miu.sramCe 1 ∧ Claims.Posts s u [] ∧ Claims.Tells s u [.detect d (max s.aon t)] ∧ d.outcome = .transient) ∧
  (∀ (a t : Nat) (again : Bool) (s : State), ∃ u, exec (.sramReadError .engine a true again t) s = .next u ∧
    u.miu.sramUe = satAdd s.miu.sramUe 1 ∧ Claims.Posts s u [0x02F0] ∧ u.fsv = s.fsv) ∧
  (∀ (arr : SramArray) (t : Nat) (s : State), s.miu.corrupt = [] → ∃ u, exec (.sramSweep arr t) s = .next u ∧
    u.miu.sweptAt[(arrayCode arr - 1) % 7]? = some (max s.aon t) ∧ u = { s.at t with miu := { s.miu with sweptAt := u.miu.sweptAt } }) ∧
  (∀ (m : Fin 8) (t : Nat) (s : State), ((s.miu.eccPosts[m]).due (max s.aon t) = false → exec (.memEcc m t) s = .next (s.at t)) ∧
    ((s.miu.eccPosts[m]).due (max s.aon t) = true → ∃ u, exec (.memEcc m t) s = .next u ∧ Claims.Posts s u [0x02F0] ∧
      u.miu = { s.miu with eccPosts := s.miu.eccPosts.set m { EccPost.init with postedAt := some (max s.aon t) } })) ∧
  (∀ (g : Agent) (a t : Nat) (s : State), (fenceAllows g a = true → exec (.fenceViolation g a t) s = .next (s.at t)) ∧
    (fenceAllows g a = false → ∃ u d, exec (.fenceViolation g a t) s = .next u ∧ u.boot.fenceRefused = satAdd s.boot.fenceRefused 1 ∧
      u.mem = s.mem ∧ Claims.Tells s u [.detect d (max s.aon t)] ∧ d.outcome = .detected ∧ d.stops = true))

/-- FSV takes what it is told, writes its log, closes waste ranges and lets WASTE fall; LOG_STATUS and LOG_READ complete.
LOG_STATUS answers 32 bytes. LOG_READ of at most three records answers them, into the zone it writes them there and
nowhere else, beyond the newest it answers EMPTY. FAULT_DETECTION with nothing told changes nothing. It takes the
oldest item: a pending detection of a new unit is kept and nothing is logged; a transient or lasting one not pending,
with room in the log, adds one record under the next sequence number, and posts FSV_FAULT; a lasting one of this
module also sets GLOBAL_FAULT bit 0, and where it stops, with a job armed and no stop decided, decides on a stop that
names the record; poured lines that a fault withholds are called back and marked with cause FAULT. A mark before the origin is latched is dropped. WASTE_RANGE_CLOSE closes every range whose last
position has passed, with one record each. WASTE_HOLD_END, with P - O in no range, lets WASTE fall 1 ms after it was
left, not sooner and not while it is held for cause POWER. CHN_FAULT reports a peer's fault, which stops the job only
with peer_stop; CHN_WASTE before the origin is latched only posts; WASTE_BROADCAST sends the merged range. (R371, R372, R441, R442, R577, R578, R580, R582, R585, R586) -/
def Obligations.FaultSupervisorCompletes : Prop :=
  (∀ (q : Req) (s : State), Claims.FreshOf 0x0800 0 q s → ∃ p, exec (.logStatus q) s = .next ((Claims.ok (s.start q 0x0800) p).deliver q 0x0800) ∧
    p.length = 32 ∧ fld p 16 4 = 262144 ∧ fld p 20 4 = s.fsv.lost.toNat ∧ fld p 24 8 = s.nowNs % 2 ^ 64) ∧
  (∀ (q : Req) (s : State) (seq n dst : Nat), Claims.Fresh 0x0801 q s → seq < 2 ^ 64 → 1 ≤ n → n ≤ 65536 →
    q.payload = le 8 seq ++ le 4 n ++ [0, 0, 0, 0] ++ le 8 dst →
    let recs := (s.fsv.log.drop (max seq s.fsv.oldest - s.fsv.oldest)).take n
    let head := le 8 (max seq s.fsv.oldest) ++ le 4 recs.length ++ [0, 0, 0, 0]
    (dst = 0 → n ≤ 3 → s.fsv.log ≠ [] → seq ≤ s.fsv.newest →
      exec (.logRead q) s = .next ((Claims.ok (s.start q 0x0801) (head ++ recs.flatMap LogRec.bytes)).deliver q 0x0801)) ∧
    (dst % 64 = 0 → 0x3400000000 ≤ dst → dst + 64 * n ≤ 0x3800000000 → s.fsv.log ≠ [] → seq ≤ s.fsv.newest →
      exec (.logRead q) s = .next ((Claims.ok ((s.start q 0x0801).memWrite dst (recs.flatMap LogRec.bytes)) head).deliver q 0x0801)) ∧
    (dst = 0 → n ≤ 3 → s.fsv.newest < seq → exec (.logRead q) s = .next ((Ans.fail (s.start q 0x0801) .empty).deliver q 0x0801))) ∧
  (∀ (t : Nat) (s : State), s.fsv.inbox = [] → exec (.faultDetection t) s = .next (s.at t)) ∧
  (∀ (d : Detect) (time t : Nat) (rest : List FsvItem) (s : State), s.fsv.inbox = .detect d time :: rest →
    s.fsv.pendingFaults.any (fun p => p.d.sameUnit d) = false →
    (d.outcome = .pending → (∀ x ∈ s.job.rows.toList, x.withholdFrom = none) → exec (.faultDetection t) s = .next { s.at t with fsv := { s.fsv with
      inbox := rest, pendingFaults := s.fsv.pendingFaults ++ [{ d := d, time := time, count := 1, consequences := [] }] } }) ∧
    (d.outcome ≠ .pending → d.outcome ≠ .consequence → s.fsv.log.length < 262144 → ∃ u r, exec (.faultDetection t) s = .next u ∧
      u.fsv.log = s.fsv.log ++ [r] ∧ r.seq = s.fsv.nextSeq ∧ r.rtype = 0 ∧ r.fclass = d.fclass ∧ r.source = d.source ∧
      r.outcome = d.outcome.code ∧ r.unit = d.unit ∧ r.row = d.row ∧ r.first = d.first ∧ r.last = d.last ∧ u.fsv.nextSeq = s.fsv.nextSeq + 1 ∧
      Claims.Posts s u [0x0320] ∧ (∃ marks, u.fsv.inbox = rest ++ marks ∧ ∀ m ∈ marks, ∃ x k, m = .mark x k k 0x06 (max s.aon t)) ∧
      (d.outcome.lasting = true → d.source ≠ 31 → u.hif.globalFault.getLsbD 0 = true) ∧
      (d.stops = true → s.armed = true → s.fsv.stopWanted = none →
        ∃ w, u.fsv.stopWanted = some w ∧ w.fclass = d.fclass ∧ w.seq = s.fsv.nextSeq ∧ w.rows = d.rows) ∧
      (d.stops = false ∨ s.armed = false → u.fsv.stopWanted = s.fsv.stopWanted ∧ u.job = s.job))) ∧
  (∀ (r : Fin 16) (a b time t : Nat) (c : Byte) (rest : List FsvItem) (s : State), s.fsv.inbox = .mark r a b c time :: rest → s.lsd.origin = none →
    (∀ x ∈ s.job.rows.toList, x.withholdFrom = none) → exec (.faultDetection t) s = .next { s.at t with fsv := { s.fsv with inbox := rest } }) ∧
  (∀ (t : Nat) (s : State), ∃ u, exec (.wasteRangeClose t) s = .next u ∧
    u.fsv.ranges = s.fsv.ranges.filter (fun w => !decide (w.last < (s.at t).jobPos)) ∧
    u.fsv.nextSeq = s.fsv.nextSeq + (s.fsv.ranges.filter (fun w => decide (w.last < (s.at t).jobPos))).length ∧ u.mem = s.mem ∧ u.job = s.job) ∧
  (∀ (t l : Nat) (s : State), (∀ w ∈ s.fsv.ranges, (s.at t).jobPos < w.first ∨ w.last < (s.at t).jobPos) → s.fsv.inside = false →
    s.fsv.leftAt = some l →
    (l + 1000000 * 2 ^ 32 ≤ max s.aon t → s.fsv.power = false →
      exec (.wasteHoldEnd t) s = .next { s.at t with fsv := { s.fsv with waste := false, leftAt := none } }) ∧
    (max s.aon t < l + 1000000 * 2 ^ 32 ∨ s.fsv.power = true → exec (.wasteHoldEnd t) s = .next (s.at t))) ∧
  (∀ (h : ChainHdr) (c : Byte) (stop : Bool) (time : BitVec 64) (t : Nat) (s : State), h.epoch = s.chain.epoch →
    ∃ u d, exec (.chnFault h c stop time t) s = .next u ∧ Claims.Posts s u [0x02D5] ∧ Claims.Tells s u [.detect d (max s.aon t)] ∧
      d.outcome = .reported ∧ d.stops = (stop && s.chain.peerStop) ∧ u.lsd = s.lsd) ∧
  (∀ (h : ChainHdr) (c : Byte) (first last : Int) (t : Nat) (s : State), h.epoch = s.chain.epoch → s.lsd.origin = none →
    ∃ u, exec (.chnWaste h c first last t) s = .next u ∧ Claims.Posts s u [0x02D5] ∧ u.fsv = s.fsv) ∧
  (∀ (t : Nat) (s : State) (c : Byte) (first last : Int), s.chain.wasteOut = some (c, first, last) → s.chain.wasteAt + 1000000 * 2 ^ 32 ≤ max s.aon t →
    ∃ u, exec (.wasteBroadcast t) s = .next u ∧ u.chain.wasteOut = none ∧ u.chain.wasteAt = max s.aon t)
end

