-- ==== Sys2Proof/Laws/Memory.lean ====
section
/-! SUPPORT. Device memory as a canonical list of cells: what a write leaves at every address, and that every operation keeps
the form. -/

namespace Sys2Proof.Machine

namespace Memory

/-- Every address listed in a canonical tail lies above its head's. -/
theorem wf_cons {c : Host.Cell} {r : List Host.Cell} :
    wf (c :: r) = true ↔ c.2 ≠ 0 ∧ wf r = true ∧ ∀ d ∈ r, c.1 < d.1 := by
  induction r generalizing c with
  | nil => simp [wf]
  | cons d r ih =>
    simp only [wf, Bool.and_eq_true, bne_iff_ne, ne_eq, decide_eq_true_eq, List.mem_cons, forall_eq_or_imp]
    constructor
    · rintro ⟨⟨h1, h2⟩, h3⟩
      exact ⟨h1, h3, h2, fun e he => Nat.lt_trans h2 ((ih.1 h3).2.2 e he)⟩
    · rintro ⟨h1, h3, h2, _⟩
      exact ⟨⟨h1, h2⟩, h3⟩

/-- An address below every listed one reads as unlisted. -/
theorem get_of_lt {m : List Host.Cell} {a : Nat} (h : ∀ d ∈ m, a < d.1) : get m a = 0 := by
  induction m with
  | nil => rfl
  | cons c r ih =>
    simp only [List.mem_cons, forall_eq_or_imp] at h
    rw [get, if_neg (Nat.ne_of_gt h.1), ih h.2]

/-- A write lists no address that was not listed before but its own. -/
theorem mem_set {m : List Host.Cell} {a : Nat} {v : Byte} {d : Host.Cell} (h : d ∈ set m a v) : d.1 = a ∨ d ∈ m := by
  induction m with
  | nil =>
    simp only [set] at h
    split at h
    · simp at h
    · simp only [List.mem_singleton] at h; exact .inl (by rw [h])
  | cons c r ih =>
    simp only [set] at h
    split at h
    · split at h
      · exact .inr h
      · rcases List.mem_cons.1 h with h | h
        · exact .inl (by rw [h])
        · exact .inr h
    · split at h
      · split at h
        · exact .inr (List.mem_cons_of_mem _ h)
        · rcases List.mem_cons.1 h with h | h
          · exact .inl (by rw [h])
          · exact .inr (List.mem_cons_of_mem _ h)
      · rcases List.mem_cons.1 h with h | h
        · exact .inr (h ▸ List.mem_cons_self)
        · exact (ih h).imp id (List.mem_cons_of_mem _)

/-- Writing one byte keeps the canonical form. -/
theorem wf_set {m : List Host.Cell} {a : Nat} {v : Byte} (h : wf m = true) : wf (set m a v) = true := by
  induction m with
  | nil =>
    rw [set]
    split
    · rfl
    · rename_i hv; simpa [wf] using hv
  | cons c r ih =>
    obtain ⟨h0, h1, h2⟩ := wf_cons.1 h
    simp only [set]
    split
    · rename_i hlt
      split
      · exact h
      · rename_i hv
        refine wf_cons.2 ⟨hv, h, fun d hd => ?_⟩
        rcases List.mem_cons.1 hd with hd | hd
        · rw [hd]; exact hlt
        · exact Nat.lt_trans hlt (h2 d hd)
    · split
      · rename_i hge heq
        split
        · exact h1
        · rename_i hv
          exact wf_cons.2 ⟨hv, h1, fun d hd => heq ▸ h2 d hd⟩
      · rename_i hge hne
        refine wf_cons.2 ⟨h0, ih h1, fun d hd => ?_⟩
        rcases mem_set hd with hd | hd
        · rw [hd]; omega
        · exact h2 d hd

/-- A written byte reads back. -/
theorem get_set_self {m : List Host.Cell} {a : Nat} {v : Byte} (h : wf m = true) : get (set m a v) a = v := by
  induction m with
  | nil =>
    rw [set]
    split
    · rename_i hv; simp [get, hv]
    · simp [get]
  | cons c r ih =>
    obtain ⟨h0, h1, h2⟩ := wf_cons.1 h
    simp only [set]
    split
    · rename_i hlt
      split
      · rename_i hv
        rw [hv]
        exact get_of_lt (by
          intro d hd
          rcases List.mem_cons.1 hd with hd | hd
          · rw [hd]; exact hlt
          · exact Nat.lt_trans hlt (h2 d hd))
      · simp [get]
    · split
      · rename_i heq
        split
        · rename_i hv
          rw [hv, get_of_lt (fun d hd => heq ▸ h2 d hd)]
        · simp [get]
      · rename_i hne
        rw [get, if_neg (fun h => hne h.symm), ih h1]

/-- Every other byte reads as before. -/
theorem get_set_ne {m : List Host.Cell} {a b : Nat} {v : Byte} (hab : b ≠ a) : get (set m a v) b = get m b := by
  induction m with
  | nil =>
    rw [set]
    split
    · rfl
    · simp [get, Ne.symm hab]
  | cons c r ih =>
    simp only [set]
    split
    · split <;> simp [get, Ne.symm hab]
    · split
      · rename_i heq
        have hc : c.1 ≠ b := fun h => hab (by rw [← h, heq])
        split <;> simp [get, hc, Ne.symm hab]
      · simp only [get, ih]

/-- Writing a byte string keeps the canonical form. -/
theorem wf_write {m : List Host.Cell} {a : Nat} {p : List Byte} (h : wf m = true) : wf (write m a p) = true := by
  induction p generalizing m a with
  | nil => exact h
  | cons b r ih => exact ih (wf_set h)

/-- Bytes outside a written string read as before. -/
theorem get_write_ne {m : List Host.Cell} {a b : Nat} {p : List Byte} (h : b < a ∨ a + p.length ≤ b) :
    get (write m a p) b = get m b := by
  induction p generalizing m a with
  | nil => rfl
  | cons v r ih =>
    simp only [List.length_cons] at h
    rw [write, ih (by omega), get_set_ne (by omega)]

/-- A read of `n` bytes has `n` bytes. -/
theorem length_read {m : List Host.Cell} {a n : Nat} : (read m a n).length = n := by
  induction n generalizing a with
  | zero => rfl
  | succ n ih => rw [read, List.length_cons, ih]

/-- A read depends on the bytes it covers alone. -/
theorem read_congr {m k : List Host.Cell} {a n : Nat} (h : ∀ b, a ≤ b → b < a + n → get m b = get k b) :
    read m a n = read k a n := by
  induction n generalizing a with
  | zero => rfl
  | succ n ih => rw [read, read, h a (Nat.le_refl a) (by omega), ih (fun b h1 h2 => h b (by omega) (by omega))]

end Memory

/-- Writing device memory keeps its canonical form. -/
theorem State.memWrite_wf {s : State} {a : Nat} {p : List Byte} (h : Memory.wf s.mem = true) :
    Memory.wf (s.memWrite a p).mem = true := Memory.wf_write h

/-- Bytes outside a written string read as before. -/
theorem State.memWrite_get_ne {s : State} {a b : Nat} {p : List Byte} (h : b < a ∨ a + p.length ≤ b) :
    Memory.get (s.memWrite a p).mem b = Memory.get s.mem b := Memory.get_write_ne h

/-- Reset memory is canonical. -/
theorem State.reset_mem : State.reset.mem = [] := rfl

end Sys2Proof.Machine
end

