-- ==== Sys2Proof/Laws/Operands.lean ====
section
/-! SUPPORT. Fields of byte strings: what is written little-endian reads back. -/

namespace Sys2Proof.Machine

@[simp] theorem length_le (n v : Nat) : (le n v).length = n := by
  induction n generalizing v with
  | zero => rfl
  | succ n ih => rw [le, List.length_cons, ih]

@[simp] theorem length_sle (n : Nat) (v : Int) : (sle n v).length = n := length_le _ _

@[simp] theorem length_zeroBytes (n : Nat) : (zeroBytes n).length = n := List.length_replicate

@[simp] theorem length_padTo (n : Nat) (p : List Byte) : (padTo n p).length = n := by
  simp only [padTo, List.length_append, List.length_take, length_zeroBytes]
  omega

/-- The value of the bytes of a value. -/
theorem leNat_le (n v : Nat) : leNat (le n v) = v % 256 ^ n := by
  induction n generalizing v with
  | zero => simp [le, leNat, Nat.mod_one]
  | succ n ih =>
    have h : 256 ^ (n + 1) = 256 * 256 ^ n := by rw [Nat.pow_succ, Nat.mul_comm]
    rw [le, leNat, ih, BitVec.toNat_ofNat, h, Nat.mod_mul]

/-- A field that begins a string. -/
theorem fld_le (n v : Nat) (r : List Byte) : fld (le n v ++ r) 0 n = v % 256 ^ n := by
  rw [fld, List.drop_zero, List.take_append_of_le_length (by rw [length_le]), List.take_of_length_le (by rw [length_le]), leNat_le]

/-- A field behind a prefix. -/
theorem fld_append (p r : List Byte) (k n : Nat) : fld (p ++ r) (p.length + k) n = fld r k n := by
  rw [fld, fld, List.drop_append, List.drop_eq_nil_of_le (by omega), Nat.add_sub_cancel_left, List.nil_append]

/-- A field within a prefix. -/
theorem fld_append_left (p r : List Byte) {k n : Nat} (h : k + n ≤ p.length) : fld (p ++ r) k n = fld p k n := by
  rw [fld, fld, List.drop_append_of_le_length (by omega), List.take_append_of_le_length (by rw [List.length_drop]; omega)]

/-- A field that ends a string. -/
theorem fld_le_end (n v : Nat) : fld (le n v) 0 n = v % 256 ^ n := by
  simpa using fld_le n v []

/-- One byte of a string. -/
theorem fld_one (p : List Byte) (k : Nat) : fld p k 1 = (p.getD k 0).toNat := by
  rw [fld]
  rcases h : p.drop k with _ | ⟨b, r⟩
  · have hk : p.length ≤ k := List.drop_eq_nil_iff.1 h
    rw [List.getD_eq_default _ _ hk]; rfl
  · have hb : p[k]? = some b := by rw [← List.head?_drop, h]; rfl
    rw [List.getD, hb]
    simp [leNat]

/-- Two's complement reads back. -/
theorem signed_wrap {n : Nat} {v : Int} (hn : 0 < n) (h1 : -(2 ^ (n - 1) : Int) ≤ v) (h2 : v < 2 ^ (n - 1)) :
    signed n (v % (2 ^ n : Nat)).toNat = v := by
  obtain ⟨m, rfl⟩ : ∃ m, n = m + 1 := ⟨n - 1, by omega⟩
  have hN : 2 ^ (m + 1) = 2 * 2 ^ m := by rw [Nat.pow_succ, Nat.mul_comm]
  have hk : ((2 ^ m : Nat) : Int) = (2 : Int) ^ m := by push_cast; rfl
  simp only [Nat.add_sub_cancel, ← hk] at h1 h2
  simp only [signed, Nat.add_sub_cancel, hN]
  generalize 2 ^ m = k at h1 h2
  have hr : v % ((2 * k : Nat) : Int) = if 0 ≤ v then v else v + (2 * k : Nat) := by
    split
    · exact Int.emod_eq_of_lt (by omega) (by push_cast; omega)
    · rw [← Int.add_emod_right, Int.emod_eq_of_lt (by push_cast; omega) (by push_cast; omega)]
  rw [hr]
  split
  · rename_i hv
    rw [Nat.mod_eq_of_lt (by omega), if_pos (by omega), Int.toNat_of_nonneg hv]
  · rename_i hv
    rw [Nat.mod_eq_of_lt (by push_cast; omega), if_neg (by push_cast; omega), Int.toNat_of_nonneg (by push_cast; omega)]
    omega

end Sys2Proof.Machine
end

