-- ==== Sys2Proof/Laws/State.lean ====
section
/-! SUPPORT. What the basic updates of the state leave and what they set, field by field. -/

namespace Sys2Proof.Machine

/-! ### Time -/

@[simp] theorem State.at_pending (s : State) (t : Nat) : (s.at t).pending = s.pending := rfl
@[simp] theorem State.at_free (s : State) (t : Nat) : (s.at t).free = s.free := rfl
@[simp] theorem State.at_wires (s : State) (t : Nat) : (s.at t).wires = s.wires := rfl
@[simp] theorem State.at_mem (s : State) (t : Nat) : (s.at t).mem = s.mem := rfl
@[simp] theorem State.at_mbx (s : State) (t : Nat) : (s.at t).mbx = s.mbx := rfl
@[simp] theorem State.at_hif (s : State) (t : Nat) : (s.at t).hif = s.hif := rfl
@[simp] theorem State.at_dma (s : State) (t : Nat) : (s.at t).dma = s.dma := rfl
@[simp] theorem State.at_fsv (s : State) (t : Nat) : (s.at t).fsv = s.fsv := rfl
@[simp] theorem State.at_lsd (s : State) (t : Nat) : (s.at t).lsd = s.lsd := rfl
@[simp] theorem State.at_job (s : State) (t : Nat) : (s.at t).job = s.job := rfl
@[simp] theorem State.at_layout (s : State) (t : Nat) : (s.at t).layout = s.layout := rfl
@[simp] theorem State.at_hamper (s : State) (t : Nat) : (s.at t).hamper = s.hamper := rfl
@[simp] theorem State.at_codec (s : State) (t : Nat) : (s.at t).codec = s.codec := rfl
@[simp] theorem State.at_rows (s : State) (t : Nat) : (s.at t).rows = s.rows := rfl
@[simp] theorem State.at_chk (s : State) (t : Nat) : (s.at t).chk = s.chk := rfl
@[simp] theorem State.at_txn (s : State) (t : Nat) : (s.at t).txn = s.txn := rfl
@[simp] theorem State.at_hlk (s : State) (t : Nat) : (s.at t).hlk = s.hlk := rfl
@[simp] theorem State.at_hac (s : State) (t : Nat) : (s.at t).hac = s.hac := rfl
@[simp] theorem State.at_chain (s : State) (t : Nat) : (s.at t).chain = s.chain := rfl
@[simp] theorem State.at_mot (s : State) (t : Nat) : (s.at t).mot = s.mot := rfl
@[simp] theorem State.at_miu (s : State) (t : Nat) : (s.at t).miu = s.miu := rfl
@[simp] theorem State.at_clk (s : State) (t : Nat) : (s.at t).clk = s.clk := rfl
@[simp] theorem State.at_boot (s : State) (t : Nat) : (s.at t).boot = s.boot := rfl
@[simp] theorem State.at_cal (s : State) (t : Nat) : (s.at t).cal = s.cal := rfl
@[simp] theorem State.at_mgt (s : State) (t : Nat) : (s.at t).mgt = s.mgt := rfl
@[simp] theorem State.at_pwr (s : State) (t : Nat) : (s.at t).pwr = s.pwr := rfl
@[simp] theorem State.at_aon (s : State) (t : Nat) : (s.at t).aon = max s.aon t := rfl

/-! ### `State.draw` -/

@[simp] theorem State.draw_pending (s : State) : (State.draw s).pending = s.pending := rfl
@[simp] theorem State.draw_aon (s : State) : (State.draw s).aon = s.aon := rfl
@[simp] theorem State.draw_wires (s : State) : (State.draw s).wires = s.wires := rfl
@[simp] theorem State.draw_mem (s : State) : (State.draw s).mem = s.mem := rfl
@[simp] theorem State.draw_mbx (s : State) : (State.draw s).mbx = s.mbx := rfl
@[simp] theorem State.draw_hif (s : State) : (State.draw s).hif = s.hif := rfl
@[simp] theorem State.draw_dma (s : State) : (State.draw s).dma = s.dma := rfl
@[simp] theorem State.draw_fsv (s : State) : (State.draw s).fsv = s.fsv := rfl
@[simp] theorem State.draw_lsd (s : State) : (State.draw s).lsd = s.lsd := rfl
@[simp] theorem State.draw_job (s : State) : (State.draw s).job = s.job := rfl
@[simp] theorem State.draw_layout (s : State) : (State.draw s).layout = s.layout := rfl
@[simp] theorem State.draw_hamper (s : State) : (State.draw s).hamper = s.hamper := rfl
@[simp] theorem State.draw_codec (s : State) : (State.draw s).codec = s.codec := rfl
@[simp] theorem State.draw_rows (s : State) : (State.draw s).rows = s.rows := rfl
@[simp] theorem State.draw_chk (s : State) : (State.draw s).chk = s.chk := rfl
@[simp] theorem State.draw_txn (s : State) : (State.draw s).txn = s.txn := rfl
@[simp] theorem State.draw_hlk (s : State) : (State.draw s).hlk = s.hlk := rfl
@[simp] theorem State.draw_hac (s : State) : (State.draw s).hac = s.hac := rfl
@[simp] theorem State.draw_chain (s : State) : (State.draw s).chain = s.chain := rfl
@[simp] theorem State.draw_mot (s : State) : (State.draw s).mot = s.mot := rfl
@[simp] theorem State.draw_miu (s : State) : (State.draw s).miu = s.miu := rfl
@[simp] theorem State.draw_clk (s : State) : (State.draw s).clk = s.clk := rfl
@[simp] theorem State.draw_boot (s : State) : (State.draw s).boot = s.boot := rfl
@[simp] theorem State.draw_cal (s : State) : (State.draw s).cal = s.cal := rfl
@[simp] theorem State.draw_mgt (s : State) : (State.draw s).mgt = s.mgt := rfl
@[simp] theorem State.draw_pwr (s : State) : (State.draw s).pwr = s.pwr := rfl
@[simp] theorem State.draw_value (s : State) : (State.draw s).free = s.free + 1 := rfl

/-! ### `State.emit` -/

@[simp] theorem State.emit_pending (s : State) (w : Wire) : (State.emit s w).pending = s.pending := rfl
@[simp] theorem State.emit_aon (s : State) (w : Wire) : (State.emit s w).aon = s.aon := rfl
@[simp] theorem State.emit_free (s : State) (w : Wire) : (State.emit s w).free = s.free := rfl
@[simp] theorem State.emit_mem (s : State) (w : Wire) : (State.emit s w).mem = s.mem := rfl
@[simp] theorem State.emit_mbx (s : State) (w : Wire) : (State.emit s w).mbx = s.mbx := rfl
@[simp] theorem State.emit_hif (s : State) (w : Wire) : (State.emit s w).hif = s.hif := rfl
@[simp] theorem State.emit_dma (s : State) (w : Wire) : (State.emit s w).dma = s.dma := rfl
@[simp] theorem State.emit_fsv (s : State) (w : Wire) : (State.emit s w).fsv = s.fsv := rfl
@[simp] theorem State.emit_lsd (s : State) (w : Wire) : (State.emit s w).lsd = s.lsd := rfl
@[simp] theorem State.emit_job (s : State) (w : Wire) : (State.emit s w).job = s.job := rfl
@[simp] theorem State.emit_layout (s : State) (w : Wire) : (State.emit s w).layout = s.layout := rfl
@[simp] theorem State.emit_hamper (s : State) (w : Wire) : (State.emit s w).hamper = s.hamper := rfl
@[simp] theorem State.emit_codec (s : State) (w : Wire) : (State.emit s w).codec = s.codec := rfl
@[simp] theorem State.emit_rows (s : State) (w : Wire) : (State.emit s w).rows = s.rows := rfl
@[simp] theorem State.emit_chk (s : State) (w : Wire) : (State.emit s w).chk = s.chk := rfl
@[simp] theorem State.emit_txn (s : State) (w : Wire) : (State.emit s w).txn = s.txn := rfl
@[simp] theorem State.emit_hlk (s : State) (w : Wire) : (State.emit s w).hlk = s.hlk := rfl
@[simp] theorem State.emit_hac (s : State) (w : Wire) : (State.emit s w).hac = s.hac := rfl
@[simp] theorem State.emit_chain (s : State) (w : Wire) : (State.emit s w).chain = s.chain := rfl
@[simp] theorem State.emit_mot (s : State) (w : Wire) : (State.emit s w).mot = s.mot := rfl
@[simp] theorem State.emit_miu (s : State) (w : Wire) : (State.emit s w).miu = s.miu := rfl
@[simp] theorem State.emit_clk (s : State) (w : Wire) : (State.emit s w).clk = s.clk := rfl
@[simp] theorem State.emit_boot (s : State) (w : Wire) : (State.emit s w).boot = s.boot := rfl
@[simp] theorem State.emit_cal (s : State) (w : Wire) : (State.emit s w).cal = s.cal := rfl
@[simp] theorem State.emit_mgt (s : State) (w : Wire) : (State.emit s w).mgt = s.mgt := rfl
@[simp] theorem State.emit_pwr (s : State) (w : Wire) : (State.emit s w).pwr = s.pwr := rfl
@[simp] theorem State.emit_value (s : State) (w : Wire) : (State.emit s w).wires = w :: s.wires := rfl

/-! ### `State.drq` -/

@[simp] theorem State.drq_pending (s : State) (line : Fin 64) : (State.drq s line).pending = s.pending := rfl
@[simp] theorem State.drq_aon (s : State) (line : Fin 64) : (State.drq s line).aon = s.aon := rfl
@[simp] theorem State.drq_free (s : State) (line : Fin 64) : (State.drq s line).free = s.free := rfl
@[simp] theorem State.drq_wires (s : State) (line : Fin 64) : (State.drq s line).wires = s.wires := rfl
@[simp] theorem State.drq_mem (s : State) (line : Fin 64) : (State.drq s line).mem = s.mem := rfl
@[simp] theorem State.drq_mbx (s : State) (line : Fin 64) : (State.drq s line).mbx = s.mbx := rfl
@[simp] theorem State.drq_hif (s : State) (line : Fin 64) : (State.drq s line).hif = s.hif := rfl
@[simp] theorem State.drq_fsv (s : State) (line : Fin 64) : (State.drq s line).fsv = s.fsv := rfl
@[simp] theorem State.drq_lsd (s : State) (line : Fin 64) : (State.drq s line).lsd = s.lsd := rfl
@[simp] theorem State.drq_job (s : State) (line : Fin 64) : (State.drq s line).job = s.job := rfl
@[simp] theorem State.drq_layout (s : State) (line : Fin 64) : (State.drq s line).layout = s.layout := rfl
@[simp] theorem State.drq_hamper (s : State) (line : Fin 64) : (State.drq s line).hamper = s.hamper := rfl
@[simp] theorem State.drq_codec (s : State) (line : Fin 64) : (State.drq s line).codec = s.codec := rfl
@[simp] theorem State.drq_rows (s : State) (line : Fin 64) : (State.drq s line).rows = s.rows := rfl
@[simp] theorem State.drq_chk (s : State) (line : Fin 64) : (State.drq s line).chk = s.chk := rfl
@[simp] theorem State.drq_txn (s : State) (line : Fin 64) : (State.drq s line).txn = s.txn := rfl
@[simp] theorem State.drq_hlk (s : State) (line : Fin 64) : (State.drq s line).hlk = s.hlk := rfl
@[simp] theorem State.drq_hac (s : State) (line : Fin 64) : (State.drq s line).hac = s.hac := rfl
@[simp] theorem State.drq_chain (s : State) (line : Fin 64) : (State.drq s line).chain = s.chain := rfl
@[simp] theorem State.drq_mot (s : State) (line : Fin 64) : (State.drq s line).mot = s.mot := rfl
@[simp] theorem State.drq_miu (s : State) (line : Fin 64) : (State.drq s line).miu = s.miu := rfl
@[simp] theorem State.drq_clk (s : State) (line : Fin 64) : (State.drq s line).clk = s.clk := rfl
@[simp] theorem State.drq_boot (s : State) (line : Fin 64) : (State.drq s line).boot = s.boot := rfl
@[simp] theorem State.drq_cal (s : State) (line : Fin 64) : (State.drq s line).cal = s.cal := rfl
@[simp] theorem State.drq_mgt (s : State) (line : Fin 64) : (State.drq s line).mgt = s.mgt := rfl
@[simp] theorem State.drq_pwr (s : State) (line : Fin 64) : (State.drq s line).pwr = s.pwr := rfl
@[simp] theorem State.drq_value (s : State) (line : Fin 64) : (State.drq s line).dma.pulses = s.dma.pulses ++ [line] := rfl

/-! ### `State.tellFsv` -/

@[simp] theorem State.tellFsv_pending (s : State) (i : FsvItem) : (State.tellFsv s i).pending = s.pending := rfl
@[simp] theorem State.tellFsv_aon (s : State) (i : FsvItem) : (State.tellFsv s i).aon = s.aon := rfl
@[simp] theorem State.tellFsv_free (s : State) (i : FsvItem) : (State.tellFsv s i).free = s.free := rfl
@[simp] theorem State.tellFsv_wires (s : State) (i : FsvItem) : (State.tellFsv s i).wires = s.wires := rfl
@[simp] theorem State.tellFsv_mem (s : State) (i : FsvItem) : (State.tellFsv s i).mem = s.mem := rfl
@[simp] theorem State.tellFsv_mbx (s : State) (i : FsvItem) : (State.tellFsv s i).mbx = s.mbx := rfl
@[simp] theorem State.tellFsv_hif (s : State) (i : FsvItem) : (State.tellFsv s i).hif = s.hif := rfl
@[simp] theorem State.tellFsv_dma (s : State) (i : FsvItem) : (State.tellFsv s i).dma = s.dma := rfl
@[simp] theorem State.tellFsv_lsd (s : State) (i : FsvItem) : (State.tellFsv s i).lsd = s.lsd := rfl
@[simp] theorem State.tellFsv_job (s : State) (i : FsvItem) : (State.tellFsv s i).job = s.job := rfl
@[simp] theorem State.tellFsv_layout (s : State) (i : FsvItem) : (State.tellFsv s i).layout = s.layout := rfl
@[simp] theorem State.tellFsv_hamper (s : State) (i : FsvItem) : (State.tellFsv s i).hamper = s.hamper := rfl
@[simp] theorem State.tellFsv_codec (s : State) (i : FsvItem) : (State.tellFsv s i).codec = s.codec := rfl
@[simp] theorem State.tellFsv_rows (s : State) (i : FsvItem) : (State.tellFsv s i).rows = s.rows := rfl
@[simp] theorem State.tellFsv_chk (s : State) (i : FsvItem) : (State.tellFsv s i).chk = s.chk := rfl
@[simp] theorem State.tellFsv_txn (s : State) (i : FsvItem) : (State.tellFsv s i).txn = s.txn := rfl
@[simp] theorem State.tellFsv_hlk (s : State) (i : FsvItem) : (State.tellFsv s i).hlk = s.hlk := rfl
@[simp] theorem State.tellFsv_hac (s : State) (i : FsvItem) : (State.tellFsv s i).hac = s.hac := rfl
@[simp] theorem State.tellFsv_chain (s : State) (i : FsvItem) : (State.tellFsv s i).chain = s.chain := rfl
@[simp] theorem State.tellFsv_mot (s : State) (i : FsvItem) : (State.tellFsv s i).mot = s.mot := rfl
@[simp] theorem State.tellFsv_miu (s : State) (i : FsvItem) : (State.tellFsv s i).miu = s.miu := rfl
@[simp] theorem State.tellFsv_clk (s : State) (i : FsvItem) : (State.tellFsv s i).clk = s.clk := rfl
@[simp] theorem State.tellFsv_boot (s : State) (i : FsvItem) : (State.tellFsv s i).boot = s.boot := rfl
@[simp] theorem State.tellFsv_cal (s : State) (i : FsvItem) : (State.tellFsv s i).cal = s.cal := rfl
@[simp] theorem State.tellFsv_mgt (s : State) (i : FsvItem) : (State.tellFsv s i).mgt = s.mgt := rfl
@[simp] theorem State.tellFsv_pwr (s : State) (i : FsvItem) : (State.tellFsv s i).pwr = s.pwr := rfl
@[simp] theorem State.tellFsv_value (s : State) (i : FsvItem) : (State.tellFsv s i).fsv.inbox = s.fsv.inbox ++ [i] := rfl

/-! ### `State.detect` -/

@[simp] theorem State.detect_pending (s : State) (d : Detect) : (State.detect s d).pending = s.pending := rfl
@[simp] theorem State.detect_aon (s : State) (d : Detect) : (State.detect s d).aon = s.aon := rfl
@[simp] theorem State.detect_free (s : State) (d : Detect) : (State.detect s d).free = s.free := rfl
@[simp] theorem State.detect_wires (s : State) (d : Detect) : (State.detect s d).wires = s.wires := rfl
@[simp] theorem State.detect_mem (s : State) (d : Detect) : (State.detect s d).mem = s.mem := rfl
@[simp] theorem State.detect_mbx (s : State) (d : Detect) : (State.detect s d).mbx = s.mbx := rfl
@[simp] theorem State.detect_hif (s : State) (d : Detect) : (State.detect s d).hif = s.hif := rfl
@[simp] theorem State.detect_dma (s : State) (d : Detect) : (State.detect s d).dma = s.dma := rfl
@[simp] theorem State.detect_lsd (s : State) (d : Detect) : (State.detect s d).lsd = s.lsd := rfl
@[simp] theorem State.detect_job (s : State) (d : Detect) : (State.detect s d).job = s.job := rfl
@[simp] theorem State.detect_layout (s : State) (d : Detect) : (State.detect s d).layout = s.layout := rfl
@[simp] theorem State.detect_hamper (s : State) (d : Detect) : (State.detect s d).hamper = s.hamper := rfl
@[simp] theorem State.detect_codec (s : State) (d : Detect) : (State.detect s d).codec = s.codec := rfl
@[simp] theorem State.detect_rows (s : State) (d : Detect) : (State.detect s d).rows = s.rows := rfl
@[simp] theorem State.detect_chk (s : State) (d : Detect) : (State.detect s d).chk = s.chk := rfl
@[simp] theorem State.detect_txn (s : State) (d : Detect) : (State.detect s d).txn = s.txn := rfl
@[simp] theorem State.detect_hlk (s : State) (d : Detect) : (State.detect s d).hlk = s.hlk := rfl
@[simp] theorem State.detect_hac (s : State) (d : Detect) : (State.detect s d).hac = s.hac := rfl
@[simp] theorem State.detect_chain (s : State) (d : Detect) : (State.detect s d).chain = s.chain := rfl
@[simp] theorem State.detect_mot (s : State) (d : Detect) : (State.detect s d).mot = s.mot := rfl
@[simp] theorem State.detect_miu (s : State) (d : Detect) : (State.detect s d).miu = s.miu := rfl
@[simp] theorem State.detect_clk (s : State) (d : Detect) : (State.detect s d).clk = s.clk := rfl
@[simp] theorem State.detect_boot (s : State) (d : Detect) : (State.detect s d).boot = s.boot := rfl
@[simp] theorem State.detect_cal (s : State) (d : Detect) : (State.detect s d).cal = s.cal := rfl
@[simp] theorem State.detect_mgt (s : State) (d : Detect) : (State.detect s d).mgt = s.mgt := rfl
@[simp] theorem State.detect_pwr (s : State) (d : Detect) : (State.detect s d).pwr = s.pwr := rfl
@[simp] theorem State.detect_value (s : State) (d : Detect) : (State.detect s d).fsv.inbox = s.fsv.inbox ++ [.detect d s.aon] := rfl

/-! ### `State.postEv` -/

@[simp] theorem State.postEv_pending (s : State) (e : Ev) : (State.postEv s e).pending = s.pending := rfl
@[simp] theorem State.postEv_aon (s : State) (e : Ev) : (State.postEv s e).aon = s.aon := rfl
@[simp] theorem State.postEv_free (s : State) (e : Ev) : (State.postEv s e).free = s.free := rfl
@[simp] theorem State.postEv_wires (s : State) (e : Ev) : (State.postEv s e).wires = s.wires := rfl
@[simp] theorem State.postEv_mem (s : State) (e : Ev) : (State.postEv s e).mem = s.mem := rfl
@[simp] theorem State.postEv_hif (s : State) (e : Ev) : (State.postEv s e).hif = s.hif := rfl
@[simp] theorem State.postEv_dma (s : State) (e : Ev) : (State.postEv s e).dma = s.dma := rfl
@[simp] theorem State.postEv_fsv (s : State) (e : Ev) : (State.postEv s e).fsv = s.fsv := rfl
@[simp] theorem State.postEv_lsd (s : State) (e : Ev) : (State.postEv s e).lsd = s.lsd := rfl
@[simp] theorem State.postEv_job (s : State) (e : Ev) : (State.postEv s e).job = s.job := rfl
@[simp] theorem State.postEv_layout (s : State) (e : Ev) : (State.postEv s e).layout = s.layout := rfl
@[simp] theorem State.postEv_hamper (s : State) (e : Ev) : (State.postEv s e).hamper = s.hamper := rfl
@[simp] theorem State.postEv_codec (s : State) (e : Ev) : (State.postEv s e).codec = s.codec := rfl
@[simp] theorem State.postEv_rows (s : State) (e : Ev) : (State.postEv s e).rows = s.rows := rfl
@[simp] theorem State.postEv_chk (s : State) (e : Ev) : (State.postEv s e).chk = s.chk := rfl
@[simp] theorem State.postEv_txn (s : State) (e : Ev) : (State.postEv s e).txn = s.txn := rfl
@[simp] theorem State.postEv_hlk (s : State) (e : Ev) : (State.postEv s e).hlk = s.hlk := rfl
@[simp] theorem State.postEv_hac (s : State) (e : Ev) : (State.postEv s e).hac = s.hac := rfl
@[simp] theorem State.postEv_chain (s : State) (e : Ev) : (State.postEv s e).chain = s.chain := rfl
@[simp] theorem State.postEv_mot (s : State) (e : Ev) : (State.postEv s e).mot = s.mot := rfl
@[simp] theorem State.postEv_miu (s : State) (e : Ev) : (State.postEv s e).miu = s.miu := rfl
@[simp] theorem State.postEv_clk (s : State) (e : Ev) : (State.postEv s e).clk = s.clk := rfl
@[simp] theorem State.postEv_boot (s : State) (e : Ev) : (State.postEv s e).boot = s.boot := rfl
@[simp] theorem State.postEv_cal (s : State) (e : Ev) : (State.postEv s e).cal = s.cal := rfl
@[simp] theorem State.postEv_mgt (s : State) (e : Ev) : (State.postEv s e).mgt = s.mgt := rfl
@[simp] theorem State.postEv_pwr (s : State) (e : Ev) : (State.postEv s e).pwr = s.pwr := rfl

/-! ### `State.post` -/

@[simp] theorem State.post_pending (s : State) (code : BitVec 16) (cls : Fin 4) (data : List DataField) (detail : ℕ) : (State.post s code cls data detail).pending = s.pending := rfl
@[simp] theorem State.post_aon (s : State) (code : BitVec 16) (cls : Fin 4) (data : List DataField) (detail : ℕ) : (State.post s code cls data detail).aon = s.aon := rfl
@[simp] theorem State.post_free (s : State) (code : BitVec 16) (cls : Fin 4) (data : List DataField) (detail : ℕ) : (State.post s code cls data detail).free = s.free := rfl
@[simp] theorem State.post_wires (s : State) (code : BitVec 16) (cls : Fin 4) (data : List DataField) (detail : ℕ) : (State.post s code cls data detail).wires = s.wires := rfl
@[simp] theorem State.post_mem (s : State) (code : BitVec 16) (cls : Fin 4) (data : List DataField) (detail : ℕ) : (State.post s code cls data detail).mem = s.mem := rfl
@[simp] theorem State.post_hif (s : State) (code : BitVec 16) (cls : Fin 4) (data : List DataField) (detail : ℕ) : (State.post s code cls data detail).hif = s.hif := rfl
@[simp] theorem State.post_dma (s : State) (code : BitVec 16) (cls : Fin 4) (data : List DataField) (detail : ℕ) : (State.post s code cls data detail).dma = s.dma := rfl
@[simp] theorem State.post_fsv (s : State) (code : BitVec 16) (cls : Fin 4) (data : List DataField) (detail : ℕ) : (State.post s code cls data detail).fsv = s.fsv := rfl
@[simp] theorem State.post_lsd (s : State) (code : BitVec 16) (cls : Fin 4) (data : List DataField) (detail : ℕ) : (State.post s code cls data detail).lsd = s.lsd := rfl
@[simp] theorem State.post_job (s : State) (code : BitVec 16) (cls : Fin 4) (data : List DataField) (detail : ℕ) : (State.post s code cls data detail).job = s.job := rfl
@[simp] theorem State.post_layout (s : State) (code : BitVec 16) (cls : Fin 4) (data : List DataField) (detail : ℕ) : (State.post s code cls data detail).layout = s.layout := rfl
@[simp] theorem State.post_hamper (s : State) (code : BitVec 16) (cls : Fin 4) (data : List DataField) (detail : ℕ) : (State.post s code cls data detail).hamper = s.hamper := rfl
@[simp] theorem State.post_codec (s : State) (code : BitVec 16) (cls : Fin 4) (data : List DataField) (detail : ℕ) : (State.post s code cls data detail).codec = s.codec := rfl
@[simp] theorem State.post_rows (s : State) (code : BitVec 16) (cls : Fin 4) (data : List DataField) (detail : ℕ) : (State.post s code cls data detail).rows = s.rows := rfl
@[simp] theorem State.post_chk (s : State) (code : BitVec 16) (cls : Fin 4) (data : List DataField) (detail : ℕ) : (State.post s code cls data detail).chk = s.chk := rfl
@[simp] theorem State.post_txn (s : State) (code : BitVec 16) (cls : Fin 4) (data : List DataField) (detail : ℕ) : (State.post s code cls data detail).txn = s.txn := rfl
@[simp] theorem State.post_hlk (s : State) (code : BitVec 16) (cls : Fin 4) (data : List DataField) (detail : ℕ) : (State.post s code cls data detail).hlk = s.hlk := rfl
@[simp] theorem State.post_hac (s : State) (code : BitVec 16) (cls : Fin 4) (data : List DataField) (detail : ℕ) : (State.post s code cls data detail).hac = s.hac := rfl
@[simp] theorem State.post_chain (s : State) (code : BitVec 16) (cls : Fin 4) (data : List DataField) (detail : ℕ) : (State.post s code cls data detail).chain = s.chain := rfl
@[simp] theorem State.post_mot (s : State) (code : BitVec 16) (cls : Fin 4) (data : List DataField) (detail : ℕ) : (State.post s code cls data detail).mot = s.mot := rfl
@[simp] theorem State.post_miu (s : State) (code : BitVec 16) (cls : Fin 4) (data : List DataField) (detail : ℕ) : (State.post s code cls data detail).miu = s.miu := rfl
@[simp] theorem State.post_clk (s : State) (code : BitVec 16) (cls : Fin 4) (data : List DataField) (detail : ℕ) : (State.post s code cls data detail).clk = s.clk := rfl
@[simp] theorem State.post_boot (s : State) (code : BitVec 16) (cls : Fin 4) (data : List DataField) (detail : ℕ) : (State.post s code cls data detail).boot = s.boot := rfl
@[simp] theorem State.post_cal (s : State) (code : BitVec 16) (cls : Fin 4) (data : List DataField) (detail : ℕ) : (State.post s code cls data detail).cal = s.cal := rfl
@[simp] theorem State.post_mgt (s : State) (code : BitVec 16) (cls : Fin 4) (data : List DataField) (detail : ℕ) : (State.post s code cls data detail).mgt = s.mgt := rfl
@[simp] theorem State.post_pwr (s : State) (code : BitVec 16) (cls : Fin 4) (data : List DataField) (detail : ℕ) : (State.post s code cls data detail).pwr = s.pwr := rfl

/-! ### `State.setAlert` -/

@[simp] theorem State.setAlert_pending (s : State) (b : ℕ) : (State.setAlert s b).pending = s.pending := rfl
@[simp] theorem State.setAlert_aon (s : State) (b : ℕ) : (State.setAlert s b).aon = s.aon := rfl
@[simp] theorem State.setAlert_free (s : State) (b : ℕ) : (State.setAlert s b).free = s.free := rfl
@[simp] theorem State.setAlert_wires (s : State) (b : ℕ) : (State.setAlert s b).wires = s.wires := rfl
@[simp] theorem State.setAlert_mem (s : State) (b : ℕ) : (State.setAlert s b).mem = s.mem := rfl
@[simp] theorem State.setAlert_mbx (s : State) (b : ℕ) : (State.setAlert s b).mbx = s.mbx := rfl
@[simp] theorem State.setAlert_hif (s : State) (b : ℕ) : (State.setAlert s b).hif = s.hif := rfl
@[simp] theorem State.setAlert_dma (s : State) (b : ℕ) : (State.setAlert s b).dma = s.dma := rfl
@[simp] theorem State.setAlert_fsv (s : State) (b : ℕ) : (State.setAlert s b).fsv = s.fsv := rfl
@[simp] theorem State.setAlert_lsd (s : State) (b : ℕ) : (State.setAlert s b).lsd = s.lsd := rfl
@[simp] theorem State.setAlert_job (s : State) (b : ℕ) : (State.setAlert s b).job = s.job := rfl
@[simp] theorem State.setAlert_layout (s : State) (b : ℕ) : (State.setAlert s b).layout = s.layout := rfl
@[simp] theorem State.setAlert_hamper (s : State) (b : ℕ) : (State.setAlert s b).hamper = s.hamper := rfl
@[simp] theorem State.setAlert_codec (s : State) (b : ℕ) : (State.setAlert s b).codec = s.codec := rfl
@[simp] theorem State.setAlert_rows (s : State) (b : ℕ) : (State.setAlert s b).rows = s.rows := rfl
@[simp] theorem State.setAlert_chk (s : State) (b : ℕ) : (State.setAlert s b).chk = s.chk := rfl
@[simp] theorem State.setAlert_txn (s : State) (b : ℕ) : (State.setAlert s b).txn = s.txn := rfl
@[simp] theorem State.setAlert_hlk (s : State) (b : ℕ) : (State.setAlert s b).hlk = s.hlk := rfl
@[simp] theorem State.setAlert_hac (s : State) (b : ℕ) : (State.setAlert s b).hac = s.hac := rfl
@[simp] theorem State.setAlert_chain (s : State) (b : ℕ) : (State.setAlert s b).chain = s.chain := rfl
@[simp] theorem State.setAlert_mot (s : State) (b : ℕ) : (State.setAlert s b).mot = s.mot := rfl
@[simp] theorem State.setAlert_miu (s : State) (b : ℕ) : (State.setAlert s b).miu = s.miu := rfl
@[simp] theorem State.setAlert_clk (s : State) (b : ℕ) : (State.setAlert s b).clk = s.clk := rfl
@[simp] theorem State.setAlert_boot (s : State) (b : ℕ) : (State.setAlert s b).boot = s.boot := rfl
@[simp] theorem State.setAlert_cal (s : State) (b : ℕ) : (State.setAlert s b).cal = s.cal := rfl
@[simp] theorem State.setAlert_pwr (s : State) (b : ℕ) : (State.setAlert s b).pwr = s.pwr := rfl

/-! ### `State.setBox` -/

@[simp] theorem State.setBox_pending (s : State) (m : Fin 8) (b : Box) : (State.setBox s m b).pending = s.pending := rfl
@[simp] theorem State.setBox_aon (s : State) (m : Fin 8) (b : Box) : (State.setBox s m b).aon = s.aon := rfl
@[simp] theorem State.setBox_free (s : State) (m : Fin 8) (b : Box) : (State.setBox s m b).free = s.free := rfl
@[simp] theorem State.setBox_wires (s : State) (m : Fin 8) (b : Box) : (State.setBox s m b).wires = s.wires := rfl
@[simp] theorem State.setBox_mem (s : State) (m : Fin 8) (b : Box) : (State.setBox s m b).mem = s.mem := rfl
@[simp] theorem State.setBox_hif (s : State) (m : Fin 8) (b : Box) : (State.setBox s m b).hif = s.hif := rfl
@[simp] theorem State.setBox_dma (s : State) (m : Fin 8) (b : Box) : (State.setBox s m b).dma = s.dma := rfl
@[simp] theorem State.setBox_fsv (s : State) (m : Fin 8) (b : Box) : (State.setBox s m b).fsv = s.fsv := rfl
@[simp] theorem State.setBox_lsd (s : State) (m : Fin 8) (b : Box) : (State.setBox s m b).lsd = s.lsd := rfl
@[simp] theorem State.setBox_job (s : State) (m : Fin 8) (b : Box) : (State.setBox s m b).job = s.job := rfl
@[simp] theorem State.setBox_layout (s : State) (m : Fin 8) (b : Box) : (State.setBox s m b).layout = s.layout := rfl
@[simp] theorem State.setBox_hamper (s : State) (m : Fin 8) (b : Box) : (State.setBox s m b).hamper = s.hamper := rfl
@[simp] theorem State.setBox_codec (s : State) (m : Fin 8) (b : Box) : (State.setBox s m b).codec = s.codec := rfl
@[simp] theorem State.setBox_rows (s : State) (m : Fin 8) (b : Box) : (State.setBox s m b).rows = s.rows := rfl
@[simp] theorem State.setBox_chk (s : State) (m : Fin 8) (b : Box) : (State.setBox s m b).chk = s.chk := rfl
@[simp] theorem State.setBox_txn (s : State) (m : Fin 8) (b : Box) : (State.setBox s m b).txn = s.txn := rfl
@[simp] theorem State.setBox_hlk (s : State) (m : Fin 8) (b : Box) : (State.setBox s m b).hlk = s.hlk := rfl
@[simp] theorem State.setBox_hac (s : State) (m : Fin 8) (b : Box) : (State.setBox s m b).hac = s.hac := rfl
@[simp] theorem State.setBox_chain (s : State) (m : Fin 8) (b : Box) : (State.setBox s m b).chain = s.chain := rfl
@[simp] theorem State.setBox_mot (s : State) (m : Fin 8) (b : Box) : (State.setBox s m b).mot = s.mot := rfl
@[simp] theorem State.setBox_miu (s : State) (m : Fin 8) (b : Box) : (State.setBox s m b).miu = s.miu := rfl
@[simp] theorem State.setBox_clk (s : State) (m : Fin 8) (b : Box) : (State.setBox s m b).clk = s.clk := rfl
@[simp] theorem State.setBox_boot (s : State) (m : Fin 8) (b : Box) : (State.setBox s m b).boot = s.boot := rfl
@[simp] theorem State.setBox_cal (s : State) (m : Fin 8) (b : Box) : (State.setBox s m b).cal = s.cal := rfl
@[simp] theorem State.setBox_mgt (s : State) (m : Fin 8) (b : Box) : (State.setBox s m b).mgt = s.mgt := rfl
@[simp] theorem State.setBox_pwr (s : State) (m : Fin 8) (b : Box) : (State.setBox s m b).pwr = s.pwr := rfl
@[simp] theorem State.setBox_value (s : State) (m : Fin 8) (b : Box) : (State.setBox s m b).mbx.boxes = s.mbx.boxes.set m b := rfl

/-! ### `State.updBox` -/

@[simp] theorem State.updBox_pending (s : State) (m : Fin 8) (f : Box → Box) : (State.updBox s m f).pending = s.pending := rfl
@[simp] theorem State.updBox_aon (s : State) (m : Fin 8) (f : Box → Box) : (State.updBox s m f).aon = s.aon := rfl
@[simp] theorem State.updBox_free (s : State) (m : Fin 8) (f : Box → Box) : (State.updBox s m f).free = s.free := rfl
@[simp] theorem State.updBox_wires (s : State) (m : Fin 8) (f : Box → Box) : (State.updBox s m f).wires = s.wires := rfl
@[simp] theorem State.updBox_mem (s : State) (m : Fin 8) (f : Box → Box) : (State.updBox s m f).mem = s.mem := rfl
@[simp] theorem State.updBox_hif (s : State) (m : Fin 8) (f : Box → Box) : (State.updBox s m f).hif = s.hif := rfl
@[simp] theorem State.updBox_dma (s : State) (m : Fin 8) (f : Box → Box) : (State.updBox s m f).dma = s.dma := rfl
@[simp] theorem State.updBox_fsv (s : State) (m : Fin 8) (f : Box → Box) : (State.updBox s m f).fsv = s.fsv := rfl
@[simp] theorem State.updBox_lsd (s : State) (m : Fin 8) (f : Box → Box) : (State.updBox s m f).lsd = s.lsd := rfl
@[simp] theorem State.updBox_job (s : State) (m : Fin 8) (f : Box → Box) : (State.updBox s m f).job = s.job := rfl
@[simp] theorem State.updBox_layout (s : State) (m : Fin 8) (f : Box → Box) : (State.updBox s m f).layout = s.layout := rfl
@[simp] theorem State.updBox_hamper (s : State) (m : Fin 8) (f : Box → Box) : (State.updBox s m f).hamper = s.hamper := rfl
@[simp] theorem State.updBox_codec (s : State) (m : Fin 8) (f : Box → Box) : (State.updBox s m f).codec = s.codec := rfl
@[simp] theorem State.updBox_rows (s : State) (m : Fin 8) (f : Box → Box) : (State.updBox s m f).rows = s.rows := rfl
@[simp] theorem State.updBox_chk (s : State) (m : Fin 8) (f : Box → Box) : (State.updBox s m f).chk = s.chk := rfl
@[simp] theorem State.updBox_txn (s : State) (m : Fin 8) (f : Box → Box) : (State.updBox s m f).txn = s.txn := rfl
@[simp] theorem State.updBox_hlk (s : State) (m : Fin 8) (f : Box → Box) : (State.updBox s m f).hlk = s.hlk := rfl
@[simp] theorem State.updBox_hac (s : State) (m : Fin 8) (f : Box → Box) : (State.updBox s m f).hac = s.hac := rfl
@[simp] theorem State.updBox_chain (s : State) (m : Fin 8) (f : Box → Box) : (State.updBox s m f).chain = s.chain := rfl
@[simp] theorem State.updBox_mot (s : State) (m : Fin 8) (f : Box → Box) : (State.updBox s m f).mot = s.mot := rfl
@[simp] theorem State.updBox_miu (s : State) (m : Fin 8) (f : Box → Box) : (State.updBox s m f).miu = s.miu := rfl
@[simp] theorem State.updBox_clk (s : State) (m : Fin 8) (f : Box → Box) : (State.updBox s m f).clk = s.clk := rfl
@[simp] theorem State.updBox_boot (s : State) (m : Fin 8) (f : Box → Box) : (State.updBox s m f).boot = s.boot := rfl
@[simp] theorem State.updBox_cal (s : State) (m : Fin 8) (f : Box → Box) : (State.updBox s m f).cal = s.cal := rfl
@[simp] theorem State.updBox_mgt (s : State) (m : Fin 8) (f : Box → Box) : (State.updBox s m f).mgt = s.mgt := rfl
@[simp] theorem State.updBox_pwr (s : State) (m : Fin 8) (f : Box → Box) : (State.updBox s m f).pwr = s.pwr := rfl

/-! ### `State.updLane` -/

@[simp] theorem State.updLane_pending (s : State) (l : Fin 34) (f : Lane → Lane) : (State.updLane s l f).pending = s.pending := rfl
@[simp] theorem State.updLane_aon (s : State) (l : Fin 34) (f : Lane → Lane) : (State.updLane s l f).aon = s.aon := rfl
@[simp] theorem State.updLane_free (s : State) (l : Fin 34) (f : Lane → Lane) : (State.updLane s l f).free = s.free := rfl
@[simp] theorem State.updLane_wires (s : State) (l : Fin 34) (f : Lane → Lane) : (State.updLane s l f).wires = s.wires := rfl
@[simp] theorem State.updLane_mem (s : State) (l : Fin 34) (f : Lane → Lane) : (State.updLane s l f).mem = s.mem := rfl
@[simp] theorem State.updLane_mbx (s : State) (l : Fin 34) (f : Lane → Lane) : (State.updLane s l f).mbx = s.mbx := rfl
@[simp] theorem State.updLane_hif (s : State) (l : Fin 34) (f : Lane → Lane) : (State.updLane s l f).hif = s.hif := rfl
@[simp] theorem State.updLane_dma (s : State) (l : Fin 34) (f : Lane → Lane) : (State.updLane s l f).dma = s.dma := rfl
@[simp] theorem State.updLane_fsv (s : State) (l : Fin 34) (f : Lane → Lane) : (State.updLane s l f).fsv = s.fsv := rfl
@[simp] theorem State.updLane_lsd (s : State) (l : Fin 34) (f : Lane → Lane) : (State.updLane s l f).lsd = s.lsd := rfl
@[simp] theorem State.updLane_job (s : State) (l : Fin 34) (f : Lane → Lane) : (State.updLane s l f).job = s.job := rfl
@[simp] theorem State.updLane_layout (s : State) (l : Fin 34) (f : Lane → Lane) : (State.updLane s l f).layout = s.layout := rfl
@[simp] theorem State.updLane_hamper (s : State) (l : Fin 34) (f : Lane → Lane) : (State.updLane s l f).hamper = s.hamper := rfl
@[simp] theorem State.updLane_codec (s : State) (l : Fin 34) (f : Lane → Lane) : (State.updLane s l f).codec = s.codec := rfl
@[simp] theorem State.updLane_rows (s : State) (l : Fin 34) (f : Lane → Lane) : (State.updLane s l f).rows = s.rows := rfl
@[simp] theorem State.updLane_chk (s : State) (l : Fin 34) (f : Lane → Lane) : (State.updLane s l f).chk = s.chk := rfl
@[simp] theorem State.updLane_txn (s : State) (l : Fin 34) (f : Lane → Lane) : (State.updLane s l f).txn = s.txn := rfl
@[simp] theorem State.updLane_hac (s : State) (l : Fin 34) (f : Lane → Lane) : (State.updLane s l f).hac = s.hac := rfl
@[simp] theorem State.updLane_chain (s : State) (l : Fin 34) (f : Lane → Lane) : (State.updLane s l f).chain = s.chain := rfl
@[simp] theorem State.updLane_mot (s : State) (l : Fin 34) (f : Lane → Lane) : (State.updLane s l f).mot = s.mot := rfl
@[simp] theorem State.updLane_miu (s : State) (l : Fin 34) (f : Lane → Lane) : (State.updLane s l f).miu = s.miu := rfl
@[simp] theorem State.updLane_clk (s : State) (l : Fin 34) (f : Lane → Lane) : (State.updLane s l f).clk = s.clk := rfl
@[simp] theorem State.updLane_boot (s : State) (l : Fin 34) (f : Lane → Lane) : (State.updLane s l f).boot = s.boot := rfl
@[simp] theorem State.updLane_cal (s : State) (l : Fin 34) (f : Lane → Lane) : (State.updLane s l f).cal = s.cal := rfl
@[simp] theorem State.updLane_mgt (s : State) (l : Fin 34) (f : Lane → Lane) : (State.updLane s l f).mgt = s.mgt := rfl
@[simp] theorem State.updLane_pwr (s : State) (l : Fin 34) (f : Lane → Lane) : (State.updLane s l f).pwr = s.pwr := rfl
@[simp] theorem State.updLane_value (s : State) (l : Fin 34) (f : Lane → Lane) : (State.updLane s l f).hlk.lanes = upd s.hlk.lanes l f := rfl

/-! ### `State.updConn` -/

@[simp] theorem State.updConn_pending (s : State) (c : Fin 4) (f : Connector → Connector) : (State.updConn s c f).pending = s.pending := rfl
@[simp] theorem State.updConn_aon (s : State) (c : Fin 4) (f : Connector → Connector) : (State.updConn s c f).aon = s.aon := rfl
@[simp] theorem State.updConn_free (s : State) (c : Fin 4) (f : Connector → Connector) : (State.updConn s c f).free = s.free := rfl
@[simp] theorem State.updConn_wires (s : State) (c : Fin 4) (f : Connector → Connector) : (State.updConn s c f).wires = s.wires := rfl
@[simp] theorem State.updConn_mem (s : State) (c : Fin 4) (f : Connector → Connector) : (State.updConn s c f).mem = s.mem := rfl
@[simp] theorem State.updConn_mbx (s : State) (c : Fin 4) (f : Connector → Connector) : (State.updConn s c f).mbx = s.mbx := rfl
@[simp] theorem State.updConn_hif (s : State) (c : Fin 4) (f : Connector → Connector) : (State.updConn s c f).hif = s.hif := rfl
@[simp] theorem State.updConn_dma (s : State) (c : Fin 4) (f : Connector → Connector) : (State.updConn s c f).dma = s.dma := rfl
@[simp] theorem State.updConn_fsv (s : State) (c : Fin 4) (f : Connector → Connector) : (State.updConn s c f).fsv = s.fsv := rfl
@[simp] theorem State.updConn_lsd (s : State) (c : Fin 4) (f : Connector → Connector) : (State.updConn s c f).lsd = s.lsd := rfl
@[simp] theorem State.updConn_job (s : State) (c : Fin 4) (f : Connector → Connector) : (State.updConn s c f).job = s.job := rfl
@[simp] theorem State.updConn_layout (s : State) (c : Fin 4) (f : Connector → Connector) : (State.updConn s c f).layout = s.layout := rfl
@[simp] theorem State.updConn_hamper (s : State) (c : Fin 4) (f : Connector → Connector) : (State.updConn s c f).hamper = s.hamper := rfl
@[simp] theorem State.updConn_codec (s : State) (c : Fin 4) (f : Connector → Connector) : (State.updConn s c f).codec = s.codec := rfl
@[simp] theorem State.updConn_rows (s : State) (c : Fin 4) (f : Connector → Connector) : (State.updConn s c f).rows = s.rows := rfl
@[simp] theorem State.updConn_chk (s : State) (c : Fin 4) (f : Connector → Connector) : (State.updConn s c f).chk = s.chk := rfl
@[simp] theorem State.updConn_txn (s : State) (c : Fin 4) (f : Connector → Connector) : (State.updConn s c f).txn = s.txn := rfl
@[simp] theorem State.updConn_hac (s : State) (c : Fin 4) (f : Connector → Connector) : (State.updConn s c f).hac = s.hac := rfl
@[simp] theorem State.updConn_chain (s : State) (c : Fin 4) (f : Connector → Connector) : (State.updConn s c f).chain = s.chain := rfl
@[simp] theorem State.updConn_mot (s : State) (c : Fin 4) (f : Connector → Connector) : (State.updConn s c f).mot = s.mot := rfl
@[simp] theorem State.updConn_miu (s : State) (c : Fin 4) (f : Connector → Connector) : (State.updConn s c f).miu = s.miu := rfl
@[simp] theorem State.updConn_clk (s : State) (c : Fin 4) (f : Connector → Connector) : (State.updConn s c f).clk = s.clk := rfl
@[simp] theorem State.updConn_boot (s : State) (c : Fin 4) (f : Connector → Connector) : (State.updConn s c f).boot = s.boot := rfl
@[simp] theorem State.updConn_cal (s : State) (c : Fin 4) (f : Connector → Connector) : (State.updConn s c f).cal = s.cal := rfl
@[simp] theorem State.updConn_mgt (s : State) (c : Fin 4) (f : Connector → Connector) : (State.updConn s c f).mgt = s.mgt := rfl
@[simp] theorem State.updConn_pwr (s : State) (c : Fin 4) (f : Connector → Connector) : (State.updConn s c f).pwr = s.pwr := rfl
@[simp] theorem State.updConn_value (s : State) (c : Fin 4) (f : Connector → Connector) : (State.updConn s c f).hlk.conns = upd s.hlk.conns c f := rfl

/-! ### `State.updTx` -/

@[simp] theorem State.updTx_pending (s : State) (l : Fin 32) (f : TxLane → TxLane) : (State.updTx s l f).pending = s.pending := rfl
@[simp] theorem State.updTx_aon (s : State) (l : Fin 32) (f : TxLane → TxLane) : (State.updTx s l f).aon = s.aon := rfl
@[simp] theorem State.updTx_free (s : State) (l : Fin 32) (f : TxLane → TxLane) : (State.updTx s l f).free = s.free := rfl
@[simp] theorem State.updTx_wires (s : State) (l : Fin 32) (f : TxLane → TxLane) : (State.updTx s l f).wires = s.wires := rfl
@[simp] theorem State.updTx_mem (s : State) (l : Fin 32) (f : TxLane → TxLane) : (State.updTx s l f).mem = s.mem := rfl
@[simp] theorem State.updTx_mbx (s : State) (l : Fin 32) (f : TxLane → TxLane) : (State.updTx s l f).mbx = s.mbx := rfl
@[simp] theorem State.updTx_hif (s : State) (l : Fin 32) (f : TxLane → TxLane) : (State.updTx s l f).hif = s.hif := rfl
@[simp] theorem State.updTx_dma (s : State) (l : Fin 32) (f : TxLane → TxLane) : (State.updTx s l f).dma = s.dma := rfl
@[simp] theorem State.updTx_fsv (s : State) (l : Fin 32) (f : TxLane → TxLane) : (State.updTx s l f).fsv = s.fsv := rfl
@[simp] theorem State.updTx_lsd (s : State) (l : Fin 32) (f : TxLane → TxLane) : (State.updTx s l f).lsd = s.lsd := rfl
@[simp] theorem State.updTx_job (s : State) (l : Fin 32) (f : TxLane → TxLane) : (State.updTx s l f).job = s.job := rfl
@[simp] theorem State.updTx_layout (s : State) (l : Fin 32) (f : TxLane → TxLane) : (State.updTx s l f).layout = s.layout := rfl
@[simp] theorem State.updTx_hamper (s : State) (l : Fin 32) (f : TxLane → TxLane) : (State.updTx s l f).hamper = s.hamper := rfl
@[simp] theorem State.updTx_codec (s : State) (l : Fin 32) (f : TxLane → TxLane) : (State.updTx s l f).codec = s.codec := rfl
@[simp] theorem State.updTx_rows (s : State) (l : Fin 32) (f : TxLane → TxLane) : (State.updTx s l f).rows = s.rows := rfl
@[simp] theorem State.updTx_chk (s : State) (l : Fin 32) (f : TxLane → TxLane) : (State.updTx s l f).chk = s.chk := rfl
@[simp] theorem State.updTx_txn (s : State) (l : Fin 32) (f : TxLane → TxLane) : (State.updTx s l f).txn = s.txn := rfl
@[simp] theorem State.updTx_hac (s : State) (l : Fin 32) (f : TxLane → TxLane) : (State.updTx s l f).hac = s.hac := rfl
@[simp] theorem State.updTx_chain (s : State) (l : Fin 32) (f : TxLane → TxLane) : (State.updTx s l f).chain = s.chain := rfl
@[simp] theorem State.updTx_mot (s : State) (l : Fin 32) (f : TxLane → TxLane) : (State.updTx s l f).mot = s.mot := rfl
@[simp] theorem State.updTx_miu (s : State) (l : Fin 32) (f : TxLane → TxLane) : (State.updTx s l f).miu = s.miu := rfl
@[simp] theorem State.updTx_clk (s : State) (l : Fin 32) (f : TxLane → TxLane) : (State.updTx s l f).clk = s.clk := rfl
@[simp] theorem State.updTx_boot (s : State) (l : Fin 32) (f : TxLane → TxLane) : (State.updTx s l f).boot = s.boot := rfl
@[simp] theorem State.updTx_cal (s : State) (l : Fin 32) (f : TxLane → TxLane) : (State.updTx s l f).cal = s.cal := rfl
@[simp] theorem State.updTx_mgt (s : State) (l : Fin 32) (f : TxLane → TxLane) : (State.updTx s l f).mgt = s.mgt := rfl
@[simp] theorem State.updTx_pwr (s : State) (l : Fin 32) (f : TxLane → TxLane) : (State.updTx s l f).pwr = s.pwr := rfl
@[simp] theorem State.updTx_value (s : State) (l : Fin 32) (f : TxLane → TxLane) : (State.updTx s l f).hlk.tx = upd s.hlk.tx l f := rfl

/-! ### `State.updHead` -/

@[simp] theorem State.updHead_pending (s : State) (h : Fin 64) (f : Head → Head) : (State.updHead s h f).pending = s.pending := rfl
@[simp] theorem State.updHead_aon (s : State) (h : Fin 64) (f : Head → Head) : (State.updHead s h f).aon = s.aon := rfl
@[simp] theorem State.updHead_free (s : State) (h : Fin 64) (f : Head → Head) : (State.updHead s h f).free = s.free := rfl
@[simp] theorem State.updHead_wires (s : State) (h : Fin 64) (f : Head → Head) : (State.updHead s h f).wires = s.wires := rfl
@[simp] theorem State.updHead_mem (s : State) (h : Fin 64) (f : Head → Head) : (State.updHead s h f).mem = s.mem := rfl
@[simp] theorem State.updHead_mbx (s : State) (h : Fin 64) (f : Head → Head) : (State.updHead s h f).mbx = s.mbx := rfl
@[simp] theorem State.updHead_hif (s : State) (h : Fin 64) (f : Head → Head) : (State.updHead s h f).hif = s.hif := rfl
@[simp] theorem State.updHead_dma (s : State) (h : Fin 64) (f : Head → Head) : (State.updHead s h f).dma = s.dma := rfl
@[simp] theorem State.updHead_fsv (s : State) (h : Fin 64) (f : Head → Head) : (State.updHead s h f).fsv = s.fsv := rfl
@[simp] theorem State.updHead_lsd (s : State) (h : Fin 64) (f : Head → Head) : (State.updHead s h f).lsd = s.lsd := rfl
@[simp] theorem State.updHead_job (s : State) (h : Fin 64) (f : Head → Head) : (State.updHead s h f).job = s.job := rfl
@[simp] theorem State.updHead_layout (s : State) (h : Fin 64) (f : Head → Head) : (State.updHead s h f).layout = s.layout := rfl
@[simp] theorem State.updHead_hamper (s : State) (h : Fin 64) (f : Head → Head) : (State.updHead s h f).hamper = s.hamper := rfl
@[simp] theorem State.updHead_codec (s : State) (h : Fin 64) (f : Head → Head) : (State.updHead s h f).codec = s.codec := rfl
@[simp] theorem State.updHead_rows (s : State) (h : Fin 64) (f : Head → Head) : (State.updHead s h f).rows = s.rows := rfl
@[simp] theorem State.updHead_chk (s : State) (h : Fin 64) (f : Head → Head) : (State.updHead s h f).chk = s.chk := rfl
@[simp] theorem State.updHead_txn (s : State) (h : Fin 64) (f : Head → Head) : (State.updHead s h f).txn = s.txn := rfl
@[simp] theorem State.updHead_hlk (s : State) (h : Fin 64) (f : Head → Head) : (State.updHead s h f).hlk = s.hlk := rfl
@[simp] theorem State.updHead_chain (s : State) (h : Fin 64) (f : Head → Head) : (State.updHead s h f).chain = s.chain := rfl
@[simp] theorem State.updHead_mot (s : State) (h : Fin 64) (f : Head → Head) : (State.updHead s h f).mot = s.mot := rfl
@[simp] theorem State.updHead_miu (s : State) (h : Fin 64) (f : Head → Head) : (State.updHead s h f).miu = s.miu := rfl
@[simp] theorem State.updHead_clk (s : State) (h : Fin 64) (f : Head → Head) : (State.updHead s h f).clk = s.clk := rfl
@[simp] theorem State.updHead_boot (s : State) (h : Fin 64) (f : Head → Head) : (State.updHead s h f).boot = s.boot := rfl
@[simp] theorem State.updHead_cal (s : State) (h : Fin 64) (f : Head → Head) : (State.updHead s h f).cal = s.cal := rfl
@[simp] theorem State.updHead_mgt (s : State) (h : Fin 64) (f : Head → Head) : (State.updHead s h f).mgt = s.mgt := rfl
@[simp] theorem State.updHead_pwr (s : State) (h : Fin 64) (f : Head → Head) : (State.updHead s h f).pwr = s.pwr := rfl
@[simp] theorem State.updHead_value (s : State) (h : Fin 64) (f : Head → Head) : (State.updHead s h f).hac.heads = upd s.hac.heads h f := rfl

/-! ### `State.updAxis` -/

@[simp] theorem State.updAxis_pending (s : State) (i : Fin 8) (f : Axis → Axis) : (State.updAxis s i f).pending = s.pending := rfl
@[simp] theorem State.updAxis_aon (s : State) (i : Fin 8) (f : Axis → Axis) : (State.updAxis s i f).aon = s.aon := rfl
@[simp] theorem State.updAxis_free (s : State) (i : Fin 8) (f : Axis → Axis) : (State.updAxis s i f).free = s.free := rfl
@[simp] theorem State.updAxis_wires (s : State) (i : Fin 8) (f : Axis → Axis) : (State.updAxis s i f).wires = s.wires := rfl
@[simp] theorem State.updAxis_mem (s : State) (i : Fin 8) (f : Axis → Axis) : (State.updAxis s i f).mem = s.mem := rfl
@[simp] theorem State.updAxis_mbx (s : State) (i : Fin 8) (f : Axis → Axis) : (State.updAxis s i f).mbx = s.mbx := rfl
@[simp] theorem State.updAxis_hif (s : State) (i : Fin 8) (f : Axis → Axis) : (State.updAxis s i f).hif = s.hif := rfl
@[simp] theorem State.updAxis_dma (s : State) (i : Fin 8) (f : Axis → Axis) : (State.updAxis s i f).dma = s.dma := rfl
@[simp] theorem State.updAxis_fsv (s : State) (i : Fin 8) (f : Axis → Axis) : (State.updAxis s i f).fsv = s.fsv := rfl
@[simp] theorem State.updAxis_lsd (s : State) (i : Fin 8) (f : Axis → Axis) : (State.updAxis s i f).lsd = s.lsd := rfl
@[simp] theorem State.updAxis_job (s : State) (i : Fin 8) (f : Axis → Axis) : (State.updAxis s i f).job = s.job := rfl
@[simp] theorem State.updAxis_layout (s : State) (i : Fin 8) (f : Axis → Axis) : (State.updAxis s i f).layout = s.layout := rfl
@[simp] theorem State.updAxis_hamper (s : State) (i : Fin 8) (f : Axis → Axis) : (State.updAxis s i f).hamper = s.hamper := rfl
@[simp] theorem State.updAxis_codec (s : State) (i : Fin 8) (f : Axis → Axis) : (State.updAxis s i f).codec = s.codec := rfl
@[simp] theorem State.updAxis_rows (s : State) (i : Fin 8) (f : Axis → Axis) : (State.updAxis s i f).rows = s.rows := rfl
@[simp] theorem State.updAxis_chk (s : State) (i : Fin 8) (f : Axis → Axis) : (State.updAxis s i f).chk = s.chk := rfl
@[simp] theorem State.updAxis_txn (s : State) (i : Fin 8) (f : Axis → Axis) : (State.updAxis s i f).txn = s.txn := rfl
@[simp] theorem State.updAxis_hlk (s : State) (i : Fin 8) (f : Axis → Axis) : (State.updAxis s i f).hlk = s.hlk := rfl
@[simp] theorem State.updAxis_hac (s : State) (i : Fin 8) (f : Axis → Axis) : (State.updAxis s i f).hac = s.hac := rfl
@[simp] theorem State.updAxis_chain (s : State) (i : Fin 8) (f : Axis → Axis) : (State.updAxis s i f).chain = s.chain := rfl
@[simp] theorem State.updAxis_miu (s : State) (i : Fin 8) (f : Axis → Axis) : (State.updAxis s i f).miu = s.miu := rfl
@[simp] theorem State.updAxis_clk (s : State) (i : Fin 8) (f : Axis → Axis) : (State.updAxis s i f).clk = s.clk := rfl
@[simp] theorem State.updAxis_boot (s : State) (i : Fin 8) (f : Axis → Axis) : (State.updAxis s i f).boot = s.boot := rfl
@[simp] theorem State.updAxis_cal (s : State) (i : Fin 8) (f : Axis → Axis) : (State.updAxis s i f).cal = s.cal := rfl
@[simp] theorem State.updAxis_mgt (s : State) (i : Fin 8) (f : Axis → Axis) : (State.updAxis s i f).mgt = s.mgt := rfl
@[simp] theorem State.updAxis_pwr (s : State) (i : Fin 8) (f : Axis → Axis) : (State.updAxis s i f).pwr = s.pwr := rfl
@[simp] theorem State.updAxis_value (s : State) (i : Fin 8) (f : Axis → Axis) : (State.updAxis s i f).mot.axes = upd s.mot.axes i f := rfl

/-! ### `State.updQue` -/

@[simp] theorem State.updQue_pending (s : State) (q : Fin 48) (f : Que → Que) : (State.updQue s q f).pending = s.pending := rfl
@[simp] theorem State.updQue_aon (s : State) (q : Fin 48) (f : Que → Que) : (State.updQue s q f).aon = s.aon := rfl
@[simp] theorem State.updQue_free (s : State) (q : Fin 48) (f : Que → Que) : (State.updQue s q f).free = s.free := rfl
@[simp] theorem State.updQue_wires (s : State) (q : Fin 48) (f : Que → Que) : (State.updQue s q f).wires = s.wires := rfl
@[simp] theorem State.updQue_mem (s : State) (q : Fin 48) (f : Que → Que) : (State.updQue s q f).mem = s.mem := rfl
@[simp] theorem State.updQue_mbx (s : State) (q : Fin 48) (f : Que → Que) : (State.updQue s q f).mbx = s.mbx := rfl
@[simp] theorem State.updQue_hif (s : State) (q : Fin 48) (f : Que → Que) : (State.updQue s q f).hif = s.hif := rfl
@[simp] theorem State.updQue_fsv (s : State) (q : Fin 48) (f : Que → Que) : (State.updQue s q f).fsv = s.fsv := rfl
@[simp] theorem State.updQue_lsd (s : State) (q : Fin 48) (f : Que → Que) : (State.updQue s q f).lsd = s.lsd := rfl
@[simp] theorem State.updQue_job (s : State) (q : Fin 48) (f : Que → Que) : (State.updQue s q f).job = s.job := rfl
@[simp] theorem State.updQue_layout (s : State) (q : Fin 48) (f : Que → Que) : (State.updQue s q f).layout = s.layout := rfl
@[simp] theorem State.updQue_hamper (s : State) (q : Fin 48) (f : Que → Que) : (State.updQue s q f).hamper = s.hamper := rfl
@[simp] theorem State.updQue_codec (s : State) (q : Fin 48) (f : Que → Que) : (State.updQue s q f).codec = s.codec := rfl
@[simp] theorem State.updQue_rows (s : State) (q : Fin 48) (f : Que → Que) : (State.updQue s q f).rows = s.rows := rfl
@[simp] theorem State.updQue_chk (s : State) (q : Fin 48) (f : Que → Que) : (State.updQue s q f).chk = s.chk := rfl
@[simp] theorem State.updQue_txn (s : State) (q : Fin 48) (f : Que → Que) : (State.updQue s q f).txn = s.txn := rfl
@[simp] theorem State.updQue_hlk (s : State) (q : Fin 48) (f : Que → Que) : (State.updQue s q f).hlk = s.hlk := rfl
@[simp] theorem State.updQue_hac (s : State) (q : Fin 48) (f : Que → Que) : (State.updQue s q f).hac = s.hac := rfl
@[simp] theorem State.updQue_chain (s : State) (q : Fin 48) (f : Que → Que) : (State.updQue s q f).chain = s.chain := rfl
@[simp] theorem State.updQue_mot (s : State) (q : Fin 48) (f : Que → Que) : (State.updQue s q f).mot = s.mot := rfl
@[simp] theorem State.updQue_miu (s : State) (q : Fin 48) (f : Que → Que) : (State.updQue s q f).miu = s.miu := rfl
@[simp] theorem State.updQue_clk (s : State) (q : Fin 48) (f : Que → Que) : (State.updQue s q f).clk = s.clk := rfl
@[simp] theorem State.updQue_boot (s : State) (q : Fin 48) (f : Que → Que) : (State.updQue s q f).boot = s.boot := rfl
@[simp] theorem State.updQue_cal (s : State) (q : Fin 48) (f : Que → Que) : (State.updQue s q f).cal = s.cal := rfl
@[simp] theorem State.updQue_mgt (s : State) (q : Fin 48) (f : Que → Que) : (State.updQue s q f).mgt = s.mgt := rfl
@[simp] theorem State.updQue_pwr (s : State) (q : Fin 48) (f : Que → Que) : (State.updQue s q f).pwr = s.pwr := rfl

/-! ### `State.updChan` -/

@[simp] theorem State.updChan_pending (s : State) (c : Fin 48) (f : Chan → Chan) : (State.updChan s c f).pending = s.pending := rfl
@[simp] theorem State.updChan_aon (s : State) (c : Fin 48) (f : Chan → Chan) : (State.updChan s c f).aon = s.aon := rfl
@[simp] theorem State.updChan_free (s : State) (c : Fin 48) (f : Chan → Chan) : (State.updChan s c f).free = s.free := rfl
@[simp] theorem State.updChan_wires (s : State) (c : Fin 48) (f : Chan → Chan) : (State.updChan s c f).wires = s.wires := rfl
@[simp] theorem State.updChan_mem (s : State) (c : Fin 48) (f : Chan → Chan) : (State.updChan s c f).mem = s.mem := rfl
@[simp] theorem State.updChan_mbx (s : State) (c : Fin 48) (f : Chan → Chan) : (State.updChan s c f).mbx = s.mbx := rfl
@[simp] theorem State.updChan_hif (s : State) (c : Fin 48) (f : Chan → Chan) : (State.updChan s c f).hif = s.hif := rfl
@[simp] theorem State.updChan_fsv (s : State) (c : Fin 48) (f : Chan → Chan) : (State.updChan s c f).fsv = s.fsv := rfl
@[simp] theorem State.updChan_lsd (s : State) (c : Fin 48) (f : Chan → Chan) : (State.updChan s c f).lsd = s.lsd := rfl
@[simp] theorem State.updChan_job (s : State) (c : Fin 48) (f : Chan → Chan) : (State.updChan s c f).job = s.job := rfl
@[simp] theorem State.updChan_layout (s : State) (c : Fin 48) (f : Chan → Chan) : (State.updChan s c f).layout = s.layout := rfl
@[simp] theorem State.updChan_hamper (s : State) (c : Fin 48) (f : Chan → Chan) : (State.updChan s c f).hamper = s.hamper := rfl
@[simp] theorem State.updChan_codec (s : State) (c : Fin 48) (f : Chan → Chan) : (State.updChan s c f).codec = s.codec := rfl
@[simp] theorem State.updChan_rows (s : State) (c : Fin 48) (f : Chan → Chan) : (State.updChan s c f).rows = s.rows := rfl
@[simp] theorem State.updChan_chk (s : State) (c : Fin 48) (f : Chan → Chan) : (State.updChan s c f).chk = s.chk := rfl
@[simp] theorem State.updChan_txn (s : State) (c : Fin 48) (f : Chan → Chan) : (State.updChan s c f).txn = s.txn := rfl
@[simp] theorem State.updChan_hlk (s : State) (c : Fin 48) (f : Chan → Chan) : (State.updChan s c f).hlk = s.hlk := rfl
@[simp] theorem State.updChan_hac (s : State) (c : Fin 48) (f : Chan → Chan) : (State.updChan s c f).hac = s.hac := rfl
@[simp] theorem State.updChan_chain (s : State) (c : Fin 48) (f : Chan → Chan) : (State.updChan s c f).chain = s.chain := rfl
@[simp] theorem State.updChan_mot (s : State) (c : Fin 48) (f : Chan → Chan) : (State.updChan s c f).mot = s.mot := rfl
@[simp] theorem State.updChan_miu (s : State) (c : Fin 48) (f : Chan → Chan) : (State.updChan s c f).miu = s.miu := rfl
@[simp] theorem State.updChan_clk (s : State) (c : Fin 48) (f : Chan → Chan) : (State.updChan s c f).clk = s.clk := rfl
@[simp] theorem State.updChan_boot (s : State) (c : Fin 48) (f : Chan → Chan) : (State.updChan s c f).boot = s.boot := rfl
@[simp] theorem State.updChan_cal (s : State) (c : Fin 48) (f : Chan → Chan) : (State.updChan s c f).cal = s.cal := rfl
@[simp] theorem State.updChan_mgt (s : State) (c : Fin 48) (f : Chan → Chan) : (State.updChan s c f).mgt = s.mgt := rfl
@[simp] theorem State.updChan_pwr (s : State) (c : Fin 48) (f : Chan → Chan) : (State.updChan s c f).pwr = s.pwr := rfl

/-! ### `State.updRow` -/

@[simp] theorem State.updRow_pending (s : State) (r : Fin 16) (f : SpcRow → SpcRow) : (State.updRow s r f).pending = s.pending := rfl
@[simp] theorem State.updRow_aon (s : State) (r : Fin 16) (f : SpcRow → SpcRow) : (State.updRow s r f).aon = s.aon := rfl
@[simp] theorem State.updRow_free (s : State) (r : Fin 16) (f : SpcRow → SpcRow) : (State.updRow s r f).free = s.free := rfl
@[simp] theorem State.updRow_wires (s : State) (r : Fin 16) (f : SpcRow → SpcRow) : (State.updRow s r f).wires = s.wires := rfl
@[simp] theorem State.updRow_mem (s : State) (r : Fin 16) (f : SpcRow → SpcRow) : (State.updRow s r f).mem = s.mem := rfl
@[simp] theorem State.updRow_mbx (s : State) (r : Fin 16) (f : SpcRow → SpcRow) : (State.updRow s r f).mbx = s.mbx := rfl
@[simp] theorem State.updRow_hif (s : State) (r : Fin 16) (f : SpcRow → SpcRow) : (State.updRow s r f).hif = s.hif := rfl
@[simp] theorem State.updRow_dma (s : State) (r : Fin 16) (f : SpcRow → SpcRow) : (State.updRow s r f).dma = s.dma := rfl
@[simp] theorem State.updRow_fsv (s : State) (r : Fin 16) (f : SpcRow → SpcRow) : (State.updRow s r f).fsv = s.fsv := rfl
@[simp] theorem State.updRow_lsd (s : State) (r : Fin 16) (f : SpcRow → SpcRow) : (State.updRow s r f).lsd = s.lsd := rfl
@[simp] theorem State.updRow_job (s : State) (r : Fin 16) (f : SpcRow → SpcRow) : (State.updRow s r f).job = s.job := rfl
@[simp] theorem State.updRow_layout (s : State) (r : Fin 16) (f : SpcRow → SpcRow) : (State.updRow s r f).layout = s.layout := rfl
@[simp] theorem State.updRow_hamper (s : State) (r : Fin 16) (f : SpcRow → SpcRow) : (State.updRow s r f).hamper = s.hamper := rfl
@[simp] theorem State.updRow_codec (s : State) (r : Fin 16) (f : SpcRow → SpcRow) : (State.updRow s r f).codec = s.codec := rfl
@[simp] theorem State.updRow_chk (s : State) (r : Fin 16) (f : SpcRow → SpcRow) : (State.updRow s r f).chk = s.chk := rfl
@[simp] theorem State.updRow_txn (s : State) (r : Fin 16) (f : SpcRow → SpcRow) : (State.updRow s r f).txn = s.txn := rfl
@[simp] theorem State.updRow_hlk (s : State) (r : Fin 16) (f : SpcRow → SpcRow) : (State.updRow s r f).hlk = s.hlk := rfl
@[simp] theorem State.updRow_hac (s : State) (r : Fin 16) (f : SpcRow → SpcRow) : (State.updRow s r f).hac = s.hac := rfl
@[simp] theorem State.updRow_chain (s : State) (r : Fin 16) (f : SpcRow → SpcRow) : (State.updRow s r f).chain = s.chain := rfl
@[simp] theorem State.updRow_mot (s : State) (r : Fin 16) (f : SpcRow → SpcRow) : (State.updRow s r f).mot = s.mot := rfl
@[simp] theorem State.updRow_miu (s : State) (r : Fin 16) (f : SpcRow → SpcRow) : (State.updRow s r f).miu = s.miu := rfl
@[simp] theorem State.updRow_clk (s : State) (r : Fin 16) (f : SpcRow → SpcRow) : (State.updRow s r f).clk = s.clk := rfl
@[simp] theorem State.updRow_boot (s : State) (r : Fin 16) (f : SpcRow → SpcRow) : (State.updRow s r f).boot = s.boot := rfl
@[simp] theorem State.updRow_cal (s : State) (r : Fin 16) (f : SpcRow → SpcRow) : (State.updRow s r f).cal = s.cal := rfl
@[simp] theorem State.updRow_mgt (s : State) (r : Fin 16) (f : SpcRow → SpcRow) : (State.updRow s r f).mgt = s.mgt := rfl
@[simp] theorem State.updRow_pwr (s : State) (r : Fin 16) (f : SpcRow → SpcRow) : (State.updRow s r f).pwr = s.pwr := rfl
@[simp] theorem State.updRow_value (s : State) (r : Fin 16) (f : SpcRow → SpcRow) : (State.updRow s r f).rows = upd s.rows r f := rfl

/-! ### `State.updCvu` -/

@[simp] theorem State.updCvu_pending (s : State) (h : Fin 32) (f : Cvu → Cvu) : (State.updCvu s h f).pending = s.pending := rfl
@[simp] theorem State.updCvu_aon (s : State) (h : Fin 32) (f : Cvu → Cvu) : (State.updCvu s h f).aon = s.aon := rfl
@[simp] theorem State.updCvu_free (s : State) (h : Fin 32) (f : Cvu → Cvu) : (State.updCvu s h f).free = s.free := rfl
@[simp] theorem State.updCvu_wires (s : State) (h : Fin 32) (f : Cvu → Cvu) : (State.updCvu s h f).wires = s.wires := rfl
@[simp] theorem State.updCvu_mem (s : State) (h : Fin 32) (f : Cvu → Cvu) : (State.updCvu s h f).mem = s.mem := rfl
@[simp] theorem State.updCvu_mbx (s : State) (h : Fin 32) (f : Cvu → Cvu) : (State.updCvu s h f).mbx = s.mbx := rfl
@[simp] theorem State.updCvu_hif (s : State) (h : Fin 32) (f : Cvu → Cvu) : (State.updCvu s h f).hif = s.hif := rfl
@[simp] theorem State.updCvu_dma (s : State) (h : Fin 32) (f : Cvu → Cvu) : (State.updCvu s h f).dma = s.dma := rfl
@[simp] theorem State.updCvu_fsv (s : State) (h : Fin 32) (f : Cvu → Cvu) : (State.updCvu s h f).fsv = s.fsv := rfl
@[simp] theorem State.updCvu_lsd (s : State) (h : Fin 32) (f : Cvu → Cvu) : (State.updCvu s h f).lsd = s.lsd := rfl
@[simp] theorem State.updCvu_job (s : State) (h : Fin 32) (f : Cvu → Cvu) : (State.updCvu s h f).job = s.job := rfl
@[simp] theorem State.updCvu_layout (s : State) (h : Fin 32) (f : Cvu → Cvu) : (State.updCvu s h f).layout = s.layout := rfl
@[simp] theorem State.updCvu_hamper (s : State) (h : Fin 32) (f : Cvu → Cvu) : (State.updCvu s h f).hamper = s.hamper := rfl
@[simp] theorem State.updCvu_codec (s : State) (h : Fin 32) (f : Cvu → Cvu) : (State.updCvu s h f).codec = s.codec := rfl
@[simp] theorem State.updCvu_rows (s : State) (h : Fin 32) (f : Cvu → Cvu) : (State.updCvu s h f).rows = s.rows := rfl
@[simp] theorem State.updCvu_txn (s : State) (h : Fin 32) (f : Cvu → Cvu) : (State.updCvu s h f).txn = s.txn := rfl
@[simp] theorem State.updCvu_hlk (s : State) (h : Fin 32) (f : Cvu → Cvu) : (State.updCvu s h f).hlk = s.hlk := rfl
@[simp] theorem State.updCvu_hac (s : State) (h : Fin 32) (f : Cvu → Cvu) : (State.updCvu s h f).hac = s.hac := rfl
@[simp] theorem State.updCvu_chain (s : State) (h : Fin 32) (f : Cvu → Cvu) : (State.updCvu s h f).chain = s.chain := rfl
@[simp] theorem State.updCvu_mot (s : State) (h : Fin 32) (f : Cvu → Cvu) : (State.updCvu s h f).mot = s.mot := rfl
@[simp] theorem State.updCvu_miu (s : State) (h : Fin 32) (f : Cvu → Cvu) : (State.updCvu s h f).miu = s.miu := rfl
@[simp] theorem State.updCvu_clk (s : State) (h : Fin 32) (f : Cvu → Cvu) : (State.updCvu s h f).clk = s.clk := rfl
@[simp] theorem State.updCvu_boot (s : State) (h : Fin 32) (f : Cvu → Cvu) : (State.updCvu s h f).boot = s.boot := rfl
@[simp] theorem State.updCvu_cal (s : State) (h : Fin 32) (f : Cvu → Cvu) : (State.updCvu s h f).cal = s.cal := rfl
@[simp] theorem State.updCvu_mgt (s : State) (h : Fin 32) (f : Cvu → Cvu) : (State.updCvu s h f).mgt = s.mgt := rfl
@[simp] theorem State.updCvu_pwr (s : State) (h : Fin 32) (f : Cvu → Cvu) : (State.updCvu s h f).pwr = s.pwr := rfl

/-! ### `State.updLsd` -/

@[simp] theorem State.updLsd_pending (s : State) (r : Fin 16) (f : LsdRow → LsdRow) : (State.updLsd s r f).pending = s.pending := rfl
@[simp] theorem State.updLsd_aon (s : State) (r : Fin 16) (f : LsdRow → LsdRow) : (State.updLsd s r f).aon = s.aon := rfl
@[simp] theorem State.updLsd_free (s : State) (r : Fin 16) (f : LsdRow → LsdRow) : (State.updLsd s r f).free = s.free := rfl
@[simp] theorem State.updLsd_wires (s : State) (r : Fin 16) (f : LsdRow → LsdRow) : (State.updLsd s r f).wires = s.wires := rfl
@[simp] theorem State.updLsd_mem (s : State) (r : Fin 16) (f : LsdRow → LsdRow) : (State.updLsd s r f).mem = s.mem := rfl
@[simp] theorem State.updLsd_mbx (s : State) (r : Fin 16) (f : LsdRow → LsdRow) : (State.updLsd s r f).mbx = s.mbx := rfl
@[simp] theorem State.updLsd_hif (s : State) (r : Fin 16) (f : LsdRow → LsdRow) : (State.updLsd s r f).hif = s.hif := rfl
@[simp] theorem State.updLsd_dma (s : State) (r : Fin 16) (f : LsdRow → LsdRow) : (State.updLsd s r f).dma = s.dma := rfl
@[simp] theorem State.updLsd_fsv (s : State) (r : Fin 16) (f : LsdRow → LsdRow) : (State.updLsd s r f).fsv = s.fsv := rfl
@[simp] theorem State.updLsd_job (s : State) (r : Fin 16) (f : LsdRow → LsdRow) : (State.updLsd s r f).job = s.job := rfl
@[simp] theorem State.updLsd_layout (s : State) (r : Fin 16) (f : LsdRow → LsdRow) : (State.updLsd s r f).layout = s.layout := rfl
@[simp] theorem State.updLsd_hamper (s : State) (r : Fin 16) (f : LsdRow → LsdRow) : (State.updLsd s r f).hamper = s.hamper := rfl
@[simp] theorem State.updLsd_codec (s : State) (r : Fin 16) (f : LsdRow → LsdRow) : (State.updLsd s r f).codec = s.codec := rfl
@[simp] theorem State.updLsd_rows (s : State) (r : Fin 16) (f : LsdRow → LsdRow) : (State.updLsd s r f).rows = s.rows := rfl
@[simp] theorem State.updLsd_chk (s : State) (r : Fin 16) (f : LsdRow → LsdRow) : (State.updLsd s r f).chk = s.chk := rfl
@[simp] theorem State.updLsd_txn (s : State) (r : Fin 16) (f : LsdRow → LsdRow) : (State.updLsd s r f).txn = s.txn := rfl
@[simp] theorem State.updLsd_hlk (s : State) (r : Fin 16) (f : LsdRow → LsdRow) : (State.updLsd s r f).hlk = s.hlk := rfl
@[simp] theorem State.updLsd_hac (s : State) (r : Fin 16) (f : LsdRow → LsdRow) : (State.updLsd s r f).hac = s.hac := rfl
@[simp] theorem State.updLsd_chain (s : State) (r : Fin 16) (f : LsdRow → LsdRow) : (State.updLsd s r f).chain = s.chain := rfl
@[simp] theorem State.updLsd_mot (s : State) (r : Fin 16) (f : LsdRow → LsdRow) : (State.updLsd s r f).mot = s.mot := rfl
@[simp] theorem State.updLsd_miu (s : State) (r : Fin 16) (f : LsdRow → LsdRow) : (State.updLsd s r f).miu = s.miu := rfl
@[simp] theorem State.updLsd_clk (s : State) (r : Fin 16) (f : LsdRow → LsdRow) : (State.updLsd s r f).clk = s.clk := rfl
@[simp] theorem State.updLsd_boot (s : State) (r : Fin 16) (f : LsdRow → LsdRow) : (State.updLsd s r f).boot = s.boot := rfl
@[simp] theorem State.updLsd_cal (s : State) (r : Fin 16) (f : LsdRow → LsdRow) : (State.updLsd s r f).cal = s.cal := rfl
@[simp] theorem State.updLsd_mgt (s : State) (r : Fin 16) (f : LsdRow → LsdRow) : (State.updLsd s r f).mgt = s.mgt := rfl
@[simp] theorem State.updLsd_pwr (s : State) (r : Fin 16) (f : LsdRow → LsdRow) : (State.updLsd s r f).pwr = s.pwr := rfl

/-! ### `State.updJobRow` -/

@[simp] theorem State.updJobRow_pending (s : State) (r : Fin 16) (f : JobRow → JobRow) : (State.updJobRow s r f).pending = s.pending := rfl
@[simp] theorem State.updJobRow_aon (s : State) (r : Fin 16) (f : JobRow → JobRow) : (State.updJobRow s r f).aon = s.aon := rfl
@[simp] theorem State.updJobRow_free (s : State) (r : Fin 16) (f : JobRow → JobRow) : (State.updJobRow s r f).free = s.free := rfl
@[simp] theorem State.updJobRow_wires (s : State) (r : Fin 16) (f : JobRow → JobRow) : (State.updJobRow s r f).wires = s.wires := rfl
@[simp] theorem State.updJobRow_mem (s : State) (r : Fin 16) (f : JobRow → JobRow) : (State.updJobRow s r f).mem = s.mem := rfl
@[simp] theorem State.updJobRow_mbx (s : State) (r : Fin 16) (f : JobRow → JobRow) : (State.updJobRow s r f).mbx = s.mbx := rfl
@[simp] theorem State.updJobRow_hif (s : State) (r : Fin 16) (f : JobRow → JobRow) : (State.updJobRow s r f).hif = s.hif := rfl
@[simp] theorem State.updJobRow_dma (s : State) (r : Fin 16) (f : JobRow → JobRow) : (State.updJobRow s r f).dma = s.dma := rfl
@[simp] theorem State.updJobRow_fsv (s : State) (r : Fin 16) (f : JobRow → JobRow) : (State.updJobRow s r f).fsv = s.fsv := rfl
@[simp] theorem State.updJobRow_lsd (s : State) (r : Fin 16) (f : JobRow → JobRow) : (State.updJobRow s r f).lsd = s.lsd := rfl
@[simp] theorem State.updJobRow_layout (s : State) (r : Fin 16) (f : JobRow → JobRow) : (State.updJobRow s r f).layout = s.layout := rfl
@[simp] theorem State.updJobRow_hamper (s : State) (r : Fin 16) (f : JobRow → JobRow) : (State.updJobRow s r f).hamper = s.hamper := rfl
@[simp] theorem State.updJobRow_codec (s : State) (r : Fin 16) (f : JobRow → JobRow) : (State.updJobRow s r f).codec = s.codec := rfl
@[simp] theorem State.updJobRow_rows (s : State) (r : Fin 16) (f : JobRow → JobRow) : (State.updJobRow s r f).rows = s.rows := rfl
@[simp] theorem State.updJobRow_chk (s : State) (r : Fin 16) (f : JobRow → JobRow) : (State.updJobRow s r f).chk = s.chk := rfl
@[simp] theorem State.updJobRow_txn (s : State) (r : Fin 16) (f : JobRow → JobRow) : (State.updJobRow s r f).txn = s.txn := rfl
@[simp] theorem State.updJobRow_hlk (s : State) (r : Fin 16) (f : JobRow → JobRow) : (State.updJobRow s r f).hlk = s.hlk := rfl
@[simp] theorem State.updJobRow_hac (s : State) (r : Fin 16) (f : JobRow → JobRow) : (State.updJobRow s r f).hac = s.hac := rfl
@[simp] theorem State.updJobRow_chain (s : State) (r : Fin 16) (f : JobRow → JobRow) : (State.updJobRow s r f).chain = s.chain := rfl
@[simp] theorem State.updJobRow_mot (s : State) (r : Fin 16) (f : JobRow → JobRow) : (State.updJobRow s r f).mot = s.mot := rfl
@[simp] theorem State.updJobRow_miu (s : State) (r : Fin 16) (f : JobRow → JobRow) : (State.updJobRow s r f).miu = s.miu := rfl
@[simp] theorem State.updJobRow_clk (s : State) (r : Fin 16) (f : JobRow → JobRow) : (State.updJobRow s r f).clk = s.clk := rfl
@[simp] theorem State.updJobRow_boot (s : State) (r : Fin 16) (f : JobRow → JobRow) : (State.updJobRow s r f).boot = s.boot := rfl
@[simp] theorem State.updJobRow_cal (s : State) (r : Fin 16) (f : JobRow → JobRow) : (State.updJobRow s r f).cal = s.cal := rfl
@[simp] theorem State.updJobRow_mgt (s : State) (r : Fin 16) (f : JobRow → JobRow) : (State.updJobRow s r f).mgt = s.mgt := rfl
@[simp] theorem State.updJobRow_pwr (s : State) (r : Fin 16) (f : JobRow → JobRow) : (State.updJobRow s r f).pwr = s.pwr := rfl

/-! ### `State.updGroup` -/

@[simp] theorem State.updGroup_pending (s : State) (id : BitVec 32) (f : Group → Group) : (State.updGroup s id f).pending = s.pending := rfl
@[simp] theorem State.updGroup_aon (s : State) (id : BitVec 32) (f : Group → Group) : (State.updGroup s id f).aon = s.aon := rfl
@[simp] theorem State.updGroup_free (s : State) (id : BitVec 32) (f : Group → Group) : (State.updGroup s id f).free = s.free := rfl
@[simp] theorem State.updGroup_wires (s : State) (id : BitVec 32) (f : Group → Group) : (State.updGroup s id f).wires = s.wires := rfl
@[simp] theorem State.updGroup_mem (s : State) (id : BitVec 32) (f : Group → Group) : (State.updGroup s id f).mem = s.mem := rfl
@[simp] theorem State.updGroup_mbx (s : State) (id : BitVec 32) (f : Group → Group) : (State.updGroup s id f).mbx = s.mbx := rfl
@[simp] theorem State.updGroup_hif (s : State) (id : BitVec 32) (f : Group → Group) : (State.updGroup s id f).hif = s.hif := rfl
@[simp] theorem State.updGroup_dma (s : State) (id : BitVec 32) (f : Group → Group) : (State.updGroup s id f).dma = s.dma := rfl
@[simp] theorem State.updGroup_fsv (s : State) (id : BitVec 32) (f : Group → Group) : (State.updGroup s id f).fsv = s.fsv := rfl
@[simp] theorem State.updGroup_lsd (s : State) (id : BitVec 32) (f : Group → Group) : (State.updGroup s id f).lsd = s.lsd := rfl
@[simp] theorem State.updGroup_job (s : State) (id : BitVec 32) (f : Group → Group) : (State.updGroup s id f).job = s.job := rfl
@[simp] theorem State.updGroup_layout (s : State) (id : BitVec 32) (f : Group → Group) : (State.updGroup s id f).layout = s.layout := rfl
@[simp] theorem State.updGroup_hamper (s : State) (id : BitVec 32) (f : Group → Group) : (State.updGroup s id f).hamper = s.hamper := rfl
@[simp] theorem State.updGroup_codec (s : State) (id : BitVec 32) (f : Group → Group) : (State.updGroup s id f).codec = s.codec := rfl
@[simp] theorem State.updGroup_rows (s : State) (id : BitVec 32) (f : Group → Group) : (State.updGroup s id f).rows = s.rows := rfl
@[simp] theorem State.updGroup_chk (s : State) (id : BitVec 32) (f : Group → Group) : (State.updGroup s id f).chk = s.chk := rfl
@[simp] theorem State.updGroup_hlk (s : State) (id : BitVec 32) (f : Group → Group) : (State.updGroup s id f).hlk = s.hlk := rfl
@[simp] theorem State.updGroup_hac (s : State) (id : BitVec 32) (f : Group → Group) : (State.updGroup s id f).hac = s.hac := rfl
@[simp] theorem State.updGroup_chain (s : State) (id : BitVec 32) (f : Group → Group) : (State.updGroup s id f).chain = s.chain := rfl
@[simp] theorem State.updGroup_mot (s : State) (id : BitVec 32) (f : Group → Group) : (State.updGroup s id f).mot = s.mot := rfl
@[simp] theorem State.updGroup_miu (s : State) (id : BitVec 32) (f : Group → Group) : (State.updGroup s id f).miu = s.miu := rfl
@[simp] theorem State.updGroup_clk (s : State) (id : BitVec 32) (f : Group → Group) : (State.updGroup s id f).clk = s.clk := rfl
@[simp] theorem State.updGroup_boot (s : State) (id : BitVec 32) (f : Group → Group) : (State.updGroup s id f).boot = s.boot := rfl
@[simp] theorem State.updGroup_cal (s : State) (id : BitVec 32) (f : Group → Group) : (State.updGroup s id f).cal = s.cal := rfl
@[simp] theorem State.updGroup_mgt (s : State) (id : BitVec 32) (f : Group → Group) : (State.updGroup s id f).mgt = s.mgt := rfl
@[simp] theorem State.updGroup_pwr (s : State) (id : BitVec 32) (f : Group → Group) : (State.updGroup s id f).pwr = s.pwr := rfl

/-! ### `State.updTunnel` -/

@[simp] theorem State.updTunnel_pending (s : State) (n : Fin 2) (f : Tunnel → Tunnel) : (State.updTunnel s n f).pending = s.pending := rfl
@[simp] theorem State.updTunnel_aon (s : State) (n : Fin 2) (f : Tunnel → Tunnel) : (State.updTunnel s n f).aon = s.aon := rfl
@[simp] theorem State.updTunnel_free (s : State) (n : Fin 2) (f : Tunnel → Tunnel) : (State.updTunnel s n f).free = s.free := rfl
@[simp] theorem State.updTunnel_wires (s : State) (n : Fin 2) (f : Tunnel → Tunnel) : (State.updTunnel s n f).wires = s.wires := rfl
@[simp] theorem State.updTunnel_mem (s : State) (n : Fin 2) (f : Tunnel → Tunnel) : (State.updTunnel s n f).mem = s.mem := rfl
@[simp] theorem State.updTunnel_mbx (s : State) (n : Fin 2) (f : Tunnel → Tunnel) : (State.updTunnel s n f).mbx = s.mbx := rfl
@[simp] theorem State.updTunnel_hif (s : State) (n : Fin 2) (f : Tunnel → Tunnel) : (State.updTunnel s n f).hif = s.hif := rfl
@[simp] theorem State.updTunnel_dma (s : State) (n : Fin 2) (f : Tunnel → Tunnel) : (State.updTunnel s n f).dma = s.dma := rfl
@[simp] theorem State.updTunnel_fsv (s : State) (n : Fin 2) (f : Tunnel → Tunnel) : (State.updTunnel s n f).fsv = s.fsv := rfl
@[simp] theorem State.updTunnel_lsd (s : State) (n : Fin 2) (f : Tunnel → Tunnel) : (State.updTunnel s n f).lsd = s.lsd := rfl
@[simp] theorem State.updTunnel_job (s : State) (n : Fin 2) (f : Tunnel → Tunnel) : (State.updTunnel s n f).job = s.job := rfl
@[simp] theorem State.updTunnel_layout (s : State) (n : Fin 2) (f : Tunnel → Tunnel) : (State.updTunnel s n f).layout = s.layout := rfl
@[simp] theorem State.updTunnel_hamper (s : State) (n : Fin 2) (f : Tunnel → Tunnel) : (State.updTunnel s n f).hamper = s.hamper := rfl
@[simp] theorem State.updTunnel_codec (s : State) (n : Fin 2) (f : Tunnel → Tunnel) : (State.updTunnel s n f).codec = s.codec := rfl
@[simp] theorem State.updTunnel_rows (s : State) (n : Fin 2) (f : Tunnel → Tunnel) : (State.updTunnel s n f).rows = s.rows := rfl
@[simp] theorem State.updTunnel_chk (s : State) (n : Fin 2) (f : Tunnel → Tunnel) : (State.updTunnel s n f).chk = s.chk := rfl
@[simp] theorem State.updTunnel_txn (s : State) (n : Fin 2) (f : Tunnel → Tunnel) : (State.updTunnel s n f).txn = s.txn := rfl
@[simp] theorem State.updTunnel_hlk (s : State) (n : Fin 2) (f : Tunnel → Tunnel) : (State.updTunnel s n f).hlk = s.hlk := rfl
@[simp] theorem State.updTunnel_hac (s : State) (n : Fin 2) (f : Tunnel → Tunnel) : (State.updTunnel s n f).hac = s.hac := rfl
@[simp] theorem State.updTunnel_chain (s : State) (n : Fin 2) (f : Tunnel → Tunnel) : (State.updTunnel s n f).chain = s.chain := rfl
@[simp] theorem State.updTunnel_mot (s : State) (n : Fin 2) (f : Tunnel → Tunnel) : (State.updTunnel s n f).mot = s.mot := rfl
@[simp] theorem State.updTunnel_miu (s : State) (n : Fin 2) (f : Tunnel → Tunnel) : (State.updTunnel s n f).miu = s.miu := rfl
@[simp] theorem State.updTunnel_clk (s : State) (n : Fin 2) (f : Tunnel → Tunnel) : (State.updTunnel s n f).clk = s.clk := rfl
@[simp] theorem State.updTunnel_boot (s : State) (n : Fin 2) (f : Tunnel → Tunnel) : (State.updTunnel s n f).boot = s.boot := rfl
@[simp] theorem State.updTunnel_cal (s : State) (n : Fin 2) (f : Tunnel → Tunnel) : (State.updTunnel s n f).cal = s.cal := rfl
@[simp] theorem State.updTunnel_pwr (s : State) (n : Fin 2) (f : Tunnel → Tunnel) : (State.updTunnel s n f).pwr = s.pwr := rfl

/-! ### `State.wasteMark` -/

@[simp] theorem State.wasteMark_pending (s : State) (row : Fin 16) (first : ℕ) (last : ℕ) (cause : Byte) : (State.wasteMark s row first last cause).pending = s.pending := rfl
@[simp] theorem State.wasteMark_aon (s : State) (row : Fin 16) (first : ℕ) (last : ℕ) (cause : Byte) : (State.wasteMark s row first last cause).aon = s.aon := rfl
@[simp] theorem State.wasteMark_free (s : State) (row : Fin 16) (first : ℕ) (last : ℕ) (cause : Byte) : (State.wasteMark s row first last cause).free = s.free := rfl
@[simp] theorem State.wasteMark_wires (s : State) (row : Fin 16) (first : ℕ) (last : ℕ) (cause : Byte) : (State.wasteMark s row first last cause).wires = s.wires := rfl
@[simp] theorem State.wasteMark_mem (s : State) (row : Fin 16) (first : ℕ) (last : ℕ) (cause : Byte) : (State.wasteMark s row first last cause).mem = s.mem := rfl
@[simp] theorem State.wasteMark_mbx (s : State) (row : Fin 16) (first : ℕ) (last : ℕ) (cause : Byte) : (State.wasteMark s row first last cause).mbx = s.mbx := rfl
@[simp] theorem State.wasteMark_hif (s : State) (row : Fin 16) (first : ℕ) (last : ℕ) (cause : Byte) : (State.wasteMark s row first last cause).hif = s.hif := rfl
@[simp] theorem State.wasteMark_dma (s : State) (row : Fin 16) (first : ℕ) (last : ℕ) (cause : Byte) : (State.wasteMark s row first last cause).dma = s.dma := rfl
@[simp] theorem State.wasteMark_lsd (s : State) (row : Fin 16) (first : ℕ) (last : ℕ) (cause : Byte) : (State.wasteMark s row first last cause).lsd = s.lsd := rfl
@[simp] theorem State.wasteMark_job (s : State) (row : Fin 16) (first : ℕ) (last : ℕ) (cause : Byte) : (State.wasteMark s row first last cause).job = s.job := rfl
@[simp] theorem State.wasteMark_layout (s : State) (row : Fin 16) (first : ℕ) (last : ℕ) (cause : Byte) : (State.wasteMark s row first last cause).layout = s.layout := rfl
@[simp] theorem State.wasteMark_hamper (s : State) (row : Fin 16) (first : ℕ) (last : ℕ) (cause : Byte) : (State.wasteMark s row first last cause).hamper = s.hamper := rfl
@[simp] theorem State.wasteMark_codec (s : State) (row : Fin 16) (first : ℕ) (last : ℕ) (cause : Byte) : (State.wasteMark s row first last cause).codec = s.codec := rfl
@[simp] theorem State.wasteMark_rows (s : State) (row : Fin 16) (first : ℕ) (last : ℕ) (cause : Byte) : (State.wasteMark s row first last cause).rows = s.rows := rfl
@[simp] theorem State.wasteMark_chk (s : State) (row : Fin 16) (first : ℕ) (last : ℕ) (cause : Byte) : (State.wasteMark s row first last cause).chk = s.chk := rfl
@[simp] theorem State.wasteMark_txn (s : State) (row : Fin 16) (first : ℕ) (last : ℕ) (cause : Byte) : (State.wasteMark s row first last cause).txn = s.txn := rfl
@[simp] theorem State.wasteMark_hlk (s : State) (row : Fin 16) (first : ℕ) (last : ℕ) (cause : Byte) : (State.wasteMark s row first last cause).hlk = s.hlk := rfl
@[simp] theorem State.wasteMark_hac (s : State) (row : Fin 16) (first : ℕ) (last : ℕ) (cause : Byte) : (State.wasteMark s row first last cause).hac = s.hac := rfl
@[simp] theorem State.wasteMark_chain (s : State) (row : Fin 16) (first : ℕ) (last : ℕ) (cause : Byte) : (State.wasteMark s row first last cause).chain = s.chain := rfl
@[simp] theorem State.wasteMark_mot (s : State) (row : Fin 16) (first : ℕ) (last : ℕ) (cause : Byte) : (State.wasteMark s row first last cause).mot = s.mot := rfl
@[simp] theorem State.wasteMark_miu (s : State) (row : Fin 16) (first : ℕ) (last : ℕ) (cause : Byte) : (State.wasteMark s row first last cause).miu = s.miu := rfl
@[simp] theorem State.wasteMark_clk (s : State) (row : Fin 16) (first : ℕ) (last : ℕ) (cause : Byte) : (State.wasteMark s row first last cause).clk = s.clk := rfl
@[simp] theorem State.wasteMark_boot (s : State) (row : Fin 16) (first : ℕ) (last : ℕ) (cause : Byte) : (State.wasteMark s row first last cause).boot = s.boot := rfl
@[simp] theorem State.wasteMark_cal (s : State) (row : Fin 16) (first : ℕ) (last : ℕ) (cause : Byte) : (State.wasteMark s row first last cause).cal = s.cal := rfl
@[simp] theorem State.wasteMark_mgt (s : State) (row : Fin 16) (first : ℕ) (last : ℕ) (cause : Byte) : (State.wasteMark s row first last cause).mgt = s.mgt := rfl
@[simp] theorem State.wasteMark_pwr (s : State) (row : Fin 16) (first : ℕ) (last : ℕ) (cause : Byte) : (State.wasteMark s row first last cause).pwr = s.pwr := rfl

/-! ### `State.memWrite` -/

@[simp] theorem State.memWrite_pending (s : State) (a : ℕ) (p : List Byte) : (State.memWrite s a p).pending = s.pending := rfl
@[simp] theorem State.memWrite_aon (s : State) (a : ℕ) (p : List Byte) : (State.memWrite s a p).aon = s.aon := rfl
@[simp] theorem State.memWrite_free (s : State) (a : ℕ) (p : List Byte) : (State.memWrite s a p).free = s.free := rfl
@[simp] theorem State.memWrite_wires (s : State) (a : ℕ) (p : List Byte) : (State.memWrite s a p).wires = s.wires := rfl
@[simp] theorem State.memWrite_mbx (s : State) (a : ℕ) (p : List Byte) : (State.memWrite s a p).mbx = s.mbx := rfl
@[simp] theorem State.memWrite_hif (s : State) (a : ℕ) (p : List Byte) : (State.memWrite s a p).hif = s.hif := rfl
@[simp] theorem State.memWrite_dma (s : State) (a : ℕ) (p : List Byte) : (State.memWrite s a p).dma = s.dma := rfl
@[simp] theorem State.memWrite_fsv (s : State) (a : ℕ) (p : List Byte) : (State.memWrite s a p).fsv = s.fsv := rfl
@[simp] theorem State.memWrite_lsd (s : State) (a : ℕ) (p : List Byte) : (State.memWrite s a p).lsd = s.lsd := rfl
@[simp] theorem State.memWrite_job (s : State) (a : ℕ) (p : List Byte) : (State.memWrite s a p).job = s.job := rfl
@[simp] theorem State.memWrite_layout (s : State) (a : ℕ) (p : List Byte) : (State.memWrite s a p).layout = s.layout := rfl
@[simp] theorem State.memWrite_hamper (s : State) (a : ℕ) (p : List Byte) : (State.memWrite s a p).hamper = s.hamper := rfl
@[simp] theorem State.memWrite_codec (s : State) (a : ℕ) (p : List Byte) : (State.memWrite s a p).codec = s.codec := rfl
@[simp] theorem State.memWrite_rows (s : State) (a : ℕ) (p : List Byte) : (State.memWrite s a p).rows = s.rows := rfl
@[simp] theorem State.memWrite_chk (s : State) (a : ℕ) (p : List Byte) : (State.memWrite s a p).chk = s.chk := rfl
@[simp] theorem State.memWrite_txn (s : State) (a : ℕ) (p : List Byte) : (State.memWrite s a p).txn = s.txn := rfl
@[simp] theorem State.memWrite_hlk (s : State) (a : ℕ) (p : List Byte) : (State.memWrite s a p).hlk = s.hlk := rfl
@[simp] theorem State.memWrite_hac (s : State) (a : ℕ) (p : List Byte) : (State.memWrite s a p).hac = s.hac := rfl
@[simp] theorem State.memWrite_chain (s : State) (a : ℕ) (p : List Byte) : (State.memWrite s a p).chain = s.chain := rfl
@[simp] theorem State.memWrite_mot (s : State) (a : ℕ) (p : List Byte) : (State.memWrite s a p).mot = s.mot := rfl
@[simp] theorem State.memWrite_clk (s : State) (a : ℕ) (p : List Byte) : (State.memWrite s a p).clk = s.clk := rfl
@[simp] theorem State.memWrite_boot (s : State) (a : ℕ) (p : List Byte) : (State.memWrite s a p).boot = s.boot := rfl
@[simp] theorem State.memWrite_cal (s : State) (a : ℕ) (p : List Byte) : (State.memWrite s a p).cal = s.cal := rfl
@[simp] theorem State.memWrite_mgt (s : State) (a : ℕ) (p : List Byte) : (State.memWrite s a p).mgt = s.mgt := rfl
@[simp] theorem State.memWrite_pwr (s : State) (a : ℕ) (p : List Byte) : (State.memWrite s a p).pwr = s.pwr := rfl
@[simp] theorem State.memWrite_value (s : State) (a : ℕ) (p : List Byte) : (State.memWrite s a p).mem = Memory.write s.mem a p := rfl

/-! ### `State.updHalf` -/

@[simp] theorem State.updHalf_pending (s : State) (h : Fin 32) (n : ℕ) (f : HalfSend → HalfSend) : (State.updHalf s h n f).pending = s.pending := rfl
@[simp] theorem State.updHalf_aon (s : State) (h : Fin 32) (n : ℕ) (f : HalfSend → HalfSend) : (State.updHalf s h n f).aon = s.aon := rfl
@[simp] theorem State.updHalf_free (s : State) (h : Fin 32) (n : ℕ) (f : HalfSend → HalfSend) : (State.updHalf s h n f).free = s.free := rfl
@[simp] theorem State.updHalf_wires (s : State) (h : Fin 32) (n : ℕ) (f : HalfSend → HalfSend) : (State.updHalf s h n f).wires = s.wires := rfl
@[simp] theorem State.updHalf_mem (s : State) (h : Fin 32) (n : ℕ) (f : HalfSend → HalfSend) : (State.updHalf s h n f).mem = s.mem := rfl
@[simp] theorem State.updHalf_mbx (s : State) (h : Fin 32) (n : ℕ) (f : HalfSend → HalfSend) : (State.updHalf s h n f).mbx = s.mbx := rfl
@[simp] theorem State.updHalf_hif (s : State) (h : Fin 32) (n : ℕ) (f : HalfSend → HalfSend) : (State.updHalf s h n f).hif = s.hif := rfl
@[simp] theorem State.updHalf_dma (s : State) (h : Fin 32) (n : ℕ) (f : HalfSend → HalfSend) : (State.updHalf s h n f).dma = s.dma := rfl
@[simp] theorem State.updHalf_fsv (s : State) (h : Fin 32) (n : ℕ) (f : HalfSend → HalfSend) : (State.updHalf s h n f).fsv = s.fsv := rfl
@[simp] theorem State.updHalf_lsd (s : State) (h : Fin 32) (n : ℕ) (f : HalfSend → HalfSend) : (State.updHalf s h n f).lsd = s.lsd := rfl
@[simp] theorem State.updHalf_job (s : State) (h : Fin 32) (n : ℕ) (f : HalfSend → HalfSend) : (State.updHalf s h n f).job = s.job := rfl
@[simp] theorem State.updHalf_layout (s : State) (h : Fin 32) (n : ℕ) (f : HalfSend → HalfSend) : (State.updHalf s h n f).layout = s.layout := rfl
@[simp] theorem State.updHalf_hamper (s : State) (h : Fin 32) (n : ℕ) (f : HalfSend → HalfSend) : (State.updHalf s h n f).hamper = s.hamper := rfl
@[simp] theorem State.updHalf_codec (s : State) (h : Fin 32) (n : ℕ) (f : HalfSend → HalfSend) : (State.updHalf s h n f).codec = s.codec := rfl
@[simp] theorem State.updHalf_chk (s : State) (h : Fin 32) (n : ℕ) (f : HalfSend → HalfSend) : (State.updHalf s h n f).chk = s.chk := rfl
@[simp] theorem State.updHalf_txn (s : State) (h : Fin 32) (n : ℕ) (f : HalfSend → HalfSend) : (State.updHalf s h n f).txn = s.txn := rfl
@[simp] theorem State.updHalf_hlk (s : State) (h : Fin 32) (n : ℕ) (f : HalfSend → HalfSend) : (State.updHalf s h n f).hlk = s.hlk := rfl
@[simp] theorem State.updHalf_hac (s : State) (h : Fin 32) (n : ℕ) (f : HalfSend → HalfSend) : (State.updHalf s h n f).hac = s.hac := rfl
@[simp] theorem State.updHalf_chain (s : State) (h : Fin 32) (n : ℕ) (f : HalfSend → HalfSend) : (State.updHalf s h n f).chain = s.chain := rfl
@[simp] theorem State.updHalf_mot (s : State) (h : Fin 32) (n : ℕ) (f : HalfSend → HalfSend) : (State.updHalf s h n f).mot = s.mot := rfl
@[simp] theorem State.updHalf_miu (s : State) (h : Fin 32) (n : ℕ) (f : HalfSend → HalfSend) : (State.updHalf s h n f).miu = s.miu := rfl
@[simp] theorem State.updHalf_clk (s : State) (h : Fin 32) (n : ℕ) (f : HalfSend → HalfSend) : (State.updHalf s h n f).clk = s.clk := rfl
@[simp] theorem State.updHalf_boot (s : State) (h : Fin 32) (n : ℕ) (f : HalfSend → HalfSend) : (State.updHalf s h n f).boot = s.boot := rfl
@[simp] theorem State.updHalf_cal (s : State) (h : Fin 32) (n : ℕ) (f : HalfSend → HalfSend) : (State.updHalf s h n f).cal = s.cal := rfl
@[simp] theorem State.updHalf_mgt (s : State) (h : Fin 32) (n : ℕ) (f : HalfSend → HalfSend) : (State.updHalf s h n f).mgt = s.mgt := rfl
@[simp] theorem State.updHalf_pwr (s : State) (h : Fin 32) (n : ℕ) (f : HalfSend → HalfSend) : (State.updHalf s h n f).pwr = s.pwr := rfl

/-! ### `State.sendBlocks` -/

@[simp] theorem State.sendBlocks_pending (s : State) (l : Fin 32) (b : List (Bool × BitVec 64)) : (State.sendBlocks s l b).pending = s.pending := rfl
@[simp] theorem State.sendBlocks_aon (s : State) (l : Fin 32) (b : List (Bool × BitVec 64)) : (State.sendBlocks s l b).aon = s.aon := rfl
@[simp] theorem State.sendBlocks_free (s : State) (l : Fin 32) (b : List (Bool × BitVec 64)) : (State.sendBlocks s l b).free = s.free := rfl
@[simp] theorem State.sendBlocks_mem (s : State) (l : Fin 32) (b : List (Bool × BitVec 64)) : (State.sendBlocks s l b).mem = s.mem := rfl
@[simp] theorem State.sendBlocks_mbx (s : State) (l : Fin 32) (b : List (Bool × BitVec 64)) : (State.sendBlocks s l b).mbx = s.mbx := rfl
@[simp] theorem State.sendBlocks_hif (s : State) (l : Fin 32) (b : List (Bool × BitVec 64)) : (State.sendBlocks s l b).hif = s.hif := rfl
@[simp] theorem State.sendBlocks_dma (s : State) (l : Fin 32) (b : List (Bool × BitVec 64)) : (State.sendBlocks s l b).dma = s.dma := rfl
@[simp] theorem State.sendBlocks_fsv (s : State) (l : Fin 32) (b : List (Bool × BitVec 64)) : (State.sendBlocks s l b).fsv = s.fsv := rfl
@[simp] theorem State.sendBlocks_lsd (s : State) (l : Fin 32) (b : List (Bool × BitVec 64)) : (State.sendBlocks s l b).lsd = s.lsd := rfl
@[simp] theorem State.sendBlocks_job (s : State) (l : Fin 32) (b : List (Bool × BitVec 64)) : (State.sendBlocks s l b).job = s.job := rfl
@[simp] theorem State.sendBlocks_layout (s : State) (l : Fin 32) (b : List (Bool × BitVec 64)) : (State.sendBlocks s l b).layout = s.layout := rfl
@[simp] theorem State.sendBlocks_hamper (s : State) (l : Fin 32) (b : List (Bool × BitVec 64)) : (State.sendBlocks s l b).hamper = s.hamper := rfl
@[simp] theorem State.sendBlocks_codec (s : State) (l : Fin 32) (b : List (Bool × BitVec 64)) : (State.sendBlocks s l b).codec = s.codec := rfl
@[simp] theorem State.sendBlocks_rows (s : State) (l : Fin 32) (b : List (Bool × BitVec 64)) : (State.sendBlocks s l b).rows = s.rows := rfl
@[simp] theorem State.sendBlocks_chk (s : State) (l : Fin 32) (b : List (Bool × BitVec 64)) : (State.sendBlocks s l b).chk = s.chk := rfl
@[simp] theorem State.sendBlocks_txn (s : State) (l : Fin 32) (b : List (Bool × BitVec 64)) : (State.sendBlocks s l b).txn = s.txn := rfl
@[simp] theorem State.sendBlocks_hlk (s : State) (l : Fin 32) (b : List (Bool × BitVec 64)) : (State.sendBlocks s l b).hlk = s.hlk := rfl
@[simp] theorem State.sendBlocks_hac (s : State) (l : Fin 32) (b : List (Bool × BitVec 64)) : (State.sendBlocks s l b).hac = s.hac := rfl
@[simp] theorem State.sendBlocks_chain (s : State) (l : Fin 32) (b : List (Bool × BitVec 64)) : (State.sendBlocks s l b).chain = s.chain := rfl
@[simp] theorem State.sendBlocks_mot (s : State) (l : Fin 32) (b : List (Bool × BitVec 64)) : (State.sendBlocks s l b).mot = s.mot := rfl
@[simp] theorem State.sendBlocks_miu (s : State) (l : Fin 32) (b : List (Bool × BitVec 64)) : (State.sendBlocks s l b).miu = s.miu := rfl
@[simp] theorem State.sendBlocks_clk (s : State) (l : Fin 32) (b : List (Bool × BitVec 64)) : (State.sendBlocks s l b).clk = s.clk := rfl
@[simp] theorem State.sendBlocks_boot (s : State) (l : Fin 32) (b : List (Bool × BitVec 64)) : (State.sendBlocks s l b).boot = s.boot := rfl
@[simp] theorem State.sendBlocks_cal (s : State) (l : Fin 32) (b : List (Bool × BitVec 64)) : (State.sendBlocks s l b).cal = s.cal := rfl
@[simp] theorem State.sendBlocks_mgt (s : State) (l : Fin 32) (b : List (Bool × BitVec 64)) : (State.sendBlocks s l b).mgt = s.mgt := rfl
@[simp] theorem State.sendBlocks_pwr (s : State) (l : Fin 32) (b : List (Bool × BitVec 64)) : (State.sendBlocks s l b).pwr = s.pwr := rfl

end Sys2Proof.Machine
end

