-- ==== Sys2Proof/Laws/Ops.lean ====
section
/-! SUPPORT. What the shared operations leave alone: one lemma per operation says which parts of the state it never changes. -/

namespace Sys2Proof.Machine

/-! ### Folds and choices -/

theorem foldl_keep {α β : Type} (g : State → β) (f : State → α → State) (h : ∀ s a, g (f s a) = g s) (l : List α) (s : State) :
    g (l.foldl f s) = g s := by
  induction l generalizing s with
  | nil => rfl
  | cons a l ih => rw [List.foldl_cons, ih, h]
@[simp] theorem foldl_pending {α : Type} (f : State → α → State) (l : List α) (s : State) (h : ∀ s a, (f s a).pending = s.pending) :
    (l.foldl f s).pending = s.pending := foldl_keep _ f h l s
@[simp] theorem ite_pending (c : Prop) [Decidable c] (a b : State) : (if c then a else b).pending = if c then a.pending else b.pending := apply_ite _ _ _ _
@[simp] theorem foldl_aon {α : Type} (f : State → α → State) (l : List α) (s : State) (h : ∀ s a, (f s a).aon = s.aon) :
    (l.foldl f s).aon = s.aon := foldl_keep _ f h l s
@[simp] theorem ite_aon (c : Prop) [Decidable c] (a b : State) : (if c then a else b).aon = if c then a.aon else b.aon := apply_ite _ _ _ _
@[simp] theorem foldl_free {α : Type} (f : State → α → State) (l : List α) (s : State) (h : ∀ s a, (f s a).free = s.free) :
    (l.foldl f s).free = s.free := foldl_keep _ f h l s
@[simp] theorem ite_free (c : Prop) [Decidable c] (a b : State) : (if c then a else b).free = if c then a.free else b.free := apply_ite _ _ _ _
@[simp] theorem foldl_wires {α : Type} (f : State → α → State) (l : List α) (s : State) (h : ∀ s a, (f s a).wires = s.wires) :
    (l.foldl f s).wires = s.wires := foldl_keep _ f h l s
@[simp] theorem ite_wires (c : Prop) [Decidable c] (a b : State) : (if c then a else b).wires = if c then a.wires else b.wires := apply_ite _ _ _ _
@[simp] theorem foldl_mem {α : Type} (f : State → α → State) (l : List α) (s : State) (h : ∀ s a, (f s a).mem = s.mem) :
    (l.foldl f s).mem = s.mem := foldl_keep _ f h l s
@[simp] theorem ite_mem (c : Prop) [Decidable c] (a b : State) : (if c then a else b).mem = if c then a.mem else b.mem := apply_ite _ _ _ _
@[simp] theorem foldl_mbx {α : Type} (f : State → α → State) (l : List α) (s : State) (h : ∀ s a, (f s a).mbx = s.mbx) :
    (l.foldl f s).mbx = s.mbx := foldl_keep _ f h l s
@[simp] theorem ite_mbx (c : Prop) [Decidable c] (a b : State) : (if c then a else b).mbx = if c then a.mbx else b.mbx := apply_ite _ _ _ _
@[simp] theorem foldl_hif {α : Type} (f : State → α → State) (l : List α) (s : State) (h : ∀ s a, (f s a).hif = s.hif) :
    (l.foldl f s).hif = s.hif := foldl_keep _ f h l s
@[simp] theorem ite_hif (c : Prop) [Decidable c] (a b : State) : (if c then a else b).hif = if c then a.hif else b.hif := apply_ite _ _ _ _
@[simp] theorem foldl_dma {α : Type} (f : State → α → State) (l : List α) (s : State) (h : ∀ s a, (f s a).dma = s.dma) :
    (l.foldl f s).dma = s.dma := foldl_keep _ f h l s
@[simp] theorem ite_dma (c : Prop) [Decidable c] (a b : State) : (if c then a else b).dma = if c then a.dma else b.dma := apply_ite _ _ _ _
@[simp] theorem foldl_fsv {α : Type} (f : State → α → State) (l : List α) (s : State) (h : ∀ s a, (f s a).fsv = s.fsv) :
    (l.foldl f s).fsv = s.fsv := foldl_keep _ f h l s
@[simp] theorem ite_fsv (c : Prop) [Decidable c] (a b : State) : (if c then a else b).fsv = if c then a.fsv else b.fsv := apply_ite _ _ _ _
@[simp] theorem foldl_lsd {α : Type} (f : State → α → State) (l : List α) (s : State) (h : ∀ s a, (f s a).lsd = s.lsd) :
    (l.foldl f s).lsd = s.lsd := foldl_keep _ f h l s
@[simp] theorem ite_lsd (c : Prop) [Decidable c] (a b : State) : (if c then a else b).lsd = if c then a.lsd else b.lsd := apply_ite _ _ _ _
@[simp] theorem foldl_job {α : Type} (f : State → α → State) (l : List α) (s : State) (h : ∀ s a, (f s a).job = s.job) :
    (l.foldl f s).job = s.job := foldl_keep _ f h l s
@[simp] theorem ite_job (c : Prop) [Decidable c] (a b : State) : (if c then a else b).job = if c then a.job else b.job := apply_ite _ _ _ _
@[simp] theorem foldl_layout {α : Type} (f : State → α → State) (l : List α) (s : State) (h : ∀ s a, (f s a).layout = s.layout) :
    (l.foldl f s).layout = s.layout := foldl_keep _ f h l s
@[simp] theorem ite_layout (c : Prop) [Decidable c] (a b : State) : (if c then a else b).layout = if c then a.layout else b.layout := apply_ite _ _ _ _
@[simp] theorem foldl_hamper {α : Type} (f : State → α → State) (l : List α) (s : State) (h : ∀ s a, (f s a).hamper = s.hamper) :
    (l.foldl f s).hamper = s.hamper := foldl_keep _ f h l s
@[simp] theorem ite_hamper (c : Prop) [Decidable c] (a b : State) : (if c then a else b).hamper = if c then a.hamper else b.hamper := apply_ite _ _ _ _
@[simp] theorem foldl_codec {α : Type} (f : State → α → State) (l : List α) (s : State) (h : ∀ s a, (f s a).codec = s.codec) :
    (l.foldl f s).codec = s.codec := foldl_keep _ f h l s
@[simp] theorem ite_codec (c : Prop) [Decidable c] (a b : State) : (if c then a else b).codec = if c then a.codec else b.codec := apply_ite _ _ _ _
@[simp] theorem foldl_rows {α : Type} (f : State → α → State) (l : List α) (s : State) (h : ∀ s a, (f s a).rows = s.rows) :
    (l.foldl f s).rows = s.rows := foldl_keep _ f h l s
@[simp] theorem ite_rows (c : Prop) [Decidable c] (a b : State) : (if c then a else b).rows = if c then a.rows else b.rows := apply_ite _ _ _ _
@[simp] theorem foldl_chk {α : Type} (f : State → α → State) (l : List α) (s : State) (h : ∀ s a, (f s a).chk = s.chk) :
    (l.foldl f s).chk = s.chk := foldl_keep _ f h l s
@[simp] theorem ite_chk (c : Prop) [Decidable c] (a b : State) : (if c then a else b).chk = if c then a.chk else b.chk := apply_ite _ _ _ _
@[simp] theorem foldl_txn {α : Type} (f : State → α → State) (l : List α) (s : State) (h : ∀ s a, (f s a).txn = s.txn) :
    (l.foldl f s).txn = s.txn := foldl_keep _ f h l s
@[simp] theorem ite_txn (c : Prop) [Decidable c] (a b : State) : (if c then a else b).txn = if c then a.txn else b.txn := apply_ite _ _ _ _
@[simp] theorem foldl_hlk {α : Type} (f : State → α → State) (l : List α) (s : State) (h : ∀ s a, (f s a).hlk = s.hlk) :
    (l.foldl f s).hlk = s.hlk := foldl_keep _ f h l s
@[simp] theorem ite_hlk (c : Prop) [Decidable c] (a b : State) : (if c then a else b).hlk = if c then a.hlk else b.hlk := apply_ite _ _ _ _
@[simp] theorem foldl_hac {α : Type} (f : State → α → State) (l : List α) (s : State) (h : ∀ s a, (f s a).hac = s.hac) :
    (l.foldl f s).hac = s.hac := foldl_keep _ f h l s
@[simp] theorem ite_hac (c : Prop) [Decidable c] (a b : State) : (if c then a else b).hac = if c then a.hac else b.hac := apply_ite _ _ _ _
@[simp] theorem foldl_chain {α : Type} (f : State → α → State) (l : List α) (s : State) (h : ∀ s a, (f s a).chain = s.chain) :
    (l.foldl f s).chain = s.chain := foldl_keep _ f h l s
@[simp] theorem ite_chain (c : Prop) [Decidable c] (a b : State) : (if c then a else b).chain = if c then a.chain else b.chain := apply_ite _ _ _ _
@[simp] theorem foldl_mot {α : Type} (f : State → α → State) (l : List α) (s : State) (h : ∀ s a, (f s a).mot = s.mot) :
    (l.foldl f s).mot = s.mot := foldl_keep _ f h l s
@[simp] theorem ite_mot (c : Prop) [Decidable c] (a b : State) : (if c then a else b).mot = if c then a.mot else b.mot := apply_ite _ _ _ _
@[simp] theorem foldl_miu {α : Type} (f : State → α → State) (l : List α) (s : State) (h : ∀ s a, (f s a).miu = s.miu) :
    (l.foldl f s).miu = s.miu := foldl_keep _ f h l s
@[simp] theorem ite_miu (c : Prop) [Decidable c] (a b : State) : (if c then a else b).miu = if c then a.miu else b.miu := apply_ite _ _ _ _
@[simp] theorem foldl_clk {α : Type} (f : State → α → State) (l : List α) (s : State) (h : ∀ s a, (f s a).clk = s.clk) :
    (l.foldl f s).clk = s.clk := foldl_keep _ f h l s
@[simp] theorem ite_clk (c : Prop) [Decidable c] (a b : State) : (if c then a else b).clk = if c then a.clk else b.clk := apply_ite _ _ _ _
@[simp] theorem foldl_boot {α : Type} (f : State → α → State) (l : List α) (s : State) (h : ∀ s a, (f s a).boot = s.boot) :
    (l.foldl f s).boot = s.boot := foldl_keep _ f h l s
@[simp] theorem ite_boot (c : Prop) [Decidable c] (a b : State) : (if c then a else b).boot = if c then a.boot else b.boot := apply_ite _ _ _ _
@[simp] theorem foldl_cal {α : Type} (f : State → α → State) (l : List α) (s : State) (h : ∀ s a, (f s a).cal = s.cal) :
    (l.foldl f s).cal = s.cal := foldl_keep _ f h l s
@[simp] theorem ite_cal (c : Prop) [Decidable c] (a b : State) : (if c then a else b).cal = if c then a.cal else b.cal := apply_ite _ _ _ _
@[simp] theorem foldl_mgt {α : Type} (f : State → α → State) (l : List α) (s : State) (h : ∀ s a, (f s a).mgt = s.mgt) :
    (l.foldl f s).mgt = s.mgt := foldl_keep _ f h l s
@[simp] theorem ite_mgt (c : Prop) [Decidable c] (a b : State) : (if c then a else b).mgt = if c then a.mgt else b.mgt := apply_ite _ _ _ _
@[simp] theorem foldl_pwr {α : Type} (f : State → α → State) (l : List α) (s : State) (h : ∀ s a, (f s a).pwr = s.pwr) :
    (l.foldl f s).pwr = s.pwr := foldl_keep _ f h l s
@[simp] theorem ite_pwr (c : Prop) [Decidable c] (a b : State) : (if c then a else b).pwr = if c then a.pwr else b.pwr := apply_ite _ _ _ _

/-! ### Operations -/

@[simp] theorem State.traffic_frame (s : State) (n : ℕ) (host : Bool) :
    (State.traffic s n host).pending = s.pending ∧ (State.traffic s n host).aon = s.aon ∧ (State.traffic s n host).free = s.free ∧
    (State.traffic s n host).wires = s.wires ∧ (State.traffic s n host).mem = s.mem ∧ (State.traffic s n host).mbx = s.mbx ∧
    (State.traffic s n host).hif = s.hif ∧ (State.traffic s n host).dma = s.dma ∧ (State.traffic s n host).fsv = s.fsv ∧
    (State.traffic s n host).lsd = s.lsd ∧ (State.traffic s n host).job = s.job ∧ (State.traffic s n host).layout = s.layout ∧
    (State.traffic s n host).hamper = s.hamper ∧ (State.traffic s n host).codec = s.codec ∧ (State.traffic s n host).rows = s.rows ∧
    (State.traffic s n host).chk = s.chk ∧ (State.traffic s n host).txn = s.txn ∧ (State.traffic s n host).hlk = s.hlk ∧
    (State.traffic s n host).hac = s.hac ∧ (State.traffic s n host).chain = s.chain ∧ (State.traffic s n host).mot = s.mot ∧
    (State.traffic s n host).clk = s.clk ∧ (State.traffic s n host).boot = s.boot ∧ (State.traffic s n host).cal = s.cal ∧
    (State.traffic s n host).mgt = s.mgt ∧ (State.traffic s n host).pwr = s.pwr := ⟨rfl, rfl, rfl, rfl, rfl, rfl, rfl, rfl, rfl, rfl, rfl, rfl, rfl, rfl, rfl, rfl, rfl, rfl, rfl, rfl, rfl, rfl, rfl, rfl, rfl, rfl⟩

@[simp] theorem State.resolve_frame (s : State) (o : Origin) (st : Status) (detail : ℕ) (payload : List Byte) :
    (State.resolve s o st detail payload).pending = s.pending ∧ (State.resolve s o st detail payload).aon = s.aon ∧
    (State.resolve s o st detail payload).free = s.free ∧ (State.resolve s o st detail payload).wires = s.wires ∧
    (State.resolve s o st detail payload).mem = s.mem ∧ (State.resolve s o st detail payload).hif = s.hif ∧
    (State.resolve s o st detail payload).dma = s.dma ∧ (State.resolve s o st detail payload).fsv = s.fsv ∧
    (State.resolve s o st detail payload).lsd = s.lsd ∧ (State.resolve s o st detail payload).job = s.job ∧
    (State.resolve s o st detail payload).layout = s.layout ∧ (State.resolve s o st detail payload).hamper = s.hamper ∧
    (State.resolve s o st detail payload).codec = s.codec ∧ (State.resolve s o st detail payload).rows = s.rows ∧
    (State.resolve s o st detail payload).chk = s.chk ∧ (State.resolve s o st detail payload).txn = s.txn ∧
    (State.resolve s o st detail payload).hlk = s.hlk ∧ (State.resolve s o st detail payload).hac = s.hac ∧
    (State.resolve s o st detail payload).chain = s.chain ∧ (State.resolve s o st detail payload).mot = s.mot ∧
    (State.resolve s o st detail payload).miu = s.miu ∧ (State.resolve s o st detail payload).clk = s.clk ∧
    (State.resolve s o st detail payload).boot = s.boot ∧ (State.resolve s o st detail payload).cal = s.cal ∧
    (State.resolve s o st detail payload).mgt = s.mgt ∧ (State.resolve s o st detail payload).pwr = s.pwr := by
  generalize h : State.resolve s o st detail payload = u
  unfold State.resolve at h
  dsimp only at h
  (repeat' split at h) <;> subst h <;> simp

@[simp] theorem State.result_frame (s : State) (o : Option Origin) (code : BitVec 16) (cls : Fin 4) (st : Status) (detail : ℕ) (data : List DataField) (final : (Option Status)) :
    (State.result s o code cls st detail data final).pending = s.pending ∧ (State.result s o code cls st detail data final).aon = s.aon ∧
    (State.result s o code cls st detail data final).free = s.free ∧ (State.result s o code cls st detail data final).wires = s.wires ∧
    (State.result s o code cls st detail data final).mem = s.mem ∧ (State.result s o code cls st detail data final).hif = s.hif ∧
    (State.result s o code cls st detail data final).dma = s.dma ∧ (State.result s o code cls st detail data final).fsv = s.fsv ∧
    (State.result s o code cls st detail data final).lsd = s.lsd ∧ (State.result s o code cls st detail data final).job = s.job ∧
    (State.result s o code cls st detail data final).layout = s.layout ∧ (State.result s o code cls st detail data final).hamper = s.hamper ∧
    (State.result s o code cls st detail data final).codec = s.codec ∧ (State.result s o code cls st detail data final).rows = s.rows ∧
    (State.result s o code cls st detail data final).chk = s.chk ∧ (State.result s o code cls st detail data final).txn = s.txn ∧
    (State.result s o code cls st detail data final).hlk = s.hlk ∧ (State.result s o code cls st detail data final).hac = s.hac ∧
    (State.result s o code cls st detail data final).chain = s.chain ∧ (State.result s o code cls st detail data final).mot = s.mot ∧
    (State.result s o code cls st detail data final).miu = s.miu ∧ (State.result s o code cls st detail data final).clk = s.clk ∧
    (State.result s o code cls st detail data final).boot = s.boot ∧ (State.result s o code cls st detail data final).cal = s.cal ∧
    (State.result s o code cls st detail data final).mgt = s.mgt ∧ (State.result s o code cls st detail data final).pwr = s.pwr := by
  generalize h : State.result s o code cls st detail data final = u
  unfold State.result at h
  (repeat' split at h) <;> subst h <;> simp

@[simp] theorem State.jobResult_frame (s : State) (o : Option Origin) (state : JobState) (reason : Byte) (st : Status) (detail : ℕ) :
    (State.jobResult s o state reason st detail).pending = s.pending ∧ (State.jobResult s o state reason st detail).aon = s.aon ∧
    (State.jobResult s o state reason st detail).free = s.free ∧ (State.jobResult s o state reason st detail).wires = s.wires ∧
    (State.jobResult s o state reason st detail).mem = s.mem ∧ (State.jobResult s o state reason st detail).hif = s.hif ∧
    (State.jobResult s o state reason st detail).dma = s.dma ∧ (State.jobResult s o state reason st detail).fsv = s.fsv ∧
    (State.jobResult s o state reason st detail).lsd = s.lsd ∧ (State.jobResult s o state reason st detail).job = s.job ∧
    (State.jobResult s o state reason st detail).layout = s.layout ∧ (State.jobResult s o state reason st detail).hamper = s.hamper ∧
    (State.jobResult s o state reason st detail).codec = s.codec ∧ (State.jobResult s o state reason st detail).rows = s.rows ∧
    (State.jobResult s o state reason st detail).chk = s.chk ∧ (State.jobResult s o state reason st detail).txn = s.txn ∧
    (State.jobResult s o state reason st detail).hlk = s.hlk ∧ (State.jobResult s o state reason st detail).hac = s.hac ∧
    (State.jobResult s o state reason st detail).chain = s.chain ∧ (State.jobResult s o state reason st detail).mot = s.mot ∧
    (State.jobResult s o state reason st detail).miu = s.miu ∧ (State.jobResult s o state reason st detail).clk = s.clk ∧
    (State.jobResult s o state reason st detail).boot = s.boot ∧ (State.jobResult s o state reason st detail).cal = s.cal ∧
    (State.jobResult s o state reason st detail).mgt = s.mgt ∧ (State.jobResult s o state reason st detail).pwr = s.pwr := by
  generalize h : State.jobResult s o state reason st detail = u
  unfold State.jobResult at h
  subst h
  simp

@[simp] theorem State.logWrite_frame (s : State) (r0 : LogRec) :
    (State.logWrite s r0).pending = s.pending ∧ (State.logWrite s r0).aon = s.aon ∧ (State.logWrite s r0).free = s.free ∧
    (State.logWrite s r0).wires = s.wires ∧ (State.logWrite s r0).mem = s.mem ∧ (State.logWrite s r0).mbx = s.mbx ∧
    (State.logWrite s r0).hif = s.hif ∧ (State.logWrite s r0).lsd = s.lsd ∧ (State.logWrite s r0).job = s.job ∧
    (State.logWrite s r0).layout = s.layout ∧ (State.logWrite s r0).hamper = s.hamper ∧ (State.logWrite s r0).codec = s.codec ∧
    (State.logWrite s r0).rows = s.rows ∧ (State.logWrite s r0).chk = s.chk ∧ (State.logWrite s r0).txn = s.txn ∧
    (State.logWrite s r0).hlk = s.hlk ∧ (State.logWrite s r0).hac = s.hac ∧ (State.logWrite s r0).chain = s.chain ∧
    (State.logWrite s r0).mot = s.mot ∧ (State.logWrite s r0).miu = s.miu ∧ (State.logWrite s r0).clk = s.clk ∧
    (State.logWrite s r0).boot = s.boot ∧ (State.logWrite s r0).cal = s.cal ∧ (State.logWrite s r0).pwr = s.pwr := by
  generalize h : State.logWrite s r0 = u
  unfold State.logWrite at h
  subst h
  simp

@[simp] theorem State.logStop_frame (s : State) (reason : Byte) (fclass : Byte) :
    (State.logStop s reason fclass).pending = s.pending ∧ (State.logStop s reason fclass).aon = s.aon ∧
    (State.logStop s reason fclass).free = s.free ∧ (State.logStop s reason fclass).wires = s.wires ∧
    (State.logStop s reason fclass).mem = s.mem ∧ (State.logStop s reason fclass).mbx = s.mbx ∧ (State.logStop s reason fclass).hif = s.hif ∧
    (State.logStop s reason fclass).lsd = s.lsd ∧ (State.logStop s reason fclass).job = s.job ∧
    (State.logStop s reason fclass).layout = s.layout ∧ (State.logStop s reason fclass).hamper = s.hamper ∧
    (State.logStop s reason fclass).codec = s.codec ∧ (State.logStop s reason fclass).rows = s.rows ∧
    (State.logStop s reason fclass).chk = s.chk ∧ (State.logStop s reason fclass).txn = s.txn ∧ (State.logStop s reason fclass).hlk = s.hlk ∧
    (State.logStop s reason fclass).hac = s.hac ∧ (State.logStop s reason fclass).chain = s.chain ∧
    (State.logStop s reason fclass).mot = s.mot ∧ (State.logStop s reason fclass).miu = s.miu ∧ (State.logStop s reason fclass).clk = s.clk ∧
    (State.logStop s reason fclass).boot = s.boot ∧ (State.logStop s reason fclass).cal = s.cal ∧ (State.logStop s reason fclass).pwr = s.pwr := ⟨rfl, rfl, rfl, rfl, rfl, rfl, rfl, rfl, rfl, rfl, rfl, rfl, rfl, rfl, rfl, rfl, rfl, rfl, rfl, rfl, rfl, rfl, rfl, rfl⟩

@[simp] theorem State.armEnd_frame (s : State) (reason : Byte) (st : Status) (detail : ℕ) (fclass : Byte) :
    (State.armEnd s reason st detail fclass).pending = s.pending ∧ (State.armEnd s reason st detail fclass).aon = s.aon ∧
    (State.armEnd s reason st detail fclass).free = s.free ∧ (State.armEnd s reason st detail fclass).wires = s.wires ∧
    (State.armEnd s reason st detail fclass).mem = s.mem ∧ (State.armEnd s reason st detail fclass).hif = s.hif ∧
    (State.armEnd s reason st detail fclass).lsd = s.lsd ∧ (State.armEnd s reason st detail fclass).layout = s.layout ∧
    (State.armEnd s reason st detail fclass).codec = s.codec ∧ (State.armEnd s reason st detail fclass).rows = s.rows ∧
    (State.armEnd s reason st detail fclass).chk = s.chk ∧ (State.armEnd s reason st detail fclass).txn = s.txn ∧
    (State.armEnd s reason st detail fclass).hlk = s.hlk ∧ (State.armEnd s reason st detail fclass).hac = s.hac ∧
    (State.armEnd s reason st detail fclass).chain = s.chain ∧ (State.armEnd s reason st detail fclass).mot = s.mot ∧
    (State.armEnd s reason st detail fclass).miu = s.miu ∧ (State.armEnd s reason st detail fclass).clk = s.clk ∧
    (State.armEnd s reason st detail fclass).boot = s.boot ∧ (State.armEnd s reason st detail fclass).cal = s.cal ∧
    (State.armEnd s reason st detail fclass).pwr = s.pwr := by
  generalize h : State.armEnd s reason st detail fclass = u
  unfold State.armEnd at h
  subst h
  simp

@[simp] theorem State.setHop_frame (s : State) (side : Side) (h : Hop) :
    (State.setHop s side h).pending = s.pending ∧ (State.setHop s side h).aon = s.aon ∧ (State.setHop s side h).free = s.free ∧
    (State.setHop s side h).wires = s.wires ∧ (State.setHop s side h).mem = s.mem ∧ (State.setHop s side h).mbx = s.mbx ∧
    (State.setHop s side h).hif = s.hif ∧ (State.setHop s side h).dma = s.dma ∧ (State.setHop s side h).fsv = s.fsv ∧
    (State.setHop s side h).lsd = s.lsd ∧ (State.setHop s side h).job = s.job ∧ (State.setHop s side h).layout = s.layout ∧
    (State.setHop s side h).hamper = s.hamper ∧ (State.setHop s side h).codec = s.codec ∧ (State.setHop s side h).rows = s.rows ∧
    (State.setHop s side h).chk = s.chk ∧ (State.setHop s side h).txn = s.txn ∧ (State.setHop s side h).hlk = s.hlk ∧
    (State.setHop s side h).hac = s.hac ∧ (State.setHop s side h).mot = s.mot ∧ (State.setHop s side h).miu = s.miu ∧
    (State.setHop s side h).clk = s.clk ∧ (State.setHop s side h).boot = s.boot ∧ (State.setHop s side h).cal = s.cal ∧
    (State.setHop s side h).mgt = s.mgt ∧ (State.setHop s side h).pwr = s.pwr := by
  generalize h : State.setHop s side h = u
  unfold State.setHop at h
  (repeat' split at h) <;> subst h <;> simp

@[simp] theorem State.laneOut_frame (s : State) (l : Fin 34) (b : List (Bool × BitVec 64)) :
    (s.laneOut l b).pending = s.pending ∧ (s.laneOut l b).aon = s.aon ∧ (s.laneOut l b).free = s.free ∧ (s.laneOut l b).mem = s.mem ∧
    (s.laneOut l b).mbx = s.mbx ∧ (s.laneOut l b).hif = s.hif ∧ (s.laneOut l b).dma = s.dma ∧ (s.laneOut l b).fsv = s.fsv ∧
    (s.laneOut l b).lsd = s.lsd ∧ (s.laneOut l b).job = s.job ∧ (s.laneOut l b).layout = s.layout ∧ (s.laneOut l b).hamper = s.hamper ∧
    (s.laneOut l b).codec = s.codec ∧ (s.laneOut l b).rows = s.rows ∧ (s.laneOut l b).chk = s.chk ∧ (s.laneOut l b).txn = s.txn ∧
    (s.laneOut l b).hlk = s.hlk ∧ (s.laneOut l b).hac = s.hac ∧ (s.laneOut l b).chain = s.chain ∧ (s.laneOut l b).mot = s.mot ∧
    (s.laneOut l b).miu = s.miu ∧ (s.laneOut l b).clk = s.clk ∧ (s.laneOut l b).boot = s.boot ∧ (s.laneOut l b).cal = s.cal ∧
    (s.laneOut l b).mgt = s.mgt ∧ (s.laneOut l b).pwr = s.pwr := by
  simp [State.laneOut]

@[simp] theorem State.chainPump_frame (s : State) (side : Side) :
    (State.chainPump s side).pending = s.pending ∧ (State.chainPump s side).aon = s.aon ∧ (State.chainPump s side).free = s.free ∧
    (State.chainPump s side).mem = s.mem ∧ (State.chainPump s side).mbx = s.mbx ∧ (State.chainPump s side).hif = s.hif ∧
    (State.chainPump s side).dma = s.dma ∧ (State.chainPump s side).fsv = s.fsv ∧ (State.chainPump s side).lsd = s.lsd ∧
    (State.chainPump s side).job = s.job ∧ (State.chainPump s side).layout = s.layout ∧ (State.chainPump s side).hamper = s.hamper ∧
    (State.chainPump s side).codec = s.codec ∧ (State.chainPump s side).rows = s.rows ∧ (State.chainPump s side).chk = s.chk ∧
    (State.chainPump s side).txn = s.txn ∧ (State.chainPump s side).hlk = s.hlk ∧ (State.chainPump s side).hac = s.hac ∧
    (State.chainPump s side).mot = s.mot ∧ (State.chainPump s side).miu = s.miu ∧ (State.chainPump s side).clk = s.clk ∧
    (State.chainPump s side).boot = s.boot ∧ (State.chainPump s side).cal = s.cal ∧ (State.chainPump s side).mgt = s.mgt ∧
    (State.chainPump s side).pwr = s.pwr := by
  generalize h : State.chainPump s side = u
  unfold State.chainPump at h
  dsimp only at h
  (repeat' split at h) <;> subst h <;> simp

@[simp] theorem State.chainTo_frame (s : State) (side : Side) (m : ChainMsg) :
    (State.chainTo s side m).pending = s.pending ∧ (State.chainTo s side m).aon = s.aon ∧ (State.chainTo s side m).free = s.free ∧
    (State.chainTo s side m).mem = s.mem ∧ (State.chainTo s side m).mbx = s.mbx ∧ (State.chainTo s side m).hif = s.hif ∧
    (State.chainTo s side m).dma = s.dma ∧ (State.chainTo s side m).fsv = s.fsv ∧ (State.chainTo s side m).lsd = s.lsd ∧
    (State.chainTo s side m).job = s.job ∧ (State.chainTo s side m).layout = s.layout ∧ (State.chainTo s side m).hamper = s.hamper ∧
    (State.chainTo s side m).codec = s.codec ∧ (State.chainTo s side m).rows = s.rows ∧ (State.chainTo s side m).chk = s.chk ∧
    (State.chainTo s side m).txn = s.txn ∧ (State.chainTo s side m).hlk = s.hlk ∧ (State.chainTo s side m).hac = s.hac ∧
    (State.chainTo s side m).mot = s.mot ∧ (State.chainTo s side m).miu = s.miu ∧ (State.chainTo s side m).clk = s.clk ∧
    (State.chainTo s side m).boot = s.boot ∧ (State.chainTo s side m).cal = s.cal ∧ (State.chainTo s side m).mgt = s.mgt ∧
    (State.chainTo s side m).pwr = s.pwr := by
  generalize h : State.chainTo s side m = u
  unfold State.chainTo at h
  (repeat' split at h) <;> subst h <;> simp

@[simp] theorem State.activate_frame (s : State) (l : Fin 32) :
    (State.activate s l).pending = s.pending ∧ (State.activate s l).aon = s.aon ∧ (State.activate s l).free = s.free ∧
    (State.activate s l).wires = s.wires ∧ (State.activate s l).mem = s.mem ∧ (State.activate s l).mbx = s.mbx ∧
    (State.activate s l).hif = s.hif ∧ (State.activate s l).dma = s.dma ∧ (State.activate s l).fsv = s.fsv ∧ (State.activate s l).lsd = s.lsd ∧
    (State.activate s l).job = s.job ∧ (State.activate s l).layout = s.layout ∧ (State.activate s l).hamper = s.hamper ∧
    (State.activate s l).codec = s.codec ∧ (State.activate s l).rows = s.rows ∧ (State.activate s l).chk = s.chk ∧
    (State.activate s l).txn = s.txn ∧ (State.activate s l).hac = s.hac ∧ (State.activate s l).chain = s.chain ∧
    (State.activate s l).mot = s.mot ∧ (State.activate s l).miu = s.miu ∧ (State.activate s l).clk = s.clk ∧
    (State.activate s l).boot = s.boot ∧ (State.activate s l).cal = s.cal ∧ (State.activate s l).mgt = s.mgt ∧ (State.activate s l).pwr = s.pwr := by
  generalize h : State.activate s l = u
  unfold State.activate at h
  (repeat' split at h) <;> subst h <;> simp

@[simp] theorem State.hmcSend_frame (s : State) (c : Fin 4) (msg : List Byte) :
    (s.hmcSend c msg).pending = s.pending ∧ (s.hmcSend c msg).aon = s.aon ∧ (s.hmcSend c msg).free = s.free ∧
    (s.hmcSend c msg).mem = s.mem ∧ (s.hmcSend c msg).mbx = s.mbx ∧ (s.hmcSend c msg).hif = s.hif ∧ (s.hmcSend c msg).dma = s.dma ∧
    (s.hmcSend c msg).fsv = s.fsv ∧ (s.hmcSend c msg).lsd = s.lsd ∧ (s.hmcSend c msg).job = s.job ∧ (s.hmcSend c msg).layout = s.layout ∧
    (s.hmcSend c msg).hamper = s.hamper ∧ (s.hmcSend c msg).codec = s.codec ∧ (s.hmcSend c msg).rows = s.rows ∧
    (s.hmcSend c msg).chk = s.chk ∧ (s.hmcSend c msg).txn = s.txn ∧ (s.hmcSend c msg).hlk = s.hlk ∧ (s.hmcSend c msg).hac = s.hac ∧
    (s.hmcSend c msg).chain = s.chain ∧ (s.hmcSend c msg).mot = s.mot ∧ (s.hmcSend c msg).miu = s.miu ∧ (s.hmcSend c msg).clk = s.clk ∧
    (s.hmcSend c msg).boot = s.boot ∧ (s.hmcSend c msg).cal = s.cal ∧ (s.hmcSend c msg).mgt = s.mgt ∧ (s.hmcSend c msg).pwr = s.pwr := by
  unfold State.hmcSend
  split <;> simp

@[simp] theorem State.hmcPump_frame (s : State) (c : Fin 4) :
    (State.hmcPump s c).pending = s.pending ∧ (State.hmcPump s c).aon = s.aon ∧ (State.hmcPump s c).free = s.free ∧
    (State.hmcPump s c).mem = s.mem ∧ (State.hmcPump s c).mbx = s.mbx ∧ (State.hmcPump s c).hif = s.hif ∧ (State.hmcPump s c).dma = s.dma ∧
    (State.hmcPump s c).fsv = s.fsv ∧ (State.hmcPump s c).lsd = s.lsd ∧ (State.hmcPump s c).job = s.job ∧
    (State.hmcPump s c).layout = s.layout ∧ (State.hmcPump s c).hamper = s.hamper ∧ (State.hmcPump s c).codec = s.codec ∧
    (State.hmcPump s c).rows = s.rows ∧ (State.hmcPump s c).chk = s.chk ∧ (State.hmcPump s c).txn = s.txn ∧ (State.hmcPump s c).hac = s.hac ∧
    (State.hmcPump s c).chain = s.chain ∧ (State.hmcPump s c).mot = s.mot ∧ (State.hmcPump s c).miu = s.miu ∧ (State.hmcPump s c).clk = s.clk ∧
    (State.hmcPump s c).boot = s.boot ∧ (State.hmcPump s c).cal = s.cal ∧ (State.hmcPump s c).mgt = s.mgt ∧ (State.hmcPump s c).pwr = s.pwr := by
  generalize h : State.hmcPump s c = u
  unfold State.hmcPump at h
  dsimp only at h
  (repeat' split at h) <;> subst h <;> simp

@[simp] theorem State.hmcAsk_frame (s : State) (c : Fin 4) (q : HmcReq) :
    (State.hmcAsk s c q).pending = s.pending ∧ (State.hmcAsk s c q).aon = s.aon ∧ (State.hmcAsk s c q).free = s.free ∧
    (State.hmcAsk s c q).mem = s.mem ∧ (State.hmcAsk s c q).mbx = s.mbx ∧ (State.hmcAsk s c q).hif = s.hif ∧ (State.hmcAsk s c q).dma = s.dma ∧
    (State.hmcAsk s c q).fsv = s.fsv ∧ (State.hmcAsk s c q).lsd = s.lsd ∧ (State.hmcAsk s c q).job = s.job ∧
    (State.hmcAsk s c q).layout = s.layout ∧ (State.hmcAsk s c q).hamper = s.hamper ∧ (State.hmcAsk s c q).codec = s.codec ∧
    (State.hmcAsk s c q).rows = s.rows ∧ (State.hmcAsk s c q).chk = s.chk ∧ (State.hmcAsk s c q).txn = s.txn ∧
    (State.hmcAsk s c q).hac = s.hac ∧ (State.hmcAsk s c q).chain = s.chain ∧ (State.hmcAsk s c q).mot = s.mot ∧
    (State.hmcAsk s c q).miu = s.miu ∧ (State.hmcAsk s c q).clk = s.clk ∧ (State.hmcAsk s c q).boot = s.boot ∧
    (State.hmcAsk s c q).cal = s.cal ∧ (State.hmcAsk s c q).mgt = s.mgt ∧ (State.hmcAsk s c q).pwr = s.pwr := by
  generalize h : State.hmcAsk s c q = u
  unfold State.hmcAsk at h
  subst h
  simp

@[simp] theorem State.identify_frame (s : State) (c : Fin 4) :
    (State.identify s c).pending = s.pending ∧ (State.identify s c).aon = s.aon ∧ (State.identify s c).free = s.free ∧
    (State.identify s c).mem = s.mem ∧ (State.identify s c).mbx = s.mbx ∧ (State.identify s c).hif = s.hif ∧ (State.identify s c).dma = s.dma ∧
    (State.identify s c).fsv = s.fsv ∧ (State.identify s c).lsd = s.lsd ∧ (State.identify s c).job = s.job ∧
    (State.identify s c).layout = s.layout ∧ (State.identify s c).hamper = s.hamper ∧ (State.identify s c).codec = s.codec ∧
    (State.identify s c).rows = s.rows ∧ (State.identify s c).chk = s.chk ∧ (State.identify s c).txn = s.txn ∧
    (State.identify s c).hac = s.hac ∧ (State.identify s c).chain = s.chain ∧ (State.identify s c).mot = s.mot ∧
    (State.identify s c).miu = s.miu ∧ (State.identify s c).clk = s.clk ∧ (State.identify s c).boot = s.boot ∧
    (State.identify s c).cal = s.cal ∧ (State.identify s c).mgt = s.mgt ∧ (State.identify s c).pwr = s.pwr := by
  generalize h : State.identify s c = u
  unfold State.identify at h
  subst h
  simp

@[simp] theorem State.wakeOne_frame (s : State) (c : Fin 4) (st : Status) (code : ℕ) (stage : ℕ) (cause : ℕ) (lanes : ℕ) (w : WakeReq) :
    (State.wakeOne s c st code stage cause lanes w).pending = s.pending ∧ (State.wakeOne s c st code stage cause lanes w).aon = s.aon ∧
    (State.wakeOne s c st code stage cause lanes w).free = s.free ∧ (State.wakeOne s c st code stage cause lanes w).wires = s.wires ∧
    (State.wakeOne s c st code stage cause lanes w).mem = s.mem ∧ (State.wakeOne s c st code stage cause lanes w).hif = s.hif ∧
    (State.wakeOne s c st code stage cause lanes w).dma = s.dma ∧ (State.wakeOne s c st code stage cause lanes w).fsv = s.fsv ∧
    (State.wakeOne s c st code stage cause lanes w).lsd = s.lsd ∧ (State.wakeOne s c st code stage cause lanes w).job = s.job ∧
    (State.wakeOne s c st code stage cause lanes w).layout = s.layout ∧ (State.wakeOne s c st code stage cause lanes w).hamper = s.hamper ∧
    (State.wakeOne s c st code stage cause lanes w).codec = s.codec ∧ (State.wakeOne s c st code stage cause lanes w).rows = s.rows ∧
    (State.wakeOne s c st code stage cause lanes w).chk = s.chk ∧ (State.wakeOne s c st code stage cause lanes w).txn = s.txn ∧
    (State.wakeOne s c st code stage cause lanes w).hac = s.hac ∧ (State.wakeOne s c st code stage cause lanes w).chain = s.chain ∧
    (State.wakeOne s c st code stage cause lanes w).mot = s.mot ∧ (State.wakeOne s c st code stage cause lanes w).miu = s.miu ∧
    (State.wakeOne s c st code stage cause lanes w).clk = s.clk ∧ (State.wakeOne s c st code stage cause lanes w).boot = s.boot ∧
    (State.wakeOne s c st code stage cause lanes w).cal = s.cal ∧ (State.wakeOne s c st code stage cause lanes w).mgt = s.mgt ∧
    (State.wakeOne s c st code stage cause lanes w).pwr = s.pwr := by
  generalize h : State.wakeOne s c st code stage cause lanes w = u
  unfold State.wakeOne at h
  (repeat' split at h) <;> subst h <;> simp

@[simp] theorem State.wakeDone_frame (s : State) (c : Fin 4) (st : Status) (code : ℕ) (stage : ℕ) (cause : ℕ) (lanes : ℕ) :
    (State.wakeDone s c st code stage cause lanes).pending = s.pending ∧ (State.wakeDone s c st code stage cause lanes).aon = s.aon ∧
    (State.wakeDone s c st code stage cause lanes).free = s.free ∧ (State.wakeDone s c st code stage cause lanes).wires = s.wires ∧
    (State.wakeDone s c st code stage cause lanes).mem = s.mem ∧ (State.wakeDone s c st code stage cause lanes).hif = s.hif ∧
    (State.wakeDone s c st code stage cause lanes).dma = s.dma ∧ (State.wakeDone s c st code stage cause lanes).fsv = s.fsv ∧
    (State.wakeDone s c st code stage cause lanes).lsd = s.lsd ∧ (State.wakeDone s c st code stage cause lanes).job = s.job ∧
    (State.wakeDone s c st code stage cause lanes).layout = s.layout ∧ (State.wakeDone s c st code stage cause lanes).hamper = s.hamper ∧
    (State.wakeDone s c st code stage cause lanes).codec = s.codec ∧ (State.wakeDone s c st code stage cause lanes).rows = s.rows ∧
    (State.wakeDone s c st code stage cause lanes).chk = s.chk ∧ (State.wakeDone s c st code stage cause lanes).txn = s.txn ∧
    (State.wakeDone s c st code stage cause lanes).hac = s.hac ∧ (State.wakeDone s c st code stage cause lanes).chain = s.chain ∧
    (State.wakeDone s c st code stage cause lanes).mot = s.mot ∧ (State.wakeDone s c st code stage cause lanes).miu = s.miu ∧
    (State.wakeDone s c st code stage cause lanes).clk = s.clk ∧ (State.wakeDone s c st code stage cause lanes).boot = s.boot ∧
    (State.wakeDone s c st code stage cause lanes).cal = s.cal ∧ (State.wakeDone s c st code stage cause lanes).mgt = s.mgt ∧
    (State.wakeDone s c st code stage cause lanes).pwr = s.pwr := by
  generalize h : State.wakeDone s c st code stage cause lanes = u
  unfold State.wakeDone at h
  subst h
  simp

@[simp] theorem State.linkDone_frame (s : State) (c : Fin 4) (st : Status) (code stage cause lanes : ℕ) :
    (s.linkDone c st code stage cause lanes).pending = s.pending ∧ (s.linkDone c st code stage cause lanes).aon = s.aon ∧
    (s.linkDone c st code stage cause lanes).free = s.free ∧ (s.linkDone c st code stage cause lanes).mem = s.mem ∧
    (s.linkDone c st code stage cause lanes).hif = s.hif ∧ (s.linkDone c st code stage cause lanes).dma = s.dma ∧
    (s.linkDone c st code stage cause lanes).fsv = s.fsv ∧ (s.linkDone c st code stage cause lanes).lsd = s.lsd ∧
    (s.linkDone c st code stage cause lanes).job = s.job ∧ (s.linkDone c st code stage cause lanes).layout = s.layout ∧
    (s.linkDone c st code stage cause lanes).hamper = s.hamper ∧ (s.linkDone c st code stage cause lanes).codec = s.codec ∧
    (s.linkDone c st code stage cause lanes).rows = s.rows ∧ (s.linkDone c st code stage cause lanes).chk = s.chk ∧
    (s.linkDone c st code stage cause lanes).txn = s.txn ∧ (s.linkDone c st code stage cause lanes).hac = s.hac ∧
    (s.linkDone c st code stage cause lanes).chain = s.chain ∧ (s.linkDone c st code stage cause lanes).mot = s.mot ∧
    (s.linkDone c st code stage cause lanes).miu = s.miu ∧ (s.linkDone c st code stage cause lanes).clk = s.clk ∧
    (s.linkDone c st code stage cause lanes).boot = s.boot ∧ (s.linkDone c st code stage cause lanes).cal = s.cal ∧
    (s.linkDone c st code stage cause lanes).mgt = s.mgt ∧ (s.linkDone c st code stage cause lanes).pwr = s.pwr := by
  unfold State.linkDone State.linkPost
  split <;> simp

@[simp] theorem State.linkCheck_frame (s : State) (c : Fin 4) :
    (State.linkCheck s c).pending = s.pending ∧ (State.linkCheck s c).aon = s.aon ∧ (State.linkCheck s c).free = s.free ∧
    (State.linkCheck s c).mem = s.mem ∧ (State.linkCheck s c).hif = s.hif ∧ (State.linkCheck s c).dma = s.dma ∧
    (State.linkCheck s c).fsv = s.fsv ∧ (State.linkCheck s c).lsd = s.lsd ∧ (State.linkCheck s c).job = s.job ∧
    (State.linkCheck s c).layout = s.layout ∧ (State.linkCheck s c).hamper = s.hamper ∧ (State.linkCheck s c).codec = s.codec ∧
    (State.linkCheck s c).rows = s.rows ∧ (State.linkCheck s c).chk = s.chk ∧ (State.linkCheck s c).txn = s.txn ∧
    (State.linkCheck s c).hac = s.hac ∧ (State.linkCheck s c).chain = s.chain ∧ (State.linkCheck s c).mot = s.mot ∧
    (State.linkCheck s c).miu = s.miu ∧ (State.linkCheck s c).clk = s.clk ∧ (State.linkCheck s c).boot = s.boot ∧
    (State.linkCheck s c).cal = s.cal ∧ (State.linkCheck s c).mgt = s.mgt ∧ (State.linkCheck s c).pwr = s.pwr := by
  generalize h : State.linkCheck s c = u
  unfold State.linkCheck at h
  (repeat' split at h) <;> subst h <;> simp

@[simp] theorem State.sendTraining_frame (s : State) (l : Fin 34) (stage : ℕ) :
    (State.sendTraining s l stage).pending = s.pending ∧ (State.sendTraining s l stage).aon = s.aon ∧
    (State.sendTraining s l stage).free = s.free ∧ (State.sendTraining s l stage).mem = s.mem ∧ (State.sendTraining s l stage).mbx = s.mbx ∧
    (State.sendTraining s l stage).hif = s.hif ∧ (State.sendTraining s l stage).dma = s.dma ∧ (State.sendTraining s l stage).fsv = s.fsv ∧
    (State.sendTraining s l stage).lsd = s.lsd ∧ (State.sendTraining s l stage).job = s.job ∧ (State.sendTraining s l stage).layout = s.layout ∧
    (State.sendTraining s l stage).hamper = s.hamper ∧ (State.sendTraining s l stage).codec = s.codec ∧
    (State.sendTraining s l stage).rows = s.rows ∧ (State.sendTraining s l stage).chk = s.chk ∧ (State.sendTraining s l stage).txn = s.txn ∧
    (State.sendTraining s l stage).hac = s.hac ∧ (State.sendTraining s l stage).chain = s.chain ∧ (State.sendTraining s l stage).mot = s.mot ∧
    (State.sendTraining s l stage).miu = s.miu ∧ (State.sendTraining s l stage).clk = s.clk ∧ (State.sendTraining s l stage).boot = s.boot ∧
    (State.sendTraining s l stage).cal = s.cal ∧ (State.sendTraining s l stage).mgt = s.mgt ∧ (State.sendTraining s l stage).pwr = s.pwr := ⟨rfl, rfl, rfl, rfl, rfl, rfl, rfl, rfl, rfl, rfl, rfl, rfl, rfl, rfl, rfl, rfl, rfl, rfl, rfl, rfl, rfl, rfl, rfl, rfl, rfl⟩

@[simp] theorem State.armAt_frame (s : State) (step : ℕ) :
    (State.armAt s step).pending = s.pending ∧ (State.armAt s step).aon = s.aon ∧ (State.armAt s step).free = s.free ∧
    (State.armAt s step).wires = s.wires ∧ (State.armAt s step).mem = s.mem ∧ (State.armAt s step).mbx = s.mbx ∧
    (State.armAt s step).hif = s.hif ∧ (State.armAt s step).dma = s.dma ∧ (State.armAt s step).fsv = s.fsv ∧ (State.armAt s step).lsd = s.lsd ∧
    (State.armAt s step).layout = s.layout ∧ (State.armAt s step).hamper = s.hamper ∧ (State.armAt s step).codec = s.codec ∧
    (State.armAt s step).rows = s.rows ∧ (State.armAt s step).chk = s.chk ∧ (State.armAt s step).txn = s.txn ∧
    (State.armAt s step).hlk = s.hlk ∧ (State.armAt s step).hac = s.hac ∧ (State.armAt s step).chain = s.chain ∧
    (State.armAt s step).mot = s.mot ∧ (State.armAt s step).miu = s.miu ∧ (State.armAt s step).clk = s.clk ∧
    (State.armAt s step).boot = s.boot ∧ (State.armAt s step).cal = s.cal ∧ (State.armAt s step).mgt = s.mgt ∧ (State.armAt s step).pwr = s.pwr := ⟨rfl, rfl, rfl, rfl, rfl, rfl, rfl, rfl, rfl, rfl, rfl, rfl, rfl, rfl, rfl, rfl, rfl, rfl, rfl, rfl, rfl, rfl, rfl, rfl, rfl, rfl⟩

@[simp] theorem State.armFail_frame (s : State) (st : Status) (detail : ℕ) :
    (State.armFail s st detail).pending = s.pending ∧ (State.armFail s st detail).aon = s.aon ∧ (State.armFail s st detail).free = s.free ∧
    (State.armFail s st detail).wires = s.wires ∧ (State.armFail s st detail).mem = s.mem ∧ (State.armFail s st detail).hif = s.hif ∧
    (State.armFail s st detail).lsd = s.lsd ∧ (State.armFail s st detail).layout = s.layout ∧ (State.armFail s st detail).codec = s.codec ∧
    (State.armFail s st detail).rows = s.rows ∧ (State.armFail s st detail).chk = s.chk ∧ (State.armFail s st detail).txn = s.txn ∧
    (State.armFail s st detail).hlk = s.hlk ∧ (State.armFail s st detail).hac = s.hac ∧ (State.armFail s st detail).chain = s.chain ∧
    (State.armFail s st detail).mot = s.mot ∧ (State.armFail s st detail).miu = s.miu ∧ (State.armFail s st detail).clk = s.clk ∧
    (State.armFail s st detail).boot = s.boot ∧ (State.armFail s st detail).cal = s.cal ∧ (State.armFail s st detail).pwr = s.pwr := by
  generalize h : State.armFail s st detail = u
  unfold State.armFail at h
  subst h
  simp

@[simp] theorem State.authEvent_frame (s : State) (h : Fin 64) (cls : ℕ) :
    (State.authEvent s h cls).pending = s.pending ∧ (State.authEvent s h cls).aon = s.aon ∧ (State.authEvent s h cls).free = s.free ∧
    (State.authEvent s h cls).wires = s.wires ∧ (State.authEvent s h cls).mem = s.mem ∧ (State.authEvent s h cls).hif = s.hif ∧
    (State.authEvent s h cls).dma = s.dma ∧ (State.authEvent s h cls).fsv = s.fsv ∧ (State.authEvent s h cls).lsd = s.lsd ∧
    (State.authEvent s h cls).job = s.job ∧ (State.authEvent s h cls).layout = s.layout ∧ (State.authEvent s h cls).hamper = s.hamper ∧
    (State.authEvent s h cls).codec = s.codec ∧ (State.authEvent s h cls).rows = s.rows ∧ (State.authEvent s h cls).chk = s.chk ∧
    (State.authEvent s h cls).txn = s.txn ∧ (State.authEvent s h cls).hlk = s.hlk ∧ (State.authEvent s h cls).hac = s.hac ∧
    (State.authEvent s h cls).chain = s.chain ∧ (State.authEvent s h cls).mot = s.mot ∧ (State.authEvent s h cls).miu = s.miu ∧
    (State.authEvent s h cls).clk = s.clk ∧ (State.authEvent s h cls).boot = s.boot ∧ (State.authEvent s h cls).cal = s.cal ∧
    (State.authEvent s h cls).mgt = s.mgt ∧ (State.authEvent s h cls).pwr = s.pwr := ⟨rfl, rfl, rfl, rfl, rfl, rfl, rfl, rfl, rfl, rfl, rfl, rfl, rfl, rfl, rfl, rfl, rfl, rfl, rfl, rfl, rfl, rfl, rfl, rfl, rfl, rfl⟩

@[simp] theorem State.msix_frame (s : State) (v : ℕ) :
    (State.msix s v).pending = s.pending ∧ (State.msix s v).aon = s.aon ∧ (State.msix s v).free = s.free ∧ (State.msix s v).mem = s.mem ∧
    (State.msix s v).mbx = s.mbx ∧ (State.msix s v).dma = s.dma ∧ (State.msix s v).fsv = s.fsv ∧ (State.msix s v).lsd = s.lsd ∧
    (State.msix s v).job = s.job ∧ (State.msix s v).layout = s.layout ∧ (State.msix s v).hamper = s.hamper ∧ (State.msix s v).codec = s.codec ∧
    (State.msix s v).rows = s.rows ∧ (State.msix s v).chk = s.chk ∧ (State.msix s v).txn = s.txn ∧ (State.msix s v).hlk = s.hlk ∧
    (State.msix s v).hac = s.hac ∧ (State.msix s v).chain = s.chain ∧ (State.msix s v).mot = s.mot ∧ (State.msix s v).miu = s.miu ∧
    (State.msix s v).clk = s.clk ∧ (State.msix s v).boot = s.boot ∧ (State.msix s v).cal = s.cal ∧ (State.msix s v).mgt = s.mgt ∧
    (State.msix s v).pwr = s.pwr := by
  generalize h : State.msix s v = u
  unfold State.msix at h
  (repeat' split at h) <;> subst h <;> simp

@[simp] theorem State.setGlobalFault_frame (s : State) (b : ℕ) :
    (State.setGlobalFault s b).pending = s.pending ∧ (State.setGlobalFault s b).aon = s.aon ∧ (State.setGlobalFault s b).free = s.free ∧
    (State.setGlobalFault s b).mem = s.mem ∧ (State.setGlobalFault s b).mbx = s.mbx ∧ (State.setGlobalFault s b).dma = s.dma ∧
    (State.setGlobalFault s b).fsv = s.fsv ∧ (State.setGlobalFault s b).lsd = s.lsd ∧ (State.setGlobalFault s b).job = s.job ∧
    (State.setGlobalFault s b).layout = s.layout ∧ (State.setGlobalFault s b).hamper = s.hamper ∧ (State.setGlobalFault s b).codec = s.codec ∧
    (State.setGlobalFault s b).rows = s.rows ∧ (State.setGlobalFault s b).chk = s.chk ∧ (State.setGlobalFault s b).txn = s.txn ∧
    (State.setGlobalFault s b).hlk = s.hlk ∧ (State.setGlobalFault s b).hac = s.hac ∧ (State.setGlobalFault s b).chain = s.chain ∧
    (State.setGlobalFault s b).mot = s.mot ∧ (State.setGlobalFault s b).miu = s.miu ∧ (State.setGlobalFault s b).clk = s.clk ∧
    (State.setGlobalFault s b).boot = s.boot ∧ (State.setGlobalFault s b).cal = s.cal ∧ (State.setGlobalFault s b).mgt = s.mgt ∧
    (State.setGlobalFault s b).pwr = s.pwr := by
  generalize h : State.setGlobalFault s b = u
  unfold State.setGlobalFault at h
  (repeat' split at h) <;> subst h <;> simp

@[simp] theorem State.wasteOn_frame (s : State) :
    (State.wasteOn s).pending = s.pending ∧ (State.wasteOn s).aon = s.aon ∧ (State.wasteOn s).free = s.free ∧ (State.wasteOn s).mem = s.mem ∧
    (State.wasteOn s).mbx = s.mbx ∧ (State.wasteOn s).dma = s.dma ∧ (State.wasteOn s).lsd = s.lsd ∧ (State.wasteOn s).job = s.job ∧
    (State.wasteOn s).layout = s.layout ∧ (State.wasteOn s).hamper = s.hamper ∧ (State.wasteOn s).codec = s.codec ∧
    (State.wasteOn s).rows = s.rows ∧ (State.wasteOn s).chk = s.chk ∧ (State.wasteOn s).txn = s.txn ∧ (State.wasteOn s).hlk = s.hlk ∧
    (State.wasteOn s).hac = s.hac ∧ (State.wasteOn s).chain = s.chain ∧ (State.wasteOn s).mot = s.mot ∧ (State.wasteOn s).miu = s.miu ∧
    (State.wasteOn s).clk = s.clk ∧ (State.wasteOn s).boot = s.boot ∧ (State.wasteOn s).cal = s.cal ∧ (State.wasteOn s).pwr = s.pwr := by
  generalize h : State.wasteOn s = u
  unfold State.wasteOn at h
  (repeat' split at h) <;> subst h <;> simp

@[simp] theorem State.wastePower_frame (s : State) :
    (State.wastePower s).pending = s.pending ∧ (State.wastePower s).aon = s.aon ∧ (State.wastePower s).free = s.free ∧
    (State.wastePower s).mem = s.mem ∧ (State.wastePower s).mbx = s.mbx ∧ (State.wastePower s).dma = s.dma ∧ (State.wastePower s).lsd = s.lsd ∧
    (State.wastePower s).job = s.job ∧ (State.wastePower s).layout = s.layout ∧ (State.wastePower s).hamper = s.hamper ∧
    (State.wastePower s).codec = s.codec ∧ (State.wastePower s).rows = s.rows ∧ (State.wastePower s).chk = s.chk ∧
    (State.wastePower s).txn = s.txn ∧ (State.wastePower s).hlk = s.hlk ∧ (State.wastePower s).hac = s.hac ∧
    (State.wastePower s).chain = s.chain ∧ (State.wastePower s).mot = s.mot ∧ (State.wastePower s).miu = s.miu ∧
    (State.wastePower s).clk = s.clk ∧ (State.wastePower s).boot = s.boot ∧ (State.wastePower s).cal = s.cal ∧ (State.wastePower s).pwr = s.pwr := by
  generalize h : State.wastePower s = u
  unfold State.wastePower at h
  subst h
  simp

@[simp] theorem State.memEccNow_frame (s : State) (memory : ℕ) (addr : ℕ) (kind : ℕ) (cls : ℕ) (reader : ℕ) (injected : Bool) :
    (State.memEccNow s memory addr kind cls reader injected).pending = s.pending ∧
    (State.memEccNow s memory addr kind cls reader injected).aon = s.aon ∧
    (State.memEccNow s memory addr kind cls reader injected).free = s.free ∧
    (State.memEccNow s memory addr kind cls reader injected).wires = s.wires ∧
    (State.memEccNow s memory addr kind cls reader injected).mem = s.mem ∧
    (State.memEccNow s memory addr kind cls reader injected).hif = s.hif ∧
    (State.memEccNow s memory addr kind cls reader injected).dma = s.dma ∧
    (State.memEccNow s memory addr kind cls reader injected).fsv = s.fsv ∧
    (State.memEccNow s memory addr kind cls reader injected).lsd = s.lsd ∧
    (State.memEccNow s memory addr kind cls reader injected).job = s.job ∧
    (State.memEccNow s memory addr kind cls reader injected).layout = s.layout ∧
    (State.memEccNow s memory addr kind cls reader injected).hamper = s.hamper ∧
    (State.memEccNow s memory addr kind cls reader injected).codec = s.codec ∧
    (State.memEccNow s memory addr kind cls reader injected).rows = s.rows ∧
    (State.memEccNow s memory addr kind cls reader injected).chk = s.chk ∧
    (State.memEccNow s memory addr kind cls reader injected).txn = s.txn ∧
    (State.memEccNow s memory addr kind cls reader injected).hlk = s.hlk ∧
    (State.memEccNow s memory addr kind cls reader injected).hac = s.hac ∧
    (State.memEccNow s memory addr kind cls reader injected).chain = s.chain ∧
    (State.memEccNow s memory addr kind cls reader injected).mot = s.mot ∧
    (State.memEccNow s memory addr kind cls reader injected).miu = s.miu ∧
    (State.memEccNow s memory addr kind cls reader injected).clk = s.clk ∧
    (State.memEccNow s memory addr kind cls reader injected).boot = s.boot ∧
    (State.memEccNow s memory addr kind cls reader injected).cal = s.cal ∧
    (State.memEccNow s memory addr kind cls reader injected).mgt = s.mgt ∧ (State.memEccNow s memory addr kind cls reader injected).pwr = s.pwr := ⟨rfl, rfl, rfl, rfl, rfl, rfl, rfl, rfl, rfl, rfl, rfl, rfl, rfl, rfl, rfl, rfl, rfl, rfl, rfl, rfl, rfl, rfl, rfl, rfl, rfl, rfl⟩

@[simp] theorem State.encEvent_frame (s : State) (p : PendingCheck) (cls : ℕ) :
    (State.encEvent s p cls).pending = s.pending ∧ (State.encEvent s p cls).aon = s.aon ∧ (State.encEvent s p cls).free = s.free ∧
    (State.encEvent s p cls).wires = s.wires ∧ (State.encEvent s p cls).mem = s.mem ∧ (State.encEvent s p cls).hif = s.hif ∧
    (State.encEvent s p cls).dma = s.dma ∧ (State.encEvent s p cls).fsv = s.fsv ∧ (State.encEvent s p cls).lsd = s.lsd ∧
    (State.encEvent s p cls).job = s.job ∧ (State.encEvent s p cls).layout = s.layout ∧ (State.encEvent s p cls).hamper = s.hamper ∧
    (State.encEvent s p cls).codec = s.codec ∧ (State.encEvent s p cls).rows = s.rows ∧ (State.encEvent s p cls).chk = s.chk ∧
    (State.encEvent s p cls).txn = s.txn ∧ (State.encEvent s p cls).hlk = s.hlk ∧ (State.encEvent s p cls).hac = s.hac ∧
    (State.encEvent s p cls).chain = s.chain ∧ (State.encEvent s p cls).mot = s.mot ∧ (State.encEvent s p cls).miu = s.miu ∧
    (State.encEvent s p cls).clk = s.clk ∧ (State.encEvent s p cls).boot = s.boot ∧ (State.encEvent s p cls).cal = s.cal ∧
    (State.encEvent s p cls).mgt = s.mgt ∧ (State.encEvent s p cls).pwr = s.pwr := ⟨rfl, rfl, rfl, rfl, rfl, rfl, rfl, rfl, rfl, rfl, rfl, rfl, rfl, rfl, rfl, rfl, rfl, rfl, rfl, rfl, rfl, rfl, rfl, rfl, rfl, rfl⟩

@[simp] theorem State.badAccess_frame (s : State) :
    (State.badAccess s).pending = s.pending ∧ (State.badAccess s).aon = s.aon ∧ (State.badAccess s).free = s.free ∧
    (State.badAccess s).mem = s.mem ∧ (State.badAccess s).mbx = s.mbx ∧ (State.badAccess s).dma = s.dma ∧ (State.badAccess s).fsv = s.fsv ∧
    (State.badAccess s).lsd = s.lsd ∧ (State.badAccess s).job = s.job ∧ (State.badAccess s).layout = s.layout ∧
    (State.badAccess s).hamper = s.hamper ∧ (State.badAccess s).codec = s.codec ∧ (State.badAccess s).rows = s.rows ∧
    (State.badAccess s).chk = s.chk ∧ (State.badAccess s).txn = s.txn ∧ (State.badAccess s).hlk = s.hlk ∧ (State.badAccess s).hac = s.hac ∧
    (State.badAccess s).chain = s.chain ∧ (State.badAccess s).mot = s.mot ∧ (State.badAccess s).miu = s.miu ∧ (State.badAccess s).clk = s.clk ∧
    (State.badAccess s).boot = s.boot ∧ (State.badAccess s).cal = s.cal ∧ (State.badAccess s).mgt = s.mgt ∧ (State.badAccess s).pwr = s.pwr := by
  generalize h : State.badAccess s = u
  unfold State.badAccess at h
  subst h
  simp

@[simp] theorem State.motDone_frame (s : State) (i : Fin 8) (code : ℕ) :
    (State.motDone s i code).pending = s.pending ∧ (State.motDone s i code).aon = s.aon ∧ (State.motDone s i code).free = s.free ∧
    (State.motDone s i code).wires = s.wires ∧ (State.motDone s i code).mem = s.mem ∧ (State.motDone s i code).hif = s.hif ∧
    (State.motDone s i code).dma = s.dma ∧ (State.motDone s i code).fsv = s.fsv ∧ (State.motDone s i code).lsd = s.lsd ∧
    (State.motDone s i code).job = s.job ∧ (State.motDone s i code).layout = s.layout ∧ (State.motDone s i code).hamper = s.hamper ∧
    (State.motDone s i code).codec = s.codec ∧ (State.motDone s i code).rows = s.rows ∧ (State.motDone s i code).chk = s.chk ∧
    (State.motDone s i code).txn = s.txn ∧ (State.motDone s i code).hlk = s.hlk ∧ (State.motDone s i code).hac = s.hac ∧
    (State.motDone s i code).chain = s.chain ∧ (State.motDone s i code).miu = s.miu ∧ (State.motDone s i code).clk = s.clk ∧
    (State.motDone s i code).boot = s.boot ∧ (State.motDone s i code).cal = s.cal ∧ (State.motDone s i code).mgt = s.mgt ∧
    (State.motDone s i code).pwr = s.pwr := by
  generalize h : State.motDone s i code = u
  unfold State.motDone at h
  dsimp only at h
  (repeat' split at h) <;> subst h <;> simp

@[simp] theorem State.wakeDir_frame (s : State) (side : Side) :
    (State.wakeDir s side).pending = s.pending ∧ (State.wakeDir s side).aon = s.aon ∧ (State.wakeDir s side).free = s.free ∧
    (State.wakeDir s side).mem = s.mem ∧ (State.wakeDir s side).mbx = s.mbx ∧ (State.wakeDir s side).hif = s.hif ∧
    (State.wakeDir s side).dma = s.dma ∧ (State.wakeDir s side).fsv = s.fsv ∧ (State.wakeDir s side).lsd = s.lsd ∧
    (State.wakeDir s side).job = s.job ∧ (State.wakeDir s side).layout = s.layout ∧ (State.wakeDir s side).hamper = s.hamper ∧
    (State.wakeDir s side).codec = s.codec ∧ (State.wakeDir s side).rows = s.rows ∧ (State.wakeDir s side).chk = s.chk ∧
    (State.wakeDir s side).txn = s.txn ∧ (State.wakeDir s side).hac = s.hac ∧ (State.wakeDir s side).mot = s.mot ∧
    (State.wakeDir s side).miu = s.miu ∧ (State.wakeDir s side).clk = s.clk ∧ (State.wakeDir s side).boot = s.boot ∧
    (State.wakeDir s side).cal = s.cal ∧ (State.wakeDir s side).mgt = s.mgt ∧ (State.wakeDir s side).pwr = s.pwr := by
  generalize h : State.wakeDir s side = u
  unfold State.wakeDir at h
  subst h
  simp

@[simp] theorem State.ckptEvent_frame (s : State) (r : Fin 16) (line : ℕ) (part : ℕ) (action : ℕ) :
    (State.ckptEvent s r line part action).pending = s.pending ∧ (State.ckptEvent s r line part action).aon = s.aon ∧
    (State.ckptEvent s r line part action).free = s.free ∧ (State.ckptEvent s r line part action).wires = s.wires ∧
    (State.ckptEvent s r line part action).mem = s.mem ∧ (State.ckptEvent s r line part action).hif = s.hif ∧
    (State.ckptEvent s r line part action).dma = s.dma ∧ (State.ckptEvent s r line part action).fsv = s.fsv ∧
    (State.ckptEvent s r line part action).lsd = s.lsd ∧ (State.ckptEvent s r line part action).job = s.job ∧
    (State.ckptEvent s r line part action).layout = s.layout ∧ (State.ckptEvent s r line part action).hamper = s.hamper ∧
    (State.ckptEvent s r line part action).codec = s.codec ∧ (State.ckptEvent s r line part action).rows = s.rows ∧
    (State.ckptEvent s r line part action).chk = s.chk ∧ (State.ckptEvent s r line part action).txn = s.txn ∧
    (State.ckptEvent s r line part action).hlk = s.hlk ∧ (State.ckptEvent s r line part action).hac = s.hac ∧
    (State.ckptEvent s r line part action).chain = s.chain ∧ (State.ckptEvent s r line part action).mot = s.mot ∧
    (State.ckptEvent s r line part action).miu = s.miu ∧ (State.ckptEvent s r line part action).clk = s.clk ∧
    (State.ckptEvent s r line part action).boot = s.boot ∧ (State.ckptEvent s r line part action).cal = s.cal ∧
    (State.ckptEvent s r line part action).mgt = s.mgt ∧ (State.ckptEvent s r line part action).pwr = s.pwr := ⟨rfl, rfl, rfl, rfl, rfl, rfl, rfl, rfl, rfl, rfl, rfl, rfl, rfl, rfl, rfl, rfl, rfl, rfl, rfl, rfl, rfl, rfl, rfl, rfl, rfl, rfl⟩

@[simp] theorem State.rowFault_frame (s : State) (r : Fin 16) (line : ℕ) :
    (State.rowFault s r line).pending = s.pending ∧ (State.rowFault s r line).aon = s.aon ∧ (State.rowFault s r line).free = s.free ∧
    (State.rowFault s r line).wires = s.wires ∧ (State.rowFault s r line).mem = s.mem ∧ (State.rowFault s r line).mbx = s.mbx ∧
    (State.rowFault s r line).hif = s.hif ∧ (State.rowFault s r line).dma = s.dma ∧ (State.rowFault s r line).fsv = s.fsv ∧
    (State.rowFault s r line).lsd = s.lsd ∧ (State.rowFault s r line).job = s.job ∧ (State.rowFault s r line).layout = s.layout ∧
    (State.rowFault s r line).hamper = s.hamper ∧ (State.rowFault s r line).codec = s.codec ∧ (State.rowFault s r line).chk = s.chk ∧
    (State.rowFault s r line).txn = s.txn ∧ (State.rowFault s r line).hlk = s.hlk ∧ (State.rowFault s r line).hac = s.hac ∧
    (State.rowFault s r line).chain = s.chain ∧ (State.rowFault s r line).mot = s.mot ∧ (State.rowFault s r line).miu = s.miu ∧
    (State.rowFault s r line).clk = s.clk ∧ (State.rowFault s r line).boot = s.boot ∧ (State.rowFault s r line).cal = s.cal ∧
    (State.rowFault s r line).mgt = s.mgt ∧ (State.rowFault s r line).pwr = s.pwr := ⟨rfl, rfl, rfl, rfl, rfl, rfl, rfl, rfl, rfl, rfl, rfl, rfl, rfl, rfl, rfl, rfl, rfl, rfl, rfl, rfl, rfl, rfl, rfl, rfl, rfl, rfl⟩

@[simp] theorem State.updCtx_frame (s : State) (fn : Fin 38) (f : UnitCtx → UnitCtx) :
    (s.updCtx fn f).pending = s.pending ∧ (s.updCtx fn f).aon = s.aon ∧ (s.updCtx fn f).free = s.free ∧ (s.updCtx fn f).wires = s.wires ∧
    (s.updCtx fn f).mem = s.mem ∧ (s.updCtx fn f).mbx = s.mbx ∧ (s.updCtx fn f).hif = s.hif ∧ (s.updCtx fn f).dma = s.dma ∧
    (s.updCtx fn f).fsv = s.fsv ∧ (s.updCtx fn f).lsd = s.lsd ∧ (s.updCtx fn f).job = s.job ∧ (s.updCtx fn f).layout = s.layout ∧
    (s.updCtx fn f).hamper = s.hamper ∧ (s.updCtx fn f).codec = s.codec ∧ (s.updCtx fn f).rows = s.rows ∧ (s.updCtx fn f).txn = s.txn ∧
    (s.updCtx fn f).hlk = s.hlk ∧ (s.updCtx fn f).hac = s.hac ∧ (s.updCtx fn f).chain = s.chain ∧ (s.updCtx fn f).mot = s.mot ∧
    (s.updCtx fn f).miu = s.miu ∧ (s.updCtx fn f).clk = s.clk ∧ (s.updCtx fn f).boot = s.boot ∧ (s.updCtx fn f).cal = s.cal ∧
    (s.updCtx fn f).mgt = s.mgt ∧ (s.updCtx fn f).pwr = s.pwr := by
  simp [State.updCtx]

@[simp] theorem State.joinPair_frame (s : State) (r : Fin 16) (run : PipeRun) :
    (s.joinPair r run).pending = s.pending ∧ (s.joinPair r run).aon = s.aon ∧ (s.joinPair r run).free = s.free ∧
    (s.joinPair r run).wires = s.wires ∧ (s.joinPair r run).mem = s.mem ∧ (s.joinPair r run).mbx = s.mbx ∧
    (s.joinPair r run).hif = s.hif ∧ (s.joinPair r run).dma = s.dma ∧ (s.joinPair r run).fsv = s.fsv ∧ (s.joinPair r run).lsd = s.lsd ∧
    (s.joinPair r run).job = s.job ∧ (s.joinPair r run).layout = s.layout ∧ (s.joinPair r run).hamper = s.hamper ∧
    (s.joinPair r run).codec = s.codec ∧ (s.joinPair r run).rows = s.rows ∧ (s.joinPair r run).txn = s.txn ∧
    (s.joinPair r run).hlk = s.hlk ∧ (s.joinPair r run).hac = s.hac ∧ (s.joinPair r run).chain = s.chain ∧
    (s.joinPair r run).mot = s.mot ∧ (s.joinPair r run).miu = s.miu ∧ (s.joinPair r run).clk = s.clk ∧ (s.joinPair r run).boot = s.boot ∧
    (s.joinPair r run).cal = s.cal ∧ (s.joinPair r run).mgt = s.mgt ∧ (s.joinPair r run).pwr = s.pwr := by
  unfold State.joinPair
  (repeat' split) <;> simp

@[simp] theorem State.latentStep_frame (s : State) (fn : Fin 38) (line : ℕ) :
    (s.latentStep fn line).pending = s.pending ∧
    (s.latentStep fn line).aon = s.aon ∧
    (s.latentStep fn line).free = s.free ∧
    (s.latentStep fn line).wires = s.wires ∧
    (s.latentStep fn line).mem = s.mem ∧
    (s.latentStep fn line).mbx = s.mbx ∧
    (s.latentStep fn line).hif = s.hif ∧
    (s.latentStep fn line).dma = s.dma ∧
    (s.latentStep fn line).fsv = s.fsv ∧
    (s.latentStep fn line).lsd = s.lsd ∧
    (s.latentStep fn line).job = s.job ∧
    (s.latentStep fn line).layout = s.layout ∧
    (s.latentStep fn line).hamper = s.hamper ∧
    (s.latentStep fn line).codec = s.codec ∧
    (s.latentStep fn line).rows = s.rows ∧
    (s.latentStep fn line).txn = s.txn ∧
    (s.latentStep fn line).hlk = s.hlk ∧
    (s.latentStep fn line).hac = s.hac ∧
    (s.latentStep fn line).chain = s.chain ∧
    (s.latentStep fn line).mot = s.mot ∧
    (s.latentStep fn line).miu = s.miu ∧
    (s.latentStep fn line).clk = s.clk ∧
    (s.latentStep fn line).boot = s.boot ∧
    (s.latentStep fn line).cal = s.cal ∧
    (s.latentStep fn line).mgt = s.mgt ∧
    (s.latentStep fn line).pwr = s.pwr := by
  unfold State.latentStep
  split <;> simp

@[simp] theorem State.cvuSelf_frame (s : State) (fn : Fin 38) (r : Fin 16) (line bad : ℕ) (inj : Bool) :
    (s.cvuSelf fn r line bad inj).1.pending = s.pending ∧
    (s.cvuSelf fn r line bad inj).1.aon = s.aon ∧
    (s.cvuSelf fn r line bad inj).1.free = s.free ∧
    (s.cvuSelf fn r line bad inj).1.wires = s.wires ∧
    (s.cvuSelf fn r line bad inj).1.mem = s.mem ∧
    (s.cvuSelf fn r line bad inj).1.hif = s.hif ∧
    (s.cvuSelf fn r line bad inj).1.dma = s.dma ∧
    (s.cvuSelf fn r line bad inj).1.lsd = s.lsd ∧
    (s.cvuSelf fn r line bad inj).1.job = s.job ∧
    (s.cvuSelf fn r line bad inj).1.layout = s.layout ∧
    (s.cvuSelf fn r line bad inj).1.hamper = s.hamper ∧
    (s.cvuSelf fn r line bad inj).1.codec = s.codec ∧
    (s.cvuSelf fn r line bad inj).1.txn = s.txn ∧
    (s.cvuSelf fn r line bad inj).1.hlk = s.hlk ∧
    (s.cvuSelf fn r line bad inj).1.hac = s.hac ∧
    (s.cvuSelf fn r line bad inj).1.chain = s.chain ∧
    (s.cvuSelf fn r line bad inj).1.mot = s.mot ∧
    (s.cvuSelf fn r line bad inj).1.miu = s.miu ∧
    (s.cvuSelf fn r line bad inj).1.clk = s.clk ∧
    (s.cvuSelf fn r line bad inj).1.boot = s.boot ∧
    (s.cvuSelf fn r line bad inj).1.cal = s.cal ∧
    (s.cvuSelf fn r line bad inj).1.mgt = s.mgt ∧
    (s.cvuSelf fn r line bad inj).1.pwr = s.pwr := by
  unfold State.cvuSelf
  dsimp only
  (repeat' split) <;> simp [State.cvuEvent]

@[simp] theorem State.replayLate_frame (s : State) (r : Fin 16) :
    (State.replayLate s r).pending = s.pending ∧ (State.replayLate s r).aon = s.aon ∧ (State.replayLate s r).free = s.free ∧
    (State.replayLate s r).wires = s.wires ∧ (State.replayLate s r).mem = s.mem ∧ (State.replayLate s r).hif = s.hif ∧
    (State.replayLate s r).dma = s.dma ∧ (State.replayLate s r).fsv = s.fsv ∧ (State.replayLate s r).lsd = s.lsd ∧
    (State.replayLate s r).job = s.job ∧ (State.replayLate s r).layout = s.layout ∧ (State.replayLate s r).hamper = s.hamper ∧
    (State.replayLate s r).codec = s.codec ∧ (State.replayLate s r).chk = s.chk ∧ (State.replayLate s r).txn = s.txn ∧
    (State.replayLate s r).hlk = s.hlk ∧ (State.replayLate s r).hac = s.hac ∧ (State.replayLate s r).chain = s.chain ∧
    (State.replayLate s r).mot = s.mot ∧ (State.replayLate s r).miu = s.miu ∧ (State.replayLate s r).clk = s.clk ∧
    (State.replayLate s r).boot = s.boot ∧ (State.replayLate s r).cal = s.cal ∧ (State.replayLate s r).mgt = s.mgt ∧
    (State.replayLate s r).pwr = s.pwr := by
  generalize h : State.replayLate s r = u
  unfold State.replayLate at h
  (repeat' split at h) <;> subst h <;> simp

@[simp] theorem State.dryPost_frame (s : State) (r : Fin 16) :
    (State.dryPost s r).pending = s.pending ∧ (State.dryPost s r).aon = s.aon ∧ (State.dryPost s r).free = s.free ∧
    (State.dryPost s r).wires = s.wires ∧ (State.dryPost s r).mem = s.mem ∧ (State.dryPost s r).hif = s.hif ∧ (State.dryPost s r).dma = s.dma ∧
    (State.dryPost s r).fsv = s.fsv ∧ (State.dryPost s r).lsd = s.lsd ∧ (State.dryPost s r).job = s.job ∧
    (State.dryPost s r).layout = s.layout ∧ (State.dryPost s r).hamper = s.hamper ∧ (State.dryPost s r).codec = s.codec ∧
    (State.dryPost s r).chk = s.chk ∧ (State.dryPost s r).txn = s.txn ∧ (State.dryPost s r).hlk = s.hlk ∧ (State.dryPost s r).hac = s.hac ∧
    (State.dryPost s r).chain = s.chain ∧ (State.dryPost s r).mot = s.mot ∧ (State.dryPost s r).miu = s.miu ∧ (State.dryPost s r).clk = s.clk ∧
    (State.dryPost s r).boot = s.boot ∧ (State.dryPost s r).cal = s.cal ∧ (State.dryPost s r).mgt = s.mgt ∧ (State.dryPost s r).pwr = s.pwr := by
  generalize h : State.dryPost s r = u
  unfold State.dryPost at h
  dsimp only at h
  (repeat' split at h) <;> subst h <;> simp

@[simp] theorem State.noteWithheld_frame (s : State) (r : Fin 16) (n : ℕ) (reason : Byte) (cause : Byte) :
    (State.noteWithheld s r n reason cause).pending = s.pending ∧ (State.noteWithheld s r n reason cause).aon = s.aon ∧
    (State.noteWithheld s r n reason cause).free = s.free ∧ (State.noteWithheld s r n reason cause).wires = s.wires ∧
    (State.noteWithheld s r n reason cause).mem = s.mem ∧ (State.noteWithheld s r n reason cause).mbx = s.mbx ∧
    (State.noteWithheld s r n reason cause).hif = s.hif ∧ (State.noteWithheld s r n reason cause).dma = s.dma ∧
    (State.noteWithheld s r n reason cause).lsd = s.lsd ∧ (State.noteWithheld s r n reason cause).job = s.job ∧
    (State.noteWithheld s r n reason cause).layout = s.layout ∧ (State.noteWithheld s r n reason cause).hamper = s.hamper ∧
    (State.noteWithheld s r n reason cause).codec = s.codec ∧ (State.noteWithheld s r n reason cause).chk = s.chk ∧
    (State.noteWithheld s r n reason cause).txn = s.txn ∧ (State.noteWithheld s r n reason cause).hlk = s.hlk ∧
    (State.noteWithheld s r n reason cause).hac = s.hac ∧ (State.noteWithheld s r n reason cause).chain = s.chain ∧
    (State.noteWithheld s r n reason cause).mot = s.mot ∧ (State.noteWithheld s r n reason cause).miu = s.miu ∧
    (State.noteWithheld s r n reason cause).clk = s.clk ∧ (State.noteWithheld s r n reason cause).boot = s.boot ∧
    (State.noteWithheld s r n reason cause).cal = s.cal ∧ (State.noteWithheld s r n reason cause).mgt = s.mgt ∧
    (State.noteWithheld s r n reason cause).pwr = s.pwr := by
  generalize h : State.noteWithheld s r n reason cause = u
  unfold State.noteWithheld at h
  (repeat' split at h) <;> subst h <;> simp

@[simp] theorem State.verdictEvent_frame (s : State) (r : Fin 16) (line : ℕ) (verdict : ℕ) (moves : List (Fin 34 × Fin 34)) :
    (State.verdictEvent s r line verdict moves).pending = s.pending ∧ (State.verdictEvent s r line verdict moves).aon = s.aon ∧
    (State.verdictEvent s r line verdict moves).free = s.free ∧ (State.verdictEvent s r line verdict moves).wires = s.wires ∧
    (State.verdictEvent s r line verdict moves).mem = s.mem ∧ (State.verdictEvent s r line verdict moves).hif = s.hif ∧
    (State.verdictEvent s r line verdict moves).dma = s.dma ∧ (State.verdictEvent s r line verdict moves).fsv = s.fsv ∧
    (State.verdictEvent s r line verdict moves).lsd = s.lsd ∧ (State.verdictEvent s r line verdict moves).job = s.job ∧
    (State.verdictEvent s r line verdict moves).layout = s.layout ∧ (State.verdictEvent s r line verdict moves).hamper = s.hamper ∧
    (State.verdictEvent s r line verdict moves).codec = s.codec ∧ (State.verdictEvent s r line verdict moves).rows = s.rows ∧
    (State.verdictEvent s r line verdict moves).chk = s.chk ∧ (State.verdictEvent s r line verdict moves).txn = s.txn ∧
    (State.verdictEvent s r line verdict moves).hlk = s.hlk ∧ (State.verdictEvent s r line verdict moves).hac = s.hac ∧
    (State.verdictEvent s r line verdict moves).chain = s.chain ∧ (State.verdictEvent s r line verdict moves).mot = s.mot ∧
    (State.verdictEvent s r line verdict moves).miu = s.miu ∧ (State.verdictEvent s r line verdict moves).clk = s.clk ∧
    (State.verdictEvent s r line verdict moves).boot = s.boot ∧ (State.verdictEvent s r line verdict moves).cal = s.cal ∧
    (State.verdictEvent s r line verdict moves).mgt = s.mgt ∧ (State.verdictEvent s r line verdict moves).pwr = s.pwr := ⟨rfl, rfl, rfl, rfl, rfl, rfl, rfl, rfl, rfl, rfl, rfl, rfl, rfl, rfl, rfl, rfl, rfl, rfl, rfl, rfl, rfl, rfl, rfl, rfl, rfl, rfl⟩

@[simp] theorem State.detectedOnly_frame (s : State) (r : Fin 16) (m : Mismatch) (verdict : ℕ) :
    (State.detectedOnly s r m verdict).pending = s.pending ∧ (State.detectedOnly s r m verdict).aon = s.aon ∧
    (State.detectedOnly s r m verdict).free = s.free ∧ (State.detectedOnly s r m verdict).wires = s.wires ∧
    (State.detectedOnly s r m verdict).mem = s.mem ∧ (State.detectedOnly s r m verdict).hif = s.hif ∧
    (State.detectedOnly s r m verdict).dma = s.dma ∧ (State.detectedOnly s r m verdict).lsd = s.lsd ∧
    (State.detectedOnly s r m verdict).job = s.job ∧ (State.detectedOnly s r m verdict).layout = s.layout ∧
    (State.detectedOnly s r m verdict).hamper = s.hamper ∧ (State.detectedOnly s r m verdict).codec = s.codec ∧
    (State.detectedOnly s r m verdict).chk = s.chk ∧ (State.detectedOnly s r m verdict).txn = s.txn ∧
    (State.detectedOnly s r m verdict).hlk = s.hlk ∧ (State.detectedOnly s r m verdict).hac = s.hac ∧
    (State.detectedOnly s r m verdict).chain = s.chain ∧ (State.detectedOnly s r m verdict).mot = s.mot ∧
    (State.detectedOnly s r m verdict).miu = s.miu ∧ (State.detectedOnly s r m verdict).clk = s.clk ∧
    (State.detectedOnly s r m verdict).boot = s.boot ∧ (State.detectedOnly s r m verdict).cal = s.cal ∧
    (State.detectedOnly s r m verdict).mgt = s.mgt ∧ (State.detectedOnly s r m verdict).pwr = s.pwr := ⟨rfl, rfl, rfl, rfl, rfl, rfl, rfl, rfl, rfl, rfl, rfl, rfl, rfl, rfl, rfl, rfl, rfl, rfl, rfl, rfl, rfl, rfl, rfl, rfl⟩

@[simp] theorem State.replaceOne_frame (r : Fin 16) (line : ℕ) (s : State) (m : (Pipe × Fin 32) × Fin 4) :
    (State.replaceOne r line s m).pending = s.pending ∧ (State.replaceOne r line s m).aon = s.aon ∧
    (State.replaceOne r line s m).free = s.free ∧ (State.replaceOne r line s m).wires = s.wires ∧ (State.replaceOne r line s m).mem = s.mem ∧
    (State.replaceOne r line s m).mbx = s.mbx ∧ (State.replaceOne r line s m).hif = s.hif ∧ (State.replaceOne r line s m).dma = s.dma ∧
    (State.replaceOne r line s m).fsv = s.fsv ∧ (State.replaceOne r line s m).lsd = s.lsd ∧ (State.replaceOne r line s m).job = s.job ∧
    (State.replaceOne r line s m).layout = s.layout ∧ (State.replaceOne r line s m).hamper = s.hamper ∧
    (State.replaceOne r line s m).codec = s.codec ∧ (State.replaceOne r line s m).rows = s.rows ∧ (State.replaceOne r line s m).txn = s.txn ∧
    (State.replaceOne r line s m).hlk = s.hlk ∧ (State.replaceOne r line s m).hac = s.hac ∧ (State.replaceOne r line s m).chain = s.chain ∧
    (State.replaceOne r line s m).mot = s.mot ∧ (State.replaceOne r line s m).miu = s.miu ∧ (State.replaceOne r line s m).clk = s.clk ∧
    (State.replaceOne r line s m).boot = s.boot ∧ (State.replaceOne r line s m).cal = s.cal ∧ (State.replaceOne r line s m).mgt = s.mgt ∧
    (State.replaceOne r line s m).pwr = s.pwr := ⟨rfl, rfl, rfl, rfl, rfl, rfl, rfl, rfl, rfl, rfl, rfl, rfl, rfl, rfl, rfl, rfl, rfl, rfl, rfl, rfl, rfl, rfl, rfl, rfl, rfl, rfl⟩

@[simp] theorem State.wantSquash_frame (s : State) (r : Fin 16) (q : ℕ) (why : SquashWhy) :
    (State.wantSquash s r q why).pending = s.pending ∧ (State.wantSquash s r q why).aon = s.aon ∧ (State.wantSquash s r q why).free = s.free ∧
    (State.wantSquash s r q why).wires = s.wires ∧ (State.wantSquash s r q why).mem = s.mem ∧ (State.wantSquash s r q why).mbx = s.mbx ∧
    (State.wantSquash s r q why).hif = s.hif ∧ (State.wantSquash s r q why).dma = s.dma ∧ (State.wantSquash s r q why).fsv = s.fsv ∧
    (State.wantSquash s r q why).lsd = s.lsd ∧ (State.wantSquash s r q why).job = s.job ∧ (State.wantSquash s r q why).layout = s.layout ∧
    (State.wantSquash s r q why).hamper = s.hamper ∧ (State.wantSquash s r q why).codec = s.codec ∧ (State.wantSquash s r q why).chk = s.chk ∧
    (State.wantSquash s r q why).txn = s.txn ∧ (State.wantSquash s r q why).hlk = s.hlk ∧ (State.wantSquash s r q why).hac = s.hac ∧
    (State.wantSquash s r q why).chain = s.chain ∧ (State.wantSquash s r q why).mot = s.mot ∧ (State.wantSquash s r q why).miu = s.miu ∧
    (State.wantSquash s r q why).clk = s.clk ∧ (State.wantSquash s r q why).boot = s.boot ∧ (State.wantSquash s r q why).cal = s.cal ∧
    (State.wantSquash s r q why).mgt = s.mgt ∧ (State.wantSquash s r q why).pwr = s.pwr := ⟨rfl, rfl, rfl, rfl, rfl, rfl, rfl, rfl, rfl, rfl, rfl, rfl, rfl, rfl, rfl, rfl, rfl, rfl, rfl, rfl, rfl, rfl, rfl, rfl, rfl, rfl⟩

@[simp] theorem State.replaceAll_frame (s : State) (r : Fin 16) (m : Mismatch) (moves : List ((Pipe × Fin 32) × Fin 4)) :
    (State.replaceAll s r m moves).pending = s.pending ∧ (State.replaceAll s r m moves).aon = s.aon ∧
    (State.replaceAll s r m moves).free = s.free ∧ (State.replaceAll s r m moves).wires = s.wires ∧ (State.replaceAll s r m moves).mem = s.mem ∧
    (State.replaceAll s r m moves).hif = s.hif ∧ (State.replaceAll s r m moves).dma = s.dma ∧ (State.replaceAll s r m moves).lsd = s.lsd ∧
    (State.replaceAll s r m moves).job = s.job ∧ (State.replaceAll s r m moves).layout = s.layout ∧
    (State.replaceAll s r m moves).hamper = s.hamper ∧ (State.replaceAll s r m moves).codec = s.codec ∧
    (State.replaceAll s r m moves).txn = s.txn ∧ (State.replaceAll s r m moves).hlk = s.hlk ∧ (State.replaceAll s r m moves).hac = s.hac ∧
    (State.replaceAll s r m moves).chain = s.chain ∧ (State.replaceAll s r m moves).mot = s.mot ∧ (State.replaceAll s r m moves).miu = s.miu ∧
    (State.replaceAll s r m moves).clk = s.clk ∧ (State.replaceAll s r m moves).boot = s.boot ∧ (State.replaceAll s r m moves).cal = s.cal ∧
    (State.replaceAll s r m moves).mgt = s.mgt ∧ (State.replaceAll s r m moves).pwr = s.pwr := by
  generalize h : State.replaceAll s r m moves = u
  unfold State.replaceAll at h
  dsimp only at h
  (repeat' split at h) <;> subst h <;> simp

@[simp] theorem State.settled_frame (s : State) (r : Fin 16) (m : Mismatch) :
    (s.settled r m).pending = s.pending ∧ (s.settled r m).aon = s.aon ∧ (s.settled r m).free = s.free ∧ (s.settled r m).wires = s.wires ∧
    (s.settled r m).mem = s.mem ∧ (s.settled r m).mbx = s.mbx ∧ (s.settled r m).hif = s.hif ∧ (s.settled r m).dma = s.dma ∧
    (s.settled r m).fsv = s.fsv ∧ (s.settled r m).lsd = s.lsd ∧ (s.settled r m).job = s.job ∧ (s.settled r m).layout = s.layout ∧
    (s.settled r m).hamper = s.hamper ∧ (s.settled r m).codec = s.codec ∧ (s.settled r m).txn = s.txn ∧ (s.settled r m).hlk = s.hlk ∧
    (s.settled r m).hac = s.hac ∧ (s.settled r m).chain = s.chain ∧ (s.settled r m).mot = s.mot ∧ (s.settled r m).miu = s.miu ∧
    (s.settled r m).clk = s.clk ∧ (s.settled r m).boot = s.boot ∧ (s.settled r m).cal = s.cal ∧ (s.settled r m).mgt = s.mgt ∧
    (s.settled r m).pwr = s.pwr := by
  simp [State.settled]

@[simp] theorem State.decideVerdict_frame (s : State) (r : Fin 16) (m : Mismatch) (pair : Opinion) (fs : Option (List (Pipe × Fin 32))) :
    (s.decideVerdict r m pair fs).pending = s.pending ∧ (s.decideVerdict r m pair fs).aon = s.aon ∧
    (s.decideVerdict r m pair fs).free = s.free ∧ (s.decideVerdict r m pair fs).wires = s.wires ∧
    (s.decideVerdict r m pair fs).mem = s.mem ∧ (s.decideVerdict r m pair fs).hif = s.hif ∧ (s.decideVerdict r m pair fs).dma = s.dma ∧
    (s.decideVerdict r m pair fs).lsd = s.lsd ∧ (s.decideVerdict r m pair fs).job = s.job ∧
    (s.decideVerdict r m pair fs).layout = s.layout ∧ (s.decideVerdict r m pair fs).hamper = s.hamper ∧
    (s.decideVerdict r m pair fs).codec = s.codec ∧ (s.decideVerdict r m pair fs).txn = s.txn ∧
    (s.decideVerdict r m pair fs).hlk = s.hlk ∧ (s.decideVerdict r m pair fs).hac = s.hac ∧
    (s.decideVerdict r m pair fs).chain = s.chain ∧ (s.decideVerdict r m pair fs).mot = s.mot ∧
    (s.decideVerdict r m pair fs).miu = s.miu ∧ (s.decideVerdict r m pair fs).clk = s.clk ∧ (s.decideVerdict r m pair fs).boot = s.boot ∧
    (s.decideVerdict r m pair fs).cal = s.cal ∧ (s.decideVerdict r m pair fs).mgt = s.mgt ∧
    (s.decideVerdict r m pair fs).pwr = s.pwr := by
  unfold State.decideVerdict
  dsimp only
  (repeat' split) <;> simp

@[simp] theorem State.releasePair_frame (s : State) (r : Fin 16) :
    (s.releasePair r).pending = s.pending ∧ (s.releasePair r).aon = s.aon ∧ (s.releasePair r).free = s.free ∧
    (s.releasePair r).wires = s.wires ∧ (s.releasePair r).mem = s.mem ∧ (s.releasePair r).mbx = s.mbx ∧ (s.releasePair r).hif = s.hif ∧
    (s.releasePair r).dma = s.dma ∧ (s.releasePair r).fsv = s.fsv ∧ (s.releasePair r).lsd = s.lsd ∧ (s.releasePair r).job = s.job ∧
    (s.releasePair r).layout = s.layout ∧ (s.releasePair r).hamper = s.hamper ∧ (s.releasePair r).codec = s.codec ∧
    (s.releasePair r).rows = s.rows ∧ (s.releasePair r).txn = s.txn ∧ (s.releasePair r).hlk = s.hlk ∧ (s.releasePair r).hac = s.hac ∧
    (s.releasePair r).chain = s.chain ∧ (s.releasePair r).mot = s.mot ∧ (s.releasePair r).miu = s.miu ∧ (s.releasePair r).clk = s.clk ∧
    (s.releasePair r).boot = s.boot ∧ (s.releasePair r).cal = s.cal ∧ (s.releasePair r).mgt = s.mgt ∧ (s.releasePair r).pwr = s.pwr := by
  unfold State.releasePair
  dsimp only
  split <;> simp

@[simp] theorem State.noOpinion_frame (s : State) (r : Fin 16) (m : Mismatch) :
    (s.noOpinion r m).pending = s.pending ∧ (s.noOpinion r m).aon = s.aon ∧ (s.noOpinion r m).free = s.free ∧
    (s.noOpinion r m).wires = s.wires ∧ (s.noOpinion r m).mem = s.mem ∧ (s.noOpinion r m).hif = s.hif ∧ (s.noOpinion r m).dma = s.dma ∧
    (s.noOpinion r m).lsd = s.lsd ∧ (s.noOpinion r m).job = s.job ∧ (s.noOpinion r m).layout = s.layout ∧
    (s.noOpinion r m).hamper = s.hamper ∧ (s.noOpinion r m).codec = s.codec ∧ (s.noOpinion r m).txn = s.txn ∧
    (s.noOpinion r m).hlk = s.hlk ∧ (s.noOpinion r m).hac = s.hac ∧ (s.noOpinion r m).chain = s.chain ∧ (s.noOpinion r m).mot = s.mot ∧
    (s.noOpinion r m).miu = s.miu ∧ (s.noOpinion r m).clk = s.clk ∧ (s.noOpinion r m).boot = s.boot ∧ (s.noOpinion r m).cal = s.cal ∧
    (s.noOpinion r m).mgt = s.mgt ∧ (s.noOpinion r m).pwr = s.pwr := by
  simp [State.noOpinion]

@[simp] theorem State.takeVerdict_frame (s : State) (r : Fin 16) (m : Mismatch) (bad : CvuUpset) (o : Opinion) :
    (s.takeVerdict r m bad o).pending = s.pending ∧ (s.takeVerdict r m bad o).aon = s.aon ∧ (s.takeVerdict r m bad o).free = s.free ∧
    (s.takeVerdict r m bad o).wires = s.wires ∧ (s.takeVerdict r m bad o).mem = s.mem ∧ (s.takeVerdict r m bad o).hif = s.hif ∧
    (s.takeVerdict r m bad o).dma = s.dma ∧ (s.takeVerdict r m bad o).lsd = s.lsd ∧ (s.takeVerdict r m bad o).job = s.job ∧
    (s.takeVerdict r m bad o).layout = s.layout ∧ (s.takeVerdict r m bad o).hamper = s.hamper ∧
    (s.takeVerdict r m bad o).codec = s.codec ∧ (s.takeVerdict r m bad o).txn = s.txn ∧ (s.takeVerdict r m bad o).hlk = s.hlk ∧
    (s.takeVerdict r m bad o).hac = s.hac ∧ (s.takeVerdict r m bad o).chain = s.chain ∧ (s.takeVerdict r m bad o).mot = s.mot ∧
    (s.takeVerdict r m bad o).miu = s.miu ∧ (s.takeVerdict r m bad o).clk = s.clk ∧ (s.takeVerdict r m bad o).boot = s.boot ∧
    (s.takeVerdict r m bad o).cal = s.cal ∧ (s.takeVerdict r m bad o).mgt = s.mgt ∧ (s.takeVerdict r m bad o).pwr = s.pwr := by
  unfold State.takeVerdict
  dsimp only
  split <;> simp

@[simp] theorem State.lateOpinion_frame (s : State) (r : Fin 16) (m : Mismatch) (bad : CvuUpset) :
    (s.lateOpinion r m bad).pending = s.pending ∧ (s.lateOpinion r m bad).aon = s.aon ∧ (s.lateOpinion r m bad).free = s.free ∧
    (s.lateOpinion r m bad).wires = s.wires ∧ (s.lateOpinion r m bad).mem = s.mem ∧ (s.lateOpinion r m bad).hif = s.hif ∧
    (s.lateOpinion r m bad).dma = s.dma ∧ (s.lateOpinion r m bad).lsd = s.lsd ∧ (s.lateOpinion r m bad).job = s.job ∧
    (s.lateOpinion r m bad).layout = s.layout ∧ (s.lateOpinion r m bad).hamper = s.hamper ∧ (s.lateOpinion r m bad).codec = s.codec ∧
    (s.lateOpinion r m bad).txn = s.txn ∧ (s.lateOpinion r m bad).hlk = s.hlk ∧ (s.lateOpinion r m bad).hac = s.hac ∧
    (s.lateOpinion r m bad).chain = s.chain ∧ (s.lateOpinion r m bad).mot = s.mot ∧ (s.lateOpinion r m bad).miu = s.miu ∧
    (s.lateOpinion r m bad).clk = s.clk ∧ (s.lateOpinion r m bad).boot = s.boot ∧ (s.lateOpinion r m bad).cal = s.cal ∧
    (s.lateOpinion r m bad).mgt = s.mgt ∧ (s.lateOpinion r m bad).pwr = s.pwr := by
  unfold State.lateOpinion
  dsimp only
  (repeat' split) <;> simp

@[simp] theorem State.misEvent_frame (s : State) (r : Fin 16) (m : Mismatch) (cls : ℕ) :
    (State.misEvent s r m cls).pending = s.pending ∧ (State.misEvent s r m cls).aon = s.aon ∧ (State.misEvent s r m cls).free = s.free ∧
    (State.misEvent s r m cls).wires = s.wires ∧ (State.misEvent s r m cls).mem = s.mem ∧ (State.misEvent s r m cls).hif = s.hif ∧
    (State.misEvent s r m cls).dma = s.dma ∧ (State.misEvent s r m cls).fsv = s.fsv ∧ (State.misEvent s r m cls).lsd = s.lsd ∧
    (State.misEvent s r m cls).job = s.job ∧ (State.misEvent s r m cls).layout = s.layout ∧ (State.misEvent s r m cls).hamper = s.hamper ∧
    (State.misEvent s r m cls).codec = s.codec ∧ (State.misEvent s r m cls).rows = s.rows ∧ (State.misEvent s r m cls).chk = s.chk ∧
    (State.misEvent s r m cls).txn = s.txn ∧ (State.misEvent s r m cls).hlk = s.hlk ∧ (State.misEvent s r m cls).hac = s.hac ∧
    (State.misEvent s r m cls).chain = s.chain ∧ (State.misEvent s r m cls).mot = s.mot ∧ (State.misEvent s r m cls).miu = s.miu ∧
    (State.misEvent s r m cls).clk = s.clk ∧ (State.misEvent s r m cls).boot = s.boot ∧ (State.misEvent s r m cls).cal = s.cal ∧
    (State.misEvent s r m cls).mgt = s.mgt ∧ (State.misEvent s r m cls).pwr = s.pwr := ⟨rfl, rfl, rfl, rfl, rfl, rfl, rfl, rfl, rfl, rfl, rfl, rfl, rfl, rfl, rfl, rfl, rfl, rfl, rfl, rfl, rfl, rfl, rfl, rfl, rfl, rfl⟩

@[simp] theorem State.misLasting_frame (s : State) (r : Fin 16) (m : Mismatch) (bad : CvuUpset) :
    (s.misLasting r m bad).pending = s.pending ∧ (s.misLasting r m bad).aon = s.aon ∧ (s.misLasting r m bad).free = s.free ∧
    (s.misLasting r m bad).wires = s.wires ∧ (s.misLasting r m bad).mem = s.mem ∧ (s.misLasting r m bad).hif = s.hif ∧
    (s.misLasting r m bad).dma = s.dma ∧ (s.misLasting r m bad).lsd = s.lsd ∧ (s.misLasting r m bad).job = s.job ∧
    (s.misLasting r m bad).layout = s.layout ∧ (s.misLasting r m bad).hamper = s.hamper ∧ (s.misLasting r m bad).codec = s.codec ∧
    (s.misLasting r m bad).txn = s.txn ∧ (s.misLasting r m bad).hlk = s.hlk ∧ (s.misLasting r m bad).hac = s.hac ∧
    (s.misLasting r m bad).chain = s.chain ∧ (s.misLasting r m bad).mot = s.mot ∧ (s.misLasting r m bad).miu = s.miu ∧
    (s.misLasting r m bad).clk = s.clk ∧ (s.misLasting r m bad).boot = s.boot ∧ (s.misLasting r m bad).cal = s.cal ∧
    (s.misLasting r m bad).mgt = s.mgt ∧ (s.misLasting r m bad).pwr = s.pwr := by
  unfold State.misLasting
  dsimp only
  (repeat' split) <;> simp

@[simp] theorem State.mismatchAt_frame (s : State) (r : Fin 16) (h : Fin 32) (line : ℕ) (kind : MisKind) (seg : BitVec 16) (inj : Bool) (bad : CvuUpset) :
    (s.mismatchAt r h line kind seg inj bad).pending = s.pending ∧ (s.mismatchAt r h line kind seg inj bad).aon = s.aon ∧
    (s.mismatchAt r h line kind seg inj bad).free = s.free ∧ (s.mismatchAt r h line kind seg inj bad).wires = s.wires ∧
    (s.mismatchAt r h line kind seg inj bad).mem = s.mem ∧ (s.mismatchAt r h line kind seg inj bad).hif = s.hif ∧
    (s.mismatchAt r h line kind seg inj bad).dma = s.dma ∧ (s.mismatchAt r h line kind seg inj bad).lsd = s.lsd ∧
    (s.mismatchAt r h line kind seg inj bad).job = s.job ∧ (s.mismatchAt r h line kind seg inj bad).layout = s.layout ∧
    (s.mismatchAt r h line kind seg inj bad).hamper = s.hamper ∧ (s.mismatchAt r h line kind seg inj bad).codec = s.codec ∧
    (s.mismatchAt r h line kind seg inj bad).txn = s.txn ∧ (s.mismatchAt r h line kind seg inj bad).hlk = s.hlk ∧
    (s.mismatchAt r h line kind seg inj bad).hac = s.hac ∧ (s.mismatchAt r h line kind seg inj bad).chain = s.chain ∧
    (s.mismatchAt r h line kind seg inj bad).mot = s.mot ∧ (s.mismatchAt r h line kind seg inj bad).miu = s.miu ∧
    (s.mismatchAt r h line kind seg inj bad).clk = s.clk ∧ (s.mismatchAt r h line kind seg inj bad).boot = s.boot ∧
    (s.mismatchAt r h line kind seg inj bad).cal = s.cal ∧ (s.mismatchAt r h line kind seg inj bad).mgt = s.mgt ∧
    (s.mismatchAt r h line kind seg inj bad).pwr = s.pwr := by
  unfold State.mismatchAt
  dsimp only
  (repeat' split) <;> simp

@[simp] theorem State.bootStop_frame (s : State) (cause : Byte) :
    (State.bootStop s cause).pending = s.pending ∧ (State.bootStop s cause).aon = s.aon ∧ (State.bootStop s cause).free = s.free ∧
    (State.bootStop s cause).wires = s.wires ∧ (State.bootStop s cause).mem = s.mem ∧ (State.bootStop s cause).hif = s.hif ∧
    (State.bootStop s cause).dma = s.dma ∧ (State.bootStop s cause).fsv = s.fsv ∧ (State.bootStop s cause).lsd = s.lsd ∧
    (State.bootStop s cause).job = s.job ∧ (State.bootStop s cause).layout = s.layout ∧ (State.bootStop s cause).hamper = s.hamper ∧
    (State.bootStop s cause).codec = s.codec ∧ (State.bootStop s cause).rows = s.rows ∧ (State.bootStop s cause).chk = s.chk ∧
    (State.bootStop s cause).txn = s.txn ∧ (State.bootStop s cause).hlk = s.hlk ∧ (State.bootStop s cause).hac = s.hac ∧
    (State.bootStop s cause).chain = s.chain ∧ (State.bootStop s cause).mot = s.mot ∧ (State.bootStop s cause).miu = s.miu ∧
    (State.bootStop s cause).clk = s.clk ∧ (State.bootStop s cause).cal = s.cal ∧ (State.bootStop s cause).pwr = s.pwr := ⟨rfl, rfl, rfl, rfl, rfl, rfl, rfl, rfl, rfl, rfl, rfl, rfl, rfl, rfl, rfl, rfl, rfl, rfl, rfl, rfl, rfl, rfl, rfl, rfl⟩

@[simp] theorem State.stage_frame (s : State) (n : Byte) :
    (State.stage s n).pending = s.pending ∧ (State.stage s n).aon = s.aon ∧ (State.stage s n).free = s.free ∧
    (State.stage s n).wires = s.wires ∧ (State.stage s n).mem = s.mem ∧ (State.stage s n).mbx = s.mbx ∧ (State.stage s n).hif = s.hif ∧
    (State.stage s n).dma = s.dma ∧ (State.stage s n).fsv = s.fsv ∧ (State.stage s n).lsd = s.lsd ∧ (State.stage s n).job = s.job ∧
    (State.stage s n).layout = s.layout ∧ (State.stage s n).hamper = s.hamper ∧ (State.stage s n).codec = s.codec ∧
    (State.stage s n).rows = s.rows ∧ (State.stage s n).chk = s.chk ∧ (State.stage s n).txn = s.txn ∧ (State.stage s n).hlk = s.hlk ∧
    (State.stage s n).hac = s.hac ∧ (State.stage s n).chain = s.chain ∧ (State.stage s n).mot = s.mot ∧ (State.stage s n).miu = s.miu ∧
    (State.stage s n).clk = s.clk ∧ (State.stage s n).cal = s.cal ∧ (State.stage s n).mgt = s.mgt ∧ (State.stage s n).pwr = s.pwr := ⟨rfl, rfl, rfl, rfl, rfl, rfl, rfl, rfl, rfl, rfl, rfl, rfl, rfl, rfl, rfl, rfl, rfl, rfl, rfl, rfl, rfl, rfl, rfl, rfl, rfl, rfl⟩

@[simp] theorem State.doneAtOnce_frame (s : State) (i : Fin 8) (k : AxisKind) (o : Origin) :
    (State.doneAtOnce s i k o).pending = s.pending ∧ (State.doneAtOnce s i k o).aon = s.aon ∧ (State.doneAtOnce s i k o).free = s.free ∧
    (State.doneAtOnce s i k o).wires = s.wires ∧ (State.doneAtOnce s i k o).mem = s.mem ∧ (State.doneAtOnce s i k o).hif = s.hif ∧
    (State.doneAtOnce s i k o).dma = s.dma ∧ (State.doneAtOnce s i k o).fsv = s.fsv ∧ (State.doneAtOnce s i k o).lsd = s.lsd ∧
    (State.doneAtOnce s i k o).job = s.job ∧ (State.doneAtOnce s i k o).layout = s.layout ∧ (State.doneAtOnce s i k o).hamper = s.hamper ∧
    (State.doneAtOnce s i k o).codec = s.codec ∧ (State.doneAtOnce s i k o).rows = s.rows ∧ (State.doneAtOnce s i k o).chk = s.chk ∧
    (State.doneAtOnce s i k o).txn = s.txn ∧ (State.doneAtOnce s i k o).hlk = s.hlk ∧ (State.doneAtOnce s i k o).hac = s.hac ∧
    (State.doneAtOnce s i k o).chain = s.chain ∧ (State.doneAtOnce s i k o).mot = s.mot ∧ (State.doneAtOnce s i k o).miu = s.miu ∧
    (State.doneAtOnce s i k o).clk = s.clk ∧ (State.doneAtOnce s i k o).boot = s.boot ∧ (State.doneAtOnce s i k o).cal = s.cal ∧
    (State.doneAtOnce s i k o).mgt = s.mgt ∧ (State.doneAtOnce s i k o).pwr = s.pwr := by
  generalize h : State.doneAtOnce s i k o = u
  unfold State.doneAtOnce at h
  subst h
  simp

@[simp] theorem State.takeAxis_frame (s : State) (i : Fin 8) (code : ℕ) (k : AxisKind) (o : Origin) (f : Axis → Axis) :
    (State.takeAxis s i code k o f).pending = s.pending ∧ (State.takeAxis s i code k o f).aon = s.aon ∧
    (State.takeAxis s i code k o f).free = s.free ∧ (State.takeAxis s i code k o f).wires = s.wires ∧
    (State.takeAxis s i code k o f).mem = s.mem ∧ (State.takeAxis s i code k o f).hif = s.hif ∧ (State.takeAxis s i code k o f).dma = s.dma ∧
    (State.takeAxis s i code k o f).fsv = s.fsv ∧ (State.takeAxis s i code k o f).lsd = s.lsd ∧ (State.takeAxis s i code k o f).job = s.job ∧
    (State.takeAxis s i code k o f).layout = s.layout ∧ (State.takeAxis s i code k o f).hamper = s.hamper ∧
    (State.takeAxis s i code k o f).codec = s.codec ∧ (State.takeAxis s i code k o f).rows = s.rows ∧
    (State.takeAxis s i code k o f).chk = s.chk ∧ (State.takeAxis s i code k o f).txn = s.txn ∧ (State.takeAxis s i code k o f).hlk = s.hlk ∧
    (State.takeAxis s i code k o f).hac = s.hac ∧ (State.takeAxis s i code k o f).chain = s.chain ∧
    (State.takeAxis s i code k o f).miu = s.miu ∧ (State.takeAxis s i code k o f).clk = s.clk ∧ (State.takeAxis s i code k o f).boot = s.boot ∧
    (State.takeAxis s i code k o f).cal = s.cal ∧ (State.takeAxis s i code k o f).mgt = s.mgt ∧ (State.takeAxis s i code k o f).pwr = s.pwr := by
  generalize h : State.takeAxis s i code k o f = u
  unfold State.takeAxis at h
  subst h
  simp

@[simp] theorem State.settle_frame (s : State) (o : Origin) (e : Ev) :
    (State.settle s o e).pending = s.pending ∧ (State.settle s o e).aon = s.aon ∧ (State.settle s o e).free = s.free ∧
    (State.settle s o e).wires = s.wires ∧ (State.settle s o e).mem = s.mem ∧ (State.settle s o e).hif = s.hif ∧
    (State.settle s o e).dma = s.dma ∧ (State.settle s o e).fsv = s.fsv ∧ (State.settle s o e).lsd = s.lsd ∧ (State.settle s o e).job = s.job ∧
    (State.settle s o e).layout = s.layout ∧ (State.settle s o e).hamper = s.hamper ∧ (State.settle s o e).codec = s.codec ∧
    (State.settle s o e).rows = s.rows ∧ (State.settle s o e).chk = s.chk ∧ (State.settle s o e).txn = s.txn ∧
    (State.settle s o e).hlk = s.hlk ∧ (State.settle s o e).chain = s.chain ∧ (State.settle s o e).mot = s.mot ∧
    (State.settle s o e).miu = s.miu ∧ (State.settle s o e).clk = s.clk ∧ (State.settle s o e).boot = s.boot ∧
    (State.settle s o e).cal = s.cal ∧ (State.settle s o e).mgt = s.mgt ∧ (State.settle s o e).pwr = s.pwr := by
  generalize h : State.settle s o e = u
  unfold State.settle at h
  (repeat' split at h) <;> subst h <;> simp

@[simp] theorem State.commitDone_frame (s : State) (h : Fin 64) (outcome : ℕ) (recSeq : ℕ) (lines : ℕ) (drops : ℕ) :
    (State.commitDone s h outcome recSeq lines drops).pending = s.pending ∧ (State.commitDone s h outcome recSeq lines drops).aon = s.aon ∧
    (State.commitDone s h outcome recSeq lines drops).free = s.free ∧ (State.commitDone s h outcome recSeq lines drops).wires = s.wires ∧
    (State.commitDone s h outcome recSeq lines drops).mem = s.mem ∧ (State.commitDone s h outcome recSeq lines drops).hif = s.hif ∧
    (State.commitDone s h outcome recSeq lines drops).dma = s.dma ∧ (State.commitDone s h outcome recSeq lines drops).fsv = s.fsv ∧
    (State.commitDone s h outcome recSeq lines drops).lsd = s.lsd ∧ (State.commitDone s h outcome recSeq lines drops).job = s.job ∧
    (State.commitDone s h outcome recSeq lines drops).layout = s.layout ∧ (State.commitDone s h outcome recSeq lines drops).hamper = s.hamper ∧
    (State.commitDone s h outcome recSeq lines drops).codec = s.codec ∧ (State.commitDone s h outcome recSeq lines drops).rows = s.rows ∧
    (State.commitDone s h outcome recSeq lines drops).chk = s.chk ∧ (State.commitDone s h outcome recSeq lines drops).txn = s.txn ∧
    (State.commitDone s h outcome recSeq lines drops).hlk = s.hlk ∧ (State.commitDone s h outcome recSeq lines drops).chain = s.chain ∧
    (State.commitDone s h outcome recSeq lines drops).mot = s.mot ∧ (State.commitDone s h outcome recSeq lines drops).miu = s.miu ∧
    (State.commitDone s h outcome recSeq lines drops).clk = s.clk ∧ (State.commitDone s h outcome recSeq lines drops).boot = s.boot ∧
    (State.commitDone s h outcome recSeq lines drops).cal = s.cal ∧ (State.commitDone s h outcome recSeq lines drops).mgt = s.mgt ∧
    (State.commitDone s h outcome recSeq lines drops).pwr = s.pwr := by
  generalize h : State.commitDone s h outcome recSeq lines drops = u
  unfold State.commitDone at h
  subst h
  simp

@[simp] theorem State.commitFailed_frame (s : State) (h : Fin 64) :
    (State.commitFailed s h).pending = s.pending ∧ (State.commitFailed s h).aon = s.aon ∧ (State.commitFailed s h).free = s.free ∧
    (State.commitFailed s h).wires = s.wires ∧ (State.commitFailed s h).mem = s.mem ∧ (State.commitFailed s h).hif = s.hif ∧
    (State.commitFailed s h).dma = s.dma ∧ (State.commitFailed s h).lsd = s.lsd ∧ (State.commitFailed s h).job = s.job ∧
    (State.commitFailed s h).layout = s.layout ∧ (State.commitFailed s h).hamper = s.hamper ∧ (State.commitFailed s h).codec = s.codec ∧
    (State.commitFailed s h).rows = s.rows ∧ (State.commitFailed s h).chk = s.chk ∧ (State.commitFailed s h).txn = s.txn ∧
    (State.commitFailed s h).hlk = s.hlk ∧ (State.commitFailed s h).chain = s.chain ∧ (State.commitFailed s h).mot = s.mot ∧
    (State.commitFailed s h).miu = s.miu ∧ (State.commitFailed s h).clk = s.clk ∧ (State.commitFailed s h).boot = s.boot ∧
    (State.commitFailed s h).cal = s.cal ∧ (State.commitFailed s h).mgt = s.mgt ∧ (State.commitFailed s h).pwr = s.pwr := by
  generalize h : State.commitFailed s h = u
  unfold State.commitFailed at h
  subst h
  simp

@[simp] theorem State.encResume_frame (s : State) :
    (State.encResume s).pending = s.pending ∧ (State.encResume s).aon = s.aon ∧ (State.encResume s).free = s.free ∧
    (State.encResume s).wires = s.wires ∧ (State.encResume s).mem = s.mem ∧ (State.encResume s).mbx = s.mbx ∧ (State.encResume s).hif = s.hif ∧
    (State.encResume s).dma = s.dma ∧ (State.encResume s).fsv = s.fsv ∧ (State.encResume s).job = s.job ∧
    (State.encResume s).layout = s.layout ∧ (State.encResume s).hamper = s.hamper ∧ (State.encResume s).codec = s.codec ∧
    (State.encResume s).rows = s.rows ∧ (State.encResume s).chk = s.chk ∧ (State.encResume s).txn = s.txn ∧ (State.encResume s).hlk = s.hlk ∧
    (State.encResume s).hac = s.hac ∧ (State.encResume s).chain = s.chain ∧ (State.encResume s).mot = s.mot ∧ (State.encResume s).miu = s.miu ∧
    (State.encResume s).clk = s.clk ∧ (State.encResume s).boot = s.boot ∧ (State.encResume s).cal = s.cal ∧ (State.encResume s).mgt = s.mgt ∧
    (State.encResume s).pwr = s.pwr := by
  generalize h : State.encResume s = u
  unfold State.encResume at h
  (repeat' split at h) <;> subst h <;> simp

@[simp] theorem State.clkFault_frame (s : State) (source : ℕ) (domains : List (Fin 13)) (cls : ℕ) (forced : ℕ) :
    (State.clkFault s source domains cls forced).pending = s.pending ∧ (State.clkFault s source domains cls forced).aon = s.aon ∧
    (State.clkFault s source domains cls forced).free = s.free ∧ (State.clkFault s source domains cls forced).wires = s.wires ∧
    (State.clkFault s source domains cls forced).mem = s.mem ∧ (State.clkFault s source domains cls forced).hif = s.hif ∧
    (State.clkFault s source domains cls forced).dma = s.dma ∧ (State.clkFault s source domains cls forced).fsv = s.fsv ∧
    (State.clkFault s source domains cls forced).lsd = s.lsd ∧ (State.clkFault s source domains cls forced).job = s.job ∧
    (State.clkFault s source domains cls forced).layout = s.layout ∧ (State.clkFault s source domains cls forced).hamper = s.hamper ∧
    (State.clkFault s source domains cls forced).codec = s.codec ∧ (State.clkFault s source domains cls forced).rows = s.rows ∧
    (State.clkFault s source domains cls forced).chk = s.chk ∧ (State.clkFault s source domains cls forced).txn = s.txn ∧
    (State.clkFault s source domains cls forced).hlk = s.hlk ∧ (State.clkFault s source domains cls forced).hac = s.hac ∧
    (State.clkFault s source domains cls forced).chain = s.chain ∧ (State.clkFault s source domains cls forced).mot = s.mot ∧
    (State.clkFault s source domains cls forced).miu = s.miu ∧ (State.clkFault s source domains cls forced).clk = s.clk ∧
    (State.clkFault s source domains cls forced).boot = s.boot ∧ (State.clkFault s source domains cls forced).cal = s.cal ∧
    (State.clkFault s source domains cls forced).mgt = s.mgt ∧ (State.clkFault s source domains cls forced).pwr = s.pwr := ⟨rfl, rfl, rfl, rfl, rfl, rfl, rfl, rfl, rfl, rfl, rfl, rfl, rfl, rfl, rfl, rfl, rfl, rfl, rfl, rfl, rfl, rfl, rfl, rfl, rfl, rfl⟩

@[simp] theorem State.clkLasting_frame (s : State) (source : ℕ) (domains : List (Fin 13)) (o : FaultOutcome) (stops : Bool) :
    (State.clkLasting s source domains o stops).pending = s.pending ∧ (State.clkLasting s source domains o stops).aon = s.aon ∧
    (State.clkLasting s source domains o stops).free = s.free ∧ (State.clkLasting s source domains o stops).wires = s.wires ∧
    (State.clkLasting s source domains o stops).mem = s.mem ∧ (State.clkLasting s source domains o stops).hif = s.hif ∧
    (State.clkLasting s source domains o stops).dma = s.dma ∧ (State.clkLasting s source domains o stops).lsd = s.lsd ∧
    (State.clkLasting s source domains o stops).job = s.job ∧ (State.clkLasting s source domains o stops).layout = s.layout ∧
    (State.clkLasting s source domains o stops).hamper = s.hamper ∧ (State.clkLasting s source domains o stops).codec = s.codec ∧
    (State.clkLasting s source domains o stops).rows = s.rows ∧ (State.clkLasting s source domains o stops).chk = s.chk ∧
    (State.clkLasting s source domains o stops).txn = s.txn ∧ (State.clkLasting s source domains o stops).hlk = s.hlk ∧
    (State.clkLasting s source domains o stops).hac = s.hac ∧ (State.clkLasting s source domains o stops).chain = s.chain ∧
    (State.clkLasting s source domains o stops).mot = s.mot ∧ (State.clkLasting s source domains o stops).miu = s.miu ∧
    (State.clkLasting s source domains o stops).boot = s.boot ∧ (State.clkLasting s source domains o stops).cal = s.cal ∧
    (State.clkLasting s source domains o stops).mgt = s.mgt ∧ (State.clkLasting s source domains o stops).pwr = s.pwr := ⟨rfl, rfl, rfl, rfl, rfl, rfl, rfl, rfl, rfl, rfl, rfl, rfl, rfl, rfl, rfl, rfl, rfl, rfl, rfl, rfl, rfl, rfl, rfl, rfl⟩

@[simp] theorem State.chainVia_frame (s : State) (side : Side) (m : ChainMsg) :
    (State.chainVia s side m).pending = s.pending ∧ (State.chainVia s side m).aon = s.aon ∧ (State.chainVia s side m).free = s.free ∧
    (State.chainVia s side m).mem = s.mem ∧ (State.chainVia s side m).mbx = s.mbx ∧ (State.chainVia s side m).hif = s.hif ∧
    (State.chainVia s side m).dma = s.dma ∧ (State.chainVia s side m).fsv = s.fsv ∧ (State.chainVia s side m).lsd = s.lsd ∧
    (State.chainVia s side m).job = s.job ∧ (State.chainVia s side m).layout = s.layout ∧ (State.chainVia s side m).hamper = s.hamper ∧
    (State.chainVia s side m).codec = s.codec ∧ (State.chainVia s side m).rows = s.rows ∧ (State.chainVia s side m).chk = s.chk ∧
    (State.chainVia s side m).txn = s.txn ∧ (State.chainVia s side m).hac = s.hac ∧ (State.chainVia s side m).mot = s.mot ∧
    (State.chainVia s side m).miu = s.miu ∧ (State.chainVia s side m).clk = s.clk ∧ (State.chainVia s side m).boot = s.boot ∧
    (State.chainVia s side m).cal = s.cal ∧ (State.chainVia s side m).mgt = s.mgt ∧ (State.chainVia s side m).pwr = s.pwr := by
  generalize h : State.chainVia s side m = u
  unfold State.chainVia at h
  (repeat' split at h) <;> subst h <;> simp

@[simp] theorem State.chainSend_frame (s : State) (m : ChainMsg) :
    (State.chainSend s m).pending = s.pending ∧ (State.chainSend s m).aon = s.aon ∧ (State.chainSend s m).free = s.free ∧
    (State.chainSend s m).mem = s.mem ∧ (State.chainSend s m).mbx = s.mbx ∧ (State.chainSend s m).hif = s.hif ∧
    (State.chainSend s m).dma = s.dma ∧ (State.chainSend s m).fsv = s.fsv ∧ (State.chainSend s m).lsd = s.lsd ∧
    (State.chainSend s m).job = s.job ∧ (State.chainSend s m).layout = s.layout ∧ (State.chainSend s m).hamper = s.hamper ∧
    (State.chainSend s m).codec = s.codec ∧ (State.chainSend s m).rows = s.rows ∧ (State.chainSend s m).chk = s.chk ∧
    (State.chainSend s m).txn = s.txn ∧ (State.chainSend s m).hac = s.hac ∧ (State.chainSend s m).mot = s.mot ∧
    (State.chainSend s m).miu = s.miu ∧ (State.chainSend s m).clk = s.clk ∧ (State.chainSend s m).boot = s.boot ∧
    (State.chainSend s m).cal = s.cal ∧ (State.chainSend s m).mgt = s.mgt ∧ (State.chainSend s m).pwr = s.pwr := by
  generalize h : State.chainSend s m = u
  unfold State.chainSend at h
  (repeat' split at h) <;> subst h <;> simp

@[simp] theorem State.writeReply_frame (s : State) (m : Fin 8) (msg : List Byte) :
    (State.writeReply s m msg).pending = s.pending ∧ (State.writeReply s m msg).aon = s.aon ∧ (State.writeReply s m msg).free = s.free ∧
    (State.writeReply s m msg).mem = s.mem ∧ (State.writeReply s m msg).dma = s.dma ∧ (State.writeReply s m msg).fsv = s.fsv ∧
    (State.writeReply s m msg).lsd = s.lsd ∧ (State.writeReply s m msg).job = s.job ∧ (State.writeReply s m msg).layout = s.layout ∧
    (State.writeReply s m msg).hamper = s.hamper ∧ (State.writeReply s m msg).codec = s.codec ∧ (State.writeReply s m msg).rows = s.rows ∧
    (State.writeReply s m msg).chk = s.chk ∧ (State.writeReply s m msg).txn = s.txn ∧ (State.writeReply s m msg).hac = s.hac ∧
    (State.writeReply s m msg).mot = s.mot ∧ (State.writeReply s m msg).miu = s.miu ∧ (State.writeReply s m msg).clk = s.clk ∧
    (State.writeReply s m msg).boot = s.boot ∧ (State.writeReply s m msg).cal = s.cal ∧ (State.writeReply s m msg).pwr = s.pwr := by
  generalize h : State.writeReply s m msg = u
  unfold State.writeReply at h
  (repeat' split at h) <;> subst h <;> simp

@[simp] theorem State.deliver_frame (s : State) (m : Fin 8) (msg : List Byte) :
    (State.deliver s m msg).pending = s.pending ∧ (State.deliver s m msg).aon = s.aon ∧ (State.deliver s m msg).free = s.free ∧
    (State.deliver s m msg).mem = s.mem ∧ (State.deliver s m msg).dma = s.dma ∧ (State.deliver s m msg).fsv = s.fsv ∧
    (State.deliver s m msg).lsd = s.lsd ∧ (State.deliver s m msg).job = s.job ∧ (State.deliver s m msg).layout = s.layout ∧
    (State.deliver s m msg).hamper = s.hamper ∧ (State.deliver s m msg).codec = s.codec ∧ (State.deliver s m msg).rows = s.rows ∧
    (State.deliver s m msg).chk = s.chk ∧ (State.deliver s m msg).txn = s.txn ∧ (State.deliver s m msg).hac = s.hac ∧
    (State.deliver s m msg).mot = s.mot ∧ (State.deliver s m msg).miu = s.miu ∧ (State.deliver s m msg).clk = s.clk ∧
    (State.deliver s m msg).boot = s.boot ∧ (State.deliver s m msg).cal = s.cal ∧ (State.deliver s m msg).pwr = s.pwr := by
  generalize h : State.deliver s m msg = u
  unfold State.deliver at h
  subst h
  simp

@[simp] theorem State.retirePages_frame (s : State) (ext : List Extent) :
    (State.retirePages s ext).pending = s.pending ∧ (State.retirePages s ext).aon = s.aon ∧ (State.retirePages s ext).free = s.free ∧
    (State.retirePages s ext).wires = s.wires ∧ (State.retirePages s ext).mem = s.mem ∧ (State.retirePages s ext).mbx = s.mbx ∧
    (State.retirePages s ext).hif = s.hif ∧ (State.retirePages s ext).dma = s.dma ∧ (State.retirePages s ext).fsv = s.fsv ∧
    (State.retirePages s ext).lsd = s.lsd ∧ (State.retirePages s ext).job = s.job ∧ (State.retirePages s ext).layout = s.layout ∧
    (State.retirePages s ext).hamper = s.hamper ∧ (State.retirePages s ext).codec = s.codec ∧ (State.retirePages s ext).rows = s.rows ∧
    (State.retirePages s ext).chk = s.chk ∧ (State.retirePages s ext).txn = s.txn ∧ (State.retirePages s ext).hlk = s.hlk ∧
    (State.retirePages s ext).hac = s.hac ∧ (State.retirePages s ext).chain = s.chain ∧ (State.retirePages s ext).mot = s.mot ∧
    (State.retirePages s ext).clk = s.clk ∧ (State.retirePages s ext).boot = s.boot ∧ (State.retirePages s ext).cal = s.cal ∧
    (State.retirePages s ext).mgt = s.mgt ∧ (State.retirePages s ext).pwr = s.pwr := ⟨rfl, rfl, rfl, rfl, rfl, rfl, rfl, rfl, rfl, rfl, rfl, rfl, rfl, rfl, rfl, rfl, rfl, rfl, rfl, rfl, rfl, rfl, rfl, rfl, rfl, rfl⟩

@[simp] theorem State.freeTile_frame (s : State) (id : ℕ) :
    (State.freeTile s id).pending = s.pending ∧ (State.freeTile s id).aon = s.aon ∧ (State.freeTile s id).free = s.free ∧
    (State.freeTile s id).wires = s.wires ∧ (State.freeTile s id).mem = s.mem ∧ (State.freeTile s id).mbx = s.mbx ∧
    (State.freeTile s id).hif = s.hif ∧ (State.freeTile s id).dma = s.dma ∧ (State.freeTile s id).fsv = s.fsv ∧
    (State.freeTile s id).lsd = s.lsd ∧ (State.freeTile s id).job = s.job ∧ (State.freeTile s id).layout = s.layout ∧
    (State.freeTile s id).codec = s.codec ∧ (State.freeTile s id).rows = s.rows ∧ (State.freeTile s id).chk = s.chk ∧
    (State.freeTile s id).txn = s.txn ∧ (State.freeTile s id).hlk = s.hlk ∧ (State.freeTile s id).hac = s.hac ∧
    (State.freeTile s id).chain = s.chain ∧ (State.freeTile s id).mot = s.mot ∧ (State.freeTile s id).clk = s.clk ∧
    (State.freeTile s id).boot = s.boot ∧ (State.freeTile s id).cal = s.cal ∧ (State.freeTile s id).mgt = s.mgt ∧
    (State.freeTile s id).pwr = s.pwr := ⟨rfl, rfl, rfl, rfl, rfl, rfl, rfl, rfl, rfl, rfl, rfl, rfl, rfl, rfl, rfl, rfl, rfl, rfl, rfl, rfl, rfl, rfl, rfl, rfl, rfl⟩

@[simp] theorem State.stagedEvent_frame (s : State) (g : Staging) (st : Status) (detail : ℕ) (pages : ℕ) (stream : ℕ) (raw : ℕ) :
    (State.stagedEvent s g st detail pages stream raw).pending = s.pending ∧ (State.stagedEvent s g st detail pages stream raw).aon = s.aon ∧
    (State.stagedEvent s g st detail pages stream raw).free = s.free ∧ (State.stagedEvent s g st detail pages stream raw).wires = s.wires ∧
    (State.stagedEvent s g st detail pages stream raw).mem = s.mem ∧ (State.stagedEvent s g st detail pages stream raw).hif = s.hif ∧
    (State.stagedEvent s g st detail pages stream raw).dma = s.dma ∧ (State.stagedEvent s g st detail pages stream raw).fsv = s.fsv ∧
    (State.stagedEvent s g st detail pages stream raw).lsd = s.lsd ∧ (State.stagedEvent s g st detail pages stream raw).job = s.job ∧
    (State.stagedEvent s g st detail pages stream raw).layout = s.layout ∧
    (State.stagedEvent s g st detail pages stream raw).hamper = s.hamper ∧ (State.stagedEvent s g st detail pages stream raw).codec = s.codec ∧
    (State.stagedEvent s g st detail pages stream raw).rows = s.rows ∧ (State.stagedEvent s g st detail pages stream raw).chk = s.chk ∧
    (State.stagedEvent s g st detail pages stream raw).txn = s.txn ∧ (State.stagedEvent s g st detail pages stream raw).hlk = s.hlk ∧
    (State.stagedEvent s g st detail pages stream raw).hac = s.hac ∧ (State.stagedEvent s g st detail pages stream raw).chain = s.chain ∧
    (State.stagedEvent s g st detail pages stream raw).mot = s.mot ∧ (State.stagedEvent s g st detail pages stream raw).miu = s.miu ∧
    (State.stagedEvent s g st detail pages stream raw).clk = s.clk ∧ (State.stagedEvent s g st detail pages stream raw).boot = s.boot ∧
    (State.stagedEvent s g st detail pages stream raw).cal = s.cal ∧ (State.stagedEvent s g st detail pages stream raw).mgt = s.mgt ∧
    (State.stagedEvent s g st detail pages stream raw).pwr = s.pwr := by
  generalize h : State.stagedEvent s g st detail pages stream raw = u
  unfold State.stagedEvent at h
  subst h
  simp

@[simp] theorem State.setJob_frame (s : State) (state : JobState) :
    (State.setJob s state).pending = s.pending ∧ (State.setJob s state).aon = s.aon ∧ (State.setJob s state).free = s.free ∧
    (State.setJob s state).wires = s.wires ∧ (State.setJob s state).mem = s.mem ∧ (State.setJob s state).mbx = s.mbx ∧
    (State.setJob s state).hif = s.hif ∧ (State.setJob s state).dma = s.dma ∧ (State.setJob s state).fsv = s.fsv ∧
    (State.setJob s state).lsd = s.lsd ∧ (State.setJob s state).layout = s.layout ∧ (State.setJob s state).hamper = s.hamper ∧
    (State.setJob s state).codec = s.codec ∧ (State.setJob s state).rows = s.rows ∧ (State.setJob s state).chk = s.chk ∧
    (State.setJob s state).txn = s.txn ∧ (State.setJob s state).hlk = s.hlk ∧ (State.setJob s state).hac = s.hac ∧
    (State.setJob s state).chain = s.chain ∧ (State.setJob s state).mot = s.mot ∧ (State.setJob s state).miu = s.miu ∧
    (State.setJob s state).clk = s.clk ∧ (State.setJob s state).boot = s.boot ∧ (State.setJob s state).cal = s.cal ∧
    (State.setJob s state).mgt = s.mgt ∧ (State.setJob s state).pwr = s.pwr := ⟨rfl, rfl, rfl, rfl, rfl, rfl, rfl, rfl, rfl, rfl, rfl, rfl, rfl, rfl, rfl, rfl, rfl, rfl, rfl, rfl, rfl, rfl, rfl, rfl, rfl, rfl⟩

@[simp] theorem State.endCapture_frame (s : State) (reason : ℕ) :
    (State.endCapture s reason).pending = s.pending ∧ (State.endCapture s reason).aon = s.aon ∧ (State.endCapture s reason).free = s.free ∧
    (State.endCapture s reason).wires = s.wires ∧ (State.endCapture s reason).mem = s.mem ∧ (State.endCapture s reason).hif = s.hif ∧
    (State.endCapture s reason).dma = s.dma ∧ (State.endCapture s reason).fsv = s.fsv ∧ (State.endCapture s reason).lsd = s.lsd ∧
    (State.endCapture s reason).job = s.job ∧ (State.endCapture s reason).layout = s.layout ∧ (State.endCapture s reason).codec = s.codec ∧
    (State.endCapture s reason).rows = s.rows ∧ (State.endCapture s reason).chk = s.chk ∧ (State.endCapture s reason).txn = s.txn ∧
    (State.endCapture s reason).hlk = s.hlk ∧ (State.endCapture s reason).hac = s.hac ∧ (State.endCapture s reason).chain = s.chain ∧
    (State.endCapture s reason).mot = s.mot ∧ (State.endCapture s reason).miu = s.miu ∧ (State.endCapture s reason).clk = s.clk ∧
    (State.endCapture s reason).boot = s.boot ∧ (State.endCapture s reason).cal = s.cal ∧ (State.endCapture s reason).mgt = s.mgt ∧
    (State.endCapture s reason).pwr = s.pwr := by
  generalize h : State.endCapture s reason = u
  unfold State.endCapture at h
  (repeat' split at h) <;> subst h <;> simp

@[simp] theorem State.withholdRows_frame (s : State) (rows : BitVec 16) (first : ℕ) :
    (State.withholdRows s rows first).pending = s.pending ∧ (State.withholdRows s rows first).aon = s.aon ∧
    (State.withholdRows s rows first).free = s.free ∧ (State.withholdRows s rows first).wires = s.wires ∧
    (State.withholdRows s rows first).mem = s.mem ∧ (State.withholdRows s rows first).mbx = s.mbx ∧
    (State.withholdRows s rows first).hif = s.hif ∧ (State.withholdRows s rows first).dma = s.dma ∧
    (State.withholdRows s rows first).fsv = s.fsv ∧ (State.withholdRows s rows first).lsd = s.lsd ∧
    (State.withholdRows s rows first).layout = s.layout ∧ (State.withholdRows s rows first).hamper = s.hamper ∧
    (State.withholdRows s rows first).codec = s.codec ∧ (State.withholdRows s rows first).rows = s.rows ∧
    (State.withholdRows s rows first).chk = s.chk ∧ (State.withholdRows s rows first).txn = s.txn ∧
    (State.withholdRows s rows first).hlk = s.hlk ∧ (State.withholdRows s rows first).hac = s.hac ∧
    (State.withholdRows s rows first).chain = s.chain ∧ (State.withholdRows s rows first).mot = s.mot ∧
    (State.withholdRows s rows first).miu = s.miu ∧ (State.withholdRows s rows first).clk = s.clk ∧
    (State.withholdRows s rows first).boot = s.boot ∧ (State.withholdRows s rows first).cal = s.cal ∧
    (State.withholdRows s rows first).mgt = s.mgt ∧ (State.withholdRows s rows first).pwr = s.pwr := by
  generalize h : State.withholdRows s rows first = u
  unfold State.withholdRows at h
  subst h
  simp

@[simp] theorem State.wantStop_frame (s : State) (reason : Byte) (fclass : Byte) (seq : ℕ) (rows : BitVec 16) (first : ℕ) :
    (State.wantStop s reason fclass seq rows first).pending = s.pending ∧ (State.wantStop s reason fclass seq rows first).aon = s.aon ∧
    (State.wantStop s reason fclass seq rows first).free = s.free ∧ (State.wantStop s reason fclass seq rows first).wires = s.wires ∧
    (State.wantStop s reason fclass seq rows first).mem = s.mem ∧ (State.wantStop s reason fclass seq rows first).mbx = s.mbx ∧
    (State.wantStop s reason fclass seq rows first).hif = s.hif ∧ (State.wantStop s reason fclass seq rows first).dma = s.dma ∧
    (State.wantStop s reason fclass seq rows first).lsd = s.lsd ∧ (State.wantStop s reason fclass seq rows first).layout = s.layout ∧
    (State.wantStop s reason fclass seq rows first).hamper = s.hamper ∧ (State.wantStop s reason fclass seq rows first).codec = s.codec ∧
    (State.wantStop s reason fclass seq rows first).rows = s.rows ∧ (State.wantStop s reason fclass seq rows first).chk = s.chk ∧
    (State.wantStop s reason fclass seq rows first).txn = s.txn ∧ (State.wantStop s reason fclass seq rows first).hlk = s.hlk ∧
    (State.wantStop s reason fclass seq rows first).hac = s.hac ∧ (State.wantStop s reason fclass seq rows first).chain = s.chain ∧
    (State.wantStop s reason fclass seq rows first).mot = s.mot ∧ (State.wantStop s reason fclass seq rows first).miu = s.miu ∧
    (State.wantStop s reason fclass seq rows first).clk = s.clk ∧ (State.wantStop s reason fclass seq rows first).boot = s.boot ∧
    (State.wantStop s reason fclass seq rows first).cal = s.cal ∧ (State.wantStop s reason fclass seq rows first).mgt = s.mgt ∧
    (State.wantStop s reason fclass seq rows first).pwr = s.pwr := by
  generalize h : State.wantStop s reason fclass seq rows first = u
  unfold State.wantStop at h
  (repeat' split at h) <;> subst h <;> simp

@[simp] theorem State.setSource_frame (s : State) (i : Fin 5) (x : SourceState) :
    (State.setSource s i x).pending = s.pending ∧ (State.setSource s i x).aon = s.aon ∧ (State.setSource s i x).free = s.free ∧
    (State.setSource s i x).wires = s.wires ∧ (State.setSource s i x).mem = s.mem ∧ (State.setSource s i x).mbx = s.mbx ∧
    (State.setSource s i x).hif = s.hif ∧ (State.setSource s i x).dma = s.dma ∧ (State.setSource s i x).fsv = s.fsv ∧
    (State.setSource s i x).lsd = s.lsd ∧ (State.setSource s i x).job = s.job ∧ (State.setSource s i x).layout = s.layout ∧
    (State.setSource s i x).hamper = s.hamper ∧ (State.setSource s i x).codec = s.codec ∧ (State.setSource s i x).rows = s.rows ∧
    (State.setSource s i x).chk = s.chk ∧ (State.setSource s i x).txn = s.txn ∧ (State.setSource s i x).hlk = s.hlk ∧
    (State.setSource s i x).hac = s.hac ∧ (State.setSource s i x).chain = s.chain ∧ (State.setSource s i x).mot = s.mot ∧
    (State.setSource s i x).miu = s.miu ∧ (State.setSource s i x).boot = s.boot ∧ (State.setSource s i x).cal = s.cal ∧
    (State.setSource s i x).mgt = s.mgt ∧ (State.setSource s i x).pwr = s.pwr := ⟨rfl, rfl, rfl, rfl, rfl, rfl, rfl, rfl, rfl, rfl, rfl, rfl, rfl, rfl, rfl, rfl, rfl, rfl, rfl, rfl, rfl, rfl, rfl, rfl, rfl, rfl⟩

@[simp] theorem State.jobEvent_frame (s : State) (o : Option Origin) (st : Status) :
    (State.jobEvent s o st).pending = s.pending ∧ (State.jobEvent s o st).aon = s.aon ∧ (State.jobEvent s o st).free = s.free ∧
    (State.jobEvent s o st).wires = s.wires ∧ (State.jobEvent s o st).mem = s.mem ∧ (State.jobEvent s o st).hif = s.hif ∧
    (State.jobEvent s o st).dma = s.dma ∧ (State.jobEvent s o st).fsv = s.fsv ∧ (State.jobEvent s o st).lsd = s.lsd ∧
    (State.jobEvent s o st).job = s.job ∧ (State.jobEvent s o st).layout = s.layout ∧ (State.jobEvent s o st).hamper = s.hamper ∧
    (State.jobEvent s o st).codec = s.codec ∧ (State.jobEvent s o st).rows = s.rows ∧ (State.jobEvent s o st).chk = s.chk ∧
    (State.jobEvent s o st).txn = s.txn ∧ (State.jobEvent s o st).hlk = s.hlk ∧ (State.jobEvent s o st).hac = s.hac ∧
    (State.jobEvent s o st).chain = s.chain ∧ (State.jobEvent s o st).mot = s.mot ∧ (State.jobEvent s o st).miu = s.miu ∧
    (State.jobEvent s o st).clk = s.clk ∧ (State.jobEvent s o st).boot = s.boot ∧ (State.jobEvent s o st).cal = s.cal ∧
    (State.jobEvent s o st).mgt = s.mgt ∧ (State.jobEvent s o st).pwr = s.pwr := ⟨rfl, rfl, rfl, rfl, rfl, rfl, rfl, rfl, rfl, rfl, rfl, rfl, rfl, rfl, rfl, rfl, rfl, rfl, rfl, rfl, rfl, rfl, rfl, rfl, rfl, rfl⟩

@[simp] theorem State.useInjection_frame (s : State) (target : ℕ) (h : Fin 32) (n : ℕ) :
    (State.useInjection s target h n).pending = s.pending ∧ (State.useInjection s target h n).aon = s.aon ∧
    (State.useInjection s target h n).free = s.free ∧ (State.useInjection s target h n).wires = s.wires ∧
    (State.useInjection s target h n).mem = s.mem ∧ (State.useInjection s target h n).mbx = s.mbx ∧
    (State.useInjection s target h n).hif = s.hif ∧ (State.useInjection s target h n).dma = s.dma ∧
    (State.useInjection s target h n).fsv = s.fsv ∧ (State.useInjection s target h n).lsd = s.lsd ∧
    (State.useInjection s target h n).job = s.job ∧ (State.useInjection s target h n).layout = s.layout ∧
    (State.useInjection s target h n).hamper = s.hamper ∧ (State.useInjection s target h n).codec = s.codec ∧
    (State.useInjection s target h n).rows = s.rows ∧ (State.useInjection s target h n).txn = s.txn ∧
    (State.useInjection s target h n).hlk = s.hlk ∧ (State.useInjection s target h n).hac = s.hac ∧
    (State.useInjection s target h n).chain = s.chain ∧ (State.useInjection s target h n).mot = s.mot ∧
    (State.useInjection s target h n).miu = s.miu ∧ (State.useInjection s target h n).clk = s.clk ∧
    (State.useInjection s target h n).boot = s.boot ∧ (State.useInjection s target h n).cal = s.cal ∧
    (State.useInjection s target h n).mgt = s.mgt ∧ (State.useInjection s target h n).pwr = s.pwr := ⟨rfl, rfl, rfl, rfl, rfl, rfl, rfl, rfl, rfl, rfl, rfl, rfl, rfl, rfl, rfl, rfl, rfl, rfl, rfl, rfl, rfl, rfl, rfl, rfl, rfl, rfl⟩

@[simp] theorem State.wasteTrack_frame (s : State) :
    (State.wasteTrack s).pending = s.pending ∧ (State.wasteTrack s).aon = s.aon ∧ (State.wasteTrack s).free = s.free ∧
    (State.wasteTrack s).mem = s.mem ∧ (State.wasteTrack s).mbx = s.mbx ∧ (State.wasteTrack s).dma = s.dma ∧ (State.wasteTrack s).lsd = s.lsd ∧
    (State.wasteTrack s).job = s.job ∧ (State.wasteTrack s).layout = s.layout ∧ (State.wasteTrack s).hamper = s.hamper ∧
    (State.wasteTrack s).codec = s.codec ∧ (State.wasteTrack s).rows = s.rows ∧ (State.wasteTrack s).chk = s.chk ∧
    (State.wasteTrack s).txn = s.txn ∧ (State.wasteTrack s).hlk = s.hlk ∧ (State.wasteTrack s).hac = s.hac ∧
    (State.wasteTrack s).chain = s.chain ∧ (State.wasteTrack s).mot = s.mot ∧ (State.wasteTrack s).miu = s.miu ∧
    (State.wasteTrack s).clk = s.clk ∧ (State.wasteTrack s).boot = s.boot ∧ (State.wasteTrack s).cal = s.cal ∧ (State.wasteTrack s).pwr = s.pwr := by
  generalize h : State.wasteTrack s = u
  unfold State.wasteTrack at h
  (repeat' split at h) <;> subst h <;> simp

@[simp] theorem State.setRestarted_frame (s : State) (i : Fin 5) (b : Bool) :
    (State.setRestarted s i b).pending = s.pending ∧ (State.setRestarted s i b).aon = s.aon ∧ (State.setRestarted s i b).free = s.free ∧
    (State.setRestarted s i b).wires = s.wires ∧ (State.setRestarted s i b).mem = s.mem ∧ (State.setRestarted s i b).mbx = s.mbx ∧
    (State.setRestarted s i b).hif = s.hif ∧ (State.setRestarted s i b).dma = s.dma ∧ (State.setRestarted s i b).fsv = s.fsv ∧
    (State.setRestarted s i b).lsd = s.lsd ∧ (State.setRestarted s i b).job = s.job ∧ (State.setRestarted s i b).layout = s.layout ∧
    (State.setRestarted s i b).hamper = s.hamper ∧ (State.setRestarted s i b).codec = s.codec ∧ (State.setRestarted s i b).rows = s.rows ∧
    (State.setRestarted s i b).chk = s.chk ∧ (State.setRestarted s i b).txn = s.txn ∧ (State.setRestarted s i b).hlk = s.hlk ∧
    (State.setRestarted s i b).hac = s.hac ∧ (State.setRestarted s i b).chain = s.chain ∧ (State.setRestarted s i b).mot = s.mot ∧
    (State.setRestarted s i b).miu = s.miu ∧ (State.setRestarted s i b).boot = s.boot ∧ (State.setRestarted s i b).cal = s.cal ∧
    (State.setRestarted s i b).mgt = s.mgt ∧ (State.setRestarted s i b).pwr = s.pwr := ⟨rfl, rfl, rfl, rfl, rfl, rfl, rfl, rfl, rfl, rfl, rfl, rfl, rfl, rfl, rfl, rfl, rfl, rfl, rfl, rfl, rfl, rfl, rfl, rfl, rfl, rfl⟩

@[simp] theorem State.txnResult_frame (s : State) (o : Option Origin) (group : BitVec 32) (st : Status) (detail : ℕ) (line : ℕ) (coordinator : Fin 16) :
    (State.txnResult s o group st detail line coordinator).pending = s.pending ∧
    (State.txnResult s o group st detail line coordinator).aon = s.aon ∧ (State.txnResult s o group st detail line coordinator).free = s.free ∧
    (State.txnResult s o group st detail line coordinator).wires = s.wires ∧
    (State.txnResult s o group st detail line coordinator).mem = s.mem ∧ (State.txnResult s o group st detail line coordinator).hif = s.hif ∧
    (State.txnResult s o group st detail line coordinator).dma = s.dma ∧ (State.txnResult s o group st detail line coordinator).fsv = s.fsv ∧
    (State.txnResult s o group st detail line coordinator).lsd = s.lsd ∧ (State.txnResult s o group st detail line coordinator).job = s.job ∧
    (State.txnResult s o group st detail line coordinator).layout = s.layout ∧
    (State.txnResult s o group st detail line coordinator).hamper = s.hamper ∧
    (State.txnResult s o group st detail line coordinator).codec = s.codec ∧
    (State.txnResult s o group st detail line coordinator).rows = s.rows ∧ (State.txnResult s o group st detail line coordinator).chk = s.chk ∧
    (State.txnResult s o group st detail line coordinator).txn = s.txn ∧ (State.txnResult s o group st detail line coordinator).hlk = s.hlk ∧
    (State.txnResult s o group st detail line coordinator).hac = s.hac ∧
    (State.txnResult s o group st detail line coordinator).chain = s.chain ∧
    (State.txnResult s o group st detail line coordinator).mot = s.mot ∧ (State.txnResult s o group st detail line coordinator).miu = s.miu ∧
    (State.txnResult s o group st detail line coordinator).clk = s.clk ∧ (State.txnResult s o group st detail line coordinator).boot = s.boot ∧
    (State.txnResult s o group st detail line coordinator).cal = s.cal ∧ (State.txnResult s o group st detail line coordinator).mgt = s.mgt ∧
    (State.txnResult s o group st detail line coordinator).pwr = s.pwr := by
  generalize h : State.txnResult s o group st detail line coordinator = u
  unfold State.txnResult at h
  subst h
  simp

@[simp] theorem State.txnAbort_frame (s : State) (g : Group) (o : Option Origin) (detail : ℕ) :
    (State.txnAbort s g o detail).pending = s.pending ∧ (State.txnAbort s g o detail).aon = s.aon ∧
    (State.txnAbort s g o detail).free = s.free ∧ (State.txnAbort s g o detail).wires = s.wires ∧ (State.txnAbort s g o detail).mem = s.mem ∧
    (State.txnAbort s g o detail).hif = s.hif ∧ (State.txnAbort s g o detail).dma = s.dma ∧ (State.txnAbort s g o detail).fsv = s.fsv ∧
    (State.txnAbort s g o detail).lsd = s.lsd ∧ (State.txnAbort s g o detail).job = s.job ∧ (State.txnAbort s g o detail).layout = s.layout ∧
    (State.txnAbort s g o detail).hamper = s.hamper ∧ (State.txnAbort s g o detail).codec = s.codec ∧
    (State.txnAbort s g o detail).rows = s.rows ∧ (State.txnAbort s g o detail).chk = s.chk ∧ (State.txnAbort s g o detail).hlk = s.hlk ∧
    (State.txnAbort s g o detail).hac = s.hac ∧ (State.txnAbort s g o detail).chain = s.chain ∧ (State.txnAbort s g o detail).mot = s.mot ∧
    (State.txnAbort s g o detail).miu = s.miu ∧ (State.txnAbort s g o detail).clk = s.clk ∧ (State.txnAbort s g o detail).boot = s.boot ∧
    (State.txnAbort s g o detail).cal = s.cal ∧ (State.txnAbort s g o detail).mgt = s.mgt ∧ (State.txnAbort s g o detail).pwr = s.pwr := by
  generalize h : State.txnAbort s g o detail = u
  unfold State.txnAbort at h
  (repeat' split at h) <;> subst h <;> simp

@[simp] theorem State.boundary_frame (s : State) (r : Fin 16) (kind : ℕ) (line : ℕ) :
    (State.boundary s r kind line).pending = s.pending ∧ (State.boundary s r kind line).aon = s.aon ∧
    (State.boundary s r kind line).free = s.free ∧ (State.boundary s r kind line).wires = s.wires ∧ (State.boundary s r kind line).mem = s.mem ∧
    (State.boundary s r kind line).hif = s.hif ∧ (State.boundary s r kind line).dma = s.dma ∧ (State.boundary s r kind line).fsv = s.fsv ∧
    (State.boundary s r kind line).lsd = s.lsd ∧ (State.boundary s r kind line).job = s.job ∧ (State.boundary s r kind line).layout = s.layout ∧
    (State.boundary s r kind line).hamper = s.hamper ∧ (State.boundary s r kind line).codec = s.codec ∧
    (State.boundary s r kind line).rows = s.rows ∧ (State.boundary s r kind line).chk = s.chk ∧ (State.boundary s r kind line).txn = s.txn ∧
    (State.boundary s r kind line).hlk = s.hlk ∧ (State.boundary s r kind line).hac = s.hac ∧ (State.boundary s r kind line).chain = s.chain ∧
    (State.boundary s r kind line).mot = s.mot ∧ (State.boundary s r kind line).miu = s.miu ∧ (State.boundary s r kind line).clk = s.clk ∧
    (State.boundary s r kind line).boot = s.boot ∧ (State.boundary s r kind line).cal = s.cal ∧ (State.boundary s r kind line).mgt = s.mgt ∧
    (State.boundary s r kind line).pwr = s.pwr := ⟨rfl, rfl, rfl, rfl, rfl, rfl, rfl, rfl, rfl, rfl, rfl, rfl, rfl, rfl, rfl, rfl, rfl, rfl, rfl, rfl, rfl, rfl, rfl, rfl, rfl, rfl⟩

@[simp] theorem State.encLasting_frame (s : State) (p : PendingCheck) :
    (State.encLasting s p).pending = s.pending ∧ (State.encLasting s p).aon = s.aon ∧ (State.encLasting s p).free = s.free ∧
    (State.encLasting s p).wires = s.wires ∧ (State.encLasting s p).mem = s.mem ∧ (State.encLasting s p).hif = s.hif ∧
    (State.encLasting s p).dma = s.dma ∧ (State.encLasting s p).job = s.job ∧ (State.encLasting s p).layout = s.layout ∧
    (State.encLasting s p).hamper = s.hamper ∧ (State.encLasting s p).codec = s.codec ∧ (State.encLasting s p).rows = s.rows ∧
    (State.encLasting s p).chk = s.chk ∧ (State.encLasting s p).txn = s.txn ∧ (State.encLasting s p).hlk = s.hlk ∧
    (State.encLasting s p).hac = s.hac ∧ (State.encLasting s p).chain = s.chain ∧ (State.encLasting s p).mot = s.mot ∧
    (State.encLasting s p).miu = s.miu ∧ (State.encLasting s p).clk = s.clk ∧ (State.encLasting s p).boot = s.boot ∧
    (State.encLasting s p).cal = s.cal ∧ (State.encLasting s p).mgt = s.mgt ∧ (State.encLasting s p).pwr = s.pwr := by
  generalize h : State.encLasting s p = u
  unfold State.encLasting at h
  subst h
  simp

@[simp] theorem State.encConfirm_frame (s : State) (ok : Bool) :
    (State.encConfirm s ok).pending = s.pending ∧ (State.encConfirm s ok).aon = s.aon ∧ (State.encConfirm s ok).free = s.free ∧
    (State.encConfirm s ok).wires = s.wires ∧ (State.encConfirm s ok).mem = s.mem ∧ (State.encConfirm s ok).hif = s.hif ∧
    (State.encConfirm s ok).dma = s.dma ∧ (State.encConfirm s ok).job = s.job ∧ (State.encConfirm s ok).layout = s.layout ∧
    (State.encConfirm s ok).hamper = s.hamper ∧ (State.encConfirm s ok).codec = s.codec ∧ (State.encConfirm s ok).rows = s.rows ∧
    (State.encConfirm s ok).chk = s.chk ∧ (State.encConfirm s ok).txn = s.txn ∧ (State.encConfirm s ok).hlk = s.hlk ∧
    (State.encConfirm s ok).hac = s.hac ∧ (State.encConfirm s ok).chain = s.chain ∧ (State.encConfirm s ok).mot = s.mot ∧
    (State.encConfirm s ok).miu = s.miu ∧ (State.encConfirm s ok).clk = s.clk ∧ (State.encConfirm s ok).boot = s.boot ∧
    (State.encConfirm s ok).cal = s.cal ∧ (State.encConfirm s ok).mgt = s.mgt ∧ (State.encConfirm s ok).pwr = s.pwr := by
  generalize h : State.encConfirm s ok = u
  unfold State.encConfirm at h
  (repeat' split at h) <;> subst h <;> simp

@[simp] theorem State.encFail_frame (s : State) (check : EncCheck) :
    (State.encFail s check).pending = s.pending ∧ (State.encFail s check).aon = s.aon ∧ (State.encFail s check).free = s.free ∧
    (State.encFail s check).wires = s.wires ∧ (State.encFail s check).mem = s.mem ∧ (State.encFail s check).hif = s.hif ∧
    (State.encFail s check).dma = s.dma ∧ (State.encFail s check).job = s.job ∧ (State.encFail s check).layout = s.layout ∧
    (State.encFail s check).hamper = s.hamper ∧ (State.encFail s check).codec = s.codec ∧ (State.encFail s check).rows = s.rows ∧
    (State.encFail s check).chk = s.chk ∧ (State.encFail s check).txn = s.txn ∧ (State.encFail s check).hlk = s.hlk ∧
    (State.encFail s check).hac = s.hac ∧ (State.encFail s check).chain = s.chain ∧ (State.encFail s check).mot = s.mot ∧
    (State.encFail s check).miu = s.miu ∧ (State.encFail s check).clk = s.clk ∧ (State.encFail s check).boot = s.boot ∧
    (State.encFail s check).cal = s.cal ∧ (State.encFail s check).mgt = s.mgt ∧ (State.encFail s check).pwr = s.pwr := by
  generalize h : State.encFail s check = u
  unfold State.encFail at h
  (repeat' split at h) <;> subst h <;> simp

@[simp] theorem State.renumber_frame (s : State) (r : Fin 16) (number : BitVec 32) :
    (State.renumber s r number).pending = s.pending ∧ (State.renumber s r number).aon = s.aon ∧ (State.renumber s r number).free = s.free ∧
    (State.renumber s r number).wires = s.wires ∧ (State.renumber s r number).mem = s.mem ∧ (State.renumber s r number).mbx = s.mbx ∧
    (State.renumber s r number).hif = s.hif ∧ (State.renumber s r number).dma = s.dma ∧ (State.renumber s r number).fsv = s.fsv ∧
    (State.renumber s r number).lsd = s.lsd ∧ (State.renumber s r number).job = s.job ∧ (State.renumber s r number).layout = s.layout ∧
    (State.renumber s r number).hamper = s.hamper ∧ (State.renumber s r number).codec = s.codec ∧ (State.renumber s r number).chk = s.chk ∧
    (State.renumber s r number).txn = s.txn ∧ (State.renumber s r number).hlk = s.hlk ∧ (State.renumber s r number).hac = s.hac ∧
    (State.renumber s r number).chain = s.chain ∧ (State.renumber s r number).mot = s.mot ∧ (State.renumber s r number).miu = s.miu ∧
    (State.renumber s r number).clk = s.clk ∧ (State.renumber s r number).boot = s.boot ∧ (State.renumber s r number).cal = s.cal ∧
    (State.renumber s r number).mgt = s.mgt ∧ (State.renumber s r number).pwr = s.pwr := ⟨rfl, rfl, rfl, rfl, rfl, rfl, rfl, rfl, rfl, rfl, rfl, rfl, rfl, rfl, rfl, rfl, rfl, rfl, rfl, rfl, rfl, rfl, rfl, rfl, rfl, rfl⟩

@[simp] theorem State.clkPending_frame (s : State) (source : ℕ) (domains : List (Fin 13)) :
    (State.clkPending s source domains).pending = s.pending ∧ (State.clkPending s source domains).aon = s.aon ∧
    (State.clkPending s source domains).free = s.free ∧ (State.clkPending s source domains).wires = s.wires ∧
    (State.clkPending s source domains).mem = s.mem ∧ (State.clkPending s source domains).hif = s.hif ∧
    (State.clkPending s source domains).dma = s.dma ∧ (State.clkPending s source domains).lsd = s.lsd ∧
    (State.clkPending s source domains).job = s.job ∧ (State.clkPending s source domains).layout = s.layout ∧
    (State.clkPending s source domains).hamper = s.hamper ∧ (State.clkPending s source domains).codec = s.codec ∧
    (State.clkPending s source domains).rows = s.rows ∧ (State.clkPending s source domains).chk = s.chk ∧
    (State.clkPending s source domains).txn = s.txn ∧ (State.clkPending s source domains).hlk = s.hlk ∧
    (State.clkPending s source domains).hac = s.hac ∧ (State.clkPending s source domains).chain = s.chain ∧
    (State.clkPending s source domains).mot = s.mot ∧ (State.clkPending s source domains).miu = s.miu ∧
    (State.clkPending s source domains).clk = s.clk ∧ (State.clkPending s source domains).boot = s.boot ∧
    (State.clkPending s source domains).cal = s.cal ∧ (State.clkPending s source domains).mgt = s.mgt ∧
    (State.clkPending s source domains).pwr = s.pwr := ⟨rfl, rfl, rfl, rfl, rfl, rfl, rfl, rfl, rfl, rfl, rfl, rfl, rfl, rfl, rfl, rfl, rfl, rfl, rfl, rfl, rfl, rfl, rfl, rfl, rfl⟩

@[simp] theorem State.switchTo_frame (s : State) (d : Fin 13) (clock : ℕ) :
    (State.switchTo s d clock).pending = s.pending ∧ (State.switchTo s d clock).aon = s.aon ∧ (State.switchTo s d clock).free = s.free ∧
    (State.switchTo s d clock).wires = s.wires ∧ (State.switchTo s d clock).mem = s.mem ∧ (State.switchTo s d clock).mbx = s.mbx ∧
    (State.switchTo s d clock).hif = s.hif ∧ (State.switchTo s d clock).dma = s.dma ∧ (State.switchTo s d clock).fsv = s.fsv ∧
    (State.switchTo s d clock).lsd = s.lsd ∧ (State.switchTo s d clock).job = s.job ∧ (State.switchTo s d clock).layout = s.layout ∧
    (State.switchTo s d clock).hamper = s.hamper ∧ (State.switchTo s d clock).codec = s.codec ∧ (State.switchTo s d clock).rows = s.rows ∧
    (State.switchTo s d clock).chk = s.chk ∧ (State.switchTo s d clock).txn = s.txn ∧ (State.switchTo s d clock).hlk = s.hlk ∧
    (State.switchTo s d clock).hac = s.hac ∧ (State.switchTo s d clock).chain = s.chain ∧ (State.switchTo s d clock).mot = s.mot ∧
    (State.switchTo s d clock).miu = s.miu ∧ (State.switchTo s d clock).boot = s.boot ∧ (State.switchTo s d clock).cal = s.cal ∧
    (State.switchTo s d clock).mgt = s.mgt ∧ (State.switchTo s d clock).pwr = s.pwr := ⟨rfl, rfl, rfl, rfl, rfl, rfl, rfl, rfl, rfl, rfl, rfl, rfl, rfl, rfl, rfl, rfl, rfl, rfl, rfl, rfl, rfl, rfl, rfl, rfl, rfl, rfl⟩

@[simp] theorem State.frameEvent_frame (s : State) (l : Fin 32) (n : ℕ) (cause : ℕ) (cls : ℕ) :
    (State.frameEvent s l n cause cls).pending = s.pending ∧ (State.frameEvent s l n cause cls).aon = s.aon ∧
    (State.frameEvent s l n cause cls).free = s.free ∧ (State.frameEvent s l n cause cls).wires = s.wires ∧
    (State.frameEvent s l n cause cls).mem = s.mem ∧ (State.frameEvent s l n cause cls).hif = s.hif ∧
    (State.frameEvent s l n cause cls).dma = s.dma ∧ (State.frameEvent s l n cause cls).fsv = s.fsv ∧
    (State.frameEvent s l n cause cls).lsd = s.lsd ∧ (State.frameEvent s l n cause cls).job = s.job ∧
    (State.frameEvent s l n cause cls).layout = s.layout ∧ (State.frameEvent s l n cause cls).hamper = s.hamper ∧
    (State.frameEvent s l n cause cls).codec = s.codec ∧ (State.frameEvent s l n cause cls).rows = s.rows ∧
    (State.frameEvent s l n cause cls).chk = s.chk ∧ (State.frameEvent s l n cause cls).txn = s.txn ∧
    (State.frameEvent s l n cause cls).hlk = s.hlk ∧ (State.frameEvent s l n cause cls).hac = s.hac ∧
    (State.frameEvent s l n cause cls).chain = s.chain ∧ (State.frameEvent s l n cause cls).mot = s.mot ∧
    (State.frameEvent s l n cause cls).miu = s.miu ∧ (State.frameEvent s l n cause cls).clk = s.clk ∧
    (State.frameEvent s l n cause cls).boot = s.boot ∧ (State.frameEvent s l n cause cls).cal = s.cal ∧
    (State.frameEvent s l n cause cls).mgt = s.mgt ∧ (State.frameEvent s l n cause cls).pwr = s.pwr := ⟨rfl, rfl, rfl, rfl, rfl, rfl, rfl, rfl, rfl, rfl, rfl, rfl, rfl, rfl, rfl, rfl, rfl, rfl, rfl, rfl, rfl, rfl, rfl, rfl, rfl, rfl⟩

end Sys2Proof.Machine
end

