-- ==== Sys2Proof/WellFormed.lean ====
section
/-! DEFINITION. Which commands are well formed: the operands lie in the ranges their structures have. A meaning does not
rely on it: an operand out of range is dealt with by the rule that checks it. -/

namespace Sys2Proof

/-- A request's payload fits its 256-byte message (17 R418). -/
def Req.wf (q : Req) : Bool := decide (q.payload.length ≤ 240)

/-- The disturbed byte lies in a half-row line of 4,096 bytes (09 R204). -/
def Upset.wf (u : Upset) : Bool := decide (u.byte < 4096)

/-- A beacon has a slot for each of at most 16 modules (15 R365). -/
def Beacon.wf (b : Beacon) : Bool := decide (b.slots.length ≤ 16 ∧ b.count.toNat ≤ 16 ∧ b.lap.toNat ≤ 1)

/-- At most as many bad training blocks as blocks (12 R284). -/
def LaneSeen.wf (e : LaneSeen) : Bool := decide (e.badBlocks ≤ e.blocks)

/-- A type key is 32 bytes (14 R339). -/
def KeyPackage.wf (p : KeyPackage) : Bool := decide (p.entries.length ≤ 8) && p.entries.all (fun e => e.key.length == 32)

/-- What a boot stage found: stuck bits lie in a 72-bit word, a package has at most 8 entries (20 R508, 22 R551). -/
def BootResult.wf : BootResult → Bool
  | .passed _ => true
  | .failed => true
  | .selfTest stuck _ => stuck.all (fun e => decide (e.2 < 72))
  | .images _ _ => true
  | .keys a b => (a.map KeyPackage.wf).getD true && (b.map KeyPackage.wf).getD true

/-- A command is well formed. -/
def Instr.wf : Instr → Bool
  | .nop q => q.wf
  | .moduleInfo q => q.wf
  | .eventRoute q => q.wf
  | .moduleReset q => q.wf
  | .fwStatus q => q.wf
  | .fwUpdateBegin q => q.wf
  | .fwUpdateData q => q.wf
  | .fwUpdateCommit q => q.wf
  | .powerStatus q => q.wf
  | .thermalConfig q => q.wf
  | .hamperStatus q => q.wf
  | .tileStage q => q.wf
  | .tileFree q => q.wf
  | .tileInfo q => q.wf
  | .listStage q => q.wf
  | .listFree q => q.wf
  | .proofCapture q => q.wf
  | .proofCancel q => q.wf
  | .codecConfig q => q.wf
  | .codecStatus q => q.wf
  | .codecCheck q => q.wf
  | .jobStatus q => q.wf
  | .planeDefine q => q.wf
  | .rowDefine q => q.wf
  | .panelDefine q => q.wf
  | .jobDefine q => q.wf
  | .jobArm q => q.wf
  | .jobStart q => q.wf
  | .jobPause q => q.wf
  | .jobResume q => q.wf
  | .jobStop q => q.wf
  | .jobClear q => q.wf
  | .webConfig q => q.wf
  | .rowGeometry q => q.wf
  | .webStatus q => q.wf
  | .screenPlane q => q.wf
  | .screenMatrix q => q.wf
  | .histSet q => q.wf
  | .histRow q => q.wf
  | .runaheadConfig q => q.wf
  | .runaheadStatus q => q.wf
  | .checkConfig q => q.wf
  | .txnOpen q => q.wf
  | .txnAdd q => q.wf
  | .txnSeal q => q.wf
  | .txnCommit q => q.wf
  | .txnDiscard q => q.wf
  | .txnStatus q => q.wf
  | .calStatus q => q.wf
  | .calTrim q => q.wf
  | .calChart q => q.wf
  | .calAlignLoad q => q.wf
  | .calLimits q => q.wf
  | .strobeConfig q => q.wf
  | .hacConfig q => q.wf
  | .headAuthStatus q => q.wf
  | .headUsage q => q.wf
  | .usageCommitNow q => q.wf
  | .linkControl q => q.wf
  | .laneConfig q => q.wf
  | .laneStatus q => q.wf
  | .headDriverInfo q => q.wf
  | .headTunnel q => q.wf
  | .drivePortConfig q => q.wf
  | .axisConfig q => q.wf
  | .axisEnable q => q.wf
  | .axisMotion q => q.wf
  | .axisGear q => q.wf
  | .axisHome q => q.wf
  | .axisLimits q => q.wf
  | .axisStatus q => q.wf
  | .chainStatus q => q.wf
  | .chainEnumerate q => q.wf
  | .chainConfig q => q.wf
  | .chainForward q => q.wf
  | .chainLink q => q.wf
  | .logStatus q => q.wf
  | .logRead q => q.wf
  | .memStatus q => q.wf
  | .memConfig q => q.wf
  | .memInject q => q.wf
  | .checkInject q => q.wf
  | .checkStatus q => q.wf
  | .laneTest q => q.wf
  | .laneTestRead q => q.wf
  | .clockStatus q => q.wf
  | .mgmtJobStop q => q.wf
  | .mgmtDomains q => q.wf
  | .recoveryBegin q => q.wf
  | .recoveryData q => q.wf
  | .recoveryCommit q => q.wf
  | .reqTailWrite _ _ => true
  | .rplHeadWrite _ _ => true
  | .mbStatusClear _ _ => true
  | .globalFaultClear _ => true
  | .bdAssignWrite _ => true
  | .drqSoftWrite _ => true
  | .bar2BaseWrite _ _ => true
  | .go _ _ => true
  | .abort _ _ => true
  | .bdStatusClear _ _ => true
  | .qCtrlEnable _ _ => true
  | .qHeadWrite _ _ => true
  | .qStatusClear _ _ => true
  | .bar0RegisterWrite _ size _ => (size == 4 || size == 8)
  | .bar0LowHalfRead _ size => (size == 4 || size == 8)
  | .bar2Read _ len => decide (0 < len)
  | .bar2Write _ data => !data.isEmpty
  | .alertStatusClear _ _ => true
  | .pwrCtrlWake _ _ _ => true
  | .mbCtrlGo _ _ _ => true
  | .mbCtrlPop _ _ _ => true
  | .mbCtrlClear _ _ _ => true
  | .mbReqWrite _ data _ => decide (2 ≤ data.length ∧ data.length ≤ 255)
  | .mbRplRead _ _ => true
  | .alertResponseRead => true
  | .mgmtRegisterWrite _ data _ => decide (data.length ≤ 255)
  | .sclTimeout _ => true
  | .mailboxRequestStart _ => true
  | .heldReplyWrite _ => true
  | .finalReply _ => true
  | .eventPost _ => true
  | .evqLost _ _ => true
  | .queueInterruptTimer _ _ => true
  | .perst _ => true
  | .drqPulse _ _ => true
  | .dmaReadCompletion _ _ _ _ => true
  | .dmaTransferDone _ _ => true
  | .waitCqRecord _ _ => true
  | .powerOn _ _ => true
  | .mgmtResetN _ _ => true
  | .moduleResetSequence _ => true
  | .resetRelease _ => true
  | .bootStage r _ => r.wf
  | .fwOperationDone _ _ => true
  | .firmwareActivation _ => true
  | .kettleFault _ => true
  | .kettleWatchdog _ => true
  | .thermosWatchdog _ => true
  | .vinFault _ _ => true
  | .railFault _ _ _ => true
  | .repower _ _ _ => true
  | .domainPowerUp _ _ _ => true
  | .domainPowerDown _ _ => true
  | .temperatureSample temps _ => temps.length == 20
  | .crystalStart _ _ => true
  | .crystalStartLimit _ _ => true
  | .clockLoss _ _ => true
  | .pllLock _ _ => true
  | .clockSwitch _ _ => true
  | .switchHandshakeTimeout _ _ => true
  | .newClockTimeout _ _ => true
  | .xbIncrementUpdate _ _ => true
  | .timeCopyReload _ _ => true
  | .peerInReset _ _ => true
  | .crossingReady _ => true
  | .fioTrim _ _ _ _ => true
  | .sioTrim _ _ _ _ => true
  | .chartBuilt _ _ => true
  | .memRetrainDone _ _ _ => true
  | .encoderEdge _ _ _ => true
  | .zPulse _ => true
  | .lineFail _ => true
  | .lineGood _ => true
  | .accelerationCheck _ => true
  | .stopTimeout _ => true
  | .speedHigh _ => true
  | .jobMark _ _ _ => true
  | .printEnable _ _ _ => true
  | .fireInhibit _ _ _ => true
  | .lineStart _ _ => true
  | .rowStopped _ _ => true
  | .rowDone _ _ => true
  | .jobEnd _ => true
  | .faultStop _ => true
  | .inhibitTest _ _ => true
  | .fireStrobe _ _ => true
  | .strobeReadback _ _ _ => true
  | .lsdOverspeed _ _ => true
  | .armingStep _ => true
  | .rowReady _ _ => true
  | .engineLineDone _ _ upset _ => upset.wf
  | .checkpointCompare _ _ _ => true
  | .lineCompare _ _ _ => true
  | .missingTimeout _ _ _ => true
  | .couplingTimeout _ _ _ _ _ => true
  | .squash _ _ => true
  | .spcReplayLate _ _ => true
  | .spcDry _ _ => true
  | .pourRecheck _ _ => true
  | .frameSend _ upset _ _ => upset.wf
  | .ack _ _ _ _ => true
  | .ackTimeout _ _ => true
  | .flush _ _ => true
  | .flushTimeout _ _ => true
  | .laneTrainingBlock _ _ _ _ => true
  | .laneStageDone _ seen _ => seen.wf
  | .stageLimit _ _ => true
  | .laneLoss _ _ _ _ => true
  | .retrainDone _ _ => true
  | .autoSleep _ _ => true
  | .laneTestEnd _ => true
  | .hmcAnswer _ chars _ => decide (chars.length ≤ 255)
  | .hmcTimeout _ _ => true
  | .hmcStatusPoll _ _ => true
  | .usageCommit _ => true
  | .chnAck _ _ _ => true
  | .chnAckTimeout _ _ => true
  | .enum _ _ _ _ => true
  | .enumDone _ _ _ _ _ => true
  | .enumTimeout _ => true
  | .noHead _ => true
  | .rejoin _ _ _ => true
  | .sync _ _ _ _ _ => true
  | .beaconSample _ => true
  | .beacon _ b _ => b.wf
  | .beaconLoss _ => true
  | .txnPrepare _ _ _ => true
  | .prepareTimeout _ => true
  | .txnDecision _ _ _ _ => true
  | .decisionTimeout _ => true
  | .txnQuery _ _ _ => true
  | .txnAnswer _ _ _ _ => true
  | .chnFault _ _ _ _ _ => true
  | .chnWaste _ _ _ _ _ => true
  | .resetNotice _ _ _ => true
  | .peerReq _ _ msg _ => decide (16 ≤ msg.length ∧ msg.length ≤ 240)
  | .peerReply _ msg _ _ => decide (msg.length ≤ 240)
  | .forwardTimeout _ => true
  | .hopLoss _ _ _ _ => true
  | .hopRetrainDone _ _ => true
  | .chainSleepTimer _ => true
  | .wasteBroadcast _ => true
  | .servoTick _ => true
  | .statusFrame _ frame _ => frame.length == 12
  | .driveSlotFault _ _ _ => true
  | .enableTimeout _ _ => true
  | .hamperStaged _ _ _ _ => true
  | .hamperListStaged _ _ _ => true
  | .blockDecode _ _ _ _ => true
  | .compressorVerify _ _ _ => true
  | .cdxCheckDone _ => true
  | .dramReadError addr _ _ _ _ _ => decide (addr < 0x3800000000)
  | .sramReadError _ _ _ _ _ => true
  | .sramSweep _ _ => true
  | .scrubBurst _ => true
  | .scrubPassEnd _ => true
  | .refresh _ _ _ => true
  | .neighbourRefresh _ _ _ _ _ => true
  | .refreshRateRead mult _ => (mult == 1 || mult == 2 || mult == 4)
  | .zqCalibration _ => true
  | .driftMeasure _ _ _ => true
  | .setPointDecision _ => true
  | .selfRefresh _ => true
  | .fenceViolation _ addr _ => decide (addr < 0x3800000000)
  | .faultDetection _ => true
  | .wasteRangeClose _ => true
  | .wasteHoldEnd _ => true
  | .sleepEntry _ _ => true
  | .chainOfOne _ => true
  | .standby _ => true
  | .perstRelease _ => true
  | .hamperSpace _ => true
  | .memEcc _ _ => true
  | .checkerSync _ _ _ => true
  | .errorInjection _ _ => true
  | .chainWakeTimeout _ => true

/-- The mailbox request a command stands for. -/
def Instr.request? : Instr → Option Req
  | .nop q => some q
  | .moduleInfo q => some q
  | .eventRoute q => some q
  | .moduleReset q => some q
  | .fwStatus q => some q
  | .fwUpdateBegin q => some q
  | .fwUpdateData q => some q
  | .fwUpdateCommit q => some q
  | .powerStatus q => some q
  | .thermalConfig q => some q
  | .hamperStatus q => some q
  | .tileStage q => some q
  | .tileFree q => some q
  | .tileInfo q => some q
  | .listStage q => some q
  | .listFree q => some q
  | .proofCapture q => some q
  | .proofCancel q => some q
  | .codecConfig q => some q
  | .codecStatus q => some q
  | .codecCheck q => some q
  | .jobStatus q => some q
  | .planeDefine q => some q
  | .rowDefine q => some q
  | .panelDefine q => some q
  | .jobDefine q => some q
  | .jobArm q => some q
  | .jobStart q => some q
  | .jobPause q => some q
  | .jobResume q => some q
  | .jobStop q => some q
  | .jobClear q => some q
  | .webConfig q => some q
  | .rowGeometry q => some q
  | .webStatus q => some q
  | .screenPlane q => some q
  | .screenMatrix q => some q
  | .histSet q => some q
  | .histRow q => some q
  | .runaheadConfig q => some q
  | .runaheadStatus q => some q
  | .checkConfig q => some q
  | .txnOpen q => some q
  | .txnAdd q => some q
  | .txnSeal q => some q
  | .txnCommit q => some q
  | .txnDiscard q => some q
  | .txnStatus q => some q
  | .calStatus q => some q
  | .calTrim q => some q
  | .calChart q => some q
  | .calAlignLoad q => some q
  | .calLimits q => some q
  | .strobeConfig q => some q
  | .hacConfig q => some q
  | .headAuthStatus q => some q
  | .headUsage q => some q
  | .usageCommitNow q => some q
  | .linkControl q => some q
  | .laneConfig q => some q
  | .laneStatus q => some q
  | .headDriverInfo q => some q
  | .headTunnel q => some q
  | .drivePortConfig q => some q
  | .axisConfig q => some q
  | .axisEnable q => some q
  | .axisMotion q => some q
  | .axisGear q => some q
  | .axisHome q => some q
  | .axisLimits q => some q
  | .axisStatus q => some q
  | .chainStatus q => some q
  | .chainEnumerate q => some q
  | .chainConfig q => some q
  | .chainForward q => some q
  | .chainLink q => some q
  | .logStatus q => some q
  | .logRead q => some q
  | .memStatus q => some q
  | .memConfig q => some q
  | .memInject q => some q
  | .checkInject q => some q
  | .checkStatus q => some q
  | .laneTest q => some q
  | .laneTestRead q => some q
  | .clockStatus q => some q
  | .mgmtJobStop q => some q
  | .mgmtDomains q => some q
  | .recoveryBegin q => some q
  | .recoveryData q => some q
  | .recoveryCommit q => some q
  | .reqTailWrite _ _ => none
  | .rplHeadWrite _ _ => none
  | .mbStatusClear _ _ => none
  | .globalFaultClear _ => none
  | .bdAssignWrite _ => none
  | .drqSoftWrite _ => none
  | .bar2BaseWrite _ _ => none
  | .go _ _ => none
  | .abort _ _ => none
  | .bdStatusClear _ _ => none
  | .qCtrlEnable _ _ => none
  | .qHeadWrite _ _ => none
  | .qStatusClear _ _ => none
  | .bar0RegisterWrite _ _ _ => none
  | .bar0LowHalfRead _ _ => none
  | .bar2Read _ _ => none
  | .bar2Write _ _ => none
  | .alertStatusClear _ _ => none
  | .pwrCtrlWake _ _ _ => none
  | .mbCtrlGo _ _ _ => none
  | .mbCtrlPop _ _ _ => none
  | .mbCtrlClear _ _ _ => none
  | .mbReqWrite _ _ _ => none
  | .mbRplRead _ _ => none
  | .alertResponseRead => none
  | .mgmtRegisterWrite _ _ _ => none
  | .sclTimeout _ => none
  | .mailboxRequestStart _ => none
  | .heldReplyWrite _ => none
  | .finalReply _ => none
  | .eventPost _ => none
  | .evqLost _ _ => none
  | .queueInterruptTimer _ _ => none
  | .perst _ => none
  | .drqPulse _ _ => none
  | .dmaReadCompletion _ _ _ _ => none
  | .dmaTransferDone _ _ => none
  | .waitCqRecord _ _ => none
  | .powerOn _ _ => none
  | .mgmtResetN _ _ => none
  | .moduleResetSequence _ => none
  | .resetRelease _ => none
  | .bootStage _ _ => none
  | .fwOperationDone _ _ => none
  | .firmwareActivation _ => none
  | .kettleFault _ => none
  | .kettleWatchdog _ => none
  | .thermosWatchdog _ => none
  | .vinFault _ _ => none
  | .railFault _ _ _ => none
  | .repower _ _ _ => none
  | .domainPowerUp _ _ _ => none
  | .domainPowerDown _ _ => none
  | .temperatureSample _ _ => none
  | .crystalStart _ _ => none
  | .crystalStartLimit _ _ => none
  | .clockLoss _ _ => none
  | .pllLock _ _ => none
  | .clockSwitch _ _ => none
  | .switchHandshakeTimeout _ _ => none
  | .newClockTimeout _ _ => none
  | .xbIncrementUpdate _ _ => none
  | .timeCopyReload _ _ => none
  | .peerInReset _ _ => none
  | .crossingReady _ => none
  | .fioTrim _ _ _ _ => none
  | .sioTrim _ _ _ _ => none
  | .chartBuilt _ _ => none
  | .memRetrainDone _ _ _ => none
  | .encoderEdge _ _ _ => none
  | .zPulse _ => none
  | .lineFail _ => none
  | .lineGood _ => none
  | .accelerationCheck _ => none
  | .stopTimeout _ => none
  | .speedHigh _ => none
  | .jobMark _ _ _ => none
  | .printEnable _ _ _ => none
  | .fireInhibit _ _ _ => none
  | .lineStart _ _ => none
  | .rowStopped _ _ => none
  | .rowDone _ _ => none
  | .jobEnd _ => none
  | .faultStop _ => none
  | .inhibitTest _ _ => none
  | .fireStrobe _ _ => none
  | .strobeReadback _ _ _ => none
  | .lsdOverspeed _ _ => none
  | .armingStep _ => none
  | .rowReady _ _ => none
  | .engineLineDone _ _ _ _ => none
  | .checkpointCompare _ _ _ => none
  | .lineCompare _ _ _ => none
  | .missingTimeout _ _ _ => none
  | .couplingTimeout _ _ _ _ _ => none
  | .squash _ _ => none
  | .spcReplayLate _ _ => none
  | .spcDry _ _ => none
  | .pourRecheck _ _ => none
  | .frameSend _ _ _ _ => none
  | .ack _ _ _ _ => none
  | .ackTimeout _ _ => none
  | .flush _ _ => none
  | .flushTimeout _ _ => none
  | .laneTrainingBlock _ _ _ _ => none
  | .laneStageDone _ _ _ => none
  | .stageLimit _ _ => none
  | .laneLoss _ _ _ _ => none
  | .retrainDone _ _ => none
  | .autoSleep _ _ => none
  | .laneTestEnd _ => none
  | .hmcAnswer _ _ _ => none
  | .hmcTimeout _ _ => none
  | .hmcStatusPoll _ _ => none
  | .usageCommit _ => none
  | .chnAck _ _ _ => none
  | .chnAckTimeout _ _ => none
  | .enum _ _ _ _ => none
  | .enumDone _ _ _ _ _ => none
  | .enumTimeout _ => none
  | .noHead _ => none
  | .rejoin _ _ _ => none
  | .sync _ _ _ _ _ => none
  | .beaconSample _ => none
  | .beacon _ _ _ => none
  | .beaconLoss _ => none
  | .txnPrepare _ _ _ => none
  | .prepareTimeout _ => none
  | .txnDecision _ _ _ _ => none
  | .decisionTimeout _ => none
  | .txnQuery _ _ _ => none
  | .txnAnswer _ _ _ _ => none
  | .chnFault _ _ _ _ _ => none
  | .chnWaste _ _ _ _ _ => none
  | .resetNotice _ _ _ => none
  | .peerReq _ _ _ _ => none
  | .peerReply _ _ _ _ => none
  | .forwardTimeout _ => none
  | .hopLoss _ _ _ _ => none
  | .hopRetrainDone _ _ => none
  | .chainSleepTimer _ => none
  | .wasteBroadcast _ => none
  | .servoTick _ => none
  | .statusFrame _ _ _ => none
  | .driveSlotFault _ _ _ => none
  | .enableTimeout _ _ => none
  | .hamperStaged _ _ _ _ => none
  | .hamperListStaged _ _ _ => none
  | .blockDecode _ _ _ _ => none
  | .compressorVerify _ _ _ => none
  | .cdxCheckDone _ => none
  | .dramReadError _ _ _ _ _ _ => none
  | .sramReadError _ _ _ _ _ => none
  | .sramSweep _ _ => none
  | .scrubBurst _ => none
  | .scrubPassEnd _ => none
  | .refresh _ _ _ => none
  | .neighbourRefresh _ _ _ _ _ => none
  | .refreshRateRead _ _ => none
  | .zqCalibration _ => none
  | .driftMeasure _ _ _ => none
  | .setPointDecision _ => none
  | .selfRefresh _ => none
  | .fenceViolation _ _ _ => none
  | .faultDetection _ => none
  | .wasteRangeClose _ => none
  | .wasteHoldEnd _ => none
  | .sleepEntry _ _ => none
  | .chainOfOne _ => none
  | .standby _ => none
  | .perstRelease _ => none
  | .hamperSpace _ => none
  | .memEcc _ _ => none
  | .checkerSync _ _ _ => none
  | .errorInjection _ _ => none
  | .chainWakeTimeout _ => none

end Sys2Proof
end

