-- ==== Sys2Proof/Laws/PerInstr.lean ====
section
/-! SUPPORT. What holds of every command by its form: a well-formed request fits its message. One lemma per constructor. -/

namespace Sys2Proof.Laws.WF

/-- A well-formed mailbox command carries at most 240 bytes (17 R418). -/
def Statement (i : Instr) : Prop := ∀ q, i.request? = some q → i.wf = true → q.payload.length ≤ 240

theorem nop (q : Req) : Statement (.nop q) := fun _ h hw => by cases h; exact of_decide_eq_true hw
theorem moduleInfo (q : Req) : Statement (.moduleInfo q) := fun _ h hw => by cases h; exact of_decide_eq_true hw
theorem eventRoute (q : Req) : Statement (.eventRoute q) := fun _ h hw => by cases h; exact of_decide_eq_true hw
theorem moduleReset (q : Req) : Statement (.moduleReset q) := fun _ h hw => by cases h; exact of_decide_eq_true hw
theorem fwStatus (q : Req) : Statement (.fwStatus q) := fun _ h hw => by cases h; exact of_decide_eq_true hw
theorem fwUpdateBegin (q : Req) : Statement (.fwUpdateBegin q) := fun _ h hw => by cases h; exact of_decide_eq_true hw
theorem fwUpdateData (q : Req) : Statement (.fwUpdateData q) := fun _ h hw => by cases h; exact of_decide_eq_true hw
theorem fwUpdateCommit (q : Req) : Statement (.fwUpdateCommit q) := fun _ h hw => by cases h; exact of_decide_eq_true hw
theorem powerStatus (q : Req) : Statement (.powerStatus q) := fun _ h hw => by cases h; exact of_decide_eq_true hw
theorem thermalConfig (q : Req) : Statement (.thermalConfig q) := fun _ h hw => by cases h; exact of_decide_eq_true hw
theorem hamperStatus (q : Req) : Statement (.hamperStatus q) := fun _ h hw => by cases h; exact of_decide_eq_true hw
theorem tileStage (q : Req) : Statement (.tileStage q) := fun _ h hw => by cases h; exact of_decide_eq_true hw
theorem tileFree (q : Req) : Statement (.tileFree q) := fun _ h hw => by cases h; exact of_decide_eq_true hw
theorem tileInfo (q : Req) : Statement (.tileInfo q) := fun _ h hw => by cases h; exact of_decide_eq_true hw
theorem listStage (q : Req) : Statement (.listStage q) := fun _ h hw => by cases h; exact of_decide_eq_true hw
theorem listFree (q : Req) : Statement (.listFree q) := fun _ h hw => by cases h; exact of_decide_eq_true hw
theorem proofCapture (q : Req) : Statement (.proofCapture q) := fun _ h hw => by cases h; exact of_decide_eq_true hw
theorem proofCancel (q : Req) : Statement (.proofCancel q) := fun _ h hw => by cases h; exact of_decide_eq_true hw
theorem codecConfig (q : Req) : Statement (.codecConfig q) := fun _ h hw => by cases h; exact of_decide_eq_true hw
theorem codecStatus (q : Req) : Statement (.codecStatus q) := fun _ h hw => by cases h; exact of_decide_eq_true hw
theorem codecCheck (q : Req) : Statement (.codecCheck q) := fun _ h hw => by cases h; exact of_decide_eq_true hw
theorem jobStatus (q : Req) : Statement (.jobStatus q) := fun _ h hw => by cases h; exact of_decide_eq_true hw
theorem planeDefine (q : Req) : Statement (.planeDefine q) := fun _ h hw => by cases h; exact of_decide_eq_true hw
theorem rowDefine (q : Req) : Statement (.rowDefine q) := fun _ h hw => by cases h; exact of_decide_eq_true hw
theorem panelDefine (q : Req) : Statement (.panelDefine q) := fun _ h hw => by cases h; exact of_decide_eq_true hw
theorem jobDefine (q : Req) : Statement (.jobDefine q) := fun _ h hw => by cases h; exact of_decide_eq_true hw
theorem jobArm (q : Req) : Statement (.jobArm q) := fun _ h hw => by cases h; exact of_decide_eq_true hw
theorem jobStart (q : Req) : Statement (.jobStart q) := fun _ h hw => by cases h; exact of_decide_eq_true hw
theorem jobPause (q : Req) : Statement (.jobPause q) := fun _ h hw => by cases h; exact of_decide_eq_true hw
theorem jobResume (q : Req) : Statement (.jobResume q) := fun _ h hw => by cases h; exact of_decide_eq_true hw
theorem jobStop (q : Req) : Statement (.jobStop q) := fun _ h hw => by cases h; exact of_decide_eq_true hw
theorem jobClear (q : Req) : Statement (.jobClear q) := fun _ h hw => by cases h; exact of_decide_eq_true hw
theorem webConfig (q : Req) : Statement (.webConfig q) := fun _ h hw => by cases h; exact of_decide_eq_true hw
theorem rowGeometry (q : Req) : Statement (.rowGeometry q) := fun _ h hw => by cases h; exact of_decide_eq_true hw
theorem webStatus (q : Req) : Statement (.webStatus q) := fun _ h hw => by cases h; exact of_decide_eq_true hw
theorem screenPlane (q : Req) : Statement (.screenPlane q) := fun _ h hw => by cases h; exact of_decide_eq_true hw
theorem screenMatrix (q : Req) : Statement (.screenMatrix q) := fun _ h hw => by cases h; exact of_decide_eq_true hw
theorem histSet (q : Req) : Statement (.histSet q) := fun _ h hw => by cases h; exact of_decide_eq_true hw
theorem histRow (q : Req) : Statement (.histRow q) := fun _ h hw => by cases h; exact of_decide_eq_true hw
theorem runaheadConfig (q : Req) : Statement (.runaheadConfig q) := fun _ h hw => by cases h; exact of_decide_eq_true hw
theorem runaheadStatus (q : Req) : Statement (.runaheadStatus q) := fun _ h hw => by cases h; exact of_decide_eq_true hw
theorem checkConfig (q : Req) : Statement (.checkConfig q) := fun _ h hw => by cases h; exact of_decide_eq_true hw
theorem txnOpen (q : Req) : Statement (.txnOpen q) := fun _ h hw => by cases h; exact of_decide_eq_true hw
theorem txnAdd (q : Req) : Statement (.txnAdd q) := fun _ h hw => by cases h; exact of_decide_eq_true hw
theorem txnSeal (q : Req) : Statement (.txnSeal q) := fun _ h hw => by cases h; exact of_decide_eq_true hw
theorem txnCommit (q : Req) : Statement (.txnCommit q) := fun _ h hw => by cases h; exact of_decide_eq_true hw
theorem txnDiscard (q : Req) : Statement (.txnDiscard q) := fun _ h hw => by cases h; exact of_decide_eq_true hw
theorem txnStatus (q : Req) : Statement (.txnStatus q) := fun _ h hw => by cases h; exact of_decide_eq_true hw
theorem calStatus (q : Req) : Statement (.calStatus q) := fun _ h hw => by cases h; exact of_decide_eq_true hw
theorem calTrim (q : Req) : Statement (.calTrim q) := fun _ h hw => by cases h; exact of_decide_eq_true hw
theorem calChart (q : Req) : Statement (.calChart q) := fun _ h hw => by cases h; exact of_decide_eq_true hw
theorem calAlignLoad (q : Req) : Statement (.calAlignLoad q) := fun _ h hw => by cases h; exact of_decide_eq_true hw
theorem calLimits (q : Req) : Statement (.calLimits q) := fun _ h hw => by cases h; exact of_decide_eq_true hw
theorem strobeConfig (q : Req) : Statement (.strobeConfig q) := fun _ h hw => by cases h; exact of_decide_eq_true hw
theorem hacConfig (q : Req) : Statement (.hacConfig q) := fun _ h hw => by cases h; exact of_decide_eq_true hw
theorem headAuthStatus (q : Req) : Statement (.headAuthStatus q) := fun _ h hw => by cases h; exact of_decide_eq_true hw
theorem headUsage (q : Req) : Statement (.headUsage q) := fun _ h hw => by cases h; exact of_decide_eq_true hw
theorem usageCommitNow (q : Req) : Statement (.usageCommitNow q) := fun _ h hw => by cases h; exact of_decide_eq_true hw
theorem linkControl (q : Req) : Statement (.linkControl q) := fun _ h hw => by cases h; exact of_decide_eq_true hw
theorem laneConfig (q : Req) : Statement (.laneConfig q) := fun _ h hw => by cases h; exact of_decide_eq_true hw
theorem laneStatus (q : Req) : Statement (.laneStatus q) := fun _ h hw => by cases h; exact of_decide_eq_true hw
theorem headDriverInfo (q : Req) : Statement (.headDriverInfo q) := fun _ h hw => by cases h; exact of_decide_eq_true hw
theorem headTunnel (q : Req) : Statement (.headTunnel q) := fun _ h hw => by cases h; exact of_decide_eq_true hw
theorem drivePortConfig (q : Req) : Statement (.drivePortConfig q) := fun _ h hw => by cases h; exact of_decide_eq_true hw
theorem axisConfig (q : Req) : Statement (.axisConfig q) := fun _ h hw => by cases h; exact of_decide_eq_true hw
theorem axisEnable (q : Req) : Statement (.axisEnable q) := fun _ h hw => by cases h; exact of_decide_eq_true hw
theorem axisMotion (q : Req) : Statement (.axisMotion q) := fun _ h hw => by cases h; exact of_decide_eq_true hw
theorem axisGear (q : Req) : Statement (.axisGear q) := fun _ h hw => by cases h; exact of_decide_eq_true hw
theorem axisHome (q : Req) : Statement (.axisHome q) := fun _ h hw => by cases h; exact of_decide_eq_true hw
theorem axisLimits (q : Req) : Statement (.axisLimits q) := fun _ h hw => by cases h; exact of_decide_eq_true hw
theorem axisStatus (q : Req) : Statement (.axisStatus q) := fun _ h hw => by cases h; exact of_decide_eq_true hw
theorem chainStatus (q : Req) : Statement (.chainStatus q) := fun _ h hw => by cases h; exact of_decide_eq_true hw
theorem chainEnumerate (q : Req) : Statement (.chainEnumerate q) := fun _ h hw => by cases h; exact of_decide_eq_true hw
theorem chainConfig (q : Req) : Statement (.chainConfig q) := fun _ h hw => by cases h; exact of_decide_eq_true hw
theorem chainForward (q : Req) : Statement (.chainForward q) := fun _ h hw => by cases h; exact of_decide_eq_true hw
theorem chainLink (q : Req) : Statement (.chainLink q) := fun _ h hw => by cases h; exact of_decide_eq_true hw
theorem logStatus (q : Req) : Statement (.logStatus q) := fun _ h hw => by cases h; exact of_decide_eq_true hw
theorem logRead (q : Req) : Statement (.logRead q) := fun _ h hw => by cases h; exact of_decide_eq_true hw
theorem memStatus (q : Req) : Statement (.memStatus q) := fun _ h hw => by cases h; exact of_decide_eq_true hw
theorem memConfig (q : Req) : Statement (.memConfig q) := fun _ h hw => by cases h; exact of_decide_eq_true hw
theorem memInject (q : Req) : Statement (.memInject q) := fun _ h hw => by cases h; exact of_decide_eq_true hw
theorem checkInject (q : Req) : Statement (.checkInject q) := fun _ h hw => by cases h; exact of_decide_eq_true hw
theorem checkStatus (q : Req) : Statement (.checkStatus q) := fun _ h hw => by cases h; exact of_decide_eq_true hw
theorem laneTest (q : Req) : Statement (.laneTest q) := fun _ h hw => by cases h; exact of_decide_eq_true hw
theorem laneTestRead (q : Req) : Statement (.laneTestRead q) := fun _ h hw => by cases h; exact of_decide_eq_true hw
theorem clockStatus (q : Req) : Statement (.clockStatus q) := fun _ h hw => by cases h; exact of_decide_eq_true hw
theorem mgmtJobStop (q : Req) : Statement (.mgmtJobStop q) := fun _ h hw => by cases h; exact of_decide_eq_true hw
theorem mgmtDomains (q : Req) : Statement (.mgmtDomains q) := fun _ h hw => by cases h; exact of_decide_eq_true hw
theorem recoveryBegin (q : Req) : Statement (.recoveryBegin q) := fun _ h hw => by cases h; exact of_decide_eq_true hw
theorem recoveryData (q : Req) : Statement (.recoveryData q) := fun _ h hw => by cases h; exact of_decide_eq_true hw
theorem recoveryCommit (q : Req) : Statement (.recoveryCommit q) := fun _ h hw => by cases h; exact of_decide_eq_true hw
theorem reqTailWrite (m : Fin 4) (v : BitVec 32) : Statement (.reqTailWrite m v) := fun _ h _ => nomatch h
theorem rplHeadWrite (m : Fin 4) (v : BitVec 32) : Statement (.rplHeadWrite m v) := fun _ h _ => nomatch h
theorem mbStatusClear (m : Fin 4) (v : BitVec 32) : Statement (.mbStatusClear m v) := fun _ h _ => nomatch h
theorem globalFaultClear (v : BitVec 32) : Statement (.globalFaultClear v) := fun _ h _ => nomatch h
theorem bdAssignWrite (v : BitVec 32) : Statement (.bdAssignWrite v) := fun _ h _ => nomatch h
theorem drqSoftWrite (v : BitVec 32) : Statement (.drqSoftWrite v) := fun _ h _ => nomatch h
theorem bar2BaseWrite (part : Half) (v : BitVec 64) : Statement (.bar2BaseWrite part v) := fun _ h _ => nomatch h
theorem go (c : Fin 32) (v : BitVec 32) : Statement (.go c v) := fun _ h _ => nomatch h
theorem abort (c : Fin 32) (v : BitVec 32) : Statement (.abort c v) := fun _ h _ => nomatch h
theorem bdStatusClear (c : Fin 32) (v : BitVec 32) : Statement (.bdStatusClear c v) := fun _ h _ => nomatch h
theorem qCtrlEnable (n : Fin 48) (v : BitVec 32) : Statement (.qCtrlEnable n v) := fun _ h _ => nomatch h
theorem qHeadWrite (n : Fin 48) (v : BitVec 32) : Statement (.qHeadWrite n v) := fun _ h _ => nomatch h
theorem qStatusClear (n : Fin 48) (v : BitVec 32) : Statement (.qStatusClear n v) := fun _ h _ => nomatch h
theorem bar0RegisterWrite (off : BitVec 24) (size : Nat) (v : BitVec 64) : Statement (.bar0RegisterWrite off size v) := fun _ h _ => nomatch h
theorem bar0LowHalfRead (off : BitVec 24) (size : Nat) : Statement (.bar0LowHalfRead off size) := fun _ h _ => nomatch h
theorem bar2Read (off : BitVec 32) (len : Nat) : Statement (.bar2Read off len) := fun _ h _ => nomatch h
theorem bar2Write (off : BitVec 32) (data : List Byte) : Statement (.bar2Write off data) := fun _ h _ => nomatch h
theorem alertStatusClear (data : List Byte) (pec : Bool) : Statement (.alertStatusClear data pec) := fun _ h _ => nomatch h
theorem pwrCtrlWake (data : List Byte) (pec : Bool) (t : Nat) : Statement (.pwrCtrlWake data pec t) := fun _ h _ => nomatch h
theorem mbCtrlGo (n : Fin 2) (data : List Byte) (pec : Bool) : Statement (.mbCtrlGo n data pec) := fun _ h _ => nomatch h
theorem mbCtrlPop (n : Fin 2) (data : List Byte) (pec : Bool) : Statement (.mbCtrlPop n data pec) := fun _ h _ => nomatch h
theorem mbCtrlClear (n : Fin 2) (data : List Byte) (pec : Bool) : Statement (.mbCtrlClear n data pec) := fun _ h _ => nomatch h
theorem mbReqWrite (n : Fin 2) (data : List Byte) (pec : Bool) : Statement (.mbReqWrite n data pec) := fun _ h _ => nomatch h
theorem mbRplRead (n : Fin 2) (off : Byte) : Statement (.mbRplRead n off) := fun _ h _ => nomatch h
theorem alertResponseRead : Statement (.alertResponseRead) := fun _ h _ => nomatch h
theorem mgmtRegisterWrite (code : Byte) (data : List Byte) (pec : Bool) : Statement (.mgmtRegisterWrite code data pec) := fun _ h _ => nomatch h
theorem sclTimeout (t : Nat) : Statement (.sclTimeout t) := fun _ h _ => nomatch h
theorem mailboxRequestStart (t : Nat) : Statement (.mailboxRequestStart t) := fun _ h _ => nomatch h
theorem heldReplyWrite (m : Fin 8) : Statement (.heldReplyWrite m) := fun _ h _ => nomatch h
theorem finalReply (t : Nat) : Statement (.finalReply t) := fun _ h _ => nomatch h
theorem eventPost (t : Nat) : Statement (.eventPost t) := fun _ h _ => nomatch h
theorem evqLost (n : Fin 16) (t : Nat) : Statement (.evqLost n t) := fun _ h _ => nomatch h
theorem queueInterruptTimer (n : Fin 48) (t : Nat) : Statement (.queueInterruptTimer n t) := fun _ h _ => nomatch h
theorem perst (t : Nat) : Statement (.perst t) := fun _ h _ => nomatch h
theorem drqPulse (line : Fin 64) (t : Nat) : Statement (.drqPulse line t) := fun _ h _ => nomatch h
theorem dmaReadCompletion (c : Fin 48) (data : List Byte) (ok : Bool) (t : Nat) : Statement (.dmaReadCompletion c data ok t) := fun _ h _ => nomatch h
theorem dmaTransferDone (c : Fin 48) (t : Nat) : Statement (.dmaTransferDone c t) := fun _ h _ => nomatch h
theorem waitCqRecord (c : Fin 32) (t : Nat) : Statement (.waitCqRecord c t) := fun _ h _ => nomatch h
theorem powerOn (maddr : BitVec 3) (chainHead : Bool) : Statement (.powerOn maddr chainHead) := fun _ h _ => nomatch h
theorem mgmtResetN (level : Bool) (t : Nat) : Statement (.mgmtResetN level t) := fun _ h _ => nomatch h
theorem moduleResetSequence (t : Nat) : Statement (.moduleResetSequence t) := fun _ h _ => nomatch h
theorem resetRelease (t : Nat) : Statement (.resetRelease t) := fun _ h _ => nomatch h
theorem bootStage (r : BootResult) (t : Nat) : Statement (.bootStage r t) := fun _ h _ => nomatch h
theorem fwOperationDone (r : FwResult) (t : Nat) : Statement (.fwOperationDone r t) := fun _ h _ => nomatch h
theorem firmwareActivation (t : Nat) : Statement (.firmwareActivation t) := fun _ h _ => nomatch h
theorem kettleFault (t : Nat) : Statement (.kettleFault t) := fun _ h _ => nomatch h
theorem kettleWatchdog (t : Nat) : Statement (.kettleWatchdog t) := fun _ h _ => nomatch h
theorem thermosWatchdog (t : Nat) : Statement (.thermosWatchdog t) := fun _ h _ => nomatch h
theorem vinFault (mv : Nat) (t : Nat) : Statement (.vinFault mv t) := fun _ h _ => nomatch h
theorem railFault (d : Fin 12) (cause : RailCause) (t : Nat) : Statement (.railFault d cause t) := fun _ h _ => nomatch h
theorem repower (d : Fin 12) (mv : Nat) (t : Nat) : Statement (.repower d mv t) := fun _ h _ => nomatch h
theorem domainPowerUp (d : Fin 12) (good : Bool) (t : Nat) : Statement (.domainPowerUp d good t) := fun _ h _ => nomatch h
theorem domainPowerDown (d : Fin 12) (t : Nat) : Statement (.domainPowerDown d t) := fun _ h _ => nomatch h
theorem temperatureSample (temps : List Int) (t : Nat) : Statement (.temperatureSample temps t) := fun _ h _ => nomatch h
theorem crystalStart (x : Crystal) (t : Nat) : Statement (.crystalStart x t) := fun _ h _ => nomatch h
theorem crystalStartLimit (x : Crystal) (t : Nat) : Statement (.crystalStartLimit x t) := fun _ h _ => nomatch h
theorem clockLoss (src : ClockSource) (t : Nat) : Statement (.clockLoss src t) := fun _ h _ => nomatch h
theorem pllLock (p : Fin 8) (t : Nat) : Statement (.pllLock p t) := fun _ h _ => nomatch h
theorem clockSwitch (d : Fin 13) (t : Nat) : Statement (.clockSwitch d t) := fun _ h _ => nomatch h
theorem switchHandshakeTimeout (d : Fin 13) (t : Nat) : Statement (.switchHandshakeTimeout d t) := fun _ h _ => nomatch h
theorem newClockTimeout (d : Fin 13) (t : Nat) : Statement (.newClockTimeout d t) := fun _ h _ => nomatch h
theorem xbIncrementUpdate (xaCycles : Nat) (t : Nat) : Statement (.xbIncrementUpdate xaCycles t) := fun _ h _ => nomatch h
theorem timeCopyReload (d : Fin 13) (t : Nat) : Statement (.timeCopyReload d t) := fun _ h _ => nomatch h
theorem peerInReset (d : Fin 13) (drops : Nat) : Statement (.peerInReset d drops) := fun _ h _ => nomatch h
theorem crossingReady (d : Fin 13) : Statement (.crossingReady d) := fun _ h _ => nomatch h
theorem fioTrim (khz : Nat) (code : Byte) (ok : Bool) (t : Nat) : Statement (.fioTrim khz code ok t) := fun _ h _ => nomatch h
theorem sioTrim (hz : Nat) (code : Byte) (ok : Bool) (t : Nat) : Statement (.sioTrim hz code ok t) := fun _ h _ => nomatch h
theorem chartBuilt (ok : Bool) (t : Nat) : Statement (.chartBuilt ok t) := fun _ h _ => nomatch h
theorem memRetrainDone (failed : BitVec 32) (failedTwice : BitVec 32) (t : Nat) : Statement (.memRetrainDone failed failedTwice t) := fun _ h _ => nomatch h
theorem encoderEdge (a : Bool) (b : Bool) (t : Nat) : Statement (.encoderEdge a b t) := fun _ h _ => nomatch h
theorem zPulse (t : Nat) : Statement (.zPulse t) := fun _ h _ => nomatch h
theorem lineFail (t : Nat) : Statement (.lineFail t) := fun _ h _ => nomatch h
theorem lineGood (t : Nat) : Statement (.lineGood t) := fun _ h _ => nomatch h
theorem accelerationCheck (t : Nat) : Statement (.accelerationCheck t) := fun _ h _ => nomatch h
theorem stopTimeout (t : Nat) : Statement (.stopTimeout t) := fun _ h _ => nomatch h
theorem speedHigh (t : Nat) : Statement (.speedHigh t) := fun _ h _ => nomatch h
theorem jobMark (level : Bool) (edge : Nat) (t : Nat) : Statement (.jobMark level edge t) := fun _ h _ => nomatch h
theorem printEnable (level : Bool) (edge : Nat) (t : Nat) : Statement (.printEnable level edge t) := fun _ h _ => nomatch h
theorem fireInhibit (level : Bool) (edge : Nat) (t : Nat) : Statement (.fireInhibit level edge t) := fun _ h _ => nomatch h
theorem lineStart (r : Fin 16) (t : Nat) : Statement (.lineStart r t) := fun _ h _ => nomatch h
theorem rowStopped (r : Fin 16) (t : Nat) : Statement (.rowStopped r t) := fun _ h _ => nomatch h
theorem rowDone (r : Fin 16) (t : Nat) : Statement (.rowDone r t) := fun _ h _ => nomatch h
theorem jobEnd (t : Nat) : Statement (.jobEnd t) := fun _ h _ => nomatch h
theorem faultStop (t : Nat) : Statement (.faultStop t) := fun _ h _ => nomatch h
theorem inhibitTest (r : Fin 16) (t : Nat) : Statement (.inhibitTest r t) := fun _ h _ => nomatch h
theorem fireStrobe (r : Fin 16) (t : Nat) : Statement (.fireStrobe r t) := fun _ h _ => nomatch h
theorem strobeReadback (r : Fin 16) (e : PadEdge) (t : Nat) : Statement (.strobeReadback r e t) := fun _ h _ => nomatch h
theorem lsdOverspeed (r : Fin 16) (t : Nat) : Statement (.lsdOverspeed r t) := fun _ h _ => nomatch h
theorem armingStep (t : Nat) : Statement (.armingStep t) := fun _ h _ => nomatch h
theorem rowReady (r : Fin 16) (t : Nat) : Statement (.rowReady r t) := fun _ h _ => nomatch h
theorem engineLineDone (p : Pipe) (h : Fin 32) (upset : Upset) (t : Nat) : Statement (.engineLineDone p h upset t) := fun _ h _ => nomatch h
theorem checkpointCompare (r : Fin 16) (bad : CvuUpset) (t : Nat) : Statement (.checkpointCompare r bad t) := fun _ h _ => nomatch h
theorem lineCompare (h : Fin 32) (bad : CvuUpset) (t : Nat) : Statement (.lineCompare h bad t) := fun _ h _ => nomatch h
theorem missingTimeout (h : Fin 32) (bad : CvuUpset) (t : Nat) : Statement (.missingTimeout h bad t) := fun _ h _ => nomatch h
theorem couplingTimeout (p : Pipe) (h : Fin 32) (waits : Nat) (bad : CvuUpset) (t : Nat) : Statement (.couplingTimeout p h waits bad t) := fun _ h _ => nomatch h
theorem squash (r : Fin 16) (t : Nat) : Statement (.squash r t) := fun _ h _ => nomatch h
theorem spcReplayLate (r : Fin 16) (t : Nat) : Statement (.spcReplayLate r t) := fun _ h _ => nomatch h
theorem spcDry (r : Fin 16) (t : Nat) : Statement (.spcDry r t) := fun _ h _ => nomatch h
theorem pourRecheck (h : Fin 32) (t : Nat) : Statement (.pourRecheck h t) := fun _ h _ => nomatch h
theorem frameSend (l : Fin 32) (upset : Upset) (cvuBad : Nat) (t : Nat) : Statement (.frameSend l upset cvuBad t) := fun _ h _ => nomatch h
theorem ack (l : Fin 32) (hdr : BitVec 2) (blk : BitVec 64) (t : Nat) : Statement (.ack l hdr blk t) := fun _ h _ => nomatch h
theorem ackTimeout (l : Fin 32) (t : Nat) : Statement (.ackTimeout l t) := fun _ h _ => nomatch h
theorem flush (l : Fin 32) (t : Nat) : Statement (.flush l t) := fun _ h _ => nomatch h
theorem flushTimeout (l : Fin 32) (t : Nat) : Statement (.flushTimeout l t) := fun _ h _ => nomatch h
theorem laneTrainingBlock (l : Fin 34) (hdr : BitVec 2) (blk : BitVec 64) (t : Nat) : Statement (.laneTrainingBlock l hdr blk t) := fun _ h _ => nomatch h
theorem laneStageDone (l : Fin 34) (seen : LaneSeen) (t : Nat) : Statement (.laneStageDone l seen t) := fun _ h _ => nomatch h
theorem stageLimit (l : Fin 34) (t : Nat) : Statement (.stageLimit l t) := fun _ h _ => nomatch h
theorem laneLoss (l : Fin 32) (cause : BitVec 4) (headers : List (BitVec 2)) (t : Nat) : Statement (.laneLoss l cause headers t) := fun _ h _ => nomatch h
theorem retrainDone (l : Fin 32) (t : Nat) : Statement (.retrainDone l t) := fun _ h _ => nomatch h
theorem autoSleep (c : Fin 4) (t : Nat) : Statement (.autoSleep c t) := fun _ h _ => nomatch h
theorem laneTestEnd (t : Nat) : Statement (.laneTestEnd t) := fun _ h _ => nomatch h
theorem hmcAnswer (c : Fin 4) (chars : List (Byte × Bool)) (t : Nat) : Statement (.hmcAnswer c chars t) := fun _ h _ => nomatch h
theorem hmcTimeout (c : Fin 4) (t : Nat) : Statement (.hmcTimeout c t) := fun _ h _ => nomatch h
theorem hmcStatusPoll (c : Fin 4) (t : Nat) : Statement (.hmcStatusPoll c t) := fun _ h _ => nomatch h
theorem usageCommit (t : Nat) : Statement (.usageCommit t) := fun _ h _ => nomatch h
theorem chnAck (side : Side) (blk : BitVec 64) (t : Nat) : Statement (.chnAck side blk t) := fun _ h _ => nomatch h
theorem chnAckTimeout (side : Side) (t : Nat) : Statement (.chnAckTimeout side t) := fun _ h _ => nomatch h
theorem enum (h : ChainHdr) (value : Byte) (serial : BitVec 64) (t : Nat) : Statement (.enum h value serial t) := fun _ h _ => nomatch h
theorem enumDone (h : ChainHdr) (count : Byte) (epoch : BitVec 6) (serial : BitVec 64) (t : Nat) : Statement (.enumDone h count epoch serial t) := fun _ h _ => nomatch h
theorem enumTimeout (t : Nat) : Statement (.enumTimeout t) := fun _ h _ => nomatch h
theorem noHead (t : Nat) : Statement (.noHead t) := fun _ h _ => nomatch h
theorem rejoin (h : ChainHdr) (m : RejoinMsg) (t : Nat) : Statement (.rejoin h m t) := fun _ h _ => nomatch h
theorem sync (side : Side) (t1 : Nat) (t2 : Nat) (t3 : Nat) (t4 : Nat) : Statement (.sync side t1 t2 t3 t4) := fun _ h _ => nomatch h
theorem beaconSample (t : Nat) : Statement (.beaconSample t) := fun _ h _ => nomatch h
theorem beacon (h : ChainHdr) (b : Beacon) (t : Nat) : Statement (.beacon h b t) := fun _ h _ => nomatch h
theorem beaconLoss (t : Nat) : Statement (.beaconLoss t) := fun _ h _ => nomatch h
theorem txnPrepare (h : ChainHdr) (m : PrepareMsg) (t : Nat) : Statement (.txnPrepare h m t) := fun _ h _ => nomatch h
theorem prepareTimeout (t : Nat) : Statement (.prepareTimeout t) := fun _ h _ => nomatch h
theorem txnDecision (h : ChainHdr) (group : BitVec 32) (commit : Bool) (t : Nat) : Statement (.txnDecision h group commit t) := fun _ h _ => nomatch h
theorem decisionTimeout (t : Nat) : Statement (.decisionTimeout t) := fun _ h _ => nomatch h
theorem txnQuery (h : ChainHdr) (group : BitVec 32) (t : Nat) : Statement (.txnQuery h group t) := fun _ h _ => nomatch h
theorem txnAnswer (h : ChainHdr) (group : BitVec 32) (st : TxnAnswerState) (t : Nat) : Statement (.txnAnswer h group st t) := fun _ h _ => nomatch h
theorem chnFault (h : ChainHdr) (fclass : Byte) (stop : Bool) (time : BitVec 64) (t : Nat) : Statement (.chnFault h fclass stop time t) := fun _ h _ => nomatch h
theorem chnWaste (h : ChainHdr) (cause : Byte) (first : Int) (last : Int) (t : Nat) : Statement (.chnWaste h cause first last t) := fun _ h _ => nomatch h
theorem resetNotice (h : ChainHdr) (cause : Byte) (t : Nat) : Statement (.resetNotice h cause t) := fun _ h _ => nomatch h
theorem peerReq (h : ChainHdr) (mgmt : Bool) (msg : List Byte) (t : Nat) : Statement (.peerReq h mgmt msg t) := fun _ h _ => nomatch h
theorem peerReply (h : ChainHdr) (msg : List Byte) (full : Nat) (t : Nat) : Statement (.peerReply h msg full t) := fun _ h _ => nomatch h
theorem forwardTimeout (t : Nat) : Statement (.forwardTimeout t) := fun _ h _ => nomatch h
theorem hopLoss (side : Side) (cause : BitVec 4) (headers : List (BitVec 2)) (t : Nat) : Statement (.hopLoss side cause headers t) := fun _ h _ => nomatch h
theorem hopRetrainDone (side : Side) (t : Nat) : Statement (.hopRetrainDone side t) := fun _ h _ => nomatch h
theorem chainSleepTimer (t : Nat) : Statement (.chainSleepTimer t) := fun _ h _ => nomatch h
theorem wasteBroadcast (t : Nat) : Statement (.wasteBroadcast t) := fun _ h _ => nomatch h
theorem servoTick (t : Nat) : Statement (.servoTick t) := fun _ h _ => nomatch h
theorem statusFrame (a : Fin 8) (frame : List Byte) (t : Nat) : Statement (.statusFrame a frame t) := fun _ h _ => nomatch h
theorem driveSlotFault (a : Fin 8) (cause : SlotFault) (t : Nat) : Statement (.driveSlotFault a cause t) := fun _ h _ => nomatch h
theorem enableTimeout (a : Fin 8) (t : Nat) : Statement (.enableTimeout a t) := fun _ h _ => nomatch h
theorem hamperStaged (tile : BitVec 24) (data : List Byte) (readOk : Bool) (t : Nat) : Statement (.hamperStaged tile data readOk t) := fun _ h _ => nomatch h
theorem hamperListStaged (data : List Byte) (readOk : Bool) (t : Nat) : Statement (.hamperListStaged data readOk t) := fun _ h _ => nomatch h
theorem blockDecode (p : Pipe) (u : Fin 16) (fail : Bool) (t : Nat) : Statement (.blockDecode p u fail t) := fun _ h _ => nomatch h
theorem compressorVerify (u : Fin 8) (fail : Bool) (t : Nat) : Statement (.compressorVerify u fail t) := fun _ h _ => nomatch h
theorem cdxCheckDone (t : Nat) : Statement (.cdxCheckDone t) := fun _ h _ => nomatch h
theorem dramReadError (addr : Nat) (bit : Fin 72) (double : Bool) (again : Bool) (reader : MemReader) (t : Nat) : Statement (.dramReadError addr bit double again reader t) := fun _ h _ => nomatch h
theorem sramReadError (arr : SramArray) (addr : Nat) (double : Bool) (again : Bool) (t : Nat) : Statement (.sramReadError arr addr double again t) := fun _ h _ => nomatch h
theorem sramSweep (arr : SramArray) (t : Nat) : Statement (.sramSweep arr t) := fun _ h _ => nomatch h
theorem scrubBurst (t : Nat) : Statement (.scrubBurst t) := fun _ h _ => nomatch h
theorem scrubPassEnd (t : Nat) : Statement (.scrubPassEnd t) := fun _ h _ => nomatch h
theorem refresh (ch : Fin 32) (rank : Fin 2) (t : Nat) : Statement (.refresh ch rank t) := fun _ h _ => nomatch h
theorem neighbourRefresh (ch : Fin 32) (rank : Fin 2) (bank : Fin 16) (row : Fin 131072) (t : Nat) : Statement (.neighbourRefresh ch rank bank row t) := fun _ h _ => nomatch h
theorem refreshRateRead (mult : Nat) (t : Nat) : Statement (.refreshRateRead mult t) := fun _ h _ => nomatch h
theorem zqCalibration (t : Nat) : Statement (.zqCalibration t) := fun _ h _ => nomatch h
theorem driftMeasure (ch : Fin 32) (drift : DriftResult) (t : Nat) : Statement (.driftMeasure ch drift t) := fun _ h _ => nomatch h
theorem setPointDecision (t : Nat) : Statement (.setPointDecision t) := fun _ h _ => nomatch h
theorem selfRefresh (t : Nat) : Statement (.selfRefresh t) := fun _ h _ => nomatch h
theorem fenceViolation (agent : Agent) (addr : Nat) (t : Nat) : Statement (.fenceViolation agent addr t) := fun _ h _ => nomatch h
theorem faultDetection (t : Nat) : Statement (.faultDetection t) := fun _ h _ => nomatch h
theorem wasteRangeClose (t : Nat) : Statement (.wasteRangeClose t) := fun _ h _ => nomatch h
theorem wasteHoldEnd (t : Nat) : Statement (.wasteHoldEnd t) := fun _ h _ => nomatch h
theorem sleepEntry (c : Fin 4) (t : Nat) : Statement (.sleepEntry c t) := fun _ h _ => nomatch h
theorem chainOfOne (t : Nat) : Statement (.chainOfOne t) := fun _ h _ => nomatch h
theorem standby (t : Nat) : Statement (.standby t) := fun _ h _ => nomatch h
theorem perstRelease (t : Nat) : Statement (.perstRelease t) := fun _ h _ => nomatch h
theorem hamperSpace (t : Nat) : Statement (.hamperSpace t) := fun _ h _ => nomatch h
theorem memEcc (memory : Fin 8) (t : Nat) : Statement (.memEcc memory t) := fun _ h _ => nomatch h
theorem checkerSync (l : Fin 32) (bits : List Bool) (t : Nat) : Statement (.checkerSync l bits t) := fun _ h _ => nomatch h
theorem errorInjection (l : Fin 32) (t : Nat) : Statement (.errorInjection l t) := fun _ h _ => nomatch h
theorem chainWakeTimeout (t : Nat) : Statement (.chainWakeTimeout t) := fun _ h _ => nomatch h

end Sys2Proof.Laws.WF
end

