-- ==== Sys2Proof/Laws/Serve.lean ====
section
/-! SUPPORT. How a mailbox serves a request (17 R420, R427): the checks in order, and a request that is executed. -/

namespace Sys2Proof.Machine

@[simp] theorem checks_nil (s : State) (k : Unit → Ans) : checks s [] k = k () := rfl

theorem checks_cons (s : State) (c : Bool × Status) (r : List (Bool × Status)) (k : Unit → Ans) :
    checks s (c :: r) k = if c.1 then .fail s c.2 else checks s r k := rfl

/-- No condition holds: the command goes on. -/
theorem checks_pass {s : State} {l : List (Bool × Status)} {k : Unit → Ans} (h : ∀ c ∈ l, c.1 = false) : checks s l k = k () := by
  induction l with
  | nil => rfl
  | cons c r ih =>
    rw [checks_cons, h c List.mem_cons_self, if_neg Bool.false_ne_true, ih (fun d hd => h d (List.mem_cons_of_mem _ hd))]

/-- The first condition that holds decides. -/
theorem checks_fail {s : State} {p r : List (Bool × Status)} {c : Bool × Status} {k : Unit → Ans} (h : ∀ d ∈ p, d.1 = false)
    (hc : c.1 = true) : checks s (p ++ c :: r) k = .fail s c.2 := by
  induction p with
  | nil => rw [List.nil_append, checks_cons, hc, if_pos rfl]
  | cons d p ih =>
    rw [List.cons_append, checks_cons, h d List.mem_cons_self, if_neg Bool.false_ne_true,
      ih (fun e he => h e (List.mem_cons_of_mem _ he))]

/-- A request that is no RETRY of a remembered one, on a mailbox that permits its opcode and of an allowed length, is
executed: the command's answer is delivered. -/
theorem serve_executed {c : Cmd} {q : Req} {s : State} (hp : opPermitted c.opcode q.mb = true) (hn : q.payload.length ≤ 240)
    (hr : q.retry = false ∨ (s.box q.mb).memory.all (fun x => decide (x.tag ≠ q.tag)) = true)
    (hl : c.okLen q.payload.length = true) : serve c q s = (c.run q (s.start q c.opcode)).deliver q c.opcode := by
  have hm : (if q.retry then (s.box q.mb).memory.find? (fun x => x.tag = q.tag) else none) = none := by
    rcases hr with hr | hr
    · simp [hr]
    · split
      · simp only [List.find?_eq_none]
        intro x hx
        simp only [List.all_eq_true] at hr
        simpa using hr x hx
      · rfl
  unfold serve
  rw [hm]
  simp [Cmd.execute, Cmd.answer, hp, hn, hl]

/-- The bookkeeping of a started request touches the mailboxes alone. -/
theorem State.start_eq (s : State) (q : Req) (opcode : Nat) : s.start q opcode = { s with mbx := (s.start q opcode).mbx } := rfl

end Sys2Proof.Machine
end

