-- ==== Sys2Proof/Machine/Scramble.lean ====
section
/-! DEFINITION. The bits of a 64b/66b lane (12 R280): how the blocks that `Wire.laneBlocks` names leave on the pair. The state of the
scrambler depends on every IDLE and training block sent before, which is timing: it is the argument, and the model holds no value
of it (log 85). -/

namespace Sys2Proof.Machine

/-- One payload bit through the scrambler 1 + x^39 + x^58: the line bit and the register, newest bit at 0. -/
def scrambleBit (r : BitVec 58) (d : Bool) : Bool × BitVec 58 :=
  let o := d ^^ r.getLsbD 38 ^^ r.getLsbD 57
  (o, (r <<< 1) ||| (BitVec.ofBool o).zeroExtend 58)

/-- One line bit through the descrambler. -/
def descrambleBit (r : BitVec 58) (o : Bool) : Bool × BitVec 58 :=
  (o ^^ r.getLsbD 38 ^^ r.getLsbD 57, (r <<< 1) ||| (BitVec.ofBool o).zeroExtend 58)

/-- A bit string through one of them, first bit first. -/
def passBits (f : BitVec 58 → Bool → Bool × BitVec 58) : BitVec 58 → List Bool → List Bool × BitVec 58
  | r, [] => ([], r)
  | r, b :: bs => let x := f r b; let y := passBits f x.2 bs; (x.1 :: y.1, y.2)

/-- The payload bits of a block, bit 0 first. -/
def payloadBits (p : BitVec 64) : List Bool := (List.range 64).map p.getLsbD

/-- The 66 bits of a block on the pair: h0 and h1, then the scrambled payload. -/
def lineBlock (r : BitVec 58) (b : Bool × BitVec 64) : List Bool × BitVec 58 :=
  let x := passBits scrambleBit r (payloadBits b.2)
  ([b.1, !b.1] ++ x.1, x.2)

/-- The bits of a run of blocks. -/
def lineBits : BitVec 58 → List (Bool × BitVec 64) → List Bool × BitVec 58
  | r, [] => ([], r)
  | r, b :: bs => let x := lineBlock r b; let y := lineBits x.2 bs; (x.1 ++ y.1, y.2)

end Sys2Proof.Machine
end

