-- ==== Sys2Proof/Tests/Slice0.lean ====
section
/-! SUPPORT. Small tests: the words of the table, ill-formed commands, worked examples of the spec, and for every statement
a state and operands that meet its hypotheses. -/

-- One theorem after the other: their kernel checks wait for each other anyway.
set_option Elab.async false

namespace Sys2Proof.Tests

open Sys2Proof.Machine



/-- The module with everything powered and served: boot done, host up, mailboxes ready. -/
def up : State :=
  let s := State.reset
  { s with
    hif := { s.hif with inReset := false }
    pwr := { s.pwr with powered := 0xFFF }
    boot := { s.boot with stage := 5, fwReady := true }
    clk := { s.clk with inReset := 0 }
    mbx := { s.mbx with boxes := Vector.replicate 8 { Box.init with ready := true } } }

/-- A request on MB0, with ASYNC_OK, tag 7. -/
def req (p : List Byte) : Req := { mb := 0, tag := 7, flags := 1, payload := p }

/-- The state a command answers. -/
def after (i : Instr) (s : State) : State :=
  match exec i s with
  | .next t => t
  | _ => s

/-- One open window over the first 4 KiB of the transfer zone. -/
def upWindow : State :=
  { up with hif := { up.hif with windows := up.hif.windows.set 0 { base := 0x3400000000, size := 1, read := true, write := true, valid := true } } }

/-- A NOP request slot: tag 7, ASYNC_OK, one payload byte. -/
def nopSlot : List Byte := [0, 0, 7, 0, 1, 0, 1, 0, 0, 0, 0, 0, 0, 0, 0, 0, 0x5A]

/-- MB0 has one request waiting. -/
def upWaiting : State :=
  ({ up with mbx := { up.mbx with ringMem := Memory.write [] 0x20000 nopSlot } }).updBox 0 (fun b => { b with reqTail := 1 })

/-- MB0 remembers a NOP of tag 7 and what it answered. -/
def upAnswered : State := after (.nop (req [1, 2])) up

/-- Channel 1 has a transfer of 64 bytes from host memory into the open window set up. -/
def upChan : State :=
  upWindow.updChan 1 (fun x => { x with src := 0x1000, dst := 0x3400000000, count := 64, ctrl := 0x3F0200 })

/-- The transfer runs. -/
def upActive : State :=
  let s := upChan.updChan 1 (fun x => { x with
    state := .active, run := 1, burstLeft := 64
    latched := { src := x.src, dst := x.dst, count := x.count, reqSel := x.reqSel, ctrl := 0x3F0200, user := x.user } })
  { s with dma := { s.dma with reads := [(1, 64)] } }

/-- CQ0 is enabled in host memory. -/
def upCq : State := upActive.updQue 0 (fun q => { q with base := 0x1000, enable := true })

/-- The transfer has moved everything and completes in CQ0. -/
def upMoved : State := upCq.updChan 1 (fun x => { x with moved := 64, burstLeft := 0, latched := { x.latched with ctrl := 0x200 } })

/-- XB is starting, as after its loss. -/
def upStarting : State := { up with clk := { up.clk with sources := #v[.running, .running, .starting, .starting, .off] } }

/-- XA runs and PL1 is locked. -/
def upLocked : State := { up with clk := { up.clk with sources := #v[.running, .running, .running, .running, .off], plls := Vector.replicate 8 .locked } }

/-- CK_ENG A is switching to FIO. -/
def upSwitching : State := { upLocked with clk := { upLocked.clk with
  domains := upd upLocked.clk.domains 6 (fun c => { c with clock := 4, target := some 2 }) } }

/-- A request of the management port on MB4. -/
def mreq (p : List Byte) : Req := { mb := 4, tag := 9, flags := 0, payload := p }

/-- A firmware update of 4,096 bytes is open, nothing in progress. -/
def openUpd : Update := { item := .firmware, length := 4096, pages := [], written := 0, busy := none }
def upUpdate (u : Update) : State := { up with boot := { up.boot with update := some u } }

/-- An acceptable image. -/
def goodImage : ImageCheck := { signed := true, sections := true, retries := 0, secVer := 0, major := 3, minor := 0, patch := 0 }

/-- Panel slot 5 of 100 lines, printed twice, is defined and the job's whole sequence. -/
def onePanel : Panel := { slot := 5, length := 100, rpt := 2, lists := [] }
def upJob (state : JobState) : State :=
  { up with
    layout := { up.layout with panels := [onePanel], rows := upd up.layout.rows 0 (fun d => { d with plane := some 0 }) }
    job := { up.job with state := state, seq := [5] }
    lsd := { up.lsd with configured := true, origin := some 0, cfg := { up.lsd.cfg with num := 127, den := 24, lpi := 1200 } }
    chain := { up.chain with address := some 0, count := 1 } }

/-- Device memory of the transfer zone holds the sequence of slot 5. -/
def upSeq : State := { upJob .idle with mem := [(0x3400000000, 5)] }

/-- The web is configured and runs forward, last edge at count 1000. -/
def upWeb : State :=
  { upJob .idle with
    aon := us 10
    lsd := { (upJob .idle).lsd with
      count := 1000, dir := 1, stopped := false, vNum := 2, vDen := 100
      edges := [{ count := 1000, dir := 1, stamp := 9000, vNum := 2, vDen := 100 }] } }

/-- Row 0 of a running job has announced line 3, its strobe due at 20 us. -/
def upPulse : State :=
  let s := upJob .running
  let p : Pulse := { line := 3, ts := 40000, emitted := false, faulty := false, judged := false }
  { s with
    lsd := { s.lsd with rows := upd s.lsd.rows 0 (fun x => { x with next := 4, counting := [40000] }) }
    rows := upd s.rows 0 (fun x => { x with pulses := [p], lastFire := some (3, false) }) }

/-- The same with the strobe emitted. -/
def upFired : State := { upPulse with rows := upd upPulse.rows 0 (fun x => { x with pulses := x.pulses.map (fun p => { p with emitted := true }) }) }

/-- One half-row line as an engine hands it over. -/
def lineSet (n : Nat) : LineSet :=
  { line := n, tag := lineTag n, sigs := [1, 2, 3, 4, 5, 6, 7, 8], couple := 9, bytes := [], generation := 0, unbound := false, damaged := false,
    at_ := 0, injected := false }

/-- Half 0 of row 0 has two sets for line 5; half 1 has matched it, and line 5 is the next to be agreed. -/
def upSets : State :=
  let s := upJob .armed
  let c0 := upd s.chk.cvus 0 (fun u => { u with next := 5, prims := [lineSet 5], shads := [lineSet 5] })
  let c1 := upd c0 1 (fun u => { u with next := 6, matched := [lineSet 5] })
  let chk : Chk := { s.chk with cvus := c1 }
  let rows := upd s.rows 0 (fun x => { x with agreed := 5 })
  { s with chk := chk, rows := rows }

/-- A checkpoint at line 64 whose parts both pipelines have formed. -/
def ckpt64 : Ckpt :=
  { line := 64, generation := 0, walk := Walker.init, carry := [1], hist := [2], primDone := true, shadow := some (partCrcs Walker.init [1] [2])
    recordCrc := recordCrc Walker.init [1] 0 [2], noise := 0, valid := false, bad := false, poisoned := false, injected := false }

def upCkpt : State := let s := upJob .armed; { s with rows := upd s.rows 0 (fun x => { x with ckpts := [ckpt64] }) }

/-- A good checkpoint at line 64 of a row of plane 0. -/
def goodCkpt : Ckpt :=
  let n := noiseState (((upJob .armed).layout.planes[(0 : Fin 16)]).settings 0).seed 64 0
  { ckpt64 with valid := true, noise := n, recordCrc := recordCrc Walker.init [1] n [2] }

/-- A squash at line 100 waits; the row has begun line 200 and holds the checkpoint. -/
def upSquash : State :=
  let s := upJob .armed
  { s with rows := upd s.rows 0 (fun x => { x with
      ckpts := [goodCkpt], squash := some { line := 100, why := .retry }, agreed := 150, prim := { x.prim with line := 200 } }) }

/-- An open group of id 9 with no member. -/
def group9 (state : GroupState) (chain : Bool) : Group :=
  { id := 9, chain := chain, state := state, members := [], calBase := [], line := 40, coordinator := 2, votedAt := 1, queried := false, answered := 0 }

/-- A module at address 0 of a chain of four that holds group 9, sealed on the next generation. -/
def upGroup (state : GroupState) (chain : Bool) : State :=
  let gen : Gen := { up.txn.newest with number := 1 }
  { up with
    chain := { up.chain with address := some 0, count := 4 }
    txn := { up.txn with groups := [group9 state chain], built := if state = .isOpen then none else some gen } }

/-- A message header from module 2 to everyone, or to this module. -/
def hdr (dst : Byte) : ChainHdr := { side := .inn, src := 2, dst := dst, hseq := 0, epoch := up.chain.epoch }

/-- FIO and SIO run beside XA. -/
def upTrim : State := { up with clk := { up.clk with sources := #v[.running, .running, .running, .running, .off] } }

/-- Row 0 alone prints a CODES plane; a web is configured; group 9 is open. -/
def upChart : State :=
  let s := upGroup .isOpen false
  let rows := upd up.layout.rows 0 (fun d => { d with plane := some 3, k := 1, phase := 0 })
  let planes := upd up.layout.planes 3 (fun p => { p with codes := true })
  let lsd : Lsd := { up.lsd with configured := true, cfg := { up.lsd.cfg with num := 127, den := 24, lpi := 1200 } }
  { s with layout := { up.layout with rows := rows, planes := planes }, lsd := lsd }

def chart0 : Chart := { origin := { mb := 0, tag := 7 }, kind := 1, code := 15, rows := 1, panel := 4095, tileBase := 1 }

/-- A 16-byte codec header with its CRC. -/
def hdr16 (p : List Byte) : List Byte := p ++ le 4 (crc32c 0 p).toNat

/-- A stream of a 1 x 1 tile of MASK format: one FILL block of value 7. -/
def fillStream : List Byte :=
  hdr16 [0x50, 0x4C, 0x4E, 0x42, 1, 0, 0, 0, 0, 0, 0, 0] ++ hdr16 ([0xA2, 7, 0, 0, 0, 0, 0, 0] ++ le 4 (crc32c 0 [7]).toNat) ++
    hdr16 [0xAE, 0, 0, 0, 0, 0, 0, 0, 1, 0, 0, 0]

def staging1 (raw srcHost : Bool) (length : Nat) : Staging :=
  { origin := { mb := 0, tag := 7 }, tile := 1, raw := raw, structural := false, autoFree := false, replace := false, srcHost := srcHost, ns := false,
    codes := false, w := 1, h := 1, src := 0, length := length, extents := [{ start := 0, len := 1 }] }

def tile1 : Tile :=
  { id := 1, ready := true, codes := false, w := 1, h := 1, autoFree := false, fromRaw := false, extents := [{ start := 0, len := 1 }], index := 0,
    blocks := [{ btype := 0xA1, fillv := 0, payload := [7], raw := some [7], fault := 0, addr := 16, damaged := false }] }

def list1 : PList := { handle := 3, isVar := false, codes := false, slots := [], places := [], units := [] }

/-- The store holds tile 1 and list 3. -/
def upStore : State := { up with hamper := { up.hamper with tiles := [tile1], lists := [list1], nextHandle := 4 } }

def upStaging (raw srcHost : Bool) (length : Nat) : State := { up with hamper := { up.hamper with stagings := [staging1 raw srcHost length] } }

def capture0 : Capture := { origin := some { mb := 0, tag := 7 }, row := 0, first := 5, count := 2, dst := 0x3400000000, written := 1, active := true }

/-- Connector 0 is identified and waits for the answer to a request. -/
def upAsked (mtype : Byte) (payload : List Byte) (origin : Option Origin) (tries : Nat) : State :=
  let q : HmcReq := { mtype := mtype, payload := payload, origin := origin }
  { up with hlk := { up.hlk with conns := upd up.hlk.conns 0 (fun n => { n with identified := true, hmcQueue := [q], hmcWait := some (0, 0, tries) }) } }

/-- Head 5 is present and authenticated under policy REPORT. -/
def upHead : State :=
  { up with hac := { up.hac with policy := 1, heads := upd up.hac.heads 5 (fun x => { x with present := true, auth := .passed, pendLines := 3 }) } }

/-- Lane 0 is ACTIVE, connector 0 identified. -/
def upLane0 (st : LaneState) : State :=
  { up with hlk := { up.hlk with
      lanes := upd up.hlk.lanes 0 (fun n => { n with state := st })
      conns := upd up.hlk.conns 0 (fun n => { n with identified := true }) } }

/-- Every lane of connector 0 in one state. -/
def upConn0 (st : LaneState) : State :=
  let lanes := (connLanes 0).foldl (fun v l => upd v (asLane l) (fun n => { n with state := st })) up.hlk.lanes
  { up with hlk := { up.hlk with lanes := lanes } }

def testRun : TestRun :=
  { lanes := 3, pattern := 0, mode := 0, inject := 2, injectExp := 6, durationMs := 1, started := 0, origin := { mb := 0, tag := 7 } }

def upTest : State := { up with hlk := { up.hlk with test := some testRun } }

/-- That test in a mode with an injection, lane 0's counters changed as given. -/
def upTested (mode inject : Nat) (f : LaneTest → LaneTest) : State :=
  { up with hlk := { up.hlk with test := some { testRun with mode := mode, inject := inject }, tests := upd up.hlk.tests 0 f } }

/-- Lane 0 in a state with block lock. -/
def upLocked0 (st : LaneState) : State := (upLane0 st).updLane 0 (fun n => { n with sync := { n.sync with locked := true } })

/-- Connector 0 is aligned: every lane sees its own number and is echoed it. -/
def upAligned (st : LaneState) : State :=
  let f (v : Vector Lane 34) (l : Fin 32) : Vector Lane 34 := upd v (asLane l) (fun n => { n with
    state := st, stage := 4, sync := { n.sync with locked := true }, agree := 16, partnerId := l.val, seenValid := true, echo := some (l.val, false) })
  { up with hlk := { up.hlk with lanes := (connLanes 0).foldl f up.hlk.lanes } }

/-- What a lane saw: 64 headers, and training blocks of which some failed. -/
def seen (bad blocks : Nat) : LaneSeen :=
  { signal := true, headers := List.replicate 64 hdrControl, margins := [], ctle := 0, badBlocks := bad, blocks := blocks }

/-- A training block of lane 0. -/
def trainBlock : BitVec 64 := (up.trainingBlock 0 3).2

/-- Line 40 of row 0 as it lies in the line buffer, with one state of its low half. -/
def bufHalf (x : HalfSend) : BufLine :=
  let d : Agreed := { line := 40, generation := 0, unbound := false, damaged := false, replayed := false, sigs := [], bytes := [] }
  { data := d, poured := true, lo := x, hi := HalfSend.fresh }

/-- The frame of line 40 as it waits for its answer. -/
def awaited40 : Awaited := { fseq := 9, line := 40, resend := false, sentAt := 0, checkOk := true }

/-- Head lane 0 is ACTIVE with block lock, line 40 is buffered, and its transmit lane is as given. -/
def upFrame (x : HalfSend) (f : TxLane → TxLane) : State :=
  let s := (upConn0 .active).updLane 0 (fun n => { n with sync := { n.sync with locked := true } })
  { s with hlk := { s.hlk with tx := upd s.hlk.tx 0 f }, rows := upd s.rows 0 (fun r => { r with buffer := [bufHalf x] }) }

/-- An ACK of head lane 0 for fseq 9 with a result. -/
def ackOf (result : Byte) : BitVec 64 :=
  let e : List Byte := [0xF1, 0, 0, 0, 9, result, 0]
  blockOf (e ++ [crc8 e])

/-- A half whose recheck is not yet classified: the mask, and whether a recheck fault is pending. -/
def rechecked (m : BitVec 16) (p : Bool) : HalfSend := { HalfSend.fresh with check := some m, recheckPending := p }

/-- Axis 0 configured on an enabled link, with v_max 1,000 counts/s and limits of 100, changed as given. -/
def upAxis (f : Axis → Axis) : State :=
  let c (a : Axis) : Axis := { a with configured := true, vMax := 1000, dStop := 200, lim := { aMax := 100, dMax := 100, jerk := 0 } }
  { up with mot := { up.mot with links := 1, axes := upd up.mot.axes 0 (fun a => f (c a)) } }

/-- A STATUS frame of slot 0 that echoes tick 0xFFFF, with its dstatus and actual position 7. -/
def driveFrame (d : Byte) : List Byte :=
  let body : List Byte := [0, 0xFF, d, 7, 0, 0, 0]
  [0x5A] ++ body ++ le 4 (crc32c 0 body).toNat

/-- The module holds address 3 of a chain of six; both chain lanes ACTIVE; the chain unit changed as given. -/
def upLink (f : Chain → Chain) : State :=
  let lanes := [32, 33].foldl (fun v l => upd v l (fun n => { n with state := LaneState.active })) up.hlk.lanes
  { up with hlk := { up.hlk with lanes := lanes }, chain := f { up.chain with address := some 3, count := 6 } }

/-- A CHN_ACK for hseq 5 with a result. -/
def chnAckOf (result : Byte) : BitVec 64 :=
  let e : List Byte := [0xC3, 5, result, 0, 0, 0, 0]
  blockOf (e ++ [crc8 e])

def waiting5 (resend : Bool) : HopTx :=
  { hseq := 6, wait := some (5, { mtype := 0x30, src := 3, dst := 0xFF, body := [] }, resend, 1), queue := [] }

/-- The inward hop is retraining since time 1 and aligned again; its partner's ready as given. -/
def upHopBack (ready : Bool) : State :=
  (upLink (fun c => { c with hopIn := { c.hopIn with retrain := some (1, 2) } })).updLane 32 (fun n => { n with
    stage := 4, agree := 16, echo := some (0, false), partnerReady := ready })

def beacon7 : Beacon := { seq := 7, lap := 1, count := 6, lineMode := false, reference := false, tk := 875000, slots := [] }

/-- A word with one flipped bit is planted in DRAM. -/
def planted : Corruption := { target := 0, double := false, bit := 3, addr := 0x80000000 }

/-- A proof capture of row 0 waits. -/
def capture9 : Capture := { origin := none, row := 0, first := 0, count := 4, dst := 0x3400000000, written := 0, active := true }

/-- FSV is told of a fault of the drives with one outcome. -/
def upTold (o : FaultOutcome) : State :=
  let d : Detect := { fclass := 0x12, source := 27, outcome := o, stops := true }
  { upJob .armed with fsv := { (upJob .armed).fsv with inbox := [.detect d 0] } }

/-- One record in the log; WASTE stands since O was left at time 1. -/
def upWaste : State := { up with fsv := { up.fsv with log := [LogRec.zero], nextSeq := 1, waste := true, leftAt := some 1 } }

/-! ### Commands -/

/-- A block has no instruction words: no row of the table gives bits. -/
theorem test_no_words (n w : Nat) : decodeTableWord n w = none := rfl

theorem test_no_fetch_word (s : State) (n w : Nat) : s.withFetchWord n w = s := rfl

/-- An empty queue: only 4 ns pass. -/
theorem test_idle : (match step State.reset with | .next s => s.aon | _ => 0) = ns 4 := by decide +kernel

/-- The front command leaves the queue. -/
theorem test_step_takes_front :
    (match step { State.reset with pending := [.alertResponseRead, .nop (req [])] } with | .next s => s.pending | _ => []) =
      [.nop (req [])] := by decide +kernel

/-! ### Ill-formed commands -/

theorem test_bad_req (q : Req) (h : q.payload.length = 241) : Instr.wf (.nop q) = false := by simp [Instr.wf, Req.wf, h]

theorem test_bad_upset : Upset.wf { byte := 4096, mask := 1 } = false := by decide

theorem test_bad_beacon_slots (b : Beacon) (h : b.slots.length = 17) : b.wf = false := by simp [Beacon.wf, h]

theorem test_bad_beacon_lap (b : Beacon) (h : b.lap = 2) : b.wf = false := by simp [Beacon.wf, h]

theorem test_bad_beacon_count (b : Beacon) (h : b.count = 17) : b.wf = false := by simp [Beacon.wf, h]

theorem test_bad_seen (e : LaneSeen) (h : e.badBlocks = e.blocks + 1) : e.wf = false := by simp [LaneSeen.wf, h]

theorem test_bad_package (p : KeyPackage) (h : p.entries.length = 9) : p.wf = false := by simp [KeyPackage.wf, h]

theorem test_bad_self_test : BootResult.wf (.selfTest [(0, 72)] []) = false := by decide

theorem test_bad_bar0_size : Instr.wf (.bar0RegisterWrite 0 2 0) = false ∧ Instr.wf (.bar0LowHalfRead 0 16) = false := by decide

theorem test_bad_bar2 : Instr.wf (.bar2Read 0 0) = false ∧ Instr.wf (.bar2Write 0 []) = false := by decide

theorem test_bad_mb_req : Instr.wf (.mbReqWrite 0 [1] 0) = false ∧ Instr.wf (.mbReqWrite 0 [] 0) = false := by decide

theorem test_bad_mgmt_write (m : Fin 2) (t : Nat) (l : List Byte) (h : l.length = 256) : Instr.wf (.mgmtRegisterWrite m l t) = false := by
  simp [Instr.wf, h]

theorem test_bad_hmc (c : Fin 4) (t : Nat) (l : List (Byte × Bool)) (h : l.length = 256) : Instr.wf (.hmcAnswer c l t) = false := by
  simp [Instr.wf, h]

theorem test_bad_temps (t : Nat) : Instr.wf (.temperatureSample [] t) = false := by simp [Instr.wf]

theorem test_bad_status_frame (a : Fin 8) (t : Nat) : Instr.wf (.statusFrame a [0] t) = false := by simp [Instr.wf]

theorem test_bad_refresh_rate : Instr.wf (.refreshRateRead 3 0) = false := by decide

theorem test_bad_address : Instr.wf (.fenceViolation .kettle 0x3800000000 0) = false ∧
    Instr.wf (.dramReadError 0x3800000000 0 false false .cdx 0) = false := by decide

theorem test_bad_peer_req (h : ChainHdr) (t : Nat) : Instr.wf (.peerReq h false [] t) = false := by simp [Instr.wf]

theorem test_bad_peer_reply (h : ChainHdr) (l : List Byte) (t : Nat) (e : l.length = 241) : Instr.wf (.peerReply h l 0 t) = false := by
  simp [Instr.wf, e]

/-! ### Worked examples of the spec -/

/-- 02, worked example: the ratio 127/24. -/
theorem test_web_ratio : webRatio 250000 1000000 1200 = (127, 24) := by decide +kernel

/-- 02, worked example: the line distance of line 1,000,000 in Q16 counts, and S_5. -/
theorem test_start_position : (65536016384 + 5242880000 + 24576 : Int) +
    ({ State.reset.lsd.cfg with num := 127, den := 24 } : WebCfg).distance 1000000 = 417573587626 := by decide +kernel

/-- 02 and 03, worked examples: line tags. -/
theorem test_line_tags : lineTag 1000000 = 0x4240 ∧ lineTag 1003050 = 0x4E2A := by decide

/-- 04, worked example: composite, shift, gain and offset, blanket weight, output to SCA. -/
theorem test_composite : blend false .knockout (blend false .max (blend false .over 0 60) 200) 90 = 110 ∧
    blend false .max 60 150 = 150 := by decide

theorem test_shift : shifted false 40 (fun q => if q = 16197 then 110 else if q = 16198 then 150 else 0) 16200 = 130 := by decide

theorem test_tone : toned 2300 130 2150 (-40) = 2375 ∧ blanketAt 0 256 32 16200 = (202, some (72, true)) ∧
    (2375 * 202 + 128) / 256 = 1874 ∧ blanketAt 256 0 32 72 = (54, some (72, false)) := by decide

/-- 04, worked example: the pick on a code plane. -/
theorem test_pick : pickThreshold 72 1003050 = 50 ∧ pickCode 7 202 (some (72, true)) 1003050 = 7 ∧
    pickCode 7 54 (some (72, false)) 1003050 = 0 := by decide

/-- The plane of 05's worked example. -/
def screen15 : Screen :=
  { mode := .diffusion, maxDose := 15, paperHold := true, tInvert := false, noiseAmp := 0, matrix := 0, xPhase := 0,
    yPhase := 0, seed := 0, weights := [16, 6, 3, 9, 14, 10, 6], levels := (List.range 16).map (fun d => 273 * d) }

/-- 05, worked example: dose 7 and the contributions −17, −7 to the line and −4, −10, −10, −11, −7 to the next, here at
position 10 of an engine sweeping down. -/
theorem test_diffusion :
    (let w := diffuse screen15 0 (-1) #[0, 0, 0, 0, 0, 0, 0, 0, 0, 0, -61, 0, 0]
      { e1 := 32, e2 := 0, next := Array.replicate 13 0, codes := [] } 10 1874
     (w.codes, w.e1, w.e2, w.next.toList.drop 8)) = ([7], -17, -7, [-7, -11, -10, -10, -4]) := by decide +kernel

/-- 05, worked example: at position 8,191 the taps into the other segment of this line are lost. -/
theorem test_diffusion_edge :
    (let w := diffuse screen15 0 1 #[] { e1 := 0, e2 := 0, next := #[], codes := [] } 8191 313
     (w.codes, w.e1, w.e2)) = ([1], 0, 0) := by decide +kernel

/-- 06, worked example: the NET_SET entry. -/
theorem test_net_entry : NetEntry.parse [0x49, 0x7F, 0x6A, 0x00, 0x00, 0x1C, 0x1C, 0x10] =
    some { nozzle := 163657, partner := some 10, keep := 0, left := 28, right := 28, pgain := 16 } := by decide +kernel

/-- 06, worked example: the codes handed to HST around the dead nozzle of row 9, and in row 10. -/
theorem test_compensation :
    (let lv := (List.range 16).map (fun d => 273 * d)
     let e : NetEntry := { nozzle := 163657, partner := some 10, keep := 0, left := 28, right := 28, pgain := 16 }
     let f := compensated lv 15 (fun p => if p = 16201 then some e else none) (fun _ => 0)
       (fun p => if p = 16200 then 7 else if p = 16201 then 6 else if p = 16202 then 5 else 0)
     [f 16200, f 16201, f 16202, compensated lv 15 (fun _ => none) (fun p => if p = 16201 then 16 else 0)
       (fun p => if p = 16201 then 4 else 0) 16201]) = [10, 0, 8, 5] := by decide +kernel

/-- 06, worked example: history after the doses, and the byte of two codes. -/
theorem test_history : histNext 0x39 10 = 0x0A ∧ histNext 0xF6 0 = 0xF6 ∧ histNext 0x08 8 = 0x08 ∧ packCodes [11, 0] = [0x0B] := by
  decide

/-- 09, worked example: the coupling word and the signature are seeded with I. -/
theorem test_seeds : signature 9 1003050 15 [] = 0x4E2A009F#32 ∧ couplingWord 19 1003050 [] = 0x4E2A0113#32 := by decide +kernel

/-- 13, worked frame: FRAME_START of lane 19. -/
theorem test_frame_start : (ctl [0xE1, 0x13, 0x2A, 0x4E, 0x5A]).2 =
    blockOf ([0xE1, 0x13, 0x2A, 0x4E, 0x5A, 0, 0] ++ [crc8 [0xE1, 0x13, 0x2A, 0x4E, 0x5A, 0, 0]]) := by decide +kernel

/-- 20, worked example: where a steep-ring slot lands. -/
theorem test_dram_place :
    ({ State.reset.miu with
        kc := Vector.ofFn (fun i : Fin 5 => BitVec.ofNat _ (2 ^ (i.val + 5) + 2 ^ (i.val + 15)))
        kb := Vector.ofFn (fun i : Fin 5 => BitVec.ofNat _ (2 ^ i.val + 2 ^ (i.val + 8))) } : Miu).place 0xAF17E000 =
      { channel := 15, rank := 1, bank := 1, row := 1600, slot := 5 } := by decide +kernel

/-- 22, worked example: which record is newer across the wrap. -/
theorem test_newer : newerA 0xFFFFFFFF#32 0xFFFFFFFE#32 = true ∧ newerA 0xFFFFFFFF#32 0x00000000#32 = false := by decide

/-- 23, worked example: the trim and the shift a reading makes. -/
theorem test_registration : dwTrim { State.reset.lsd.cfg with num := 127, den := 24, lpi := 1200 } 3100 = -50790 ∧
    cwShift (-5300) = 4 := by decide +kernel

/-- 08 and 23, worked examples: the bodies ROW_TRIM and ROW_TONE. -/
theorem test_register_bodies : Member.parse 0x31 [0x09, 0x01, 0, 0, 0x9A, 0x39, 0xFF, 0xFF] = some (.rowTrim 9 true (-50790)) ∧
    Member.parse 0x11 [0x09, 0x02, 0x2C, 0, 0, 0, 0, 0] = some (.rowTone 9 2 44) := by decide +kernel

/-- 03, worked example: the instances of the label and of its serial number that cover a position and a line. -/
theorem test_label_repeats : topRepeat (-500) 2100 8 2000 0 = some (0, 500) ∧ topRepeat (-500) 2100 8 2000 1550 = none ∧
    topRepeat (-500) 2100 8 2000 8192 = some (4, 292) ∧ topRepeat 100 1300 3 1200 2450 = some (1, 1050) ∧
    topRepeat 1100 1300 3 128 2450 = some (1, 50) := by decide +kernel

/-- 03, worked example: the panel instance of plane line 1,003,050. -/
theorem test_label_instance :
    (instanceAt [{ slot := 0, length := 600, rpt := 1, lists := [] }, { slot := 1, length := 4000, rpt := 0, lists := [] }] 0 0 1003050).map
      (fun i => (i.inst, i.start, i.panel.slot)) = some (251, 1000600, 1) := by decide +kernel

/-- 18, worked example: the totals of the book run. -/
theorem test_book_totals :
    seqTotals [{ slot := 0, length := 3000, rpt := 1, lists := [] }, { slot := 1, length := 12000, rpt := 50, lists := [] }] =
      some (51, 603000) := by decide

/-- 17, worked example: the header of the reply to a TXN_COMMIT. -/
theorem test_reply_header : (replyMsg 0x0303 0x1234 .ok 0 (zeroBytes 144)).take 8 = [0x03, 0x03, 0x34, 0x12, 0x90, 0, 0, 0] := by
  decide +kernel

/-- 19, worked example: the completion record of BD5. -/
theorem test_completion_record :
    (let c : Chan := { (State.reset.chan 5) with moved := 8256000 }
     let r := { c with latched := { c.latched with user := 0x51 } }.record 5
       { status := .ok, faultAddr := 0, aborted := false, time := 0 } true
     (r.length, r.take 8, r.drop 28)) = (32, [0x51, 0, 5, 0, 0, 0xFA, 0x7D, 0], [0, 0, 0, 0x80]) := by decide +kernel

/-! ### Witnesses of the statements -/

/-- Meets the hypotheses of `Obligations.StepRunsTheFrontCommand`. -/
theorem witness_StepRunsTheFrontCommand : ({ up with pending := [.alertResponseRead] } : State).pending = .alertResponseRead :: [] ∧
    up.pending = [] := ⟨rfl, rfl⟩

/-- Meets the hypotheses of `Obligations.StepKeepsMemoryCanonical`. -/
theorem witness_StepKeepsMemoryCanonical : Memory.wf (after (.bar2Write 0 [1, 0, 2]) { up with hif := { up.hif with
    windows := up.hif.windows.set 0 { base := 0x3400000000, size := 1, read := true, write := true, valid := true } } }).mem = true ∧
    (after (.bar2Write 0 [1, 0, 2]) { up with hif := { up.hif with
      windows := up.hif.windows.set 0 { base := 0x3400000000, size := 1, read := true, write := true, valid := true } } }).mem.length = 2 := by
  decide +kernel

/-- Meets the hypotheses of `Obligations.CommandsLeaveTheQueueAlone`. -/
theorem witness_CommandsLeaveTheQueueAlone : exec .alertResponseRead up = .next (after .alertResponseRead up) := rfl

/-- Meets the hypotheses of `Obligations.TimeNeverRunsBackward`. -/
theorem witness_TimeNeverRunsBackward : (∀ maddr head, Instr.alertResponseRead ≠ .powerOn maddr head) ∧
    (∀ c x, Instr.alertResponseRead ≠ .railFault 0 c x) ∧ exec .alertResponseRead up = .next (after .alertResponseRead up) :=
  ⟨by intros; simp, by intros; simp, rfl⟩

/-- Meets the hypotheses of `Obligations.MemoryReadsBackWhatIsWritten`. -/
theorem witness_MemoryReadsBackWhatIsWritten : Memory.wf up.mem = true := rfl

/-- Meets the hypotheses of `Obligations.SystemCommandsComplete`. -/
theorem witness_SystemCommandsComplete :
    Claims.Fresh 0x0000 (req (List.replicate 240 1)) up ∧ (240 < (req (List.replicate 241 1)).payload.length ∧ Req.retry (req (List.replicate 241 1)) = false) ∧ Claims.FreshOf 0x0001 0 (req []) up ∧
    (Claims.Fresh 0x0002 (req [3, 15, 0, 0, 0, 0, 0, 0]) up ∧ (15#8).toNat ≤ 15) ∧
    (Claims.Fresh 0x0002 (req [0xFF, 0xFF, 0, 0, 0, 0, 0, 0]) up) ∧
    (Claims.Fresh 0x0003 (req [0x5A, 0xA5, 1, 0, 0, 0, 0, 0]) { up with job := { up.job with state := .armed } }) ∧
    (Claims.Fresh 0x0003 (req [0x5A, 0xA5, 0, 0, 0, 0, 0, 0]) up ∧ up.armed = false) := by
  unfold Claims.FreshOf Claims.Fresh
  decide +kernel

/-- Meets the hypotheses of `Obligations.RequestsAreCheckedInOrder`. -/
theorem witness_RequestsAreCheckedInOrder : opPermitted cmdRecoveryBegin.opcode 0 = false ∧ cmdRecoveryBegin ∈ commandIndex ∧
    opPermitted cmdRecoveryBegin.opcode 4 = true ∧ opPermitted cmdModuleInfo.opcode 0 = true ∧ cmdModuleInfo.okLen 1 = false ∧ cmdModuleInfo.okLen 0 = true ∧
    240 < (req (List.replicate 241 0)).payload.length := ⟨by decide, by simp [commandIndex, indexLink], by decide, by decide, by decide, by decide, lt_of_lt_of_eq (by decide : 240 < 241) List.length_replicate.symm⟩

/-- Meets the hypotheses of `Obligations.RepliesAreWritten`. -/
theorem witness_RepliesAreWritten : (up.box 3).held = [] ∧ ((up.box 3).rplTail - (up.box 3).rplHead).toNat < 64 ∧
    Memory.wf up.mbx.ringMem = true ∧
    (let s := up.updBox 0 (fun b => { b with rplTail := 64 })
     64 ≤ ((s.box 0).rplTail - (s.box 0).rplHead).toNat) := by decide +kernel
theorem witness_RepliesAreWritten2 :
    ((upAnswered.box 0).memory.find? (fun x => x.tag = 7)).isSome = true ∧ cmdNop ∈ commandIndex ∧
    Req.retry { req [] with flags := 2 } = true ∧ Req.retry (req []) = false ∧
    ((up.box 0).memory.find? (fun x => x.tag = 7)) = none := ⟨by decide, by simp [commandIndex, indexSystem], by decide, by decide, by decide⟩

/-- Meets the hypotheses of `Obligations.TransportEventsComplete`. -/
theorem witness_TransportEventsComplete :
    (upWaiting.boot.kettleDown = false ∧ upWaiting.mbx.turn = 0 ∧ (upWaiting.box 0).ready = true ∧ (upWaiting.box 0).held = [] ∧ ((upWaiting.box 0).rplTail - (upWaiting.box 0).rplHead).toNat < 64 ∧ (upWaiting.box 0).outstanding = [] ∧
      upWaiting.cal.retrain = [] ∧ (upWaiting.box 0).reqTail ≠ (upWaiting.box 0).reqHead) ∧
    (let s := up.updBox 0 (fun b => { b with held := [[1]] })
     (s.box 0).held = [1] :: [] ∧ (s.box 0).room 0 = true) ∧
    (let r : Result := { mb := 0, tag := 7, status := .ok, detail := 0, record := [] }
     let s := (up.start { req [] with flags := 0 } 1)
     let s1 : State := { s with mbx := { s.mbx with results := [r] } }
     s1.mbx.results = r :: [] ∧ ((s1.box 0).outstanding.find? (fun y => y.tag = 7)).map (·.muted) = some false) ∧
    (let e : Ev := { code := 1, cls := 0, origin := none, status := 0, time := 0, detail := 0, data := [1] }
     let s := (up.postEv e).updQue 32 (fun q => { q with enable := true, base := 0x1000 })
     s.mbx.outbox = e :: [] ∧ s.mbx.route[e.cls] = 0 ∧ (s.que (eqIndex 0)).enable = true ∧ (s.que (eqIndex 0)).held = [] ∧ (s.que (eqIndex 0)).lostSince = 0 ∧ 1 ≤ (s.que (eqIndex 0)).space ∧ 15 < (0xFF#8).toNat) := by
  decide +kernel
theorem witness_TransportEventsComplete2 :
    (let p := le 4 0 ++ le 2 0 ++ [0, 0, 15, 0, 0, 0, 0, 0, 0, 0]
     Claims.Fresh 0x0703 (req p) (upLink id) ∧ p.length = 16 ∧ fld p 4 2 = 0 ∧ fld p 8 1 = (15 : Fin 16).val ∧ (upLink id).chain.address = some 3) ∧
    (let f : Forward := { origin := { mb := 0, tag := 7 }, dst := 2, sentAt := 1 }
     let s := upLink (fun c => { c with forward := [f] })
     (hdr 3).epoch = s.chain.epoch ∧ (hdr 3).dst = s.ownAddress ∧ s.chain.forward.find? (fun x => x.dst = (hdr 3).src) = some f) := by
  unfold Claims.Fresh
  decide +kernel

/-- Meets the hypotheses of `Obligations.MailboxAndGlobalRegistersComplete`. -/
theorem witness_MailboxRegistersComplete : up.hostUp = true ∧
    (let b := up.box 0
     ((b.reqTail - b.reqHead).toNat ≤ (64#7 - b.reqHead).toNat ∧ (64#7 - b.reqHead).toNat ≤ 64) ∧
     ¬ ((b.reqTail - b.reqHead).toNat ≤ (65#7 - b.reqHead).toNat ∧ (65#7 - b.reqHead).toNat ≤ 64) ∧
     ((b.rplTail - 0#7).toNat ≤ (b.rplTail - b.rplHead).toNat) ∧ ¬ ((b.rplTail - 1#7).toNat ≤ (b.rplTail - b.rplHead).toNat)) := by decide +kernel
theorem witness_GlobalRegistersComplete : up.hostUp = true := by decide +kernel

/-- Meets the hypotheses of `Obligations.BarAccessesComplete`. -/
theorem witness_BarAccessesComplete : upWindow.hostUp = true ∧ Memory.wf upWindow.mem = true ∧ upWindow.miu.corrupt = [] ∧
    upWindow.inWindow true (upWindow.hif.bar2Base.toNat + (0xFFE#32).toNat) 2 = true ∧
    upWindow.inWindow false (upWindow.hif.bar2Base.toNat + (0#32).toNat) 4096 = true ∧
    upWindow.readFails (upWindow.hif.bar2Base.toNat + (0#32).toNat) 4096 = false ∧
    ({ upWindow with miu := { upWindow.miu with poison := [0x3400000FF8] } } : State).readFails (upWindow.hif.bar2Base.toNat + (0#32).toNat) 4096 = true ∧
    upWindow.inWindow true (upWindow.hif.bar2Base.toNat + (0xFFF#32).toNat) 2 = false ∧
    upWindow.inWindow false (upWindow.hif.bar2Base.toNat + (1#32).toNat) 4096 = false := by decide +kernel
theorem witness_BarAccessesComplete2 : up.hostUp = true ∧ (up.que 47).enable = false ∧ (up.que 0).enable = false ∧
    ¬ (4 = 4 ∧ (2#24).toNat % 4 = 0) ∧ ¬ (8 = 8 ∧ (4#24).toNat % 8 = 0) ∧
    (exec (.bar0LowHalfRead 0x10 4) up = .next (after (.bar0LowHalfRead 0x10 4) up)) ∧
    (exec (.bar0RegisterWrite (BitVec.ofNat 24 (0x200000 + 64 * 47)) 4 0) up = .next (after (.bar0RegisterWrite (BitVec.ofNat 24 (0x200000 + 64 * 47)) 4 0) up)) :=
  ⟨by decide, by decide, by decide, by decide, by decide, rfl, rfl⟩

/-- Meets the hypotheses of `Obligations.ChannelRegistersComplete`. -/
theorem witness_ChannelRegistersComplete :
    (upChan.hostUp = true ∧ upChan.hif.bdAssign.getLsbD 1 = true ∧ (upChan.chan 1).state = .idle ∧ (0x3F0201#32).getLsbD 0 = true ∧
      (0x3F0201#32).getLsbD 9 = true ∧ 0x3F0201#32 &&& 0xFFC0F8FC#32 = 0 ∧ (0x3F0201#32).toNat / 65536 % 64 = 63 ∧ (upChan.chan 1).count ≠ 0 ∧
      (0x3F0201#32).getLsbD 8 = false ∧ upChan.inWindow true (upChan.chan 1).dst.toNat (upChan.chan 1).count.toNat = true ∧
      (upChan.chan 1).reqSel = 0 ∧ (upChan.chan 1).src.toNat + (upChan.chan 1).count.toNat ≤ 2 ^ 64 ∧
      (upChan.chan 1).dst.toNat + (upChan.chan 1).count.toNat ≤ 2 ^ 64 ∧ upChan.dma.reads = []) ∧
    (let s := upChan.updChan 1 (fun x => { x with count := 4097 })
     s.inWindow true (s.chan 1).dst.toNat (s.chan 1).count.toNat = false) ∧
    ((upWindow.chan 1).count = 0) := by decide +kernel
theorem witness_ChannelRegistersComplete2 : upActive.hostUp = true ∧ upActive.hif.bdAssign.getLsbD 1 = true ∧ (upActive.chan 1).state = .active ∧
    (2#32).getLsbD 0 = false ∧ (2#32).getLsbD 1 = true ∧ ({ up with hif := { up.hif with bdAssign := 0 } } : State).hostUp = true := by decide +kernel

/-- Meets the hypotheses of `Obligations.DmaEventsComplete`. -/
theorem witness_DmaEventsComplete :
    (let s := (upActive.drq 32).updChan 1 (fun x => { x with burstLeft := 0, latched := { x.latched with reqSel := 0xA0 } })
     32 ∈ s.dma.pulses ∧ (s.chan 1).state = .active ∧ (s.chan 1).latched.drqEn = true ∧ (s.chan 1).latched.line = 32 ∧ (s.chan 1).burstLeft = 0) ∧
    (Memory.wf upActive.mem = true ∧ upActive.dma.reads.find? (fun r => r.1 = 1) = some (1, 64) ∧
      (upActive.chan 1).latched.srcDev = false ∧ (upActive.chan 1).latched.dstDev = true ∧ (upActive.chan 1).retrying = false ∧
      ((upActive.updChan 1 (fun x => { x with retrying := true })).chan 1).retrying = true) ∧
    ((upMoved.chan 1).state = .active ∧ (upMoved.chan 1).ended = none ∧ (upMoved.chan 1).latched.count.toNat ≤ (upMoved.chan 1).moved.toNat ∧
      (upMoved.chan 1).transient = false ∧ (upMoved.chan 1).latched.cq = 0 ∧ (upMoved.que 0).enable = true ∧ 1 ≤ (upMoved.que 0).space) ∧
    (let e : XferEnd := { status := .ok, faultAddr := 0, aborted := false, time := 0 }
     let s := upMoved.updChan 1 (fun x => { x with state := .waitCq, ended := some e })
     (s.chan (hostChan 1)).state = .waitCq ∧ (s.chan (hostChan 1)).ended = some e) := by decide +kernel

/-- Meets the hypotheses of `Obligations.QueueRegistersComplete`. -/
theorem witness_QueueRegistersComplete :
    (let s := up.updQue 47 (fun q => { q with base := 0x1000 })
     s.hostUp = true ∧ (1#32).getLsbD 0 = true ∧ (s.que 47).enable = false ∧ 4 ≤ (s.que 47).log2Size.toNat ∧ (s.que 47).log2Size.toNat ≤ 16 ∧ (s.que 47).base ≠ 0) ∧
    ((up.que 0).enable = false ∧ (up.que 0).base = 0) ∧ (up.que 0).irqEn = false ∧ (upCq.hostUp = true ∧ (upCq.que 0).enable = true) := by decide +kernel

/-- Meets the hypotheses of `Obligations.QueueEventsComplete`. -/
theorem witness_QueueEventsComplete :
    (let s := up.updQue 32 (fun q => { q with base := 0x1000, enable := true, lostSince := 3, irqEn := true, coalUs := 1, unsignalled := 1 })
     (s.que (eqIndex 0)).enable = true ∧ 1 ≤ (s.que (eqIndex 0)).space ∧ (s.que (eqIndex 0)).lostSince ≠ 0 ∧ (s.que (eqIndex 0)).held = [] ∧
     (s.que 32).irqEn = true ∧ (s.que 32).coalUs ≠ 0 ∧ 0 < (s.que 32).unsignalled ∧ (s.que 32).since + (s.que 32).coalUs.toNat * 1000 * 2 ^ 32 ≤ max s.aon (us 1)) ∧
    (up.hamper.stagings.all (fun g => !g.srcHost) = true ∧ up.hamper.listStagings.all (fun g => !g.srcHost) = true) ∧
    (let s : State := { up with hif := { up.hif with inReset := true } }
     s.hif.inReset = true ∧ s.pwr.powered.getLsbD 2 = true ∧ 4 ≤ s.boot.stage.toNat) := by decide +kernel

/-- Meets the hypotheses of `Obligations.SupplyFaultsAndTemperaturesAct`. -/
theorem witness_SupplyFaultsPowerDown :
    (up.poweredOn 1 = true ∧ up.pwr.repowered[(1 : Fin 12)] = none ∧ 32999 < 33000 ∧ 78000 < 78001 ∧ ({ up with job := { up.job with state := .running } } : State).armed = true) ∧
    (up.poweredOn 11 = true ∧ up.pwr.repowered[(11 : Fin 12)] = none ∧ up.armed = false ∧ up.poweredOn 2 = true ∧ dependsOn 9 11 = false ∧
      dependsOn 10 11 = false) ∧
    (let s : State := { up with pwr := { up.pwr with powered := 0x0FB, repowerAt := up.pwr.repowerAt.set 2 (some 5) } }
     s.pwr.repowerAt[(2 : Fin 12)] = some 5 ∧ 5 ≤ max s.aon 5 ∧ s.poweredOn 2 = false ∧ s.poweredOn (parentOf 2) = true ∧
     s.pwr.off.getLsbD 2 = false ∧ s.chk.shadowOff = false ∧ s.boot.fwReady = true) ∧
    (let s : State := { up with pwr := { up.pwr with powered := 0x6FF }, clk := { up.clk with inReset := 0x100 } }
     s.poweredOn 8 = false ∧ s.poweredOn (parentOf 8) = true ∧ s.clk.inReset.getLsbD 8 = true) := by decide +kernel
theorem witness_TemperatureSamplesAreJudged :
    ((400 : Int) < 16 * up.pwr.dieWarn ∧ (400 : Int) < 16 * up.pwr.dramWarn ∧ (400 : Int) < 16 * up.pwr.plateWarn ∧ up.pwr.dieWarn ≤ up.pwr.dieThrottle ∧
      up.pwr.dramWarn ≤ up.pwr.dramThrottle ∧ up.pwr.dieWarn ≤ 110 ∧ up.pwr.dramWarn ≤ 95 ∧
      up.pwr.dieThrottle ≤ 110 ∧ up.pwr.dramThrottle ≤ 95 ∧ up.pwr.plateWarn ≤ 64) ∧
    (16 * (up.pwr.dieWarn : Int) ≤ 1520 ∧ (1520 : Int) < 16 * up.pwr.dieThrottle ∧ 0 < up.pwr.dramWarn ∧ 0 < up.pwr.plateWarn) ∧
    (up.pwr.excluded = Vector.replicate 20 false ∧ up.pwr.suspect = Vector.replicate 20 false ∧ up.pwr.levels = Vector.replicate 4 0) := by decide +kernel

/-- Meets the hypotheses of `Obligations.ClockSourcesComplete`. -/
theorem witness_ClockSourcesComplete : Claims.FreshOf 0x0840 0 (req []) up ∧
    (upStarting.clk.sources[(3 : Fin 5)] = .starting ∧ upStarting.clk.restarted[(3 : Fin 5)] = false ∧
      (upStarting.clk.domains[(1 : Fin 13)]).target = none ∧ (upStarting.clk.domains[(1 : Fin 13)]).clock ≠ 1 ∧ (upStarting.clk.domains[(1 : Fin 13)]).gated = false ∧
      upStarting.clk.sources[(2 : Fin 5)] = .starting ∧ upStarting.clk.restarted[(2 : Fin 5)] = false) ∧
    (let s : State := { upLocked with clk := { upLocked.clk with plls := Vector.replicate 8 .locking } }
     s.clk.sources[(2 : Fin 5)] = .running ∧ s.clk.plls[(6 : Fin 8)] = .locking ∧ s.clk.pllRetried[(6 : Fin 8)] = false ∧
     (s.clk.domains[pllDomain 6]).target = none ∧ (s.clk.domains[pllDomain 6]).clock ≠ 9 ∧ (s.clk.domains[pllDomain 6]).gated = false) ∧
    (let s : State := { upLocked with clk := { upLocked.clk with domains := upd upLocked.clk.domains 6 (fun c => { c with clock := 4 }) } }
     s.clk.plls[(1 : Fin 8)] = .locked ∧ (s.clk.domains[pllDomain 1]).clock = 3 + (1 : Fin 8).val ∧ (s.clk.domains[pllDomain 1]).target = none ∧ (s.clk.domains[pllDomain 1]).gated = false) := by
  unfold Claims.FreshOf Claims.Fresh
  decide +kernel

/-- Meets the hypotheses of `Obligations.ClockSwitchesComplete`. -/
theorem witness_ClockSwitchesComplete :
    ((upSwitching.clk.domains[(6 : Fin 13)]).target = some 2 ∧ (upSwitching.clk.domains[(6 : Fin 13)]).waiting = []) ∧
    (let s : State := { upLocked with clk := { upLocked.clk with domains := upd upLocked.clk.domains 9 (fun c => { c with clock := 0, target := some 8 }), onXb := true } }
     (s.clk.domains[(9 : Fin 13)]).target = some 8 ∧ (s.clk.domains[(9 : Fin 13)]).waiting = [] ∧ (s.clk.domains[(9 : Fin 13)]).clock ≠ 2 ∧ s.lsd.hold = false ∧
     s.clk.sources[(0 : Fin 5)] = .running ∧ s.poweredOn 1 = true ∧ s.clk.sources[(2 : Fin 5)] = .running ∧ s.clk.onXb = true) ∧
    (State.reset.clk.inReset.getLsbD (clockPower 5).val = true ∧ up.clk.inReset.getLsbD (clockPower 5).val = false) := by decide +kernel

/-- Meets the hypotheses of `Obligations.ResetsComplete`. -/
theorem witness_ResetsComplete :
    (let s : State := { up with clk := { up.clk with pinLow := some 0 } }
     s.clk.pinLow = some 0 ∧ 0 + 1000 * 2 ^ 32 ≤ max s.aon (us 1) ∧ s.clk.wanted = none ∧ s.clk.holdFrom = none) ∧
    (let s : State := { up with clk := { up.clk with wanted := some 5 }, job := { up.job with state := .started } }
     s.clk.wanted = some 5 ∧ s.armed = true) ∧
    (let s : State := { up with clk := { up.clk with holdFrom := some 0 } }
     s.clk.holdFrom = some 0 ∧ 0 + 10000 * 2 ^ 32 ≤ max s.aon (us 10) ∧ s.clk.pinLow = none ∧ s.poweredOn 1 = true) ∧
    (let s : State := { up with boot := { up.boot with kettleAt := some 0 } }
     up.boot.kettleAt = none ∧ s.boot.kettleAt = some 0 ∧ max s.aon (sec 1 - 1) < 0 + 1000000000 * 2 ^ 32 ∧ 0 + 1000000000 * 2 ^ 32 ≤ max s.aon (sec 1)) ∧
    (hdr 0xFF).epoch = up.chain.epoch := by decide +kernel

/-- Meets the hypotheses of `Obligations.UpdateCommandsComplete`. -/
theorem witness_UpdateCommandsComplete :
    Claims.FreshOf 0x0010 0 (req []) up ∧
    (Claims.Fresh 0x0011 (req ([0, 0, 0, 0] ++ le 4 67108864 ++ List.replicate 8 0)) up ∧ up.updBusy = false) ∧
    (Claims.Fresh 0x0011 (req ([1, 0, 0, 0] ++ le 4 64 ++ List.replicate 8 0)) up) ∧
    (let s := upUpdate openUpd
     Claims.Fresh 0x0012 (req (le 4 3840 ++ le 4 256 ++ le 8 0x3400000000 ++ List.replicate 8 0)) s ∧ 3840 + 256 ≤ openUpd.length ∧
      (piecePages 3840 256).any openUpd.pages.contains = false) ∧
    (let u : Update := { openUpd with pages := List.range 16 }
     Claims.Fresh 0x0013 (req [3, 0, 0, 0, 0, 0, 0, 0]) (upUpdate u) ∧ u.gap = none ∧ (upUpdate u).armed = false) ∧
    (let s := upUpdate { openUpd with busy := some (.erase, { mb := 0, tag := 0 }) }
     s.updBusy = true ∧ Claims.Fresh 0x0011 (req [0, 0, 0, 0, 0, 0x10, 0, 0, 0, 0, 0, 0, 0, 0, 0, 0]) s ∧
     Claims.FreshOf 0x0012 24 (req (List.replicate 24 0)) s ∧ Claims.Fresh 0x0013 (req (List.replicate 8 0)) s) := by
  unfold Claims.FreshOf Claims.Fresh
  decide +kernel

/-- Meets the hypotheses of `Obligations.FlashOperationsComplete`. -/
theorem witness_FlashOperationsComplete :
    (let s := upUpdate { openUpd with busy := some (.erase, { mb := 0, tag := 7 }) }
     s.boot.update = some { openUpd with busy := some (.erase, { mb := 0, tag := 7 }) } ∧ openUpd.item = .firmware) ∧
    (let s := upUpdate { openUpd with busy := some (.program 0 256 0x3400000000, { mb := 0, tag := 7 }) }
     s.boot.update.isSome = true ∧ Memory.wf s.boot.flash.cells = true) ∧
    (let s := upUpdate { openUpd with busy := some (.commit true false, { mb := 0, tag := 7 }) }
     s.boot.update.isSome = true ∧ s.boot.flash.floor.val ≤ goodImage.secVer.val ∧ 3 ≤ goodImage.major.toNat) ∧
    (let s : State := { up with boot := { up.boot with activateAt := some 5 } }
     s.boot.activateAt = some 5 ∧ 5 ≤ max s.aon 5) := by decide +kernel

/-- Meets the hypotheses of `Obligations.BootStagesComplete`. -/
theorem witness_BootStagesComplete :
    (let b (n : Byte) : State := { up with boot := { up.boot with fwReady := false, stage := n } }
     ((b 1).booting = true ∧ (b 1).clk.sources[(2 : Fin 5)] ≠ .failed) ∧ ((b 4).booting = true ∧ (b 4).poweredOn 3 = true) ∧ (b 5).booting = true ∧
     (b 6).booting = true ∧ ((b 7).booting = true ∧ (b 7).boot.flash.named = 0 ∧ Machine.ImageCheck.valid goodImage (b 7).boot.flash.floor = true) ∧ (b 9).booting = true ∧
     ((b 10).booting = true ∧ ∀ d : Fin 12, 4 ≤ d.val → (b 10).poweredOn d = true)) := by decide +kernel

/-- Meets the hypotheses of `Obligations.ManagementRegistersComplete`. -/
theorem witness_ManagementRegistersComplete :
    (up.mgt.tunnels[(1 : Fin 2)]).reqFree = true ∧ (up.mgt.tunnels[(1 : Fin 2)]).buffer.length = 256 ∧ (255#8).toNat + 1 ≤ 256 ∧
    (let s := up.updTunnel 0 (fun t => { t with reqFree := false }); (s.mgt.tunnels[(0 : Fin 2)]).reqFree = false) ∧
    (let s := up.updBox 5 (fun b => { b with replies := [[1], [2]] }); (s.box ⟨4 + (1 : Fin 2).val, by omega⟩).replies = [1] :: [[2]]) ∧
    ({ up with mgt := { up.mgt with alert := true } } : State).mgt.alert = true ∧ up.mgt.alert = false := by decide +kernel

/-- Meets the hypotheses of `Obligations.ManagementCommandsComplete`. -/
theorem witness_ManagementCommandsComplete :
    (Claims.Fresh 0x0F01 (mreq (List.replicate 8 0)) up ∧ Claims.Fresh 0x0F01 (mreq [1, 0, 0x5A, 0xA5, 0, 0, 0, 0]) up ∧ up.armed = false) ∧
    (Claims.Fresh 0x0F02 (mreq (le 4 4096 ++ [0, 0, 0, 0])) up ∧ up.updBusy = false) ∧
    (let o : Update := { openUpd with item := .recovery, written := 3872 }
     Claims.Fresh 0x0F03 (mreq (le 4 3872 ++ le 2 224 ++ [0, 0] ++ List.replicate 224 7)) (upUpdate o) ∧ o.written + 224 ≤ o.length ∧
     Memory.wf (upUpdate o).boot.flash.cells = true) ∧
    (let o : Update := { openUpd with item := .recovery, written := 4096 }
     Claims.Fresh 0x0F04 (mreq [1, 0, 0, 0, 0, 0, 0, 0]) (upUpdate o) ∧ o.written = o.length ∧ (upUpdate o).armed = false) ∧
    (let s : State := { up with boot := { up.boot with standbyAt := some 0 } }
     s.boot.standbyAt = some 0 ∧ 0 ≤ max s.aon 0 ∧ s.job.state = .idle) ∧
    (State.reset.poweredOn 1 = false ∧ State.reset.pwr.criticalHold = false ∧ up.poweredOn 1 = true) := by
  unfold Claims.Fresh
  decide +kernel
theorem witness_ManagementCommandsComplete2 : Claims.FreshOf 0x0020 0 (req []) up ∧ Claims.Fresh 0x0021 (req [100, 105, 90, 92, 64, 0, 0, 0]) up ∧
    (Claims.FreshOf 0x0021 8 (req [100, 99, 60, 65, 30, 0, 0, 0]) up ∧ fld [100#8, 99] 1 1 < fld [100#8, 99] 0 1) := by
  unfold Claims.FreshOf Claims.Fresh
  decide +kernel

/-- Meets the hypotheses of `Obligations.JobDefinitionCompletes`. -/
theorem witness_JobDefinitionCompletes :
    (Claims.Fresh 0x0201 (req [15, 1, 0, 0, 0, 0, 0, 0]) up ∧ up.job.state.defines = true ∧ up.planeNamed 15 = false) ∧
    Claims.Fresh 0x0202 (req [15, 15, 4, 3, 0, 0, 0, 0]) up ∧
    (Claims.Fresh 0x0203 (req (le 2 5 ++ [1] ++ List.replicate 13 0)) up ∧ up.job.seq.contains 5 = false ∧
      Claims.Fresh 0x0203 (req (le 2 5 ++ List.replicate 6 0 ++ le 8 0x3400000000)) up ∧
      (match ({ up with mem := [(0x3400000000, 1)] } : State).checkPanel 5 (Memory.read [(0x3400000000, 1)] 0x3400000000 1040) with
        | .good p => p.length == 1 && p.lists.isEmpty | _ => false) = true) ∧
    (Claims.Fresh 0x0204 (req (le 2 1 ++ [2, 0, 0, 0, 0, 0] ++ le 8 0x3400000000)) upSeq ∧ upSeq.bound = false ∧
      (List.range 1).map (fun i => fld (upSeq.memRead (0x3400000000 + 2 * i) 2) 0 2) = [5] ∧
      upSeq.layout.panels.any (fun p => p.slot.val = 5) = true ∧ (seqPanels upSeq.layout [5]).dropLast = [] ∧
      seqTotals (seqPanels upSeq.layout [5]) = some (2, 200) ∧ 200 < 2 ^ 48) ∧
    (Claims.FreshOf 0x020A 0 (req []) (upJob .defined) ∧ (upJob .defined).job.state = .defined) ∧
    (Claims.FreshOf 0x0200 0 (req []) up) ∧ ((upJob .running).job.state.defines = false) := by
  unfold Claims.FreshOf Claims.Fresh
  decide +kernel

/-- Meets the hypotheses of `Obligations.ArmingCompletes`. -/
theorem witness_ArmingCompletes :
    (let s := upJob .defined
     Claims.FreshOf 0x0205 0 (req []) s ∧ s.job.state = .defined ∧ s.lsd.configured = true ∧ s.chain.address.isSome = true ∧ s.assigned 0 = true ∧
     (∀ p, s.interleaveBad p = false) ∧ (∀ p, s.screenBad p = false) ∧ s.geometryPeer = none ∧ s.armBlockedByFault = false) ∧
    (let s : State := { upJob .arming with job := { (upJob .arming).job with armStep := 7 }, rows := upd up.rows 0 (fun x => { x with ready := true }) }
     s.job.state = .arming ∧ s.job.armStep = 7 ∧ (∀ r, s.assigned r = true → (s.rows[r]).ready = true) ∧
     ({ s with hlk := (upConn0 .active).hlk } : State).armConns = [0] ∧
     ∀ l ∈ connLanes 0, ((upConn0 .active).lane (asLane l)).state = .active) ∧
    (let s : State := { up with job := { up.job with state := .arming, armStep := 2 } }
     s.job.state = .arming ∧ s.job.armStep = 2 ∧ s.armConns = []) ∧
    (let s0 := upJob .arming
     let acked (n : Nat) : BufLine := { bufHalf { HalfSend.fresh with acked := true } with
       data := { (bufHalf HalfSend.fresh).data with line := n }, hi := { HalfSend.fresh with acked := true } }
     let rows := upd up.rows 0 (fun x => { x with agreed := 256, buffer := (List.range 32).map acked })
     let s : State := { s0 with job := { s0.job with armStep := 7 }, rows := rows }
     s.assigned 0 = true ∧ s.rowIsReady 0 = true) ∧
    (up.lsd.configured = false) := by
  unfold Claims.FreshOf Claims.Fresh
  decide +kernel

/-- Meets the hypotheses of `Obligations.JobRunsAndEndsComplete`. -/
theorem witness_JobRunsCompletes :
    (let s : State := { upJob .armed with job := { (upJob .armed).job with peMode := 1 } }
     Claims.FreshOf 0x0206 0 (req []) s ∧ s.job.state = .armed ∧ s.job.peMode ≠ 0 ∧ s.job.printEnable = false) ∧
    (let s : State := { upJob .armed with lsd := { (upJob .armed).lsd with cfg := { (upJob .armed).lsd.cfg with originMode := 2 } } }
     s.job.state = .armed ∧ s.job.peMode = 0 ∧ s.lsd.cfg.originMode ≠ 0) ∧
    (let s := upJob .running
     Claims.Fresh 0x0207 (req (List.replicate 8 0 ++ le 8 7)) s ∧ s.job.state = .running ∧ s.job.peMode ≠ 2 ∧ s.job.pauseAt = none ∧
     (∀ r, s.live r = true → s.lsd.rows[r].next + 7 ≤ s.effLine r 7) ∧ s.live 0 = true ∧ Claims.Fresh 0x0209 (req (List.replicate 16 0)) s) ∧
    (let s : State := { upJob .running with job := { (upJob .running).job with pauseAt := some 7 } }
     Claims.Fresh 0x0208 (req (List.replicate 8 0 ++ le 8 8)) s ∧ s.job.pauseAt = some 7 ∧ s.job.resumeAt = none ∧
     (∀ r, s.live r = true → s.lsd.rows[r].next + 7 ≤ s.effLine r 8)) ∧
    (Claims.Fresh 0x0209 (req (List.replicate 16 0)) (upJob .armed) ∧ (upJob .armed).job.state = .armed) ∧
    (Claims.Fresh 0x0F00 (mreq [0x5A, 0xA5, 0, 0, 0, 0, 0, 0]) (upJob .started) ∧ (upJob .started).job.state = .started) ∧
    (0 + 10000 * 2 ^ 32 ≤ max up.aon (us 10) ∧ up.job.printEnable ≠ true ∧ up.job.peMode = 0) := by
  unfold Claims.FreshOf Claims.Fresh
  decide +kernel
theorem witness_JobEndsComplete :
    (let s : State := { upJob .running with job := { (upJob .running).job with rows := upd up.job.rows 0 (fun j => { j with stopLine := some 0 }) } }
     s.live 0 = true ∧ s.job.rows[(0 : Fin 16)].stopLine = some 0) ∧
    (let s : State := { upJob .running with lsd := { (upJob .running).lsd with rows := upd up.lsd.rows 0 (fun x => { x with next := 200 }) } }
     s.live 0 = true ∧ s.rowLines 0 = some (199 + 1) ∧ s.fateReported 0 199 = true) ∧
    (let s : State := { upJob .running with job := { (upJob .running).job with rows := upd up.job.rows 0 (fun j => { j with done := true }) } }
     s.job.state = .running ∧ ∀ r, s.assigned r = true → (s.job.rows[r]).done = true) ∧
    (let w : StopWanted := { reason := 3, fclass := 1, seq := 0, rows := 0, first := 0 }
     let s : State := { upJob .armed with fsv := { up.fsv with stopWanted := some w } }
     s.fsv.stopWanted = some w ∧ s.job.state = .armed ∧ up.armed = false) := by decide +kernel

/-- Meets the hypotheses of `Obligations.WebCommandsAndLineStartsComplete`. -/
theorem witness_WebCommandsAndLineStartsComplete :
    (let p := le 4 1 ++ le 4 4 ++ le 2 1200 ++ [0, 2, 95, 3, 4, 0] ++ le 2 10 ++ le 2 0 ++ le 4 0 ++ le 8 0 ++ le 4 0 ++ le 4 10000
     Claims.FreshOf 0x0210 40 (req p) up ∧ webBad p = false ∧ up.armed = false ∧
     Claims.FreshOf 0x0210 40 (req p) (upJob .armed) ∧ (upJob .armed).armed = true) ∧
    Claims.Fresh 0x0211 (req ([15, 0, 0, 0] ++ le 8 (2 ^ 48 - 1) ++ le 4 500000 ++ le 4 1985 ++ [0, 0, 0, 0])) up ∧
    Claims.FreshOf 0x0212 0 (req []) up := by
  unfold Claims.FreshOf Claims.Fresh
  decide +kernel
theorem witness_LineStartsAdvanceTheRow :
    (let s0 := upJob .running
     let e : Edge := { count := 1000, dir := 1, stamp := 100, vNum := 0, vDen := 1 }
     let s : State := { s0 with lsd := { s0.lsd with count := 1000, edges := [e], stopped := false } }
     (s.at (us 1)).webSettle.rowRuns 0 = true ∧ (s.at (us 1)).webSettle.reaches 0 = true) ∧ (up.at 0).webSettle.rowRuns 15 = false ∧
    0 < 250000 ∧ 0 < 1000000 ∧ 0 < 1200 := by decide +kernel

/-- Meets the hypotheses of `Obligations.EncoderAndWebTimersAct`. -/
theorem witness_EncoderEdgesCount :
    (up.domainUp 8 = true ∧ up.lsd.a = !true ∧ up.lsd.b = false ∧ up.job.state ≠ .started ∧ up.lsd.lineBad = false) ∧
    State.reset.domainUp 8 = false ∧
    (let e : Edge := { count := 1, dir := 1, stamp := 100, vNum := 0, vDen := 1 }
     let s : State := { up with lsd := { up.lsd with incoming := [e] } }
     s.lsd.incoming = [e] ∧ s.tick < s.lsd.cfg.effective e ∧ s.lsd.cfg.effective e ≤ (s.at (ns 1200)).tick) ∧
    (let s : State := { up with lsd := { up.lsd with lineBad := true, hold := true } }
     s.lsd.lineBad = true ∧ s.lsd.checks = []) := by decide +kernel
theorem witness_WebTimersAct :
    up.lsd.cfg.accelLimit = 0 ∧
    (let e : Edge := { count := 2, dir := 1, stamp := 5000, vNum := 2, vDen := 100 }
     let f : Edge := { count := 1, dir := 1, stamp := 4000, vNum := 1, vDen := 100 }
     let s : State := { up with lsd := { up.lsd with edges := [e, f], cfg := { up.lsd.cfg with accelLimit := 1 } } }
     s.domainUp 8 = true ∧ s.lsd.incoming = [] ∧ 0 < s.lsd.cfg.accelLimit ∧ e.stopAt = none ∧ f.stopAt = none ∧
     max (max s.aon (us 100) / 2 ^ 32 - 1000000) s.lsd.accelFrom ≤ s.lsd.cfg.effective f ∧ f.stamp ≤ e.stamp ∧
     velJump s.lsd.cfg.accelLimit (e.vNum, max 1 e.vDen) (f.vNum, max 1 f.vDen) = true) ∧
    (let s : State := { upWeb with layout := up.layout }
     s.lsd.edges.length = 1 ∧ s.lsd.incoming = [] ∧ s.lsd.stopped = false ∧ s.lsd.speedHigh = false ∧
     9000 + 1000 * s.lsd.cfg.stopTimeoutUs ≤ max s.aon (ms 11) / 2 ^ 32 ∧ ∀ r, s.assigned r = false) ∧
    (let s : State := { up with lsd := { up.lsd with configured := true, speedHigh := true } }
     s.lsd.configured = true ∧ s.domainUp 8 = true ∧ s.lsd.speedHigh = true ∧ s.lsd.incoming = [] ∧ ∀ r, s.assigned r = false) ∧
    (up.started = false ∧ 0 + us up.lsd.cfg.markFilterUs ≤ max up.aon (ms 2)) := by decide +kernel
theorem witness_WebTimersAct2 :
    ((upJob .running).started = true ∧ (upJob .running).lsd.origin = some 0 ∧ (upJob .running).lsd.markQualified = false ∧ (upJob .running).domainUp 8 = true ∧
      0 + us (upJob .running).lsd.cfg.markFilterUs ≤ max (upJob .running).aon (ms 2)) ∧
    (let rows := upd up.lsd.rows 3 (fun x => { x with overspeed := some (5, 9, 3, 21000) })
     let s : State := { up with lsd := { up.lsd with rows := rows } }
     (s.lsd.rows[(3 : Fin 16)]).overspeed.isSome = true ∧ (s.lsd.rows[(3 : Fin 16)]).overspeedAt + 1000000 * 2 ^ 32 ≤ max s.aon (ms 1)) ∧
    (let s0 := upJob .started
     let s : State := { s0 with layout := up.layout, lsd := { s0.lsd with origin := none, latchEnabled := true, cfg := { s0.lsd.cfg with originMode := 2 } } }
     s.domainUp 8 = true ∧ s.job.state = .started ∧ s.lsd.latchEnabled = true ∧ s.lsd.cfg.originMode = 2 ∧ s.lsd.cfg.countsPerIndex = 0 ∧
     ∀ r, s.assigned r = false) := by decide +kernel

/-- Meets the hypotheses of `Obligations.ScreeningCommandsComplete`. -/
theorem witness_ScreeningCommandsComplete :
    (let p := [15, 2, 1, 1, 0, 0, 7, 0, 127, 127, 0, 0] ++ le 4 1 ++ [64, 0, 0, 0, 0, 0, 0, 0] ++ le 2 0 ++ le 2 4095 ++ List.replicate 28 0
     Claims.FreshOf 0x0220 56 (req p) up ∧ screenBad p = false ∧ fld p 0 1 = (15 : Fin 16).val ∧ up.armed = false ∧
     Claims.FreshOf 0x0220 56 (req p) (upJob .running) ∧ (upJob .running).armed = true ∧
     Claims.Fresh 0x0222 (req (List.replicate 16 0)) (upJob .running) ∧ Claims.Fresh 0x0223 (req (List.replicate 8 0)) (upJob .running)) ∧
    (Claims.Fresh 0x0221 (req ([7, 0, 0, 0, 0, 0, 0, 0] ++ le 8 0x37FFFFFFFE)) up ∧ up.matrixUsed 7 = false ∧
      words16 (up.memRead 0x37FFFFFFFE 2) = [0]) ∧
    (Claims.Fresh 0x0222 (req ([7, 0, 0, 0, 0, 0, 0, 0] ++ le 8 0x3400000000)) up ∧ (up.memRead 0x3400000000 320).take 256 = List.replicate 256 0) ∧
    Claims.Fresh 0x0223 (req [15, 7, 15, 0, 0, 0, 0, 0]) up := by
  unfold Claims.FreshOf Claims.Fresh
  decide +kernel

/-- Meets the hypotheses of `Obligations.OnlyFireStrobeFires`. -/
theorem witness_OnlyFireStrobeFires : (∀ r t, Instr.inhibitTest 0 5 ≠ .fireStrobe r t) ∧
    exec (.inhibitTest 0 5) upPulse = .next (after (.inhibitTest 0 5) upPulse) := ⟨by intros; simp, rfl⟩

/-- Meets the hypotheses of `Obligations.StrobesComplete`. -/
theorem witness_StrobesComplete :
    (Claims.Fresh 0x0500 (req ([15, 1] ++ le 2 40 ++ [0, 0, 0, 0])) up ∧ Claims.Fresh 0x0500 (req ([0xFF, 0] ++ le 2 2000 ++ [0, 0, 0, 0])) up ∧
      up.armed = false ∧ up.job.fireInhibit = true ∧ (up.rows[(0 : Fin 16)]).nextPulse = none) ∧
    ((upPulse.rows[(0 : Fin 16)]).nextPulse.map (·.ts) = some 40000 ∧ 40000 ≤ max upPulse.aon (ns 19950) / 2 ^ 31 + 100 ∧ upPulse.job.fireInhibit = true ∧
      40000 ≤ max upPulse.aon (ns 20000) / 2 ^ 31 ∧ (upPulse.rows[(0 : Fin 16)]).strobeOff = false ∧ upPulse.fsv.power = false) ∧
    (((upFired.rows[(0 : Fin 16)]).pulses.find? (fun x => x.emitted && x.meets 400 39996 404)).map (·.ts) = some 40000 ∧
      (upFired.rows[(0 : Fin 16)]).strobePending = none ∧ (upFired.rows[(0 : Fin 16)]).widthH = 400 ∧
      (upFired.rows[(0 : Fin 16)]).pulses.any (fun x => x.emitted && x.meets 400 50000 400) = false ∧
      ((upFired.rows[(0 : Fin 16)]).pulses.find? (fun x => x.emitted && decide (x.ts + 400 + 20 ≤ max upFired.aon (us 21) / 2 ^ 31))).map (·.ts) = some 40000) ∧
    (let s : State := { upFired with rows := upd upFired.rows 0 (fun x => { x with strobePending := some (2, 1) }) }
     ((s.rows[(0 : Fin 16)]).pulses.find? (fun x => x.emitted && decide (x.ts + 400 + 20 ≤ max s.aon (us 21) / 2 ^ 31))).isSome = true ∧
     (s.rows[(0 : Fin 16)]).strobePending.isSome = true) := by
  unfold Claims.Fresh
  decide +kernel

/-- Meets the hypotheses of `Obligations.RunAheadCommandsComplete`. -/
theorem witness_RunAheadCommandsComplete :
    (Claims.Fresh 0x0224 (req ([15, 0] ++ le 2 4096 ++ [0, 0, 0, 0])) up ∧ Claims.Fresh 0x0224 (req ([0xFF, 0] ++ le 2 256 ++ [0, 0, 0, 0])) up ∧
      up.armed = false ∧ Claims.FreshOf 0x0225 0 (req []) up ∧ Claims.Fresh 0x0226 (req [1, 0, 0, 0, 0, 0, 0, 0]) up ∧ Claims.FreshOf 0x0821 0 (req []) up) ∧
    (let s := upJob .armed
     Claims.Fresh 0x0820 (req ([7, 0, 1, 0x80] ++ le 2 16383 ++ [0, 0] ++ le 8 64)) s ∧ s.armed = true ∧ s.assigned 0 = true ∧
     (s.rows[(0 : Fin 16)]).frontier ≤ 64 ∧ (s.lsd.rows[(0 : Fin 16)]).next + 31 < 64 ∧ s.chk.shadowOff = false ∧ s.chk.injections.length < 4 ∧
     (s.rows[(0 : Fin 16)]).frontier = 0) ∧
    Claims.Fresh 0x0820 (req ([0, 0, 0, 1] ++ List.replicate 12 0)) up ∧
    (let s0 := upJob .armed
     let i : Injection := { target := 0, row := 0, left := 1, mask := 1, position := 0, line := 64 }
     let s : State := { s0 with chk := { s0.chk with injections := List.replicate 4 i } }
     s.armed = true ∧ s.assigned 0 = true ∧ (s.rows[(0 : Fin 16)]).frontier = 0 ∧ 4 ≤ s.chk.injections.length) := by
  unfold Claims.FreshOf Claims.Fresh
  decide +kernel

/-- Meets the hypotheses of `Obligations.EnginesHandOverLines`. -/
theorem witness_EnginesHandOverLines :
    (let s := upJob .armed
     (s.at 0).works .primary (rowOf 1) = true ∧ (s.at 0).fed .primary (rowOf 1) = true ∧ ((s.rows[rowOf 1]).run .primary).halfDone 1 = false ∧
     (s.at 0).works .shadow 0 = true ∧ (s.at 0).fed .shadow 0 = true ∧
     ((((s.rows[rowOf 1]).run .primary).doneHalf 1).doneLo && (((s.rows[rowOf 1]).run .primary).doneHalf 1).doneHi) = false) ∧
    ((upSets.chk.units[lineUnit 0]).isSome = true ∧ upSets.setsReady 0 = some (lineSet 5, some (lineSet 5)) ∧
      (upSets.rows[rowOf 0]).compares (upSets.cvu 0).next = true ∧ (upSets.rows[rowOf 0]).reported 0 5 = false ∧ (upSets.rows[rowOf 0]).waiting = none ∧
      upSets.chk.injections = [] ∧ (CvuUpset.mk 0 0 0).unit = 0 ∧
      differs 0 5 (lineSet 5) (some (lineSet 5)) = none ∧ (upSets.cvu 0).matched = [] ∧ (upSets.cvu 1).matched.head? = some (lineSet 5) ∧
      (upSets.rows[rowOf 0]).agreed = 5 ∧ (upSets.rows[rowOf 0]).mismatch = [] ∧ (upSets.rows[rowOf 0]).squash = none ∧
      ∀ k : Fin 32, rowOf k = rowOf 2 → k ≠ 2 → (upSets.cvu k).matched = []) ∧
    differs 0 5 (lineSet 5) (some { lineSet 5 with couple := 8 }) = some (.coupling, 0) ∧
    (let s : State := { upSets with chk := { upSets.chk with cvus := upd upSets.chk.cvus 0 (fun u => { u with shads := [] }) } }
     (s.at (us 14)).setMissing 0 = some (lineSet 5)) ∧
    (let s := upJob .armed
     (s.at (us 14)).stalled .primary 0 16385 = true ∧ (s.rows[rowOf 0]).compares 0 = true ∧ (s.rows[rowOf 0]).mismatch = [] ∧
     (s.rows[rowOf 0]).squash = none) := by decide +kernel

/-- Meets the hypotheses of `Obligations.SquashesRestartRows`. -/
theorem ckptFault_none (s : State) (r : Fin 16) (c : Ckpt) (hp : c.poisoned = false) (hf : s.readFails (ckptSlot r c.line) 0x10000 = false)
    (hc : c.recordCrc = recordCrc c.walk c.carry c.noise c.hist)
    (hn : c.noise = noiseState ((s.layout.planes[(s.layout.rows[r].plane).getD 0].settings ((s.layout.rows[r].plane).getD 0).val).seed) c.line r) :
    s.ckptFault r c = none := by
  have hcrc : (c.recordCrc != recordCrc c.walk c.carry c.noise c.hist) = false := by rw [hc]; exact bne_self_eq_false _
  unfold State.ckptFault
  simp only [hp, hf, hcrc, Bool.or_false, Bool.false_eq_true, if_false]
  rw [if_neg (by rw [not_not]; exact hn)]
theorem candidates_one (x : SpcRow) (c : Ckpt) (q : Nat) (h : x.ckpts = [c]) (hl : c.line ≤ q) (hv : c.valid = true) (hb : c.bad = false) :
    x.candidates q = [c] := by simp [SpcRow.candidates, h, hl, hv, hb, ckptInsert]
theorem pickCkpt_good (s : State) (r : Fin 16) (l : List Ckpt) (c : Ckpt) (hl : l = [c]) (h : s.ckptFault r c = none) :
    s.pickCkpt r l = ([], some c) := by
  subst hl
  simp [State.pickCkpt, h]
theorem witness_SquashesRestartRows : upCkpt.rows[(0 : Fin 16)].comparable = some ckpt64 ∧ ckpt64.shadow = some ckpt64.parts ∧
    ∀ p : PartCrcs, ({ p with walker := p.walker + 1 } : PartCrcs) ≠ p := by
  refine ⟨rfl, rfl, fun p h => ?_⟩
  have := congrArg PartCrcs.walker h
  simp at this
theorem witness_SquashesRestartRows2 :
    (upCkpt.armed = true ∧ (upCkpt.chk.units[ckptUnit 0]).isSome = true ∧ (upCkpt.rows[(0 : Fin 16)]).mismatch = [] ∧
      (upCkpt.rows[(0 : Fin 16)]).squash = none ∧ upCkpt.chk.injections = [] ∧ (CvuUpset.mk 0 0 0).unit = 0) ∧
    (let s : State := { upCkpt with rows := upd upCkpt.rows 0 (fun x => { x with squash := some { line := 7, why := .commit } }) }
     (s.rows[(0 : Fin 16)]).frontier ≤ 7 ∧ s.armed = true ∧ (s.rows[(0 : Fin 16)]).replay = none) ∧
    (100 < (upSquash.rows[(0 : Fin 16)]).frontier ∧ (upSquash.rows[(0 : Fin 16)]).squash = some { line := 100, why := .retry } ∧ upSquash.armed = true) ∧
    (let s : State := { upSquash with rows := upd upSquash.rows 0 (fun x => { x with ckpts := [] }) }
     s.pickCkpt 0 ((s.rows[(0 : Fin 16)]).candidates 100) = ([], none) ∧ (s.rows[(0 : Fin 16)]).faultAt = none ∧ (s.rows[(0 : Fin 16)]).replay = none) ∧
    (let s : State := { up with rows := upd up.rows 3 (fun x => { x with replay := some { q := 9, c := 0, late := some (2, 4, 3) } }) }
     s.lateDue 3 = true) ∧
    (let s : State := { up with rows := upd up.rows 3 (fun x => { x with dry := some (2, 4, 3) }) }
     (s.rows[(3 : Fin 16)]).dry.isSome = true ∧ (s.rows[(3 : Fin 16)]).dryAt = none) := by decide +kernel
theorem witness_SquashesRestartRows3 : upSquash.pickCkpt 0 ((upSquash.rows[(0 : Fin 16)]).candidates 100) = ([], some goodCkpt) :=
  pickCkpt_good upSquash 0 _ goodCkpt (candidates_one (upSquash.rows[(0 : Fin 16)]) goodCkpt 100 rfl (by decide) rfl rfl)
    (ckptFault_none upSquash 0 goodCkpt rfl (by decide +kernel) rfl (by decide +kernel))

/-- Meets the hypotheses of `Obligations.CorrectionGroupsComplete`. -/
theorem witness_CorrectionGroupsComplete :
    (Claims.Fresh 0x0300 (req (le 4 9 ++ [1, 0, 0, 0])) up ∧ up.txn.groups = [] ∧ up.activeGroups < 8) ∧
    (let s := upGroup .isOpen false
     Claims.Fresh 0x0301 (req (le 4 9 ++ [0x13, 0, 0, 0] ++ le 4 8 ++ [0, 0, 0, 0] ++ List.replicate 8 0)) s ∧ s.group? 9 = some (group9 .isOpen false) ∧
     s.stagedBytes + 224 ≤ 8 * 2 ^ 20 ∧ Member.parse 0x13 (List.replicate 8 0) = some (.blanket 0 0 0) ∧ Member.parse 0x13 [0, 2] = none ∧
     Claims.Fresh 0x0301 (req (le 4 9 ++ [0x13, 0, 0, 0] ++ le 4 2 ++ [0, 0, 0, 0] ++ [0, 2])) s ∧ (∀ x ∈ s.txn.groups, x.id ≠ 9 → x.holds = false) ∧
     Claims.Fresh 0x0301 (req (le 4 9 ++ [0x13, 1, 0, 0] ++ le 4 8 ++ [0, 0, 0, 0] ++ le 8 0x37FFFFFFF8)) s ∧
     Member.parse 0x13 (s.memRead 0x37FFFFFFF8 8) = some (.blanket 0 0 0) ∧
     Claims.Fresh 0x0302 (req (le 4 9 ++ [0, 0, 0, 0])) s ∧ s.txn.older = none ∧ (s.build (group9 .isOpen false)).toOption.isSome = true ∧
     (s.build { group9 .isOpen false with calBase := [(3, 7)] }).toOption.isSome = false) ∧
    (let s := upGroup .sealed false
     Claims.Fresh 0x0303 (req (le 4 9 ++ [0, 0, 0, 0] ++ le 8 100)) s ∧ s.group? 9 = some (group9 .sealed false) ∧ s.txn.built.isSome = true ∧
     s.txn.coordination = none ∧ s.armed = false) ∧
    (let g : Group := { group9 .sealed false with members := [(.blanket 0 0 0, 8)] }
     let s : State := { upJob .armed with txn := { (upGroup .sealed false).txn with groups := [g] } }
     let n := s.txn.built.getD s.txn.newest
     s.armed = true ∧ s.group? 9 = some g ∧ s.txn.built = some n ∧ s.earlyBinding g 100 = none ∧ s.shortRow (s.affected g n) 100 64 = none ∧
     s.shortRow (s.affected g n) 10 64 = some (0, 53) ∧ Claims.Fresh 0x0303 (req (le 4 9 ++ [0, 0, 0, 0] ++ le 8 10)) s) ∧ Claims.FreshOf 0x0305 0 (req []) up := by
  unfold Claims.FreshOf Claims.Fresh
  decide +kernel

/-- Meets the hypotheses of `Obligations.ChainCommitsComplete`. -/
theorem witness_ChainCommitsComplete :
    (Claims.Fresh 0x0304 (req (le 4 9 ++ [0, 0, 0, 0])) (upGroup .sealed false) ∧ (upGroup .sealed false).group? 9 = some (group9 .sealed false) ∧
      Claims.Fresh 0x0304 (req (le 4 9 ++ [0, 0, 0, 0])) (upGroup .prepared true) ∧ (upGroup .prepared true).group? 9 = some (group9 .prepared true)) ∧
    (let s := upGroup .sealed true
     let m : PrepareMsg := { group := 9, coordinator := 2, line := 500, yes := 0, no := none }
     (hdr 0xFF).epoch = s.chain.epoch ∧ s.chain.address ≠ some m.coordinator ∧ s.group? m.group = some (group9 .sealed true) ∧ s.txn.built.isSome = true ∧
     s.txn.coordination = none ∧ s.armed = false ∧ (∀ x ∈ s.txn.groups, x.id ≠ 9 → x.state ≠ .prepared) ∧ up.group? m.group = none) ∧
    ({ hdr 0xFF with epoch := 1 } : ChainHdr).epoch ≠ up.chain.epoch ∧
    (let s0 := upGroup .sealed true
     let c : Coordination := { group := 9, line := 500, sentAt := 0, origin := { mb := 0, tag := 7 } }
     let s : State := { s0 with txn := { s0.txn with coordination := some c } }
     s.txn.coordination = some c ∧ c.sentAt + 50000 * 2 ^ 32 ≤ max s.aon (us 50) ∧ s.group? c.group = some (group9 .sealed true)) ∧
    (let s := upGroup .prepared true
     s.group? 9 = some (group9 .prepared true) ∧ s.preparedGroup = some (group9 .prepared true) ∧ s.txn.built.isSome = true ∧ s.armed = false ∧ (group9 .prepared true).queried = false ∧ s.txn.voted? 9 = none ∧
     s.chain.address ≠ some (hdr 0).src ∧ 1 + 256000 * 2 ^ 32 ≤ max s.aon (us 257) ∧ s.chain.inReset.getLsbD 2 = false ∧ (hdr 0).dst = s.ownAddress ∧ (hdr 0).src = 2) ∧
    (let v : Voted := { group := 9, line := 500, coordinator := 2, no := none, skip := 1 }
     let s : State := { up with txn := { up.txn with voted := [v] } }
     s.txn.voted? 9 = some v ∧ 0 < v.skip ∧ s.preparedGroup = none ∧ s.chain.address ≠ some (hdr 0).src ∧ up.txn.voted? 9 = none) := by
  unfold Claims.Fresh
  decide +kernel

/-- Meets the hypotheses of `Obligations.CalibrationCommandsComplete`. -/
theorem witness_CalibrationCommandsComplete :
    (Claims.FreshOf 0x0400 0 (req []) up ∧ Claims.Fresh 0x0401 (req [0, 0, 0, 0, 0, 0, 0, 0]) up ∧ Claims.Fresh 0x0401 (req [3, 0, 0, 0, 0, 0, 0, 0]) up ∧
      CalLimits.legal { dwMax := 1, cwMax := 677000, dMin := 513, dMax := 65535, medMin := 1, medMax := 2 } = true ∧
      Claims.Fresh 0x0404 (req (le 4 1 ++ le 4 677000 ++ le 2 513 ++ le 2 65535 ++ le 2 1 ++ le 2 2)) (upJob .running)) ∧
    (Claims.Fresh 0x0402 (req ([1, 15] ++ le 2 1 ++ le 2 4095 ++ [0, 0] ++ le 3 1 ++ [0, 0, 0, 0, 0])) upChart ∧ upChart.chartBlock chart0 = none ∧
      upChart.cal.chart = none ∧ chart0.tileBase + (maskRows chart0.rows).length - 1 ≤ 0xFFFFFF) ∧
    (Claims.Fresh 0x0403 (req (le 4 9 ++ [0, 1, 0, 0] ++ List.replicate 16 0 ++ [0, 1, 0, 0] ++ sle 4 (-40) ++ [0, 0, 0, 0])) upChart ∧
      upChart.group? 9 = some (group9 .isOpen false) ∧ upChart.assigned 0 = true ∧ upChart.lsd.configured = true ∧
      (-40 : Int).natAbs ≤ upChart.cal.limits.dwMax ∧ upChart.trimCheck 0 (upChart.txn.newest.trim[(0 : Fin 16)] + dwTrim upChart.lsd.cfg (-40)) = none ∧
      upChart.stagedBytes + 8 ≤ 8 * 2 ^ 20 ∧ (group9 .isOpen false).members.length < 1024 ∧
      ({ upChart with cal := { upChart.cal with chart := some chart0 } } : State).chartBlock chart0 = none ∧
      Claims.Fresh 0x0403 (req (le 4 9 ++ [0, 1, 0, 0] ++ List.replicate 16 0 ++ [0, 1, 0, 0] ++ sle 4 20000 ++ [0, 0, 0, 0])) upChart ∧ upChart.cal.limits.dwMax < (20000 : Int).natAbs) := by
  unfold Claims.FreshOf Claims.Fresh
  decide +kernel

/-- Meets the hypotheses of `Obligations.TrimsAndChartsComplete`. -/
theorem witness_TrimsAndChartsComplete :
    (upTrim.canTrim 0 = true ∧ upTrim.canTrim 1 = true ∧ upTrim.clk.sources[(0 : Fin 5)] = .running ∧ upTrim.clk.sources[(1 : Fin 5)] = .running ∧
      upTrim.cal.fioReq = [] ∧ upTrim.cal.sioReq = [] ∧ upTrim.cal.fioRetry = false ∧ upTrim.cal.sioRetry = false ∧
      ({ upTrim with cal := { upTrim.cal with fioRetry := true } } : State).canTrim 0 = true ∧
      ({ upTrim with cal := { upTrim.cal with sioRetry := true } } : State).canTrim 1 = true) ∧
    upStarting.clk.sources[(2 : Fin 5)] ≠ .running ∧
    (let s : State := { upChart with cal := { upChart.cal with chart := some chart0 } }
     let w : RawWork := { tile := chartKey chart0 0, codes := true, w := 16384, h := 256, next := blockCount 16384 256, verified := blockCount 16384 256 }
     let u : State := { s with codec := { s.codec with works := [w] } }
     s.cal.chart = some chart0 ∧ s.codec.comp ≠ 0 ∧ s.chartVerified chart0 = false ∧
     u.cal.chart = some chart0 ∧ u.codec.comp ≠ 0 ∧ u.chartVerified chart0 = true ∧ u.chartBlock chart0 = none) ∧ up.cal.chart = none := by decide +kernel

/-- Meets the hypotheses of `Obligations.StoreCommandsComplete`. -/
theorem witness_StoreCommandsComplete :
    (Claims.FreshOf 0x0100 0 (req []) up ∧ Claims.FreshOf 0x0111 0 (req []) up ∧ Claims.Fresh 0x0103 (req (le 3 0xFFFFFF ++ [0, 0, 0, 0, 0])) up) ∧
    (let q := req (le 3 1 ++ [1, 0, 0] ++ le 2 0 ++ le 4 0 ++ [0, 0, 0, 0] ++ le 8 0x3400000000 ++ le 8 1)
     let g := stagingOf q
     Claims.FreshOf 0x0101 32 q up ∧ stagingBad q g = false ∧ g.raw = true ∧ 0x3400000000 ≤ g.src ∧ g.src + g.length ≤ 0x3800000000 ∧
     up.staging? g.tile = none ∧ up.tile? g.tile = none ∧ up.hamper.stagings.length < 16 ∧
     up.allocate (storeNeed g.bound (blockCount g.w g.h)) (blockCount g.w g.h) = some [{ start := 0, len := 1 }] ∧ up.codec.comp ≠ 0) ∧
    (Claims.Fresh 0x0102 (req (le 3 1 ++ [0, 0, 0, 0, 0])) upStore ∧ upStore.staging? 1 = none ∧ upStore.tileRefs 1 = 0 ∧ upStore.tile? 1 = some tile1 ∧
      Claims.Fresh 0x0102 (req (le 3 0xFFFFFF ++ [0, 0, 0, 0, 0])) upStore ∧ upStore.staging? 0xFFFFFF = none ∧ upStore.tile? 0xFFFFFF = none ∧
      Claims.Fresh 0x0102 (req (le 3 1 ++ [0, 0, 0, 0, 0])) (upStaging true true 1) ∧ ((upStaging true true 1).staging? 1).isSome = true ∧
      Claims.Fresh 0x0105 (req (le 4 3 ++ [0, 0, 0, 0])) upStore ∧ upStore.hamper.lists = [list1] ∧ upStore.listNamed 3 = false) := by
  unfold Claims.FreshOf Claims.Fresh
  decide +kernel
theorem witness_StoreCommandsComplete2 :
    (Claims.Fresh 0x0104 (req (le 8 0x37FFFFFFE0 ++ le 4 32 ++ [0, 0, 0, 0])) up ∧ up.hamper.nextHandle + up.hamper.listStagings.length < 2 ^ 32 ∧
      up.hamper.lists.length + up.hamper.listStagings.length < 65536) ∧
    (Claims.Fresh 0x0110 (req ([0, 0, 0, 0, 0, 0, 0, 0] ++ le 8 20 ++ le 4 1 ++ [0, 0, 0, 0] ++ le 8 0x3400000000)) (upJob .running) ∧
      (upJob .running).hamper.capture = none ∧ (upJob .running).job.state = .running ∧ (upJob .running).assigned 0 = true ∧ (upJob .running).hasLine 0 20 = true ∧
      ((upJob .running).lsd.rows[(0 : Fin 16)]).next + 15 ≤ 20 ∧
      Claims.Fresh 0x0110 (req ([0, 0, 0, 0, 0, 0, 0, 0] ++ le 8 14 ++ le 4 1 ++ [0, 0, 0, 0] ++ le 8 0x3400000000)) (upJob .running) ∧
      (upJob .running).hasLine 0 14 = true ∧ 14 < ((upJob .running).lsd.rows[(0 : Fin 16)]).next + 15 ∧ up.armed = false) ∧
    (let s : State := { upJob .running with hamper := { up.hamper with capture := some capture0 } }
     s.hamper.capture = some capture0) := by
  unfold Claims.Fresh
  decide +kernel

/-- Meets the hypotheses of `Obligations.StoreEventsComplete`. -/
theorem witness_StoreEventsComplete :
    (let s := upStaging false true 48
     s.staging? 1 = some (staging1 false true 48) ∧ s.tile? 1 = none ∧
     (readStream true false (some (1, 1)) (padTo 48 fillStream)).toOption.isSome = true ∧
     (readStream true false (some (1, 1)) (padTo 48 [])).toOption.isSome = false) ∧
    (let g : Staging := { staging1 false false 48 with src := 0x3400000000 }
     let s : State := { up with hamper := { up.hamper with stagings := [g] }, miu := { up.miu with poison := [0x3400000000] } }
     s.staging? 1 = some g ∧ g.raw = false ∧ g.srcHost = false ∧ s.readFails g.src g.length = true ∧ up.readFails g.src g.length = false) ∧
    (let s := upStaging true true 1
     let w : RawWork := { tile := 1, codes := false, w := 1, h := 1, next := 1, verified := 1 }
     let u : State := { s with codec := { s.codec with works := [w] } }
     s.staging? 1 = some (staging1 true true 1) ∧ s.rawWaits (staging1 true true 1) = true ∧
     u.staging? 1 = some (staging1 true true 1) ∧ u.rawWaits (staging1 true true 1) = false ∧ u.codec.comp ≠ 0 ∧ u.tile? 1 = none ∧ up.staging? 1 = none) ∧
    (let g : ListStaging := { origin := { mb := 0, tag := 7 }, src := 0, length := 32, srcHost := true, ns := false }
     let s : State := { up with hamper := { up.hamper with listStagings := [g] } }
     s.hamper.listStagings = [g] ∧ (s.readList s.hamper.nextHandle (padTo 32 []) 32).toOption.isSome = true ∧
     (s.readList s.hamper.nextHandle (padTo 32 [9]) 32).toOption.isSome = false ∧ s.allocateUnits 32 = some [{ start := 0, len := 1 }]) := by decide +kernel

/-- Meets the hypotheses of `Obligations.CodecCompletes`. -/
theorem witness_CodecCompletes :
    Claims.Fresh 0x0130 (req (le 2 256 ++ [0, 0, 0, 0, 0, 0])) up ∧ up.hamper.stagings = [] ∧ Claims.FreshOf 0x0131 0 (req []) up ∧
    Claims.Fresh 0x0132 (req (le 8 0x37FFFFFFE0 ++ le 4 32 ++ [1, 0, 0, 0])) up ∧
    (let c : CodecCheck := { origin := { mb := 0, tag := 7 }, src := 0x3400000000, length := 32, codes := false }
     let s : State := { up with codec := { up.codec with checks := [c] } }
     s.codec.checks = [c] ∧ s.pwr.throttled = false ∧ ({ s with pwr := { s.pwr with levels := s.pwr.levels.set 0 3 } } : State).pwr.throttled = true) := by
  unfold Claims.FreshOf Claims.Fresh
  decide +kernel
theorem witness_CodecCompletes2 :
    ((up.at 0).feedDecoders .shadow).codec.decS.jobs[(15 : Fin 16)] = none ∧
    (let b : Band := { row := 0, layer := 0, tile := 1, blk := 0 }
     let s (j : DecodeJob) : State := { upStore with codec := { upStore.codec with decP := { upStore.codec.decP with jobs := upStore.codec.decP.jobs.set 3 (some j) } } }
     let j1 : DecodeJob := { band := b, failed := none, first := none }
     let j2 : DecodeJob := { band := b, failed := some 1, first := none }
     let j3 : DecodeJob := { band := b, failed := none, first := some 2 }
     (∀ j ∈ [j1, j2, j3], (((s j).at 0).feedDecoders .primary).codec.decP.jobs[(3 : Fin 16)] = some j) ∧
     upStore.hamper.tiles.find? (fun y => y.id = 1) = some tile1 ∧ (tile1.blocks[0]?).map (fun x => (x.damaged, x.raw.isSome, upStore.readFails x.addr x.size)) =
       some (false, true, false) ∧
     ({ (s j2).codec with primary := 8 } : Codec).units .primary = 1#16 <<< (3 : Fin 16).val) ∧
    ((up.at 0).feedCompressors.codec.comps[(7 : Fin 8)] = none ∧
     (let s := (upStaging true true 1).startRaw 1 false 1 1
      let c : CompBlock := { tile := 1, blk := 0, again := false }
      let u : State := { s with codec := { s.codec with comps := s.codec.comps.set 0 (some { c with again := true }) } }
      (s.at 0).feedCompressors.codec.comps[(0 : Fin 8)] = some c ∧ (u.at 0).feedCompressors.codec.comps[(0 : Fin 8)] = some { c with again := true })) := by
  decide +kernel

/-- Meets the hypotheses of `Obligations.HeadCommandsComplete`. -/
theorem witness_HeadCommandsComplete :
    (Claims.Fresh 0x0501 (req ([2, 0] ++ le 2 0xFFFF ++ le 4 3600)) up ∧ Claims.Fresh 0x0502 (req [3, 0, 0, 0, 0, 0, 0, 0]) up ∧
      Claims.Fresh 0x0503 (req [63, 0, 0, 0, 0, 0, 0, 0]) up ∧ (up.hac.heads[(63 : Fin 64)]).present = false ∧
      Claims.Fresh 0x0504 (req [15, 0, 0, 0, 0, 0, 0, 0]) up ∧ up.commitHeads (fun c => (15 : Nat).testBit c.val) = [] ∧
      (up.hlk.conns[(3 : Fin 4)]).identified = false) ∧
    ((upHead.hac.heads[(5 : Fin 64)]).present = true ∧ upHead.commitHeads (fun c => (1 : Nat).testBit c.val) = [5] ∧
      (∀ c : Fin 4, (upHead.hlk.conns[c]).hmcLasting = false) ∧ Claims.Fresh 0x0504 (req [1, 0, 0, 0, 0, 0, 0, 0]) upHead ∧
      Claims.Fresh 0x0503 (req [5, 0, 0, 0, 0, 0, 0, 0]) upHead) ∧
    (Claims.Fresh 0x0513 (req [0, 0, 0, 0, 0, 0, 0, 0]) (upLane0 .active) ∧ ((upLane0 .active).hlk.conns[(0 : Fin 4)]).identified = true ∧
      ((upLane0 .active).hlk.conns[(0 : Fin 4)]).hmcLasting = false ∧
      Claims.Fresh 0x0514 (req ([0, 0, 0, 0] ++ le 2 232 ++ [0, 0] ++ List.replicate 232 1)) (upLane0 .active)) := by
  unfold Claims.Fresh
  decide +kernel

/-- Meets the hypotheses of `Obligations.HeadChannelEventsComplete`. -/
theorem witness_HeadChannelEventsComplete :
    ((up.hlk.conns[(0 : Fin 4)]).hmcWait = none ∧ (up.hlk.conns[(0 : Fin 4)]).rx = [] ∧ max up.aon 0 < up.hac.lastCommit + up.hac.intervalS * 1000000000 * 2 ^ 32 ∧
      up.hac.lastCommit + up.hac.intervalS * 1000000000 * 2 ^ 32 ≤ max up.aon (sec 3600) ∧ ∀ c : Fin 4, (up.hlk.conns[c]).hmcLasting = false) ∧
    (∀ ty ∈ [(0x03 : Byte), 0x30],
      let s := upAsked ty [] none 1
      (s.hlk.conns[(0 : Fin 4)]).hmcWait = some (0, 0, 1) ∧ (s.hlk.conns[(0 : Fin 4)]).hmcQueue = [{ mtype := ty, payload := [], origin := none }] ∧
      (s.hlk.conns[(0 : Fin 4)]).rx = [] ∧ 0 + 5000000 * 2 ^ 32 ≤ max s.aon (ms 5) ∧ (s.clk.domains[(12 : Fin 13)]).gated = false) ∧
    (let p : List Byte := [0, 0, 0, 0, 7, 0, 0, 0, 0, 0, 0, 0]
     p.length = 12 ∧ fld p 0 4 % 16 = 0 ∧
     (validAnswer { mtype := 0x03, payload := [], origin := none } 0 (hmcMsg 0x83 0 p)) = some (p, true) ∧
     validAnswer { mtype := 0x03, payload := [], origin := none } 1 (hmcMsg 0x83 0 p) = none) ∧
    (let s := upAsked 0x03 [] none 2
     (s.hlk.conns[(0 : Fin 4)]).hmcWait = some (0, 0, 2)) ∧
    (let s := upLane0 .active
     connOf 0 = 0 ∧ (s.lane (asLane 0)).state = .active ∧ (s.hlk.conns[(0 : Fin 4)]).statusAt + 10000000 * 2 ^ 32 ≤ max s.aon (ms 10) ∧
     (s.hlk.conns[(0 : Fin 4)]).hmcLasting = false ∧ (s.hlk.conns[(0 : Fin 4)]).hmcQueue = []) := by decide +kernel

/-- Meets the hypotheses of `Obligations.LinkCommandsComplete`. -/
theorem witness_LinkCommandsComplete :
    (Claims.Fresh 0x0510 (req [2, 0, 0, 0, 0, 0, 0, 0]) up ∧ Claims.Fresh 0x0510 (req [0, 1, 0, 0, 0, 0, 0, 0]) up ∧ Claims.Fresh 0x0510 (req [1, 1, 0, 0, 0, 0, 0, 0]) up ∧
      Claims.Fresh 0x0510 (req [2, 1, 0, 0, 0, 0, 0, 0]) (upConn0 .ready) ∧ (upConn0 .active).connUp 0 = true ∧
      (∀ l, connOf l = 0 → (up.lane (asLane l)).state = .off ∧ (up.lane (asLane l)).busy = false) ∧ (up.hlk.conns[(0 : Fin 4)]).entering = false ∧
      up.armed = false ∧ up.hlk.wakes = [] ∧ ((upConn0 .ready).hlk.conns[(0 : Fin 4)]).sleepReqs = [] ∧ (upConn0 .ready).armed = false ∧
      connOf 0 = 0 ∧ ((upConn0 .ready).lane (asLane 0)).busy = true ∧ ((upConn0 .ready).lane (asLane 0)).state ≠ .off ∧ (upConn0 .ready).hlk.wakes = [] ∧
      (upJob .armed).armed = true) ∧
    Claims.Fresh 0x0511 (req ([3, 24, 7, 3, 15, 0, 0, 0] ++ le 4 3600000 ++ [0, 0, 0, 0])) up ∧ Claims.FreshOf 0x0512 0 (req []) up := by
  unfold Claims.FreshOf Claims.Fresh
  decide +kernel
theorem witness_LinkCommandsComplete2 :
    (let s0 := upConn0 .active
     let conns := upd s0.hlk.conns 0 (fun n => { n with inForce := { n.inForce with autoSleepMs := 5 } })
     let s : State := { s0 with hlk := { s0.hlk with conns := conns }, job := { s0.job with stoppedAt := 1 } }
     s.armed = false ∧ 0 < (s.hlk.conns[(0 : Fin 4)]).inForce.autoSleepMs ∧ 0 < s.job.stoppedAt ∧
     s.job.stoppedAt + (s.hlk.conns[(0 : Fin 4)]).inForce.autoSleepMs * 1000000 * 2 ^ 32 ≤ max s.aon (ms 6) ∧
     (s.hlk.conns[(0 : Fin 4)]).wokenAt ≤ s.job.stoppedAt ∧ (s.hlk.conns[(0 : Fin 4)]).entering = false ∧ (s.lane (asLane 7)).busy = true ∧ connOf 7 = 0 ∧
     s.hlk.wakes = []) ∧
    (let s0 := upConn0 .active
     let conns := upd s0.hlk.conns 0 (fun n => { n with entering := true })
     let s : State := { s0 with hlk := { s0.hlk with conns := conns } }
     (s.hlk.conns[(0 : Fin 4)]).entering = true ∧ (s.hlk.conns[(0 : Fin 4)]).wakeAfter = false ∧ s.hlk.wakes = [] ∧
     (s.hlk.conns[(0 : Fin 4)]).sleepReqs = []) := by decide +kernel

/-- Meets the hypotheses of `Obligations.LaneTestsComplete`. -/
theorem witness_LaneTestsComplete :
    (let p := le 4 (0xFFFFFFFF : BitVec 32).toNat ++ [BitVec.ofNat 8 4, BitVec.ofNat 8 2, BitVec.ofNat 8 1, 0] ++ le 4 3600000 ++ [0, 0, 0, 0]
     Claims.Fresh 0x0830 (req p) up ∧ up.armed = false ∧ (0xFFFFFFFF : BitVec 32) ≠ 0 ∧ up.hlk.test = none) ∧
    Claims.Fresh 0x0830 (req (List.replicate 16 0)) upTest ∧ upTest.hlk.test.isSome = true ∧ upTest.armed = false ∧
    Claims.Fresh 0x0831 (req [BitVec.ofNat 8 31, 0, 0, 0, 0, 0, 0, 0]) up := by
  unfold Claims.Fresh
  decide +kernel
theorem witness_LaneTestsComplete2 :
    (let s := upTested 1 0 (fun c => { c with selected := true, reg := 1, run := 63 })
     s.hlk.test = some { testRun with mode := 1, inject := 0 } ∧ (s.hlk.tests[(0 : Fin 32)]).selected = true ∧
     ({ testRun with mode := 1, inject := 0 } : TestRun).checked = true ∧
     (s.hlk.tests[(0 : Fin 32)]).inSync = false ∧ (s.hlk.tests[(0 : Fin 32)]).reg.toNat % 2 ^ (prbsTaps 0).1 ≠ 0 ∧
     (s.hlk.tests[(0 : Fin 32)]).run = 63 ∧ (s.hlk.tests[(1 : Fin 32)]).selected = false) ∧
    (let s := upTested 1 0 (fun c => { c with selected := true, inSync := true, winErrors := 256 })
     (s.hlk.tests[(0 : Fin 32)]).inSync = true ∧ 256 < (s.hlk.tests[(0 : Fin 32)]).winErrors + b2n true) ∧
    (let s := upTested 0 0 (fun c => { c with selected := true, inSync := true, reg := 5, gen := 5 })
     (s.hlk.tests[(0 : Fin 32)]).reg = (s.hlk.tests[(0 : Fin 32)]).gen ∧ (s.hlk.tests[(0 : Fin 32)]).inSync = true) ∧
    ({ testRun with pattern := 4 } : TestRun).checked = false := by decide +kernel
theorem witness_LaneTestsComplete3 :
    (let s := upTested 0 2 (fun c => { c with selected := true, inSync := true })
     (s.hlk.tests[(0 : Fin 32)]).selected = true ∧ testRun.inject = 2 ∧ s.hlk.test = some testRun ∧
     (0 + 1) * 10 ^ 6 ≤ (s.at (ms 1)).sentBits testRun ∧ ¬ (0 + 1) * 10 ^ 6 ≤ (s.at 0).sentBits testRun) ∧
    testRun.started + testRun.durationMs * 1000000 * 2 ^ 32 ≤ max upTest.aon (ms 1) ∧
    max upTest.aon 0 < testRun.started + testRun.durationMs * 1000000 * 2 ^ 32 ∧ up.hlk.test = none := by decide +kernel

/-- Meets the hypotheses of `Obligations.LanesComplete`. -/
theorem witness_LanesComplete :
    (up.receives (up.rxLane 33) = false ∧ up.receives (up.rxLane (asLane 31)) = false) ∧
    (let s := upLane0 .lock
     s.receives (s.rxLane 0) = true ∧ (s.lane (s.rxLane 0)).sync.locked = false ∧ hdrControl ≠ 0) ∧
    (let s := upLocked0 .active
     s.receives (s.rxLane 0) = true ∧ (s.lane (s.rxLane 0)).sync.locked = true ∧ (s.lane (s.rxLane 0)).state = .active ∧
     (s.lane (s.rxLane 0)).rxInv = false ∧ s.rxLane 0 = asLane 0 ∧ (s.rows[rowOf 0]).buffer = [] ∧ isTraining trainBlock = true) := by decide +kernel
theorem witness_LanesComplete2 :
    ((upLocked0 .pll).lane (asLane 0)).state = .pll ∧ ((upLocked0 .pll).hlk.conns[connOf 0]).entering = false ∧
    (let s := (upLane0 .signal).updLane 0 (fun n => { n with signalAt := some 0 })
     (s.lane (asLane 0)).signalAt = some 0 ∧ max 0 (s.lane (asLane 0)).since + 100000 * 2 ^ 32 ≤ max s.aon (us 101) ∧ (seen 0 0).signal = true) ∧
    ((List.replicate 64 hdrControl).foldl BlockSync.header ((upLane0 .lock).lane (asLane 0)).sync).locked = true ∧
    (upAligned .align).alignOk (connOf 0) = true ∧ ((upAligned .align).lane (asLane 0)).state = .align ∧
    (let s := (upLane0 .equalise).updLane 0 (fun n => { n with partnerEqDone := true })
     (s.lane (asLane 0)).eqDone = false ∧ (s.lane (asLane 0)).partnerEqDone = true ∧ (s.lane (asLane 0)).since + 8000000 * 2 ^ 32 ≤ max s.aon (ms 8) ∧
     connOf 1 = connOf 0 ∧ (s.lane (asLane 1)).up = false) ∧
    (((upLane0 .ready).updLane 0 (fun n => { n with waking := true })).lane (asLane 0)).waking = true ∧
    (seen 2 19999).blocks < 10000 * (seen 2 19999).badBlocks ∧ ¬ (seen 2 20000).blocks < 10000 * (seen 2 20000).badBlocks := by decide +kernel
theorem witness_LanesComplete3 :
    (((upLane0 .signal).lane (asLane 0)).state = .signal ∧ stageLimit_ .signal = some (ms 100) ∧
      ((upLane0 .signal).lane (asLane 0)).since + ms 100 < max up.aon (ms 101) ∧ ((upLane0 .signal).lane (asLane 0)).restarted = false ∧
      (((upLane0 .signal).updLane 0 (fun n => { n with restarted := true })).lane (asLane 0)).restarted = true ∧ (upLane0 .signal).hlk.wakes = []) ∧
    (let s := upLocked0 .active
     (s.hlk.conns[connOf 0]).entering = false ∧ ((1 : BitVec 4) &&& 5) ≠ 0 ∧
     (s.lane (asLane 0)).sync.loses (List.replicate 16 0 ++ List.replicate 48 hdrControl) = true) ∧
    (let s := { upAligned .retrain with hlk := { (upAligned .retrain).hlk with
       conns := upd (upAligned .retrain).hlk.conns 0 (fun n => { n with toldReady := true, ident := some [] }) } }
     (s.lane (asLane 0)).state = .retrain ∧ max s.aon (us 40) ≤ (s.lane (asLane 0)).since + 40000 * 2 ^ 32 ∧ (s.lane (asLane 0)).stage = 4 ∧
     s.alignOk (connOf 0) = true ∧ (s.lane (asLane 0)).partnerReady = false ∧ (s.hlk.conns[connOf 0]).toldReady = true ∧
     (s.hlk.conns[connOf 0]).ident.isSome = true ∧ s.hlk.wakes = [] ∧ (s.hlk.conns[connOf 0]).entering = false ∧
     (s.lane (asLane 0)).since + 40000 * 2 ^ 32 < max s.aon (us 41)) := by decide +kernel

/-- Meets the hypotheses of `Obligations.FramesComplete`. -/
theorem witness_FramesComplete :
    ((up.at 0).laneFree 0 = false ∧ rowOf 0 = 0 ∧
      (let s := upFrame HalfSend.fresh (fun y => { y with control := [.withhold 40 1] })
       (s.at 0).laneFree 0 = true ∧ (s.hlk.tx[(0 : Fin 32)]).control = [.withhold 40 1] ∧
       ((s.rows[rowOf 0]).buffer.find? (fun b => (b.half 0).check.isSome)).isNone = true) ∧
      (let s := upFrame HalfSend.fresh (fun y => { y with frames := [.frame 40] })
       (s.at 0).laneFree 0 = true ∧ (s.hlk.tx[(0 : Fin 32)]).control = [] ∧ (s.hlk.tx[(0 : Fin 32)]).resends = [] ∧
       ((s.rows[rowOf 0]).buffer.find? (fun b => (b.half 0).check.isSome)).isNone = true ∧ (s.rows[rowOf 0]).isWithheld 40 = false ∧
       (s.hlk.tx[(0 : Fin 32)]).frames = [.frame 40] ∧ (s.rows[rowOf 0]).line? 40 = some (bufHalf HalfSend.fresh) ∧ s.deadlinePast (rowOf 0) 40 = false)) ∧
    (let s := upFrame HalfSend.fresh (fun y => { y with control := [.flush 0] })
     (s.at 0).laneFree 0 = true ∧ (s.hlk.tx[(0 : Fin 32)]).control = [.flush 0]) ∧
    (let s := upFrame HalfSend.fresh (fun y => { y with flushWait := some (9, 0, 1) })
     (s.hlk.tx[(0 : Fin 32)]).flushWait = some (9, 0, 1) ∧ max s.aon 0 < 0 + answerTime ∧ 0 + answerTime ≤ max s.aon answerTime ∧
     s.job.state ≠ .arming) ∧ up.rows[rowOf 0].buffer = [] := by decide +kernel
theorem witness_FramesComplete2 (m : BitVec 16) (p : Bool) :
    ((upFrame (rechecked m p) id).rows[rowOf 0]).buffer.find? (fun b => (b.half 0).check.isSome) = some (bufHalf (rechecked m p)) ∧
    ((bufHalf (rechecked m p)).half 0).check = some m ∧ ((bufHalf (rechecked m p)).half 0).recheckPending = p ∧
    (upFrame (rechecked m p) id).deadlinePast (rowOf 0) 40 = false ∧ ((upFrame (rechecked m p) id).rows[rowOf 0]).isWithheld 40 = false :=
  ⟨rfl, rfl, rfl, rfl, rfl⟩

/-- Meets the hypotheses of `Obligations.FrameAnswersComplete`. -/
theorem witness_FrameAnswersComplete :
    (let s := upFrame HalfSend.fresh id
     (s.lane (asLane 0)).state = .active ∧ (s.hlk.conns[connOf 0]).entering = false ∧ (s.lane (asLane 0)).sync.locked = true ∧
     (s.lane (asLane 0)).rxRev = false ∧ (s.lane (asLane 0)).rxInv = false) ∧
    (((blockBytes 1).getD 0 0 == 0xF1 && chkOk 1) = false ∧ isTraining 1 = false ∧ (1 : BitVec 64) ≠ 0) ∧
    (((blockBytes (ackOf 0)).getD 0 0 == 0xF1 && chkOk (ackOf 0)) = true ∧ bitAt (ackOf 0) 8 3 = (0 : Fin 32).val % 8 ∧
      bitAt (ackOf 0) 8 3 ≠ (1 : Fin 32).val % 8 ∧ bitAt (ackOf 0) 40 8 = 0 ∧
      ((blockBytes (ackOf 3)).getD 0 0 == 0xF1 && chkOk (ackOf 3)) = true ∧ bitAt (ackOf 3) 40 8 = 3 ∧ bitAt (ackOf 3) 8 3 = 0 ∧
      ((blockBytes (ackOf 5)).getD 0 0 == 0xF1 && chkOk (ackOf 5)) = true ∧ bitAt (ackOf 5) 40 8 = 5 ∧ bitAt (ackOf 5) 8 3 = 0 ∧
      (9 : Byte) = BitVec.ofNat 8 (bitAt (ackOf 5) 32 8)) ∧
    (let s := upFrame HalfSend.fresh (fun y => { y with flushWait := some (9, 0, 1) })
     (s.hlk.tx[(0 : Fin 32)]).flushWait = some (9, 0, 1)) ∧ ((upFrame HalfSend.fresh id).hlk.tx[(0 : Fin 32)]).awaiting = [] := by decide +kernel
theorem witness_FrameAnswersComplete2 :
    (let s := upFrame HalfSend.fresh (fun y => { y with awaiting := [awaited40] })
     (s.hlk.tx[(0 : Fin 32)]).flushWait = none ∧
     (s.hlk.tx[(0 : Fin 32)]).awaiting.find? (fun y => y.fseq = BitVec.ofNat 8 (bitAt (ackOf 0) 32 8)) = some awaited40 ∧
     (s.rows[rowOf 0]).line? 40 = some (bufHalf HalfSend.fresh) ∧ ((bufHalf HalfSend.fresh).half 0).frameCause = none ∧
     s.deadlinePast (rowOf 0) 40 = false ∧ max s.aon 0 < awaited40.sentAt + answerTime ∧
     (s.hlk.tx[(0 : Fin 32)]).awaiting.find? (fun y => decide (y.sentAt + answerTime ≤ max s.aon answerTime)) = some awaited40) ∧
    (let s := upFrame { HalfSend.fresh with frameCause := some 0 } (fun y => { y with awaiting := [awaited40] })
     (s.rows[rowOf 0]).line? 40 = some (bufHalf { HalfSend.fresh with frameCause := some 0 }) ∧ (s.rows[rowOf 0]).isWithheld 40 = false ∧
     ((bufHalf { HalfSend.fresh with frameCause := some 0 }).half 0).frameCause.isSome = true) := by decide +kernel

/-- Meets the hypotheses of `Obligations.AxisCommandsComplete`. -/
theorem witness_AxisCommandsComplete :
    (let p := [0, 1, 0, 0] ++ le 4 (2 ^ 31 - 1) ++ le 4 1 ++ le 4 1 ++ le 4 0 ++ le 4 1 ++ sle 8 (-(2 ^ 63)) ++ sle 8 (2 ^ 63 - 1)
     Claims.Fresh 0x0601 (req p) (upAxis id) ∧ (upAxis id).linkOn 0 = true ∧ ((upAxis id).axis 0).state = .disabled) ∧
    (let s := upAxis (fun a => { a with state := .idle })
     (s.axis 0).state = .idle ∧ (s.axis 0).configured = true ∧
     Claims.Fresh 0x0603 (req ([0, 0, 0, 0] ++ sle 4 (-1000) ++ sle 8 (-(2 ^ 47)))) s ∧ (s.axis 0).vMax = 1000 ∧ (s.axis 0).pos = 0 ∧
     (s.axis 0).offLimits (-(2 ^ 47)) = false ∧ (s.axis 0).offLimits 0 = false ∧ (s.axis 0).gear = none ∧
     Claims.Fresh 0x0603 (req ([0, 4, 0, 0] ++ sle 4 0 ++ sle 8 0)) s ∧
     Claims.Fresh 0x0604 (req ([0, 0, 0, 0] ++ sle 4 (-(2 ^ 31)) ++ sle 8 (-(2 ^ 63)) ++ le 4 0 ++ [0, 0, 0, 0])) s ∧
     Claims.Fresh 0x0605 (req ([0, 0, 0, 0] ++ sle 4 1000 ++ sle 8 (2 ^ 47 - 1) ++ le 4 1 ++ le 4 0 ++ [255, 0, 0, 0, 0, 0, 0, 0])) s ∧
     Claims.Fresh 0x0606 (req ([0, 0, 0, 0] ++ le 4 1 ++ le 4 200 ++ le 4 0)) s ∧ (s.axis 0).dStop = 200) ∧
    ((upAxis (fun a => { a with state := .moving })).axis 0).state = .moving := by
  unfold Claims.Fresh
  decide +kernel

/-- Meets the hypotheses of `Obligations.AxesRunComplete`. -/
theorem witness_AxesRunComplete :
    Claims.Fresh 0x0600 (req ([4, 3, 0, 0] ++ le 4 1000000)) up ∧ (∀ i : Fin 8, (up.axis i).state = .disabled) ∧
    Claims.Fresh 0x0602 (req [0, 1, 0, 0, 0, 0, 0, 0]) (upAxis id) ∧ ((upAxis id).axis 0).configured = true ∧
    (let s := upAxis (fun a => { a with state := .idle })
     Claims.Fresh 0x0602 (req [0, 0, 0, 0, 0, 0, 0, 0]) s ∧ (s.axis 0).state = .idle ∧ (s.axis 0).kind = none ∧ (s.axis 0).configured = true) ∧
    Claims.Fresh 0x0607 (req [7, 0, 0, 0, 0, 0, 0, 0]) up := by
  unfold Claims.Fresh
  decide +kernel
theorem witness_AxesRunComplete2 :
    (let w := ((upAxis id).at (us 63)).webSettle
     w.domainUp 11 = true ∧ w.mot.tick < w.tickNow w.mot.period ∧ w.mot.links.getLsbD (0 : Fin 2).val = true ∧ (w.axis 0).state = .disabled) ∧
    (let w := ((upAxis (fun a => { a with state := .idle })).at 0).webSettle
     w.domainUp 11 = true ∧ w.tickNow w.mot.period ≤ w.mot.tick ∧ (w.axis 0).state = .idle) ∧
    ((State.reset.at 0).webSettle).domainUp 11 = false ∧
    up.slotOpen 0 = false ∧ (upAxis id).slotOpen 0 = true ∧
    (((upAxis id).axis 0).kind = none ∧ ((upAxis id).axis 0).linkPending = none ∧ ((upAxis id).axis 0).linkLost = false ∧
      ((upAxis (fun a => { a with linkPending := some .crc })).axis 0).linkPending.isSome = true ∧
      (upAxis (fun a => { a with linkPending := some .crc })).slotOpen 0 = true ∧
      ((upAxis (fun a => { a with linkLost := true })).axis 0).linkLost = true ∧ (upAxis (fun a => { a with linkLost := true })).slotOpen 0 = true) ∧
    (up.mot.axes[(0 : Fin 8)]).kind ≠ some .enable ∧
    (let s := upAxis (fun a => { a with kind := some .enable, enable := true })
     (s.axis 0).kind = some .enable ∧ (s.axis 0).enabledAt + 100000000 * 2 ^ 32 ≤ max s.aon (ms 100) ∧ (s.axis 0).state = .disabled ∧
     (s.axis 0).enable = true ∧ s.slotOpen 0 = true ∧ s.statusFault 0 (driveFrame 1) = none) := by decide +kernel
theorem witness_AxesRunComplete3 :
    (let s := upAxis (fun a => { a with state := .idle })
     s.slotOpen 0 = true ∧ s.statusFault 0 (driveFrame 1) = none ∧ s.statusFault 0 (driveFrame 2) = none ∧ (s.axis 0).linkPending = none) ∧
    bit (fld (driveFrame 1) 3 1) 1 = false ∧ bit (fld (driveFrame 1) 3 1) 0 = true ∧ bit (fld (driveFrame 2) 3 1) 1 = true := by decide +kernel

/-- Meets the hypotheses of `Obligations.ChainComplete`. -/
theorem witness_ChainComplete :
    Claims.FreshOf 0x0700 0 (req []) up ∧ Claims.FreshOf 0x0701 0 (req []) up ∧ up.chain.strap = false ∧
    Claims.FreshOf 0x0701 0 (req []) (upLink (fun c => { c with strap := true })) ∧
    (upLink (fun c => { c with strap := true })).chain.strap = true ∧ (upLink (fun c => { c with strap := true })).chainArmed = false ∧
    Claims.Fresh 0x0702 (req ([1, 0, 0, 0] ++ le 4 3600000)) up ∧ up.armed = false ∧
    Claims.Fresh 0x0704 (req [0, 0, 0, 0, 0, 0, 0, 0]) (upLink id) ∧
    Claims.Fresh 0x0704 (req [1, 0, 0, 0, 0, 0, 0, 0]) (upLink id) ∧ (upLink id).chainArmed = false ∧ (upLink id).canSend .out = true := by
  unfold Claims.FreshOf Claims.Fresh
  decide +kernel
theorem witness_ChainComplete2 :
    (let s := upLink (fun c => { c with strap := true, enumWait := some (1, false) })
     s.chain.strap = true ∧ s.chain.enumWait = some (1, false) ∧ max s.aon 0 < 1 + 1000000 * 2 ^ 32 ∧ 1 + 1000000 * 2 ^ 32 ≤ max s.aon (ms 2)) ∧
    (15#8).toNat ≤ 15 ∧ 15 < (16#8).toNat ∧
    (let s : State := { up with chain := { up.chain with upSince := some 1 } }
     s.chain.upSince = some 1 ∧ 1 + 1000000000 * 2 ^ 32 ≤ max s.aon (sec 2) ∧ s.chain.strap = false ∧ s.chain.address = none ∧
     s.chain.noHeadPosted = false) ∧
    (let s : State := { up with chain := { up.chain with strap := true } }
     s.chain.strap = true ∧ s.chain.address = none ∧ (s.at 0).silent 32 = true ∧ (s.at 0).silent 33 = true) := by decide +kernel
theorem witness_ChainComplete3 :
    (let s := upLink (fun c => { c with rejoining := true, rejoinOut := some (4, 6, 1) })
     (hdr 0xFE).side = .inn ∧ s.chain.rejoining = true ∧ s.chain.rejoinOut = some (4, 6, 1) ∧ (4#8).toNat = (2#8).toNat + 2 ∧
     (4#8).toNat < (6#8).toNat ∧ (6#8).toNat ≤ 16) ∧
    up.chain.sleepMs = 0 ∧
    (let s := upLink (fun c => { c with sleepMs := 5 })
     0 < s.chain.sleepMs ∧ s.chain.lastArmed + s.chain.sleepMs * 1000000 * 2 ^ 32 ≤ max s.aon (ms 5) ∧ s.armed = false ∧ s.canSend .inn = true) ∧
    (let s := upLink (fun c => { c with linkReq := some ({ mb := 0, tag := 7 }, 1), hopIn := { c.hopIn with retrain := some (1, 2) } })
     s.chain.linkReq = some ({ mb := 0, tag := 7 }, 1) ∧ max s.aon 0 < 1 + 2000000 * 2 ^ 32 ∧
     1 + 2000000 * 2 ^ 32 ≤ max s.aon (ms 3) ∧ s.chain.count ≠ 1 ∧ (s.hopUp .inn && s.hopUp .out) = false) := by decide +kernel

/-- Meets the hypotheses of `Obligations.HopsAndBeaconsComplete`. -/
theorem witness_HopsAndBeaconsComplete :
    (let s := upLink (fun c => { c with hopOut := { c.hopOut with tx := waiting5 false } })
     (s.hop .out).tx.wait.map (·.1) = some 5 ∧ (s.hop .out).tx.wait.map (·.2.2) = some (false, 1) ∧ (s.hop .out).tx.queue = [] ∧
     ((blockBytes (chnAckOf 0)).getD 0 0 == 0xC3 && chkOk (chnAckOf 0)) = true ∧ (blockBytes (chnAckOf 0)).getD 1 0 = 5 ∧
     (blockBytes (chnAckOf 0)).getD 2 0 = 0 ∧ ((blockBytes (chnAckOf 3)).getD 0 0 == 0xC3 && chkOk (chnAckOf 3)) = true ∧
     (blockBytes (chnAckOf 3)).getD 1 0 = 5 ∧ (blockBytes (chnAckOf 3)).getD 2 0 ≠ 0) ∧
    (let s := upLink (fun c => { c with hopOut := { c.hopOut with tx := waiting5 true } })
     (s.hop .out).tx.wait.map (·.2.2) = some (true, 1) ∧ 1 + 2000 * 2 ^ 32 ≤ max s.aon (us 3) ∧ max s.aon (us 1) < 1 + 2000 * 2 ^ 32 ∧ s.chain.count ≠ 2) ∧
    (let s := upLink id
     (s.lane (hopLane .inn)).state = .active ∧ (s.hop .inn).retrain = none ∧ (s.hop .inn).rxSleep = false ∧ ((1 : BitVec 4) &&& 5) ≠ 0 ∧ s.chain.count ≠ 2 ∧
     (upLink (fun c => { c with hopIn := { c.hopIn with rxSleep := true } })).chain.hopIn.rxSleep = true) := by decide +kernel
theorem witness_HopsAndBeaconsComplete2 :
    (∀ ready, let s := upHopBack ready
     (s.hop .inn).retrain = some (1, 2) ∧ (s.lane (hopLane .inn)).stage = 4 ∧ s.chainAligned (hopLane .inn) = true ∧
     (s.lane (hopLane .inn)).partnerReady = ready ∧ (s.hop .inn).down = false ∧ s.chain.rejoining = false ∧ s.chain.strap = false ∧ s.chain.linkReq = none ∧
     max s.aon (us 100) ≤ 1 + 100000 * 2 ^ 32 ∧ 1 + 100000 * 2 ^ 32 < max s.aon (us 101)) ∧
    ((upLink (fun c => { c with hopIn := { c.hopIn with retrain := some (1, 2) } })).lane (hopLane .inn)).stage ≠ 4 := by decide +kernel
theorem witness_HopsAndBeaconsComplete3 :
    (up.canSend .inn = false ∧ (upLink id).canSend .inn = true) ∧
    (((up.at 0).chainNs / 125000).toNat ≤ up.chain.sampleK ∧ up.chain.sampleK < ((up.at (us 125)).chainNs / 125000).toNat) ∧
    ((hdr 0xFF).epoch = (upLink id).chain.epoch ∧ (upLink id).originates = false ∧ beacon7.lap ≠ 0) ∧
    (let s := upLink id
     s.chain.lastAt + 256000 * 2 ^ 32 ≤ max s.aon (us 256) ∧ s.chain.lossPosted = false ∧ 1 < s.chain.count ∧ s.chain.address.isSome = true ∧
     ({ hdr 3 with epoch := 1 } : ChainHdr).epoch ≠ s.chain.epoch) := by decide +kernel

/-- Meets the hypotheses of `Obligations.OnlyItsWritersChangeMemory`. -/
theorem witness_OnlyItsWritersChangeMemory :
    (Claims.captures .alertResponseRead = false ∧ Claims.movesMemory .alertResponseRead = false) ∧
    (Claims.captures (.inhibitTest 0 5) = true ∧ up.hamper.capture = none) ∧
    (let s : State := { up with hamper := { up.hamper with capture := some capture9 } }
     s.hamper.capture = some capture9 ∧ capture9.written < capture9.count) := by decide +kernel

/-- Meets the hypotheses of `Obligations.MemoryCommandsComplete`. -/
theorem witness_MemoryCommandsComplete :
    Claims.FreshOf 0x0810 0 (req []) up ∧ Claims.Fresh 0x0811 (req ([12, 1] ++ le 2 1024 ++ le 4 60000 ++ List.replicate 8 0)) up ∧
    Claims.Fresh 0x0812 (req ([0, 0, 3, 0, 0, 0, 0, 0] ++ le 8 0x80000000)) up ∧ injectOk planted.target planted.addr = true ∧ planted.target ≤ 2 ∧
    up.miu.corrupt = [] ∧ up.miu.poison = [] ∧ up.miu.dead = [] ∧ up.miu.panicSince = none ∧ up.miu.scrubPos < memSize := by
  unfold Claims.FreshOf Claims.Fresh
  decide +kernel
theorem witness_MemoryCommandsComplete2 :
    (let s : State := { up with miu := { up.miu with panicSince := some 0, scrubPos := memSize, deficit := Vector.replicate 64 8 } }
     s.miu.panicSince.isSome = true ∧ memSize ≤ s.miu.scrubPos ∧ s.miu.selfRefresh = false ∧ 8 ≤ s.miu.deficit[(63 : Fin 64)]) ∧
    (63 : Fin 64).val = 2 * (31 : Fin 32).val + (1 : Fin 2).val ∧ up.miu.deficit[(63 : Fin 64)] < 8 ∧
    (let s : State := { up with miu := { up.miu with selfRefresh := true } }
     s.miu.selfRefresh = true) ∧
    (131069 : Fin 131072).val + 1 = (131070 : Fin 131072).val ∧ (131070 : Fin 131072).val + 1 = (131071 : Fin 131072).val ∧
    (upJob .armed).armed = true ∧ up.armed = false ∧ up.miu.fsp = 2 ∧ up.miu.lastTraffic + 10000000 * 2 ^ 32 ≤ max up.aon (ms 10) ∧
    max up.aon 0 < up.miu.lastTraffic + 10000000 * 2 ^ 32 := by decide +kernel

/-- Meets the hypotheses of `Obligations.MemoryErrorsComplete`. -/
theorem witness_MemoryErrorsComplete :
    up.miu.dead.contains (wordOf 7) = false ∧ up.miu.corrupted 0 (wordOf 7) = false ∧ up.miu.stuck.any (fun e => e.1 = wordOf 7) = false ∧
    up.miu.stuck.length < 1024 ∧ up.miu.corrupt = [] ∧ ({ up with miu := { up.miu with corrupt := [planted] } } : State).miu.corrupted 0 (wordOf 0x80000000) = true ∧
    (up.miu.eccPosts[(0 : Fin 8)]).due (max up.aon 0) = false ∧
    (let s : State := { up with miu := { up.miu with eccPosts := up.miu.eccPosts.set 7 { EccPost.init with count := 1 } } }
     (s.miu.eccPosts[(7 : Fin 8)]).due (max s.aon 0) = true) ∧
    fenceAllows .cdx 0x7FFFFFFF = false ∧ fenceAllows .cdx 0x80000000 = true := by decide +kernel

/-- Meets the hypotheses of `Obligations.FaultSupervisorCompletes`. -/
theorem witness_FaultSupervisorCompletes :
    Claims.FreshOf 0x0800 0 (req []) up ∧ Claims.Fresh 0x0801 (req (le 8 0 ++ le 4 3 ++ [0, 0, 0, 0] ++ le 8 0)) upWaste ∧
    Claims.Fresh 0x0801 (req (le 8 0 ++ le 4 1 ++ [0, 0, 0, 0] ++ le 8 0x37FFFFFFC0)) upWaste ∧ 0x37FFFFFFC0 % 64 = 0 ∧ upWaste.fsv.log ≠ [] ∧
    0 ≤ upWaste.fsv.newest ∧ upWaste.fsv.newest < 1 ∧ up.fsv.inbox = [] := by
  unfold Claims.FreshOf Claims.Fresh
  decide +kernel
theorem witness_FaultSupervisorCompletes2 :
    (∀ o ∈ [FaultOutcome.pending, .transient, .detected], (upTold o).fsv.inbox.length = 1 ∧ (upTold o).fsv.pendingFaults = [] ∧
      (upTold o).fsv.log.length < 262144 ∧ (upTold o).armed = true ∧ (upTold o).fsv.stopWanted = none ∧
      (∀ x ∈ (upTold o).job.rows.toList, x.withholdFrom = none)) ∧
    (let s : State := { up with fsv := { up.fsv with inbox := [.mark 15 4 7 1 0] } }
     s.fsv.inbox = [.mark 15 4 7 1 0] ∧ s.lsd.origin = none ∧ (∀ x ∈ s.job.rows.toList, x.withholdFrom = none)) ∧
    (upWaste.fsv.ranges = [] ∧ upWaste.fsv.inside = false ∧ upWaste.fsv.leftAt = some 1 ∧ 1 + 1000000 * 2 ^ 32 ≤ max upWaste.aon (ms 2) ∧
      upWaste.fsv.power = false ∧ max upWaste.aon 0 < 1 + 1000000 * 2 ^ 32) ∧
    ((hdr 0xFF).epoch = up.chain.epoch ∧ up.lsd.origin = none) ∧
    (let s := upLink (fun c => { c with wasteOut := some (5, 100, 200) })
     s.chain.wasteOut = some (5, 100, 200) ∧ s.chain.wasteAt + 1000000 * 2 ^ 32 ≤ max s.aon (ms 1)) := by decide +kernel

end Sys2Proof.Tests
end

section
/-! PROOF. Accesses of BAR2 and of BAR0 registers (01 R23; 19 R472, R473, R477 to R480; 20 R509): O14. -/

namespace Sys2Proof.Machine

/-! ### Device memory -/

/-- A written byte string reads back. -/
theorem Memory.read_write_self {m : List Host.Cell} {a : Nat} {p : List Byte} (h : wf m = true) :
    read (write m a p) a p.length = p := by
  induction p generalizing m a with
  | nil => rfl
  | cons v r ih =>
    have hhead : get (write (set m a v) (a + 1) r) a = v := by
      rw [get_write_ne (.inl (Nat.lt_succ_self a)), get_set_self h]
    rw [write, List.length_cons, read, hhead, ih (wf_set h)]

theorem State.memRead_memWrite_self {s : State} {a : Nat} {p : List Byte} (h : Memory.wf s.mem = true) :
    (s.memWrite a p).memRead a p.length = p := Memory.read_write_self h

/-- Without planted errors a read corrects nothing. -/
theorem State.readSingles_of_corrupt_nil {s : State} (h : s.miu.corrupt = []) (reader : MemReader) (a n : Nat) :
    s.readSingles reader a n = s := by
  simp [readSingles, h]

@[simp] theorem State.traffic_readFails (s : State) (k : Nat) (host : Bool) (a n : Nat) :
    (s.traffic k host).readFails a n = s.readFails a n := rfl

/-- A lasting uncorrectable read counts one and touches neither the wires nor device memory (R509). -/
theorem State.poisonRead_last {s : State} {reader a n : Nat} (h : s.readFails a n = true) :
    (s.poisonRead reader a n true).wires = s.wires ∧ (s.poisonRead reader a n true).mem = s.mem ∧
      (s.poisonRead reader a n true).miu.ue = satAdd s.miu.ue 1 := by
  obtain ⟨w, hw⟩ := Option.isSome_iff_exists.1 h
  rw [poisonRead, hw]
  exact ⟨rfl, rfl, rfl⟩

/-! ### The aperture: what an access does inside and outside the windows (R477 to R479) -/

section Aperture

variable {s : State} {off n : Nat} {p : List Byte} (hup : s.hostUp = true)
include hup

theorem State.apertureWrite_of_inWindow (hw : s.inWindow true (s.hif.bar2Base.toNat + off) p.length = true) :
    s.apertureWrite off p = (s.traffic p.length true).memWrite (s.hif.bar2Base.toNat + off) p := by
  simp [apertureWrite, hup, hw]

theorem State.apertureWrite_of_not_inWindow (hw : s.inWindow true (s.hif.bar2Base.toNat + off) p.length = false) :
    s.apertureWrite off p = s.bar2Refused (s.hif.bar2Base.toNat + off) true := by
  simp [apertureWrite, hup, hw]

theorem State.apertureRead_of_inWindow (hw : s.inWindow false (s.hif.bar2Base.toNat + off) n = true)
    (hf : s.readFails (s.hif.bar2Base.toNat + off) n = false) :
    s.apertureRead off n = ((s.traffic n true).readSingles .dma (s.hif.bar2Base.toNat + off) n).emit
      (.readData (s.memRead (s.hif.bar2Base.toNat + off) n)) := by
  simp [apertureRead, hup, hw, hf]

theorem State.apertureRead_of_readFails (hw : s.inWindow false (s.hif.bar2Base.toNat + off) n = true)
    (hf : s.readFails (s.hif.bar2Base.toNat + off) n = true) :
    s.apertureRead off n = ((s.traffic n true).poisonRead 7 (s.hif.bar2Base.toNat + off) n true).emit (.readPoison n) := by
  simp [apertureRead, hup, hw, hf]

theorem State.apertureRead_of_not_inWindow (hw : s.inWindow false (s.hif.bar2Base.toNat + off) n = false) :
    s.apertureRead off n = (s.bar2Refused (s.hif.bar2Base.toNat + off) false).emit (.readData (zeroBytes n)) := by
  simp [apertureRead, hup, hw]

end Aperture

/-! ### BAR0: which branch an access takes (R472) -/

/-- An access of BAR0 is 4 or 8 bytes at a multiple of its size. -/
def Aligned (a size : Nat) : Prop := (size = 4 ∧ a % 4 = 0) ∨ (size = 8 ∧ a % 8 = 0)

section Bar0

variable {s : State} {a : Nat} (hup : s.hostUp = true)
include hup

theorem State.bar0Write_four (ha : a % 4 = 0) (v : Nat) : s.bar0Write a 4 v = s.write4 a (v % 2 ^ 32) := by
  simp [bar0Write, hup, ha]

theorem State.bar0Read_four (ha : a % 4 = 0) : s.bar0Read a 4 = s.readWord a := by
  simp [bar0Read, hup, ha]

theorem State.bar0Write_of_not_aligned {size : Nat} (h : ¬ Aligned a size) (v : Nat) : s.bar0Write a size v = s.badAccess := by
  obtain ⟨h4, h8⟩ := not_or.1 h
  simp [bar0Write, hup, h4, h8]

theorem State.bar0Read_of_not_aligned {size : Nat} (h : ¬ Aligned a size) :
    s.bar0Read a size = (s.emit (.readData (zeroBytes size))).badAccess := by
  obtain ⟨h4, h8⟩ := not_or.1 h
  simp [bar0Read, hup, h4, h8]

end Bar0

/-- Neither half of a 64-bit register lies at `a`. -/
def Narrow (a : Nat) : Prop := wide a = false ∧ (4 ≤ a → wide (a - 4) = false)

theorem State.write4_of_narrow {a : Nat} (h : Narrow a) (s : State) (v : Nat) : s.write4 a v = s.wordWrite a v := by
  obtain ⟨hlow, hhigh⟩ := h
  simp +contextual [write4, hlow, hhigh]

theorem State.readWord_of_narrow {a : Nat} (h : Narrow a) (s : State) : s.readWord a = s.emit (.readData (le 4 (s.bar0Word a))) := by
  obtain ⟨hlow, hhigh⟩ := h
  simp +contextual [readWord, hlow, hhigh]

/-- The entry just set is the one found. -/
theorem find?_assocSet_self {β : Type} (l : List (Nat × β)) (k : Nat) (v : β) :
    (assocSet l k v).find? (fun e => e.1 = k) = some (k, v) := by
  simp [assocSet]

/-! ### 64-bit registers in two halves (R472, log 19) -/

theorem State.readWord_of_wide {a : Nat} (h : wide a = true) (s : State) :
    s.readWord a = { s with
      hif := { s.hif with highLatch := assocSet s.hif.highLatch a (BitVec.ofNat 32 (s.bar0Word (a + 4))) }
      wires := .readData (le 4 (s.bar0Word a)) :: s.wires } := by
  simp [readWord, h, emit]

theorem Hif.latched?_assocSet_self (x : Hif) (a : Nat) (v : BitVec 32) :
    ({ x with highLatch := assocSet x.highLatch a v } : Hif).latched? a = some v := by
  rw [latched?, find?_assocSet_self]
  rfl

/-- A latched high half is returned once, whatever the register holds by then. -/
theorem State.readWord_of_latched {s : State} {a : Nat} {v : BitVec 32} (hlow : wide a = true) (hhigh : wide (a + 4) = false)
    (hv : s.hif.latched? a = some v) :
    s.readWord (a + 4) = { s with
      hif := { s.hif with highLatch := s.hif.highLatch.filter (fun e => e.1 ≠ a) }
      wires := .readData (le 4 v.toNat) :: s.wires } := by
  simp [readWord, hlow, hhigh, hv, emit]

theorem State.write4_of_wide {a : Nat} (h : wide a = true) (s : State) (v : Nat) : s.write4 a v = s.lowWrite a v := by
  simp [write4, h]

theorem State.write4_of_high {a : Nat} (hlow : wide a = true) (hhigh : wide (a + 4) = false) (s : State) (v : Nat) :
    s.write4 (a + 4) v = s.highWrite a v := by
  simp [write4, hlow, hhigh]

/-- Both halves written, the register takes the value they make. -/
theorem State.highWrite_lowWrite (s : State) (a lo hi : Nat) :
    (s.lowWrite a lo).highWrite a hi =
      ({ s with hif := { s.hif with lowHalf := (s.lowWrite a lo).hif.lowHalf.filter (fun e => e.1 ≠ a) } }).wideWrite a
        (lo % 2 ^ 32 + hi % 2 ^ 32 * 2 ^ 32) := by
  simp [highWrite, lowWrite, find?_assocSet_self]

/-! ### The registers of a queue (R471, R489) -/

theorem regAt_queue (q : Fin 48) {o : Nat} (ho : o < 64) : regAt (0x200000 + 64 * q.val + o) = .queue q o := by
  have hq := q.isLt
  unfold regAt
  rw [if_neg (by omega), if_neg (by omega), if_neg (by omega), if_neg (by omega), if_neg (by omega), if_neg (by omega),
    if_pos (by omega)]
  have hindex : (0x200000 + 64 * q.val + o - 0x200000) / 64 % 48 = q.val := by omega
  have hoffset : (0x200000 + 64 * q.val + o - 0x200000) % 64 = o := by omega
  simp only [hindex, hoffset]

theorem regAt_queueBase (q : Fin 48) : regAt (0x200000 + 64 * q.val) = .queue q 0 := regAt_queue q (o := 0) (by decide)

theorem wide_queueBase (q : Fin 48) : wide (0x200000 + 64 * q.val) = true := by
  rw [wide, regAt_queueBase]
  rfl

theorem wide_queueBase_high (q : Fin 48) : wide (0x200000 + 64 * q.val + 4) = false := by
  rw [wide, regAt_queue q (by decide)]
  rfl

theorem State.wideWrite_queueBase (s : State) (q : Fin 48) (v : Nat) :
    s.wideWrite (0x200000 + 64 * q.val) v = s.qBaseWrite q v := by
  rw [wideWrite, regAt_queueBase]

@[simp] theorem State.que_updQue_self (s : State) (q : Fin 48) (f : Que → Que) : (s.updQue q f).que q = f (s.que q) :=
  Vector.getElem_set_self q.isLt

/-- The base of a queue that is not enabled takes the value but its low 12 bits (R489). -/
theorem State.qBaseWrite_base {s : State} {q : Fin 48} (h : (s.que q).enable = false) (v : Nat) :
    ((s.qBaseWrite q v).que q).base = BitVec.ofNat 64 (v / 4096 * 4096) := by
  simp [qBaseWrite, h]

/-! ### Words and their halves -/

theorem toNat_and_pageMask (x : BitVec 64) : (x &&& 0xFFFFFFFFFFFFF000#64).toNat = x.toNat / 4096 * 4096 := by
  have hmask : x &&& 0xFFFFFFFFFFFFF000#64 = (x >>> 12) <<< 12 := by
    rw [show 0xFFFFFFFFFFFFF000#64 = BitVec.allOnes 64 <<< 12 from rfl]
    ext i hi
    rw [BitVec.getElem_and, BitVec.getElem_shiftLeft, BitVec.getElem_allOnes, BitVec.getElem_shiftLeft]
    rcases Nat.lt_or_ge i 12 with h | h
    · simp [h]
    · simp [Nat.not_lt.2 h, Nat.add_sub_cancel' h, BitVec.getLsbD_eq_getElem hi]
  have hx := x.isLt
  rw [hmask, BitVec.toNat_shiftLeft, BitVec.toNat_ushiftRight, Nat.shiftRight_eq_div_pow, Nat.shiftLeft_eq]
  omega

theorem toNat_append_halves (hi lo : BitVec 32) : (hi ++ lo).toNat = lo.toNat + hi.toNat * 2 ^ 32 := by
  rw [BitVec.toNat_append, ← Nat.shiftLeft_add_eq_or_of_lt lo.isLt, Nat.shiftLeft_eq, Nat.add_comm]

theorem ofNat_pages_of_halves (hi lo : BitVec 32) :
    BitVec.ofNat 64 ((lo.toNat + hi.toNat * 2 ^ 32) / 4096 * 4096) = (hi ++ lo) &&& 0xFFFFFFFFFFFFF000#64 := by
  have hlo := lo.isLt
  have hhi := hi.isLt
  apply BitVec.eq_of_toNat_eq
  rw [toNat_and_pageMask, toNat_append_halves, BitVec.toNat_ofNat]
  omega

theorem toNat_setWidth_half (x : BitVec 32) : (x.setWidth 64).toNat % 2 ^ 32 = x.toNat := by
  have hx := x.isLt
  rw [BitVec.toNat_setWidth]
  omega

/-- The bytes of a word made of two halves of 16 bits. -/
theorem le_append_halves {lo : Nat} (hlo : lo < 2 ^ 16) (hi : Nat) : le 4 (lo + hi * 65536) = le 2 lo ++ le 2 hi := by
  have byte {k m : Nat} (h : k % 256 = m % 256) : BitVec.ofNat 8 k = BitVec.ofNat 8 m :=
    BitVec.eq_of_toNat_eq (by simpa using h)
  simp only [le, List.cons_append, List.nil_append, List.cons.injEq, and_true]
  exact ⟨byte (by omega), byte (by omega), byte (by omega), byte (by omega)⟩

/-! ### The clauses of O14 -/

theorem exec_bar2Read (off : BitVec 32) (len : Nat) (s : State) :
    exec (.bar2Read off len) s = .next (s.apertureRead off.toNat len) := rfl

theorem exec_bar2Write (off : BitVec 32) (data : List Byte) (s : State) :
    exec (.bar2Write off data) s = .next (s.apertureWrite off.toNat data) := rfl

theorem exec_bar0RegisterWrite (off : BitVec 24) (size : Nat) (v : BitVec 64) (s : State) :
    exec (.bar0RegisterWrite off size v) s = .next (s.bar0Write off.toNat size v.toNat) := rfl

theorem exec_bar0LowHalfRead (off : BitVec 24) (size : Nat) (s : State) :
    exec (.bar0LowHalfRead off size) s = .next (s.bar0Read off.toNat size) := rfl

theorem exec_bar2Write_of_inWindow (off : BitVec 32) (data : List Byte) (s : State) (hup : s.hostUp = true)
    (hmem : Memory.wf s.mem = true) (hw : s.inWindow true (s.hif.bar2Base.toNat + off.toNat) data.length = true) :
    ∃ t, exec (.bar2Write off data) s = .next t ∧ t.memRead (s.hif.bar2Base.toNat + off.toNat) data.length = data ∧
      (∀ b, b < s.hif.bar2Base.toNat + off.toNat ∨ s.hif.bar2Base.toNat + off.toNat + data.length ≤ b →
        Memory.get t.mem b = Memory.get s.mem b) ∧
      t = { s with mem := t.mem, miu := t.miu } := by
  rw [exec_bar2Write, State.apertureWrite_of_inWindow hup hw]
  exact ⟨_, rfl, State.memRead_memWrite_self hmem, fun _ hb => State.memWrite_get_ne hb, rfl⟩

theorem exec_bar2Read_of_inWindow (off : BitVec 32) (len : Nat) (s : State) (hup : s.hostUp = true) (hcor : s.miu.corrupt = [])
    (hw : s.inWindow false (s.hif.bar2Base.toNat + off.toNat) len = true)
    (hf : s.readFails (s.hif.bar2Base.toNat + off.toNat) len = false) :
    ∃ t, exec (.bar2Read off len) s = .next t ∧
      t.wires = .readData (s.memRead (s.hif.bar2Base.toNat + off.toNat) len) :: s.wires ∧
      t = { s with wires := t.wires, miu := t.miu } := by
  rw [exec_bar2Read, State.apertureRead_of_inWindow hup hw hf,
    State.readSingles_of_corrupt_nil (s := s.traffic len true) hcor]
  exact ⟨_, rfl, rfl, rfl⟩

theorem exec_bar2Read_of_readFails (off : BitVec 32) (len : Nat) (s : State) (hup : s.hostUp = true)
    (hw : s.inWindow false (s.hif.bar2Base.toNat + off.toNat) len = true)
    (hf : s.readFails (s.hif.bar2Base.toNat + off.toNat) len = true) :
    ∃ t, exec (.bar2Read off len) s = .next t ∧ t.wires = .readPoison len :: s.wires ∧ t.mem = s.mem ∧
      t.miu.ue = satAdd s.miu.ue 1 := by
  obtain ⟨hwires, hmem, hue⟩ := State.poisonRead_last (s := s.traffic len true) (reader := 7) hf
  rw [exec_bar2Read, State.apertureRead_of_readFails hup hw hf]
  exact ⟨_, rfl, congrArg _ hwires, hmem, hue⟩

theorem exec_bar2Write_of_not_inWindow (off : BitVec 32) (data : List Byte) (s : State) (hup : s.hostUp = true)
    (hw : s.inWindow true (s.hif.bar2Base.toNat + off.toNat) data.length = false) :
    exec (.bar2Write off data) s = .next { s with hif := { s.hif with
      wrFaults := satAdd s.hif.wrFaults 1, lastAddr := BitVec.ofNat 38 (s.hif.bar2Base.toNat + off.toNat), lastKind := 2 } } := by
  rw [exec_bar2Write, State.apertureWrite_of_not_inWindow hup hw]
  rfl

theorem exec_bar2Read_of_not_inWindow (off : BitVec 32) (len : Nat) (s : State) (hup : s.hostUp = true)
    (hw : s.inWindow false (s.hif.bar2Base.toNat + off.toNat) len = false) :
    exec (.bar2Read off len) s = .next { s with
      hif := { s.hif with
        rdFaults := satAdd s.hif.rdFaults 1, lastAddr := BitVec.ofNat 38 (s.hif.bar2Base.toNat + off.toNat), lastKind := 1 }
      wires := .readData (List.replicate len 0) :: s.wires } := by
  rw [exec_bar2Read, State.apertureRead_of_not_inWindow hup hw]
  rfl

theorem exec_write_faultMask (v : BitVec 64) (s : State) (hup : s.hostUp = true) :
    exec (.bar0RegisterWrite 0x0C 4 v) s = .next { s with hif := { s.hif with faultMask := v.setWidth 8 } } := by
  have hnarrow : Narrow (0x0C : BitVec 24).toNat := ⟨rfl, fun _ => rfl⟩
  have hmask : BitVec.ofNat 8 (v.toNat % 2 ^ 32) = v.setWidth 8 := by
    apply BitVec.eq_of_toNat_eq
    rw [BitVec.toNat_ofNat, BitVec.toNat_setWidth]
    omega
  rw [exec_bar0RegisterWrite, State.bar0Write_four hup rfl, State.write4_of_narrow hnarrow, ← hmask]
  rfl

/-- Nothing lies at 0x20. -/
theorem exec_write_reserved (v : BitVec 64) (s : State) (hup : s.hostUp = true) :
    exec (.bar0RegisterWrite 0x20 4 v) s = .next s := by
  have hnarrow : Narrow (0x20 : BitVec 24).toNat := ⟨rfl, fun _ => rfl⟩
  rw [exec_bar0RegisterWrite, State.bar0Write_four hup rfl, State.write4_of_narrow hnarrow]
  rfl

theorem exec_read_id (s : State) (hup : s.hostUp = true) :
    exec (.bar0LowHalfRead 0 4) s = .next { s with wires := .readData ([0x26, 0x48] ++ le 2 Config.hwRev.toNat) :: s.wires } := by
  have hnarrow : Narrow (0 : BitVec 24).toNat := ⟨rfl, fun _ => rfl⟩
  have hid : le 4 (s.bar0Word (0 : BitVec 24).toNat) = [0x26, 0x48] ++ le 2 Config.hwRev.toNat :=
    le_append_halves (by decide) Config.hwRev.toNat
  rw [exec_bar0LowHalfRead, State.bar0Read_four hup rfl, State.readWord_of_narrow hnarrow, hid]
  rfl

/-- The second read returns what the first latched, whatever the time is by then. -/
theorem exec_read_time_halves (s t : State) (hup : s.hostUp = true) (h : exec (.bar0LowHalfRead 0x10 4) s = .next t) :
    t.wires = .readData (le 4 (s.nowNs % 2 ^ 32)) :: s.wires ∧ t.aon = s.aon ∧
    ∀ now, exec (.bar0LowHalfRead 0x14 4) { t with aon := now } =
      .next { t with aon := now, wires := .readData (le 4 (s.nowNs / 2 ^ 32 % 2 ^ 32)) :: t.wires
                     hif := { t.hif with highLatch := t.hif.highLatch.filter (fun e => e.1 ≠ 0x10) } } := by
  have hwide : wide (0x10 : BitVec 24).toNat = true := rfl
  rw [exec_bar0LowHalfRead, State.bar0Read_four hup rfl, State.readWord_of_wide hwide] at h
  cases h
  refine ⟨rfl, rfl, fun now => ?_⟩
  have hlatched : (BitVec.ofNat 32 (s.bar0Word 0x14)).toNat = s.nowNs / 2 ^ 32 % 2 ^ 32 := Nat.mod_mod _ _
  rw [exec_bar0LowHalfRead, State.bar0Read_four (by exact hup) rfl, ← hlatched]
  exact congrArg _ (State.readWord_of_latched (a := 0x10) rfl rfl (Hif.latched?_assocSet_self ..))

theorem exec_bar0_of_not_aligned (off : BitVec 24) (size : Nat) (v : BitVec 64) (s : State) (hup : s.hostUp = true)
    (h4 : ¬ (size = 4 ∧ off.toNat % 4 = 0)) (h8 : ¬ (size = 8 ∧ off.toNat % 8 = 0)) :
    exec (.bar0RegisterWrite off size v) s = .next (s.setGlobalFault 7) ∧
    exec (.bar0LowHalfRead off size) s = .next ((s.emit (.readData (List.replicate size 0))).setGlobalFault 7) := by
  have h : ¬ Aligned off.toNat size := not_or.2 ⟨h4, h8⟩
  rw [exec_bar0RegisterWrite, exec_bar0LowHalfRead, State.bar0Write_of_not_aligned hup h, State.bar0Read_of_not_aligned hup h]
  exact ⟨rfl, rfl⟩

/-- The low half changes nothing but what waits; the high half makes both take effect. -/
theorem exec_write_queueBase_halves (n : Fin 48) (lo hi : BitVec 32) (s t : State) (hup : s.hostUp = true)
    (hoff : (s.que n).enable = false)
    (h : exec (.bar0RegisterWrite (BitVec.ofNat 24 (0x200000 + 64 * n.val)) 4 (lo.setWidth 64)) s = .next t) :
    t.que n = s.que n ∧
    ∃ u, exec (.bar0RegisterWrite (BitVec.ofNat 24 (0x200004 + 64 * n.val)) 4 (hi.setWidth 64)) t = .next u ∧
      (u.que n).base = (hi ++ lo) &&& 0xFFFFFFFFFFFFF000#64 := by
  have hn := n.isLt
  have hlow : (BitVec.ofNat 24 (0x200000 + 64 * n.val)).toNat = 0x200000 + 64 * n.val := by
    rw [BitVec.toNat_ofNat]; omega
  have hhigh : (BitVec.ofNat 24 (0x200004 + 64 * n.val)).toNat = 0x200000 + 64 * n.val + 4 := by
    rw [BitVec.toNat_ofNat]; omega
  rw [exec_bar0RegisterWrite, hlow, State.bar0Write_four hup (by omega), toNat_setWidth_half,
    State.write4_of_wide (wide_queueBase n)] at h
  cases h
  refine ⟨rfl, _, rfl, ?_⟩
  rw [hhigh, State.bar0Write_four (by exact hup) (by omega), toNat_setWidth_half,
    State.write4_of_high (wide_queueBase n) (wide_queueBase_high n), State.highWrite_lowWrite, State.wideWrite_queueBase,
    State.qBaseWrite_base (by exact hoff), Nat.mod_eq_of_lt lo.isLt, Nat.mod_eq_of_lt hi.isLt, ofNat_pages_of_halves]

/-- Settles O14: each access takes the branch its window, its size or its register gives it. That a range is judged whole at a
window's edge (log 20), that a poisoned read counts once (log 24) and that a low half waits (log 19) are the model's choices. -/
theorem barAccessesComplete : Obligations.BarAccessesComplete :=
  ⟨exec_bar2Write_of_inWindow, exec_bar2Read_of_inWindow, exec_bar2Read_of_readFails, exec_bar2Write_of_not_inWindow,
    exec_bar2Read_of_not_inWindow, exec_write_faultMask, exec_read_id, exec_read_time_halves, exec_write_reserved,
    exec_bar0_of_not_aligned, exec_write_queueBase_halves⟩

end Sys2Proof.Machine
end

section
/-! PROOF. CTRL and STATUS of a channel of Bulk DMA (01 R23; 19 R481 to R483, R486, R488): O15. -/

namespace Sys2Proof.Machine

/-! ### One channel of the state -/

@[simp] theorem State.chan_updChan_self (s : State) (c : Fin 48) (f : Chan → Chan) : (s.updChan c f).chan c = f (s.chan c) :=
  Vector.getElem_set_self c.isLt

theorem State.chan_updChan_ne (s : State) {c k : Fin 48} (h : k ≠ c) (f : Chan → Chan) : (s.updChan c f).chan k = s.chan k :=
  Vector.getElem_set_ne c.isLt k.isLt (fun hv => h (Fin.ext hv.symm))

theorem State.updChan_updChan (s : State) (c : Fin 48) (f g : Chan → Chan) :
    (s.updChan c f).updChan c g = s.updChan c (fun x => g (f x)) := by
  simp [updChan, upd]

@[simp] theorem State.inWindow_updChan (s : State) (c : Fin 48) (f : Chan → Chan) (write : Bool) (a n : Nat) :
    (s.updChan c f).inWindow write a n = s.inWindow write a n := rfl

/-! ### The registers of a channel (R471, R472, R481) -/

theorem regAt_channel (c : Fin 32) {o : Nat} (ho : o < 256) : regAt (0x100000 + 256 * c.val + o) = .channel c o := by
  have hc := c.isLt
  unfold regAt
  rw [if_neg (by omega), if_neg (by omega), if_neg (by omega), if_neg (by omega), if_neg (by omega), if_pos (by omega)]
  have hindex : (0x100000 + 256 * c.val + o - 0x100000) / 256 % 32 = c.val := by omega
  have hoffset : (0x100000 + 256 * c.val + o - 0x100000) % 256 = o := by omega
  simp only [hindex, hoffset]

theorem wide_channel (c : Fin 32) {o : Nat} (ho : o < 256) : wide (0x100000 + 256 * c.val + o) = (o == 0 || o == 8) := by
  rw [wide, regAt_channel c ho]

/-- Behind SRC and DST the registers of a channel have 32 bits. -/
theorem narrow_channel (c : Fin 32) {o : Nat} (hlo : 16 ≤ o) (hhi : o < 256) : Narrow (0x100000 + 256 * c.val + o) := by
  have hbefore : 0x100000 + 256 * c.val + o - 4 = 0x100000 + 256 * c.val + (o - 4) := by omega
  have hthirtyTwo {k : Nat} (h₀ : k ≠ 0) (h₈ : k ≠ 8) : (k == 0 || k == 8) = false := by simp [h₀, h₈]
  refine ⟨(wide_channel c hhi).trans (hthirtyTwo (by omega) (by omega)), fun _ => ?_⟩
  rw [hbefore]
  exact (wide_channel c (by omega)).trans (hthirtyTwo (by omega) (by omega))

/-- A 4-byte write behind SRC and DST reaches the register of the channel. -/
theorem State.bar0Write_channel {s : State} (hup : s.hostUp = true) (c : Fin 32) {o : Nat} (hlo : 16 ≤ o) (hhi : o < 256)
    (halign : o % 4 = 0) (v : BitVec 32) : s.bar0Write (0x100000 + 256 * c.val + o) 4 v.toNat = s.chanWrite c o v.toNat := by
  rw [bar0Write_four hup (by omega), Nat.mod_eq_of_lt v.isLt, write4_of_narrow (narrow_channel c hlo hhi), wordWrite,
    regAt_channel c hhi]

theorem State.chanWrite_of_not_held {s : State} {c : Fin 32} (h : s.hif.bdAssign.getLsbD c.val = false) (o v : Nat) :
    s.chanWrite c o v = s.badAccess :=
  if_pos (by rw [h]; rfl)

theorem State.chanWrite_ctrl {s : State} {c : Fin 32} (h : s.hif.bdAssign.getLsbD c.val = true) (v : Nat) :
    s.chanWrite c 0x18 v = s.ctrlWrite (hostChan c) v := by
  simp [chanWrite, h]

theorem State.chanWrite_status {s : State} {c : Fin 32} (h : s.hif.bdAssign.getLsbD c.val = true) (v : Nat) :
    s.chanWrite c 0x20 v = s.updChan (hostChan c) (fun x => { x with
      drqOverflow := x.drqOverflow && !bit v 16, goIgnored := x.goIgnored && !bit v 17 }) := by
  simp [chanWrite, h]

/-! ### CTRL: the written bits (R482, R486) -/

/-- A channel behind a write of CTRL, before `go` is looked at. -/
def Chan.ctrlWritten (v : BitVec 32) (x : Chan) : Chan :=
  { x with ctrl := v &&& 0xFFFFFFFC#32, abortWanted := x.abortWanted || (v.getLsbD 1 && x.state == .active) }

theorem State.ctrlWrite_of_no_go {v : BitVec 32} (h : v.getLsbD 0 = false) (s : State) (c : Fin 48) :
    s.ctrlWrite c v.toNat = s.updChan c (Chan.ctrlWritten v) := by
  have hbit : bit v.toNat 0 = false := h
  rw [ctrlWrite, BitVec.ofNat_toNat, BitVec.setWidth_eq, hbit]
  rfl

theorem State.ctrlWrite_of_go {v : BitVec 32} (h : v.getLsbD 0 = true) {s : State} {c : Fin 48} (hidle : (s.chan c).state = .idle) :
    s.ctrlWrite c v.toNat = (s.updChan c (Chan.ctrlWritten v)).chanGo c := by
  have hbit : bit v.toNat 0 = true := h
  rw [ctrlWrite, BitVec.ofNat_toNat, BitVec.setWidth_eq, hbit, if_pos hidle]
  rfl

/-! ### `go`: what it latches and how the checks end (R483) -/

/-- The transfer that the registers of a channel describe. -/
def Chan.programmed (x : Chan) : Xfer :=
  { src := x.src, dst := x.dst, count := x.count, reqSel := x.reqSel, ctrl := x.ctrl, user := x.user }

/-- A channel that has taken a `go`, before the checks. -/
def Chan.launched (x : Chan) : Chan :=
  { x with latched := x.programmed, run := x.run + 1, moved := 0, lostPulse := false, transient := false, retrying := false
           abortWanted := false, heldPulses := 0, ended := none
           burstLeft := if x.reqSel.getLsbD 7 = true then 0 else x.count.toNat }

theorem Xfer.bad_eq_false_iff (x : Xfer) : x.bad = false ↔
    (x.srcDev = true ∨ x.dstDev = true) ∧ ¬ (20 ≤ x.line ∧ x.line ≤ 31) ∧ x.src.toNat + x.count.toNat ≤ 2 ^ 64 ∧
    x.dst.toNat + x.count.toNat ≤ 2 ^ 64 ∧ x.ctrl &&& 0xFFC0F8FC#32 = 0 ∧ ¬ (32 ≤ x.cq ∧ x.cq ≤ 62) := by
  simp only [bad, Bool.or_eq_false_iff, Bool.and_eq_false_iff, Bool.not_eq_false', decide_eq_false_iff_not, Nat.not_lt,
    bne_eq_false_iff_eq, and_assoc]

theorem State.windowMiss_eq_none {s : State} {x : Xfer} (hsrc : x.srcDev = true → s.inWindow false x.src.toNat x.count.toNat = true)
    (hdst : x.dstDev = true → s.inWindow true x.dst.toNat x.count.toNat = true) : s.windowMiss x = none := by
  rw [windowMiss, if_neg (by simpa using hsrc), if_neg (by simpa using hdst)]

theorem State.windowMiss_of_dst {s : State} {x : Xfer} (hsrc : x.srcDev = false) (hdst : x.dstDev = true)
    (h : s.inWindow true x.dst.toNat x.count.toNat = false) : s.windowMiss x = some x.dst.toNat := by
  simp [windowMiss, hsrc, hdst, h]

/-- A start refused for a side outside the windows is counted (R480, R483). -/
def State.dmaRefused (s : State) (a : Nat) : State :=
  { s with hif := { s.hif with dmaFaults := satAdd s.hif.dmaFaults 1, lastAddr := BitVec.ofNat 38 a, lastKind := 3 } }

section Go

variable {s : State} {c : Fin 48} (hbad : (s.chan c).programmed.bad = false)
include hbad

theorem State.chanGo_of_count_zero (hcount : (s.chan c).count = 0) :
    s.chanGo c = (s.updChan c Chan.launched).finish c .empty 0 false :=
  (if_neg (Bool.eq_false_iff.1 hbad)).trans (if_pos hcount)

theorem State.chanGo_of_windowMiss (hcount : (s.chan c).count ≠ 0) {a : Nat} (h : s.windowMiss (s.chan c).programmed = some a) :
    s.chanGo c = ((s.updChan c Chan.launched).dmaRefused a).finish c .windowFault 0 false := by
  refine ((if_neg (Bool.eq_false_iff.1 hbad)).trans (if_neg hcount)).trans ?_
  split
  · next b hb =>
    cases h.symm.trans hb
    rfl
  · next hb => cases h.symm.trans hb

theorem State.chanGo_of_checks_pass (hcount : (s.chan c).count ≠ 0) (h : s.windowMiss (s.chan c).programmed = none) :
    s.chanGo c = (s.updChan c (fun x => { x.launched with state := .active })).issueReads 64 := by
  refine ((if_neg (Bool.eq_false_iff.1 hbad)).trans (if_neg hcount)).trans ?_
  split
  · next b hb => cases h.symm.trans hb
  · next hb => exact congrArg _ (State.updChan_updChan ..)

end Go

/-! ### The end of a transfer without a completion queue (R483, R491) -/

/-- A channel whose transfer has ended with a status and owes no completion record. -/
def Chan.over (st : Status) (x : Chan) : Chan :=
  { x with lastStatus := st.code, burstLeft := 0, heldPulses := 0, abortWanted := false, retrying := false, state := .idle, ended := none }

theorem State.finish_of_no_queue {s : State} {c : Fin 48} {st : Status} (hst : st ≠ .lastingFault)
    (hcq : 32 ≤ (s.chan c).latched.cq) (addr : Nat) (aborted : Bool) :
    s.finish c st addr aborted = (s.updChan c (Chan.over st)).assign := by
  rw [finish, if_neg hst, complete, dif_neg (by simpa using hcq)]
  exact congrArg State.assign (updChan_updChan ..)

@[simp] theorem State.assign_mem (s : State) : s.assign.mem = s.mem := rfl
@[simp] theorem State.assign_chan (s : State) (c : Fin 48) : s.assign.chan c = s.chan c := rfl
@[simp] theorem State.assign_dmaFaults (s : State) : s.assign.hif.dmaFaults = s.hif.dmaFaults := rfl

/-- A transfer that ends at the checks moves nothing; without a completion queue its channel is IDLE at once. -/
theorem State.finish_launched {s : State} {c : Fin 48} {x : Chan} {st : Status} (hst : st ≠ .lastingFault)
    (hx : s.chan c = x.launched) (hcq : 32 ≤ x.programmed.cq) :
    (s.finish c st 0 false).mem = s.mem ∧ (s.finish c st 0 false).hif.dmaFaults = s.hif.dmaFaults ∧
      (s.finish c st 0 false).chan c = x.launched.over st := by
  rw [finish_of_no_queue hst (by rw [hx]; exact hcq)]
  exact ⟨rfl, rfl, by simp [hx]⟩

section Ends

variable {s : State} {c : Fin 48} (hbad : (s.chan c).programmed.bad = false) (hcq : 32 ≤ (s.chan c).programmed.cq)
include hbad hcq

theorem State.chanGo_empty (hcount : (s.chan c).count = 0) :
    (s.chanGo c).mem = s.mem ∧ (s.chanGo c).hif.dmaFaults = s.hif.dmaFaults ∧
      (s.chanGo c).chan c = (s.chan c).launched.over .empty := by
  rw [chanGo_of_count_zero hbad hcount]
  exact finish_launched (by decide) (chan_updChan_self ..) hcq

theorem State.chanGo_windowFault (hcount : (s.chan c).count ≠ 0) {a : Nat} (h : s.windowMiss (s.chan c).programmed = some a) :
    (s.chanGo c).mem = s.mem ∧ (s.chanGo c).hif.dmaFaults = satAdd s.hif.dmaFaults 1 ∧
      (s.chanGo c).chan c = (s.chan c).launched.over .windowFault := by
  rw [chanGo_of_windowMiss hbad hcount h]
  exact finish_launched (s := (s.updChan c Chan.launched).dmaRefused a) (by decide) (chan_updChan_self ..) hcq

end Ends

/-! ### The read engine (R488) -/

/-- `t` is `s` after reads went out: no channel, queue or pulse is touched, and each new read has an allowed size. -/
structure State.IssuedFrom (s t : State) : Prop where
  frame : t = { s with dma := t.dma, wires := t.wires }
  chans : t.dma.chans = s.dma.chans
  queues : t.dma.queues = s.dma.queues
  pulses : t.dma.pulses = s.dma.pulses
  outstanding : s.dma.reads.length ≤ 64 → t.dma.reads.length ≤ 64
  sizes : ∀ r ∈ t.dma.reads, r ∈ s.dma.reads ∨ (0 < r.2 ∧ r.2 ≤ maxRead)

theorem State.IssuedFrom.refl (s : State) : IssuedFrom s s := ⟨rfl, rfl, rfl, rfl, id, fun _ => .inl⟩

theorem State.IssuedFrom.trans {s t u : State} (h₁ : IssuedFrom s t) (h₂ : IssuedFrom t u) : IssuedFrom s u where
  frame := h₂.frame.trans (congrArg (fun x : State => { x with dma := u.dma, wires := u.wires }) h₁.frame)
  chans := h₂.chans.trans h₁.chans
  queues := h₂.queues.trans h₁.queues
  pulses := h₂.pulses.trans h₁.pulses
  outstanding := h₂.outstanding ∘ h₁.outstanding
  sizes r hr := (h₂.sizes r hr).elim (h₁.sizes r) .inr

theorem State.IssuedFrom.chan {s t : State} (h : IssuedFrom s t) (c : Fin 48) : t.chan c = s.chan c :=
  congrArg (fun v => v[c]) h.chans

theorem State.wantsRead_of_readTurn {s : State} {c : Fin 48} (h : s.readTurn = some c) : s.wantsRead c = true :=
  List.find?_some h

theorem State.asked_lt_of_wantsRead {s : State} {c : Fin 48} (h : s.wantsRead c = true) :
    s.dma.asked c < (s.chan c).burstLeft := by
  simp only [wantsRead, Bool.and_eq_true, decide_eq_true_eq] at h
  obtain ⟨⟨_, hleft⟩, _⟩ := h
  exact hleft

/-- A request on the link is all that a read changes outside the list of reads. -/
theorem State.readOut_eq (s : State) (c : Fin 48) (done n : Nat) :
    s.readOut c done n = { s with wires := (s.readOut c done n).wires } := by
  simp only [readOut]
  split <;> rfl

theorem maxRead_pos : 0 < maxRead := Nat.mul_pos (by decide) (Nat.two_pow_pos _)

theorem State.issuedFrom_issueRead {s : State} {c : Fin 48} (hroom : s.dma.reads.length < 64) (hwants : s.wantsRead c = true) :
    IssuedFrom s (s.issueRead c) := by
  have hleft := asked_lt_of_wantsRead hwants
  rw [issueRead, readOut_eq]
  refine ⟨rfl, rfl, rfl, rfl, fun _ => ?_, fun r hr => ?_⟩
  · simpa using hroom
  · rcases List.mem_append.1 hr with hold | hnew
    · exact .inl hold
    · rw [List.mem_singleton.1 hnew]
      exact .inr ⟨Nat.lt_min.2 ⟨maxRead_pos, Nat.sub_pos_of_lt hleft⟩, Nat.min_le_left ..⟩

theorem State.issuedFrom_issueReads (k : Nat) (s : State) : IssuedFrom s (s.issueReads k) := by
  induction k generalizing s with
  | zero => exact .refl s
  | succ k ih =>
    rw [issueReads]
    split
    · exact .refl s
    · next hroom =>
      split
      · next c hturn => exact (issuedFrom_issueRead (by omega) (wantsRead_of_readTurn hturn)).trans (ih _)
      · exact .refl s

/-! ### The written CTRL value and its fields -/

theorem toNat_ctrlKept_cq (v : BitVec 32) : bits (v &&& 0xFFFFFFFC#32).toNat 16 6 = v.toNat / 65536 % 64 := by
  have hfield (x : BitVec 32) : x.toNat / 65536 % 64 = (x.extractLsb' 16 6).toNat := by
    rw [BitVec.extractLsb'_toNat, Nat.shiftRight_eq_div_pow]
  have hkept : (v &&& 0xFFFFFFFC#32).extractLsb' 16 6 = v.extractLsb' 16 6 := by
    rw [BitVec.extractLsb'_and]
    exact BitVec.and_allOnes
  exact (hfield _).trans ((congrArg BitVec.toNat hkept).trans (hfield v).symm)

theorem getLsbD_ctrlKept (v : BitVec 32) {i : Nat} (h : (0xFFFFFFFC#32).getLsbD i = true) :
    (v &&& 0xFFFFFFFC#32).getLsbD i = v.getLsbD i := by
  rw [BitVec.getLsbD_and, h, Bool.and_true]

theorem ctrlKept_reserved (v : BitVec 32) : v &&& 0xFFFFFFFC#32 &&& 0xFFC0F8FC#32 = v &&& 0xFFC0F8FC#32 := BitVec.and_assoc ..

/-- Check 1 of R483, said of the channel's registers and the written value. -/
theorem Chan.programmed_not_bad {x : Chan} {v : BitVec 32} (hdev : v.getLsbD 8 = true ∨ v.getLsbD 9 = true)
    (hline : ¬ (20 ≤ x.reqSel.toNat % 64 ∧ x.reqSel.toNat % 64 ≤ 31)) (hsrc : x.src.toNat + x.count.toNat ≤ 2 ^ 64)
    (hdst : x.dst.toNat + x.count.toNat ≤ 2 ^ 64) (hres : v &&& 0xFFC0F8FC#32 = 0)
    (hcq : v.toNat / 65536 % 64 ≤ 31 ∨ v.toNat / 65536 % 64 = 63) : (x.ctrlWritten v).programmed.bad = false := by
  have hfield : (x.ctrlWritten v).programmed.cq = v.toNat / 65536 % 64 := toNat_ctrlKept_cq v
  refine (Xfer.bad_eq_false_iff _).2 ⟨?_, hline, hsrc, hdst, (ctrlKept_reserved v).trans hres, by omega⟩
  exact hdev.imp (getLsbD_ctrlKept v rfl).trans (getLsbD_ctrlKept v rfl).trans

/-! ### The clauses of O15 -/

theorem exec_ctrl {s : State} (hup : s.hostUp = true) (c : Fin 32) (v : BitVec 32) :
    exec (.go c v) s = .next (s.chanWrite c 0x18 v.toNat) ∧ exec (.abort c v) s = .next (s.chanWrite c 0x18 v.toNat) := by
  have hwrite := State.bar0Write_channel hup c (o := 0x18) (by decide) (by decide) rfl v
  rw [show 0x100000 + 256 * c.val + 0x18 = 0x100018 + 256 * c.val by omega] at hwrite
  exact ⟨congrArg _ hwrite, congrArg _ hwrite⟩

theorem exec_bdStatusClear {s : State} (hup : s.hostUp = true) (c : Fin 32) (v : BitVec 32) :
    exec (.bdStatusClear c v) s = .next (s.chanWrite c 0x20 v.toNat) := by
  have hwrite := State.bar0Write_channel hup c (o := 0x20) (by decide) (by decide) rfl v
  rw [show 0x100000 + 256 * c.val + 0x20 = 0x100020 + 256 * c.val by omega] at hwrite
  exact congrArg _ hwrite

theorem exec_go_idle {c : Fin 32} {v : BitVec 32} {s : State} (hup : s.hostUp = true) (hheld : s.hif.bdAssign.getLsbD c.val = true)
    (hidle : (s.chan (hostChan c)).state = .idle) (hgo : v.getLsbD 0 = true) :
    exec (.go c v) s = .next ((s.updChan (hostChan c) (Chan.ctrlWritten v)).chanGo (hostChan c)) := by
  rw [(exec_ctrl hup c v).1, State.chanWrite_ctrl hheld, State.ctrlWrite_of_go hgo hidle]

/-- A channel that a CTRL write with `go` has made ACTIVE. -/
def Chan.started (v : BitVec 32) (x : Chan) : Chan := { (x.ctrlWritten v).launched with state := .active }

theorem exec_go_of_checks_pass {c : Fin 32} {v : BitVec 32} {s : State} (hup : s.hostUp = true)
    (hheld : s.hif.bdAssign.getLsbD c.val = true) (hidle : (s.chan (hostChan c)).state = .idle) (hgo : v.getLsbD 0 = true)
    (hbad : ((s.chan (hostChan c)).ctrlWritten v).programmed.bad = false) (hcount : (s.chan (hostChan c)).count ≠ 0)
    (hmiss : s.windowMiss ((s.chan (hostChan c)).ctrlWritten v).programmed = none) :
    exec (.go c v) s = .next ((s.updChan (hostChan c) (Chan.started v)).issueReads 64) := by
  rw [← State.chan_updChan_self s (hostChan c) (Chan.ctrlWritten v)] at hbad hmiss
  rw [exec_go_idle hup hheld hidle hgo, State.chanGo_of_checks_pass hbad (by rwa [State.chan_updChan_self]) hmiss, State.updChan_updChan]
  rfl

/-- What a started channel is and what the reads issued for it leave alone. -/
theorem State.issuedFrom_started {s t : State} {c : Fin 48} {v : BitVec 32} (h : IssuedFrom (s.updChan c (Chan.started v)) t) :
    t = { s with dma := t.dma, wires := t.wires } ∧ t.dma.queues = s.dma.queues ∧ t.dma.pulses = s.dma.pulses ∧
      (∀ k, k ≠ c → t.chan k = s.chan k) ∧ t.chan c = (s.chan c).started v :=
  ⟨h.frame, h.queues, h.pulses, fun k hk => (h.chan k).trans (chan_updChan_ne s hk _), (h.chan c).trans (chan_updChan_self ..)⟩

theorem exec_go_starts (c : Fin 32) (v : BitVec 32) (s : State) (hup : s.hostUp = true) (hheld : s.hif.bdAssign.getLsbD c.val = true) :
    let o := s.chan (hostChan c)
    o.state = .idle → v.getLsbD 0 = true → (v.getLsbD 8 = true ∨ v.getLsbD 9 = true) →
    ¬ (20 ≤ o.reqSel.toNat % 64 ∧ o.reqSel.toNat % 64 ≤ 31) → o.src.toNat + o.count.toNat ≤ 2 ^ 64 →
    o.dst.toNat + o.count.toNat ≤ 2 ^ 64 → v &&& 0xFFC0F8FC#32 = 0 →
    (v.toNat / 65536 % 64 ≤ 31 ∨ v.toNat / 65536 % 64 = 63) → o.count ≠ 0 →
    (v.getLsbD 8 = true → s.inWindow false o.src.toNat o.count.toNat = true) →
    (v.getLsbD 9 = true → s.inWindow true o.dst.toNat o.count.toNat = true) → s.dma.reads.length ≤ 64 →
    ∃ t, exec (.go c v) s = .next t ∧ t = { s with dma := t.dma, wires := t.wires } ∧
      t.dma.queues = s.dma.queues ∧ t.dma.pulses = s.dma.pulses ∧ (∀ k, k ≠ hostChan c → t.chan k = s.chan k) ∧
      t.dma.reads.length ≤ 64 ∧ (∀ r ∈ t.dma.reads, r ∈ s.dma.reads ∨ (0 < r.2 ∧ r.2 ≤ maxRead)) ∧
      let x := t.chan (hostChan c)
      x.state = .active ∧
      x.latched = { src := o.src, dst := o.dst, count := o.count, reqSel := o.reqSel, ctrl := v &&& 0xFFFFFFFC#32, user := o.user } ∧
      x.run = o.run + 1 ∧ x.moved = 0 ∧ x.burstLeft = (if o.reqSel.getLsbD 7 = true then 0 else o.count.toNat) ∧
      x.src = o.src ∧ x.dst = o.dst ∧ x.count = o.count ∧ x.reqSel = o.reqSel ∧ x.user = o.user ∧ x.lastStatus = o.lastStatus := by
  intro o hidle hgo hdev hline hsrc hdst hres hcq hcount hsrcWin hdstWin hroom
  have hbad := Chan.programmed_not_bad hdev hline hsrc hdst hres hcq
  have hmiss : s.windowMiss (o.ctrlWritten v).programmed = none :=
    State.windowMiss_eq_none (fun h => hsrcWin ((getLsbD_ctrlKept v rfl).symm.trans h))
      (fun h => hdstWin ((getLsbD_ctrlKept v rfl).symm.trans h))
  have hissued := State.issuedFrom_issueReads 64 (s.updChan (hostChan c) (Chan.started v))
  obtain ⟨hframe, hqueues, hpulses, hothers, hchan⟩ := State.issuedFrom_started hissued
  refine ⟨_, exec_go_of_checks_pass hup hheld hidle hgo hbad hcount hmiss, hframe, hqueues, hpulses, hothers,
    hissued.outstanding hroom, hissued.sizes, ?_⟩
  rw [hchan]
  exact ⟨rfl, rfl, rfl, rfl, rfl, rfl, rfl, rfl, rfl, rfl, rfl⟩

theorem exec_go_ends (c : Fin 32) (v : BitVec 32) (s : State) (hup : s.hostUp = true) (hheld : s.hif.bdAssign.getLsbD c.val = true) :
    let o := s.chan (hostChan c)
    o.state = .idle → v.getLsbD 0 = true → v.getLsbD 9 = true → v.getLsbD 8 = false → o.reqSel = 0 →
    o.src.toNat + o.count.toNat ≤ 2 ^ 64 → o.dst.toNat + o.count.toNat ≤ 2 ^ 64 → v &&& 0xFFC0F8FC#32 = 0 →
    v.toNat / 65536 % 64 = 63 → (o.count = 0 ∨ s.inWindow true o.dst.toNat o.count.toNat = false) →
    ∃ t, exec (.go c v) s = .next t ∧ (t.chan (hostChan c)).state = .idle ∧ (t.chan (hostChan c)).moved = 0 ∧ t.mem = s.mem ∧
      (t.chan (hostChan c)).lastStatus = (if o.count = 0 then Status.empty.code else Status.windowFault.code) ∧
      t.hif.dmaFaults = (if o.count = 0 then s.hif.dmaFaults else satAdd s.hif.dmaFaults 1) := by
  intro o hidle hgo hdstDev hsrcDev hreq hsrc hdst hres hcq hend
  have hbad : (o.ctrlWritten v).programmed.bad = false :=
    Chan.programmed_not_bad (.inr hdstDev) (by rw [hreq]; decide) hsrc hdst hres (.inr hcq)
  have hqueue : 32 ≤ (o.ctrlWritten v).programmed.cq := by
    rw [show (o.ctrlWritten v).programmed.cq = 63 from (toNat_ctrlKept_cq v).trans hcq]
    decide
  have hwritten : (s.updChan (hostChan c) (Chan.ctrlWritten v)).chan (hostChan c) = o.ctrlWritten v := State.chan_updChan_self ..
  rw [← hwritten] at hbad hqueue
  refine ⟨_, exec_go_idle hup hheld hidle hgo, ?_⟩
  by_cases hcount : o.count = 0
  · obtain ⟨hmem, hfaults, hchan⟩ := State.chanGo_empty hbad hqueue (by rw [hwritten]; exact hcount)
    rw [hchan, if_pos hcount, if_pos hcount]
    exact ⟨rfl, rfl, hmem, rfl, hfaults⟩
  · have hmiss : s.windowMiss (o.ctrlWritten v).programmed = some o.dst.toNat :=
      State.windowMiss_of_dst ((getLsbD_ctrlKept v rfl).trans hsrcDev) ((getLsbD_ctrlKept v rfl).trans hdstDev)
        (hend.resolve_left hcount)
    rw [← hwritten] at hmiss
    obtain ⟨hmem, hfaults, hchan⟩ := State.chanGo_windowFault hbad hqueue (by rw [hwritten]; exact hcount) hmiss
    rw [hchan, if_neg hcount, if_neg hcount]
    exact ⟨rfl, rfl, hmem, rfl, hfaults⟩

theorem exec_abort_no_go (c : Fin 32) (v : BitVec 32) (s : State) (hup : s.hostUp = true)
    (hheld : s.hif.bdAssign.getLsbD c.val = true) (hgo : v.getLsbD 0 = false) (habort : v.getLsbD 1 = true) :
    exec (.abort c v) s = .next (s.updChan (hostChan c) (fun x => { x with
      ctrl := v &&& 0xFFFFFFFC#32, abortWanted := x.abortWanted || (x.state == .active) })) := by
  have hmark : Chan.ctrlWritten v = fun x : Chan => { x with
      ctrl := v &&& 0xFFFFFFFC#32, abortWanted := x.abortWanted || (x.state == .active) } := by
    funext x
    rw [Chan.ctrlWritten, habort, Bool.true_and]
  rw [(exec_ctrl hup c v).2, State.chanWrite_ctrl hheld, State.ctrlWrite_of_no_go hgo, hmark]

theorem exec_bdStatusClear_held (c : Fin 32) (v : BitVec 32) (s : State) (hup : s.hostUp = true)
    (hheld : s.hif.bdAssign.getLsbD c.val = true) :
    exec (.bdStatusClear c v) s = .next (s.updChan (hostChan c) (fun x => { x with
      drqOverflow := x.drqOverflow && !v.getLsbD 16, goIgnored := x.goIgnored && !v.getLsbD 17 })) := by
  rw [exec_bdStatusClear hup, State.chanWrite_status hheld]
  rfl

theorem exec_channel_not_held (c : Fin 32) (v : BitVec 32) (s : State) (hup : s.hostUp = true)
    (hheld : s.hif.bdAssign.getLsbD c.val = false) :
    exec (.abort c v) s = .next (s.setGlobalFault 7) ∧ exec (.bdStatusClear c v) s = .next (s.setGlobalFault 7) ∧
    exec (.go c v) s = .next (s.setGlobalFault 7) := by
  rw [(exec_ctrl hup c v).1, (exec_ctrl hup c v).2, exec_bdStatusClear hup, State.chanWrite_of_not_held hheld,
    State.chanWrite_of_not_held hheld]
  exact ⟨rfl, rfl, rfl⟩

/-- Settles O15: a register write reaches its channel, and `go` takes the branch of R483 that its checks give it. -/
theorem channelRegistersComplete : Obligations.ChannelRegistersComplete :=
  ⟨exec_go_starts, exec_go_ends, exec_abort_no_go, exec_bdStatusClear_held, exec_channel_not_held⟩

end Sys2Proof.Machine
end

section
/-! PROOF. The step and its queue (02 R29; 17 R421): O1. What several chapters share: a request that is executed, one element of an
array of rows, and the line buffer's feeding (07 R158, 13 R310). -/

namespace Sys2Proof.Machine

/-- Settles O1: both branches of `step`. That an empty queue idles for 4 ns is the model's choice (log 2). -/
theorem stepRunsTheFrontCommand : Obligations.StepRunsTheFrontCommand := by
  refine ⟨fun c rest s h => ?_, fun s h => ?_⟩
  · rw [step, h]
  · unfold step
    split
    next => rw [State.at, max_eq_right (Nat.le_add_right _ _), ns]
    next c rest hcons => exact absurd (h.symm.trans hcons) (List.cons_ne_nil c rest).symm

theorem serve_of_fresh {c : Cmd} {q : Req} {s : State} (h : Claims.Fresh c.opcode q s) (hl : c.okLen q.payload.length = true) :
    serve c q s = (c.run q (s.start q c.opcode)).deliver q c.opcode := by
  obtain ⟨hpermitted, hlength, hretry⟩ := h
  exact serve_executed hpermitted hlength hretry hl

/-! ### Relations that every step of an operation keeps -/

theorem foldl_rel {α : Type} {R : State → State → Prop} (hrefl : ∀ s, R s s) (htrans : ∀ {s t u}, R s t → R t u → R s u)
    {f : State → α → State} (h : ∀ s a, R s (f s a)) (l : List α) (s : State) : R s (l.foldl f s) := by
  induction l generalizing s with
  | nil => exact hrefl s
  | cons a l ih => exact htrans (h s a) (ih (f s a))

theorem ite_rel {R : State → State → Prop} {s t u : State} {c : Prop} [Decidable c] (ht : R s t) (hu : R s u) :
    R s (if c then t else u) :=
  iteInduction (fun _ => ht) (fun _ => hu)

/-! ### One element of an array -/

@[simp] theorem getElem_upd_self {α : Type} {n : Nat} (v : Vector α n) (i : Fin n) (f : α → α) : (upd v i f)[i] = f v[i] :=
  Vector.getElem_set_self i.isLt

theorem getElem_upd_ne {α : Type} {n : Nat} (v : Vector α n) {i k : Fin n} (h : k ≠ i) (f : α → α) : (upd v i f)[k] = v[k] :=
  Vector.getElem_set_ne i.isLt k.isLt (fun hv => h (Fin.ext hv.symm))

/-- What an update leaves of one element, it leaves of every element. -/
theorem getElem_upd_keep {α β : Type} {n : Nat} {v : Vector α n} {i : Fin n} {f : α → α} {g : α → β} (hf : g (f v[i]) = g v[i])
    (k : Fin n) : g (upd v i f)[k] = g v[k] := by
  by_cases h : k = i
  · rw [h, getElem_upd_self, hf]
  · rw [getElem_upd_ne v h]

/-! ### What feeding the lines leaves alone -/

/-- Copying, pouring and withholding lines leaves the line starts, the wires, every row's pulses and the line fired last as they
are; FSV is told more and forgets nothing. -/
structure LinesFed (s u : State) : Prop where
  lsd : u.lsd = s.lsd
  wires : u.wires = s.wires
  pulses : ∀ k : Fin 16, (u.rows[k]).pulses = (s.rows[k]).pulses
  lastFired : ∀ k : Fin 16, (u.rows[k]).lastFired = (s.rows[k]).lastFired
  inbox : s.fsv.inbox ⊆ u.fsv.inbox

namespace LinesFed

theorem refl (s : State) : LinesFed s s := ⟨rfl, rfl, fun _ => rfl, fun _ => rfl, fun _ => id⟩

theorem trans {s t u : State} (h₁ : LinesFed s t) (h₂ : LinesFed t u) : LinesFed s u where
  lsd := h₂.lsd.trans h₁.lsd
  wires := h₂.wires.trans h₁.wires
  pulses k := (h₂.pulses k).trans (h₁.pulses k)
  lastFired k := (h₂.lastFired k).trans (h₁.lastFired k)
  inbox := List.Subset.trans h₁.inbox h₂.inbox

theorem foldl {α : Type} {f : State → α → State} (h : ∀ s a, LinesFed s (f s a)) (l : List α) (s : State) :
    LinesFed s (l.foldl f s) :=
  foldl_rel refl trans h l s

theorem of_rows_eq {s t u : State} (h : LinesFed s t) (hlsd : u.lsd = t.lsd := by rfl) (hwires : u.wires = t.wires := by rfl)
    (hrows : u.rows = t.rows := by rfl) (hinbox : t.fsv.inbox ⊆ u.fsv.inbox := by exact fun _ => id) : LinesFed s u :=
  h.trans ⟨hlsd, hwires, fun _ => by rw [hrows], fun _ => by rw [hrows], hinbox⟩

section Then

variable {s t : State} (h : LinesFed s t)
include h

theorem updRow {r : Fin 16} {f : SpcRow → SpcRow} (hp : (f t.rows[r]).pulses = t.rows[r].pulses := by rfl)
    (hl : (f t.rows[r]).lastFired = t.rows[r].lastFired := by rfl) : LinesFed s (t.updRow r f) :=
  h.trans ⟨rfl, rfl, getElem_upd_keep hp, getElem_upd_keep hl, fun _ => id⟩

theorem foldl_updTx (l : List (Fin 32)) (f : Fin 32 → TxLane → TxLane) : LinesFed s (l.foldl (fun s h => s.updTx h (f h)) t) :=
  h.trans (.foldl (fun s _ => (LinesFed.refl s).of_rows_eq) l t)

theorem post (code : BitVec 16) (cls : Fin 4) (data : List DataField) : LinesFed s (t.post code cls data) := h.of_rows_eq

theorem tellFsv (i : FsvItem) : LinesFed s (t.tellFsv i) := h.of_rows_eq (hinbox := List.subset_append_left _ _)

theorem wasteMark (r : Fin 16) (first last : Nat) (cause : Byte) : LinesFed s (t.wasteMark r first last cause) := h.tellFsv _

theorem detect (d : Detect) : LinesFed s (t.detect d) := h.tellFsv _

end Then

end LinesFed

theorem State.linesFed_dramSingle (s : State) (addr : Nat) (bit : Fin 72) (again : Bool) (reader : MemReader) :
    LinesFed s (s.dramSingle addr bit again reader) := by
  unfold dramSingle
  dsimp only
  split
  · exact ((LinesFed.refl s).of_rows_eq.post ..).detect _
  · exact (LinesFed.refl s).of_rows_eq.detect _

theorem State.linesFed_readSingles (s : State) (reader : MemReader) (a n : Nat) : LinesFed s (s.readSingles reader a n) := by
  unfold readSingles
  refine .foldl (fun t c => ?_) _ s
  exact t.linesFed_dramSingle ..

theorem State.linesFed_poisonLasting_fsq (s : State) (addr : Nat) : LinesFed s (s.poisonLasting addr .fsq) := by
  unfold poisonLasting
  dsimp only
  split
  next r n _ =>
    split
    · exact .refl s
    · exact ((LinesFed.refl s).updRow (r := r)).wasteMark ..
  next => exact .refl s

theorem State.linesFed_dramDouble_fsq (s : State) (addr : Nat) (again : Bool) : LinesFed s (s.dramDouble addr again .fsq) := by
  have hcounted (m : Miu) (kind cls reader : Nat) (inj : Bool) (d : Detect) :
      LinesFed s (({ s with miu := m }.memEccNow 0 (wordOf addr) kind cls reader inj).detect d) :=
    ((LinesFed.refl s).of_rows_eq.post ..).detect d
  unfold dramDouble
  dsimp only
  split
  · exact (hcounted ..).trans (linesFed_poisonLasting_fsq ..)
  · exact hcounted ..

theorem State.linesFed_copyLine (s : State) (r : Fin 16) (n : Nat) : LinesFed s (s.copyLine r n) := by
  unfold copyLine
  split
  next a _ =>
    split
    · exact .refl s
    · split
      · exact s.linesFed_dramDouble_fsq ..
      · have hread : LinesFed s ((s.readSingles .fsq (ringSlot r n) 0x2000).readSingles .fsq (descSlot r n) 128) :=
          (s.linesFed_readSingles ..).trans (linesFed_readSingles ..)
        let slot : BufLine := { data := a, poured := false, lo := HalfSend.fresh, hi := HalfSend.fresh }
        exact (hread.updRow (r := r) (f := fun x => { x with buffer := x.buffer ++ [slot] })).of_rows_eq
  next => exact .refl s

theorem State.linesFed_noteWithheld (s : State) (r : Fin 16) (n : Nat) (reason cause : Byte) :
    LinesFed s (s.noteWithheld r n reason cause) := by
  unfold noteWithheld
  split
  · exact .refl s
  · exact (LinesFed.refl s).updRow.wasteMark ..

theorem State.linesFed_withholdPour (s : State) (r : Fin 16) (n : Nat) (reason cause : Byte) :
    LinesFed s (s.withholdPour r n reason cause) :=
  (s.linesFed_noteWithheld r n reason cause).foldl_updTx _ _

theorem State.linesFed_dryPost (s : State) (r : Fin 16) : LinesFed s (s.dryPost r) := by
  unfold dryPost
  dsimp only
  split
  next => exact ite_rel ((LinesFed.refl s).updRow.post ..) (.refl s)
  next => exact .refl s

theorem State.linesFed_replayLate (s : State) (r : Fin 16) : LinesFed s (s.replayLate r) := by
  unfold replayLate
  split
  next =>
    split
    · exact (LinesFed.refl s).updRow.post ..
    · exact .refl s
  next => exact .refl s

theorem State.linesFed_notAgreed (s : State) (r : Fin 16) (n : Nat) : LinesFed s (s.notAgreed r n) := by
  have hlate : LinesFed s ((s.withholdPour r n 0 0x01).updRow r (fun x => { x with lateLines := satAdd x.lateLines 1 })) :=
    (s.linesFed_withholdPour ..).updRow
  unfold notAgreed
  dsimp only
  split
  · exact hlate.updRow
  · exact hlate.updRow.trans (linesFed_dryPost ..)

theorem State.linesFed_pourLine (s : State) (r : Fin 16) (n : Nat) : LinesFed s (s.pourLine r n) := by
  unfold pourLine
  dsimp only
  split
  · exact .refl s
  · split
    · exact (LinesFed.refl s).foldl_updTx _ _
    · split
      · exact s.linesFed_withholdPour ..
      · split
        · exact s.linesFed_notAgreed r n
        · split
          · exact s.linesFed_withholdPour ..
          · split
            · exact s.linesFed_withholdPour ..
            · exact ((LinesFed.refl s).updRow.foldl_updTx _ _).trans (linesFed_replayLate ..)

theorem State.linesFed_advanceBuffer (s : State) (r : Fin 16) (n : Nat) : LinesFed s (s.advanceBuffer r n) :=
  ((LinesFed.refl s).updRow.trans (linesFed_pourLine ..)).trans (linesFed_copyLine ..)

end Sys2Proof.Machine
end

section
/-! PROOF. STROBE_CONFIG, FIRE_INHIBIT, the strobe pulse and its readback (02 R47; 14 R331, R334 to R336, R348): O35. -/

namespace Sys2Proof.Machine

/-! ### STROBE_CONFIG (R348) -/

/-- The payload of STROBE_CONFIG for a row byte, a polarity and a width. -/
def strobePayload (b : Byte) (inv : Bool) (w : Nat) : List Byte := [b, if inv then 1 else 0] ++ le 2 w ++ [0, 0, 0, 0]

theorem strobePayload_fields (b : Byte) (inv : Bool) {w : Nat} (hw : w ≤ 2000) :
    fld (strobePayload b inv w) 0 1 = b.toNat ∧ fld (strobePayload b inv w) 1 1 = b2n inv ∧ fld (strobePayload b inv w) 2 2 = w ∧
      zeros (strobePayload b inv w) 4 4 = true ∧ (strobePayload b inv w).length = 8 := by
  refine ⟨fld_one _ 0, ?_, ?_, rfl, rfl⟩
  · rw [fld_one]
    cases inv <;> rfl
  · rw [strobePayload, List.append_assoc]
    exact (fld_append _ _ 0 2).trans ((fld_le 2 w _).trans (Nat.mod_eq_of_lt (by omega)))

/-- What STROBE_CONFIG sets in a row. -/
def SpcRow.strobeSet (inv : Bool) (w : Nat) (x : SpcRow) : SpcRow := { x with invert := inv, widthH := w }

theorem run_strobeConfig {q : Req} {s : State} {b : Byte} {inv : Bool} {w : Nat} (hb : b = 0xFF ∨ b.toNat ≤ 15)
    (hunarmed : s.armed = false) (hlo : 40 ≤ w) (hhi : w ≤ 2000) (hp : q.payload = strobePayload b inv w) :
    cmdStrobeConfig.run q s = Claims.ok (if b.toNat = 0xFF then { s with rows := s.rows.map (SpcRow.strobeSet inv w) }
      else s.updRow (Fin.ofNat 16 b.toNat) (SpcRow.strobeSet inv w)) := by
  obtain ⟨hrow, hinv, hwidth, hzero, _⟩ := strobePayload_fields b inv hhi
  have hset : (fun x : SpcRow => { x with invert := bit (b2n inv) 0, widthH := w }) = SpcRow.strobeSet inv w := by
    cases inv <;> rfl
  have hrange : (b.toNat != 0xFF && decide (15 < b.toNat)) = false := by
    rcases hb with rfl | hb
    · rfl
    · simp [Nat.not_lt.2 hb]
  have hle : b2n inv ≤ 1 := by cases inv <;> decide
  simp only [cmdStrobeConfig, hp, hrow, hinv, hwidth, hzero, hrange, hset]
  rw [checks_pass]
  · rfl
  · simp [hunarmed, Nat.not_lt.2 hle, Nat.not_lt.2 hlo, Nat.not_lt.2 hhi]

theorem exec_strobeConfig {q : Req} {s : State} {b : Byte} {inv : Bool} {w : Nat} (hq : Claims.Fresh 0x0500 q s)
    (hp : q.payload = strobePayload b inv w) :
    exec (.strobeConfig q) s = .next ((cmdStrobeConfig.run q (s.start q 0x0500)).deliver q 0x0500) :=
  congrArg _ (serve_of_fresh hq (by rw [hp]; rfl))

theorem exec_strobeConfig_row (q : Req) (s : State) (r : Fin 16) (inv : Bool) (w : Nat) (hq : Claims.Fresh 0x0500 q s)
    (hunarmed : s.armed = false) (hlo : 40 ≤ w) (hhi : w ≤ 2000)
    (hp : q.payload = [BitVec.ofNat 8 r.val, if inv then 1 else 0] ++ le 2 w ++ [0, 0, 0, 0]) :
    exec (.strobeConfig q) s = .next ((Claims.ok { s.start q 0x0500 with
      rows := upd s.rows r (fun x => { x with invert := inv, widthH := w }) }).deliver q 0x0500) := by
  have hr : (BitVec.ofNat 8 r.val).toNat = r.val := by
    rw [BitVec.toNat_ofNat]
    exact Nat.mod_eq_of_lt (by omega)
  rw [exec_strobeConfig hq hp, run_strobeConfig (.inr (by omega)) (by exact hunarmed) hlo hhi hp, hr, if_neg (by omega),
    Fin.ofNat_val_eq_self]
  rfl

theorem exec_strobeConfig_all (q : Req) (s : State) (inv : Bool) (w : Nat) (hq : Claims.Fresh 0x0500 q s)
    (hunarmed : s.armed = false) (hlo : 40 ≤ w) (hhi : w ≤ 2000)
    (hp : q.payload = [0xFF, if inv then 1 else 0] ++ le 2 w ++ [0, 0, 0, 0]) :
    exec (.strobeConfig q) s = .next ((Claims.ok { s.start q 0x0500 with
      rows := s.rows.map (fun x => { x with invert := inv, widthH := w }) }).deliver q 0x0500) := by
  rw [exec_strobeConfig hq hp, run_strobeConfig (.inl rfl) (by exact hunarmed) hlo hhi hp]
  rfl

/-! ### FIRE_INHIBIT and INHIBIT_TEST (R336) -/

theorem exec_fireInhibit (level : Bool) (edge t : Nat) (s : State) : exec (.fireInhibit level edge t) s = .next
    (if edge + 200 * 2 ^ 32 ≤ max s.aon t then { s.at t with job := { s.job with fireInhibit := level } } else s.at t) := rfl

theorem exec_inhibitTest_idle (r : Fin 16) (t : Nat) (s : State)
    (h : s.job.fireInhibit = false ∨ (s.rows[r]).nextPulse = none) : exec (.inhibitTest r t) s = .next (s.at t) := by
  change execInhibitTest r t s = _
  unfold execInhibitTest
  dsimp only
  split
  next p hp =>
    have hlow : s.job.fireInhibit = false := h.resolve_right (fun hnone => Option.some_ne_none p (hp.symm.trans hnone))
    simp [hlow]
  next => rfl

theorem State.recapture_eq (s : State) (r : Fin 16) (n : Nat) :
    s.recapture r n = { s with mem := (s.recapture r n).mem, miu := (s.recapture r n).miu } := by
  unfold recapture
  split
  · rfl
  · rfl

/-- A withdrawn pulse is gone from its row and its line is marked (R336). -/
theorem State.cancelPulse_spec (s : State) (r : Fin 16) (p : Pulse) (cause : Byte) :
    (∀ x ∈ ((s.cancelPulse r p cause).rows[r]).pulses, x.emitted = true ∨ x.line ≠ p.line) ∧
      .mark r p.line p.line cause s.aon ∈ (s.cancelPulse r p cause).fsv.inbox ∧ (s.cancelPulse r p cause).wires = s.wires := by
  unfold cancelPulse
  dsimp only
  rw [recapture_eq]
  refine ⟨fun x hx => ?_, ?_, (linesFed_advanceBuffer ..).wires⟩
  · rw [(linesFed_advanceBuffer ..).pulses r] at hx
    simp only [wasteMark_rows, updLsd_rows, updRow_value, getElem_upd_self, List.mem_filter] at hx
    simpa using hx.2
  · refine (linesFed_advanceBuffer ..).inbox ?_
    exact List.mem_append_right _ (List.mem_singleton_self _)

theorem exec_inhibitTest_asserted (r : Fin 16) (t : Nat) (s : State) (p : Pulse) (hp : (s.rows[r]).nextPulse = some p)
    (hinhibit : s.job.fireInhibit = true) (hdue : p.ts ≤ max s.aon t / 2 ^ 31 + 100) :
    ∃ u, exec (.inhibitTest r t) s = .next u ∧ (∀ x ∈ (u.rows[r]).pulses, x.emitted = true ∨ x.line ≠ p.line) ∧
      .mark r p.line p.line 0x0C (max s.aon t) ∈ u.fsv.inbox ∧ Claims.Strobes u = Claims.Strobes s := by
  have hrun : exec (.inhibitTest r t) s = .next ((s.at t).cancelPulse r p 0x0C) := by
    change execInhibitTest r t s = _
    simp only [execInhibitTest, State.at_rows, hp, State.at_job, hinhibit, State.halfNs, State.at_aon, hdue,
      decide_true, Bool.and_self, if_true]
  obtain ⟨hgone, hmark, hwires⟩ := (s.at t).cancelPulse_spec r p 0x0C
  exact ⟨_, hrun, hgone, hmark, congrArg (List.filter Claims.isStrobe) hwires⟩

/-! ### The pulse (R331) -/

theorem State.countUsage_kept (s : State) (r : Fin 16) (bytes : List Byte) :
    (s.countUsage r bytes).wires = s.wires ∧ (s.countUsage r bytes).rows = s.rows := by
  unfold countUsage
  refine ⟨foldl_wires _ _ s fun t i => ?_, foldl_rows _ _ s fun t i => ?_⟩
  · dsimp only
    rw [ite_wires, updHead_wires, ite_self]
  · dsimp only
    rw [ite_rows, updHead_rows, ite_self]

/-- The pulse is out, and its line is the one fired last (R331). -/
theorem State.firePulse_spec (s : State) (r : Fin 16) (p : Pulse) :
    (s.firePulse r p).wires = .strobe r p.line p.ts (s.rows[r]).widthH (s.rows[r]).invert :: s.wires ∧
      ((s.firePulse r p).rows[r]).lastFired = some p.line := by
  unfold firePulse
  dsimp only
  rw [(linesFed_advanceBuffer ..).wires, (linesFed_advanceBuffer ..).lastFired r, updRow_wires, (countUsage_kept ..).1, updRow_value,
    getElem_upd_self]
  exact ⟨rfl, rfl⟩

theorem exec_fireStrobe_due (r : Fin 16) (t : Nat) (s : State) (p : Pulse) (hp : (s.rows[r]).nextPulse = some p)
    (hdue : p.ts ≤ max s.aon t / 2 ^ 31) (hon : (s.rows[r]).strobeOff = false) (hpower : s.fsv.power = false) :
    ∃ u, exec (.fireStrobe r t) s = .next u ∧
      Claims.Strobes u = .strobe r p.line p.ts (s.rows[r]).widthH (s.rows[r]).invert :: Claims.Strobes s ∧
      (u.rows[r]).lastFired = some p.line := by
  have hrun : exec (.fireStrobe r t) s = .next ((s.at t).firePulse r p) := by
    change execFireStrobe r t s = _
    simp only [execFireStrobe, State.at_rows, hp, State.halfNs, State.at_aon, Nat.not_lt.2 hdue, State.at_fsv, hpower, hon, if_false,
      Bool.false_eq_true]
  obtain ⟨hwires, hfired⟩ := (s.at t).firePulse_spec r p
  exact ⟨_, hrun, by rw [Claims.Strobes, hwires]; rfl, hfired⟩

/-! ### Readback (R334, R335) -/

theorem exec_strobeReadback (r : Fin 16) (e : PadEdge) (t : Nat) (s : State) :
    exec (.strobeReadback r e t) s = .next ((s.at t).readback r e) := rfl

theorem exec_strobeReadback_clean (r : Fin 16) (rise width t : Nat) (s : State) (p : Pulse)
    (hp : (s.rows[r]).pulses.find? (fun x => x.emitted && x.meets (s.rows[r]).widthH rise width) = some p)
    (h₁ : p.ts ≤ rise + 4) (h₂ : rise ≤ p.ts + 4) (h₃ : (s.rows[r]).widthH ≤ width + 4) (h₄ : width ≤ (s.rows[r]).widthH + 4)
    (hnone : (s.rows[r]).strobePending = none) :
    exec (.strobeReadback r (.pulse rise width) t) s = .next ((s.at t).updRow r (fun x => { x with
      pulses := x.pulses.filter (fun y => !(y.emitted && y.line == p.line)) })) := by
  have hnear : |(rise : Int) - p.ts| ≤ 4 ∧ |(width : Int) - (s.rows[r]).widthH| ≤ 4 := by
    rw [abs_le, abs_le]
    omega
  have hclean : (((s.at t).judged r p).rows[r]).strobePending = none := by
    rw [State.judged, State.updRow_value, getElem_upd_self]
    exact hnone
  rw [exec_strobeReadback, State.readback]
  simp only [State.at_rows, hp, hnear, and_self, if_true, State.strobeClean, hclean]
  rfl

/-- What a strobe fault of line `line` tells FSV: the mark of a line, and then the detection. -/
def strobeTold (r : Fin 16) (mark : Option Nat) (d : Detect) (at_ : Nat) : List FsvItem :=
  mark.toList.map (fun n => .mark r n n 0x0B at_) ++ [.detect d at_]

/-- A first strobe fault of a row is pending (R335). -/
theorem State.strobeFault_first {s : State} {r : Fin 16} (hnone : (s.rows[r]).strobePending = none) (line kind : Nat)
    (mark : Option Nat) (offset : Int) (width : Nat) :
    let u := s.strobeFault r line kind mark offset width
    u.rows = upd s.rows r (fun x => { x with strobePending := some (line, BitVec.ofNat 8 kind) }) ∧ Claims.Posts s u [0x02C0] ∧
      Claims.Tells s u (strobeTold r mark (strobeDetect r line .pending) s.aon) := by
  cases mark with
  | none =>
    simp only [strobeFault, hnone]
    exact ⟨rfl, List.map_append, rfl⟩
  | some n =>
    simp only [strobeFault, wasteMark_rows, hnone]
    exact ⟨rfl, List.map_append, List.append_assoc ..⟩

/-- A missing or misplaced strobe while a fault is pending makes it lasting (R335). -/
theorem State.strobeFault_again {s : State} {r : Fin 16} (hsome : (s.rows[r]).strobePending.isSome = true) {kind : Nat} (hkind : kind ≠ 2)
    (line : Nat) (mark : Option Nat) (offset : Int) (width : Nat) :
    let u := s.strobeFault r line kind mark offset width
    u.rows = upd s.rows r (fun x => { x with strobeOff := true, strobePending := none }) ∧ Claims.Posts s u [0x02C0] ∧
      Claims.Tells s u (strobeTold r mark { strobeDetect r line .detected with first := (s.lsd.rows[r]).next } s.aon) := by
  obtain ⟨f, hf⟩ := Option.isSome_iff_exists.1 hsome
  cases mark with
  | none =>
    simp only [strobeFault, hf, if_neg hkind]
    exact ⟨rfl, List.map_append, rfl⟩
  | some n =>
    simp only [strobeFault, wasteMark_rows, hf, if_neg hkind]
    exact ⟨rfl, List.map_append, List.append_assoc ..⟩

theorem exec_strobeReadback_extra (r : Fin 16) (rise width t : Nat) (s : State)
    (hp : (s.rows[r]).pulses.any (fun x => x.emitted && x.meets (s.rows[r]).widthH rise width) = false)
    (hnone : (s.rows[r]).strobePending = none) :
    ∃ u, exec (.strobeReadback r (.pulse rise width) t) s = .next u ∧ (u.rows[r]).pulses = (s.rows[r]).pulses ∧
      (u.rows[r]).strobePending = some (((s.rows[r]).lastFire.map (·.1)).getD 0, 2) ∧ Claims.Posts s u [0x02C0] := by
  have hmiss : (s.rows[r]).pulses.find? (fun x => x.emitted && x.meets (s.rows[r]).widthH rise width) = none := by
    rw [List.find?_eq_none]
    exact fun x hx => List.any_eq_false.1 hp x hx
  have hextra : ∃ mark, (s.at t).readback r (.pulse rise width) =
      (s.at t).strobeFault r (((s.rows[r]).lastFire.map (·.1)).getD 0) 2 mark 0 width := by
    rw [State.readback]
    simp only [State.at_rows, hmiss, State.strobeExtra]
    rcases (s.rows[r]).lastFire with _ | ⟨n, _ | _⟩
    · exact ⟨none, rfl⟩
    · exact ⟨some n, rfl⟩
    · exact ⟨none, rfl⟩
  obtain ⟨mark, hmark⟩ := hextra
  obtain ⟨hrows, hposts, _⟩ := State.strobeFault_first (s := s.at t) hnone (((s.rows[r]).lastFire.map (·.1)).getD 0) 2 mark 0 width
  refine ⟨_, (exec_strobeReadback ..).trans (congrArg _ hmark), ?_, ?_, hposts⟩
  · rw [hrows, getElem_upd_self]
    rfl
  · rw [hrows, getElem_upd_self]
    rfl

section Missing

variable (r : Fin 16) (t : Nat) (s : State) (p : Pulse)
  (hp : (s.rows[r]).pulses.find? (fun x => x.emitted && decide (x.ts + (s.rows[r]).widthH + 20 ≤ max s.aon t / 2 ^ 31)) = some p)
include hp

theorem exec_strobeReadback_absent :
    exec (.strobeReadback r .absent t) s = .next (((s.at t).judged r p).strobeFault r p.line 0 (some p.line) 0 0) := by
  have hfind : ((s.at t).rows[r]).pulses.find?
      (fun x => x.emitted && decide (x.ts + ((s.at t).rows[r]).widthH + 20 ≤ (s.at t).halfNs)) = some p := hp
  rw [exec_strobeReadback, State.readback]
  simp only [hfind]

theorem exec_strobeReadback_missing (hnone : (s.rows[r]).strobePending = none) :
    ∃ u d, exec (.strobeReadback r .absent t) s = .next u ∧ (u.rows[r]).strobePending = some (p.line, 0) ∧
      (u.rows[r]).strobeOff = (s.rows[r]).strobeOff ∧ Claims.Posts s u [0x02C0] ∧
      Claims.Tells s u [.mark r p.line p.line 0x0B (max s.aon t), .detect d (max s.aon t)] ∧ d.outcome = .pending := by
  have hjudged : (((s.at t).judged r p).rows[r]).strobePending = none := by
    rw [State.judged, State.updRow_value, getElem_upd_self]
    exact hnone
  obtain ⟨hrows, hposts, htells⟩ := State.strobeFault_first hjudged p.line 0 (some p.line) 0 0
  refine ⟨_, _, exec_strobeReadback_absent r t s p hp, ?_, ?_, hposts, htells, rfl⟩
  · rw [hrows, getElem_upd_self]
    rfl
  · rw [hrows, getElem_upd_self, State.judged, State.updRow_value, getElem_upd_self]
    rfl

theorem exec_strobeReadback_missing_again (hsome : (s.rows[r]).strobePending.isSome = true) :
    ∃ u d, exec (.strobeReadback r .absent t) s = .next u ∧ (u.rows[r]).strobePending = none ∧ (u.rows[r]).strobeOff = true ∧
      Claims.Posts s u [0x02C0] ∧ Claims.Tells s u [.mark r p.line p.line 0x0B (max s.aon t), .detect d (max s.aon t)] ∧
      d.outcome = .detected ∧ d.stops = true := by
  have hjudged : (((s.at t).judged r p).rows[r]).strobePending.isSome = true := by
    rw [State.judged, State.updRow_value, getElem_upd_self]
    exact hsome
  obtain ⟨hrows, hposts, htells⟩ := State.strobeFault_again hjudged (kind := 0) (by decide) p.line (some p.line) 0 0
  refine ⟨_, _, exec_strobeReadback_absent r t s p hp, ?_, ?_, hposts, htells, rfl, rfl⟩
  · rw [hrows, getElem_upd_self]
  · rw [hrows, getElem_upd_self]

end Missing

/-- Settles O35: each clause by the branch its command takes; a withdrawn or emitted pulse frees its line's buffer slot, which
leaves pulses, marks and wires alone (`State.linesFed_advanceBuffer`). -/
theorem strobesComplete : Obligations.StrobesComplete :=
  ⟨exec_strobeConfig_row, exec_strobeConfig_all, exec_fireInhibit, exec_inhibitTest_idle, exec_inhibitTest_asserted, exec_fireStrobe_due,
    exec_strobeReadback_clean, exec_strobeReadback_extra, exec_strobeReadback_missing, exec_strobeReadback_missing_again⟩

end Sys2Proof.Machine
end

section
/-! PROOF. WEB_CONFIG, ROW_GEOMETRY, WEB_STATUS and the line start (02 R29, R35, R36, R41, R52 to R54): O31. -/

namespace Sys2Proof.Machine

/-! ### An edge takes effect (R29, R44, R45, R48) -/

/-- What edges that take effect leave alone: time, job, rows, device memory, the origin and the next line of every row. -/
structure EdgesTaken (s u : State) : Prop where
  aon : u.aon = s.aon
  job : u.job = s.job
  rows : u.rows = s.rows
  mem : u.mem = s.mem
  origin : u.lsd.origin = s.lsd.origin
  next : ∀ k : Fin 16, (u.lsd.rows[k]).next = (s.lsd.rows[k]).next

namespace EdgesTaken

theorem refl (s : State) : EdgesTaken s s := ⟨rfl, rfl, rfl, rfl, rfl, fun _ => rfl⟩

theorem trans {s t u : State} (h₁ : EdgesTaken s t) (h₂ : EdgesTaken t u) : EdgesTaken s u where
  aon := h₂.aon.trans h₁.aon
  job := h₂.job.trans h₁.job
  rows := h₂.rows.trans h₁.rows
  mem := h₂.mem.trans h₁.mem
  origin := h₂.origin.trans h₁.origin
  next k := (h₂.next k).trans (h₁.next k)

theorem foldl {α : Type} {f : State → α → State} (h : ∀ s a, EdgesTaken s (f s a)) (l : List α) (s : State) :
    EdgesTaken s (l.foldl f s) :=
  foldl_rel refl trans h l s

/-- An update of the detector's other fields, or an event. -/
theorem of_lsd {s u : State} (haon : u.aon = s.aon := by rfl) (hjob : u.job = s.job := by rfl) (hrows : u.rows = s.rows := by rfl)
    (hmem : u.mem = s.mem := by rfl) (horigin : u.lsd.origin = s.lsd.origin := by rfl)
    (hlines : u.lsd.rows = s.lsd.rows := by rfl) : EdgesTaken s u :=
  ⟨haon, hjob, hrows, hmem, horigin, fun _ => by rw [hlines]⟩

end EdgesTaken

theorem State.edgesTaken_speedEval (s : State) : EdgesTaken s s.speedEval := by
  unfold speedEval
  exact ite_rel (.refl s) (ite_rel (.refl s) .of_lsd)

theorem State.edgesTaken_reverseOpenRow (s : State) (r : Fin 16) : EdgesTaken s (s.reverseOpenRow r) := by
  have hopen (begun : Bool) : EdgesTaken s (s.updLsd r (fun y => { y with reverseOpen := true, reverseBegun := begun })) :=
    ⟨rfl, rfl, rfl, rfl, rfl, fun k => getElem_upd_keep (g := LsdRow.next) rfl k⟩
  unfold reverseOpenRow
  dsimp only
  split
  · exact (hopen _).trans .of_lsd
  · exact (hopen _).trans .of_lsd
  · exact hopen _

theorem State.edgesTaken_motionEval (s : State) (tick : Nat) : EdgesTaken s (s.motionEval tick) := by
  have hreversed (t : State) (ht : EdgesTaken s t) (rows : List (Fin 16)) : EdgesTaken s (rows.foldl reverseOpenRow t) :=
    ht.trans (.foldl edgesTaken_reverseOpenRow rows t)
  unfold motionEval
  exact ite_rel (.refl s) (ite_rel (ite_rel .of_lsd .of_lsd) (ite_rel (.refl s) (hreversed _ .of_lsd _)))

theorem State.edgesTaken_takeEdge (s : State) (e : Edge) : EdgesTaken s (s.takeEdge e) := by
  unfold takeEdge
  refine EdgesTaken.trans ?_ (edgesTaken_speedEval _)
  refine EdgesTaken.trans ?_ (edgesTaken_motionEval ..)
  exact .of_lsd

theorem State.edgesTaken_webSettle (s : State) : EdgesTaken s s.webSettle := by
  unfold webSettle
  refine .trans ?_ (.foldl edgesTaken_takeEdge _ _)
  exact .of_lsd

/-! ### WEB_CONFIG (R35, R52) -/

theorem exec_webConfig {q : Req} {s : State} (hq : Claims.FreshOf 0x0210 40 q s) :
    exec (.webConfig q) s = .next ((cmdWebConfig.run q (s.start q 0x0210)).deliver q 0x0210) :=
  congrArg _ (serve_of_fresh hq.1 (beq_iff_eq.2 hq.2))

theorem exec_webConfig_takes (q : Req) (s : State) (hq : Claims.FreshOf 0x0210 40 q s) (hbad : webBad q.payload = false)
    (hunarmed : s.armed = false) :
    let w := (s.start q 0x0210).webSettle
    exec (.webConfig q) s = .next ((Claims.ok { w with lsd := { w.lsd with
      configured := true, cfg := webCfgOf q.payload } }).deliver q 0x0210) := by
  have hstart : (s.start q 0x0210).armed = false := hunarmed
  rw [exec_webConfig hq]
  simp only [cmdWebConfig]
  rw [checks_pass]
  · rfl
  · simp [hbad, hstart]

theorem exec_webConfig_armed (q : Req) (s : State) (hq : Claims.FreshOf 0x0210 40 q s) (hbad : webBad q.payload = false)
    (harmed : s.armed = true) :
    exec (.webConfig q) s = .next ((Ans.fail (s.start q 0x0210) .badState).deliver q 0x0210) := by
  have hstart : (s.start q 0x0210).armed = true := harmed
  rw [exec_webConfig hq]
  simp only [cmdWebConfig]
  rw [checks_cons, hbad, if_neg Bool.false_ne_true, checks_cons, hstart, if_pos rfl]

theorem webRatio_lowest {counts : Nat} (hcounts : 0 < counts) (um lpi : Nat) : let w := webRatio counts um lpi
    Nat.gcd w.1 w.2 = 1 ∧ w.1 * (um * lpi) = w.2 * (counts * 25400) := by
  have hgcd : 0 < Nat.gcd (counts * 25400) (um * lpi) := Nat.gcd_pos_of_pos_left _ (by omega)
  refine ⟨Nat.coprime_div_gcd_div_gcd hgcd, ?_⟩
  dsimp only [webRatio]
  rw [Nat.div_mul_right_comm (Nat.gcd_dvd_left ..), Nat.div_mul_right_comm (Nat.gcd_dvd_right ..), Nat.mul_comm (um * lpi)]

/-! ### ROW_GEOMETRY (R53) -/

/-- A field that lies behind the leading bytes `p`. -/
theorem fld_append_right {p : List Byte} (r : List Byte) {k : Nat} (n : Nat) (h : p.length ≤ k) :
    fld (p ++ r) k n = fld r (k - p.length) n := by
  rw [← fld_append p r (k - p.length) n, Nat.add_sub_cancel' h]

/-- The payload of ROW_GEOMETRY for a row. -/
def geometryPayload (r : Fin 16) (off flight m : Nat) : List Byte :=
  [BitVec.ofNat 8 r.val, 0, 0, 0] ++ le 8 off ++ le 4 flight ++ le 4 m ++ [0, 0, 0, 0]

theorem geometryPayload_fields (r : Fin 16) {off flight m : Nat} (hoff : off < 2 ^ 48) (hflight : flight ≤ 500000) (hm : m ≤ 1000000) :
    let p := geometryPayload r off flight m
    fld p 0 1 = r.val ∧ fld p 4 8 = off ∧ fld p 12 4 = flight ∧ fld p 16 4 = m ∧ zeros p 1 3 = true ∧ zeros p 20 4 = true := by
  refine ⟨?_, ?_, ?_, ?_, rfl, rfl⟩
  · rw [fld_one]
    exact (BitVec.toNat_ofNat ..).trans (Nat.mod_eq_of_lt (by omega))
  all_goals
    simp only [geometryPayload, List.append_assoc]
    simp (disch := simp) only [fld_append_right, length_le, List.length_cons, List.length_nil, Nat.reduceAdd, Nat.reduceSub, fld_le]
    omega

theorem exec_rowGeometry_sets (q : Req) (s : State) (r : Fin 16) (off flight m : Nat) (hq : Claims.Fresh 0x0211 q s)
    (hunarmed : s.armed = false) (hoff : off < 2 ^ 48) (hflight : flight ≤ 500000) (hm : m = 0 ∨ (1985 ≤ m ∧ m ≤ 1000000))
    (hp : q.payload = [BitVec.ofNat 8 r.val, 0, 0, 0] ++ le 8 off ++ le 4 flight ++ le 4 m ++ [0, 0, 0, 0]) :
    exec (.rowGeometry q) s = .next ((Claims.ok { s.start q 0x0211 with lsd := { s.lsd with
      rows := upd s.lsd.rows r (fun x => { x with offset := off, flight := flight, minFire := m }) } }).deliver q 0x0211) := by
  have hrun : exec (.rowGeometry q) s = .next ((cmdRowGeometry.run q (s.start q 0x0211)).deliver q 0x0211) :=
    congrArg _ (serve_of_fresh hq (by rw [hp]; rfl))
  have hstart : (s.start q 0x0211).armed = false := hunarmed
  obtain ⟨hrow, hoffset, hfly, hmin, hzero₁, hzero₂⟩ := geometryPayload_fields r hoff hflight (m := m) (by omega)
  have hrange : ¬ (15 < r.val ∨ 2 ^ 48 ≤ off ∨ 500000 < flight ∨ (m ≠ 0 ∧ (m < 1985 ∨ 1000000 < m))) := by omega
  rw [hrun, cmdRowGeometry]
  simp only [show q.payload = geometryPayload r off flight m from hp, hrow, hoffset, hfly, hmin, hzero₁, hzero₂]
  rw [checks_pass]
  · rw [Fin.ofNat_val_eq_self]
    rfl
  · simp only [hrange, hstart]
    simp

/-! ### WEB_STATUS (R54) -/

/-- Dropping whole blocks of a concatenation of equally long ones. -/
theorem drop_flatMap {α β : Type} {f : α → List β} {m : Nat} (h : ∀ a, (f a).length = m) (l : List α) (i : Nat) :
    (l.flatMap f).drop (m * i) = (l.drop i).flatMap f := by
  induction i generalizing l with
  | zero => rfl
  | succ i ih =>
    cases l with
    | nil => simp
    | cons a l =>
      rw [List.flatMap_cons, Nat.mul_succ, Nat.add_comm, ← List.drop_drop, ← h a, List.drop_left, h a, ih, List.drop_succ_cons]

/-- The field of one row in a list of fields of all rows. -/
theorem fld_flatMap_rows {f : Fin 16 → List Byte} {m : Nat} (h : ∀ r, (f r).length = m) (r : Fin 16) :
    fld ((List.finRange 16).flatMap f) (m * r.val) m = fld (f r) 0 m := by
  have hr : r.val < (List.finRange 16).length := by simp
  have hdrop : ((List.finRange 16).flatMap f).drop (m * r.val) = f r ++ ((List.finRange 16).drop (r.val + 1)).flatMap f := by
    rw [drop_flatMap h, List.drop_eq_getElem_cons hr, List.flatMap_cons, List.getElem_finRange]
    rfl
  rw [fld, hdrop, ← fld_append_left (f r) _ (Nat.le_of_eq ((Nat.zero_add m).trans (h r).symm)), fld, List.drop_zero]

/-- The bytes of a row's last line start in WEB_STATUS: all ones before the first. -/
def State.lastLineBytes (s : State) (r : Fin 16) : List Byte :=
  if (s.lsd.rows[r]).next = 0 then List.replicate 8 0xFF else le 8 ((s.lsd.rows[r]).next - 1)

theorem State.length_lastLineBytes (s : State) (r : Fin 16) : (s.lastLineBytes r).length = 8 := by
  unfold lastLineBytes
  split
  · rfl
  · rfl

theorem State.fld_lastLineBytes (s : State) (r : Fin 16) :
    fld (s.lastLineBytes r) 0 8 = if (s.lsd.rows[r]).next = 0 then 2 ^ 64 - 1 else ((s.lsd.rows[r]).next - 1) % 2 ^ 64 := by
  unfold lastLineBytes
  split
  · rfl
  · exact fld_le_end 8 _

/-- The payload WEB_STATUS answers. -/
def State.webStatusBytes (s : State) : List Byte :=
  sle 8 s.posNow ++ sle 8 (if s.keepsHigh then s.lsd.high else 0) ++ sle 4 s.lsd.velocity16 ++ le 1 s.webStateCode ++
    le 1 (maskOf [s.lsd.origin.isSome, s.lsd.speedHigh]) ++ zeroBytes 2 ++ le 8 s.nowNs ++ (List.finRange 16).flatMap s.lastLineBytes

theorem State.webStateCode_lt (s : State) : s.webStateCode < 256 := by
  unfold webStateCode
  (repeat' split) <;> decide

theorem State.webStatusBytes_fields (s : State) :
    s.webStatusBytes.length = 160 ∧ fld s.webStatusBytes 20 1 = s.webStateCode ∧ fld s.webStatusBytes 24 8 = s.nowNs % 2 ^ 64 ∧
      ∀ r : Fin 16, fld s.webStatusBytes (32 + 8 * r.val) 8 = fld (s.lastLineBytes r) 0 8 := by
  have hhead : (sle 8 s.posNow ++ sle 8 (if s.keepsHigh then s.lsd.high else 0) ++ sle 4 s.lsd.velocity16 ++ le 1 s.webStateCode ++
    le 1 (maskOf [s.lsd.origin.isSome, s.lsd.speedHigh]) ++ zeroBytes 2 ++ le 8 s.nowNs).length = 32 := by simp
  refine ⟨?_, ?_, ?_, fun r => ?_⟩
  · simp [webStatusBytes, List.length_flatMap, length_lastLineBytes]
  · simp only [webStatusBytes, List.append_assoc]
    simp (disch := simp) only [fld_append_right, length_sle, Nat.reduceSub, fld_le]
    exact Nat.mod_eq_of_lt s.webStateCode_lt
  · simp only [webStatusBytes, List.append_assoc]
    simp (disch := simp) only [fld_append_right, length_sle, length_le, length_zeroBytes, Nat.reduceSub, fld_le]
    rfl
  · rw [webStatusBytes, fld_append_right _ _ (by omega), hhead, Nat.add_sub_cancel_left, fld_flatMap_rows s.length_lastLineBytes]

theorem exec_webStatus_answers (q : Req) (s : State) (hq : Claims.FreshOf 0x0212 0 q s) : let w := (s.start q 0x0212).webSettle
    ∃ p : List Byte, exec (.webStatus q) s = .next ((Claims.ok w p).deliver q 0x0212) ∧ p.length = 160 ∧
    fld p 20 1 = w.webStateCode ∧ fld p 24 8 = s.nowNs % 2 ^ 64 ∧
    ∀ r : Fin 16, fld p (32 + 8 * r.val) 8 = if (s.lsd.rows[r]).next = 0 then 2 ^ 64 - 1 else ((s.lsd.rows[r]).next - 1) % 2 ^ 64 := by
  intro w
  have hrun : exec (.webStatus q) s = .next ((Claims.ok w w.webStatusBytes).deliver q 0x0212) :=
    congrArg _ (serve_of_fresh hq.1 (beq_iff_eq.2 hq.2))
  obtain ⟨hlength, hstate, htime, hlines⟩ := w.webStatusBytes_fields
  have htaken : EdgesTaken (s.start q 0x0212) w := State.edgesTaken_webSettle _
  refine ⟨_, hrun, hlength, hstate, ?_, fun r => ?_⟩
  · rw [htime, State.nowNs, htaken.aon]
    rfl
  · rw [hlines r, w.fld_lastLineBytes, htaken.next r]
    rfl

/-! ### The line start (R41 to R47) -/

@[simp] theorem State.insertNotice_lsd (s : State) (h : Fin 32) (b : Bool × BitVec 64) : (s.insertNotice h b).lsd = s.lsd := by
  unfold insertNotice
  dsimp only
  split
  · rfl
  · rfl

@[simp] theorem State.notice_lsd (s : State) (r : Fin 16) (n : Nat) (kind : Byte) : (s.notice r n kind).lsd = s.lsd :=
  foldl_lsd _ _ s fun t h => by rw [ite_lsd, insertNotice_lsd, ite_self]

@[simp] theorem State.capture_lsd (s : State) (r : Fin 16) (n status strobeNs : Nat) : (s.capture r n status strobeNs).lsd = s.lsd := by
  unfold capture
  split
  · rfl
  · simp

@[simp] theorem State.advanceBuffer_lsd (s : State) (r : Fin 16) (n : Nat) : (s.advanceBuffer r n).lsd = s.lsd :=
  (s.linesFed_advanceBuffer r n).lsd

@[simp] theorem State.boundaries_lsd (s : State) (r : Fin 16) (n : Nat) : (s.boundaries r n).lsd = s.lsd := by
  unfold boundaries
  dsimp only
  (repeat' split) <;> rfl

@[simp] theorem State.pauseOver_lsd (s : State) : s.pauseOver.lsd = s.lsd := by
  unfold pauseOver
  rw [ite_lsd, ite_self]

@[simp] theorem State.withholdSent_lsd (s : State) (r : Fin 16) (n : Nat) (reason cause : Byte) :
    (s.withholdSent r n reason cause).lsd = s.lsd := by
  have hsent : LinesFed s (s.withholdSent r n reason cause) := by
    unfold withholdSent
    exact ite_rel (.refl s) ((s.linesFed_noteWithheld ..).foldl_updTx _ _)
  exact hsent.lsd

@[simp] theorem State.missDeadline_lsd (s : State) (before : Bool) (l : Fin 32) (n : Nat) : (s.missDeadline before l n).lsd = s.lsd := by
  unfold missDeadline
  split
  · rfl
  · simp [pourLasting, frameLasting, pourCount, pourEvent]

@[simp] theorem State.deadlines_lsd (s : State) (r : Fin 16) (n : Nat) : (s.deadlines r n).lsd = s.lsd :=
  foldl_lsd _ _ s fun t _ => t.missDeadline_lsd ..

@[simp] theorem State.autoFree_lsd (before s : State) : (before.autoFree s).lsd = s.lsd := by
  unfold autoFree
  exact foldl_lsd _ _ s fun t tile => by simp

@[simp] theorem State.retireFired_lsd (s : State) : s.retireFired.lsd = s.lsd := by
  unfold retireFired
  simp

@[simp] theorem State.retireCheck_lsd (s : State) : s.retireCheck.lsd = s.lsd := by
  have holder : s.retireOlder.lsd = s.lsd := by
    unfold retireOlder
    split
    · rfl
    · simp
  unfold retireCheck
  rw [ite_lsd, holder, ite_self]

@[simp] theorem State.panicEval_lsd (s : State) : s.panicEval.lsd = s.lsd := by
  unfold panicEval raisePanic clearPanic
  (repeat' split) <;> rfl

@[simp] theorem State.withholdPoured_lsd (s : State) (r : Fin 16) : (s.withholdPoured r).lsd = s.lsd :=
  foldl_lsd _ _ s fun t _ => t.withholdSent_lsd ..

@[simp] theorem State.inDoubtCheck_lsd (s : State) : s.inDoubtCheck.lsd = s.lsd := by
  unfold inDoubtCheck
  split
  next g n _ _ =>
    have hpoured (l : List (Fin 16)) (t : State) : (l.foldl withholdPoured t).lsd = t.lsd := foldl_lsd _ l t withholdPoured_lsd
    have hheld (l : List (Fin 16)) (f : State → Fin 16 → JobRow → JobRow) (t : State) :
        (l.foldl (fun t r => t.updJobRow r (f t r)) t).lsd = t.lsd := foldl_lsd _ l t fun _ _ => rfl
    dsimp only
    split
    · simp only [wantStop_frame, hpoured]
      rw [hheld, autoFree_lsd]
      rfl
    · rfl
  next => rfl

@[simp] theorem State.afterStart_lsd (s : State) (r : Fin 16) (n : Nat) : (s.afterStart r n).lsd = s.lsd := by
  simp only [afterStart, wasteTrack_frame, inDoubtCheck_lsd, panicEval_lsd, retireCheck_lsd, retireFired_lsd, updRow_lsd, freeCkpts,
    deadlines_lsd, pauseOver_lsd, boundaries_lsd]

/-- What deciding a line start leaves alone in the detector: origin, count and the next line of every row. -/
structure LineStartsKept (l m : Lsd) : Prop where
  origin : m.origin = l.origin
  count : m.count = l.count
  next : ∀ k : Fin 16, (m.rows[k]).next = (l.rows[k]).next

theorem LineStartsKept.refl (l : Lsd) : LineStartsKept l l := ⟨rfl, rfl, fun _ => rfl⟩

theorem LineStartsKept.trans {l m n : Lsd} (h₁ : LineStartsKept l m) (h₂ : LineStartsKept m n) : LineStartsKept l n :=
  ⟨h₂.origin.trans h₁.origin, h₂.count.trans h₁.count, fun k => (h₂.next k).trans (h₁.next k)⟩

theorem State.lineStartsKept_updLsd (s : State) (r : Fin 16) {f : LsdRow → LsdRow} (hf : ∀ x, (f x).next = x.next) :
    LineStartsKept s.lsd (s.updLsd r f).lsd :=
  ⟨rfl, rfl, getElem_upd_keep (hf _)⟩

theorem State.lineStartsKept_reverseMark (s : State) (r : Fin 16) (n : Nat) (fate : Fate) :
    LineStartsKept s.lsd (s.reverseMark r n fate).lsd := by
  unfold reverseMark
  split
  · split
    · exact lineStartsKept_updLsd _ r fun _ => rfl
    · rw [ite_lsd, wasteMark_lsd, ite_self]
      exact .refl _
  · exact .refl _

theorem State.lineStartsKept_decide (s : State) (r : Fin 16) (n : Nat) (fate : Fate) :
    LineStartsKept s.lsd (s.decide_ r n fate).lsd := by
  cases fate with
  | fire ts =>
    rw [decide_, capture_lsd]
    have hfired (f : SpcRow → SpcRow) : ((s.notice r n 0).updRow r f).lsd = s.lsd := by rw [updRow_lsd, notice_lsd]
    rw [← hfired]
    exact lineStartsKept_updLsd _ r fun _ => rfl
  | withheld cause =>
    rw [decide_, advanceBuffer_lsd, capture_lsd]
    have hmarked : ((s.notice r n 1).wasteMark r n n cause).lsd = s.lsd := by rw [wasteMark_lsd, notice_lsd]
    rw [← hmarked]
    split
    · exact lineStartsKept_updLsd _ r fun _ => rfl
    · exact .refl _
  | inhibited cause =>
    rw [decide_, advanceBuffer_lsd, capture_lsd, wasteMark_lsd, notice_lsd]
    exact .refl _

theorem State.lineStartsKept_decided (s : State) (r : Fin 16) (n : Nat) (fate : Fate) :
    LineStartsKept s.lsd (((s.reverseMark r n fate).decide_ r n fate).afterStart r n).lsd := by
  rw [afterStart_lsd]
  exact (s.lineStartsKept_reverseMark r n fate).trans (lineStartsKept_decide ..)

/-- The row's next line has started; its fate is still to be decided. -/
def State.lineStarted (s : State) (r : Fin 16) : State :=
  let n := (s.lsd.rows[r]).next
  (s.updLsd r (fun x => { x with next := n + 1, cross := some (s.tick, s.strobeTime r n) })).drq ⟨r.val, by omega⟩

theorem State.startLine_eq (s : State) (r : Fin 16) (late : Bool) : s.startLine r late =
    let n := (s.lsd.rows[r]).next
    let fate := s.fateOf r n late
    (((s.lineStarted r).reverseMark r n fate).decide_ r n fate).afterStart r n := rfl

/-- A line start advances its own row by one line and no other; origin and count stay (R41). -/
theorem State.startLine_spec (s : State) (r : Fin 16) (late : Bool) :
    ((s.startLine r late).lsd.rows[r]).next = (s.lsd.rows[r]).next + 1 ∧
      (∀ k : Fin 16, k ≠ r → ((s.startLine r late).lsd.rows[k]).next = (s.lsd.rows[k]).next) ∧
      (s.startLine r late).lsd.origin = s.lsd.origin ∧ (s.startLine r late).lsd.count = s.lsd.count := by
  have hkept : LineStartsKept (s.lineStarted r).lsd (s.startLine r late).lsd := by
    rw [startLine_eq]
    exact lineStartsKept_decided ..
  refine ⟨?_, fun k hk => ?_, hkept.origin, hkept.count⟩
  · rw [hkept.next r]
    exact congrArg LsdRow.next (getElem_upd_self ..)
  · rw [hkept.next k]
    exact congrArg LsdRow.next (getElem_upd_ne _ hk _)

theorem exec_lineStart {r : Fin 16} {t : Nat} {s w : State} (hw : w = (s.at t).webSettle) :
    exec (.lineStart r t) s = .next (if w.rowRuns r && w.reaches r then w.startLine r false else w.wasteTrack) := by
  rw [hw]
  rfl

theorem exec_lineStart_reached (r : Fin 16) (t : Nat) (s : State) : let w := (s.at t).webSettle
    w.rowRuns r = true → w.reaches r = true →
    ∃ u, exec (.lineStart r t) s = .next u ∧ (u.lsd.rows[r]).next = (s.lsd.rows[r]).next + 1 ∧
      (∀ k : Fin 16, k ≠ r → (u.lsd.rows[k]).next = (s.lsd.rows[k]).next) ∧ u.lsd.origin = s.lsd.origin ∧ u.lsd.count = w.lsd.count := by
  intro w hruns hreaches
  have hrun : exec (.lineStart r t) s = .next (w.startLine r false) := by
    rw [exec_lineStart (w := w) rfl, hruns, hreaches, Bool.and_self, if_pos rfl]
  have htaken : EdgesTaken (s.at t) w := State.edgesTaken_webSettle _
  obtain ⟨hself, hothers, horigin, hcount⟩ := w.startLine_spec r false
  exact ⟨_, hrun, hself.trans (congrArg (· + 1) (htaken.next r)), fun k hk => (hothers k hk).trans (htaken.next k),
    horigin.trans htaken.origin, hcount⟩

theorem exec_lineStart_not_reached (r : Fin 16) (t : Nat) (s : State) : let w := (s.at t).webSettle
    (w.rowRuns r = false ∨ w.reaches r = false) →
    ∃ u, exec (.lineStart r t) s = .next u ∧ u.lsd = w.lsd ∧ u.job = s.job ∧ u.rows = s.rows ∧ u.mem = s.mem := by
  intro w hnot
  have hcond : (w.rowRuns r && w.reaches r) = false := by rwa [Bool.and_eq_false_iff]
  have hrun : exec (.lineStart r t) s = .next w.wasteTrack := by
    rw [exec_lineStart (w := w) rfl, hcond, if_neg Bool.false_ne_true]
  have htaken : EdgesTaken (s.at t) w := State.edgesTaken_webSettle _
  refine ⟨_, hrun, ?_, ?_, ?_, ?_⟩
  · simp
  · simp [htaken.job]
  · simp [htaken.rows]
  · simp [htaken.mem]

/-- Settles O31: commands by their checks, WEB_STATUS field by field, and a line start by what it leaves in the detector. Log 51 and
log 55 stand behind the model's edges and ticks. -/
theorem webCommandsAndLineStartsComplete : Obligations.WebCommandsAndLineStartsComplete :=
  ⟨exec_webConfig_takes, exec_rowGeometry_sets, exec_webConfig_armed,
    fun _ um lpi hcounts _ _ => webRatio_lowest hcounts um lpi, exec_webStatus_answers, exec_lineStart_reached,
    exec_lineStart_not_reached⟩

end Sys2Proof.Machine
end

section
/-! PROOF. SCREEN_PLANE, SCREEN_MATRIX, HIST_SET and HIST_ROW (05 R126, R128; 06 R149, R150): O33. -/

namespace Sys2Proof.Machine

/-! ### SCREEN_PLANE (R126) -/

theorem exec_screenPlane {q : Req} {s : State} (hq : Claims.FreshOf 0x0220 56 q s) :
    exec (.screenPlane q) s = .next ((cmdScreenPlane.run q (s.start q 0x0220)).deliver q 0x0220) :=
  congrArg _ (serve_of_fresh hq.1 (beq_iff_eq.2 hq.2))

theorem exec_screenPlane_sets (q : Req) (s : State) (plane : Fin 16) (hq : Claims.FreshOf 0x0220 56 q s)
    (hbad : screenBad q.payload = false) (hplane : fld q.payload 0 1 = plane.val) (hunarmed : s.armed = false) :
    exec (.screenPlane q) s = .next ((Claims.ok { s.start q 0x0220 with layout := { s.layout with
      planes := upd s.layout.planes plane (fun x => { x with screen := some (screenOf q.payload) }) } }).deliver q 0x0220) := by
  have hstart : (s.start q 0x0220).armed = false := hunarmed
  rw [exec_screenPlane hq]
  simp only [cmdScreenPlane]
  rw [checks_pass, hplane, Fin.ofNat_val_eq_self]
  · rfl
  · simp [hbad, hstart]

/-! ### SCREEN_MATRIX and HIST_SET: what their payloads say (R128, R149) -/

theorem toNat_ofNat_byte {v : Nat} (hv : v < 256) : (BitVec.ofNat 8 v).toNat = v := by
  rw [BitVec.toNat_ofNat]
  exact Nat.mod_eq_of_lt hv

/-- The payload of a command that names an image in the transfer zone: three operand bytes and its address. -/
def imagePayload (a b c src : Nat) : List Byte :=
  [BitVec.ofNat 8 a, BitVec.ofNat 8 b, BitVec.ofNat 8 c, 0, 0, 0, 0, 0] ++ le 8 src

theorem imagePayload_fields {a b c src : Nat} (ha : a < 256) (hb : b < 256) (hc : c < 256) (hsrc : src < 2 ^ 64) :
    let p := imagePayload a b c src
    fld p 0 1 = a ∧ fld p 1 1 = b ∧ fld p 2 1 = c ∧ fld p 8 8 = src ∧ zeros p 3 5 = true ∧ p.length = 16 := by
  refine ⟨?_, ?_, ?_, ?_, rfl, rfl⟩
  · exact (fld_one _ 0).trans (toNat_ofNat_byte ha)
  · exact (fld_one _ 1).trans (toNat_ofNat_byte hb)
  · exact (fld_one _ 2).trans (toNat_ofNat_byte hc)
  · rw [imagePayload, fld_append_right _ _ (by simp)]
    exact (fld_le_end 8 src).trans (Nat.mod_eq_of_lt hsrc)

theorem inZone_of_le {a n : Nat} (hlo : 0x3400000000 ≤ a) (hhi : a + n ≤ 0x3800000000) : inZone a n = true :=
  decide_eq_true ⟨hlo, hhi⟩

/-! ### SCREEN_MATRIX (R128) -/

theorem exec_screenMatrix_fills (q : Req) (s : State) (slot : Fin 8) (w h src : Nat) (hq : Claims.Fresh 0x0221 q s) (hw : 1 ≤ w)
    (hw' : w ≤ 128) (hh : 1 ≤ h) (hh' : h ≤ 128) (hunused : s.matrixUsed slot.val = false) (hlo : 0x3400000000 ≤ src)
    (hhi : src + 2 * w * h ≤ 0x3800000000) (hentries : ∀ e ∈ words16 (s.memRead src (2 * w * h)), e ≤ 4095)
    (hp : q.payload = [BitVec.ofNat 8 slot.val, BitVec.ofNat 8 (w - 1), BitVec.ofNat 8 (h - 1), 0, 0, 0, 0, 0] ++ le 8 src) :
    exec (.screenMatrix q) s = .next ((Claims.ok { s.start q 0x0221 with layout := { s.layout with
      matrices := s.layout.matrices.set slot (some { w := w, h := h, entries := words16 (s.memRead src (2 * w * h)) }) } }).deliver q 0x0221) := by
  have hpayload : q.payload = imagePayload slot.val (w - 1) (h - 1) src := hp
  obtain ⟨hslot, hwidth, hheight, hsrc, hzero, hlength⟩ :=
    imagePayload_fields (a := slot.val) (b := w - 1) (c := h - 1) (src := src) (by omega) (by omega) (by omega) (by omega)
  have hrun : exec (.screenMatrix q) s = .next ((cmdScreenMatrix.run q (s.start q 0x0221)).deliver q 0x0221) :=
    congrArg _ (serve_of_fresh hq (by rw [hpayload]; exact beq_iff_eq.2 hlength))
  have hstart : (s.start q 0x0221).matrixUsed slot.val = false := hunused
  have hrange : ¬ (7 < slot.val ∨ 128 < w ∨ 128 < h) := by omega
  have hlegal : (words16 ((s.start q 0x0221).memRead src (2 * w * h))).any (fun e => decide (4095 < e)) = false := by
    rw [List.any_eq_false]
    intro e he
    exact fun hlt => absurd (of_decide_eq_true hlt) (Nat.not_lt.2 (hentries e he))
  rw [hrun]
  simp only [cmdScreenMatrix, hpayload, hslot, hwidth, hheight, hsrc, hzero, Nat.sub_add_cancel hw, Nat.sub_add_cancel hh]
  rw [checks_pass]
  · simp only [hlegal, Bool.false_eq_true, if_false, Fin.ofNat_val_eq_self]
    rfl
  · simp only [hrange, hstart, inZone_of_le hlo hhi]
    simp

/-! ### HIST_SET (R149) -/

theorem exec_histSet {q : Req} {s : State} (hq : Claims.Fresh 0x0222 q s) (hlength : q.payload.length = 16) :
    exec (.histSet q) s = .next ((cmdHistSet.run q (s.start q 0x0222)).deliver q 0x0222) :=
  congrArg _ (serve_of_fresh hq (beq_iff_eq.2 hlength))

theorem exec_histSet_sets (q : Req) (s : State) (k : Fin 8) (src : Nat) (hq : Claims.Fresh 0x0222 q s) (hunarmed : s.armed = false)
    (hlo : 0x3400000000 ≤ src) (hhi : src + 320 ≤ 0x3800000000) (hclasses : ∀ b ∈ (s.memRead src 320).take 256, b.toNat ≤ 7)
    (hp : q.payload = [BitVec.ofNat 8 k.val, 0, 0, 0, 0, 0, 0, 0] ++ le 8 src) :
    exec (.histSet q) s = .next ((Claims.ok { s.start q 0x0222 with layout := { s.layout with
      hist := s.layout.hist.set k (histOf (s.memRead src 320)) } }).deliver q 0x0222) := by
  have hpayload : q.payload = imagePayload k.val 0 0 src := hp
  obtain ⟨hset, _, _, hsrc, _, hlength⟩ :=
    imagePayload_fields (a := k.val) (b := 0) (c := 0) (src := src) (by omega) (by omega) (by omega) (by omega)
  have hzero : zeros (imagePayload k.val 0 0 src) 1 7 = true := rfl
  have hstart : (s.start q 0x0222).armed = false := hunarmed
  have hrange : ¬ 7 < k.val := by omega
  have hlegal : (((s.start q 0x0222).memRead src 320).take 256).any (fun b => decide (7 < b.toNat)) = false := by
    rw [List.any_eq_false]
    intro b hb
    exact fun hlt => absurd (of_decide_eq_true hlt) (Nat.not_lt.2 (hclasses b hb))
  rw [exec_histSet hq (by rw [hpayload, hlength])]
  simp only [cmdHistSet, hpayload, hset, hsrc, hzero]
  rw [checks_pass]
  · simp only [hlegal, Bool.false_eq_true, if_false, Fin.ofNat_val_eq_self]
    rfl
  · simp only [hrange, hstart, inZone_of_le hlo hhi]
    simp

/-! ### HIST_ROW (R150) -/

theorem exec_histRow {q : Req} {s : State} (hq : Claims.Fresh 0x0223 q s) (hlength : q.payload.length = 8) :
    exec (.histRow q) s = .next ((cmdHistRow.run q (s.start q 0x0223)).deliver q 0x0223) :=
  congrArg _ (serve_of_fresh hq (beq_iff_eq.2 hlength))

theorem exec_histRow_sets (q : Req) (s : State) (r : Fin 16) (k : Fin 8) (m : Fin 16) (hq : Claims.Fresh 0x0223 q s)
    (hunarmed : s.armed = false)
    (hp : q.payload = [BitVec.ofNat 8 r.val, BitVec.ofNat 8 k.val, BitVec.ofNat 8 m.val, 0, 0, 0, 0, 0]) :
    exec (.histRow q) s = .next ((Claims.ok { s.start q 0x0223 with layout := { s.layout with
      rows := upd s.layout.rows r (fun d => { d with histSet := k, maskCode := m.val }) } }).deliver q 0x0223) := by
  have hstart : (s.start q 0x0223).armed = false := hunarmed
  have hrow : fld q.payload 0 1 = r.val := by
    rw [hp]
    exact (fld_one _ 0).trans (toNat_ofNat_byte (by omega))
  have hset : fld q.payload 1 1 = k.val := by
    rw [hp]
    exact (fld_one _ 1).trans (toNat_ofNat_byte (by omega))
  have hmask : fld q.payload 2 1 = m.val := by
    rw [hp]
    exact (fld_one _ 2).trans (toNat_ofNat_byte (by omega))
  have hzero : zeros q.payload 3 5 = true := by
    rw [hp]
    rfl
  have hrange : ¬ (15 < r.val ∨ 7 < k.val ∨ 15 < m.val) := by omega
  rw [exec_histRow hq (by rw [hp]; rfl)]
  simp only [cmdHistRow, hrow, hset, hmask, hzero]
  rw [checks_pass]
  · simp only [Fin.ofNat_val_eq_self]
    rfl
  · simp only [hrange, hstart]
    simp

/-! ### An armed job (R126, R149, R150) -/

/-- A command whose second check is the armed job, and whose first one passes. -/
theorem checks_armed {s : State} {bad : Bool} {st : Status} {r : List (Bool × Status)} {k : Unit → Ans} (hbad : bad = false)
    (harmed : s.armed = true) : checks s ((bad, st) :: (s.armed, .badState) :: r) k = .fail s .badState :=
  checks_fail (p := [(bad, st)]) (by simpa using hbad) harmed

theorem exec_screening_armed (q : Req) (s : State) (harmed : s.armed = true) :
    (Claims.FreshOf 0x0220 56 q s → screenBad q.payload = false →
      exec (.screenPlane q) s = .next ((Ans.fail (s.start q 0x0220) .badState).deliver q 0x0220)) ∧
    (Claims.Fresh 0x0222 q s → q.payload = List.replicate 16 0 →
      exec (.histSet q) s = .next ((Ans.fail (s.start q 0x0222) .badState).deliver q 0x0222)) ∧
    (Claims.Fresh 0x0223 q s → q.payload = List.replicate 8 0 →
      exec (.histRow q) s = .next ((Ans.fail (s.start q 0x0223) .badState).deliver q 0x0223)) := by
  have hstart (opcode : Nat) : (s.start q opcode).armed = true := harmed
  refine ⟨fun hq hbad => ?_, fun hq hp => ?_, fun hq hp => ?_⟩
  · rw [exec_screenPlane hq]
    exact congrArg (fun a : Ans => Host.Outcome.next (a.deliver q 0x0220)) (checks_armed hbad (hstart _))
  · rw [exec_histSet hq (by rw [hp]; rfl)]
    exact congrArg (fun a : Ans => Host.Outcome.next (a.deliver q 0x0222)) (checks_armed (by rw [hp]; rfl) (hstart _))
  · rw [exec_histRow hq (by rw [hp]; rfl)]
    exact congrArg (fun a : Ans => Host.Outcome.next (a.deliver q 0x0223)) (checks_armed (by rw [hp]; rfl) (hstart _))

/-- Settles O33: each command by the fields of its payload and its checks. -/
theorem screeningCommandsComplete : Obligations.ScreeningCommandsComplete :=
  ⟨exec_screenPlane_sets, exec_screenMatrix_fills, exec_histSet_sets, exec_histRow_sets, exec_screening_armed⟩

end Sys2Proof.Machine
end

section
/-! PROOF. Lines handed over, compared and agreed, and the mismatches of a row (05 R117; 07 R153; 09 R204 to R208, R210; 10 R247): O37. -/

namespace Sys2Proof.Machine

/-! ### The halves of a row -/

theorem half0_rowOf {h : Fin 32} (heven : h.val % 2 = 0) : half0 (rowOf h) = h := by
  apply Fin.ext
  change 2 * (h.val / 2) = h.val
  omega

theorem half1_rowOf {h : Fin 32} (hodd : h.val % 2 ≠ 0) : half1 (rowOf h) = h := by
  apply Fin.ext
  change 2 * (h.val / 2) + 1 = h.val
  omega

theorem half_cases (h : Fin 32) : h = half0 (rowOf h) ∨ h = half1 (rowOf h) := by
  by_cases heven : h.val % 2 = 0
  · exact .inl (half0_rowOf heven).symm
  · exact .inr (half1_rowOf heven).symm

theorem rowOf_half0 (r : Fin 16) : rowOf (half0 r) = r := Fin.ext (by change 2 * r.val / 2 = r.val; omega)

theorem rowOf_half1 (r : Fin 16) : rowOf (half1 r) = r := Fin.ext (by change (2 * r.val + 1) / 2 = r.val; omega)

theorem half0_ne_half1 (r : Fin 16) : half0 r ≠ half1 r := fun h => by
  have hval : 2 * r.val = 2 * r.val + 1 := congrArg Fin.val h
  omega

theorem exists_otherHalf (h : Fin 32) : ∃ k : Fin 32, rowOf k = rowOf h ∧ k ≠ h := by
  rcases half_cases h with hh | hh
  · exact ⟨half1 (rowOf h), rowOf_half1 _, fun hk => half0_ne_half1 (rowOf h) (hh.symm.trans hk.symm)⟩
  · exact ⟨half0 (rowOf h), rowOf_half0 _, fun hk => half0_ne_half1 (rowOf h) (hk.trans hh)⟩

/-! ### One unit of the state -/

@[simp] theorem State.cvu_updCvu_self (s : State) (h : Fin 32) (f : Cvu → Cvu) : (s.updCvu h f).cvu h = f (s.cvu h) :=
  getElem_upd_self ..

theorem State.cvu_updCvu_ne (s : State) {h k : Fin 32} (hk : k ≠ h) (f : Cvu → Cvu) : (s.updCvu h f).cvu k = s.cvu k :=
  getElem_upd_ne _ hk f

theorem State.latentStep_eq (s : State) (fn : Fin 38) (line : Nat) :
    s.latentStep fn line = { s with chk := { s.chk with ctxs := (s.latentStep fn line).chk.ctxs } } := by
  unfold latentStep
  split
  · rfl
  · rfl

@[simp] theorem State.cvu_latentStep (s : State) (fn : Fin 38) (line : Nat) (h : Fin 32) : (s.latentStep fn line).cvu h = s.cvu h := by
  rw [latentStep_eq]
  rfl

/-! ### A pipeline goes on to its next line (R153, R204) -/

@[simp] theorem SpcRow.run_setRun (x : SpcRow) (p : Pipe) (n : PipeRun) : (x.setRun p n).run p = n := by
  cases p <;> rfl

@[simp] theorem SpcRow.agreed_setRun (x : SpcRow) (p : Pipe) (n : PipeRun) : (x.setRun p n).agreed = x.agreed := by
  cases p <;> rfl

@[simp] theorem SpcRow.run_putCkpt (x : SpcRow) (c : Ckpt) (p : Pipe) : (x.putCkpt c).run p = x.run p := by
  cases p <;> rfl

/-- What a checkpoint or the decoders' next bands leave: every row's pipelines and agreed lines, the units, and all that engines and
checkers leave alone. -/
structure RunsKept (s u : State) : Prop where
  run : ∀ (k : Fin 16) (p : Pipe), (u.rows[k]).run p = (s.rows[k]).run p
  agreed : ∀ k : Fin 16, (u.rows[k]).agreed = (s.rows[k]).agreed
  cvus : u.chk.cvus = s.chk.cvus
  elsewhere : Claims.SameElsewhere s u

theorem sameElsewhere_refl (s : State) : Claims.SameElsewhere s s :=
  ⟨rfl, rfl, rfl, rfl, rfl, rfl, rfl, rfl, rfl, rfl, rfl, rfl, rfl, rfl⟩

theorem sameElsewhere_trans {s t u : State} (h₁ : Claims.SameElsewhere s t) (h₂ : Claims.SameElsewhere t u) :
    Claims.SameElsewhere s u := by
  simp only [Claims.SameElsewhere] at h₁ h₂ ⊢
  simp only [h₂, h₁, and_self]

theorem RunsKept.refl (s : State) : RunsKept s s := ⟨fun _ _ => rfl, fun _ => rfl, rfl, sameElsewhere_refl s⟩

theorem RunsKept.trans {s t u : State} (h₁ : RunsKept s t) (h₂ : RunsKept t u) : RunsKept s u where
  run k p := (h₂.run k p).trans (h₁.run k p)
  agreed k := (h₂.agreed k).trans (h₁.agreed k)
  cvus := h₂.cvus.trans h₁.cvus
  elsewhere := sameElsewhere_trans h₁.elsewhere h₂.elsewhere

theorem State.runsKept_ckptWrite (s : State) (r : Fin 16) (n : PipeRun) : RunsKept s (s.ckptWrite r n) :=
  ⟨fun k p => getElem_upd_keep (g := fun x : SpcRow => x.run p) (SpcRow.run_putCkpt ..) k, getElem_upd_keep rfl, rfl,
    sameElsewhere_refl s⟩

theorem State.runsKept_ckptShadow (s : State) (r : Fin 16) (n : PipeRun) : RunsKept s (s.ckptShadow r n) := by
  refine ⟨fun k p => getElem_upd_keep (g := fun x : SpcRow => x.run p) ?_ k, getElem_upd_keep ?_, rfl, sameElsewhere_refl s⟩
  · split
    · exact SpcRow.run_putCkpt ..
    · exact SpcRow.run_putCkpt ..
  · split
    · rfl
    · rfl

theorem State.runsKept_updDec (s : State) (p : Pipe) (f : Decoders → Decoders) : RunsKept s (s.updDec p f) := by
  cases p
  · exact ⟨fun _ _ => rfl, fun _ => rfl, rfl, sameElsewhere_refl s⟩
  · exact ⟨fun _ _ => rfl, fun _ => rfl, rfl, sameElsewhere_refl s⟩

/-- A pipeline's run on the line after one its engines have finished. -/
def PipeRun.through (n : PipeRun) (out : LineOut) (now : Nat) : PipeRun :=
  { line := n.line + 1, doneLo := false, doneHi := false, since := now, walk := out.walk, carry := spoil out.carry n.spoilt, hist := out.hist
    spoilt := [] }

theorem State.runsKept_feedDecoders (s : State) (p : Pipe) : RunsKept s (s.feedDecoders p) := by
  unfold feedDecoders
  exact s.runsKept_updDec ..

theorem State.runsKept_keepBands (s : State) (p : Pipe) (r : Fin 16) (used : List Band) : RunsKept s (s.keepBands p r used) := by
  unfold keepBands
  exact s.runsKept_updDec ..

/-- A pipeline that goes on stands at its next line. -/
theorem State.runsKept_lineThrough (s : State) (p : Pipe) (r : Fin 16) (out : LineOut) :
    RunsKept (s.updRow r (fun x => x.setRun p (((s.rows[r]).run p).through out s.aon))) (s.lineThrough p r out) := by
  have hbands := ((s.updRow r (fun x => x.setRun p (((s.rows[r]).run p).through out s.aon))).runsKept_keepBands p r
    (bandsOf s.hamper.tiles r (out.spansLo ++ out.spansHi))).trans (runsKept_feedDecoders _ p)
  refine ite_rel (hbands.trans ?_) hbands
  cases p
  · exact runsKept_ckptWrite ..
  · exact runsKept_ckptShadow ..

/-- What stands after a pipeline has gone on. -/
theorem State.lineThrough_spec (s : State) (p : Pipe) (r : Fin 16) (out : LineOut) :
    let u := s.lineThrough p r out
    ((u.rows[r]).run p).line = ((s.rows[r]).run p).line + 1 ∧ (u.rows[r]).agreed = (s.rows[r]).agreed ∧ u.chk.cvus = s.chk.cvus ∧
      Claims.SameElsewhere s u := by
  have hkept := s.runsKept_lineThrough p r out
  refine ⟨?_, ?_, hkept.cvus, hkept.elsewhere⟩
  · rw [hkept.run r p, updRow_value, getElem_upd_self, SpcRow.run_setRun]
    rfl
  · rw [hkept.agreed r, updRow_value, getElem_upd_self, SpcRow.agreed_setRun]

/-! ### An engine hands its half over (R204, R205) -/

@[simp] theorem PipeRun.line_doneHalf (n : PipeRun) (h : Fin 32) : (n.doneHalf h).line = n.line := by
  unfold doneHalf
  split
  · rfl
  · rfl

/-- A pipeline's run with one more half done, and what planted faults have spoilt by then. -/
def PipeRun.halfOver (n : PipeRun) (h : Fin 32) (spoilt : List (Nat × Int)) : PipeRun := { n.doneHalf h with spoilt := spoilt }

@[simp] theorem PipeRun.line_halfOver (n : PipeRun) (h : Fin 32) (spoilt : List (Nat × Int)) : (n.halfOver h spoilt).line = n.line :=
  n.line_doneHalf h

theorem PipeRun.halfDone_halfOver (n : PipeRun) (h : Fin 32) (spoilt : List (Nat × Int)) : (n.halfOver h spoilt).halfDone h = true := by
  unfold halfDone halfOver doneHalf
  split
  · rfl
  · rfl

/-- A set put at the end of a pipeline's queue. -/
def Cvu.queued (p : Pipe) (d : LineSet) (c : Cvu) : Cvu :=
  match p with
  | .primary => { c with prims := c.prims ++ [d] }
  | .shadow => { c with shads := c.shads ++ [d] }

theorem Cvu.prims_queued (p : Pipe) (d : LineSet) (c : Cvu) :
    (c.queued p d).prims = match p with | .primary => c.prims ++ [d] | .shadow => c.prims := by
  cases p
  · rfl
  · rfl

theorem Cvu.shads_queued (p : Pipe) (d : LineSet) (c : Cvu) :
    (c.queued p d).shads = match p with | .primary => c.shads | .shadow => c.shads ++ [d] := by
  cases p
  · rfl
  · rfl

/-- The state in which a set has been handed over, with what is left of the planted injections. -/
def State.handed (s : State) (p : Pipe) (h : Fin 32) (d : LineSet) (left : List Injection) (n : PipeRun) : State :=
  let t := s.updCvu h (Cvu.queued p d)
  ({ t with chk := { t.chk with injections := left } }).updRow (rowOf h) (fun x => x.setRun p n)

/-- What stands after a set has been handed over. -/
theorem State.handed_spec (s : State) (p : Pipe) (h : Fin 32) (d : LineSet) (left : List Injection) (n : PipeRun) :
    let u := s.handed p h d left n
    u.cvu h = (s.cvu h).queued p d ∧ (u.rows[rowOf h]).run p = n ∧ (u.rows[rowOf h]).agreed = (s.rows[rowOf h]).agreed ∧
      Claims.SameElsewhere s u := by
  refine ⟨getElem_upd_self .., ?_, ?_, sameElsewhere_refl s⟩
  · rw [handed, updRow_value, getElem_upd_self, SpcRow.run_setRun]
  · rw [handed, updRow_value, getElem_upd_self, SpcRow.agreed_setRun]
    rfl

theorem State.planted_of_injections_nil {s : State} (hnone : s.chk.injections = []) (target : Nat) (p : Pipe) (h : Fin 32) (n : Nat) :
    s.planted target p h n = [] := by
  simp [planted, hnone]

theorem State.useInjections_eq (s : State) (target : Nat) (h : Fin 32) (n : Nat) (l : List Injection) :
    (if l.isEmpty then s else s.useInjection target h n) =
      { s with chk := { s.chk with injections := if l.isEmpty then s.chk.injections else (s.useInjection target h n).chk.injections } } := by
  split
  · rfl
  · rfl

/-- A finished half is handed over as a set, and its pipeline goes on where it was the last. -/
theorem State.lineDone_eq (s : State) (p : Pipe) (h : Fin 32) (x : Upset) (out : LineOut) (g : Gen) :
    let n := (s.rows[rowOf h]).run p
    ∃ (d : LineSet) (left : List Injection) (spoilt : List (Nat × Int)),
      (s.lineDone p h x out g =
        if (n.doneHalf h).doneLo && (n.doneHalf h).doneHi then (s.handed p h d left (n.halfOver h spoilt)).lineThrough p (rowOf h) out
        else s.handed p h d left (n.halfOver h spoilt)) ∧
      d.line = n.line ∧ d.generation = g.number ∧ d.at_ = s.aon ∧
      (s.chk.injections = [] → d.bytes = xorAt (out.half h) x.byte x.mask) := by
  intro n
  unfold lineDone
  simp only [useInjections_eq]
  have hclean (hnone : s.chk.injections = []) (target : Nat) := planted_of_injections_nil hnone target p h n.line
  cases p
  · exact ⟨_, _, _, rfl, rfl, rfl, rfl, fun hnone => by simp only [n, hclean hnone, List.foldl_nil]⟩
  · exact ⟨_, _, _, rfl, rfl, rfl, rfl, fun hnone => by simp only [n, hclean hnone, List.foldl_nil]⟩

/-- What stands after an engine has finished its half. -/
theorem State.lineDone_spec (s : State) (p : Pipe) (h : Fin 32) (x : Upset) (out : LineOut) (g : Gen) :
    let n := (s.rows[rowOf h]).run p
    let u := s.lineDone p h x out g
    ∃ d : LineSet, u.cvu h = (s.cvu h).queued p d ∧ d.line = n.line ∧ d.generation = g.number ∧ d.at_ = s.aon ∧
      (s.chk.injections = [] → d.bytes = xorAt (out.half h) x.byte x.mask) ∧
      (((n.doneHalf h).doneLo && (n.doneHalf h).doneHi) = false →
        ((u.rows[rowOf h]).run p).halfDone h = true ∧ ((u.rows[rowOf h]).run p).line = n.line) ∧
      (((n.doneHalf h).doneLo && (n.doneHalf h).doneHi) = true → ((u.rows[rowOf h]).run p).line = n.line + 1) ∧
      (u.rows[rowOf h]).agreed = (s.rows[rowOf h]).agreed ∧ Claims.SameElsewhere s u := by
  intro n u
  obtain ⟨d, left, spoilt, hdone, hline, hgen, hat, hbytes⟩ := s.lineDone_eq p h x out g
  obtain ⟨hcvu, hpipe, hagreed, helse⟩ := s.handed_spec p h d left (n.halfOver h spoilt)
  by_cases hboth : ((n.doneHalf h).doneLo && (n.doneHalf h).doneHi) = true
  · have hu : u = (s.handed p h d left (n.halfOver h spoilt)).lineThrough p (rowOf h) out := hdone.trans (if_pos hboth)
    obtain ⟨hnext, hagreed', hcvus, helse'⟩ := (s.handed p h d left (n.halfOver h spoilt)).lineThrough_spec p (rowOf h) out
    rw [hu]
    refine ⟨d, (congrArg (fun v : Vector Cvu 32 => v[h]) hcvus).trans hcvu, hline, hgen, hat, hbytes, fun hone => ?_, fun _ => ?_,
      hagreed'.trans hagreed, sameElsewhere_trans helse helse'⟩
    · rw [hboth] at hone
      exact absurd hone Bool.true_eq_false.mp
    · rw [hnext, hpipe, PipeRun.line_halfOver]
  · have hu : u = s.handed p h d left (n.halfOver h spoilt) := hdone.trans (if_neg hboth)
    rw [hu, hpipe]
    exact ⟨d, hcvu, hline, hgen, hat, hbytes, fun _ => ⟨n.halfDone_halfOver h spoilt, n.line_halfOver h spoilt⟩,
      fun hall => absurd hall hboth, hagreed, helse⟩

theorem State.engineDone_of_ready {s : State} {p : Pipe} {h : Fin 32} (hworks : s.works p (rowOf h) = true) (hfed : s.fed p (rowOf h) = true)
    (hopen : ((s.rows[rowOf h]).run p).halfDone h = false) (x : Upset) :
    s.engineDone p h x =
      let n := (s.rows[rowOf h]).run p
      let g := s.lineGen (rowOf h) n.line
      s.lineDone p h x (expandLine s.hamper s.layout s.job.seq g (rowOf h) n.line n.walk n.carry n.hist) g := by
  simp only [engineDone, hworks, hfed, hopen, Bool.not_false, Bool.and_self, if_true]

theorem exec_engineLineDone_hands (p : Pipe) (h : Fin 32) (x : Upset) (t : Nat) (s : State) (hworks : (s.at t).works p (rowOf h) = true)
    (hfed : (s.at t).fed p (rowOf h) = true) (hopen : ((s.rows[rowOf h]).run p).halfDone h = false) :
    let n := (s.rows[rowOf h]).run p
    let g := s.lineGen (rowOf h) n.line
    let out := expandLine s.hamper s.layout s.job.seq g (rowOf h) n.line n.walk n.carry n.hist
    ∃ (u : State) (d : LineSet), exec (.engineLineDone p h x t) s = .next u ∧ d.line = n.line ∧ d.generation = g.number ∧
      d.at_ = max s.aon t ∧
      (u.cvu h).prims = (match p with | .primary => (s.cvu h).prims ++ [d] | .shadow => (s.cvu h).prims) ∧
      (u.cvu h).shads = (match p with | .primary => (s.cvu h).shads | .shadow => (s.cvu h).shads ++ [d]) ∧
      (s.chk.injections = [] → d.bytes = xorAt (out.half h) x.byte x.mask) ∧
      ((n.doneHalf h).doneLo && (n.doneHalf h).doneHi = false →
        ((u.rows[rowOf h]).run p).halfDone h = true ∧ ((u.rows[rowOf h]).run p).line = n.line) ∧
      ((n.doneHalf h).doneLo = true → (n.doneHalf h).doneHi = true → ((u.rows[rowOf h]).run p).line = n.line + 1) ∧
      (u.rows[rowOf h]).agreed = (s.rows[rowOf h]).agreed ∧ Claims.SameElsewhere s u := by
  intro n g out
  have hrun : exec (.engineLineDone p h x t) s = .next ((s.at t).lineDone p h x out g) :=
    congrArg _ (State.engineDone_of_ready hworks hfed hopen x)
  obtain ⟨d, hcvu, hline, hgen, hat, hbytes, hone, hboth, hagreed, helse⟩ := (s.at t).lineDone_spec p h x out g
  refine ⟨_, d, hrun, hline, hgen, hat, (congrArg Cvu.prims hcvu).trans (Cvu.prims_queued ..),
    (congrArg Cvu.shads hcvu).trans (Cvu.shads_queued ..), hbytes, fun hlo => hone ?_, fun hlo hhi => hboth ?_, hagreed, helse⟩
  · obtain ⟨_, hhi⟩ := Bool.and_eq_true_iff.1 hlo
    exact Bool.and_eq_false_iff.2 (.inr (of_decide_eq_true hhi))
  · exact Bool.and_eq_true_iff.2 ⟨hlo, hhi⟩

/-! ### A first mismatch of a row (R208, R214) -/

/-- A mismatch is pending where none was: what it leaves in the row, what it posts and tells, and what it leaves alone. -/
structure MismatchPending (s u : State) (h : Fin 32) (line : Nat) (kind : MisKind) : Prop where
  mismatch : (u.rows[rowOf h]).mismatch.map (fun y => (y.line, y.kind, y.half)) = [(line, kind, h)]
  squash : (u.rows[rowOf h]).squash = some { line := line, why := .retry }
  posts : Claims.Posts s u [0x0280]
  cvus : u.chk.cvus = s.chk.cvus
  told : u.fsv.inbox.length = s.fsv.inbox.length + 1
  elsewhere : Claims.SameElsewhere s u

theorem State.mismatchAt_first {s : State} {h : Fin 32} (hnone : (s.rows[rowOf h]).mismatch = []) (hsquash : (s.rows[rowOf h]).squash = none)
    (line : Nat) (kind : MisKind) (seg : BitVec 16) (inj : Bool) (bad : CvuUpset) :
    MismatchPending s (s.mismatchAt (rowOf h) h line kind seg inj bad) h line kind := by
  unfold mismatchAt
  simp only [hnone, List.find?_nil]
  refine ⟨?_, ?_, ?_, ?_, ?_, ?_⟩
  · simp only [wantSquash, updRow_value, getElem_upd_self, detect_rows, misEvent_frame, updCtx_frame, hnone]
    rfl
  · simp only [wantSquash, updRow_value, getElem_upd_self, detect_rows, misEvent_frame, updCtx_frame, hsquash]
  · simp [Claims.Posts, misEvent, post, postEv]
  · simp [updCtx]
  · simp
  · simp [Claims.SameElsewhere]

theorem SpcRow.reported_of_mismatch_nil {x : SpcRow} (hnone : x.mismatch = []) (h : Fin 32) (line : Nat) : x.reported h line = false := by
  rw [reported, hnone, List.any_nil]

theorem exec_missingTimeout_pending (h : Fin 32) (bad : CvuUpset) (t : Nat) (s : State) (d : LineSet) (hmissing : (s.at t).setMissing h = some d)
    (hcompares : (s.rows[rowOf h]).compares (s.cvu h).next = true) (hnone : (s.rows[rowOf h]).mismatch = [])
    (hsquash : (s.rows[rowOf h]).squash = none) :
    ∃ u, exec (.missingTimeout h bad t) s = .next u ∧
      (u.rows[rowOf h]).mismatch.map (fun y => (y.line, y.kind, y.half)) = [((s.cvu h).next, .missing, h)] ∧
      (u.rows[rowOf h]).squash = some { line := (s.cvu h).next, why := .retry } ∧ Claims.Posts s u [0x0280] ∧ Claims.SameElsewhere s u := by
  have hcond : ((s.rows[rowOf h]).compares (s.cvu h).next && !(s.rows[rowOf h]).reported h (s.cvu h).next) = true := by
    rw [hcompares, SpcRow.reported_of_mismatch_nil hnone]
    rfl
  have hrun : (s.at t).missing h bad = (s.at t).mismatchAt (rowOf h) h (s.cvu h).next .missing 0 d.injected bad := by
    unfold State.missing
    simp only [hmissing]
    exact if_pos hcond
  have hpending := State.mismatchAt_first (s := s.at t) hnone hsquash (s.cvu h).next .missing 0 d.injected bad
  exact ⟨_, congrArg Host.Outcome.next hrun, hpending.mismatch, hpending.squash, hpending.posts, hpending.elsewhere⟩

theorem exec_couplingTimeout_pending (p : Pipe) (h : Fin 32) (waits : Nat) (bad : CvuUpset) (t : Nat) (s : State)
    (hstalled : (s.at t).stalled p h waits = true) :
    let n := ((s.rows[rowOf h]).run p).line
    (s.rows[rowOf h]).compares n = true → (s.rows[rowOf h]).mismatch = [] → (s.rows[rowOf h]).squash = none →
    ∃ u, exec (.couplingTimeout p h waits bad t) s = .next u ∧
      (u.rows[rowOf h]).mismatch.map (fun y => (y.line, y.kind, y.half)) = [(n, .timeout, h)] ∧
      (u.rows[rowOf h]).squash = some { line := n, why := .retry } ∧ Claims.Posts s u [0x0280] ∧ Claims.SameElsewhere s u := by
  intro n hcompares hnone hsquash
  have hcond : ((s.at t).stalled p h waits && (s.rows[rowOf h]).compares n && !(s.rows[rowOf h]).reported h n) = true := by
    rw [hstalled, hcompares, SpcRow.reported_of_mismatch_nil hnone]
    rfl
  have hrun : (s.at t).couplingTimeout p h waits bad = (s.at t).mismatchAt (rowOf h) h n .timeout 0 false bad := if_pos hcond
  have hpending := State.mismatchAt_first (s := s.at t) hnone hsquash n .timeout 0 false bad
  exact ⟨_, congrArg Host.Outcome.next hrun, hpending.mismatch, hpending.squash, hpending.posts, hpending.elsewhere⟩

/-! ### The comparison up to its result (R207, R210) -/

theorem State.cvuSelf_clean {s : State} {fn : Fin 38} (hunit : (s.chk.units[fn]).isSome = true) (r : Fin 16) (line : Nat) (inj : Bool) :
    s.cvuSelf fn r line 0 inj = (s.latentStep fn line, true) := by
  obtain ⟨unit, hunit⟩ := Option.isSome_iff_exists.1 hunit
  unfold cvuSelf
  simp only [hunit]

/-- With no self-check failing a unit compares the sets of its next line, after its latent test. -/
theorem State.lineCompare_clean {s : State} {h : Fin 32} {bad : CvuUpset} {a : LineSet} {b : Option LineSet}
    (hunit : (s.chk.units[lineUnit h]).isSome = true) (hready : s.setsReady h = some (a, b))
    (hcompares : (s.rows[rowOf h]).compares (s.cvu h).next = true) (hreported : (s.rows[rowOf h]).reported h (s.cvu h).next = false)
    (hwaiting : (s.rows[rowOf h]).waiting = none) (hinjections : s.chk.injections = []) (hbad : bad.unit = 0) :
    s.lineCompare h bad = (s.latentStep (lineUnit h) (s.cvu h).next).compareSets h a b bad := by
  have hkept : ({ s with chk := { s.chk with injections := [] } } : State) = s := by rw [← hinjections]
  unfold lineCompare
  simp only [hwaiting, hready, hcompares, hreported, hinjections, hbad, List.filter_nil, List.foldl_nil, hkept, Nat.add_zero,
    cvuSelf_clean hunit, Bool.not_true, Bool.or_false, Bool.false_eq_true, if_false, if_true]

/-- The state of a unit that holds the set of its next line as matched. -/
def State.heldMatched (s : State) (h : Fin 32) (a : LineSet) : State :=
  s.updCvu h (fun u => { u with next := u.next + 1, prims := u.prims.drop 1, shads := u.shads.drop 1, matched := u.matched ++ [a] })

theorem State.compareSets_match {s : State} {h : Fin 32} {a : LineSet} {b : Option LineSet} (hsame : differs h (s.cvu h).next a b = none)
    (bad : CvuUpset) : s.compareSets h a b bad = (s.heldMatched h a).tryAgree (rowOf h) := by
  unfold compareSets
  simp only [hsame]
  rfl

theorem State.compareSets_differ {s : State} {h : Fin 32} {a : LineSet} {b : Option LineSet} {k : MisKind} {m : BitVec 16}
    (hdiffer : differs h (s.cvu h).next a b = some (k, m)) (hnone : (s.rows[rowOf h]).mismatch = [])
    (hsquash : (s.rows[rowOf h]).squash = none) (bad : CvuUpset) :
    MismatchPending s (s.compareSets h a b bad) h (s.cvu h).next k := by
  unfold compareSets
  simp only [hdiffer]
  exact mismatchAt_first hnone hsquash ..

/-! ### Lines are agreed (R153) -/

/-- A row agrees on no line while one of its halves holds none that has matched. -/
theorem State.tryAgree_of_matched_nil {s : State} {k : Fin 32} (hnone : (s.cvu k).matched = []) : s.tryAgree (rowOf k) = s := by
  unfold tryAgree
  rcases half_cases k with hk | hk
  · rw [← hk, hnone]
  · rw [← hk, hnone]
    split
    next heq => exact absurd heq (List.cons_ne_nil _ _).symm
    next => rfl

/-- A unit whose oldest matched line has been taken out. -/
def Cvu.taken (u : Cvu) : Cvu := { u with matched := u.matched.drop 1 }

theorem State.tryAgree_of_heads {s : State} {r : Fin 16} {lo hi : LineSet} (hlo : (s.cvu (half0 r)).matched.head? = some lo)
    (hhi : (s.cvu (half1 r)).matched.head? = some hi) (hline : lo.line = hi.line) :
    s.tryAgree r = ((s.updCvu (half0 r) Cvu.taken).updCvu (half1 r) Cvu.taken).agree r lo hi := by
  obtain ⟨los, hlo⟩ := List.head?_eq_some_iff.1 hlo
  obtain ⟨his, hhi⟩ := List.head?_eq_some_iff.1 hhi
  unfold tryAgree
  simp only [hlo, hhi, hline, if_true]
  rfl

/-- The lines agreed are the same in every row. -/
structure AgreedKept (s u : State) : Prop where
  agreed : ∀ k : Fin 16, (u.rows[k]).agreed = (s.rows[k]).agreed

namespace AgreedKept

theorem refl (s : State) : AgreedKept s s := ⟨fun _ => rfl⟩

theorem trans {s t u : State} (h₁ : AgreedKept s t) (h₂ : AgreedKept t u) : AgreedKept s u :=
  ⟨fun k => (h₂.agreed k).trans (h₁.agreed k)⟩

theorem of_rows_eq {s t u : State} (h : AgreedKept s t) (hrows : u.rows = t.rows := by rfl) : AgreedKept s u :=
  ⟨fun k => by rw [hrows, h.agreed k]⟩

section Then

variable {s t : State} (h : AgreedKept s t)
include h

theorem updRow {r : Fin 16} {f : SpcRow → SpcRow} (hf : (f t.rows[r]).agreed = (t.rows[r]).agreed := by rfl) :
    AgreedKept s (t.updRow r f) :=
  h.trans ⟨getElem_upd_keep hf⟩

theorem foldl_updTx (l : List (Fin 32)) (f : Fin 32 → TxLane → TxLane) : AgreedKept s (l.foldl (fun s h => s.updTx h (f h)) t) :=
  h.of_rows_eq (foldl_rows _ l t fun _ _ => rfl)

theorem post (code : BitVec 16) (cls : Fin 4) (data : List DataField) : AgreedKept s (t.post code cls data) := h.of_rows_eq

theorem wasteMark (r : Fin 16) (first last : Nat) (cause : Byte) : AgreedKept s (t.wasteMark r first last cause) := h.of_rows_eq

theorem ringWrote (r : Fin 16) (n : Nat) : AgreedKept s (t.ringWrote r n) := h.of_rows_eq

end Then

end AgreedKept

theorem State.readSingles_rows (s : State) (reader : MemReader) (a n : Nat) : (s.readSingles reader a n).rows = s.rows := by
  refine foldl_rows _ _ s fun t c => ?_
  unfold dramSingle
  dsimp only
  split
  · rfl
  · rfl

theorem State.agreedKept_poisonLasting_fsq (s : State) (addr : Nat) : AgreedKept s (s.poisonLasting addr .fsq) := by
  unfold poisonLasting
  dsimp only
  split
  next r n _ => exact ite_rel (.refl s) (((AgreedKept.refl s).updRow (r := r)).wasteMark ..)
  next => exact .refl s

theorem State.agreedKept_dramDouble_fsq (s : State) (addr : Nat) (again : Bool) : AgreedKept s (s.dramDouble addr again .fsq) := by
  unfold dramDouble
  dsimp only
  split
  · exact .trans (.of_rows_eq (.refl s)) (agreedKept_poisonLasting_fsq ..)
  · exact .of_rows_eq (.refl s)

theorem State.agreedKept_copyLine (s : State) (r : Fin 16) (n : Nat) : AgreedKept s (s.copyLine r n) := by
  unfold copyLine
  split
  next a _ =>
    refine ite_rel (.refl s) ?_
    split
    · exact s.agreedKept_dramDouble_fsq ..
    · have hread : AgreedKept s ((s.readSingles .fsq (ringSlot r n) 0x2000).readSingles .fsq (descSlot r n) 128) :=
        .of_rows_eq (.refl s) ((readSingles_rows ..).trans (readSingles_rows ..))
      let slot : BufLine := { data := a, poured := false, lo := HalfSend.fresh, hi := HalfSend.fresh }
      exact (hread.updRow (r := r) (f := fun x => { x with buffer := x.buffer ++ [slot] })).of_rows_eq
  next => exact .refl s

theorem State.agreedKept_withholdPour (s : State) (r : Fin 16) (n : Nat) (reason cause : Byte) :
    AgreedKept s (s.withholdPour r n reason cause) := by
  have hnoted : AgreedKept s (s.noteWithheld r n reason cause) := ite_rel (.refl s) ((AgreedKept.refl s).updRow.wasteMark ..)
  exact hnoted.foldl_updTx _ _

theorem State.agreedKept_dryPost (s : State) (r : Fin 16) : AgreedKept s (s.dryPost r) := by
  unfold dryPost
  dsimp only
  split
  · exact ite_rel ((AgreedKept.refl s).updRow.post ..) (.refl s)
  · exact .refl s

theorem State.agreedKept_replayLate (s : State) (r : Fin 16) : AgreedKept s (s.replayLate r) := by
  unfold replayLate
  split
  · split
    · exact (AgreedKept.refl s).updRow.post ..
    · exact .refl s
  · exact .refl s

theorem State.agreedKept_notAgreed (s : State) (r : Fin 16) (n : Nat) : AgreedKept s (s.notAgreed r n) := by
  have hlate : AgreedKept s ((s.withholdPour r n 0 0x01).updRow r (fun x => { x with lateLines := satAdd x.lateLines 1 })) :=
    (s.agreedKept_withholdPour ..).updRow
  unfold notAgreed
  dsimp only
  split
  · exact hlate.updRow
  · exact hlate.updRow.trans (agreedKept_dryPost ..)

theorem State.agreedKept_pourLine (s : State) (r : Fin 16) (n : Nat) : AgreedKept s (s.pourLine r n) := by
  unfold pourLine
  refine ite_rel (.refl s) ?_
  split
  · exact (AgreedKept.refl s).foldl_updTx _ _
  · refine ite_rel (s.agreedKept_withholdPour ..) ?_
    split
    · exact s.agreedKept_notAgreed r n
    · refine ite_rel (s.agreedKept_withholdPour ..) (ite_rel (s.agreedKept_withholdPour ..) ?_)
      exact ((AgreedKept.refl s).updRow.foldl_updTx _ _).trans (agreedKept_replayLate ..)

theorem State.panicEval_rows (s : State) : s.panicEval.rows = s.rows := by
  unfold panicEval raisePanic clearPanic
  (repeat' split) <;> rfl

theorem State.agreedKept_feedLine (s : State) (r : Fin 16) (n : Nat) : AgreedKept s (s.feedLine r n) := by
  have hcopied : AgreedKept s (if n ≤ (s.lsd.rows[r]).next + 31 then (s.copyLine r n).panicEval else s) :=
    ite_rel ((s.agreedKept_copyLine r n).of_rows_eq (panicEval_rows _)) (.refl s)
  exact ite_rel (hcopied.trans (agreedKept_pourLine ..)) hcopied

theorem State.agreedKept_misTransient (s : State) (r : Fin 16) (line : Nat) (ckpt : Bool) : AgreedKept s (s.misTransient r line ckpt) := by
  have hfree (t : State) : (t.freeOpinion r).rows = t.rows := by
    unfold freeOpinion
    simp
  have hdropped : AgreedKept s (({ s with chk := { s.chk with misTransient := satAdd s.chk.misTransient 1 } }).updRow r
      (fun x => x.dropMismatch line)) :=
    (AgreedKept.of_rows_eq (.refl s)).updRow
  unfold misTransient
  split
  · exact .refl s
  · refine hdropped.of_rows_eq ?_
    simp only [detect_rows, misEvent_frame, updCtx_frame, hfree]

/-- The lowest line not agreed yet is agreed (R157). -/
theorem State.newAgreed_agreed (s : State) (r : Fin 16) (a : Agreed) : ((s.newAgreed r a).rows[r]).agreed = a.line + 1 := by
  have hset : ((s.updRow r (fun x => { x with agreed := a.line + 1 })).rows[r]).agreed = a.line + 1 := by
    rw [updRow_value, getElem_upd_self]
  have hring (t : State) : AgreedKept t
      (((t.updRow r (fun x => { x with ring := (a :: x.ring).take 4096 })).ringWrote r a.line).feedLine r a.line) :=
    ((AgreedKept.refl t).updRow.ringWrote ..).trans (agreedKept_feedLine ..)
  refine Eq.trans (AgreedKept.agreed ?_ r) hset
  unfold newAgreed
  refine ite_rel (.refl _) ?_
  dsimp only
  split
  · exact ite_rel ((hring _).trans (agreedKept_replayLate ..)).updRow (hring _)
  · exact hring _

theorem State.agree_new {s : State} {r : Fin 16} {lo hi : LineSet} (hline : lo.line = (s.rows[r]).agreed) :
    ((s.agree r lo hi).rows[r]).agreed = lo.line + 1 := by
  have hkept := (s.agreedKept_misTransient r lo.line false).agreed r
  unfold agree
  dsimp only
  rw [hkept, if_neg (by omega), if_pos hline, newAgreed_agreed]
  rfl

/-- A row whose halves both hold the lowest line not agreed agrees on it. -/
theorem State.tryAgree_agreed {s : State} {h k : Fin 32} {a o : LineSet} (ha : (s.cvu h).matched.head? = some a)
    (ho : (s.cvu k).matched.head? = some o) (hrow : rowOf k = rowOf h) (hk : k ≠ h) (hline : a.line = (s.rows[rowOf h]).agreed)
    (hother : o.line = (s.rows[rowOf h]).agreed) : ((s.tryAgree (rowOf h)).rows[rowOf h]).agreed = (s.rows[rowOf h]).agreed + 1 := by
  have hagree (lo hi : LineSet) (hlo : lo.line = (s.rows[rowOf h]).agreed) (hsame : lo.line = hi.line)
      (h₀ : (s.cvu (half0 (rowOf h))).matched.head? = some lo) (h₁ : (s.cvu (half1 (rowOf h))).matched.head? = some hi) :
      ((s.tryAgree (rowOf h)).rows[rowOf h]).agreed = (s.rows[rowOf h]).agreed + 1 := by
    rw [tryAgree_of_heads h₀ h₁ hsame, ← hlo]
    exact agree_new hlo
  have hkcases : k = half0 (rowOf h) ∨ k = half1 (rowOf h) := hrow ▸ half_cases k
  rcases half_cases h with hh | hh
  · have hkhi : k = half1 (rowOf h) := hkcases.resolve_left fun hk' => hk (hk'.trans hh.symm)
    exact hagree a o hline (hline.trans hother.symm) (hh ▸ ha) (hkhi ▸ ho)
  · have hklo : k = half0 (rowOf h) := hkcases.resolve_right fun hk' => hk (hk'.trans hh.symm)
    exact hagree o a hother (hother.trans hline.symm) (hklo ▸ ho) (hh ▸ ha)

theorem State.compareSets_alone {s : State} {h : Fin 32} {a : LineSet} {b : Option LineSet} (hsame : differs h (s.cvu h).next a b = none)
    (hothers : ∀ k : Fin 32, rowOf k = rowOf h → k ≠ h → (s.cvu k).matched = []) (bad : CvuUpset) :
    s.compareSets h a b bad = s.heldMatched h a := by
  obtain ⟨k, hrow, hk⟩ := exists_otherHalf h
  have hnone : ((s.heldMatched h a).cvu k).matched = [] := by
    rw [heldMatched, cvu_updCvu_ne _ hk]
    exact hothers k hrow hk
  rw [compareSets_match hsame, ← hrow, tryAgree_of_matched_nil hnone]

theorem State.compareSets_agrees {s : State} {h k : Fin 32} {a o : LineSet} {b : Option LineSet} (hsame : differs h (s.cvu h).next a b = none)
    (hnone : (s.cvu h).matched = []) (hrow : rowOf k = rowOf h) (hk : k ≠ h) (hother : (s.cvu k).matched.head? = some o)
    (ho : o.line = (s.rows[rowOf h]).agreed) (ha : a.line = (s.rows[rowOf h]).agreed) (bad : CvuUpset) :
    ((s.compareSets h a b bad).rows[rowOf h]).agreed = (s.rows[rowOf h]).agreed + 1 := by
  have hself : ((s.heldMatched h a).cvu h).matched.head? = some a := by
    rw [heldMatched, cvu_updCvu_self]
    exact congrArg (fun l => (l ++ [a]).head?) hnone
  have hhead : ((s.heldMatched h a).cvu k).matched.head? = some o := by
    rw [heldMatched, cvu_updCvu_ne _ hk]
    exact hother
  rw [compareSets_match hsame]
  exact tryAgree_agreed hself hhead hrow hk ha ho

/-! ### LINE_COMPARE (R207, R208) -/

/-- The latent test changes nothing that a mismatch is judged against. -/
theorem MismatchPending.of_latentStep {s u : State} {fn : Fin 38} {n : Nat} {h : Fin 32} {line : Nat} {kind : MisKind}
    (hpending : MismatchPending (s.latentStep fn n) u h line kind) : MismatchPending s u h line kind := by
  rw [State.latentStep_eq] at hpending
  obtain ⟨hmismatch, hsquash, hposts, hcvus, htold, helse⟩ := hpending
  exact ⟨hmismatch, hsquash, hposts, hcvus, htold, helse⟩

theorem exec_lineCompare_complete (h : Fin 32) (bad : CvuUpset) (t : Nat) (s : State) (a : LineSet) (b : Option LineSet)
    (hunit : (s.chk.units[lineUnit h]).isSome = true) (hready : s.setsReady h = some (a, b))
    (hcompares : (s.rows[rowOf h]).compares (s.cvu h).next = true) (hreported : (s.rows[rowOf h]).reported h (s.cvu h).next = false)
    (hwaiting : (s.rows[rowOf h]).waiting = none) (hinjections : s.chk.injections = []) (hbad : bad.unit = 0) :
    (differs h (s.cvu h).next a b = none → (∀ k : Fin 32, rowOf k = rowOf h → k ≠ h → (s.cvu k).matched = []) →
      exec (.lineCompare h bad t) s = .next (((s.at t).latentStep (lineUnit h) (s.cvu h).next).updCvu h (fun u => { u with
        next := u.next + 1, prims := u.prims.drop 1, shads := u.shads.drop 1, matched := u.matched ++ [a] }))) ∧
    (∀ (o : LineSet) (k : Fin 32), differs h (s.cvu h).next a b = none → (s.cvu h).matched = [] → rowOf k = rowOf h → k ≠ h →
      (s.cvu k).matched.head? = some o → o.line = (s.rows[rowOf h]).agreed → a.line = (s.rows[rowOf h]).agreed →
      ∃ u, exec (.lineCompare h bad t) s = .next u ∧ (u.rows[rowOf h]).agreed = (s.rows[rowOf h]).agreed + 1) ∧
    (∀ (k : MisKind) (m : BitVec 16), differs h (s.cvu h).next a b = some (k, m) → (s.rows[rowOf h]).mismatch = [] → (s.rows[rowOf h]).squash = none →
      ∃ u, exec (.lineCompare h bad t) s = .next u ∧ (u.rows[rowOf h]).mismatch.map (fun y => (y.line, y.kind, y.half)) = [((s.cvu h).next, k, h)] ∧
        (u.rows[rowOf h]).squash = some { line := (s.cvu h).next, why := .retry } ∧ Claims.Posts s u [0x0280] ∧ (u.cvu h).prims = (s.cvu h).prims ∧
        u.fsv.inbox.length = s.fsv.inbox.length + 1 ∧ Claims.SameElsewhere s u) := by
  let w := (s.at t).latentStep (lineUnit h) (s.cvu h).next
  have hrun : exec (.lineCompare h bad t) s = .next (w.compareSets h a b bad) :=
    congrArg Host.Outcome.next (State.lineCompare_clean (s := s.at t) hunit hready hcompares hreported hwaiting hinjections hbad)
  have hcvu (k : Fin 32) : w.cvu k = s.cvu k := State.cvu_latentStep ..
  have hrows : w.rows = s.rows := by simp [w]
  rw [hrun]
  refine ⟨fun hsame hothers => ?_, fun o k hsame hnone hrow hk hother ho ha => ⟨_, rfl, ?_⟩, fun k m hdiffer hnone hsquash => ?_⟩
  · rw [← hcvu] at hsame
    exact congrArg Host.Outcome.next (State.compareSets_alone hsame (fun k hrow hk => by rw [hcvu, hothers k hrow hk]) bad)
  · rw [← hcvu] at hsame hnone hother
    rw [← hrows] at ho ha ⊢
    exact State.compareSets_agrees hsame hnone hrow hk hother ho ha bad
  · rw [← hcvu] at hdiffer
    rw [← hrows] at hnone hsquash
    have hpending := (State.compareSets_differ hdiffer hnone hsquash bad).of_latentStep
    rw [hcvu] at hpending
    exact ⟨_, rfl, hpending.mismatch, hpending.squash, hpending.posts, congrArg (fun v : Vector Cvu 32 => (v[h]).prims) hpending.cvus,
      hpending.told, hpending.elsewhere⟩

/-- Settles O37: what a pipeline's half leaves behind (`State.lineDone_spec`), a comparison up to its result (`State.lineCompare_clean`),
and one lemma for the first mismatch of a row, whatever its kind (`State.mismatchAt_first`). Of a pipeline that is not through,
`State.lineDone_spec` says the same of either half; the clause, as Lean reads its `&&` and `=`, asks for the lower half done and the
upper one not. -/
theorem enginesHandOverLines : Obligations.EnginesHandOverLines :=
  ⟨exec_engineLineDone_hands, exec_lineCompare_complete, exec_missingTimeout_pending, exec_couplingTimeout_pending⟩

end Sys2Proof.Machine
end

section
/-! PROOF. Checkpoints are compared, squashes restart rows, and late or dry lines are reported (07 R162, R164 to R168, R171 to R173): O38. -/

namespace Sys2Proof.Machine

/-! ### Events posted one after the other -/

theorem posts_nil (s : State) : Claims.Posts s s [] := (List.append_nil _).symm

theorem posts_post (s : State) (code : BitVec 16) (cls : Fin 4) (data : List DataField) : Claims.Posts s (s.post code cls data) [code] :=
  List.map_append

theorem posts_trans {s t u : State} {l₁ l₂ : List (BitVec 16)} (h₁ : Claims.Posts s t l₁) (h₂ : Claims.Posts t u l₂) :
    Claims.Posts s u (l₁ ++ l₂) :=
  h₂.trans ((congrArg (· ++ l₂) h₁).trans (List.append_assoc ..))

/-! ### Two updates of one element -/

theorem upd_self {α : Type} {n : Nat} (v : Vector α n) (i : Fin n) {f : α → α} (h : f v[i] = v[i]) : upd v i f = v := by
  unfold upd
  rw [h]
  exact Vector.set_getElem_self i.isLt

theorem upd_upd {α : Type} {n : Nat} (v : Vector α n) (i : Fin n) (f g : α → α) : upd (upd v i f) i g = upd v i (fun x => g (f x)) := by
  rw [upd, getElem_upd_self]
  exact Vector.set_set ..

/-! ### Reports of late and dry lines (R171, R172) -/

theorem State.replayLate_posts {s : State} {r : Fin 16} {p : Replay} {l : Nat × Nat × Nat} (hp : (s.rows[r]).replay = some p)
    (hl : p.late = some l) :
    s.replayLate r = (s.updRow r (fun x => { x with replay := some { p with late := none } })).post 0x0251 clsJob
      [(1, r.val), (8, p.q), (8, l.1), (8, l.2.1), (4, l.2.2)] := by
  simp only [replayLate, hp, hl]

theorem State.replayLate_of_none {s : State} {r : Fin 16} (hnone : (s.rows[r]).replay = none) : s.replayLate r = s := by
  simp only [replayLate, hnone]

/-- What a replay withheld counts as reported. -/
def SpcRow.reportedLate (x : SpcRow) : SpcRow := { x with replay := x.replay.map (fun p => { p with late := none }) }

theorem State.replayLate_rows (s : State) (r : Fin 16) : (s.replayLate r).rows = upd s.rows r SpcRow.reportedLate := by
  have hsame (h : (s.rows[r]).reportedLate = s.rows[r]) : s.rows = upd s.rows r SpcRow.reportedLate := (upd_self _ _ h).symm
  cases hp : (s.rows[r]).replay with
  | none =>
    rw [replayLate_of_none hp]
    exact hsame (by rw [SpcRow.reportedLate, hp, Option.map_none, ← hp])
  | some p =>
    cases hl : p.late with
    | none =>
      have hkept : s.replayLate r = s := by simp only [replayLate, hp, hl]
      have hquiet : ({ p with late := none } : Replay) = p := by rw [← hl]
      rw [hkept]
      exact hsame (by rw [SpcRow.reportedLate, hp, Option.map_some, hquiet, ← hp])
    | some l =>
      rw [replayLate_posts hp hl, post_rows, updRow_value]
      unfold upd SpcRow.reportedLate
      rw [hp, Option.map_some]

theorem State.lateDue_late {s : State} {r : Fin 16} {p : Replay} (hp : (s.rows[r]).replay = some p) (hdue : s.lateDue r = true) :
    ∃ l, p.late = some l := by
  cases hl : p.late with
  | none =>
    unfold lateDue at hdue
    simp only [hp, Option.bind_some, hl] at hdue
    exact absurd hdue Bool.false_ne_true
  | some l => exact ⟨l, rfl⟩

theorem exec_spcReplayLate_due (r : Fin 16) (t : Nat) (s : State) (p : Replay) (hp : (s.rows[r]).replay = some p)
    (hdue : s.lateDue r = true) :
    ∃ u, exec (.spcReplayLate r t) s = .next u ∧ u.rows = upd s.rows r (fun x => { x with replay := some { p with late := none } }) ∧
      Claims.Posts s u [0x0251] ∧ u = { s.at t with rows := u.rows, mbx := u.mbx } := by
  obtain ⟨l, hl⟩ := State.lateDue_late hp hdue
  have hdue' : (s.at t).lateDue r = true := hdue
  have hrun : exec (.spcReplayLate r t) s = .next ((s.at t).replayLate r) := congrArg _ (if_pos hdue')
  rw [State.replayLate_posts (s := s.at t) hp hl] at hrun
  exact ⟨_, hrun, rfl, posts_post .., rfl⟩

theorem State.dryPost_due {s : State} {r : Fin 16} {l : Nat × Nat × Nat} (hdry : (s.rows[r]).dry = some l)
    (hdue : ∀ t, (s.rows[r]).dryAt = some t → t + ms 1 ≤ s.aon) :
    s.dryPost r = (s.updRow r (fun x => { x with dry := none, dryAt := some s.aon })).post 0x0250 clsJob
      [(1, r.val), (8, l.1), (8, l.2.1), (4, l.2.2)] := by
  unfold dryPost
  simp only [hdry]
  cases hat : (s.rows[r]).dryAt with
  | none => rfl
  | some t => simp only [hdue t hat, decide_true, if_true]

theorem exec_spcDry_due (r : Fin 16) (t : Nat) (s : State) (hdry : (s.rows[r]).dry.isSome = true)
    (hdue : ∀ t0, (s.rows[r]).dryAt = some t0 → t0 + 1000000 * 2 ^ 32 ≤ max s.aon t) :
    ∃ u, exec (.spcDry r t) s = .next u ∧ u.rows = upd s.rows r (fun x => { x with dry := none, dryAt := some (max s.aon t) }) ∧
      Claims.Posts s u [0x0250] ∧ u = { s.at t with rows := u.rows, mbx := u.mbx } := by
  obtain ⟨l, hl⟩ := Option.isSome_iff_exists.1 hdry
  have hrun : exec (.spcDry r t) s = .next ((s.at t).dryPost r) := rfl
  rw [State.dryPost_due (s := s.at t) hl hdue] at hrun
  exact ⟨_, hrun, rfl, posts_post .., rfl⟩

/-! ### CHECKPOINT_COMPARE (R162) -/

theorem SpcRow.waiting_of_mismatch_nil {x : SpcRow} (hnone : x.mismatch = []) : x.waiting = none := by
  rw [waiting, hnone, List.find?_nil]

theorem State.misTransient_of_mismatch_nil {s : State} {r : Fin 16} (hnone : (s.rows[r]).mismatch = []) (line : Nat) (ckpt : Bool) :
    s.misTransient r line ckpt = s := by
  simp only [misTransient, hnone, List.find?_nil]

/-- The units that compare checkpoints make no latent test (09 R210). -/
theorem State.latentStep_ckptUnit (s : State) (r : Fin 16) (line : Nat) : s.latentStep (ckptUnit r) line = s := by
  have hval : ¬ (ckptUnit r).val < 34 := Nat.not_lt.2 (Nat.le_add_right ..)
  rw [latentStep, if_neg fun h => hval h.1]

theorem State.ckptPlanted_of_injections_nil {s : State} (hnone : s.chk.injections = []) (r : Fin 16) (line : Nat) :
    s.ckptPlanted r line = [] := by
  rw [ckptPlanted, planted_of_injections_nil hnone, planted_of_injections_nil hnone, List.append_nil]

/-- A checkpoint whose parts differ, marked bad and reported. -/
def State.ckptDiffers (s : State) (r : Fin 16) (c : Ckpt) (seen : PartCrcs) : State :=
  (s.setCkpt r { c with bad := true, shadow := some seen, injected := false }).ckptEvent r c.line (badPart c.parts seen) 0

/-- The comparison with no injection planted and no self-check failing. -/
theorem State.ckptCompare_clean {s : State} {r : Fin 16} {bad : CvuUpset} {c : Ckpt} {seen : PartCrcs} (harmed : s.armed = true)
    (hcomparable : (s.rows[r]).comparable = some c) (hunit : (s.chk.units[ckptUnit r]).isSome = true) (hshadow : c.shadow = some seen)
    (hnone : (s.rows[r]).mismatch = []) (hinjections : s.chk.injections = []) (hbad : bad.unit = 0) :
    s.ckptCompare r bad =
      if seen = c.parts then (s.setCkpt r { c with valid := true }).misTransient r c.line true
      else (s.ckptDiffers r c seen).mismatchAt r (half0 r) c.line .checkpoint 0 false bad := by
  unfold ckptCompare
  simp only [harmed, SpcRow.waiting_of_mismatch_nil hnone, hcomparable, hbad, cvuSelf_clean hunit, latentStep_ckptUnit,
    ckptPlanted_of_injections_nil hinjections, hshadow, Option.getD_some, List.foldl_nil, List.isEmpty_nil, Bool.not_true,
    Bool.false_eq_true, if_false, if_true]
  rfl

theorem exec_checkpointCompare_same (r : Fin 16) (bad : CvuUpset) (t : Nat) (s : State) (c : Ckpt)
    (hcomparable : (s.rows[r]).comparable = some c) (harmed : s.armed = true) (hunit : (s.chk.units[ckptUnit r]).isSome = true)
    (hshadow : c.shadow = some c.parts) (hnone : (s.rows[r]).mismatch = []) (hinjections : s.chk.injections = []) (hbad : bad.unit = 0) :
    exec (.checkpointCompare r bad t) s = .next ((s.at t).updRow r (fun x => { x with
      ckpts := { c with valid := true } :: x.ckpts.filter (fun y => y.line ≠ c.line) })) := by
  have hkept : (((s.at t).setCkpt r { c with valid := true }).rows[r]).mismatch = [] := by
    rw [State.setCkpt, State.updRow_value, getElem_upd_self]
    exact hnone
  have hrun : (s.at t).ckptCompare r bad = (s.at t).setCkpt r { c with valid := true } := by
    rw [State.ckptCompare_clean (s := s.at t) harmed hcomparable hunit hshadow hnone hinjections hbad, if_pos rfl,
      State.misTransient_of_mismatch_nil hkept]
  exact congrArg Host.Outcome.next hrun

/-- A first mismatch of a row: the squash it asks for, its event, and that it touches no checkpoint. -/
theorem State.mismatchAt_first_row {s : State} {r : Fin 16} {h : Fin 32} (hrow : rowOf h = r) (hnone : (s.rows[r]).mismatch = [])
    (hsquash : (s.rows[r]).squash = none) (line : Nat) (kind : MisKind) (seg : BitVec 16) (inj : Bool) (bad : CvuUpset) :
    let u := s.mismatchAt r h line kind seg inj bad
    (u.rows[r]).squash = some { line := line, why := .retry } ∧ (u.rows[r]).ckpts = (s.rows[r]).ckpts ∧ Claims.Posts s u [0x0280] ∧
      Claims.SameElsewhere s u := by
  subst hrow
  have hpending := mismatchAt_first hnone hsquash line kind seg inj bad
  refine ⟨hpending.squash, ?_, hpending.posts, hpending.elsewhere⟩
  unfold mismatchAt
  simp only [hnone, List.find?_nil]
  simp only [wantSquash, updRow_value, getElem_upd_self, detect_rows, misEvent_frame, updCtx_frame]

theorem State.ckptDiffers_row (s : State) (r : Fin 16) (c : Ckpt) (seen : PartCrcs) :
    (s.ckptDiffers r c seen).rows[r] = (s.rows[r]).putCkpt { c with bad := true, shadow := some seen, injected := false } :=
  getElem_upd_self ..

theorem State.ckptDiffers_posts (s : State) (r : Fin 16) (c : Ckpt) (seen : PartCrcs) : Claims.Posts s (s.ckptDiffers r c seen) [0x0252] :=
  posts_post (s.setCkpt r _) ..

theorem SpcRow.mem_putCkpt {x : SpcRow} {c y : Ckpt} (hy : y ∈ (x.putCkpt c).ckpts) (hline : y.line = c.line) : y = c := by
  rcases List.mem_cons.1 hy with rfl | hy
  · rfl
  · obtain ⟨_, hne⟩ := List.mem_filter.1 hy
    exact absurd hline (by simpa using hne)

theorem exec_checkpointCompare_differs (r : Fin 16) (bad : CvuUpset) (t : Nat) (s : State) (c : Ckpt) (v : PartCrcs)
    (hcomparable : (s.rows[r]).comparable = some c) (harmed : s.armed = true) (hunit : (s.chk.units[ckptUnit r]).isSome = true)
    (hshadow : c.shadow = some v) (hv : v ≠ c.parts) (hnone : (s.rows[r]).mismatch = []) (hsquash : (s.rows[r]).squash = none)
    (hinjections : s.chk.injections = []) (hbad : bad.unit = 0) :
    ∃ u, exec (.checkpointCompare r bad t) s = .next u ∧ (∀ y ∈ (u.rows[r]).ckpts, y.line = c.line → y.bad = true) ∧
      (u.rows[r]).squash = some { line := c.line, why := .retry } ∧ Claims.Posts s u [0x0252, 0x0280] ∧ Claims.SameElsewhere s u := by
  have hrun := State.ckptCompare_clean (s := s.at t) harmed hcomparable hunit hshadow hnone hinjections hbad
  rw [if_neg hv] at hrun
  have hrow := (s.at t).ckptDiffers_row r c v
  have hfirst : (((s.at t).ckptDiffers r c v).rows[r]).mismatch = [] := by
    rw [hrow]
    exact hnone
  have hfree : (((s.at t).ckptDiffers r c v).rows[r]).squash = none := by
    rw [hrow]
    exact hsquash
  obtain ⟨hmarked, hckpts, hposts, helse⟩ :=
    State.mismatchAt_first_row (rowOf_half0 r) hfirst hfree c.line .checkpoint 0 false bad
  refine ⟨_, congrArg Host.Outcome.next hrun, ?_, hmarked, posts_trans ((s.at t).ckptDiffers_posts r c v) hposts, helse⟩
  rw [hckpts, hrow]
  intro y hy hline
  rw [SpcRow.mem_putCkpt hy hline]

/-! ### A squash of lines not begun (R165, R168) -/

/-- A row whose squash has been counted. -/
def SpcRow.counted (x : SpcRow) : SpcRow := { x with squash := none, squashes := satAdd x.squashes 1 }

theorem exec_squash_none (r : Fin 16) (t : Nat) (s : State) (hnone : (s.rows[r]).squash = none) :
    exec (.squash r t) s = .next (s.at t) := by
  have hrun : (s.at t).applySquash r = s.at t := by
    unfold State.applySquash
    simp only [State.at_rows, hnone]
  exact congrArg Host.Outcome.next hrun

theorem exec_squash_of_wanted {r : Fin 16} {s : State} {q : SquashReq} (hwanted : (s.rows[r]).squash = some q) (harmed : s.armed = true)
    (t : Nat) : exec (.squash r t) s = .next ((s.at t).squashRow r q) := by
  have hat : (s.at t).armed = true := harmed
  have hrun : (s.at t).applySquash r = (s.at t).squashRow r q := by
    unfold State.applySquash
    simp only [State.at_rows, hwanted, hat, if_true]
  exact congrArg Host.Outcome.next hrun

theorem exec_squash_untouched (r : Fin 16) (t : Nat) (s : State) (n : Nat) (hwanted : (s.rows[r]).squash = some { line := n, why := .commit })
    (harmed : s.armed = true) (hfrontier : (s.rows[r]).frontier ≤ n) (hreplay : ∀ p, (s.rows[r]).replay = some p → p.q ≤ n) :
    exec (.squash r t) s = .next ((s.at t).updRow r (fun x => { x with squash := none, squashes := satAdd x.squashes 1 })) := by
  have huntouched : (s.rows[r]).untouched n = true := by
    unfold SpcRow.untouched
    cases hp : (s.rows[r]).replay with
    | none => simpa using hfrontier
    | some p => simpa using ⟨hfrontier, hreplay p hp⟩
  have hrun : (s.at t).squashRow r { line := n, why := .commit } = (s.at t).updRow r SpcRow.counted := if_pos ⟨huntouched, rfl⟩
  rw [exec_squash_of_wanted hwanted harmed, hrun]
  rfl

/-! ### Lines from Q on are discarded (R165, R171) -/

/-- The state in which a squash at line `n` has been counted, a running replay reported, and the lines from there on discarded. -/
def State.discarded (s : State) (r : Fin 16) (n : Nat) : State :=
  ((s.updRow r SpcRow.counted).replayLate r).updRow r (fun x => x.discard n)

theorem State.discarded_rows (s : State) (r : Fin 16) (n : Nat) :
    (s.discarded r n).rows = upd s.rows r (fun x => x.counted.reportedLate.discard n) := by
  rw [discarded, updRow_value, replayLate_rows, updRow_value, upd_upd, upd_upd]

theorem State.discarded_elsewhere (s : State) (r : Fin 16) (n : Nat) : Claims.SameElsewhere s (s.discarded r n) := by
  simp [Claims.SameElsewhere, discarded]

theorem State.discarded_of_replay_none {s : State} {r : Fin 16} (hnone : (s.rows[r]).replay = none) (n : Nat) :
    s.discarded r n = (s.updRow r SpcRow.counted).updRow r (fun x => x.discard n) := by
  have hkept : ((s.updRow r SpcRow.counted).rows[r]).replay = none := by
    rw [updRow_value, getElem_upd_self]
    exact hnone
  rw [discarded, replayLate_of_none hkept]

/-! ### The checkpoint restored (R164) -/

theorem State.pickCkpt_congr {s t : State} (hlayout : s.layout = t.layout) (hmiu : s.miu = t.miu) (r : Fin 16) (l : List Ckpt) :
    s.pickCkpt r l = t.pickCkpt r l := by
  have hfault (c : Ckpt) : s.ckptFault r c = t.ckptFault r c :=
    calc s.ckptFault r c = ({ t with layout := s.layout, miu := s.miu } : State).ckptFault r c := rfl
      _ = t.ckptFault r c := by rw [hlayout, hmiu]
  induction l with
  | nil => rfl
  | cons c l ih => rw [pickCkpt, pickCkpt, hfault, ih]

theorem SpcRow.candidates_discard (x : SpcRow) (n : Nat) : (x.discard n).candidates n = x.candidates n := by
  unfold candidates discard
  rw [List.filter_filter]
  congr 1
  exact List.filter_congr fun c _ => by cases decide (c.line ≤ n) <;> simp

/-- The choice of a checkpoint is that of the row as it was asked to squash. -/
theorem State.pickCkpt_discarded (s : State) (r : Fin 16) (n : Nat) :
    (s.discarded r n).pickCkpt r ((s.discarded r n).rows[r].candidates n) = s.pickCkpt r ((s.rows[r]).candidates n) := by
  rw [discarded_rows, getElem_upd_self, SpcRow.candidates_discard]
  exact pickCkpt_congr (by simp [discarded]) (by simp [discarded]) r _

/-- A line that has been begun is not merely counted. -/
theorem SpcRow.untouched_of_lt {x : SpcRow} {n : Nat} (hbegun : n < x.frontier) : x.untouched n = false := by
  rw [untouched, decide_eq_false (Nat.not_le.2 hbegun), Bool.false_and]

/-- A squash of a line that has been begun, where no candidate above the one chosen fails: a restart, or the row is lost (R164, R173). -/
theorem State.squashRow_begun {s : State} {r : Fin 16} {n : Nat} {o : Option Ckpt} (hbegun : n < (s.rows[r]).frontier)
    (hpick : s.pickCkpt r ((s.rows[r]).candidates n) = ([], o)) (why : SquashWhy) :
    s.squashRow r { line := n, why := why } =
      o.elim (((s.discarded r n).noCkpt r n).updRow r (fun x => { x with replay := none })) (fun c => (s.discarded r n).restart r c n) := by
  rw [← pickCkpt_discarded] at hpick
  unfold discarded SpcRow.counted at hpick
  unfold squashRow
  simp only [SpcRow.untouched_of_lt hbegun, Bool.false_eq_true, false_and, if_false, hpick]
  cases o with
  | none => rfl
  | some c => rfl

theorem exec_squash_begun {r : Fin 16} {s : State} {n : Nat} {why : SquashWhy} {o : Option Ckpt}
    (hwanted : (s.rows[r]).squash = some { line := n, why := why }) (harmed : s.armed = true) (hbegun : n < (s.rows[r]).frontier)
    (hpick : s.pickCkpt r ((s.rows[r]).candidates n) = ([], o)) (t : Nat) :
    exec (.squash r t) s = .next (o.elim ((((s.at t).discarded r n).noCkpt r n).updRow r (fun x => { x with replay := none }))
      (fun c => ((s.at t).discarded r n).restart r c n)) := by
  have hchoice : (s.at t).pickCkpt r (((s.at t).rows[r]).candidates n) = ([], o) :=
    (State.pickCkpt_congr (s := s.at t) (t := s) rfl rfl r _).trans hpick
  rw [exec_squash_of_wanted hwanted harmed, State.squashRow_begun (s := s.at t) hbegun hchoice]

/-! ### Both pipelines restart (R165) -/

/-- Where both pipelines of a row stand after a restart from a checkpoint. -/
def Ckpt.start (c : Ckpt) (now : Nat) : PipeRun :=
  { line := c.line, doneLo := false, doneHi := false, since := now, walk := c.walk, carry := c.carry, hist := c.hist, spoilt := [] }

/-- A row that has restarted from a checkpoint and is to replay the lines up to `q`. -/
def SpcRow.restarted (c : Ckpt) (q now : Nat) (x : SpcRow) : SpcRow :=
  { x with
    prim := c.start now, shad := c.start now, replay := some { q := q, c := c.line, late := none }
    ckpts := x.ckpts.map (fun d => if c.line < d.line then d.interrupted else d)
    mismatch := x.mismatch.map (fun m =>
      { m with retrying := true, waiting := m.waiting && decide (m.line < c.line), lo := false, hi := false }) }

theorem Ckpt.line_interrupted (c : Ckpt) : c.interrupted.line = c.line := by
  unfold interrupted
  (repeat' split) <;> rfl

theorem SpcRow.ckpts_restarted_discard {x : SpcRow} {c y : Ckpt} {q n now : Nat} (hy : y ∈ ((x.discard n).restarted c q now).ckpts) :
    y.line ≤ n := by
  obtain ⟨d, hd, rfl⟩ := List.mem_map.1 hy
  obtain ⟨_, hle⟩ := List.mem_filter.1 hd
  split
  · rw [Ckpt.line_interrupted]
    exact of_decide_eq_true hle
  · exact of_decide_eq_true hle

theorem State.joinPair_cvus (s : State) (r : Fin 16) (run : PipeRun) : (s.joinPair r run).chk.cvus = s.chk.cvus := by
  unfold joinPair
  (repeat' split) <;> rfl

/-- A row that has restarted, with its units, before an opinion pair joins it. -/
def State.rewound (s : State) (r : Fin 16) (c : Ckpt) (q : Nat) : State :=
  (((s.updRow r (SpcRow.restarted c q s.aon)).dropBands r).updCvu (half0 r) (·.restart c.line)).updCvu (half1 r) (·.restart c.line)

/-- What stands after a restart: the row, its units, and all that engines and checkers leave alone. -/
structure RowRestarted (s u : State) (r : Fin 16) (c : Ckpt) (q : Nat) : Prop where
  rows : u.rows = upd s.rows r (SpcRow.restarted c q s.aon)
  nextLo : (u.cvu (half0 r)).next = min (s.cvu (half0 r)).next c.line
  nextHi : (u.cvu (half1 r)).next = min (s.cvu (half1 r)).next c.line
  elsewhere : Claims.SameElsewhere s u

theorem State.dropBands_eq (s : State) (r : Fin 16) : s.dropBands r = { s with codec := (s.dropBands r).codec } := rfl

theorem State.rewound_restarted (s : State) (r : Fin 16) (c : Ckpt) (q : Nat) : RowRestarted s (s.rewound r c q) r c q := by
  rw [rewound, dropBands_eq]
  refine ⟨rfl, ?_, ?_, ?_⟩
  · rw [cvu_updCvu_ne _ (half0_ne_half1 r), cvu_updCvu_self]
    rfl
  · rw [cvu_updCvu_self, cvu_updCvu_ne _ (half0_ne_half1 r).symm]
    rfl
  · simp [Claims.SameElsewhere]

theorem State.restart_restarted (s : State) (r : Fin 16) (c : Ckpt) (q : Nat) : RowRestarted s (s.restart r c q) r c q := by
  have hrun : s.restart r c q = if ((s.rewound r c q).rows[r]).mismatch.isEmpty then s.rewound r c q
    else (s.rewound r c q).joinPair r (c.start s.aon) := rfl
  obtain ⟨hrows, hlo, hhi, helse⟩ := s.rewound_restarted r c q
  rw [hrun]
  split
  · exact ⟨hrows, hlo, hhi, helse⟩
  · refine ⟨?_, ?_, ?_, sameElsewhere_trans helse (by simp [Claims.SameElsewhere])⟩
    · simpa only [joinPair_frame] using hrows
    · rw [← hlo, cvu, joinPair_cvus]
      rfl
    · rw [← hhi, cvu, joinPair_cvus]
      rfl

theorem exec_squash_restarts (r : Fin 16) (t : Nat) (s : State) (n : Nat) (c : Ckpt) (why : SquashWhy)
    (hwanted : (s.rows[r]).squash = some { line := n, why := why }) (harmed : s.armed = true) (hbegun : n < (s.rows[r]).frontier)
    (hpick : s.pickCkpt r ((s.rows[r]).candidates n) = ([], some c)) :
    ∃ u, exec (.squash r t) s = .next u ∧ (u.rows[r]).prim.line = c.line ∧ (u.rows[r]).shad.line = c.line ∧ (u.rows[r]).prim.carry = c.carry ∧
      (u.rows[r]).shad.hist = c.hist ∧ (u.rows[r]).replay = some { q := n, c := c.line, late := none } ∧ (u.rows[r]).agreed = min (s.rows[r]).agreed n ∧
      (∀ a ∈ (u.rows[r]).ring, a.line < n) ∧ (∀ y ∈ (u.rows[r]).ckpts, y.line ≤ n) ∧ (u.rows[r]).squash = none ∧
      (u.rows[r]).squashes = satAdd (s.rows[r]).squashes 1 ∧ (u.cvu (half0 r)).next = min (s.cvu (half0 r)).next c.line ∧
      (u.cvu (half1 r)).next = min (s.cvu (half1 r)).next c.line ∧
      (∀ k : Fin 16, k ≠ r → u.rows[k] = s.rows[k]) ∧ Claims.SameElsewhere s u := by
  let w := (s.at t).discarded r n
  let u := w.restart r c n
  obtain ⟨hrows, hlo, hhi, helse⟩ := w.restart_restarted r c n
  rw [State.discarded_rows, upd_upd] at hrows
  have hrow : u.rows[r] = ((s.rows[r]).counted.reportedLate.discard n).restarted c n w.aon := by
    rw [hrows, getElem_upd_self]
    rfl
  have hothers (k : Fin 16) (hk : k ≠ r) : u.rows[k] = s.rows[k] := by
    rw [hrows, getElem_upd_ne _ hk]
    rfl
  have hcvu (h : Fin 32) : w.cvu h = s.cvu h := by simp [w, State.discarded, State.cvu]
  rw [hcvu] at hlo hhi
  refine ⟨u, exec_squash_begun hwanted harmed hbegun hpick t, ?_⟩
  rw [hrow]
  refine ⟨rfl, rfl, rfl, rfl, rfl, rfl, fun a ha => ?_, fun y hy => SpcRow.ckpts_restarted_discard hy, rfl, rfl, hlo, hhi, hothers,
    sameElsewhere_trans ((s.at t).discarded_elsewhere r n) helse⟩
  obtain ⟨_, hlt⟩ := List.mem_filter.1 ha
  exact of_decide_eq_true hlt

/-! ### No checkpoint is left (R173) -/

theorem State.noCkpt_first {s : State} {r : Fin 16} (hfault : (s.rows[r]).faultAt = none) (n : Nat) :
    ((s.noCkpt r n).rows[r]).faultAt = some n ∧ Claims.Posts s (s.noCkpt r n) [0x0252] ∧
      (s.noCkpt r n).fsv.inbox.length = s.fsv.inbox.length + 1 ∧ Claims.SameElsewhere s (s.noCkpt r n) := by
  unfold noCkpt
  refine ⟨?_, posts_post s .., ?_, ?_⟩
  · rw [detect_rows, rowFault, updRow_value, getElem_upd_self]
    simp only [ckptEvent_frame, hfault, Option.getD_none, Nat.min_self]
  · simp
  · simp [Claims.SameElsewhere]

theorem exec_squash_lost (r : Fin 16) (t : Nat) (s : State) (n : Nat) (why : SquashWhy)
    (hwanted : (s.rows[r]).squash = some { line := n, why := why }) (harmed : s.armed = true) (hbegun : n < (s.rows[r]).frontier)
    (hpick : s.pickCkpt r ((s.rows[r]).candidates n) = ([], none)) (hfault : (s.rows[r]).faultAt = none) (hreplay : (s.rows[r]).replay = none) :
    ∃ u, exec (.squash r t) s = .next u ∧ (u.rows[r]).faultAt = some n ∧ (u.rows[r]).replay = none ∧ Claims.Posts s u [0x0252] ∧
      u.fsv.inbox.length = s.fsv.inbox.length + 1 ∧ Claims.SameElsewhere s u := by
  let w := (s.at t).discarded r n
  have hw : w = ((s.at t).updRow r SpcRow.counted).updRow r (fun x => x.discard n) := State.discarded_of_replay_none (s := s.at t) hreplay n
  have hnofault : (w.rows[r]).faultAt = none := by
    rw [State.discarded_rows, getElem_upd_self]
    exact hfault
  obtain ⟨hlost, hposts, htold, helse⟩ := State.noCkpt_first hnofault n
  refine ⟨_, exec_squash_begun hwanted harmed hbegun hpick t, ?_, ?_, ?_, ?_, ?_⟩
  · rw [Option.elim_none, State.updRow_value, getElem_upd_self]
    exact hlost
  · rw [Option.elim_none, State.updRow_value, getElem_upd_self]
  · have hquiet : Claims.Posts s w [] := by
      rw [hw]
      exact posts_nil s
    exact posts_trans hquiet hposts
  · have hinbox : w.fsv = s.fsv := by simp [w, State.discarded]
    rw [hinbox] at htold
    exact htold
  · exact sameElsewhere_trans ((s.at t).discarded_elsewhere r n) helse

/-- Settles O38: a comparison and a squash each up to its result (`State.ckptCompare_clean`, `State.squashRow_begun`), then what that
result leaves in the row (`State.mismatchAt_first_row`, `State.restart_restarted`, `State.noCkpt_first`). That a unit keeps the line it
expects where that lies below the checkpoint restored is log 61; the part a fault event names, and its line and part where no checkpoint
is left, are the model's choice (log 62). -/
theorem squashesRestartRows : Obligations.SquashesRestartRows :=
  ⟨exec_checkpointCompare_same, exec_checkpointCompare_differs, exec_squash_untouched, exec_squash_restarts, exec_squash_lost,
    exec_squash_none, exec_spcReplayLate_due, exec_spcDry_due⟩

end Sys2Proof.Machine
end

section
/-! PROOF. RUNAHEAD_CONFIG and RUNAHEAD_STATUS (07 R174, R175), CHECK_CONFIG, CHECK_INJECT and CHECK_STATUS (09 R223 to R226): O36. -/

namespace Sys2Proof.Machine

/-! ### RUNAHEAD_CONFIG (R174) -/

/-- The payload of RUNAHEAD_CONFIG for a row byte and a window. -/
def runaheadPayload (b : Byte) (w : Nat) : List Byte := [b, 0] ++ le 2 w ++ [0, 0, 0, 0]

theorem runaheadPayload_fields (b : Byte) {w : Nat} (hw : w ≤ 4096) :
    let p := runaheadPayload b w
    fld p 0 1 = b.toNat ∧ fld p 2 2 = w ∧ zeros p 1 1 = true ∧ zeros p 4 4 = true := by
  refine ⟨fld_one _ 0, ?_, rfl, rfl⟩
  rw [runaheadPayload, List.append_assoc]
  exact (fld_append _ _ 0 2).trans ((fld_le 2 w _).trans (Nat.mod_eq_of_lt (by omega)))

theorem exec_runaheadConfig {q : Req} {s : State} {b : Byte} {w : Nat} (hq : Claims.Fresh 0x0224 q s) (hunarmed : s.armed = false)
    (hlo : 256 ≤ w) (hhi : w ≤ 4096) (hmul : w % 64 = 0) (hb : b = 0xFF ∨ b.toNat ≤ 15) (hp : q.payload = runaheadPayload b w) :
    exec (.runaheadConfig q) s = .next ((Claims.ok (if b.toNat = 0xFF
      then { s.start q 0x0224 with rows := s.rows.map (fun x => { x with window := w }) }
      else (s.start q 0x0224).updRow (Fin.ofNat 16 b.toNat) (fun x => { x with window := w }))).deliver q 0x0224) := by
  have hrun : exec (.runaheadConfig q) s = .next ((cmdRunaheadConfig.run q (s.start q 0x0224)).deliver q 0x0224) :=
    congrArg _ (serve_of_fresh hq (by rw [hp]; rfl))
  have hstart : (s.start q 0x0224).armed = false := hunarmed
  obtain ⟨hrow, hwindow, hzero₁, hzero₂⟩ := runaheadPayload_fields b hhi
  have hrange : (b.toNat != 0xFF && decide (15 < b.toNat)) = false := by
    rcases hb with rfl | hb
    · rfl
    · simp [Nat.not_lt.2 hb]
  have hwin : ¬ (w < 256 ∨ 4096 < w ∨ w % 64 ≠ 0) := by omega
  rw [hrun, cmdRunaheadConfig]
  simp only [hp, hrow, hwindow, hzero₁, hzero₂, hrange]
  rw [checks_pass]
  · rfl
  · simp only [hwin, hstart]
    simp

theorem exec_runaheadConfig_row (q : Req) (s : State) (r : Fin 16) (w : Nat) (hq : Claims.Fresh 0x0224 q s) (hunarmed : s.armed = false)
    (hlo : 256 ≤ w) (hhi : w ≤ 4096) (hmul : w % 64 = 0) (hp : q.payload = [BitVec.ofNat 8 r.val, 0] ++ le 2 w ++ [0, 0, 0, 0]) :
    exec (.runaheadConfig q) s = .next ((Claims.ok { s.start q 0x0224 with
      rows := upd s.rows r (fun x => { x with window := w }) }).deliver q 0x0224) := by
  have hr : (BitVec.ofNat 8 r.val).toNat = r.val := toNat_ofNat_byte (by omega)
  rw [exec_runaheadConfig hq hunarmed hlo hhi hmul (.inr (by omega)) hp, hr, if_neg (by omega), Fin.ofNat_val_eq_self]
  rfl

theorem exec_runaheadConfig_all (q : Req) (s : State) (w : Nat) (hq : Claims.Fresh 0x0224 q s) (hunarmed : s.armed = false)
    (hlo : 256 ≤ w) (hhi : w ≤ 4096) (hmul : w % 64 = 0) (hp : q.payload = [0xFF, 0] ++ le 2 w ++ [0, 0, 0, 0]) :
    exec (.runaheadConfig q) s = .next ((Claims.ok { s.start q 0x0224 with
      rows := s.rows.map (fun x => { x with window := w }) }).deliver q 0x0224) := by
  rw [exec_runaheadConfig hq hunarmed hlo hhi hmul (.inl rfl) hp]
  rfl

/-! ### RUNAHEAD_STATUS (R175) -/

/-- A field within one row's block in a list of equally long blocks of all rows. -/
theorem fld_flatMap_rows_within {f : Fin 16 → List Byte} {m : Nat} (h : ∀ r, (f r).length = m) (r : Fin 16) {k n : Nat}
    (hk : k + n ≤ m) : fld ((List.finRange 16).flatMap f) (m * r.val + k) n = fld (f r) k n := by
  have hr : r.val < (List.finRange 16).length := by simp
  have hdrop : ((List.finRange 16).flatMap f).drop (m * r.val) = f r ++ ((List.finRange 16).drop (r.val + 1)).flatMap f := by
    rw [drop_flatMap h, List.drop_eq_getElem_cons hr, List.flatMap_cons, List.getElem_finRange]
    rfl
  rw [fld, ← List.drop_drop, hdrop, ← fld_append_left (f r) _ (by rw [h r]; exact hk), fld]

/-- A counter of 32 bits reads back. -/
theorem toNat_mod_four_bytes (v : BitVec 32) : v.toNat % 256 ^ 4 = v.toNat := Nat.mod_eq_of_lt v.isLt

theorem State.rowEntry_fields (s : State) (r : Fin 16) :
    (s.rowEntry r).length = 12 ∧
      fld (s.rowEntry r) 0 2 = (if s.armed then min 4096 ((s.rows[r]).agreed - (s.lsd.rows[r]).next) else 0) ∧
      fld (s.rowEntry r) 4 4 = (s.rows[r]).squashes.toNat ∧ fld (s.rowEntry r) 8 4 = (s.rows[r]).lateLines.toNat := by
  refine ⟨by simp [rowEntry], ?_, ?_, ?_⟩
  · simp only [rowEntry, List.append_assoc, fld_le]
    refine Nat.mod_eq_of_lt ?_
    split
    · omega
    · decide
  · simp only [rowEntry, List.append_assoc]
    simp (disch := simp) only [fld_append_right, length_le, Nat.reduceSub, fld_le, toNat_mod_four_bytes]
  · simp only [rowEntry, List.append_assoc]
    simp (disch := simp) only [fld_append_right, length_le, Nat.reduceSub, fld_le_end, toNat_mod_four_bytes]

/-- The payload RUNAHEAD_STATUS answers. -/
def State.runaheadBytes (s : State) : List Byte := le 8 s.nowNs ++ zeroBytes 8 ++ (List.finRange 16).flatMap s.rowEntry

theorem State.runaheadBytes_fields (s : State) :
    s.runaheadBytes.length = 208 ∧ fld s.runaheadBytes 0 8 = s.nowNs % 2 ^ 64 ∧
      ∀ (r : Fin 16) (k n : Nat), k + n ≤ 12 → fld s.runaheadBytes (16 + 12 * r.val + k) n = fld (s.rowEntry r) k n := by
  have hentry (r : Fin 16) : (s.rowEntry r).length = 12 := (s.rowEntry_fields r).1
  have hhead : (le 8 s.nowNs ++ zeroBytes 8).length = 16 := by simp
  refine ⟨?_, ?_, fun r k n hk => ?_⟩
  · simp [runaheadBytes, List.length_flatMap, hentry]
  · rw [runaheadBytes, List.append_assoc]
    exact fld_le 8 ..
  · rw [runaheadBytes, fld_append_right _ _ (by omega), hhead, Nat.add_assoc, Nat.add_sub_cancel_left, fld_flatMap_rows_within hentry r hk]

theorem exec_runaheadStatus_answers (q : Req) (s : State) (hq : Claims.FreshOf 0x0225 0 q s) : ∃ p : List Byte,
    exec (.runaheadStatus q) s = .next ((Claims.ok (s.start q 0x0225) p).deliver q 0x0225) ∧ p.length = 208 ∧ fld p 0 8 = s.nowNs % 2 ^ 64 ∧
    ∀ r : Fin 16, fld p (16 + 12 * r.val + 4) 4 = (s.rows[r]).squashes.toNat ∧ fld p (16 + 12 * r.val + 8) 4 = (s.rows[r]).lateLines.toNat ∧
      fld p (16 + 12 * r.val) 2 = if s.armed then min 4096 ((s.rows[r]).agreed - (s.lsd.rows[r]).next) else 0 := by
  let w := s.start q 0x0225
  have hrun : exec (.runaheadStatus q) s = .next ((Claims.ok w w.runaheadBytes).deliver q 0x0225) :=
    congrArg _ (serve_of_fresh hq.1 (beq_iff_eq.2 hq.2))
  obtain ⟨hlength, htime, hrows⟩ := w.runaheadBytes_fields
  refine ⟨_, hrun, hlength, htime, fun r => ?_⟩
  obtain ⟨_, hlead, hsquashes, hlate⟩ := w.rowEntry_fields r
  exact ⟨(hrows r 4 4 (by omega)).trans hsquashes, (hrows r 8 4 (by omega)).trans hlate, (hrows r 0 2 (by omega)).trans hlead⟩

/-! ### CHECK_CONFIG (R223) -/

theorem exec_checkConfig_sets (q : Req) (s : State) (off : Bool) (hq : Claims.Fresh 0x0226 q s) (hunarmed : s.armed = false)
    (hp : q.payload = [if off then 1 else 0, 0, 0, 0, 0, 0, 0, 0]) :
    exec (.checkConfig q) s = .next ((Claims.ok { s.start q 0x0226 with chk := { s.chk with shadowOff := off } }).deliver q 0x0226) := by
  have hrun : exec (.checkConfig q) s = .next ((cmdCheckConfig.run q (s.start q 0x0226)).deliver q 0x0226) :=
    congrArg _ (serve_of_fresh hq (by rw [hp]; rfl))
  have hstart : (s.start q 0x0226).armed = false := hunarmed
  have hoff : fld q.payload 0 1 = b2n off := by
    rw [hp]
    cases off <;> rfl
  have hzero : zeros q.payload 1 7 = true := by
    rw [hp]
    rfl
  have hle : ¬ 1 < b2n off := by cases off <;> decide
  have hbit : bit (b2n off) 0 = off := by cases off <;> rfl
  rw [hrun, cmdCheckConfig]
  simp only [hoff, hzero, hbit]
  rw [checks_pass]
  · rfl
  · simp only [hle, hstart]
    simp

/-! ### CHECK_INJECT (R224, R225) -/

/-- The payload of CHECK_INJECT. -/
def injectPayload (target : Fin 8) (r : Fin 16) (twice : Bool) (mask : Byte) (pos line : Nat) : List Byte :=
  [BitVec.ofNat 8 target.val, BitVec.ofNat 8 r.val, if twice then 1 else 0, mask] ++ le 2 pos ++ [0, 0] ++ le 8 line

theorem injectPayload_fields (target : Fin 8) (r : Fin 16) (twice : Bool) (mask : Byte) {pos line : Nat} (hpos : pos ≤ 16383)
    (hline : line < 2 ^ 48) :
    let p := injectPayload target r twice mask pos line
    fld p 0 1 = target.val ∧ fld p 1 1 = r.val ∧ fld p 2 1 = b2n twice ∧ fld p 3 1 = mask.toNat ∧ fld p 4 2 = pos ∧ fld p 8 8 = line ∧
      zeros p 6 2 = true ∧ p.length = 16 := by
  refine ⟨?_, ?_, ?_, fld_one _ 3, ?_, ?_, rfl, rfl⟩
  · exact (fld_one _ 0).trans (toNat_ofNat_byte (by omega))
  · exact (fld_one _ 1).trans (toNat_ofNat_byte (by omega))
  · refine (fld_one _ 2).trans ?_
    cases twice <;> rfl
  all_goals
    simp only [injectPayload, List.append_assoc]
    simp (disch := simp) only [fld_append_right, length_le, List.length_cons, List.length_nil, Nat.reduceAdd, Nat.reduceSub, fld_le,
      fld_le_end]
    omega

/-- What CHECK_INJECT checks of an injection whose operands are legal, in order (R224). -/
def State.injectChecks (s : State) (i : Injection) : List (Bool × Status) :=
  [(!s.armed, .badState),
   (s.chk.shadowOff && (i.target.val == 1 || i.target.val == 3 || i.target.val == 7), .badState),
   (!s.assigned i.row, .badState),
   (frontierTarget i.target.val && decide (i.line < (s.rows[i.row]).frontier), .leadTooShort),
   (i.target.val == 4 && decide (i.line ≤ (s.lsd.rows[i.row]).next + 31), .leadTooShort),
   (decide (4 ≤ s.chk.injections.length), .noResource)]

/-- The injection that legal operands name. -/
def injectionOf (target : Fin 8) (r : Fin 16) (twice : Bool) (mask : Byte) (pos line : Nat) : Injection :=
  { target := target, row := r, left := if twice then 2 else 1, mask := mask, position := pos, line := line }

/-- CHECK_INJECT with legal operands: its further checks, then the injection is planted. -/
theorem exec_checkInject {q : Req} {s : State} {target : Fin 8} {r : Fin 16} {twice : Bool} {mask : Byte} {pos line : Nat}
    (hq : Claims.Fresh 0x0820 q s) (hmask : mask ≠ 0) (hpos : pos ≤ 16383) (hline : line < 2 ^ 48) (hmul : line % 64 = 0)
    (hp : q.payload = injectPayload target r twice mask pos line) :
    let w := s.start q 0x0820
    let i := injectionOf target r twice mask pos line
    exec (.checkInject q) s = .next ((checks w (w.injectChecks i) fun _ =>
      Claims.ok { w with chk := { w.chk with injections := w.chk.injections ++ [i] } }).deliver q 0x0820) := by
  obtain ⟨htarget, hrow, htwice, hbits, hposition, hat, hzero, hlength⟩ := injectPayload_fields target r twice mask hpos hline
  have hrun : exec (.checkInject q) s = .next ((cmdCheckInject.run q (s.start q 0x0820)).deliver q 0x0820) :=
    congrArg _ (serve_of_fresh hq (by rw [hp]; exact beq_iff_eq.2 hlength))
  have hleft : 1 + b2n twice = if twice then 2 else 1 := by cases twice <;> rfl
  have hnonzero : (mask.toNat == 0) = false := beq_false_of_ne fun h => hmask (BitVec.eq_of_toNat_eq h)
  have hle : b2n twice ≤ 1 := by cases twice <;> decide
  have hlegal : (mask.toNat == 0 || decide (7 < target.val ∨ 15 < r.val ∨ 1 < b2n twice ∨ 16383 < pos ∨ 2 ^ 48 ≤ line) || !true ||
      (target.val == 7 && line % 64 != 0)) = false := by
    rw [hnonzero, decide_eq_false (by omega), hmul]
    simp
  rw [hrun, cmdCheckInject]
  simp only [hp, htarget, hrow, htwice, hbits, hposition, hat, hzero, hleft, Fin.ofNat_val_eq_self, BitVec.ofNat_toNat,
    BitVec.setWidth_eq]
  rw [hlegal]
  rfl

theorem exec_checkInject_plants (q : Req) (s : State) (target : Fin 8) (r : Fin 16) (twice : Bool) (mask : Byte) (pos line : Nat)
    (hq : Claims.Fresh 0x0820 q s) (harmed : s.armed = true) (hassigned : s.assigned r = true) (hmask : mask ≠ 0) (hpos : pos ≤ 16383)
    (hline : line < 2 ^ 48) (hfrontier : (s.rows[r]).frontier ≤ line) (hnext : (s.lsd.rows[r]).next + 31 < line) (hmul : line % 64 = 0)
    (hshadow : s.chk.shadowOff = false) (hfew : s.chk.injections.length < 4)
    (hp : q.payload = [BitVec.ofNat 8 target.val, BitVec.ofNat 8 r.val, if twice then 1 else 0, mask] ++ le 2 pos ++ [0, 0] ++ le 8 line) :
    let i : Injection := { target := target, row := r, left := if twice then 2 else 1, mask := mask, position := pos, line := line }
    exec (.checkInject q) s = .next ((Claims.ok { s.start q 0x0820 with
      chk := { s.chk with injections := s.chk.injections ++ [i] } }).deliver q 0x0820) := by
  have hpass : ∀ c ∈ s.injectChecks (injectionOf target r twice mask pos line), c.1 = false := by
    simp only [State.injectChecks, injectionOf, harmed, hassigned, hshadow, Nat.not_lt.2 hfrontier, Nat.not_le.2 hnext, Nat.not_le.2 hfew]
    simp
  have hstart : ∀ c ∈ (s.start q 0x0820).injectChecks (injectionOf target r twice mask pos line), c.1 = false := hpass
  rw [exec_checkInject hq hmask hpos hline hmul hp, checks_pass hstart]
  rfl

theorem exec_checkInject_refuses (q : Req) (s : State) (hq : Claims.Fresh 0x0820 q s) (hp : q.payload = [0, 0, 0, 1] ++ List.replicate 12 0) :
    (s.armed = false → exec (.checkInject q) s = .next ((Ans.fail (s.start q 0x0820) .badState).deliver q 0x0820)) ∧
    (s.armed = true → s.assigned 0 = true → (s.rows[(0 : Fin 16)]).frontier = 0 → 4 ≤ s.chk.injections.length →
      exec (.checkInject q) s = .next ((Ans.fail (s.start q 0x0820) .noResource).deliver q 0x0820)) := by
  have hpayload : q.payload = injectPayload 0 0 false 1 0 0 := hp
  have hrun := exec_checkInject hq (by decide) (by decide) (by decide) (by decide) hpayload
  refine ⟨fun hunarmed => ?_, fun harmed hassigned hfrontier hmany => ?_⟩
  · have hstart : (s.start q 0x0820).armed = false := hunarmed
    rw [hrun, State.injectChecks, checks_cons, hstart]
    rfl
  · let i := injectionOf 0 0 false 1 0 0
    have hpass : ∀ c ∈ (s.injectChecks i).take 5, c.1 = false := by
      simp only [State.injectChecks, i, injectionOf, harmed, hassigned, hfrontier]
      simp
    have hstart : ∀ c ∈ ((s.start q 0x0820).injectChecks i).take 5, c.1 = false := hpass
    have hlast : (decide (4 ≤ s.chk.injections.length), Status.noResource).1 = true := decide_eq_true hmany
    rw [hrun]
    exact congrArg (fun a : Ans => Host.Outcome.next (a.deliver q 0x0820)) (checks_fail hstart hlast)

/-! ### CHECK_STATUS (R226) -/

/-- The payload CHECK_STATUS answers. -/
def State.checkBytes (s : State) : List Byte :=
  s.chk.engines.toList.flatMap (fun e => le 1 e.1.val ++ le 1 e.2.val) ++
    le 1 (maskOf ((List.finRange 4).map s.spareFree)) ++ le 1 (b2n s.chk.shadowOff) ++ zeroBytes 2 ++
    le 1 (s.chk.standsFor 38) ++ le 1 (s.chk.standsFor 39) ++ zeroBytes 2 ++ le 4 s.chk.misTransient.toNat ++ le 4 s.chk.misLasting.toNat ++
    le 4 s.chk.pourTransient.toNat ++ le 4 s.chk.pourLasting.toNat ++ le 4 s.chk.cvuFaults.toNat ++ zeroBytes 4 ++ le 8 s.nowNs

theorem State.checkBytes_fields (s : State) :
    let p := s.checkBytes
    p.length = 104 ∧ fld p 65 1 = (if s.chk.shadowOff then 1 else 0) ∧ fld p 72 4 = s.chk.misTransient.toNat ∧
      fld p 76 4 = s.chk.misLasting.toNat ∧ fld p 80 4 = s.chk.pourTransient.toNat ∧ fld p 84 4 = s.chk.pourLasting.toNat ∧
      fld p 88 4 = s.chk.cvuFaults.toNat ∧ fld p 96 8 = s.nowNs % 2 ^ 64 := by
  have hengines : (s.chk.engines.toList.flatMap (fun e => le 1 e.1.val ++ le 1 e.2.val)).length = 64 := by
    simp [List.length_flatMap]
  have hoff : b2n s.chk.shadowOff % 256 ^ 1 = if s.chk.shadowOff then 1 else 0 := by cases s.chk.shadowOff <;> rfl
  refine ⟨?_, ?_, ?_, ?_, ?_, ?_, ?_, ?_⟩
  · simp [checkBytes, hengines]
  all_goals
    simp only [checkBytes, List.append_assoc]
    simp (disch := simp [hengines]) only [fld_append_right, hengines, length_le, length_zeroBytes, Nat.reduceSub, fld_le, fld_le_end,
      toNat_mod_four_bytes, hoff]
  -- The time of the answer: eight bytes are 64 bits.
  rfl

theorem exec_checkStatus_answers (q : Req) (s : State) (hq : Claims.FreshOf 0x0821 0 q s) : ∃ p : List Byte,
    exec (.checkStatus q) s = .next ((Claims.ok (s.start q 0x0821) p).deliver q 0x0821) ∧ p.length = 104 ∧
    fld p 65 1 = (if s.chk.shadowOff then 1 else 0) ∧ fld p 72 4 = s.chk.misTransient.toNat ∧ fld p 76 4 = s.chk.misLasting.toNat ∧
    fld p 80 4 = s.chk.pourTransient.toNat ∧ fld p 84 4 = s.chk.pourLasting.toNat ∧ fld p 88 4 = s.chk.cvuFaults.toNat ∧ fld p 96 8 = s.nowNs % 2 ^ 64 :=
  ⟨(s.start q 0x0821).checkBytes, congrArg _ (serve_of_fresh hq.1 (beq_iff_eq.2 hq.2)), (s.start q 0x0821).checkBytes_fields⟩

/-- Settles O36: each command by the fields of its payload and its checks, each answer by its fields. -/
theorem runAheadCommandsComplete : Obligations.RunAheadCommandsComplete :=
  ⟨exec_runaheadConfig_row, exec_runaheadConfig_all, exec_runaheadStatus_answers, exec_checkConfig_sets, exec_checkInject_plants,
    exec_checkInject_refuses, exec_checkStatus_answers⟩

end Sys2Proof.Machine
end

section
/-! PROOF. TXN_OPEN, TXN_ADD, TXN_SEAL, TXN_COMMIT and TXN_STATUS (08 R180 to R182, R186, R187, R189, R196 to R199, R201): O39. -/

namespace Sys2Proof.Machine

/-- What a command's run delivers, once its answer is known. -/
theorem exec_of_answer {c : Instr} {s : State} {q : Req} {opcode : Nat} {a b : Ans} (hrun : exec c s = .next (a.deliver q opcode))
    (hanswer : a = b) : exec c s = .next (b.deliver q opcode) :=
  hanswer ▸ hrun

theorem any_and_eq_false {α : Type} {p q : α → Bool} {l : List α} (h : ∀ x ∈ l, p x = true → q x = false) :
    l.any (fun x => p x && q x) = false := by
  rw [List.any_eq_false]
  intro x hx hboth
  obtain ⟨hp, hq⟩ := Bool.and_eq_true_iff.1 hboth
  exact Bool.false_ne_true ((h x hx hp).symm.trans hq)

/-! ### Payloads that begin with a group's id, and the group it names (R181) -/

theorem groupField_of_payload {q : Req} {id : BitVec 32} {r : List Byte} (hp : q.payload = le 4 id.toNat ++ r) : groupField q = id := by
  rw [groupField, hp, fld_le, toNat_mod_four_bytes, BitVec.ofNat_toNat, BitVec.setWidth_eq]

/-- The payload of a command whose only operand is a group. -/
def groupPayload (id : BitVec 32) : List Byte := le 4 id.toNat ++ [0, 0, 0, 0]

theorem State.namedGroup_of_found {q : Req} {s : State} {g : Group} {bad : Bool} {k : Group → Ans} (hbad : bad = false)
    (hid : groupField q = g.id) (hfound : s.group? g.id = some g) (hactive : g.state ≠ .aborted) : s.namedGroup q bad k = k g := by
  have hstate : (g.state == .aborted) = false := beq_false_of_ne hactive
  simp only [namedGroup, hbad, hid, hfound, hstate, Bool.false_eq_true, if_false]

/-! ### TXN_OPEN (R180, R196) -/

/-- The payload of TXN_OPEN. -/
def openPayload (id : BitVec 32) (chain : Bool) : List Byte := le 4 id.toNat ++ [if chain then 1 else 0, 0, 0, 0]

theorem openPayload_fields (id : BitVec 32) (chain : Bool) :
    let p := openPayload id chain
    fld p 4 1 = b2n chain ∧ zeros p 5 3 = true ∧ p.length = 8 := by
  refine ⟨?_, rfl, rfl⟩
  cases chain <;> rfl

theorem exec_txnOpen_opens (q : Req) (s : State) (id : BitVec 32) (chain : Bool) (hq : Claims.Fresh 0x0300 q s) (hid : id ≠ 0)
    (hfree : ∀ g ∈ s.txn.groups, g.id = id → g.state = .aborted) (hfew : s.activeGroups < 8)
    (hp : q.payload = le 4 id.toNat ++ [if chain then 1 else 0, 0, 0, 0]) :
    let g : Group := { id := id, chain := chain, state := .isOpen, members := [], calBase := [], line := 0, coordinator := 0, votedAt := 0,
                       queried := false, answered := 0 }
    exec (.txnOpen q) s = .next ((Claims.ok { s.start q 0x0300 with txn := { s.txn with
      groups := s.txn.groups.filter (fun x => x.id ≠ id) ++ [g] } }).deliver q 0x0300) := by
  have hpayload : q.payload = openPayload id chain := hp
  obtain ⟨hscope, hzero, hlength⟩ := openPayload_fields id chain
  have hrun : exec (.txnOpen q) s = .next ((cmdTxnOpen.run q (s.start q 0x0300)).deliver q 0x0300) :=
    congrArg _ (serve_of_fresh hq (by rw [hpayload]; exact beq_iff_eq.2 hlength))
  have hgroups : (s.start q 0x0300).txn = s.txn := rfl
  have hactive : (s.start q 0x0300).activeGroups = s.activeGroups := rfl
  have hnonzero : (id == 0) = false := beq_false_of_ne hid
  have hle : b2n chain ≤ 1 := by cases chain <;> decide
  have hchain : (b2n chain == 1) = chain := by cases chain <;> rfl
  have hunused : s.txn.groups.any (fun g => g.id = id && g.active) = false :=
    any_and_eq_false fun g hg hsame => by rw [Group.active, hfree g hg (of_decide_eq_true hsame)]; rfl
  rw [hrun]
  simp only [cmdTxnOpen, groupField_of_payload hp, hpayload, hscope, hzero, hgroups, hactive, hnonzero, hchain]
  rw [checks_pass]
  · rfl
  · simp [hunused, Nat.not_lt.2 hle, Nat.not_le.2 hfew]

/-! ### TXN_ADD (R181, R197) -/

/-- The payload of TXN_ADD: `rest` is the body, or with `byRef` the address it lies at. -/
def memberPayload (id : BitVec 32) (ty : Byte) (byRef : Bool) (len : Nat) (rest : List Byte) : List Byte :=
  le 4 id.toNat ++ [ty, if byRef then 1 else 0, 0, 0] ++ le 4 len ++ [0, 0, 0, 0] ++ rest

theorem memberPayload_fields (id : BitVec 32) (ty : Byte) (byRef : Bool) {len : Nat} (hlen : len < 2 ^ 32) (rest : List Byte) :
    let p := memberPayload id ty byRef len rest
    fld p 4 1 = ty.toNat ∧ fld p 5 1 = b2n byRef ∧ fld p 8 4 = len ∧ fld p 16 8 = fld rest 0 8 ∧ zeros p 6 2 = true ∧
      zeros p 12 4 = true ∧ p.drop 16 = rest ∧ p.length = 16 + rest.length := by
  have hlength : (memberPayload id ty byRef len rest).length = 16 + rest.length := by simp [memberPayload]; omega
  refine ⟨fld_one _ 4, ?_, ?_, ?_, rfl, rfl, rfl, hlength⟩
  · cases byRef <;> rfl
  · simp only [memberPayload, List.append_assoc]
    simp (disch := simp) only [fld_append_right, length_le, Nat.reduceSub]
    exact (fld_le 4 len _).trans (Nat.mod_eq_of_lt hlen)
  · rfl

/-- TXN_ADD with legal operands at an open group. -/
theorem exec_txnAdd {q : Req} {s : State} {g : Group} {ty : Byte} {byRef : Bool} {len : Nat} {rest : List Byte}
    (hq : Claims.Fresh 0x0301 q s) (hfound : s.group? g.id = some g) (hopen : g.state = .isOpen)
    (hp : q.payload = memberPayload g.id ty byRef len rest) (hrest : rest.length = if byRef then 8 else len) (hlo : 1 ≤ len)
    (hhi : len ≤ if byRef then 1048584 else 224) (hzone : byRef = true → inZone (fld rest 0 8) len = true) :
    let w := s.start q 0x0301
    exec (.txnAdd q) s = .next ((w.addMember g ty.toNat len (if byRef then s.memRead (fld rest 0 8) len else rest)).deliver q 0x0301) := by
  have hlen : len < 2 ^ 32 := Nat.lt_of_le_of_lt hhi (by cases byRef <;> decide)
  obtain ⟨hty, hflags, hsize, hsrc, hzero, hzero', hbody, hlength⟩ := memberPayload_fields g.id ty byRef hlen rest
  have hrun : exec (.txnAdd q) s = .next ((cmdTxnAdd.run q (s.start q 0x0301)).deliver q 0x0301) :=
    congrArg _ (serve_of_fresh hq (by rw [hp, hlength]; exact decide_eq_true (Nat.le_add_right 16 _)))
  have hid : groupField q = g.id := groupField_of_payload (r := _ :: _) hp
  have hnamed : (s.start q 0x0301).group? g.id = some g := hfound
  have hmem : (s.start q 0x0301).memRead = s.memRead := rfl
  have hbit : bit (b2n byRef) 0 = byRef := by cases byRef <;> rfl
  rw [hrun]
  simp only [cmdTxnAdd, hid, hnamed, hp, hty, hflags, hsize, hsrc, hzero, hzero', hbody, hlength, hbit, hmem]
  rw [checks_pass]
  cases byRef with
  | false =>
    have hinline : rest.length = len := hrest
    have hshort : len ≤ 224 := hhi
    simp [hinline, hopen, b2n]
    omega
  | true =>
    have haddress : rest.length = 8 := hrest
    have hshort : len ≤ 1048584 := hhi
    simp [haddress, hopen, hzone rfl, b2n]
    omega

theorem State.addMember_legal {s : State} {g : Group} {ty len : Nat} {body : List Byte} {m : Member} (hfew : g.members.length < 1024)
    (hroom : s.stagedBytes + len ≤ 8 * 2 ^ 20) (hm : Member.parse ty body = some m) : s.addMember g ty len body =
      { Claims.ok (s.updGroup g.id (fun x => { x with members := x.members ++ [(m, len)] })) with detail := g.members.length } := by
  rw [addMember, if_neg (by omega), hm]
  rfl

theorem State.addMember_illegal {s : State} {g : Group} {ty len : Nat} {body : List Byte} (hfew : g.members.length < 1024)
    (hroom : s.stagedBytes + len ≤ 8 * 2 ^ 20) (hm : Member.parse ty body = none) :
    s.addMember g ty len body = Ans.fail (s.updGroup g.id Group.abort) .badParam := by
  rw [addMember, if_neg (by omega), hm]

theorem exec_txnAdd_inline (q : Req) (s : State) (g : Group) (ty : Byte) (body : List Byte) (hq : Claims.Fresh 0x0301 q s)
    (hfound : s.group? g.id = some g) (hopen : g.state = .isOpen) (hlo : 1 ≤ body.length) (hhi : body.length ≤ 224)
    (hfew : g.members.length < 1024) (hroom : s.stagedBytes + body.length ≤ 8 * 2 ^ 20)
    (hp : q.payload = le 4 g.id.toNat ++ [ty, 0, 0, 0] ++ le 4 body.length ++ [0, 0, 0, 0] ++ body) :
    (∀ m, Member.parse ty.toNat body = some m → exec (.txnAdd q) s = .next (Ans.deliver { Claims.ok ((s.start q 0x0301).updGroup g.id (fun x =>
      { x with members := x.members ++ [(m, body.length)] })) with detail := g.members.length } q 0x0301)) ∧
    (Member.parse ty.toNat body = none → exec (.txnAdd q) s = .next ((Ans.fail ((s.start q 0x0301).updGroup g.id (fun x =>
      { x with state := .aborted, members := [], calBase := [] })) .badParam).deliver q 0x0301)) := by
  have hpayload : q.payload = memberPayload g.id ty false body.length body := hp
  have hrun := exec_txnAdd hq hfound hopen hpayload rfl hlo hhi (fun h => absurd h Bool.false_ne_true)
  have hstaged : (s.start q 0x0301).stagedBytes + body.length ≤ 8 * 2 ^ 20 := hroom
  exact ⟨fun m hm => exec_of_answer hrun (State.addMember_legal hfew hstaged hm),
    fun hm => exec_of_answer hrun (State.addMember_illegal hfew hstaged hm)⟩

theorem exec_txnAdd_byReference (q : Req) (s : State) (g : Group) (ty : Byte) (m : Member) (len src : Nat) (hq : Claims.Fresh 0x0301 q s)
    (hfound : s.group? g.id = some g) (hopen : g.state = .isOpen) (hlo : 1 ≤ len) (hhi : len ≤ 1048584) (hsrc : 0x3400000000 ≤ src)
    (hend : src + len ≤ 0x3800000000) (hfew : g.members.length < 1024) (hroom : s.stagedBytes + len ≤ 8 * 2 ^ 20)
    (hm : Member.parse ty.toNat (s.memRead src len) = some m)
    (hp : q.payload = le 4 g.id.toNat ++ [ty, 1, 0, 0] ++ le 4 len ++ [0, 0, 0, 0] ++ le 8 src) :
    exec (.txnAdd q) s = .next (Ans.deliver { Claims.ok ((s.start q 0x0301).updGroup g.id (fun x =>
      { x with members := x.members ++ [(m, len)] })) with detail := g.members.length } q 0x0301) := by
  have hpayload : q.payload = memberPayload g.id ty true len (le 8 src) := hp
  have haddr : fld (le 8 src) 0 8 = src := (fld_le_end 8 src).trans (Nat.mod_eq_of_lt (by omega))
  have hrun := exec_txnAdd hq hfound hopen hpayload rfl hlo hhi (fun _ => by rw [haddr]; exact inZone_of_le hsrc hend)
  have hstaged : (s.start q 0x0301).stagedBytes + len ≤ 8 * 2 ^ 20 := hroom
  rw [hrun, if_pos rfl, haddr, State.addMember_legal hfew hstaged hm]

/-! ### TXN_SEAL (R182, R198) -/

theorem State.seal_open {s : State} {g : Group} (hopen : g.state = .isOpen) (holder : s.txn.older = none)
    (hnone : ∀ x ∈ s.txn.groups, x.id ≠ g.id → x.holds = false) :
    (∀ n, s.build g = .ok n →
      let s1 := s.updGroup g.id (fun x => { x with state := .sealed })
      s.seal g = ({ s1 with txn := { s1.txn with built := some n } }, none)) ∧
    ∀ e, s.build g = .error e → s.seal g = (s.updGroup g.id Group.abort, some e) := by
  have hothers : s.txn.groups.any (fun x => x.id ≠ g.id && x.holds) = false :=
    any_and_eq_false fun x hx hid => hnone x hx (of_decide_eq_true hid)
  have hfree : (s.txn.older.isSome || s.txn.groups.any (fun x => x.id ≠ g.id && x.holds)) = false := by rw [holder, hothers]; rfl
  have hnew : (g.state == .sealed || g.state == .prepared) = false := by rw [hopen]; rfl
  refine ⟨fun n hn => ?_, fun e he => ?_⟩
  · simp only [State.seal, hnew, hfree, hn, Bool.false_eq_true, if_false]
  · simp only [State.seal, hnew, hfree, he, Bool.false_eq_true, if_false]

theorem State.seal_sealed {s : State} {g : Group} (hsealed : g.state = .sealed) : s.seal g = (s, none) := by
  rw [State.seal, hsealed]
  rfl

theorem State.buildFrom_start (s : State) (q : Req) (opcode i : Nat) (n : Gen) (ms : List (Member × Nat)) :
    (s.start q opcode).buildFrom i n ms = s.buildFrom i n ms := by
  induction ms generalizing i n with
  | nil => rfl
  | cons m ms ih =>
    have hcheck (n : Gen) : (s.start q opcode).memberCheck n m.1 = s.memberCheck n m.1 := rfl
    simp only [buildFrom, hcheck, ih]

theorem State.build_start (s : State) (q : Req) (opcode : Nat) (g : Group) : (s.start q opcode).build g = s.build g := by
  have htxn : (s.start q opcode).txn = s.txn := rfl
  simp only [build, buildFrom_start, htxn]

theorem exec_txnSeal {q : Req} {s : State} {g : Group} (hq : Claims.Fresh 0x0302 q s) (hfound : s.group? g.id = some g)
    (hopen : g.state = .isOpen) (hp : q.payload = groupPayload g.id) : exec (.txnSeal q) s =
      .next ((sealAns ((s.start q 0x0302).seal g) fun u => Claims.ok u).deliver q 0x0302) := by
  have hrun : exec (.txnSeal q) s = .next ((cmdTxnSeal.run q (s.start q 0x0302)).deliver q 0x0302) :=
    congrArg _ (serve_of_fresh hq (by rw [hp]; rfl))
  have hzero : (!zeros q.payload 4 4) = false := by rw [hp]; rfl
  have hnamed : (s.start q 0x0302).group? g.id = some g := hfound
  rw [hrun, cmdTxnSeal]
  dsimp only
  rw [State.namedGroup_of_found hzero (groupField_of_payload hp) hnamed (by rw [hopen]; decide), hopen]
  rfl

theorem exec_txnSeal_answers (q : Req) (s : State) (g : Group) (hq : Claims.Fresh 0x0302 q s) (hfound : s.group? g.id = some g)
    (hopen : g.state = .isOpen) (holder : s.txn.older = none) (hnone : ∀ x ∈ s.txn.groups, x.id ≠ g.id → x.holds = false)
    (hp : q.payload = le 4 g.id.toNat ++ [0, 0, 0, 0]) :
    (∀ n, s.build g = .ok n → ∃ u : State, exec (.txnSeal q) s = .next ((Claims.ok u).deliver q 0x0302) ∧
      u.txn = { s.txn with groups := s.txn.groups.map (fun x => if x.id = g.id then { x with state := .sealed } else x), built := some n } ∧
      u = { s.start q 0x0302 with txn := u.txn }) ∧
    (∀ st i, s.build g = .error (st, i) → exec (.txnSeal q) s = .next ((Ans.fail ((s.start q 0x0302).updGroup g.id Group.abort) st
      (i % 65536)).deliver q 0x0302)) := by
  have hrun := exec_txnSeal hq hfound hopen hp
  have holder' : (s.start q 0x0302).txn.older = none := holder
  have hnone' : ∀ x ∈ (s.start q 0x0302).txn.groups, x.id ≠ g.id → x.holds = false := hnone
  obtain ⟨hbuilds, hfails⟩ := State.seal_open hopen holder' hnone'
  refine ⟨fun n hn => ?_, fun st i he => ?_⟩
  · rw [hrun, hbuilds n ((s.build_start q 0x0302 g).trans hn)]
    exact ⟨_, rfl, rfl, rfl⟩
  · rw [hrun, hfails (st, i) ((s.build_start q 0x0302 g).trans he)]
    rfl

/-! ### The commit (R186, R187, R189) -/

/-- What freeing tiles and posting events leaves alone. -/
structure TablesKept (s u : State) : Prop where
  txn : u.txn = s.txn
  rows : u.rows = s.rows
  job : u.job = s.job
  layout : u.layout = s.layout
  mem : u.mem = s.mem

theorem TablesKept.refl (s : State) : TablesKept s s := ⟨rfl, rfl, rfl, rfl, rfl⟩

theorem TablesKept.trans {s t u : State} (h₁ : TablesKept s t) (h₂ : TablesKept t u) : TablesKept s u :=
  ⟨h₂.txn.trans h₁.txn, h₂.rows.trans h₁.rows, h₂.job.trans h₁.job, h₂.layout.trans h₁.layout, h₂.mem.trans h₁.mem⟩

theorem State.tablesKept_post (s : State) (code : BitVec 16) (cls : Fin 4) (data : List DataField) : TablesKept s (s.post code cls data) :=
  ⟨rfl, rfl, rfl, rfl, rfl⟩

theorem State.tablesKept_autoFree (before s : State) : TablesKept s (before.autoFree s) := by
  unfold autoFree
  refine foldl_rel TablesKept.refl TablesKept.trans (fun t tile => ?_) _ s
  exact ite_rel ⟨rfl, rfl, rfl, rfl, rfl⟩ (.refl t)

theorem State.tablesKept_partnerCheck (s : State) (n : Gen) : TablesKept s (s.partnerCheck n) := by
  unfold partnerCheck
  refine foldl_rel TablesKept.refl TablesKept.trans (fun t e => ?_) _ s
  cases e.partner with
  | none => exact .refl t
  | some p => exact ite_rel (.refl t) (t.tablesKept_post ..)

/-- A commit may retire the older generation at once. -/
theorem State.retireCheck_kept (s : State) :
    ∃ older eff, TablesKept { s with txn := { s.txn with older := older, eff := eff } } s.retireCheck := by
  have holder : ∃ older eff, TablesKept { s with txn := { s.txn with older := older, eff := eff } } s.retireOlder := by
    unfold retireOlder
    split
    next => exact ⟨s.txn.older, s.txn.eff, .refl s⟩
    next => exact ⟨none, _, (tablesKept_autoFree ..).trans (tablesKept_post ..)⟩
  unfold retireCheck
  split
  · exact holder
  · exact ⟨s.txn.older, s.txn.eff, .refl s⟩

/-- The group ends and its generation becomes the newest. -/
def Txn.committed (x : Txn) (g : Group) (n : Gen) (older : Option Gen) (eff : Vector (Option Nat) 16) : Txn :=
  { x with newest := n.atCommit x.newest g, older := older, eff := eff, groups := x.groups.filter (fun y => y.id ≠ g.id), built := none }

theorem State.commit_unarmed {s : State} {g : Group} {n : Gen} (hbuilt : s.txn.built = some n) (hunarmed : s.armed = false) (l : Nat) :
    TablesKept { s with txn := s.txn.committed g n none (Vector.replicate 16 none) } (s.commit g l) := by
  simp only [commit, hbuilt, hunarmed, Bool.false_eq_true, if_false]
  exact (tablesKept_autoFree ..).trans (tablesKept_post ..)

/-- What a commit in an armed job does to a row: an affected one is to be squashed, another runs on under the new number. -/
def State.commitRow (rows : Fin 16 → Bool) (l : Nat) (number : BitVec 32) (s : State) (r : Fin 16) : State :=
  if rows r then s.wantSquash r (s.effLine r l) .commit else s.renumber r number

/-- A squash of the row is wanted at or below a line. -/
def SpcRow.squashedBy (x : SpcRow) (n : Nat) : Prop := ∃ y, x.squash = some y ∧ y.line ≤ n

theorem State.commitRow_frame (rows : Fin 16 → Bool) (l : Nat) (number : BitVec 32) (s : State) (r : Fin 16) :
    (s.commitRow rows l number r).txn = s.txn ∧ (s.commitRow rows l number r).layout = s.layout ∧
      (s.commitRow rows l number r).mem = s.mem := by
  unfold commitRow
  split <;> exact ⟨rfl, rfl, rfl⟩

theorem State.wantSquash_squashedBy (s : State) (r : Fin 16) (n : Nat) (why : SquashWhy) :
    ((s.wantSquash r n why).rows[r]).squashedBy n := by
  simp only [wantSquash, updRow_value, getElem_upd_self, SpcRow.squashedBy]
  split
  · exact ⟨_, rfl, Nat.min_le_right ..⟩
  · exact ⟨_, rfl, Nat.le_refl n⟩

theorem State.wantSquash_keeps_squashedBy {s : State} {r k : Fin 16} {m n : Nat} {why : SquashWhy} (h : (s.rows[k]).squashedBy n) :
    ((s.wantSquash r m why).rows[k]).squashedBy n := by
  by_cases hk : k = r
  · subst hk
    obtain ⟨y, hy, hline⟩ := h
    simp only [wantSquash, updRow_value, getElem_upd_self, SpcRow.squashedBy, hy]
    exact ⟨_, rfl, Nat.le_trans (Nat.min_le_left ..) hline⟩
  · rw [wantSquash, updRow_value, getElem_upd_ne _ hk]
    exact h

theorem State.commitRow_keeps_squashedBy {s : State} {rows : Fin 16 → Bool} {l : Nat} {number : BitVec 32} {r k : Fin 16} {n : Nat}
    (h : (s.rows[k]).squashedBy n) : ((s.commitRow rows l number r).rows[k]).squashedBy n := by
  unfold commitRow
  split
  · exact wantSquash_keeps_squashedBy h
  · have hsame : ((s.renumber r number).rows[k]).squash = (s.rows[k]).squash := getElem_upd_keep (g := SpcRow.squash) rfl k
    rw [SpcRow.squashedBy, hsame]
    exact h

theorem State.effLine_congr {s t : State} (h : t.layout = s.layout) (r : Fin 16) (l : Nat) : t.effLine r l = s.effLine r l := by
  rw [effLine, effLine, h]

/-- The rows of a commit in an armed job, one after the other. -/
def State.commitRows (s : State) (rows : Fin 16 → Bool) (l : Nat) (number : BitVec 32) : State :=
  (List.finRange 16).foldl (State.commitRow rows l number) s

theorem State.commitRows_frame (s : State) (rows : Fin 16 → Bool) (l : Nat) (number : BitVec 32) :
    (s.commitRows rows l number).txn = s.txn ∧ (s.commitRows rows l number).mem = s.mem :=
  ⟨foldl_txn _ _ s fun t r => (t.commitRow_frame rows l number r).1, foldl_mem _ _ s fun t r => (t.commitRow_frame rows l number r).2.2⟩

theorem State.commitRows_squashedBy (s : State) {rows : Fin 16 → Bool} (l : Nat) (number : BitVec 32) {r : Fin 16} (hr : rows r = true) :
    ((s.commitRows rows l number).rows[r]).squashedBy (s.effLine r l) := by
  obtain ⟨before, after, hsplit⟩ := List.append_of_mem (List.mem_finRange r)
  let t := before.foldl (State.commitRow rows l number) s
  have hlayout : t.layout = s.layout := foldl_layout _ before s fun t r => (t.commitRow_frame rows l number r).2.1
  have hthere : ((t.commitRow rows l number r).rows[r]).squashedBy (s.effLine r l) := by
    rw [commitRow, if_pos hr, effLine_congr hlayout]
    exact wantSquash_squashedBy ..
  rw [commitRows, hsplit, List.foldl_append, List.foldl_cons]
  exact foldl_rel (R := fun t u => (t.rows[r]).squashedBy (s.effLine r l) → (u.rows[r]).squashedBy (s.effLine r l)) (fun _ => id)
    (fun h₁ h₂ h => h₂ (h₁ h)) (fun _ _ => commitRow_keeps_squashedBy) after _ hthere

theorem State.commit_armed {s : State} {g : Group} {n : Gen} (hbuilt : s.txn.built = some n) (harmed : s.armed = true) (l : Nat) :
    let u := s.commit g l
    (∃ older eff, u.txn = s.txn.committed g n older eff) ∧ u.mem = s.mem ∧
      ∀ r, s.affected g (n.atCommit s.txn.newest g) r = true → (u.rows[r]).squashedBy (s.effLine r l) := by
  let new := n.atCommit s.txn.newest g
  let rows := s.affected g new
  let eff := Vector.ofFn fun r : Fin 16 => if rows r then some (s.effLine r l) else none
  let s1 : State := { s with txn := s.txn.committed g n (some s.txn.newest) eff }
  let s2 := (s.autoFree s1).commitRows rows l new.number
  have hcommit : s.commit g l = (s2.partnerCheck new).retireCheck := by
    simp only [commit, hbuilt, harmed, if_true]
    rfl
  have hfreed : TablesKept s1 (s.autoFree s1) := s.tablesKept_autoFree s1
  obtain ⟨htxn, hmem⟩ := (s.autoFree s1).commitRows_frame rows l new.number
  have hchecked := s2.tablesKept_partnerCheck new
  obtain ⟨older, eff', hretired⟩ := (s2.partnerCheck new).retireCheck_kept
  intro u
  have hrows : u.rows = s2.rows := by rw [show u = _ from hcommit, hretired.rows]; exact hchecked.rows
  refine ⟨⟨older, eff', ?_⟩, ?_, fun r hr => ?_⟩
  · rw [show u = _ from hcommit, hretired.txn]
    simp only [hchecked.txn, s2, htxn, hfreed.txn, s1]
    rfl
  · rw [show u = _ from hcommit, hretired.mem]
    exact hchecked.mem.trans (hmem.trans hfreed.mem)
  · have hline : (s.autoFree s1).effLine r l = s.effLine r l := effLine_congr hfreed.layout r l
    rw [hrows, ← hline]
    exact commitRows_squashedBy _ l new.number hr

/-! ### TXN_COMMIT (R186, R199) -/

/-- The payload of TXN_COMMIT at a line. -/
def commitPayload (id : BitVec 32) (line : Nat) : List Byte := le 4 id.toNat ++ [0, 0, 0, 0] ++ le 8 line

theorem commitPayload_fields (id : BitVec 32) {line : Nat} (hline : line < 2 ^ 48) :
    let p := commitPayload id line
    fld p 4 1 = 0 ∧ fld p 8 8 = line ∧ zeros p 5 3 = true ∧ p.length = 16 := by
  refine ⟨rfl, ?_, rfl, rfl⟩
  rw [commitPayload, fld_append_right _ _ (by simp)]
  exact (fld_le_end 8 line).trans (Nat.mod_eq_of_lt (Nat.lt_trans hline (by decide)))

/-- TXN_COMMIT at a line, of a sealed group of this module alone. -/
theorem exec_txnCommit {q : Req} {s : State} {g : Group} {n : Gen} {line : Nat} (hq : Claims.Fresh 0x0303 q s)
    (hfound : s.group? g.id = some g) (hsealed : g.state = .sealed) (hlocal : g.chain = false) (hbuilt : s.txn.built = some n)
    (hidle : ∀ c, s.txn.coordination = some c → c.group ≠ g.id) (hline : line < 2 ^ 48) (hp : q.payload = commitPayload g.id line) :
    exec (.txnCommit q) s = .next (((s.start q 0x0303).commitLocal g n false line).deliver q 0x0303) := by
  obtain ⟨hflags, hat, hzero, hlength⟩ := commitPayload_fields g.id hline
  have hrun : exec (.txnCommit q) s = .next ((cmdTxnCommit.run q (s.start q 0x0303)).deliver q 0x0303) :=
    congrArg _ (serve_of_fresh hq (by rw [hp]; exact beq_iff_eq.2 hlength))
  have hid : groupField q = g.id := groupField_of_payload (hp.trans (by rw [commitPayload, List.append_assoc]))
  have hnamed : (s.start q 0x0303).group? g.id = some g := hfound
  have hready : (s.start q 0x0303).txn.built = some n := hbuilt
  have hcoordination : (s.start q 0x0303).txn.coordination = s.txn.coordination := rfl
  have hnow : bit 0 0 = false := rfl
  rw [hrun]
  simp only [cmdTxnCommit, hp, hflags, hat, hzero, hnow, hcoordination]
  rw [State.namedGroup_of_found (by simpa using hline) hid hnamed (by rw [hsealed]; decide), checks_pass]
  · simp only [State.seal_sealed hsealed, sealAns, State.commitSealed, hnamed, hready, hlocal, Bool.false_eq_true, if_false]
  · cases hc : s.txn.coordination with
    | none => simp [hsealed]
    | some c => simp [hsealed, hidle c hc]

theorem State.commitLocal_unarmed {s : State} (hunarmed : s.armed = false) (g : Group) (n : Gen) (l : Nat) :
    s.commitLocal g n false l = Claims.ok (s.commit g l) (s.commitBytes n.number (s.affected g n) l) := by
  rw [commitLocal, hunarmed]
  rfl

section Armed

variable {s : State} {g : Group} {n : Gen} {l : Nat} (harmed : s.armed = true) (hbindings : s.earlyBinding g l = none)
include harmed hbindings

theorem State.commitLocal_lead (hlead : s.shortRow (s.affected g n) l 64 = none) :
    s.commitLocal g n false l = Claims.ok (s.commit g l) (s.commitBytes n.number (s.affected g n) l) := by
  simp only [commitLocal, harmed, hbindings, hlead, if_true, Bool.false_eq_true, if_false]
  rfl

theorem State.commitLocal_short {r : Fin 16} {d : Nat} (hshort : s.shortRow (s.affected g n) l 64 = some (r, d)) :
    s.commitLocal g n false l = Ans.fail s .leadTooShort (r.val * 2 ^ 28 + d % 2 ^ 28) := by
  simp only [commitLocal, harmed, hbindings, hshort, if_true, Bool.false_eq_true, if_false]

end Armed

theorem State.length_commitBytes (s : State) (number : BitVec 32) (rows : Fin 16 → Bool) (l : Nat) :
    (s.commitBytes number rows l).length = 144 := by
  simp [commitBytes, List.length_flatMap]

theorem exec_txnCommit_answers (q : Req) (s : State) (g : Group) (n : Gen) (line : Nat) (hq : Claims.Fresh 0x0303 q s)
    (hfound : s.group? g.id = some g) (hsealed : g.state = .sealed) (hlocal : g.chain = false) (hbuilt : s.txn.built = some n)
    (hidle : ∀ c, s.txn.coordination = some c → c.group ≠ g.id) (hline : line < 2 ^ 48)
    (hp : q.payload = le 4 g.id.toNat ++ [0, 0, 0, 0] ++ le 8 line) :
    (s.armed = false → ∃ (u : State) (p : List Byte), exec (.txnCommit q) s = .next ((Claims.ok u p).deliver q 0x0303) ∧ p.length = 144 ∧
      u.txn.newest = n.atCommit s.txn.newest g ∧ u.txn.older = none ∧ u.txn.built = none ∧ u.txn.groups = s.txn.groups.filter (fun x => x.id ≠ g.id) ∧
      u.job = s.job ∧ u.rows = s.rows ∧ u.mem = s.mem) ∧
    (s.armed = true → s.earlyBinding g line = none → s.shortRow (s.affected g n) line 64 = none →
      ∃ (u : State) (p : List Byte), exec (.txnCommit q) s = .next ((Claims.ok u p).deliver q 0x0303) ∧ p.length = 144 ∧
        u.txn.newest = n.atCommit s.txn.newest g ∧ u.txn.built = none ∧ u.txn.groups = s.txn.groups.filter (fun x => x.id ≠ g.id) ∧
        (∀ r, s.affected g (n.atCommit s.txn.newest g) r = true → ∃ y, (u.rows[r]).squash = some y ∧ y.line ≤ s.effLine r line) ∧ u.mem = s.mem) ∧
    (∀ r d, s.armed = true → s.earlyBinding g line = none → s.shortRow (s.affected g n) line 64 = some (r, d) →
      exec (.txnCommit q) s = .next ((Ans.fail (s.start q 0x0303) .leadTooShort (r.val * 2 ^ 28 + d % 2 ^ 28)).deliver q 0x0303)) := by
  let w := s.start q 0x0303
  have hrun := exec_txnCommit hq hfound hsealed hlocal hbuilt hidle hline hp
  have hready : w.txn.built = some n := hbuilt
  refine ⟨fun hunarmed => ?_, fun harmed hbindings hlead => ?_, fun r d harmed hbindings hshort => ?_⟩
  · have hstart : w.armed = false := hunarmed
    have hkept := State.commit_unarmed (g := g) hready hstart line
    refine ⟨_, _, exec_of_answer hrun (w.commitLocal_unarmed hstart g n line), State.length_commitBytes .., ?_⟩
    rw [hkept.txn]
    exact ⟨rfl, rfl, rfl, rfl, hkept.job, hkept.rows, hkept.mem⟩
  · have hstart : w.armed = true := harmed
    obtain ⟨⟨older, eff, htxn⟩, hmem, hsquashed⟩ := State.commit_armed (g := g) hready hstart line
    refine ⟨_, _, exec_of_answer hrun (w.commitLocal_lead hstart hbindings hlead), State.length_commitBytes .., ?_⟩
    rw [htxn]
    exact ⟨rfl, rfl, rfl, hsquashed, hmem⟩
  · exact exec_of_answer hrun (State.commitLocal_short (s := w) harmed hbindings hshort)

/-! ### TXN_STATUS (R201) -/

theorem State.txnStatusBytes_fields (s : State) :
    let p := s.txnStatusBytes
    p.length = 32 ∧ fld p 0 4 = s.txn.newest.number.toNat ∧ fld p 8 1 = (if s.txn.older.isSome then 2 else 1) ∧
      fld p 24 8 = s.nowNs % 2 ^ 64 := by
  have hlive : (if s.txn.older.isSome then 2 else 1) % 256 ^ 1 = if s.txn.older.isSome then 2 else 1 := by split <;> rfl
  refine ⟨?_, ?_, ?_, ?_⟩
  · simp [txnStatusBytes]
  all_goals
    simp only [txnStatusBytes, List.append_assoc]
    simp (disch := simp) only [fld_append_right, length_le, Nat.reduceSub, fld_le, fld_le_end, toNat_mod_four_bytes, hlive]
  -- The time of the answer: eight bytes are 64 bits.
  rfl

theorem exec_txnStatus_answers (q : Req) (s : State) (hq : Claims.FreshOf 0x0305 0 q s) : ∃ p : List Byte,
    exec (.txnStatus q) s = .next ((Claims.ok (s.start q 0x0305) p).deliver q 0x0305) ∧ p.length = 32 ∧ fld p 0 4 = s.txn.newest.number.toNat ∧
    fld p 8 1 = (if s.txn.older.isSome then 2 else 1) ∧ fld p 24 8 = s.nowNs % 2 ^ 64 :=
  ⟨(s.start q 0x0305).txnStatusBytes, congrArg _ (serve_of_fresh hq.1 (beq_iff_eq.2 hq.2)), (s.start q 0x0305).txnStatusBytes_fields⟩

/-- Settles O39: each command by the fields of its payload, the checks of its group, and for a commit what it leaves of the
generations and the rows. -/
theorem correctionGroupsComplete : Obligations.CorrectionGroupsComplete :=
  ⟨exec_txnOpen_opens, exec_txnAdd_inline, exec_txnAdd_byReference, exec_txnSeal_answers, exec_txnCommit_answers, exec_txnStatus_answers⟩

end Sys2Proof.Machine
end

section
/-! PROOF. TXN_DISCARD, and votes, decisions, queries and answers of a chain commit (08 R193 to R195, R199, R200, R202, R631): O40. -/

namespace Sys2Proof.Machine

/-! ### What sending a message leaves alone (15 R357, R358, R377) -/

/-- Messages sent on the chain leave the groups, the job, memory and the mailboxes alone, and what the module knows of itself and of
its peers. -/
structure MessagesSent (s u : State) : Prop where
  txn : u.txn = s.txn
  job : u.job = s.job
  mem : u.mem = s.mem
  mbx : u.mbx = s.mbx
  address : u.chain.address = s.chain.address
  inReset : u.chain.inReset = s.chain.inReset

theorem MessagesSent.refl (s : State) : MessagesSent s s := ⟨rfl, rfl, rfl, rfl, rfl, rfl⟩

theorem MessagesSent.trans {s t u : State} (h₁ : MessagesSent s t) (h₂ : MessagesSent t u) : MessagesSent s u :=
  ⟨h₂.txn.trans h₁.txn, h₂.job.trans h₁.job, h₂.mem.trans h₁.mem, h₂.mbx.trans h₁.mbx, h₂.address.trans h₁.address,
    h₂.inReset.trans h₁.inReset⟩

theorem State.messagesSent_laneOut (s : State) (l : Fin 34) (b : List (Bool × BitVec 64)) : MessagesSent s (s.laneOut l b) :=
  ⟨rfl, rfl, rfl, rfl, rfl, rfl⟩

theorem State.messagesSent_setHop (s : State) (side : Side) (h : Hop) : MessagesSent s (s.setHop side h) := by
  cases side <;> exact ⟨rfl, rfl, rfl, rfl, rfl, rfl⟩

theorem State.messagesSent_chainPump (s : State) (side : Side) : MessagesSent s (s.chainPump side) := by
  unfold chainPump
  dsimp only
  split
  next => exact (s.messagesSent_setHop ..).trans (messagesSent_laneOut ..)
  next => exact .refl s

theorem State.messagesSent_chainTo (s : State) (side : Side) (m : ChainMsg) : MessagesSent s (s.chainTo side m) :=
  ite_rel ((s.messagesSent_setHop ..).trans (messagesSent_chainPump ..)) (.refl s)

theorem State.messagesSent_wakeDir (s : State) (side : Side) : MessagesSent s (s.wakeDir side) :=
  ite_rel ((s.messagesSent_setHop ..).trans ⟨rfl, rfl, rfl, rfl, rfl, rfl⟩) (.refl s)

theorem State.messagesSent_chainAddressed (s : State) (mtype : Byte) (src dst : Nat) (body : List Byte) :
    MessagesSent s (s.chainAddressed mtype src dst body) :=
  ite_rel (s.messagesSent_chainTo ..) (ite_rel ((s.messagesSent_chainTo ..).trans (messagesSent_wakeDir ..))
    ((s.messagesSent_wakeDir ..).trans (messagesSent_chainTo ..)))

theorem State.messagesSent_passOn (s : State) (h : ChainHdr) (mtype : Byte) (body : List Byte) : MessagesSent s (s.passOn h mtype body) :=
  ite_rel (.refl s) ((s.messagesSent_wakeDir ..).trans (messagesSent_chainTo ..))

theorem State.messagesSent_sendDecision (s : State) (group : BitVec 32) (commit : Bool) : MessagesSent s (s.sendDecision group commit) :=
  (s.messagesSent_chainTo ..).trans (messagesSent_chainTo ..)

theorem State.armed_congr {s u : State} (h : u.job = s.job) : u.armed = s.armed := by rw [armed, armed, h]

/-! ### One group of the state (R180) -/

theorem State.group?_congr {s u : State} (h : u.txn = s.txn) (id : BitVec 32) : u.group? id = s.group? id := by rw [group?, group?, h]

theorem State.preparedGroup_congr {s u : State} (h : u.txn.groups = s.txn.groups) : u.preparedGroup = s.preparedGroup := by
  rw [preparedGroup, preparedGroup, h]

theorem State.id_of_group? {s : State} {id : BitVec 32} {g : Group} (h : s.group? id = some g) : g.id = id :=
  of_decide_eq_true (List.find?_some (p := fun x : Group => x.id = id) h)

theorem State.state_of_preparedGroup {s : State} {g : Group} (h : s.preparedGroup = some g) : g.state = .prepared :=
  eq_of_beq (List.find?_some (p := fun x : Group => x.state == .prepared) h)

theorem find?_map_of_keep {α : Type} {p : α → Bool} {f : α → α} (h : ∀ a, p (f a) = p a) (l : List α) :
    (l.map f).find? p = (l.find? p).map f := by
  rw [List.find?_map, show p ∘ f = p from funext h]

theorem State.group?_updGroup (s : State) (id : BitVec 32) {f : Group → Group} (hf : ∀ x, (f x).id = x.id) :
    (s.updGroup id f).group? id = (s.group? id).map f := by
  unfold updGroup group?
  rw [find?_map_of_keep (fun x => by split <;> simp [hf])]
  cases hfound : s.txn.groups.find? (fun x => x.id = id) with
  | none => rfl
  | some g => rw [Option.map_some, if_pos (id_of_group? hfound), Option.map_some]

theorem State.preparedGroup_updGroup {s : State} {g : Group} (hprepared : s.preparedGroup = some g) {f : Group → Group}
    (hf : ∀ x, (f x).state = x.state) : (s.updGroup g.id f).preparedGroup = some (f g) := by
  unfold updGroup preparedGroup
  rw [find?_map_of_keep (fun x => by split <;> simp [hf]), show s.txn.groups.find? _ = some g from hprepared, Option.map_some, if_pos rfl]

theorem State.updGroup_of_absent {s : State} {id : BitVec 32} (h : s.group? id = none) (f : Group → Group) : s.updGroup id f = s := by
  have hsame : s.txn.groups.map (fun g => if g.id = id then f g else g) = s.txn.groups := by
    refine (List.map_congr_left fun g hg => if_neg fun hid => ?_).trans (List.map_id' _)
    exact List.find?_eq_none.1 h g hg (decide_eq_true hid)
  rw [updGroup, hsame]

theorem State.group?_filter_ne {s : State} {id : BitVec 32} {l : List Group} (h : s.txn.groups = l.filter (fun x => x.id ≠ id)) :
    s.group? id = none := by
  rw [group?, h, List.find?_eq_none]
  intro x hx hid
  exact of_decide_eq_true (List.mem_filter.1 hx).2 (of_decide_eq_true hid)

/-! ### TXN_DISCARD (R200) -/

theorem State.dropGroup_kept (s : State) (g : Group) :
    TablesKept { s with txn := { s.txn with
      groups := s.txn.groups.filter (fun x => x.id ≠ g.id), built := if g.holds then none else s.txn.built } } (s.dropGroup g) :=
  s.tablesKept_autoFree _

theorem exec_txnDiscard {q : Req} {s : State} {g : Group} (hq : Claims.Fresh 0x0304 q s) (hfound : s.group? g.id = some g)
    (hp : q.payload = groupPayload g.id) : let w := s.start q 0x0304
    exec (.txnDiscard q) s =
      .next ((checks w [(false, .badParam), (g.state == .prepared, .badState)] fun _ => Claims.ok (w.dropGroup g)).deliver q 0x0304) := by
  have hrun : exec (.txnDiscard q) s = .next ((cmdTxnDiscard.run q (s.start q 0x0304)).deliver q 0x0304) :=
    congrArg _ (serve_of_fresh hq (by rw [hp]; rfl))
  have hnamed : (s.start q 0x0304).group? g.id = some g := hfound
  have hzero : zeros (groupPayload g.id) 4 4 = true := rfl
  rw [hrun]
  simp only [cmdTxnDiscard, groupField_of_payload hp, hnamed, hp, hzero]
  rfl

theorem exec_txnDiscard_answers (q : Req) (s : State) (g : Group) (hq : Claims.Fresh 0x0304 q s) (hfound : s.group? g.id = some g)
    (hp : q.payload = le 4 g.id.toNat ++ [0, 0, 0, 0]) :
    (g.state ≠ .prepared → ∃ u : State, exec (.txnDiscard q) s = .next ((Claims.ok u).deliver q 0x0304) ∧
      u.txn.groups = s.txn.groups.filter (fun x => x.id ≠ g.id) ∧ u.txn.newest = s.txn.newest ∧ u.job = s.job ∧ u.mem = s.mem) ∧
    (g.state = .prepared → exec (.txnDiscard q) s = .next ((Ans.fail (s.start q 0x0304) .badState).deliver q 0x0304)) := by
  have hrun := exec_txnDiscard hq hfound hp
  refine ⟨fun hstate => ?_, fun hstate => ?_⟩
  · have hkept := (s.start q 0x0304).dropGroup_kept g
    refine ⟨(s.start q 0x0304).dropGroup g, ?_, ?_, ?_, hkept.job, hkept.mem⟩
    · rw [hrun, beq_false_of_ne hstate]
      rfl
    · rw [hkept.txn]
      rfl
    · rw [hkept.txn]
      rfl
  · rw [hrun, hstate]
    rfl

/-! ### Messages of this epoch and of another (R193, 15 R359) -/

theorem State.current_ackChain {s : State} {h : ChainHdr} (hepoch : h.epoch = s.chain.epoch) (t : Nat) :
    ((s.at t).ackChain h).current h = true :=
  beq_iff_eq.2 hepoch

theorem exec_txnMessages_stale (h : ChainHdr) (m : PrepareMsg) (g : BitVec 32) (c : Bool) (a : TxnAnswerState) (t : Nat) (s : State)
    (hepoch : h.epoch ≠ s.chain.epoch) :
    exec (.txnPrepare h m t) s = .next ((s.at t).ackChain h) ∧ exec (.txnDecision h g c t) s = .next ((s.at t).ackChain h) ∧
    exec (.txnQuery h g t) s = .next ((s.at t).ackChain h) ∧ exec (.txnAnswer h g a t) s = .next ((s.at t).ackChain h) := by
  have hstale : ¬ ((s.at t).ackChain h).current h = true := fun heq => hepoch (eq_of_beq heq)
  exact ⟨congrArg _ (if_neg hstale), congrArg _ (if_neg hstale), congrArg _ (if_neg hstale), congrArg _ (if_neg hstale)⟩

/-! ### Votes (R193) -/

theorem State.vote_yes {s : State} {m : PrepareMsg} {g : Group} {n : Gen} (hfound : s.group? m.group = some g) (hsealed : g.state = .sealed)
    (hchain : g.chain = true) (hbuilt : s.txn.built = some n) (halone : s.txn.coordination = none) (hunarmed : s.armed = false)
    (hnone : ∀ x ∈ s.txn.groups, x.id ≠ g.id → x.state ≠ .prepared) : s.vote m = none := by
  have hothers : s.txn.groups.any (fun x => x.id ≠ g.id && x.state == .prepared) = false :=
    any_and_eq_false fun x hx hid => beq_false_of_ne (hnone x hx (of_decide_eq_true hid))
  simp only [vote, hfound, hbuilt, halone, hsealed, hchain, hothers, voteSealed, hunarmed]
  rfl

/-- A sealed group whose module votes YES on a PREPARE. -/
def Group.prepared (m : PrepareMsg) (now : Nat) (g : Group) : Group :=
  { g with state := .prepared, line := m.line, coordinator := m.coordinator, votedAt := max 1 now, queried := false, answered := 0 }

theorem State.voteOn_yes {s : State} {m : PrepareMsg} {g : Group} (hfound : s.group? m.group = some g) (hsealed : g.state = .sealed)
    (hyes : s.vote m = none) : (s.voteOn m).1.group? m.group = some (g.prepared m s.aon) := by
  refine (s.group?_updGroup m.group fun x => ?_).trans ?_
  · split <;> rfl
  · rw [hfound, hyes, Option.map_some, hsealed]
    rfl

theorem State.voteOn_absent {s : State} {m : PrepareMsg} (habsent : s.group? m.group = none) :
    (s.voteOn m).1.txn = { s.txn with voted := (s.voteOn m).1.txn.voted } := by
  simp only [voteOn, updGroup_of_absent habsent]
  rfl

/-- A PREPARE of another module's is voted on and passed on. -/
theorem exec_txnPrepare_votes {h : ChainHdr} {m : PrepareMsg} {s : State} (hepoch : h.epoch = s.chain.epoch)
    (hother : s.chain.address ≠ some m.coordinator) (t : Nat) :
    ∃ u, exec (.txnPrepare h m t) s = .next u ∧ MessagesSent (((s.at t).ackChain h).voteOn m).1 u := by
  refine ⟨((s.at t).ackChain h).takePrepare m, congrArg _ (if_pos (State.current_ackChain hepoch t)), ?_⟩
  have haddress : ((s.at t).ackChain h).chain.address ≠ some m.coordinator := hother
  rw [State.takePrepare, if_neg haddress]
  exact State.messagesSent_chainTo ..

theorem exec_txnPrepare_answers (h : ChainHdr) (m : PrepareMsg) (t : Nat) (s : State) (hepoch : h.epoch = s.chain.epoch)
    (hother : s.chain.address ≠ some m.coordinator) :
    (∀ (g : Group) (n : Gen), s.group? m.group = some g → g.state = .sealed → g.chain = true → s.txn.built = some n → s.txn.coordination = none → s.armed = false →
      (∀ x ∈ s.txn.groups, x.id ≠ g.id → x.state ≠ .prepared) →
      ∃ u, exec (.txnPrepare h m t) s = .next u ∧
        (u.group? m.group).map (fun g => (g.state, g.line, g.coordinator)) = some (.prepared, m.line, m.coordinator) ∧ u.txn.newest = s.txn.newest ∧
        u.job = s.job ∧ u.mem = s.mem) ∧
    (s.group? m.group = none → ∃ u, exec (.txnPrepare h m t) s = .next u ∧ u.txn = { s.txn with voted := u.txn.voted } ∧ u.job = s.job ∧ u.mem = s.mem) := by
  obtain ⟨u, hrun, hsent⟩ := exec_txnPrepare_votes hepoch hother t
  let w := (s.at t).ackChain h
  refine ⟨fun g n hfound hsealed hchain hbuilt halone hunarmed hnone => ⟨u, hrun, ?_, ?_, hsent.job, hsent.mem⟩,
    fun habsent => ⟨u, hrun, ?_, hsent.job, hsent.mem⟩⟩
  · have hthere : w.group? m.group = some g := hfound
    have hyes : w.vote m = none := State.vote_yes hthere hsealed hchain hbuilt halone hunarmed hnone
    rw [State.group?_congr hsent.txn, State.voteOn_yes hthere hsealed hyes]
    rfl
  · rw [hsent.txn]
    rfl
  · have hthere : w.group? m.group = none := habsent
    rw [hsent.txn]
    exact State.voteOn_absent hthere

/-! ### TXN_RESULT, and the two ends of a prepared group (R194, R199, R202) -/

theorem State.resolve_outbox (s : State) (o : Origin) (st : Status) (detail : Nat) (payload : List Byte) :
    (s.resolve o st detail payload).mbx.outbox = s.mbx.outbox := by
  unfold resolve
  dsimp only
  split
  next => rfl
  next => split <;> rfl

theorem State.txnResult_posts (s : State) (o : Option Origin) (group : BitVec 32) (st : Status) (detail line : Nat) (coordinator : Fin 16) :
    Claims.Posts s (s.txnResult o group st detail line coordinator) [0x0270] := by
  cases o with
  | none => exact List.map_append
  | some o =>
    rw [Claims.Posts, txnResult, result, resolve_outbox]
    exact List.map_append

/-- A group that returns to SEALED. -/
def Group.resealed (g : Group) : Group := { g with state := .sealed, votedAt := 0, queried := false, answered := 0 }

theorem State.txnAbort_txn (s : State) (g : Group) (o : Option Origin) (detail : Nat) :
    (s.txnAbort g o detail).txn =
      { (s.updGroup g.id Group.resealed).txn with outcomes := (s.txnAbort g o detail).txn.outcomes } := by
  simp only [txnAbort, txnResult_frame]
  split <;> rfl

theorem State.txnAbort_posts (s : State) (g : Group) (o : Option Origin) (detail : Nat) : Claims.Posts s (s.txnAbort g o detail) [0x0270] := by
  unfold txnAbort
  dsimp only
  split <;> exact txnResult_posts ..

/-- What an ABORT leaves of the groups and the generations. -/
structure Resealed (s u : State) (id : BitVec 32) : Prop where
  group : (u.group? id).map (·.state) = (s.group? id).map fun _ => .sealed
  newest : u.txn.newest = s.txn.newest
  built : u.txn.built = s.txn.built
  coordination : u.txn.coordination = s.txn.coordination

theorem State.txnAbort_resealed (s : State) (g : Group) (o : Option Origin) (detail : Nat) : Resealed s (s.txnAbort g o detail) g.id := by
  have htxn := s.txnAbort_txn g o detail
  refine ⟨?_, by rw [htxn]; rfl, by rw [htxn]; rfl, by rw [htxn]; rfl⟩
  have hgroup : (s.txnAbort g o detail).group? g.id = (s.updGroup g.id Group.resealed).group? g.id := by rw [group?, htxn]; rfl
  rw [hgroup, s.group?_updGroup g.id (f := Group.resealed) fun _ => rfl, Option.map_map]
  rfl

theorem State.txnAbort_outcome {s : State} {g : Group} (hprepared : g.state = .prepared) (o : Option Origin) (detail : Nat) :
    (s.txnAbort g o detail).txn.outcomes.head? = some (g.id, false) := by
  simp only [txnAbort, txnResult_frame, hprepared]
  rfl

theorem State.txnCommitted_ends {s : State} {g : Group} {n : Gen} (hbuilt : s.txn.built = some n) (hunarmed : s.armed = false)
    (o : Option Origin) : let u := s.txnCommitted g o
    u.txn.newest = n.atCommit s.txn.newest g ∧ u.txn.outcomes.head? = some (g.id, true) ∧ u.group? g.id = none ∧ u.job = s.job := by
  have hkept := State.commit_unarmed (g := g) hbuilt hunarmed g.line
  have htxn : (s.txnCommitted g o).txn = (s.txn.committed g n none (Vector.replicate 16 none)).record g.id true := by
    simp only [txnCommitted, txnResult_frame, hkept.txn]
  have hjob : (s.txnCommitted g o).job = s.job := by
    simp only [txnCommitted, txnResult_frame, hkept.job]
  exact ⟨by rw [htxn]; rfl, by rw [htxn]; rfl, group?_filter_ne (congrArg Txn.groups htxn), hjob⟩

/-! ### PREPARE_TIMEOUT (R193) -/

/-- The coordinator that decides ABORT tells its peers and returns the group to SEALED. -/
theorem State.decideTxn_aborts {s : State} {c : Coordination} {g : Group} (hfound : s.group? c.group = some g) (detail : Nat) :
    ∃ w, MessagesSent { s with txn := { s.txn with coordination := none } } w ∧
      s.decideTxn c false detail = w.txnAbort g (some c.origin) detail := by
  have hsent := messagesSent_sendDecision { s with txn := { s.txn with coordination := none } } c.group false
  have hthere := (group?_congr hsent.txn c.group).trans hfound
  refine ⟨_, hsent, ?_⟩
  unfold decideTxn
  dsimp only
  split
  next x hx =>
    obtain rfl : x = g := Option.some.inj (hx.symm.trans hthere)
    rfl
  next hx => exact nomatch hx.symm.trans hthere

theorem exec_prepareTimeout_aborts (t : Nat) (s : State) (c : Coordination) (g : Group) (hc : s.txn.coordination = some c)
    (hdue : c.sentAt + 50000 * 2 ^ 32 ≤ max s.aon t) (hfound : s.group? c.group = some g) :
    ∃ u, exec (.prepareTimeout t) s = .next u ∧ u.txn.coordination = none ∧ (u.group? c.group).map (·.state) = some .sealed ∧
      u.txn.newest = s.txn.newest ∧ Claims.Posts s u [0x0270] := by
  obtain ⟨w, hsent, hdecided⟩ := State.decideTxn_aborts (s := s.at t) hfound noVoteDetail
  have hrun : exec (.prepareTimeout t) s = .next (w.txnAbort g (some c.origin) noVoteDetail) := by
    change execPrepareTimeout t s = _
    rw [← hdecided, execPrepareTimeout, show (s.at t).txn.coordination = some c from hc]
    exact congrArg _ (if_pos hdue)
  have hends := w.txnAbort_resealed g (some c.origin) noVoteDetail
  have hthere : w.group? c.group = some g := (State.group?_congr hsent.txn _).trans hfound
  have hid := State.id_of_group? hfound
  refine ⟨_, hrun, ?_, ?_, ?_, (w.txnAbort_posts ..).trans (by rw [hsent.mbx]; rfl)⟩
  · rw [hends.coordination, hsent.txn]
  · rw [← hid, hends.group, hid, hthere]
    rfl
  · rw [hends.newest, hsent.txn]
    rfl

/-! ### Decisions (R194, R199) -/

/-- What the module remembers of a group when a decision names it. -/
def State.seen (s : State) (h : ChainHdr) (group : BitVec 32) : Voted :=
  (s.txn.voted? group).getD { group := group, line := 0, coordinator := h.src, no := none, skip := 0 }

/-- The module has heard the decision: the second copy is ignored. -/
def State.heard (s : State) (h : ChainHdr) (group : BitVec 32) (skip : Nat) : State :=
  { s with txn := s.txn.remember { s.seen h group with skip := skip } }

theorem State.heard_txn {s w : State} (hsent : MessagesSent s w) (h : ChainHdr) (group : BitVec 32) (skip : Nat) :
    (w.heard h group skip).txn = { s.txn with voted := (w.heard h group skip).txn.voted } := by
  rw [← hsent.txn]
  rfl

theorem State.seen_skip {s : State} {h : ChainHdr} {group : BitVec 32} (hfirst : ∀ v, s.txn.voted? group = some v → v.skip = 0) :
    ¬ 0 < (s.seen h group).skip := by
  unfold seen
  cases hv : s.txn.voted? group with
  | none => exact Nat.lt_irrefl 0
  | some v => exact (hfirst v hv).not_gt

section FirstCopy

variable {s : State} {h : ChainHdr} {group : BitVec 32} (hother : s.chain.address ≠ some h.src)
  (hfirst : ∀ v, s.txn.voted? group = some v → v.skip = 0)
include hother hfirst

theorem State.takeDecision_prepared {g : Group} (hprepared : s.preparedGroup = some g) (hid : g.id = group) (commit : Bool) :
    let w := s.heard h group 1
    s.takeDecision h group commit = if commit then w.txnCommitted g none else w.txnAbort g none (w.abortDetail group) := by
  unfold takeDecision
  dsimp only
  rw [if_neg hother]
  refine (if_neg (seen_skip hfirst)).trans ?_
  split
  next p hp =>
    obtain rfl : p = g := Option.some.inj (hp.symm.trans hprepared)
    exact if_pos hid
  next hp => exact nomatch hp.symm.trans hprepared

theorem State.takeDecision_unprepared (hnone : ∀ p, s.preparedGroup = some p → p.id ≠ group) (commit : Bool) : let w := s.heard h group 1
    s.takeDecision h group commit =
      w.txnResult none group .txnAborted (w.abortDetail group) (s.seen h group).line (s.seen h group).coordinator := by
  unfold takeDecision
  dsimp only
  rw [if_neg hother]
  refine (if_neg (seen_skip hfirst)).trans ?_
  split
  next p hp => exact if_neg (hnone p hp)
  next => rfl

end FirstCopy

theorem State.takeDecision_again {s : State} {h : ChainHdr} {group : BitVec 32} {v : Voted} (hother : s.chain.address ≠ some h.src)
    (hv : s.txn.voted? group = some v) (hskip : 0 < v.skip) (commit : Bool) :
    s.takeDecision h group commit = s.heard h group (v.skip - 1) := by
  have hseen : s.seen h group = v := by rw [seen, hv, Option.getD_some]
  unfold takeDecision
  dsimp only
  rw [if_neg hother, hv]
  exact (if_pos hskip).trans (by rw [heard, hseen]; rfl)

/-- A decision of this epoch is passed on, then taken. -/
theorem exec_txnDecision_current {h : ChainHdr} {s : State} (hepoch : h.epoch = s.chain.epoch) (g : BitVec 32) (commit : Bool) (t : Nat) :
    ∃ w, MessagesSent s w ∧ exec (.txnDecision h g commit t) s = .next (w.takeDecision h g commit) :=
  ⟨_, MessagesSent.trans (t := (s.at t).ackChain h) ⟨rfl, rfl, rfl, rfl, rfl, rfl⟩ (State.messagesSent_passOn ..),
    congrArg _ (if_pos (State.current_ackChain hepoch t))⟩

theorem exec_txnDecision_prepared (h : ChainHdr) (t : Nat) (s : State) (g : Group) (hepoch : h.epoch = s.chain.epoch)
    (hother : s.chain.address ≠ some h.src) (hfound : s.group? g.id = some g) (hprepared : s.preparedGroup = some g)
    (hfirst : ∀ v, s.txn.voted? g.id = some v → v.skip = 0) :
    (∀ n, s.txn.built = some n → s.armed = false → ∃ u, exec (.txnDecision h g.id true t) s = .next u ∧
      u.txn.newest = n.atCommit s.txn.newest g ∧ u.txn.outcomes.head? = some (g.id, true) ∧ u.group? g.id = none ∧ u.job = s.job) ∧
    (∃ u, exec (.txnDecision h g.id false t) s = .next u ∧ (u.group? g.id).map (·.state) = some .sealed ∧
      u.txn.outcomes.head? = some (g.id, false) ∧ u.txn.newest = s.txn.newest ∧ u.txn.built = s.txn.built ∧ Claims.Posts s u [0x0270]) := by
  have htaken (commit : Bool) : ∃ w, MessagesSent s w ∧ exec (.txnDecision h g.id commit t) s =
      .next (if commit then (w.heard h g.id 1).txnCommitted g none
        else (w.heard h g.id 1).txnAbort g none ((w.heard h g.id 1).abortDetail g.id)) := by
    obtain ⟨w, hsent, hrun⟩ := exec_txnDecision_current hepoch g.id commit t
    have hthere : w.preparedGroup = some g := (State.preparedGroup_congr (congrArg Txn.groups hsent.txn)).trans hprepared
    exact ⟨w, hsent, hrun.trans (congrArg _ (State.takeDecision_prepared (by rw [hsent.address]; exact hother)
      (by rw [hsent.txn]; exact hfirst) hthere rfl commit))⟩
  refine ⟨fun n hbuilt hunarmed => ?_, ?_⟩
  · obtain ⟨w, hsent, hrun⟩ := htaken true
    have hready : (w.heard h g.id 1).txn.built = some n := (congrArg Txn.built hsent.txn).trans hbuilt
    have hidle : (w.heard h g.id 1).armed = false := (State.armed_congr hsent.job).trans hunarmed
    obtain ⟨hnewest, houtcome, hgone, hjob⟩ := State.txnCommitted_ends (g := g) hready hidle none
    exact ⟨_, hrun, hnewest.trans (by rw [State.heard_txn hsent]), houtcome, hgone, hjob.trans hsent.job⟩
  · obtain ⟨w, hsent, hrun⟩ := htaken false
    have hends := (w.heard h g.id 1).txnAbort_resealed g none ((w.heard h g.id 1).abortDetail g.id)
    have hthere : (w.heard h g.id 1).group? g.id = some g := (State.group?_congr (s := s) (u := w) hsent.txn g.id).trans hfound
    have hposts := (w.heard h g.id 1).txnAbort_posts g none ((w.heard h g.id 1).abortDetail g.id)
    refine ⟨_, hrun, ?_, State.txnAbort_outcome (State.state_of_preparedGroup hprepared) .., hends.newest.trans (by rw [State.heard_txn hsent]),
      hends.built.trans (by rw [State.heard_txn hsent]), ?_⟩
    · exact hends.group.trans (by rw [hthere]; rfl)
    · exact hposts.trans (by rw [show (w.heard h g.id 1).mbx = s.mbx from hsent.mbx])

theorem exec_txnDecision_other (h : ChainHdr) (g : BitVec 32) (commit : Bool) (t : Nat) (s : State) (hepoch : h.epoch = s.chain.epoch)
    (hother : s.chain.address ≠ some h.src) :
    ((∀ p, s.preparedGroup = some p → p.id ≠ g) → (∀ v, s.txn.voted? g = some v → v.skip = 0) →
      ∃ u, exec (.txnDecision h g commit t) s = .next u ∧ u.txn = { s.txn with voted := u.txn.voted } ∧ u.job = s.job ∧ u.mem = s.mem ∧
        Claims.Posts s u [0x0270]) ∧
    (∀ v, s.txn.voted? g = some v → 0 < v.skip → ∃ u, exec (.txnDecision h g commit t) s = .next u ∧
      u.txn = { s.txn with voted := u.txn.voted } ∧ u.job = s.job ∧ u.mem = s.mem ∧ Claims.Posts s u []) := by
  obtain ⟨w, hsent, hrun⟩ := exec_txnDecision_current hepoch g commit t
  have haddress : w.chain.address ≠ some h.src := by rw [hsent.address]; exact hother
  refine ⟨fun hnone hfirst => ?_, fun v hv hskip => ?_⟩
  · let e := w.heard h g 1
    have hnone' : ∀ p, w.preparedGroup = some p → p.id ≠ g := by
      rw [State.preparedGroup_congr (congrArg Txn.groups hsent.txn)]
      exact hnone
    have htaken := State.takeDecision_unprepared haddress (by rw [hsent.txn]; exact hfirst) hnone' commit
    have hposts := e.txnResult_posts none g .txnAborted (e.abortDetail g) (w.seen h g).line (w.seen h g).coordinator
    refine ⟨_, hrun.trans (congrArg _ htaken), State.heard_txn hsent h g 1, hsent.job, hsent.mem, hposts.trans ?_⟩
    rw [show e.mbx = s.mbx from hsent.mbx]
  · have htaken := State.takeDecision_again (h := h) haddress (by rw [hsent.txn]; exact hv) hskip commit
    refine ⟨_, hrun.trans (congrArg _ htaken), State.heard_txn hsent h g _, hsent.job, hsent.mem, ?_⟩
    rw [Claims.Posts, show (w.heard h g (v.skip - 1)).mbx = s.mbx from hsent.mbx, List.append_nil]

/-! ### Without a decision (R195) -/

/-- The group's coordinator and peers have been asked. -/
def Group.asked (g : Group) : Group := { g with queried := true }

theorem State.messagesSent_txnAsk {s : State} {g : Group} (hprepared : s.preparedGroup = some g) (hfirst : g.queried = false) :
    MessagesSent (s.updGroup g.id Group.asked) s.txnAsk := by
  unfold txnAsk
  rw [hprepared]
  dsimp only
  rw [if_neg (by rw [hfirst]; exact Bool.false_ne_true)]
  exact foldl_rel MessagesSent.refl MessagesSent.trans (fun u a => u.messagesSent_chainAddressed ..) _ _

/-- A group whose coordinator is not known to be in reset keeps waiting. -/
theorem State.txnResolve_waits {s : State} {g : Group} (hprepared : s.preparedGroup = some g)
    (hup : s.chain.inReset.getLsbD g.coordinator.val = false) : s.txnResolve = s := by
  simp only [txnResolve, hprepared, hup, Bool.false_and, Bool.false_eq_true, if_false]

theorem exec_decisionTimeout_asks (t : Nat) (s : State) (g : Group) (hprepared : s.preparedGroup = some g)
    (hdue : g.votedAt + 256000 * 2 ^ 32 ≤ max s.aon t) (hfirst : g.queried = false)
    (hup : s.chain.inReset.getLsbD g.coordinator.val = false) :
    ∃ u, exec (.decisionTimeout t) s = .next u ∧ (u.group? g.id).map (·.queried) = some true ∧ u.txn.newest = s.txn.newest ∧ u.job = s.job := by
  have hsent := State.messagesSent_txnAsk (s := s.at t) hprepared hfirst
  have hasked : (s.at t).txnAsk.preparedGroup = some g.asked :=
    (State.preparedGroup_congr (congrArg Txn.groups hsent.txn)).trans (State.preparedGroup_updGroup (s := s.at t) hprepared fun _ => rfl)
  have hwaits : (s.at t).txnAsk.txnResolve = (s.at t).txnAsk := State.txnResolve_waits hasked (by rw [hsent.inReset]; exact hup)
  have hrun : exec (.decisionTimeout t) s = .next (s.at t).txnAsk.txnResolve := by
    change execDecisionTimeout t s = _
    rw [execDecisionTimeout, show (s.at t).preparedGroup = some g from hprepared]
    exact congrArg _ (if_pos hdue)
  obtain ⟨x, hx⟩ : ∃ x, (s.at t).group? g.id = some x :=
    Option.isSome_iff_exists.1 (List.find?_isSome.2 ⟨g, List.mem_of_find?_eq_some hprepared, decide_eq_true rfl⟩)
  refine ⟨_, hrun.trans (congrArg _ hwaits), ?_, by rw [hsent.txn]; rfl, hsent.job⟩
  rw [State.group?_congr hsent.txn, State.group?_updGroup _ _ (f := Group.asked) fun _ => rfl, hx]
  rfl

/-! ### Queries and answers (R195, R631) -/

theorem State.forMe_ackChain {s : State} {h : ChainHdr} (hdst : h.dst = s.ownAddress) (t : Nat) : ((s.at t).ackChain h).forMe h = true :=
  beq_iff_eq.2 hdst

theorem exec_txnQuery_answers (h : ChainHdr) (g : BitVec 32) (t : Nat) (s : State) (hepoch : h.epoch = s.chain.epoch)
    (hdst : h.dst = s.ownAddress) :
    exec (.txnQuery h g t) s = .next (((s.at t).ackChain h).sendAnswer h.dst.toNat h.src.val g (s.txnState g)) :=
  congrArg _ ((if_pos (State.current_ackChain hepoch t)).trans (if_pos (State.forMe_ackChain hdst t)))

theorem exec_txnAnswer_taken {h : ChainHdr} {s : State} (hepoch : h.epoch = s.chain.epoch) (hdst : h.dst = s.ownAddress) (g : BitVec 32)
    (a : TxnAnswerState) (t : Nat) : exec (.txnAnswer h g a t) s = .next (((s.at t).ackChain h).takeAnswer h.src g a) :=
  congrArg _ ((if_pos (State.current_ackChain hepoch t)).trans (if_pos (State.forMe_ackChain hdst t)))

theorem Txn.resolved_eq (x : Txn) (id : BitVec 32) : x.resolved id = { x with voted := (x.resolved id).voted } := by
  unfold resolved
  split <;> rfl

/-- The group's end is known without its decision. -/
def State.resolvedGroup (s : State) (id : BitVec 32) : State := { s with txn := s.txn.resolved id }

theorem State.takeAnswer_prepared {s : State} {g : Group} (hprepared : s.preparedGroup = some g) (src : Fin 16) :
    s.takeAnswer src g.id .committed = (s.resolvedGroup g.id).txnCommitted g none ∧
    (g.coordinator = src → s.takeAnswer src g.id .aborted = (s.resolvedGroup g.id).txnAbort g none (s.abortDetail g.id)) ∧
    s.takeAnswer src g.id .prepared = (s.updGroup g.id (fun x => { x with answered := x.answered ||| (1#16 <<< src.val) })).txnResolve := by
  unfold takeAnswer
  rw [hprepared]
  exact ⟨if_neg (not_not.2 rfl), fun hsrc => (if_neg (not_not.2 rfl)).trans (if_pos hsrc), if_neg (not_not.2 rfl)⟩

theorem exec_txnAnswer_acts (h : ChainHdr) (t : Nat) (s : State) (g : Group) (hepoch : h.epoch = s.chain.epoch) (hdst : h.dst = s.ownAddress)
    (hprepared : s.preparedGroup = some g) (hfound : s.group? g.id = some g) :
    (∀ n, s.txn.built = some n → s.armed = false → ∃ u, exec (.txnAnswer h g.id .committed t) s = .next u ∧
      u.txn.newest = n.atCommit s.txn.newest g ∧ u.group? g.id = none) ∧
    (g.coordinator = h.src → ∃ u, exec (.txnAnswer h g.id .aborted t) s = .next u ∧ (u.group? g.id).map (·.state) = some .sealed ∧
      u.txn.newest = s.txn.newest) ∧
    (s.chain.inReset.getLsbD g.coordinator.val = false → exec (.txnAnswer h g.id .prepared t) s = .next (((s.at t).ackChain h).updGroup g.id
      (fun x => { x with answered := x.answered ||| (1#16 <<< h.src.val) }))) := by
  let w := (s.at t).ackChain h
  have hthere : w.preparedGroup = some g := hprepared
  have hresolved : (w.resolvedGroup g.id).txn = { s.txn with voted := (w.resolvedGroup g.id).txn.voted } := w.txn.resolved_eq g.id
  obtain ⟨hcommitted, haborted, hnoted⟩ := State.takeAnswer_prepared hthere h.src
  refine ⟨fun n hbuilt hunarmed => ?_, fun hsrc => ?_, fun hup => ?_⟩
  · have hready : (w.resolvedGroup g.id).txn.built = some n := by rw [hresolved]; exact hbuilt
    obtain ⟨hnewest, _, hgone, _⟩ := State.txnCommitted_ends (g := g) hready hunarmed none
    refine ⟨_, (exec_txnAnswer_taken hepoch hdst ..).trans (congrArg _ hcommitted), hnewest.trans (by rw [hresolved]), hgone⟩
  · have hends := (w.resolvedGroup g.id).txnAbort_resealed g none (w.abortDetail g.id)
    have hgroup : (w.resolvedGroup g.id).group? g.id = some g := by
      rw [State.group?, hresolved]
      exact hfound
    refine ⟨_, (exec_txnAnswer_taken hepoch hdst ..).trans (congrArg _ (haborted hsrc)), hends.group.trans (by rw [hgroup]; rfl),
      hends.newest.trans (by rw [hresolved])⟩
  · have hnotedGroup := State.preparedGroup_updGroup hthere (f := fun x => { x with answered := x.answered ||| (1#16 <<< h.src.val) }) fun _ => rfl
    rw [exec_txnAnswer_taken hepoch hdst, hnoted, State.txnResolve_waits hnotedGroup hup]

/-- Settles O40: messages sent leave the groups alone, and what remains of a chain commit is its vote, its commit and its ABORT. -/
theorem chainCommitsComplete : Obligations.ChainCommitsComplete :=
  ⟨exec_txnDiscard_answers, exec_txnPrepare_answers, exec_txnMessages_stale, exec_prepareTimeout_aborts, exec_txnDecision_prepared,
    exec_txnDecision_other, exec_decisionTimeout_asks, exec_txnQuery_answers, exec_txnAnswer_acts⟩

end Sys2Proof.Machine
end

section
/-! PROOF. What a transmit lane sends next, its FLUSH, and the recheck of its last frame (09 R220, R221; 13 R308 to R311, R315, R319,
R327): O51. That both CHK_POUR and HLK_FRAME tell of a recheck is the model's choice (log 114). -/

namespace Sys2Proof.Machine

theorem upd_congr {α : Type} {n : Nat} {v : Vector α n} {i : Fin n} {f g : α → α} (h : f v[i] = g v[i]) : upd v i f = upd v i g := by
  rw [upd, h, upd]

theorem State.updTx_congr {s : State} {l : Fin 32} {f g : TxLane → TxLane} (h : f (s.hlk.tx[l]) = g (s.hlk.tx[l])) :
    s.updTx l f = s.updTx l g := by
  rw [updTx, upd_congr h, updTx]

theorem State.updTx_updTx (s : State) (l : Fin 32) (f g : TxLane → TxLane) :
    (s.updTx l f).updTx l g = s.updTx l (fun x => g (f x)) := by
  simp only [updTx, upd_upd]

/-! ### The recheck left open, and a lane that is free (09 R221, 13 R308) -/

theorem State.recheckDue_of_none {s : State} {h : Fin 32}
    (hnone : (s.rows[rowOf h]).buffer.find? (fun b => (b.half h).check.isSome) = none) : s.recheckDue h = s := by
  rw [recheckDue, hnone]

theorem State.recheckDue_of_some {s : State} {h : Fin 32} {b : BufLine} {mask : BitVec 16}
    (hopen : (s.rows[rowOf h]).buffer.find? (fun b => (b.half h).check.isSome) = some b) (hmask : (b.half h).check = some mask) :
    s.recheckDue h = s.classifyRecheck h b.data.line (b.half h) mask := by
  rw [recheckDue, hopen]
  dsimp only
  rw [hmask, Option.getD_some]

theorem exec_frameSend_free {l : Fin 32} {t : Nat} {s : State} (hfree : (s.at t).laneFree l = true)
    (hnone : (s.rows[rowOf l]).buffer.find? (fun b => (b.half l).check.isSome) = none) (x : Upset) (bad : Nat) :
    exec (.frameSend l x bad t) s = .next ((s.at t).sendNext l x bad) :=
  congrArg _ ((if_pos hfree).trans (congrArg (fun u => State.sendNext u l x bad) (State.recheckDue_of_none (s := s.at t) hnone)))

theorem exec_frameSend_busy (l : Fin 32) (x : Upset) (bad t : Nat) (s : State) (hbusy : (s.at t).laneFree l = false) :
    exec (.frameSend l x bad t) s = .next (s.at t) :=
  congrArg _ (if_neg (Bool.eq_false_iff.1 hbusy))

theorem exec_flush_busy (l : Fin 32) (t : Nat) (s : State) (hbusy : (s.at t).laneFree l = false) :
    exec (.flush l t) s = .next (s.at t) := by
  change execFlush l t s = _
  unfold execFlush
  dsimp only
  split
  next => exact congrArg _ (if_neg (Bool.eq_false_iff.1 hbusy))
  next => rfl

/-! ### WITHHOLD and FLUSH of the control queue (R310, R311, R319) -/

theorem State.popControl_eq {s : State} {l : Fin 32} {i : TxItem} {rest : List TxItem} (hcontrol : (s.hlk.tx[l]).control = i :: rest) :
    s.popControl l = s.updTx l (fun y => { y with control := rest }) :=
  State.updTx_congr (by rw [hcontrol]; rfl)

theorem exec_frameSend_withhold (l : Fin 32) (x : Upset) (bad n : Nat) (reason : Byte) (rest : List TxItem) (t : Nat) (s : State)
    (hfree : (s.at t).laneFree l = true) (hnone : (s.rows[rowOf l]).buffer.find? (fun b => (b.half l).check.isSome) = none)
    (hcontrol : (s.hlk.tx[l]).control = .withhold n reason :: rest) :
    exec (.frameSend l x bad t) s = .next (State.laneOut { s.at t with
      hlk := { s.hlk with tx := upd s.hlk.tx l (fun y => { y with control := rest }) } } (asLane l) [withholdBlock l n reason]) := by
  have hthere : ((s.at t).hlk.tx[l]).control = .withhold n reason :: rest := hcontrol
  rw [exec_frameSend_free hfree hnone, State.sendNext]
  simp only [hthere, State.popControl_eq hthere]
  rfl

/-- A lane that has sent a FLUSH: its fseq is taken, and an ARM's FLUSHED is awaited. -/
def TxLane.flushSent (reason : Byte) (now tries : Nat) (x : TxLane) : TxLane :=
  { x with fseq := x.fseq + 1, flushWait := if reason = 0 then some (x.fseq, now, tries) else x.flushWait }

theorem State.sendFlush_eq (s : State) (l : Fin 32) (reason : Byte) (tries : Nat) :
    s.sendFlush l reason tries =
      (s.sendBlocks l [flushBlock l (s.hlk.tx[l]).fseq reason]).updTx l (TxLane.flushSent reason s.aon tries) := rfl

theorem exec_flush_sends (l : Fin 32) (reason : Byte) (rest : List TxItem) (t : Nat) (s : State) (hfree : (s.at t).laneFree l = true)
    (hcontrol : (s.hlk.tx[l]).control = .flush reason :: rest) :
    exec (.flush l t) s = .next { (s.at t).laneOut (asLane l) [flushBlock l (s.hlk.tx[l]).fseq reason] with
      hlk := { s.hlk with tx := upd s.hlk.tx l (fun y => { y with
        control := rest
        fseq := y.fseq + 1
        flushWait := if reason = 0 then some (y.fseq, max s.aon t, 1) else y.flushWait }) } } := by
  have hthere : ((s.at t).hlk.tx[l]).control = .flush reason :: rest := hcontrol
  have hrun : exec (.flush l t) s = .next (((s.at t).popControl l).sendFlush l reason 1) := by
    change execFlush l t s = _
    unfold execFlush
    simp only [hthere, hfree, if_true]
  have hsent := ((s.at t).sendBlocks l [flushBlock l (s.hlk.tx[l]).fseq reason]).updTx_updTx l
    (fun y => { y with control := rest }) (TxLane.flushSent reason (max s.aon t) 1)
  rw [hrun, State.popControl_eq hthere, State.sendFlush_eq]
  simp only [State.updTx_value, getElem_upd_self]
  exact congrArg _ hsent

theorem exec_flushTimeout_acts (l : Fin 32) (t tries sent : Nat) (f : Byte) (s : State) (hwait : (s.hlk.tx[l]).flushWait = some (f, sent, tries)) :
    (max s.aon t < sent + answerTime → exec (.flushTimeout l t) s = .next (s.at t)) ∧
    (sent + answerTime ≤ max s.aon t → tries = 1 → exec (.flushTimeout l t) s = .next
      { (s.at t).laneOut (asLane l) [flushBlock l (s.hlk.tx[l]).fseq 0] with
        hlk := { s.hlk with tx := upd s.hlk.tx l (fun y => { y with fseq := y.fseq + 1, flushWait := some (y.fseq, max s.aon t, 2) }) } }) ∧
    (sent + answerTime ≤ max s.aon t → tries = 2 → s.job.state ≠ .arming → exec (.flushTimeout l t) s = .next
      ((s.at t).updTx l (fun y => { y with flushWait := none }))) := by
  have hrun : exec (.flushTimeout l t) s = .next (if max s.aon t < sent + answerTime then s.at t
      else if tries < 2 then (s.at t).sendFlush l 0 2
      else
        let u := (s.at t).updTx l (fun y => { y with flushWait := none })
        if u.job.state == .arming then u.armFail .lastingFault l.val else u) := by
    have hthere : ((s.at t).hlk.tx[l]).flushWait = some (f, sent, tries) := hwait
    change execFlushTimeout l t s = _
    unfold execFlushTimeout
    simp only [hthere]
    rfl
  rw [hrun]
  refine ⟨fun hsoon => by rw [if_pos hsoon], fun hlate hfirst => ?_, fun hlate hsecond hjob => ?_⟩
  · rw [if_neg hlate.not_gt, if_pos (by omega)]
    rfl
  · have hnot : ¬ (s.job.state == .arming) = true := fun heq => hjob (eq_of_beq heq)
    rw [if_neg hlate.not_gt, if_neg (by omega)]
    exact congrArg _ (if_neg hnot)

/-! ### A frame (R309, R311; 09 R220) -/

/-- Reading a half-row line and rechecking it leave the rows, the lanes and the wires alone. -/
structure HalfReadKept (s u : State) : Prop where
  rows : u.rows = s.rows
  hlk : u.hlk = s.hlk
  wires : u.wires = s.wires

theorem HalfReadKept.refl (s : State) : HalfReadKept s s := ⟨rfl, rfl, rfl⟩

theorem HalfReadKept.trans {s t u : State} (h₁ : HalfReadKept s t) (h₂ : HalfReadKept t u) : HalfReadKept s u :=
  ⟨h₂.rows.trans h₁.rows, h₂.hlk.trans h₁.hlk, h₂.wires.trans h₁.wires⟩

theorem State.halfReadKept_cvuSelf (s : State) (fn : Fin 38) (r : Fin 16) (line : Nat) (inj : Bool) :
    HalfReadKept s (s.cvuSelf fn r line 0 inj).1 := by
  cases hunit : s.chk.units[fn] with
  | none =>
    unfold cvuSelf
    rw [hunit]
    exact .refl s
  | some unit =>
    rw [cvuSelf_clean (by rw [hunit]; rfl), latentStep_eq]
    exact ⟨rfl, rfl, rfl⟩

theorem State.halfReadKept_bufferErrors (s : State) (h : Fin 32) (n : Nat) : HalfReadKept s (s.bufferErrors h n) := by
  refine foldl_rel HalfReadKept.refl HalfReadKept.trans (fun t c => ?_) _ s
  exact ite_rel (R := HalfReadKept) ⟨rfl, rfl, rfl⟩ ⟨rfl, rfl, rfl⟩

/-- A lane that has sent a frame of line n under an fseq. -/
def TxLane.frameSent (fseq : Byte) (n : Nat) (resend ok : Bool) (now : Nat) (x : TxLane) : TxLane :=
  { x with
    fseq := x.fseq + 1, frameAt := now, frameEnd := now + frameTime
    awaiting := x.awaiting.filter (fun a => a.line ≠ n) ++
      [{ fseq := fseq, line := n, resend := resend, sentAt := now + frameTime, checkOk := ok }] }

/-- Half-row state of a line whose frame has been sent. -/
def HalfSend.frameSent (mask : BitVec 16) (resend injected : Bool) (x : HalfSend) : HalfSend :=
  { x with
    begun := true, resent := x.resent || resend
    check := if !(mask == 0) || x.recheckPending then some mask else none
    injected := (x.injected || injected) && (!(mask == 0) || x.recheckPending) }

theorem State.sendFrame_eq (s : State) (h : Fin 32) (b : BufLine) (resend : Bool) (u : Upset) :
    ∃ (w : State) (mask : BitVec 16) (r : HalfRead), HalfReadKept s w ∧ s.sendFrame h b resend u 0 =
      ((w.sendBlocks h (frameBlocks h b.data.line (s.hlk.tx[h]).fseq resend (mask == 0) r.bytes)).updTx h
        (TxLane.frameSent (s.hlk.tx[h]).fseq b.data.line resend (mask == 0) s.aon)).updHalf h b.data.line
          (HalfSend.frameSent mask resend r.injected) := by
  let s0 := (s.cvuSelf (pourUnit h) (rowOf h) b.data.line 0 false).1
  let r := s0.readHalf h b.data u
  have hself : HalfReadKept s s0 := s.halfReadKept_cvuSelf ..
  have hread : HalfReadKept s ((s0.bufferErrors h b.data.line).useInjection 4 h b.data.line) :=
    hself.trans ((s0.halfReadKept_bufferErrors ..).trans ⟨rfl, rfl, rfl⟩)
  refine ⟨_, s0.recheckMask h b.data r, r, hread, ?_⟩
  rw [← hself.hlk]
  rfl

theorem length_frameBlocks (h : Fin 32) (n : Nat) (fseq : Byte) (resend ok : Bool) (bytes : List Byte) :
    (frameBlocks h n fseq resend ok bytes).length = 514 := by
  simp only [frameBlocks, List.length_append, List.length_map, List.length_range, List.length_singleton]

theorem frameBlocks_start (h : Fin 32) (n : Nat) (fseq : Byte) (ok : Bool) (bytes : List Byte) :
    (frameBlocks h n fseq false ok bytes)[0]? = some (ctl ([0xE1, BitVec.ofNat 8 h.val] ++ le 2 (lineTag n) ++ [fseq])) := rfl

theorem SpcRow.line_of_line? {x : SpcRow} {n : Nat} {b : BufLine} (h : x.line? n = some b) : b.data.line = n :=
  of_decide_eq_true (List.find?_some (p := fun b : BufLine => b.data.line = n) h)

theorem State.line?_updHalf {s : State} {h : Fin 32} {n : Nat} {b : BufLine} (hb : (s.rows[rowOf h]).line? n = some b)
    (f : HalfSend → HalfSend) : (((s.updHalf h n f).rows[rowOf h]).line? n).map (fun y => y.half h) = some (f (b.half h)) := by
  unfold updHalf SpcRow.line?
  rw [updRow_value, getElem_upd_self, find?_map_of_keep (fun y => by (repeat' split) <;> rfl),
    show s.rows[rowOf h].buffer.find? _ = some b from hb]
  simp only [Option.map_some, SpcRow.line_of_line? hb, if_true, BufLine.half]
  split <;> rfl

theorem TxLane.without_frames {x : TxLane} {n : Nat} {rest : List TxItem} (hframes : x.frames = .frame n :: rest) :
    (x.without n).frames = rest.filter (fun i => i != .frame n) :=
  (congrArg _ hframes).trans (List.filter_cons_of_neg (by rw [bne_self_eq_false]; exact Bool.false_ne_true))

theorem SpcRow.not_callsOff_frame {x : SpcRow} {n : Nat} (hsent : x.isWithheld n = false) (l : Fin 32) :
    x.callsOff l (.frame n) = false := by
  rw [callsOff, hsent, Bool.false_and]

/-- With nothing of higher priority waiting, a lane sends the first frame of its queue. -/
theorem State.sendNext_frame {s : State} {l : Fin 32} {n : Nat} {b : BufLine} {rest : List TxItem}
    (hsent : (s.rows[rowOf l]).isWithheld n = false) (hcontrol : (s.hlk.tx[l]).control = []) (hresends : (s.hlk.tx[l]).resends = [])
    (hframes : (s.hlk.tx[l]).frames = .frame n :: rest) (hline : (s.rows[rowOf l]).line? n = some b)
    (hintime : s.deadlinePast (rowOf l) n = false) (u : Upset) (bad : Nat) :
    s.sendNext l u bad = (s.updTx l (fun x => x.without n)).sendFrame l b false u bad := by
  have hkept : (TxItem.frame n :: rest).dropWhile ((s.rows[rowOf l]).callsOff l) = .frame n :: rest :=
    List.dropWhile_cons_of_neg (by rw [SpcRow.not_callsOff_frame hsent]; exact Bool.false_ne_true)
  have hqueue : s.updTx l (fun x => { x with frames := .frame n :: rest }) = s := by
    rw [updTx, upd_self _ _ (by rw [← hframes])]
  rw [sendNext]
  simp only [hcontrol, hresends, hframes, hkept, hqueue, sendLine, hline, hintime, Bool.false_eq_true, if_false]

theorem exec_frameSend_frame (l : Fin 32) (x : Upset) (n : Nat) (b : BufLine) (rest : List TxItem) (t : Nat) (s : State)
    (hfree : (s.at t).laneFree l = true) (hnone : (s.rows[rowOf l]).buffer.find? (fun b => (b.half l).check.isSome) = none)
    (hsent : (s.rows[rowOf l]).isWithheld n = false) (hcontrol : (s.hlk.tx[l]).control = []) (hresends : (s.hlk.tx[l]).resends = [])
    (hframes : (s.hlk.tx[l]).frames = .frame n :: rest) (hline : (s.rows[rowOf l]).line? n = some b)
    (hintime : s.deadlinePast (rowOf l) n = false) :
    ∃ (u : State) (bl : List (Bool × BitVec 64)) (ok : Bool), exec (.frameSend l x 0 t) s = .next u ∧
      u.wires = .laneBlocks ((s.lane (asLane l)).sendsOn (asLane l)) (bl.map (s.lane (asLane l)).sends) :: s.wires ∧
      bl.length = 514 ∧ bl[0]? = some (ctl ([0xE1, BitVec.ofNat 8 l.val] ++ le 2 (lineTag n) ++ [(s.hlk.tx[l]).fseq])) ∧
      (u.hlk.tx[l]).frames = rest.filter (fun i => i != .frame n) ∧ (u.hlk.tx[l]).fseq = (s.hlk.tx[l]).fseq + 1 ∧
      { fseq := (s.hlk.tx[l]).fseq, line := n, resend := false, sentAt := max s.aon t + frameTime, checkOk := ok } ∈ (u.hlk.tx[l]).awaiting ∧
      ((u.rows[rowOf l]).line? n).map (fun y => (y.half l).begun) = some true := by
  obtain rfl := SpcRow.line_of_line? hline
  let s1 := (s.at t).updTx l (fun y => y.without b.data.line)
  have hwithout : s1.hlk.tx[l] = (s.hlk.tx[l]).without b.data.line := getElem_upd_self ..
  obtain ⟨w, mask, r, hkept, hsends⟩ := s1.sendFrame_eq l b false x
  rw [show (s1.hlk.tx[l]).fseq = (s.hlk.tx[l]).fseq by rw [hwithout]; rfl] at hsends
  let blocks := frameBlocks l b.data.line (s.hlk.tx[l]).fseq false (mask == 0) r.bytes
  let sent := (w.sendBlocks l blocks).updTx l (TxLane.frameSent (s.hlk.tx[l]).fseq b.data.line false (mask == 0) (max s.aon t))
  have hrun : exec (.frameSend l x 0 t) s = .next (sent.updHalf l b.data.line (HalfSend.frameSent mask false r.injected)) :=
    (exec_frameSend_free hfree hnone x 0).trans
      (congrArg _ ((State.sendNext_frame (s := s.at t) hsent hcontrol hresends hframes hline hintime x 0).trans hsends))
  have htx : (sent.updHalf l b.data.line (HalfSend.frameSent mask false r.injected)).hlk.tx[l] =
      ((s.hlk.tx[l]).without b.data.line).frameSent (s.hlk.tx[l]).fseq b.data.line false (mask == 0) (max s.aon t) := by
    rw [State.updHalf_hlk, State.updTx_value, getElem_upd_self, State.sendBlocks_hlk, hkept.hlk, hwithout]
  refine ⟨_, blocks, mask == 0, hrun, ?_, length_frameBlocks .., frameBlocks_start .., ?_, ?_, ?_, ?_⟩
  · change .laneBlocks ((w.lane (asLane l)).sendsOn (asLane l)) (blocks.map (w.lane (asLane l)).sends) :: w.wires = _
    rw [State.lane, hkept.hlk, hkept.wires]
    rfl
  · rw [htx]
    exact TxLane.without_frames hframes
  · rw [htx]
    rfl
  · rw [htx]
    exact List.mem_append_right _ (List.mem_singleton.2 rfl)
  · have hthere : (sent.rows[rowOf l]).line? b.data.line = some b := by
      change (w.rows[rowOf l]).line? b.data.line = some b
      rw [hkept.rows]
      exact hline
    have hhalf := State.line?_updHalf hthere (HalfSend.frameSent mask false r.injected)
    have hbegun := congrArg (Option.map HalfSend.begun) hhalf
    rwa [Option.map_map] at hbegun

/-! ### The recheck classified (09 R221; 13 R310, R327) -/

theorem mem_rowHalves (h : Fin 32) : h ∈ rowHalves (rowOf h) := by
  rw [show rowHalves (rowOf h) = [half0 (rowOf h), half1 (rowOf h)] from rfl, List.mem_pair]
  exact half_cases h

theorem mem_control_foldl_updTx {i : TxItem} (h : Fin 32) (l : List (Fin 32)) {s : State}
    (hmem : i ∈ (s.hlk.tx[h]).control ∨ h ∈ l) :
    i ∈ ((l.foldl (fun s h => s.updTx h (fun x => { x with control := x.control ++ [i] })) s).hlk.tx[h]).control := by
  induction l generalizing s with
  | nil => exact hmem.resolve_right List.not_mem_nil
  | cons k l ih =>
    rw [List.foldl_cons]
    by_cases hk : h = k
    · refine ih (.inl ?_)
      rw [hk, State.updTx_value, getElem_upd_self]
      exact List.mem_append_right _ (List.mem_singleton.2 rfl)
    · refine ih (hmem.imp (fun hthere => ?_) (List.mem_of_ne_of_mem hk))
      rwa [State.updTx_value, getElem_upd_ne _ hk]

/-- Withholding a line that lanes already hold changes neither the events nor the check counters. -/
theorem State.withholdSent_kept (s : State) (r : Fin 16) (n : Nat) (reason cause : Byte) :
    (s.withholdSent r n reason cause).mbx = s.mbx ∧ (s.withholdSent r n reason cause).chk = s.chk := by
  unfold withholdSent
  split
  · exact ⟨rfl, rfl⟩
  · rw [foldl_mbx _ _ _ fun _ _ => updTx_mbx .., foldl_chk _ _ _ fun _ _ => updTx_chk ..]
    simp

theorem State.withholdSent_new {s : State} {h : Fin 32} {n : Nat} (hnew : (s.rows[rowOf h]).isWithheld n = false) (reason cause : Byte) :
    ((s.withholdSent (rowOf h) n reason cause).rows[rowOf h]).isWithheld n = true ∧
      .withhold n reason ∈ ((s.withholdSent (rowOf h) n reason cause).hlk.tx[h]).control := by
  have hnot : ¬ (s.rows[rowOf h]).isWithheld n = true := Bool.eq_false_iff.1 hnew
  rw [withholdSent, if_neg hnot]
  refine ⟨?_, mem_control_foldl_updTx h _ (.inr (mem_rowHalves h))⟩
  rw [foldl_rows _ _ _ fun _ _ => updTx_rows .., noteWithheld, if_neg hnot, wasteMark_rows, updRow_value, getElem_upd_self]
  simp [SpcRow.isWithheld]

/-- A lasting recheck fault of a line has been counted and told of, and its half-row's recheck is closed. -/
def State.lastingTold (s : State) (h : Fin 32) (n : Nat) (mask : BitVec 16) (inj : Bool) : State :=
  let counted : State := { s with chk := { s.chk with pourLasting := satAdd s.chk.pourLasting 1 } }
  ((counted.pourEvent h n mask clsLasting inj).detect (lineDetect fcRecheck h n inj .detected)).updHalf h n HalfSend.rechecked

theorem State.pourLasting_eq (s : State) (h : Fin 32) (n : Nat) (mask : BitVec 16) (inj : Bool) :
    s.pourLasting h n mask inj = ((s.lastingTold h n mask inj).withholdSent (rowOf h) n 1 0x02).pourCount h n := rfl

theorem State.pourLasting_posts (s : State) (h : Fin 32) (n : Nat) (mask : BitVec 16) (inj : Bool) :
    Claims.Posts s (s.pourLasting h n mask inj) [0x0282] := by
  obtain ⟨hmbx, _⟩ := (s.lastingTold h n mask inj).withholdSent_kept (rowOf h) n 1 0x02
  rw [pourLasting_eq, Claims.Posts, pourCount, tellFsv_mbx, hmbx]
  exact List.map_append

theorem State.pourLasting_withholds {s : State} {h : Fin 32} {n : Nat} (hnew : (s.rows[rowOf h]).isWithheld n = false)
    (mask : BitVec 16) (inj : Bool) : let u := s.pourLasting h n mask inj
    u.chk.pourLasting = satAdd s.chk.pourLasting 1 ∧ (u.rows[rowOf h]).isWithheld n = true ∧ .withhold n 1 ∈ (u.hlk.tx[h]).control := by
  have hthere : ((s.lastingTold h n mask inj).rows[rowOf h]).isWithheld n = false :=
    (getElem_upd_keep (g := fun y : SpcRow => y.isWithheld n) rfl (rowOf h)).trans hnew
  obtain ⟨_, hchk⟩ := (s.lastingTold h n mask inj).withholdSent_kept (rowOf h) n 1 0x02
  obtain ⟨hwithheld, hqueued⟩ := State.withholdSent_new hthere 1 0x02
  exact ⟨congrArg Chk.pourLasting hchk, hwithheld, hqueued⟩

theorem State.recheckEvent_posts (s : State) (h : Fin 32) (n : Nat) (mask : BitVec 16) (cls : Nat) (inj : Bool) :
    Claims.Posts s (s.recheckEvent h n mask cls inj) [0x0282, 0x02B4] :=
  posts_trans (posts_post s ..) (posts_post ..)

theorem State.mem_resends_queueResend (s : State) (l : Fin 32) (n : Nat) : n ∈ ((s.queueResend l n).hlk.tx[l]).resends := by
  rw [queueResend, updTx_value, getElem_upd_self]
  dsimp only
  split
  next hthere => exact List.contains_iff_mem.1 hthere
  next => exact List.mem_append_right _ (List.mem_singleton.2 rfl)

section Classified

variable (s : State) (h : Fin 32) (n : Nat) (x : HalfSend)

theorem State.classifyRecheck_passed : let u := s.classifyRecheck h n x 0
    Claims.Posts s u [0x0282, 0x02B4] ∧ u.chk.pourTransient = satAdd s.chk.pourTransient 1 ∧ u.hlk = s.hlk :=
  ⟨recheckEvent_posts { s with chk := { s.chk with pourTransient := satAdd s.chk.pourTransient 1 } } .., rfl, rfl⟩

variable {mask : BitVec 16} (hfailed : mask ≠ 0)
include hfailed

theorem State.classifyRecheck_lasting (hlast : (x.recheckPending || s.deadlinePast (rowOf h) n) = true) :
    s.classifyRecheck h n x mask = (s.pourLasting h n mask x.injected).frameEvent h n 4 clsLasting := by
  unfold classifyRecheck
  dsimp only
  rw [if_neg hfailed, if_pos hlast]

theorem State.classifyRecheck_first (hfirst : (x.recheckPending || s.deadlinePast (rowOf h) n) = false) :
    let u := s.classifyRecheck h n x mask
    Claims.Posts s u [0x0282, 0x02B4] ∧ n ∈ (u.hlk.tx[h]).resends ∧ u.chk = s.chk := by
  unfold classifyRecheck
  dsimp only
  rw [if_neg hfailed, if_neg (Bool.eq_false_iff.1 hfirst)]
  exact ⟨s.recheckEvent_posts .., mem_resends_queueResend .., rfl⟩

end Classified

theorem exec_pourRecheck_classifies (h : Fin 32) (t : Nat) (s : State) (b : BufLine) (mask : BitVec 16)
    (hopen : (s.rows[rowOf h]).buffer.find? (fun b => (b.half h).check.isSome) = some b) (hmask : (b.half h).check = some mask) :
    ∃ u, exec (.pourRecheck h t) s = .next u ∧ Claims.Posts s u [0x0282, 0x02B4] ∧
      (mask = 0 → u.chk.pourTransient = satAdd s.chk.pourTransient 1 ∧ u.hlk = s.hlk) ∧
      (mask ≠ 0 → (b.half h).recheckPending = false → s.deadlinePast (rowOf h) b.data.line = false →
        b.data.line ∈ (u.hlk.tx[h]).resends ∧ u.chk = s.chk) ∧
      (mask ≠ 0 → (b.half h).recheckPending = true → (s.rows[rowOf h]).isWithheld b.data.line = false →
        u.chk.pourLasting = satAdd s.chk.pourLasting 1 ∧
        (u.rows[rowOf h]).isWithheld b.data.line = true ∧ .withhold b.data.line 1 ∈ (u.hlk.tx[h]).control) := by
  let w := s.at t
  have hrun : exec (.pourRecheck h t) s = .next (w.classifyRecheck h b.data.line (b.half h) mask) :=
    congrArg _ (State.recheckDue_of_some (s := w) hopen hmask)
  refine ⟨_, hrun, ?_⟩
  by_cases hpassed : mask = 0
  · subst hpassed
    obtain ⟨hposts, hcount, hkept⟩ := w.classifyRecheck_passed h b.data.line (b.half h)
    exact ⟨hposts, fun _ => ⟨hcount, hkept⟩, fun hne => absurd rfl hne, fun hne => absurd rfl hne⟩
  cases hlast : (b.half h).recheckPending || w.deadlinePast (rowOf h) b.data.line with
  | false =>
    obtain ⟨hposts, hqueued, hkept⟩ := w.classifyRecheck_first h b.data.line (b.half h) hpassed hlast
    obtain ⟨hunretried, _⟩ := Bool.or_eq_false_iff.1 hlast
    exact ⟨hposts, fun heq => absurd heq hpassed, fun _ _ _ => ⟨hqueued, hkept⟩,
      fun _ hretried => absurd hretried (hunretried ▸ Bool.false_ne_true)⟩
  | true =>
    rw [w.classifyRecheck_lasting h b.data.line (b.half h) hpassed hlast]
    refine ⟨posts_trans (w.pourLasting_posts ..) (posts_post ..), fun heq => absurd heq hpassed, fun _ hunretried hintime => ?_,
      fun _ _ hnew => State.pourLasting_withholds (s := w) hnew ..⟩
    exact absurd hlast (Bool.or_eq_false_iff.2 ⟨hunretried, hintime⟩ ▸ Bool.false_ne_true)

/-- Settles O51: each item by the queue it stands in, a FLUSH by its tries, and the recheck by its mask and whether it is the line's
second. -/
theorem framesComplete : Obligations.FramesComplete :=
  ⟨fun l x bad t s hbusy => ⟨exec_frameSend_busy l x bad t s hbusy, exec_flush_busy l t s hbusy⟩, exec_frameSend_withhold,
    exec_frameSend_frame, exec_flush_sends, exec_flushTimeout_acts,
    fun _ t s hnone => congrArg _ (State.recheckDue_of_none (s := s.at t) hnone), exec_pourRecheck_classifies⟩

end Sys2Proof.Machine
end

section
/-! PROOF. What a read of device memory leaves (20 R507, R509), and how the Hamper's stagings end (11 R264, R268, R275, R278): O44. -/

namespace Sys2Proof.Machine

/-! ### Events handed to the posting unit -/

theorem State.result_posts (s : State) (o : Option Origin) (code : BitVec 16) (cls : Fin 4) (st : Status) (detail : Nat)
    (data : List DataField) (final : Option Status) : Claims.Posts s (s.result o code cls st detail data final) [code] := by
  cases o with
  | none => exact List.map_append
  | some o =>
    rw [Claims.Posts, result, resolve_outbox]
    exact List.map_append

theorem posts_of_mbx {s t u : State} {codes : List (BitVec 16)} (h : t.mbx = s.mbx) (hp : Claims.Posts t u codes) :
    Claims.Posts s u codes := by
  rw [Claims.Posts, ← h]
  exact hp

/-! ### Reads of device memory (R507, R509) -/

/-- A read that draws no POISON: at most single-bit errors are corrected, which the memory unit and the fault supervisor note; no
page is retired. -/
structure MemoryRead (s u : State) : Prop where
  eq : u = { s with miu := u.miu, fsv := u.fsv }
  retired : u.miu.retired = s.miu.retired

theorem MemoryRead.refl (s : State) : MemoryRead s s := ⟨rfl, rfl⟩

theorem MemoryRead.codec {s u : State} (h : MemoryRead s u) : u.codec = s.codec := by rw [h.eq]

theorem MemoryRead.hamper {s u : State} (h : MemoryRead s u) : u.hamper = s.hamper := by rw [h.eq]

theorem MemoryRead.mbx {s u : State} (h : MemoryRead s u) : u.mbx = s.mbx := by rw [h.eq]

theorem MemoryRead.trans {s t u : State} (h₁ : MemoryRead s t) (h₂ : MemoryRead t u) : MemoryRead s u where
  eq := h₂.eq.trans (by rw [h₁.eq])
  retired := h₂.retired.trans h₁.retired

theorem State.memoryRead_dramSingle (s : State) (addr : Nat) (bit : Fin 72) (reader : MemReader) :
    MemoryRead s (s.dramSingle addr bit false reader) := ⟨rfl, rfl⟩

theorem State.memoryRead_readSingles (s : State) (reader : MemReader) (a n : Nat) : MemoryRead s (s.readSingles reader a n) := by
  unfold readSingles
  refine foldl_rel .refl .trans (fun t c => ?_) _ s
  exact t.memoryRead_dramSingle ..

/-- A first read that draws POISON is only counted. -/
theorem State.poisonRead_first {s : State} {reader a n : Nat} (h : s.readFails a n = true) :
    s.poisonRead reader a n false = { s with miu := { s.miu with ue := satAdd s.miu.ue 1 } } := by
  obtain ⟨w, hw⟩ := Option.isSome_iff_exists.1 h
  rw [poisonRead, hw]
  rfl

theorem State.poisonRead_last_posts {s : State} {reader a n : Nat} (h : s.readFails a n = true) :
    Claims.Posts s (s.poisonRead reader a n true) [0x02F0] ∧ (s.poisonRead reader a n true).codec = s.codec := by
  obtain ⟨w, hw⟩ := Option.isSome_iff_exists.1 h
  rw [poisonRead, hw]
  exact ⟨List.map_append, rfl⟩

theorem State.poisonRead_of_sound {s : State} {a n : Nat} (h : s.readFails a n = false) (reader : Nat) (last : Bool) :
    s.poisonRead reader a n last = s := by
  rw [poisonRead, Option.isNone_iff_eq_none.1 (Option.isSome_eq_false_iff.1 h)]

theorem State.zoneRead_of_sound {s : State} {a n : Nat} (h : s.readFails a n = false) :
    s.zoneRead a n = (s.readSingles .dma a n, true) :=
  if_neg (Bool.not_eq_true _ ▸ h)

/-- POISON that stands is drawn twice; the second time it is lasting and told. -/
theorem State.zoneRead_of_readFails {s : State} {a n : Nat} (h : s.readFails a n = true) : let z := s.zoneRead a n
    z.2 = false ∧ Claims.Posts s z.1 [0x02F0] ∧ z.1.mem = s.mem ∧ z.1.codec = s.codec := by
  have hz : s.zoneRead a n = (({ s with miu := { s.miu with ue := satAdd s.miu.ue 1 } } : State).poisonRead 1 a n true, false) := by
    rw [zoneRead, if_pos h, poisonRead_first h]
  have hagain : ({ s with miu := { s.miu with ue := satAdd s.miu.ue 1 } } : State).readFails a n = true := h
  obtain ⟨hposts, hcodec⟩ := poisonRead_last_posts (reader := 1) hagain
  intro z
  rw [show z = _ from hz]
  exact ⟨rfl, hposts, (poisonRead_last hagain).2.1, hcodec⟩

/-- The source of a staging: host memory holds it for the asking, the transfer zone is read. -/
def State.sourceRead (s : State) (host : Bool) (a n : Nat) : State × Bool := if host then (s, true) else s.zoneRead a n

theorem State.sourceRead_of_sound {s : State} {host : Bool} {a n : Nat} (h : host = true ∨ s.readFails a n = false) :
    MemoryRead s (s.sourceRead host a n).1 ∧ (s.sourceRead host a n).2 = true := by
  cases host with
  | true => exact ⟨.refl s, rfl⟩
  | false =>
    rw [sourceRead, if_neg Bool.false_ne_true, zoneRead_of_sound (h.resolve_left Bool.false_ne_true)]
    exact ⟨s.memoryRead_readSingles .., rfl⟩

/-! ### How the staging of a tile ends (R268) -/

/-- The staging of `g` is over and its outcome still to be told: it has no entry any more, and `codes` were posted by the read of its
source. -/
structure Unstaged (s v : State) (g : Staging) (codes : List (BitVec 16)) : Prop where
  hamper : v.hamper = { s.hamper with stagings := s.hamper.stagings.filter (fun z => z.tile ≠ g.tile) }
  posts : Claims.Posts s v codes
  mem : v.mem = s.mem
  comp : v.codec.comp = s.codec.comp
  depthCap : v.codec.depthCap = s.codec.depthCap

/-- The outcome is told after `codes`, and the directory holds `new` besides what it held. -/
structure Staged (s u : State) (g : Staging) (codes : List (BitVec 16)) (new : List Tile) : Prop where
  tiles : u.hamper.tiles = s.hamper.tiles ++ new
  stagings : u.hamper.stagings = s.hamper.stagings.filter (fun z => z.tile ≠ g.tile)
  posts : Claims.Posts s u (codes ++ [0x02A0])
  mem : u.mem = s.mem

theorem State.stagedEvent_posts (s : State) (g : Staging) (st : Status) (detail pages stream raw : Nat) :
    Claims.Posts s (s.stagedEvent g st detail pages stream raw) [0x02A0] :=
  s.result_posts ..

theorem State.freeTile_of_absent {s : State} {id : Nat} (h : s.tile? id = none) : (s.freeTile id).hamper = s.hamper := by
  have hall : s.hamper.tiles.filter (fun x => x.id ≠ id) = s.hamper.tiles :=
    List.filter_eq_self.2 fun x hx => by simpa using List.find?_eq_none.1 h x hx
  rw [freeTile, (retirePages_frame ..).2.2.2.2.2.2.2.2.2.2.2.2.1, hall]

section Over

variable {s v : State} {g : Staging} {codes : List (BitVec 16)} (h : Unstaged s v g codes)
include h

/-- Nothing is stored. -/
theorem Unstaged.told (st : Status) (detail : Nat) : Staged s (v.stagedEvent g st detail 0 0 0) g codes [] where
  tiles := by simp [h.hamper]
  stagings := by simp [h.hamper]
  posts := posts_trans h.posts (v.stagedEvent_posts ..)
  mem := by simp [h.mem]

theorem Unstaged.stored (hnew : s.tile? g.tile = none) (blocks : List Blk) :
    Staged s (v.swapIn g blocks) g codes [tileOf g blocks] := by
  have hfree : v.tile? g.tile = none := by rw [State.tile?, h.hamper]; exact hnew
  have hkept := State.freeTile_of_absent hfree
  rw [State.swapIn, if_neg (by simp [hfree])]
  refine ⟨?_, ?_, posts_trans h.posts ?_, ?_⟩
  · simp [hkept, h.hamper]
  · simp [hkept, h.hamper]
  · exact State.stagedEvent_posts ..
  · simp [h.mem]

theorem Unstaged.coded_fails (hcoded : g.raw = false) {p : List Byte} {e : Byte × Nat}
    (herror : readStream (!g.structural) g.codes (some (g.w, g.h)) p = .error e) : Staged s (v.stageEnd g p) g codes [] := by
  simp only [State.stageEnd, hcoded, Bool.false_eq_true, if_false, herror]
  exact h.told ..

theorem Unstaged.coded_passes (hcoded : g.raw = false) (hnew : s.tile? g.tile = none) {p : List Byte} {x : Stream}
    (hok : readStream (!g.structural) g.codes (some (g.w, g.h)) p = .ok x) : Staged s (v.stageEnd g p) g codes [tileOf g x.blocks] := by
  simp only [State.stageEnd, hcoded, Bool.false_eq_true, if_false, hok]
  exact h.stored hnew _

theorem Unstaged.compressed (hraw : g.raw = true) (hcomp : s.codec.comp ≠ 0) (hnew : s.tile? g.tile = none) (p : List Byte) :
    Staged s (v.stageEnd g p) g codes [tileOf g (compressTile g.codes g.w g.h s.codec.depthCap p)] := by
  rw [State.stageEnd, if_pos hraw, if_neg (h.comp ▸ hcomp), h.depthCap]
  exact h.stored hnew _

end Over

/-! ### HAMPER_STAGED -/

theorem State.rawWaits_of_coded {s : State} {g : Staging} (h : g.raw = false) : s.rawWaits g = false := by
  rw [rawWaits, h, Bool.false_and]

theorem State.staging?_at {s : State} {g : Staging} (hid : g.tile < 2 ^ 24) (hg : s.staging? g.tile = some g) (t : Nat) :
    (s.at t).staging? (BitVec.ofNat 24 g.tile).toNat = some g := by
  rw [BitVec.toNat_ofNat, Nat.mod_eq_of_lt hid]
  exact hg

/-- A staging that does not wait ends with what the read of its source gave. -/
theorem exec_hamperStaged {s : State} {g : Staging} {ok : Bool} (hid : g.tile < 2 ^ 24) (hg : s.staging? g.tile = some g)
    (hends : (ok && s.rawWaits g) = false) (data : List Byte) (t : Nat) :
    let z := (s.at t).sourceRead g.srcHost g.src g.length
    let v := ({ z.1 with hamper := { s.hamper with stagings := s.hamper.stagings.filter (fun x => x.tile ≠ g.tile) } }).endRaw g.tile
    let p := if g.srcHost then padTo g.length data else s.memRead g.src g.length
    exec (.hamperStaged (BitVec.ofNat 24 g.tile) data ok t) s =
      .next (if ok && z.2 then (v.traffic p.length true).stageEnd g p else v.stagedEvent g .lastingFault 0 0 0 0) := by
  have hgo : ¬ (ok && (s.at t).rawWaits g) = true := Bool.not_eq_true _ ▸ hends
  change execHamperStaged _ data ok t s = _
  simp only [execHamperStaged, State.staging?_at hid hg, if_neg hgo]
  rfl

section Ends

variable {s : State} {g : Staging} (hid : g.tile < 2 ^ 24) (hg : s.staging? g.tile = some g)
include hid hg

/-- The source could be read: its bytes decide. -/
theorem exec_hamperStaged_of_sound (hends : s.rawWaits g = false) (hsound : g.srcHost = true ∨ s.readFails g.src g.length = false)
    (data : List Byte) (t : Nat) : ∃ v, Unstaged s v g [] ∧ exec (.hamperStaged (BitVec.ofNat 24 g.tile) data true t) s =
      .next (v.stageEnd g (if g.srcHost then padTo g.length data else s.memRead g.src g.length)) := by
  have hrun := exec_hamperStaged hid hg (ok := true) hends data t
  obtain ⟨hread, hdone⟩ := State.sourceRead_of_sound (s := s.at t) hsound
  simp only [hdone, Bool.and_self, if_true] at hrun
  refine ⟨_, ?_, hrun⟩
  rw [hread.eq]
  exact ⟨rfl, posts_nil s, rfl, rfl, rfl⟩

/-- The host's read of the source failed. -/
theorem exec_hamperStaged_unread (hsound : g.srcHost = true ∨ s.readFails g.src g.length = false)
    (data : List Byte) (t : Nat) :
    ∃ u, exec (.hamperStaged (BitVec.ofNat 24 g.tile) data false t) s = .next u ∧ Staged s u g [] [] := by
  obtain ⟨hread, _⟩ := State.sourceRead_of_sound (s := s.at t) hsound
  refine ⟨_, exec_hamperStaged hid hg (ok := false) rfl data t, Unstaged.told ?_ _ _⟩
  rw [hread.eq]
  exact ⟨rfl, posts_nil s, rfl, rfl, rfl⟩

/-- POISON stands on a source in the transfer zone. -/
theorem exec_hamperStaged_of_readFails (hcoded : g.raw = false) (hzone : g.srcHost = false) (hfails : s.readFails g.src g.length = true)
    (data : List Byte) (t : Nat) :
    ∃ u, exec (.hamperStaged (BitVec.ofNat 24 g.tile) data true t) s = .next u ∧ Staged s u g [0x02F0] [] := by
  have hrun := exec_hamperStaged hid hg (ok := true) (State.rawWaits_of_coded hcoded) data t
  obtain ⟨hdone, hposts, hmem, hcodec⟩ := State.zoneRead_of_readFails (s := s.at t) hfails
  simp only [State.sourceRead, hzone, Bool.false_eq_true, if_false, hdone, Bool.and_false] at hrun
  have hcomp := congrArg (fun c : Codec => c.comp) hcodec
  have hdepthCap := congrArg (fun c : Codec => c.depthCap) hcodec
  refine ⟨_, hrun, Unstaged.told ?_ _ _⟩
  exact ⟨rfl, hposts, hmem, hcomp, hdepthCap⟩

end Ends

theorem exec_hamperStaged_coded (data : List Byte) (t : Nat) (s : State) (g : Staging) (hid : g.tile < 2 ^ 24)
    (hg : s.staging? g.tile = some g) (hcoded : g.raw = false) (hsound : g.srcHost = true ∨ s.readFails g.src g.length = false) :
    let p := if g.srcHost then padTo g.length data else s.memRead g.src g.length
    (∀ x : Stream, readStream (!g.structural) g.codes (some (g.w, g.h)) p = .ok x → s.tile? g.tile = none →
      ∃ u, exec (.hamperStaged (BitVec.ofNat 24 g.tile) data true t) s = .next u ∧ u.hamper.tiles = s.hamper.tiles ++ [tileOf g x.blocks] ∧
        u.hamper.stagings = s.hamper.stagings.filter (fun z => z.tile ≠ g.tile) ∧ Claims.Posts s u [0x02A0] ∧ u.mem = s.mem) ∧
    (∀ e, readStream (!g.structural) g.codes (some (g.w, g.h)) p = .error e →
      ∃ u, exec (.hamperStaged (BitVec.ofNat 24 g.tile) data true t) s = .next u ∧ u.hamper.tiles = s.hamper.tiles ∧ Claims.Posts s u [0x02A0] ∧
        u.hamper.stagings = s.hamper.stagings.filter (fun z => z.tile ≠ g.tile)) ∧
    (∃ u, exec (.hamperStaged (BitVec.ofNat 24 g.tile) data false t) s = .next u ∧ u.hamper.tiles = s.hamper.tiles ∧ Claims.Posts s u [0x02A0]) := by
  obtain ⟨v, hover, hrun⟩ := exec_hamperStaged_of_sound hid hg (State.rawWaits_of_coded hcoded) hsound data t
  refine ⟨fun x hok hnew => ?_, fun e herror => ?_, ?_⟩
  · have hstaged := hover.coded_passes hcoded hnew hok
    exact ⟨_, hrun, hstaged.tiles, hstaged.stagings, hstaged.posts, hstaged.mem⟩
  · have hstaged := hover.coded_fails hcoded herror
    exact ⟨_, hrun, hstaged.tiles.trans (List.append_nil _), hstaged.posts, hstaged.stagings⟩
  · obtain ⟨u, hfailed, hstaged⟩ := exec_hamperStaged_unread hid hg hsound data t
    exact ⟨u, hfailed, hstaged.tiles.trans (List.append_nil _), hstaged.posts⟩

theorem exec_hamperStaged_poisoned (data : List Byte) (t : Nat) (s : State) (g : Staging) (hid : g.tile < 2 ^ 24)
    (hg : s.staging? g.tile = some g) (hcoded : g.raw = false) (hzone : g.srcHost = false) (hfails : s.readFails g.src g.length = true) :
    ∃ u, exec (.hamperStaged (BitVec.ofNat 24 g.tile) data true t) s = .next u ∧ u.hamper.tiles = s.hamper.tiles ∧
      u.hamper.stagings = s.hamper.stagings.filter (fun z => z.tile ≠ g.tile) ∧ Claims.Posts s u [0x02F0, 0x02A0] := by
  obtain ⟨u, hrun, hstaged⟩ := exec_hamperStaged_of_readFails hid hg hcoded hzone hfails data t
  exact ⟨u, hrun, hstaged.tiles.trans (List.append_nil _), hstaged.stagings, hstaged.posts⟩

theorem exec_hamperStaged_raw (data : List Byte) (t : Nat) (s : State) (g : Staging) (hid : g.tile < 2 ^ 24)
    (hg : s.staging? g.tile = some g) (hraw : g.raw = true) :
    (s.rawWaits g = true → exec (.hamperStaged (BitVec.ofNat 24 g.tile) data true t) s = .next (s.at t)) ∧
    (s.rawWaits g = false → s.codec.comp ≠ 0 → s.tile? g.tile = none → (g.srcHost = true ∨ s.readFails g.src g.length = false) →
      ∃ u, exec (.hamperStaged (BitVec.ofNat 24 g.tile) data true t) s = .next u ∧
        u.hamper.tiles = s.hamper.tiles ++ [tileOf g (compressTile g.codes g.w g.h s.codec.depthCap
          (if g.srcHost then padTo g.length data else s.memRead g.src g.length))] ∧ Claims.Posts s u [0x02A0]) := by
  refine ⟨fun hwaits => ?_, fun hends hcomp hnew hsound => ?_⟩
  · change execHamperStaged _ data true t s = _
    simp only [execHamperStaged, State.staging?_at hid hg]
    exact if_pos hwaits
  · obtain ⟨v, hover, hrun⟩ := exec_hamperStaged_of_sound hid hg hends hsound data t
    have hstaged := hover.compressed hraw hcomp hnew (if g.srcHost then padTo g.length data else s.memRead g.src g.length)
    exact ⟨_, hrun, hstaged.tiles, hstaged.posts⟩

theorem exec_hamperStaged_absent (data : List Byte) (ok : Bool) (tile : BitVec 24) (t : Nat) (s : State)
    (hnone : s.staging? tile.toNat = none) : exec (.hamperStaged tile data ok t) s = .next (s.at t) := by
  have hnone' : (s.at t).staging? tile.toNat = none := hnone
  change execHamperStaged tile data ok t s = _
  simp only [execHamperStaged, hnone']

/-! ### HAMPER_LIST_STAGED (R264, R275) -/

/-- A list is checked against the tiles of the directory alone. -/
theorem State.readList_congr {s v : State} (h : v.hamper.tiles = s.hamper.tiles) (handle : Nat) (p : List Byte) (length : Nat) :
    v.readList handle p length = s.readList handle p length := by
  have hnamed : v.namedTile = s.namedTile := by
    funext codes id
    rw [namedTile, namedTile, tile?, tile?, h]
  have hslot : v.readSlot = s.readSlot := by
    funext codes q
    rw [readSlot, readSlot, hnamed]
  have hplace : v.readPlace = s.readPlace := by
    funext isVar codes slots q
    rw [readPlace, readPlace, hnamed]
  rw [readList, readList, hslot, hplace]

theorem State.allocateUnits_congr {s v : State} (htiles : v.hamper.tiles = s.hamper.tiles) (hstagings : v.hamper.stagings = s.hamper.stagings)
    (hlists : v.hamper.lists = s.hamper.lists) (hretired : v.miu.retired = s.miu.retired) (bytes : Nat) :
    v.allocateUnits bytes = s.allocateUnits bytes := by
  rw [allocateUnits, allocateUnits, takenUnits, takenUnits, htiles, hstagings, hlists, hretired]

/-- The end of a list staging whose source could be read. -/
def State.listEnd (s : State) (g : ListStaging) (p : List Byte) : State :=
  match s.readList s.hamper.nextHandle p g.length with
  | .error e => s.listEvent g e.1 e.2 0
  | .ok l => s.storeList g l

theorem State.listEvent_posts (s : State) (g : ListStaging) (st : Status) (detail handle : Nat) :
    Claims.Posts s (s.listEvent g st detail handle) [0x02A1] ∧ (s.listEvent g st detail handle).hamper = s.hamper :=
  ⟨s.result_posts .., by simp [listEvent]⟩

theorem exec_hamperListStaged_of_sound {s : State} {g : ListStaging} {rest : List ListStaging} (hfirst : s.hamper.listStagings = g :: rest)
    (hsound : g.srcHost = true ∨ s.readFails g.src g.length = false) (data : List Byte) (t : Nat) :
    ∃ v : State, v.hamper = { s.hamper with listStagings := rest } ∧ v.mbx = s.mbx ∧ v.miu.retired = s.miu.retired ∧
      exec (.hamperListStaged data true t) s =
        .next (v.listEnd g (if g.srcHost then padTo g.length data else s.memRead g.src g.length)) := by
  have hfirst' : (s.at t).hamper.listStagings = g :: rest := hfirst
  obtain ⟨hread, hdone⟩ := State.sourceRead_of_sound (s := s.at t) hsound
  let z := (s.at t).sourceRead g.srcHost g.src g.length
  let p := if g.srcHost then padTo g.length data else s.memRead g.src g.length
  let v := ({ z.1 with hamper := { s.hamper with listStagings := rest } }).traffic p.length true
  have hrun : exec (.hamperListStaged data true t) s = .next (v.listEnd g p) := by
    change execHamperListStaged data true t s = _
    have hz : (if g.srcHost then (s.at t, true) else (s.at t).zoneRead g.src g.length) = (z.1, true) := Prod.ext rfl hdone
    simp only [execHamperListStaged, hfirst', hz, Bool.and_self, if_true]
    change (match v.readList v.hamper.nextHandle p g.length with
      | .error e => Host.Outcome.next (v.listEvent g e.1 e.2 0)
      | .ok l => Host.Outcome.next (v.storeList g l)) = _
    rw [State.listEnd]
    split <;> rfl
  exact ⟨v, rfl, hread.mbx, hread.retired, hrun⟩

theorem exec_hamperListStaged_ends (data : List Byte) (t : Nat) (s : State) (g : ListStaging) (rest : List ListStaging)
    (hfirst : s.hamper.listStagings = g :: rest) (hsound : g.srcHost = true ∨ s.readFails g.src g.length = false) :
    let p := if g.srcHost then padTo g.length data else s.memRead g.src g.length
    (∀ (l : PList) (units : List Extent), s.readList s.hamper.nextHandle p g.length = .ok l → s.allocateUnits g.length = some units →
      ∃ u, exec (.hamperListStaged data true t) s = .next u ∧ u.hamper = { s.hamper with
        lists := s.hamper.lists ++ [{ l with units := units }], nextHandle := s.hamper.nextHandle + 1, listStagings := rest } ∧ Claims.Posts s u [0x02A1]) ∧
    (∀ e, s.readList s.hamper.nextHandle p g.length = .error e → ∃ u, exec (.hamperListStaged data true t) s = .next u ∧
      u.hamper = { s.hamper with listStagings := rest } ∧ Claims.Posts s u [0x02A1]) := by
  intro p
  obtain ⟨v, hhamper, hmbx, hretired, hrun⟩ := exec_hamperListStaged_of_sound hfirst hsound data t
  have hlist : v.readList v.hamper.nextHandle p g.length = s.readList s.hamper.nextHandle p g.length := by
    rw [hhamper]
    exact State.readList_congr (by rw [hhamper]) ..
  have hunits : v.allocateUnits g.length = s.allocateUnits g.length :=
    State.allocateUnits_congr (by rw [hhamper]) (by rw [hhamper]) (by rw [hhamper]) hretired _
  refine ⟨fun l units hok hfits => ⟨_, hrun, ?_⟩, fun e herror => ⟨_, hrun, ?_⟩⟩
  · rw [State.listEnd, hlist, hok]
    dsimp only
    rw [State.storeList, hunits, hfits]
    dsimp only
    obtain ⟨hposts, hkept⟩ := State.listEvent_posts
      { v with hamper := { v.hamper with lists := v.hamper.lists ++ [{ l with units := units }], nextHandle := v.hamper.nextHandle + 1 } }
      g .ok 0 l.handle
    refine ⟨?_, posts_of_mbx hmbx hposts⟩
    rw [hkept, hhamper]
  · rw [State.listEnd, hlist, herror]
    obtain ⟨hposts, hkept⟩ := v.listEvent_posts g e.1 e.2 0
    exact ⟨hkept.trans hhamper, posts_of_mbx hmbx hposts⟩

/-! ### HAMPER_SPACE (R278) -/

theorem exec_hamperSpace (t : Nat) (s : State) :
    exec (.hamperSpace t) s = .next (if 0 < s.hamper.freed ∧ s.hamper.spaceAt + 1000000 * 2 ^ 32 ≤ max s.aon t then
        State.post { s.at t with hamper := { s.hamper with freed := 0, spaceAt := max s.aon t } } 0x02A2 clsJob
          [(4, s.hamper.freed), (4, s.pagesFree)]
      else s.at t) := rfl

/-- Settles O44: what the read of a staging's source leaves, and then how a staging, told or stored, ends. -/
theorem storeEventsComplete : Obligations.StoreEventsComplete :=
  ⟨exec_hamperStaged_coded, exec_hamperStaged_poisoned, exec_hamperStaged_raw, exec_hamperStaged_absent, exec_hamperListStaged_ends,
    exec_hamperSpace⟩

end Sys2Proof.Machine
end

section
/-! PROOF. The codec's commands and its compressors (10 R249, R252 to R255). -/

namespace Sys2Proof.Machine

/-! ### CODEC_CONFIG, CODEC_STATUS and CODEC_CHECK (R253 to R255) -/

theorem capPayload_fields {cap : Nat} (hcap : cap ≤ 256) : let p := le 2 cap ++ [0, 0, 0, 0, 0, 0]
    fld p 0 2 = cap ∧ zeros p 2 6 = true ∧ p.length = 8 :=
  ⟨(fld_le 2 cap _).trans (Nat.mod_eq_of_lt (by omega)), rfl, rfl⟩

theorem exec_codecConfig_sets (q : Req) (s : State) (cap : Nat) (hq : Claims.Fresh 0x0130 q s) (hlo : 1 ≤ cap) (hhi : cap ≤ 256)
    (hcoded : ∀ g ∈ s.hamper.stagings, g.raw = false) (hp : q.payload = le 2 cap ++ [0, 0, 0, 0, 0, 0]) :
    exec (.codecConfig q) s = .next ((Claims.ok { s.start q 0x0130 with codec := { s.codec with depthCap := cap } }).deliver q 0x0130) := by
  obtain ⟨hcap, hzero, hlength⟩ := capPayload_fields hhi
  have hrun : exec (.codecConfig q) s = .next ((cmdCodecConfig.run q (s.start q 0x0130)).deliver q 0x0130) :=
    congrArg _ (serve_of_fresh hq (by rw [hp]; exact beq_iff_eq.2 hlength))
  have hraw : (s.start q 0x0130).hamper.stagings.any (·.raw) = false := List.any_eq_false.2 fun g hg => by simp [hcoded g hg]
  refine exec_of_answer hrun ?_
  simp only [cmdCodecConfig, hp, hcap, hzero]
  rw [checks_pass]
  · rfl
  · simp [hraw, Nat.not_lt.2 hhi, Nat.ne_of_gt hlo]

theorem State.codecStatus_fields (s : State) :
    let p := s.codecStatus
    p.length = 48 ∧ fld p 0 2 = s.codec.primary.toNat ∧ fld p 2 2 = s.codec.shadow.toNat ∧ fld p 4 1 = s.codec.comp.toNat ∧
      fld p 16 4 = s.codec.damaged.toNat ∧ fld p 40 8 = s.nowNs % 2 ^ 64 := by
  have hbyte (v : BitVec 8) : v.toNat % 256 ^ 1 = v.toNat := Nat.mod_eq_of_lt v.isLt
  have hhalf (v : BitVec 16) : v.toNat % 256 ^ 2 = v.toNat := Nat.mod_eq_of_lt v.isLt
  refine ⟨?_, ?_, ?_, ?_, ?_, ?_⟩
  · simp [codecStatus]
  all_goals
    simp only [codecStatus, List.append_assoc]
    simp (disch := simp) only [fld_append_right, length_le, length_zeroBytes, List.length_singleton, Nat.reduceSub, fld_le, fld_le_end,
      toNat_mod_four_bytes, hbyte, hhalf]
  -- The time of the answer: eight bytes are 64 bits.
  rfl

theorem exec_codecStatus_answers (q : Req) (s : State) (hq : Claims.FreshOf 0x0131 0 q s) : ∃ p : List Byte,
    exec (.codecStatus q) s = .next ((Claims.ok (s.start q 0x0131) p).deliver q 0x0131) ∧ p.length = 48 ∧ fld p 0 2 = s.codec.primary.toNat ∧
    fld p 2 2 = s.codec.shadow.toNat ∧ fld p 4 1 = s.codec.comp.toNat ∧ fld p 16 4 = s.codec.damaged.toNat ∧
    fld p 40 8 = s.nowNs % 2 ^ 64 :=
  ⟨(s.start q 0x0131).codecStatus, congrArg _ (serve_of_fresh hq.1 (beq_iff_eq.2 hq.2)), (s.start q 0x0131).codecStatus_fields⟩

theorem checkPayload_fields {src len : Nat} (hsrc : src < 2 ^ 64) (hlen : len < 2 ^ 32) (codes : Bool) :
    let p := le 8 src ++ le 4 len ++ [if codes then 1 else 0, 0, 0, 0]
    fld p 0 8 = src ∧ fld p 8 4 = len ∧ fld p 12 1 = b2n codes ∧ zeros p 13 3 = true ∧ p.length = 16 := by
  refine ⟨?_, ?_, ?_, rfl, rfl⟩
  · rw [List.append_assoc]
    exact (fld_le 8 src _).trans (Nat.mod_eq_of_lt hsrc)
  · rw [List.append_assoc]
    exact (fld_append (le 8 src) _ 0 4).trans ((fld_le 4 len _).trans (Nat.mod_eq_of_lt hlen))
  · rw [fld_one]
    cases codes <;> rfl

theorem exec_codecCheck_queues (q : Req) (s : State) (src len : Nat) (codes : Bool) (hq : Claims.Fresh 0x0132 q s) (hmin : 32 ≤ len)
    (hmax : len < 2 ^ 32) (hlo : 0x3400000000 ≤ src) (hhi : src + len ≤ 0x3800000000)
    (hp : q.payload = le 8 src ++ le 4 len ++ [if codes then 1 else 0, 0, 0, 0]) :
    let c : CodecCheck := { origin := q.origin, src := src, length := len, codes := codes }
    exec (.codecCheck q) s = .next ((Claims.accepted { s.start q 0x0132 with
      codec := { s.codec with checks := s.codec.checks ++ [c] } }).deliver q 0x0132) := by
  obtain ⟨hsrc, hlen, hcodes, hzero, hlength⟩ := checkPayload_fields (src := src) (by omega) hmax codes
  have hrun : exec (.codecCheck q) s = .next ((cmdCodecCheck.run q (s.start q 0x0132)).deliver q 0x0132) :=
    congrArg _ (serve_of_fresh hq (by rw [hp]; exact beq_iff_eq.2 hlength))
  have hle : ¬ 1 < b2n codes := by cases codes <;> decide
  have hbit : (b2n codes == 1) = codes := by cases codes <;> rfl
  intro c
  refine exec_of_answer hrun ?_
  simp only [cmdCodecCheck, hp, hsrc, hlen, hcodes, hzero, hbit]
  rw [checks_pass]
  · rfl
  · simp [hle, inZone_of_le hlo hhi, Nat.not_lt.2 hmin]

/-! ### CDX_CHECK_DONE (R255) -/

theorem State.resolve_eq (s : State) (o : Origin) (st : Status) (detail : Nat) (payload : List Byte) :
    s.resolve o st detail payload = { s with mbx := (s.resolve o st detail payload).mbx } := by
  unfold resolve
  dsimp only
  split
  next => rfl
  next => split <;> rfl

/-- A result is told by the mailboxes alone. -/
theorem State.result_eq (s : State) (o : Option Origin) (code : BitVec 16) (cls : Fin 4) (st : Status) (detail : Nat)
    (data : List DataField) (final : Option Status) :
    s.result o code cls st detail data final = { s with mbx := (s.result o code cls st detail data final).mbx } := by
  cases o with
  | none => rfl
  | some x => exact resolve_eq ..

theorem State.checkResult_eq (s : State) (c : CodecCheck) : s.checkResult c = { s with mbx := (s.checkResult c).mbx } ∧
    Claims.Posts s (s.checkResult c) [0x0292] := by
  have heq (st : Status) (detail : Nat) (data : List DataField) :
      s.result (some c.origin) 0x0292 clsJob st detail data =
        { s with mbx := (s.result (some c.origin) 0x0292 clsJob st detail data).mbx } := s.result_eq ..
  unfold checkResult
  split
  · exact ⟨heq .., s.result_posts ..⟩
  · exact ⟨heq .., s.result_posts ..⟩

theorem exec_cdxCheckDone_reports (t : Nat) (s : State) (c : CodecCheck) (rest : List CodecCheck) (hfirst : s.codec.checks = c :: rest) :
    (s.pwr.throttled = false → ∃ u, exec (.cdxCheckDone t) s = .next u ∧ u.codec = { s.codec with checks := rest } ∧ Claims.Posts s u [0x0292] ∧
      u = { s.at t with codec := u.codec, mbx := u.mbx }) ∧
    (s.pwr.throttled = true → exec (.cdxCheckDone t) s = .next (s.at t)) := by
  have hfirst' : (s.at t).codec.checks = c :: rest := hfirst
  have hrun : exec (.cdxCheckDone t) s = .next (if (s.at t).pwr.throttled then s.at t
      else ({ s.at t with codec := { s.codec with checks := rest } } : State).checkResult c) := by
    change execCdxCheckDone t s = _
    simp only [execCdxCheckDone, hfirst']
    rfl
  refine ⟨fun hcool => ?_, fun hhot => hrun.trans (congrArg _ (if_pos hhot))⟩
  obtain ⟨heq, hposts⟩ := State.checkResult_eq { s.at t with codec := { s.codec with checks := rest } } c
  refine ⟨_, hrun.trans (congrArg _ (if_neg (Bool.not_eq_true _ ▸ hcool))), ?_, hposts, ?_⟩
  · rw [heq]
  · rw [heq]

/-! ### Blocks handed to the compressors (R249, R252) -/

theorem getLsbD_and_not_bit {w : Nat} (x : BitVec w) (i : Nat) : (x &&& ~~~(1#w <<< i)).getLsbD i = false := by
  by_cases h : i < w <;> simp [h]

/-- How many blocks are verified of each raw tile of an id that is under way. -/
def Codec.verifiedOf (c : Codec) (tile : Nat) : List Nat := (c.works.filter (fun x => x.tile = tile)).map (·.verified)

/-- Free compressors take blocks: a block that one holds stays in it, and none is verified by it. -/
structure BlocksTaken (c d : Codec) : Prop where
  eq : d = { c with works := d.works, comps := d.comps, afresh := d.afresh }
  comps : ∀ (i : Fin 8) (b : CompBlock), c.comps[i] = some b → d.comps[i] = some b
  verified : ∀ tile, d.verifiedOf tile = c.verifiedOf tile

theorem BlocksTaken.refl (c : Codec) : BlocksTaken c c := ⟨rfl, fun _ _ => id, fun _ => rfl⟩

theorem BlocksTaken.trans {c d e : Codec} (h₁ : BlocksTaken c d) (h₂ : BlocksTaken d e) : BlocksTaken c e where
  eq := h₂.eq.trans (by rw [h₁.eq])
  comps i b hb := h₂.comps i b (h₁.comps i b hb)
  verified tile := (h₂.verified tile).trans (h₁.verified tile)

/-- What an update makes of a tile's entries, when it leaves every entry its tile. -/
theorem verifiedOf_map {f : RawWork → RawWork} (hf : ∀ x, (f x).tile = x.tile) (l : List RawWork) (tile : Nat) :
    ((l.map f).filter (fun x => x.tile = tile)).map (·.verified) = (l.filter (fun x => x.tile = tile)).map (fun x => (f x).verified) := by
  rw [List.filter_map, List.map_map]
  simp only [Function.comp_def, hf]

/-- The next block leaves the compressors alone and verifies nothing. -/
theorem Codec.nextBlock_kept {c d : Codec} {b : CompBlock} (h : c.nextBlock = some (b, d)) :
    d = { c with works := d.works, afresh := d.afresh } ∧ ∀ tile, d.verifiedOf tile = c.verifiedOf tile := by
  unfold nextBlock at h
  split at h
  next =>
    obtain ⟨_, rfl⟩ := Prod.mk.inj (Option.some.inj h)
    exact ⟨rfl, fun _ => rfl⟩
  next =>
    obtain ⟨w, _, hw⟩ := Option.map_eq_some_iff.1 h
    obtain ⟨_, rfl⟩ := Prod.mk.inj hw
    refine ⟨rfl, fun tile => ?_⟩
    refine (verifiedOf_map (fun x => ?_) ..).trans (List.map_congr_left fun x _ => ?_)
    · split <;> rfl
    · split <;> rfl

theorem Codec.comps_of_freeComp {c : Codec} {u : Fin 8} (h : c.freeComp = some u) : c.comps[u] = none := by
  have hfree := List.find?_some h
  simp only [Bool.and_eq_true, Option.isNone_iff_eq_none] at hfree
  exact hfree.2

theorem getElem_set_of_none {α : Type} {n : Nat} {v : Vector (Option α) n} {u : Fin n} (hfree : v[u] = none) (x : Option α) {i : Fin n} {b : α}
    (hb : v[i] = some b) : (v.set u x)[i] = some b := by
  have hne : u ≠ i := fun h => by rw [h, hb] at hfree; exact absurd hfree (Option.some_ne_none b)
  exact (Vector.getElem_set_ne u.isLt i.isLt (fun hv => hne (Fin.ext hv))).trans hb

theorem Codec.blocksTaken_handOut (n : Nat) (c : Codec) : BlocksTaken c (Codec.handOut n c) := by
  induction n generalizing c with
  | zero => exact .refl c
  | succ n ih =>
    rw [handOut]
    split
    next u b d hfree hnext =>
      obtain ⟨hkept, hverified⟩ := nextBlock_kept hnext
      have hcomps : d.comps = c.comps := by rw [hkept]
      have hput : BlocksTaken c { d with comps := d.comps.set u (some b) } :=
        ⟨by rw [hkept], fun i x hx => hcomps ▸ getElem_set_of_none (comps_of_freeComp hfree) _ hx, hverified⟩
      exact hput.trans (ih _)
    next => exact .refl c

theorem State.feedCompressors_taken (s : State) :
    s.feedCompressors = { s with codec := s.feedCompressors.codec } ∧ BlocksTaken s.codec s.feedCompressors.codec := by
  unfold feedCompressors
  split
  · exact ⟨rfl, .refl _⟩
  · exact ⟨rfl, s.codec.blocksTaken_handOut 8⟩

/-! ### COMPRESSOR_VERIFY (R252) -/

theorem exec_compressorVerify_none (i : Fin 8) (fail : Bool) (t : Nat) (s : State) : let v := (s.at t).feedCompressors
    v.codec.comps[i] = none → exec (.compressorVerify i fail t) s = .next v := by
  intro v hnone
  change execCompressorVerify i fail t s = _
  simp only [execCompressorVerify]
  rw [show (s.at t).feedCompressors = v from rfl, hnone]

theorem exec_compressorVerify_some {i : Fin 8} {t : Nat} {s : State} {b : CompBlock} (hb : (s.at t).feedCompressors.codec.comps[i] = some b)
    (fail : Bool) : exec (.compressorVerify i fail t) s = .next ((s.at t).feedCompressors.verifyEnd i b fail).feedCompressors := by
  change execCompressorVerify i fail t s = _
  simp only [execCompressorVerify]
  rw [hb]

theorem Codec.verifiedOf_verifiedBlock (c : Codec) (u : Fin 8) (b : CompBlock) :
    (c.verifiedBlock u b).verifiedOf b.tile = (c.verifiedOf b.tile).map (· + 1) := by
  refine (verifiedOf_map (fun x => ?_) ..).trans ?_
  · split <;> rfl
  · rw [verifiedOf, List.map_map]
    refine List.map_congr_left fun x hx => ?_
    rw [if_pos (of_decide_eq_true (List.mem_filter.1 hx).2)]
    rfl

section Verified

variable (s : State) (u : Fin 8) (b : CompBlock)

/-- A verified block counts, whether at once or after a second compression, which was a transient fault. -/
theorem State.verifyEnd_success :
    (s.verifyEnd u b false).codec.verifiedOf b.tile = (s.codec.verifiedOf b.tile).map (· + 1) ∧
    (b.again = false → Claims.Posts s (s.verifyEnd u b false) []) ∧
    (b.again = true → (s.verifyEnd u b false).codec.compTransient = satAdd s.codec.compTransient 1 ∧
      Claims.Posts s (s.verifyEnd u b false) [0x0290]) := by
  have hcounts := s.codec.verifiedOf_verifiedBlock u b
  cases hagain : b.again with
  | false =>
    have heq : s.verifyEnd u b false = { s with codec := s.codec.verifiedBlock u b } := by simp [verifyEnd, hagain]
    rw [heq]
    exact ⟨hcounts, fun _ => posts_nil s, fun h => absurd h Bool.false_ne_true⟩
  | true =>
    have heq : s.verifyEnd u b false = ({ s with codec := { s.codec.verifiedBlock u b with
        compTransient := satAdd s.codec.compTransient 1 } } : State).compFault u b clsTransient .transient := by simp [verifyEnd, hagain]
    rw [heq]
    exact ⟨hcounts, fun h => absurd h.symm Bool.false_ne_true, fun _ => ⟨rfl, List.map_append⟩⟩

theorem State.verifyEnd_first_failure (hfirst : b.again = false) :
    (s.verifyEnd u b true).codec.comps[u] = some { b with again := true } ∧ Claims.Posts s (s.verifyEnd u b true) [] := by
  have heq : s.verifyEnd u b true = { s with codec := { s.codec with comps := s.codec.comps.set u (some { b with again := true }) } } := by
    simp [verifyEnd, hfirst]
  rw [heq]
  exact ⟨Vector.getElem_set_self u.isLt, posts_nil s⟩

theorem State.verifyEnd_second_failure (hagain : b.again = true) : let w := s.verifyEnd u b true
    w.codec.comp = s.codec.comp &&& ~~~(1#8 <<< u.val) ∧ w.codec.compLasting = satAdd s.codec.compLasting 1 ∧ Claims.Posts s w [0x0290] := by
  let left := s.codec.comp &&& ~~~(1#8 <<< u.val)
  let c : Codec := { s.codec with
    comp := left, compLasting := satAdd s.codec.compLasting 1, comps := s.codec.comps.set u none
    afresh := s.codec.afresh ++ [(b.tile, b.blk)] }
  have heq : s.verifyEnd u b true = ({ s with codec := c } : State).compFault u b clsLasting (if left = 0 then .reported else .masked) := by
    simp [verifyEnd, hagain, left, c]
  rw [heq]
  exact ⟨rfl, rfl, List.map_append⟩

end Verified

theorem exec_compressorVerify_ends (i : Fin 8) (t : Nat) (s : State) (b : CompBlock) : let v := (s.at t).feedCompressors
    v.codec.comps[i] = some b →
    ∃ u w, exec (.compressorVerify i false t) s = .next u ∧ exec (.compressorVerify i true t) s = .next w ∧
      (u.codec.works.filter (fun x => x.tile = b.tile)).map (·.verified) = (v.codec.works.filter (fun x => x.tile = b.tile)).map (·.verified + 1) ∧
      (b.again = false → Claims.Posts s u [] ∧ w.codec.comps[i] = some { b with again := true } ∧ Claims.Posts s w []) ∧
      (b.again = true → u.codec.compTransient = satAdd s.codec.compTransient 1 ∧ Claims.Posts s u [0x0290] ∧
        w.codec.comp.getLsbD i.val = false ∧ w.codec.compLasting = satAdd s.codec.compLasting 1 ∧ Claims.Posts s w [0x0290]) := by
  intro v hb
  obtain ⟨hv, hvtaken⟩ := (s.at t).feedCompressors_taken
  obtain ⟨hu, hutaken⟩ := (v.verifyEnd i b false).feedCompressors_taken
  obtain ⟨hw, hwtaken⟩ := (v.verifyEnd i b true).feedCompressors_taken
  have hmbx : v.mbx = s.mbx := by rw [show v = _ from hv]; rfl
  have hcodec : v.codec.compTransient = s.codec.compTransient ∧ v.codec.compLasting = s.codec.compLasting := by
    rw [show v.codec = _ from hvtaken.eq]
    exact ⟨rfl, rfl⟩
  have hposts {m : State} (hm : m.feedCompressors = { m with codec := m.feedCompressors.codec }) {codes : List (BitVec 16)}
      (h : Claims.Posts v m codes) : Claims.Posts s m.feedCompressors codes := by
    rw [hm]
    exact posts_of_mbx hmbx h
  obtain ⟨hverified, hclean, htransient⟩ := v.verifyEnd_success i b
  refine ⟨_, _, exec_compressorVerify_some hb false, exec_compressorVerify_some hb true, ?_, fun hfirst => ?_, fun hagain => ?_⟩
  · exact ((hutaken.verified b.tile).trans hverified).trans (List.map_map ..)
  · obtain ⟨hheld, hnone⟩ := v.verifyEnd_first_failure i b hfirst
    exact ⟨hposts hu (hclean hfirst), hwtaken.comps i _ hheld, hposts hw hnone⟩
  · obtain ⟨hcount, hreported⟩ := htransient hagain
    obtain ⟨hcomp, hlasting, hlost⟩ := v.verifyEnd_second_failure i b hagain
    refine ⟨?_, hposts hu hreported, ?_, ?_, hposts hw hlost⟩
    · rw [hutaken.eq]
      exact hcount.trans (congrArg (satAdd · 1) hcodec.1)
    · rw [hwtaken.eq]
      exact (congrArg (fun x : BitVec 8 => x.getLsbD i.val) hcomp).trans (getLsbD_and_not_bit ..)
    · rw [hwtaken.eq]
      exact hlasting.trans (congrArg (satAdd · 1) hcodec.2)

end Sys2Proof.Machine
end

section
/-! PROOF. The decompressors (10 R245 to R248), and with them O45. -/

namespace Sys2Proof.Machine

/-! ### Free units take what waits (R245) -/

@[simp] theorem State.dec_updDec (s : State) (p : Pipe) (f : Decoders → Decoders) :
    (s.updDec p f).codec.dec p = f (s.codec.dec p) := by
  cases p <;> rfl

/-- Nothing but the decoders' work has changed. -/
def OnlyDecoders (s u : State) : Prop := u = { s with codec := { s.codec with decP := u.codec.decP, decS := u.codec.decS } }

theorem OnlyDecoders.refl (s : State) : OnlyDecoders s s := rfl

theorem OnlyDecoders.trans {s t u : State} (h₁ : OnlyDecoders s t) (h₂ : OnlyDecoders t u) : OnlyDecoders s u := by
  rw [OnlyDecoders] at h₁
  exact Eq.trans h₂ (by rw [h₁])

theorem State.onlyDecoders_updDec (s : State) (p : Pipe) (f : Decoders → Decoders) : OnlyDecoders s (s.updDec p f) := by
  cases p <;> rfl

theorem State.onlyDecoders_unitFree (s : State) (p : Pipe) (u : Fin 16) : OnlyDecoders s (s.unitFree p u) := s.onlyDecoders_updDec ..

theorem State.onlyDecoders_hold (s : State) (p : Pipe) (b : Band) : OnlyDecoders s (s.hold p b) :=
  ite_rel (s.onlyDecoders_updDec ..) (.refl s)

theorem State.onlyDecoders_feedDecoders (s : State) (p : Pipe) : OnlyDecoders s (s.feedDecoders p) := by
  unfold feedDecoders
  exact s.onlyDecoders_updDec ..

/-- Free units have taken blocks: a unit that has one keeps it, and no decoded band is lost. -/
structure BandsTaken (d e : Decoders) : Prop where
  jobs : ∀ (i : Fin 16) (j : DecodeJob), d.jobs[i] = some j → e.jobs[i] = some j
  held : e.held = d.held

theorem BandsTaken.refl (d : Decoders) : BandsTaken d d := ⟨fun _ _ => id, rfl⟩

theorem BandsTaken.trans {d e f : Decoders} (h₁ : BandsTaken d e) (h₂ : BandsTaken e f) : BandsTaken d f :=
  ⟨fun i j hj => h₂.jobs i j (h₁.jobs i j hj), h₂.held.trans h₁.held⟩

theorem BandsTaken.foldl {α : Type} {f : Decoders → α → Decoders} (h : ∀ d a, BandsTaken d (f d a)) (l : List α) (d : Decoders) :
    BandsTaken d (l.foldl f d) := by
  induction l generalizing d with
  | nil => exact .refl d
  | cons a l ih => exact (h d a).trans (ih _)

theorem Decoders.bandsTaken_start {d : Decoders} {units : BitVec 16} {failed : Option (Fin 16)} {u : Fin 16}
    (h : d.free units failed = some u) (b : Band) (first : Option (Fin 16)) : BandsTaken d (d.start u b first) := by
  have hfree := List.find?_some h
  simp only [Bool.and_eq_true, Option.isNone_iff_eq_none] at hfree
  exact ⟨fun i j => getElem_set_of_none hfree.1.2 _, rfl⟩

theorem Decoders.bandsTaken_take (units : BitVec 16) (d : Decoders) (b : Band) : BandsTaken d (d.take units b) := by
  unfold take
  split
  next u hfree => exact bandsTaken_start hfree ..
  next => exact .refl d

theorem Decoders.bandsTaken_passOn (units : BitVec 16) (d : Decoders) (h : Band × Fin 16) : BandsTaken d (d.passOn units h) := by
  unfold passOn
  split
  next u hfree =>
    have hstart := bandsTaken_start hfree h.1 (some h.2)
    exact ⟨hstart.jobs, hstart.held⟩
  next => exact .refl d

theorem State.bandsTaken_feedDecoders (s : State) (p : Pipe) : BandsTaken (s.codec.dec p) ((s.feedDecoders p).codec.dec p) := by
  rw [feedDecoders, dec_updDec]
  exact (BandsTaken.foldl (fun d => d.bandsTaken_passOn _) _ _).trans (.foldl (fun d => d.bandsTaken_take _) _ _)

/-! ### What the decoders' work alone leaves -/

section Only

variable {s u : State} (h : OnlyDecoders s u)
include h

theorem OnlyDecoders.units (p : Pipe) : u.codec.units p = s.codec.units p := by
  rw [h]
  cases p <;> rfl

theorem OnlyDecoders.posts_before {w : State} {codes : List (BitVec 16)} (hp : Claims.Posts u w codes) : Claims.Posts s w codes := by
  rw [h] at hp
  exact hp

theorem OnlyDecoders.posts_after {r : State} {codes : List (BitVec 16)} (hp : Claims.Posts r s codes) : Claims.Posts r u codes := by
  rw [h]
  exact hp

theorem OnlyDecoders.hamper : u.hamper = s.hamper := by rw [h]

theorem OnlyDecoders.mbx : u.mbx = s.mbx := by rw [h]

theorem OnlyDecoders.fsv : u.fsv = s.fsv := by rw [h]

theorem OnlyDecoders.aon : u.aon = s.aon := by rw [h]

theorem OnlyDecoders.free : u.free = s.free := by rw [h]

theorem OnlyDecoders.miu : u.miu = s.miu := by rw [h]

theorem OnlyDecoders.decTransient : u.codec.decTransient = s.codec.decTransient := by rw [h]

theorem OnlyDecoders.decLasting : u.codec.decLasting = s.codec.decLasting := by rw [h]

theorem OnlyDecoders.damaged : u.codec.damaged = s.codec.damaged := by rw [h]

end Only

/-- What a row's engines need does not depend on the decoders' work, nor on the memory unit and what it has told. -/
theorem State.needs_congr {s u : State} (h : u = { s with codec := u.codec, miu := u.miu, fsv := u.fsv }) (p : Pipe) (r : Fin 16) :
    u.needs p r = s.needs p r := by
  rw [h]
  rfl

/-! ### BLOCK_DECODE: what one attempt leads to (R246 to R248) -/

theorem Codec.units_isolate (c : Codec) (p : Pipe) (u : Fin 16) : (c.isolate p u).units p = c.units p &&& ~~~(1#16 <<< u.val) := by
  cases p <;> rfl

theorem State.units_lastUnit (s : State) (p : Pipe) (u : Fin 16) :
    (s.lastUnit p u).codec.units p = s.codec.units p &&& ~~~(1#16 <<< u.val) :=
  ((s.isolate p u).onlyDecoders_updDec ..).units p |>.trans (s.codec.units_isolate p u)

/-- The fault supervisor is told to stop the job. -/
theorem State.lastUnit_told (s : State) (p : Pipe) (u : Fin 16) : let w := s.lastUnit p u
    w.codec.decLasting = s.codec.decLasting ∧ w.mbx = s.mbx ∧ w.hamper = s.hamper ∧
      w.fsv.inbox = s.fsv.inbox ++ [.detect (codecDetect (pipeKind p) u.val .detected true) s.aon] := by
  cases p <;> exact ⟨rfl, rfl, rfl, rfl⟩

/-- A unit ends an attempt on a sound block: it succeeds, or fails with an error code that the spec leaves open. -/
theorem State.decodeEnd_of_sound {s : State} {j : DecodeJob} {x : Tile} {b : Blk}
    (hx : s.hamper.tiles.find? (fun y => y.id = j.band.tile) = some x) (hb : x.blocks[j.band.blk]? = some b) (hgood : b.damaged = false)
    (hraw : b.raw.isSome = true) (hread : s.readFails b.addr b.size = false) (p : Pipe) (u : Fin 16) (fail : Bool) :
    s.decodeEnd p u j fail = if fail then s.draw.decodeFailed p u j x (Config.decodeError s.free)
      else (s.readSingles .cdx b.addr b.size).decoded p u j := by
  have herror : s.decodeError b fail = if fail then some (Config.decodeError s.free) else none := by
    rw [decodeError, if_neg (Bool.not_eq_true _ ▸ hread), if_neg (by simp [Option.isSome_iff_ne_none.1 hraw])]
  simp only [decodeEnd, hx, hb, hgood, Bool.false_eq_true, if_false, poisonRead_of_sound hread, herror]
  cases fail <;> rfl

section Attempt

variable (s : State) (p : Pipe) (u : Fin 16) (j : DecodeJob) (x : Tile) (err : Byte)

theorem State.mem_held_hold (b : Band) (hneeded : (s.needs p b.row).contains b = true) : b ∈ ((s.hold p b).codec.dec p).held := by
  rw [hold, if_pos hneeded, dec_updDec]
  exact List.mem_append_right _ List.mem_cons_self

theorem State.decoded_clean (hfirst : j.first = none) (hnone : j.failed = none) :
    s.decoded p u j = (s.unitFree p u).hold p j.band := by
  simp only [decoded, hfirst, hnone]

/-- A success after a failure on the same unit: a transient fault, which is reported. -/
theorem State.decoded_again (hfirst : j.first = none) (hfailed : j.failed.isSome = true) : let w := s.decoded p u j
    w.codec.decTransient = satAdd s.codec.decTransient 1 ∧ Claims.Posts s w [0x0290] := by
  obtain ⟨e, he⟩ := Option.isSome_iff_exists.1 hfailed
  have honly := (s.onlyDecoders_unitFree p u).trans (onlyDecoders_hold _ p j.band)
  simp only [decoded, hfirst, he]
  exact ⟨congrArg (satAdd · 1) honly.decTransient, posts_of_mbx honly.mbx List.map_append⟩

/-- A success on a second unit isolates the first. -/
theorem State.decoded_elsewhere {f : Fin 16} (hfirst : j.first = some f) :
    ((s.decoded p u j).codec.units p).getLsbD f.val = false := by
  have hisolated (t : State) : ((t.isolate p f).codec.units p).getLsbD f.val = false := by
    rw [isolate, Codec.units_isolate]
    exact getLsbD_and_not_bit ..
  simp only [decoded, hfirst]
  split
  · rw [units_lastUnit, BitVec.getLsbD_and]
    exact (congrArg (· && _) (hisolated _)).trans (Bool.false_and _)
  · exact hisolated _

theorem State.decodeFailed_first (hfirst : j.first = none) (hnone : j.failed = none) :
    s.decodeFailed p u j x err = s.updDec p (fun d => { d with jobs := d.jobs.set u (some { j with failed := some err }) }) := by
  simp only [decodeFailed, hfirst, hnone, Option.isNone_none, if_true]

/-- A second failure on a unit is lasting and reported; on the only unit in service it stops the job. -/
theorem State.decodeFailed_again (hfirst : j.first = none) (hfailed : j.failed.isSome = true) : let w := s.decodeFailed p u j x err
    w.codec.decLasting = satAdd s.codec.decLasting 1 ∧ Claims.Posts s w [0x0290] ∧ w.hamper = s.hamper ∧
      (s.codec.units p = 1#16 <<< u.val → w.codec.units p = 0 ∧ ∃ d, Claims.Tells s w [.detect d s.aon] ∧ d.stops = true) := by
  have hnot : ¬ j.failed.isNone = true := by simp [Option.isSome_iff_ne_none.1 hfailed]
  have honly := s.onlyDecoders_unitFree p u
  simp only [decodeFailed, hfirst, if_neg hnot]
  let c : Codec := { (s.unitFree p u).codec with decLasting := satAdd s.codec.decLasting 1 }
  generalize ht : ({ s.unitFree p u with codec := c } : State).bandFault p u clsLasting err j.band = t
  have hposts : Claims.Posts s t [0x0290] := ht ▸ posts_of_mbx honly.mbx List.map_append
  have hlasting : t.codec.decLasting = satAdd s.codec.decLasting 1 := by rw [← ht]; rfl
  have hunits : t.codec.units p = s.codec.units p := by
    rw [← honly.units p, ← ht]
    cases p <;> rfl
  have hkept : t.hamper = s.hamper ∧ t.fsv = s.fsv ∧ t.aon = s.aon := ht ▸ ⟨honly.hamper, honly.fsv, honly.aon⟩
  obtain ⟨hthamper, htfsv, htaon⟩ := hkept
  split
  next honlyUnit =>
    obtain ⟨hcodec, hlmbx, hlhamper, hinbox⟩ := t.lastUnit_told p u
    refine ⟨hcodec.trans hlasting, ?_, hlhamper.trans hthamper, fun _ => ⟨?_, codecDetect (pipeKind p) u.val .detected true, ?_, rfl⟩⟩
    · rw [Claims.Posts, hlmbx]
      exact hposts
    · rw [units_lastUnit, hunits, honlyUnit, BitVec.and_not_self]
    · rw [Claims.Tells, hinbox, htfsv, htaon]
  next hmore =>
    have hpassed := t.onlyDecoders_updDec p (fun d => { d with handover := d.handover ++ [(j.band, u)] })
    exact ⟨hpassed.decLasting.trans hlasting, hpassed.posts_after hposts, hpassed.hamper.trans hthamper, fun h => absurd h hmore⟩

/-- A failure on a second unit too: the block is damaged. -/
theorem State.decodeFailed_elsewhere {f : Fin 16} (hfirst : j.first = some f) : let w := s.decodeFailed p u j x err
    w.codec.damaged = satAdd s.codec.damaged 1 ∧ w.codec.units p = s.codec.units p ∧ Claims.Posts s w [0x0291] := by
  have honly := s.onlyDecoders_unitFree p u
  simp only [decodeFailed, hfirst]
  refine ⟨congrArg (satAdd · 1) honly.damaged, ?_, posts_of_mbx honly.mbx List.map_append⟩
  rw [← honly.units p]
  cases p <;> rfl

end Attempt

/-! ### BLOCK_DECODE -/

theorem exec_blockDecode_none (p : Pipe) (i : Fin 16) (fail : Bool) (t : Nat) (s : State) : let v := (s.at t).feedDecoders p
    (v.codec.dec p).jobs[i] = none → exec (.blockDecode p i fail t) s = .next v := by
  intro v hnone
  change execBlockDecode p i fail t s = _
  simp only [execBlockDecode]
  rw [show (s.at t).feedDecoders p = v from rfl, hnone]

theorem exec_blockDecode_some {p : Pipe} {i : Fin 16} {t : Nat} {s : State} {j : DecodeJob}
    (hj : (((s.at t).feedDecoders p).codec.dec p).jobs[i] = some j) (fail : Bool) :
    exec (.blockDecode p i fail t) s = .next ((((s.at t).feedDecoders p).decodeEnd p i j fail).feedDecoders p) := by
  change execBlockDecode p i fail t s = _
  simp only [execBlockDecode]
  rw [hj]

section Attempts

variable {s v m : State} {p : Pipe} (hv : OnlyDecoders s v) (i : Fin 16) {j : DecodeJob} (x : Tile) (err : Byte)
include hv

/-- The first attempt of the first unit: done, or remembered as failed. -/
theorem State.attempt_first (hm : MemoryRead v m) (hfirst : j.first = none) (hnone : j.failed = none) :
    let u := (m.decoded p i j).feedDecoders p
    let w := (v.draw.decodeFailed p i j x err).feedDecoders p
    u.codec.decTransient = s.codec.decTransient ∧ u.hamper = s.hamper ∧ Claims.Posts s u [] ∧
      ((v.needs p j.band.row).contains j.band = true → j.band ∈ (u.codec.dec p).held) ∧
      (w.codec.dec p).jobs[i] = some { j with failed := some err } ∧ Claims.Posts s w [] := by
  have hfree := m.onlyDecoders_unitFree p i
  have hgood : OnlyDecoders m ((m.decoded p i j).feedDecoders p) := by
    rw [m.decoded_clean p i j hfirst hnone]
    exact (hfree.trans (onlyDecoders_hold ..)).trans (onlyDecoders_feedDecoders ..)
  have hbad := v.draw.decodeFailed_first p i j x err hfirst hnone
  have hneeds : (m.unitFree p i).needs p j.band.row = v.needs p j.band.row := by
    refine needs_congr ?_ ..
    rw [hfree, hm.eq]
  refine ⟨?_, ?_, ?_, fun hneeded => ?_, ?_, ?_⟩
  · rw [hgood.decTransient, hm.codec, hv.decTransient]
  · rw [hgood.hamper, hm.hamper, hv.hamper]
  · exact hgood.posts_after (hv.posts_before (posts_of_mbx hm.mbx (posts_nil m)))
  · rw [(bandsTaken_feedDecoders ..).held, m.decoded_clean p i j hfirst hnone]
    exact mem_held_hold _ _ _ (hneeds ▸ hneeded)
  · refine (bandsTaken_feedDecoders ..).jobs i _ ?_
    rw [hbad, dec_updDec]
    exact Vector.getElem_set_self i.isLt
  · rw [hbad]
    exact ((onlyDecoders_updDec ..).trans (onlyDecoders_feedDecoders ..)).posts_after (hv.posts_before (posts_nil v))

/-- The second attempt of the first unit. -/
theorem State.attempt_second (hm : MemoryRead v m) (hfirst : j.first = none) (hfailed : j.failed.isSome = true) :
    let u := (m.decoded p i j).feedDecoders p
    let w := (v.draw.decodeFailed p i j x err).feedDecoders p
    u.codec.decTransient = satAdd s.codec.decTransient 1 ∧ Claims.Posts s u [0x0290] ∧
      w.codec.decLasting = satAdd s.codec.decLasting 1 ∧ Claims.Posts s w [0x0290] ∧ w.hamper = s.hamper ∧
      (s.codec.units p = 1#16 <<< i.val → w.codec.units p = 0 ∧ ∃ d, Claims.Tells s w [.detect d s.aon] ∧ d.stops = true) := by
  obtain ⟨htransient, hreported⟩ := m.decoded_again p i j hfirst hfailed
  obtain ⟨hlasting, hlost, hhamper, hlast⟩ := v.draw.decodeFailed_again p i j x err hfirst hfailed
  have hgood := (m.decoded p i j).onlyDecoders_feedDecoders p
  have hbad := (v.draw.decodeFailed p i j x err).onlyDecoders_feedDecoders p
  refine ⟨?_, ?_, ?_, ?_, ?_, fun honlyUnit => ?_⟩
  · rw [hgood.decTransient, htransient, hm.codec, hv.decTransient]
  · exact hgood.posts_after (hv.posts_before (posts_of_mbx hm.mbx hreported))
  · rw [hbad.decLasting, hlasting, draw_codec, hv.decLasting]
  · exact hbad.posts_after (hv.posts_before hlost)
  · rw [hbad.hamper, hhamper, draw_hamper, hv.hamper]
  · obtain ⟨hnoUnit, d, htold, hstops⟩ := hlast ((hv.units p).trans honlyUnit)
    refine ⟨(hbad.units p).trans hnoUnit, d, ?_, hstops⟩
    rw [Claims.Tells, hbad.fsv, htold, draw_fsv, draw_aon, hv.fsv, hv.aon]

/-- An attempt of a second unit. -/
theorem State.attempt_elsewhere {f : Fin 16} (hfirst : j.first = some f) :
    let u := (m.decoded p i j).feedDecoders p
    let w := (v.draw.decodeFailed p i j x err).feedDecoders p
    (u.codec.units p).getLsbD f.val = false ∧ w.codec.damaged = satAdd s.codec.damaged 1 ∧ w.codec.units p = s.codec.units p ∧
      Claims.Posts s w [0x0291] := by
  obtain ⟨hdamaged, hunits, hposts⟩ := v.draw.decodeFailed_elsewhere p i j x err hfirst
  have hgood := (m.decoded p i j).onlyDecoders_feedDecoders p
  have hbad := (v.draw.decodeFailed p i j x err).onlyDecoders_feedDecoders p
  refine ⟨?_, ?_, ?_, hbad.posts_after (hv.posts_before hposts)⟩
  · rw [hgood.units p]
    exact m.decoded_elsewhere p i j hfirst
  · rw [hbad.damaged, hdamaged, draw_codec, hv.damaged]
  · rw [hbad.units p, hunits, draw_codec, hv.units p]

end Attempts

theorem exec_blockDecode_ends (p : Pipe) (i : Fin 16) (t : Nat) (s : State) (j : DecodeJob) (x : Tile) (b : Blk) :
    let v := (s.at t).feedDecoders p
    (v.codec.dec p).jobs[i] = some j → s.hamper.tiles.find? (fun y => y.id = j.band.tile) = some x → x.blocks[j.band.blk]? = some b →
    b.damaged = false → b.raw.isSome = true → s.readFails b.addr b.size = false →
    ∃ u w, exec (.blockDecode p i false t) s = .next u ∧ exec (.blockDecode p i true t) s = .next w ∧
      (j.first = none → j.failed = none → u.codec.decTransient = s.codec.decTransient ∧ u.hamper = s.hamper ∧ Claims.Posts s u [] ∧
        ((v.needs p j.band.row).contains j.band = true → j.band ∈ (u.codec.dec p).held) ∧
        (w.codec.dec p).jobs[i] = some { j with failed := some (Config.decodeError s.free) } ∧ Claims.Posts s w []) ∧
      (j.first = none → j.failed.isSome = true → u.codec.decTransient = satAdd s.codec.decTransient 1 ∧ Claims.Posts s u [0x0290] ∧
        w.codec.decLasting = satAdd s.codec.decLasting 1 ∧ Claims.Posts s w [0x0290] ∧ w.hamper = s.hamper ∧
        (s.codec.units p = 1#16 <<< i.val → w.codec.units p = 0 ∧ ∃ d, Claims.Tells s w [.detect d (max s.aon t)] ∧ d.stops = true)) ∧
      (∀ f, j.first = some f → (u.codec.units p).getLsbD f.val = false ∧ w.codec.damaged = satAdd s.codec.damaged 1 ∧
        w.codec.units p = s.codec.units p ∧ Claims.Posts s w [0x0291]) := by
  intro v hj hx hb hgood hraw hread
  have hv : OnlyDecoders (s.at t) v := (s.at t).onlyDecoders_feedDecoders p
  let err := Config.decodeError s.free
  have hm := v.memoryRead_readSingles .cdx b.addr b.size
  have hrun (fail : Bool) : exec (.blockDecode p i fail t) s = .next ((if fail then v.draw.decodeFailed p i j x err
      else (v.readSingles .cdx b.addr b.size).decoded p i j).feedDecoders p) := by
    rw [exec_blockDecode_some hj, State.decodeEnd_of_sound (x := x) (b := b) (by rw [hv.hamper]; exact hx) hb hgood hraw
      (by rw [State.readFails, hv.miu]; exact hread), hv.free]
    rfl
  exact ⟨_, _, hrun false, hrun true, State.attempt_first hv i x err hm, State.attempt_second hv i x err hm,
    fun f => State.attempt_elsewhere hv i x err⟩

/-- Settles O45: what the decoders' and the compressors' hand-over leaves, and then each attempt of a unit. -/
theorem codecCompletes : Obligations.CodecCompletes :=
  ⟨exec_codecConfig_sets, exec_codecStatus_answers, exec_codecCheck_queues, exec_cdxCheckDone_reports, exec_blockDecode_none,
    exec_blockDecode_ends, exec_compressorVerify_none, exec_compressorVerify_ends⟩

end Sys2Proof.Machine
end

section
/-! PROOF. Device memory reads back what is written, starts out canonical (11 R257; 19 R479; 20 R514), and is written for a capture that
has ended (11 R270): O4, O8, O57. -/

namespace Sys2Proof.Machine

/-- Settles O4: memory is empty right after power-on. -/
theorem resetMemoryIsCanonical : Obligations.ResetMemoryIsCanonical := by
  unfold Obligations.ResetMemoryIsCanonical Safety.MemoryCanonical
  rw [State.reset_mem, Memory.wf]

/-- Settles O8 by the laws of a write: what it reads back, what lies outside it, and its form. -/
theorem memoryReadsBackWhatIsWritten : Obligations.MemoryReadsBackWhatIsWritten :=
  fun _ _ _ hwf => ⟨State.memRead_memWrite_self hwf, fun _ => State.memWrite_get_ne, State.memWrite_wf hwf⟩

/-! ### A pulse withdrawn after its capture has ended -/

def announcedPulse : Pulse := { line := 0, ts := 0, emitted := false, faulty := false, judged := false }

/-- Line 0 of row 0 is announced, FIRE_INHIBIT holds, and the capture of that one line has ended with its record. -/
def capturedAndInhibited : State :=
  { State.reset with
    rows := upd State.reset.rows 0 (fun x => { x with pulses := [announcedPulse] })
    job := { State.reset.job with fireInhibit := true }
    hamper := { State.reset.hamper with
      ended := some { origin := none, row := 0, first := 0, count := 1, dst := zoneBase, written := 1, active := true } } }

theorem exec_inhibitTest_withdraws {r : Fin 16} {t : Nat} {s : State} {p : Pulse} (hnext : (s.rows[r]).nextPulse = some p)
    (hinhibit : s.job.fireInhibit = true) (hdue : p.ts ≤ (s.at t).halfNs + 100) :
    exec (.inhibitTest r t) s = .next ((s.at t).cancelPulse r p 0x0C) := by
  change execInhibitTest r t s = _
  simp only [execInhibitTest, State.at_rows, hnext, State.at_job, hinhibit, hdue, decide_true, Bool.and_self, if_true]

/-- The ended capture's record turns INHIBITED: its status byte becomes 2. -/
theorem cancelPulse_capturedAndInhibited_status :
    Memory.get ((capturedAndInhibited.at 0).cancelPulse 0 announcedPulse 0x0C).mem (zoneBase + 12) = 2 := by
  decide +kernel

/-- Refutes O57 in its second clause: `ended` remembers a capture past its end, and INHIBIT_TEST, withdrawing the pulse of its last
line, still turns that line's record INHIBITED while no capture waits or runs. -/
theorem not_onlyItsWritersChangeMemory : ¬ Obligations.OnlyItsWritersChangeMemory := by
  unfold Obligations.OnlyItsWritersChangeMemory
  rintro ⟨_, hnocapture, _⟩
  have hrun : exec (.inhibitTest 0 0) capturedAndInhibited = .next ((capturedAndInhibited.at 0).cancelPulse 0 announcedPulse 0x0C) :=
    exec_inhibitTest_withdraws rfl rfl (Nat.zero_le _)
  have hkept := hnocapture _ _ _ rfl rfl hrun
  have hstatus := cancelPulse_capturedAndInhibited_status
  rw [hkept] at hstatus
  exact absurd hstatus (by decide)

end Sys2Proof.Machine
end

section
/-! PROOF. What leaves device memory alone, part one: the operations that chapters share (02, 08, 10 to 15, 17, 18, 20, 21, 24). Of all that a
state's operations do, only a write of bytes, a capture's record and the loss of power touch it; every other has one law here, from the laws of the
updates it is made of. Where an operation folds updates over a list, `simp -implicitDefEqProofs` proves the fold's side condition: a law that holds
by `rfl` then leaves a proof behind. -/

namespace Sys2Proof.Machine

/-! ### Outputs, chain messages and replies (15, 17) -/

@[simp] theorem State.wrote_mem (s : State) (a n : Nat) : (s.wrote a n).mem = s.mem := by simp [State.wrote]
@[simp] theorem State.sleepOut_mem (s : State) (l : Fin 34) : (s.sleepOut l).mem = s.mem := by simp [State.sleepOut]

@[simp] theorem State.laneInsert_mem (s : State) (l : Fin 34) (before : Nat) (b : Bool × BitVec 64) :
    (s.laneInsert l before b).mem = s.mem := by
  simp [State.laneInsert]

@[simp] theorem State.sleepDir_mem (s : State) (side : Side) : (s.sleepDir side).mem = s.mem := by simp [State.sleepDir]

@[simp] theorem State.chainBroadcast_mem (s : State) (mtype : Byte) (body : List Byte) : (s.chainBroadcast mtype body).mem = s.mem := by
  simp [State.chainBroadcast]

/-! ### A request and its reply (17) -/

@[simp] theorem State.reply_mem (s : State) (q : Req) (opcode : Nat) (st : Status) (detail : Nat) (payload : List Byte) (pending : Bool) :
    (s.reply q opcode st detail payload pending).mem = s.mem := by
  simp [State.reply]

@[simp] theorem State.start_mem (s : State) (q : Req) (opcode : Nat) : (s.start q opcode).mem = s.mem := by simp [State.start]

@[simp] theorem State.answerLater_mem (s : State) (r : Result) (x : Outstanding) : (s.answerLater r x).mem = s.mem := by
  simp [State.answerLater]

/-! ### The fault supervisor (24) -/

@[simp] theorem State.logFault_mem (s : State) (d : Detect) (time : Nat) (count : BitVec 32) (ref : Nat) :
    (s.logFault d time count ref).mem = s.mem := by
  simp [State.logFault]

@[simp] theorem State.logConsequences_mem (s : State) (ref : Nat) (l : List (Detect × Nat)) : (s.logConsequences ref l).mem = s.mem := by
  induction l generalizing s with
  | nil => rfl
  | cons c l ih => simp [State.logConsequences, ih]

@[simp] theorem State.fsvDetect_mem (s : State) (d : Detect) (time : Nat) : (s.fsvDetect d time).mem = s.mem := by
  unfold State.fsvDetect
  (repeat' split) <;> simp

@[simp] theorem State.takeRange_mem (s : State) (w : WasteRange) (len : Int) : (s.takeRange w len).mem = s.mem := by simp [State.takeRange]

@[simp] theorem State.wasteOut_mem (s : State) (cause : Byte) (first last : Int) : (s.wasteOut cause first last).mem = s.mem := by
  simp [State.wasteOut]

@[simp] theorem State.fsvMark_mem (s : State) (row : Fin 16) (first last : Nat) (cause : Byte) :
    (s.fsvMark row first last cause).mem = s.mem := by
  simp [State.fsvMark]

@[simp] theorem State.logRange_mem (s : State) (w : WasteRange) : (s.logRange w).mem = s.mem := by simp [State.logRange]
@[simp] theorem State.closePassed_mem (s : State) : s.closePassed.mem = s.mem := by simp [State.closePassed]
@[simp] theorem State.closeAll_mem (s : State) : s.closeAll.mem = s.mem := by simp [State.closeAll]

@[simp] theorem State.pourPath_mem (s : State) (half : Fin 32) (line time : Nat) : (s.pourPath half line time).mem = s.mem := by
  simp [State.pourPath]

@[simp] theorem State.fsvItem_mem (s : State) (i : FsvItem) : (s.fsvItem i).mem = s.mem := by
  cases i <;> simp [State.fsvItem]

/-! ### Domains and resets (17, 21) -/

@[simp] theorem State.hostDomainReset_mem (s : State) : s.hostDomainReset.mem = s.mem := by simp [State.hostDomainReset]
@[simp] theorem State.lanesOff_mem (s : State) (lo hi : Nat) : (s.lanesOff lo hi).mem = s.mem := by simp [State.lanesOff]
@[simp] theorem State.afterReset_mem (s : State) : s.afterReset.mem = s.mem := by simp [State.afterReset]
@[simp] theorem State.resetNotice_mem (s : State) (cause : Byte) : (s.resetNotice cause).mem = s.mem := by simp [State.resetNotice]
@[simp] theorem State.moduleReset_mem (s : State) (cause : Byte) : (s.moduleReset cause).mem = s.mem := by simp [State.moduleReset]
@[simp] theorem State.internalReplies_mem (s : State) (m : Fin 8) : (s.internalReplies m).mem = s.mem := by simp [State.internalReplies]
@[simp] theorem State.kettleRestart_mem (s : State) : s.kettleRestart.mem = s.mem := by simp [State.kettleRestart]
@[simp] theorem State.kettleBack_mem (s : State) : s.kettleBack.mem = s.mem := by simp [State.kettleBack]

/-! ### The page store (11) -/

@[simp] theorem State.autoFree_mem (before s : State) : (before.autoFree s).mem = s.mem := by
  unfold State.autoFree
  refine foldl_mem _ _ _ fun s t => ?_
  split <;> simp

@[simp] theorem State.freeList_mem (s : State) (handle : Nat) : (s.freeList handle).mem = s.mem := by simp [State.freeList]
@[simp] theorem State.retireBindings_mem (s : State) : s.retireBindings.mem = s.mem := by simp [State.retireBindings]

/-! ### Memory errors (20) -/

@[simp] theorem State.raisePanic_mem (s : State) (r : Fin 16) : (s.raisePanic r).mem = s.mem := by
  unfold State.raisePanic
  split <;> simp

@[simp] theorem State.clearPanic_mem (s : State) : s.clearPanic.mem = s.mem := by
  unfold State.clearPanic
  split <;> simp

@[simp] theorem State.panicEval_mem (s : State) : s.panicEval.mem = s.mem := by
  unfold State.panicEval
  (repeat' split) <;> simp

@[simp] theorem State.poisonRead_mem (s : State) (reader a n : Nat) (last : Bool) : (s.poisonRead reader a n last).mem = s.mem := by
  unfold State.poisonRead
  split <;> simp

@[simp] theorem State.dramSingle_mem (s : State) (addr : Nat) (bit : Fin 72) (again : Bool) (reader : MemReader) :
    (s.dramSingle addr bit again reader).mem = s.mem := by
  simp [State.dramSingle]

@[simp] theorem State.readSingles_mem (s : State) (reader : MemReader) (a n : Nat) : (s.readSingles reader a n).mem = s.mem := by
  simp [State.readSingles]

@[simp] theorem State.ringWrote_mem (s : State) (r : Fin 16) (n : Nat) : (s.ringWrote r n).mem = s.mem := by simp [State.ringWrote]

@[simp] theorem State.poisonCheckpoint_mem (s : State) (addr : Nat) : (s.poisonCheckpoint addr).mem = s.mem := by
  simp [State.poisonCheckpoint]

@[simp] theorem State.poisonLasting_mem (s : State) (addr : Nat) (reader : MemReader) : (s.poisonLasting addr reader).mem = s.mem := by
  unfold State.poisonLasting
  (repeat' split) <;> simp

@[simp] theorem State.dramDouble_mem (s : State) (addr : Nat) (again : Bool) (reader : MemReader) :
    (s.dramDouble addr again reader).mem = s.mem := by
  simp [State.dramDouble]

@[simp] theorem State.sramSingle_mem (s : State) (arr : SramArray) (addr : Nat) (again : Bool) (inj : Bool) :
    (s.sramSingle arr addr again inj).mem = s.mem := by
  simp [State.sramSingle]

@[simp] theorem State.sramDouble_mem (s : State) (arr : SramArray) (addr : Nat) (again : Bool) (inj : Bool) :
    (s.sramDouble arr addr again inj).mem = s.mem := by
  unfold State.sramDouble
  split <;> simp

/-! ### Lanes and connectors (12, 13) -/

@[simp] theorem State.beginConn_mem (s : State) (c : Fin 4) : (s.beginConn c).mem = s.mem := by simp -implicitDefEqProofs [State.beginConn]
@[simp] theorem State.wakeConn_mem (s : State) (c : Fin 4) : (s.wakeConn c).mem = s.mem := by simp [State.wakeConn]

@[simp] theorem State.linkPost_mem (s : State) (c : Fin 4) (st : Status) (code stage cause : Nat) :
    (s.linkPost c st code stage cause).mem = s.mem := by
  simp [State.linkPost]

@[simp] theorem State.laneEvent_mem (s : State) (l : Fin 32) (cause : BitVec 4) (cls : Nat) : (s.laneEvent l cause cls).mem = s.mem := by
  simp [State.laneEvent]

@[simp] theorem State.enterSleep_mem (s : State) (c : Fin 4) (o : Option Origin) : (s.enterSleep c o).mem = s.mem := by
  simp [State.enterSleep]

@[simp] theorem State.sleepAnswer_mem (st : Status) (s : State) (o : Origin) : (State.sleepAnswer st s o).mem = s.mem := by
  simp [State.sleepAnswer]

@[simp] theorem State.entryOver_mem (s : State) (c : Fin 4) (st : Status) : (s.entryOver c st).mem = s.mem := by simp [State.entryOver]
@[simp] theorem State.resetConn_mem (s : State) (c : Fin 4) : (s.resetConn c).mem = s.mem := by simp -implicitDefEqProofs [State.resetConn]

@[simp] theorem State.endTest_mem (s : State) (reason : Nat) : (s.endTest reason).mem = s.mem := by
  unfold State.endTest
  split <;> simp

@[simp] theorem State.insertNotice_mem (s : State) (h : Fin 32) (b : Bool × BitVec 64) : (s.insertNotice h b).mem = s.mem := by
  simp [State.insertNotice]

@[simp] theorem State.notice_mem (s : State) (r : Fin 16) (line : Nat) (kind : Byte) : (s.notice r line kind).mem = s.mem := by
  simp [State.notice]

@[simp] theorem State.withholdSent_mem (s : State) (r : Fin 16) (n : Nat) (reason cause : Byte) :
    (s.withholdSent r n reason cause).mem = s.mem := by
  simp -implicitDefEqProofs [State.withholdSent]

@[simp] theorem State.withholdPoured_mem (s : State) (r : Fin 16) : (s.withholdPoured r).mem = s.mem := by simp [State.withholdPoured]

@[simp] theorem State.withholdPour_mem (s : State) (r : Fin 16) (n : Nat) (reason cause : Byte) :
    (s.withholdPour r n reason cause).mem = s.mem := by
  simp -implicitDefEqProofs [State.withholdPour]

@[simp] theorem State.queueFlush_mem (s : State) (c : Fin 4) (reason : Byte) : (s.queueFlush c reason).mem = s.mem := by
  simp -implicitDefEqProofs [State.queueFlush]

/-! ### Messages of chain transactions (08) -/

@[simp] theorem State.chainAddressed_mem (s : State) (mtype : Byte) (src dst : Nat) (body : List Byte) :
    (s.chainAddressed mtype src dst body).mem = s.mem := by
  simp [State.chainAddressed]

@[simp] theorem State.txnAsk_mem (s : State) : s.txnAsk.mem = s.mem := by
  unfold State.txnAsk
  split <;> simp

@[simp] theorem State.txnResolve_mem (s : State) : s.txnResolve.mem = s.mem := by
  unfold State.txnResolve
  split <;> simp

@[simp] theorem State.txnPeerReset_mem (s : State) (a : Fin 16) : (s.txnPeerReset a).mem = s.mem := by
  unfold State.txnPeerReset
  split <;> simp

/-! ### Web position (02) -/

@[simp] theorem State.armLsd_mem (s : State) : s.armLsd.mem = s.mem := by simp [State.armLsd]
@[simp] theorem State.release_mem (s : State) (d : Fin 12) : (s.release d).mem = s.mem := by simp [State.release]
@[simp] theorem State.speedEval_mem (s : State) : s.speedEval.mem = s.mem := by simp [State.speedEval]

@[simp] theorem State.reverseOpenRow_mem (s : State) (r : Fin 16) : (s.reverseOpenRow r).mem = s.mem := by
  unfold State.reverseOpenRow
  dsimp only
  (repeat' split) <;> simp

@[simp] theorem State.reverseEvent_mem (s : State) (tick : Nat) : (s.reverseEvent tick).mem = s.mem := by simp [State.reverseEvent]
@[simp] theorem State.motionEval_mem (s : State) (tick : Nat) : (s.motionEval tick).mem = s.mem := by simp [State.motionEval]
@[simp] theorem State.takeEdge_mem (s : State) (e : Edge) : (s.takeEdge e).mem = s.mem := by simp [State.takeEdge]
@[simp] theorem State.webSettle_mem (s : State) : s.webSettle.mem = s.mem := by simp [State.webSettle]

/-! ### The chain (15) -/

@[simp] theorem State.slewTo_mem (s : State) (target : Int) : (s.slewTo target).mem = s.mem := by simp [State.slewTo]
@[simp] theorem State.stepTime_mem (s : State) : s.stepTime.mem = s.mem := by simp [State.stepTime]
@[simp] theorem State.postMode_mem (s : State) : s.postMode.mem = s.mem := by simp [State.postMode]

@[simp] theorem State.enumEvent_mem (s : State) (cause : Nat) (o : Option Origin) (st : Status) : (s.enumEvent cause o st).mem = s.mem := by
  simp [State.enumEvent]

@[simp] theorem State.sendEnum_mem (s : State) (second : Bool) : (s.sendEnum second).mem = s.mem := by simp [State.sendEnum]
@[simp] theorem State.askRejoin_mem (s : State) (side : Side) : (s.askRejoin side).mem = s.mem := by simp [State.askRejoin]

@[simp] theorem State.rejoinDecide_mem (s : State) : s.rejoinDecide.mem = s.mem := by
  unfold State.rejoinDecide
  split <;> simp

@[simp] theorem State.hopEvent_mem (s : State) (side : Side) (cause : BitVec 4) (cls : Nat) : (s.hopEvent side cause cls).mem = s.mem := by
  simp [State.hopEvent]

@[simp] theorem State.linkAnswer_mem (s : State) : s.linkAnswer.mem = s.mem := by
  unfold State.linkAnswer
  split <;> simp

@[simp] theorem State.hopActive_mem (s : State) (side : Side) : (s.hopActive side).mem = s.mem := by simp [State.hopActive]

@[simp] theorem State.peerInReset_mem (s : State) (a : Fin 16) (cause : Byte) : (s.peerInReset a cause).mem = s.mem := by
  simp [State.peerInReset]

@[simp] theorem State.peerSleeps_mem (s : State) (side : Side) : (s.peerSleeps side).mem = s.mem := by simp [State.peerSleeps]
@[simp] theorem State.peerWakes_mem (s : State) (side : Side) : (s.peerWakes side).mem = s.mem := by simp [State.peerWakes]

@[simp] theorem State.loseHop_mem (s : State) (side : Side) (cause : BitVec 4) : (s.loseHop side cause).mem = s.mem := by
  unfold State.loseHop
  (repeat' split) <;> simp

@[simp] theorem State.wakeChain_mem (s : State) : s.wakeChain.mem = s.mem := by simp [State.wakeChain]
@[simp] theorem State.startChain_mem (s : State) (rejoining : Bool) : (s.startChain rejoining).mem = s.mem := by simp [State.startChain]
@[simp] theorem State.ackChain_mem (s : State) (h : ChainHdr) : (s.ackChain h).mem = s.mem := by simp [State.ackChain]

@[simp] theorem State.passOn_mem (s : State) (h : ChainHdr) (mtype : Byte) (body : List Byte) : (s.passOn h mtype body).mem = s.mem := by
  simp [State.passOn]

@[simp] theorem State.storeRef_mem (s : State) (b : Beacon) (own : BeaconSlot) : (s.storeRef b own).mem = s.mem := by simp [State.storeRef]

@[simp] theorem State.crossCheck_mem (s : State) (b : Beacon) (own : BeaconSlot) : (s.crossCheck b own).mem = s.mem := by
  simp [State.crossCheck]

@[simp] theorem State.geomCheck_mem (s : State) (b : Beacon) (own : BeaconSlot) : (s.geomCheck b own).mem = s.mem := by
  unfold State.geomCheck
  refine foldl_mem _ _ _ fun s i => ?_
  split
  · rfl
  · simp

@[simp] theorem State.peersBack_mem (s : State) (b : Beacon) : (s.peersBack b).mem = s.mem := by simp [State.peersBack]

@[simp] theorem State.readBeacon_mem (s : State) (b : Beacon) : (s.readBeacon b).mem = s.mem := by
  unfold State.readBeacon
  dsimp only
  (repeat' split) <;> simp

@[simp] theorem State.sendBeacon_mem (s : State) (b : Beacon) : (s.sendBeacon b).mem = s.mem := by simp [State.sendBeacon]
@[simp] theorem State.lapDone_mem (s : State) (b : Beacon) : (s.lapDone b).mem = s.mem := by simp [State.lapDone]

/-! ### Clock domains and boot (21, 22) -/

@[simp] theorem State.fioTake_mem (s : State) : s.fioTake.mem = s.mem := by
  unfold State.fioTake
  split <;> simp

@[simp] theorem State.setClock_mem (s : State) (d : Fin 13) (clock : Nat) (forced : Bool) : (s.setClock d clock forced).mem = s.mem := by
  simp [State.setClock]

@[simp] theorem State.nextSwitch_mem (s : State) (d : Fin 13) : (s.nextSwitch d).mem = s.mem := by
  unfold State.nextSwitch
  dsimp only
  (repeat' split) <;> simp

@[simp] theorem State.gate_mem (s : State) (d : Fin 13) : (s.gate d).mem = s.mem := by simp [State.gate]

@[simp] theorem State.clkTransient_mem (s : State) (source : Nat) (domains : List (Fin 13)) :
    (s.clkTransient source domains).mem = s.mem := by
  simp [State.clkTransient]

@[simp] theorem State.lateEvent_mem (s : State) (code : BitVec 16) (cls : Fin 4) (data : List DataField) :
    (s.lateEvent code cls data).mem = s.mem := by
  simp [State.lateEvent]

/-! ### Clocks (21) -/

@[simp] theorem State.relockAll_mem (s : State) : s.relockAll.mem = s.mem := by simp [State.relockAll]

@[simp] theorem State.crystalReleased_mem (s : State) (x : Crystal) : (s.crystalReleased x).mem = s.mem := by
  unfold State.crystalReleased
  split <;> simp

@[simp] theorem State.crystalFailed_mem (s : State) (x : Crystal) : (s.crystalFailed x).mem = s.mem := by
  unfold State.crystalFailed
  split <;> simp

@[simp] theorem State.timHold_mem (s : State) : s.timHold.mem = s.mem := by simp [State.timHold]
@[simp] theorem State.leavePll_mem (s : State) (p : Fin 8) : (s.leavePll p).mem = s.mem := by simp [State.leavePll]

@[simp] theorem State.pllLost_mem (s : State) (p : Fin 8) : (s.pllLost p).mem = s.mem := by
  unfold State.pllLost
  split <;> simp

@[simp] theorem State.xaLost_mem (s : State) : s.xaLost.mem = s.mem := by simp [State.xaLost]

@[simp] theorem State.sourceLost_mem (s : State) (i : Fin 5) (clock : Nat) (domains : List (Fin 13)) (move : State → State)
    (hmove : ∀ u, (move u).mem = u.mem) : (s.sourceLost i clock domains move).mem = s.mem := by
  unfold State.sourceLost
  (repeat' split) <;> simp [hmove]

@[simp] theorem State.timBack_mem (s : State) (d : Fin 13) : (s.timBack d).mem = s.mem := by
  unfold State.timBack
  dsimp only
  (repeat' split) <;> simp

@[simp] theorem State.forcedFault_mem (s : State) (d : Fin 13) (clock : Nat) : (s.forcedFault d clock).mem = s.mem := by
  simp [State.forcedFault]

@[simp] theorem State.startBoot_mem (s : State) : s.startBoot.mem = s.mem := by simp [State.startBoot]
@[simp] theorem State.kettleFaulted_mem (s : State) (detail : Nat) : (s.kettleFaulted detail).mem = s.mem := by simp [State.kettleFaulted]

/-! ### Head accounting (14) -/

@[simp] theorem State.challenge_mem (s : State) (h : Fin 64) (slot : Fin 8) : (s.challenge h slot).mem = s.mem := by simp [State.challenge]

@[simp] theorem State.startAuth_mem (s : State) (h : Fin 64) : (s.startAuth h).mem = s.mem := by
  unfold State.startAuth
  split <;> simp

@[simp] theorem State.readUsage_mem (s : State) (h : Fin 64) : (s.readUsage h).mem = s.mem := by simp [State.readUsage]
@[simp] theorem State.authRecovered_mem (s : State) (h : Fin 64) : (s.authRecovered h).mem = s.mem := by simp [State.authRecovered]
@[simp] theorem State.sendCommit_mem (s : State) (h : Fin 64) : (s.sendCommit h).mem = s.mem := by simp [State.sendCommit]

@[simp] theorem State.startCommit_mem (s : State) (h : Fin 64) (o : Option Origin) : (s.startCommit h o).mem = s.mem := by
  simp [State.startCommit]

@[simp] theorem State.commitAll_mem (s : State) : s.commitAll.mem = s.mem := by simp [State.commitAll]
@[simp] theorem State.recommit_mem (s : State) (h : Fin 64) : (s.recommit h).mem = s.mem := by simp [State.recommit]
@[simp] theorem State.commitFault_mem (s : State) (h : Fin 64) : (s.commitFault h).mem = s.mem := by simp [State.commitFault]
@[simp] theorem State.authFailed_mem (s : State) (h : Fin 64) : (s.authFailed h).mem = s.mem := by simp [State.authFailed]

@[simp] theorem State.authFault_mem (s : State) (h : Fin 64) (again : State → State) (hagain : ∀ u, (again u).mem = u.mem) :
    (s.authFault h again).mem = s.mem := by
  unfold State.authFault
  split <;> simp [hagain]

@[simp] theorem State.authAnswer_mem (s : State) (h : Fin 64) (p : List Byte) : (s.authAnswer h p).mem = s.mem := by
  unfold State.authAnswer
  split
  · rfl
  · simp -implicitDefEqProofs

@[simp] theorem State.takeBase_mem (s : State) (h : Fin 64) (u : Usage) : (s.takeBase h u).mem = s.mem := by
  simp -implicitDefEqProofs [State.takeBase]

@[simp] theorem State.usageAnswer_mem (s : State) (h : Fin 64) (p : List Byte) : (s.usageAnswer h p).mem = s.mem := by
  simp [State.usageAnswer]

@[simp] theorem State.commitAnswer_mem (s : State) (h : Fin 64) (p : List Byte) : (s.commitAnswer h p).mem = s.mem := by
  simp [State.commitAnswer]

@[simp] theorem State.hmcDrop_mem (s : State) (c : Fin 4) (q : HmcReq) : (s.hmcDrop c q).mem = s.mem := by
  unfold State.hmcDrop
  split <;> simp

@[simp] theorem State.linkLost_mem (s : State) (d : Fin 12) : (s.linkLost d).mem = s.mem := by simp [State.linkLost]

@[simp] theorem State.countsLost_mem (s : State) (h : Fin 64) (lines drops : BitVec 64) : (s.countsLost h lines drops).mem = s.mem := by
  simp [State.countsLost]

@[simp] theorem State.countUsage_mem (s : State) (r : Fin 16) (bytes : List Byte) : (s.countUsage r bytes).mem = s.mem := by
  simp [State.countUsage]

/-! ### The job (18) -/

@[simp] theorem State.retireOlder_mem (s : State) : s.retireOlder.mem = s.mem := by
  unfold State.retireOlder
  split <;> simp

@[simp] theorem State.freeCkpts_mem (s : State) (r : Fin 16) : (s.freeCkpts r).mem = s.mem := by simp [State.freeCkpts]
@[simp] theorem State.retireCheck_mem (s : State) : s.retireCheck.mem = s.mem := by simp [State.retireCheck]
@[simp] theorem State.endRow_mem (s : State) (r : Fin 16) : (s.endRow r).mem = s.mem := by simp [State.endRow]

@[simp] theorem State.jobStopped_mem (s : State) (reason : Byte) (st : Status) (detail : Nat) (fclass : Byte) :
    (s.jobStopped reason st detail fclass).mem = s.mem := by
  simp [State.jobStopped]

@[simp] theorem State.toStopping_mem (s : State) : s.toStopping.mem = s.mem := by simp [State.toStopping]

@[simp] theorem State.incomplete_mem (s : State) (r : Fin 16) (e : Nat) : (s.incomplete r e).mem = s.mem := by
  unfold State.incomplete
  (repeat' split) <;> simp

@[simp] theorem State.rowStop_mem (s : State) (r : Fin 16) (e : Nat) : (s.rowStop r e).mem = s.mem := by simp [State.rowStop]

@[simp] theorem State.stopCheck_mem (s : State) (r : Fin 16) : (s.stopCheck r).mem = s.mem := by
  unfold State.stopCheck
  split <;> simp

@[simp] theorem State.rowIsDone_mem (s : State) (r : Fin 16) (m : Nat) : (s.rowIsDone r m).mem = s.mem := by simp [State.rowIsDone]

@[simp] theorem State.stopNow_mem (s : State) (reason : Byte) (detail : Nat) (fclass : Byte) :
    (s.stopNow reason detail fclass).mem = s.mem := by
  unfold State.stopNow
  split <;> simp

@[simp] theorem State.stopManagement_mem (s : State) (o : Option Origin) : (s.stopManagement o).mem = s.mem := by
  simp [State.stopManagement]

end Sys2Proof.Machine
end

section
/-! PROOF. What leaves device memory alone, part two: the operations of single chapters (02, 07 to 26). -/

namespace Sys2Proof.Machine

/-! ### Fault stops (24) -/

@[simp] theorem State.announceStop_mem (s : State) (w : StopWanted) : (s.announceStop w).mem = s.mem := by simp [State.announceStop]

/-! ### Power and temperature (26) -/

@[simp] theorem State.railMark_mem (s : State) (d : Fin 12) (lasting : Bool) : (s.railMark d lasting).mem = s.mem := by
  simp [State.railMark]

@[simp] theorem State.planRepower_mem (s : State) (d : Fin 12) (due : Option Nat) : (s.planRepower d due).mem = s.mem := by
  simp [State.planRepower]

@[simp] theorem State.armedLoss_mem (s : State) (seq : Nat) : (s.armedLoss seq).mem = s.mem := by simp [State.armedLoss]
@[simp] theorem State.vinSeen_mem (s : State) (mv : Nat) : (s.vinSeen mv).mem = s.mem := by simp [State.vinSeen]
@[simp] theorem State.powerUp_mem (s : State) (d : Fin 12) : (s.powerUp d).mem = s.mem := by simp [State.powerUp]
@[simp] theorem State.repowered_mem (s : State) (d : Fin 12) : (s.repowered d).mem = s.mem := by simp [State.repowered]

@[simp] theorem State.sampleSensor_mem (temps : List Int) (s : State) (i : Fin 20) : (State.sampleSensor temps s i).mem = s.mem := by
  simp [State.sampleSensor]

@[simp] theorem State.groupLevel_mem (s : State) (g : Fin 4) : (s.groupLevel g).mem = s.mem := by simp [State.groupLevel]

/-! ### The compressors (10) -/

@[simp] theorem State.checkResult_mem (s : State) (c : CodecCheck) : (s.checkResult c).mem = s.mem := by
  unfold State.checkResult
  split <;> simp

@[simp] theorem State.cdxFault_mem (s : State) (kind unit cls err : Nat) (tile band block : Nat) :
    (s.cdxFault kind unit cls err tile band block).mem = s.mem := by
  simp [State.cdxFault]

@[simp] theorem State.feedCompressors_mem (s : State) : s.feedCompressors.mem = s.mem := by simp [State.feedCompressors]

@[simp] theorem State.startRaw_mem (s : State) (tile : Nat) (codes : Bool) (w h : Nat) : (s.startRaw tile codes w h).mem = s.mem := by
  simp [State.startRaw]

@[simp] theorem State.endRaw_mem (s : State) (tile : Nat) : (s.endRaw tile).mem = s.mem := by simp [State.endRaw]

@[simp] theorem State.compFault_mem (s : State) (u : Fin 8) (b : CompBlock) (cls : Nat) (o : FaultOutcome) :
    (s.compFault u b cls o).mem = s.mem := by
  simp [State.compFault]

@[simp] theorem State.verifyEnd_mem (s : State) (u : Fin 8) (b : CompBlock) (fail : Bool) : (s.verifyEnd u b fail).mem = s.mem := by
  simp [State.verifyEnd]

/-! ### Stagings (11) -/

@[simp] theorem State.readSource_mem (s : State) (srcHost ns : Bool) (src length : Nat) :
    (s.readSource srcHost ns src length).mem = s.mem := by
  simp [State.readSource]

@[simp] theorem State.beginStaging_mem (s : State) (g : Staging) (ext : List Extent) : (s.beginStaging g ext).mem = s.mem := by
  simp [State.beginStaging]

@[simp] theorem State.swapIn_mem (s : State) (g : Staging) (blocks : List Blk) : (s.swapIn g blocks).mem = s.mem := by simp [State.swapIn]

@[simp] theorem State.stageEnd_mem (s : State) (g : Staging) (p : List Byte) : (s.stageEnd g p).mem = s.mem := by
  unfold State.stageEnd
  (repeat' split) <;> simp

@[simp] theorem State.zoneRead_mem (s : State) (a n : Nat) : (s.zoneRead a n).1.mem = s.mem := by
  unfold State.zoneRead
  split <;> simp

@[simp] theorem State.listEvent_mem (s : State) (g : ListStaging) (st : Status) (detail handle : Nat) :
    (s.listEvent g st detail handle).mem = s.mem := by
  simp [State.listEvent]

@[simp] theorem State.storeList_mem (s : State) (g : ListStaging) (l : PList) : (s.storeList g l).mem = s.mem := by
  unfold State.storeList
  split <;> simp

/-! ### Frames to the heads (13) -/

@[simp] theorem State.pourEvent_mem (s : State) (h : Fin 32) (n : Nat) (mask : BitVec 16) (cls : Nat) (inj : Bool) :
    (s.pourEvent h n mask cls inj).mem = s.mem := by
  simp [State.pourEvent]

@[simp] theorem State.pourCount_mem (s : State) (h : Fin 32) (n : Nat) : (s.pourCount h n).mem = s.mem := by simp [State.pourCount]

@[simp] theorem State.frameLasting_mem (s : State) (l : Fin 32) (n cause : Nat) : (s.frameLasting l n cause).mem = s.mem := by
  simp [State.frameLasting]

@[simp] theorem State.pourLasting_mem (s : State) (h : Fin 32) (n : Nat) (mask : BitVec 16) (inj : Bool) :
    (s.pourLasting h n mask inj).mem = s.mem := by
  simp [State.pourLasting]

@[simp] theorem State.queueResend_mem (s : State) (l : Fin 32) (n : Nat) : (s.queueResend l n).mem = s.mem := by simp [State.queueResend]
@[simp] theorem State.bufferErrors_mem (s : State) (h : Fin 32) (n : Nat) : (s.bufferErrors h n).mem = s.mem := by simp [State.bufferErrors]

@[simp] theorem State.sendFrame_mem (s : State) (h : Fin 32) (b : BufLine) (resend : Bool) (u : Upset) (cvuBad : Nat) :
    (s.sendFrame h b resend u cvuBad).mem = s.mem := by
  simp [State.sendFrame]

@[simp] theorem State.recheckEvent_mem (s : State) (h : Fin 32) (n : Nat) (mask : BitVec 16) (cls : Nat) (inj : Bool) :
    (s.recheckEvent h n mask cls inj).mem = s.mem := by
  simp [State.recheckEvent]

@[simp] theorem State.classifyRecheck_mem (s : State) (h : Fin 32) (n : Nat) (x : HalfSend) (mask : BitVec 16) :
    (s.classifyRecheck h n x mask).mem = s.mem := by
  simp [State.classifyRecheck]

@[simp] theorem State.recheckDue_mem (s : State) (h : Fin 32) : (s.recheckDue h).mem = s.mem := by
  unfold State.recheckDue
  split <;> simp

@[simp] theorem State.missDeadline_mem (s : State) (before : Bool) (l : Fin 32) (n : Nat) : (s.missDeadline before l n).mem = s.mem := by
  unfold State.missDeadline
  split <;> simp

@[simp] theorem State.deadlines_mem (s : State) (r : Fin 16) (n : Nat) : (s.deadlines r n).mem = s.mem := by simp [State.deadlines]

@[simp] theorem State.sendFlush_mem (s : State) (l : Fin 32) (reason : Byte) (tries : Nat) : (s.sendFlush l reason tries).mem = s.mem := by
  simp [State.sendFlush]

@[simp] theorem State.popControl_mem (s : State) (l : Fin 32) : (s.popControl l).mem = s.mem := by simp [State.popControl]

@[simp] theorem State.sendLine_mem (s : State) (l : Fin 32) (n : Nat) (resend : Bool) (u : Upset) (cvuBad : Nat) :
    (s.sendLine l n resend u cvuBad).mem = s.mem := by
  unfold State.sendLine
  split <;> simp

@[simp] theorem State.sendNext_mem (s : State) (l : Fin 32) (u : Upset) (cvuBad : Nat) : (s.sendNext l u cvuBad).mem = s.mem := by
  unfold State.sendNext
  dsimp only
  split
  case h_5 => split <;> simp
  all_goals simp

@[simp] theorem State.frameFault_mem (s : State) (l : Fin 32) (n cause : Nat) : (s.frameFault l n cause).mem = s.mem := by
  unfold State.frameFault
  split <;> simp

@[simp] theorem State.frameRecovered_mem (s : State) (l : Fin 32) (n : Nat) : (s.frameRecovered l n).mem = s.mem := by
  unfold State.frameRecovered
  split <;> simp

@[simp] theorem State.unawait_mem (s : State) (l : Fin 32) (a : Awaited) : (s.unawait l a).mem = s.mem := by simp [State.unawait]

@[simp] theorem State.frameAnswer_mem (s : State) (l : Fin 32) (a : Awaited) (result : Nat) : (s.frameAnswer l a result).mem = s.mem := by
  unfold State.frameAnswer
  split <;> simp

@[simp] theorem State.ackBlock_mem (s : State) (l : Fin 32) (blk : BitVec 64) : (s.ackBlock l blk).mem = s.mem := by
  unfold State.ackBlock
  dsimp only
  (repeat' split) <;> simp

/-! ### Training, loss and sleep of lanes (12) -/

@[simp] theorem State.wiring_mem (s : State) (c : Fin 4) (dir : Nat) (seen : List Nat) : (s.wiring c dir seen).mem = s.mem := by
  simp [State.wiring]

@[simp] theorem State.updConnLanes_mem (s : State) (c : Fin 4) (f : Lane → Lane) : (s.updConnLanes c f).mem = s.mem := by
  simp -implicitDefEqProofs [State.updConnLanes]

@[simp] theorem State.turnReceive_mem (s : State) (c : Fin 4) : (s.turnReceive c).mem = s.mem := by
  simp -implicitDefEqProofs [State.turnReceive]

@[simp] theorem State.receiveOrder_mem (s : State) (c : Fin 4) : (s.receiveOrder c).mem = s.mem := by simp [State.receiveOrder]
@[simp] theorem State.transmitOrder_mem (s : State) (c : Fin 4) : (s.transmitOrder c).mem = s.mem := by simp [State.transmitOrder]

@[simp] theorem State.chainAlign_mem (s : State) (l : Fin 34) : (s.chainAlign l).mem = s.mem := by
  unfold State.chainAlign
  split <;> simp

@[simp] theorem State.requeue_mem (s0 : State) (l : Fin 32) : (s0.requeue l).mem = s0.mem := by simp -implicitDefEqProofs [State.requeue]

@[simp] theorem State.loseLane_mem (s : State) (l : Fin 32) (cause : BitVec 4) : (s.loseLane l cause).mem = s.mem := by
  simp [State.loseLane]

@[simp] theorem State.trainLane_mem (s : State) (l : Fin 34) (b : BitVec 64) (inv : Bool) : (s.trainLane l b inv).mem = s.mem := by
  unfold State.trainLane
  split <;> simp

@[simp] theorem State.dropBlock_mem (s : State) (l : Fin 34) : (s.dropBlock l).mem = s.mem := by simp [State.dropBlock]

@[simp] theorem State.controlBlock_mem (s : State) (l : Fin 34) (b : BitVec 64) : (s.controlBlock l b).mem = s.mem := by
  unfold State.controlBlock
  (repeat' split) <;> simp

@[simp] theorem State.lockedBlock_mem (s : State) (l : Fin 34) (hdr : BitVec 2) (blk : BitVec 64) :
    (s.lockedBlock l hdr blk).mem = s.mem := by
  unfold State.lockedBlock
  dsimp only
  (repeat' split) <;> simp

@[simp] theorem State.receive_mem (s : State) (pair : Fin 34) (hdr : BitVec 2) (blk : BitVec 64) :
    (s.receive pair hdr blk).mem = s.mem := by
  simp [State.receive]

@[simp] theorem State.stageDone_mem (s : State) (l : Fin 34) (seen : LaneSeen) : (s.stageDone l seen).mem = s.mem := by
  unfold State.stageDone
  split <;> simp

@[simp] theorem State.overLimit_mem (s : State) (l : Fin 34) : (s.overLimit l).mem = s.mem := by
  unfold State.overLimit
  split <;> simp

@[simp] theorem State.retrainOk_mem (s : State) (l : Fin 32) : (s.retrainOk l).mem = s.mem := by simp [State.retrainOk]
@[simp] theorem State.retrainLost_mem (s : State) (l : Fin 32) : (s.retrainLost l).mem = s.mem := by simp [State.retrainLost]

@[simp] theorem State.asleep_mem (s : State) (c : Fin 4) : (s.asleep c).mem = s.mem := by
  simp -implicitDefEqProofs [State.asleep]

@[simp] theorem State.startTest_mem (s : State) (t : TestRun) : (s.startTest t).mem = s.mem := by simp [State.startTest]

@[simp] theorem State.updTest_mem (s : State) (l : Fin 32) (f : LaneTest → LaneTest) : (s.updTest l f).mem = s.mem := by
  simp [State.updTest]

/-! ### The memory subsystem (20) -/

@[simp] theorem State.sweepWord_mem (arr : SramArray) (s : State) (c : Corruption) : (State.sweepWord arr s c).mem = s.mem := by
  simp [State.sweepWord]

@[simp] theorem State.memEccPost_mem (s : State) (memory : Nat) (e : EccPost) : (s.memEccPost memory e).mem = s.mem := by
  simp [State.memEccPost]

@[simp] theorem State.scrubWord_mem (s : State) (c : Corruption) : (s.scrubWord c).mem = s.mem := by simp [State.scrubWord]
@[simp] theorem State.scrubBad_mem (s : State) (w : Nat) : (s.scrubBad w).mem = s.mem := by simp [State.scrubBad]
@[simp] theorem State.trainFailed_mem (s : State) (ch : Nat) : (s.trainFailed ch).mem = s.mem := by simp [State.trainFailed]

/-! ### Correction groups (08) -/

@[simp] theorem State.seal_mem (s : State) (g : Group) : (s.seal g).1.mem = s.mem := by
  unfold State.seal
  (repeat' split) <;> simp

@[simp] theorem State.partnerCheck_mem (s : State) (g : Gen) : (s.partnerCheck g).mem = s.mem := by
  unfold State.partnerCheck
  refine foldl_mem _ _ _ fun s e => ?_
  split
  · rfl
  · simp

@[simp] theorem State.commit_mem (s : State) (g : Group) (l : Nat) : (s.commit g l).mem = s.mem := by
  unfold State.commit
  split <;> simp

@[simp] theorem State.inDoubtCheck_mem (s : State) : s.inDoubtCheck.mem = s.mem := by
  unfold State.inDoubtCheck
  split <;> simp -implicitDefEqProofs

/-! ### Calibration and trims (23) -/

@[simp] theorem State.trimFault_mem (s : State) (trim cls measured : Nat) : (s.trimFault trim cls measured).mem = s.mem := by
  simp [State.trimFault]

@[simp] theorem State.trimTransient_mem (s : State) (trim measured : Nat) : (s.trimTransient trim measured).mem = s.mem := by
  simp [State.trimTransient]

@[simp] theorem State.trimLasting_mem (s : State) (trim measured : Nat) : (s.trimLasting trim measured).mem = s.mem := by
  simp [State.trimLasting]

@[simp] theorem State.trimAnswers_mem (s : State) (reqs : List Origin) (retry ok : Bool) : (s.trimAnswers reqs retry ok).mem = s.mem := by
  simp [State.trimAnswers]

@[simp] theorem State.sourceBack_mem (s : State) (i : Fin 5) (clock : Nat) (domains : List (Fin 13)) :
    (s.sourceBack i clock domains).mem = s.mem := by
  simp [State.sourceBack]

@[simp] theorem State.sioBack_mem (s : State) : s.sioBack.mem = s.mem := by simp [State.sioBack]

@[simp] theorem State.channelRetrained_mem (failed twice : BitVec 32) (s : State) (ch : Fin 32) :
    (State.channelRetrained failed twice s ch).mem = s.mem := by
  simp [State.channelRetrained]

@[simp] theorem State.chartRaw_mem (s : State) (c : Chart) : (s.chartRaw c).mem = s.mem := by simp [State.chartRaw]
@[simp] theorem State.chartEnd_mem (s : State) (c : Chart) : (s.chartEnd c).mem = s.mem := by simp [State.chartEnd]

theorem State.chartStage_mem {s t : State} {c : Chart} {n i h : Nat} (hstaged : s.chartStage c n i = some (t, h)) : t.mem = s.mem := by
  unfold State.chartStage at hstaged
  dsimp only at hstaged
  split at hstaged
  · exact absurd hstaged (Option.some_ne_none _).symm
  · split at hstaged
    · exact absurd hstaged (Option.some_ne_none _).symm
    · split at hstaged
      · exact absurd hstaged (Option.some_ne_none _).symm
      · obtain ⟨rfl, -⟩ := Prod.mk.inj (Option.some.inj hstaged)
        rfl

theorem State.chartRows_mem {s t : State} {c : Chart} {n i : Nat} {rows : List (Fin 16)} {lists : List (Nat × Nat)}
    (hrows : s.chartRows c n i rows = some (t, lists)) : t.mem = s.mem := by
  induction rows generalizing s i lists with
  | nil => rw [(Prod.mk.inj (Option.some.inj hrows)).1]
  | cons r rows ih =>
    unfold State.chartRows at hrows
    split at hrows
    · exact absurd hrows (Option.some_ne_none _).symm
    next s1 h hstaged =>
      obtain ⟨⟨t', lists'⟩, hrest, heq⟩ := Option.map_eq_some_iff.1 hrows
      obtain ⟨rfl, -⟩ := Prod.mk.inj heq
      exact (ih hrest).trans (State.chartStage_mem hstaged)

@[simp] theorem State.setPanel_mem (s : State) (p : Panel) : (s.setPanel p).mem = s.mem := by simp [State.setPanel]

@[simp] theorem State.chartDone_mem (s : State) (c : Chart) (n : Nat) (lists : List (Nat × Nat)) : (s.chartDone c n lists).mem = s.mem := by
  simp [State.chartDone]

@[simp] theorem State.chartFail_mem (s : State) (c : Chart) (st : Status) (detail : Nat) : (s.chartFail c st detail).mem = s.mem := by
  simp [State.chartFail]

/-! ### Hops, enumeration and beacons (15) -/

@[simp] theorem State.hopMiss_mem (s : State) (side : Side) : (s.hopMiss side).mem = s.mem := by
  unfold State.hopMiss
  dsimp only
  (repeat' split) <;> simp

@[simp] theorem State.takeEnum_mem (s : State) (value : Byte) (serial : BitVec 64) : (s.takeEnum value serial).mem = s.mem := by
  simp [State.takeEnum]

@[simp] theorem State.lapBack_mem (s : State) (b : Beacon) : (s.lapBack b).mem = s.mem := by
  unfold State.lapBack
  (repeat' split) <;> simp

@[simp] theorem State.passBeacon_mem (s : State) (h : ChainHdr) (b : Beacon) : (s.passBeacon h b).mem = s.mem := by simp [State.passBeacon]
@[simp] theorem State.takeBeacon_mem (s : State) (h : ChainHdr) (b : Beacon) : (s.takeBeacon h b).mem = s.mem := by simp [State.takeBeacon]

@[simp] theorem State.hopDown_mem (s : State) (side : Side) (cause : BitVec 4) : (s.hopDown side cause).mem = s.mem := by
  simp [State.hopDown]

@[simp] theorem State.hopBack_mem (s : State) (side : Side) (cause : BitVec 4) : (s.hopBack side cause).mem = s.mem := by
  simp [State.hopBack]

/-! ### Lines around the head (07, 02) -/

@[simp] theorem State.copyLine_mem (s : State) (r : Fin 16) (n : Nat) : (s.copyLine r n).mem = s.mem := by
  unfold State.copyLine
  (repeat' split) <;> simp

@[simp] theorem State.notAgreed_mem (s : State) (r : Fin 16) (n : Nat) : (s.notAgreed r n).mem = s.mem := by
  unfold State.notAgreed
  dsimp only
  (repeat' split) <;> simp

@[simp] theorem State.pourLine_mem (s : State) (r : Fin 16) (n : Nat) : (s.pourLine r n).mem = s.mem := by
  unfold State.pourLine
  dsimp only
  (repeat' split) <;> simp -implicitDefEqProofs

@[simp] theorem State.advanceBuffer_mem (s : State) (r : Fin 16) (n : Nat) : (s.advanceBuffer r n).mem = s.mem := by
  simp [State.advanceBuffer]

@[simp] theorem State.feedLine_mem (s : State) (r : Fin 16) (n : Nat) : (s.feedLine r n).mem = s.mem := by simp [State.feedLine]
@[simp] theorem State.retireFired_mem (s : State) : s.retireFired.mem = s.mem := by simp [State.retireFired]

@[simp] theorem State.reverseMark_mem (s : State) (r : Fin 16) (n : Nat) (fate : Fate) : (s.reverseMark r n fate).mem = s.mem := by
  unfold State.reverseMark
  (repeat' split) <;> simp

@[simp] theorem State.boundaries_mem (s : State) (r : Fin 16) (n : Nat) : (s.boundaries r n).mem = s.mem := by
  unfold State.boundaries
  dsimp only
  (repeat' split) <;> simp

@[simp] theorem State.pauseOver_mem (s : State) : s.pauseOver.mem = s.mem := by simp [State.pauseOver]
@[simp] theorem State.afterStart_mem (s : State) (r : Fin 16) (n : Nat) : (s.afterStart r n).mem = s.mem := by simp [State.afterStart]

/-! ### Decodes (10) -/

@[simp] theorem State.updDec_mem (s : State) (p : Pipe) (f : Decoders → Decoders) : (s.updDec p f).mem = s.mem := by
  unfold State.updDec
  split <;> simp

@[simp] theorem State.feedDecoders_mem (s : State) (p : Pipe) : (s.feedDecoders p).mem = s.mem := by simp [State.feedDecoders]

@[simp] theorem State.keepBands_mem (s : State) (p : Pipe) (r : Fin 16) (used : List Band) : (s.keepBands p r used).mem = s.mem := by
  simp [State.keepBands]

@[simp] theorem State.dropBands_mem (s : State) (r : Fin 16) : (s.dropBands r).mem = s.mem := by simp [State.dropBands]
@[simp] theorem State.setBlock_mem (s : State) (id i : Nat) (f : Blk → Blk) : (s.setBlock id i f).mem = s.mem := by simp [State.setBlock]
@[simp] theorem State.damage_mem (s : State) (t : Tile) (i : Nat) : (s.damage t i).mem = s.mem := by simp [State.damage]
@[simp] theorem State.isolate_mem (s : State) (p : Pipe) (u : Fin 16) : (s.isolate p u).mem = s.mem := by simp [State.isolate]
@[simp] theorem State.lastUnit_mem (s : State) (p : Pipe) (u : Fin 16) : (s.lastUnit p u).mem = s.mem := by simp [State.lastUnit]

@[simp] theorem State.bandFault_mem (s : State) (p : Pipe) (u : Fin 16) (cls : Nat) (err : Byte) (b : Band) :
    (s.bandFault p u cls err b).mem = s.mem := by
  simp [State.bandFault]

@[simp] theorem State.unitFree_mem (s : State) (p : Pipe) (u : Fin 16) : (s.unitFree p u).mem = s.mem := by simp [State.unitFree]
@[simp] theorem State.hold_mem (s : State) (p : Pipe) (b : Band) : (s.hold p b).mem = s.mem := by simp [State.hold]

@[simp] theorem State.decoded_mem (s : State) (p : Pipe) (u : Fin 16) (j : DecodeJob) : (s.decoded p u j).mem = s.mem := by
  unfold State.decoded
  dsimp only
  (repeat' split) <;> simp

@[simp] theorem State.decodeFailed_mem (s : State) (p : Pipe) (u : Fin 16) (j : DecodeJob) (t : Tile) (err : Byte) :
    (s.decodeFailed p u j t err).mem = s.mem := by
  unfold State.decodeFailed
  split <;> simp

@[simp] theorem State.decodeEnd_mem (s : State) (p : Pipe) (u : Fin 16) (j : DecodeJob) (fail : Bool) :
    (s.decodeEnd p u j fail).mem = s.mem := by
  unfold State.decodeEnd
  (repeat' split) <;> simp

/-! ### Checkpoints, mismatches and agreement (07, 09) -/

@[simp] theorem State.ckptWrite_mem (s : State) (r : Fin 16) (n : PipeRun) : (s.ckptWrite r n).mem = s.mem := by simp [State.ckptWrite]
@[simp] theorem State.ckptShadow_mem (s : State) (r : Fin 16) (n : PipeRun) : (s.ckptShadow r n).mem = s.mem := by simp [State.ckptShadow]

@[simp] theorem State.lineThrough_mem (s : State) (p : Pipe) (r : Fin 16) (out : LineOut) : (s.lineThrough p r out).mem = s.mem := by
  unfold State.lineThrough
  split <;> simp

@[simp] theorem State.lineDone_mem (s : State) (p : Pipe) (h : Fin 32) (u : Upset) (out : LineOut) (g : Gen) :
    (s.lineDone p h u out g).mem = s.mem := by
  simp [State.lineDone]

@[simp] theorem State.freeOpinion_mem (s : State) (r : Fin 16) : (s.freeOpinion r).mem = s.mem := by simp [State.freeOpinion]

@[simp] theorem State.misTransient_mem (s : State) (r : Fin 16) (line : Nat) (ckpt : Bool) : (s.misTransient r line ckpt).mem = s.mem := by
  unfold State.misTransient
  split <;> simp

@[simp] theorem State.diverges_mem (s : State) (r : Fin 16) (line : Nat) : (s.diverges r line).mem = s.mem := by simp [State.diverges]
@[simp] theorem State.sameAgain_mem (s : State) (r : Fin 16) (line : Nat) : (s.sameAgain r line).mem = s.mem := by simp [State.sameAgain]

@[simp] theorem State.newAgreed_mem (s : State) (r : Fin 16) (a : Agreed) : (s.newAgreed r a).mem = s.mem := by
  unfold State.newAgreed
  dsimp only
  (repeat' split) <;> simp

@[simp] theorem State.agree_mem (s : State) (r : Fin 16) (lo hi : LineSet) : (s.agree r lo hi).mem = s.mem := by
  unfold State.agree
  dsimp only
  (repeat' split) <;> simp

@[simp] theorem State.tryAgree_mem (s : State) (r : Fin 16) : (s.tryAgree r).mem = s.mem := by
  unfold State.tryAgree
  split <;> simp

@[simp] theorem State.compareSets_mem (s : State) (h : Fin 32) (a : LineSet) (b : Option LineSet) (bad : CvuUpset) :
    (s.compareSets h a b bad).mem = s.mem := by
  unfold State.compareSets
  dsimp only
  (repeat' split) <;> simp

/-! ### Comparison and timeouts (09) -/

@[simp] theorem State.lineCompare_mem (s : State) (h : Fin 32) (bad : CvuUpset) : (s.lineCompare h bad).mem = s.mem := by
  unfold State.lineCompare
  dsimp only
  (repeat' split) <;> simp

@[simp] theorem State.missing_mem (s : State) (h : Fin 32) (bad : CvuUpset) : (s.missing h bad).mem = s.mem := by
  unfold State.missing
  split <;> simp

@[simp] theorem State.couplingTimeout_mem (s : State) (p : Pipe) (h : Fin 32) (waits : Nat) (bad : CvuUpset) :
    (s.couplingTimeout p h waits bad).mem = s.mem := by
  simp [State.couplingTimeout]

/-! ### Queues (19) -/

@[simp] theorem State.signalQue_mem (s : State) (q : Fin 48) : (s.signalQue q).mem = s.mem := by simp [State.signalQue]
@[simp] theorem State.announce_mem (s : State) (q : Fin 48) : (s.announce q).mem = s.mem := by simp [State.announce]

@[simp] theorem State.writeRecord_mem (s : State) (q : Fin 48) (record : Bool → List Byte) : (s.writeRecord q record).mem = s.mem := by
  simp [State.writeRecord]

@[simp] theorem State.writeEvent_mem (s : State) (n : Fin 16) (e : Ev) : (s.writeEvent n e).mem = s.mem := by simp [State.writeEvent]
@[simp] theorem State.holdEvent_mem (s : State) (n : Fin 16) (e : Ev) : (s.holdEvent n e).mem = s.mem := by simp [State.holdEvent]
@[simp] theorem State.dropEvent_mem (s : State) (cls : Fin 4) : (s.dropEvent cls).mem = s.mem := by simp [State.dropEvent]
@[simp] theorem State.routeEvent_mem (s : State) (e : Ev) : (s.routeEvent e).mem = s.mem := by simp [State.routeEvent]

@[simp] theorem State.writeHeld_mem (l : List Ev) (s : State) (n : Fin 16) : (State.writeHeld l s n).mem = s.mem := by
  induction l generalizing s with
  | nil => rfl
  | cons e l ih => simp [State.writeHeld, ih]

@[simp] theorem State.drainQue_mem (s : State) (n : Fin 16) : (s.drainQue n).mem = s.mem := by simp [State.drainQue]
@[simp] theorem State.qCtrlWrite_mem (s : State) (q : Fin 48) (v : Nat) : (s.qCtrlWrite q v).mem = s.mem := by simp [State.qCtrlWrite]
@[simp] theorem State.qHeadWrite_mem (s : State) (q : Fin 48) (v : Nat) : (s.qHeadWrite q v).mem = s.mem := by simp [State.qHeadWrite]
@[simp] theorem State.qStatusWrite_mem (s : State) (q : Fin 48) (v : Nat) : (s.qStatusWrite q v).mem = s.mem := by simp [State.qStatusWrite]
@[simp] theorem State.qBaseWrite_mem (s : State) (q : Fin 48) (v : Nat) : (s.qBaseWrite q v).mem = s.mem := by simp [State.qBaseWrite]
@[simp] theorem State.qSizeWrite_mem (s : State) (q : Fin 48) (v : Nat) : (s.qSizeWrite q v).mem = s.mem := by simp [State.qSizeWrite]

/-! ### Bulk DMA (19) -/

@[simp] theorem State.complete_mem (s : State) (c : Fin 48) (e : XferEnd) : (s.complete c e).mem = s.mem := by
  unfold State.complete
  dsimp only
  (repeat' split) <;> simp

@[simp] theorem State.finish_mem (s : State) (c : Fin 48) (st : Status) (faultAddr : Nat) (aborted : Bool) :
    (s.finish c st faultAddr aborted).mem = s.mem := by
  simp [State.finish]

@[simp] theorem State.readOut_mem (s : State) (c : Fin 48) (done n : Nat) : (s.readOut c done n).mem = s.mem := by simp [State.readOut]
@[simp] theorem State.issueRead_mem (s : State) (c : Fin 48) : (s.issueRead c).mem = s.mem := by simp [State.issueRead]

@[simp] theorem State.issueReads_mem (k : Nat) (s : State) : (State.issueReads k s).mem = s.mem := by
  induction k generalizing s with
  | zero => rfl
  | succ k ih =>
    unfold State.issueReads
    split
    · rfl
    · split <;> simp [ih]

@[simp] theorem State.chanGo_mem (s : State) (c : Fin 48) : (s.chanGo c).mem = s.mem := by
  unfold State.chanGo
  dsimp only
  (repeat' split) <;> simp

@[simp] theorem State.ctrlWrite_mem (s : State) (c : Fin 48) (v : Nat) : (s.ctrlWrite c v).mem = s.mem := by simp [State.ctrlWrite]

@[simp] theorem State.chanPulse_mem (line : Fin 64) (s : State) (c : Fin 48) : (State.chanPulse line s c).mem = s.mem := by
  simp [State.chanPulse]

@[simp] theorem State.readOver_mem (s : State) (c : Fin 48) (n : Nat) : (s.readOver c n).mem = s.mem := by simp [State.readOver]
@[simp] theorem State.readFailed_mem (s : State) (c : Fin 48) (n : Nat) : (s.readFailed c n).mem = s.mem := by simp [State.readFailed]

/-! ### BAR0 and BAR2 (19) -/

@[simp] theorem State.readWord_mem (s : State) (a : Nat) : (s.readWord a).mem = s.mem := by
  unfold State.readWord
  (repeat' split) <;> simp

@[simp] theorem State.bar0Read_mem (s : State) (a size : Nat) : (s.bar0Read a size).mem = s.mem := by simp [State.bar0Read]
@[simp] theorem State.globalFaultWrite_mem (s : State) (v : Nat) : (s.globalFaultWrite v).mem = s.mem := by simp [State.globalFaultWrite]
@[simp] theorem State.assignWrite_mem (s : State) (v : Nat) : (s.assignWrite v).mem = s.mem := by simp [State.assignWrite]
@[simp] theorem State.drqSoft_mem (s : State) (v : Nat) : (s.drqSoft v).mem = s.mem := by simp [State.drqSoft]

@[simp] theorem State.mailboxWrite_mem (s : State) (m : Fin 4) (o v : Nat) : (s.mailboxWrite m o v).mem = s.mem := by
  unfold State.mailboxWrite
  split <;> simp

@[simp] theorem State.chanWrite_mem (s : State) (c : Fin 32) (o v : Nat) : (s.chanWrite c o v).mem = s.mem := by
  unfold State.chanWrite
  (repeat' split) <;> simp

@[simp] theorem State.queWrite_mem (s : State) (q : Fin 48) (o v : Nat) : (s.queWrite q o v).mem = s.mem := by
  unfold State.queWrite
  split <;> simp

@[simp] theorem State.msixWrite_mem (s : State) (i : Fin 64) (w v : Nat) : (s.msixWrite i w v).mem = s.mem := by simp [State.msixWrite]

@[simp] theorem State.wideWrite_mem (s : State) (a v : Nat) : (s.wideWrite a v).mem = s.mem := by
  unfold State.wideWrite
  split
  · split <;> simp
  · simp
  · rfl
  · rfl

@[simp] theorem State.wordWrite_mem (s : State) (a v : Nat) : (s.wordWrite a v).mem = s.mem := by
  unfold State.wordWrite
  split <;> simp

@[simp] theorem State.lowWrite_mem (s : State) (a v : Nat) : (s.lowWrite a v).mem = s.mem := by simp [State.lowWrite]
@[simp] theorem State.highWrite_mem (s : State) (low v : Nat) : (s.highWrite low v).mem = s.mem := by simp [State.highWrite]
@[simp] theorem State.write4_mem (s : State) (a v : Nat) : (s.write4 a v).mem = s.mem := by simp [State.write4]
@[simp] theorem State.write8_mem (s : State) (a v : Nat) : (s.write8 a v).mem = s.mem := by simp [State.write8]
@[simp] theorem State.bar0Write_mem (s : State) (a size v : Nat) : (s.bar0Write a size v).mem = s.mem := by simp [State.bar0Write]

@[simp] theorem State.bar2Refused_mem (s : State) (a : Nat) (write : Bool) : (s.bar2Refused a write).mem = s.mem := by
  simp [State.bar2Refused]

@[simp] theorem State.apertureRead_mem (s : State) (off n : Nat) : (s.apertureRead off n).mem = s.mem := by
  simp -implicitDefEqProofs [State.apertureRead]

/-! ### Boot and firmware update (22) -/

@[simp] theorem State.drawKeys_mem (s : State) : s.drawKeys.mem = s.mem := by simp [State.drawKeys]

@[simp] theorem State.chooseSlot_mem (s : State) (slot0 slot1 : ImageCheck) : (s.chooseSlot slot0 slot1).mem = s.mem := by
  simp -implicitDefEqProofs [State.chooseSlot]

@[simp] theorem State.loadKeys_mem (s : State) (a b : Option KeyPackage) : (s.loadKeys a b).mem = s.mem := by simp [State.loadKeys]
@[simp] theorem State.lock_mem (s : State) : s.lock.mem = s.mem := by simp [State.lock]
@[simp] theorem State.bootDone_mem (s0 : State) : (s0.bootDone).mem = s0.mem := by simp -implicitDefEqProofs [State.bootDone]
@[simp] theorem State.openUpdate_mem (s : State) (u : Option Update) : (s.openUpdate u).mem = s.mem := by simp [State.openUpdate]

@[simp] theorem State.unset_mem (s : State) (item : UpdItem) : (s.unset item).mem = s.mem := by
  unfold State.unset
  split <;> simp

@[simp] theorem State.erased_mem (s : State) (item : UpdItem) : (s.erased item).mem = s.mem := by simp [State.erased]

@[simp] theorem State.programmed_mem (s : State) (u : Update) (off : Nat) (data : List Byte) : (s.programmed u off data).mem = s.mem := by
  simp [State.programmed]

@[simp] theorem State.committed_mem (s : State) (u : Update) (image : ImageCheck) (seq : BitVec 32) (raise : Bool) :
    (s.committed u image seq raise).mem = s.mem := by
  unfold State.committed
  split <;> simp

@[simp] theorem State.fwDone_mem (s : State) (u : Update) (o : Origin) (cmd : Nat) (st : Status) (detail off : Nat) :
    (s.fwDone u o cmd st detail off).mem = s.mem := by
  simp [State.fwDone]

/-! ### The head management channel (13) -/

@[simp] theorem State.hmcEvent_mem (s : State) (c : Fin 4) (cause cls : Nat) : (s.hmcEvent c cause cls).mem = s.mem := by
  simp [State.hmcEvent]

@[simp] theorem State.identifiedCheck_mem (s : State) (c : Fin 4) : (s.identifiedCheck c).mem = s.mem := by simp [State.identifiedCheck]

@[simp] theorem State.identifyAnswer_mem (s : State) (c : Fin 4) (p : List Byte) : (s.identifyAnswer c p).mem = s.mem := by
  simp [State.identifyAnswer]

@[simp] theorem State.headInfoAnswer_mem (s : State) (h : Fin 64) (p : List Byte) : (s.headInfoAnswer h p).mem = s.mem := by
  unfold State.headInfoAnswer
  dsimp only
  (repeat' split) <;> simp

@[simp] theorem State.statusAnswer_mem (s : State) (c : Fin 4) (p : List Byte) : (s.statusAnswer c p).mem = s.mem := by
  simp [State.statusAnswer]

@[simp] theorem State.hmcMeaning_mem (s : State) (c : Fin 4) (q : HmcReq) (p : List Byte) : (s.hmcMeaning c q p).mem = s.mem := by
  unfold State.hmcMeaning
  (repeat' split) <;> simp

@[simp] theorem State.hmcUnknown_mem (s : State) (c : Fin 4) (q : HmcReq) : (s.hmcUnknown c q).mem = s.mem := by
  unfold State.hmcUnknown
  dsimp only
  split
  · simp
  · refine State.authFault_mem _ _ _ fun u => ?_
    split <;> simp
  · simp -implicitDefEqProofs
  · split <;> simp
  · split <;> simp

@[simp] theorem State.hmcEnd_mem (s : State) (c : Fin 4) : (s.hmcEnd c).mem = s.mem := by simp [State.hmcEnd]

@[simp] theorem State.hmcMessage_mem (s : State) (c : Fin 4) (msg : List Byte) : (s.hmcMessage c msg).mem = s.mem := by
  unfold State.hmcMessage
  dsimp only
  (repeat' split) <;> simp

@[simp] theorem State.hmcChar_mem (c : Fin 4) (s : State) (x : Byte × Bool) : (State.hmcChar c s x).mem = s.mem := by
  unfold State.hmcChar
  dsimp only
  (repeat' split) <;> simp

@[simp] theorem State.hmcMiss_mem (s : State) (c : Fin 4) (mseq : Byte) (tries : Nat) (q : HmcReq) :
    (s.hmcMiss c mseq tries q).mem = s.mem := by
  simp [State.hmcMiss]

/-! ### PERST# (17, 19) -/

@[simp] theorem State.failHostReads_mem (s : State) : s.failHostReads.mem = s.mem := by simp [State.failHostReads]

/-! ### Arming, boundaries and stops (18) -/

@[simp] theorem State.setPanels_mem (s : State) (panels : List Panel) : (s.setPanels panels).mem = s.mem := by simp [State.setPanels]
@[simp] theorem State.beginArm_mem (s : State) (o : Origin) : (s.beginArm o).mem = s.mem := by simp [State.beginArm]
@[simp] theorem State.armChain_mem (s : State) : s.armChain.mem = s.mem := by simp [State.armChain]
@[simp] theorem State.armLanes_mem (s : State) : s.armLanes.mem = s.mem := by simp [State.armLanes]

@[simp] theorem State.armIdentify_mem (s : State) : s.armIdentify.mem = s.mem := by
  unfold State.armIdentify
  split <;> simp

@[simp] theorem State.armHeads_mem (s : State) : s.armHeads.mem = s.mem := by
  unfold State.armHeads
  (repeat' split) <;> simp

@[simp] theorem State.captureCheck_mem (s : State) : s.captureCheck.mem = s.mem := by
  unfold State.captureCheck
  split <;> simp

@[simp] theorem State.prepareRun_mem (s : State) : s.prepareRun.mem = s.mem := by simp [State.prepareRun]
@[simp] theorem State.armFlush_mem (s : State) : s.armFlush.mem = s.mem := by simp [State.armFlush]
@[simp] theorem State.armReady_mem (s : State) : s.armReady.mem = s.mem := by simp [State.armReady]

theorem State.placePause_mem {s t : State} {nextInstance : Bool} {line l : Nat} (h : s.placePause nextInstance line = .ok (t, l)) :
    t.mem = s.mem := by
  unfold State.placePause at h
  (repeat' split at h) <;> simp only [reduceCtorEq, Except.ok.injEq, Prod.mk.injEq] at h
  rw [← h.1]

theorem State.placeResume_mem {s t : State} {nextInstance : Bool} {line l : Nat} (h : s.placeResume nextInstance line = .ok (t, l)) :
    t.mem = s.mem := by
  unfold State.placeResume at h
  (repeat' split at h) <;> simp only [reduceCtorEq, Except.ok.injEq, Prod.mk.injEq] at h
  all_goals rw [← h.1]

theorem State.cancelPause_mem {s t : State} {l : Nat} (h : s.cancelPause = .ok (t, l)) : t.mem = s.mem := by
  unfold State.cancelPause at h
  (repeat' split at h) <;> simp only [reduceCtorEq, Except.ok.injEq, Prod.mk.injEq] at h
  rw [← h.1]

@[simp] theorem State.peEvent_mem (s : State) (action : Nat) (line : Option Nat) : (s.peEvent action line).mem = s.mem := by
  simp [State.peEvent]

theorem State.peBoundary_mem {s : State} {r : Except (Status × Nat) (State × Nat)} (action : Nat)
    (hplaced : ∀ t l, r = .ok (t, l) → t.mem = s.mem) : (s.peBoundary action r).mem = s.mem := by
  unfold State.peBoundary
  split
  next t l => simp [hplaced t l rfl]
  next => simp

@[simp] theorem State.placeStop_mem (s : State) (l : Nat) : (s.placeStop l).mem = s.mem := by simp [State.placeStop]
@[simp] theorem State.awaitStop_mem (s : State) (o : Origin) : (s.awaitStop o).mem = s.mem := by simp [State.awaitStop]

/-! ### The management port (25) -/

@[simp] theorem State.mgNack_mem (s : State) : s.mgNack.mem = s.mem := by simp [State.mgNack]

@[simp] theorem State.mgWrite_mem (s : State) (okLen pec : Bool) (f : State → State) (hf : ∀ u, (f u).mem = u.mem) :
    (s.mgWrite okLen pec f).mem = s.mem := by
  unfold State.mgWrite
  (repeat' split) <;> simp [hf]

@[simp] theorem State.alertClear_mem (s : State) (v : Nat) : (s.alertClear v).mem = s.mem := by simp [State.alertClear]
@[simp] theorem State.setMask_mem (s : State) (v : Nat) : (s.setMask v).mem = s.mem := by simp [State.setMask]
@[simp] theorem State.wake_mem (s : State) : s.wake.mem = s.mem := by simp [State.wake]
@[simp] theorem State.pwrCtrl_mem (s : State) (v : Nat) : (s.pwrCtrl v).mem = s.mem := by simp [State.pwrCtrl]
@[simp] theorem State.tunnelOverrun_mem (s : State) (n : Fin 2) : (s.tunnelOverrun n).mem = s.mem := by simp [State.tunnelOverrun]
@[simp] theorem State.tunnelClear_mem (s : State) (n : Fin 2) : (s.tunnelClear n).mem = s.mem := by simp [State.tunnelClear]
@[simp] theorem State.tunnelPop_mem (s : State) (n : Fin 2) : (s.tunnelPop n).mem = s.mem := by simp [State.tunnelPop]
@[simp] theorem State.tunnelGo_mem (s : State) (n : Fin 2) : (s.tunnelGo n).mem = s.mem := by simp [State.tunnelGo]
@[simp] theorem State.mbCtrl_mem (s : State) (n : Fin 2) (v : Nat) : (s.mbCtrl n v).mem = s.mem := by simp [State.mbCtrl]
@[simp] theorem State.mbReq_mem (s : State) (n : Fin 2) (data : List Byte) : (s.mbReq n data).mem = s.mem := by simp [State.mbReq]

@[simp] theorem State.mgPut_mem (s : State) (code : Nat) (data : List Byte) : (s.mgPut code data).mem = s.mem := by
  unfold State.mgPut
  split <;> simp

/-! ### Auxiliary axes (16) -/

@[simp] theorem State.disableAxis_mem (s : State) (i : Fin 8) : (s.disableAxis i).mem = s.mem := by simp [State.disableAxis]

@[simp] theorem State.startMove_mem (s : State) (i : Fin 8) (kind : Nat) (o : Origin) (vel target : Int) :
    (s.startMove i kind o vel target).mem = s.mem := by
  simp [State.startMove]

@[simp] theorem State.startJog_mem (s : State) (i : Fin 8) (o : Origin) (vel : Int) : (s.startJog i o vel).mem = s.mem := by
  simp [State.startJog]

@[simp] theorem State.startStop_mem (s : State) (i : Fin 8) (k : AxisKind) (o : Origin) : (s.startStop i k o).mem = s.mem := by
  simp [State.startStop]

@[simp] theorem State.gearEvent_mem (s : State) (i : Fin 8) (kind : Nat) (p ratio : Int) : (s.gearEvent i kind p ratio).mem = s.mem := by
  simp [State.gearEvent]

@[simp] theorem State.gearStop_mem (s : State) (i : Fin 8) (code : Nat) : (s.gearStop i code).mem = s.mem := by simp [State.gearStop]

@[simp] theorem State.gearSpeed_mem (s : State) (i : Fin 8) (p ratio : Int) : (s.gearSpeed i p ratio).mem = s.mem := by
  simp [State.gearSpeed]

@[simp] theorem State.gearTick_mem (s : State) (i : Fin 8) (g : Gear) (at_ : Nat) : (s.gearTick i g at_).mem = s.mem := by
  simp [State.gearTick]

@[simp] theorem State.axisTick_mem (at_ : Nat) (s : State) (i : Fin 8) : (State.axisTick at_ s i).mem = s.mem := by
  unfold State.axisTick
  dsimp only
  (repeat' split) <;> simp

@[simp] theorem State.sendSetpoints_mem (s : State) : s.sendSetpoints.mem = s.mem := by simp [State.sendSetpoints]
@[simp] theorem State.servoTick_mem (s : State) : s.servoTick.mem = s.mem := by simp [State.servoTick]

@[simp] theorem State.driveEvent_mem (s : State) (i : Fin 8) (cause cls : Nat) : (s.driveEvent i cause cls).mem = s.mem := by
  simp [State.driveEvent]

@[simp] theorem State.axisFault_mem (s : State) (i : Fin 8) : (s.axisFault i).mem = s.mem := by simp [State.axisFault]
@[simp] theorem State.judge_mem (s : State) (i : Fin 8) : (s.judge i).mem = s.mem := by simp [State.judge]

@[simp] theorem State.slotFault_mem (s : State) (i : Fin 8) (fault : SlotFault) : (s.slotFault i fault).mem = s.mem := by
  simp [State.slotFault]

@[simp] theorem State.driveSays_mem (s : State) (i : Fin 8) (d : Byte) (low : Nat) : (s.driveSays i d low).mem = s.mem := by
  simp [State.driveSays]

@[simp] theorem State.faultClears_mem (s : State) (i : Fin 8) : (s.faultClears i).mem = s.mem := by simp [State.faultClears]
@[simp] theorem State.enableDone_mem (s : State) (i : Fin 8) : (s.enableDone i).mem = s.mem := by simp [State.enableDone]

@[simp] theorem State.goodFrame_mem (s : State) (i : Fin 8) (f : List Byte) : (s.goodFrame i f).mem = s.mem := by
  unfold State.goodFrame
  dsimp only
  (repeat' split) <;> simp

/-! ### Checkpoints and squashes (07) -/

@[simp] theorem State.engineDone_mem (s : State) (p : Pipe) (h : Fin 32) (u : Upset) : (s.engineDone p h u).mem = s.mem := by
  simp [State.engineDone]

@[simp] theorem State.setCkpt_mem (s : State) (r : Fin 16) (c : Ckpt) : (s.setCkpt r c).mem = s.mem := by simp [State.setCkpt]

@[simp] theorem State.ckptCompare_mem (s : State) (r : Fin 16) (bad : CvuUpset) : (s.ckptCompare r bad).mem = s.mem := by
  unfold State.ckptCompare
  (repeat' split) <;> simp

@[simp] theorem State.passOver_mem (r : Fin 16) (o : FaultOutcome) (s : State) (f : Ckpt × Nat) : (State.passOver r o s f).mem = s.mem := by
  simp [State.passOver]

@[simp] theorem State.noCkpt_mem (s : State) (r : Fin 16) (q : Nat) : (s.noCkpt r q).mem = s.mem := by simp [State.noCkpt]
@[simp] theorem State.restart_mem (s : State) (r : Fin 16) (c : Ckpt) (q : Nat) : (s.restart r c q).mem = s.mem := by simp [State.restart]

@[simp] theorem State.squashRow_mem (s : State) (r : Fin 16) (q : SquashReq) : (s.squashRow r q).mem = s.mem := by
  unfold State.squashRow
  dsimp only
  (repeat' split) <;> simp

@[simp] theorem State.applySquash_mem (s : State) (r : Fin 16) : (s.applySquash r).mem = s.mem := by
  unfold State.applySquash
  split <;> simp

/-! ### Strobes and their readback (14) -/

@[simp] theorem State.firePulse_mem (s : State) (r : Fin 16) (p : Pulse) : (s.firePulse r p).mem = s.mem := by simp [State.firePulse]

@[simp] theorem State.strobeEvent_mem (s : State) (r : Fin 16) (line kind cls : Nat) (offset : Int) (width : Nat) :
    (s.strobeEvent r line kind cls offset width).mem = s.mem := by
  simp [State.strobeEvent]

@[simp] theorem State.strobeFault_mem (s : State) (r : Fin 16) (line kind : Nat) (mark : Option Nat) (offset : Int) (width : Nat) :
    (s.strobeFault r line kind mark offset width).mem = s.mem := by
  unfold State.strobeFault
  dsimp only
  (repeat' split) <;> simp

@[simp] theorem State.strobeClean_mem (s : State) (r : Fin 16) (line : Nat) : (s.strobeClean r line).mem = s.mem := by
  unfold State.strobeClean
  split <;> simp

@[simp] theorem State.strobeExtra_mem (s : State) (r : Fin 16) (offset : Int) (width : Nat) :
    (s.strobeExtra r offset width).mem = s.mem := by
  unfold State.strobeExtra
  split <;> simp

@[simp] theorem State.judged_mem (s : State) (r : Fin 16) (p : Pulse) : (s.judged r p).mem = s.mem := by simp [State.judged]

@[simp] theorem State.readback_mem (s : State) (r : Fin 16) (e : PadEdge) : (s.readback r e).mem = s.mem := by
  unfold State.readback
  dsimp only
  (repeat' split) <;> simp

/-! ### Correction transactions (08) -/

@[simp] theorem State.dropGroup_mem (s : State) (g : Group) : (s.dropGroup g).mem = s.mem := by simp [State.dropGroup]
@[simp] theorem State.voteOn_mem (s : State) (m : PrepareMsg) : (s.voteOn m).1.mem = s.mem := by simp [State.voteOn]

@[simp] theorem State.txnCommitted_mem (s : State) (g : Group) (o : Option Origin) : (s.txnCommitted g o).mem = s.mem := by
  simp [State.txnCommitted]

@[simp] theorem State.sendDecision_mem (s : State) (group : BitVec 32) (commit : Bool) : (s.sendDecision group commit).mem = s.mem := by
  simp [State.sendDecision]

@[simp] theorem State.decideTxn_mem (s : State) (c : Coordination) (commit : Bool) (detail : Nat) :
    (s.decideTxn c commit detail).mem = s.mem := by
  unfold State.decideTxn
  dsimp only
  (repeat' split) <;> simp

@[simp] theorem State.prepareBack_mem (s : State) (c : Coordination) (m : PrepareMsg) : (s.prepareBack c m).mem = s.mem := by
  simp [State.prepareBack]

@[simp] theorem State.startPrepare_mem (s : State) (g : Group) (line : Nat) (o : Origin) : (s.startPrepare g line o).mem = s.mem := by
  simp [State.startPrepare]

@[simp] theorem State.takePrepare_mem (s : State) (m : PrepareMsg) : (s.takePrepare m).mem = s.mem := by
  unfold State.takePrepare
  split
  · (repeat' split) <;> simp
  · simp

@[simp] theorem State.takeDecision_mem (s : State) (h : ChainHdr) (group : BitVec 32) (commit : Bool) :
    (s.takeDecision h group commit).mem = s.mem := by
  unfold State.takeDecision
  dsimp only
  (repeat' split) <;> simp

@[simp] theorem State.sendAnswer_mem (s : State) (src dst : Nat) (group : BitVec 32) (st : TxnAnswerState) :
    (s.sendAnswer src dst group st).mem = s.mem := by
  simp [State.sendAnswer]

@[simp] theorem State.takeQuery_mem (s : State) (h : ChainHdr) (group : BitVec 32) : (s.takeQuery h group).mem = s.mem := by
  simp [State.takeQuery]

@[simp] theorem State.takeAnswer_mem (s : State) (src : Fin 16) (group : BitVec 32) (st : TxnAnswerState) :
    (s.takeAnswer src group st).mem = s.mem := by
  unfold State.takeAnswer
  (repeat' split) <;> simp

/-! ### Encoder edges and marks (02) -/

@[simp] theorem State.countEdge_mem (s : State) (a b : Bool) (d0 : Int) : (s.countEdge a b d0).mem = s.mem := by
  simp -implicitDefEqProofs [State.countEdge]

@[simp] theorem State.edge_mem (s : State) (a b : Bool) : (s.edge a b).mem = s.mem := by
  unfold State.edge
  (repeat' split) <;> simp

@[simp] theorem State.markEvent_mem (s : State) (edge : Nat) : (s.markEvent edge).mem = s.mem := by simp [State.markEvent]

@[simp] theorem State.overspeedPost_mem (s : State) (r : Fin 16) : (s.overspeedPost r).mem = s.mem := by
  unfold State.overspeedPost
  dsimp only
  (repeat' split) <;> simp

/-! ### The start of a request (17) -/

@[simp] theorem State.takeRequest_mem (s : State) (m : Fin 8) : (s.takeRequest m).mem = s.mem := by simp [State.takeRequest]

end Sys2Proof.Machine
end

section
/-! PROOF. What leaves device memory alone, part three: the commands of the mailboxes (17 R431). A request writes what its command writes, and of
the commands JOB_START and LOG_READ alone may write. -/

namespace Sys2Proof.Machine

/-! ### How a request is served (17 R420 to R427) -/

@[simp] theorem Ans.fail_state (s : State) (st : Status) (detail : Nat) : (Ans.fail s st detail).state = s := rfl

@[simp] theorem Ans.ite_state (c : Prop) [Decidable c] (a b : Ans) : (if c then a else b).state = if c then a.state else b.state :=
  apply_ite _ _ _ _

@[simp] theorem checks_mem {s : State} {l : List (Bool × Status)} {k : Unit → Ans} (hk : (k ()).state.mem = s.mem) :
    (checks s l k).state.mem = s.mem := by
  induction l with
  | nil => exact hk
  | cons c l ih =>
    rw [checks_cons, Ans.ite_state, ite_mem, ih, Ans.fail_state, ite_self]

@[simp] theorem Ans.deliver_mem (a : Ans) (q : Req) (opcode : Nat) : (a.deliver q opcode).mem = a.state.mem := by
  unfold Ans.deliver
  (repeat' split) <;> simp

/-- What the execution of a request does to memory is what its command does. -/
theorem Cmd.execute_mem (c : Cmd) (q : Req) (s : State) :
    (c.execute q s).mem = s.mem ∨ (c.execute q s).mem = (c.run q (s.start q c.opcode)).state.mem := by
  unfold Cmd.execute Cmd.answer
  rw [Ans.deliver_mem]
  split
  · exact .inl (by simp)
  · split
    · exact .inl (by simp)
    · exact .inr rfl

theorem serve_mem_cases (c : Cmd) (q : Req) (s : State) :
    (serve c q s).mem = s.mem ∨ (serve c q s).mem = (c.run q (s.start q c.opcode)).state.mem := by
  unfold serve
  split
  · exact c.execute_mem q s
  · exact .inl (by (repeat' split) <;> simp)

/-- A command that leaves memory alone, whatever the request asks. -/
def Cmd.KeepsMemory (c : Cmd) : Prop := ∀ q s, (c.run q s).state.mem = s.mem

theorem serve_mem {c : Cmd} (hc : c.KeepsMemory) (q : Req) (s : State) : (serve c q s).mem = s.mem := by
  rcases serve_mem_cases c q s with h | h
  · exact h
  · simp [h, hc _ _]

/-! ### Answers of several commands -/

@[simp] theorem State.wakeConns_mem (s : State) (o : Origin) (named : Nat) : (s.wakeConns o named).state.mem = s.mem := by
  simp [State.wakeConns]

@[simp] theorem State.sleepConns_mem (s : State) (o : Origin) (named : Nat) : (s.sleepConns o named).state.mem = s.mem := by
  simp [State.sleepConns]

@[simp] theorem State.loadMembers_mem (s : State) (g : Group) (ms : List (Member × Nat)) : (s.loadMembers g ms).state.mem = s.mem := by
  simp [State.loadMembers]

@[simp] theorem Ans.loadFail_mem (s : State) (e : LoadError) : (Ans.loadFail s e).state.mem = s.mem := by simp [Ans.loadFail]

@[simp] theorem definePanel_mem (slot : Fin 4096) (src : Nat) (s : State) : (definePanel slot src s).state.mem = s.mem := by
  unfold definePanel
  split <;> simp

@[simp] theorem State.addMember_mem (s : State) (g : Group) (ty length : Nat) (body : List Byte) :
    (s.addMember g ty length body).state.mem = s.mem := by
  unfold State.addMember
  (repeat' split) <;> simp

theorem boundaryAns_mem {s : State} {r : Except (Status × Nat) (State × Nat)} (hplaced : ∀ t l, r = .ok (t, l) → t.mem = s.mem) :
    (boundaryAns s r).state.mem = s.mem := by
  unfold boundaryAns
  split
  next t l => exact hplaced t l rfl
  next => rfl

theorem State.namedGroup_mem {s : State} {k : Group → Ans} (hk : ∀ g, (k g).state.mem = s.mem) (q : Req) (bad : Bool) :
    (s.namedGroup q bad k).state.mem = s.mem := by
  unfold State.namedGroup
  (repeat' split) <;> simp [hk]

theorem sealAns_mem {r : State × Option (Status × Nat)} {k : State → Ans} (hk : ∀ s, (k s).state.mem = s.mem) :
    (sealAns r k).state.mem = r.1.mem := by
  unfold sealAns
  split <;> simp [hk]

@[simp] theorem State.commitLocal_mem (s : State) (g : Group) (n : Gen) (asap : Bool) (line : Nat) :
    (s.commitLocal g n asap line).state.mem = s.mem := by
  unfold State.commitLocal
  dsimp only
  (repeat' split) <;> simp

@[simp] theorem State.commitSealed_mem (s : State) (id : BitVec 32) (o : Origin) (asap : Bool) (line : Nat) :
    (s.commitSealed id o asap line).state.mem = s.mem := by
  unfold State.commitSealed
  split <;> simp

/-! ### The commands of the index (R431) -/

@[simp] theorem cmdClockStatus_keepsMemory : cmdClockStatus.KeepsMemory := fun q s => by simp [cmdClockStatus]
@[simp] theorem cmdLogStatus_keepsMemory : cmdLogStatus.KeepsMemory := fun q s => by simp [cmdLogStatus]
@[simp] theorem cmdPowerStatus_keepsMemory : cmdPowerStatus.KeepsMemory := fun q s => by simp [cmdPowerStatus]
@[simp] theorem cmdThermalConfig_keepsMemory : cmdThermalConfig.KeepsMemory := fun q s => by simp [cmdThermalConfig]
@[simp] theorem cmdCodecConfig_keepsMemory : cmdCodecConfig.KeepsMemory := fun q s => by simp [cmdCodecConfig]
@[simp] theorem cmdCodecStatus_keepsMemory : cmdCodecStatus.KeepsMemory := fun q s => by simp [cmdCodecStatus]
@[simp] theorem cmdCodecCheck_keepsMemory : cmdCodecCheck.KeepsMemory := fun q s => by simp [cmdCodecCheck]

@[simp] theorem cmdTileStage_keepsMemory : cmdTileStage.KeepsMemory := by
  intro q s
  unfold cmdTileStage
  dsimp only
  (repeat' split) <;> simp -implicitDefEqProofs

@[simp] theorem cmdTileFree_keepsMemory : cmdTileFree.KeepsMemory := by
  intro q s
  unfold cmdTileFree
  dsimp only
  (repeat' split) <;> simp -implicitDefEqProofs

@[simp] theorem cmdTileInfo_keepsMemory : cmdTileInfo.KeepsMemory := fun q s => by simp [cmdTileInfo]
@[simp] theorem cmdListStage_keepsMemory : cmdListStage.KeepsMemory := fun q s => by simp [cmdListStage]
@[simp] theorem cmdListFree_keepsMemory : cmdListFree.KeepsMemory := fun q s => by simp [cmdListFree]
@[simp] theorem cmdProofCapture_keepsMemory : cmdProofCapture.KeepsMemory := fun q s => by simp [cmdProofCapture]
@[simp] theorem cmdProofCancel_keepsMemory : cmdProofCancel.KeepsMemory := fun q s => by simp [cmdProofCancel]
@[simp] theorem cmdHamperStatus_keepsMemory : cmdHamperStatus.KeepsMemory := fun q s => by simp [cmdHamperStatus]
@[simp] theorem cmdLinkControl_keepsMemory : cmdLinkControl.KeepsMemory := fun q s => by simp [cmdLinkControl]
@[simp] theorem cmdLaneConfig_keepsMemory : cmdLaneConfig.KeepsMemory := fun q s => by simp -implicitDefEqProofs [cmdLaneConfig]
@[simp] theorem cmdLaneStatus_keepsMemory : cmdLaneStatus.KeepsMemory := fun q s => by simp [cmdLaneStatus]
@[simp] theorem cmdLaneTest_keepsMemory : cmdLaneTest.KeepsMemory := fun q s => by simp [cmdLaneTest]
@[simp] theorem cmdLaneTestRead_keepsMemory : cmdLaneTestRead.KeepsMemory := fun q s => by simp [cmdLaneTestRead]
@[simp] theorem cmdMemStatus_keepsMemory : cmdMemStatus.KeepsMemory := fun q s => by simp [cmdMemStatus]
@[simp] theorem cmdMemConfig_keepsMemory : cmdMemConfig.KeepsMemory := fun q s => by simp [cmdMemConfig]
@[simp] theorem cmdMemInject_keepsMemory : cmdMemInject.KeepsMemory := fun q s => by simp [cmdMemInject]
@[simp] theorem cmdCalStatus_keepsMemory : cmdCalStatus.KeepsMemory := fun q s => by simp [cmdCalStatus]
@[simp] theorem cmdCalLimits_keepsMemory : cmdCalLimits.KeepsMemory := fun q s => by simp [cmdCalLimits]

@[simp] theorem cmdCalTrim_keepsMemory : cmdCalTrim.KeepsMemory := by
  intro q s
  refine checks_mem ?_
  dsimp only
  split <;> simp

@[simp] theorem cmdCalChart_keepsMemory : cmdCalChart.KeepsMemory := by
  intro q s
  refine checks_mem ?_
  dsimp only
  split <;> simp

@[simp] theorem cmdCalAlignLoad_keepsMemory : cmdCalAlignLoad.KeepsMemory := by
  intro q s
  refine checks_mem ?_
  dsimp only
  (repeat' split) <;> simp

@[simp] theorem cmdChainStatus_keepsMemory : cmdChainStatus.KeepsMemory := fun q s => by simp [cmdChainStatus]
@[simp] theorem cmdChainEnumerate_keepsMemory : cmdChainEnumerate.KeepsMemory := fun q s => by simp [cmdChainEnumerate]
@[simp] theorem cmdChainConfig_keepsMemory : cmdChainConfig.KeepsMemory := fun q s => by simp [cmdChainConfig]
@[simp] theorem cmdChainForward_keepsMemory : cmdChainForward.KeepsMemory := fun q s => by simp [cmdChainForward]
@[simp] theorem cmdChainLink_keepsMemory : cmdChainLink.KeepsMemory := fun q s => by simp [cmdChainLink]
@[simp] theorem cmdCheckConfig_keepsMemory : cmdCheckConfig.KeepsMemory := fun q s => by simp [cmdCheckConfig]
@[simp] theorem cmdCheckInject_keepsMemory : cmdCheckInject.KeepsMemory := fun q s => by simp [cmdCheckInject]
@[simp] theorem cmdCheckStatus_keepsMemory : cmdCheckStatus.KeepsMemory := fun q s => by simp [cmdCheckStatus]
@[simp] theorem cmdFwStatus_keepsMemory : cmdFwStatus.KeepsMemory := fun q s => by simp [cmdFwStatus]
@[simp] theorem cmdFwUpdateBegin_keepsMemory : cmdFwUpdateBegin.KeepsMemory := fun q s => by simp [cmdFwUpdateBegin]

@[simp] theorem cmdFwUpdateData_keepsMemory : cmdFwUpdateData.KeepsMemory := by
  intro q s
  unfold cmdFwUpdateData
  dsimp only
  (repeat' split) <;> simp

@[simp] theorem cmdFwUpdateCommit_keepsMemory : cmdFwUpdateCommit.KeepsMemory := by
  intro q s
  unfold cmdFwUpdateCommit
  dsimp only
  (repeat' split) <;> simp -implicitDefEqProofs

@[simp] theorem cmdHeadDriverInfo_keepsMemory : cmdHeadDriverInfo.KeepsMemory := fun q s => by simp [cmdHeadDriverInfo]
@[simp] theorem cmdHeadTunnel_keepsMemory : cmdHeadTunnel.KeepsMemory := fun q s => by simp [cmdHeadTunnel]
@[simp] theorem cmdHacConfig_keepsMemory : cmdHacConfig.KeepsMemory := fun q s => by simp [cmdHacConfig]
@[simp] theorem cmdHeadAuthStatus_keepsMemory : cmdHeadAuthStatus.KeepsMemory := fun q s => by simp [cmdHeadAuthStatus]
@[simp] theorem cmdHeadUsage_keepsMemory : cmdHeadUsage.KeepsMemory := fun q s => by simp [cmdHeadUsage]
@[simp] theorem cmdUsageCommitNow_keepsMemory : cmdUsageCommitNow.KeepsMemory := fun q s => by simp -implicitDefEqProofs [cmdUsageCommitNow]
@[simp] theorem cmdPlaneDefine_keepsMemory : cmdPlaneDefine.KeepsMemory := fun q s => by simp [cmdPlaneDefine]
@[simp] theorem cmdRowDefine_keepsMemory : cmdRowDefine.KeepsMemory := fun q s => by simp [cmdRowDefine]
@[simp] theorem cmdPanelDefine_keepsMemory : cmdPanelDefine.KeepsMemory := fun q s => by simp [cmdPanelDefine]

@[simp] theorem cmdJobDefine_keepsMemory : cmdJobDefine.KeepsMemory := by
  intro q s
  refine checks_mem ?_
  dsimp only
  split <;> simp

@[simp] theorem cmdJobClear_keepsMemory : cmdJobClear.KeepsMemory := fun q s => by simp [cmdJobClear]

@[simp] theorem cmdJobArm_keepsMemory : cmdJobArm.KeepsMemory := by
  intro q s
  unfold cmdJobArm
  dsimp only
  (repeat' split) <;> simp -implicitDefEqProofs

@[simp] theorem cmdJobPause_keepsMemory : cmdJobPause.KeepsMemory :=
  fun _ _ => checks_mem (boundaryAns_mem fun _ _ => State.placePause_mem)

@[simp] theorem cmdJobResume_keepsMemory : cmdJobResume.KeepsMemory := by
  refine fun q s => checks_mem (boundaryAns_mem fun t l hplaced => ?_)
  split at hplaced
  · exact State.cancelPause_mem hplaced
  · exact State.placeResume_mem hplaced

@[simp] theorem cmdJobStop_keepsMemory : cmdJobStop.KeepsMemory := by
  intro q s
  unfold cmdJobStop
  dsimp only
  (repeat' split) <;> simp -implicitDefEqProofs

@[simp] theorem cmdJobStatus_keepsMemory : cmdJobStatus.KeepsMemory := fun q s => by simp [cmdJobStatus]
@[simp] theorem cmdScreenPlane_keepsMemory : cmdScreenPlane.KeepsMemory := fun q s => by simp [cmdScreenPlane]
@[simp] theorem cmdScreenMatrix_keepsMemory : cmdScreenMatrix.KeepsMemory := fun q s => by simp [cmdScreenMatrix]
@[simp] theorem cmdHistSet_keepsMemory : cmdHistSet.KeepsMemory := fun q s => by simp [cmdHistSet]
@[simp] theorem cmdHistRow_keepsMemory : cmdHistRow.KeepsMemory := fun q s => by simp [cmdHistRow]
@[simp] theorem cmdMgmtJobStop_keepsMemory : cmdMgmtJobStop.KeepsMemory := fun q s => by simp [cmdMgmtJobStop]
@[simp] theorem cmdMgmtDomains_keepsMemory : cmdMgmtDomains.KeepsMemory := fun q s => by simp [cmdMgmtDomains]
@[simp] theorem cmdRecoveryBegin_keepsMemory : cmdRecoveryBegin.KeepsMemory := fun q s => by simp [cmdRecoveryBegin]

@[simp] theorem cmdRecoveryData_keepsMemory : cmdRecoveryData.KeepsMemory := by
  intro q s
  unfold cmdRecoveryData
  dsimp only
  (repeat' split) <;> simp -implicitDefEqProofs

@[simp] theorem cmdRecoveryCommit_keepsMemory : cmdRecoveryCommit.KeepsMemory := by
  intro q s
  unfold cmdRecoveryCommit
  dsimp only
  (repeat' split) <;> simp -implicitDefEqProofs

@[simp] theorem cmdDrivePortConfig_keepsMemory : cmdDrivePortConfig.KeepsMemory := fun q s => by simp [cmdDrivePortConfig]
@[simp] theorem cmdAxisConfig_keepsMemory : cmdAxisConfig.KeepsMemory := fun q s => by simp -implicitDefEqProofs [cmdAxisConfig]
@[simp] theorem cmdAxisEnable_keepsMemory : cmdAxisEnable.KeepsMemory := fun q s => by simp [cmdAxisEnable]

@[simp] theorem cmdAxisMotion_keepsMemory : cmdAxisMotion.KeepsMemory := by
  intro q s
  refine checks_mem ?_
  dsimp only
  split <;> simp

@[simp] theorem cmdAxisGear_keepsMemory : cmdAxisGear.KeepsMemory := fun q s => by simp [cmdAxisGear]
@[simp] theorem cmdAxisHome_keepsMemory : cmdAxisHome.KeepsMemory := fun q s => by simp [cmdAxisHome]
@[simp] theorem cmdAxisLimits_keepsMemory : cmdAxisLimits.KeepsMemory := fun q s => by simp -implicitDefEqProofs [cmdAxisLimits]
@[simp] theorem cmdAxisStatus_keepsMemory : cmdAxisStatus.KeepsMemory := fun q s => by simp [cmdAxisStatus]
@[simp] theorem cmdRunaheadConfig_keepsMemory : cmdRunaheadConfig.KeepsMemory := fun q s => by simp [cmdRunaheadConfig]
@[simp] theorem cmdRunaheadStatus_keepsMemory : cmdRunaheadStatus.KeepsMemory := fun q s => by simp [cmdRunaheadStatus]
@[simp] theorem cmdStrobeConfig_keepsMemory : cmdStrobeConfig.KeepsMemory := fun q s => by simp [cmdStrobeConfig]
@[simp] theorem cmdNop_keepsMemory : cmdNop.KeepsMemory := fun q s => by simp [cmdNop]
@[simp] theorem cmdModuleInfo_keepsMemory : cmdModuleInfo.KeepsMemory := fun q s => by simp [cmdModuleInfo]
@[simp] theorem cmdEventRoute_keepsMemory : cmdEventRoute.KeepsMemory := fun q s => by simp [cmdEventRoute]
@[simp] theorem cmdModuleReset_keepsMemory : cmdModuleReset.KeepsMemory := fun q s => by simp [cmdModuleReset]
@[simp] theorem cmdTxnOpen_keepsMemory : cmdTxnOpen.KeepsMemory := fun q s => by simp [cmdTxnOpen]

@[simp] theorem cmdTxnAdd_keepsMemory : cmdTxnAdd.KeepsMemory := by
  intro q s
  unfold cmdTxnAdd
  dsimp only
  (repeat' split) <;> simp -implicitDefEqProofs

@[simp] theorem cmdTxnSeal_keepsMemory : cmdTxnSeal.KeepsMemory := by
  refine fun q s => State.namedGroup_mem (fun g => ?_) q _
  rw [Ans.ite_state, ite_mem, sealAns_mem fun _ => rfl]
  simp

@[simp] theorem cmdTxnDiscard_keepsMemory : cmdTxnDiscard.KeepsMemory := by
  intro q s
  unfold cmdTxnDiscard
  dsimp only
  (repeat' split) <;> simp

@[simp] theorem cmdTxnStatus_keepsMemory : cmdTxnStatus.KeepsMemory := fun q s => by simp [cmdTxnStatus]

@[simp] theorem cmdTxnCommit_keepsMemory : cmdTxnCommit.KeepsMemory := by
  refine fun q s => State.namedGroup_mem (fun g => checks_mem ?_) q _
  rw [sealAns_mem fun _ => State.commitSealed_mem ..]
  simp

@[simp] theorem cmdWebConfig_keepsMemory : cmdWebConfig.KeepsMemory := fun q s => by simp [cmdWebConfig]
@[simp] theorem cmdRowGeometry_keepsMemory : cmdRowGeometry.KeepsMemory := fun q s => by simp -implicitDefEqProofs [cmdRowGeometry]
@[simp] theorem cmdWebStatus_keepsMemory : cmdWebStatus.KeepsMemory := fun q s => by simp [cmdWebStatus]

end Sys2Proof.Machine
end

section
/-! PROOF. What leaves device memory alone, part four: register accesses, pins, bus transactions, timers and the module's own steps (01 R23). -/

namespace Sys2Proof.Machine

/-- An outcome whose state has the memory of `s`. -/
def KeepsMemory (s : State) : Host.Outcome State Fault Refusal → Prop
  | .next u => u.mem = s.mem
  | _ => True

@[simp] theorem keepsMemory_next (s u : State) : KeepsMemory s (.next u) ↔ u.mem = s.mem := Iff.rfl

@[simp] theorem keepsMemory_ite (s : State) (c : Prop) [Decidable c] (a b : Host.Outcome State Fault Refusal) :
    KeepsMemory s (if c then a else b) ↔ if c then KeepsMemory s a else KeepsMemory s b := by
  split <;> rfl

theorem execReqTailWrite_keepsMemory (m : Fin 4) (v : BitVec 32) (s : State) : KeepsMemory s (execReqTailWrite m v s) := by
  simp [execReqTailWrite]

theorem execRplHeadWrite_keepsMemory (m : Fin 4) (v : BitVec 32) (s : State) : KeepsMemory s (execRplHeadWrite m v s) := by
  simp [execRplHeadWrite]

theorem execMbStatusClear_keepsMemory (m : Fin 4) (v : BitVec 32) (s : State) : KeepsMemory s (execMbStatusClear m v s) := by
  simp [execMbStatusClear]

theorem execGlobalFaultClear_keepsMemory (v : BitVec 32) (s : State) : KeepsMemory s (execGlobalFaultClear v s) := by
  simp [execGlobalFaultClear]

theorem execBdAssignWrite_keepsMemory (v : BitVec 32) (s : State) : KeepsMemory s (execBdAssignWrite v s) := by simp [execBdAssignWrite]
theorem execDrqSoftWrite_keepsMemory (v : BitVec 32) (s : State) : KeepsMemory s (execDrqSoftWrite v s) := by simp [execDrqSoftWrite]

theorem execBar2BaseWrite_keepsMemory (part : Half) (v : BitVec 64) (s : State) : KeepsMemory s (execBar2BaseWrite part v s) := by
  cases part <;> simp [execBar2BaseWrite]

theorem execGo_keepsMemory (c : Fin 32) (v : BitVec 32) (s : State) : KeepsMemory s (execGo c v s) := by simp [execGo]
theorem execAbort_keepsMemory (c : Fin 32) (v : BitVec 32) (s : State) : KeepsMemory s (execAbort c v s) := by simp [execAbort]

theorem execBdStatusClear_keepsMemory (c : Fin 32) (v : BitVec 32) (s : State) : KeepsMemory s (execBdStatusClear c v s) := by
  simp [execBdStatusClear]

theorem execQCtrlEnable_keepsMemory (n : Fin 48) (v : BitVec 32) (s : State) : KeepsMemory s (execQCtrlEnable n v s) := by
  simp [execQCtrlEnable]

theorem execQHeadWrite_keepsMemory (n : Fin 48) (v : BitVec 32) (s : State) : KeepsMemory s (execQHeadWrite n v s) := by
  simp [execQHeadWrite]

theorem execQStatusClear_keepsMemory (n : Fin 48) (v : BitVec 32) (s : State) : KeepsMemory s (execQStatusClear n v s) := by
  simp [execQStatusClear]

theorem execBar0RegisterWrite_keepsMemory (off : BitVec 24) (size : Nat) (v : BitVec 64) (s : State) :
    KeepsMemory s (execBar0RegisterWrite off size v s) := by
  simp [execBar0RegisterWrite]

theorem execBar0LowHalfRead_keepsMemory (off : BitVec 24) (size : Nat) (s : State) : KeepsMemory s (execBar0LowHalfRead off size s) := by
  simp [execBar0LowHalfRead]

theorem execBar2Read_keepsMemory (off : BitVec 32) (len : Nat) (s : State) : KeepsMemory s (execBar2Read off len s) := by
  simp [execBar2Read]

theorem execAlertStatusClear_keepsMemory (data : List Byte) (pec : Bool) (s : State) : KeepsMemory s (execAlertStatusClear data pec s) := by
  simp [execAlertStatusClear]

theorem execPwrCtrlWake_keepsMemory (data : List Byte) (pec : Bool) (t : Nat) (s : State) :
    KeepsMemory s (execPwrCtrlWake data pec t s) := by
  simp [execPwrCtrlWake]

theorem execMbCtrlGo_keepsMemory (n : Fin 2) (data : List Byte) (pec : Bool) (s : State) : KeepsMemory s (execMbCtrlGo n data pec s) := by
  simp [execMbCtrlGo]

theorem execMbCtrlPop_keepsMemory (n : Fin 2) (data : List Byte) (pec : Bool) (s : State) : KeepsMemory s (execMbCtrlPop n data pec s) := by
  simp [execMbCtrlPop]

theorem execMbCtrlClear_keepsMemory (n : Fin 2) (data : List Byte) (pec : Bool) (s : State) :
    KeepsMemory s (execMbCtrlClear n data pec s) := by
  simp [execMbCtrlClear]

theorem execMbReqWrite_keepsMemory (n : Fin 2) (data : List Byte) (pec : Bool) (s : State) :
    KeepsMemory s (execMbReqWrite n data pec s) := by
  simp [execMbReqWrite]

theorem execMbRplRead_keepsMemory (n : Fin 2) (off : Byte) (s : State) : KeepsMemory s (execMbRplRead n off s) := by simp [execMbRplRead]
theorem execAlertResponseRead_keepsMemory (s : State) : KeepsMemory s (execAlertResponseRead s) := by simp [execAlertResponseRead]

theorem execMgmtRegisterWrite_keepsMemory (code : Byte) (data : List Byte) (pec : Bool) (s : State) :
    KeepsMemory s (execMgmtRegisterWrite code data pec s) := by
  simp [execMgmtRegisterWrite]

theorem execSclTimeout_keepsMemory (t : Nat) (s : State) : KeepsMemory s (execSclTimeout t s) := by simp [execSclTimeout]

theorem execHeldReplyWrite_keepsMemory (m : Fin 8) (s : State) : KeepsMemory s (execHeldReplyWrite m s) := by
  unfold execHeldReplyWrite
  dsimp only
  split <;> simp

theorem execFinalReply_keepsMemory (t : Nat) (s : State) : KeepsMemory s (execFinalReply t s) := by
  unfold execFinalReply
  dsimp only
  (repeat' split) <;> simp

theorem execEventPost_keepsMemory (t : Nat) (s : State) : KeepsMemory s (execEventPost t s) := by
  unfold execEventPost
  dsimp only
  split <;> simp

theorem execEvqLost_keepsMemory (n : Fin 16) (t : Nat) (s : State) : KeepsMemory s (execEvqLost n t s) := by simp [execEvqLost]

theorem execQueueInterruptTimer_keepsMemory (n : Fin 48) (t : Nat) (s : State) : KeepsMemory s (execQueueInterruptTimer n t s) := by
  simp [execQueueInterruptTimer]

theorem execPerst_keepsMemory (t : Nat) (s : State) : KeepsMemory s (execPerst t s) := by simp [execPerst]
theorem execDrqPulse_keepsMemory (line : Fin 64) (t : Nat) (s : State) : KeepsMemory s (execDrqPulse line t s) := by simp [execDrqPulse]

theorem execDmaTransferDone_keepsMemory (c : Fin 48) (t : Nat) (s : State) : KeepsMemory s (execDmaTransferDone c t s) := by
  unfold execDmaTransferDone
  dsimp only
  split <;> simp

theorem execWaitCqRecord_keepsMemory (c : Fin 32) (t : Nat) (s : State) : KeepsMemory s (execWaitCqRecord c t s) := by
  unfold execWaitCqRecord
  dsimp only
  split <;> simp

theorem execMgmtResetN_keepsMemory (level : Bool) (t : Nat) (s : State) : KeepsMemory s (execMgmtResetN level t s) := by
  simp [execMgmtResetN]

theorem execModuleResetSequence_keepsMemory (t : Nat) (s : State) : KeepsMemory s (execModuleResetSequence t s) := by
  unfold execModuleResetSequence
  dsimp only
  split <;> simp

theorem execResetRelease_keepsMemory (t : Nat) (s : State) : KeepsMemory s (execResetRelease t s) := by
  unfold execResetRelease
  dsimp only
  split <;> simp

theorem execFwOperationDone_keepsMemory (r : FwResult) (t : Nat) (s : State) : KeepsMemory s (execFwOperationDone r t s) := by
  unfold execFwOperationDone
  dsimp only
  (repeat' split) <;> simp

theorem execFirmwareActivation_keepsMemory (t : Nat) (s : State) : KeepsMemory s (execFirmwareActivation t s) := by
  unfold execFirmwareActivation
  dsimp only
  split <;> simp

theorem execKettleFault_keepsMemory (t : Nat) (s : State) : KeepsMemory s (execKettleFault t s) := by simp [execKettleFault]
theorem execKettleWatchdog_keepsMemory (t : Nat) (s : State) : KeepsMemory s (execKettleWatchdog t s) := by simp [execKettleWatchdog]
theorem execThermosWatchdog_keepsMemory (t : Nat) (s : State) : KeepsMemory s (execThermosWatchdog t s) := by simp [execThermosWatchdog]

theorem execRepower_keepsMemory (d : Fin 12) (mv t : Nat) (s : State) : KeepsMemory s (execRepower d mv t s) := by
  unfold execRepower
  dsimp only
  split <;> simp

theorem execCrystalStart_keepsMemory (x : Crystal) (t : Nat) (s : State) : KeepsMemory s (execCrystalStart x t s) := by
  simp -implicitDefEqProofs [execCrystalStart]

theorem execCrystalStartLimit_keepsMemory (x : Crystal) (t : Nat) (s : State) : KeepsMemory s (execCrystalStartLimit x t s) := by
  simp -implicitDefEqProofs [execCrystalStartLimit]

theorem execClockLoss_keepsMemory (src : ClockSource) (t : Nat) (s : State) : KeepsMemory s (execClockLoss src t s) := by
  unfold execClockLoss
  dsimp only
  split <;> simp

theorem execPllLock_keepsMemory (p : Fin 8) (t : Nat) (s : State) : KeepsMemory s (execPllLock p t s) := by simp [execPllLock]

theorem execClockSwitch_keepsMemory (d : Fin 13) (t : Nat) (s : State) : KeepsMemory s (execClockSwitch d t s) := by
  unfold execClockSwitch
  dsimp only
  split <;> simp

theorem execSwitchHandshakeTimeout_keepsMemory (d : Fin 13) (t : Nat) (s : State) : KeepsMemory s (execSwitchHandshakeTimeout d t s) := by
  unfold execSwitchHandshakeTimeout
  dsimp only
  split <;> simp

theorem execNewClockTimeout_keepsMemory (d : Fin 13) (t : Nat) (s : State) : KeepsMemory s (execNewClockTimeout d t s) := by
  unfold execNewClockTimeout
  dsimp only
  split <;> simp

theorem execXbIncrementUpdate_keepsMemory (xaCycles t : Nat) (s : State) : KeepsMemory s (execXbIncrementUpdate xaCycles t s) := by
  simp [execXbIncrementUpdate]

theorem execTimeCopyReload_keepsMemory (d : Fin 13) (t : Nat) (s : State) : KeepsMemory s (execTimeCopyReload d t s) := by
  simp [execTimeCopyReload]

theorem execPeerInReset_keepsMemory (d : Fin 13) (drops : Nat) (s : State) : KeepsMemory s (execPeerInReset d drops s) := by
  simp [execPeerInReset]

theorem execCrossingReady_keepsMemory (d : Fin 13) (s : State) : KeepsMemory s (execCrossingReady d s) := by simp [execCrossingReady]

theorem execFioTrim_keepsMemory (khz : Nat) (code : Byte) (ok : Bool) (t : Nat) (s : State) :
    KeepsMemory s (execFioTrim khz code ok t s) := by
  simp -implicitDefEqProofs [execFioTrim]

theorem execSioTrim_keepsMemory (hz : Nat) (code : Byte) (ok : Bool) (t : Nat) (s : State) :
    KeepsMemory s (execSioTrim hz code ok t s) := by
  simp -implicitDefEqProofs [execSioTrim]

theorem execChartBuilt_keepsMemory (ok : Bool) (t : Nat) (s : State) : KeepsMemory s (execChartBuilt ok t s) := by
  unfold execChartBuilt
  dsimp only
  split
  · simp
  next c _ =>
    have hended : ((s.at t).chartEnd c).mem = s.mem := by simp
    split
    · simp
    · split
      · simp
      · split
        · simp
        · split
          · simp
          next s3 lists hrows => simp [State.chartRows_mem hrows]

theorem execMemRetrainDone_keepsMemory (failed failedTwice : BitVec 32) (t : Nat) (s : State) :
    KeepsMemory s (execMemRetrainDone failed failedTwice t s) := by
  simp [execMemRetrainDone]

theorem execEncoderEdge_keepsMemory (a b : Bool) (t : Nat) (s : State) : KeepsMemory s (execEncoderEdge a b t s) := by
  simp [execEncoderEdge]

theorem execLineFail_keepsMemory (t : Nat) (s : State) : KeepsMemory s (execLineFail t s) := by simp [execLineFail]
theorem execLineGood_keepsMemory (t : Nat) (s : State) : KeepsMemory s (execLineGood t s) := by simp -implicitDefEqProofs [execLineGood]

theorem execAccelerationCheck_keepsMemory (t : Nat) (s : State) : KeepsMemory s (execAccelerationCheck t s) := by
  simp [execAccelerationCheck]

theorem execStopTimeout_keepsMemory (t : Nat) (s : State) : KeepsMemory s (execStopTimeout t s) := by simp [execStopTimeout]
theorem execSpeedHigh_keepsMemory (t : Nat) (s : State) : KeepsMemory s (execSpeedHigh t s) := by simp [execSpeedHigh]

theorem execFireInhibit_keepsMemory (level : Bool) (edge t : Nat) (s : State) : KeepsMemory s (execFireInhibit level edge t s) := by
  simp [execFireInhibit]

theorem execRowStopped_keepsMemory (r : Fin 16) (t : Nat) (s : State) : KeepsMemory s (execRowStopped r t s) := by simp [execRowStopped]

theorem execRowDone_keepsMemory (r : Fin 16) (t : Nat) (s : State) : KeepsMemory s (execRowDone r t s) := by
  unfold execRowDone
  dsimp only
  split <;> simp

theorem execJobEnd_keepsMemory (t : Nat) (s : State) : KeepsMemory s (execJobEnd t s) := by simp [execJobEnd]

theorem execFaultStop_keepsMemory (t : Nat) (s : State) : KeepsMemory s (execFaultStop t s) := by
  unfold execFaultStop
  dsimp only
  (repeat' split) <;> simp

theorem execStrobeReadback_keepsMemory (r : Fin 16) (e : PadEdge) (t : Nat) (s : State) : KeepsMemory s (execStrobeReadback r e t s) := by
  simp [execStrobeReadback]

theorem execLsdOverspeed_keepsMemory (r : Fin 16) (t : Nat) (s : State) : KeepsMemory s (execLsdOverspeed r t s) := by
  simp [execLsdOverspeed]

theorem execArmingStep_keepsMemory (t : Nat) (s : State) : KeepsMemory s (execArmingStep t s) := by
  unfold execArmingStep
  dsimp only
  (repeat' split) <;> simp

theorem execRowReady_keepsMemory (r : Fin 16) (t : Nat) (s : State) : KeepsMemory s (execRowReady r t s) := by simp [execRowReady]

theorem execEngineLineDone_keepsMemory (p : Pipe) (h : Fin 32) (u : Upset) (t : Nat) (s : State) :
    KeepsMemory s (execEngineLineDone p h u t s) := by
  simp [execEngineLineDone]

theorem execCheckpointCompare_keepsMemory (r : Fin 16) (bad : CvuUpset) (t : Nat) (s : State) :
    KeepsMemory s (execCheckpointCompare r bad t s) := by
  simp [execCheckpointCompare]

theorem execLineCompare_keepsMemory (h : Fin 32) (bad : CvuUpset) (t : Nat) (s : State) : KeepsMemory s (execLineCompare h bad t s) := by
  simp [execLineCompare]

theorem execMissingTimeout_keepsMemory (h : Fin 32) (bad : CvuUpset) (t : Nat) (s : State) :
    KeepsMemory s (execMissingTimeout h bad t s) := by
  simp [execMissingTimeout]

theorem execCouplingTimeout_keepsMemory (p : Pipe) (h : Fin 32) (waits : Nat) (bad : CvuUpset) (t : Nat) (s : State) :
    KeepsMemory s (execCouplingTimeout p h waits bad t s) := by
  simp [execCouplingTimeout]

theorem execSquash_keepsMemory (r : Fin 16) (t : Nat) (s : State) : KeepsMemory s (execSquash r t s) := by simp [execSquash]

theorem execSpcReplayLate_keepsMemory (r : Fin 16) (t : Nat) (s : State) : KeepsMemory s (execSpcReplayLate r t s) := by
  simp [execSpcReplayLate]

theorem execSpcDry_keepsMemory (r : Fin 16) (t : Nat) (s : State) : KeepsMemory s (execSpcDry r t s) := by simp [execSpcDry]
theorem execPourRecheck_keepsMemory (h : Fin 32) (t : Nat) (s : State) : KeepsMemory s (execPourRecheck h t s) := by simp [execPourRecheck]

theorem execFrameSend_keepsMemory (l : Fin 32) (upset : Upset) (cvuBad t : Nat) (s : State) :
    KeepsMemory s (execFrameSend l upset cvuBad t s) := by
  simp [execFrameSend]

theorem execAck_keepsMemory (l : Fin 32) (hdr : BitVec 2) (blk : BitVec 64) (t : Nat) (s : State) :
    KeepsMemory s (execAck l hdr blk t s) := by
  simp [execAck]

theorem execAckTimeout_keepsMemory (l : Fin 32) (t : Nat) (s : State) : KeepsMemory s (execAckTimeout l t s) := by
  unfold execAckTimeout
  dsimp only
  split <;> simp

theorem execFlush_keepsMemory (l : Fin 32) (t : Nat) (s : State) : KeepsMemory s (execFlush l t s) := by
  unfold execFlush
  dsimp only
  split <;> simp

theorem execFlushTimeout_keepsMemory (l : Fin 32) (t : Nat) (s : State) : KeepsMemory s (execFlushTimeout l t s) := by
  unfold execFlushTimeout
  dsimp only
  split <;> simp

theorem execLaneTrainingBlock_keepsMemory (l : Fin 34) (hdr : BitVec 2) (blk : BitVec 64) (t : Nat) (s : State) :
    KeepsMemory s (execLaneTrainingBlock l hdr blk t s) := by
  simp [execLaneTrainingBlock]

theorem execLaneStageDone_keepsMemory (l : Fin 34) (seen : LaneSeen) (t : Nat) (s : State) :
    KeepsMemory s (execLaneStageDone l seen t s) := by
  simp [execLaneStageDone]

theorem execStageLimit_keepsMemory (l : Fin 34) (t : Nat) (s : State) : KeepsMemory s (execStageLimit l t s) := by
  unfold execStageLimit
  dsimp only
  split <;> simp

theorem execLaneLoss_keepsMemory (l : Fin 32) (cause : BitVec 4) (headers : List (BitVec 2)) (t : Nat) (s : State) :
    KeepsMemory s (execLaneLoss l cause headers t s) := by
  simp [execLaneLoss]

theorem execRetrainDone_keepsMemory (l : Fin 32) (t : Nat) (s : State) : KeepsMemory s (execRetrainDone l t s) := by simp [execRetrainDone]
theorem execAutoSleep_keepsMemory (c : Fin 4) (t : Nat) (s : State) : KeepsMemory s (execAutoSleep c t s) := by simp [execAutoSleep]

theorem execLaneTestEnd_keepsMemory (t : Nat) (s : State) : KeepsMemory s (execLaneTestEnd t s) := by
  unfold execLaneTestEnd
  dsimp only
  split <;> simp

theorem execHmcAnswer_keepsMemory (c : Fin 4) (chars : List (Byte × Bool)) (t : Nat) (s : State) :
    KeepsMemory s (execHmcAnswer c chars t s) := by
  simp [execHmcAnswer]

theorem execHmcTimeout_keepsMemory (c : Fin 4) (t : Nat) (s : State) : KeepsMemory s (execHmcTimeout c t s) := by
  unfold execHmcTimeout
  dsimp only
  split <;> simp

theorem execHmcStatusPoll_keepsMemory (c : Fin 4) (t : Nat) (s : State) : KeepsMemory s (execHmcStatusPoll c t s) := by
  simp [execHmcStatusPoll]

theorem execUsageCommit_keepsMemory (t : Nat) (s : State) : KeepsMemory s (execUsageCommit t s) := by simp [execUsageCommit]

theorem execChnAck_keepsMemory (side : Side) (blk : BitVec 64) (t : Nat) (s : State) : KeepsMemory s (execChnAck side blk t s) := by
  unfold execChnAck
  dsimp only
  (repeat' split) <;> simp

theorem execChnAckTimeout_keepsMemory (side : Side) (t : Nat) (s : State) : KeepsMemory s (execChnAckTimeout side t s) := by
  unfold execChnAckTimeout
  dsimp only
  split <;> simp

theorem execEnum_keepsMemory (h : ChainHdr) (value : Byte) (serial : BitVec 64) (t : Nat) (s : State) :
    KeepsMemory s (execEnum h value serial t s) := by
  simp [execEnum]

theorem execEnumDone_keepsMemory (h : ChainHdr) (count : Byte) (epoch : BitVec 6) (serial : BitVec 64) (t : Nat) (s : State) :
    KeepsMemory s (execEnumDone h count epoch serial t s) := by
  simp [execEnumDone]

theorem execEnumTimeout_keepsMemory (t : Nat) (s : State) : KeepsMemory s (execEnumTimeout t s) := by
  unfold execEnumTimeout
  dsimp only
  split <;> simp

theorem execNoHead_keepsMemory (t : Nat) (s : State) : KeepsMemory s (execNoHead t s) := by
  unfold execNoHead
  dsimp only
  split <;> simp

theorem execRejoin_keepsMemory (h : ChainHdr) (m : RejoinMsg) (t : Nat) (s : State) : KeepsMemory s (execRejoin h m t s) := by
  unfold execRejoin
  dsimp only
  (repeat' split) <;> simp

theorem execSync_keepsMemory (side : Side) (t1 t2 t3 t4 : Nat) (s : State) : KeepsMemory s (execSync side t1 t2 t3 t4 s) := by
  simp [execSync]

theorem execBeaconSample_keepsMemory (t : Nat) (s : State) : KeepsMemory s (execBeaconSample t s) := by
  unfold execBeaconSample
  dsimp only
  (repeat' split) <;> simp

theorem execBeacon_keepsMemory (h : ChainHdr) (b : Beacon) (t : Nat) (s : State) : KeepsMemory s (execBeacon h b t s) := by
  simp [execBeacon]

theorem execBeaconLoss_keepsMemory (t : Nat) (s : State) : KeepsMemory s (execBeaconLoss t s) := by simp [execBeaconLoss]

theorem execTxnPrepare_keepsMemory (h : ChainHdr) (m : PrepareMsg) (t : Nat) (s : State) : KeepsMemory s (execTxnPrepare h m t s) := by
  simp [execTxnPrepare]

theorem execPrepareTimeout_keepsMemory (t : Nat) (s : State) : KeepsMemory s (execPrepareTimeout t s) := by
  unfold execPrepareTimeout
  dsimp only
  split <;> simp

theorem execTxnDecision_keepsMemory (h : ChainHdr) (group : BitVec 32) (commit : Bool) (t : Nat) (s : State) :
    KeepsMemory s (execTxnDecision h group commit t s) := by
  simp [execTxnDecision]

theorem execDecisionTimeout_keepsMemory (t : Nat) (s : State) : KeepsMemory s (execDecisionTimeout t s) := by
  unfold execDecisionTimeout
  dsimp only
  split <;> simp

theorem execTxnQuery_keepsMemory (h : ChainHdr) (group : BitVec 32) (t : Nat) (s : State) : KeepsMemory s (execTxnQuery h group t s) := by
  simp [execTxnQuery]

theorem execTxnAnswer_keepsMemory (h : ChainHdr) (group : BitVec 32) (st : TxnAnswerState) (t : Nat) (s : State) :
    KeepsMemory s (execTxnAnswer h group st t s) := by
  simp [execTxnAnswer]

theorem execChnFault_keepsMemory (h : ChainHdr) (fclass : Byte) (stop : Bool) (time : BitVec 64) (t : Nat) (s : State) :
    KeepsMemory s (execChnFault h fclass stop time t s) := by
  simp [execChnFault]

theorem execChnWaste_keepsMemory (h : ChainHdr) (cause : Byte) (first last : Int) (t : Nat) (s : State) :
    KeepsMemory s (execChnWaste h cause first last t s) := by
  simp [execChnWaste]

theorem execResetNotice_keepsMemory (h : ChainHdr) (cause : Byte) (t : Nat) (s : State) : KeepsMemory s (execResetNotice h cause t s) := by
  simp [execResetNotice]

theorem execPeerReq_keepsMemory (h : ChainHdr) (mgmt : Bool) (msg : List Byte) (t : Nat) (s : State) :
    KeepsMemory s (execPeerReq h mgmt msg t s) := by
  simp [execPeerReq]

theorem execPeerReply_keepsMemory (h : ChainHdr) (msg : List Byte) (full t : Nat) (s : State) :
    KeepsMemory s (execPeerReply h msg full t s) := by
  unfold execPeerReply
  dsimp only
  (repeat' split) <;> simp

theorem execForwardTimeout_keepsMemory (t : Nat) (s : State) : KeepsMemory s (execForwardTimeout t s) := by simp [execForwardTimeout]

theorem execHopLoss_keepsMemory (side : Side) (cause : BitVec 4) (headers : List (BitVec 2)) (t : Nat) (s : State) :
    KeepsMemory s (execHopLoss side cause headers t s) := by
  simp [execHopLoss]

theorem execHopRetrainDone_keepsMemory (side : Side) (t : Nat) (s : State) : KeepsMemory s (execHopRetrainDone side t s) := by
  unfold execHopRetrainDone
  dsimp only
  split <;> simp

theorem execChainSleepTimer_keepsMemory (t : Nat) (s : State) : KeepsMemory s (execChainSleepTimer t s) := by simp [execChainSleepTimer]

theorem execWasteBroadcast_keepsMemory (t : Nat) (s : State) : KeepsMemory s (execWasteBroadcast t s) := by
  unfold execWasteBroadcast
  dsimp only
  split <;> simp

theorem execServoTick_keepsMemory (t : Nat) (s : State) : KeepsMemory s (execServoTick t s) := by simp [execServoTick]

theorem execStatusFrame_keepsMemory (i : Fin 8) (f : List Byte) (t : Nat) (s : State) : KeepsMemory s (execStatusFrame i f t s) := by
  unfold execStatusFrame
  dsimp only
  (repeat' split) <;> simp

theorem execDriveSlotFault_keepsMemory (i : Fin 8) (cause : SlotFault) (t : Nat) (s : State) :
    KeepsMemory s (execDriveSlotFault i cause t s) := by
  simp [execDriveSlotFault]

theorem execEnableTimeout_keepsMemory (i : Fin 8) (t : Nat) (s : State) : KeepsMemory s (execEnableTimeout i t s) := by
  simp [execEnableTimeout]

theorem execHamperStaged_keepsMemory (tile : BitVec 24) (data : List Byte) (readOk : Bool) (t : Nat) (s : State) :
    KeepsMemory s (execHamperStaged tile data readOk t s) := by
  unfold execHamperStaged
  dsimp only
  (repeat' split) <;> simp

theorem execHamperListStaged_keepsMemory (data : List Byte) (readOk : Bool) (t : Nat) (s : State) :
    KeepsMemory s (execHamperListStaged data readOk t s) := by
  unfold execHamperListStaged
  dsimp only
  (repeat' split) <;> simp

theorem execBlockDecode_keepsMemory (p : Pipe) (u : Fin 16) (fail : Bool) (t : Nat) (s : State) :
    KeepsMemory s (execBlockDecode p u fail t s) := by
  unfold execBlockDecode
  dsimp only
  split <;> simp

theorem execCompressorVerify_keepsMemory (u : Fin 8) (fail : Bool) (t : Nat) (s : State) :
    KeepsMemory s (execCompressorVerify u fail t s) := by
  unfold execCompressorVerify
  dsimp only
  split <;> simp

theorem execCdxCheckDone_keepsMemory (t : Nat) (s : State) : KeepsMemory s (execCdxCheckDone t s) := by
  unfold execCdxCheckDone
  dsimp only
  (repeat' split) <;> simp

theorem execDramReadError_keepsMemory (addr : Nat) (bit : Fin 72) (double again : Bool) (reader : MemReader) (t : Nat) (s : State) :
    KeepsMemory s (execDramReadError addr bit double again reader t s) := by
  simp [execDramReadError]

theorem execSramReadError_keepsMemory (arr : SramArray) (addr : Nat) (double again : Bool) (t : Nat) (s : State) :
    KeepsMemory s (execSramReadError arr addr double again t s) := by
  simp [execSramReadError]

theorem execSramSweep_keepsMemory (arr : SramArray) (t : Nat) (s : State) : KeepsMemory s (execSramSweep arr t s) := by simp [execSramSweep]
theorem execScrubBurst_keepsMemory (t : Nat) (s : State) : KeepsMemory s (execScrubBurst t s) := by simp [execScrubBurst]

theorem execScrubPassEnd_keepsMemory (t : Nat) (s : State) : KeepsMemory s (execScrubPassEnd t s) := by
  unfold execScrubPassEnd
  dsimp only
  split
  · rw [keepsMemory_next]
    split <;> rfl
  · rfl

theorem execRefresh_keepsMemory (ch : Fin 32) (rank : Fin 2) (t : Nat) (s : State) : KeepsMemory s (execRefresh ch rank t s) := by
  simp -implicitDefEqProofs [execRefresh]

theorem execNeighbourRefresh_keepsMemory (ch : Fin 32) (rank : Fin 2) (bank : Fin 16) (row : Fin 131072) (t : Nat) (s : State) :
    KeepsMemory s (execNeighbourRefresh ch rank bank row t s) := by
  unfold execNeighbourRefresh
  dsimp only
  (repeat' split) <;> simp

theorem execRefreshRateRead_keepsMemory (mult : Nat) (t : Nat) (s : State) : KeepsMemory s (execRefreshRateRead mult t s) := by
  simp [execRefreshRateRead]

theorem execZqCalibration_keepsMemory (t : Nat) (s : State) : KeepsMemory s (execZqCalibration t s) := by simp [execZqCalibration]

theorem execDriftMeasure_keepsMemory (ch : Fin 32) (drift : DriftResult) (t : Nat) (s : State) :
    KeepsMemory s (execDriftMeasure ch drift t s) := by
  unfold execDriftMeasure
  dsimp only
  split <;> simp

theorem execSetPointDecision_keepsMemory (t : Nat) (s : State) : KeepsMemory s (execSetPointDecision t s) := by
  simp -implicitDefEqProofs [execSetPointDecision]

theorem execSelfRefresh_keepsMemory (t : Nat) (s : State) : KeepsMemory s (execSelfRefresh t s) := by simp [execSelfRefresh]

theorem execFenceViolation_keepsMemory (agent : Agent) (addr : Nat) (t : Nat) (s : State) :
    KeepsMemory s (execFenceViolation agent addr t s) := by
  simp [execFenceViolation]

theorem execFaultDetection_keepsMemory (t : Nat) (s : State) : KeepsMemory s (execFaultDetection t s) := by
  unfold execFaultDetection
  dsimp only
  split <;> simp

theorem execWasteRangeClose_keepsMemory (t : Nat) (s : State) : KeepsMemory s (execWasteRangeClose t s) := by simp [execWasteRangeClose]

theorem execWasteHoldEnd_keepsMemory (t : Nat) (s : State) : KeepsMemory s (execWasteHoldEnd t s) := by
  unfold execWasteHoldEnd
  dsimp only
  split <;> simp

theorem execSleepEntry_keepsMemory (c : Fin 4) (t : Nat) (s : State) : KeepsMemory s (execSleepEntry c t s) := by
  simp -implicitDefEqProofs [execSleepEntry]

theorem execChainOfOne_keepsMemory (t : Nat) (s : State) : KeepsMemory s (execChainOfOne t s) := by simp [execChainOfOne]
theorem execPerstRelease_keepsMemory (t : Nat) (s : State) : KeepsMemory s (execPerstRelease t s) := by simp [execPerstRelease]
theorem execHamperSpace_keepsMemory (t : Nat) (s : State) : KeepsMemory s (execHamperSpace t s) := by simp [execHamperSpace]
theorem execMemEcc_keepsMemory (m : Fin 8) (t : Nat) (s : State) : KeepsMemory s (execMemEcc m t s) := by simp [execMemEcc]

theorem execCheckerSync_keepsMemory (l : Fin 32) (bits : List Bool) (t : Nat) (s : State) : KeepsMemory s (execCheckerSync l bits t s) := by
  unfold execCheckerSync
  dsimp only
  split <;> simp

theorem execErrorInjection_keepsMemory (l : Fin 32) (t : Nat) (s : State) : KeepsMemory s (execErrorInjection l t s) := by
  unfold execErrorInjection
  dsimp only
  split <;> simp

theorem execChainWakeTimeout_keepsMemory (t : Nat) (s : State) : KeepsMemory s (execChainWakeTimeout t s) := by
  unfold execChainWakeTimeout
  dsimp only
  split <;> simp

end Sys2Proof.Machine
end

section
/-! PROOF. Device memory keeps its canonical form (11 R257; 19 R479; 20 R514): what writes it writes through the one operation that keeps the
form, what loses power leaves it empty, and all else leaves it alone: O5. -/

namespace Sys2Proof.Machine

/-! ### Proof captures, line starts and the origin latch (11 R270; 02 R39, R41) -/

theorem State.capture_wf {s : State} (h : Memory.wf s.mem = true) (r : Fin 16) (n status strobeNs : Nat) :
    Memory.wf (s.capture r n status strobeNs).mem = true := by
  unfold State.capture
  split
  · exact h
  · dsimp only
    split
    · simp only [ite_mem, State.endCapture_frame, State.drq_mem, ite_self]
      exact State.memWrite_wf h
    · exact h

theorem State.recapture_wf {s : State} (h : Memory.wf s.mem = true) (r : Fin 16) (n : Nat) : Memory.wf (s.recapture r n).mem = true := by
  unfold State.recapture
  split
  · exact h
  · exact State.memWrite_wf (State.memWrite_wf h)

theorem State.decide_wf {s : State} (h : Memory.wf s.mem = true) (r : Fin 16) (n : Nat) (fate : Fate) :
    Memory.wf (s.decide_ r n fate).mem = true := by
  unfold State.decide_
  dsimp only
  split
  · exact State.capture_wf (by simpa using h) ..
  · rw [State.advanceBuffer_mem]
    exact State.capture_wf (by simpa using h) ..
  · rw [State.advanceBuffer_mem]
    exact State.capture_wf (by simpa using h) ..

theorem State.startLine_wf {s : State} (h : Memory.wf s.mem = true) (r : Fin 16) (late : Bool) : Memory.wf (s.startLine r late).mem = true := by
  unfold State.startLine
  rw [State.afterStart_mem]
  exact State.decide_wf (by simpa using h) ..

theorem State.lateStarts_wf (k : Nat) {s : State} (h : Memory.wf s.mem = true) (r : Fin 16) : Memory.wf (State.lateStarts k s r).mem = true := by
  induction k generalizing s with
  | zero => exact h
  | succ k ih =>
    unfold State.lateStarts
    split
    · exact ih (State.startLine_wf h r true)
    · exact h

theorem foldl_wf {α : Type} {f : State → α → State} (hf : ∀ s a, Memory.wf s.mem = true → Memory.wf (f s a).mem = true) (l : List α)
    {s : State} (h : Memory.wf s.mem = true) : Memory.wf (l.foldl f s).mem = true :=
  List.foldlRecOn l f h fun s hs a _ => hf s a hs

theorem State.latch_wf {s : State} (h : Memory.wf s.mem = true) (at_ : Int) (time : Nat) : Memory.wf (s.latch at_ time).mem = true := by
  unfold State.latch
  exact foldl_wf (fun _ r hs => State.lateStarts_wf _ hs r) _ (by simpa using h)

theorem State.cancelPulse_wf {s : State} (h : Memory.wf s.mem = true) (r : Fin 16) (p : Pulse) (cause : Byte) :
    Memory.wf (s.cancelPulse r p cause).mem = true := by
  unfold State.cancelPulse
  rw [State.advanceBuffer_mem, State.wasteMark_mem]
  exact State.recapture_wf (by simpa using h) ..

theorem State.peEdge_wf {s : State} (h : Memory.wf s.mem = true) : Memory.wf s.peEdge.mem = true := by
  unfold State.peEdge
  split
  · simpa using h
  · split
    · dsimp only
      split
      · exact State.latch_wf (by simpa using h) ..
      · simpa using h
    · have hpause : (s.peBoundary 2 (s.placePause true 0)).mem = s.mem := State.peBoundary_mem _ fun _ _ => State.placePause_mem
      have hresume : (s.peBoundary 3 (s.placeResume true 0)).mem = s.mem := State.peBoundary_mem _ fun _ _ => State.placeResume_mem
      have hcancel : (s.peBoundary 4 s.cancelPause).mem = s.mem := State.peBoundary_mem _ fun _ _ => State.cancelPause_mem
      (repeat' split) <;> simpa [hpause, hresume, hcancel] using h

theorem State.zPulse_wf {s : State} (h : Memory.wf s.mem = true) : Memory.wf s.zPulse.mem = true := by
  unfold State.zPulse
  split
  · exact h
  · extract_lets _ s1 s2
    have h2 : s2.mem = s.mem := by
      unfold s2
      split
      · simp [s1]
      · split <;> simp [s1]
      · rfl
    split
    · exact State.latch_wf (by rw [h2]; exact h) ..
    · rw [h2]; exact h

theorem State.markRise_wf {s : State} (h : Memory.wf s.mem = true) (edge : Nat) : Memory.wf (s.markRise edge).mem = true := by
  unfold State.markRise
  split
  · exact h
  · split
    · simpa using h
    · split
      · exact State.latch_wf h ..
      · exact h
/-! ### Transfers and the aperture -/
theorem State.moveChunk_wf {s : State} (h : Memory.wf s.mem = true) (c : Fin 48) (off : Nat) (p : List Byte) :
    Memory.wf (s.moveChunk c off p).mem = true := by
  unfold State.moveChunk
  dsimp only
  rw [State.updChan_mem, (State.traffic_frame _ _ _).2.2.2.2.1]
  split
  · exact State.memWrite_wf h
  · exact h

theorem State.readDone_wf {s : State} (h : Memory.wf s.mem = true) (c : Fin 48) (data : List Byte) (ok : Bool) :
    Memory.wf (s.readDone c data ok).mem = true := by
  have hmove (u : State) (hu : u.mem = s.mem) (off : Nat) (p : List Byte) : Memory.wf ((u.moveChunk c off p).issueReads 64).mem = true := by
    rw [State.issueReads_mem]
    exact State.moveChunk_wf (hu ▸ h) ..
  unfold State.readDone
  split
  · exact h
  · dsimp only
    split
    · simpa using h
    · split
      · simpa using h
      · split
        · exact hmove _ (by simp) ..
        · split
          · exact hmove _ (by simp) ..
          · exact h

theorem State.apertureWrite_wf {s : State} (h : Memory.wf s.mem = true) (off : Nat) (p : List Byte) :
    Memory.wf (s.apertureWrite off p).mem = true := by
  unfold State.apertureWrite
  dsimp only
  split
  · exact h
  · split
    · exact State.memWrite_wf (by simpa using h)
    · simpa using h
/-! ### resets -/
theorem State.resetDomain_mem (s : State) (d : Fin 12) : (s.resetDomain d).mem = s.mem ∨ (s.resetDomain d).mem = [] := by
  unfold State.resetDomain
  split
  case h_2 => exact .inr rfl
  all_goals exact .inl (by simp)

theorem State.downOne_wf {s : State} (h : Memory.wf s.mem = true) (d : Fin 12) : Memory.wf (s.downOne d).mem = true := by
  unfold State.downOne
  split
  · rcases s.resetDomain_mem d with hm | hm
    · exact (congrArg Memory.wf hm).trans h
    · exact congrArg Memory.wf hm
  · exact h

theorem State.powerDown_wf {s : State} (h : Memory.wf s.mem = true) (d : Fin 12) : Memory.wf (s.powerDown d).mem = true := by
  refine foldl_wf (fun s e hs => ?_) _ h
  split
  · exact State.downOne_wf hs e
  · exact hs

@[simp] theorem State.standbyDown_mem (s : State) : s.standbyDown.mem = [] := rfl
@[simp] theorem State.powerOn_mem (s : State) (maddr : BitVec 3) (head : Bool) : (s.powerOn maddr head).mem = [] := rfl

@[simp] theorem State.mainRail_mem (s : State) (cause : RailCause) (delay : Nat) : (s.mainRail cause delay).mem = [] := by
  simp [State.mainRail]

theorem State.sideRail_wf {s : State} (h : Memory.wf s.mem = true) (d : Fin 12) (cause : RailCause) :
    Memory.wf (s.sideRail d cause).mem = true := by
  have hdown (u : State) (hu : u.mem = s.mem) : Memory.wf (u.powerDown d).mem = true := State.powerDown_wf (hu ▸ h) d
  simp [State.sideRail, hdown]

theorem State.railFault_wf {s : State} (h : Memory.wf s.mem = true) (d : Fin 12) (cause : RailCause) :
    Memory.wf (s.railFault d cause).mem = true := by
  unfold State.railFault
  split
  · split
    · rw [State.powerOn_mem, Memory.wf]
    · split
      · rw [State.mainRail_mem, Memory.wf]
      · exact State.sideRail_wf h ..
  · exact h

theorem State.criticalDown_wf {s : State} (h : Memory.wf s.mem = true) : Memory.wf s.criticalDown.mem = true := by
  unfold State.criticalDown
  split
  · rfl
  · split
    · exact h
    · exact h

theorem State.selfTested_wf {s : State} (h : Memory.wf s.mem = true) (stuck : List (Nat × Nat)) (unusable : List Nat) :
    Memory.wf (s.selfTested stuck unusable).mem = true := by
  unfold State.selfTested
  dsimp only
  split
  · simpa using h
  · simp [Memory.wf]

theorem State.bootStage_wf {s : State} (h : Memory.wf s.mem = true) (r : BootResult) : Memory.wf (s.bootStage r).mem = true := by
  unfold State.bootStage
  split
  case h_9 => exact State.selfTested_wf h ..
  case h_10 => exact State.selfTested_wf h ..
  all_goals simp [h]

/-! ### Requests that write or may write -/

/-- A command that keeps memory in its canonical form, whatever the request asks. -/
def Cmd.KeepsForm (c : Cmd) : Prop := ∀ q s, Memory.wf s.mem = true → Memory.wf (c.run q s).state.mem = true

theorem Cmd.KeepsMemory.keepsForm {c : Cmd} (hc : c.KeepsMemory) : c.KeepsForm := fun q s h => (congrArg Memory.wf (hc q s)).trans h

theorem checks_wf {s : State} {l : List (Bool × Status)} {k : Unit → Ans} (h : Memory.wf s.mem = true)
    (hk : Memory.wf (k ()).state.mem = true) : Memory.wf (checks s l k).state.mem = true := by
  induction l with
  | nil => exact hk
  | cons c l ih =>
    rw [checks_cons]
    split
    · exact h
    · exact ih

theorem cmdJobStart_keepsForm : cmdJobStart.KeepsForm := by
  refine fun q s h => checks_wf h ?_
  dsimp only
  split
  · exact State.latch_wf (by simpa using h) ..
  · simpa using h

theorem cmdLogRead_keepsForm : cmdLogRead.KeepsForm := by
  refine fun q s h => checks_wf h ?_
  dsimp only
  split
  · exact h
  · exact State.memWrite_wf h

theorem indexSystem_keepsForm : ∀ c ∈ indexSystem, c.KeepsForm := by
  have hkept : ∀ c ∈ indexSystem, c.KeepsMemory := by simp [indexSystem]
  exact fun c hc => (hkept c hc).keepsForm

theorem indexJob_keepsForm : ∀ c ∈ indexJob, c.KeepsForm := by
  simp [indexJob, Cmd.KeepsMemory.keepsForm, cmdJobStart_keepsForm]

theorem indexLink_keepsForm : ∀ c ∈ indexLink, c.KeepsForm := by
  simp [indexLink, Cmd.KeepsMemory.keepsForm, cmdLogRead_keepsForm]

theorem cmdAnswers_keepsMemory (opcode : Nat) (st : Status) : (cmdAnswers opcode st).KeepsMemory := fun _ _ => rfl

theorem State.commandFor_keepsForm (s : State) (opcode : Nat) : (s.commandFor opcode).KeepsForm := by
  unfold State.commandFor
  split
  · exact Cmd.KeepsMemory.keepsForm (cmdAnswers_keepsMemory _ _)
  next c hfound =>
    split
    · exact Cmd.KeepsMemory.keepsForm (cmdAnswers_keepsMemory _ _)
    · have hlisted : c ∈ indexSystem ++ indexJob ++ indexLink := List.mem_of_find?_eq_some hfound
      rcases List.mem_append.1 hlisted with h | h
      · exact (List.mem_append.1 h).elim (indexSystem_keepsForm c) (indexJob_keepsForm c)
      · exact indexLink_keepsForm c h

theorem serve_wf {c : Cmd} (hc : c.KeepsForm) (q : Req) {s : State} (h : Memory.wf s.mem = true) : Memory.wf (serve c q s).mem = true := by
  rcases serve_mem_cases c q s with hm | hm
  · rwa [hm]
  · rw [hm]
    exact hc _ _ (by simpa using h)

theorem State.startNext_wf {s : State} (h : Memory.wf s.mem = true) : Memory.wf s.startNext.mem = true := by
  unfold State.startNext
  split
  · exact h
  · split
    · exact h
    · exact serve_wf (s.commandFor_keepsForm _) _ (by simpa using h)

/-! ### Every command -/

/-- An outcome whose state keeps the canonical form that the memory of `s` has. -/
def KeepsForm (s : State) : Host.Outcome State Fault Refusal → Prop
  | .next u => Memory.wf s.mem = true → Memory.wf u.mem = true
  | _ => True

theorem KeepsMemory.keepsForm {s : State} {o : Host.Outcome State Fault Refusal} (h : KeepsMemory s o) : KeepsForm s o := by
  cases o with
  | next u => exact fun hs => (congrArg Memory.wf h).trans hs
  | _ => trivial

/-- Every command that decides or fires no line and is none of those that move memory leaves it alone. -/
theorem exec_keepsMemory {i : Instr} (s : State) (hline : Claims.captures i = false) (hmoves : Claims.movesMemory i = false) :
    KeepsMemory s (exec i s) := by
  cases i with
  | nop q => exact serve_mem cmdNop_keepsMemory q s
  | moduleInfo q => exact serve_mem cmdModuleInfo_keepsMemory q s
  | eventRoute q => exact serve_mem cmdEventRoute_keepsMemory q s
  | moduleReset q => exact serve_mem cmdModuleReset_keepsMemory q s
  | fwStatus q => exact serve_mem cmdFwStatus_keepsMemory q s
  | fwUpdateBegin q => exact serve_mem cmdFwUpdateBegin_keepsMemory q s
  | fwUpdateData q => exact serve_mem cmdFwUpdateData_keepsMemory q s
  | fwUpdateCommit q => exact serve_mem cmdFwUpdateCommit_keepsMemory q s
  | powerStatus q => exact serve_mem cmdPowerStatus_keepsMemory q s
  | thermalConfig q => exact serve_mem cmdThermalConfig_keepsMemory q s
  | hamperStatus q => exact serve_mem cmdHamperStatus_keepsMemory q s
  | tileStage q => exact serve_mem cmdTileStage_keepsMemory q s
  | tileFree q => exact serve_mem cmdTileFree_keepsMemory q s
  | tileInfo q => exact serve_mem cmdTileInfo_keepsMemory q s
  | listStage q => exact serve_mem cmdListStage_keepsMemory q s
  | listFree q => exact serve_mem cmdListFree_keepsMemory q s
  | proofCapture q => exact serve_mem cmdProofCapture_keepsMemory q s
  | proofCancel q => exact serve_mem cmdProofCancel_keepsMemory q s
  | codecConfig q => exact serve_mem cmdCodecConfig_keepsMemory q s
  | codecStatus q => exact serve_mem cmdCodecStatus_keepsMemory q s
  | codecCheck q => exact serve_mem cmdCodecCheck_keepsMemory q s
  | jobStatus q => exact serve_mem cmdJobStatus_keepsMemory q s
  | planeDefine q => exact serve_mem cmdPlaneDefine_keepsMemory q s
  | rowDefine q => exact serve_mem cmdRowDefine_keepsMemory q s
  | panelDefine q => exact serve_mem cmdPanelDefine_keepsMemory q s
  | jobDefine q => exact serve_mem cmdJobDefine_keepsMemory q s
  | jobArm q => exact serve_mem cmdJobArm_keepsMemory q s
  | jobStart => cases hline
  | jobPause q => exact serve_mem cmdJobPause_keepsMemory q s
  | jobResume q => exact serve_mem cmdJobResume_keepsMemory q s
  | jobStop q => exact serve_mem cmdJobStop_keepsMemory q s
  | jobClear q => exact serve_mem cmdJobClear_keepsMemory q s
  | webConfig q => exact serve_mem cmdWebConfig_keepsMemory q s
  | rowGeometry q => exact serve_mem cmdRowGeometry_keepsMemory q s
  | webStatus q => exact serve_mem cmdWebStatus_keepsMemory q s
  | screenPlane q => exact serve_mem cmdScreenPlane_keepsMemory q s
  | screenMatrix q => exact serve_mem cmdScreenMatrix_keepsMemory q s
  | histSet q => exact serve_mem cmdHistSet_keepsMemory q s
  | histRow q => exact serve_mem cmdHistRow_keepsMemory q s
  | runaheadConfig q => exact serve_mem cmdRunaheadConfig_keepsMemory q s
  | runaheadStatus q => exact serve_mem cmdRunaheadStatus_keepsMemory q s
  | checkConfig q => exact serve_mem cmdCheckConfig_keepsMemory q s
  | txnOpen q => exact serve_mem cmdTxnOpen_keepsMemory q s
  | txnAdd q => exact serve_mem cmdTxnAdd_keepsMemory q s
  | txnSeal q => exact serve_mem cmdTxnSeal_keepsMemory q s
  | txnCommit q => exact serve_mem cmdTxnCommit_keepsMemory q s
  | txnDiscard q => exact serve_mem cmdTxnDiscard_keepsMemory q s
  | txnStatus q => exact serve_mem cmdTxnStatus_keepsMemory q s
  | calStatus q => exact serve_mem cmdCalStatus_keepsMemory q s
  | calTrim q => exact serve_mem cmdCalTrim_keepsMemory q s
  | calChart q => exact serve_mem cmdCalChart_keepsMemory q s
  | calAlignLoad q => exact serve_mem cmdCalAlignLoad_keepsMemory q s
  | calLimits q => exact serve_mem cmdCalLimits_keepsMemory q s
  | strobeConfig q => exact serve_mem cmdStrobeConfig_keepsMemory q s
  | hacConfig q => exact serve_mem cmdHacConfig_keepsMemory q s
  | headAuthStatus q => exact serve_mem cmdHeadAuthStatus_keepsMemory q s
  | headUsage q => exact serve_mem cmdHeadUsage_keepsMemory q s
  | usageCommitNow q => exact serve_mem cmdUsageCommitNow_keepsMemory q s
  | linkControl q => exact serve_mem cmdLinkControl_keepsMemory q s
  | laneConfig q => exact serve_mem cmdLaneConfig_keepsMemory q s
  | laneStatus q => exact serve_mem cmdLaneStatus_keepsMemory q s
  | headDriverInfo q => exact serve_mem cmdHeadDriverInfo_keepsMemory q s
  | headTunnel q => exact serve_mem cmdHeadTunnel_keepsMemory q s
  | drivePortConfig q => exact serve_mem cmdDrivePortConfig_keepsMemory q s
  | axisConfig q => exact serve_mem cmdAxisConfig_keepsMemory q s
  | axisEnable q => exact serve_mem cmdAxisEnable_keepsMemory q s
  | axisMotion q => exact serve_mem cmdAxisMotion_keepsMemory q s
  | axisGear q => exact serve_mem cmdAxisGear_keepsMemory q s
  | axisHome q => exact serve_mem cmdAxisHome_keepsMemory q s
  | axisLimits q => exact serve_mem cmdAxisLimits_keepsMemory q s
  | axisStatus q => exact serve_mem cmdAxisStatus_keepsMemory q s
  | chainStatus q => exact serve_mem cmdChainStatus_keepsMemory q s
  | chainEnumerate q => exact serve_mem cmdChainEnumerate_keepsMemory q s
  | chainConfig q => exact serve_mem cmdChainConfig_keepsMemory q s
  | chainForward q => exact serve_mem cmdChainForward_keepsMemory q s
  | chainLink q => exact serve_mem cmdChainLink_keepsMemory q s
  | logStatus q => exact serve_mem cmdLogStatus_keepsMemory q s
  | logRead => cases hmoves
  | memStatus q => exact serve_mem cmdMemStatus_keepsMemory q s
  | memConfig q => exact serve_mem cmdMemConfig_keepsMemory q s
  | memInject q => exact serve_mem cmdMemInject_keepsMemory q s
  | checkInject q => exact serve_mem cmdCheckInject_keepsMemory q s
  | checkStatus q => exact serve_mem cmdCheckStatus_keepsMemory q s
  | laneTest q => exact serve_mem cmdLaneTest_keepsMemory q s
  | laneTestRead q => exact serve_mem cmdLaneTestRead_keepsMemory q s
  | clockStatus q => exact serve_mem cmdClockStatus_keepsMemory q s
  | mgmtJobStop q => exact serve_mem cmdMgmtJobStop_keepsMemory q s
  | mgmtDomains q => exact serve_mem cmdMgmtDomains_keepsMemory q s
  | recoveryBegin q => exact serve_mem cmdRecoveryBegin_keepsMemory q s
  | recoveryData q => exact serve_mem cmdRecoveryData_keepsMemory q s
  | recoveryCommit q => exact serve_mem cmdRecoveryCommit_keepsMemory q s
  | reqTailWrite m v => exact execReqTailWrite_keepsMemory m v s
  | rplHeadWrite m v => exact execRplHeadWrite_keepsMemory m v s
  | mbStatusClear m v => exact execMbStatusClear_keepsMemory m v s
  | globalFaultClear v => exact execGlobalFaultClear_keepsMemory v s
  | bdAssignWrite v => exact execBdAssignWrite_keepsMemory v s
  | drqSoftWrite v => exact execDrqSoftWrite_keepsMemory v s
  | bar2BaseWrite part v => exact execBar2BaseWrite_keepsMemory part v s
  | go c v => exact execGo_keepsMemory c v s
  | abort c v => exact execAbort_keepsMemory c v s
  | bdStatusClear c v => exact execBdStatusClear_keepsMemory c v s
  | qCtrlEnable n v => exact execQCtrlEnable_keepsMemory n v s
  | qHeadWrite n v => exact execQHeadWrite_keepsMemory n v s
  | qStatusClear n v => exact execQStatusClear_keepsMemory n v s
  | bar0RegisterWrite off size v => exact execBar0RegisterWrite_keepsMemory off size v s
  | bar0LowHalfRead off size => exact execBar0LowHalfRead_keepsMemory off size s
  | bar2Read off len => exact execBar2Read_keepsMemory off len s
  | bar2Write => cases hmoves
  | alertStatusClear data pec => exact execAlertStatusClear_keepsMemory data pec s
  | pwrCtrlWake data pec t => exact execPwrCtrlWake_keepsMemory data pec t s
  | mbCtrlGo n data pec => exact execMbCtrlGo_keepsMemory n data pec s
  | mbCtrlPop n data pec => exact execMbCtrlPop_keepsMemory n data pec s
  | mbCtrlClear n data pec => exact execMbCtrlClear_keepsMemory n data pec s
  | mbReqWrite n data pec => exact execMbReqWrite_keepsMemory n data pec s
  | mbRplRead n off => exact execMbRplRead_keepsMemory n off s
  | alertResponseRead => exact execAlertResponseRead_keepsMemory s
  | mgmtRegisterWrite code data pec => exact execMgmtRegisterWrite_keepsMemory code data pec s
  | sclTimeout t => exact execSclTimeout_keepsMemory t s
  | mailboxRequestStart => cases hmoves
  | heldReplyWrite m => exact execHeldReplyWrite_keepsMemory m s
  | finalReply t => exact execFinalReply_keepsMemory t s
  | eventPost t => exact execEventPost_keepsMemory t s
  | evqLost n t => exact execEvqLost_keepsMemory n t s
  | queueInterruptTimer n t => exact execQueueInterruptTimer_keepsMemory n t s
  | perst t => exact execPerst_keepsMemory t s
  | drqPulse line t => exact execDrqPulse_keepsMemory line t s
  | dmaReadCompletion => cases hmoves
  | dmaTransferDone c t => exact execDmaTransferDone_keepsMemory c t s
  | waitCqRecord c t => exact execWaitCqRecord_keepsMemory c t s
  | powerOn => cases hmoves
  | mgmtResetN level t => exact execMgmtResetN_keepsMemory level t s
  | moduleResetSequence => cases hmoves
  | resetRelease t => exact execResetRelease_keepsMemory t s
  | bootStage => cases hmoves
  | fwOperationDone r t => exact execFwOperationDone_keepsMemory r t s
  | firmwareActivation => cases hmoves
  | kettleFault t => exact execKettleFault_keepsMemory t s
  | kettleWatchdog t => exact execKettleWatchdog_keepsMemory t s
  | thermosWatchdog t => exact execThermosWatchdog_keepsMemory t s
  | vinFault => cases hmoves
  | railFault => cases hmoves
  | repower d mv t => exact execRepower_keepsMemory d mv t s
  | domainPowerUp => cases hmoves
  | domainPowerDown => cases hmoves
  | temperatureSample => cases hmoves
  | crystalStart x t => exact execCrystalStart_keepsMemory x t s
  | crystalStartLimit x t => exact execCrystalStartLimit_keepsMemory x t s
  | clockLoss src t => exact execClockLoss_keepsMemory src t s
  | pllLock p t => exact execPllLock_keepsMemory p t s
  | clockSwitch d t => exact execClockSwitch_keepsMemory d t s
  | switchHandshakeTimeout d t => exact execSwitchHandshakeTimeout_keepsMemory d t s
  | newClockTimeout d t => exact execNewClockTimeout_keepsMemory d t s
  | xbIncrementUpdate xaCycles t => exact execXbIncrementUpdate_keepsMemory xaCycles t s
  | timeCopyReload d t => exact execTimeCopyReload_keepsMemory d t s
  | peerInReset d drops => exact execPeerInReset_keepsMemory d drops s
  | crossingReady d => exact execCrossingReady_keepsMemory d s
  | fioTrim khz code ok t => exact execFioTrim_keepsMemory khz code ok t s
  | sioTrim hz code ok t => exact execSioTrim_keepsMemory hz code ok t s
  | chartBuilt ok t => exact execChartBuilt_keepsMemory ok t s
  | memRetrainDone failed failedTwice t => exact execMemRetrainDone_keepsMemory failed failedTwice t s
  | encoderEdge a b t => exact execEncoderEdge_keepsMemory a b t s
  | zPulse => cases hline
  | lineFail t => exact execLineFail_keepsMemory t s
  | lineGood t => exact execLineGood_keepsMemory t s
  | accelerationCheck t => exact execAccelerationCheck_keepsMemory t s
  | stopTimeout t => exact execStopTimeout_keepsMemory t s
  | speedHigh t => exact execSpeedHigh_keepsMemory t s
  | jobMark => cases hline
  | printEnable => cases hline
  | fireInhibit level edge t => exact execFireInhibit_keepsMemory level edge t s
  | lineStart => cases hline
  | rowStopped r t => exact execRowStopped_keepsMemory r t s
  | rowDone r t => exact execRowDone_keepsMemory r t s
  | jobEnd t => exact execJobEnd_keepsMemory t s
  | faultStop t => exact execFaultStop_keepsMemory t s
  | inhibitTest => cases hline
  | fireStrobe => cases hline
  | strobeReadback r e t => exact execStrobeReadback_keepsMemory r e t s
  | lsdOverspeed r t => exact execLsdOverspeed_keepsMemory r t s
  | armingStep t => exact execArmingStep_keepsMemory t s
  | rowReady r t => exact execRowReady_keepsMemory r t s
  | engineLineDone p h upset t => exact execEngineLineDone_keepsMemory p h upset t s
  | checkpointCompare r bad t => exact execCheckpointCompare_keepsMemory r bad t s
  | lineCompare h bad t => exact execLineCompare_keepsMemory h bad t s
  | missingTimeout h bad t => exact execMissingTimeout_keepsMemory h bad t s
  | couplingTimeout p h waits bad t => exact execCouplingTimeout_keepsMemory p h waits bad t s
  | squash r t => exact execSquash_keepsMemory r t s
  | spcReplayLate r t => exact execSpcReplayLate_keepsMemory r t s
  | spcDry r t => exact execSpcDry_keepsMemory r t s
  | pourRecheck h t => exact execPourRecheck_keepsMemory h t s
  | frameSend l upset cvuBad t => exact execFrameSend_keepsMemory l upset cvuBad t s
  | ack l hdr blk t => exact execAck_keepsMemory l hdr blk t s
  | ackTimeout l t => exact execAckTimeout_keepsMemory l t s
  | flush l t => exact execFlush_keepsMemory l t s
  | flushTimeout l t => exact execFlushTimeout_keepsMemory l t s
  | laneTrainingBlock l hdr blk t => exact execLaneTrainingBlock_keepsMemory l hdr blk t s
  | laneStageDone l seen t => exact execLaneStageDone_keepsMemory l seen t s
  | stageLimit l t => exact execStageLimit_keepsMemory l t s
  | laneLoss l cause headers t => exact execLaneLoss_keepsMemory l cause headers t s
  | retrainDone l t => exact execRetrainDone_keepsMemory l t s
  | autoSleep c t => exact execAutoSleep_keepsMemory c t s
  | laneTestEnd t => exact execLaneTestEnd_keepsMemory t s
  | hmcAnswer c chars t => exact execHmcAnswer_keepsMemory c chars t s
  | hmcTimeout c t => exact execHmcTimeout_keepsMemory c t s
  | hmcStatusPoll c t => exact execHmcStatusPoll_keepsMemory c t s
  | usageCommit t => exact execUsageCommit_keepsMemory t s
  | chnAck side blk t => exact execChnAck_keepsMemory side blk t s
  | chnAckTimeout side t => exact execChnAckTimeout_keepsMemory side t s
  | enum h value serial t => exact execEnum_keepsMemory h value serial t s
  | enumDone h count epoch serial t => exact execEnumDone_keepsMemory h count epoch serial t s
  | enumTimeout t => exact execEnumTimeout_keepsMemory t s
  | noHead t => exact execNoHead_keepsMemory t s
  | rejoin h m t => exact execRejoin_keepsMemory h m t s
  | sync side t1 t2 t3 t4 => exact execSync_keepsMemory side t1 t2 t3 t4 s
  | beaconSample t => exact execBeaconSample_keepsMemory t s
  | beacon h b t => exact execBeacon_keepsMemory h b t s
  | beaconLoss t => exact execBeaconLoss_keepsMemory t s
  | txnPrepare h m t => exact execTxnPrepare_keepsMemory h m t s
  | prepareTimeout t => exact execPrepareTimeout_keepsMemory t s
  | txnDecision h group commit t => exact execTxnDecision_keepsMemory h group commit t s
  | decisionTimeout t => exact execDecisionTimeout_keepsMemory t s
  | txnQuery h group t => exact execTxnQuery_keepsMemory h group t s
  | txnAnswer h group st t => exact execTxnAnswer_keepsMemory h group st t s
  | chnFault h fclass stop time t => exact execChnFault_keepsMemory h fclass stop time t s
  | chnWaste h cause first last t => exact execChnWaste_keepsMemory h cause first last t s
  | resetNotice h cause t => exact execResetNotice_keepsMemory h cause t s
  | peerReq h mgmt msg t => exact execPeerReq_keepsMemory h mgmt msg t s
  | peerReply h msg full t => exact execPeerReply_keepsMemory h msg full t s
  | forwardTimeout t => exact execForwardTimeout_keepsMemory t s
  | hopLoss side cause headers t => exact execHopLoss_keepsMemory side cause headers t s
  | hopRetrainDone side t => exact execHopRetrainDone_keepsMemory side t s
  | chainSleepTimer t => exact execChainSleepTimer_keepsMemory t s
  | wasteBroadcast t => exact execWasteBroadcast_keepsMemory t s
  | servoTick t => exact execServoTick_keepsMemory t s
  | statusFrame a frame t => exact execStatusFrame_keepsMemory a frame t s
  | driveSlotFault a cause t => exact execDriveSlotFault_keepsMemory a cause t s
  | enableTimeout a t => exact execEnableTimeout_keepsMemory a t s
  | hamperStaged tile data readOk t => exact execHamperStaged_keepsMemory tile data readOk t s
  | hamperListStaged data readOk t => exact execHamperListStaged_keepsMemory data readOk t s
  | blockDecode p u fail t => exact execBlockDecode_keepsMemory p u fail t s
  | compressorVerify u fail t => exact execCompressorVerify_keepsMemory u fail t s
  | cdxCheckDone t => exact execCdxCheckDone_keepsMemory t s
  | dramReadError addr bit double again reader t => exact execDramReadError_keepsMemory addr bit double again reader t s
  | sramReadError arr addr double again t => exact execSramReadError_keepsMemory arr addr double again t s
  | sramSweep arr t => exact execSramSweep_keepsMemory arr t s
  | scrubBurst t => exact execScrubBurst_keepsMemory t s
  | scrubPassEnd t => exact execScrubPassEnd_keepsMemory t s
  | refresh ch rank t => exact execRefresh_keepsMemory ch rank t s
  | neighbourRefresh ch rank bank row t => exact execNeighbourRefresh_keepsMemory ch rank bank row t s
  | refreshRateRead mult t => exact execRefreshRateRead_keepsMemory mult t s
  | zqCalibration t => exact execZqCalibration_keepsMemory t s
  | driftMeasure ch drift t => exact execDriftMeasure_keepsMemory ch drift t s
  | setPointDecision t => exact execSetPointDecision_keepsMemory t s
  | selfRefresh t => exact execSelfRefresh_keepsMemory t s
  | fenceViolation agent addr t => exact execFenceViolation_keepsMemory agent addr t s
  | faultDetection t => exact execFaultDetection_keepsMemory t s
  | wasteRangeClose t => exact execWasteRangeClose_keepsMemory t s
  | wasteHoldEnd t => exact execWasteHoldEnd_keepsMemory t s
  | sleepEntry c t => exact execSleepEntry_keepsMemory c t s
  | chainOfOne t => exact execChainOfOne_keepsMemory t s
  | standby => cases hmoves
  | perstRelease t => exact execPerstRelease_keepsMemory t s
  | hamperSpace t => exact execHamperSpace_keepsMemory t s
  | memEcc memory t => exact execMemEcc_keepsMemory memory t s
  | checkerSync l bits t => exact execCheckerSync_keepsMemory l bits t s
  | errorInjection l t => exact execErrorInjection_keepsMemory l t s
  | chainWakeTimeout t => exact execChainWakeTimeout_keepsMemory t s

theorem keepsForm_ite {s : State} {c : Prop} [Decidable c] {a b : Host.Outcome State Fault Refusal} (ha : KeepsForm s a) (hb : KeepsForm s b) :
    KeepsForm s (if c then a else b) :=
  iteInduction (fun _ => ha) (fun _ => hb)

theorem execLineStart_keepsForm (r : Fin 16) (t : Nat) (s : State) : KeepsForm s (execLineStart r t s) := by
  intro h
  split
  · exact State.startLine_wf (by simpa using h) ..
  · simpa using h

theorem execInhibitTest_keepsForm (r : Fin 16) (t : Nat) (s : State) : KeepsForm s (execInhibitTest r t s) := by
  unfold execInhibitTest
  dsimp only
  split
  · intro h
    split
    · exact State.cancelPulse_wf (s := s.at t) h ..
    · exact h
  · exact id

theorem execFireStrobe_keepsForm (r : Fin 16) (t : Nat) (s : State) : KeepsForm s (execFireStrobe r t s) := by
  unfold execFireStrobe
  dsimp only
  split
  · intro h
    split
    · exact h
    · split
      · exact State.cancelPulse_wf (s := s.at t) h ..
      · split
        · exact State.cancelPulse_wf (s := s.at t) h ..
        · simpa using h
  · exact id

theorem execZPulse_keepsForm (t : Nat) (s : State) : KeepsForm s (execZPulse t s) :=
  fun h => State.zPulse_wf (by simpa using h)

theorem execPrintEnable_keepsForm (level : Bool) (edge t : Nat) (s : State) : KeepsForm s (execPrintEnable level edge t s) := by
  intro h
  dsimp only
  split
  · exact State.peEdge_wf (by simpa using h)
  · simpa using h

theorem execJobMark_keepsForm (level : Bool) (edge t : Nat) (s : State) : KeepsForm s (execJobMark level edge t s) := by
  intro h
  dsimp only
  split
  · split
    · exact State.markRise_wf (by simpa using h) _
    · simpa using h
  · simpa using h

theorem execVinFault_keepsForm (mv t : Nat) (s : State) : KeepsForm s (execVinFault mv t s) := by
  refine keepsForm_ite (fun _ => ?_) fun h => ?_
  · rw [State.mainRail_mem, Memory.wf]
  · simpa using h

theorem execTemperatureSample_keepsForm (temps : List Int) (t : Nat) (s : State) : KeepsForm s (execTemperatureSample temps t s) :=
  fun h => State.criticalDown_wf (by simpa -implicitDefEqProofs using h)

theorem execStandby_keepsForm (t : Nat) (s : State) : KeepsForm s (execStandby t s) := by
  unfold execStandby
  dsimp only
  split
  · intro h
    split
    · rw [State.standbyDown_mem, Memory.wf]
    · exact h
  · exact id

theorem execBootStage_keepsForm (r : BootResult) (t : Nat) (s : State) : KeepsForm s (execBootStage r t s) := by
  intro h
  split
  · exact State.bootStage_wf (s := s.at t) h r
  · exact h

theorem execDomainPowerUp_keepsForm (d : Fin 12) (good : Bool) (t : Nat) (s : State) : KeepsForm s (execDomainPowerUp d good t s) := by
  refine keepsForm_ite (fun h => ?_) id
  split
  · simpa using h
  · split
    · rw [State.mainRail_mem, Memory.wf]
    · exact State.sideRail_wf (s := s.at t) h ..

theorem execDomainPowerDown_keepsForm (d : Fin 12) (t : Nat) (s : State) : KeepsForm s (execDomainPowerDown d t s) := by
  refine keepsForm_ite id fun h => ?_
  split
  · rw [State.standbyDown_mem, Memory.wf]
  · split
    · exact State.powerDown_wf (s := s.at t) h d
    · rw [State.armedLoss_mem]
      exact State.powerDown_wf (by simpa using h) d

/-- Every command keeps the canonical form. -/
theorem exec_keepsForm (i : Instr) (s : State) : KeepsForm s (exec i s) := by
  cases i with
  | lineStart r t => exact execLineStart_keepsForm r t s
  | fireStrobe r t => exact execFireStrobe_keepsForm r t s
  | inhibitTest r t => exact execInhibitTest_keepsForm r t s
  | zPulse t => exact execZPulse_keepsForm t s
  | printEnable level edge t => exact execPrintEnable_keepsForm level edge t s
  | jobStart q => exact serve_wf cmdJobStart_keepsForm q
  | jobMark level edge t => exact execJobMark_keepsForm level edge t s
  | bar2Write off data => exact fun h => State.apertureWrite_wf h ..
  | dmaReadCompletion c data ok t => exact fun h => State.readDone_wf (s := s.at t) h ..
  | logRead q => exact serve_wf cmdLogRead_keepsForm q
  | mailboxRequestStart t => exact fun h => State.startNext_wf (by simpa using h)
  | powerOn maddr head => exact fun _ => rfl
  | railFault d cause t => exact fun h => State.railFault_wf (s := s.at t) h ..
  | firmwareActivation t => exact (execFirmwareActivation_keepsMemory t s).keepsForm
  | moduleResetSequence t => exact (execModuleResetSequence_keepsMemory t s).keepsForm
  | vinFault mv t => exact execVinFault_keepsForm mv t s
  | temperatureSample temps t => exact execTemperatureSample_keepsForm temps t s
  | standby t => exact execStandby_keepsForm t s
  | bootStage r t => exact execBootStage_keepsForm r t s
  | domainPowerDown d t => exact execDomainPowerDown_keepsForm d t s
  | domainPowerUp d good t => exact execDomainPowerUp_keepsForm d good t s
  | _ => exact (exec_keepsMemory s rfl rfl).keepsForm

/-- Settles O5: an idle step writes nothing, and every command keeps the form. -/
theorem stepKeepsMemoryCanonical : Obligations.StepKeepsMemoryCanonical := by
  intro s s' hwf hstep
  unfold step at hstep
  split at hstep
  · obtain rfl := Host.Outcome.next.inj hstep
    exact hwf
  next c rest _ =>
    have hform := exec_keepsForm c { s with pending := rest }
    rw [hstep] at hform
    exact hform hwf

end Sys2Proof.Machine
end

section
/-! PROOF. The commands of the page store and of proof capture (11 R260, R266 to R268, R271, R273 to R277): O43. -/

namespace Sys2Proof.Machine

/-! ### HAMPER_STATUS (R277) -/

theorem State.hamperStatus_fields (s : State) :
    let p := s.hamperStatus
    p.length = 48 ∧ fld p 0 4 = 3357504 ∧ fld p 16 4 = s.hamper.lists.length % 2 ^ 32 ∧ fld p 40 8 = s.nowNs % 2 ^ 64 := by
  refine ⟨?_, ?_, ?_, ?_⟩
  · simp [hamperStatus]
  all_goals
    simp only [hamperStatus, List.append_assoc]
    simp (disch := simp) only [fld_append_right, length_le, length_zeroBytes, Nat.reduceSub, fld_le, fld_le_end]
  -- A constant, a count in four bytes and the time in eight.
  all_goals rfl

theorem exec_hamperStatus_answers (q : Req) (s : State) (hq : Claims.FreshOf 0x0100 0 q s) : ∃ p : List Byte,
    exec (.hamperStatus q) s = .next ((Claims.ok (s.start q 0x0100) p).deliver q 0x0100) ∧ p.length = 48 ∧ fld p 0 4 = 3357504 ∧
    fld p 16 4 = s.hamper.lists.length % 2 ^ 32 ∧ fld p 40 8 = s.nowNs % 2 ^ 64 :=
  ⟨(s.start q 0x0100).hamperStatus, congrArg _ (serve_of_fresh hq.1 (beq_iff_eq.2 hq.2)), (s.start q 0x0100).hamperStatus_fields⟩

/-! ### TILE_STAGE (R266 to R268) -/

/-- A staging is accepted: legal fields, a source in range, an id free for it, a place among the 16, pages, and a compressor for raw data. -/
theorem cmdTileStage_accepts {q : Req} {s : State} {ext : List Extent} (hlegal : stagingBad q (stagingOf q) = false)
    (hsource : (stagingOf q).srcHost = true ∨ inZone (stagingOf q).src (stagingOf q).length = true)
    (hunstaged : s.staging? (stagingOf q).tile = none)
    (hfree : s.tile? (stagingOf q).tile = none ∨ ((stagingOf q).replace = true ∧ s.tileRefs (stagingOf q).tile = 0))
    (hfew : s.hamper.stagings.length < 16)
    (hpages : s.allocate (storeNeed (stagingOf q).bound (blockCount (stagingOf q).w (stagingOf q).h))
      (blockCount (stagingOf q).w (stagingOf q).h) = some ext)
    (hcomp : (stagingOf q).raw = false ∨ s.codec.comp ≠ 0) :
    cmdTileStage.run q s = Claims.accepted (s.beginStaging (stagingOf q) ext) := by
  simp only [cmdTileStage]
  generalize stagingOf q = g at *
  have hzone : (!g.srcHost && !inZone g.src g.length) = false := by
    rcases hsource with h | h <;> simp [h]
  have hunit : (g.raw && s.codec.comp == 0) = false := by
    rcases hcomp with h | h
    · rw [h, Bool.false_and]
    · rw [beq_false_of_ne h, Bool.and_false]
  have hbusy : ((s.staging? g.tile).isSome || ((s.tile? g.tile).isSome && (!g.replace || s.tileRefs g.tile != 0))) = false := by
    rcases hfree with habsent | ⟨hreplace, hunnamed⟩
    · simp [hunstaged, habsent]
    · simp [hunstaged, hreplace, hunnamed]
  rw [checks_pass (by simp only [List.forall_mem_cons, hlegal, hzone]; simp), hbusy, if_neg Bool.false_ne_true,
    if_neg (Nat.not_le.2 hfew), hpages]
  exact if_neg (ne_true_of_eq_false hunit)

theorem exec_tileStage_accepted (q : Req) (s : State) (ext : List Extent) (hq : Claims.FreshOf 0x0101 32 q s) : let g := stagingOf q
    stagingBad q g = false → (g.srcHost = true ∨ (0x3400000000 ≤ g.src ∧ g.src + g.length ≤ 0x3800000000)) → s.staging? g.tile = none →
    (s.tile? g.tile = none ∨ (g.replace = true ∧ s.tileRefs g.tile = 0)) → s.hamper.stagings.length < 16 →
    s.allocate (storeNeed g.bound (blockCount g.w g.h)) (blockCount g.w g.h) = some ext → (g.raw = false ∨ s.codec.comp ≠ 0) →
    exec (.tileStage q) s = .next ((Claims.accepted ((s.start q 0x0101).beginStaging g ext)).deliver q 0x0101) := by
  intro g hlegal hsource hunstaged hfree hfew hpages hcomp
  have hrun : exec (.tileStage q) s = .next ((cmdTileStage.run q (s.start q 0x0101)).deliver q 0x0101) :=
    congrArg _ (serve_of_fresh hq.1 (beq_iff_eq.2 hq.2))
  exact exec_of_answer hrun
    (cmdTileStage_accepts hlegal (hsource.imp_right fun h => inZone_of_le h.1 h.2) hunstaged hfree hfew hpages hcomp)

/-! ### TILE_FREE and TILE_INFO (R260, R273, R274) -/

theorem tilePayload_fields {id : Nat} (hid : id < 2 ^ 24) : let p := le 3 id ++ [0, 0, 0, 0, 0]
    fld p 0 3 = id ∧ zeros p 3 5 = true ∧ p.length = 8 :=
  ⟨(fld_le 3 id _).trans (Nat.mod_eq_of_lt hid), rfl, rfl⟩

theorem cmdTileFree_of_staged {q : Req} {s : State} {id : Nat} (hid : id < 2 ^ 24) (hp : q.payload = le 3 id ++ [0, 0, 0, 0, 0])
    (hstaged : (s.staging? id).isSome = true) : cmdTileFree.run q s = Ans.fail s .badState (s.tileRefs id) := by
  obtain ⟨htile, hzero, -⟩ := tilePayload_fields hid
  obtain ⟨g, hg⟩ := Option.isSome_iff_exists.1 hstaged
  simp only [cmdTileFree, hp, htile, hzero, hg]
  rw [checks_pass (by simp)]

theorem cmdTileFree_of_unstaged {q : Req} {s : State} {id : Nat} (hid : id < 2 ^ 24) (hp : q.payload = le 3 id ++ [0, 0, 0, 0, 0])
    (hunstaged : s.staging? id = none) :
    (s.tile? id = none → cmdTileFree.run q s = Ans.fail s .badParam) ∧
    (∀ x, s.tile? id = some x → cmdTileFree.run q s = if s.tileRefs id = 0 then { Claims.ok (s.freeTile id) with detail := extentPages x.extents }
      else Ans.fail s .badState (s.tileRefs id)) := by
  obtain ⟨htile, hzero, -⟩ := tilePayload_fields hid
  refine ⟨fun habsent => ?_, fun x hx => ?_⟩
  · simp only [cmdTileFree, hp, htile, hzero, habsent, hunstaged]
    rw [checks_pass (by simp)]
  · simp only [cmdTileFree, hp, htile, hzero, hx, hunstaged]
    rw [checks_pass (by simp)]
    rfl

theorem exec_tileFree_answers (q : Req) (s : State) (id : Nat) (hq : Claims.Fresh 0x0102 q s) (hid : id < 2 ^ 24)
    (hp : q.payload = le 3 id ++ [0, 0, 0, 0, 0]) :
    ((s.staging? id).isSome = true → exec (.tileFree q) s = .next ((Ans.fail (s.start q 0x0102) .badState (s.tileRefs id)).deliver q 0x0102)) ∧
    (s.staging? id = none → s.tile? id = none → exec (.tileFree q) s = .next ((Ans.fail (s.start q 0x0102) .badParam).deliver q 0x0102)) ∧
    (∀ x, s.staging? id = none → s.tile? id = some x → exec (.tileFree q) s = .next (Ans.deliver (if s.tileRefs id = 0
      then { Claims.ok ((s.start q 0x0102).freeTile id) with detail := extentPages x.extents }
      else Ans.fail (s.start q 0x0102) .badState (s.tileRefs id)) q 0x0102)) := by
  have hrun : exec (.tileFree q) s = .next ((cmdTileFree.run q (s.start q 0x0102)).deliver q 0x0102) :=
    congrArg _ (serve_of_fresh hq (by rw [hp]; rfl))
  exact ⟨fun hstaged => exec_of_answer hrun (cmdTileFree_of_staged hid hp hstaged),
    fun hunstaged habsent => exec_of_answer hrun ((cmdTileFree_of_unstaged (s := s.start q 0x0102) hid hp hunstaged).1 habsent),
    fun x hunstaged hx => exec_of_answer hrun ((cmdTileFree_of_unstaged (s := s.start q 0x0102) hid hp hunstaged).2 x hx)⟩

theorem length_entryBytes (st : Nat) (codes : Bool) (w h refs flags index pages blocks : Nat) :
    (entryBytes st codes w h refs flags index pages blocks).length = 32 := by
  simp [entryBytes]

theorem fld_entryBytes (st : Nat) (codes : Bool) (w h refs flags index pages blocks : Nat) (r : List Byte) :
    fld (entryBytes st codes w h refs flags index pages blocks ++ r) 0 1 = st % 256 := by
  simp only [entryBytes, List.append_assoc]
  exact fld_le 1 st _

theorem State.tileInfo_fields (s : State) (id : Nat) : (s.tileInfo id).length = 40 ∧
    fld (s.tileInfo id) 0 1 = if (s.tile? id).isSome then 2 else if (s.staging? id).isSome then 1 else 0 := by
  unfold State.tileInfo
  split
  next t ht => simp [ht, length_entryBytes, fld_entryBytes]
  next g ht hg => simp [ht, hg, length_entryBytes, fld_entryBytes]
  next ht hg => exact ⟨length_zeroBytes 40, by rw [ht, hg]; rfl⟩

theorem exec_tileInfo_answers (q : Req) (s : State) (id : Nat) (hq : Claims.Fresh 0x0103 q s) (hid : id < 2 ^ 24)
    (hp : q.payload = le 3 id ++ [0, 0, 0, 0, 0]) : ∃ p : List Byte,
    exec (.tileInfo q) s = .next ((Claims.ok (s.start q 0x0103) p).deliver q 0x0103) ∧ p.length = 40 ∧
    fld p 0 1 = if (s.tile? id).isSome then 2 else if (s.staging? id).isSome then 1 else 0 := by
  obtain ⟨htile, hzero, -⟩ := tilePayload_fields hid
  have hrun : exec (.tileInfo q) s = .next ((cmdTileInfo.run q (s.start q 0x0103)).deliver q 0x0103) :=
    congrArg _ (serve_of_fresh hq (by rw [hp]; rfl))
  refine ⟨(s.start q 0x0103).tileInfo id, exec_of_answer hrun ?_, (s.start q 0x0103).tileInfo_fields id⟩
  simp only [cmdTileInfo, hp, htile, hzero]
  rw [checks_pass (by simp)]
  rfl

/-! ### LIST_STAGE and LIST_FREE (R264, R265, R275, R276) -/

theorem listPayload_fields {src len : Nat} (hsrc : src < 2 ^ 64) (hlen : len < 2 ^ 32) : let p := le 8 src ++ le 4 len ++ [0, 0, 0, 0]
    fld p 0 8 = src ∧ fld p 8 4 = len ∧ fld p 12 1 = 0 ∧ zeros p 13 3 = true ∧ p.length = 16 := by
  refine ⟨?_, ?_, rfl, rfl, rfl⟩
  · rw [List.append_assoc]
    exact (fld_le 8 src _).trans (Nat.mod_eq_of_lt hsrc)
  · rw [List.append_assoc]
    exact (fld_append (le 8 src) _ 0 4).trans ((fld_le 4 len _).trans (Nat.mod_eq_of_lt hlen))

theorem exec_listStage_accepted (q : Req) (s : State) (src len : Nat) (hq : Claims.Fresh 0x0104 q s) (hmin : 32 ≤ len) (hunits : len % 16 = 0)
    (hlo : 0x3400000000 ≤ src) (hhi : src + len ≤ 0x3800000000) (hhandles : s.hamper.nextHandle + s.hamper.listStagings.length < 2 ^ 32)
    (hlists : s.hamper.lists.length + s.hamper.listStagings.length < 65536) (hmax : len < 2 ^ 32)
    (hp : q.payload = le 8 src ++ le 4 len ++ [0, 0, 0, 0]) :
    let g : ListStaging := { origin := q.origin, src := src, length := len, srcHost := false, ns := false }
    exec (.listStage q) s = .next ((Claims.accepted { s.start q 0x0104 with hamper := { s.hamper with
      listStagings := s.hamper.listStagings ++ [g] } }).deliver q 0x0104) := by
  obtain ⟨hsrc, hlen, hflags, hzero, -⟩ := listPayload_fields (src := src) (by omega) hmax
  have hrun : exec (.listStage q) s = .next ((cmdListStage.run q (s.start q 0x0104)).deliver q 0x0104) :=
    congrArg _ (serve_of_fresh hq (by rw [hp]; rfl))
  intro g
  refine exec_of_answer hrun ?_
  simp only [cmdListStage, hp, hsrc, hlen, hflags, hzero]
  rw [checks_pass]
  · rfl
  · simpa [hunits, inZone_of_le hlo hhi, hmin] using ⟨hhandles, hlists⟩

/-- Freeing tiles whose names fell to zero removes no list. -/
theorem State.autoFree_lists (before s : State) : (before.autoFree s).hamper.lists = s.hamper.lists := by
  unfold State.autoFree
  refine foldl_keep (fun s => s.hamper.lists) _ (fun s t => ?_) _ s
  dsimp only
  split <;> rfl

theorem State.autoFree_layout (before s : State) : (before.autoFree s).layout = s.layout := by
  unfold State.autoFree
  refine foldl_layout _ _ _ fun s t => ?_
  split <;> simp

theorem State.autoFree_job (before s : State) : (before.autoFree s).job = s.job := by
  unfold State.autoFree
  refine foldl_job _ _ _ fun s t => ?_
  split <;> simp

theorem State.freeList_spec (s : State) (handle : Nat) : let u := s.freeList handle
    u.hamper.lists = s.hamper.lists.filter (fun x => x.handle ≠ handle) ∧ u.layout = s.layout ∧ u.mem = s.mem ∧ u.job = s.job := by
  refine ⟨?_, ?_, s.freeList_mem handle, ?_⟩
  · exact State.autoFree_lists ..
  · exact State.autoFree_layout ..
  · exact State.autoFree_job ..

theorem handlePayload_fields {handle : Nat} (h : handle < 2 ^ 32) : let p := le 4 handle ++ [0, 0, 0, 0]
    fld p 0 4 = handle ∧ zeros p 4 4 = true ∧ p.length = 8 :=
  ⟨(fld_le 4 handle _).trans (Nat.mod_eq_of_lt h), rfl, rfl⟩

theorem exec_listFree_removes (q : Req) (s : State) (l : PList) (hq : Claims.Fresh 0x0105 q s) (hl : l ∈ s.hamper.lists)
    (hhandle : l.handle < 2 ^ 32) (hunnamed : s.listNamed l.handle = false) (hp : q.payload = le 4 l.handle ++ [0, 0, 0, 0]) :
    ∃ u : State, exec (.listFree q) s = .next ((Claims.ok u).deliver q 0x0105) ∧
      u.hamper.lists = s.hamper.lists.filter (fun x => x.handle ≠ l.handle) ∧ u.layout = s.layout ∧ u.mem = s.mem ∧ u.job = s.job := by
  obtain ⟨hfield, hzero, -⟩ := handlePayload_fields hhandle
  have hrun : exec (.listFree q) s = .next ((cmdListFree.run q (s.start q 0x0105)).deliver q 0x0105) :=
    congrArg _ (serve_of_fresh hq (by rw [hp]; rfl))
  have hstored : (s.start q 0x0105).hamper.lists.any (fun x => x.handle = l.handle) = true :=
    List.any_eq_true.2 ⟨l, hl, decide_eq_true rfl⟩
  have hfree : (s.start q 0x0105).listNamed l.handle = false := hunnamed
  refine ⟨(s.start q 0x0105).freeList l.handle, exec_of_answer hrun ?_, (s.start q 0x0105).freeList_spec l.handle⟩
  simp only [cmdListFree, hp, hfield, hzero, hstored, hfree]
  rw [checks_pass (by simp)]
  rfl

/-! ### PROOF_CAPTURE and PROOF_CANCEL (R271) -/

/-- The payload of PROOF_CAPTURE. -/
def capturePayload (r : Fin 16) (first count dst : Nat) : List Byte :=
  [BitVec.ofNat 8 r.val, 0, 0, 0, 0, 0, 0, 0] ++ le 8 first ++ le 4 count ++ [0, 0, 0, 0] ++ le 8 dst

theorem capturePayload_fields (r : Fin 16) {first count dst : Nat} (hfirst : first < 2 ^ 48) (hcount : count < 2 ^ 32) (hdst : dst < 2 ^ 64) :
    let p := capturePayload r first count dst
    fld p 0 1 = r.val ∧ zeros p 1 7 = true ∧ fld p 8 8 = first ∧ fld p 16 4 = count ∧ zeros p 20 4 = true ∧ fld p 24 8 = dst ∧ p.length = 32 := by
  refine ⟨?_, rfl, ?_, ?_, rfl, ?_, rfl⟩
  all_goals
    simp only [capturePayload, List.append_assoc]
  · rw [fld_one]
    exact Nat.mod_eq_of_lt (Nat.lt_trans r.isLt (by decide))
  all_goals
    simp (disch := simp) only [fld_append_right, length_le, List.length_cons, List.length_nil, Nat.reduceAdd, Nat.reduceSub, fld_le, fld_le_end]
  · exact Nat.mod_eq_of_lt (Nat.lt_trans hfirst (by decide))
  · exact Nat.mod_eq_of_lt hcount
  · exact Nat.mod_eq_of_lt hdst

theorem State.armed_of_running {s : State} (h : s.job.state = .running) : s.armed = true := by rw [armed, h]

theorem State.captureNext_of_running {s : State} (h : s.job.state = .running) (r : Fin 16) : s.captureNext r = (s.lsd.rows[r]).next := by
  simp [captureNext, h]

section Capture

variable {q : Req} {s : State} {r : Fin 16} {first count dst : Nat} (hfirst : first < 2 ^ 48) (hmin : 1 ≤ count) (hcount : count < 2 ^ 32)
  (haligned : dst % 64 = 0) (hlo : 0x3400000000 ≤ dst) (hhi : dst + count * 8256 ≤ 0x3800000000) (hnone : s.hamper.capture = none)
  (hp : q.payload = capturePayload r first count dst)
include hfirst hmin hcount haligned hlo hhi hnone hp

/-- The checks of R271 that need a job: each passes without one. -/
theorem cmdProofCapture_run (hassigned : s.armed = false ∨ s.assigned r = true) (hline : s.armed = false ∨ s.hasLine r first = true) :
    cmdProofCapture.run q s = if s.armed && decide (first < s.captureNext r + 15) then Ans.fail s .leadTooShort
      else Claims.accepted { s with hamper := { s.hamper with capture := some {
        origin := some q.origin, row := r, first := first, count := count, dst := dst, written := 0
        active := s.armed && !(s.job.state == .arming && decide (s.job.armStep < 7)) } } } := by
  obtain ⟨hrow, hzero1, hfirst', hcount', hzero2, hdst, -⟩ := capturePayload_fields r hfirst hcount (dst := dst) (by omega)
  have hofNat : Fin.ofNat 16 r.val = r := Fin.ext (Nat.mod_eq_of_lt r.isLt)
  have hunassigned : (s.armed && !s.assigned r) = false := by
    rcases hassigned with h | h <;> simp [h]
  have hnoLine : (s.armed && !s.hasLine r first) = false := by
    rcases hline with h | h <;> simp [h]
  have hlegal : (decide (15 < r.val) || !true || decide (2 ^ 48 ≤ first) || count == 0 || !true || dst % 64 != 0) = false := by
    simp only [haligned, Bool.or_eq_false_iff, decide_eq_false_iff_not, beq_eq_false_iff_ne]
    exact ⟨⟨⟨⟨⟨by omega, rfl⟩, by omega⟩, by omega⟩, rfl⟩, rfl⟩
  simp only [cmdProofCapture, hp, hrow, hzero1, hfirst', hcount', hzero2, hdst, hofNat, checks_cons, checks_nil, hlegal,
    inZone_of_le hlo hhi, hnone, hunassigned, hnoLine]
  rfl

/-- No job is armed, or the running one has the line far enough ahead. -/
theorem cmdProofCapture_accepts (hahead : s.armed = false ∨
      (s.job.state = .running ∧ s.assigned r = true ∧ s.hasLine r first = true ∧ (s.lsd.rows[r]).next + 15 ≤ first)) :
    cmdProofCapture.run q s = Claims.accepted { s with hamper := { s.hamper with capture := some {
      origin := some q.origin, row := r, first := first, count := count, dst := dst, written := 0, active := s.armed } } } := by
  rw [cmdProofCapture_run hfirst hmin hcount haligned hlo hhi hnone hp (hahead.imp_right fun h => h.2.1) (hahead.imp_right fun h => h.2.2.1)]
  rcases hahead with hidle | ⟨hrunning, _, _, hlead⟩
  · simp [hidle]
  · rw [State.armed_of_running hrunning, State.captureNext_of_running hrunning, decide_eq_false (Nat.not_lt.2 hlead), hrunning]
    rfl

theorem cmdProofCapture_short (hrunning : s.job.state = .running) (hassigned : s.assigned r = true) (hline : s.hasLine r first = true)
    (hlead : first < (s.lsd.rows[r]).next + 15) : cmdProofCapture.run q s = Ans.fail s .leadTooShort := by
  rw [cmdProofCapture_run hfirst hmin hcount haligned hlo hhi hnone hp (.inr hassigned) (.inr hline),
    State.armed_of_running hrunning, State.captureNext_of_running hrunning, decide_eq_true hlead]
  rfl

end Capture

theorem exec_proofCapture_answers (q : Req) (s : State) (r : Fin 16) (first count dst : Nat) (hq : Claims.Fresh 0x0110 q s)
    (hfirst : first < 2 ^ 48) (hmin : 1 ≤ count) (hcount : count < 2 ^ 32) (haligned : dst % 64 = 0) (hlo : 0x3400000000 ≤ dst)
    (hhi : dst + count * 8256 ≤ 0x3800000000) (hnone : s.hamper.capture = none)
    (hp : q.payload = [BitVec.ofNat 8 r.val, 0, 0, 0, 0, 0, 0, 0] ++ le 8 first ++ le 4 count ++ [0, 0, 0, 0] ++ le 8 dst) :
    let c : Capture := { origin := some q.origin, row := r, first := first, count := count, dst := dst, written := 0, active := s.armed }
    (s.armed = false ∨ (s.job.state = .running ∧ s.assigned r = true ∧ s.hasLine r first = true ∧ (s.lsd.rows[r]).next + 15 ≤ first) →
      exec (.proofCapture q) s = .next ((Claims.accepted { s.start q 0x0110 with hamper := { s.hamper with capture := some c } }).deliver q 0x0110)) ∧
    (s.job.state = .running → s.assigned r = true → s.hasLine r first = true → first < (s.lsd.rows[r]).next + 15 →
      exec (.proofCapture q) s = .next ((Ans.fail (s.start q 0x0110) .leadTooShort).deliver q 0x0110)) := by
  have hrun : exec (.proofCapture q) s = .next ((cmdProofCapture.run q (s.start q 0x0110)).deliver q 0x0110) :=
    congrArg _ (serve_of_fresh hq (by rw [hp]; rfl))
  exact ⟨fun hahead => exec_of_answer hrun
      (cmdProofCapture_accepts (s := s.start q 0x0110) hfirst hmin hcount haligned hlo hhi hnone hp hahead),
    fun hrunning hassigned hline hlead => exec_of_answer hrun
      (cmdProofCapture_short (s := s.start q 0x0110) hfirst hmin hcount haligned hlo hhi hnone hp hrunning hassigned hline hlead)⟩

/-- A capture that ends is moved aside and reported by the mailboxes. -/
theorem State.endCapture_of_capture {s : State} {c : Capture} (h : s.hamper.capture = some c) (reason : Nat) : let u := s.endCapture reason
    u.hamper = { s.hamper with capture := none, ended := some c } ∧ Claims.Posts s u [0x02A3] ∧ u = { s with hamper := u.hamper, mbx := u.mbx } := by
  simp only [State.endCapture, h]
  refine ⟨?_, State.result_posts .., ?_⟩
  · rw [State.result_eq]
  · rw [State.result_eq]

theorem exec_proofCancel_ends (q : Req) (s : State) (hq : Claims.FreshOf 0x0111 0 q s) :
    (s.hamper.capture = none → exec (.proofCancel q) s = .next ((Claims.ok (s.start q 0x0111)).deliver q 0x0111)) ∧
    (∀ c, s.hamper.capture = some c → ∃ u : State, exec (.proofCancel q) s = .next ((Claims.ok u).deliver q 0x0111) ∧
      u.hamper = { s.hamper with capture := none, ended := some c } ∧ Claims.Posts s u [0x02A3] ∧
      u = { s.start q 0x0111 with hamper := u.hamper, mbx := u.mbx }) := by
  have hrun : exec (.proofCancel q) s = .next ((Claims.ok ((s.start q 0x0111).endCapture 2)).deliver q 0x0111) :=
    congrArg _ (serve_of_fresh hq.1 (beq_iff_eq.2 hq.2))
  refine ⟨fun hnone => ?_, fun c hc => ?_⟩
  · have hkept : (s.start q 0x0111).endCapture 2 = s.start q 0x0111 := by
      have hfree : (s.start q 0x0111).hamper.capture = none := hnone
      simp only [State.endCapture, hfree]
    rwa [hkept] at hrun
  · exact ⟨_, hrun, State.endCapture_of_capture (s := s.start q 0x0111) hc 2⟩

/-- Settles O43: each command by its request's fields and its checks. -/
theorem storeCommandsComplete : Obligations.StoreCommandsComplete :=
  ⟨exec_hamperStatus_answers, exec_tileStage_accepted, exec_tileFree_answers, exec_tileInfo_answers, exec_listStage_accepted,
    exec_listFree_removes, exec_proofCapture_answers, exec_proofCancel_ends⟩

end Sys2Proof.Machine
end

section
/-! PROOF. What the operations on lanes and connectors share (12 R279, R283, R300, R305): a fold that acts on one lane after the other, and
the outcome of a connector that no WAKE waits for. -/

namespace Sys2Proof.Machine

/-! ### What a command of the head link leaves alone -/

/-- Nothing but the head link, the mailboxes and the wires has changed. -/
def OnlyLink (s u : State) : Prop := u = { s with hlk := u.hlk, mbx := u.mbx, wires := u.wires }

namespace OnlyLink

theorem refl (s : State) : OnlyLink s s := rfl

theorem trans {s t u : State} (h₁ : OnlyLink s t) (h₂ : OnlyLink t u) : OnlyLink s u :=
  Eq.trans h₂ (congrArg (fun x : State => { x with hlk := u.hlk, mbx := u.mbx, wires := u.wires }) h₁)

theorem foldl {α : Type} {f : State → α → State} (h : ∀ s a, OnlyLink s (f s a)) (l : List α) (s : State) : OnlyLink s (l.foldl f s) :=
  foldl_rel refl trans h l s

theorem of_mbx {s u : State} (h : u = { s with mbx := u.mbx }) : OnlyLink s u := by
  generalize u.mbx = m at h
  subst h
  rfl

theorem keeps_mbx {s u : State} (h : OnlyLink s u) (hmbx : u.mbx = s.mbx) : u = { s with hlk := u.hlk, wires := u.wires } := by
  rw [OnlyLink, hmbx] at h
  exact h

end OnlyLink

/-! ### Folds -/

section Fold

variable {α : Type} {f : State → α → State} {a : α} {l : List α} {s : State}

/-- What the steps for all other elements keep holds after a fold in which the element does not occur. -/
theorem foldl_spares {Q : State → Prop} (hQ : ∀ s b, b ≠ a → Q s → Q (f s b)) (ha : a ∉ l) (hs : Q s) : Q (l.foldl f s) := by
  induction l generalizing s with
  | nil => exact hs
  | cons b l ih =>
    obtain ⟨hb, hl⟩ := List.ne_and_not_mem_of_not_mem_cons ha
    exact ih hl (hQ s b hb.symm hs)

/-- A fold achieves what the step for one element does (`P`) where `Q` holds, if the steps for all others keep both. -/
theorem foldl_achieves {Q P : State → Prop} (hQ : ∀ s b, b ≠ a → Q s → Q (f s b)) (hP : ∀ s b, b ≠ a → P s → P (f s b))
    (hact : ∀ s, Q s → P (f s a)) (ha : a ∈ l) (hnodup : l.Nodup) (hs : Q s) : P (l.foldl f s) := by
  induction l generalizing s with
  | nil => exact absurd ha List.not_mem_nil
  | cons b l ih =>
    obtain ⟨hb, hl⟩ := List.nodup_cons.1 hnodup
    by_cases heq : b = a
    · rw [List.foldl_cons, heq]
      exact foldl_spares hP (heq ▸ hb) (hact s hs)
    · exact ih (List.mem_of_ne_of_mem (Ne.symm heq) ha) hl (hQ s b heq hs)

end Fold

/-! ### One lane of the state -/

@[simp] theorem State.lane_updLane_self (s : State) (l : Fin 34) (f : Lane → Lane) : (s.updLane l f).lane l = f (s.lane l) :=
  getElem_upd_self ..

theorem State.lane_updLane_ne (s : State) {k l : Fin 34} (h : k ≠ l) (f : Lane → Lane) : (s.updLane l f).lane k = s.lane k :=
  getElem_upd_ne _ h f

theorem State.updLane_updLane (s : State) (l : Fin 34) (f g : Lane → Lane) :
    (s.updLane l f).updLane l g = s.updLane l (fun n => g (f n)) := by
  simp only [updLane, upd_upd]

theorem State.updLane_congr {s : State} {l : Fin 34} {f g : Lane → Lane} (h : f (s.lane l) = g (s.lane l)) : s.updLane l f = s.updLane l g := by
  rw [updLane, upd_congr h, updLane]

theorem State.lane_congr {s u : State} (h : u.hlk.lanes = s.hlk.lanes) (l : Fin 34) : u.lane l = s.lane l := by
  rw [lane, h, lane]

@[simp] theorem State.lane_updTx (s : State) (l : Fin 32) (f : TxLane → TxLane) (k : Fin 34) : (s.updTx l f).lane k = s.lane k := rfl

@[simp] theorem State.lane_sendTraining_self (s : State) (l : Fin 34) (stage : Nat) :
    (s.sendTraining l stage).lane l = { s.lane l with txSeq := (s.lane l).txSeq + 1 } := lane_updLane_self ..

theorem State.lane_sendTraining_ne (s : State) {k l : Fin 34} (h : k ≠ l) (stage : Nat) : (s.sendTraining l stage).lane k = s.lane k :=
  lane_updLane_ne _ h _

theorem State.onlyLink_sendTraining (s : State) (l : Fin 34) (stage : Nat) : OnlyLink s (s.sendTraining l stage) := rfl

theorem State.onlyLink_updConn (s : State) (c : Fin 4) (f : Connector → Connector) : OnlyLink s (s.updConn c f) := rfl

theorem asLane_ne {k l : Fin 32} (h : k ≠ l) : asLane k ≠ asLane l := fun heq => h (Fin.ext (Fin.mk.inj heq))

/-! ### Steps for one lane each -/

/-- A step for a lane of the head link leaves every other lane and the time as they are. -/
structure ActsOnLane (f : State → Fin 32 → State) : Prop where
  aon : ∀ s l, (f s l).aon = s.aon
  other : ∀ s l k, k ≠ asLane l → (f s l).lane k = s.lane k

namespace ActsOnLane

variable {f : State → Fin 32 → State} (hf : ActsOnLane f) {k : Fin 32} {l : List (Fin 32)}
include hf

theorem lane_of_not_mem (hk : k ∉ l) (s : State) : (l.foldl f s).lane (asLane k) = s.lane (asLane k) :=
  foldl_spares (Q := fun t => t.lane (asLane k) = s.lane (asLane k))
    (fun t b hb ht => (hf.other t b _ (asLane_ne hb.symm)).trans ht) hk rfl

/-- A lane is after the fold what its own step makes of it. -/
theorem lane_of_mem (hk : k ∈ l) (hnodup : l.Nodup) {P : Lane → Prop} {s : State}
    (h : ∀ t, t.aon = s.aon → t.lane (asLane k) = s.lane (asLane k) → P ((f t k).lane (asLane k))) : P ((l.foldl f s).lane (asLane k)) :=
  foldl_achieves (Q := fun t => t.aon = s.aon ∧ t.lane (asLane k) = s.lane (asLane k)) (P := fun u => P (u.lane (asLane k)))
    (fun t b hb ht => ⟨(hf.aon t b).trans ht.1, (hf.other t b _ (asLane_ne hb.symm)).trans ht.2⟩)
    (fun u b hb hu => by rwa [hf.other u b _ (asLane_ne hb.symm)]) (fun t ht => h t ht.1 ht.2) hk hnodup ⟨rfl, rfl⟩

end ActsOnLane

/-! ### The lanes of a connector (R279) -/

theorem mem_connLanes {l : Fin 32} {c : Fin 4} : l ∈ connLanes c ↔ connOf l = c := by
  revert l c
  decide

theorem nodup_connLanes (c : Fin 4) : (connLanes c).Nodup := by
  revert c
  decide

theorem State.connUp_of_lane_down {s : State} {l : Fin 32} (h : (s.lane (asLane l)).up = false) : s.connUp (connOf l) = false :=
  List.all_eq_false.2 ⟨l, mem_connLanes.2 rfl, Bool.eq_false_iff.1 h⟩

theorem State.linkCheck_of_lane_down {s : State} {l : Fin 32} (h : (s.lane (asLane l)).up = false) : s.linkCheck (connOf l) = s :=
  if_neg (Bool.eq_false_iff.1 (connUp_of_lane_down h))

/-! ### The outcome of a connector that no WAKE waits for (R300, R305) -/

theorem State.wakeDone_of_no_wakes {s : State} (h : s.hlk.wakes = []) (c : Fin 4) (st : Status) (code stage cause lanes : Nat) :
    s.wakeDone c st code stage cause lanes = s := by
  rw [wakeDone, h, List.foldl_nil, ← h]

theorem State.linkDone_of_no_wakes {s : State} (h : s.hlk.wakes = []) (c : Fin 4) (st : Status) (code stage cause lanes : Nat) :
    s.linkDone c st code stage cause lanes = s.linkPost c st code stage cause := by
  rw [linkDone, h]
  rfl

theorem State.linkPost_posts (s : State) (c : Fin 4) (st : Status) (code stage cause : Nat) :
    Claims.Posts s (s.linkPost c st code stage cause) [0x02B0] := result_posts ..

theorem State.onlyLink_linkPost (s : State) (c : Fin 4) (st : Status) (code stage cause : Nat) :
    OnlyLink s (s.linkPost c st code stage cause) := rfl

/-! ### The training blocks of a sleep entry (R294) -/

theorem State.onlyLink_sleepOut (s : State) (l : Fin 34) : OnlyLink s (s.sleepOut l) :=
  .foldl (fun s _ => s.onlyLink_sendTraining l 7) _ s

theorem State.sleepOut_keeps (s : State) (l : Fin 34) : (s.sleepOut l).hlk.conns = s.hlk.conns ∧ (s.sleepOut l).mbx = s.mbx :=
  ⟨foldl_keep (fun t => t.hlk.conns) (fun t _ => t.sendTraining l 7) (fun _ _ => rfl) (List.range 64) s,
    foldl_mbx (fun t _ => t.sendTraining l 7) (List.range 64) s fun _ _ => rfl⟩

theorem State.lane_sleepOut_ne (s : State) {k l : Fin 34} (h : k ≠ l) : (s.sleepOut l).lane k = s.lane k :=
  foldl_keep (fun t => t.lane k) _ (fun t _ => t.lane_sendTraining_ne h 7) _ s

end Sys2Proof.Machine
end

section
/-! PROOF. LINK_CONTROL, LANE_CONFIG, LANE_STATUS, and how a connector falls asleep (12 R294, R296, R300 to R302, R305): O48. The answers for
connectors that are where they shall be, what a SLEEP leaves, and HLK_LINK for no WAKE are the model's choices (log 85, 86). -/

namespace Sys2Proof.Machine

/-! ### LINK_CONTROL: its payload and its branches (R300) -/

theorem namedConns_one (c : Fin 4) : namedConns (2 ^ c.val) = [c] := by
  revert c
  decide

theorem toNat_connMask (c : Fin 4) : (BitVec.ofNat 8 (2 ^ c.val)).toNat = 2 ^ c.val := by
  revert c
  decide

theorem connMask_le (c : Fin 4) : 2 ^ c.val ≤ 15 := by
  revert c
  decide

/-- What LINK_CONTROL answers for an action and a mask of connectors. -/
def State.linkControl (s : State) (o : Origin) (act named : Nat) : Ans :=
  if named = 0 then Claims.ok s
  else if act = 0 then s.wakeConns o named
  else if s.armed then Ans.fail s .badState
  else if act = 1 then s.sleepConns o named
  else Claims.ok ((namedConns named).foldl State.resetConn s)

theorem exec_linkControl {q : Req} {s : State} {act mask : Byte} (hq : Claims.Fresh 0x0510 q s) (hact : act.toNat ≤ 2) (hmask : mask.toNat ≤ 15)
    (hp : q.payload = [act, mask, 0, 0, 0, 0, 0, 0]) :
    exec (.linkControl q) s = .next (((s.start q 0x0510).linkControl q.origin act.toNat mask.toNat).deliver q 0x0510) := by
  have hrun : exec (.linkControl q) s = .next ((cmdLinkControl.run q (s.start q 0x0510)).deliver q 0x0510) :=
    congrArg _ (serve_of_fresh hq (by rw [hp]; rfl))
  refine exec_of_answer hrun ?_
  have hfields : fld q.payload 0 1 = act.toNat ∧ fld q.payload 1 1 = mask.toNat ∧ zeros q.payload 2 6 = true := by
    simp [hp, fld_one, zeros]
  obtain ⟨hfirst, hsecond, hzero⟩ := hfields
  simp only [cmdLinkControl, hfirst, hsecond, hzero]
  rw [checks_pass (by simp; omega)]
  rfl

/-- LINK_CONTROL that names one connector. -/
theorem exec_linkControl_one {q : Req} {s : State} {act : Byte} (c : Fin 4) (hq : Claims.Fresh 0x0510 q s) (hact : act.toNat ≤ 2)
    (hp : q.payload = [act, BitVec.ofNat 8 (2 ^ c.val), 0, 0, 0, 0, 0, 0]) :
    exec (.linkControl q) s = .next (((s.start q 0x0510).linkControl q.origin act.toNat (2 ^ c.val)).deliver q 0x0510) := by
  have hrun := exec_linkControl hq hact (by rw [toNat_connMask]; exact connMask_le c) hp
  rwa [toNat_connMask] at hrun

theorem exec_linkControl_none (q : Req) (s : State) (act : Fin 3) (hq : Claims.Fresh 0x0510 q s)
    (hp : q.payload = [BitVec.ofNat 8 act.val, 0, 0, 0, 0, 0, 0, 0]) :
    exec (.linkControl q) s = .next ((Claims.ok (s.start q 0x0510)).deliver q 0x0510) :=
  exec_linkControl hq (by rw [BitVec.toNat_ofNat]; omega) (by decide) hp

section OneConnector

variable {s : State} {o : Origin} {c : Fin 4}

theorem State.linkControl_wake : s.linkControl o 0 (2 ^ c.val) = s.wakeConns o (2 ^ c.val) := by
  rw [linkControl, if_neg (Nat.two_pow_pos _).ne', if_pos rfl]

theorem State.linkControl_armed (harmed : s.armed = true) {act : Nat} (hact : act ≠ 0) :
    s.linkControl o act (2 ^ c.val) = Ans.fail s .badState := by
  rw [linkControl, if_neg (Nat.two_pow_pos _).ne', if_neg hact, if_pos harmed]

theorem State.linkControl_sleep (hunarmed : s.armed = false) : s.linkControl o 1 (2 ^ c.val) = s.sleepConns o (2 ^ c.val) := by
  rw [linkControl, if_neg (Nat.two_pow_pos _).ne', if_neg Nat.one_ne_zero, hunarmed, if_neg Bool.false_ne_true, if_pos rfl]

theorem State.linkControl_reset (hunarmed : s.armed = false) : s.linkControl o 2 (2 ^ c.val) = Claims.ok (s.resetConn c) := by
  rw [linkControl, if_neg (Nat.two_pow_pos _).ne', if_neg (by decide), hunarmed, if_neg Bool.false_ne_true, if_neg (by decide), namedConns_one]
  rfl

end OneConnector

/-! ### WAKE (R295, R296, R300) -/

theorem maskOf_false (l : List Bool) (h : ∀ b ∈ l, b = false) : maskOf l = 0 := by
  induction l with
  | nil => rfl
  | cons b l ih =>
    rw [maskOf, h b List.mem_cons_self, ih fun d hd => h d (List.mem_cons_of_mem _ hd)]
    rfl

theorem State.failedLanes_eq_zero {s : State} {c : Fin 4} (h : ∀ l, connOf l = c → (s.lane (asLane l)).state ≠ .failed) :
    s.failedLanes c = 0 := by
  refine maskOf_false _ fun b hb => ?_
  obtain ⟨l, -, rfl⟩ := List.mem_map.1 hb
  by_cases hl : connOf l = c
  · simp [hl, h l hl]
  · simp [hl]

theorem State.wakeConns_of_up {s : State} {c : Fin 4} (o : Origin) (hup : s.connUp c = true) (hentering : (s.hlk.conns[c]).entering = false) :
    s.wakeConns o (2 ^ c.val) = Claims.ok s := by
  rw [wakeConns, namedConns_one]
  simp only [List.filter, hup, hentering]
  rfl

/-- A WAKE of one connector with no failed lane and no sleep entry waits for that connector, whose bring-up begins. -/
theorem State.wakeConns_of_down {s : State} {c : Fin 4} (o : Origin) (hdown : s.connUp c = false) (hfailed : s.failedLanes c = 0)
    (hentering : (s.hlk.conns[c]).entering = false) :
    ∃ w, s.wakeConns o (2 ^ c.val) = Claims.accepted (State.beginConn { s with hlk := { s.hlk with wakes := s.hlk.wakes ++ [w] } } c) := by
  let w : WakeReq := { origin := o, open_ := BitVec.ofNat 4 (2 ^ c.val), named := BitVec.ofNat 4 (2 ^ c.val), bad := [], lanes := 0 }
  let t : State := { s with hlk := { s.hlk with wakes := s.hlk.wakes ++ [w] } }
  have hbegin : t.wakeConn c = t.beginConn c := if_neg (Bool.eq_false_iff.1 hentering)
  refine ⟨w, ?_⟩
  rw [← hbegin, wakeConns, namedConns_one]
  simp [List.filter, hdown, hfailed, Claims.accepted, t, w]

/-- A bring-up begins on one lane, if it is one that starts. -/
def State.beginLane (starts : Fin 32 → Bool) (cfg : LaneCfg) (s : State) (l : Fin 32) : State :=
  if starts l then s.updLane (asLane l) (fun n => n.begin_ cfg s.aon) else s

theorem State.actsOnLane_beginLane (starts : Fin 32 → Bool) (cfg : LaneCfg) : ActsOnLane (State.beginLane starts cfg) where
  aon s l := by simp [beginLane]
  other s l k h := by
    unfold beginLane
    split
    · exact s.lane_updLane_ne h _
    · rfl

theorem State.hmcPump_lanes (s : State) (c : Fin 4) : (s.hmcPump c).hlk.lanes = s.hlk.lanes ∧ (s.hmcPump c).hlk.wakes = s.hlk.wakes := by
  unfold hmcPump
  dsimp only
  split
  · split
    · exact ⟨rfl, rfl⟩
    · simp [updConn]
  · exact ⟨rfl, rfl⟩

theorem State.beginConn_eq {s : State} {c : Fin 4} {starts : Fin 32 → Bool}
    (hstarts : ∀ l, starts l = (connOf l = c && ((s.lane (asLane l)).state == .off || (s.lane (asLane l)).state == .sleep)))
    (hany : (connLanes c).any starts = true) : let t := (connLanes c).foldl (State.beginLane starts (s.hlk.conns[c]).cfg) s
    (s.beginConn c).hlk.lanes = t.hlk.lanes ∧ (s.beginConn c).hlk.wakes = t.hlk.wakes := by
  obtain rfl := funext hstarts
  unfold beginConn
  dsimp only
  rw [if_pos hany, (hmcPump_lanes ..).1, (hmcPump_lanes ..).2]
  simp -implicitDefEqProofs only [foldl_hlk, updHead_hlk, implies_true]
  exact ⟨rfl, rfl⟩

theorem State.beginConn_of_off {s : State} {c : Fin 4} (hoff : ∀ l, connOf l = c → (s.lane (asLane l)).state = .off) :
    let u := s.beginConn c
    (∀ l, connOf l = c → (u.lane (asLane l)).state = .pll ∧ (u.lane (asLane l)).since = s.aon) ∧
    (∀ l, connOf l ≠ c → u.lane (asLane l) = s.lane (asLane l)) ∧ u.hlk.wakes = s.hlk.wakes ∧ u.job = s.job ∧ u.mem = s.mem := by
  let starts (l : Fin 32) : Bool := connOf l = c && ((s.lane (asLane l)).state == .off || (s.lane (asLane l)).state == .sleep)
  let t := (connLanes c).foldl (State.beginLane starts (s.hlk.conns[c]).cfg) s
  have hstarts (l : Fin 32) (hl : connOf l = c) : starts l = true := by simp [starts, hl, hoff l hl]
  have hany : (connLanes c).any starts = true := by
    obtain ⟨l, hl⟩ := List.exists_mem_of_length_pos (l := connLanes c) (by simp [connLanes])
    exact List.any_eq_true.2 ⟨l, hl, hstarts l (mem_connLanes.1 hl)⟩
  obtain ⟨hlanes, hwakes⟩ := beginConn_eq (s := s) (fun _ => rfl) hany
  have hacts := actsOnLane_beginLane starts (s.hlk.conns[c]).cfg
  refine ⟨fun l hl => ?_, fun l hl => ?_, hwakes.trans ?_, ?_, s.beginConn_mem c⟩
  · rw [lane_congr hlanes]
    refine hacts.lane_of_mem (P := fun n => n.state = .pll ∧ n.since = s.aon) (mem_connLanes.2 hl) (nodup_connLanes c) fun u haon _ => ?_
    rw [beginLane, if_pos (hstarts l hl), lane_updLane_self]
    exact ⟨rfl, haon⟩
  · rw [lane_congr hlanes]
    exact hacts.lane_of_not_mem (mt mem_connLanes.1 hl) s
  · refine foldl_keep (fun t => t.hlk.wakes) _ (fun u l => ?_) _ s
    rw [beginLane]
    split <;> rfl
  · simp -implicitDefEqProofs [beginConn]

/-! ### SLEEP (R294, R296, R300) -/

theorem State.enterSleep_of_busy {s : State} {l : Fin 32} (hbusy : (s.lane (asLane l)).busy = true) (o : Option Origin) :
    s.enterSleep (connOf l) o = s.updConn (connOf l) (fun n => { n with
      entering := true, wakeAfter := false, toldReady := false, sleepReqs := n.sleepReqs ++ o.toList }) :=
  if_pos (List.any_eq_true.2 ⟨l, mem_connLanes.2 rfl, hbusy⟩)

theorem State.sleepConns_of_idle {s : State} {c : Fin 4} (o : Origin) (hidle : ∀ l, connOf l = c → (s.lane (asLane l)).busy = false) :
    s.sleepConns o (2 ^ c.val) = Claims.ok s := by
  have hnone : (connLanes c).any (fun l => (s.lane (asLane l)).busy) = false :=
    List.any_eq_false.2 fun l hl => Bool.eq_false_iff.1 (hidle l (mem_connLanes.1 hl))
  rw [sleepConns, namedConns_one]
  simp only [List.filter, hnone]
  rfl

theorem State.sleepConns_of_busy {s : State} {l : Fin 32} (o : Origin) (hbusy : (s.lane (asLane l)).busy = true) (hwakes : s.hlk.wakes = []) :
    s.sleepConns o (2 ^ (connOf l).val) = Claims.later (s.enterSleep (connOf l) (some o)) := by
  have hany : (connLanes (connOf l)).any (fun l => (s.lane (asLane l)).busy) = true := List.any_eq_true.2 ⟨l, mem_connLanes.2 rfl, hbusy⟩
  have hquiet : (s.enterSleep (connOf l) (some o)).hlk.wakes = [] := by rwa [enterSleep_of_busy hbusy]
  rw [sleepConns, namedConns_one]
  simp only [List.filter, hany, List.isEmpty_cons, Bool.false_eq_true, if_false, List.foldl_cons, List.foldl_nil, wakeDone_of_no_wakes hquiet]
  rfl

/-! ### RESET (R300) -/

/-- A lane of a connector that returns to OFF. -/
def State.resetLane (s : State) (l : Fin 32) : State := (s.updLane (asLane l) (fun n => n.cleared .off)).updTx l TxLane.emptied

theorem State.actsOnLane_resetLane : ActsOnLane State.resetLane where
  aon _ _ := rfl
  other s _ _ h := s.lane_updLane_ne h _

theorem State.entryOver_of_no_requests {s : State} {c : Fin 4} (h : (s.hlk.conns[c]).sleepReqs = []) (st : Status) :
    s.entryOver c st = s.updConn c (fun n => { n with entering := false, wakeAfter := false, sleepReqs := [] }) := by
  rw [entryOver, h]
  rfl

/-- The lanes of a connector return to OFF. -/
def State.resetLanes (s : State) (c : Fin 4) : State := (connLanes c).foldl State.resetLane s

theorem State.resetLanes_hlk (s : State) (c : Fin 4) :
    (s.resetLanes c).hlk.conns = s.hlk.conns ∧ (s.resetLanes c).hlk.wakes = s.hlk.wakes :=
  ⟨foldl_keep (fun t => t.hlk.conns) State.resetLane (fun _ _ => rfl) (connLanes c) s,
    foldl_keep (fun t => t.hlk.wakes) State.resetLane (fun _ _ => rfl) (connLanes c) s⟩

theorem State.onlyLink_resetLanes (s : State) (c : Fin 4) : OnlyLink s (s.resetLanes c) ∧ (s.resetLanes c).mbx = s.mbx ∧
    (s.resetLanes c).wires = s.wires :=
  ⟨.foldl (f := State.resetLane) (fun _ _ => rfl) _ s, foldl_mbx State.resetLane _ s fun _ _ => rfl,
    foldl_wires State.resetLane _ s fun _ _ => rfl⟩

theorem State.lane_resetLanes {s : State} {c : Fin 4} {l : Fin 32} (hl : connOf l = c) :
    ((s.resetLanes c).lane (asLane l)).state = .off := by
  refine actsOnLane_resetLane.lane_of_mem (P := fun n => n.state = .off) (mem_connLanes.2 hl) (nodup_connLanes c) fun t _ _ => ?_
  rw [resetLane, lane_updTx, lane_updLane_self, Lane.cleared]

theorem State.lane_resetLanes_ne {s : State} {c : Fin 4} {l : Fin 32} (hl : connOf l ≠ c) :
    (s.resetLanes c).lane (asLane l) = s.lane (asLane l) :=
  actsOnLane_resetLane.lane_of_not_mem (mt mem_connLanes.1 hl) s

/-- A connector is OFF: no sleep entry is under way, and nobody has been told that it is READY. -/
def State.connOff (s : State) (c : Fin 4) : State :=
  (s.updConn c (fun n => { n with entering := false, wakeAfter := false, sleepReqs := [] })).updConn c (fun n => { n with toldReady := false })

theorem State.resetConn_eq {s : State} {c : Fin 4} (hwakes : s.hlk.wakes = []) (hreqs : (s.hlk.conns[c]).sleepReqs = []) :
    let v := (s.resetLanes c).connOff c
    s.resetConn c = if (connLanes c).any (fun l => (s.lane (asLane l)).state != .off) then v.linkPost c .badState 0 0 linkReset else v := by
  obtain ⟨hconns, hkept⟩ := s.resetLanes_hlk c
  have hentry := entryOver_of_no_requests (s := s.resetLanes c) (c := c) (by rwa [hconns]) .badState
  have hquiet : ((s.resetLanes c).connOff c).hlk.wakes = [] := hkept.trans hwakes
  dsimp only
  rw [← linkDone_of_no_wakes hquiet c .badState 0 0 linkReset (0xFF * 2 ^ (8 * c.val)), connOff, ← hentry]
  rfl

theorem State.connOff_resetLanes (s : State) (c : Fin 4) : let v := (s.resetLanes c).connOff c
    (∀ l, connOf l = c → (v.lane (asLane l)).state = .off) ∧ (∀ l, connOf l ≠ c → v.lane (asLane l) = s.lane (asLane l)) ∧
    (v.hlk.conns[c]).entering = false ∧ v = { s with hlk := v.hlk } := by
  have hoff (l : Fin 32) (hl : connOf l = c) := lane_resetLanes (s := s) hl
  have hothers (l : Fin 32) (hl : connOf l ≠ c) := lane_resetLanes_ne (s := s) hl
  obtain ⟨honly, hmbx, hwires⟩ := s.onlyLink_resetLanes c
  generalize s.resetLanes c = t at *
  refine ⟨hoff, hothers, ?_, ?_⟩
  · rw [connOff, updConn_value, getElem_upd_self, updConn_value, getElem_upd_self]
  · rw [OnlyLink, hmbx, hwires] at honly
    exact congrArg (fun x : State => { x with hlk := (t.connOff c).hlk }) honly

/-- RESET of a connector that no WAKE and no SLEEP waits for. -/
theorem State.resetConn_spec {s : State} {c : Fin 4} (hwakes : s.hlk.wakes = []) (hreqs : (s.hlk.conns[c]).sleepReqs = []) :
    let u := s.resetConn c
    (∀ l, connOf l = c → (u.lane (asLane l)).state = .off) ∧ (u.hlk.conns[c]).entering = false ∧
    (∀ l, connOf l ≠ c → u.lane (asLane l) = s.lane (asLane l)) ∧
    ((∃ l, connOf l = c ∧ (s.lane (asLane l)).state ≠ .off) → Claims.Posts s u [0x02B0]) ∧ u = { s with hlk := u.hlk, mbx := u.mbx } := by
  obtain ⟨hoff, hothers, hentering, heq⟩ := s.connOff_resetLanes c
  rw [resetConn_eq hwakes hreqs]
  generalize (s.resetLanes c).connOff c = v at *
  dsimp only
  split
  next =>
    refine ⟨hoff, hentering, hothers, fun _ => posts_of_mbx (by rw [heq]) (v.linkPost_posts ..), ?_⟩
    exact congrArg (fun x : State => { x with mbx := (v.linkPost c .badState 0 0 linkReset).mbx }) heq
  next hnone =>
    refine ⟨hoff, hentering, hothers, fun ⟨l, hl, hon⟩ => absurd ?_ hnone, ?_⟩
    · exact List.any_eq_true.2 ⟨l, mem_connLanes.2 hl, bne_iff_ne.2 hon⟩
    · exact congrArg (fun x : State => { x with mbx := v.mbx }) heq

/-! ### LANE_CONFIG (R301) -/

/-- The payload of LANE_CONFIG for a connector. -/
def laneConfigPayload (c : Fin 4) (swing preset ctle sleep : Nat) (fixed noFix : Bool) : List Byte :=
  [BitVec.ofNat 8 c.val, BitVec.ofNat 8 swing, BitVec.ofNat 8 preset, BitVec.ofNat 8 (maskOf [fixed, noFix]), BitVec.ofNat 8 ctle, 0, 0, 0] ++
    le 4 sleep ++ [0, 0, 0, 0]

theorem fld_byte {p : List Byte} {k v : Nat} (hv : v < 256) (h : p.getD k 0 = BitVec.ofNat 8 v) : fld p k 1 = v := by
  rw [fld_one, h]
  exact (BitVec.toNat_ofNat ..).trans (Nat.mod_eq_of_lt hv)

theorem laneConfigPayload_fields (c : Fin 4) {swing preset ctle sleep : Nat} (fixed noFix : Bool) (hswing : swing ≤ 24) (hpreset : preset ≤ 7)
    (hctle : ctle ≤ 15) (hsleep : sleep ≤ 3600000) : let p := laneConfigPayload c swing preset ctle sleep fixed noFix
    fld p 0 1 = c.val ∧ fld p 1 1 = swing ∧ fld p 2 1 = preset ∧ fld p 3 1 = maskOf [fixed, noFix] ∧ fld p 4 1 = ctle ∧
    zeros p 5 3 = true ∧ fld p 8 4 = sleep ∧ zeros p 12 4 = true := by
  have hmask : maskOf [fixed, noFix] < 256 := by
    cases fixed <;> cases noFix <;> decide
  refine ⟨fld_byte (by omega) rfl, fld_byte (by omega) rfl, fld_byte (by omega) rfl, fld_byte hmask rfl, fld_byte (by omega) rfl, rfl, ?_, rfl⟩
  simp only [laneConfigPayload, List.append_assoc]
  simp (disch := simp) only [fld_append_right, List.length_cons, List.length_nil, Nat.reduceAdd, Nat.reduceSub, fld_le]
  omega

theorem maskOf_two (a b : Bool) : bit (maskOf [a, b]) 0 = a ∧ bit (maskOf [a, b]) 1 = b ∧ maskOf [a, b] ≤ 3 := by
  revert a b
  decide

theorem exec_laneConfig_sets (q : Req) (s : State) (c : Fin 4) (swing preset ctle sleep : Nat) (fixed noFix : Bool)
    (hq : Claims.Fresh 0x0511 q s) (hunarmed : s.armed = false) (hlo : 8 ≤ swing) (hhi : swing ≤ 24) (hpreset : preset ≤ 7)
    (hctle : ctle ≤ 15) (hsleep : sleep ≤ 3600000)
    (hp : q.payload = [BitVec.ofNat 8 c.val, BitVec.ofNat 8 swing, BitVec.ofNat 8 preset, BitVec.ofNat 8 (maskOf [fixed, noFix]),
      BitVec.ofNat 8 ctle, 0, 0, 0] ++ le 4 sleep ++ [0, 0, 0, 0]) :
    let cfg : LaneCfg := { swing := swing, preset := some preset, fixedCtle := fixed, noTxFix := noFix, ctleDb := ctle, autoSleepMs := sleep }
    exec (.laneConfig q) s = .next ((Claims.ok ((s.start q 0x0511).updConn c (fun n => { n with cfg := cfg }))).deliver q 0x0511) := by
  have hrun : exec (.laneConfig q) s = .next ((cmdLaneConfig.run q (s.start q 0x0511)).deliver q 0x0511) :=
    congrArg _ (serve_of_fresh hq (by rw [hp]; rfl))
  have hstart : (s.start q 0x0511).armed = false := hunarmed
  obtain ⟨hconn, hsw, hpre, hbits, hdb, hzero₁, hms, hzero₂⟩ := laneConfigPayload_fields c fixed noFix hhi hpreset hctle hsleep
  obtain ⟨hbit₀, hbit₁, hmask⟩ := maskOf_two fixed noFix
  intro cfg
  refine exec_of_answer hrun ?_
  simp only [cmdLaneConfig, show q.payload = laneConfigPayload c swing preset ctle sleep fixed noFix from hp, hconn, hsw, hpre, hbits, hdb,
    hzero₁, hms, hzero₂, hbit₀, hbit₁]
  rw [checks_pass (by simp [hstart]; omega), if_neg (by omega), Fin.ofNat_val_eq_self]
  rfl

/-! ### LANE_STATUS (R302) -/

/-- A field within one element's block in a list of equally long blocks of `n` elements. -/
theorem fld_flatMap_finRange {n m : Nat} {f : Fin n → List Byte} (h : ∀ i, (f i).length = m) (i : Fin n) {k size : Nat} (hk : k + size ≤ m) :
    fld ((List.finRange n).flatMap f) (m * i.val + k) size = fld (f i) k size := by
  have hi : i.val < (List.finRange n).length := by simp
  have hdrop : ((List.finRange n).flatMap f).drop (m * i.val) = f i ++ ((List.finRange n).drop (i.val + 1)).flatMap f := by
    rw [drop_flatMap h, List.drop_eq_getElem_cons hi, List.flatMap_cons, List.getElem_finRange]
    rfl
  rw [fld, ← List.drop_drop, hdrop, ← fld_append_left (f i) _ (by rw [h i]; exact hk), fld]

theorem LaneState.code_lt (st : LaneState) : st.code < 12 := by
  cases st <;> decide

theorem Lane.bytes_fields (n : Lane) : n.bytes.length = 6 ∧ fld n.bytes 0 1 = n.state.code ∧ fld n.bytes 4 2 = n.transients.toNat := by
  refine ⟨by simp [Lane.bytes], ?_, ?_⟩
  all_goals simp only [Lane.bytes, List.append_assoc]
  · exact (fld_le 1 _ _).trans (Nat.mod_eq_of_lt (Nat.lt_trans n.state.code_lt (by decide)))
  · simp (disch := simp) only [fld_append_right, length_le, Nat.reduceSub, fld_le_end]
    exact Nat.mod_eq_of_lt n.transients.isLt

/-- The payload LANE_STATUS answers. -/
def State.laneStatusBytes (s : State) : List Byte :=
  le 8 s.nowNs ++ zeroBytes 8 ++ (List.finRange 32).flatMap (fun l => (s.lane (asLane l)).bytes)

theorem State.laneStatusBytes_fields (s : State) :
    s.laneStatusBytes.length = 208 ∧ fld s.laneStatusBytes 0 8 = s.nowNs % 2 ^ 64 ∧
    ∀ l : Fin 32, fld s.laneStatusBytes (16 + 6 * l.val) 1 = (s.lane (asLane l)).state.code ∧
      fld s.laneStatusBytes (16 + 6 * l.val + 4) 2 = (s.lane (asLane l)).transients.toNat := by
  have hlength (l : Fin 32) : (s.lane (asLane l)).bytes.length = 6 := (s.lane (asLane l)).bytes_fields.1
  have hlane (l : Fin 32) {k size : Nat} (hk : k + size ≤ 6) :
      fld s.laneStatusBytes (16 + 6 * l.val + k) size = fld (s.lane (asLane l)).bytes k size := by
    rw [Nat.add_assoc, ← fld_flatMap_finRange hlength l hk]
    exact fld_append (le 8 s.nowNs ++ zeroBytes 8) _ _ size
  refine ⟨?_, ?_, fun l => ⟨?_, ?_⟩⟩
  · simp [laneStatusBytes, List.length_flatMap, hlength]
  · rw [laneStatusBytes, List.append_assoc]
    exact fld_le 8 _ _
  · rw [← (s.lane (asLane l)).bytes_fields.2.1, ← hlane l (by decide)]
    rfl
  · rw [← (s.lane (asLane l)).bytes_fields.2.2, ← hlane l (by decide)]

theorem exec_laneStatus_answers (q : Req) (s : State) (hq : Claims.FreshOf 0x0512 0 q s) : ∃ p : List Byte,
    exec (.laneStatus q) s = .next ((Claims.ok (s.start q 0x0512) p).deliver q 0x0512) ∧ p.length = 208 ∧ fld p 0 8 = s.nowNs % 2 ^ 64 ∧
    ∀ l : Fin 32, fld p (16 + 6 * l.val) 1 = (s.lane (asLane l)).state.code ∧ fld p (16 + 6 * l.val + 4) 2 = (s.lane (asLane l)).transients.toNat :=
  ⟨(s.start q 0x0512).laneStatusBytes, congrArg _ (serve_of_fresh hq.1 (beq_iff_eq.2 hq.2)), (s.start q 0x0512).laneStatusBytes_fields⟩

/-! ### Auto-sleep (R294) -/

theorem exec_autoSleep_acts (c : Fin 4) (l : Fin 32) (t : Nat) (s : State) :
    (s.armed = true → exec (.autoSleep c t) s = .next (s.at t)) ∧
    (s.armed = false → 0 < (s.hlk.conns[c]).inForce.autoSleepMs → 0 < s.job.stoppedAt →
      s.job.stoppedAt + (s.hlk.conns[c]).inForce.autoSleepMs * 1000000 * 2 ^ 32 ≤ max s.aon t → (s.hlk.conns[c]).wokenAt ≤ s.job.stoppedAt →
      (s.hlk.conns[c]).entering = false → connOf l = c → (s.lane (asLane l)).busy = true → s.hlk.wakes = [] →
      ∃ u, exec (.autoSleep c t) s = .next u ∧ (u.hlk.conns[c]).entering = true ∧ u.hlk.lanes = s.hlk.lanes ∧ u = { s.at t with hlk := u.hlk }) := by
  refine ⟨fun harmed => congrArg _ (if_neg fun h => ?_), fun hunarmed htime hstopped hpast hwoken hentering hl hbusy hwakes => ?_⟩
  · exact Bool.false_ne_true (h.2.1.symm.trans harmed)
  · subst hl
    have hdue : s.job.stoppedAt + ms (s.hlk.conns[connOf l]).inForce.autoSleepMs ≤ (s.at t).aon := by
      rwa [ms, ns, Nat.mul_comm 1000000]
    have hsleep := State.enterSleep_of_busy (s := s.at t) hbusy none
    have hquiet : ((s.at t).enterSleep (connOf l) none).hlk.wakes = [] := by rwa [hsleep]
    have hrun : exec (.autoSleep (connOf l) t) s = .next ((s.at t).enterSleep (connOf l) none) :=
      congrArg Host.Outcome.next ((if_pos ⟨htime, hunarmed, hstopped, hdue, hwoken, hentering⟩).trans (State.wakeDone_of_no_wakes hquiet ..))
    rw [hrun, hsleep]
    refine ⟨_, rfl, ?_, rfl, rfl⟩
    rw [State.updConn_value, getElem_upd_self]

/-! ### A connector falls asleep (R294) -/

/-- A busy lane falls asleep. -/
def State.sleepLane (s : State) (l : Fin 32) : State :=
  if (s.lane (asLane l)).busy then
    ((s.sleepOut (asLane l)).updLane (asLane l) (fun n => { n with state := .sleep })).updTx l TxLane.emptied
  else s

theorem State.onlyLink_sleepLane (s : State) (l : Fin 32) : OnlyLink s (s.sleepLane l) := by
  have hasleep (t : State) : OnlyLink t ((t.updLane (asLane l) (fun n => { n with state := .sleep })).updTx l TxLane.emptied) := rfl
  exact ite_rel (R := OnlyLink) ((s.onlyLink_sleepOut _).trans (hasleep _)) (.refl s)

theorem State.actsOnLane_sleepLane : ActsOnLane State.sleepLane where
  aon s l := by rw [s.onlyLink_sleepLane l]
  other s l k h := by
    unfold sleepLane
    split
    · rw [lane_updTx, lane_updLane_ne _ h, lane_sleepOut_ne _ h]
    · rfl

/-- The busy lanes of a connector fall asleep. -/
def State.sleepLanes (s : State) (c : Fin 4) : State := (connLanes c).foldl State.sleepLane s

theorem State.onlyLink_sleepLanes (s : State) (c : Fin 4) : OnlyLink s (s.sleepLanes c) := .foldl State.onlyLink_sleepLane _ s

theorem State.sleepLane_keeps (s : State) (l : Fin 32) : (s.sleepLane l).hlk.conns = s.hlk.conns ∧ (s.sleepLane l).mbx = s.mbx := by
  have hasleep (t : State) : let u := (t.updLane (asLane l) (fun n => { n with state := .sleep })).updTx l TxLane.emptied
      u.hlk.conns = t.hlk.conns ∧ u.mbx = t.mbx := ⟨rfl, rfl⟩
  unfold sleepLane
  split
  · rw [(hasleep _).1, (hasleep _).2]
    exact s.sleepOut_keeps _
  · exact ⟨rfl, rfl⟩

theorem State.sleepLanes_keeps (s : State) (c : Fin 4) : (s.sleepLanes c).hlk.conns = s.hlk.conns ∧ (s.sleepLanes c).mbx = s.mbx := by
  rw [sleepLanes, foldl_mbx State.sleepLane (connLanes c) s fun t l => (t.sleepLane_keeps l).2]
  exact ⟨foldl_keep (fun t => t.hlk.conns) State.sleepLane (fun t l => (t.sleepLane_keeps l).1) (connLanes c) s, rfl⟩

theorem State.lane_sleepLanes {s : State} {c : Fin 4} {l : Fin 32} (hl : connOf l = c) :
    if (s.lane (asLane l)).busy then ((s.sleepLanes c).lane (asLane l)).state = .sleep
    else (s.sleepLanes c).lane (asLane l) = s.lane (asLane l) := by
  refine actsOnLane_sleepLane.lane_of_mem (P := fun n => if (s.lane (asLane l)).busy then n.state = .sleep else n = s.lane (asLane l))
    (mem_connLanes.2 hl) (nodup_connLanes c) fun t _ ht => ?_
  rw [sleepLane, ht]
  split
  · rw [lane_updTx, lane_updLane_self]
  · exact ht

theorem State.sleepAnswer_eq (st : Status) (s : State) (o : Origin) : s.sleepAnswer st o = { s with mbx := (s.sleepAnswer st o).mbx } := by
  unfold sleepAnswer
  split
  · rfl
  · exact resolve_eq ..

/-- A sleep entry that is over: the SLEEPs that waited are answered by the mailboxes. -/
theorem State.entryOver_spec (s : State) (c : Fin 4) (st : Status) :
    (s.entryOver c st).hlk.lanes = s.hlk.lanes ∧ ((s.entryOver c st).hlk.conns[c]).entering = false ∧ OnlyLink s (s.entryOver c st) := by
  have hanswer (u : State) (o : Origin) : (u.sleepAnswer st o).hlk = u.hlk := by rw [sleepAnswer_eq]
  have honly (u : State) (o : Origin) : OnlyLink u (u.sleepAnswer st o) := .of_mbx (sleepAnswer_eq ..)
  rw [entryOver, foldl_hlk _ _ _ hanswer]
  refine ⟨rfl, ?_, .trans (s.onlyLink_updConn ..) (.foldl honly _ _)⟩
  rw [updConn_value, getElem_upd_self]

theorem State.asleep_eq {s : State} {c : Fin 4} (hnowake : (s.hlk.conns[c]).wakeAfter = false) :
    s.asleep c = ((s.sleepLanes c).entryOver c .ok).linkPost c .ok 8 0 linkNone :=
  if_neg (Bool.eq_false_iff.1 hnowake)

theorem exec_sleepEntry_acts (c : Fin 4) (t : Nat) (s : State) :
    ((s.hlk.conns[c]).entering = false → exec (.sleepEntry c t) s = .next (s.at t)) ∧
    ((s.hlk.conns[c]).entering = true → (s.hlk.conns[c]).wakeAfter = false → s.hlk.wakes = [] →
      ∃ u, exec (.sleepEntry c t) s = .next u ∧ (u.hlk.conns[c]).entering = false ∧
        (∀ l, connOf l = c → if (s.lane (asLane l)).busy then (u.lane (asLane l)).state = .sleep else u.lane (asLane l) = s.lane (asLane l)) ∧
        ((s.hlk.conns[c]).sleepReqs = [] → Claims.Posts s u [0x02B0]) ∧ u = { s.at t with hlk := u.hlk, mbx := u.mbx, wires := u.wires }) := by
  refine ⟨fun hnot => congrArg _ (if_neg (Bool.eq_false_iff.1 hnot)), fun hentering hnowake _ => ?_⟩
  have hrun : exec (.sleepEntry c t) s = .next ((((s.at t).sleepLanes c).entryOver c .ok).linkPost c .ok 8 0 linkNone) :=
    congrArg Host.Outcome.next ((if_pos hentering).trans (State.asleep_eq (s := s.at t) hnowake))
  obtain ⟨hconns, hmbx⟩ := (s.at t).sleepLanes_keeps c
  have honly := (s.at t).onlyLink_sleepLanes c
  have hlane (l : Fin 32) (hl : connOf l = c) := State.lane_sleepLanes (s := s.at t) hl
  generalize (s.at t).sleepLanes c = v at *
  obtain ⟨hlanes, hover, hdone⟩ := v.entryOver_spec c .ok
  refine ⟨_, hrun, hover, fun l hl => ?_, fun hnone => ?_, (honly.trans hdone).trans (State.onlyLink_linkPost ..)⟩
  · have hkept (w : State) (k : Fin 34) : (w.linkPost c .ok 8 0 linkNone).lane k = w.lane k := rfl
    rw [hkept, State.lane_congr hlanes]
    exact hlane l hl
  · have hfree : (v.hlk.conns[c]).sleepReqs = [] := by rw [hconns]; exact hnone
    refine posts_of_mbx ?_ (State.linkPost_posts ..)
    rw [State.entryOver_of_no_requests hfree]
    exact hmbx

/-! ### The clauses of LINK_CONTROL -/

theorem exec_linkControl_wakes {q : Req} {s : State} {c : Fin 4} (hq : Claims.Fresh 0x0510 q s)
    (hp : q.payload = [0, BitVec.ofNat 8 (2 ^ c.val), 0, 0, 0, 0, 0, 0]) (hoff : ∀ l, connOf l = c → (s.lane (asLane l)).state = .off)
    (hentering : (s.hlk.conns[c]).entering = false) :
    ∃ u : State, exec (.linkControl q) s = .next ((Claims.accepted u).deliver q 0x0510) ∧
      (∀ l, connOf l = c → (u.lane (asLane l)).state = .pll ∧ (u.lane (asLane l)).since = s.aon) ∧
      (∀ l, connOf l ≠ c → u.lane (asLane l) = s.lane (asLane l)) ∧ u.hlk.wakes.length = s.hlk.wakes.length + 1 ∧ u.job = s.job ∧
      u.mem = s.mem := by
  let v := s.start q 0x0510
  have hstate (l : Fin 32) (hl : connOf l = c) : (v.lane (asLane l)).state = .off := hoff l hl
  have hdown : v.connUp c = false := by
    obtain ⟨l, hl⟩ := List.exists_mem_of_length_pos (l := connLanes c) (by simp [connLanes])
    have hlow : (v.lane (asLane l)).up = false := by
      rw [Lane.up, hstate l (mem_connLanes.1 hl)]
      rfl
    exact mem_connLanes.1 hl ▸ State.connUp_of_lane_down hlow
  have hfailed : v.failedLanes c = 0 := State.failedLanes_eq_zero fun l hl => by
    rw [hstate l hl]
    decide
  obtain ⟨w, hw⟩ := State.wakeConns_of_down q.origin hdown hfailed hentering
  obtain ⟨hpll, hothers, hwakes, hjob, hmem⟩ :=
    State.beginConn_of_off (s := { v with hlk := { v.hlk with wakes := v.hlk.wakes ++ [w] } }) (c := c) hoff
  refine ⟨_, exec_of_answer (exec_linkControl_one c hq (by decide) hp) (State.linkControl_wake.trans hw), hpll, hothers, ?_, hjob, hmem⟩
  rw [hwakes]
  exact List.length_append

theorem exec_linkControl_sleeps {q : Req} {s : State} {l : Fin 32} (hq : Claims.Fresh 0x0510 q s)
    (hp : q.payload = [1, BitVec.ofNat 8 (2 ^ (connOf l).val), 0, 0, 0, 0, 0, 0]) (hunarmed : s.armed = false)
    (hbusy : (s.lane (asLane l)).busy = true) (hwakes : s.hlk.wakes = []) :
    ∃ u : State, exec (.linkControl q) s = .next ((Claims.later u).deliver q 0x0510) ∧ (u.hlk.conns[connOf l]).entering = true ∧
      q.origin ∈ (u.hlk.conns[connOf l]).sleepReqs ∧ u.hlk.lanes = s.hlk.lanes ∧ u = { s.start q 0x0510 with hlk := u.hlk } := by
  have hsleep := State.enterSleep_of_busy (s := s.start q 0x0510) hbusy (some q.origin)
  have hanswer := (State.linkControl_sleep (s := s.start q 0x0510) hunarmed).trans
    (State.sleepConns_of_busy (s := s.start q 0x0510) q.origin hbusy hwakes)
  refine ⟨_, exec_of_answer (exec_linkControl_one _ hq (by decide) hp) hanswer, ?_⟩
  rw [hsleep]
  refine ⟨?_, ?_, rfl, rfl⟩
  · rw [State.updConn_value, getElem_upd_self]
  · rw [State.updConn_value, getElem_upd_self]
    exact List.mem_append_right _ (List.mem_singleton.2 rfl)

theorem exec_linkControl_acts (q : Req) (s : State) (c : Fin 4) (hq : Claims.Fresh 0x0510 q s) :
    (q.payload = [0, BitVec.ofNat 8 (2 ^ c.val), 0, 0, 0, 0, 0, 0] → s.connUp c = true → (s.hlk.conns[c]).entering = false →
      exec (.linkControl q) s = .next ((Claims.ok (s.start q 0x0510)).deliver q 0x0510)) ∧
    (q.payload = [0, BitVec.ofNat 8 (2 ^ c.val), 0, 0, 0, 0, 0, 0] → (∀ l, connOf l = c → (s.lane (asLane l)).state = .off) →
      (s.hlk.conns[c]).entering = false →
      ∃ u : State, exec (.linkControl q) s = .next ((Claims.accepted u).deliver q 0x0510) ∧
        (∀ l, connOf l = c → (u.lane (asLane l)).state = .pll ∧ (u.lane (asLane l)).since = s.aon) ∧
        (∀ l, connOf l ≠ c → u.lane (asLane l) = s.lane (asLane l)) ∧ u.hlk.wakes.length = s.hlk.wakes.length + 1 ∧ u.job = s.job ∧ u.mem = s.mem) ∧
    (q.payload = [1, BitVec.ofNat 8 (2 ^ c.val), 0, 0, 0, 0, 0, 0] → s.armed = false →
      ((∃ l, connOf l = c ∧ (s.lane (asLane l)).busy = true) → s.hlk.wakes = [] →
        ∃ u : State, exec (.linkControl q) s = .next ((Claims.later u).deliver q 0x0510) ∧ (u.hlk.conns[c]).entering = true ∧
          q.origin ∈ (u.hlk.conns[c]).sleepReqs ∧ u.hlk.lanes = s.hlk.lanes ∧ u = { s.start q 0x0510 with hlk := u.hlk }) ∧
      ((∀ l, connOf l = c → (s.lane (asLane l)).busy = false) →
        exec (.linkControl q) s = .next ((Claims.ok (s.start q 0x0510)).deliver q 0x0510))) ∧
    (q.payload = [2, BitVec.ofNat 8 (2 ^ c.val), 0, 0, 0, 0, 0, 0] → s.armed = false → s.hlk.wakes = [] → (s.hlk.conns[c]).sleepReqs = [] →
      ∃ u : State, exec (.linkControl q) s = .next ((Claims.ok u).deliver q 0x0510) ∧ (∀ l, connOf l = c → (u.lane (asLane l)).state = .off) ∧
        (u.hlk.conns[c]).entering = false ∧ (∀ l, connOf l ≠ c → u.lane (asLane l) = s.lane (asLane l)) ∧
        ((∃ l, connOf l = c ∧ (s.lane (asLane l)).state ≠ .off) → Claims.Posts s u [0x02B0]) ∧
        u = { s.start q 0x0510 with hlk := u.hlk, mbx := u.mbx }) ∧
    (∀ act : Byte, (act = 1 ∨ act = 2) → q.payload = [act, BitVec.ofNat 8 (2 ^ c.val), 0, 0, 0, 0, 0, 0] → s.armed = true →
      exec (.linkControl q) s = .next ((Ans.fail (s.start q 0x0510) .badState).deliver q 0x0510)) := by
  let v := s.start q 0x0510
  refine ⟨fun hp hup hentering => ?_, fun hp hoff hentering => exec_linkControl_wakes hq hp hoff hentering,
    fun hp hunarmed => ⟨fun ⟨l, hl, hbusy⟩ hwakes => ?_, fun hidle => ?_⟩, fun hp hunarmed hwakes hreqs => ?_, fun act hact hp harmed => ?_⟩
  · exact exec_of_answer (exec_linkControl_one c hq (by decide) hp)
      (State.linkControl_wake.trans (State.wakeConns_of_up (s := v) _ hup hentering))
  · subst hl
    exact exec_linkControl_sleeps hq hp hunarmed hbusy hwakes
  · exact exec_of_answer (exec_linkControl_one c hq (by decide) hp)
      ((State.linkControl_sleep (s := v) hunarmed).trans (State.sleepConns_of_idle (s := v) _ hidle))
  · exact ⟨_, exec_of_answer (exec_linkControl_one c hq (by decide) hp) (State.linkControl_reset (s := v) hunarmed),
      State.resetConn_spec (s := v) hwakes hreqs⟩
  · have hbounds : act.toNat ≤ 2 ∧ act.toNat ≠ 0 := by
      rcases hact with rfl | rfl <;> decide
    exact exec_of_answer (exec_linkControl_one c hq hbounds.1 hp) (State.linkControl_armed (s := v) harmed hbounds.2)

/-- Settles O48: the branches of LINK_CONTROL by the connector it names, the fields of LANE_CONFIG and LANE_STATUS, and the beginning and
the end of a sleep entry. -/
theorem linkCommandsComplete : Obligations.LinkCommandsComplete :=
  ⟨exec_linkControl_none, exec_linkControl_acts, exec_laneConfig_sets, exec_laneStatus_answers, exec_autoSleep_acts, exec_sleepEntry_acts⟩

end Sys2Proof.Machine
end

section
/-! PROOF. Lane tests (12 R285, R297 to R299, R303, R304): O49. That a FAILED lane stays FAILED, what a pattern starts from, and that a new
test ends the running one are the model's choices (log 86, 87). -/

namespace Sys2Proof.Machine

/-! ### The end of a test (R303) -/

/-- A lane in TEST sleeps with nothing stored. -/
def State.endTestLane (s : State) (l : Fin 32) : State :=
  if (s.lane (asLane l)).state == .test then s.updLane (asLane l) (fun n => n.cleared .sleep) else s

theorem State.actsOnLane_endTestLane : ActsOnLane State.endTestLane where
  aon s l := by simp [endTestLane]
  other s l k h := by
    unfold endTestLane
    split
    · exact s.lane_updLane_ne h _
    · rfl

/-- The lanes of a test sleep. -/
def State.endTestLanes (s : State) : State := (List.finRange 32).foldl State.endTestLane s

theorem State.lane_endTestLanes (s : State) (l : Fin 32) : let n := s.endTestLanes.lane (asLane l)
    if (s.lane (asLane l)).state = .test then n.state = .sleep ∧ n.stored = false else n = s.lane (asLane l) := by
  refine actsOnLane_endTestLane.lane_of_mem
    (P := fun n => if (s.lane (asLane l)).state = .test then n.state = .sleep ∧ n.stored = false else n = s.lane (asLane l))
    (List.mem_finRange l) (List.nodup_finRange 32) fun t _ ht => ?_
  simp only [endTestLane, ht, beq_iff_eq]
  split
  · rw [lane_updLane_self]
    exact ⟨rfl, rfl⟩
  · exact ht

theorem State.onlyLink_endTestLanes (s : State) : OnlyLink s s.endTestLanes ∧ s.endTestLanes.mbx = s.mbx ∧ s.endTestLanes.wires = s.wires := by
  have hstep (t : State) (l : Fin 32) : OnlyLink t (t.endTestLane l) ∧ (t.endTestLane l).mbx = t.mbx ∧ (t.endTestLane l).wires = t.wires := by
    unfold endTestLane
    split
    · exact ⟨rfl, rfl, rfl⟩
    · exact ⟨rfl, rfl, rfl⟩
  exact ⟨.foldl (fun t l => (hstep t l).1) _ s, foldl_mbx State.endTestLane _ s fun t l => (hstep t l).2.1,
    foldl_wires State.endTestLane _ s fun t l => (hstep t l).2.2⟩

theorem State.endTest_of_none {s : State} (h : s.hlk.test = none) (reason : Nat) : s.endTest reason = s := by
  rw [endTest, h]

theorem State.endTest_of_some {s : State} {r : TestRun} (h : s.hlk.test = some r) (reason : Nat) : let u := s.endTest reason
    u.hlk.test = none ∧ (∀ l, u.lane (asLane l) = s.endTestLanes.lane (asLane l)) ∧ Claims.Posts s u [0x02B2] ∧
    u = { s with hlk := u.hlk, mbx := u.mbx } := by
  have heq : s.endTest reason = ({ s.endTestLanes with hlk := { s.endTestLanes.hlk with test := none } }).result (some r.origin) 0x02B2 clsJob .ok 0
      [(4, r.lanes.toNat), (1, reason)] := by
    unfold endTest endTestLanes endTestLane
    rw [h]
  obtain ⟨honly, hmbx, hwires⟩ := s.onlyLink_endTestLanes
  rw [heq]
  generalize s.endTestLanes = v at *
  have hresult := State.result_eq { v with hlk := { v.hlk with test := none } } (some r.origin) 0x02B2 clsJob .ok 0
    [(4, r.lanes.toNat), (1, reason)] none
  refine ⟨?_, fun l => ?_, posts_of_mbx hmbx (result_posts ..), ?_⟩
  · rw [hresult]
  · rw [hresult]
    rfl
  · rw [hresult, honly, hwires]

/-! ### The start of a test (R285, R297, R303) -/

/-- A lane that takes part in a test enters TEST and sends the pattern. -/
def State.startTestLane (sel : Fin 32 → Bool) (pattern : Nat) (s : State) (l : Fin 32) : State :=
  if sel l then
    let n := s.lane (asLane l)
    (s.updLane (asLane l) (fun n => { n with state := .test })).emit
      (.lanePattern (if n.txRev then mirrorLane (asLane l) else asLane l) pattern)
  else s

theorem State.actsOnLane_startTestLane (sel : Fin 32 → Bool) (pattern : Nat) : ActsOnLane (State.startTestLane sel pattern) where
  aon s l := by
    unfold startTestLane
    split
    · rfl
    · rfl
  other s l k h := by
    unfold startTestLane
    split
    · exact s.lane_updLane_ne h _
    · rfl

theorem State.startTestLane_keeps (sel : Fin 32 → Bool) (pattern : Nat) (s : State) (l : Fin 32) : let u := s.startTestLane sel pattern l
    OnlyLink s u ∧ u.mbx = s.mbx ∧ u.hlk.test = s.hlk.test ∧ u.hlk.tests = s.hlk.tests ∧ s.wires ⊆ u.wires := by
  unfold startTestLane
  split
  · exact ⟨rfl, rfl, rfl, rfl, List.subset_cons_self ..⟩
  · exact ⟨rfl, rfl, rfl, rfl, fun _ => id⟩

/-- The lanes of a test start. -/
def State.startTestLanes (s : State) (sel : Fin 32 → Bool) (pattern : Nat) : State :=
  (List.finRange 32).foldl (State.startTestLane sel pattern) s

theorem State.startTestLanes_keeps (s : State) (sel : Fin 32 → Bool) (pattern : Nat) : let u := s.startTestLanes sel pattern
    OnlyLink s u ∧ u.mbx = s.mbx ∧ u.hlk.test = s.hlk.test ∧ u.hlk.tests = s.hlk.tests :=
  have hstep (t : State) (l : Fin 32) := t.startTestLane_keeps sel pattern l
  ⟨.foldl (fun t l => (hstep t l).1) _ s, foldl_mbx _ _ s fun t l => (hstep t l).2.1,
    foldl_keep (fun t => t.hlk.test) (State.startTestLane sel pattern) (fun t l => (hstep t l).2.2.1) (List.finRange 32) s,
    foldl_keep (fun t => t.hlk.tests) (State.startTestLane sel pattern) (fun t l => (hstep t l).2.2.2.1) (List.finRange 32) s⟩

theorem State.lane_startTestLanes (s : State) (sel : Fin 32 → Bool) (pattern : Nat) (l : Fin 32) :
    let u := s.startTestLanes sel pattern
    let n := s.lane (asLane l)
    if sel l then (u.lane (asLane l)).state = .test ∧ .lanePattern (n.sendsOn (asLane l)) pattern ∈ u.wires
    else u.lane (asLane l) = n := by
  have hacts := State.actsOnLane_startTestLane sel pattern
  dsimp only
  refine foldl_achieves (Q := fun t => t.lane (asLane l) = s.lane (asLane l)) (P := fun u => if sel l then
      (u.lane (asLane l)).state = .test ∧ .lanePattern ((s.lane (asLane l)).sendsOn (asLane l)) pattern ∈ u.wires
    else u.lane (asLane l) = s.lane (asLane l)) (fun t k hk ht => ?_) (fun u k hk hu => ?_) (fun t ht => ?_)
    (List.mem_finRange l) (List.nodup_finRange 32) rfl
  · rw [hacts.other t k _ (asLane_ne hk.symm), ht]
  · rw [hacts.other u k _ (asLane_ne hk.symm)]
    by_cases hsel : sel l = true
    · rw [if_pos hsel] at hu ⊢
      exact ⟨hu.1, (u.startTestLane_keeps sel pattern k).2.2.2.2 hu.2⟩
    · rwa [if_neg hsel] at hu ⊢
  · unfold startTestLane
    split
    · refine ⟨congrArg Lane.state (t.lane_updLane_self ..), ?_⟩
      rw [ht]
      exact List.mem_cons_self
    · exact ht

/-- The lanes a test selects: of those it names, the ones that are not FAILED. -/
def State.selects (s : State) (r : TestRun) (l : Fin 32) : Bool := r.lanes.getLsbD l.val && (s.lane (asLane l)).state != .failed

theorem State.selects_iff {s : State} {r : TestRun} {l : Fin 32} :
    s.selects r l = true ↔ r.lanes.getLsbD l.val = true ∧ (s.lane (asLane l)).state ≠ .failed := by
  rw [selects, Bool.and_eq_true, bne_iff_ne]

/-- The counters a test starts with: an error injected once is counted from the start. -/
def TestRun.counters (r : TestRun) (sel : Fin 32 → Bool) : Vector LaneTest 32 :=
  Vector.ofFn (fun l : Fin 32 =>
    { LaneTest.init with
      selected := sel l, injected := if sel l && r.inject == 1 then 1 else 0
      errors := if sel l && r.inject == 1 && r.mode == 0 && r.checked then 1 else 0 })

theorem TestRun.counters_selected (r : TestRun) (sel : Fin 32 → Bool) (l : Fin 32) : ((r.counters sel)[l]).selected = sel l := by
  rw [TestRun.counters, Fin.getElem_fin, Vector.getElem_ofFn]

/-- A test with its counters set, before its lanes start. -/
def State.withTest (s : State) (r : TestRun) : State := { s with hlk := { s.hlk with test := some r, tests := r.counters (s.selects r) } }

theorem State.startTest_eq {s : State} (hnone : s.hlk.test = none) (r : TestRun) :
    s.startTest r = (s.withTest r).startTestLanes (s.selects r) r.pattern := by
  unfold startTest withTest TestRun.counters startTestLanes startTestLane selects
  rw [endTest_of_none hnone]

theorem State.startTest_spec {s : State} (hnone : s.hlk.test = none) (r : TestRun) : let u := s.startTest r
    u.hlk.test = some r ∧
    (∀ l : Fin 32, let n := s.lane (asLane l)
      if r.lanes.getLsbD l.val = true ∧ n.state ≠ .failed then
        (u.lane (asLane l)).state = .test ∧ (u.hlk.tests[l]).selected = true ∧ .lanePattern (n.sendsOn (asLane l)) r.pattern ∈ u.wires
      else u.lane (asLane l) = n) ∧ u = { s with hlk := u.hlk, wires := u.wires } := by
  obtain ⟨honly, hmbx, htest, htests⟩ := (s.withTest r).startTestLanes_keeps (s.selects r) r.pattern
  have hlane (l : Fin 32) := (s.withTest r).lane_startTestLanes (s.selects r) r.pattern l
  rw [startTest_eq hnone]
  generalize (s.withTest r).startTestLanes (s.selects r) r.pattern = u at *
  refine ⟨htest, fun l => ?_, (OnlyLink.trans (t := s.withTest r) rfl honly).keeps_mbx hmbx⟩
  have h := hlane l
  dsimp only at h ⊢
  by_cases hsel : s.selects r l = true
  · rw [if_pos hsel] at h
    rw [if_pos (selects_iff.1 hsel)]
    exact ⟨h.1, (congrArg (fun v : Vector LaneTest 32 => (v[l]).selected) htests).trans ((r.counters_selected _ l).trans hsel), h.2⟩
  · rw [if_neg hsel] at h
    rw [if_neg (mt selects_iff.2 hsel)]
    exact h

/-! ### LANE_TEST (R303) -/

/-- The payload of LANE_TEST with no periodic injection. -/
def laneTestPayload (lanes pattern mode inject dur : Nat) : List Byte :=
  le 4 lanes ++ [BitVec.ofNat 8 pattern, BitVec.ofNat 8 mode, BitVec.ofNat 8 inject, 0] ++ le 4 dur ++ [0, 0, 0, 0]

theorem laneTestPayload_fields {lanes pattern mode inject dur : Nat} (hlanes : lanes < 2 ^ 32) (hpattern : pattern ≤ 4) (hmode : mode ≤ 2)
    (hinject : inject ≤ 1) (hdur : dur ≤ 3600000) : let p := laneTestPayload lanes pattern mode inject dur
    fld p 0 4 = lanes ∧ fld p 4 1 = pattern ∧ fld p 5 1 = mode ∧ fld p 6 1 = inject ∧ fld p 7 1 = 0 ∧ fld p 8 4 = dur ∧
    zeros p 12 4 = true := by
  refine ⟨?_, fld_byte (by omega) rfl, fld_byte (by omega) rfl, fld_byte (by omega) rfl, fld_byte (by omega) rfl, ?_, rfl⟩
  all_goals simp only [laneTestPayload, List.append_assoc]
  · exact (fld_le 4 _ _).trans (Nat.mod_eq_of_lt hlanes)
  · simp (disch := simp) only [fld_append_right, length_le, List.length_cons, List.length_nil, Nat.reduceAdd, Nat.reduceSub, fld_le]
    omega

theorem exec_laneTest {q : Req} {s : State} (hq : Claims.Fresh 0x0830 q s) (hlength : q.payload.length = 16) :
    exec (.laneTest q) s = .next ((cmdLaneTest.run q (s.start q 0x0830)).deliver q 0x0830) :=
  congrArg _ (serve_of_fresh hq (beq_iff_eq.2 hlength))

theorem exec_laneTest_starts (q : Req) (s : State) (lanes : BitVec 32) (pattern mode inject dur : Nat) (hq : Claims.Fresh 0x0830 q s)
    (hunarmed : s.armed = false) (hlanes : lanes ≠ 0) (hpattern : pattern ≤ 4) (hmode : mode ≤ 2) (hinject : inject ≤ 1) (hmin : 1 ≤ dur)
    (hmax : dur ≤ 3600000) (hnone : s.hlk.test = none)
    (hp : q.payload = le 4 lanes.toNat ++ [BitVec.ofNat 8 pattern, BitVec.ofNat 8 mode, BitVec.ofNat 8 inject, 0] ++ le 4 dur ++ [0, 0, 0, 0]) :
    ∃ u : State, exec (.laneTest q) s = .next ((Claims.accepted u).deliver q 0x0830) ∧
      u.hlk.test = some { lanes := lanes, pattern := pattern, mode := mode, inject := inject, injectExp := 0, durationMs := dur, started := s.aon,
                          origin := q.origin } ∧
      (∀ l : Fin 32, let n := s.lane (asLane l)
        if lanes.getLsbD l.val = true ∧ n.state ≠ .failed then
          (u.lane (asLane l)).state = .test ∧ (u.hlk.tests[l]).selected = true ∧ .lanePattern (n.sendsOn (asLane l)) pattern ∈ u.wires
        else u.lane (asLane l) = n) ∧ u = { s.start q 0x0830 with hlk := u.hlk, wires := u.wires } := by
  let r : TestRun := { lanes := lanes, pattern := pattern, mode := mode, inject := inject, injectExp := 0, durationMs := dur, started := s.aon,
                       origin := q.origin }
  obtain ⟨hmask, hpat, hmod, hinj, hexp, hms, hzero⟩ := laneTestPayload_fields lanes.isLt hpattern hmode hinject hmax
  have hstart : (s.start q 0x0830).armed = false := hunarmed
  have hsome : lanes.toNat ≠ 0 := fun h => hlanes (BitVec.eq_of_toNat_eq h)
  refine ⟨(s.start q 0x0830).startTest r, exec_of_answer (exec_laneTest hq (by rw [hp]; rfl)) ?_,
    State.startTest_spec (s := s.start q 0x0830) hnone r⟩
  simp only [cmdLaneTest, show q.payload = laneTestPayload lanes.toNat pattern mode inject dur from hp, hmask, hpat, hmod, hinj, hexp, hms, hzero]
  rw [checks_pass (by simp [hstart]; omega), if_neg hsome, BitVec.ofNat_toNat, BitVec.setWidth_eq]
  rfl

theorem exec_laneTest_ends (q : Req) (s : State) (hq : Claims.Fresh 0x0830 q s) (hunarmed : s.armed = false)
    (hp : q.payload = List.replicate 16 0) :
    (s.hlk.test = none → exec (.laneTest q) s = .next ((Claims.ok (s.start q 0x0830)).deliver q 0x0830)) ∧
    (s.hlk.test.isSome = true → ∃ u : State, exec (.laneTest q) s = .next ((Claims.ok u).deliver q 0x0830) ∧ u.hlk.test = none ∧
      Claims.Posts s u [0x02B2]) := by
  have hstart : (s.start q 0x0830).armed = false := hunarmed
  have hrun : cmdLaneTest.run q (s.start q 0x0830) = Claims.ok ((s.start q 0x0830).endTest 1) := by
    simp only [cmdLaneTest, hp]
    rw [checks_pass (by simp [hstart]; decide)]
    rfl
  have hexec := exec_of_answer (exec_laneTest hq (by rw [hp]; rfl)) hrun
  refine ⟨fun hnone => ?_, fun hsome => ?_⟩
  · rwa [State.endTest_of_none (s := s.start q 0x0830) hnone] at hexec
  · obtain ⟨r, hr⟩ := Option.isSome_iff_exists.1 hsome
    obtain ⟨hnone, -, hposts, -⟩ := State.endTest_of_some (s := s.start q 0x0830) hr 1
    exact ⟨_, hexec, hnone, hposts⟩

/-! ### LANE_TEST_READ (R304) -/

/-- The payload LANE_TEST_READ answers for a lane. -/
def LaneTest.bytes (c : LaneTest) (running : Bool) : List Byte :=
  le 8 c.bits.toNat ++ le 8 c.errors.toNat ++ le 4 c.syncLosses.toNat ++ le 4 c.injected.toNat ++
    le 1 (maskOf [c.inSync, running]) ++ zeroBytes 7

theorem LaneTest.bytes_fields (c : LaneTest) (running : Bool) : let p := c.bytes running
    p.length = 32 ∧ fld p 0 8 = c.bits.toNat ∧ fld p 8 8 = c.errors.toNat ∧ fld p 16 4 = c.syncLosses.toNat ∧ fld p 20 4 = c.injected.toNat := by
  refine ⟨by simp [LaneTest.bytes], ?_, ?_, ?_, ?_⟩
  all_goals
    simp only [LaneTest.bytes, List.append_assoc]
    simp (disch := simp) only [fld_append_right, length_le, Nat.reduceSub, fld_le]
    exact Nat.mod_eq_of_lt (BitVec.isLt _)

theorem exec_laneTestRead_answers (q : Req) (s : State) (l : Fin 32) (hq : Claims.Fresh 0x0831 q s)
    (hp : q.payload = [BitVec.ofNat 8 l.val, 0, 0, 0, 0, 0, 0, 0]) : ∃ p : List Byte,
    exec (.laneTestRead q) s = .next ((Claims.ok (s.start q 0x0831) p).deliver q 0x0831) ∧ p.length = 32 ∧ fld p 0 8 = (s.hlk.tests[l]).bits.toNat ∧
    fld p 8 8 = (s.hlk.tests[l]).errors.toNat ∧ fld p 16 4 = (s.hlk.tests[l]).syncLosses.toNat ∧ fld p 20 4 = (s.hlk.tests[l]).injected.toNat := by
  have hrun : exec (.laneTestRead q) s = .next ((cmdLaneTestRead.run q (s.start q 0x0831)).deliver q 0x0831) :=
    congrArg _ (serve_of_fresh hq (by rw [hp]; rfl))
  have hlane : fld q.payload 0 1 = l.val := fld_byte (by omega) (by rw [hp]; rfl)
  have hzero : zeros q.payload 1 7 = true := by
    rw [hp]
    rfl
  let running := match s.hlk.test with | some r => r.lanes.getLsbD l.val | none => false
  refine ⟨(s.hlk.tests[l]).bytes running, exec_of_answer hrun ?_, (s.hlk.tests[l]).bytes_fields running⟩
  simp only [cmdLaneTestRead, hlane, hzero, Fin.ofNat_val_eq_self]
  rw [checks_pass (by simp; omega)]
  rfl

/-! ### The checker (R297, R298) -/

theorem LaneTest.bit_hunting {p : Nat} {c : LaneTest} {b : Bool} (hhunting : c.inSync = false) (hreg : c.reg.toNat % 2 ^ (prbsTaps p).1 ≠ 0)
    (hb : b = prbsNext p c.reg) : (c.bit p b).inSync = decide (c.run = 63) ∧ (c.bit p b).bits = c.bits := by
  have hnext : (b == prbsNext p c.reg && c.reg.toNat % 2 ^ (prbsTaps p).1 != 0) = true := by simp [hb, hreg]
  rw [LaneTest.bit, hhunting, if_neg Bool.false_ne_true, hnext, if_pos rfl]
  exact ⟨by simp, rfl⟩

theorem LaneTest.bit_inSync {p : Nat} {c : LaneTest} (hsync : c.inSync = true) (b : Bool) : let e := b2n (b != prbsNext p c.reg)
    (c.bit p b).bits = satAdd c.bits 1 ∧ (c.bit p b).errors = satAdd c.errors e ∧ (c.bit p b).inSync = decide (c.winErrors + e ≤ 256) ∧
    (256 < c.winErrors + e → (c.bit p b).syncLosses = satAdd c.syncLosses 1) := by
  rw [LaneTest.bit, if_pos hsync]
  dsimp only
  generalize b2n (b != prbsNext p c.reg) = e
  by_cases hlost : 256 < c.winErrors + e
  · rw [if_pos hlost]
    exact ⟨rfl, rfl, (decide_eq_false (Nat.not_le.2 hlost)).symm, fun _ => rfl⟩
  · have hkept : decide (c.winErrors + e ≤ 256) = true := decide_eq_true (Nat.not_lt.1 hlost)
    rw [if_neg hlost, hkept]
    split
    · exact ⟨rfl, rfl, hsync, fun h => absurd h hlost⟩
    · exact ⟨rfl, rfl, hsync, fun h => absurd h hlost⟩

theorem LaneTest.saw_farCheck {r : TestRun} (hmode : r.mode = 1) (c : LaneTest) (b : Bool) : c.saw r [b] = c.bit r.pattern b := by
  rw [LaneTest.saw, hmode]
  rfl

/-- Under NEAR_LOOP the lane's own bit comes back. -/
theorem LaneTest.saw_nearLoop {r : TestRun} (hmode : r.mode = 0) (c : LaneTest) (b : Bool) : ∃ gen : BitVec 31,
    c.saw r [b] = LaneTest.bit r.pattern { c with gen := gen } (prbsNext r.pattern c.gen) :=
  ⟨_, if_pos hmode⟩

theorem exec_checkerSync_takes (l : Fin 32) (b : Bool) (t : Nat) (s : State) (r : TestRun) (hr : s.hlk.test = some r) :
    let c := s.hlk.tests[l]
    ∃ u, exec (.checkerSync l [b] t) s = .next u ∧ u = { s.at t with hlk := { s.hlk with tests := upd s.hlk.tests l (fun _ => u.hlk.tests[l]) } } ∧
      (c.selected = false ∨ r.checked = false → u = s.at t) ∧
      (c.selected = true → r.checked = true → r.mode = 1 → c.inSync = false → c.reg.toNat % 2 ^ (prbsTaps r.pattern).1 ≠ 0 →
        b = prbsNext r.pattern c.reg → (u.hlk.tests[l]).inSync = decide (c.run = 63) ∧ (u.hlk.tests[l]).bits = c.bits) ∧
      (c.selected = true → r.checked = true → r.mode = 1 → c.inSync = true → let e := b2n (b != prbsNext r.pattern c.reg)
        (u.hlk.tests[l]).bits = satAdd c.bits 1 ∧ (u.hlk.tests[l]).errors = satAdd c.errors e ∧
        (u.hlk.tests[l]).inSync = decide (c.winErrors + e ≤ 256) ∧
        (256 < c.winErrors + e → (u.hlk.tests[l]).syncLosses = satAdd c.syncLosses 1)) ∧
      (c.selected = true → r.checked = true → r.mode = 0 → c.inSync = true → c.reg = c.gen →
        (u.hlk.tests[l]).bits = satAdd c.bits 1 ∧ (u.hlk.tests[l]).errors = satAdd c.errors 0) := by
  intro c
  have hrun : exec (.checkerSync l [b] t) s =
      .next (if c.selected && r.checked then (s.at t).updTest l (fun c => c.saw r [b]) else s.at t) := by
    change execCheckerSync l [b] t s = _
    unfold execCheckerSync
    simp only [State.at_hlk, hr]
    rfl
  refine ⟨_, hrun, ?_⟩
  by_cases htakes : (c.selected && r.checked) = true
  · obtain ⟨hselected, hchecked⟩ := Bool.and_eq_true_iff.1 htakes
    have htest : ((s.at t).updTest l (fun c => c.saw r [b])).hlk.tests[l] = c.saw r [b] := getElem_upd_self ..
    rw [if_pos htakes, htest]
    refine ⟨?_, fun h => ?_, fun _ _ hmode hhunting hreg hb => ?_, fun _ _ hmode hsync => ?_, fun _ _ hmode hsync hreg => ?_⟩
    · rfl
    · rcases h with h | h
      · exact absurd (h.symm.trans hselected) Bool.false_ne_true
      · exact absurd (h.symm.trans hchecked) Bool.false_ne_true
    · rw [LaneTest.saw_farCheck hmode]
      exact LaneTest.bit_hunting hhunting hreg hb
    · rw [LaneTest.saw_farCheck hmode]
      exact LaneTest.bit_inSync hsync b
    · obtain ⟨gen, hgen⟩ := LaneTest.saw_nearLoop hmode c b
      obtain ⟨hbits, herrors, -, -⟩ := LaneTest.bit_inSync (p := r.pattern) (c := { c with gen := gen }) hsync (prbsNext r.pattern c.gen)
      rw [hgen, hbits, herrors]
      simp [hreg, b2n]
  · rw [if_neg htakes]
    refine ⟨?_, fun _ => rfl, fun hs hc => ?_, fun hs hc => ?_, fun hs hc => ?_⟩
    · exact congrArg (fun v => { s.at t with hlk := { s.hlk with tests := v } }) (upd_self s.hlk.tests l (f := fun _ => s.hlk.tests[l]) rfl).symm
    all_goals exact absurd (Bool.and_eq_true_iff.2 ⟨hs, hc⟩) htakes

/-! ### ERROR_INJECTION and LANE_TEST_END (R299, R303) -/

theorem exec_errorInjection_periodic (l : Fin 32) (t : Nat) (s : State) (r : TestRun) (hr : s.hlk.test = some r)
    (hselected : (s.hlk.tests[l]).selected = true) (hinject : r.inject = 2) :
    exec (.errorInjection l t) s = .next (if ((s.hlk.tests[l]).injected.toNat + 1) * 10 ^ r.injectExp ≤ (s.at t).sentBits r then
      { s.at t with hlk := { s.hlk with tests := upd s.hlk.tests l (fun c => { c with
        injected := satAdd c.injected 1
        errors := if r.mode = 0 ∧ r.checked = true ∧ c.inSync = true then satAdd c.errors 1 else c.errors }) } }
      else s.at t) := by
  have hrun : exec (.errorInjection l t) s = .next (if
      ((s.hlk.tests[l]).selected && r.inject == 2 &&
        decide (((s.hlk.tests[l]).injected.toNat + 1) * 10 ^ r.injectExp ≤ (s.at t).sentBits r)) = true then
      (s.at t).updTest l (fun c => { c with
        injected := satAdd c.injected 1
        errors := if r.mode = 0 ∧ r.checked = true ∧ c.inSync = true then satAdd c.errors 1 else c.errors })
      else s.at t) := by
    change execErrorInjection l t s = _
    unfold execErrorInjection
    simp only [State.at_hlk, hr]
    rfl
  rw [hrun, hselected, hinject, beq_self_eq_true, Bool.true_and, Bool.true_and]
  by_cases hdue : ((s.hlk.tests[l]).injected.toNat + 1) * 10 ^ r.injectExp ≤ (s.at t).sentBits r
  · rw [if_pos hdue, if_pos (decide_eq_true hdue)]
    rfl
  · rw [if_neg hdue, if_neg (mt of_decide_eq_true hdue)]

theorem exec_laneTestEnd_acts (t : Nat) (s : State) (r : TestRun) (hr : s.hlk.test = some r) :
    (r.started + r.durationMs * 1000000 * 2 ^ 32 ≤ max s.aon t → ∃ u, exec (.laneTestEnd t) s = .next u ∧ u.hlk.test = none ∧
      (∀ l : Fin 32, let n := u.lane (asLane l)
        if (s.lane (asLane l)).state = .test then n.state = .sleep ∧ n.stored = false else n = s.lane (asLane l)) ∧ Claims.Posts s u [0x02B2] ∧
      u = { s.at t with hlk := u.hlk, mbx := u.mbx }) ∧
    (max s.aon t < r.started + r.durationMs * 1000000 * 2 ^ 32 → exec (.laneTestEnd t) s = .next (s.at t)) := by
  have hrun : exec (.laneTestEnd t) s =
      .next (if r.started + r.durationMs * 1000000 * 2 ^ 32 ≤ max s.aon t then (s.at t).endTest 0 else s.at t) := by
    change execLaneTestEnd t s = _
    unfold execLaneTestEnd
    simp only [State.at_hlk, hr, ms, ns, Nat.mul_comm 1000000]
    rfl
  rw [hrun]
  refine ⟨fun hover => ?_, fun hearly => by rw [if_neg hearly.not_ge]⟩
  obtain ⟨hnone, hlanes, hposts, heq⟩ := State.endTest_of_some (s := s.at t) hr 0
  rw [if_pos hover]
  refine ⟨_, rfl, hnone, fun l => ?_, hposts, heq⟩
  rw [hlanes]
  exact (s.at t).lane_endTestLanes l

/-! ### No test runs -/

theorem exec_laneTests_none (l : Fin 32) (bits : List Bool) (t : Nat) (s : State) (hnone : s.hlk.test = none) :
    exec (.checkerSync l bits t) s = .next (s.at t) ∧ exec (.errorInjection l t) s = .next (s.at t) ∧
    exec (.laneTestEnd t) s = .next (s.at t) := by
  refine ⟨?_, ?_, ?_⟩
  · change execCheckerSync l bits t s = _
    rw [execCheckerSync, State.at_hlk, hnone]
  · change execErrorInjection l t s = _
    rw [execErrorInjection, State.at_hlk, hnone]
  · change execLaneTestEnd t s = _
    rw [execLaneTestEnd, State.at_hlk, hnone]

/-- Settles O49: a test's start and end as folds over its lanes, and the checker bit by bit. -/
theorem laneTestsComplete : Obligations.LaneTestsComplete :=
  ⟨exec_laneTest_starts, exec_laneTest_ends, exec_laneTestRead_answers, exec_checkerSync_takes, exec_errorInjection_periodic,
    exec_laneTestEnd_acts, exec_laneTests_none⟩

end Sys2Proof.Machine
end

section
/-! PROOF. Blocks received, bring-up stages, losses and retrains of lanes (12 R284 to R287, R292, R293, R295, R305, R307): O50. When the 100 µs
of a stage begin, and HLK_LINK for no WAKE, are the model's choices (log 85). -/

namespace Sys2Proof.Machine

/-! ### What a lane's fault tells (R305; 24 R577) -/

/-- HLK_LANE and a detection touch the mailboxes and the fault supervisor's inbox alone. -/
theorem State.laneEvent_detect (s : State) (l : Fin 32) (cause : BitVec 4) (cls : Nat) (d : Detect) :
    let u := (s.laneEvent l cause cls).detect d
    Claims.Posts s u [0x02B1] ∧ Claims.Tells s u [.detect d s.aon] ∧ u.hlk = s.hlk ∧ u.aon = s.aon :=
  ⟨posts_post s 0x02B1 clsJob _, rfl, rfl, rfl⟩

/-! ### A lost lane (R292, R293; 13 R320) -/

theorem State.requeue_of_no_lines {s : State} {l : Fin 32} (h : (s.rows[rowOf l]).buffer = []) : ∃ f, s.requeue l = s.updTx l f := by
  have hrecheck : s.recheckDue l = s := State.recheckDue_of_none (by rw [h]; rfl)
  unfold requeue
  simp only [hrecheck, ite_self, h]
  exact ⟨_, rfl⟩

/-- A lost lane with no line in its row's buffer retrains; HLK_LANE and a pending fault tell of it. -/
theorem State.loseLane_spec {s : State} {l : Fin 32} (h : (s.rows[rowOf l]).buffer = []) (cause : BitVec 4) : let u := s.loseLane l cause
    (u.lane (asLane l)).state = .retrain ∧ (u.lane (asLane l)).lossMask = cause ∧ (u.lane (asLane l)).since = s.aon ∧
    Claims.Posts s u [0x02B1] ∧ Claims.Tells s u [.detect (laneDetect l .pending) s.aon] := by
  let lost (n : Lane) : Lane := { n with
    state := .retrain, stage := 3, since := s.aon, lossMask := cause, partnerReady := false
    sync := if cause &&& 5 = 0 then n.sync else BlockSync.init }
  obtain ⟨f, hf⟩ := requeue_of_no_lines (s := s.updLane (asLane l) lost) (l := l) h
  have heq : s.loseLane l cause =
      (((((s.updLane (asLane l) lost).updTx l f).laneEvent l cause clsPending).detect (laneDetect l .pending)).sendTraining (asLane l) 3) := by
    rw [← hf]
    rfl
  obtain ⟨hposts, htells, hhlk, -⟩ :=
    ((s.updLane (asLane l) lost).updTx l f).laneEvent_detect l cause clsPending (laneDetect l .pending)
  have hlane := (lane_congr (congrArg Hlk.lanes hhlk) (asLane l)).trans (s.lane_updLane_self (asLane l) lost)
  rw [heq]
  dsimp only
  rw [lane_sendTraining_self, hlane]
  exact ⟨rfl, rfl, rfl, hposts, htells⟩

/-! ### Blocks received (R286, R287; 13 R307) -/

section Receive

variable {s : State} {l : Fin 34} (hdr : BitVec 2) (b : BitVec 64)

theorem State.receive_deaf (h : s.receives (s.rxLane l) = false) : s.receive l hdr b = s :=
  if_neg (Bool.eq_false_iff.1 h)

theorem State.receive_unlocked (h : s.receives (s.rxLane l) = true) (hlock : (s.lane (s.rxLane l)).sync.locked = false) :
    s.receive l hdr b = s.updLane (s.rxLane l) (fun n => { n with sync := n.sync.header hdr }) :=
  (if_pos h).trans (if_neg (Bool.eq_false_iff.1 hlock))

theorem State.receive_locked (h : s.receives (s.rxLane l) = true) (hlock : (s.lane (s.rxLane l)).sync.locked = true) :
    s.receive l hdr b = (s.updLane (s.rxLane l) (fun n => { n with sync := n.sync.header hdr })).lockedBlock (s.rxLane l) hdr b :=
  (if_pos h).trans (if_pos hlock)

theorem State.lockedBlock_active (hactive : (s.lane l).state = .active) (hinv : (s.lane l).rxInv = false) :
    s.lockedBlock l hdr b = if hdr = hdrControl then s.controlBlock l b else s.dropBlock l := by
  have hsettled : (s.lane l).aligning = false := by
    rw [Lane.aligning, hactive]
    rfl
  simp [lockedBlock, hsettled, hactive, hinv]

/-- A block on an ACTIVE lane with block lock that is not inverted. -/
theorem State.receive_active (h : s.receives (s.rxLane l) = true) (hlock : (s.lane (s.rxLane l)).sync.locked = true)
    (hactive : (s.lane (s.rxLane l)).state = .active) (hinv : (s.lane (s.rxLane l)).rxInv = false) :
    let v := s.updLane (s.rxLane l) (fun n => { n with sync := n.sync.header hdr })
    s.receive l hdr b = if hdr = hdrControl then v.controlBlock (s.rxLane l) b else v.dropBlock (s.rxLane l) := by
  refine (receive_locked hdr b h hlock).trans (lockedBlock_active hdr b ?_ ?_)
  · rw [lane_updLane_self]
    exact hactive
  · rw [lane_updLane_self]
    exact hinv

end Receive

theorem State.controlBlock_idle (s : State) (l : Fin 34) : s.controlBlock l 0 = s := by
  rw [controlBlock, if_neg (by decide), if_pos rfl]

/-- On an ACTIVE head lane a training block is the partner's report of a loss. -/
theorem State.controlBlock_training {s : State} {k : Fin 32} {b : BitVec 64} (hb : isTraining b = true)
    (hactive : (s.lane (asLane k)).state = .active) : s.controlBlock (asLane k) b = s.loseLane k 8 := by
  have hreport : ((s.lane (asLane k)).state == LaneState.active) = true := by
    rw [hactive]
    rfl
  exact (if_pos hb).trans ((dif_pos (c := (asLane k).val < 32) k.isLt).trans (if_pos hreport))

theorem exec_laneTrainingBlock (l : Fin 34) (hdr : BitVec 2) (b : BitVec 64) (t : Nat) (s : State) :
    exec (.laneTrainingBlock l hdr b t) s = .next ((s.at t).receive l hdr b) := rfl

theorem exec_ack (k : Fin 32) (hdr : BitVec 2) (b : BitVec 64) (t : Nat) (s : State) :
    exec (.ack k hdr b t) s = .next ((s.at t).receive (asLane k) hdr b) := rfl

theorem exec_blocks_received (l : Fin 34) (k : Fin 32) (hdr : BitVec 2) (b : BitVec 64) (t : Nat) (s : State) :
    (s.receives (s.rxLane l) = false → exec (.laneTrainingBlock l hdr b t) s = .next (s.at t)) ∧
    (s.receives (s.rxLane (asLane k)) = false → exec (.ack k hdr b t) s = .next (s.at t)) ∧
    (s.receives (s.rxLane l) = true → (s.lane (s.rxLane l)).sync.locked = false →
      exec (.laneTrainingBlock l hdr b t) s = .next ((s.at t).updLane (s.rxLane l) (fun n => { n with sync := n.sync.header hdr }))) ∧
    (s.receives (s.rxLane l) = true → (s.lane (s.rxLane l)).sync.locked = true → (s.lane (s.rxLane l)).state = .active →
      (s.lane (s.rxLane l)).rxInv = false →
      (hdr ≠ hdrControl → exec (.laneTrainingBlock l hdr b t) s = .next ((s.at t).updLane (s.rxLane l) (fun n =>
        { n with sync := n.sync.header hdr, dropped := satAdd n.dropped 1 }))) ∧
      (exec (.laneTrainingBlock l hdrControl 0 t) s = .next ((s.at t).updLane (s.rxLane l) (fun n => { n with sync := n.sync.header hdrControl }))) ∧
      (isTraining b = true → s.rxLane l = asLane k → (s.rows[rowOf k]).buffer = [] →
        ∃ u, exec (.laneTrainingBlock l hdrControl b t) s = .next u ∧ (u.lane (asLane k)).state = .retrain ∧ (u.lane (asLane k)).lossMask = 8 ∧
          Claims.Posts s u [0x02B1])) := by
  simp only [exec_laneTrainingBlock, exec_ack]
  refine ⟨fun hdeaf => ?_, fun hdeaf => ?_, fun hears hlock => ?_, fun hears hlock hactive hinv => ?_⟩
  · exact congrArg _ (State.receive_deaf (s := s.at t) hdr b hdeaf)
  · exact congrArg _ (State.receive_deaf (s := s.at t) hdr b hdeaf)
  · exact congrArg _ (State.receive_unlocked (s := s.at t) hdr b hears hlock)
  · have hreceive (h : BitVec 2) (x : BitVec 64) := State.receive_active (s := s.at t) h x hears hlock hactive hinv
    refine ⟨fun hdata => ?_, ?_, fun hb hk hbuffer => ⟨_, rfl, ?_⟩⟩
    · rw [hreceive, if_neg hdata]
      exact congrArg _ (State.updLane_updLane ..)
    · rw [hreceive, if_pos rfl, State.controlBlock_idle]
      rfl
    · have hk' : (s.at t).rxLane l = asLane k := hk
      have hlane : (s.lane (asLane k)).state = .active := hk ▸ hactive
      rw [hreceive, if_pos rfl, hk', State.controlBlock_training hb (by rw [State.lane_updLane_self]; exact hlane)]
      obtain ⟨hstate, hmask, -, hposts, -⟩ := State.loseLane_spec
        (s := (s.at t).updLane (asLane k) (fun n => { n with sync := n.sync.header hdrControl })) (l := k) hbuffer 8
      exact ⟨hstate, hmask, hposts⟩

/-! ### Bring-up stages (R284, R285, R295) -/

section Advance

variable {n : Lane} {cfg : LaneCfg} {aligned lost : Bool} {x : LaneSeen} {now : Nat}

theorem Lane.advance_pll (h : n.state = .pll) : n.advance cfg aligned lost x now = { n with state := .signal, since := now } := by
  simp only [Lane.advance, h]

theorem Lane.advance_signal (h : n.state = .signal) (hsteady : n.steady now = true) :
    n.advance cfg aligned lost x now = { n with state := .lock, since := now, sync := BlockSync.init } := by
  simp only [Lane.advance, h, hsteady, if_true]

theorem Lane.advance_lock (h : n.state = .lock) (hlock : n.sync.locked = true) :
    n.advance cfg aligned lost x now = { n with state := .align, since := now, agree := 0, echo := none } := by
  simp only [Lane.advance, h, hlock, if_true]

theorem Lane.advance_align (h : n.state = .align) (haligned : aligned = true) :
    n.advance cfg aligned lost x now = { n with state := if n.waking then .ready else .equalise, since := now } := by
  simp only [Lane.advance, h, haligned, if_true]

theorem Lane.advance_equalise (h : n.state = .equalise) (hown : n.eqDone = false) (hpartner : n.partnerEqDone = true) (htime : n.since + ms 8 ≤ now) :
    (n.advance cfg aligned lost x now).state = .ready ∧ (n.advance cfg aligned lost x now).since = now := by
  have htried : (n.eqDone || decide (now < n.since + ms 8)) = false := by simp [hown, htime]
  simp [Lane.advance, h, Lane.equalised, htried, hpartner]

theorem Lane.advance_ready (h : n.state = .ready) (hwaking : n.waking = true) (hbad : x.blocks < 10000 * x.badBlocks) :
    n.advance cfg aligned lost x now =
      { n with state := .equalise, since := now, waking := false, eqDone := false, stored := false } := by
  simp [Lane.advance, h, hwaking, hbad]

end Advance

/-- What leaves the lane ids, the echoes and the runs of agreeing blocks alone leaves ALIGN's condition as it is. -/
theorem State.alignOk_updLane {s : State} {l : Fin 34} {f : Lane → Lane} (hagree : (f (s.lane l)).agree = (s.lane l).agree)
    (hid : (f (s.lane l)).partnerId = (s.lane l).partnerId) (hecho : (f (s.lane l)).echo = (s.lane l).echo) (c : Fin 4) :
    (s.updLane l f).alignOk c = s.alignOk c := by
  have hagree' (k : Fin 34) : ((s.updLane l f).lane k).agree = (s.lane k).agree := getElem_upd_keep hagree k
  have hid' (k : Fin 34) : ((s.updLane l f).lane k).partnerId = (s.lane k).partnerId := getElem_upd_keep hid k
  have hecho' (k : Fin 34) : ((s.updLane l f).lane k).echo = (s.lane k).echo := getElem_upd_keep hecho k
  simp only [alignOk, Lane.alignedTo, seenIds, echoOf, hagree', hid', hecho']

/-- What a lane becomes by a report of its receiver. -/
def State.advanced (s : State) (l : Fin 32) (x : LaneSeen) (now : Nat) : Lane :=
  ((s.lane (asLane l)).saw x now).advance (s.hlk.conns[connOf l]).inForce (s.alignOk (connOf l)) ((s.lane (asLane l)).sync.loses x.headers) x now

theorem State.stageDone_eq {s : State} {l : Fin 32} (hentering : (s.hlk.conns[connOf l]).entering = false)
    (htraining : (s.lane (asLane l)).training = true) (x : LaneSeen) :
    let v := s.updLane (asLane l) (fun _ => s.advanced l x s.aon)
    s.stageDone (asLane l) x = (v.sendTraining (asLane l) (v.lane (asLane l)).announced).linkCheck (connOf l) := by
  let saw (n : Lane) : Lane := n.saw x s.aon
  have halign : (s.updLane (asLane l) saw).alignOk (connOf l) = s.alignOk (connOf l) := alignOk_updLane rfl rfl rfl _
  let advance (n : Lane) : Lane := n.advance (s.hlk.conns[connOf l]).inForce ((s.updLane (asLane l) saw).alignOk (connOf l))
    ((s.lane (asLane l)).sync.loses x.headers) x s.aon
  have hadvanced : advance (saw (s.lane (asLane l))) = s.advanced l x s.aon := by
    simp only [advance, halign]
    rfl
  have hboth : (s.updLane (asLane l) saw).updLane (asLane l) advance = s.updLane (asLane l) (fun _ => s.advanced l x s.aon) :=
    (updLane_updLane ..).trans (updLane_congr hadvanced)
  have hgo : ¬ ((s.hlk.conns[connOf l]).entering || !(s.lane (asLane l)).training) = true := by
    rw [hentering, htraining]
    decide
  dsimp only
  rw [← hboth]
  exact (dif_pos l.isLt).trans (if_neg hgo)

/-- A lane of the head link that is being brought up goes to its next stage, while its connector is not READY as a whole. -/
theorem exec_laneStageDone_goes {l : Fin 32} {x : LaneSeen} {t : Nat} {s : State} {st : LaneState}
    (hentering : (s.hlk.conns[connOf l]).entering = false) (htraining : (s.lane (asLane l)).training = true)
    (hstate : (s.advanced l x (max s.aon t)).state = st) (hsince : (s.advanced l x (max s.aon t)).since = max s.aon t)
    (hdown : (s.advanced l x (max s.aon t)).up = false ∨ ∃ k, connOf k = connOf l ∧ k ≠ l ∧ (s.lane (asLane k)).up = false) :
    ∃ u, exec (.laneStageDone (asLane l) x t) s = .next u ∧ (u.lane (asLane l)).state = st ∧ (u.lane (asLane l)).since = max s.aon t ∧
      (∀ k, k ≠ asLane l → u.lane k = s.lane k) ∧ u = { s.at t with hlk := u.hlk, wires := u.wires } := by
  let v := (s.at t).updLane (asLane l) (fun _ => s.advanced l x (max s.aon t))
  let w := v.sendTraining (asLane l) (v.lane (asLane l)).announced
  have hself : w.lane (asLane l) = { s.advanced l x (max s.aon t) with txSeq := (s.advanced l x (max s.aon t)).txSeq + 1 } := by
    rw [State.lane_sendTraining_self, State.lane_updLane_self]
  have hother (k : Fin 34) (hk : k ≠ asLane l) : w.lane k = s.lane k :=
    (v.lane_sendTraining_ne hk _).trans ((s.at t).lane_updLane_ne hk _)
  have hcheck : w.linkCheck (connOf l) = w := by
    rcases hdown with hl | ⟨k, hconn, hk, hup⟩
    · exact State.linkCheck_of_lane_down (by rw [hself]; exact hl)
    · exact hconn ▸ State.linkCheck_of_lane_down (by rw [hother _ (asLane_ne hk)]; exact hup)
  have hlive : ¬ ((s.lane (asLane l)).state == .off || (s.lane (asLane l)).state == .active || (s.lane (asLane l)).state == .test) = true := by
    unfold Lane.training at htraining
    generalize (s.lane (asLane l)).state = q at *
    revert htraining
    cases q <;> decide
  have hrun : exec (.laneStageDone (asLane l) x t) s = .next w :=
    congrArg Host.Outcome.next ((if_neg hlive).trans ((State.stageDone_eq (s := s.at t) hentering htraining x).trans hcheck))
  refine ⟨w, hrun, ?_, ?_, hother, rfl⟩
  · rw [hself]
    exact hstate
  · rw [hself]
    exact hsince

theorem exec_laneStageDone_stages (l : Fin 32) (x : LaneSeen) (t : Nat) (s : State) (hentering : (s.hlk.conns[connOf l]).entering = false) :
    let n := s.lane (asLane l)
    let goes (st : LaneState) : Prop := ∃ u, exec (.laneStageDone (asLane l) x t) s = .next u ∧ (u.lane (asLane l)).state = st ∧
      (u.lane (asLane l)).since = max s.aon t ∧ (∀ k, k ≠ asLane l → u.lane k = s.lane k) ∧ u = { s.at t with hlk := u.hlk, wires := u.wires }
    (n.state = .pll → goes .signal) ∧
    (∀ t0, n.state = .signal → x.signal = true → n.signalAt = some t0 → max t0 n.since + 100000 * 2 ^ 32 ≤ max s.aon t → goes .lock) ∧
    (n.state = .lock → (x.headers.foldl BlockSync.header n.sync).locked = true → goes .align) ∧
    (n.state = .align → s.alignOk (connOf l) = true → goes (if n.waking then .ready else .equalise)) ∧
    (∀ k, n.state = .equalise → n.eqDone = false → n.partnerEqDone = true → n.since + 8000000 * 2 ^ 32 ≤ max s.aon t → connOf k = connOf l → k ≠ l →
      (s.lane (asLane k)).up = false → goes .ready) ∧
    (n.state = .ready → n.waking = true → x.blocks < 10000 * x.badBlocks → goes .equalise) := by
  intro n goes
  let now := max s.aon t
  have htraining {st : LaneState} (h : n.state = st) (hst : st ∈ [LaneState.pll, .signal, .lock, .align, .equalise, .ready]) :
      n.training = true := by
    rw [Lane.training, h]
    revert hst
    cases st <;> decide
  have step {m : Lane} (hm : s.advanced l x now = m) (hstage : n.training = true) (hsince : m.since = now) (hdown : m.up = false) :
      goes m.state := by
    subst hm
    exact exec_laneStageDone_goes hentering hstage rfl hsince (.inl hdown)
  refine ⟨fun h => ?_, fun t0 h hsignal hat htime => ?_, fun h hlock => ?_, fun h haligned => ?_, fun k h hown hpartner htime hconn hk hup => ?_,
    fun h hwaking hbad => ?_⟩
  · exact step (Lane.advance_pll (n := n.saw x now) h) (htraining h (by decide)) rfl rfl
  · have hsteady : (n.saw x now).steady now = true := by
      simp only [Lane.steady, Lane.saw, hsignal, if_true, hat, Option.getD_some]
      exact decide_eq_true htime
    exact step (Lane.advance_signal (n := n.saw x now) h hsteady) (htraining h (by decide)) rfl rfl
  · exact step (Lane.advance_lock (n := n.saw x now) h hlock) (htraining h (by decide)) rfl rfl
  · refine step (Lane.advance_align (n := n.saw x now) h haligned) (htraining h (by decide)) rfl ?_
    -- A lane that wakes is READY, but not up before its first 100 µs are judged.
    cases hwaking : n.waking with
    | false => simp [Lane.up, Lane.saw, hwaking]
    | true => simp [Lane.up, Lane.saw, hwaking]
  · obtain ⟨hready, hsince⟩ := Lane.advance_equalise (n := n.saw x now) (cfg := (s.hlk.conns[connOf l]).inForce) (aligned := s.alignOk (connOf l))
      (lost := n.sync.loses x.headers) (x := x) h hown hpartner htime
    exact exec_laneStageDone_goes hentering (htraining h (by decide)) hready hsince (.inr ⟨k, hconn, hk, hup⟩)
  · exact step (Lane.advance_ready (n := n.saw x now) h hwaking hbad) (htraining h (by decide)) rfl rfl

/-! ### The limit of a stage (R284, R285) -/

theorem State.overLimit_first {s : State} {l : Fin 32} (hfirst : (s.lane (asLane l)).restarted = false) : let u := s.overLimit (asLane l)
    (u.lane (asLane l)).state = .pll ∧ (u.lane (asLane l)).restarted = true ∧
    Claims.Tells s u [.detect (laneDetect l .pending) s.aon] := by
  have heq : s.overLimit (asLane l) = (s.updLane (asLane l) (fun n =>
      { n.begin_ (s.hlk.conns[connOf l]).inForce s.aon with restarted := true, waking := false, eqDone := false })).detect (laneDetect l .pending) :=
    (dif_pos l.isLt).trans (if_neg (Bool.eq_false_iff.1 hfirst))
  have hkept (u : State) (d : Detect) (k : Fin 34) : (u.detect d).lane k = u.lane k := rfl
  rw [heq]
  dsimp only
  rw [hkept, lane_updLane_self]
  exact ⟨rfl, rfl, rfl⟩

theorem State.overLimit_again {s : State} {l : Fin 32} (hagain : (s.lane (asLane l)).restarted = true) (hwakes : s.hlk.wakes = []) :
    let u := s.overLimit (asLane l)
    (u.lane (asLane l)).state = .failed ∧ Claims.Posts s u [0x02B0] ∧ Claims.Tells s u [.detect (laneDetect l .detected) s.aon] := by
  let v := (s.updLane (asLane l) (fun n => { n with state := .failed })).detect (laneDetect l .detected)
  have heq : s.overLimit (asLane l) = v.linkPost (connOf l) .lastingFault 10 (s.lane (asLane l)).state.stage linkLimit := by
    rw [← linkDone_of_no_wakes (s := v) hwakes (lanes := 0)]
    exact (dif_pos l.isLt).trans (if_pos hagain)
  have hlane : v.lane (asLane l) = { s.lane (asLane l) with state := .failed } := s.lane_updLane_self ..
  rw [heq]
  exact ⟨congrArg Lane.state hlane, v.linkPost_posts .., rfl⟩

theorem exec_stageLimit_acts (l : Fin 32) (d t : Nat) (s : State) (hlimit : stageLimit_ (s.lane (asLane l)).state = some d)
    (hlate : (s.lane (asLane l)).since + d < max s.aon t) (hentering : (s.hlk.conns[connOf l]).entering = false) (hwakes : s.hlk.wakes = []) :
    ∃ u x, exec (.stageLimit (asLane l) t) s = .next u ∧
      Claims.Tells s u [.detect x (max s.aon t)] ∧ if (s.lane (asLane l)).restarted then
        (u.lane (asLane l)).state = .failed ∧ Claims.Posts s u [0x02B0] ∧ x.outcome = .detected
      else (u.lane (asLane l)).state = .pll ∧ (u.lane (asLane l)).restarted = true ∧ x.outcome = .pending := by
  have hrun : exec (.stageLimit (asLane l) t) s = .next ((s.at t).overLimit (asLane l)) := by
    have hthere : stageLimit_ ((s.at t).lane (asLane l)).state = some d := hlimit
    have hended : (if h : (asLane l).val < 32 then ((s.at t).hlk.conns[connOf ⟨(asLane l).val, h⟩]).entering else false) = false :=
      (dif_pos l.isLt).trans hentering
    change execStageLimit (asLane l) t s = _
    unfold execStageLimit
    simp only [hthere, hended]
    exact congrArg _ (if_pos ⟨hlate, trivial⟩)
  cases hagain : (s.lane (asLane l)).restarted with
  | false =>
    obtain ⟨hstate, hrestarted, htells⟩ := State.overLimit_first (s := s.at t) hagain
    exact ⟨_, _, hrun, htells, hstate, hrestarted, rfl⟩
  | true =>
    obtain ⟨hstate, hposts, htells⟩ := State.overLimit_again (s := s.at t) hagain hwakes
    exact ⟨_, _, hrun, htells, hstate, hposts, rfl⟩

/-! ### Loss of an ACTIVE lane (R292) -/

theorem exec_laneLoss_acts (l : Fin 32) (cause : BitVec 4) (hs : List (BitVec 2)) (t : Nat) (s : State)
    (hactive : (s.lane (asLane l)).state = .active) :
    ((s.hlk.conns[connOf l]).entering = true → exec (.laneLoss l cause hs t) s = .next (s.at t)) ∧
    (let all := (cause &&& 5) ||| (if (s.lane (asLane l)).sync.loses hs then 2 else 0);
      (s.hlk.conns[connOf l]).entering = false → all ≠ 0 → (s.rows[rowOf l]).buffer = [] →
      ∃ u x, exec (.laneLoss l cause hs t) s = .next u ∧ (u.lane (asLane l)).state = .retrain ∧ (u.lane (asLane l)).lossMask = all ∧
        (u.lane (asLane l)).since = max s.aon t ∧ Claims.Posts s u [0x02B1] ∧ Claims.Tells s u [.detect x (max s.aon t)] ∧ x.outcome = .pending) := by
  refine ⟨fun hentering => congrArg _ (if_neg fun h => ?_), ?_⟩
  · have hnot := (Bool.and_eq_true_iff.1 h).2
    rw [State.at_hlk, hentering] at hnot
    exact Bool.false_ne_true hnot
  · intro all hentering hall hbuffer
    let v := (s.at t).updLane (asLane l) (fun n => { n with
      sync := hs.foldl BlockSync.header n.sync, signalAt := if cause.getLsbD 0 then none else n.signalAt })
    have hgo : ((s.lane (asLane l)).state == .active && !(s.hlk.conns[connOf l]).entering) = true := by
      rw [hactive, hentering]
      rfl
    have hrun : exec (.laneLoss l cause hs t) s = .next (v.loseLane l all) :=
      congrArg Host.Outcome.next ((if_pos hgo).trans (if_neg hall))
    obtain ⟨hstate, hmask, hsince, hposts, htells⟩ := State.loseLane_spec (s := v) (l := l) hbuffer all
    exact ⟨_, _, hrun, hstate, hmask, hsince, hposts, htells, rfl⟩

/-! ### Retrains (R293) -/

theorem State.identify_of_known {s : State} {c : Fin 4} (h : (s.hlk.conns[c]).ident.isSome = true) : s.identify c = s := by
  have hknown : (s.hlk.conns[c]).ident.isNone = false := by rw [Option.isNone_eq_false_iff, h]
  rw [identify, hknown]
  rfl

theorem State.activate_of_partner_not_ready {s : State} {l : Fin 32} (h : (s.lane (asLane l)).partnerReady = false) : s.activate l = s := by
  rw [activate, h, Bool.and_false, Bool.false_and]
  rfl

theorem State.lane_activate_ne (s : State) {k l : Fin 32} (h : k ≠ l) : (s.activate l).lane (asLane k) = s.lane (asLane k) := by
  unfold activate
  split
  · exact s.lane_updLane_ne (asLane_ne h) _
  · rfl

/-- A connector of which all has been told: of a lane whose partner is not ready, and of the events, nothing changes. -/
theorem State.linkCheck_of_told {s : State} {l : Fin 32} (hwakes : s.hlk.wakes = []) (htold : (s.hlk.conns[connOf l]).toldReady = true)
    (hident : (s.hlk.conns[connOf l]).ident.isSome = true) (hpartner : (s.lane (asLane l)).partnerReady = false) :
    let u := s.linkCheck (connOf l)
    u.lane (asLane l) = s.lane (asLane l) ∧ u.mbx = s.mbx ∧ u.fsv = s.fsv := by
  let told := s.updConn (connOf l) (fun n => { n with toldReady := true })
  have heq : s.linkCheck (connOf l) = if s.connUp (connOf l) then (connLanes (connOf l)).foldl State.activate told else s := by
    simp only [linkCheck, identify_of_known hident, htold, if_true, wakeDone_of_no_wakes hwakes]
    rfl
  dsimp only
  rw [heq]
  split
  · refine ⟨?_, ?_, ?_⟩
    · refine foldl_achieves (a := l) (Q := fun t => t.lane (asLane l) = s.lane (asLane l)) (P := fun t => t.lane (asLane l) = s.lane (asLane l))
        (fun t k hk ht => ?_) (fun t k hk ht => ?_) (fun t ht => ?_) (mem_connLanes.2 rfl) (nodup_connLanes _) rfl
      · rw [lane_activate_ne _ hk.symm, ht]
      · rw [lane_activate_ne _ hk.symm, ht]
      · rw [activate_of_partner_not_ready (by rw [ht]; exact hpartner), ht]
    · exact foldl_mbx State.activate _ told fun t k => by simp
    · exact foldl_fsv State.activate _ told fun t k => by simp
  · exact ⟨rfl, rfl, rfl⟩

theorem State.retrainOk_spec {s : State} {l : Fin 32} (hwakes : s.hlk.wakes = []) (htold : (s.hlk.conns[connOf l]).toldReady = true)
    (hident : (s.hlk.conns[connOf l]).ident.isSome = true) (hpartner : (s.lane (asLane l)).partnerReady = false) : let u := s.retrainOk l
    (u.lane (asLane l)).state = .ready ∧ Claims.Posts s u [0x02B1] ∧
    (u.lane (asLane l)).transients = satAdd (s.lane (asLane l)).transients 1 ∧
    Claims.Tells s u [.detect (laneDetect l .transient) s.aon] := by
  let v := s.updLane (asLane l) (fun n => { n with state := .ready, since := s.aon, transients := satAdd n.transients 1 })
  let w := (v.laneEvent l (s.lane (asLane l)).lossMask clsTransient).detect (laneDetect l .transient)
  obtain ⟨hposts, htells, hhlk, -⟩ := v.laneEvent_detect l (s.lane (asLane l)).lossMask clsTransient (laneDetect l .transient)
  have hlane : (w.sendTraining (asLane l) 6).lane (asLane l) = { s.lane (asLane l) with
      state := .ready, since := s.aon, transients := satAdd (s.lane (asLane l)).transients 1, txSeq := (s.lane (asLane l)).txSeq + 1 } := by
    rw [lane_sendTraining_self, lane_congr (congrArg Hlk.lanes hhlk), lane_updLane_self]
  obtain ⟨hkept, hmbx, hfsv⟩ := linkCheck_of_told (s := w.sendTraining (asLane l) 6) (l := l) hwakes htold hident (by rw [hlane]; exact hpartner)
  have heq : s.retrainOk l = (w.sendTraining (asLane l) 6).linkCheck (connOf l) := rfl
  rw [heq]
  dsimp only
  rw [hkept, hlane, Claims.Posts, hmbx, Claims.Tells, hfsv]
  exact ⟨rfl, hposts, rfl, htells⟩

theorem State.retrainLost_spec {s : State} {l : Fin 32} (hwakes : s.hlk.wakes = []) : let u := s.retrainLost l
    ∃ x, (u.lane (asLane l)).state = .failed ∧ Claims.Posts s u [0x02B1, 0x02B0] ∧ Claims.Tells s u [.detect x s.aon] ∧
      x.outcome = .detected ∧ x.stops = true := by
  let x := laneDetect l .detected true (s.firstUnacked l)
  let v := s.updLane (asLane l) (fun n => { n with state := .failed })
  let w := (v.laneEvent l (s.lane (asLane l)).lossMask clsLasting).detect x
  obtain ⟨hposts, htells, hhlk, -⟩ := v.laneEvent_detect l (s.lane (asLane l)).lossMask clsLasting x
  have hlane : w.lane (asLane l) = { s.lane (asLane l) with state := .failed } := s.lane_updLane_self ..
  have heq : s.retrainLost l = w.linkPost (connOf l) .lastingFault 10 (s.lane (asLane l)).stage linkRetrain :=
    linkDone_of_no_wakes (s := w) hwakes ..
  rw [heq]
  exact ⟨x, congrArg Lane.state hlane, posts_trans (t := w) hposts (w.linkPost_posts ..), htells, rfl, rfl⟩

theorem exec_retrainDone_acts (l : Fin 32) (t : Nat) (s : State) (hretrain : (s.lane (asLane l)).state = .retrain)
    (hentering : (s.hlk.conns[connOf l]).entering = false) (hwakes : s.hlk.wakes = []) :
    (max s.aon t ≤ (s.lane (asLane l)).since + 40000 * 2 ^ 32 → (s.lane (asLane l)).stage = 4 → s.alignOk (connOf l) = true →
      (s.lane (asLane l)).partnerReady = false → (s.hlk.conns[connOf l]).toldReady = true → (s.hlk.conns[connOf l]).ident.isSome = true →
      ∃ u x, exec (.retrainDone l t) s = .next u ∧ (u.lane (asLane l)).state = .ready ∧ Claims.Posts s u [0x02B1] ∧
        (u.lane (asLane l)).transients = satAdd (s.lane (asLane l)).transients 1 ∧ Claims.Tells s u [.detect x (max s.aon t)] ∧ x.outcome = .transient) ∧
    ((s.lane (asLane l)).since + 40000 * 2 ^ 32 < max s.aon t → ∃ u x, exec (.retrainDone l t) s = .next u ∧ (u.lane (asLane l)).state = .failed ∧
      Claims.Posts s u [0x02B1, 0x02B0] ∧ Claims.Tells s u [.detect x (max s.aon t)] ∧ x.outcome = .detected ∧ x.stops = true) := by
  have hgo : ((s.lane (asLane l)).state == .retrain && !(s.hlk.conns[connOf l]).entering) = true := by
    rw [hretrain, hentering]
    rfl
  refine ⟨fun htime hstage haligned hpartner htold hident => ?_, fun hlate => ?_⟩
  · have hok : ((s.lane (asLane l)).stage == 4 && s.alignOk (connOf l)) = true := by
      rw [hstage, haligned]
      rfl
    have hrun : exec (.retrainDone l t) s = .next ((s.at t).retrainOk l) :=
      congrArg Host.Outcome.next ((if_pos hgo).trans ((if_neg (Nat.not_lt.2 htime)).trans (if_pos hok)))
    obtain ⟨hstate, hposts, htransients, htells⟩ := State.retrainOk_spec (s := s.at t) (l := l) hwakes htold hident hpartner
    exact ⟨_, _, hrun, hstate, hposts, htransients, htells, rfl⟩
  · have hrun : exec (.retrainDone l t) s = .next ((s.at t).retrainLost l) :=
      congrArg Host.Outcome.next ((if_pos hgo).trans (if_pos hlate))
    obtain ⟨x, hlost⟩ := State.retrainLost_spec (s := s.at t) (l := l) hwakes
    exact ⟨_, x, hrun, hlost⟩

/-- Settles O50: what a block does by the state of its lane, one lemma for every step of a bring-up (`exec_laneStageDone_goes`), and what a
loss, a limit and the end of a retrain tell. -/
theorem lanesComplete : Obligations.LanesComplete :=
  ⟨exec_blocks_received, exec_laneStageDone_stages, exec_stageLimit_acts, exec_laneLoss_acts, exec_retrainDone_acts⟩

end Sys2Proof.Machine
end

section
/-! PROOF. The head management channel's answers, timeouts and polls, and the commit timer (13 R321, R322, R324; 14 R346): O47. What is done with
characters and messages that match no request is the model's choice (log 89). -/

namespace Sys2Proof.Machine

/-! ### One connector of the state -/

theorem State.updConn_self {s : State} {c : Fin 4} {f : Connector → Connector} (h : f (s.hlk.conns[c]) = s.hlk.conns[c]) :
    s.updConn c f = s := by
  rw [updConn, upd_self _ _ h]

theorem State.updConn_congr {s : State} {c : Fin 4} {f g : Connector → Connector} (h : f (s.hlk.conns[c]) = g (s.hlk.conns[c])) :
    s.updConn c f = s.updConn c g := by
  rw [updConn, upd_congr h, updConn]

theorem State.updConn_updConn (s : State) (c : Fin 4) (f g : Connector → Connector) :
    (s.updConn c f).updConn c g = s.updConn c (fun n => g (f n)) := by
  simp only [updConn, upd_upd]

/-! ### A message on the wire (R321) -/

/-- A string that begins as a message and is as long as its `len` says. -/
structure HmcFramed (msg : List Byte) : Prop where
  sync : msg.getD 0 0 = 0xC5
  bound : (msg.getD 1 0).toNat ≤ 240
  whole : msg.length = fld msg 1 1 + 8

section Message

variable (ty m : Byte) {p : List Byte} (hp : p.length ≤ 240)
include hp

theorem fld_hmcMsg_len : fld (hmcMsg ty m p) 1 1 = p.length := by
  rw [fld_one]
  exact toNat_ofNat_byte (by omega)

theorem hmcFramed_hmcMsg : HmcFramed (hmcMsg ty m p) where
  sync := rfl
  bound := by
    rw [← fld_one, fld_hmcMsg_len ty m hp]
    exact hp
  whole := by
    rw [fld_hmcMsg_len ty m hp]
    simp [hmcMsg]

omit hp in
theorem payload_hmcMsg : ((hmcMsg ty m p).drop 4).take p.length = p := by
  simp [hmcMsg]

omit hp in
theorem crc_hmcMsg : fld (hmcMsg ty m p) (p.length + 4) 4 = (crc32c 0 (((hmcMsg ty m p).drop 1).take (p.length + 3))).toNat := by
  let body : List Byte := [BitVec.ofNat 8 p.length, ty, m] ++ p
  have hmsg : hmcMsg ty m p = (0xC5 :: body) ++ le 4 (crc32c 0 body).toNat := rfl
  have hlength : (0xC5 :: body).length = p.length + 4 := by simp [body]
  have hbody : ((hmcMsg ty m p).drop 1).take (p.length + 3) = body := by
    rw [hmsg, List.cons_append, List.drop_one, List.tail_cons]
    exact List.take_left' (by simp [body])
  have hcrc := fld_append (0xC5 :: body) (le 4 (crc32c 0 body).toNat) 0 4
  rw [hbody, hmsg, ← hlength]
  exact hcrc.trans ((fld_le_end ..).trans (Nat.mod_eq_of_lt (crc32c 0 body).isLt))

/-- The answer to a request of its type, length and sequence number is valid (R322). -/
theorem validAnswer_hmcMsg {q : HmcReq} (hty : ty = q.mtype ||| 0x80) (hlength : answerLength q.mtype p.length = true) :
    validAnswer q m (hmcMsg ty m p) = some (p, true) := by
  have hlen := fld_hmcMsg_len ty m hp
  have hwhole := (hmcFramed_hmcMsg ty m hp).whole
  rw [hlen] at hwhole
  unfold validAnswer
  dsimp only
  rw [hlen, payload_hmcMsg]
  exact if_pos ⟨⟨hwhole, hp, rfl, rfl, crc_hmcMsg ty m⟩, hty, hlength⟩

omit hp in
/-- A message of another sequence number answers no request. -/
theorem validAnswer_other_seq (q : HmcReq) {mseq : Byte} (hm : m ≠ mseq) : validAnswer q mseq (hmcMsg ty m p) = none := by
  have hseq : (hmcMsg ty m p).getD 3 0 ≠ mseq := hm
  unfold validAnswer
  dsimp only
  rw [if_neg fun ⟨⟨_, _, _, heq, _⟩, _⟩ => hseq heq, if_neg fun ⟨⟨_, _, _, heq, _⟩, _⟩ => hseq heq]

end Message

/-! ### The receiver (R321) -/

theorem hmcReceive_skips {x : Byte × Bool} (hx : x.1 ≠ 0xC5) : hmcReceive [] x = ([], none) := by
  unfold hmcReceive
  rw [ite_self]
  exact if_pos (.inl hx)

section Receiver

variable {msg pre : List Byte} {x : Byte} (hframed : HmcFramed msg)
include hframed

/-- A string that the receiver holds of a framed message is no reason to hunt. -/
theorem HmcFramed.held {suf : List Byte} (hmsg : pre ++ [x] ++ suf = msg) :
    ¬ ((pre ++ [x]).getD 0 0 ≠ 0xC5 ∨ ((pre ++ [x]).length = 2 ∧ 240 < x.toNat)) := by
  have hkept (k : Nat) (hk : k < (pre ++ [x]).length) : (pre ++ [x]).getD k 0 = msg.getD k 0 := by
    rw [← hmsg, List.getD_append _ _ _ _ hk]
  rintro (hsync | ⟨htwo, hbound⟩)
  · exact hsync ((hkept 0 (by simp)).trans hframed.sync)
  · have hlast : (pre ++ [x]).getD 1 0 = x := by
      obtain ⟨y, rfl⟩ := List.length_eq_one_iff.1 (show pre.length = 1 by simpa using htwo)
      rfl
    have hlen := hframed.bound
    rw [← hkept 1 (by omega), hlast] at hlen
    omega

theorem HmcFramed.receive_last (hmsg : pre ++ [x] = msg) : hmcReceive pre (x, false) = ([], some msg) := by
  have hlong : 2 ≤ msg.length := by rw [hframed.whole]; omega
  unfold hmcReceive
  dsimp only
  rw [if_neg Bool.false_ne_true, if_neg (hframed.held (suf := []) (by rw [List.append_nil, hmsg])), hmsg, if_pos ⟨hlong, hframed.whole⟩]

theorem HmcFramed.receive_inside {y : Byte} {suf : List Byte} (hmsg : pre ++ [x] ++ y :: suf = msg) :
    hmcReceive pre (x, false) = (pre ++ [x], none) := by
  have hopen : ¬ (2 ≤ (pre ++ [x]).length ∧ (pre ++ [x]).length = fld (pre ++ [x]) 1 1 + 8) := by
    rintro ⟨htwo, hwhole⟩
    have hlength := hframed.whole
    rw [← hmsg, fld_append_left _ _ htwo, ← hwhole, List.length_append] at hlength
    simp at hlength
  unfold hmcReceive
  dsimp only
  rw [if_neg Bool.false_ne_true, if_neg (hframed.held hmsg), if_neg hopen]

end Receiver

/-! ### Characters and messages (R321, R322) -/

theorem State.hmcMessage_idle {s : State} {c : Fin 4} (h : (s.hlk.conns[c]).hmcWait = none ∨ (s.hlk.conns[c]).hmcQueue = []) (msg : List Byte) :
    s.hmcMessage c msg = s := by
  unfold hmcMessage
  dsimp only
  split
  next mseq sent tries q rest hwait hqueue =>
    exact absurd h (not_or.2 ⟨fun hnone => Option.some_ne_none _ (hwait.symm.trans hnone), fun hnil => List.cons_ne_nil _ _ (hqueue.symm.trans hnil)⟩)
  next => rfl

section Answer

variable {s : State} {c : Fin 4} {mseq : Byte} {sent : Nat} {q : HmcReq} {rest : List HmcReq} {msg : List Byte}
  (hwait : (s.hlk.conns[c]).hmcWait = some (mseq, sent, 1)) (hqueue : (s.hlk.conns[c]).hmcQueue = q :: rest)
include hwait hqueue

theorem State.hmcMessage_discarded (hinvalid : validAnswer q mseq msg = none) : s.hmcMessage c msg = s := by
  simp only [hmcMessage, hwait, hqueue, hinvalid]

theorem State.hmcMessage_answered {p : List Byte} (hvalid : validAnswer q mseq msg = some (p, true)) :
    s.hmcMessage c msg = ((s.hmcEnd c).hmcMeaning c q p).hmcPump c := by
  simp only [hmcMessage, hwait, hqueue, hvalid, if_true, Nat.lt_irrefl, if_false]

end Answer

/-- The rest of a framed message ends it. -/
theorem State.hmcChars_rest {msg : List Byte} (hframed : HmcFramed msg) {s : State} {c : Fin 4} (hrx : (s.hlk.conns[c]).rx = []) (x : Byte)
    (suf pre : List Byte) (hmsg : pre ++ x :: suf = msg) :
    ((x :: suf).map (·, false)).foldl (State.hmcChar c) (s.updConn c (fun n => { n with rx := pre })) = s.hmcMessage c msg := by
  have hheld (r : List Byte) : ((s.updConn c (fun n => { n with rx := r })).hlk.conns[c]).rx = r := by rw [updConn_value, getElem_upd_self]
  induction suf generalizing x pre with
  | nil =>
    have hagain : (s.updConn c (fun n => { n with rx := pre })).updConn c (fun n => { n with rx := [] }) = s := by
      rw [updConn_updConn]
      exact updConn_self (by rw [← hrx])
    rw [List.map_cons, List.foldl_cons, hmcChar, hheld, hframed.receive_last hmsg]
    simp only [hagain, List.map_nil, List.foldl_nil]
  | cons y suf ih =>
    rw [List.append_cons] at hmsg
    rw [List.map_cons, List.foldl_cons, hmcChar, hheld, hframed.receive_inside hmsg]
    dsimp only
    rw [updConn_updConn]
    exact ih y (pre ++ [x]) hmsg

/-- A framed message that an idle receiver takes without gaps. -/
theorem State.hmcChars_message {msg : List Byte} (hframed : HmcFramed msg) {s : State} {c : Fin 4} (hrx : (s.hlk.conns[c]).rx = []) :
    (msg.map (·, false)).foldl (State.hmcChar c) s = s.hmcMessage c msg := by
  cases msg with
  | nil => exact absurd hframed.sync (by decide)
  | cons x suf =>
    have hidle : s.updConn c (fun n => { n with rx := [] }) = s := updConn_self (by rw [← hrx])
    have hrest := State.hmcChars_rest hframed hrx x suf [] rfl
    rwa [hidle] at hrest

/-- With no request unanswered, characters are only received. -/
theorem State.hmcChars_idle (chars : List (Byte × Bool)) {s : State} {c : Fin 4}
    (h : (s.hlk.conns[c]).hmcWait = none ∨ (s.hlk.conns[c]).hmcQueue = []) :
    ∃ rx, chars.foldl (State.hmcChar c) s = s.updConn c (fun n => { n with rx := rx }) := by
  induction chars generalizing s with
  | nil => exact ⟨_, (updConn_self rfl).symm⟩
  | cons x chars ih =>
    let r := hmcReceive (s.hlk.conns[c]).rx x
    let u := s.updConn c (fun n => { n with rx := r.1 })
    have hidle : (u.hlk.conns[c]).hmcWait = none ∨ (u.hlk.conns[c]).hmcQueue = [] := by
      rwa [updConn_value, getElem_upd_self]
    have hchar : s.hmcChar c x = u := by
      unfold hmcChar
      dsimp only
      split
      next => exact hmcMessage_idle hidle _
      next => rfl
    obtain ⟨rx, hrx⟩ := ih hidle
    exact ⟨rx, by rw [List.foldl_cons, hchar, hrx, updConn_updConn]⟩

/-- An idle receiver skips what is no `sync`. -/
theorem State.hmcChars_skipped {chars : List (Byte × Bool)} (hchars : ∀ x ∈ chars, x.1 ≠ 0xC5) {s : State} {c : Fin 4}
    (hrx : (s.hlk.conns[c]).rx = []) : chars.foldl (State.hmcChar c) s = s := by
  induction chars with
  | nil => rfl
  | cons x chars ih =>
    have hchar : s.hmcChar c x = s := by
      rw [hmcChar, hrx, hmcReceive_skips (hchars x List.mem_cons_self)]
      exact updConn_self (by rw [← hrx])
    rw [List.foldl_cons, hchar, ih fun y hy => hchars y (List.mem_cons_of_mem _ hy)]

/-! ### The next request (R322) -/

/-- A message is put on the wire, unless the channel is silent (21 R523). -/
theorem State.hmcSend_hlk (s : State) (c : Fin 4) (msg : List Byte) : (s.hmcSend c msg).hlk = s.hlk := by
  unfold hmcSend
  split <;> rfl

theorem State.hmcPump_empty {s : State} {c : Fin 4} (h : (s.hlk.conns[c]).hmcQueue = []) : s.hmcPump c = s := by
  unfold hmcPump
  dsimp only
  rw [h]
  split
  next hcons => exact absurd hcons.symm (List.cons_ne_nil _ _)
  next => rfl

/-- The next request is sent, or nothing is. -/
theorem State.hmcPump_cases (s : State) (c : Fin 4) :
    s.hmcPump c = s ∨ ∃ msg wait, s.hmcPump c = (s.hmcSend c msg).updConn c (fun n => { n with hmcWait := wait }) := by
  unfold hmcPump
  dsimp only
  split
  next q rest hwait hqueue =>
    split
    next => exact .inl rfl
    next => exact .inr ⟨hmcMsg q.mtype (s.hlk.conns[c]).mseq q.payload, some ((s.hlk.conns[c]).mseq, s.aon, 1),
      State.updConn_congr (by rw [State.hmcSend_hlk])⟩
  next => exact .inl rfl

theorem State.hmcPump_only (s : State) (c : Fin 4) : s.hmcPump c = { s with hlk := (s.hmcPump c).hlk, wires := (s.hmcPump c).wires } := by
  rcases s.hmcPump_cases c with h | ⟨msg, wait, h⟩
  · rw [h]
  · rw [h, hmcSend]
    split <;> rfl

/-- Of a connector nothing changes but what it waits for. -/
theorem State.hmcPump_conns (s : State) (c k : Fin 4) : ∃ wait, (s.hmcPump c).hlk.conns[k] = { s.hlk.conns[k] with hmcWait := wait } := by
  rcases s.hmcPump_cases c with h | ⟨msg, wait, h⟩
  · exact ⟨_, congrArg (fun u : State => u.hlk.conns[k]) h⟩
  · rw [h, updConn_value, hmcSend_hlk]
    by_cases hk : k = c
    · exact ⟨wait, by rw [hk, getElem_upd_self]⟩
    · exact ⟨_, getElem_upd_ne _ hk _⟩

theorem State.hmcAsk_only (s : State) (c : Fin 4) (q : HmcReq) :
    s.hmcAsk c q = { s with hlk := (s.hmcAsk c q).hlk, wires := (s.hmcAsk c q).wires } := hmcPump_only _ c

/-- A request joins the queue of its connector. -/
theorem State.hmcAsk_conn (s : State) (c : Fin 4) (q : HmcReq) : ∃ wait,
    (s.hmcAsk c q).hlk.conns[c] = { s.hlk.conns[c] with hmcQueue := (s.hlk.conns[c]).hmcQueue ++ [q], hmcWait := wait } := by
  obtain ⟨wait, hwait⟩ := (s.updConn c (fun n => { n with hmcQueue := n.hmcQueue ++ [q] })).hmcPump_conns c c
  exact ⟨wait, by rw [hmcAsk, hwait, updConn_value, getElem_upd_self]⟩

/-- A request makes no channel lasting faulty, and ends no lasting fault. -/
theorem State.hmcAsk_lasting (s : State) (c : Fin 4) (q : HmcReq) (k : Fin 4) :
    ((s.hmcAsk c q).hlk.conns[k]).hmcLasting = (s.hlk.conns[k]).hmcLasting := by
  obtain ⟨wait, hwait⟩ := (s.updConn c (fun n => { n with hmcQueue := n.hmcQueue ++ [q] })).hmcPump_conns c k
  rw [hmcAsk, hwait]
  exact getElem_upd_keep (g := Connector.hmcLasting) rfl k

/-! ### Characters from a head driver (R321, R322) -/

theorem exec_hmcAnswer (c : Fin 4) (chars : List (Byte × Bool)) (t : Nat) (s : State) :
    exec (.hmcAnswer c chars t) s = .next (chars.foldl (State.hmcChar c) (s.at t)) := rfl

theorem exec_hmcAnswer_unasked (c : Fin 4) (chars : List (Byte × Bool)) (t : Nat) (s : State) :
    ((s.hlk.conns[c]).hmcWait = none ∨ (s.hlk.conns[c]).hmcQueue = [] →
      ∃ u, exec (.hmcAnswer c chars t) s = .next u ∧ u.hlk.conns[c] = { s.hlk.conns[c] with rx := (u.hlk.conns[c]).rx } ∧ u = { s.at t with hlk := u.hlk }) ∧
    ((∀ x ∈ chars, x.1 ≠ 0xC5) → (s.hlk.conns[c]).rx = [] → exec (.hmcAnswer c chars t) s = .next (s.at t)) := by
  refine ⟨fun hidle => ?_, fun hchars hrx => congrArg _ (State.hmcChars_skipped (s := s.at t) hchars hrx)⟩
  obtain ⟨rx, hrx⟩ := State.hmcChars_idle (s := s.at t) chars hidle
  rw [exec_hmcAnswer, hrx]
  refine ⟨_, rfl, ?_, rfl⟩
  rw [State.updConn_value, getElem_upd_self]
  rfl

/-- The end of a request that was the only one. -/
theorem State.hmcEnd_conn {s : State} {c : Fin 4} {q : HmcReq} (hqueue : (s.hlk.conns[c]).hmcQueue = [q]) :
    (s.hmcEnd c).hlk.conns[c] = { s.hlk.conns[c] with hmcQueue := [], hmcWait := none, mseq := (s.hlk.conns[c]).mseq + 1 } := by
  rw [hmcEnd, updConn_value, getElem_upd_self, hqueue]
  rfl

/-- A tunnelled answer goes to the mailbox that asked for it, if one did (R326). -/
theorem State.hmcMeaning_tunnel (s : State) (c : Fin 4) {q : HmcReq} (hq : q.mtype = 0x30) (p : List Byte) :
    s.hmcMeaning c q p = { s with mbx := (s.hmcMeaning c q p).mbx } := by
  have hmeaning : s.hmcMeaning c q p = match q.origin with
      | some o => s.resolve o .ok (if 232 < p.length then p.length else 0) (p.take 232)
      | none => s := by
    unfold hmcMeaning
    rw [hq]
    rfl
  rw [hmeaning]
  cases q.origin with
  | none => rfl
  | some o => exact resolve_eq ..

/-- A STATUS without faults (R324). -/
theorem State.hmcMeaning_status (s : State) (c : Fin 4) {q : HmcReq} (hq : q.mtype = 0x03) {p : List Byte} (hp : fld p 0 4 % 16 = 0) :
    s.hmcMeaning c q p = s.updConn c (fun n => { n with faultBits := 0, crcErrors := BitVec.ofNat 32 (fld p 4 4) }) := by
  have hmeaning : s.hmcMeaning c q p = s.statusAnswer c p := by
    unfold hmcMeaning
    rw [hq]
    rfl
  rw [hmeaning, statusAnswer, hp]
  exact if_pos rfl

section FirstAnswer

variable {c : Fin 4} {p : List Byte} {s : State} {mseq : Byte} {sent : Nat} {q : HmcReq} (hp : p.length ≤ 240)
  (hwait : (s.hlk.conns[c]).hmcWait = some (mseq, sent, 1)) (hrx : (s.hlk.conns[c]).rx = [])
include hp hwait hrx

theorem exec_hmcAnswer_other_seq {rest : List HmcReq} (hqueue : (s.hlk.conns[c]).hmcQueue = q :: rest) (t : Nat) (ty : Byte) {m : Byte}
    (hm : m ≠ mseq) : exec (.hmcAnswer c ((hmcMsg ty m p).map (·, false)) t) s = .next (s.at t) := by
  have hmessage := State.hmcChars_message (hframed := hmcFramed_hmcMsg ty m hp) (s := s.at t) hrx
  rw [exec_hmcAnswer, hmessage, State.hmcMessage_discarded (s := s.at t) hwait hqueue (validAnswer_other_seq ty m q hm)]

/-- A whole answer to the request that was sent once. -/
theorem exec_hmcAnswer_valid {rest : List HmcReq} (hqueue : (s.hlk.conns[c]).hmcQueue = q :: rest) (hlength : answerLength q.mtype p.length = true)
    (t : Nat) : exec (.hmcAnswer c ((hmcMsg (q.mtype ||| 0x80) mseq p).map (·, false)) t) s =
      .next ((((s.at t).hmcEnd c).hmcMeaning c q p).hmcPump c) := by
  have hmessage := State.hmcChars_message (hframed := hmcFramed_hmcMsg (q.mtype ||| 0x80) mseq hp) (s := s.at t) hrx
  rw [exec_hmcAnswer, hmessage,
    State.hmcMessage_answered (s := s.at t) hwait hqueue (validAnswer_hmcMsg (q.mtype ||| 0x80) mseq hp rfl hlength)]

theorem exec_hmcAnswer_tunnel (hqueue : (s.hlk.conns[c]).hmcQueue = [q]) (hq : q.mtype = 0x30) (t : Nat) :
    ∃ u, exec (.hmcAnswer c ((hmcMsg 0xB0 mseq p).map (·, false)) t) s = .next u ∧ (u.hlk.conns[c]).hmcQueue = [] ∧
      (u.hlk.conns[c]).hmcWait = none ∧ (u.hlk.conns[c]).mseq = (s.hlk.conns[c]).mseq + 1 ∧ u = { s.at t with hlk := u.hlk, mbx := u.mbx } := by
  have hrun := exec_hmcAnswer_valid hp hwait hrx hqueue (by rw [hq]; rfl) t
  rw [hq] at hrun
  let w := ((s.at t).hmcEnd c).hmcMeaning c q p
  have honly : w = { (s.at t).hmcEnd c with mbx := w.mbx } := State.hmcMeaning_tunnel _ c hq p
  have hconn : w.hlk.conns[c] = { s.hlk.conns[c] with hmcQueue := [], hmcWait := none, mseq := (s.hlk.conns[c]).mseq + 1 } :=
    (congrArg (fun u : State => u.hlk.conns[c]) honly).trans (State.hmcEnd_conn (s := s.at t) hqueue)
  have hpump : w.hmcPump c = w := State.hmcPump_empty (by rw [hconn])
  have hhlk := congrArg (fun u : State => u.hlk) honly
  exact ⟨w, hrun.trans (congrArg _ hpump), congrArg Connector.hmcQueue hconn, congrArg Connector.hmcWait hconn, congrArg Connector.mseq hconn,
    honly.trans (congrArg (fun v => { s.at t with hlk := v, mbx := w.mbx }) hhlk.symm)⟩

theorem exec_hmcAnswer_status (hqueue : (s.hlk.conns[c]).hmcQueue = [q]) (hq : q.mtype = 0x03) (hlength : p.length = 12)
    (hfaults : fld p 0 4 % 16 = 0) (t : Nat) :
    ∃ u, exec (.hmcAnswer c ((hmcMsg 0x83 mseq p).map (·, false)) t) s = .next u ∧ (u.hlk.conns[c]).hmcWait = none ∧
      (u.hlk.conns[c]).faultBits = 0 ∧ (u.hlk.conns[c]).crcErrors = BitVec.ofNat 32 (fld p 4 4) ∧ u = { s.at t with hlk := u.hlk } := by
  have hrun := exec_hmcAnswer_valid hp hwait hrx hqueue (by rw [hq, hlength]; rfl) t
  rw [hq, State.hmcMeaning_status _ c hq hfaults] at hrun
  let w := ((s.at t).hmcEnd c).updConn c (fun n => { n with faultBits := 0, crcErrors := BitVec.ofNat 32 (fld p 4 4) })
  have hconn : w.hlk.conns[c] = { s.hlk.conns[c] with
      hmcQueue := [], hmcWait := none, mseq := (s.hlk.conns[c]).mseq + 1, faultBits := 0, crcErrors := BitVec.ofNat 32 (fld p 4 4) } := by
    rw [State.updConn_value, getElem_upd_self, State.hmcEnd_conn (s := s.at t) hqueue]
    rfl
  have hpump : w.hmcPump c = w := State.hmcPump_empty (by rw [hconn])
  exact ⟨w, hrun.trans (congrArg _ hpump), congrArg Connector.hmcWait hconn, congrArg Connector.faultBits hconn,
    congrArg Connector.crcErrors hconn, rfl⟩

end FirstAnswer

/-! ### No answer (R322) -/

/-- A request that no mailbox and no commit waits for is dropped without a trace. -/
theorem State.hmcDrops_unasked (l : List HmcReq) (hl : ∀ x ∈ l, x.origin = none ∧ x.mtype ≠ 0x41 ∧ x.mtype ≠ 0x42) (s : State) (c : Fin 4) :
    l.foldl (fun s q => s.hmcDrop c q) s = s := by
  induction l with
  | nil => rfl
  | cons x l ih =>
    obtain ⟨horigin, hread, hcommit⟩ := hl x List.mem_cons_self
    have hdrop : s.hmcDrop c x = s := by
      simp only [hmcDrop, horigin, hread, hcommit, or_self, false_and, if_false]
    rw [List.foldl_cons, hdrop, ih fun y hy => hl y (List.mem_cons_of_mem _ hy)]

section Missed

variable {c : Fin 4} {s : State} {mseq : Byte} {sent tries : Nat} {q : HmcReq} {rest : List HmcReq}
  (hqueue : (s.hlk.conns[c]).hmcQueue = q :: rest)
include hqueue

theorem exec_hmcTimeout_due {t : Nat} (hwait : (s.hlk.conns[c]).hmcWait = some (mseq, sent, tries))
    (hdue : sent + 5000000 * 2 ^ 32 ≤ max s.aon t) :
    exec (.hmcTimeout c t) s = .next ((s.at t).hmcMiss c mseq tries q) := by
  have hwait' : ((s.at t).hlk.conns[c]).hmcWait = some (mseq, sent, tries) := hwait
  have hqueue' : ((s.at t).hlk.conns[c]).hmcQueue = q :: rest := hqueue
  change execHmcTimeout c t s = _
  unfold execHmcTimeout
  simp only [hwait', hqueue']
  exact congrArg _ (if_pos hdue)

theorem State.hmcMiss_first (hgate : (s.clk.domains[(12 : Fin 13)]).gated = false) : let u := s.hmcMiss c mseq 1 q
    (u.hlk.conns[c]).hmcWait = some (mseq, s.aon, 2) ∧ (u.hlk.conns[c]).hmcQueue = q :: rest ∧
    u.wires = .hmc c (hmcMsg q.mtype mseq q.payload) :: s.wires ∧ Claims.Posts s u [0x02B5] ∧
    Claims.Tells s u [.detect (hmcDetect c .pending) s.aon] := by
  have hagain : s.hmcMiss c mseq 1 q = (((s.hmcEvent c 0 clsPending).detect (hmcDetect c .pending)).emit
      (.hmc c (hmcMsg q.mtype mseq q.payload))).updConn c (fun n => { n with hmcWait := some (mseq, s.aon, 2) }) :=
    (if_pos (by decide)).trans (congrArg (fun u => State.updConn u c _) (if_neg (Bool.eq_false_iff.1 hgate)))
  rw [hagain]
  refine ⟨?_, ?_, rfl, posts_post s 0x02B5 clsJob _, rfl⟩
  · rw [State.updConn_value, getElem_upd_self]
  · rw [State.updConn_value, getElem_upd_self]
    exact hqueue

theorem State.hmcMiss_second (hunasked : ∀ x ∈ q :: rest, x.origin = none ∧ x.mtype ≠ 0x41 ∧ x.mtype ≠ 0x42) :
    let u := s.hmcMiss c mseq 2 q
    (u.hlk.conns[c]).hmcLasting = true ∧ (u.hlk.conns[c]).hmcQueue = [] ∧ (u.hlk.conns[c]).hmcWait = none ∧ Claims.Posts s u [0x02B5] ∧
    Claims.Tells s u [.detect (hmcDetect c .reported) s.aon] := by
  let lost := s.updConn c (fun n => { n with hmcLasting := true, hmcWait := none, hmcQueue := [], mseq := n.mseq + 1 })
  have hlost : s.hmcMiss c mseq 2 q = (lost.hmcEvent c 0 clsLasting).detect (hmcDetect c .reported) := by
    refine (if_neg (by decide)).trans ?_
    dsimp only
    rw [hqueue, State.hmcDrops_unasked _ hunasked]
  have hconn : lost.hlk.conns[c] = { s.hlk.conns[c] with
      hmcLasting := true, hmcWait := none, hmcQueue := [], mseq := (s.hlk.conns[c]).mseq + 1 } := getElem_upd_self ..
  rw [hlost]
  exact ⟨congrArg Connector.hmcLasting hconn, congrArg Connector.hmcQueue hconn, congrArg Connector.hmcWait hconn,
    posts_post lost 0x02B5 clsJob _, rfl⟩

end Missed

/-! ### STATUS (R324) -/

theorem exec_hmcStatusPoll_asks (c : Fin 4) (l : Fin 32) (t : Nat) (s : State) (hl : connOf l = c) (hactive : (s.lane (asLane l)).state = .active)
    (hdue : (s.hlk.conns[c]).statusAt + 10000000 * 2 ^ 32 ≤ max s.aon t) (hlasting : (s.hlk.conns[c]).hmcLasting = false)
    (hnone : ∀ x ∈ (s.hlk.conns[c]).hmcQueue, x.mtype ≠ 0x03) :
    ∃ u, exec (.hmcStatusPoll c t) s = .next u ∧ (u.hlk.conns[c]).statusAt = max s.aon t ∧
      (u.hlk.conns[c]).hmcQueue = (s.hlk.conns[c]).hmcQueue ++ [{ mtype := 0x03, payload := [], origin := none }] ∧
      u = { s.at t with hlk := u.hlk, wires := u.wires } := by
  have hany : (connLanes c).any (fun k => ((s.at t).lane (asLane k)).state == .active) = true :=
    List.any_eq_true.2 ⟨l, mem_connLanes.2 hl, beq_iff_eq.2 hactive⟩
  have hunasked : ((s.at t).hlk.conns[c]).hmcQueue.any (fun q => q.mtype == 0x03) = false :=
    List.any_eq_false.2 fun x hx heq => hnone x hx (eq_of_beq heq)
  have hopen : ((s.at t).hlk.conns[c]).hmcLasting = false := hlasting
  have hnow : ((s.at t).hlk.conns[c]).statusAt + ms 10 ≤ (s.at t).aon := hdue
  let asked := (s.at t).updConn c (fun n => { n with statusAt := (s.at t).aon })
  have hrun : exec (.hmcStatusPoll c t) s = .next (asked.hmcAsk c { mtype := 0x03, payload := [], origin := none }) :=
    congrArg _ (if_pos (by rw [hany, hunasked, hopen, decide_eq_true hnow]; rfl))
  have hconn : asked.hlk.conns[c] = { s.hlk.conns[c] with statusAt := max s.aon t } := getElem_upd_self ..
  obtain ⟨wait, hwait⟩ := asked.hmcAsk_conn c { mtype := 0x03, payload := [], origin := none }
  rw [hconn] at hwait
  exact ⟨_, hrun, congrArg Connector.statusAt hwait, congrArg Connector.hmcQueue hwait, asked.hmcAsk_only c _⟩

/-! ### The commit timer (14 R346) -/

/-- Commits have been begun, on channels none of which is lasting faulty. -/
structure CommitsBegun (s u : State) : Prop where
  lastCommit : u.hac.lastCommit = s.hac.lastCommit
  job : u.job = s.job
  mem : u.mem = s.mem
  lasting : ∀ c : Fin 4, (u.hlk.conns[c]).hmcLasting = (s.hlk.conns[c]).hmcLasting
  kept : ∀ h : Fin 64, (s.hac.heads[h]).commit.isSome = true → (u.hac.heads[h]).commit.isSome = true

theorem CommitsBegun.refl (s : State) : CommitsBegun s s := ⟨rfl, rfl, rfl, fun _ => rfl, fun _ h => h⟩

theorem CommitsBegun.trans {s t u : State} (h₁ : CommitsBegun s t) (h₂ : CommitsBegun t u) : CommitsBegun s u :=
  ⟨h₂.lastCommit.trans h₁.lastCommit, h₂.job.trans h₁.job, h₂.mem.trans h₁.mem, fun c => (h₂.lasting c).trans (h₁.lasting c),
    fun k hk => h₂.kept k (h₁.kept k hk)⟩

theorem State.commitsBegun_updHead (s : State) (h : Fin 64) {f : Head → Head}
    (hf : (s.hac.heads[h]).commit.isSome = true → (f (s.hac.heads[h])).commit.isSome = true) : CommitsBegun s (s.updHead h f) := by
  refine ⟨rfl, rfl, rfl, fun _ => rfl, fun k hk => ?_⟩
  rw [updHead_value]
  by_cases heq : k = h
  · subst heq
    rw [getElem_upd_self]
    exact hf hk
  · rwa [getElem_upd_ne _ heq]

theorem State.commitsBegun_sendCommit (s : State) (h : Fin 64) : CommitsBegun s (s.sendCommit h) :=
  ⟨by simp [sendCommit], by simp [sendCommit], by simp [sendCommit], s.hmcAsk_lasting _ _, fun k hk => by simpa [sendCommit] using hk⟩

/-- A commit is started, or joins the one under way. -/
theorem State.startCommit_begins {s : State} (h : Fin 64) (o : Option Origin) (hopen : (s.hlk.conns[headConn h]).hmcLasting = false) :
    CommitsBegun s (s.startCommit h o) ∧ ((s.startCommit h o).hac.heads[h]).commit.isSome = true := by
  let joined := s.updHead h (fun x => { x with commitFor := x.commitFor ++ o.toList })
  have hjoined : CommitsBegun s joined := s.commitsBegun_updHead h id
  by_cases hunder : (s.hac.heads[h]).commit.isSome = true
  · have hstart : s.startCommit h o = joined := if_pos hunder
    rw [hstart]
    exact ⟨hjoined, hjoined.kept h hunder⟩
  · let begun := joined.updHead h (fun x => { x with
      commit := some (x.pendLines, x.pendDrops), commitRetried := false })
    have hstart : s.startCommit h o = begun.sendCommit h := (if_neg hunder).trans (if_neg (Bool.eq_false_iff.1 hopen))
    have hbegun : CommitsBegun joined begun := joined.commitsBegun_updHead h fun _ => rfl
    have hsent := begun.commitsBegun_sendCommit h
    rw [hstart]
    refine ⟨hjoined.trans (hbegun.trans hsent), hsent.kept h ?_⟩
    rw [updHead_value, getElem_upd_self]
    rfl

theorem State.startCommits_begin (l : List (Fin 64)) {s : State} (hopen : ∀ c : Fin 4, (s.hlk.conns[c]).hmcLasting = false) :
    let u := l.foldl (fun s h => s.startCommit h none) s
    CommitsBegun s u ∧ ∀ h ∈ l, (u.hac.heads[h]).commit.isSome = true := by
  induction l generalizing s with
  | nil => exact ⟨.refl s, fun _ hmem => absurd hmem List.not_mem_nil⟩
  | cons h l ih =>
    obtain ⟨hfirst, hbegun⟩ := s.startCommit_begins h none (hopen _)
    obtain ⟨hothers, hall⟩ := ih fun c => (hfirst.lasting c).trans (hopen c)
    refine ⟨hfirst.trans hothers, fun k hk => ?_⟩
    rcases List.mem_cons.1 hk with rfl | hmem
    · exact hothers.kept _ hbegun
    · exact hall k hmem

theorem exec_usageCommit_due (t : Nat) (s : State) (hdue : s.hac.lastCommit + s.hac.intervalS * 1000000000 * 2 ^ 32 ≤ max s.aon t)
    (hopen : ∀ c : Fin 4, (s.hlk.conns[c]).hmcLasting = false) :
    ∃ u, exec (.usageCommit t) s = .next u ∧ u.hac.lastCommit = max s.aon t ∧
      (∀ h ∈ s.commitHeads (fun _ => true), (u.hac.heads[h]).commit.isSome = true) ∧ u.job = s.job ∧ u.mem = s.mem := by
  let noted : State := { s.at t with hac := { s.hac with lastCommit := max s.aon t } }
  have hnow : s.hac.lastCommit + sec s.hac.intervalS ≤ (s.at t).aon := by
    rwa [sec, ns, Nat.mul_comm 1000000000]
  have hrun : exec (.usageCommit t) s = .next noted.commitAll := congrArg _ (if_pos hnow)
  obtain ⟨hbegun, hall⟩ := State.startCommits_begin (s := noted) (noted.commitHeads fun _ => true) hopen
  exact ⟨_, hrun, hbegun.lastCommit, hall, hbegun.job, hbegun.mem⟩

theorem exec_usageCommit_early (t : Nat) (s : State) (hearly : max s.aon t < s.hac.lastCommit + s.hac.intervalS * 1000000000 * 2 ^ 32) :
    exec (.usageCommit t) s = .next (s.at t) := by
  have hnow : ¬ s.hac.lastCommit + sec s.hac.intervalS ≤ (s.at t).aon := by
    rw [sec, ns, Nat.mul_comm 1000000000]
    exact hearly.not_ge
  exact congrArg _ (if_neg hnow)

/-- Settles O47: characters by what the receiver makes of them, a missed answer by its tries, and the timers by their times. What is done
with characters and messages that match no request is the model's choice (log 89). -/
theorem headChannelEventsComplete : Obligations.HeadChannelEventsComplete := by
  refine ⟨exec_hmcAnswer_unasked, fun c p t s mseq sent q rest hp hwait hqueue hrx => ⟨fun ty m hm => ?_, fun hq hrest => ?_,
    fun hq hrest hlength hfaults => ?_⟩, fun c t s mseq sent q rest hqueue hdue => ⟨fun hwait hgate => ?_, fun hwait hunasked => ?_⟩,
    exec_hmcStatusPoll_asks, exec_usageCommit_due, exec_usageCommit_early⟩
  · exact exec_hmcAnswer_other_seq hp hwait hrx hqueue t ty hm
  · subst hrest
    exact exec_hmcAnswer_tunnel hp hwait hrx hqueue hq t
  · subst hrest
    exact exec_hmcAnswer_status hp hwait hrx hqueue hq hlength hfaults t
  · obtain ⟨hagain, hkept, hsent, hposts, htells⟩ := State.hmcMiss_first (s := s.at t) hqueue (mseq := mseq) hgate
    exact ⟨_, _, exec_hmcTimeout_due hqueue hwait hdue, hagain, hkept, hsent, hposts, htells, rfl⟩
  · obtain ⟨hlasting, hempty, hended, hposts, htells⟩ := State.hmcMiss_second (s := s.at t) hqueue (mseq := mseq) hunasked
    exact ⟨_, _, exec_hmcTimeout_due hqueue hwait hdue, hlasting, hempty, hended, hposts, htells, rfl⟩

end Sys2Proof.Machine
end

section
/-! PROOF. A head driver's answers to frames and FLUSHes, and frames that draw none (13 R307, R313, R314, R316, R319, R327): O52. -/

namespace Sys2Proof.Machine

/-! ### The faults of a frame (R314, R327) -/

/-- A lasting frame fault of a line has been told, and its half-row waits for no resend. -/
def State.frameLastingTold (s : State) (l : Fin 32) (n cause : Nat) : State :=
  ((s.frameEvent l n cause clsLasting).detect (lineDetect fcFrame l n false .detected)).updHalf l n (fun x => { x with frameCause := none })

theorem State.frameLasting_eq (s : State) (l : Fin 32) (n cause : Nat) :
    s.frameLasting l n cause = ((s.frameLastingTold l n cause).withholdSent (rowOf l) n 2 0x03).pourCount l n := rfl

theorem State.frameLasting_posts (s : State) (l : Fin 32) (n cause : Nat) : Claims.Posts s (s.frameLasting l n cause) [0x02B4] := by
  obtain ⟨hmbx, _⟩ := (s.frameLastingTold l n cause).withholdSent_kept (rowOf l) n 2 0x03
  rw [frameLasting_eq, Claims.Posts, pourCount, tellFsv_mbx, hmbx]
  exact posts_post s 0x02B4 clsJob _

theorem State.frameLasting_withholds {s : State} {l : Fin 32} {n : Nat} (hnew : (s.rows[rowOf l]).isWithheld n = false) (cause : Nat) :
    let u := s.frameLasting l n cause
    (u.rows[rowOf l]).isWithheld n = true ∧ .withhold n 2 ∈ (u.hlk.tx[l]).control :=
  withholdSent_new (s := s.frameLastingTold l n cause)
    ((getElem_upd_keep (g := fun y : SpcRow => y.isWithheld n) rfl (rowOf l)).trans hnew) 2 0x03

section Fault

variable {s : State} {l : Fin 32} {n : Nat} {b : BufLine} (hline : (s.rows[rowOf l]).line? n = some b) (cause : Nat)
include hline

/-- The first fault of a frame in time: it is told as pending, and one resend is queued. -/
theorem State.frameFault_first (hfirst : (b.half l).frameCause = none) (hintime : s.deadlinePast (rowOf l) n = false) :
    let u := s.frameFault l n cause
    n ∈ (u.hlk.tx[l]).resends ∧ Claims.Posts s u [0x02B4] ∧ Claims.Tells s u [.detect (lineDetect fcFrame l n false .pending) s.aon] := by
  let told := ((s.frameEvent l n cause clsPending).detect (lineDetect fcFrame l n false .pending)).updHalf l n
    (fun x => { x with frameCause := some cause })
  have hqueued : s.frameFault l n cause = told.queueResend l n := by
    have hthere : told.deadlinePast (rowOf l) n = false := hintime
    simp only [frameFault, hline, hfirst, Option.isSome_none, Bool.false_eq_true, if_false]
    exact if_neg (Bool.eq_false_iff.1 hthere)
  rw [hqueued]
  exact ⟨mem_resends_queueResend .., posts_post s 0x02B4 clsJob _, rfl⟩

/-- The fault of a frame that was sent again. -/
theorem State.frameFault_second (hsecond : (b.half l).frameCause.isSome = true) : s.frameFault l n cause = s.frameLasting l n cause := by
  simp only [frameFault, hline, hsecond, if_true]

end Fault

/-! ### ACK blocks (R307, R313, R316, R319) -/

/-- A block that is received as an ACK: its type, and its `chk` holds. -/
def isAck (b : BitVec 64) : Bool := (blockBytes b).getD 0 0 == 0xF1 && chkOk b

theorem State.controlBlock_ack {s : State} {l : Fin 32} {b : BitVec 64} (hvalid : isAck b = true) :
    s.controlBlock (asLane l) b = s.ackBlock l b := by
  obtain ⟨htype, hchk⟩ := Bool.and_eq_true_iff.1 hvalid
  have htraining : ¬ isTraining b = true := by
    rw [isTraining, eq_of_beq htype]
    exact Bool.false_ne_true
  have hidle : b ≠ 0 := by
    rintro rfl
    exact absurd htype (by decide)
  exact (if_neg htraining).trans ((if_neg hidle).trans ((dif_pos (c := (asLane l).val < 32) l.isLt).trans (if_pos ⟨eq_of_beq htype, hchk⟩)))

theorem State.controlBlock_dropped {s : State} {l : Fin 32} {b : BitVec 64} (hinvalid : isAck b = false) (htraining : isTraining b = false)
    (hidle : b ≠ 0) : s.controlBlock (asLane l) b = s.dropBlock (asLane l) := by
  have hnot : ¬ ((blockBytes b).getD 0 0 = 0xF1 ∧ chkOk b = true) := fun ⟨htype, hchk⟩ =>
    Bool.false_ne_true (hinvalid.symm.trans (Bool.and_eq_true_iff.2 ⟨beq_iff_eq.2 htype, hchk⟩))
  exact (if_neg (Bool.eq_false_iff.1 htraining)).trans
    ((if_neg hidle).trans ((dif_pos (c := (asLane l).val < 32) l.isLt).trans (if_neg hnot)))

section Ack

variable {s : State} {l : Fin 32} {b : BitVec 64}

theorem State.ackBlock_foreign (hforeign : bitAt b 8 3 ≠ l.val % 8) :
    s.ackBlock l b = s.updTx l (fun x => { x with wiring := satAdd x.wiring 1 }) := if_pos hforeign

variable (hown : bitAt b 8 3 = l.val % 8)
include hown

theorem State.ackBlock_flushed {sent tries : Nat}
    (hwait : (s.hlk.tx[l]).flushWait = some (BitVec.ofNat 8 (bitAt b 32 8), sent, tries)) (hflushed : bitAt b 40 8 = 5) :
    s.ackBlock l b = s.updTx l (fun x => { x with flushWait := none, flushed := true }) := by
  unfold ackBlock
  dsimp only
  rw [if_neg (not_not.2 hown), hwait, hflushed]
  exact if_pos (Bool.and_eq_true_iff.2 ⟨beq_self_eq_true _, rfl⟩)

variable (hwait : (s.hlk.tx[l]).flushWait = none)
include hwait

theorem State.ackBlock_unawaited
    (hnone : (s.hlk.tx[l]).awaiting.find? (fun a => a.fseq = BitVec.ofNat 8 (bitAt b 32 8)) = none) :
    s.ackBlock l b = s.updTx l (fun x => { x with dropped := satAdd x.dropped 1 }) := by
  unfold ackBlock
  dsimp only
  rw [if_neg (not_not.2 hown), hwait, hnone]
  exact if_neg Bool.false_ne_true

theorem State.ackBlock_awaited {a : Awaited}
    (hsome : (s.hlk.tx[l]).awaiting.find? (fun a => a.fseq = BitVec.ofNat 8 (bitAt b 32 8)) = some a) :
    s.ackBlock l b = s.frameAnswer l a (bitAt b 40 8) := by
  unfold ackBlock
  dsimp only
  rw [if_neg (not_not.2 hown), hwait, hsome]
  exact if_neg Bool.false_ne_true

end Ack

/-! ### The answer of a frame (R314) -/

theorem State.not_awaited_unawait (s : State) (l : Fin 32) (a : Awaited) :
    ∀ y ∈ ((s.unawait l a).hlk.tx[l]).awaiting, y.fseq ≠ a.fseq := by
  rw [unawait, updTx_value, getElem_upd_self]
  exact fun y hy => of_decide_eq_true (List.mem_filter.1 hy).2

section Answer

variable {s : State} {l : Fin 32} {a : Awaited} {b : BufLine} (hline : (s.rows[rowOf l]).line? a.line = some b)
  (hunfaulted : (b.half l).frameCause = none)
include hline hunfaulted

/-- TAKEN: the frame awaits no answer, and its half is acknowledged if its recheck passed. -/
theorem State.frameAnswer_taken : let u := s.frameAnswer l a 0
    (∀ y ∈ (u.hlk.tx[l]).awaiting, y.fseq ≠ a.fseq) ∧
    ((u.rows[rowOf l]).line? a.line).map (fun y => (y.half l).acked) = some (a.checkOk || (b.half l).acked) ∧
    u = { s with hlk := u.hlk, rows := u.rows } := by
  have hthere : ((s.unawait l a).rows[rowOf l]).line? a.line = some b := hline
  have hkept : (s.unawait l a).frameRecovered l a.line = s.unawait l a := by
    unfold frameRecovered
    rw [hthere, Option.bind_some, hunfaulted]
  have hnone := s.not_awaited_unawait l a
  cases hok : a.checkOk with
  | true =>
    have hanswer : s.frameAnswer l a 0 = (s.unawait l a).updHalf l a.line (fun h => { h with acked := true }) := by
      simp only [frameAnswer, hkept, hok, if_true]
    have hacked := congrArg (Option.map HalfSend.acked) (line?_updHalf hthere (fun h => { h with acked := true }))
    rw [Option.map_map] at hacked
    rw [hanswer]
    exact ⟨hnone, hacked, rfl⟩
  | false =>
    have hanswer : s.frameAnswer l a 0 = s.unawait l a := by
      simp only [frameAnswer, hkept, hok, Bool.false_eq_true, if_false]
    rw [hanswer]
    exact ⟨hnone, congrArg (Option.map fun y => (y.half l).acked) hthere, rfl⟩

/-- A first NAK, of any cause. -/
theorem State.frameAnswer_nak (hintime : s.deadlinePast (rowOf l) a.line = false) {result : Nat} (hlo : 1 ≤ result) (hhi : result ≤ 3) :
    let u := s.frameAnswer l a result
    a.line ∈ (u.hlk.tx[l]).resends ∧ Claims.Posts s u [0x02B4] ∧
    Claims.Tells s u [.detect (lineDetect fcFrame l a.line false .pending) s.aon] := by
  have hnak : s.frameAnswer l a result = (s.unawait l a).frameFault l a.line (result - 1) := by
    rcases (by omega : result = 1 ∨ result = 2 ∨ result = 3) with rfl | rfl | rfl <;> rfl
  rw [hnak]
  exact frameFault_first (s := s.unawait l a) hline _ hunfaulted hintime

end Answer

/-! ### The clauses -/

/-- A control block on an ACTIVE head lane with block lock, neither mirrored nor inverted nor about to sleep. -/
theorem exec_ack_control {l : Fin 32} {s : State} (hactive : (s.lane (asLane l)).state = .active)
    (hentering : (s.hlk.conns[connOf l]).entering = false) (hlock : (s.lane (asLane l)).sync.locked = true)
    (hrev : (s.lane (asLane l)).rxRev = false) (hinv : (s.lane (asLane l)).rxInv = false) (b : BitVec 64) (t : Nat) :
    exec (.ack l hdrControl b t) s = .next (((s.at t).updLane (asLane l) (fun n => { n with sync := n.sync.header hdrControl })).controlBlock
      (asLane l) b) := by
  have hself : (s.at t).rxLane (asLane l) = asLane l := if_neg (Bool.eq_false_iff.1 hrev)
  have hhears : (s.at t).receives (asLane l) = true := by
    have hentering' : ((s.at t).hlk.conns[connOf l]).entering = false := hentering
    have hactive' : ((s.at t).lane (asLane l)).state = .active := hactive
    rw [State.receives, hactive', dif_pos (show (asLane l).val < 32 from l.isLt)]
    simp only [asLane, hentering']
    rfl
  have hreceive := State.receive_active (s := s.at t) (l := asLane l) hdrControl b
  rw [hself] at hreceive
  rw [exec_ack, hreceive hhears hlock hactive hinv, if_pos rfl]

theorem exec_ackTimeout_acts (l : Fin 32) (t : Nat) (s : State) (a : Awaited) (b : BufLine)
    (hdue : (s.hlk.tx[l]).awaiting.find? (fun y => decide (y.sentAt + answerTime ≤ max s.aon t)) = some a)
    (hline : (s.rows[rowOf l]).line? a.line = some b) :
    ((b.half l).frameCause = none → s.deadlinePast (rowOf l) a.line = false → ∃ u d, exec (.ackTimeout l t) s = .next u ∧
      a.line ∈ (u.hlk.tx[l]).resends ∧ Claims.Posts s u [0x02B4] ∧ Claims.Tells s u [.detect d (max s.aon t)] ∧ d.outcome = .pending) ∧
    ((b.half l).frameCause.isSome = true → (s.rows[rowOf l]).isWithheld a.line = false → ∃ u, exec (.ackTimeout l t) s = .next u ∧
      (u.rows[rowOf l]).isWithheld a.line = true ∧ .withhold a.line 2 ∈ (u.hlk.tx[l]).control ∧ Claims.Posts s u [0x02B4]) := by
  let w := (s.at t).unawait l a
  have hrun : exec (.ackTimeout l t) s = .next (w.frameFault l a.line 3) := by
    have hdue' : ((s.at t).hlk.tx[l]).awaiting.find? (fun y => decide (y.sentAt + answerTime ≤ (s.at t).aon)) = some a := hdue
    change execAckTimeout l t s = _
    unfold execAckTimeout
    simp only [hdue', w]
  have hthere : (w.rows[rowOf l]).line? a.line = some b := hline
  rw [hrun]
  refine ⟨fun hfirst hintime => ?_, fun hsecond hnew => ?_⟩
  · obtain ⟨hqueued, hposts, htells⟩ := State.frameFault_first hthere 3 hfirst hintime
    exact ⟨_, _, rfl, hqueued, hposts, htells, rfl⟩
  · obtain ⟨hwithheld, hqueued⟩ := State.frameLasting_withholds (s := w) hnew 3
    rw [State.frameFault_second hthere 3 hsecond]
    exact ⟨_, rfl, hwithheld, hqueued, w.frameLasting_posts l a.line 3⟩

theorem exec_ackTimeout_early (l : Fin 32) (t : Nat) (s : State) (hearly : ∀ a ∈ (s.hlk.tx[l]).awaiting, max s.aon t < a.sentAt + answerTime) :
    exec (.ackTimeout l t) s = .next (s.at t) := by
  have hnone : ((s.at t).hlk.tx[l]).awaiting.find? (fun y => decide (y.sentAt + answerTime ≤ (s.at t).aon)) = none :=
    List.find?_eq_none.2 fun a ha hdue => (hearly a ha).not_ge (of_decide_eq_true hdue)
  change execAckTimeout l t s = _
  unfold execAckTimeout
  simp only [hnone]

/-- Settles O52: an ACK block by the frame or FLUSH it answers, and a frame's fault by whether it is the first. -/
theorem frameAnswersComplete : Obligations.FrameAnswersComplete := by
  refine ⟨fun l b t s hactive hentering hlock hrev hinv => ?_, exec_ackTimeout_acts, exec_ackTimeout_early⟩
  let v := (s.at t).updLane (asLane l) (fun n => { n with sync := n.sync.header hdrControl })
  rw [exec_ack_control hactive hentering hlock hrev hinv]
  refine ⟨fun hinvalid htraining hidle => ?_, fun hvalid hforeign => ?_, fun hvalid hown f sent tries hwait hf hflushed => ?_,
    fun hvalid hown hwait => ⟨fun hnone => ?_, fun a x hsome hline hunfaulted => ⟨fun htaken => ?_, fun hlo hhi hintime => ?_⟩⟩⟩
  · rw [State.controlBlock_dropped hinvalid htraining hidle]
    rfl
  · rw [State.controlBlock_ack hvalid, State.ackBlock_foreign hforeign]
  · subst hf
    rw [State.controlBlock_ack hvalid, State.ackBlock_flushed (s := v) hown hwait hflushed]
  · have hunknown : (s.hlk.tx[l]).awaiting.find? (fun y => y.fseq = BitVec.ofNat 8 (bitAt b 32 8)) = none :=
      List.find?_eq_none.2 fun y hy hfound => hnone y hy (of_decide_eq_true hfound)
    rw [State.controlBlock_ack hvalid, State.ackBlock_unawaited (s := v) hown hwait hunknown]
  · rw [State.controlBlock_ack hvalid, State.ackBlock_awaited (s := v) hown hwait hsome, htaken]
    obtain ⟨hended, hacked, honly⟩ := State.frameAnswer_taken (s := v) hline hunfaulted
    exact ⟨_, rfl, hended, hacked, honly⟩
  · rw [State.controlBlock_ack hvalid, State.ackBlock_awaited (s := v) hown hwait hsome]
    obtain ⟨hqueued, hposts, htells⟩ := State.frameAnswer_nak (s := v) hline hunfaulted hintime hlo hhi
    exact ⟨_, _, rfl, hqueued, hposts, htells, rfl⟩

end Sys2Proof.Machine
end

section
/-! PROOF. What waits, what time it is and what has been fired, part one: the operations that chapters share. None adds to the queue of commands,
lets time pass or puts a strobe on the wires; one law for each says so, from the laws of the updates it is made of. (14 R331; 17 R421; 21 R532) -/

namespace Sys2Proof.Machine

/-! ### The relation, and what updates do to it -/

/-- Between two states nothing was added to the queue of commands, no time passed and no strobe left the pads. -/
@[simp] abbrev Quiet (s u : State) : Prop :=
  u.pending = s.pending ∧ u.aon = s.aon ∧ u.wires.filter Claims.isStrobe = s.wires.filter Claims.isStrobe

theorem Quiet.refl (s : State) : Quiet s s := ⟨rfl, rfl, rfl⟩

theorem Quiet.trans {s t u : State} (h₁ : Quiet s t) (h₂ : Quiet t u) : Quiet s u :=
  ⟨h₂.1.trans h₁.1, h₂.2.1.trans h₁.2.1, h₂.2.2.trans h₁.2.2⟩

theorem foldl_quiet {α : Type} (f : State → α → State) (l : List α) (s : State) (h : ∀ s a, Quiet s (f s a)) : Quiet s (l.foldl f s) :=
  foldl_rel Quiet.refl Quiet.trans h l s

@[simp] theorem foldl_strobes {α : Type} (f : State → α → State) (l : List α) (s : State)
    (h : ∀ s a, (f s a).wires.filter Claims.isStrobe = s.wires.filter Claims.isStrobe) :
    (l.foldl f s).wires.filter Claims.isStrobe = s.wires.filter Claims.isStrobe :=
  foldl_keep (fun s => s.wires.filter Claims.isStrobe) f h l s

@[simp] theorem ite_strobes (c : Prop) [Decidable c] (a b : List Wire) :
    (if c then a else b).filter Claims.isStrobe = if c then a.filter Claims.isStrobe else b.filter Claims.isStrobe :=
  apply_ite _ _ _ _

/-! ### Operations that put something else on the wires -/

@[simp] theorem State.laneOut_quiet (s : State) (l : Fin 34) (b : List (Bool × BitVec 64)) : Quiet s (s.laneOut l b) := by
  simp [State.laneOut, Claims.isStrobe]

@[simp] theorem State.sendBlocks_quiet (s : State) (l : Fin 32) (b : List (Bool × BitVec 64)) : Quiet s (s.sendBlocks l b) :=
  s.laneOut_quiet (asLane l) b

@[simp] theorem State.chainPump_quiet (s : State) (side : Side) : Quiet s (s.chainPump side) := by
  unfold State.chainPump
  dsimp only
  split <;> simp

@[simp] theorem State.chainTo_quiet (s : State) (side : Side) (m : ChainMsg) : Quiet s (s.chainTo side m) := by simp [State.chainTo]

@[simp] theorem State.sendTraining_quiet (s : State) (l : Fin 34) (stage : Nat) : Quiet s (s.sendTraining l stage) := by
  simp [State.sendTraining]

@[simp] theorem State.wakeDir_quiet (s : State) (side : Side) : Quiet s (s.wakeDir side) := by simp [State.wakeDir]
@[simp] theorem State.chainVia_quiet (s : State) (side : Side) (m : ChainMsg) : Quiet s (s.chainVia side m) := by simp [State.chainVia]
@[simp] theorem State.chainSend_quiet (s : State) (m : ChainMsg) : Quiet s (s.chainSend m) := by simp [State.chainSend]

@[simp] theorem State.msix_quiet (s : State) (v : Nat) : Quiet s (s.msix v) := by simp [State.msix, Claims.isStrobe]
@[simp] theorem State.setGlobalFault_quiet (s : State) (b : Nat) : Quiet s (s.setGlobalFault b) := by simp [State.setGlobalFault]
@[simp] theorem State.badAccess_quiet (s : State) : Quiet s s.badAccess := by simp [State.badAccess]

@[simp] theorem State.writeReply_quiet (s : State) (m : Fin 8) (msg : List Byte) : Quiet s (s.writeReply m msg) := by
  simp [State.writeReply]

@[simp] theorem State.deliver_quiet (s : State) (m : Fin 8) (msg : List Byte) : Quiet s (s.deliver m msg) := by simp [State.deliver]

@[simp] theorem State.wasteOn_quiet (s : State) : Quiet s s.wasteOn := by simp [State.wasteOn]
@[simp] theorem State.wastePower_quiet (s : State) : Quiet s s.wastePower := by simp [State.wastePower]
@[simp] theorem State.wasteTrack_quiet (s : State) : Quiet s s.wasteTrack := by simp [State.wasteTrack]

@[simp] theorem State.hmcSend_quiet (s : State) (c : Fin 4) (msg : List Byte) : Quiet s (s.hmcSend c msg) := by
  unfold State.hmcSend
  split <;> simp [Claims.isStrobe]

@[simp] theorem State.hmcPump_quiet (s : State) (c : Fin 4) : Quiet s (s.hmcPump c) := by
  unfold State.hmcPump
  dsimp only
  split <;> simp

@[simp] theorem State.hmcAsk_quiet (s : State) (c : Fin 4) (q : HmcReq) : Quiet s (s.hmcAsk c q) := by simp [State.hmcAsk]
@[simp] theorem State.identify_quiet (s : State) (c : Fin 4) : Quiet s (s.identify c) := by simp [State.identify]

@[simp] theorem State.linkDone_quiet (s : State) (c : Fin 4) (st : Status) (code stage cause lanes : Nat) :
    Quiet s (s.linkDone c st code stage cause lanes) := by
  unfold State.linkDone State.linkPost
  split <;> simp

@[simp] theorem State.linkCheck_quiet (s : State) (c : Fin 4) : Quiet s (s.linkCheck c) := by
  unfold State.linkCheck
  (repeat' split) <;> simp

/-! ### Outputs, chain messages and replies (15, 17) -/

@[simp] theorem State.wrote_quiet (s : State) (a n : Nat) : Quiet s (s.wrote a n) := by simp [State.wrote]
@[simp] theorem State.sleepOut_quiet (s : State) (l : Fin 34) : Quiet s (s.sleepOut l) := by simp [State.sleepOut]

@[simp] theorem State.laneInsert_quiet (s : State) (l : Fin 34) (before : Nat) (b : Bool × BitVec 64) :
    Quiet s (s.laneInsert l before b) := by
  simp [State.laneInsert, Claims.isStrobe]

@[simp] theorem State.sleepDir_quiet (s : State) (side : Side) : Quiet s (s.sleepDir side) := by simp [State.sleepDir]

@[simp] theorem State.chainBroadcast_quiet (s : State) (mtype : Byte) (body : List Byte) : Quiet s (s.chainBroadcast mtype body) := by
  simp [State.chainBroadcast]

/-! ### A request and its reply (17) -/

@[simp] theorem State.reply_quiet (s : State) (q : Req) (opcode : Nat) (st : Status) (detail : Nat) (payload : List Byte) (pending : Bool) :
    Quiet s (s.reply q opcode st detail payload pending) := by
  simp [State.reply]

@[simp] theorem State.start_quiet (s : State) (q : Req) (opcode : Nat) : Quiet s (s.start q opcode) := by simp [State.start]

@[simp] theorem State.answerLater_quiet (s : State) (r : Result) (x : Outstanding) : Quiet s (s.answerLater r x) := by
  simp [State.answerLater]

/-! ### The fault supervisor (24) -/

@[simp] theorem State.logFault_quiet (s : State) (d : Detect) (time : Nat) (count : BitVec 32) (ref : Nat) :
    Quiet s (s.logFault d time count ref) := by
  simp [State.logFault]

@[simp] theorem State.logConsequences_quiet (s : State) (ref : Nat) (l : List (Detect × Nat)) : Quiet s (s.logConsequences ref l) := by
  induction l generalizing s with
  | nil => exact .refl s
  | cons c l ih => simp [State.logConsequences, ih]

@[simp] theorem State.fsvDetect_quiet (s : State) (d : Detect) (time : Nat) : Quiet s (s.fsvDetect d time) := by
  unfold State.fsvDetect
  (repeat' split) <;> simp

@[simp] theorem State.takeRange_quiet (s : State) (w : WasteRange) (len : Int) : Quiet s (s.takeRange w len) := by simp [State.takeRange]

@[simp] theorem State.wasteOut_quiet (s : State) (cause : Byte) (first last : Int) : Quiet s (s.wasteOut cause first last) := by
  simp [State.wasteOut]

@[simp] theorem State.fsvMark_quiet (s : State) (row : Fin 16) (first last : Nat) (cause : Byte) :
    Quiet s (s.fsvMark row first last cause) := by
  simp [State.fsvMark]

@[simp] theorem State.logRange_quiet (s : State) (w : WasteRange) : Quiet s (s.logRange w) := by simp [State.logRange]
@[simp] theorem State.closePassed_quiet (s : State) : Quiet s s.closePassed := by simp [State.closePassed]
@[simp] theorem State.closeAll_quiet (s : State) : Quiet s s.closeAll := by simp [State.closeAll]

@[simp] theorem State.pourPath_quiet (s : State) (half : Fin 32) (line time : Nat) : Quiet s (s.pourPath half line time) := by
  simp [State.pourPath]

@[simp] theorem State.fsvItem_quiet (s : State) (i : FsvItem) : Quiet s (s.fsvItem i) := by
  cases i <;> simp [State.fsvItem]

/-! ### Domains and resets (17, 21) -/

@[simp] theorem State.hostDomainReset_quiet (s : State) : Quiet s s.hostDomainReset := by simp [State.hostDomainReset]
@[simp] theorem State.lanesOff_quiet (s : State) (lo hi : Nat) : Quiet s (s.lanesOff lo hi) := by simp [State.lanesOff]
@[simp] theorem State.afterReset_quiet (s : State) : Quiet s s.afterReset := by simp [State.afterReset]
@[simp] theorem State.resetNotice_quiet (s : State) (cause : Byte) : Quiet s (s.resetNotice cause) := by simp [State.resetNotice]
@[simp] theorem State.moduleReset_quiet (s : State) (cause : Byte) : Quiet s (s.moduleReset cause) := by simp [State.moduleReset]
@[simp] theorem State.internalReplies_quiet (s : State) (m : Fin 8) : Quiet s (s.internalReplies m) := by simp [State.internalReplies]
@[simp] theorem State.kettleRestart_quiet (s : State) : Quiet s s.kettleRestart := by simp [State.kettleRestart]
@[simp] theorem State.kettleBack_quiet (s : State) : Quiet s s.kettleBack := by simp [State.kettleBack]

/-! ### The page store (11) -/

@[simp] theorem State.autoFree_quiet (before s : State) : Quiet s (before.autoFree s) := by
  unfold State.autoFree
  refine foldl_quiet _ _ _ fun s t => ?_
  split <;> simp

@[simp] theorem State.freeList_quiet (s : State) (handle : Nat) : Quiet s (s.freeList handle) := by simp [State.freeList]
@[simp] theorem State.retireBindings_quiet (s : State) : Quiet s s.retireBindings := by simp [State.retireBindings]

/-! ### Memory errors (20) -/

@[simp] theorem State.raisePanic_quiet (s : State) (r : Fin 16) : Quiet s (s.raisePanic r) := by
  unfold State.raisePanic
  split <;> simp

@[simp] theorem State.clearPanic_quiet (s : State) : Quiet s s.clearPanic := by
  unfold State.clearPanic
  split <;> simp

@[simp] theorem State.panicEval_quiet (s : State) : Quiet s s.panicEval := by
  unfold State.panicEval
  (repeat' split) <;> simp

@[simp] theorem State.poisonRead_quiet (s : State) (reader a n : Nat) (last : Bool) : Quiet s (s.poisonRead reader a n last) := by
  unfold State.poisonRead
  split <;> simp

@[simp] theorem State.dramSingle_quiet (s : State) (addr : Nat) (bit : Fin 72) (again : Bool) (reader : MemReader) :
    Quiet s (s.dramSingle addr bit again reader) := by
  simp [State.dramSingle]

@[simp] theorem State.readSingles_quiet (s : State) (reader : MemReader) (a n : Nat) : Quiet s (s.readSingles reader a n) := by
  simp [State.readSingles]

@[simp] theorem State.ringWrote_quiet (s : State) (r : Fin 16) (n : Nat) : Quiet s (s.ringWrote r n) := by simp [State.ringWrote]

@[simp] theorem State.poisonCheckpoint_quiet (s : State) (addr : Nat) : Quiet s (s.poisonCheckpoint addr) := by
  simp [State.poisonCheckpoint]

@[simp] theorem State.poisonLasting_quiet (s : State) (addr : Nat) (reader : MemReader) : Quiet s (s.poisonLasting addr reader) := by
  unfold State.poisonLasting
  (repeat' split) <;> simp

@[simp] theorem State.dramDouble_quiet (s : State) (addr : Nat) (again : Bool) (reader : MemReader) :
    Quiet s (s.dramDouble addr again reader) := by
  simp [State.dramDouble]

@[simp] theorem State.sramSingle_quiet (s : State) (arr : SramArray) (addr : Nat) (again : Bool) (inj : Bool) :
    Quiet s (s.sramSingle arr addr again inj) := by
  simp [State.sramSingle]

@[simp] theorem State.sramDouble_quiet (s : State) (arr : SramArray) (addr : Nat) (again : Bool) (inj : Bool) :
    Quiet s (s.sramDouble arr addr again inj) := by
  unfold State.sramDouble
  split <;> simp

/-! ### Lanes and connectors (12, 13) -/

@[simp] theorem State.beginConn_quiet (s : State) (c : Fin 4) : Quiet s (s.beginConn c) := by simp -implicitDefEqProofs [State.beginConn]
@[simp] theorem State.wakeConn_quiet (s : State) (c : Fin 4) : Quiet s (s.wakeConn c) := by simp [State.wakeConn]

@[simp] theorem State.linkPost_quiet (s : State) (c : Fin 4) (st : Status) (code stage cause : Nat) :
    Quiet s (s.linkPost c st code stage cause) := by
  simp [State.linkPost]

@[simp] theorem State.laneEvent_quiet (s : State) (l : Fin 32) (cause : BitVec 4) (cls : Nat) : Quiet s (s.laneEvent l cause cls) := by
  simp [State.laneEvent]

@[simp] theorem State.enterSleep_quiet (s : State) (c : Fin 4) (o : Option Origin) : Quiet s (s.enterSleep c o) := by
  simp [State.enterSleep]

@[simp] theorem State.sleepAnswer_quiet (st : Status) (s : State) (o : Origin) : Quiet s (State.sleepAnswer st s o) := by
  simp [State.sleepAnswer]

@[simp] theorem State.entryOver_quiet (s : State) (c : Fin 4) (st : Status) : Quiet s (s.entryOver c st) := by simp [State.entryOver]
@[simp] theorem State.resetConn_quiet (s : State) (c : Fin 4) : Quiet s (s.resetConn c) := by simp -implicitDefEqProofs [State.resetConn]

@[simp] theorem State.endTest_quiet (s : State) (reason : Nat) : Quiet s (s.endTest reason) := by
  unfold State.endTest
  split <;> simp

@[simp] theorem State.insertNotice_quiet (s : State) (h : Fin 32) (b : Bool × BitVec 64) : Quiet s (s.insertNotice h b) := by
  simp [State.insertNotice]

@[simp] theorem State.notice_quiet (s : State) (r : Fin 16) (line : Nat) (kind : Byte) : Quiet s (s.notice r line kind) := by
  simp [State.notice]

@[simp] theorem State.withholdSent_quiet (s : State) (r : Fin 16) (n : Nat) (reason cause : Byte) :
    Quiet s (s.withholdSent r n reason cause) := by
  simp -implicitDefEqProofs [State.withholdSent]

@[simp] theorem State.withholdPoured_quiet (s : State) (r : Fin 16) : Quiet s (s.withholdPoured r) := by simp [State.withholdPoured]

@[simp] theorem State.withholdPour_quiet (s : State) (r : Fin 16) (n : Nat) (reason cause : Byte) :
    Quiet s (s.withholdPour r n reason cause) := by
  simp -implicitDefEqProofs [State.withholdPour]

@[simp] theorem State.queueFlush_quiet (s : State) (c : Fin 4) (reason : Byte) : Quiet s (s.queueFlush c reason) := by
  simp -implicitDefEqProofs [State.queueFlush]

/-! ### Messages of chain transactions (08) -/

@[simp] theorem State.chainAddressed_quiet (s : State) (mtype : Byte) (src dst : Nat) (body : List Byte) :
    Quiet s (s.chainAddressed mtype src dst body) := by
  simp [State.chainAddressed]

@[simp] theorem State.txnAsk_quiet (s : State) : Quiet s s.txnAsk := by
  unfold State.txnAsk
  split <;> simp

@[simp] theorem State.txnResolve_quiet (s : State) : Quiet s s.txnResolve := by
  unfold State.txnResolve
  split <;> simp

@[simp] theorem State.txnPeerReset_quiet (s : State) (a : Fin 16) : Quiet s (s.txnPeerReset a) := by
  unfold State.txnPeerReset
  split <;> simp

/-! ### Web position (02) -/

@[simp] theorem State.armLsd_quiet (s : State) : Quiet s s.armLsd := by simp [State.armLsd]
@[simp] theorem State.release_quiet (s : State) (d : Fin 12) : Quiet s (s.release d) := by simp [State.release]
@[simp] theorem State.speedEval_quiet (s : State) : Quiet s s.speedEval := by simp [State.speedEval]

@[simp] theorem State.reverseOpenRow_quiet (s : State) (r : Fin 16) : Quiet s (s.reverseOpenRow r) := by
  unfold State.reverseOpenRow
  dsimp only
  (repeat' split) <;> simp

@[simp] theorem State.reverseEvent_quiet (s : State) (tick : Nat) : Quiet s (s.reverseEvent tick) := by simp [State.reverseEvent]
@[simp] theorem State.motionEval_quiet (s : State) (tick : Nat) : Quiet s (s.motionEval tick) := by simp [State.motionEval]
@[simp] theorem State.takeEdge_quiet (s : State) (e : Edge) : Quiet s (s.takeEdge e) := by simp [State.takeEdge]
@[simp] theorem State.webSettle_quiet (s : State) : Quiet s s.webSettle := by simp [State.webSettle]

/-! ### The chain (15) -/

@[simp] theorem State.slewTo_quiet (s : State) (target : Int) : Quiet s (s.slewTo target) := by simp [State.slewTo]
@[simp] theorem State.stepTime_quiet (s : State) : Quiet s s.stepTime := by simp [State.stepTime]
@[simp] theorem State.postMode_quiet (s : State) : Quiet s s.postMode := by simp [State.postMode]

@[simp] theorem State.enumEvent_quiet (s : State) (cause : Nat) (o : Option Origin) (st : Status) : Quiet s (s.enumEvent cause o st) := by
  simp [State.enumEvent]

@[simp] theorem State.sendEnum_quiet (s : State) (second : Bool) : Quiet s (s.sendEnum second) := by simp [State.sendEnum]
@[simp] theorem State.askRejoin_quiet (s : State) (side : Side) : Quiet s (s.askRejoin side) := by simp [State.askRejoin]

@[simp] theorem State.rejoinDecide_quiet (s : State) : Quiet s s.rejoinDecide := by
  unfold State.rejoinDecide
  split <;> simp

@[simp] theorem State.hopEvent_quiet (s : State) (side : Side) (cause : BitVec 4) (cls : Nat) : Quiet s (s.hopEvent side cause cls) := by
  simp [State.hopEvent]

@[simp] theorem State.linkAnswer_quiet (s : State) : Quiet s s.linkAnswer := by
  unfold State.linkAnswer
  split <;> simp

@[simp] theorem State.hopActive_quiet (s : State) (side : Side) : Quiet s (s.hopActive side) := by simp [State.hopActive]

@[simp] theorem State.peerInReset_quiet (s : State) (a : Fin 16) (cause : Byte) : Quiet s (s.peerInReset a cause) := by
  simp [State.peerInReset]

@[simp] theorem State.peerSleeps_quiet (s : State) (side : Side) : Quiet s (s.peerSleeps side) := by simp [State.peerSleeps]
@[simp] theorem State.peerWakes_quiet (s : State) (side : Side) : Quiet s (s.peerWakes side) := by simp [State.peerWakes]

@[simp] theorem State.loseHop_quiet (s : State) (side : Side) (cause : BitVec 4) : Quiet s (s.loseHop side cause) := by
  unfold State.loseHop
  (repeat' split) <;> simp

@[simp] theorem State.wakeChain_quiet (s : State) : Quiet s s.wakeChain := by simp [State.wakeChain]
@[simp] theorem State.startChain_quiet (s : State) (rejoining : Bool) : Quiet s (s.startChain rejoining) := by simp [State.startChain]
@[simp] theorem State.ackChain_quiet (s : State) (h : ChainHdr) : Quiet s (s.ackChain h) := by simp [State.ackChain]

@[simp] theorem State.passOn_quiet (s : State) (h : ChainHdr) (mtype : Byte) (body : List Byte) : Quiet s (s.passOn h mtype body) := by
  simp [State.passOn]

@[simp] theorem State.storeRef_quiet (s : State) (b : Beacon) (own : BeaconSlot) : Quiet s (s.storeRef b own) := by simp [State.storeRef]

@[simp] theorem State.crossCheck_quiet (s : State) (b : Beacon) (own : BeaconSlot) : Quiet s (s.crossCheck b own) := by
  simp [State.crossCheck]

@[simp] theorem State.geomCheck_quiet (s : State) (b : Beacon) (own : BeaconSlot) : Quiet s (s.geomCheck b own) := by
  unfold State.geomCheck
  refine foldl_quiet _ _ _ fun s i => ?_
  split
  · exact .refl s
  · simp

@[simp] theorem State.peersBack_quiet (s : State) (b : Beacon) : Quiet s (s.peersBack b) := by simp [State.peersBack]

@[simp] theorem State.readBeacon_quiet (s : State) (b : Beacon) : Quiet s (s.readBeacon b) := by
  unfold State.readBeacon
  dsimp only
  (repeat' split) <;> simp

@[simp] theorem State.sendBeacon_quiet (s : State) (b : Beacon) : Quiet s (s.sendBeacon b) := by simp [State.sendBeacon]
@[simp] theorem State.lapDone_quiet (s : State) (b : Beacon) : Quiet s (s.lapDone b) := by simp [State.lapDone]

/-! ### Clock domains and boot (21, 22) -/

@[simp] theorem State.fioTake_quiet (s : State) : Quiet s s.fioTake := by
  unfold State.fioTake
  split <;> simp

@[simp] theorem State.setClock_quiet (s : State) (d : Fin 13) (clock : Nat) (forced : Bool) : Quiet s (s.setClock d clock forced) := by
  simp [State.setClock]

@[simp] theorem State.nextSwitch_quiet (s : State) (d : Fin 13) : Quiet s (s.nextSwitch d) := by
  unfold State.nextSwitch
  dsimp only
  (repeat' split) <;> simp

@[simp] theorem State.gate_quiet (s : State) (d : Fin 13) : Quiet s (s.gate d) := by simp [State.gate]

@[simp] theorem State.clkTransient_quiet (s : State) (source : Nat) (domains : List (Fin 13)) :
    Quiet s (s.clkTransient source domains) := by
  simp [State.clkTransient]

@[simp] theorem State.lateEvent_quiet (s : State) (code : BitVec 16) (cls : Fin 4) (data : List DataField) :
    Quiet s (s.lateEvent code cls data) := by
  simp [State.lateEvent]

/-! ### Clocks (21) -/

@[simp] theorem State.relockAll_quiet (s : State) : Quiet s s.relockAll := by simp [State.relockAll]

@[simp] theorem State.crystalReleased_quiet (s : State) (x : Crystal) : Quiet s (s.crystalReleased x) := by
  unfold State.crystalReleased
  split <;> simp

@[simp] theorem State.crystalFailed_quiet (s : State) (x : Crystal) : Quiet s (s.crystalFailed x) := by
  unfold State.crystalFailed
  split <;> simp

@[simp] theorem State.timHold_quiet (s : State) : Quiet s s.timHold := by simp [State.timHold]
@[simp] theorem State.leavePll_quiet (s : State) (p : Fin 8) : Quiet s (s.leavePll p) := by simp [State.leavePll]

@[simp] theorem State.pllLost_quiet (s : State) (p : Fin 8) : Quiet s (s.pllLost p) := by
  unfold State.pllLost
  split <;> simp

@[simp] theorem State.xaLost_quiet (s : State) : Quiet s s.xaLost := by simp [State.xaLost]

@[simp] theorem State.sourceLost_quiet (s : State) (i : Fin 5) (clock : Nat) (domains : List (Fin 13)) (move : State → State)
    (hmove : ∀ u, Quiet u (move u)) :
    Quiet s (s.sourceLost i clock domains move) := by
  unfold State.sourceLost
  (repeat' split) <;> simp [hmove _]

@[simp] theorem State.timBack_quiet (s : State) (d : Fin 13) : Quiet s (s.timBack d) := by
  unfold State.timBack
  dsimp only
  (repeat' split) <;> simp

@[simp] theorem State.forcedFault_quiet (s : State) (d : Fin 13) (clock : Nat) : Quiet s (s.forcedFault d clock) := by
  simp [State.forcedFault]

@[simp] theorem State.startBoot_quiet (s : State) : Quiet s s.startBoot := by simp [State.startBoot]
@[simp] theorem State.kettleFaulted_quiet (s : State) (detail : Nat) : Quiet s (s.kettleFaulted detail) := by simp [State.kettleFaulted]

/-! ### Head accounting (14) -/

@[simp] theorem State.challenge_quiet (s : State) (h : Fin 64) (slot : Fin 8) : Quiet s (s.challenge h slot) := by simp [State.challenge]

@[simp] theorem State.startAuth_quiet (s : State) (h : Fin 64) : Quiet s (s.startAuth h) := by
  unfold State.startAuth
  split <;> simp

@[simp] theorem State.readUsage_quiet (s : State) (h : Fin 64) : Quiet s (s.readUsage h) := by simp [State.readUsage]
@[simp] theorem State.authRecovered_quiet (s : State) (h : Fin 64) : Quiet s (s.authRecovered h) := by simp [State.authRecovered]
@[simp] theorem State.sendCommit_quiet (s : State) (h : Fin 64) : Quiet s (s.sendCommit h) := by simp [State.sendCommit]

@[simp] theorem State.startCommit_quiet (s : State) (h : Fin 64) (o : Option Origin) : Quiet s (s.startCommit h o) := by
  simp [State.startCommit]

@[simp] theorem State.commitAll_quiet (s : State) : Quiet s s.commitAll := by simp [State.commitAll]
@[simp] theorem State.recommit_quiet (s : State) (h : Fin 64) : Quiet s (s.recommit h) := by simp [State.recommit]
@[simp] theorem State.commitFault_quiet (s : State) (h : Fin 64) : Quiet s (s.commitFault h) := by simp [State.commitFault]
@[simp] theorem State.authFailed_quiet (s : State) (h : Fin 64) : Quiet s (s.authFailed h) := by simp [State.authFailed]

@[simp] theorem State.authFault_quiet (s : State) (h : Fin 64) (again : State → State) (hagain : ∀ u, Quiet u (again u)) :
    Quiet s (s.authFault h again) := by
  unfold State.authFault
  split <;> simp [hagain]

@[simp] theorem State.authAnswer_quiet (s : State) (h : Fin 64) (p : List Byte) : Quiet s (s.authAnswer h p) := by
  unfold State.authAnswer
  split
  · exact .refl s
  · simp -implicitDefEqProofs

@[simp] theorem State.takeBase_quiet (s : State) (h : Fin 64) (u : Usage) : Quiet s (s.takeBase h u) := by
  simp -implicitDefEqProofs [State.takeBase]

@[simp] theorem State.usageAnswer_quiet (s : State) (h : Fin 64) (p : List Byte) : Quiet s (s.usageAnswer h p) := by
  simp [State.usageAnswer]

@[simp] theorem State.commitAnswer_quiet (s : State) (h : Fin 64) (p : List Byte) : Quiet s (s.commitAnswer h p) := by
  simp [State.commitAnswer]

@[simp] theorem State.hmcDrop_quiet (s : State) (c : Fin 4) (q : HmcReq) : Quiet s (s.hmcDrop c q) := by
  unfold State.hmcDrop
  split <;> simp

@[simp] theorem State.linkLost_quiet (s : State) (d : Fin 12) : Quiet s (s.linkLost d) := by simp [State.linkLost]

@[simp] theorem State.countsLost_quiet (s : State) (h : Fin 64) (lines drops : BitVec 64) : Quiet s (s.countsLost h lines drops) := by
  simp [State.countsLost]

@[simp] theorem State.countUsage_quiet (s : State) (r : Fin 16) (bytes : List Byte) : Quiet s (s.countUsage r bytes) := by
  simp [State.countUsage]

/-! ### The job (18) -/

@[simp] theorem State.retireOlder_quiet (s : State) : Quiet s s.retireOlder := by
  unfold State.retireOlder
  split <;> simp

@[simp] theorem State.freeCkpts_quiet (s : State) (r : Fin 16) : Quiet s (s.freeCkpts r) := by simp [State.freeCkpts]
@[simp] theorem State.retireCheck_quiet (s : State) : Quiet s s.retireCheck := by simp [State.retireCheck]
@[simp] theorem State.endRow_quiet (s : State) (r : Fin 16) : Quiet s (s.endRow r) := by simp [State.endRow]

@[simp] theorem State.jobStopped_quiet (s : State) (reason : Byte) (st : Status) (detail : Nat) (fclass : Byte) :
    Quiet s (s.jobStopped reason st detail fclass) := by
  simp [State.jobStopped]

@[simp] theorem State.toStopping_quiet (s : State) : Quiet s s.toStopping := by simp [State.toStopping]

@[simp] theorem State.incomplete_quiet (s : State) (r : Fin 16) (e : Nat) : Quiet s (s.incomplete r e) := by
  unfold State.incomplete
  (repeat' split) <;> simp

@[simp] theorem State.rowStop_quiet (s : State) (r : Fin 16) (e : Nat) : Quiet s (s.rowStop r e) := by simp [State.rowStop]

@[simp] theorem State.stopCheck_quiet (s : State) (r : Fin 16) : Quiet s (s.stopCheck r) := by
  unfold State.stopCheck
  split <;> simp

@[simp] theorem State.rowIsDone_quiet (s : State) (r : Fin 16) (m : Nat) : Quiet s (s.rowIsDone r m) := by simp [State.rowIsDone]

@[simp] theorem State.stopNow_quiet (s : State) (reason : Byte) (detail : Nat) (fclass : Byte) :
    Quiet s (s.stopNow reason detail fclass) := by
  unfold State.stopNow
  split <;> simp

@[simp] theorem State.stopManagement_quiet (s : State) (o : Option Origin) : Quiet s (s.stopManagement o) := by
  simp [State.stopManagement]

end Sys2Proof.Machine
end

section
/-! PROOF. What waits, what time it is and what has been fired, part two: the operations of single chapters (02, 07 to 26). -/

namespace Sys2Proof.Machine

/-! ### Fault stops (24) -/

@[simp] theorem State.announceStop_quiet (s : State) (w : StopWanted) : Quiet s (s.announceStop w) := by simp [State.announceStop]

/-! ### Power and temperature (26) -/

@[simp] theorem State.railMark_quiet (s : State) (d : Fin 12) (lasting : Bool) : Quiet s (s.railMark d lasting) := by
  simp [State.railMark]

@[simp] theorem State.planRepower_quiet (s : State) (d : Fin 12) (due : Option Nat) : Quiet s (s.planRepower d due) := by
  simp [State.planRepower]

@[simp] theorem State.armedLoss_quiet (s : State) (seq : Nat) : Quiet s (s.armedLoss seq) := by simp [State.armedLoss]
@[simp] theorem State.vinSeen_quiet (s : State) (mv : Nat) : Quiet s (s.vinSeen mv) := by simp [State.vinSeen]
@[simp] theorem State.powerUp_quiet (s : State) (d : Fin 12) : Quiet s (s.powerUp d) := by simp [State.powerUp]
@[simp] theorem State.repowered_quiet (s : State) (d : Fin 12) : Quiet s (s.repowered d) := by simp [State.repowered]

@[simp] theorem State.sampleSensor_quiet (temps : List Int) (s : State) (i : Fin 20) : Quiet s (State.sampleSensor temps s i) := by
  simp [State.sampleSensor]

@[simp] theorem State.groupLevel_quiet (s : State) (g : Fin 4) : Quiet s (s.groupLevel g) := by simp [State.groupLevel]

/-! ### The compressors (10) -/

@[simp] theorem State.checkResult_quiet (s : State) (c : CodecCheck) : Quiet s (s.checkResult c) := by
  unfold State.checkResult
  split <;> simp

@[simp] theorem State.cdxFault_quiet (s : State) (kind unit cls err : Nat) (tile band block : Nat) :
    Quiet s (s.cdxFault kind unit cls err tile band block) := by
  simp [State.cdxFault]

@[simp] theorem State.feedCompressors_quiet (s : State) : Quiet s s.feedCompressors := by simp [State.feedCompressors]

@[simp] theorem State.startRaw_quiet (s : State) (tile : Nat) (codes : Bool) (w h : Nat) : Quiet s (s.startRaw tile codes w h) := by
  simp [State.startRaw]

@[simp] theorem State.endRaw_quiet (s : State) (tile : Nat) : Quiet s (s.endRaw tile) := by simp [State.endRaw]

@[simp] theorem State.compFault_quiet (s : State) (u : Fin 8) (b : CompBlock) (cls : Nat) (o : FaultOutcome) :
    Quiet s (s.compFault u b cls o) := by
  simp [State.compFault]

@[simp] theorem State.verifyEnd_quiet (s : State) (u : Fin 8) (b : CompBlock) (fail : Bool) : Quiet s (s.verifyEnd u b fail) := by
  simp [State.verifyEnd]

/-! ### Stagings (11) -/

@[simp] theorem State.readSource_quiet (s : State) (srcHost ns : Bool) (src length : Nat) :
    Quiet s (s.readSource srcHost ns src length) := by
  simp [State.readSource, Claims.isStrobe]

@[simp] theorem State.beginStaging_quiet (s : State) (g : Staging) (ext : List Extent) : Quiet s (s.beginStaging g ext) := by
  simp [State.beginStaging]

@[simp] theorem State.swapIn_quiet (s : State) (g : Staging) (blocks : List Blk) : Quiet s (s.swapIn g blocks) := by simp [State.swapIn]

@[simp] theorem State.stageEnd_quiet (s : State) (g : Staging) (p : List Byte) : Quiet s (s.stageEnd g p) := by
  unfold State.stageEnd
  (repeat' split) <;> simp

@[simp] theorem State.zoneRead_quiet (s : State) (a n : Nat) : Quiet s (s.zoneRead a n).1 := by
  unfold State.zoneRead
  split <;> simp

@[simp] theorem State.listEvent_quiet (s : State) (g : ListStaging) (st : Status) (detail handle : Nat) :
    Quiet s (s.listEvent g st detail handle) := by
  simp [State.listEvent]

@[simp] theorem State.storeList_quiet (s : State) (g : ListStaging) (l : PList) : Quiet s (s.storeList g l) := by
  unfold State.storeList
  split <;> simp

/-! ### Frames to the heads (13) -/

@[simp] theorem State.pourEvent_quiet (s : State) (h : Fin 32) (n : Nat) (mask : BitVec 16) (cls : Nat) (inj : Bool) :
    Quiet s (s.pourEvent h n mask cls inj) := by
  simp [State.pourEvent]

@[simp] theorem State.pourCount_quiet (s : State) (h : Fin 32) (n : Nat) : Quiet s (s.pourCount h n) := by simp [State.pourCount]

@[simp] theorem State.frameLasting_quiet (s : State) (l : Fin 32) (n cause : Nat) : Quiet s (s.frameLasting l n cause) := by
  simp [State.frameLasting]

@[simp] theorem State.pourLasting_quiet (s : State) (h : Fin 32) (n : Nat) (mask : BitVec 16) (inj : Bool) :
    Quiet s (s.pourLasting h n mask inj) := by
  simp [State.pourLasting]

@[simp] theorem State.queueResend_quiet (s : State) (l : Fin 32) (n : Nat) : Quiet s (s.queueResend l n) := by simp [State.queueResend]
@[simp] theorem State.bufferErrors_quiet (s : State) (h : Fin 32) (n : Nat) : Quiet s (s.bufferErrors h n) := by simp [State.bufferErrors]

@[simp] theorem State.sendFrame_quiet (s : State) (h : Fin 32) (b : BufLine) (resend : Bool) (u : Upset) (cvuBad : Nat) :
    Quiet s (s.sendFrame h b resend u cvuBad) := by
  simp [State.sendFrame]

@[simp] theorem State.recheckEvent_quiet (s : State) (h : Fin 32) (n : Nat) (mask : BitVec 16) (cls : Nat) (inj : Bool) :
    Quiet s (s.recheckEvent h n mask cls inj) := by
  simp [State.recheckEvent]

@[simp] theorem State.classifyRecheck_quiet (s : State) (h : Fin 32) (n : Nat) (x : HalfSend) (mask : BitVec 16) :
    Quiet s (s.classifyRecheck h n x mask) := by
  simp [State.classifyRecheck]

@[simp] theorem State.recheckDue_quiet (s : State) (h : Fin 32) : Quiet s (s.recheckDue h) := by
  unfold State.recheckDue
  split <;> simp

@[simp] theorem State.missDeadline_quiet (s : State) (before : Bool) (l : Fin 32) (n : Nat) : Quiet s (s.missDeadline before l n) := by
  unfold State.missDeadline
  split <;> simp

@[simp] theorem State.deadlines_quiet (s : State) (r : Fin 16) (n : Nat) : Quiet s (s.deadlines r n) := by simp [State.deadlines]

@[simp] theorem State.sendFlush_quiet (s : State) (l : Fin 32) (reason : Byte) (tries : Nat) : Quiet s (s.sendFlush l reason tries) := by
  simp [State.sendFlush]

@[simp] theorem State.popControl_quiet (s : State) (l : Fin 32) : Quiet s (s.popControl l) := by simp [State.popControl]

@[simp] theorem State.sendLine_quiet (s : State) (l : Fin 32) (n : Nat) (resend : Bool) (u : Upset) (cvuBad : Nat) :
    Quiet s (s.sendLine l n resend u cvuBad) := by
  unfold State.sendLine
  split <;> simp

@[simp] theorem State.sendNext_quiet (s : State) (l : Fin 32) (u : Upset) (cvuBad : Nat) : Quiet s (s.sendNext l u cvuBad) := by
  unfold State.sendNext
  dsimp only
  split
  case h_5 => split <;> simp
  all_goals simp

@[simp] theorem State.frameFault_quiet (s : State) (l : Fin 32) (n cause : Nat) : Quiet s (s.frameFault l n cause) := by
  unfold State.frameFault
  split <;> simp

@[simp] theorem State.frameRecovered_quiet (s : State) (l : Fin 32) (n : Nat) : Quiet s (s.frameRecovered l n) := by
  unfold State.frameRecovered
  split <;> simp

@[simp] theorem State.unawait_quiet (s : State) (l : Fin 32) (a : Awaited) : Quiet s (s.unawait l a) := by simp [State.unawait]

@[simp] theorem State.frameAnswer_quiet (s : State) (l : Fin 32) (a : Awaited) (result : Nat) : Quiet s (s.frameAnswer l a result) := by
  unfold State.frameAnswer
  split <;> simp

@[simp] theorem State.ackBlock_quiet (s : State) (l : Fin 32) (blk : BitVec 64) : Quiet s (s.ackBlock l blk) := by
  unfold State.ackBlock
  dsimp only
  (repeat' split) <;> simp

/-! ### Training, loss and sleep of lanes (12) -/

@[simp] theorem State.wiring_quiet (s : State) (c : Fin 4) (dir : Nat) (seen : List Nat) : Quiet s (s.wiring c dir seen) := by
  simp [State.wiring]

@[simp] theorem State.updConnLanes_quiet (s : State) (c : Fin 4) (f : Lane → Lane) : Quiet s (s.updConnLanes c f) := by
  simp -implicitDefEqProofs [State.updConnLanes]

@[simp] theorem State.turnReceive_quiet (s : State) (c : Fin 4) : Quiet s (s.turnReceive c) := by
  simp -implicitDefEqProofs [State.turnReceive]

@[simp] theorem State.receiveOrder_quiet (s : State) (c : Fin 4) : Quiet s (s.receiveOrder c) := by simp [State.receiveOrder]
@[simp] theorem State.transmitOrder_quiet (s : State) (c : Fin 4) : Quiet s (s.transmitOrder c) := by simp [State.transmitOrder]

@[simp] theorem State.chainAlign_quiet (s : State) (l : Fin 34) : Quiet s (s.chainAlign l) := by
  unfold State.chainAlign
  split <;> simp

@[simp] theorem State.requeue_quiet (s0 : State) (l : Fin 32) : Quiet s0 (s0.requeue l) := by simp -implicitDefEqProofs [State.requeue]

@[simp] theorem State.loseLane_quiet (s : State) (l : Fin 32) (cause : BitVec 4) : Quiet s (s.loseLane l cause) := by
  simp [State.loseLane]

@[simp] theorem State.trainLane_quiet (s : State) (l : Fin 34) (b : BitVec 64) (inv : Bool) : Quiet s (s.trainLane l b inv) := by
  unfold State.trainLane
  split <;> simp

@[simp] theorem State.dropBlock_quiet (s : State) (l : Fin 34) : Quiet s (s.dropBlock l) := by simp [State.dropBlock]

@[simp] theorem State.controlBlock_quiet (s : State) (l : Fin 34) (b : BitVec 64) : Quiet s (s.controlBlock l b) := by
  unfold State.controlBlock
  (repeat' split) <;> simp

@[simp] theorem State.lockedBlock_quiet (s : State) (l : Fin 34) (hdr : BitVec 2) (blk : BitVec 64) :
    Quiet s (s.lockedBlock l hdr blk) := by
  unfold State.lockedBlock
  dsimp only
  (repeat' split) <;> simp

@[simp] theorem State.receive_quiet (s : State) (pair : Fin 34) (hdr : BitVec 2) (blk : BitVec 64) : Quiet s (s.receive pair hdr blk) := by
  simp [State.receive]

@[simp] theorem State.stageDone_quiet (s : State) (l : Fin 34) (seen : LaneSeen) : Quiet s (s.stageDone l seen) := by
  unfold State.stageDone
  split <;> simp

@[simp] theorem State.overLimit_quiet (s : State) (l : Fin 34) : Quiet s (s.overLimit l) := by
  unfold State.overLimit
  split <;> simp

@[simp] theorem State.retrainOk_quiet (s : State) (l : Fin 32) : Quiet s (s.retrainOk l) := by simp [State.retrainOk]
@[simp] theorem State.retrainLost_quiet (s : State) (l : Fin 32) : Quiet s (s.retrainLost l) := by simp [State.retrainLost]

@[simp] theorem State.asleep_quiet (s : State) (c : Fin 4) : Quiet s (s.asleep c) := by
  simp -implicitDefEqProofs [State.asleep]

@[simp] theorem State.startTest_quiet (s : State) (t : TestRun) : Quiet s (s.startTest t) := by simp [State.startTest, Claims.isStrobe]

@[simp] theorem State.updTest_quiet (s : State) (l : Fin 32) (f : LaneTest → LaneTest) : Quiet s (s.updTest l f) := by
  simp [State.updTest]

/-! ### The memory subsystem (20) -/

@[simp] theorem State.sweepWord_quiet (arr : SramArray) (s : State) (c : Corruption) : Quiet s (State.sweepWord arr s c) := by
  simp [State.sweepWord]

@[simp] theorem State.memEccPost_quiet (s : State) (memory : Nat) (e : EccPost) : Quiet s (s.memEccPost memory e) := by
  simp [State.memEccPost]

@[simp] theorem State.scrubWord_quiet (s : State) (c : Corruption) : Quiet s (s.scrubWord c) := by simp [State.scrubWord]
@[simp] theorem State.scrubBad_quiet (s : State) (w : Nat) : Quiet s (s.scrubBad w) := by simp [State.scrubBad]
@[simp] theorem State.trainFailed_quiet (s : State) (ch : Nat) : Quiet s (s.trainFailed ch) := by simp [State.trainFailed]

/-! ### Correction groups (08) -/

@[simp] theorem State.seal_quiet (s : State) (g : Group) : Quiet s (s.seal g).1 := by
  unfold State.seal
  (repeat' split) <;> simp

@[simp] theorem State.partnerCheck_quiet (s : State) (g : Gen) : Quiet s (s.partnerCheck g) := by
  unfold State.partnerCheck
  refine foldl_quiet _ _ _ fun s e => ?_
  split
  · exact .refl s
  · simp

@[simp] theorem State.commit_quiet (s : State) (g : Group) (l : Nat) : Quiet s (s.commit g l) := by
  unfold State.commit
  split <;> simp

@[simp] theorem State.inDoubtCheck_quiet (s : State) : Quiet s s.inDoubtCheck := by
  unfold State.inDoubtCheck
  split <;> simp -implicitDefEqProofs

/-! ### Calibration and trims (23) -/

@[simp] theorem State.trimFault_quiet (s : State) (trim cls measured : Nat) : Quiet s (s.trimFault trim cls measured) := by
  simp [State.trimFault]

@[simp] theorem State.trimTransient_quiet (s : State) (trim measured : Nat) : Quiet s (s.trimTransient trim measured) := by
  simp [State.trimTransient]

@[simp] theorem State.trimLasting_quiet (s : State) (trim measured : Nat) : Quiet s (s.trimLasting trim measured) := by
  simp [State.trimLasting]

@[simp] theorem State.trimAnswers_quiet (s : State) (reqs : List Origin) (retry ok : Bool) : Quiet s (s.trimAnswers reqs retry ok) := by
  simp [State.trimAnswers]

@[simp] theorem State.sourceBack_quiet (s : State) (i : Fin 5) (clock : Nat) (domains : List (Fin 13)) :
    Quiet s (s.sourceBack i clock domains) := by
  simp [State.sourceBack]

@[simp] theorem State.sioBack_quiet (s : State) : Quiet s s.sioBack := by simp [State.sioBack]

@[simp] theorem State.channelRetrained_quiet (failed twice : BitVec 32) (s : State) (ch : Fin 32) :
    Quiet s (State.channelRetrained failed twice s ch) := by
  simp [State.channelRetrained]

@[simp] theorem State.chartRaw_quiet (s : State) (c : Chart) : Quiet s (s.chartRaw c) := by simp [State.chartRaw]
@[simp] theorem State.chartEnd_quiet (s : State) (c : Chart) : Quiet s (s.chartEnd c) := by simp [State.chartEnd]
@[simp] theorem State.setPanel_quiet (s : State) (p : Panel) : Quiet s (s.setPanel p) := by simp [State.setPanel]

@[simp] theorem State.chartDone_quiet (s : State) (c : Chart) (n : Nat) (lists : List (Nat × Nat)) : Quiet s (s.chartDone c n lists) := by
  simp [State.chartDone]

@[simp] theorem State.chartFail_quiet (s : State) (c : Chart) (st : Status) (detail : Nat) : Quiet s (s.chartFail c st detail) := by
  simp [State.chartFail]

/-! ### Hops, enumeration and beacons (15) -/

@[simp] theorem State.hopMiss_quiet (s : State) (side : Side) : Quiet s (s.hopMiss side) := by
  unfold State.hopMiss
  dsimp only
  (repeat' split) <;> simp

@[simp] theorem State.takeEnum_quiet (s : State) (value : Byte) (serial : BitVec 64) : Quiet s (s.takeEnum value serial) := by
  simp [State.takeEnum]

@[simp] theorem State.lapBack_quiet (s : State) (b : Beacon) : Quiet s (s.lapBack b) := by
  unfold State.lapBack
  (repeat' split) <;> simp

@[simp] theorem State.passBeacon_quiet (s : State) (h : ChainHdr) (b : Beacon) : Quiet s (s.passBeacon h b) := by simp [State.passBeacon]
@[simp] theorem State.takeBeacon_quiet (s : State) (h : ChainHdr) (b : Beacon) : Quiet s (s.takeBeacon h b) := by simp [State.takeBeacon]

@[simp] theorem State.hopDown_quiet (s : State) (side : Side) (cause : BitVec 4) : Quiet s (s.hopDown side cause) := by
  simp [State.hopDown]

@[simp] theorem State.hopBack_quiet (s : State) (side : Side) (cause : BitVec 4) : Quiet s (s.hopBack side cause) := by
  simp [State.hopBack]

/-! ### Lines around the head (07, 02) -/

@[simp] theorem State.copyLine_quiet (s : State) (r : Fin 16) (n : Nat) : Quiet s (s.copyLine r n) := by
  unfold State.copyLine
  (repeat' split) <;> simp

@[simp] theorem State.notAgreed_quiet (s : State) (r : Fin 16) (n : Nat) : Quiet s (s.notAgreed r n) := by
  unfold State.notAgreed
  dsimp only
  (repeat' split) <;> simp

@[simp] theorem State.pourLine_quiet (s : State) (r : Fin 16) (n : Nat) : Quiet s (s.pourLine r n) := by
  unfold State.pourLine
  dsimp only
  (repeat' split) <;> simp -implicitDefEqProofs

@[simp] theorem State.advanceBuffer_quiet (s : State) (r : Fin 16) (n : Nat) : Quiet s (s.advanceBuffer r n) := by
  simp [State.advanceBuffer]

@[simp] theorem State.feedLine_quiet (s : State) (r : Fin 16) (n : Nat) : Quiet s (s.feedLine r n) := by simp [State.feedLine]
@[simp] theorem State.retireFired_quiet (s : State) : Quiet s s.retireFired := by simp [State.retireFired]

@[simp] theorem State.reverseMark_quiet (s : State) (r : Fin 16) (n : Nat) (fate : Fate) : Quiet s (s.reverseMark r n fate) := by
  unfold State.reverseMark
  (repeat' split) <;> simp

@[simp] theorem State.boundaries_quiet (s : State) (r : Fin 16) (n : Nat) : Quiet s (s.boundaries r n) := by
  unfold State.boundaries
  dsimp only
  (repeat' split) <;> simp

@[simp] theorem State.pauseOver_quiet (s : State) : Quiet s s.pauseOver := by simp [State.pauseOver]
@[simp] theorem State.afterStart_quiet (s : State) (r : Fin 16) (n : Nat) : Quiet s (s.afterStart r n) := by simp [State.afterStart]

/-! ### Decodes (10) -/

@[simp] theorem State.updDec_quiet (s : State) (p : Pipe) (f : Decoders → Decoders) : Quiet s (s.updDec p f) := by
  unfold State.updDec
  split <;> simp

@[simp] theorem State.feedDecoders_quiet (s : State) (p : Pipe) : Quiet s (s.feedDecoders p) := by simp [State.feedDecoders]

@[simp] theorem State.keepBands_quiet (s : State) (p : Pipe) (r : Fin 16) (used : List Band) : Quiet s (s.keepBands p r used) := by
  simp [State.keepBands]

@[simp] theorem State.dropBands_quiet (s : State) (r : Fin 16) : Quiet s (s.dropBands r) := by simp [State.dropBands]
@[simp] theorem State.setBlock_quiet (s : State) (id i : Nat) (f : Blk → Blk) : Quiet s (s.setBlock id i f) := by simp [State.setBlock]
@[simp] theorem State.damage_quiet (s : State) (t : Tile) (i : Nat) : Quiet s (s.damage t i) := by simp [State.damage]
@[simp] theorem State.isolate_quiet (s : State) (p : Pipe) (u : Fin 16) : Quiet s (s.isolate p u) := by simp [State.isolate]
@[simp] theorem State.lastUnit_quiet (s : State) (p : Pipe) (u : Fin 16) : Quiet s (s.lastUnit p u) := by simp [State.lastUnit]

@[simp] theorem State.bandFault_quiet (s : State) (p : Pipe) (u : Fin 16) (cls : Nat) (err : Byte) (b : Band) :
    Quiet s (s.bandFault p u cls err b) := by
  simp [State.bandFault]

@[simp] theorem State.unitFree_quiet (s : State) (p : Pipe) (u : Fin 16) : Quiet s (s.unitFree p u) := by simp [State.unitFree]
@[simp] theorem State.hold_quiet (s : State) (p : Pipe) (b : Band) : Quiet s (s.hold p b) := by simp [State.hold]

@[simp] theorem State.decoded_quiet (s : State) (p : Pipe) (u : Fin 16) (j : DecodeJob) : Quiet s (s.decoded p u j) := by
  unfold State.decoded
  dsimp only
  (repeat' split) <;> simp

@[simp] theorem State.decodeFailed_quiet (s : State) (p : Pipe) (u : Fin 16) (j : DecodeJob) (t : Tile) (err : Byte) :
    Quiet s (s.decodeFailed p u j t err) := by
  unfold State.decodeFailed
  split <;> simp

@[simp] theorem State.decodeEnd_quiet (s : State) (p : Pipe) (u : Fin 16) (j : DecodeJob) (fail : Bool) :
    Quiet s (s.decodeEnd p u j fail) := by
  unfold State.decodeEnd
  (repeat' split) <;> simp

/-! ### Checkpoints, mismatches and agreement (07, 09) -/

@[simp] theorem State.ckptWrite_quiet (s : State) (r : Fin 16) (n : PipeRun) : Quiet s (s.ckptWrite r n) := by simp [State.ckptWrite]
@[simp] theorem State.ckptShadow_quiet (s : State) (r : Fin 16) (n : PipeRun) : Quiet s (s.ckptShadow r n) := by simp [State.ckptShadow]

@[simp] theorem State.lineThrough_quiet (s : State) (p : Pipe) (r : Fin 16) (out : LineOut) : Quiet s (s.lineThrough p r out) := by
  unfold State.lineThrough
  split <;> simp

@[simp] theorem State.lineDone_quiet (s : State) (p : Pipe) (h : Fin 32) (u : Upset) (out : LineOut) (g : Gen) :
    Quiet s (s.lineDone p h u out g) := by
  simp [State.lineDone]

@[simp] theorem State.freeOpinion_quiet (s : State) (r : Fin 16) : Quiet s (s.freeOpinion r) := by simp [State.freeOpinion]

@[simp] theorem State.misTransient_quiet (s : State) (r : Fin 16) (line : Nat) (ckpt : Bool) : Quiet s (s.misTransient r line ckpt) := by
  unfold State.misTransient
  split <;> simp

@[simp] theorem State.diverges_quiet (s : State) (r : Fin 16) (line : Nat) : Quiet s (s.diverges r line) := by simp [State.diverges]
@[simp] theorem State.sameAgain_quiet (s : State) (r : Fin 16) (line : Nat) : Quiet s (s.sameAgain r line) := by simp [State.sameAgain]

@[simp] theorem State.newAgreed_quiet (s : State) (r : Fin 16) (a : Agreed) : Quiet s (s.newAgreed r a) := by
  unfold State.newAgreed
  dsimp only
  (repeat' split) <;> simp

@[simp] theorem State.agree_quiet (s : State) (r : Fin 16) (lo hi : LineSet) : Quiet s (s.agree r lo hi) := by
  unfold State.agree
  dsimp only
  (repeat' split) <;> simp

@[simp] theorem State.tryAgree_quiet (s : State) (r : Fin 16) : Quiet s (s.tryAgree r) := by
  unfold State.tryAgree
  split <;> simp

@[simp] theorem State.compareSets_quiet (s : State) (h : Fin 32) (a : LineSet) (b : Option LineSet) (bad : CvuUpset) :
    Quiet s (s.compareSets h a b bad) := by
  unfold State.compareSets
  dsimp only
  (repeat' split) <;> simp

/-! ### Comparison and timeouts (09) -/

@[simp] theorem State.lineCompare_quiet (s : State) (h : Fin 32) (bad : CvuUpset) : Quiet s (s.lineCompare h bad) := by
  unfold State.lineCompare
  dsimp only
  (repeat' split) <;> simp

@[simp] theorem State.missing_quiet (s : State) (h : Fin 32) (bad : CvuUpset) : Quiet s (s.missing h bad) := by
  unfold State.missing
  split <;> simp

@[simp] theorem State.couplingTimeout_quiet (s : State) (p : Pipe) (h : Fin 32) (waits : Nat) (bad : CvuUpset) :
    Quiet s (s.couplingTimeout p h waits bad) := by
  simp [State.couplingTimeout]

/-! ### Queues (19) -/

@[simp] theorem State.signalQue_quiet (s : State) (q : Fin 48) : Quiet s (s.signalQue q) := by simp [State.signalQue]
@[simp] theorem State.announce_quiet (s : State) (q : Fin 48) : Quiet s (s.announce q) := by simp [State.announce]

@[simp] theorem State.writeRecord_quiet (s : State) (q : Fin 48) (record : Bool → List Byte) : Quiet s (s.writeRecord q record) := by
  simp [State.writeRecord, Claims.isStrobe]

@[simp] theorem State.writeEvent_quiet (s : State) (n : Fin 16) (e : Ev) : Quiet s (s.writeEvent n e) := by simp [State.writeEvent]
@[simp] theorem State.holdEvent_quiet (s : State) (n : Fin 16) (e : Ev) : Quiet s (s.holdEvent n e) := by simp [State.holdEvent]
@[simp] theorem State.dropEvent_quiet (s : State) (cls : Fin 4) : Quiet s (s.dropEvent cls) := by simp [State.dropEvent]
@[simp] theorem State.routeEvent_quiet (s : State) (e : Ev) : Quiet s (s.routeEvent e) := by simp [State.routeEvent]

@[simp] theorem State.writeHeld_quiet (l : List Ev) (s : State) (n : Fin 16) : Quiet s (State.writeHeld l s n) := by
  induction l generalizing s with
  | nil => exact .refl s
  | cons e l ih => simp [State.writeHeld, ih]

@[simp] theorem State.drainQue_quiet (s : State) (n : Fin 16) : Quiet s (s.drainQue n) := by simp [State.drainQue]
@[simp] theorem State.qCtrlWrite_quiet (s : State) (q : Fin 48) (v : Nat) : Quiet s (s.qCtrlWrite q v) := by simp [State.qCtrlWrite]
@[simp] theorem State.qHeadWrite_quiet (s : State) (q : Fin 48) (v : Nat) : Quiet s (s.qHeadWrite q v) := by simp [State.qHeadWrite]
@[simp] theorem State.qStatusWrite_quiet (s : State) (q : Fin 48) (v : Nat) : Quiet s (s.qStatusWrite q v) := by simp [State.qStatusWrite]
@[simp] theorem State.qBaseWrite_quiet (s : State) (q : Fin 48) (v : Nat) : Quiet s (s.qBaseWrite q v) := by simp [State.qBaseWrite]
@[simp] theorem State.qSizeWrite_quiet (s : State) (q : Fin 48) (v : Nat) : Quiet s (s.qSizeWrite q v) := by simp [State.qSizeWrite]
@[simp] theorem State.assign_quiet (s : State) : Quiet s s.assign := .refl s

/-! ### Bulk DMA (19) -/

@[simp] theorem State.complete_quiet (s : State) (c : Fin 48) (e : XferEnd) : Quiet s (s.complete c e) := by
  unfold State.complete
  dsimp only
  (repeat' split) <;> simp

@[simp] theorem State.finish_quiet (s : State) (c : Fin 48) (st : Status) (faultAddr : Nat) (aborted : Bool) :
    Quiet s (s.finish c st faultAddr aborted) := by
  simp [State.finish]

@[simp] theorem State.readOut_quiet (s : State) (c : Fin 48) (done n : Nat) : Quiet s (s.readOut c done n) := by
  simp [State.readOut, Claims.isStrobe]
@[simp] theorem State.issueRead_quiet (s : State) (c : Fin 48) : Quiet s (s.issueRead c) := by simp [State.issueRead]

@[simp] theorem State.issueReads_quiet (k : Nat) (s : State) : Quiet s (State.issueReads k s) := by
  induction k generalizing s with
  | zero => exact .refl s
  | succ k ih =>
    unfold State.issueReads
    split
    · exact .refl s
    · split <;> simp [ih]

@[simp] theorem State.chanGo_quiet (s : State) (c : Fin 48) : Quiet s (s.chanGo c) := by
  unfold State.chanGo
  dsimp only
  (repeat' split) <;> simp

@[simp] theorem State.ctrlWrite_quiet (s : State) (c : Fin 48) (v : Nat) : Quiet s (s.ctrlWrite c v) := by simp [State.ctrlWrite]

@[simp] theorem State.chanPulse_quiet (line : Fin 64) (s : State) (c : Fin 48) : Quiet s (State.chanPulse line s c) := by
  simp [State.chanPulse]

@[simp] theorem State.readOver_quiet (s : State) (c : Fin 48) (n : Nat) : Quiet s (s.readOver c n) := by simp [State.readOver]
@[simp] theorem State.readFailed_quiet (s : State) (c : Fin 48) (n : Nat) : Quiet s (s.readFailed c n) := by simp [State.readFailed]

/-! ### BAR0 and BAR2 (19) -/

@[simp] theorem State.readWord_quiet (s : State) (a : Nat) : Quiet s (s.readWord a) := by
  unfold State.readWord
  (repeat' split) <;> simp [Claims.isStrobe]

@[simp] theorem State.bar0Read_quiet (s : State) (a size : Nat) : Quiet s (s.bar0Read a size) := by simp [State.bar0Read, Claims.isStrobe]
@[simp] theorem State.globalFaultWrite_quiet (s : State) (v : Nat) : Quiet s (s.globalFaultWrite v) := by simp [State.globalFaultWrite]
@[simp] theorem State.assignWrite_quiet (s : State) (v : Nat) : Quiet s (s.assignWrite v) := by simp [State.assignWrite]
@[simp] theorem State.drqSoft_quiet (s : State) (v : Nat) : Quiet s (s.drqSoft v) := by simp [State.drqSoft]

@[simp] theorem State.mailboxWrite_quiet (s : State) (m : Fin 4) (o v : Nat) : Quiet s (s.mailboxWrite m o v) := by
  unfold State.mailboxWrite
  split <;> simp

@[simp] theorem State.chanWrite_quiet (s : State) (c : Fin 32) (o v : Nat) : Quiet s (s.chanWrite c o v) := by
  unfold State.chanWrite
  (repeat' split) <;> simp

@[simp] theorem State.queWrite_quiet (s : State) (q : Fin 48) (o v : Nat) : Quiet s (s.queWrite q o v) := by
  unfold State.queWrite
  split <;> simp

@[simp] theorem State.msixWrite_quiet (s : State) (i : Fin 64) (w v : Nat) : Quiet s (s.msixWrite i w v) := by simp [State.msixWrite]

@[simp] theorem State.wideWrite_quiet (s : State) (a v : Nat) : Quiet s (s.wideWrite a v) := by
  unfold State.wideWrite
  split
  · split <;> simp
  · simp
  · exact ⟨rfl, rfl, rfl⟩
  · exact .refl s

@[simp] theorem State.wordWrite_quiet (s : State) (a v : Nat) : Quiet s (s.wordWrite a v) := by
  unfold State.wordWrite
  split <;> simp

@[simp] theorem State.lowWrite_quiet (s : State) (a v : Nat) : Quiet s (s.lowWrite a v) := by simp [State.lowWrite]
@[simp] theorem State.highWrite_quiet (s : State) (low v : Nat) : Quiet s (s.highWrite low v) := by simp [State.highWrite]
@[simp] theorem State.write4_quiet (s : State) (a v : Nat) : Quiet s (s.write4 a v) := by simp [State.write4]
@[simp] theorem State.write8_quiet (s : State) (a v : Nat) : Quiet s (s.write8 a v) := by simp [State.write8]
@[simp] theorem State.bar0Write_quiet (s : State) (a size v : Nat) : Quiet s (s.bar0Write a size v) := by simp [State.bar0Write]

@[simp] theorem State.bar2Refused_quiet (s : State) (a : Nat) (write : Bool) : Quiet s (s.bar2Refused a write) := by
  simp [State.bar2Refused]

@[simp] theorem State.apertureRead_quiet (s : State) (off n : Nat) : Quiet s (s.apertureRead off n) := by
  simp -implicitDefEqProofs [State.apertureRead, Claims.isStrobe]

/-! ### Boot and firmware update (22) -/

@[simp] theorem State.drawKeys_quiet (s : State) : Quiet s s.drawKeys := by simp [State.drawKeys]

@[simp] theorem State.chooseSlot_quiet (s : State) (slot0 slot1 : ImageCheck) : Quiet s (s.chooseSlot slot0 slot1) := by
  simp -implicitDefEqProofs [State.chooseSlot]

@[simp] theorem State.loadKeys_quiet (s : State) (a b : Option KeyPackage) : Quiet s (s.loadKeys a b) := by simp [State.loadKeys]
@[simp] theorem State.lock_quiet (s : State) : Quiet s s.lock := by simp [State.lock]
@[simp] theorem State.bootDone_quiet (s0 : State) : Quiet s0 (s0.bootDone) := by simp -implicitDefEqProofs [State.bootDone]
@[simp] theorem State.openUpdate_quiet (s : State) (u : Option Update) : Quiet s (s.openUpdate u) := by simp [State.openUpdate]

@[simp] theorem State.unset_quiet (s : State) (item : UpdItem) : Quiet s (s.unset item) := by
  unfold State.unset
  split <;> simp

@[simp] theorem State.erased_quiet (s : State) (item : UpdItem) : Quiet s (s.erased item) := by simp [State.erased]

@[simp] theorem State.programmed_quiet (s : State) (u : Update) (off : Nat) (data : List Byte) : Quiet s (s.programmed u off data) := by
  simp [State.programmed]

@[simp] theorem State.committed_quiet (s : State) (u : Update) (image : ImageCheck) (seq : BitVec 32) (raise : Bool) :
    Quiet s (s.committed u image seq raise) := by
  unfold State.committed
  split <;> simp

@[simp] theorem State.fwDone_quiet (s : State) (u : Update) (o : Origin) (cmd : Nat) (st : Status) (detail off : Nat) :
    Quiet s (s.fwDone u o cmd st detail off) := by
  simp [State.fwDone]

/-! ### The head management channel (13) -/

@[simp] theorem State.hmcEvent_quiet (s : State) (c : Fin 4) (cause cls : Nat) : Quiet s (s.hmcEvent c cause cls) := by
  simp [State.hmcEvent]

@[simp] theorem State.identifiedCheck_quiet (s : State) (c : Fin 4) : Quiet s (s.identifiedCheck c) := by simp [State.identifiedCheck]

@[simp] theorem State.identifyAnswer_quiet (s : State) (c : Fin 4) (p : List Byte) : Quiet s (s.identifyAnswer c p) := by
  simp [State.identifyAnswer]

@[simp] theorem State.headInfoAnswer_quiet (s : State) (h : Fin 64) (p : List Byte) : Quiet s (s.headInfoAnswer h p) := by
  unfold State.headInfoAnswer
  dsimp only
  (repeat' split) <;> simp

@[simp] theorem State.statusAnswer_quiet (s : State) (c : Fin 4) (p : List Byte) : Quiet s (s.statusAnswer c p) := by
  simp [State.statusAnswer]

@[simp] theorem State.hmcMeaning_quiet (s : State) (c : Fin 4) (q : HmcReq) (p : List Byte) : Quiet s (s.hmcMeaning c q p) := by
  unfold State.hmcMeaning
  (repeat' split) <;> simp

@[simp] theorem State.hmcUnknown_quiet (s : State) (c : Fin 4) (q : HmcReq) : Quiet s (s.hmcUnknown c q) := by
  unfold State.hmcUnknown
  dsimp only
  split
  · simp
  · refine State.authFault_quiet _ _ _ fun u => ?_
    split <;> simp
  · simp -implicitDefEqProofs
  · split <;> simp
  · split <;> simp

@[simp] theorem State.hmcEnd_quiet (s : State) (c : Fin 4) : Quiet s (s.hmcEnd c) := by simp [State.hmcEnd]

@[simp] theorem State.hmcMessage_quiet (s : State) (c : Fin 4) (msg : List Byte) : Quiet s (s.hmcMessage c msg) := by
  unfold State.hmcMessage
  dsimp only
  (repeat' split) <;> simp

@[simp] theorem State.hmcChar_quiet (c : Fin 4) (s : State) (x : Byte × Bool) : Quiet s (State.hmcChar c s x) := by
  unfold State.hmcChar
  dsimp only
  (repeat' split) <;> simp

@[simp] theorem State.hmcMiss_quiet (s : State) (c : Fin 4) (mseq : Byte) (tries : Nat) (q : HmcReq) :
    Quiet s (s.hmcMiss c mseq tries q) := by
  simp [State.hmcMiss]

/-! ### PERST# (17, 19) -/

@[simp] theorem State.failHostReads_quiet (s : State) : Quiet s s.failHostReads := by simp [State.failHostReads]

/-! ### Arming, boundaries and stops (18) -/

@[simp] theorem State.setPanels_quiet (s : State) (panels : List Panel) : Quiet s (s.setPanels panels) := by simp [State.setPanels]
@[simp] theorem State.beginArm_quiet (s : State) (o : Origin) : Quiet s (s.beginArm o) := by simp [State.beginArm]
@[simp] theorem State.armChain_quiet (s : State) : Quiet s s.armChain := by simp [State.armChain]
@[simp] theorem State.armLanes_quiet (s : State) : Quiet s s.armLanes := by simp [State.armLanes]

@[simp] theorem State.armIdentify_quiet (s : State) : Quiet s s.armIdentify := by
  unfold State.armIdentify
  split <;> simp

@[simp] theorem State.armHeads_quiet (s : State) : Quiet s s.armHeads := by
  unfold State.armHeads
  (repeat' split) <;> simp

@[simp] theorem State.captureCheck_quiet (s : State) : Quiet s s.captureCheck := by
  unfold State.captureCheck
  split <;> simp

@[simp] theorem State.prepareRun_quiet (s : State) : Quiet s s.prepareRun := by simp [State.prepareRun]
@[simp] theorem State.armFlush_quiet (s : State) : Quiet s s.armFlush := by simp [State.armFlush]
@[simp] theorem State.armReady_quiet (s : State) : Quiet s s.armReady := by simp [State.armReady]

@[simp] theorem State.peEvent_quiet (s : State) (action : Nat) (line : Option Nat) : Quiet s (s.peEvent action line) := by
  simp [State.peEvent]

@[simp] theorem State.placeStop_quiet (s : State) (l : Nat) : Quiet s (s.placeStop l) := by simp [State.placeStop]
@[simp] theorem State.awaitStop_quiet (s : State) (o : Origin) : Quiet s (s.awaitStop o) := by simp [State.awaitStop]

/-! ### The management port (25) -/

@[simp] theorem State.mgNack_quiet (s : State) : Quiet s s.mgNack := by simp [State.mgNack, Claims.isStrobe]

@[simp] theorem State.mgWrite_quiet (s : State) (okLen pec : Bool) (f : State → State) (hf : ∀ u, Quiet u (f u)) :
    Quiet s (s.mgWrite okLen pec f) := by
  unfold State.mgWrite
  (repeat' split) <;> simp [hf]

@[simp] theorem State.alertClear_quiet (s : State) (v : Nat) : Quiet s (s.alertClear v) := by simp [State.alertClear]
@[simp] theorem State.setMask_quiet (s : State) (v : Nat) : Quiet s (s.setMask v) := by simp [State.setMask]
@[simp] theorem State.wake_quiet (s : State) : Quiet s s.wake := by simp [State.wake]
@[simp] theorem State.pwrCtrl_quiet (s : State) (v : Nat) : Quiet s (s.pwrCtrl v) := by simp [State.pwrCtrl]
@[simp] theorem State.tunnelOverrun_quiet (s : State) (n : Fin 2) : Quiet s (s.tunnelOverrun n) := by simp [State.tunnelOverrun]
@[simp] theorem State.tunnelClear_quiet (s : State) (n : Fin 2) : Quiet s (s.tunnelClear n) := by simp [State.tunnelClear]
@[simp] theorem State.tunnelPop_quiet (s : State) (n : Fin 2) : Quiet s (s.tunnelPop n) := by simp [State.tunnelPop]
@[simp] theorem State.tunnelGo_quiet (s : State) (n : Fin 2) : Quiet s (s.tunnelGo n) := by simp [State.tunnelGo]
@[simp] theorem State.mbCtrl_quiet (s : State) (n : Fin 2) (v : Nat) : Quiet s (s.mbCtrl n v) := by simp [State.mbCtrl]
@[simp] theorem State.mbReq_quiet (s : State) (n : Fin 2) (data : List Byte) : Quiet s (s.mbReq n data) := by simp [State.mbReq]

@[simp] theorem State.mgPut_quiet (s : State) (code : Nat) (data : List Byte) : Quiet s (s.mgPut code data) := by
  unfold State.mgPut
  split <;> simp

/-! ### Auxiliary axes (16) -/

@[simp] theorem State.disableAxis_quiet (s : State) (i : Fin 8) : Quiet s (s.disableAxis i) := by simp [State.disableAxis]

@[simp] theorem State.startMove_quiet (s : State) (i : Fin 8) (kind : Nat) (o : Origin) (vel target : Int) :
    Quiet s (s.startMove i kind o vel target) := by
  simp [State.startMove]

@[simp] theorem State.startJog_quiet (s : State) (i : Fin 8) (o : Origin) (vel : Int) : Quiet s (s.startJog i o vel) := by
  simp [State.startJog]

@[simp] theorem State.startStop_quiet (s : State) (i : Fin 8) (k : AxisKind) (o : Origin) : Quiet s (s.startStop i k o) := by
  simp [State.startStop]

@[simp] theorem State.gearEvent_quiet (s : State) (i : Fin 8) (kind : Nat) (p ratio : Int) : Quiet s (s.gearEvent i kind p ratio) := by
  simp [State.gearEvent]

@[simp] theorem State.gearStop_quiet (s : State) (i : Fin 8) (code : Nat) : Quiet s (s.gearStop i code) := by simp [State.gearStop]

@[simp] theorem State.gearSpeed_quiet (s : State) (i : Fin 8) (p ratio : Int) : Quiet s (s.gearSpeed i p ratio) := by
  simp [State.gearSpeed]

@[simp] theorem State.gearTick_quiet (s : State) (i : Fin 8) (g : Gear) (at_ : Nat) : Quiet s (s.gearTick i g at_) := by
  simp [State.gearTick]

@[simp] theorem State.axisTick_quiet (at_ : Nat) (s : State) (i : Fin 8) : Quiet s (State.axisTick at_ s i) := by
  unfold State.axisTick
  dsimp only
  (repeat' split) <;> simp

@[simp] theorem State.sendSetpoints_quiet (s : State) : Quiet s s.sendSetpoints := by simp [State.sendSetpoints, Claims.isStrobe]
@[simp] theorem State.servoTick_quiet (s : State) : Quiet s s.servoTick := by simp [State.servoTick]

@[simp] theorem State.driveEvent_quiet (s : State) (i : Fin 8) (cause cls : Nat) : Quiet s (s.driveEvent i cause cls) := by
  simp [State.driveEvent]

@[simp] theorem State.axisFault_quiet (s : State) (i : Fin 8) : Quiet s (s.axisFault i) := by simp [State.axisFault]
@[simp] theorem State.judge_quiet (s : State) (i : Fin 8) : Quiet s (s.judge i) := by simp [State.judge]

@[simp] theorem State.slotFault_quiet (s : State) (i : Fin 8) (fault : SlotFault) : Quiet s (s.slotFault i fault) := by
  simp [State.slotFault]

@[simp] theorem State.driveSays_quiet (s : State) (i : Fin 8) (d : Byte) (low : Nat) : Quiet s (s.driveSays i d low) := by
  simp [State.driveSays]

@[simp] theorem State.faultClears_quiet (s : State) (i : Fin 8) : Quiet s (s.faultClears i) := by simp [State.faultClears]
@[simp] theorem State.enableDone_quiet (s : State) (i : Fin 8) : Quiet s (s.enableDone i) := by simp [State.enableDone]

@[simp] theorem State.goodFrame_quiet (s : State) (i : Fin 8) (f : List Byte) : Quiet s (s.goodFrame i f) := by
  unfold State.goodFrame
  dsimp only
  (repeat' split) <;> simp

/-! ### Checkpoints and squashes (07) -/

@[simp] theorem State.engineDone_quiet (s : State) (p : Pipe) (h : Fin 32) (u : Upset) : Quiet s (s.engineDone p h u) := by
  simp [State.engineDone]

@[simp] theorem State.setCkpt_quiet (s : State) (r : Fin 16) (c : Ckpt) : Quiet s (s.setCkpt r c) := by simp [State.setCkpt]

@[simp] theorem State.ckptCompare_quiet (s : State) (r : Fin 16) (bad : CvuUpset) : Quiet s (s.ckptCompare r bad) := by
  unfold State.ckptCompare
  (repeat' split) <;> simp

@[simp] theorem State.passOver_quiet (r : Fin 16) (o : FaultOutcome) (s : State) (f : Ckpt × Nat) : Quiet s (State.passOver r o s f) := by
  simp [State.passOver]

@[simp] theorem State.noCkpt_quiet (s : State) (r : Fin 16) (q : Nat) : Quiet s (s.noCkpt r q) := by simp [State.noCkpt]
@[simp] theorem State.restart_quiet (s : State) (r : Fin 16) (c : Ckpt) (q : Nat) : Quiet s (s.restart r c q) := by simp [State.restart]

@[simp] theorem State.squashRow_quiet (s : State) (r : Fin 16) (q : SquashReq) : Quiet s (s.squashRow r q) := by
  unfold State.squashRow
  dsimp only
  (repeat' split) <;> simp

@[simp] theorem State.applySquash_quiet (s : State) (r : Fin 16) : Quiet s (s.applySquash r) := by
  unfold State.applySquash
  split <;> simp

/-! ### Strobes and their readback (14) -/

@[simp] theorem State.strobeEvent_quiet (s : State) (r : Fin 16) (line kind cls : Nat) (offset : Int) (width : Nat) :
    Quiet s (s.strobeEvent r line kind cls offset width) := by
  simp [State.strobeEvent]

@[simp] theorem State.strobeFault_quiet (s : State) (r : Fin 16) (line kind : Nat) (mark : Option Nat) (offset : Int) (width : Nat) :
    Quiet s (s.strobeFault r line kind mark offset width) := by
  unfold State.strobeFault
  dsimp only
  (repeat' split) <;> simp

@[simp] theorem State.strobeClean_quiet (s : State) (r : Fin 16) (line : Nat) : Quiet s (s.strobeClean r line) := by
  unfold State.strobeClean
  split <;> simp

@[simp] theorem State.strobeExtra_quiet (s : State) (r : Fin 16) (offset : Int) (width : Nat) : Quiet s (s.strobeExtra r offset width) := by
  unfold State.strobeExtra
  split <;> simp

@[simp] theorem State.judged_quiet (s : State) (r : Fin 16) (p : Pulse) : Quiet s (s.judged r p) := by simp [State.judged]

@[simp] theorem State.readback_quiet (s : State) (r : Fin 16) (e : PadEdge) : Quiet s (s.readback r e) := by
  unfold State.readback
  dsimp only
  (repeat' split) <;> simp

/-! ### Correction transactions (08) -/

@[simp] theorem State.dropGroup_quiet (s : State) (g : Group) : Quiet s (s.dropGroup g) := by simp [State.dropGroup]
@[simp] theorem State.voteOn_quiet (s : State) (m : PrepareMsg) : Quiet s (s.voteOn m).1 := by simp [State.voteOn]

@[simp] theorem State.txnCommitted_quiet (s : State) (g : Group) (o : Option Origin) : Quiet s (s.txnCommitted g o) := by
  simp [State.txnCommitted]

@[simp] theorem State.sendDecision_quiet (s : State) (group : BitVec 32) (commit : Bool) : Quiet s (s.sendDecision group commit) := by
  simp [State.sendDecision]

@[simp] theorem State.decideTxn_quiet (s : State) (c : Coordination) (commit : Bool) (detail : Nat) :
    Quiet s (s.decideTxn c commit detail) := by
  unfold State.decideTxn
  dsimp only
  (repeat' split) <;> simp

@[simp] theorem State.prepareBack_quiet (s : State) (c : Coordination) (m : PrepareMsg) : Quiet s (s.prepareBack c m) := by
  simp [State.prepareBack]

@[simp] theorem State.startPrepare_quiet (s : State) (g : Group) (line : Nat) (o : Origin) : Quiet s (s.startPrepare g line o) := by
  simp [State.startPrepare]

@[simp] theorem State.takePrepare_quiet (s : State) (m : PrepareMsg) : Quiet s (s.takePrepare m) := by
  unfold State.takePrepare
  split
  · (repeat' split) <;> simp
  · simp

@[simp] theorem State.takeDecision_quiet (s : State) (h : ChainHdr) (group : BitVec 32) (commit : Bool) :
    Quiet s (s.takeDecision h group commit) := by
  unfold State.takeDecision
  dsimp only
  (repeat' split) <;> simp

@[simp] theorem State.sendAnswer_quiet (s : State) (src dst : Nat) (group : BitVec 32) (st : TxnAnswerState) :
    Quiet s (s.sendAnswer src dst group st) := by
  simp [State.sendAnswer]

@[simp] theorem State.takeQuery_quiet (s : State) (h : ChainHdr) (group : BitVec 32) : Quiet s (s.takeQuery h group) := by
  simp [State.takeQuery]

@[simp] theorem State.takeAnswer_quiet (s : State) (src : Fin 16) (group : BitVec 32) (st : TxnAnswerState) :
    Quiet s (s.takeAnswer src group st) := by
  unfold State.takeAnswer
  (repeat' split) <;> simp

/-! ### Encoder edges and marks (02) -/

@[simp] theorem State.countEdge_quiet (s : State) (a b : Bool) (d0 : Int) : Quiet s (s.countEdge a b d0) := by
  simp -implicitDefEqProofs [State.countEdge]

@[simp] theorem State.edge_quiet (s : State) (a b : Bool) : Quiet s (s.edge a b) := by
  unfold State.edge
  (repeat' split) <;> simp

@[simp] theorem State.markEvent_quiet (s : State) (edge : Nat) : Quiet s (s.markEvent edge) := by simp [State.markEvent]

@[simp] theorem State.overspeedPost_quiet (s : State) (r : Fin 16) : Quiet s (s.overspeedPost r) := by
  unfold State.overspeedPost
  dsimp only
  (repeat' split) <;> simp

/-! ### The start of a request (17) -/

@[simp] theorem State.takeRequest_quiet (s : State) (m : Fin 8) : Quiet s (s.takeRequest m) := by simp [State.takeRequest]

end Sys2Proof.Machine
end

section
/-! PROOF. What waits, what time it is and what has been fired, part three: line starts, transfers and power, and the commands of the mailboxes
(17 R431). -/

namespace Sys2Proof.Machine

/-! ### How a request is served (17 R420 to R427) -/

@[simp] theorem checks_quiet {s : State} {l : List (Bool × Status)} {k : Unit → Ans} (hk : Quiet s (k ()).state) : Quiet s (checks s l k).state := by
  induction l with
  | nil => exact hk
  | cons c l ih =>
    rw [checks_cons]
    split
    · exact .refl s
    · exact ih

@[simp] theorem Ans.deliver_quiet (a : Ans) (q : Req) (opcode : Nat) : Quiet a.state (a.deliver q opcode) := by
  unfold Ans.deliver
  (repeat' split) <;> simp

/-- A command that neither adds to the queue nor lets time pass nor fires, whatever the request asks. -/
def Cmd.IsQuiet (c : Cmd) : Prop := ∀ q s, Quiet s (c.run q s).state

theorem Cmd.execute_quiet {c : Cmd} (hc : c.IsQuiet) (q : Req) (s : State) : Quiet s (c.execute q s) := by
  have hrun : Quiet s (c.run q (s.start q c.opcode)).state := (s.start_quiet q c.opcode).trans (hc q _)
  unfold Cmd.execute Cmd.answer
  refine .trans ?_ (Ans.deliver_quiet _ q c.opcode)
  split
  · exact s.start_quiet q c.opcode
  · split
    · exact s.start_quiet q c.opcode
    · exact hrun

theorem serve_quiet {c : Cmd} (hc : c.IsQuiet) (q : Req) (s : State) : Quiet s (serve c q s) := by
  unfold serve
  split
  · exact c.execute_quiet hc q s
  · (repeat' split) <;> exact s.deliver_quiet _ _

/-! ### Answers of several commands -/

@[simp] theorem State.wakeConns_quiet (s : State) (o : Origin) (named : Nat) : Quiet s (s.wakeConns o named).state := by
  simp [State.wakeConns]

@[simp] theorem State.sleepConns_quiet (s : State) (o : Origin) (named : Nat) : Quiet s (s.sleepConns o named).state := by
  simp [State.sleepConns]

@[simp] theorem State.loadMembers_quiet (s : State) (g : Group) (ms : List (Member × Nat)) : Quiet s (s.loadMembers g ms).state := by
  simp [State.loadMembers]

@[simp] theorem Ans.loadFail_quiet (s : State) (e : LoadError) : Quiet s (Ans.loadFail s e).state := by simp [Ans.loadFail]

@[simp] theorem definePanel_quiet (slot : Fin 4096) (src : Nat) (s : State) : Quiet s (definePanel slot src s).state := by
  unfold definePanel
  split <;> simp

@[simp] theorem State.addMember_quiet (s : State) (g : Group) (ty length : Nat) (body : List Byte) :
    Quiet s (s.addMember g ty length body).state := by
  unfold State.addMember
  (repeat' split) <;> simp

theorem boundaryAns_quiet {s : State} {r : Except (Status × Nat) (State × Nat)} (hplaced : ∀ t l, r = .ok (t, l) → Quiet s t) :
    Quiet s (boundaryAns s r).state := by
  unfold boundaryAns
  split
  next t l => exact hplaced t l rfl
  next => exact .refl s

theorem State.namedGroup_quiet {s : State} {k : Group → Ans} (hk : ∀ g, Quiet s (k g).state) (q : Req) (bad : Bool) :
    Quiet s (s.namedGroup q bad k).state := by
  unfold State.namedGroup
  (repeat' split) <;> simp [hk]

theorem sealAns_quiet {r : State × Option (Status × Nat)} {k : State → Ans} (hk : ∀ s, Quiet s (k s).state) :
    Quiet r.1 (sealAns r k).state := by
  unfold sealAns
  split <;> simp [hk]

@[simp] theorem State.commitLocal_quiet (s : State) (g : Group) (n : Gen) (asap : Bool) (line : Nat) :
    Quiet s (s.commitLocal g n asap line).state := by
  unfold State.commitLocal
  dsimp only
  (repeat' split) <;> simp

@[simp] theorem State.commitSealed_quiet (s : State) (id : BitVec 32) (o : Origin) (asap : Bool) (line : Nat) :
    Quiet s (s.commitSealed id o asap line).state := by
  unfold State.commitSealed
  split <;> simp

/-! ### Boundaries of a job (18 R458, R459) -/

theorem State.placePause_quiet {s t : State} {nextInstance : Bool} {line l : Nat} (h : s.placePause nextInstance line = .ok (t, l)) :
    Quiet s t := by
  unfold State.placePause at h
  (repeat' split at h) <;> simp only [reduceCtorEq, Except.ok.injEq, Prod.mk.injEq] at h
  simp [← h.1]

theorem State.placeResume_quiet {s t : State} {nextInstance : Bool} {line l : Nat} (h : s.placeResume nextInstance line = .ok (t, l)) :
    Quiet s t := by
  unfold State.placeResume at h
  (repeat' split at h) <;> simp only [reduceCtorEq, Except.ok.injEq, Prod.mk.injEq] at h
  all_goals simp [← h.1]

theorem State.cancelPause_quiet {s t : State} {l : Nat} (h : s.cancelPause = .ok (t, l)) : Quiet s t := by
  unfold State.cancelPause at h
  (repeat' split at h) <;> simp only [reduceCtorEq, Except.ok.injEq, Prod.mk.injEq] at h
  simp [← h.1]

theorem State.peBoundary_quiet {s : State} {r : Except (Status × Nat) (State × Nat)} (action : Nat)
    (hplaced : ∀ t l, r = .ok (t, l) → Quiet s t) : Quiet s (s.peBoundary action r) := by
  unfold State.peBoundary
  split
  next t l => exact (hplaced t l rfl).trans (by simp)
  next => simp

/-! ### Captures, line starts and the origin latch (11 R270; 02 R39, R41) -/

@[simp] theorem State.memWrite_quiet (s : State) (a : Nat) (p : List Byte) : Quiet s (s.memWrite a p) := .refl s

@[simp] theorem State.capture_quiet (s : State) (r : Fin 16) (n status strobeNs : Nat) : Quiet s (s.capture r n status strobeNs) := by
  unfold State.capture
  dsimp only
  (repeat' split) <;> simp

@[simp] theorem State.recapture_quiet (s : State) (r : Fin 16) (n : Nat) : Quiet s (s.recapture r n) := by
  unfold State.recapture
  split <;> simp

@[simp] theorem State.decide_quiet (s : State) (r : Fin 16) (n : Nat) (fate : Fate) : Quiet s (s.decide_ r n fate) := by
  unfold State.decide_
  dsimp only
  split <;> simp

@[simp] theorem State.startLine_quiet (s : State) (r : Fin 16) (late : Bool) : Quiet s (s.startLine r late) := by simp [State.startLine]

@[simp] theorem State.lateStarts_quiet (k : Nat) (s : State) (r : Fin 16) : Quiet s (State.lateStarts k s r) := by
  induction k generalizing s with
  | zero => exact .refl s
  | succ k ih =>
    unfold State.lateStarts
    split
    · exact (s.startLine_quiet r true).trans (ih _)
    · exact .refl s

@[simp] theorem State.latch_quiet (s : State) (at_ : Int) (time : Nat) : Quiet s (s.latch at_ time) := by simp [State.latch]

@[simp] theorem State.cancelPulse_quiet (s : State) (r : Fin 16) (p : Pulse) (cause : Byte) : Quiet s (s.cancelPulse r p cause) := by
  simp [State.cancelPulse]

@[simp] theorem State.peEdge_quiet (s : State) : Quiet s s.peEdge := by
  have hpause : Quiet s (s.peBoundary 2 (s.placePause true 0)) := State.peBoundary_quiet _ fun _ _ => State.placePause_quiet
  have hresume : Quiet s (s.peBoundary 3 (s.placeResume true 0)) := State.peBoundary_quiet _ fun _ _ => State.placeResume_quiet
  have hcancel : Quiet s (s.peBoundary 4 s.cancelPause) := State.peBoundary_quiet _ fun _ _ => State.cancelPause_quiet
  unfold State.peEdge
  dsimp only
  (repeat' split) <;> simp [hpause, hresume, hcancel]

@[simp] theorem State.zPulse_quiet (s : State) : Quiet s s.zPulse := by
  unfold State.zPulse
  split
  · exact .refl s
  · extract_lets _ s1 s2
    have h2 : Quiet s s2 := by
      unfold s2
      (repeat' split) <;> simp [s1]
    split
    · exact h2.trans (s2.latch_quiet ..)
    · exact h2

@[simp] theorem State.markRise_quiet (s : State) (edge : Nat) : Quiet s (s.markRise edge) := by
  unfold State.markRise
  (repeat' split) <;> simp

/-! ### Transfers and the aperture (19 R477, R487) -/

@[simp] theorem State.moveChunk_quiet (s : State) (c : Fin 48) (off : Nat) (p : List Byte) : Quiet s (s.moveChunk c off p) := by
  simp [State.moveChunk, Claims.isStrobe]

@[simp] theorem State.readDone_quiet (s : State) (c : Fin 48) (data : List Byte) (ok : Bool) : Quiet s (s.readDone c data ok) := by
  unfold State.readDone
  dsimp only
  (repeat' split) <;> simp

@[simp] theorem State.apertureWrite_quiet (s : State) (off : Nat) (p : List Byte) : Quiet s (s.apertureWrite off p) := by
  simp [State.apertureWrite]

/-! ### The contents of domains, and boot (21 R534; 22 R545; 26 R605, R606) -/

@[simp] theorem State.resetDomain_quiet (s : State) (d : Fin 12) : Quiet s (s.resetDomain d) := by
  unfold State.resetDomain
  split <;> simp

@[simp] theorem State.downOne_quiet (s : State) (d : Fin 12) : Quiet s (s.downOne d) := by simp [State.downOne]
@[simp] theorem State.powerDown_quiet (s : State) (d : Fin 12) : Quiet s (s.powerDown d) := by simp [State.powerDown]
@[simp] theorem State.standbyDown_quiet (s : State) : Quiet s s.standbyDown := by simp [State.standbyDown]
@[simp] theorem State.criticalStop_quiet (s : State) : Quiet s s.criticalStop := by simp [State.criticalStop]

@[simp] theorem State.mainRail_quiet (s : State) (cause : RailCause) (delay : Nat) : Quiet s (s.mainRail cause delay) := by
  simp [State.mainRail]

@[simp] theorem State.sideRail_quiet (s : State) (d : Fin 12) (cause : RailCause) : Quiet s (s.sideRail d cause) := by
  simp [State.sideRail]

@[simp] theorem State.criticalDown_quiet (s : State) : Quiet s s.criticalDown := by simp [State.criticalDown]

@[simp] theorem State.selfTested_quiet (s : State) (stuck : List (Nat × Nat)) (unusable : List Nat) :
    Quiet s (s.selfTested stuck unusable) := by
  simp [State.selfTested]

@[simp] theorem State.bootStage_quiet (s : State) (r : BootResult) : Quiet s (s.bootStage r) := by
  unfold State.bootStage
  split <;> simp

/-! ### The commands of the index (R431) -/

@[simp] theorem cmdClockStatus_quiet : cmdClockStatus.IsQuiet := fun q s => by simp [cmdClockStatus]
@[simp] theorem cmdLogStatus_quiet : cmdLogStatus.IsQuiet := fun q s => by simp [cmdLogStatus]
@[simp] theorem cmdPowerStatus_quiet : cmdPowerStatus.IsQuiet := fun q s => by simp [cmdPowerStatus]
@[simp] theorem cmdThermalConfig_quiet : cmdThermalConfig.IsQuiet := fun q s => by simp [cmdThermalConfig]
@[simp] theorem cmdCodecConfig_quiet : cmdCodecConfig.IsQuiet := fun q s => by simp [cmdCodecConfig]
@[simp] theorem cmdCodecStatus_quiet : cmdCodecStatus.IsQuiet := fun q s => by simp [cmdCodecStatus]
@[simp] theorem cmdCodecCheck_quiet : cmdCodecCheck.IsQuiet := fun q s => by simp [cmdCodecCheck]

@[simp] theorem cmdTileStage_quiet : cmdTileStage.IsQuiet := by
  intro q s
  unfold cmdTileStage
  dsimp only
  (repeat' split) <;> simp -implicitDefEqProofs

@[simp] theorem cmdTileFree_quiet : cmdTileFree.IsQuiet := by
  intro q s
  unfold cmdTileFree
  dsimp only
  (repeat' split) <;> simp -implicitDefEqProofs

@[simp] theorem cmdTileInfo_quiet : cmdTileInfo.IsQuiet := fun q s => by simp [cmdTileInfo]
@[simp] theorem cmdListStage_quiet : cmdListStage.IsQuiet := fun q s => by simp [cmdListStage]
@[simp] theorem cmdListFree_quiet : cmdListFree.IsQuiet := fun q s => by simp [cmdListFree]
@[simp] theorem cmdProofCapture_quiet : cmdProofCapture.IsQuiet := fun q s => by simp [cmdProofCapture]
@[simp] theorem cmdProofCancel_quiet : cmdProofCancel.IsQuiet := fun q s => by simp [cmdProofCancel]
@[simp] theorem cmdHamperStatus_quiet : cmdHamperStatus.IsQuiet := fun q s => by simp [cmdHamperStatus]
@[simp] theorem cmdLinkControl_quiet : cmdLinkControl.IsQuiet := fun q s => by simp [cmdLinkControl]
@[simp] theorem cmdLaneConfig_quiet : cmdLaneConfig.IsQuiet := fun q s => by simp -implicitDefEqProofs [cmdLaneConfig]
@[simp] theorem cmdLaneStatus_quiet : cmdLaneStatus.IsQuiet := fun q s => by simp [cmdLaneStatus]
@[simp] theorem cmdLaneTest_quiet : cmdLaneTest.IsQuiet := fun q s => by simp [cmdLaneTest]
@[simp] theorem cmdLaneTestRead_quiet : cmdLaneTestRead.IsQuiet := fun q s => by simp [cmdLaneTestRead]
@[simp] theorem cmdMemStatus_quiet : cmdMemStatus.IsQuiet := fun q s => by simp [cmdMemStatus]
@[simp] theorem cmdMemConfig_quiet : cmdMemConfig.IsQuiet := fun q s => by simp [cmdMemConfig]
@[simp] theorem cmdMemInject_quiet : cmdMemInject.IsQuiet := fun q s => by simp [cmdMemInject]
@[simp] theorem cmdCalStatus_quiet : cmdCalStatus.IsQuiet := fun q s => by simp [cmdCalStatus]
@[simp] theorem cmdCalLimits_quiet : cmdCalLimits.IsQuiet := fun q s => by simp [cmdCalLimits]

@[simp] theorem cmdCalTrim_quiet : cmdCalTrim.IsQuiet := by
  intro q s
  refine checks_quiet ?_
  dsimp only
  split <;> simp

@[simp] theorem cmdCalChart_quiet : cmdCalChart.IsQuiet := by
  intro q s
  refine checks_quiet ?_
  dsimp only
  split <;> simp

@[simp] theorem cmdCalAlignLoad_quiet : cmdCalAlignLoad.IsQuiet := by
  intro q s
  refine checks_quiet ?_
  dsimp only
  (repeat' split) <;> simp

@[simp] theorem cmdChainStatus_quiet : cmdChainStatus.IsQuiet := fun q s => by simp [cmdChainStatus]
@[simp] theorem cmdChainEnumerate_quiet : cmdChainEnumerate.IsQuiet := fun q s => by simp [cmdChainEnumerate]
@[simp] theorem cmdChainConfig_quiet : cmdChainConfig.IsQuiet := fun q s => by simp [cmdChainConfig]
@[simp] theorem cmdChainForward_quiet : cmdChainForward.IsQuiet := fun q s => by simp [cmdChainForward]
@[simp] theorem cmdChainLink_quiet : cmdChainLink.IsQuiet := fun q s => by simp [cmdChainLink]
@[simp] theorem cmdCheckConfig_quiet : cmdCheckConfig.IsQuiet := fun q s => by simp [cmdCheckConfig]
@[simp] theorem cmdCheckInject_quiet : cmdCheckInject.IsQuiet := fun q s => by simp [cmdCheckInject]
@[simp] theorem cmdCheckStatus_quiet : cmdCheckStatus.IsQuiet := fun q s => by simp [cmdCheckStatus]
@[simp] theorem cmdFwStatus_quiet : cmdFwStatus.IsQuiet := fun q s => by simp [cmdFwStatus]
@[simp] theorem cmdFwUpdateBegin_quiet : cmdFwUpdateBegin.IsQuiet := fun q s => by simp [cmdFwUpdateBegin]

@[simp] theorem cmdFwUpdateData_quiet : cmdFwUpdateData.IsQuiet := by
  intro q s
  unfold cmdFwUpdateData
  dsimp only
  (repeat' split) <;> simp

@[simp] theorem cmdFwUpdateCommit_quiet : cmdFwUpdateCommit.IsQuiet := by
  intro q s
  unfold cmdFwUpdateCommit
  dsimp only
  (repeat' split) <;> simp -implicitDefEqProofs

@[simp] theorem cmdHeadDriverInfo_quiet : cmdHeadDriverInfo.IsQuiet := fun q s => by simp [cmdHeadDriverInfo]
@[simp] theorem cmdHeadTunnel_quiet : cmdHeadTunnel.IsQuiet := fun q s => by simp [cmdHeadTunnel]
@[simp] theorem cmdHacConfig_quiet : cmdHacConfig.IsQuiet := fun q s => by simp [cmdHacConfig]
@[simp] theorem cmdHeadAuthStatus_quiet : cmdHeadAuthStatus.IsQuiet := fun q s => by simp [cmdHeadAuthStatus]
@[simp] theorem cmdHeadUsage_quiet : cmdHeadUsage.IsQuiet := fun q s => by simp [cmdHeadUsage]
@[simp] theorem cmdUsageCommitNow_quiet : cmdUsageCommitNow.IsQuiet := fun q s => by simp -implicitDefEqProofs [cmdUsageCommitNow]
@[simp] theorem cmdPlaneDefine_quiet : cmdPlaneDefine.IsQuiet := fun q s => by simp [cmdPlaneDefine]
@[simp] theorem cmdRowDefine_quiet : cmdRowDefine.IsQuiet := fun q s => by simp [cmdRowDefine]
@[simp] theorem cmdPanelDefine_quiet : cmdPanelDefine.IsQuiet := fun q s => by simp [cmdPanelDefine]

@[simp] theorem cmdJobDefine_quiet : cmdJobDefine.IsQuiet := by
  intro q s
  refine checks_quiet ?_
  dsimp only
  split <;> simp

@[simp] theorem cmdJobClear_quiet : cmdJobClear.IsQuiet := fun q s => by simp [cmdJobClear]

@[simp] theorem cmdJobArm_quiet : cmdJobArm.IsQuiet := by
  intro q s
  unfold cmdJobArm
  dsimp only
  (repeat' split) <;> simp -implicitDefEqProofs

@[simp] theorem cmdJobPause_quiet : cmdJobPause.IsQuiet :=
  fun _ _ => checks_quiet (boundaryAns_quiet fun _ _ => State.placePause_quiet)

@[simp] theorem cmdJobResume_quiet : cmdJobResume.IsQuiet := by
  refine fun q s => checks_quiet (boundaryAns_quiet fun t l hplaced => ?_)
  split at hplaced
  · exact State.cancelPause_quiet hplaced
  · exact State.placeResume_quiet hplaced

@[simp] theorem cmdJobStop_quiet : cmdJobStop.IsQuiet := by
  intro q s
  unfold cmdJobStop
  dsimp only
  (repeat' split) <;> simp -implicitDefEqProofs

@[simp] theorem cmdJobStatus_quiet : cmdJobStatus.IsQuiet := fun q s => by simp [cmdJobStatus]
@[simp] theorem cmdScreenPlane_quiet : cmdScreenPlane.IsQuiet := fun q s => by simp [cmdScreenPlane]
@[simp] theorem cmdScreenMatrix_quiet : cmdScreenMatrix.IsQuiet := fun q s => by simp [cmdScreenMatrix]
@[simp] theorem cmdHistSet_quiet : cmdHistSet.IsQuiet := fun q s => by simp [cmdHistSet]
@[simp] theorem cmdHistRow_quiet : cmdHistRow.IsQuiet := fun q s => by simp [cmdHistRow]
@[simp] theorem cmdMgmtJobStop_quiet : cmdMgmtJobStop.IsQuiet := fun q s => by simp [cmdMgmtJobStop]
@[simp] theorem cmdMgmtDomains_quiet : cmdMgmtDomains.IsQuiet := fun q s => by simp [cmdMgmtDomains]
@[simp] theorem cmdRecoveryBegin_quiet : cmdRecoveryBegin.IsQuiet := fun q s => by simp [cmdRecoveryBegin]

@[simp] theorem cmdRecoveryData_quiet : cmdRecoveryData.IsQuiet := by
  intro q s
  unfold cmdRecoveryData
  dsimp only
  (repeat' split) <;> simp -implicitDefEqProofs

@[simp] theorem cmdRecoveryCommit_quiet : cmdRecoveryCommit.IsQuiet := by
  intro q s
  unfold cmdRecoveryCommit
  dsimp only
  (repeat' split) <;> simp -implicitDefEqProofs

@[simp] theorem cmdDrivePortConfig_quiet : cmdDrivePortConfig.IsQuiet := fun q s => by simp [cmdDrivePortConfig]
@[simp] theorem cmdAxisConfig_quiet : cmdAxisConfig.IsQuiet := fun q s => by simp -implicitDefEqProofs [cmdAxisConfig]
@[simp] theorem cmdAxisEnable_quiet : cmdAxisEnable.IsQuiet := fun q s => by simp [cmdAxisEnable]

@[simp] theorem cmdAxisMotion_quiet : cmdAxisMotion.IsQuiet := by
  intro q s
  refine checks_quiet ?_
  dsimp only
  split <;> simp

@[simp] theorem cmdAxisGear_quiet : cmdAxisGear.IsQuiet := fun q s => by simp [cmdAxisGear]
@[simp] theorem cmdAxisHome_quiet : cmdAxisHome.IsQuiet := fun q s => by simp [cmdAxisHome]
@[simp] theorem cmdAxisLimits_quiet : cmdAxisLimits.IsQuiet := fun q s => by simp -implicitDefEqProofs [cmdAxisLimits]
@[simp] theorem cmdAxisStatus_quiet : cmdAxisStatus.IsQuiet := fun q s => by simp [cmdAxisStatus]
@[simp] theorem cmdRunaheadConfig_quiet : cmdRunaheadConfig.IsQuiet := fun q s => by simp [cmdRunaheadConfig]
@[simp] theorem cmdRunaheadStatus_quiet : cmdRunaheadStatus.IsQuiet := fun q s => by simp [cmdRunaheadStatus]
@[simp] theorem cmdStrobeConfig_quiet : cmdStrobeConfig.IsQuiet := fun q s => by simp [cmdStrobeConfig]
@[simp] theorem cmdNop_quiet : cmdNop.IsQuiet := fun q s => by simp [cmdNop]
@[simp] theorem cmdModuleInfo_quiet : cmdModuleInfo.IsQuiet := fun q s => by simp [cmdModuleInfo]
@[simp] theorem cmdEventRoute_quiet : cmdEventRoute.IsQuiet := fun q s => by simp [cmdEventRoute]
@[simp] theorem cmdModuleReset_quiet : cmdModuleReset.IsQuiet := fun q s => by simp [cmdModuleReset]
@[simp] theorem cmdTxnOpen_quiet : cmdTxnOpen.IsQuiet := fun q s => by simp [cmdTxnOpen]

@[simp] theorem cmdTxnAdd_quiet : cmdTxnAdd.IsQuiet := by
  intro q s
  unfold cmdTxnAdd
  dsimp only
  (repeat' split) <;> simp -implicitDefEqProofs

@[simp] theorem cmdTxnSeal_quiet : cmdTxnSeal.IsQuiet := by
  refine fun q s => State.namedGroup_quiet (fun g => ?_) q _
  split
  · exact .refl s
  · exact .trans (by simp) (sealAns_quiet fun s => .refl s)

@[simp] theorem cmdTxnDiscard_quiet : cmdTxnDiscard.IsQuiet := by
  intro q s
  unfold cmdTxnDiscard
  dsimp only
  (repeat' split) <;> simp

@[simp] theorem cmdTxnStatus_quiet : cmdTxnStatus.IsQuiet := fun q s => by simp [cmdTxnStatus]

@[simp] theorem cmdTxnCommit_quiet : cmdTxnCommit.IsQuiet := by
  refine fun q s => State.namedGroup_quiet (fun g => checks_quiet ?_) q _
  exact .trans (by simp) (sealAns_quiet fun s => s.commitSealed_quiet ..)

@[simp] theorem cmdWebConfig_quiet : cmdWebConfig.IsQuiet := fun q s => by simp [cmdWebConfig]
@[simp] theorem cmdRowGeometry_quiet : cmdRowGeometry.IsQuiet := fun q s => by simp -implicitDefEqProofs [cmdRowGeometry]
@[simp] theorem cmdWebStatus_quiet : cmdWebStatus.IsQuiet := fun q s => by simp [cmdWebStatus]

@[simp] theorem cmdJobStart_quiet : cmdJobStart.IsQuiet := by
  refine fun q s => checks_quiet ?_
  dsimp only
  split <;> simp

@[simp] theorem cmdLogRead_quiet : cmdLogRead.IsQuiet := by
  refine fun q s => checks_quiet ?_
  dsimp only
  split <;> simp

@[simp] theorem cmdAnswers_quiet (opcode : Nat) (st : Status) : (cmdAnswers opcode st).IsQuiet := fun _ s => .refl s

theorem index_quiet : ∀ c ∈ indexSystem ++ indexJob ++ indexLink, c.IsQuiet := by
  simp only [List.mem_append]
  rintro c ((h | h) | h)
  · exact (show ∀ c ∈ indexSystem, c.IsQuiet by simp [indexSystem]) c h
  · exact (show ∀ c ∈ indexJob, c.IsQuiet by simp [indexJob]) c h
  · exact (show ∀ c ∈ indexLink, c.IsQuiet by simp [indexLink]) c h

theorem State.commandFor_quiet (s : State) (opcode : Nat) : (s.commandFor opcode).IsQuiet := by
  unfold State.commandFor
  split
  · exact cmdAnswers_quiet _ _
  next c hfound =>
    split
    · exact cmdAnswers_quiet _ _
    · exact index_quiet c (List.mem_of_find?_eq_some hfound)

@[simp] theorem State.startNext_quiet (s : State) : Quiet s s.startNext := by
  unfold State.startNext
  split
  · exact .refl s
  · split
    · exact .refl s
    · exact .trans (by simp) (serve_quiet (s.commandFor_quiet _) _ _)

end Sys2Proof.Machine
end

section
/-! PROOF. What waits, what time it is and what has been fired, part four: every command (01 R23). All but a power-on and FIRE_STROBE leave the
queue and the strobes as they are and take no time back; with what those two do that settles O2, O6, O7 and O34. -/

namespace Sys2Proof.Machine

theorem State.chartStage_quiet {s t : State} {c : Chart} {n i h : Nat} (hstaged : s.chartStage c n i = some (t, h)) : Quiet s t := by
  unfold State.chartStage at hstaged
  dsimp only at hstaged
  split at hstaged
  · exact absurd hstaged (Option.some_ne_none _).symm
  · split at hstaged
    · exact absurd hstaged (Option.some_ne_none _).symm
    · split at hstaged
      · exact absurd hstaged (Option.some_ne_none _).symm
      · obtain ⟨rfl, -⟩ := Prod.mk.inj (Option.some.inj hstaged)
        exact .refl s

theorem State.chartRows_quiet {s t : State} {c : Chart} {n i : Nat} {rows : List (Fin 16)} {lists : List (Nat × Nat)}
    (hrows : s.chartRows c n i rows = some (t, lists)) : Quiet s t := by
  induction rows generalizing s i lists with
  | nil =>
    obtain ⟨rfl, -⟩ := Prod.mk.inj (Option.some.inj hrows)
    exact .refl s
  | cons r rows ih =>
    unfold State.chartRows at hrows
    split at hrows
    · exact absurd hrows (Option.some_ne_none _).symm
    next s1 h hstaged =>
      obtain ⟨⟨t', lists'⟩, hrest, heq⟩ := Option.map_eq_some_iff.1 hrows
      obtain ⟨rfl, -⟩ := Prod.mk.inj heq
      exact (State.chartStage_quiet hstaged).trans (ih hrest)

/-- A next state whose queue is as it was, whose time has not gone back and whose strobes were there before. -/
def Quietly (s : State) : Host.Outcome State Fault Refusal → Prop
  | .next u => u.pending = s.pending ∧ s.aon ≤ u.aon ∧ u.wires.filter Claims.isStrobe = s.wires.filter Claims.isStrobe
  | _ => False

@[simp] theorem quietly_next (s u : State) :
    Quietly s (.next u) ↔
      u.pending = s.pending ∧ s.aon ≤ u.aon ∧ u.wires.filter Claims.isStrobe = s.wires.filter Claims.isStrobe := Iff.rfl

@[simp] theorem quietly_ite (s : State) (c : Prop) [Decidable c] (a b : Host.Outcome State Fault Refusal) :
    Quietly s (if c then a else b) ↔ if c then Quietly s a else Quietly s b := by
  split <;> rfl

theorem Quiet.quietly {s u : State} (h : Quiet s u) : Quietly s (.next u) := ⟨h.1, h.2.1.ge, h.2.2⟩

/-- Time passes, and then nothing else does. -/
theorem Quiet.quietly_at {s u : State} {t : Nat} (h : Quiet (s.at t) u) : Quietly s (.next u) :=
  ⟨h.1, (le_max_left _ _).trans h.2.1.ge, h.2.2⟩

theorem execReqTailWrite_quiet (m : Fin 4) (v : BitVec 32) (s : State) : Quietly s (execReqTailWrite m v s) := by
  simp [execReqTailWrite]

theorem execRplHeadWrite_quiet (m : Fin 4) (v : BitVec 32) (s : State) : Quietly s (execRplHeadWrite m v s) := by
  simp [execRplHeadWrite]

theorem execMbStatusClear_quiet (m : Fin 4) (v : BitVec 32) (s : State) : Quietly s (execMbStatusClear m v s) := by
  simp [execMbStatusClear]

theorem execGlobalFaultClear_quiet (v : BitVec 32) (s : State) : Quietly s (execGlobalFaultClear v s) := by
  simp [execGlobalFaultClear]

theorem execBdAssignWrite_quiet (v : BitVec 32) (s : State) : Quietly s (execBdAssignWrite v s) := by simp [execBdAssignWrite]
theorem execDrqSoftWrite_quiet (v : BitVec 32) (s : State) : Quietly s (execDrqSoftWrite v s) := by simp [execDrqSoftWrite]

theorem execBar2BaseWrite_quiet (part : Half) (v : BitVec 64) (s : State) : Quietly s (execBar2BaseWrite part v s) := by
  cases part <;> simp [execBar2BaseWrite]

theorem execGo_quiet (c : Fin 32) (v : BitVec 32) (s : State) : Quietly s (execGo c v s) := by simp [execGo]
theorem execAbort_quiet (c : Fin 32) (v : BitVec 32) (s : State) : Quietly s (execAbort c v s) := by simp [execAbort]

theorem execBdStatusClear_quiet (c : Fin 32) (v : BitVec 32) (s : State) : Quietly s (execBdStatusClear c v s) := by
  simp [execBdStatusClear]

theorem execQCtrlEnable_quiet (n : Fin 48) (v : BitVec 32) (s : State) : Quietly s (execQCtrlEnable n v s) := by
  simp [execQCtrlEnable]

theorem execQHeadWrite_quiet (n : Fin 48) (v : BitVec 32) (s : State) : Quietly s (execQHeadWrite n v s) := by
  simp [execQHeadWrite]

theorem execQStatusClear_quiet (n : Fin 48) (v : BitVec 32) (s : State) : Quietly s (execQStatusClear n v s) := by
  simp [execQStatusClear]

theorem execBar0RegisterWrite_quiet (off : BitVec 24) (size : Nat) (v : BitVec 64) (s : State) :
    Quietly s (execBar0RegisterWrite off size v s) := by
  simp [execBar0RegisterWrite]

theorem execBar0LowHalfRead_quiet (off : BitVec 24) (size : Nat) (s : State) : Quietly s (execBar0LowHalfRead off size s) := by
  simp [execBar0LowHalfRead]

theorem execBar2Read_quiet (off : BitVec 32) (len : Nat) (s : State) : Quietly s (execBar2Read off len s) := by
  simp [execBar2Read]

theorem execAlertStatusClear_quiet (data : List Byte) (pec : Bool) (s : State) : Quietly s (execAlertStatusClear data pec s) := by
  simp [execAlertStatusClear]

theorem execPwrCtrlWake_quiet (data : List Byte) (pec : Bool) (t : Nat) (s : State) :
    Quietly s (execPwrCtrlWake data pec t s) := by
  simp [execPwrCtrlWake]

theorem execMbCtrlGo_quiet (n : Fin 2) (data : List Byte) (pec : Bool) (s : State) : Quietly s (execMbCtrlGo n data pec s) := by
  simp [execMbCtrlGo]

theorem execMbCtrlPop_quiet (n : Fin 2) (data : List Byte) (pec : Bool) (s : State) : Quietly s (execMbCtrlPop n data pec s) := by
  simp [execMbCtrlPop]

theorem execMbCtrlClear_quiet (n : Fin 2) (data : List Byte) (pec : Bool) (s : State) :
    Quietly s (execMbCtrlClear n data pec s) := by
  simp [execMbCtrlClear]

theorem execMbReqWrite_quiet (n : Fin 2) (data : List Byte) (pec : Bool) (s : State) :
    Quietly s (execMbReqWrite n data pec s) := by
  simp [execMbReqWrite]

theorem execMbRplRead_quiet (n : Fin 2) (off : Byte) (s : State) : Quietly s (execMbRplRead n off s) := by simp [execMbRplRead, Claims.isStrobe]
theorem execAlertResponseRead_quiet (s : State) : Quietly s (execAlertResponseRead s) := by simp [execAlertResponseRead, Claims.isStrobe]

theorem execMgmtRegisterWrite_quiet (code : Byte) (data : List Byte) (pec : Bool) (s : State) :
    Quietly s (execMgmtRegisterWrite code data pec s) := by
  simp [execMgmtRegisterWrite]

theorem execSclTimeout_quiet (t : Nat) (s : State) : Quietly s (execSclTimeout t s) := by simp [execSclTimeout]

theorem execHeldReplyWrite_quiet (m : Fin 8) (s : State) : Quietly s (execHeldReplyWrite m s) := by
  unfold execHeldReplyWrite
  dsimp only
  split <;> simp

theorem execFinalReply_quiet (t : Nat) (s : State) : Quietly s (execFinalReply t s) := by
  unfold execFinalReply
  dsimp only
  (repeat' split) <;> simp

theorem execEventPost_quiet (t : Nat) (s : State) : Quietly s (execEventPost t s) := by
  unfold execEventPost
  dsimp only
  split <;> simp

theorem execEvqLost_quiet (n : Fin 16) (t : Nat) (s : State) : Quietly s (execEvqLost n t s) := by simp [execEvqLost]

theorem execQueueInterruptTimer_quiet (n : Fin 48) (t : Nat) (s : State) : Quietly s (execQueueInterruptTimer n t s) := by
  simp [execQueueInterruptTimer]

theorem execPerst_quiet (t : Nat) (s : State) : Quietly s (execPerst t s) := by simp [execPerst]
theorem execDrqPulse_quiet (line : Fin 64) (t : Nat) (s : State) : Quietly s (execDrqPulse line t s) := by simp [execDrqPulse]

theorem execDmaTransferDone_quiet (c : Fin 48) (t : Nat) (s : State) : Quietly s (execDmaTransferDone c t s) := by
  unfold execDmaTransferDone
  dsimp only
  split <;> simp

theorem execWaitCqRecord_quiet (c : Fin 32) (t : Nat) (s : State) : Quietly s (execWaitCqRecord c t s) := by
  unfold execWaitCqRecord
  dsimp only
  split <;> simp

theorem execMgmtResetN_quiet (level : Bool) (t : Nat) (s : State) : Quietly s (execMgmtResetN level t s) := by
  simp [execMgmtResetN]

theorem execModuleResetSequence_quiet (t : Nat) (s : State) : Quietly s (execModuleResetSequence t s) := by
  unfold execModuleResetSequence
  dsimp only
  split <;> simp

theorem execResetRelease_quiet (t : Nat) (s : State) : Quietly s (execResetRelease t s) := by
  unfold execResetRelease
  dsimp only
  split <;> simp

theorem execFwOperationDone_quiet (r : FwResult) (t : Nat) (s : State) : Quietly s (execFwOperationDone r t s) := by
  unfold execFwOperationDone
  dsimp only
  (repeat' split) <;> simp

theorem execFirmwareActivation_quiet (t : Nat) (s : State) : Quietly s (execFirmwareActivation t s) := by
  unfold execFirmwareActivation
  dsimp only
  split <;> simp

theorem execKettleFault_quiet (t : Nat) (s : State) : Quietly s (execKettleFault t s) := by simp [execKettleFault]
theorem execKettleWatchdog_quiet (t : Nat) (s : State) : Quietly s (execKettleWatchdog t s) := by simp [execKettleWatchdog]
theorem execThermosWatchdog_quiet (t : Nat) (s : State) : Quietly s (execThermosWatchdog t s) := by simp [execThermosWatchdog]

theorem execRepower_quiet (d : Fin 12) (mv t : Nat) (s : State) : Quietly s (execRepower d mv t s) := by
  unfold execRepower
  dsimp only
  split <;> simp

theorem execCrystalStart_quiet (x : Crystal) (t : Nat) (s : State) : Quietly s (execCrystalStart x t s) := by
  simp -implicitDefEqProofs [execCrystalStart]

theorem execCrystalStartLimit_quiet (x : Crystal) (t : Nat) (s : State) : Quietly s (execCrystalStartLimit x t s) := by
  simp -implicitDefEqProofs [execCrystalStartLimit]

theorem execClockLoss_quiet (src : ClockSource) (t : Nat) (s : State) : Quietly s (execClockLoss src t s) := by
  unfold execClockLoss
  dsimp only
  split <;> simp

theorem execPllLock_quiet (p : Fin 8) (t : Nat) (s : State) : Quietly s (execPllLock p t s) := by simp [execPllLock]

theorem execClockSwitch_quiet (d : Fin 13) (t : Nat) (s : State) : Quietly s (execClockSwitch d t s) := by
  unfold execClockSwitch
  dsimp only
  split <;> simp

theorem execSwitchHandshakeTimeout_quiet (d : Fin 13) (t : Nat) (s : State) : Quietly s (execSwitchHandshakeTimeout d t s) := by
  unfold execSwitchHandshakeTimeout
  dsimp only
  split <;> simp

theorem execNewClockTimeout_quiet (d : Fin 13) (t : Nat) (s : State) : Quietly s (execNewClockTimeout d t s) := by
  unfold execNewClockTimeout
  dsimp only
  split <;> simp

theorem execXbIncrementUpdate_quiet (xaCycles t : Nat) (s : State) : Quietly s (execXbIncrementUpdate xaCycles t s) := by
  simp [execXbIncrementUpdate]

theorem execTimeCopyReload_quiet (d : Fin 13) (t : Nat) (s : State) : Quietly s (execTimeCopyReload d t s) := by
  simp [execTimeCopyReload]

theorem execPeerInReset_quiet (d : Fin 13) (drops : Nat) (s : State) : Quietly s (execPeerInReset d drops s) := by
  simp [execPeerInReset]

theorem execCrossingReady_quiet (d : Fin 13) (s : State) : Quietly s (execCrossingReady d s) := by simp [execCrossingReady]

theorem execFioTrim_quiet (khz : Nat) (code : Byte) (ok : Bool) (t : Nat) (s : State) :
    Quietly s (execFioTrim khz code ok t s) := by
  simp -implicitDefEqProofs [execFioTrim]

theorem execSioTrim_quiet (hz : Nat) (code : Byte) (ok : Bool) (t : Nat) (s : State) :
    Quietly s (execSioTrim hz code ok t s) := by
  simp -implicitDefEqProofs [execSioTrim]

theorem execChartBuilt_quiet (ok : Bool) (t : Nat) (s : State) : Quietly s (execChartBuilt ok t s) := by
  unfold execChartBuilt
  dsimp only
  split
  · simp
  next c _ =>
    have hended : Quiet (s.at t) ((s.at t).chartEnd c) := by simp
    split
    · simp
    · split
      · simp
      · split
        · simp
        · split
          · simp
          next s3 lists hrows => simp [State.chartRows_quiet hrows]

theorem execMemRetrainDone_quiet (failed failedTwice : BitVec 32) (t : Nat) (s : State) :
    Quietly s (execMemRetrainDone failed failedTwice t s) := by
  simp [execMemRetrainDone]

theorem execEncoderEdge_quiet (a b : Bool) (t : Nat) (s : State) : Quietly s (execEncoderEdge a b t s) := by
  simp [execEncoderEdge]

theorem execLineFail_quiet (t : Nat) (s : State) : Quietly s (execLineFail t s) := by simp [execLineFail]
theorem execLineGood_quiet (t : Nat) (s : State) : Quietly s (execLineGood t s) := by simp -implicitDefEqProofs [execLineGood]

theorem execAccelerationCheck_quiet (t : Nat) (s : State) : Quietly s (execAccelerationCheck t s) := by
  simp [execAccelerationCheck]

theorem execStopTimeout_quiet (t : Nat) (s : State) : Quietly s (execStopTimeout t s) := by simp [execStopTimeout]
theorem execSpeedHigh_quiet (t : Nat) (s : State) : Quietly s (execSpeedHigh t s) := by simp [execSpeedHigh]

theorem execFireInhibit_quiet (level : Bool) (edge t : Nat) (s : State) : Quietly s (execFireInhibit level edge t s) := by
  simp [execFireInhibit]

theorem execRowStopped_quiet (r : Fin 16) (t : Nat) (s : State) : Quietly s (execRowStopped r t s) := by simp [execRowStopped]

theorem execRowDone_quiet (r : Fin 16) (t : Nat) (s : State) : Quietly s (execRowDone r t s) := by
  unfold execRowDone
  dsimp only
  split <;> simp

theorem execJobEnd_quiet (t : Nat) (s : State) : Quietly s (execJobEnd t s) := by simp [execJobEnd]

theorem execFaultStop_quiet (t : Nat) (s : State) : Quietly s (execFaultStop t s) := by
  unfold execFaultStop
  dsimp only
  (repeat' split) <;> simp

theorem execStrobeReadback_quiet (r : Fin 16) (e : PadEdge) (t : Nat) (s : State) : Quietly s (execStrobeReadback r e t s) := by
  simp [execStrobeReadback]

theorem execLsdOverspeed_quiet (r : Fin 16) (t : Nat) (s : State) : Quietly s (execLsdOverspeed r t s) := by
  simp [execLsdOverspeed]

theorem execArmingStep_quiet (t : Nat) (s : State) : Quietly s (execArmingStep t s) := by
  unfold execArmingStep
  dsimp only
  (repeat' split) <;> simp

theorem execRowReady_quiet (r : Fin 16) (t : Nat) (s : State) : Quietly s (execRowReady r t s) := by simp [execRowReady]

theorem execEngineLineDone_quiet (p : Pipe) (h : Fin 32) (u : Upset) (t : Nat) (s : State) :
    Quietly s (execEngineLineDone p h u t s) := by
  simp [execEngineLineDone]

theorem execCheckpointCompare_quiet (r : Fin 16) (bad : CvuUpset) (t : Nat) (s : State) :
    Quietly s (execCheckpointCompare r bad t s) := by
  simp [execCheckpointCompare]

theorem execLineCompare_quiet (h : Fin 32) (bad : CvuUpset) (t : Nat) (s : State) : Quietly s (execLineCompare h bad t s) := by
  simp [execLineCompare]

theorem execMissingTimeout_quiet (h : Fin 32) (bad : CvuUpset) (t : Nat) (s : State) :
    Quietly s (execMissingTimeout h bad t s) := by
  simp [execMissingTimeout]

theorem execCouplingTimeout_quiet (p : Pipe) (h : Fin 32) (waits : Nat) (bad : CvuUpset) (t : Nat) (s : State) :
    Quietly s (execCouplingTimeout p h waits bad t s) := by
  simp [execCouplingTimeout]

theorem execSquash_quiet (r : Fin 16) (t : Nat) (s : State) : Quietly s (execSquash r t s) := by simp [execSquash]

theorem execSpcReplayLate_quiet (r : Fin 16) (t : Nat) (s : State) : Quietly s (execSpcReplayLate r t s) := by
  simp [execSpcReplayLate]

theorem execSpcDry_quiet (r : Fin 16) (t : Nat) (s : State) : Quietly s (execSpcDry r t s) := by simp [execSpcDry]
theorem execPourRecheck_quiet (h : Fin 32) (t : Nat) (s : State) : Quietly s (execPourRecheck h t s) := by simp [execPourRecheck]

theorem execFrameSend_quiet (l : Fin 32) (upset : Upset) (cvuBad t : Nat) (s : State) :
    Quietly s (execFrameSend l upset cvuBad t s) := by
  simp [execFrameSend]

theorem execAck_quiet (l : Fin 32) (hdr : BitVec 2) (blk : BitVec 64) (t : Nat) (s : State) :
    Quietly s (execAck l hdr blk t s) := by
  simp [execAck]

theorem execAckTimeout_quiet (l : Fin 32) (t : Nat) (s : State) : Quietly s (execAckTimeout l t s) := by
  unfold execAckTimeout
  dsimp only
  split <;> simp

theorem execFlush_quiet (l : Fin 32) (t : Nat) (s : State) : Quietly s (execFlush l t s) := by
  unfold execFlush
  dsimp only
  split <;> simp

theorem execFlushTimeout_quiet (l : Fin 32) (t : Nat) (s : State) : Quietly s (execFlushTimeout l t s) := by
  unfold execFlushTimeout
  dsimp only
  split <;> simp

theorem execLaneTrainingBlock_quiet (l : Fin 34) (hdr : BitVec 2) (blk : BitVec 64) (t : Nat) (s : State) :
    Quietly s (execLaneTrainingBlock l hdr blk t s) := by
  simp [execLaneTrainingBlock]

theorem execLaneStageDone_quiet (l : Fin 34) (seen : LaneSeen) (t : Nat) (s : State) :
    Quietly s (execLaneStageDone l seen t s) := by
  simp [execLaneStageDone]

theorem execStageLimit_quiet (l : Fin 34) (t : Nat) (s : State) : Quietly s (execStageLimit l t s) := by
  unfold execStageLimit
  dsimp only
  split <;> simp

theorem execLaneLoss_quiet (l : Fin 32) (cause : BitVec 4) (headers : List (BitVec 2)) (t : Nat) (s : State) :
    Quietly s (execLaneLoss l cause headers t s) := by
  simp [execLaneLoss]

theorem execRetrainDone_quiet (l : Fin 32) (t : Nat) (s : State) : Quietly s (execRetrainDone l t s) := by simp [execRetrainDone]
theorem execAutoSleep_quiet (c : Fin 4) (t : Nat) (s : State) : Quietly s (execAutoSleep c t s) := by simp [execAutoSleep]

theorem execLaneTestEnd_quiet (t : Nat) (s : State) : Quietly s (execLaneTestEnd t s) := by
  unfold execLaneTestEnd
  dsimp only
  split <;> simp

theorem execHmcAnswer_quiet (c : Fin 4) (chars : List (Byte × Bool)) (t : Nat) (s : State) :
    Quietly s (execHmcAnswer c chars t s) := by
  simp [execHmcAnswer]

theorem execHmcTimeout_quiet (c : Fin 4) (t : Nat) (s : State) : Quietly s (execHmcTimeout c t s) := by
  unfold execHmcTimeout
  dsimp only
  split <;> simp

theorem execHmcStatusPoll_quiet (c : Fin 4) (t : Nat) (s : State) : Quietly s (execHmcStatusPoll c t s) := by
  simp [execHmcStatusPoll]

theorem execUsageCommit_quiet (t : Nat) (s : State) : Quietly s (execUsageCommit t s) := by simp [execUsageCommit]

theorem execChnAck_quiet (side : Side) (blk : BitVec 64) (t : Nat) (s : State) : Quietly s (execChnAck side blk t s) := by
  unfold execChnAck
  dsimp only
  (repeat' split) <;> simp

theorem execChnAckTimeout_quiet (side : Side) (t : Nat) (s : State) : Quietly s (execChnAckTimeout side t s) := by
  unfold execChnAckTimeout
  dsimp only
  split <;> simp

theorem execEnum_quiet (h : ChainHdr) (value : Byte) (serial : BitVec 64) (t : Nat) (s : State) :
    Quietly s (execEnum h value serial t s) := by
  simp [execEnum]

theorem execEnumDone_quiet (h : ChainHdr) (count : Byte) (epoch : BitVec 6) (serial : BitVec 64) (t : Nat) (s : State) :
    Quietly s (execEnumDone h count epoch serial t s) := by
  simp [execEnumDone]

theorem execEnumTimeout_quiet (t : Nat) (s : State) : Quietly s (execEnumTimeout t s) := by
  unfold execEnumTimeout
  dsimp only
  split <;> simp

theorem execNoHead_quiet (t : Nat) (s : State) : Quietly s (execNoHead t s) := by
  unfold execNoHead
  dsimp only
  split <;> simp

theorem execRejoin_quiet (h : ChainHdr) (m : RejoinMsg) (t : Nat) (s : State) : Quietly s (execRejoin h m t s) := by
  unfold execRejoin
  dsimp only
  (repeat' split) <;> simp

theorem execSync_quiet (side : Side) (t1 t2 t3 t4 : Nat) (s : State) : Quietly s (execSync side t1 t2 t3 t4 s) := by
  simp [execSync]

theorem execBeaconSample_quiet (t : Nat) (s : State) : Quietly s (execBeaconSample t s) := by
  unfold execBeaconSample
  dsimp only
  (repeat' split) <;> simp

theorem execBeacon_quiet (h : ChainHdr) (b : Beacon) (t : Nat) (s : State) : Quietly s (execBeacon h b t s) := by
  simp [execBeacon]

theorem execBeaconLoss_quiet (t : Nat) (s : State) : Quietly s (execBeaconLoss t s) := by simp [execBeaconLoss]

theorem execTxnPrepare_quiet (h : ChainHdr) (m : PrepareMsg) (t : Nat) (s : State) : Quietly s (execTxnPrepare h m t s) := by
  simp [execTxnPrepare]

theorem execPrepareTimeout_quiet (t : Nat) (s : State) : Quietly s (execPrepareTimeout t s) := by
  unfold execPrepareTimeout
  dsimp only
  split <;> simp

theorem execTxnDecision_quiet (h : ChainHdr) (group : BitVec 32) (commit : Bool) (t : Nat) (s : State) :
    Quietly s (execTxnDecision h group commit t s) := by
  simp [execTxnDecision]

theorem execDecisionTimeout_quiet (t : Nat) (s : State) : Quietly s (execDecisionTimeout t s) := by
  unfold execDecisionTimeout
  dsimp only
  split <;> simp

theorem execTxnQuery_quiet (h : ChainHdr) (group : BitVec 32) (t : Nat) (s : State) : Quietly s (execTxnQuery h group t s) := by
  simp [execTxnQuery]

theorem execTxnAnswer_quiet (h : ChainHdr) (group : BitVec 32) (st : TxnAnswerState) (t : Nat) (s : State) :
    Quietly s (execTxnAnswer h group st t s) := by
  simp [execTxnAnswer]

theorem execChnFault_quiet (h : ChainHdr) (fclass : Byte) (stop : Bool) (time : BitVec 64) (t : Nat) (s : State) :
    Quietly s (execChnFault h fclass stop time t s) := by
  simp [execChnFault]

theorem execChnWaste_quiet (h : ChainHdr) (cause : Byte) (first last : Int) (t : Nat) (s : State) :
    Quietly s (execChnWaste h cause first last t s) := by
  simp [execChnWaste]

theorem execResetNotice_quiet (h : ChainHdr) (cause : Byte) (t : Nat) (s : State) : Quietly s (execResetNotice h cause t s) := by
  simp [execResetNotice]

theorem execPeerReq_quiet (h : ChainHdr) (mgmt : Bool) (msg : List Byte) (t : Nat) (s : State) :
    Quietly s (execPeerReq h mgmt msg t s) := by
  simp [execPeerReq]

theorem execPeerReply_quiet (h : ChainHdr) (msg : List Byte) (full t : Nat) (s : State) :
    Quietly s (execPeerReply h msg full t s) := by
  unfold execPeerReply
  dsimp only
  (repeat' split) <;> simp

theorem execForwardTimeout_quiet (t : Nat) (s : State) : Quietly s (execForwardTimeout t s) := by simp [execForwardTimeout]

theorem execHopLoss_quiet (side : Side) (cause : BitVec 4) (headers : List (BitVec 2)) (t : Nat) (s : State) :
    Quietly s (execHopLoss side cause headers t s) := by
  simp [execHopLoss]

theorem execHopRetrainDone_quiet (side : Side) (t : Nat) (s : State) : Quietly s (execHopRetrainDone side t s) := by
  unfold execHopRetrainDone
  dsimp only
  split <;> simp

theorem execChainSleepTimer_quiet (t : Nat) (s : State) : Quietly s (execChainSleepTimer t s) := by simp [execChainSleepTimer]

theorem execWasteBroadcast_quiet (t : Nat) (s : State) : Quietly s (execWasteBroadcast t s) := by
  unfold execWasteBroadcast
  dsimp only
  split <;> simp

theorem execServoTick_quiet (t : Nat) (s : State) : Quietly s (execServoTick t s) := by simp [execServoTick]

theorem execStatusFrame_quiet (i : Fin 8) (f : List Byte) (t : Nat) (s : State) : Quietly s (execStatusFrame i f t s) := by
  unfold execStatusFrame
  dsimp only
  (repeat' split) <;> simp

theorem execDriveSlotFault_quiet (i : Fin 8) (cause : SlotFault) (t : Nat) (s : State) :
    Quietly s (execDriveSlotFault i cause t s) := by
  simp [execDriveSlotFault]

theorem execEnableTimeout_quiet (i : Fin 8) (t : Nat) (s : State) : Quietly s (execEnableTimeout i t s) := by
  simp [execEnableTimeout]

theorem execHamperStaged_quiet (tile : BitVec 24) (data : List Byte) (readOk : Bool) (t : Nat) (s : State) :
    Quietly s (execHamperStaged tile data readOk t s) := by
  unfold execHamperStaged
  dsimp only
  (repeat' split) <;> simp

theorem execHamperListStaged_quiet (data : List Byte) (readOk : Bool) (t : Nat) (s : State) :
    Quietly s (execHamperListStaged data readOk t s) := by
  unfold execHamperListStaged
  dsimp only
  (repeat' split) <;> simp

theorem execBlockDecode_quiet (p : Pipe) (u : Fin 16) (fail : Bool) (t : Nat) (s : State) :
    Quietly s (execBlockDecode p u fail t s) := by
  unfold execBlockDecode
  dsimp only
  split <;> simp

theorem execCompressorVerify_quiet (u : Fin 8) (fail : Bool) (t : Nat) (s : State) :
    Quietly s (execCompressorVerify u fail t s) := by
  unfold execCompressorVerify
  dsimp only
  split <;> simp

theorem execCdxCheckDone_quiet (t : Nat) (s : State) : Quietly s (execCdxCheckDone t s) := by
  unfold execCdxCheckDone
  dsimp only
  (repeat' split) <;> simp

theorem execDramReadError_quiet (addr : Nat) (bit : Fin 72) (double again : Bool) (reader : MemReader) (t : Nat) (s : State) :
    Quietly s (execDramReadError addr bit double again reader t s) := by
  simp [execDramReadError]

theorem execSramReadError_quiet (arr : SramArray) (addr : Nat) (double again : Bool) (t : Nat) (s : State) :
    Quietly s (execSramReadError arr addr double again t s) := by
  simp [execSramReadError]

theorem execSramSweep_quiet (arr : SramArray) (t : Nat) (s : State) : Quietly s (execSramSweep arr t s) := by simp [execSramSweep]
theorem execScrubBurst_quiet (t : Nat) (s : State) : Quietly s (execScrubBurst t s) := by simp [execScrubBurst]

theorem execScrubPassEnd_quiet (t : Nat) (s : State) : Quietly s (execScrubPassEnd t s) := by
  unfold execScrubPassEnd
  dsimp only
  split
  · refine Quiet.quietly_at (t := t) ?_
    split <;> simp
  · exact Quiet.quietly_at (.refl _)

theorem execRefresh_quiet (ch : Fin 32) (rank : Fin 2) (t : Nat) (s : State) : Quietly s (execRefresh ch rank t s) := by
  simp -implicitDefEqProofs [execRefresh, Claims.isStrobe]

theorem execNeighbourRefresh_quiet (ch : Fin 32) (rank : Fin 2) (bank : Fin 16) (row : Fin 131072) (t : Nat) (s : State) :
    Quietly s (execNeighbourRefresh ch rank bank row t s) := by
  unfold execNeighbourRefresh
  dsimp only
  (repeat' split) <;> simp [Claims.isStrobe]

theorem execRefreshRateRead_quiet (mult : Nat) (t : Nat) (s : State) : Quietly s (execRefreshRateRead mult t s) := by
  simp [execRefreshRateRead]

theorem execZqCalibration_quiet (t : Nat) (s : State) : Quietly s (execZqCalibration t s) := by simp [execZqCalibration]

theorem execDriftMeasure_quiet (ch : Fin 32) (drift : DriftResult) (t : Nat) (s : State) :
    Quietly s (execDriftMeasure ch drift t s) := by
  unfold execDriftMeasure
  dsimp only
  split <;> simp

theorem execSetPointDecision_quiet (t : Nat) (s : State) : Quietly s (execSetPointDecision t s) := by
  simp -implicitDefEqProofs [execSetPointDecision]

theorem execSelfRefresh_quiet (t : Nat) (s : State) : Quietly s (execSelfRefresh t s) := by simp [execSelfRefresh]

theorem execFenceViolation_quiet (agent : Agent) (addr : Nat) (t : Nat) (s : State) :
    Quietly s (execFenceViolation agent addr t s) := by
  simp [execFenceViolation]

theorem execFaultDetection_quiet (t : Nat) (s : State) : Quietly s (execFaultDetection t s) := by
  unfold execFaultDetection
  dsimp only
  split <;> simp

theorem execWasteRangeClose_quiet (t : Nat) (s : State) : Quietly s (execWasteRangeClose t s) := by simp [execWasteRangeClose]

theorem execWasteHoldEnd_quiet (t : Nat) (s : State) : Quietly s (execWasteHoldEnd t s) := by
  unfold execWasteHoldEnd
  dsimp only
  split <;> simp

theorem execSleepEntry_quiet (c : Fin 4) (t : Nat) (s : State) : Quietly s (execSleepEntry c t s) := by
  simp -implicitDefEqProofs [execSleepEntry]

theorem execChainOfOne_quiet (t : Nat) (s : State) : Quietly s (execChainOfOne t s) := by simp [execChainOfOne]
theorem execPerstRelease_quiet (t : Nat) (s : State) : Quietly s (execPerstRelease t s) := by simp [execPerstRelease]
theorem execHamperSpace_quiet (t : Nat) (s : State) : Quietly s (execHamperSpace t s) := by simp [execHamperSpace]
theorem execMemEcc_quiet (m : Fin 8) (t : Nat) (s : State) : Quietly s (execMemEcc m t s) := by simp [execMemEcc]

theorem execCheckerSync_quiet (l : Fin 32) (bits : List Bool) (t : Nat) (s : State) : Quietly s (execCheckerSync l bits t s) := by
  unfold execCheckerSync
  dsimp only
  split <;> simp

theorem execErrorInjection_quiet (l : Fin 32) (t : Nat) (s : State) : Quietly s (execErrorInjection l t s) := by
  unfold execErrorInjection
  dsimp only
  split <;> simp

theorem execChainWakeTimeout_quiet (t : Nat) (s : State) : Quietly s (execChainWakeTimeout t s) := by
  unfold execChainWakeTimeout
  dsimp only
  split <;> simp

theorem execLineStart_quiet (r : Fin 16) (t : Nat) (s : State) : Quietly s (execLineStart r t s) := by
  simp [execLineStart]

theorem execInhibitTest_quiet (r : Fin 16) (t : Nat) (s : State) : Quietly s (execInhibitTest r t s) := by
  unfold execInhibitTest
  dsimp only
  split <;> simp

theorem execZPulse_quiet (t : Nat) (s : State) : Quietly s (execZPulse t s) := by simp [execZPulse]

theorem execPrintEnable_quiet (level : Bool) (edge t : Nat) (s : State) : Quietly s (execPrintEnable level edge t s) := by
  simp [execPrintEnable]

theorem execJobMark_quiet (level : Bool) (edge t : Nat) (s : State) : Quietly s (execJobMark level edge t s) := by
  simp [execJobMark]

theorem execBar2Write_quiet (off : BitVec 32) (data : List Byte) (s : State) : Quietly s (execBar2Write off data s) := by
  simp [execBar2Write]

theorem execDmaReadCompletion_quiet (c : Fin 48) (data : List Byte) (ok : Bool) (t : Nat) (s : State) :
    Quietly s (execDmaReadCompletion c data ok t s) := by
  simp [execDmaReadCompletion]

theorem execMailboxRequestStart_quiet (t : Nat) (s : State) : Quietly s (execMailboxRequestStart t s) := by
  simp [execMailboxRequestStart]

theorem execVinFault_quiet (mv t : Nat) (s : State) : Quietly s (execVinFault mv t s) := by simp [execVinFault]

theorem execTemperatureSample_quiet (temps : List Int) (t : Nat) (s : State) : Quietly s (execTemperatureSample temps t s) := by
  simp [execTemperatureSample]

theorem execStandby_quiet (t : Nat) (s : State) : Quietly s (execStandby t s) := by
  unfold execStandby
  dsimp only
  split <;> simp

theorem execBootStage_quiet (r : BootResult) (t : Nat) (s : State) : Quietly s (execBootStage r t s) := by simp [execBootStage]

theorem execDomainPowerUp_quiet (d : Fin 12) (good : Bool) (t : Nat) (s : State) : Quietly s (execDomainPowerUp d good t s) := by
  simp [execDomainPowerUp]

theorem execDomainPowerDown_quiet (d : Fin 12) (t : Nat) (s : State) : Quietly s (execDomainPowerDown d t s) := by
  simp [execDomainPowerDown]

theorem execRailFault_quiet {d : Fin 12} (hd : d ≠ 0) (cause : RailCause) (t : Nat) (s : State) :
    Quietly s (execRailFault d cause t s) := by
  simp [execRailFault, State.railFault, hd]

/-- A strobe leaves, and nothing else goes out, waits or passes. -/
@[simp] theorem State.firePulse_pending_aon (s : State) (r : Fin 16) (p : Pulse) :
    (s.firePulse r p).pending = s.pending ∧ (s.firePulse r p).aon = s.aon := by
  simp [State.firePulse]

theorem execFireStrobe_next (r : Fin 16) (t : Nat) (s : State) :
    ∃ u, execFireStrobe r t s = .next u ∧ u.pending = s.pending ∧ s.aon ≤ u.aon := by
  unfold execFireStrobe
  dsimp only
  split
  · refine ⟨_, rfl, ?_⟩
    (repeat' split) <;> simp
  · exact ⟨_, rfl, rfl, le_max_left _ _⟩

/-! ### Every command -/

/-- The commands that start the module's time anew (21 R532; 26 R606). -/
def restartsTime : Instr → Bool
  | .powerOn _ _ => true
  | .railFault d _ _ => d == 0
  | _ => false

/-- The command that fires (14 R331). -/
def fires : Instr → Bool
  | .fireStrobe _ _ => true
  | _ => false

/-- Every command but a power-on and a strobe leaves the queue and the strobes as they are and takes no time back. -/
theorem exec_quietly {i : Instr} (s : State) (hpower : restartsTime i = false) (hfire : fires i = false) : Quietly s (exec i s) := by
  cases i with
  | nop q => exact (serve_quiet cmdNop_quiet q s).quietly
  | moduleInfo q => exact (serve_quiet cmdModuleInfo_quiet q s).quietly
  | eventRoute q => exact (serve_quiet cmdEventRoute_quiet q s).quietly
  | moduleReset q => exact (serve_quiet cmdModuleReset_quiet q s).quietly
  | fwStatus q => exact (serve_quiet cmdFwStatus_quiet q s).quietly
  | fwUpdateBegin q => exact (serve_quiet cmdFwUpdateBegin_quiet q s).quietly
  | fwUpdateData q => exact (serve_quiet cmdFwUpdateData_quiet q s).quietly
  | fwUpdateCommit q => exact (serve_quiet cmdFwUpdateCommit_quiet q s).quietly
  | powerStatus q => exact (serve_quiet cmdPowerStatus_quiet q s).quietly
  | thermalConfig q => exact (serve_quiet cmdThermalConfig_quiet q s).quietly
  | hamperStatus q => exact (serve_quiet cmdHamperStatus_quiet q s).quietly
  | tileStage q => exact (serve_quiet cmdTileStage_quiet q s).quietly
  | tileFree q => exact (serve_quiet cmdTileFree_quiet q s).quietly
  | tileInfo q => exact (serve_quiet cmdTileInfo_quiet q s).quietly
  | listStage q => exact (serve_quiet cmdListStage_quiet q s).quietly
  | listFree q => exact (serve_quiet cmdListFree_quiet q s).quietly
  | proofCapture q => exact (serve_quiet cmdProofCapture_quiet q s).quietly
  | proofCancel q => exact (serve_quiet cmdProofCancel_quiet q s).quietly
  | codecConfig q => exact (serve_quiet cmdCodecConfig_quiet q s).quietly
  | codecStatus q => exact (serve_quiet cmdCodecStatus_quiet q s).quietly
  | codecCheck q => exact (serve_quiet cmdCodecCheck_quiet q s).quietly
  | jobStatus q => exact (serve_quiet cmdJobStatus_quiet q s).quietly
  | planeDefine q => exact (serve_quiet cmdPlaneDefine_quiet q s).quietly
  | rowDefine q => exact (serve_quiet cmdRowDefine_quiet q s).quietly
  | panelDefine q => exact (serve_quiet cmdPanelDefine_quiet q s).quietly
  | jobDefine q => exact (serve_quiet cmdJobDefine_quiet q s).quietly
  | jobArm q => exact (serve_quiet cmdJobArm_quiet q s).quietly
  | jobStart q => exact (serve_quiet cmdJobStart_quiet q s).quietly
  | jobPause q => exact (serve_quiet cmdJobPause_quiet q s).quietly
  | jobResume q => exact (serve_quiet cmdJobResume_quiet q s).quietly
  | jobStop q => exact (serve_quiet cmdJobStop_quiet q s).quietly
  | jobClear q => exact (serve_quiet cmdJobClear_quiet q s).quietly
  | webConfig q => exact (serve_quiet cmdWebConfig_quiet q s).quietly
  | rowGeometry q => exact (serve_quiet cmdRowGeometry_quiet q s).quietly
  | webStatus q => exact (serve_quiet cmdWebStatus_quiet q s).quietly
  | screenPlane q => exact (serve_quiet cmdScreenPlane_quiet q s).quietly
  | screenMatrix q => exact (serve_quiet cmdScreenMatrix_quiet q s).quietly
  | histSet q => exact (serve_quiet cmdHistSet_quiet q s).quietly
  | histRow q => exact (serve_quiet cmdHistRow_quiet q s).quietly
  | runaheadConfig q => exact (serve_quiet cmdRunaheadConfig_quiet q s).quietly
  | runaheadStatus q => exact (serve_quiet cmdRunaheadStatus_quiet q s).quietly
  | checkConfig q => exact (serve_quiet cmdCheckConfig_quiet q s).quietly
  | txnOpen q => exact (serve_quiet cmdTxnOpen_quiet q s).quietly
  | txnAdd q => exact (serve_quiet cmdTxnAdd_quiet q s).quietly
  | txnSeal q => exact (serve_quiet cmdTxnSeal_quiet q s).quietly
  | txnCommit q => exact (serve_quiet cmdTxnCommit_quiet q s).quietly
  | txnDiscard q => exact (serve_quiet cmdTxnDiscard_quiet q s).quietly
  | txnStatus q => exact (serve_quiet cmdTxnStatus_quiet q s).quietly
  | calStatus q => exact (serve_quiet cmdCalStatus_quiet q s).quietly
  | calTrim q => exact (serve_quiet cmdCalTrim_quiet q s).quietly
  | calChart q => exact (serve_quiet cmdCalChart_quiet q s).quietly
  | calAlignLoad q => exact (serve_quiet cmdCalAlignLoad_quiet q s).quietly
  | calLimits q => exact (serve_quiet cmdCalLimits_quiet q s).quietly
  | strobeConfig q => exact (serve_quiet cmdStrobeConfig_quiet q s).quietly
  | hacConfig q => exact (serve_quiet cmdHacConfig_quiet q s).quietly
  | headAuthStatus q => exact (serve_quiet cmdHeadAuthStatus_quiet q s).quietly
  | headUsage q => exact (serve_quiet cmdHeadUsage_quiet q s).quietly
  | usageCommitNow q => exact (serve_quiet cmdUsageCommitNow_quiet q s).quietly
  | linkControl q => exact (serve_quiet cmdLinkControl_quiet q s).quietly
  | laneConfig q => exact (serve_quiet cmdLaneConfig_quiet q s).quietly
  | laneStatus q => exact (serve_quiet cmdLaneStatus_quiet q s).quietly
  | headDriverInfo q => exact (serve_quiet cmdHeadDriverInfo_quiet q s).quietly
  | headTunnel q => exact (serve_quiet cmdHeadTunnel_quiet q s).quietly
  | drivePortConfig q => exact (serve_quiet cmdDrivePortConfig_quiet q s).quietly
  | axisConfig q => exact (serve_quiet cmdAxisConfig_quiet q s).quietly
  | axisEnable q => exact (serve_quiet cmdAxisEnable_quiet q s).quietly
  | axisMotion q => exact (serve_quiet cmdAxisMotion_quiet q s).quietly
  | axisGear q => exact (serve_quiet cmdAxisGear_quiet q s).quietly
  | axisHome q => exact (serve_quiet cmdAxisHome_quiet q s).quietly
  | axisLimits q => exact (serve_quiet cmdAxisLimits_quiet q s).quietly
  | axisStatus q => exact (serve_quiet cmdAxisStatus_quiet q s).quietly
  | chainStatus q => exact (serve_quiet cmdChainStatus_quiet q s).quietly
  | chainEnumerate q => exact (serve_quiet cmdChainEnumerate_quiet q s).quietly
  | chainConfig q => exact (serve_quiet cmdChainConfig_quiet q s).quietly
  | chainForward q => exact (serve_quiet cmdChainForward_quiet q s).quietly
  | chainLink q => exact (serve_quiet cmdChainLink_quiet q s).quietly
  | logStatus q => exact (serve_quiet cmdLogStatus_quiet q s).quietly
  | logRead q => exact (serve_quiet cmdLogRead_quiet q s).quietly
  | memStatus q => exact (serve_quiet cmdMemStatus_quiet q s).quietly
  | memConfig q => exact (serve_quiet cmdMemConfig_quiet q s).quietly
  | memInject q => exact (serve_quiet cmdMemInject_quiet q s).quietly
  | checkInject q => exact (serve_quiet cmdCheckInject_quiet q s).quietly
  | checkStatus q => exact (serve_quiet cmdCheckStatus_quiet q s).quietly
  | laneTest q => exact (serve_quiet cmdLaneTest_quiet q s).quietly
  | laneTestRead q => exact (serve_quiet cmdLaneTestRead_quiet q s).quietly
  | clockStatus q => exact (serve_quiet cmdClockStatus_quiet q s).quietly
  | mgmtJobStop q => exact (serve_quiet cmdMgmtJobStop_quiet q s).quietly
  | mgmtDomains q => exact (serve_quiet cmdMgmtDomains_quiet q s).quietly
  | recoveryBegin q => exact (serve_quiet cmdRecoveryBegin_quiet q s).quietly
  | recoveryData q => exact (serve_quiet cmdRecoveryData_quiet q s).quietly
  | recoveryCommit q => exact (serve_quiet cmdRecoveryCommit_quiet q s).quietly
  | reqTailWrite m v => exact execReqTailWrite_quiet m v s
  | rplHeadWrite m v => exact execRplHeadWrite_quiet m v s
  | mbStatusClear m v => exact execMbStatusClear_quiet m v s
  | globalFaultClear v => exact execGlobalFaultClear_quiet v s
  | bdAssignWrite v => exact execBdAssignWrite_quiet v s
  | drqSoftWrite v => exact execDrqSoftWrite_quiet v s
  | bar2BaseWrite part v => exact execBar2BaseWrite_quiet part v s
  | go c v => exact execGo_quiet c v s
  | abort c v => exact execAbort_quiet c v s
  | bdStatusClear c v => exact execBdStatusClear_quiet c v s
  | qCtrlEnable n v => exact execQCtrlEnable_quiet n v s
  | qHeadWrite n v => exact execQHeadWrite_quiet n v s
  | qStatusClear n v => exact execQStatusClear_quiet n v s
  | bar0RegisterWrite off size v => exact execBar0RegisterWrite_quiet off size v s
  | bar0LowHalfRead off size => exact execBar0LowHalfRead_quiet off size s
  | bar2Read off len => exact execBar2Read_quiet off len s
  | bar2Write off data => exact execBar2Write_quiet off data s
  | alertStatusClear data pec => exact execAlertStatusClear_quiet data pec s
  | pwrCtrlWake data pec t => exact execPwrCtrlWake_quiet data pec t s
  | mbCtrlGo n data pec => exact execMbCtrlGo_quiet n data pec s
  | mbCtrlPop n data pec => exact execMbCtrlPop_quiet n data pec s
  | mbCtrlClear n data pec => exact execMbCtrlClear_quiet n data pec s
  | mbReqWrite n data pec => exact execMbReqWrite_quiet n data pec s
  | mbRplRead n off => exact execMbRplRead_quiet n off s
  | alertResponseRead => exact execAlertResponseRead_quiet s
  | mgmtRegisterWrite code data pec => exact execMgmtRegisterWrite_quiet code data pec s
  | sclTimeout t => exact execSclTimeout_quiet t s
  | mailboxRequestStart t => exact execMailboxRequestStart_quiet t s
  | heldReplyWrite m => exact execHeldReplyWrite_quiet m s
  | finalReply t => exact execFinalReply_quiet t s
  | eventPost t => exact execEventPost_quiet t s
  | evqLost n t => exact execEvqLost_quiet n t s
  | queueInterruptTimer n t => exact execQueueInterruptTimer_quiet n t s
  | perst t => exact execPerst_quiet t s
  | drqPulse line t => exact execDrqPulse_quiet line t s
  | dmaReadCompletion c data ok t => exact execDmaReadCompletion_quiet c data ok t s
  | dmaTransferDone c t => exact execDmaTransferDone_quiet c t s
  | waitCqRecord c t => exact execWaitCqRecord_quiet c t s
  | powerOn maddr head => cases hpower
  | mgmtResetN level t => exact execMgmtResetN_quiet level t s
  | moduleResetSequence t => exact execModuleResetSequence_quiet t s
  | resetRelease t => exact execResetRelease_quiet t s
  | bootStage r t => exact execBootStage_quiet r t s
  | fwOperationDone r t => exact execFwOperationDone_quiet r t s
  | firmwareActivation t => exact execFirmwareActivation_quiet t s
  | kettleFault t => exact execKettleFault_quiet t s
  | kettleWatchdog t => exact execKettleWatchdog_quiet t s
  | thermosWatchdog t => exact execThermosWatchdog_quiet t s
  | vinFault mv t => exact execVinFault_quiet mv t s
  | railFault d cause t => exact execRailFault_quiet (by rintro rfl; cases hpower) cause t s
  | repower d mv t => exact execRepower_quiet d mv t s
  | domainPowerUp d good t => exact execDomainPowerUp_quiet d good t s
  | domainPowerDown d t => exact execDomainPowerDown_quiet d t s
  | temperatureSample temps t => exact execTemperatureSample_quiet temps t s
  | crystalStart x t => exact execCrystalStart_quiet x t s
  | crystalStartLimit x t => exact execCrystalStartLimit_quiet x t s
  | clockLoss src t => exact execClockLoss_quiet src t s
  | pllLock p t => exact execPllLock_quiet p t s
  | clockSwitch d t => exact execClockSwitch_quiet d t s
  | switchHandshakeTimeout d t => exact execSwitchHandshakeTimeout_quiet d t s
  | newClockTimeout d t => exact execNewClockTimeout_quiet d t s
  | xbIncrementUpdate xaCycles t => exact execXbIncrementUpdate_quiet xaCycles t s
  | timeCopyReload d t => exact execTimeCopyReload_quiet d t s
  | peerInReset d drops => exact execPeerInReset_quiet d drops s
  | crossingReady d => exact execCrossingReady_quiet d s
  | fioTrim khz code ok t => exact execFioTrim_quiet khz code ok t s
  | sioTrim hz code ok t => exact execSioTrim_quiet hz code ok t s
  | chartBuilt ok t => exact execChartBuilt_quiet ok t s
  | memRetrainDone failed failedTwice t => exact execMemRetrainDone_quiet failed failedTwice t s
  | encoderEdge a b t => exact execEncoderEdge_quiet a b t s
  | zPulse t => exact execZPulse_quiet t s
  | lineFail t => exact execLineFail_quiet t s
  | lineGood t => exact execLineGood_quiet t s
  | accelerationCheck t => exact execAccelerationCheck_quiet t s
  | stopTimeout t => exact execStopTimeout_quiet t s
  | speedHigh t => exact execSpeedHigh_quiet t s
  | jobMark level edge t => exact execJobMark_quiet level edge t s
  | printEnable level edge t => exact execPrintEnable_quiet level edge t s
  | fireInhibit level edge t => exact execFireInhibit_quiet level edge t s
  | lineStart r t => exact execLineStart_quiet r t s
  | rowStopped r t => exact execRowStopped_quiet r t s
  | rowDone r t => exact execRowDone_quiet r t s
  | jobEnd t => exact execJobEnd_quiet t s
  | faultStop t => exact execFaultStop_quiet t s
  | inhibitTest r t => exact execInhibitTest_quiet r t s
  | fireStrobe => cases hfire
  | strobeReadback r e t => exact execStrobeReadback_quiet r e t s
  | lsdOverspeed r t => exact execLsdOverspeed_quiet r t s
  | armingStep t => exact execArmingStep_quiet t s
  | rowReady r t => exact execRowReady_quiet r t s
  | engineLineDone p h upset t => exact execEngineLineDone_quiet p h upset t s
  | checkpointCompare r bad t => exact execCheckpointCompare_quiet r bad t s
  | lineCompare h bad t => exact execLineCompare_quiet h bad t s
  | missingTimeout h bad t => exact execMissingTimeout_quiet h bad t s
  | couplingTimeout p h waits bad t => exact execCouplingTimeout_quiet p h waits bad t s
  | squash r t => exact execSquash_quiet r t s
  | spcReplayLate r t => exact execSpcReplayLate_quiet r t s
  | spcDry r t => exact execSpcDry_quiet r t s
  | pourRecheck h t => exact execPourRecheck_quiet h t s
  | frameSend l upset cvuBad t => exact execFrameSend_quiet l upset cvuBad t s
  | ack l hdr blk t => exact execAck_quiet l hdr blk t s
  | ackTimeout l t => exact execAckTimeout_quiet l t s
  | flush l t => exact execFlush_quiet l t s
  | flushTimeout l t => exact execFlushTimeout_quiet l t s
  | laneTrainingBlock l hdr blk t => exact execLaneTrainingBlock_quiet l hdr blk t s
  | laneStageDone l seen t => exact execLaneStageDone_quiet l seen t s
  | stageLimit l t => exact execStageLimit_quiet l t s
  | laneLoss l cause headers t => exact execLaneLoss_quiet l cause headers t s
  | retrainDone l t => exact execRetrainDone_quiet l t s
  | autoSleep c t => exact execAutoSleep_quiet c t s
  | laneTestEnd t => exact execLaneTestEnd_quiet t s
  | hmcAnswer c chars t => exact execHmcAnswer_quiet c chars t s
  | hmcTimeout c t => exact execHmcTimeout_quiet c t s
  | hmcStatusPoll c t => exact execHmcStatusPoll_quiet c t s
  | usageCommit t => exact execUsageCommit_quiet t s
  | chnAck side blk t => exact execChnAck_quiet side blk t s
  | chnAckTimeout side t => exact execChnAckTimeout_quiet side t s
  | enum h value serial t => exact execEnum_quiet h value serial t s
  | enumDone h count epoch serial t => exact execEnumDone_quiet h count epoch serial t s
  | enumTimeout t => exact execEnumTimeout_quiet t s
  | noHead t => exact execNoHead_quiet t s
  | rejoin h m t => exact execRejoin_quiet h m t s
  | sync side t1 t2 t3 t4 => exact execSync_quiet side t1 t2 t3 t4 s
  | beaconSample t => exact execBeaconSample_quiet t s
  | beacon h b t => exact execBeacon_quiet h b t s
  | beaconLoss t => exact execBeaconLoss_quiet t s
  | txnPrepare h m t => exact execTxnPrepare_quiet h m t s
  | prepareTimeout t => exact execPrepareTimeout_quiet t s
  | txnDecision h group commit t => exact execTxnDecision_quiet h group commit t s
  | decisionTimeout t => exact execDecisionTimeout_quiet t s
  | txnQuery h group t => exact execTxnQuery_quiet h group t s
  | txnAnswer h group st t => exact execTxnAnswer_quiet h group st t s
  | chnFault h fclass stop time t => exact execChnFault_quiet h fclass stop time t s
  | chnWaste h cause first last t => exact execChnWaste_quiet h cause first last t s
  | resetNotice h cause t => exact execResetNotice_quiet h cause t s
  | peerReq h mgmt msg t => exact execPeerReq_quiet h mgmt msg t s
  | peerReply h msg full t => exact execPeerReply_quiet h msg full t s
  | forwardTimeout t => exact execForwardTimeout_quiet t s
  | hopLoss side cause headers t => exact execHopLoss_quiet side cause headers t s
  | hopRetrainDone side t => exact execHopRetrainDone_quiet side t s
  | chainSleepTimer t => exact execChainSleepTimer_quiet t s
  | wasteBroadcast t => exact execWasteBroadcast_quiet t s
  | servoTick t => exact execServoTick_quiet t s
  | statusFrame a frame t => exact execStatusFrame_quiet a frame t s
  | driveSlotFault a cause t => exact execDriveSlotFault_quiet a cause t s
  | enableTimeout a t => exact execEnableTimeout_quiet a t s
  | hamperStaged tile data readOk t => exact execHamperStaged_quiet tile data readOk t s
  | hamperListStaged data readOk t => exact execHamperListStaged_quiet data readOk t s
  | blockDecode p u fail t => exact execBlockDecode_quiet p u fail t s
  | compressorVerify u fail t => exact execCompressorVerify_quiet u fail t s
  | cdxCheckDone t => exact execCdxCheckDone_quiet t s
  | dramReadError addr bit double again reader t => exact execDramReadError_quiet addr bit double again reader t s
  | sramReadError arr addr double again t => exact execSramReadError_quiet arr addr double again t s
  | sramSweep arr t => exact execSramSweep_quiet arr t s
  | scrubBurst t => exact execScrubBurst_quiet t s
  | scrubPassEnd t => exact execScrubPassEnd_quiet t s
  | refresh ch rank t => exact execRefresh_quiet ch rank t s
  | neighbourRefresh ch rank bank row t => exact execNeighbourRefresh_quiet ch rank bank row t s
  | refreshRateRead mult t => exact execRefreshRateRead_quiet mult t s
  | zqCalibration t => exact execZqCalibration_quiet t s
  | driftMeasure ch drift t => exact execDriftMeasure_quiet ch drift t s
  | setPointDecision t => exact execSetPointDecision_quiet t s
  | selfRefresh t => exact execSelfRefresh_quiet t s
  | fenceViolation agent addr t => exact execFenceViolation_quiet agent addr t s
  | faultDetection t => exact execFaultDetection_quiet t s
  | wasteRangeClose t => exact execWasteRangeClose_quiet t s
  | wasteHoldEnd t => exact execWasteHoldEnd_quiet t s
  | sleepEntry c t => exact execSleepEntry_quiet c t s
  | chainOfOne t => exact execChainOfOne_quiet t s
  | standby t => exact execStandby_quiet t s
  | perstRelease t => exact execPerstRelease_quiet t s
  | hamperSpace t => exact execHamperSpace_quiet t s
  | memEcc memory t => exact execMemEcc_quiet memory t s
  | checkerSync l bits t => exact execCheckerSync_quiet l bits t s
  | errorInjection l t => exact execErrorInjection_quiet l t s
  | chainWakeTimeout t => exact execChainWakeTimeout_quiet t s
theorem State.railFault_zero (s : State) (cause : RailCause) :
    s.railFault 0 cause = if s.poweredOn 0 then s.powerOn s.mgt.maddr s.chain.strap else s := by
  simp [State.railFault]

/-- A power-on leaves the queue and the wires as they are. -/
theorem exec_restartsTime {i : Instr} (s : State) (hpower : restartsTime i = true) :
    ∃ u, exec i s = .next u ∧ u.pending = s.pending ∧ u.wires = s.wires := by
  cases i with
  | powerOn maddr head => exact ⟨_, rfl, rfl, rfl⟩
  | railFault d cause t =>
    obtain rfl : d = 0 := by simpa [restartsTime] using hpower
    refine ⟨_, rfl, ?_⟩
    rw [State.railFault_zero]
    split <;> exact ⟨rfl, rfl⟩
  | _ => cases hpower

theorem Quietly.next {s : State} {o : Host.Outcome State Fault Refusal} (h : Quietly s o) :
    ∃ u, o = .next u ∧ u.pending = s.pending ∧ s.aon ≤ u.aon ∧ u.wires.filter Claims.isStrobe = s.wires.filter Claims.isStrobe := by
  cases o with
  | next u => exact ⟨u, rfl, h⟩
  | _ => exact h.elim

/-- What every command leaves of the queue. -/
theorem exec_next (i : Instr) (s : State) : ∃ u, exec i s = .next u ∧ u.pending = s.pending := by
  cases hpower : restartsTime i with
  | true =>
    obtain ⟨u, hu, hpending, -⟩ := exec_restartsTime s hpower
    exact ⟨u, hu, hpending⟩
  | false =>
    cases hfire : fires i with
    | true =>
      cases i with
      | fireStrobe r t =>
        obtain ⟨u, hu, hpending, -⟩ := execFireStrobe_next r t s
        exact ⟨u, hu, hpending⟩
      | _ => cases hfire
    | false =>
      obtain ⟨u, hu, hpending, -⟩ := (exec_quietly s hpower hfire).next
      exact ⟨u, hu, hpending⟩

/-- Settles O2: every command ends in a next state. -/
theorem everyCommandAnswersANextState : Obligations.EveryCommandAnswersANextState := by
  intro i s
  obtain ⟨u, hu, -⟩ := exec_next i s
  exact ⟨u, hu⟩

/-- Settles O6: no operation but the step itself writes the queue. -/
theorem commandsLeaveTheQueueAlone : Obligations.CommandsLeaveTheQueueAlone := by
  intro i s t ht
  obtain ⟨u, hu, hpending⟩ := exec_next i s
  obtain rfl := Host.Outcome.next.inj (ht.symm.trans hu)
  exact hpending

/-- Settles O7: time moves by `State.at` alone, which takes the later of two times. -/
theorem timeNeverRunsBackward : Obligations.TimeNeverRunsBackward := by
  intro i s t hpowerOn hrail ht
  have hpower : restartsTime i = false := by
    cases i with
    | powerOn maddr head => exact absurd rfl (hpowerOn maddr head)
    | railFault d cause x => exact beq_false_of_ne fun hd => hrail cause x (by rw [hd])
    | _ => rfl
  cases hfire : fires i with
  | true =>
    cases i with
    | fireStrobe r x =>
      obtain ⟨u, hu, -, haon⟩ := execFireStrobe_next r x s
      obtain rfl := Host.Outcome.next.inj (ht.symm.trans hu)
      exact haon
    | _ => cases hfire
  | false =>
    obtain ⟨u, hu, -, haon, -⟩ := (exec_quietly s hpower hfire).next
    obtain rfl := Host.Outcome.next.inj (ht.symm.trans hu)
    exact haon

theorem firesNothing_of_strobes {s u : State} (h : u.wires.filter Claims.isStrobe = s.wires.filter Claims.isStrobe) :
    Safety.FiresNothing s u := by
  intro r line rise width inv hmem
  have hstrobe : Wire.strobe r line rise width inv ∈ u.wires.filter Claims.isStrobe := List.mem_filter.2 ⟨hmem, rfl⟩
  rw [h] at hstrobe
  exact List.mem_of_mem_filter hstrobe

/-- Settles O34: of all that is put on the wires, a strobe is put there by FIRE_STROBE alone. -/
theorem onlyFireStrobeFires : Obligations.OnlyFireStrobeFires := by
  intro i s u hnot hu
  cases hpower : restartsTime i with
  | true =>
    obtain ⟨v, hv, -, hwires⟩ := exec_restartsTime s hpower
    obtain rfl := Host.Outcome.next.inj (hu.symm.trans hv)
    exact firesNothing_of_strobes (by rw [hwires])
  | false =>
    have hfire : fires i = false := by
      cases i with
      | fireStrobe r t => exact absurd rfl (hnot r t)
      | _ => rfl
    obtain ⟨v, hv, -, -, hstrobes⟩ := (exec_quietly s hpower hfire).next
    obtain rfl := Host.Outcome.next.inj (hu.symm.trans hv)
    exact firesNothing_of_strobes hstrobes

end Sys2Proof.Machine
end

section
/-! PROOF. Reset values, the checks of a request and the system commands (04 R102; 06 R145; 11 R257; 17 R413, R415, R432, R434; 18 R443; 19 R473,
R477, R481, R489; 20 R514; 21 R532): O3, O9, O10. -/

namespace Sys2Proof.Machine

/-! ### Reset values -/

/-- Settles O3: each register is read off the state right after power-on. -/
theorem resetLeavesTheStatedValues : Obligations.ResetLeavesTheStatedValues := by
  unfold Obligations.ResetLeavesTheStatedValues
  refine ⟨rfl, rfl, fun _ => rfl, ?_, rfl, rfl, rfl, rfl, rfl, ?_, ?_, rfl, rfl, ?_, ?_⟩
  · decide
  · intro c
    have hchan : State.reset.chan c = Chan.init := Vector.getElem_replicate _
    rw [hchan]
    exact ⟨rfl, rfl⟩
  · intro q
    have hque : State.reset.que q = Que.init := Vector.getElem_replicate _
    rw [hque]
    exact ⟨rfl, rfl⟩
  · decide
  · intro i
    have hhist : State.reset.layout.hist[i] = HistSet.init := Vector.getElem_replicate _
    rw [hhist]
    refine ⟨rfl, fun d hd => ?_⟩
    have hlong : d < 128 := Nat.lt_trans hd (by decide)
    simp only [HistSet.init, List.getElem?_map, List.getElem?_range hlong, Option.map_some, Nat.mod_eq_of_lt hd]

/-! ### The checks of R420 -/

theorem opPermitted_eq_false {opcode : Nat} {m : Fin 8} :
    opPermitted opcode m = false ↔ (0x0F00 ≤ opcode ∧ opcode ≤ 0x0FFF ∧ m ≠ 4 ∧ m ≠ 5) := by
  have hpage : opcode / 256 = 0x0F ↔ (0x0F00 ≤ opcode ∧ opcode ≤ 0x0FFF) := by omega
  simp [opPermitted, Fin.ext_iff, hpage, and_assoc]

theorem Cmd.execute_of_not_permitted {c : Cmd} {q : Req} {s : State} (h : opPermitted c.opcode q.mb = false) :
    c.execute q s = (Ans.fail (s.start q c.opcode) .badOpcode).deliver q c.opcode := by
  simp [Cmd.execute, Cmd.answer, h]

theorem Cmd.execute_of_bad_length {c : Cmd} {q : Req} {s : State} (h : opPermitted c.opcode q.mb = true)
    (hlen : 240 < q.payload.length ∨ c.okLen q.payload.length = false) :
    c.execute q s = (Ans.fail (s.start q c.opcode) .badLength).deliver q c.opcode := by
  have hbad : (decide (q.payload.length ≤ 240) && c.okLen q.payload.length) = false := by
    rw [Bool.and_eq_false_iff, decide_eq_false_iff_not, Nat.not_le]
    exact hlen
  simp [Cmd.execute, Cmd.answer, h, hbad]

theorem Cmd.execute_of_ok {c : Cmd} {q : Req} {s : State} (h : opPermitted c.opcode q.mb = true) (hlen : q.payload.length ≤ 240)
    (hok : c.okLen q.payload.length = true) : c.execute q s = (c.run q (s.start q c.opcode)).deliver q c.opcode := by
  simp [Cmd.execute, Cmd.answer, h, hlen, hok]

/-- Settles O10: the three branches of a command's answer. -/
theorem requestsAreCheckedInOrder : Obligations.RequestsAreCheckedInOrder := by
  unfold Obligations.RequestsAreCheckedInOrder
  exact ⟨fun _ _ => opPermitted_eq_false, fun _ _ _ _ => Cmd.execute_of_not_permitted,
    fun _ _ _ _ => Cmd.execute_of_bad_length, fun _ _ _ _ => Cmd.execute_of_ok⟩

/-! ### The system commands -/

theorem serve_of_no_retry {c : Cmd} {q : Req} {s : State} (h : q.retry = false) : serve c q s = c.execute q s := by
  simp [serve, h]

/-- A one-byte field that begins a string. -/
theorem fld_cons_one (b : Byte) (r : List Byte) : fld (b :: r) 0 1 = b.toNat := by rw [fld_one, List.getD_cons_zero]

/-- The fields of MODULE_INFO that name the module and its times (R433). -/
theorem State.moduleInfo_fields (s : State) (m : Fin 8) :
    let p := s.moduleInfo m
    p.length = 64 ∧ p.take 8 = [0x50, 0x4C, 0x4E, 0x2D, 0x34, 0x38, 0x32, 0x36] ∧ fld p 8 8 = Config.serial.toNat ∧ fld p 23 1 = m.val ∧
      fld p 24 1 = s.ownAddress.toNat ∧ fld p 28 4 = s.boot.flash.resets.toNat ∧ fld p 32 8 = s.boot.bootTime.toNat ∧
      fld p 40 8 = s.nowNs % 2 ^ 64 := by
  have hm : m.val % 256 ^ 1 = m.val := Nat.mod_eq_of_lt (Nat.lt_trans m.isLt (by decide))
  have hlong (v : BitVec 64) : v.toNat % 256 ^ 8 = v.toNat := Nat.mod_eq_of_lt v.isLt
  have haddress (b : Byte) (r : List Byte) : fld ([b] ++ r) 0 1 = b.toNat := fld_cons_one b r
  refine ⟨?_, ?_, ?_, ?_, ?_, ?_, ?_, ?_⟩
  · simp [moduleInfo, partName]
  · simp [moduleInfo, partName]
  all_goals
    simp only [moduleInfo, partName, List.append_assoc]
    simp (disch := simp) only [fld_append_right, length_le, length_zeroBytes, List.length_cons, List.length_nil, Nat.reduceAdd, Nat.reduceSub,
      haddress, fld_le, toNat_mod_four_bytes, hm, hlong]
  -- The time of the answer: eight bytes are 64 bits.
  rfl

theorem exec_nop_answers (q : Req) (s : State) (hq : Claims.Fresh 0x0000 q s) :
    exec (.nop q) s = .next ((Claims.ok (s.start q 0x0000) q.payload).deliver q 0x0000) :=
  congrArg _ (serve_of_fresh hq (decide_eq_true hq.2.1))

theorem exec_nop_too_long (q : Req) (s : State) (hlong : 240 < q.payload.length) (hretry : q.retry = false) :
    exec (.nop q) s = .next ((Ans.fail (s.start q 0x0000) .badLength).deliver q 0x0000) :=
  congrArg _ ((serve_of_no_retry hretry).trans (Cmd.execute_of_bad_length (c := cmdNop) rfl (Or.inl hlong)))

theorem exec_moduleInfo_answers (q : Req) (s : State) (hq : Claims.FreshOf 0x0001 0 q s) :
    exec (.moduleInfo q) s = .next ((Claims.ok (s.start q 0x0001) ((s.start q 0x0001).moduleInfo q.mb)).deliver q 0x0001) :=
  congrArg _ (serve_of_fresh hq.1 (beq_iff_eq.2 hq.2))

theorem exec_eventRoute_sets (q : Req) (s : State) (cls : Fin 4) (eq : Byte) (hq : Claims.Fresh 0x0002 q s)
    (heq : eq.toNat ≤ 15 ∨ eq = 0xFF) (hp : q.payload = [BitVec.ofNat 8 cls.val, eq, 0, 0, 0, 0, 0, 0]) :
    let s1 := s.start q 0x0002
    let m : Mbx := { s1.mbx with route := s1.mbx.route.set cls eq }
    exec (.eventRoute q) s = .next ((Claims.ok { s1 with mbx := m } m.routeBytes).deliver q 0x0002) := by
  have hrun : exec (.eventRoute q) s = .next ((cmdEventRoute.run q (s.start q 0x0002)).deliver q 0x0002) :=
    congrArg _ (serve_of_fresh hq (by rw [hp]; rfl))
  have hclass : fld q.payload 0 1 = cls.val := by
    rw [hp, fld_cons_one, BitVec.toNat_ofNat, Nat.mod_eq_of_lt (Nat.lt_trans cls.isLt (by decide))]
  have hqueue : fld q.payload 1 1 = eq.toNat := by rw [hp, fld_one]; rfl
  have hzeros : zeros q.payload 2 6 = true := by rw [hp]; rfl
  have hin : cls.val ≠ 0xFF := by omega
  have hvalid : eq.toNat ≤ 15 ∨ eq.toNat = 0xFF := heq.imp_right (congrArg BitVec.toNat)
  rw [hrun]
  simp only [cmdEventRoute, hclass, hqueue, hzeros]
  rw [checks_pass (by simp [hin]; omega)]
  simp only [if_neg hin, BitVec.ofNat_toNat, BitVec.setWidth_eq, Fin.ofNat_val_eq_self]
  rfl

theorem exec_eventRoute_reads (q : Req) (s : State) (eq : Byte) (hq : Claims.Fresh 0x0002 q s) (heq : eq.toNat ≤ 15 ∨ eq = 0xFF)
    (hp : q.payload = [0xFF, eq, 0, 0, 0, 0, 0, 0]) :
    exec (.eventRoute q) s = .next ((Claims.ok (s.start q 0x0002) (s.start q 0x0002).mbx.routeBytes).deliver q 0x0002) := by
  have hrun : exec (.eventRoute q) s = .next ((cmdEventRoute.run q (s.start q 0x0002)).deliver q 0x0002) :=
    congrArg _ (serve_of_fresh hq (by rw [hp]; rfl))
  have hclass : fld q.payload 0 1 = 0xFF := by rw [hp, fld_cons_one]; rfl
  have hqueue : fld q.payload 1 1 = eq.toNat := by rw [hp, fld_one]; rfl
  have hzeros : zeros q.payload 2 6 = true := by rw [hp]; rfl
  have hvalid : eq.toNat ≤ 15 ∨ eq.toNat = 0xFF := heq.imp_right (congrArg BitVec.toNat)
  rw [hrun]
  simp only [cmdEventRoute, hclass, hqueue, hzeros]
  rw [checks_pass (by simp; omega), if_true]
  rfl

theorem exec_moduleReset_answers (q : Req) (s : State) (force : Bool) (hq : Claims.Fresh 0x0003 q s) (hfree : s.armed = false ∨ force = true)
    (hp : q.payload = [0x5A, 0xA5, if force then 1 else 0, 0, 0, 0, 0, 0]) :
    exec (.moduleReset q) s = .next ((Claims.ok { s.start q 0x0003 with
      boot := { s.boot with resetAt := some (s.aon + 1000000 * 2 ^ 32) } }).deliver q 0x0003) := by
  have hrun : exec (.moduleReset q) s = .next ((cmdModuleReset.run q (s.start q 0x0003)).deliver q 0x0003) :=
    congrArg _ (serve_of_fresh hq (by rw [hp]; rfl))
  have hconfirm : fld q.payload 0 2 = 0xA55A := by simp [hp, fld, leNat]
  have hforce : fld q.payload 2 1 = if force then 1 else 0 := by rw [hp, fld_one]; cases force <;> rfl
  have hzeros : zeros q.payload 3 5 = true := by rw [hp]; rfl
  have hstart : (s.start q 0x0003).armed = s.armed := rfl
  rw [hrun]
  simp only [cmdModuleReset, hconfirm, hforce, hzeros, hstart]
  have hflag : (if force then 1 else 0) ≤ 1 := by cases force <;> decide
  rw [checks_pass (by rcases hfree with h | h <;> simp [h, hflag, bit])]
  simp only [ms, ns, Nat.mul_one]
  rfl

/-- Settles O9: each command by the checks of its payload, MODULE_INFO by the fields of its answer. -/
theorem systemCommandsComplete : Obligations.SystemCommandsComplete := by
  unfold Obligations.SystemCommandsComplete
  exact ⟨exec_nop_answers, exec_nop_too_long,
    fun q s hq => ⟨_, exec_moduleInfo_answers q s hq, (s.start q 0x0001).moduleInfo_fields q.mb⟩,
    exec_eventRoute_sets, exec_eventRoute_reads, exec_moduleReset_answers⟩

end Sys2Proof.Machine
end

section
/-! PROOF. Replies of a mailbox and requests served again (17 R414, R415, R419, R421, R427; 19 R476): O11. -/

namespace Sys2Proof.Machine

/-! ### One mailbox of the array -/

@[simp] theorem State.box_setBox_self (s : State) (m : Fin 8) (b : Box) : (s.setBox m b).box m = b := Vector.getElem_set_self m.isLt

theorem State.box_setBox_ne (s : State) {m k : Fin 8} (h : k ≠ m) (b : Box) : (s.setBox m b).box k = s.box k :=
  Vector.getElem_set_ne m.isLt k.isLt (fun hval => h (Fin.ext hval.symm))

@[simp] theorem State.box_updBox_self (s : State) (m : Fin 8) (f : Box → Box) : (s.updBox m f).box m = f (s.box m) := s.box_setBox_self m _

theorem State.box_updBox_ne (s : State) {m k : Fin 8} (h : k ≠ m) (f : Box → Box) : (s.updBox m f).box k = s.box k := s.box_setBox_ne h _

/-! ### Vectors (R475) -/

theorem State.msix_of_unmasked {s : State} {v : Nat} (h : (s.hif.msixTable.toList.getD v 0).getLsbD 96 = false) :
    s.msix v = s.emit (.msix v) := by
  rw [msix, h, if_neg Bool.false_ne_true]

theorem State.msix_of_masked {s : State} {v : Nat} (h : (s.hif.msixTable.toList.getD v 0).getLsbD 96 = true) :
    s.msix v = { s with hif := { s.hif with msixPending := s.hif.msixPending ||| (1#64 <<< v) } } := by
  rw [msix, h, if_pos rfl]

/-- A vector touches the host interface and the wires. -/
theorem State.msix_only (s : State) (v : Nat) : s.msix v = { s with hif := (s.msix v).hif, wires := (s.msix v).wires } := by
  rcases hmask : (s.hif.msixTable.toList.getD v 0).getLsbD 96 with _ | _
  · rw [msix_of_unmasked hmask]; rfl
  · rw [msix_of_masked hmask]

theorem State.msix_wires (s : State) (v : Nat) :
    (s.msix v).wires = if (s.hif.msixTable.toList.getD v 0).getLsbD 96 = false then .msix v :: s.wires else s.wires := by
  rcases hmask : (s.hif.msixTable.toList.getD v 0).getLsbD 96 with _ | _
  · rw [msix_of_unmasked hmask, if_pos rfl]; rfl
  · rw [msix_of_masked hmask, if_neg nofun]

/-! ### A reply in a host mailbox's ring (R414, R421) -/

/-- The reply in its slot and the index one higher, before the vector. -/
def State.replyPlaced (s : State) (m : Fin 8) (msg : List Byte) : State :=
  ({ s with mbx := { s.mbx with ringMem := Memory.write s.mbx.ringMem (slotAddr m true (s.box m).rplTail) msg } }).setBox m
    { s.box m with rplTail := (s.box m).rplTail + 1 }

theorem State.writeReply_host {m : Fin 8} (hm : m.val < 4) (s : State) (msg : List Byte) :
    s.writeReply m msg = if (s.box m).replyIrq then (s.replyPlaced m msg).msix (1 + m.val) else s.replyPlaced m msg := by
  rw [writeReply, if_pos hm]
  rfl

theorem State.writeReply_host_mbx {m : Fin 8} (hm : m.val < 4) (s : State) (msg : List Byte) :
    (s.writeReply m msg).mbx = (s.replyPlaced m msg).mbx := by
  rw [writeReply_host hm]
  split <;> simp

theorem State.writeReply_host_only {m : Fin 8} (hm : m.val < 4) (s : State) (msg : List Byte) :
    Claims.OnlyMailboxes s (s.writeReply m msg) := by
  rw [Claims.OnlyMailboxes, writeReply_host hm]
  split
  · rw [msix_only]; rfl
  · rfl

theorem State.writeReply_host_wires {m : Fin 8} (hm : m.val < 4) (s : State) (msg : List Byte) :
    (s.writeReply m msg).wires =
      if (s.box m).replyIrq = true ∧ (s.hif.msixTable.toList.getD (1 + m.val) 0).getLsbD 96 = false then .msix (1 + m.val) :: s.wires
      else s.wires := by
  rw [writeReply_host hm, ite_and]
  split
  · exact msix_wires ..
  · rfl

theorem State.deliver_of_room {s : State} {m : Fin 8} (hheld : (s.box m).held = []) (hroom : (s.box m).room m = true)
    (msg : List Byte) : s.deliver m msg = s.writeReply m msg := by
  simp [deliver, hheld, hroom]

theorem Box.room_host {m : Fin 8} (hm : m.val < 4) (b : Box) : b.room m = decide ((b.rplTail - b.rplHead).toNat < 64) := by
  rw [room, if_pos hm]

theorem State.deliver_host_room (s : State) (m : Fin 8) (msg : List Byte) (hm : m.val < 4) (hheld : (s.box m).held = [])
    (hroom : ((s.box m).rplTail - (s.box m).rplHead).toNat < 64) (hwf : Memory.wf s.mbx.ringMem = true) :
    Claims.OnlyMailboxes s (s.deliver m msg) ∧ ((s.deliver m msg).box m) = { s.box m with rplTail := (s.box m).rplTail + 1 } ∧
    (∀ k, k ≠ m → (s.deliver m msg).box k = s.box k) ∧
    Memory.read (s.deliver m msg).mbx.ringMem (slotAddr m true (s.box m).rplTail) msg.length = msg ∧
    (s.deliver m msg).wires = (if (s.box m).replyIrq = true ∧ (s.hif.msixTable.toList.getD (1 + m.val) 0).getLsbD 96 = false
      then .msix (1 + m.val) :: s.wires else s.wires) := by
  have hbox (k : Fin 8) : (s.writeReply m msg).box k = (s.replyPlaced m msg).box k := by
    rw [State.box, State.writeReply_host_mbx hm]; rfl
  have hring : (s.writeReply m msg).mbx.ringMem = Memory.write s.mbx.ringMem (slotAddr m true (s.box m).rplTail) msg := by
    rw [State.writeReply_host_mbx hm]; rfl
  rw [State.deliver_of_room hheld (by rw [Box.room_host hm]; exact decide_eq_true hroom)]
  refine ⟨s.writeReply_host_only hm msg, ?_, fun k hk => ?_, ?_, s.writeReply_host_wires hm msg⟩
  · rw [hbox]; exact State.box_setBox_self ..
  · rw [hbox]; exact State.box_setBox_ne _ hk _
  · rw [hring]; exact Memory.read_write_self hwf

theorem State.deliver_host_held (s : State) (m : Fin 8) (msg : List Byte) (hm : m.val < 4)
    (hfull : (s.box m).held ≠ [] ∨ 64 ≤ ((s.box m).rplTail - (s.box m).rplHead).toNat) :
    s.deliver m msg = s.setBox m { s.box m with held := (s.box m).held ++ [msg] } := by
  have hno : ((s.box m).held.isEmpty && (s.box m).room m) = false := by
    rw [Box.room_host hm, Bool.and_eq_false_iff, decide_eq_false_iff_not, Nat.not_lt]
    exact hfull.imp_left (fun h => List.isEmpty_eq_false_iff.2 h)
  rw [deliver, if_neg (by simp [hno])]
  rfl

/-! ### The reply message (R419) -/

theorem replyMsg_fields (opcode tag : BitVec 16) (st : Status) (detail : Nat) (p : List Byte) (hp : p.length ≤ 240)
    (hdetail : detail < 2 ^ 32) :
    let r := replyMsg opcode tag st detail p
    r.length = 16 + p.length ∧ fld r 0 2 = opcode.toNat ∧ fld r 2 2 = tag.toNat ∧ fld r 4 2 = p.length ∧ fld r 6 2 = st.code.toNat ∧
      fld r 8 4 = detail ∧ fld r 12 4 = 0 ∧ r.drop 16 = p := by
  have hhalf (v : BitVec 16) : v.toNat % 256 ^ 2 = v.toNat := Nat.mod_eq_of_lt v.isLt
  have hlen : p.length % 256 ^ 2 = p.length := Nat.mod_eq_of_lt (Nat.lt_of_le_of_lt hp (by decide))
  have hdet : detail % 256 ^ 4 = detail := Nat.mod_eq_of_lt hdetail
  have hcode (r : List Byte) : fld ([st.code, 0] ++ r) 0 2 = st.code.toNat := by
    rw [fld_append_left _ _ (by simp)]
    simp [fld, leNat]
  have hzero (r : List Byte) : fld (zeroBytes 4 ++ r) 0 4 = 0 := fld_le 4 0 r
  refine ⟨?_, ?_, ?_, ?_, ?_, ?_, ?_, ?_⟩
  · simp [replyMsg]; omega
  case refine_8 => exact List.drop_left' (by simp)
  all_goals
    simp only [replyMsg, List.append_assoc]
    simp (disch := simp) only [fld_append_right, length_le, List.length_cons, List.length_nil, Nat.reduceAdd, Nat.reduceSub, fld_le,
      hhalf, hlen, hdet, hcode, hzero]

/-! ### A RETRY (R427) -/

theorem serve_of_remembered {c : Cmd} {q : Req} {s : State} {r : Remembered} (hretry : q.retry = true)
    (hfound : (s.box q.mb).memory.find? (fun x => x.tag = q.tag) = some r) :
    serve c q s = s.deliver q.mb
      (if r.opcode = BitVec.ofNat 16 c.opcode ∧ r.crc = crc32c 0 q.payload then
        (if r.pending then replyMsg r.opcode q.tag .accepted 0 [] else r.reply)
      else replyMsg (BitVec.ofNat 16 c.opcode) q.tag .badParam 0xFFFF0001 []) := by
  simp only [serve, hretry, if_true, hfound]
  split
  · split <;> rfl
  · rfl

theorem serve_of_not_remembered {c : Cmd} {q : Req} {s : State}
    (hnone : (s.box q.mb).memory.find? (fun x => x.tag = q.tag) = none) : serve c q s = c.execute q s := by
  simp [serve, hnone]

/-- Settles O11: a reply by the room of its ring, the message by its fields, a RETRY by what retry memory finds. -/
theorem repliesAreWritten : Obligations.RepliesAreWritten := by
  unfold Obligations.RepliesAreWritten
  exact ⟨fun s m msg hm hheld hroom hwf _ => s.deliver_host_room m msg hm hheld hroom hwf, State.deliver_host_held, replyMsg_fields,
    fun _ _ _ _ _ => serve_of_remembered, fun _ _ _ _ _ => serve_of_not_remembered, fun _ _ _ _ => serve_of_no_retry⟩

end Sys2Proof.Machine
end

section
/-! PROOF. Writes of the mailbox registers and of the global registers (17 R415, R416; 19 R474, R477, R481, R485): O13. -/

namespace Sys2Proof.Machine

/-! ### Values written to narrower registers -/

theorem ofNat_toNat_setWidth {w : Nat} (x : BitVec w) (n : Nat) : BitVec.ofNat n x.toNat = x.setWidth n := BitVec.ofNat_toNat n x

/-! ### The registers of a mailbox (R415, R471) -/

theorem regAt_mailbox (m : Fin 4) {o : Nat} (ho : o < 64) : regAt (0x10000 + 64 * m.val + o) = .mailbox m o := by
  have hm := m.isLt
  unfold regAt
  rw [if_neg (by omega), if_neg (by omega), if_neg (by omega), if_pos (by omega)]
  have hindex : (0x10000 + 64 * m.val + o - 0x10000) / 64 % 4 = m.val := by omega
  have hoffset : (0x10000 + 64 * m.val + o - 0x10000) % 64 = o := by omega
  simp only [hindex, hoffset]

/-- The page before the mailboxes is reserved. -/
theorem wide_before_mailboxes {a : Nat} (hlo : 0xC008 ≤ a) (hhi : a < 0x10000) : wide a = false := by
  have hreg : regAt a = .reserved := by
    unfold regAt
    rw [if_neg (by omega), if_neg (by omega), if_neg (by omega), if_neg (by omega), if_neg (by omega), if_neg (by omega),
      if_neg (by omega), if_neg (by omega), if_neg (by omega)]
  rw [wide, hreg]

/-- The registers of the mailboxes have 32 bits. -/
theorem wide_mailbox {a : Nat} (hlo : 0x10000 ≤ a) (hhi : a < 0x10100) : wide a = false := by
  have hreg : regAt a = .mailbox ⟨(a - 0x10000) / 64 % 4, Nat.mod_lt _ (by decide)⟩ ((a - 0x10000) % 64) := by
    unfold regAt
    rw [if_neg (by omega), if_neg (by omega), if_neg (by omega), if_pos (by omega)]
  rw [wide, hreg]

theorem narrow_mailbox (m : Fin 4) {o : Nat} (ho : o < 64) : Narrow (0x10000 + 64 * m.val + o) := by
  have hm := m.isLt
  refine ⟨wide_mailbox (by omega) (by omega), fun _ => ?_⟩
  rcases Nat.lt_or_ge (0x10000 + 64 * m.val + o - 4) 0x10000 with h | h
  · exact wide_before_mailboxes (by omega) h
  · exact wide_mailbox h (by omega)

/-- A 4-byte write reaches the register of the mailbox. -/
theorem State.bar0Write_mailbox {s : State} (hup : s.hostUp = true) (m : Fin 4) {o : Nat} (ho : o < 64) (halign : o % 4 = 0)
    (v : BitVec 32) : s.bar0Write (0x10000 + 64 * m.val + o) 4 v.toNat = s.mailboxWrite m o v.toNat := by
  rw [bar0Write_four hup (by omega), Nat.mod_eq_of_lt v.isLt, write4_of_narrow (narrow_mailbox m ho), wordWrite, regAt_mailbox m ho]

theorem exec_reqTailWrite (m : Fin 4) (v : BitVec 32) (s : State) (hup : s.hostUp = true) :
    let i : Fin 8 := ⟨m.val, by omega⟩
    let b := s.box i
    let x : BitVec 7 := v.setWidth 7
    exec (.reqTailWrite m v) s = .next (s.setBox i (if (b.reqTail - b.reqHead).toNat ≤ (x - b.reqHead).toNat ∧ (x - b.reqHead).toNat ≤ 64
      then { b with reqTail := x } else { b with overrun := true })) := by
  have hwrite : s.bar0Write (0x10000 + 64 * m.val) 4 v.toNat = s.mailboxWrite m 0 v.toNat :=
    State.bar0Write_mailbox hup m (o := 0) (by decide) rfl v
  intro i b x
  rw [show x = BitVec.ofNat 7 v.toNat from (ofNat_toNat_setWidth v 7).symm]
  exact congrArg _ hwrite

theorem exec_rplHeadWrite (m : Fin 4) (v : BitVec 32) (s : State) (hup : s.hostUp = true) :
    let i : Fin 8 := ⟨m.val, by omega⟩
    let b := s.box i
    let x : BitVec 7 := v.setWidth 7
    exec (.rplHeadWrite m v) s = .next (s.setBox i (if (b.rplTail - x).toNat ≤ (b.rplTail - b.rplHead).toNat
      then { b with rplHead := x } else { b with overrun := true })) := by
  have hwrite := State.bar0Write_mailbox hup m (o := 0xC) (by decide) rfl v
  rw [show 0x10000 + 64 * m.val + 0xC = 0x1000C + 64 * m.val by omega] at hwrite
  intro i b x
  rw [show x = BitVec.ofNat 7 v.toNat from (ofNat_toNat_setWidth v 7).symm]
  exact congrArg _ hwrite

theorem exec_mbStatusClear (m : Fin 4) (v : BitVec 32) (s : State) (hup : s.hostUp = true) :
    let i : Fin 8 := ⟨m.val, by omega⟩
    let b := s.box i
    exec (.mbStatusClear m v) s = .next (s.setBox i { b with
      hostReset := b.hostReset && !v.getLsbD 1, overrun := b.overrun && !v.getLsbD 4 }) := by
  have hwrite := State.bar0Write_mailbox hup m (o := 0x14) (by decide) rfl v
  rw [show 0x10000 + 64 * m.val + 0x14 = 0x10014 + 64 * m.val by omega] at hwrite
  exact congrArg _ hwrite

/-! ### The global registers (R474, R481, R485) -/

/-- A 4-byte write reaches a global register of 32 bits. -/
theorem State.bar0Write_word {s : State} (hup : s.hostUp = true) {a : Nat} (ha : a % 4 = 0) (hnarrow : Narrow a) (v : BitVec 32) :
    s.bar0Write a 4 v.toNat = s.wordWrite a v.toNat := by
  rw [bar0Write_four hup ha, Nat.mod_eq_of_lt v.isLt, write4_of_narrow hnarrow]

theorem exec_globalFaultClear (v : BitVec 32) (s : State) (hup : s.hostUp = true) :
    let now := s.hif.globalFault &&& ~~~(v.setWidth 8)
    let t : State := { s with hif := { s.hif with globalFault := now } }
    exec (.globalFaultClear v) s =
      .next (if now ≠ s.hif.globalFault ∧ now &&& ~~~s.hif.faultMask ≠ 0 then t.msix 0 else t) := by
  have hwrite : s.bar0Write 0x08 4 v.toNat = s.globalFaultWrite v.toNat :=
    State.bar0Write_word (a := 0x08) hup rfl ⟨rfl, fun _ => rfl⟩ v
  rw [← ofNat_toNat_setWidth]
  exact congrArg _ hwrite

theorem testBit_maskOf (l : List Bool) (i : Nat) : (maskOf l).testBit i = l.getD i false := by
  induction l generalizing i with
  | nil => simp [maskOf]
  | cons b l ih =>
    have hhead : (b2n b + 2 * maskOf l) / 2 = maskOf l := by cases b <;> simp [b2n]; omega
    cases i with
    | zero => cases b <;> simp [maskOf, b2n, Nat.testBit_zero]
    | succ i => rw [maskOf, Nat.testBit_succ, hhead, ih, List.getD_cons_succ]

/-- The assignment in effect keeps the channels in the middle of a transfer (R481). -/
theorem State.assign_bdAssign (s : State) (c : Fin 32) :
    s.assign.hif.bdAssign.getLsbD c.val =
      if (s.chan (hostChan c)).state = .active then s.hif.bdAssign.getLsbD c.val else s.hif.assignWanted.getLsbD c.val := by
  have hbit : (maskOf ((List.finRange 32).map (fun i => (s.chan (hostChan i)).state == .active))).testBit c.val =
      ((s.chan (hostChan c)).state == .active) := by
    rw [testBit_maskOf, List.getD_eq_getElem?_getD, List.getElem?_map, List.getElem?_eq_getElem (by simp)]
    simp
  simp only [assign, BitVec.getLsbD_or, BitVec.getLsbD_and, BitVec.getLsbD_not, BitVec.getLsbD_ofNat, hbit, c.isLt, decide_true,
    Bool.true_and]
  by_cases hactive : (s.chan (hostChan c)).state = .active
  · simp [hactive]
  · simp [hactive, beq_eq_false_iff_ne.2 hactive]

theorem exec_bdAssignWrite (v : BitVec 32) (s : State) (hup : s.hostUp = true) : ∃ a : BitVec 32,
    exec (.bdAssignWrite v) s = .next { s with hif := { s.hif with assignWanted := v, bdAssign := a } } ∧
    ∀ c : Fin 32, a.getLsbD c.val = if (s.chan (hostChan c)).state = .active then s.hif.bdAssign.getLsbD c.val else v.getLsbD c.val := by
  let t : State := { s with hif := { s.hif with assignWanted := v } }
  have hwrite : s.bar0Write 0x18 4 v.toNat = t.assign := by
    rw [State.bar0Write_word (a := 0x18) hup rfl ⟨rfl, fun _ => rfl⟩ v,
      show s.wordWrite 0x18 v.toNat = s.assignWrite v.toNat from rfl, State.assignWrite, BitVec.ofNat_toNat, BitVec.setWidth_eq]
  exact ⟨t.assign.hif.bdAssign, congrArg _ hwrite, t.assign_bdAssign⟩

/-- Pulses join those on their way in the order of their lines. -/
theorem State.foldl_drq (p : Fin 32 → Bool) (line : Fin 32 → Fin 64) (l : List (Fin 32)) (s : State) :
    l.foldl (fun s i => if p i then s.drq (line i) else s) s =
      { s with dma := { s.dma with pulses := s.dma.pulses ++ (l.filter p).map line } } := by
  induction l generalizing s with
  | nil => simp
  | cons i l ih =>
    rw [List.foldl_cons, ih]
    cases hp : p i <;> simp [hp, drq]

theorem exec_drqSoftWrite (v : BitVec 32) (s : State) (hup : s.hostUp = true) :
    let new : List (Fin 64) := ((List.finRange 32).filter (fun i => v.getLsbD i.val)).map (fun i => ⟨32 + i.val, by omega⟩)
    exec (.drqSoftWrite v) s = .next { s with dma := { s.dma with pulses := s.dma.pulses ++ new } } := by
  have hwrite : s.bar0Write 0x1C 4 v.toNat = s.drqSoft v.toNat :=
    State.bar0Write_word (a := 0x1C) hup rfl ⟨rfl, fun _ => rfl⟩ v
  exact congrArg _ (hwrite.trans (State.foldl_drq (fun i => v.getLsbD i.val) _ _ s))

/-! ### BAR2_BASE (R477) -/

/-- Bits 37 to 20 of a value, in place. -/
theorem ofNat_megabytes (v : BitVec 64) : BitVec.ofNat 64 (v.toNat % 2 ^ 38 / 2 ^ 20 * 2 ^ 20) = v &&& 0x3FFFF00000#64 := by
  have hmask : ∀ i : Fin 64, (0x3FFFF00000#64).getLsbD i.val = decide (20 ≤ i.val ∧ i.val < 38) := by decide
  apply BitVec.eq_of_getLsbD_eq
  intro i hi
  rw [BitVec.getLsbD_and, hmask ⟨i, hi⟩, BitVec.getLsbD_ofNat, ← Nat.shiftLeft_eq, Nat.testBit_shiftLeft, Nat.testBit_div_two_pow,
    Nat.testBit_mod_two_pow, decide_eq_true hi, Bool.true_and]
  rcases Nat.lt_or_ge i 20 with hlow | hlow
  · simp [Nat.not_le.2 hlow]
  · rw [Nat.sub_add_cancel hlow]
    simp [hlow, BitVec.getLsbD, Bool.and_comm]

theorem exec_bar2BaseWrite_whole (v : BitVec 64) (s : State) (hup : s.hostUp = true) :
    exec (.bar2BaseWrite .whole v) s = .next { s with hif := { s.hif with bar2Base := v &&& 0x3FFFF00000#64 } } := by
  have hwrite : s.bar0Write 0x400000 8 v.toNat = s.wideWrite 0x400000 v.toNat := by
    rw [State.bar0Write, hup, State.write8, show wide 0x400000 = true from rfl]
    rfl
  rw [← ofNat_megabytes]
  exact congrArg _ hwrite

/-- Settles O13: each register by the write that reaches it. -/
theorem mailboxAndGlobalRegistersComplete : Obligations.MailboxAndGlobalRegistersComplete := by
  unfold Obligations.MailboxAndGlobalRegistersComplete
  exact ⟨⟨exec_reqTailWrite, exec_rplHeadWrite, exec_mbStatusClear⟩,
    exec_globalFaultClear, exec_bdAssignWrite, exec_drqSoftWrite, exec_bar2BaseWrite_whole⟩

end Sys2Proof.Machine
end

section
/-! PROOF. The registers of a queue and its records (19 R489, R490): O17. -/

namespace Sys2Proof.Machine

/-! ### One queue of the state -/

theorem State.que_updQue_ne (s : State) {q k : Fin 48} (h : k ≠ q) (f : Que → Que) : (s.updQue q f).que k = s.que k :=
  Vector.getElem_set_ne q.isLt k.isLt (fun hval => h (Fin.ext hval.symm))

theorem State.updQue_congr {s : State} {q : Fin 48} {f g : Que → Que} (h : f (s.que q) = g (s.que q)) : s.updQue q f = s.updQue q g := by
  unfold updQue upd
  rw [show f s.dma.queues[q] = g s.dma.queues[q] from h]

/-! ### Its registers behind the base (R489) -/

theorem narrow_queue (q : Fin 48) {o : Nat} (hlo : 8 ≤ o) (hhi : o < 64) : Narrow (0x200000 + 64 * q.val + o) := by
  have hbefore : 0x200000 + 64 * q.val + o - 4 = 0x200000 + 64 * q.val + (o - 4) := by omega
  have hthirtyTwo {k : Nat} (hk : k < 64) (h₀ : k ≠ 0) : wide (0x200000 + 64 * q.val + k) = false := by
    rw [wide, regAt_queue q hk]
    exact beq_eq_false_iff_ne.2 h₀
  refine ⟨hthirtyTwo hhi (by omega), fun _ => ?_⟩
  rw [hbefore]
  exact hthirtyTwo (by omega) (by omega)

/-- A 4-byte write behind the base reaches the register of the queue. -/
theorem State.write4_queue (s : State) (q : Fin 48) {o : Nat} (hlo : 8 ≤ o) (hhi : o < 64) (v : Nat) :
    s.write4 (0x200000 + 64 * q.val + o) v = s.queWrite q o v := by
  rw [write4_of_narrow (narrow_queue q hlo hhi), wordWrite, regAt_queue q hhi]

theorem State.bar0Write_queue {s : State} (hup : s.hostUp = true) (q : Fin 48) {o : Nat} (hlo : 8 ≤ o) (hhi : o < 64)
    (halign : o % 4 = 0) (v : BitVec 32) : s.bar0Write (0x200000 + 64 * q.val + o) 4 v.toNat = s.queWrite q o v.toNat := by
  rw [bar0Write_four hup (by omega), Nat.mod_eq_of_lt v.isLt, write4_queue s q hlo hhi]

theorem exec_qCtrl {s : State} (hup : s.hostUp = true) (n : Fin 48) (v : BitVec 32) :
    exec (.qCtrlEnable n v) s = .next (s.qCtrlWrite n v.toNat) := by
  have hwrite := State.bar0Write_queue hup n (o := 0xC) (by decide) (by decide) rfl v
  rw [show 0x200000 + 64 * n.val + 0xC = 0x20000C + 64 * n.val by omega] at hwrite
  exact congrArg _ hwrite

/-- The fields of Q_CTRL but `enable`. -/
def Que.ctrlWritten (v : BitVec 32) (x : Que) : Que :=
  { x with irqEn := v.getLsbD 1, ns := v.getLsbD 2, coalCount := (v >>> 8).setWidth 8, coalUs := (v >>> 16).setWidth 10 }

theorem ofNat_bits_eight (v : BitVec 32) : BitVec.ofNat 8 (bits v.toNat 8 8) = (v >>> 8).setWidth 8 := by
  apply BitVec.eq_of_toNat_eq
  simp [bits, Nat.shiftRight_eq_div_pow]

theorem ofNat_bits_sixteen (v : BitVec 32) : BitVec.ofNat 10 (bits v.toNat 16 10) = (v >>> 16).setWidth 10 := by
  apply BitVec.eq_of_toNat_eq
  simp [bits, Nat.shiftRight_eq_div_pow]

/-- Setting `enable` of a queue that is not enabled: enabled with its indices at 0, or refused. -/
theorem State.qCtrlWrite_enable {s : State} {n : Fin 48} {v : BitVec 32} (hset : v.getLsbD 0 = true) (hoff : (s.que n).enable = false) :
    s.qCtrlWrite n v.toNat = s.updQue n (fun _ =>
      if 4 ≤ (s.que n).log2Size.toNat ∧ (s.que n).log2Size.toNat ≤ 16 ∧ (s.que n).base ≠ 0 then
        { (s.que n).ctrlWritten v with enable := true, tail := 0, head := 0, lost := 0, unsignalled := 0 }
      else { (s.que n).ctrlWritten v with enable := false, cfgError := true }) := by
  have hbit : bit v.toNat 0 = true := hset
  simp only [qCtrlWrite, hbit, hoff, ofNat_bits_eight, ofNat_bits_sixteen, Bool.not_false, Bool.and_true, if_true, Bool.and_eq_true,
    decide_eq_true_eq, bne_iff_ne, and_assoc]
  rfl

theorem exec_qCtrlEnable_good (n : Fin 48) (v : BitVec 32) (s : State) (hup : s.hostUp = true) (hset : v.getLsbD 0 = true)
    (hoff : (s.que n).enable = false) (hlo : 4 ≤ (s.que n).log2Size.toNat) (hhi : (s.que n).log2Size.toNat ≤ 16) (hbase : (s.que n).base ≠ 0) :
    exec (.qCtrlEnable n v) s = .next (s.updQue n (fun x => { x with
      enable := true, tail := 0, head := 0, lost := 0, unsignalled := 0, irqEn := v.getLsbD 1, ns := v.getLsbD 2
      coalCount := (v >>> 8).setWidth 8, coalUs := (v >>> 16).setWidth 10 })) := by
  rw [exec_qCtrl hup, State.qCtrlWrite_enable hset hoff, if_pos ⟨hlo, hhi, hbase⟩]
  rfl

theorem exec_qCtrlEnable_refused (n : Fin 48) (v : BitVec 32) (s : State) (hup : s.hostUp = true) (hset : v.getLsbD 0 = true)
    (hoff : (s.que n).enable = false)
    (hbad : (s.que n).log2Size.toNat < 4 ∨ 16 < (s.que n).log2Size.toNat ∨ (s.que n).base = 0) :
    ∃ x, exec (.qCtrlEnable n v) s = .next (s.updQue n (fun _ => x)) ∧ x.enable = false ∧ x.cfgError = true := by
  have hno : ¬ (4 ≤ (s.que n).log2Size.toNat ∧ (s.que n).log2Size.toNat ≤ 16 ∧ (s.que n).base ≠ 0) := by
    rintro ⟨hlo, hhi, hbase⟩
    rcases hbad with h | h | h
    · exact Nat.not_lt.2 hlo h
    · exact Nat.not_lt.2 hhi h
    · exact hbase h
  rw [exec_qCtrl hup, State.qCtrlWrite_enable hset hoff, if_neg hno]
  exact ⟨_, rfl, rfl, rfl⟩

theorem exec_qHeadWrite (n : Fin 48) (v : BitVec 32) (s : State) (hup : s.hostUp = true) :
    let x := s.que n
    let size := 2 ^ x.log2Size.toNat
    let h := v.toNat % 2 ^ 17
    exec (.qHeadWrite n v) s = .next (s.updQue n (fun x =>
      if h < 2 * size ∧ (x.tail.toNat + 2 * size - h) % (2 * size) ≤ (x.tail.toNat + 2 * size - x.head.toNat) % (2 * size)
      then { x with head := BitVec.ofNat 17 h } else { x with headError := true })) := by
  have hwrite := State.bar0Write_queue hup n (o := 0x14) (by decide) (by decide) rfl v
  rw [show 0x200000 + 64 * n.val + 0x14 = 0x200014 + 64 * n.val by omega] at hwrite
  intro x size h
  refine (congrArg _ hwrite).trans (congrArg _ ?_)
  rw [show s.queWrite n 0x14 v.toNat = s.qHeadWrite n v.toNat from rfl, State.qHeadWrite]
  by_cases hfits : h < 2 * size ∧ (x.tail.toNat + 2 * size - h) % (2 * size) ≤ (x.tail.toNat + 2 * size - x.head.toNat) % (2 * size)
  · exact (if_pos hfits).trans (State.updQue_congr (if_pos hfits).symm)
  · exact (if_neg hfits).trans (State.updQue_congr (if_neg hfits).symm)

theorem exec_qStatusClear (n : Fin 48) (v : BitVec 32) (s : State) (hup : s.hostUp = true) :
    exec (.qStatusClear n v) s = .next (s.updQue n (fun x => { x with
      cfgError := x.cfgError && !v.getLsbD 2, headError := x.headError && !v.getLsbD 3 })) := by
  have hwrite := State.bar0Write_queue hup n (o := 0x18) (by decide) (by decide) rfl v
  rw [show 0x200000 + 64 * n.val + 0x18 = 0x200018 + 64 * n.val by omega] at hwrite
  exact congrArg _ hwrite

theorem exec_write_enabled_queue (n : Fin 48) (v : BitVec 64) (s : State) (hup : s.hostUp = true) (hon : (s.que n).enable = true) :
    exec (.bar0RegisterWrite (BitVec.ofNat 24 (0x200000 + 64 * n.val)) 8 v) s = .next s ∧
    exec (.bar0RegisterWrite (BitVec.ofNat 24 (0x200008 + 64 * n.val)) 4 v) s = .next s := by
  have hn := n.isLt
  have hbase : (BitVec.ofNat 24 (0x200000 + 64 * n.val)).toNat = 0x200000 + 64 * n.val := by
    rw [BitVec.toNat_ofNat, Nat.mod_eq_of_lt (by omega)]
  have hsize : (BitVec.ofNat 24 (0x200008 + 64 * n.val)).toNat = 0x200000 + 64 * n.val + 8 := by
    rw [BitVec.toNat_ofNat, Nat.mod_eq_of_lt (by omega)]
    omega
  refine ⟨?_, ?_⟩
  · have haligned : (8 : Nat) = 8 ∧ (0x200000 + 64 * n.val) % 8 = 0 := ⟨rfl, by omega⟩
    rw [exec_bar0RegisterWrite, hbase, State.bar0Write, hup, if_neg (by decide), if_neg (by omega), if_pos haligned, State.write8,
      if_pos (wide_queueBase n), State.wideWrite_queueBase, State.qBaseWrite, if_pos hon]
  · rw [exec_bar0RegisterWrite, hsize, State.bar0Write_four hup (by omega), State.write4_queue s n (by decide) (by decide)]
    exact congrArg _ (if_pos hon)

/-! ### Records (R490, R494) -/

/-- A queue without an interrupt signals nothing. -/
theorem State.announce_silent {s : State} {q : Fin 48} (h : (s.que q).irqEn = false) : s.announce q = s := by
  simp [announce, h]

theorem State.writeRecord_silent (s : State) (q : Fin 48) (record : Bool → List Byte) (hsilent : (s.que q).irqEn = false) :
    let x := s.que q
    let n := if q.val < 32 then 32 else 64
    let a := x.base.toNat + x.tail.toNat % 2 ^ x.log2Size.toNat * n
    let p := record (!x.tail.toNat.testBit x.log2Size.toNat)
    s.writeRecord q record = ({ s with
      wires := .hostWrite (a + (n - 4)) (p.drop (n - 4)) x.ns :: .hostWrite a (p.take (n - 4)) x.ns :: s.wires } : State).updQue q
      (fun x => { x with tail := BitVec.ofNat 17 ((x.tail.toNat + 1) % (2 * 2 ^ x.log2Size.toNat)) }) := by
  intro x n a p
  rw [State.writeRecord, State.announce_silent]
  · rfl
  · rw [State.que_updQue_self]
    exact hsilent

/-- Settles O17: each register by the write that reaches it, a record by its slot. -/
theorem queueRegistersComplete : Obligations.QueueRegistersComplete := by
  unfold Obligations.QueueRegistersComplete
  exact ⟨exec_qCtrlEnable_good, exec_qCtrlEnable_refused, exec_qHeadWrite, exec_qStatusClear, exec_write_enabled_queue,
    State.writeRecord_silent⟩

end Sys2Proof.Machine
end

section
/-! PROOF. Lost records, the coalescing timer and the reset of the host domain (17 R428; 19 R470, R475, R476, R493): O18. -/

namespace Sys2Proof.Machine

/-! ### Events of one record (R492, R493) -/

theorem Ev.count_of_short {e : Ev} (h : e.data.length ≤ 40) : e.count = 1 := by
  rw [Ev.count, cdiv]
  omega

theorem State.writeEvent_of_short {e : Ev} (h : e.data.length ≤ 40) (s : State) (n : Fin 16) :
    s.writeEvent n e = s.writeRecord (eqIndex n) (e.record 0) := by
  rw [writeEvent, Ev.count_of_short h]
  rfl

/-- Room has returned to a queue that holds nothing: its EVQ_LOST record alone is written. -/
theorem State.drainQue_lost {s : State} {n : Fin 16} (hon : (s.que (eqIndex n)).enable = true) (hroom : 1 ≤ (s.que (eqIndex n)).space)
    (hlost : (s.que (eqIndex n)).lostSince ≠ 0) (hheld : (s.que (eqIndex n)).held = []) :
    s.drainQue n = (s.writeRecord (eqIndex n) ((s.lostEvent (s.que (eqIndex n)).lostSince).record 0)).updQue (eqIndex n)
      (fun x => { x with lostSince := 0 }) := by
  have hgo : (!(s.que (eqIndex n)).enable || (s.que (eqIndex n)).space == 0) = false := by
    rw [hon, Bool.not_true, Bool.false_or, beq_eq_false_iff_ne]
    omega
  rw [drainQue, hgo, if_neg Bool.false_ne_true, if_neg hlost, hheld, writeHeld, writeEvent_of_short]
  rw [lostEvent]
  simp [evData]

theorem exec_evqLost_writes (n : Fin 16) (t : Nat) (s : State) (hon : (s.que (eqIndex n)).enable = true)
    (hroom : 1 ≤ (s.que (eqIndex n)).space) (hlost : (s.que (eqIndex n)).lostSince ≠ 0) (hheld : (s.que (eqIndex n)).held = []) :
    exec (.evqLost n t) s = .next (((s.at t).writeRecord (eqIndex n) (((s.at t).lostEvent (s.que (eqIndex n)).lostSince).record 0)).updQue
      (eqIndex n) (fun x => { x with lostSince := 0 })) :=
  congrArg _ (State.drainQue_lost (s := s.at t) hon hroom hlost hheld)

/-! ### The coalescing timer (R476) -/

theorem us_eq (n : Nat) : us n = n * 1000 * 2 ^ 32 := by rw [us, ns, Nat.mul_comm 1000 n]

theorem exec_queueInterruptTimer_signals (n : Fin 48) (t : Nat) (s : State) (hon : (s.que n).enable = true) (hirq : (s.que n).irqEn = true)
    (hcoal : (s.que n).coalUs ≠ 0) (hwaits : 0 < (s.que n).unsignalled)
    (hdue : (s.que n).since + (s.que n).coalUs.toNat * 1000 * 2 ^ 32 ≤ max s.aon t) :
    exec (.queueInterruptTimer n t) s = .next (((s.at t).updQue n (fun x => { x with unsignalled := 0 })).msix (5 + n.val)) := by
  have hpos : 0 < (s.que n).coalUs.toNat := Nat.pos_of_ne_zero (fun h => hcoal (BitVec.eq_of_toNat_eq h))
  have hnow : ((s.que n).enable && (s.que n).irqEn && decide (0 < (s.que n).coalUs.toNat ∧ 0 < (s.que n).unsignalled ∧
      (s.que n).since + us (s.que n).coalUs.toNat ≤ (s.at t).aon)) = true := by
    rw [hon, hirq, us_eq]
    exact decide_eq_true ⟨hpos, hwaits, hdue⟩
  exact congrArg _ (if_pos hnow)

/-! ### PERST# and its release (R428, R470) -/

/-- With no transfer from host memory in progress none fails. -/
theorem State.failHostReads_of_none {s : State} (htiles : (s.hamper.stagings.all (fun g => !g.srcHost)) = true)
    (hlists : (s.hamper.listStagings.all (fun g => !g.srcHost)) = true) : s.failHostReads = s := by
  have hnotile : s.hamper.stagings.filter (·.srcHost) = [] := by simpa using htiles
  have hnolist : s.hamper.listStagings.filter (·.srcHost) = [] := by simpa using hlists
  have htilesKept : s.hamper.stagings.filter (fun g => !g.srcHost) = s.hamper.stagings := by simpa using htiles
  have hlistsKept : s.hamper.listStagings.filter (fun g => !g.srcHost) = s.hamper.listStagings := by simpa using hlists
  rw [failHostReads, hnotile, hnolist, htilesKept, hlistsKept]
  rfl

theorem State.hostDomainReset_box (s : State) (m : Fin 8) :
    s.hostDomainReset.box m = if m.val < 4 then (s.box m).hostReset_ else s.box m := Vector.getElem_ofFn ..

theorem State.hostDomainReset_que (s : State) (q : Fin 48) : s.hostDomainReset.que q = (s.que q).hostReset := Vector.getElem_map ..

/-- The state behind PERST#, before transfers from host memory fail. -/
def State.perstReset (s : State) : State :=
  { s.hostDomainReset with clk := { s.clk with inReset := s.clk.inReset ||| 4#12 } }

theorem exec_perst_resets (t : Nat) (s : State) (htiles : (s.hamper.stagings.all (fun g => !g.srcHost)) = true)
    (hlists : (s.hamper.listStagings.all (fun g => !g.srcHost)) = true) :
    ∃ u, exec (.perst t) s = .next u ∧ u.hif.inReset = true ∧ (∀ q : Fin 48, (u.que q).enable = false ∧ (u.que q).held = (s.que q).held) ∧
      (∀ m : Fin 8, m.val < 4 → (u.box m).reqTail = 0 ∧ (u.box m).reqHead = 0 ∧ (u.box m).rplTail = 0 ∧ (u.box m).rplHead = 0 ∧
        (u.box m).held = [] ∧ (u.box m).memory = (s.box m).memory ∧ (∀ x ∈ (u.box m).outstanding, x.muted = true)) ∧
      (∀ m : Fin 8, 4 ≤ m.val → u.box m = s.box m) ∧ u.hif.bar2Base = 0x3400000000 ∧ u.hif.bdAssign = 0xFFFFFFFF ∧
      u.hif.rdFaults = s.hif.rdFaults ∧ u.hif.wrFaults = s.hif.wrFaults ∧ u.hif.dmaFaults = s.hif.dmaFaults ∧ u.mem = s.mem ∧
      u.job = s.job := by
  have hrun : exec (.perst t) s = .next (s.at t).perstReset :=
    congrArg _ (State.failHostReads_of_none (s := (s.at t).perstReset) htiles hlists)
  have hbox (m : Fin 8) : (s.at t).perstReset.box m = if m.val < 4 then (s.box m).hostReset_ else s.box m :=
    (s.at t).hostDomainReset_box m
  have hque (q : Fin 48) : (s.at t).perstReset.que q = (s.que q).hostReset := (s.at t).hostDomainReset_que q
  refine ⟨_, hrun, rfl, fun q => ?_, fun m hm => ?_, fun m hm => ?_, rfl, rfl, rfl, rfl, rfl, rfl, rfl⟩
  · rw [hque]; exact ⟨rfl, rfl⟩
  · rw [hbox, if_pos hm]
    refine ⟨rfl, rfl, rfl, rfl, rfl, rfl, fun x hx => ?_⟩
    obtain ⟨y, -, rfl⟩ := List.mem_map.1 hx
    rfl
  · rw [hbox, if_neg (Nat.not_lt.2 hm)]

/-- The host domain out of reset. -/
def State.perstReleased (s : State) : State :=
  { s with
    hif := { s.hif with inReset := false }
    clk := { s.clk with inReset := s.clk.inReset &&& ~~~4#12 }
    mbx := { s.mbx with boxes := Vector.ofFn (fun m : Fin 8 => if m.val < 4 then { s.box m with hostReset := true } else s.box m) } }

theorem exec_perstRelease_up (t : Nat) (s : State) (hreset : s.hif.inReset = true) (hpower : s.pwr.powered.getLsbD 2 = true)
    (hboot : 4 ≤ s.boot.stage.toNat) :
    ∃ u, exec (.perstRelease t) s = .next u ∧ u.hif.inReset = false ∧
      (∀ m : Fin 8, u.box m = if m.val < 4 then { s.box m with hostReset := true } else s.box m) ∧
      u = { s.at t with hif := u.hif, clk := u.clk, mbx := u.mbx } := by
  have hnow : ((s.at t).hif.inReset && (s.at t).poweredOn 2 && decide (4 ≤ (s.at t).boot.stage.toNat)) = true := by
    simp only [Bool.and_eq_true, decide_eq_true_eq]
    exact ⟨⟨hreset, hpower⟩, hboot⟩
  have hrun : exec (.perstRelease t) s = .next (s.at t).perstReleased := congrArg _ (if_pos hnow)
  exact ⟨_, hrun, rfl, fun _ => Vector.getElem_ofFn .., rfl⟩

/-- Settles O18: EVQ_LOST by the room of its queue, the timer by its moment, PERST# by the reset of the host domain. -/
theorem queueEventsComplete : Obligations.QueueEventsComplete := by
  unfold Obligations.QueueEventsComplete
  exact ⟨exec_evqLost_writes, exec_queueInterruptTimer_signals, exec_perst_resets, exec_perstRelease_up⟩

end Sys2Proof.Machine
end

section
/-! PROOF. Request pulses, reads and the ends of transfers of Bulk DMA (19 R484, R485, R487, R488, R491, R493): O16. -/

namespace Sys2Proof.Machine

/-! ### What the read engine keeps -/

/-- `t` is `s` after reads went out: no read and no output is lost, and no channel whose transfer has failed asks for more. -/
structure State.ReadsAdded (s t : State) : Prop where
  chans : t.dma.chans = s.dma.chans
  reads : ∀ r ∈ s.dma.reads, r ∈ t.dma.reads
  wires : ∀ w ∈ s.wires, w ∈ t.wires
  asking : ∀ r ∈ t.dma.reads, r ∈ s.dma.reads ∨ (s.chan r.1).ended = none

theorem State.ReadsAdded.refl (s : State) : ReadsAdded s s := ⟨rfl, fun _ => id, fun _ => id, fun _ => .inl⟩

theorem State.ReadsAdded.trans {s t u : State} (h₁ : ReadsAdded s t) (h₂ : ReadsAdded t u) : ReadsAdded s u where
  chans := h₂.chans.trans h₁.chans
  reads r hr := h₂.reads r (h₁.reads r hr)
  wires w hw := h₂.wires w (h₁.wires w hw)
  asking r hr := by
    have hchan : t.chan r.1 = s.chan r.1 := congrArg (fun v => v[r.1]) h₁.chans
    rcases h₂.asking r hr with hold | hnew
    · exact h₁.asking r hold
    · exact .inr (hchan ▸ hnew)

theorem State.ended_of_wantsRead {s : State} {c : Fin 48} (h : s.wantsRead c = true) : (s.chan c).ended = none := by
  simp only [wantsRead, Bool.and_eq_true, Option.isNone_iff_eq_none] at h
  obtain ⟨⟨⟨⟨_, hended⟩, _⟩, _⟩, _⟩ := h
  exact hended

theorem State.readOut_wires (s : State) (c : Fin 48) (done n : Nat) {w : Wire} (hw : w ∈ s.wires) : w ∈ (s.readOut c done n).wires := by
  simp only [readOut]
  split
  · exact hw
  · exact List.mem_cons_of_mem _ hw

theorem State.readsAdded_issueRead {s : State} {c : Fin 48} (hwants : s.wantsRead c = true) : ReadsAdded s (s.issueRead c) := by
  rw [issueRead, readOut_eq]
  refine ⟨rfl, fun r => List.mem_append_left _, fun w => s.readOut_wires c _ _, fun r hr => ?_⟩
  rcases List.mem_append.1 hr with hold | hnew
  · exact .inl hold
  · rw [List.mem_singleton.1 hnew]
    exact .inr (ended_of_wantsRead hwants)

theorem State.readsAdded_issueReads (k : Nat) (s : State) : ReadsAdded s (s.issueReads k) := by
  induction k generalizing s with
  | zero => exact .refl s
  | succ k ih =>
    rw [issueReads]
    split
    · exact .refl s
    · split
      · next c hturn => exact (readsAdded_issueRead (wantsRead_of_readTurn hturn)).trans (ih _)
      · exact .refl s

/-! ### Request pulses (R485) -/

/-- A pulse touches one channel and no pulse on its way. -/
theorem State.chanPulse_keeps (line : Fin 64) (s : State) (k : Fin 48) :
    (s.chanPulse line k).dma.pulses = s.dma.pulses ∧ ∀ c, c ≠ k → (s.chanPulse line k).chan c = s.chan c := by
  simp only [chanPulse]
  split
  · exact ⟨rfl, fun _ _ => rfl⟩
  · split
    · exact ⟨rfl, fun c hc => s.chan_updChan_ne hc _⟩
    · split
      · exact ⟨rfl, fun c hc => s.chan_updChan_ne hc _⟩
      · exact ⟨rfl, fun c hc => s.chan_updChan_ne hc _⟩

/-- A waiting channel on the line starts a burst. -/
theorem State.chanPulse_starts {line : Fin 64} {s : State} {c : Fin 48} (hactive : (s.chan c).state = .active)
    (hen : (s.chan c).latched.drqEn = true) (hline : (s.chan c).latched.line = line.val) (hidle : (s.chan c).burstLeft = 0) :
    s.chanPulse line c = s.updChan c (fun x => { x with burstLeft := min x.latched.burst x.left }) := by
  simp [chanPulse, hactive, hen, hline, hidle]

theorem State.foldl_chanPulse_keeps (line : Fin 64) {c : Fin 48} (l : List (Fin 48)) (hc : c ∉ l) (s : State) :
    (l.foldl (State.chanPulse line) s).dma.pulses = s.dma.pulses ∧ (l.foldl (State.chanPulse line) s).chan c = s.chan c := by
  induction l generalizing s with
  | nil => exact ⟨rfl, rfl⟩
  | cons k l ih =>
    obtain ⟨hck, hcl⟩ := not_or.1 (List.mem_cons.not.1 hc)
    obtain ⟨hpulses, hchan⟩ := s.chanPulse_keeps line k
    obtain ⟨ihpulses, ihchan⟩ := ih hcl (s.chanPulse line k)
    exact ⟨ihpulses.trans hpulses, ihchan.trans (hchan c hck)⟩

/-- A pulse that goes round every channel once meets each of them. -/
theorem State.foldl_chanPulse (line : Fin 64) (c : Fin 48) (l : List (Fin 48)) (hnodup : l.Nodup) (hc : c ∈ l) (s : State) :
    (l.foldl (State.chanPulse line) s).dma.pulses = s.dma.pulses ∧
      ∃ t : State, t.chan c = s.chan c ∧ (l.foldl (State.chanPulse line) s).chan c = (t.chanPulse line c).chan c := by
  induction l generalizing s with
  | nil => exact absurd hc List.not_mem_nil
  | cons k l ih =>
    obtain ⟨hkl, hl⟩ := List.nodup_cons.1 hnodup
    obtain ⟨hpulses, hchan⟩ := s.chanPulse_keeps line k
    rcases List.mem_cons.1 hc with rfl | hcl
    · obtain ⟨ihpulses, ihchan⟩ := foldl_chanPulse_keeps line l hkl (s.chanPulse line c)
      exact ⟨ihpulses.trans hpulses, s, rfl, ihchan⟩
    · obtain ⟨ihpulses, t, htchan, ihchan⟩ := ih hl hcl (s.chanPulse line k)
      exact ⟨ihpulses.trans hpulses, t, htchan.trans (hchan c fun h => hkl (h ▸ hcl)), ihchan⟩

/-- What a pulse starts, with the reads that it lets out. -/
theorem State.pulse_starts {line : Fin 64} {s : State} {c : Fin 48} (hactive : (s.chan c).state = .active)
    (hen : (s.chan c).latched.drqEn = true) (hline : (s.chan c).latched.line = line.val) (hidle : (s.chan c).burstLeft = 0) :
    (((List.finRange 48).foldl (State.chanPulse line) s).issueReads 64).dma.pulses = s.dma.pulses ∧
      ((((List.finRange 48).foldl (State.chanPulse line) s).issueReads 64).chan c).burstLeft =
        min (s.chan c).latched.burst (s.chan c).left := by
  obtain ⟨hpulses, r, hr, hchan⟩ := s.foldl_chanPulse line c _ (List.nodup_finRange 48) (List.mem_finRange c)
  generalize (List.finRange 48).foldl (State.chanPulse line) s = v at hpulses hchan ⊢
  have hissued := issuedFrom_issueReads 64 v
  refine ⟨hissued.pulses.trans hpulses, ?_⟩
  rw [hissued.chan, hchan, chanPulse_starts (hr ▸ hactive) (hr ▸ hen) (hr ▸ hline) (hr ▸ hidle), chan_updChan_self, hr]

theorem exec_drqPulse_starts (line : Fin 64) (t : Nat) (s : State) (c : Fin 48) (hline : line ∈ s.dma.pulses)
    (hactive : (s.chan c).state = .active) (hen : (s.chan c).latched.drqEn = true) (hsel : (s.chan c).latched.line = line.val)
    (hidle : (s.chan c).burstLeft = 0) :
    ∃ u, exec (.drqPulse line t) s = .next u ∧ u.dma.pulses = s.dma.pulses.erase line ∧
      (u.chan c).burstLeft =
        min (((s.chan c).latched.reqSel.toNat / 256 % 4096 + 1) * 64) ((s.chan c).latched.count.toNat - (s.chan c).moved.toNat) := by
  have hway : (s.at t).dma.pulses.contains line = true := List.contains_iff_mem.2 hline
  let w : State := { s.at t with dma := { (s.at t).dma with pulses := (s.at t).dma.pulses.erase line } }
  obtain ⟨hpulses, hburst⟩ := State.pulse_starts (s := w) hactive hen hsel hidle
  refine ⟨_, ?_, hpulses, hburst⟩
  rw [show exec (.drqPulse line t) s = execDrqPulse line t s from rfl, execDrqPulse]
  simp only [hway, if_true]
  rfl

/-! ### Reads (R484, R487) -/

/-- From the starting end of an ascending transfer. -/
theorem Chan.offset_of_host {x : Chan} (h : x.latched.srcDev = false) (done n : Nat) : x.offset done n = done := by
  simp [offset, Xfer.descending, h]

theorem State.readDone_data {s : State} {c : Fin 48} {data : List Byte} (hread : s.dma.reads.find? (fun r => r.1 = c) = some (c, data.length))
    (hsrc : (s.chan c).latched.srcDev = false) :
    s.readDone c data true = ((s.readOver c data.length).moveChunk c (s.chan c).moved.toNat data).issueReads 64 := by
  simp [readDone, hread, hsrc, Chan.offset_of_host hsrc]

theorem State.readDone_failed {s : State} {c : Fin 48} {data : List Byte} {n : Nat} (hread : s.dma.reads.find? (fun r => r.1 = c) = some (c, n))
    (hsrc : (s.chan c).latched.srcDev = false) : s.readDone c data false = (s.readFailed c n).issueReads 64 := by
  simp [readDone, hread, hsrc]

@[simp] theorem Chan.nextBurst_moved (x : Chan) : x.nextBurst.moved = x.moved := by
  rw [nextBurst]
  split <;> rfl

theorem State.moveChunk_dev {s : State} {c : Fin 48} (hdst : (s.chan c).latched.dstDev = true) (off : Nat) (p : List Byte) :
    (s.moveChunk c off p).mem = Memory.write s.mem ((s.chan c).latched.dst.toNat + off) p ∧
      ((s.moveChunk c off p).chan c).moved = (s.chan c).moved + BitVec.ofNat 32 p.length ∧
      ∀ k, k ≠ c → (s.moveChunk c off p).chan k = s.chan k := by
  rw [moveChunk, if_pos hdst]
  refine ⟨rfl, ?_, fun k hk => State.chan_updChan_ne _ hk _⟩
  rw [State.chan_updChan_self, Chan.nextBurst_moved]
  rfl

theorem exec_dmaReadCompletion_data (c : Fin 48) (data : List Byte) (t : Nat) (s : State) (hwf : Memory.wf s.mem = true)
    (hread : s.dma.reads.find? (fun r => r.1 = c) = some (c, data.length)) (hsrc : (s.chan c).latched.srcDev = false)
    (hdst : (s.chan c).latched.dstDev = true) :
    let a := (s.chan c).latched.dst.toNat + (s.chan c).moved.toNat
    ∃ u, exec (.dmaReadCompletion c data true t) s = .next u ∧ u.memRead a data.length = data ∧
      (∀ b, b < a ∨ a + data.length ≤ b → Memory.get u.mem b = Memory.get s.mem b) ∧
      (u.chan c).moved = (s.chan c).moved + BitVec.ofNat 32 data.length ∧ (∀ k, k ≠ c → u.chan k = s.chan k) := by
  intro a
  let v := ((s.at t).readOver c data.length).moveChunk c (s.chan c).moved.toNat data
  have hrun : exec (.dmaReadCompletion c data true t) s = .next (v.issueReads 64) := congrArg _ (State.readDone_data (s := s.at t) hread hsrc)
  have hissued := State.issuedFrom_issueReads 64 v
  obtain ⟨hvmem, hvmoved, hvothers⟩ := State.moveChunk_dev (s := (s.at t).readOver c data.length) hdst (s.chan c).moved.toNat data
  have hmem : (v.issueReads 64).mem = Memory.write s.mem a data := by rw [hissued.frame]; exact hvmem
  refine ⟨_, hrun, ?_, fun b hb => ?_, ?_, fun k hk => ?_⟩
  · rw [State.memRead, hmem]
    exact Memory.read_write_self hwf
  · rw [hmem]
    exact Memory.get_write_ne hb
  · rw [hissued.chan]; exact hvmoved
  · rw [hissued.chan]; exact hvothers k hk

/-- A read that fails once is asked for again. -/
theorem State.readFailed_once {s : State} {c : Fin 48} (h : (s.chan c).retrying = false) (n : Nat) :
    s.readFailed c n = (s.updChan c (fun x => { x with retrying := true })).readOut c (s.chan c).moved.toNat n := by
  simp [readFailed, h]

/-- A channel whose transfer a second failure has ended. -/
def Chan.failedTwice (n : Nat) (x : Chan) : Chan :=
  { x with
    ended := some { status := .lastingFault, faultAddr := BitVec.ofNat 64 (x.latched.src.toNat + x.offset x.moved.toNat n)
                    aborted := false, time := 0 }
    burstLeft := 0, heldPulses := 0 }

theorem State.readFailed_twice {s : State} {c : Fin 48} (h : (s.chan c).retrying = true) (n : Nat) :
    s.readFailed c n = { s.updChan c (Chan.failedTwice n) with
      dma := { (s.updChan c (Chan.failedTwice n)).dma with reads := s.dma.reads.filter (fun r => r.1 ≠ c) } } := by
  rw [readFailed, h, if_pos rfl]
  rfl

theorem exec_dmaReadCompletion_failed (c : Fin 48) (data : List Byte) (n t : Nat) (s : State)
    (hread : s.dma.reads.find? (fun r => r.1 = c) = some (c, n)) (hsrc : (s.chan c).latched.srcDev = false) :
    ∃ u, exec (.dmaReadCompletion c data false t) s = .next u ∧ u.mem = s.mem ∧ (u.chan c).moved = (s.chan c).moved ∧
      (∀ k, k ≠ c → u.chan k = s.chan k) ∧
      ((s.chan c).retrying = false → (u.chan c) = { s.chan c with retrying := true } ∧ (∀ r ∈ s.dma.reads, r ∈ u.dma.reads) ∧
        .hostRead ((s.chan c).latched.src.toNat + (s.chan c).moved.toNat) n (s.chan c).latched.ns ∈ u.wires) ∧
      ((s.chan c).retrying = true → (u.chan c).ended.map (·.status) = some .lastingFault ∧ ∀ r ∈ u.dma.reads, r.1 ≠ c) := by
  let v := (s.at t).readFailed c n
  have hrun : exec (.dmaReadCompletion c data false t) s = .next (v.issueReads 64) := congrArg _ (State.readDone_failed (s := s.at t) hread hsrc)
  have hissued := State.issuedFrom_issueReads 64 v
  have hadded := State.readsAdded_issueReads 64 v
  have hmem : (v.issueReads 64).mem = v.mem := by rw [hissued.frame]
  rcases hretry : (s.chan c).retrying with _ | _
  · let w := (s.at t).updChan c (fun x => { x with retrying := true })
    have hv : v = w.emit (.hostRead ((s.chan c).latched.src.toNat + (s.chan c).moved.toNat) n (s.chan c).latched.ns) := by
      have hw : w.chan c = { s.chan c with retrying := true } := (s.at t).chan_updChan_self c _
      have hwsrc : (w.chan c).latched.srcDev = false := by rw [hw]; exact hsrc
      rw [show v = w.readOut c (s.chan c).moved.toNat n from State.readFailed_once (s := s.at t) hretry n, State.readOut,
        hwsrc, if_neg Bool.false_ne_true, Chan.offset_of_host hwsrc, hw]
    have hvc : v.chan c = { s.chan c with retrying := true } := by rw [hv]; exact (s.at t).chan_updChan_self c _
    refine ⟨_, hrun, ?_, ?_, fun k hk => ?_, fun _ => ⟨?_, fun r hr => ?_, ?_⟩, nofun⟩
    · rw [hmem, hv]; rfl
    · rw [hissued.chan, hvc]
    · rw [hissued.chan, hv]; exact (s.at t).chan_updChan_ne hk _
    · rw [hissued.chan, hvc]
    · exact hadded.reads r (by rw [hv]; exact hr)
    · exact hadded.wires _ (by rw [hv]; exact List.mem_cons_self)
  · have hv := State.readFailed_twice (s := s.at t) hretry n
    have hvc : v.chan c = (s.chan c).failedTwice n := by rw [show v = _ from hv]; exact (s.at t).chan_updChan_self c _
    refine ⟨_, hrun, ?_, ?_, fun k hk => ?_, nofun, fun _ => ⟨?_, fun r hr => ?_⟩⟩
    · rw [hmem, show v = _ from hv]; rfl
    · rw [hissued.chan, hvc]; rfl
    · rw [hissued.chan, show v = _ from hv]; exact (s.at t).chan_updChan_ne hk _
    · rw [hissued.chan, hvc]; rfl
    · rcases hadded.asking r hr with hold | hnew
      · rw [show v = _ from hv] at hold
        exact of_decide_eq_true (List.mem_filter.1 hold).2
      · intro hrc
        rw [hrc, hvc] at hnew
        exact Option.some_ne_none _ hnew

/-! ### The end of a transfer with a completion record (R491, R493) -/

/-- A record leaves the tail one further, whatever its interrupt. -/
theorem State.announce_tail (s : State) (q : Fin 48) : ((s.announce q).que q).tail = (s.que q).tail := by
  simp only [announce]
  split
  · rfl
  · split
    · rw [signalQue, show ∀ (w : State) v, (w.msix v).que q = w.que q from fun w v => by simp [que]]
      simp
    · simp

theorem State.writeRecord_tail (s : State) (q : Fin 48) (record : Bool → List Byte) :
    ((s.writeRecord q record).que q).tail = (s.que q).nextTail := by
  rw [writeRecord, announce_tail, que_updQue_self]
  rfl

theorem State.writeRecord_chan (s : State) (q : Fin 48) (record : Bool → List Byte) (c : Fin 48) :
    (s.writeRecord q record).chan c = s.chan c := by
  have hannounce (w : State) : (w.announce q).chan c = w.chan c := by
    simp only [announce]
    split
    · rfl
    · split
      · rw [signalQue, chan, show ∀ (x : State) v, (x.msix v).dma = x.dma from fun x v => by simp]
        rfl
      · rfl
  rw [writeRecord, hannounce]
  rfl

/-- With room in its completion queue a transfer that is over writes its record there and frees the channel. -/
theorem State.complete_room {s : State} {c q : Fin 48} (hq : q.val = (s.chan c).latched.cq) (hlow : q.val < 32)
    (hon : (s.que q).enable = true) (hroom : 1 ≤ (s.que q).space) (e : XferEnd) :
    s.complete c e =
      ((s.writeRecord q ((s.chan c).record c.val e)).updChan c (fun x => { x with state := .idle, ended := none })).assign := by
  have hcq : (s.chan c).latched.cq < 32 := hq ▸ hlow
  have hqueue : (⟨(s.chan c).latched.cq, by omega⟩ : Fin 48) = q := Fin.ext hq.symm
  have hspace : (s.que q).space ≠ 0 := by omega
  rw [complete, dif_pos hcq]
  simp only [hqueue, hon, hspace, Bool.not_true, Bool.false_eq_true, if_false]

theorem State.complete_room_fields {s : State} {c q : Fin 48} (hq : q.val = (s.chan c).latched.cq) (hlow : q.val < 32)
    (hon : (s.que q).enable = true) (hroom : 1 ≤ (s.que q).space) (e : XferEnd) :
    (s.complete c e).chan c = { s.chan c with state := .idle, ended := none } ∧ ((s.complete c e).que q).tail = (s.que q).nextTail := by
  rw [complete_room hq hlow hon hroom e]
  refine ⟨?_, ?_⟩
  · rw [assign_chan, chan_updChan_self, writeRecord_chan]
  · exact s.writeRecord_tail q _

theorem State.ending_done {s : State} {c : Fin 48} (hactive : (s.chan c).state = .active) (hended : (s.chan c).ended = none)
    (hall : (s.chan c).latched.count.toNat ≤ (s.chan c).moved.toNat) (hclean : (s.chan c).transient = false) :
    s.ending c = some (.ok, 0, false) := by
  have hleft : (s.chan c).left = 0 := Nat.sub_eq_zero_of_le hall
  simp [ending, hactive, hended, hleft, hclean]

theorem exec_dmaTransferDone_ok (c : Fin 48) (t : Nat) (s : State) (hactive : (s.chan c).state = .active) (hended : (s.chan c).ended = none)
    (hall : (s.chan c).latched.count.toNat ≤ (s.chan c).moved.toNat) (hclean : (s.chan c).transient = false)
    (hcq : ∃ q : Fin 48, q.val = (s.chan c).latched.cq ∧ q.val < 32 ∧ (s.que q).enable = true ∧ 1 ≤ (s.que q).space) :
    ∃ u, exec (.dmaTransferDone c t) s = .next u ∧ (u.chan c).state = .idle ∧ (u.chan c).lastStatus = Status.ok.code ∧
      ∀ q : Fin 48, q.val = (s.chan c).latched.cq → (u.que q).tail = (s.que q).nextTail := by
  obtain ⟨q, hq, hlow, hon, hroom⟩ := hcq
  have hrun : exec (.dmaTransferDone c t) s = .next ((s.at t).finish c .ok 0 false) := by
    rw [show exec (.dmaTransferDone c t) s = execDmaTransferDone c t s from rfl, execDmaTransferDone,
      State.ending_done (s := s.at t) hactive hended hall hclean]
  let w := (s.at t).updChan c (fun x => { x with
    lastStatus := Status.ok.code, burstLeft := 0, heldPulses := 0, abortWanted := false, retrying := false })
  have hwc : w.chan c = { s.chan c with
      lastStatus := Status.ok.code, burstLeft := 0, heldPulses := 0, abortWanted := false, retrying := false } :=
    (s.at t).chan_updChan_self c _
  have hwq : q.val = (w.chan c).latched.cq := by rw [hwc]; exact hq
  obtain ⟨hchan, htail⟩ := State.complete_room_fields (s := w) hwq hlow hon hroom
    { status := .ok, faultAddr := BitVec.ofNat 64 0, aborted := false, time := (s.at t).nowNs }
  have hfinish : (s.at t).finish c .ok 0 false =
      w.complete c { status := .ok, faultAddr := BitVec.ofNat 64 0, aborted := false, time := (s.at t).nowNs } :=
    congrArg (fun x : State => x.complete c _) (if_neg nofun)
  rw [hfinish] at hrun
  refine ⟨_, hrun, ?_, ?_, fun k hk => ?_⟩
  · rw [hchan]
  · rw [hchan, hwc]
  · rw [Fin.ext (hk.trans hq.symm), htail]
    rfl

theorem exec_waitCqRecord_writes (c : Fin 32) (t : Nat) (s : State) (e : XferEnd) (q : Fin 48)
    (hwaits : (s.chan (hostChan c)).state = .waitCq) (hended : (s.chan (hostChan c)).ended = some e)
    (hq : q.val = (s.chan (hostChan c)).latched.cq) (hlow : q.val < 32) (hon : (s.que q).enable = true) (hroom : 1 ≤ (s.que q).space) :
    ∃ u, exec (.waitCqRecord c t) s = .next u ∧ (u.chan (hostChan c)).state = .idle ∧ (u.que q).tail = (s.que q).nextTail := by
  have hrun : exec (.waitCqRecord c t) s = .next ((s.at t).complete (hostChan c) e) := by
    have hwaits' : ((s.at t).chan (hostChan c)).state = .waitCq := hwaits
    have hended' : ((s.at t).chan (hostChan c)).ended = some e := hended
    rw [show exec (.waitCqRecord c t) s = execWaitCqRecord c t s from rfl, execWaitCqRecord]
    simp only [hwaits', hended']
  obtain ⟨hchan, htail⟩ := State.complete_room_fields (s := s.at t) hq hlow hon hroom e
  refine ⟨_, hrun, ?_, htail⟩
  rw [hchan]

/-- Settles O16: a pulse by the channel it meets, a read by its data or its failure, an end by its completion record. -/
theorem dmaEventsComplete : Obligations.DmaEventsComplete := by
  unfold Obligations.DmaEventsComplete
  exact ⟨exec_drqPulse_starts, exec_dmaReadCompletion_data, exec_dmaReadCompletion_failed, exec_dmaTransferDone_ok,
    exec_waitCqRecord_writes⟩

end Sys2Proof.Machine
end

section
/-! PROOF. The transport of requests, replies and events, and peer mailboxes (15 R376; 17 R421, R422, R424, R426, R439; 19 R493): O12. -/

namespace Sys2Proof.Machine

/-! ### What messages leave of the chain's own state (R357, R358, R377) -/

/-- Of the chain's state only the two hops change. -/
def HopsOnly (s u : State) : Prop := u.chain = { s.chain with hopIn := u.chain.hopIn, hopOut := u.chain.hopOut }

theorem HopsOnly.refl (s : State) : HopsOnly s s := rfl

theorem HopsOnly.trans {s t u : State} (h₁ : HopsOnly s t) (h₂ : HopsOnly t u) : HopsOnly s u :=
  Eq.trans h₂ (congrArg (fun c : Chain => { c with hopIn := u.chain.hopIn, hopOut := u.chain.hopOut }) h₁)

theorem HopsOnly.of_chain {s u : State} (h : u.chain = s.chain) : HopsOnly s u := by rw [HopsOnly, h]

theorem State.hopsOnly_setHop (s : State) (side : Side) (h : Hop) : HopsOnly s (s.setHop side h) := by cases side <;> rfl

theorem State.hopsOnly_sendTraining (s : State) (l : Fin 34) (stage : Nat) : HopsOnly s (s.sendTraining l stage) := rfl

theorem State.hopsOnly_chainPump (s : State) (side : Side) : HopsOnly s (s.chainPump side) := by
  unfold chainPump
  dsimp only
  split
  · exact (s.hopsOnly_setHop ..).trans (.of_chain rfl)
  · exact .refl s

theorem State.hopsOnly_chainTo (s : State) (side : Side) (m : ChainMsg) : HopsOnly s (s.chainTo side m) :=
  ite_rel ((s.hopsOnly_setHop ..).trans (hopsOnly_chainPump ..)) (.refl s)

theorem State.hopsOnly_wakeDir (s : State) (side : Side) : HopsOnly s (s.wakeDir side) :=
  ite_rel ((s.hopsOnly_setHop ..).trans (hopsOnly_sendTraining ..)) (.refl s)

theorem State.hopsOnly_chainVia (s : State) (side : Side) (m : ChainMsg) : HopsOnly s (s.chainVia side m) :=
  ite_rel (s.hopsOnly_chainTo ..) (ite_rel ((s.hopsOnly_chainTo ..).trans (hopsOnly_wakeDir ..))
    ((s.hopsOnly_wakeDir ..).trans (hopsOnly_chainTo ..)))

theorem State.hopsOnly_chainSend (s : State) (m : ChainMsg) : HopsOnly s (s.chainSend m) :=
  ite_rel ((((s.hopsOnly_wakeDir ..).trans (hopsOnly_wakeDir ..)).trans (hopsOnly_chainTo ..)).trans (hopsOnly_chainTo ..))
    (s.hopsOnly_chainVia ..)

/-! ### The start of a request (R418, R421, R422) -/

theorem State.kettleBack_of_up {s : State} (h : s.boot.kettleDown = false) : s.kettleBack = s := by
  rw [kettleBack, h, if_neg Bool.false_ne_true]

theorem State.nextRequest_host {s : State} {m : Fin 8} (hm : m.val < 4) (hwaits : (s.box m).reqTail ≠ (s.box m).reqHead) :
    s.nextRequest m = some (Memory.read s.mbx.ringMem (slotAddr m false (s.box m).reqHead) 256) := by
  rw [nextRequest, if_pos hm, if_neg hwaits]

theorem State.takeRequest_host {m : Fin 8} (hm : m.val < 4) (s : State) :
    s.takeRequest m = { s.updBox m (fun b => { b with reqHead := b.reqHead + 1 }) with
      mbx := { (s.updBox m (fun b => { b with reqHead := b.reqHead + 1 })).mbx with turn := m + 1 } } := by
  have h4 : m ≠ 4 := fun h => absurd hm (h ▸ by decide)
  have h5 : m ≠ 5 := fun h => absurd hm (h ▸ by decide)
  simp only [takeRequest, if_pos hm, if_neg h4, if_neg h5]

/-- The mailbox whose turn it is starts its request where it may. -/
theorem State.startNext_of_turn {s : State} {m : Fin 8} (hturn : s.mbx.turn = m) (hcan : s.canStart m = true) {slot : List Byte}
    (hslot : s.nextRequest m = some slot) : s.startNext = serve (s.commandFor (fld slot 0 2)) (reqOf m slot) (s.takeRequest m) := by
  have hhead : s.turns = m :: (List.range 7).map (fun i => Fin.ofNat 8 (m.val + (i + 1))) := by
    rw [turns, hturn, List.range_succ_eq_map, List.map_cons, List.map_map, Nat.add_zero, Fin.ofNat_val_eq_self]
    rfl
  rw [startNext, hhead, List.find?_cons_of_pos hcan]
  simp only [hslot]

theorem exec_mailboxRequestStart_serves (t : Nat) (s : State) (m : Fin 4) :
    let i : Fin 8 := ⟨m.val, by omega⟩
    let b := s.box i
    s.boot.kettleDown = false → s.mbx.turn = i → b.ready = true → b.held = [] → (b.rplTail - b.rplHead).toNat < 64 →
    b.outstanding.any (·.blocks) = false → s.cal.retrain = [] → b.reqTail ≠ b.reqHead →
    let slot := Memory.read s.mbx.ringMem (0x20000 + 2 * m.val * 0x4000 + b.reqHead.toNat % 64 * 0x100) 256
    let s1 := (s.at t).updBox i (fun b => { b with reqHead := b.reqHead + 1 })
    exec (.mailboxRequestStart t) s =
      .next (serve (s.commandFor (fld slot 0 2)) (reqOf i slot) { s1 with mbx := { s1.mbx with turn := i + 1 } }) := by
  intro i b hup hturn hready hheld hroom hfree hretrain hwaits slot s1
  have hi : i.val < 4 := m.isLt
  have hslot : (s.at t).nextRequest i = some slot := State.nextRequest_host hi hwaits
  have hcan : (s.at t).canStart i = true := by
    have hserves : (s.at t).servesBox i = true := by rw [State.servesBox, show ((s.at t).box i).ready = true from hready, Bool.true_or]
    have hhas : ((s.at t).box i).room i = true := by rw [Box.room_host hi]; exact decide_eq_true hroom
    have hheld' : ((s.at t).box i).held = [] := hheld
    have hfree' : ((s.at t).box i).outstanding.any (·.blocks) = false := hfree
    have hretrain' : (s.at t).cal.retrain = [] := hretrain
    simp only [State.canStart, hserves, hheld', hhas, hfree', hretrain', hslot]
    rfl
  have hstart : (s.at t).startNext = serve (s.commandFor (fld slot 0 2)) (reqOf i slot) ((s.at t).takeRequest i) :=
    State.startNext_of_turn (s := s.at t) hturn hcan hslot
  rw [State.takeRequest_host hi] at hstart
  rw [← hstart]
  exact congrArg (fun w : State => Host.Outcome.next w.startNext) (State.kettleBack_of_up (s := s.at t) hup)

/-! ### Replies that come later (R421, R424) -/

theorem exec_heldReplyWrite_writes (m : Fin 8) (s : State) (msg : List Byte) (rest : List (List Byte)) (hheld : (s.box m).held = msg :: rest)
    (hroom : (s.box m).room m = true) :
    exec (.heldReplyWrite m) s = .next ((s.setBox m { s.box m with held := rest }).writeReply m msg) := by
  rw [show exec (.heldReplyWrite m) s = execHeldReplyWrite m s from rfl, execHeldReplyWrite]
  simp only [hheld, if_pos hroom]
  rfl

theorem exec_finalReply_delivers (t : Nat) (s : State) (r : Result) (rest : List Result) (x : Outstanding) (hresults : s.mbx.results = r :: rest)
    (hfound : (s.box r.mb).outstanding.find? (fun y => y.tag = r.tag) = some x) (hheard : x.muted = false) :
    let s1 : State := { s.at t with mbx := { s.mbx with results := rest } }
    let msg := replyMsg x.opcode r.tag r.status r.detail.toNat r.record
    exec (.finalReply t) s = .next ((s1.updBox r.mb (fun b => b.lastReply x msg)).deliver r.mb msg) := by
  intro s1 msg
  have hresults' : (s.at t).mbx.results = r :: rest := hresults
  have hfound' : (s1.box r.mb).outstanding.find? (fun y => y.tag = r.tag) = some x := hfound
  have hanswer : s1.answerLater r x = (s1.updBox r.mb (fun b => b.lastReply x msg)).deliver r.mb msg := by
    rw [State.answerLater, hheard, if_neg Bool.false_ne_true]
  rw [← hanswer, show exec (.finalReply t) s = execFinalReply t s from rfl, execFinalReply, hresults']
  simp only
  rw [show (State.box { s.at t with mbx := { (s.at t).mbx with results := rest } } r.mb).outstanding.find? (fun y => y.tag = r.tag) = some x
    from hfound']
  rfl

/-! ### Events (R434, R493) -/

theorem State.routeEvent_writes {s : State} {e : Ev} {n : Fin 16} (hroute : s.mbx.route[e.cls] = BitVec.ofNat 8 n.val)
    (hon : (s.que (eqIndex n)).enable = true) (hheld : (s.que (eqIndex n)).held = []) (hlost : (s.que (eqIndex n)).lostSince = 0)
    (hshort : e.data.length ≤ 40) (hroom : 1 ≤ (s.que (eqIndex n)).space) :
    s.routeEvent e = s.writeRecord (eqIndex n) (e.record 0) := by
  have hnum : (BitVec.ofNat 8 n.val).toNat = n.val := by
    rw [BitVec.toNat_ofNat, Nat.mod_eq_of_lt (Nat.lt_trans n.isLt (by decide))]
  have hclear : (s.que (eqIndex n)).clear = true := by simp [Que.clear, hheld, hlost]
  have hfits : ((s.que (eqIndex n)).clear && decide (e.count ≤ (s.que (eqIndex n)).space)) = true := by
    rw [hclear, Ev.count_of_short hshort, decide_eq_true hroom]
    rfl
  have hin : ¬ 15 < n.val := by omega
  rw [routeEvent, hroute]
  simp only [hnum, if_neg hin, Fin.ofNat_val_eq_self, hon, hfits, Bool.not_true, Bool.false_eq_true, if_false, if_true]
  exact writeEvent_of_short hshort s n

theorem exec_eventPost_writes (t : Nat) (s : State) (e : Ev) (rest : List Ev) (n : Fin 16) (hout : s.mbx.outbox = e :: rest)
    (hroute : s.mbx.route[e.cls] = BitVec.ofNat 8 n.val) (hon : (s.que (eqIndex n)).enable = true)
    (hheld : (s.que (eqIndex n)).held = []) (hlost : (s.que (eqIndex n)).lostSince = 0) (hshort : e.data.length ≤ 40)
    (hroom : 1 ≤ (s.que (eqIndex n)).space) :
    exec (.eventPost t) s =
      .next (({ s.at t with mbx := { s.mbx with outbox := rest } } : State).writeRecord (eqIndex n) (e.record 0)) := by
  have hout' : (s.at t).mbx.outbox = e :: rest := hout
  rw [show exec (.eventPost t) s = execEventPost t s from rfl, execEventPost, hout']
  exact congrArg _ (State.routeEvent_writes (s := { s.at t with mbx := { s.mbx with outbox := rest } }) hroute hon hheld hlost hshort hroom)

theorem exec_eventPost_drops (t : Nat) (s : State) (e : Ev) (rest : List Ev) (hout : s.mbx.outbox = e :: rest)
    (hroute : 15 < (s.mbx.route[e.cls]).toNat) :
    exec (.eventPost t) s = .next { s.at t with mbx := { s.mbx with
      outbox := rest, dropped := upd s.mbx.dropped e.cls (fun c => satAdd c 1) } } := by
  have hout' : (s.at t).mbx.outbox = e :: rest := hout
  have hroute' : 15 < ((s.at t).mbx.route[e.cls]).toNat := hroute
  rw [show exec (.eventPost t) s = execEventPost t s from rfl, execEventPost, hout']
  exact congrArg _ (if_pos hroute')

/-! ### Peer mailboxes (R376, R439) -/

theorem exec_chainForward_waits (q : Req) (s : State) (a b : Fin 16) (hq : Claims.Fresh 0x0703 q s) (hlen : 16 ≤ q.payload.length)
    (hinner : fld q.payload 4 2 = q.payload.length - 16) (hdst : fld q.payload 8 1 = b.val) (haddress : s.chain.address = some a)
    (hother : a ≠ b) :
    ∃ u, exec (.chainForward q) s = .next ((Claims.later u).deliver q 0x0703) ∧
      u.chain.forward = s.chain.forward ++ [{ origin := q.origin, dst := b, sentAt := s.aon }] := by
  have hrun : exec (.chainForward q) s = .next ((cmdChainForward.run q (s.start q 0x0703)).deliver q 0x0703) :=
    congrArg _ (serve_of_fresh hq (decide_eq_true hlen))
  have hown : (s.start q 0x0703).chain.address = some a := haddress
  have hvals : b.val ≠ a.val := fun h => hother (Fin.ext h.symm)
  simp only [cmdChainForward, hinner, hdst, hown] at hrun
  rw [checks_pass (by simp [hvals]; omega), Fin.ofNat_val_eq_self] at hrun
  refine ⟨_, hrun, ?_⟩
  exact congrArg Chain.forward (State.hopsOnly_chainSend ..)

theorem exec_peerReq_places (h : ChainHdr) (mgmt : Bool) (msg : List Byte) (t : Nat) (s : State) (hepoch : h.epoch = s.chain.epoch)
    (hdst : h.dst = s.ownAddress) :
    ∃ u, exec (.peerReq h mgmt msg t) s = .next u ∧
      (u.box (if mgmt then 7 else 6)).requests = (s.box (if mgmt then 7 else 6)).requests ++ [msg.set 8 0] := by
  have hcurrent : ((s.at t).ackChain h).current h = true := beq_iff_eq.2 hepoch
  have hmine : ((s.at t).ackChain h).forMe h = true := beq_iff_eq.2 hdst
  have hrun := show exec (.peerReq h mgmt msg t) s = execPeerReq h mgmt msg t s from rfl
  simp only [execPeerReq, hcurrent, hmine, Bool.not_true, Bool.false_eq_true, if_false, if_true] at hrun
  refine ⟨_, hrun, ?_⟩
  exact congrArg Box.requests (((s.at t).ackChain h).box_updBox_self (if mgmt then 7 else 6)
    (fun b => { b with requests := b.requests ++ [msg.set 8 0] }))

theorem exec_peerReply_ends (h : ChainHdr) (msg : List Byte) (full t : Nat) (f : Forward) (s : State) (hepoch : h.epoch = s.chain.epoch)
    (hdst : h.dst = s.ownAddress) (hfound : s.chain.forward.find? (fun x => x.dst = h.src) = some f) :
    ∃ u, exec (.peerReply h msg full t) s = .next u ∧ u.chain.forward = s.chain.forward.erase f := by
  have hcurrent : ((s.at t).ackChain h).current h = true := beq_iff_eq.2 hepoch
  have hmine : ((s.at t).ackChain h).forMe h = true := beq_iff_eq.2 hdst
  have hfound' : ((s.at t).ackChain h).chain.forward.find? (fun x => x.dst = h.src) = some f := hfound
  have hrun := show exec (.peerReply h msg full t) s = execPeerReply h msg full t s from rfl
  simp only [execPeerReply, hcurrent, hmine, hfound', Bool.not_true, Bool.false_eq_true, if_false, if_true] at hrun
  refine ⟨_, hrun, ?_⟩
  simp only [State.resolve_frame]
  rfl

theorem exec_forwardTimeout_ends (t : Nat) (s : State) : ∃ u, exec (.forwardTimeout t) s = .next u ∧
    ∀ f, f ∈ u.chain.forward ↔ f ∈ s.chain.forward ∧ max s.aon t < f.sentAt + 1000000000 * 2 ^ 32 := by
  let late (f : Forward) : Bool := decide (f.sentAt + sec 1 ≤ max s.aon t)
  let w : State := { s.at t with chain := { s.chain with forward := s.chain.forward.filter (fun f => !late f) } }
  have hrun : exec (.forwardTimeout t) s =
      .next ((s.chain.forward.filter late).foldl (fun s f => s.resolve f.origin .lastingFault 0 []) w) := rfl
  have hkept : ((s.chain.forward.filter late).foldl (fun s f => s.resolve f.origin .lastingFault 0 []) w).chain = w.chain :=
    foldl_keep (·.chain) _ (fun s f => by simp) _ w
  have hsec : sec 1 = 1000000000 * 2 ^ 32 := by rw [sec, ns, Nat.mul_one]
  refine ⟨_, hrun, fun f => ?_⟩
  rw [hkept, show w.chain.forward = s.chain.forward.filter (fun f => !late f) from rfl, List.mem_filter, Bool.not_eq_true',
    decide_eq_false_iff_not, Nat.not_le, hsec]

/-- Settles O12: each event of the transport by what it takes from its queue, peer requests by what the chain's messages leave alone. -/
theorem transportEventsComplete : Obligations.TransportEventsComplete := by
  unfold Obligations.TransportEventsComplete
  exact ⟨exec_mailboxRequestStart_serves, exec_heldReplyWrite_writes, exec_finalReply_delivers, exec_eventPost_writes,
    exec_eventPost_drops, exec_chainForward_waits, exec_peerReq_places, exec_peerReply_ends, exec_forwardTimeout_ends⟩

end Sys2Proof.Machine
end

section
/-! PROOF. CLOCK_STATUS, crystals, locks and losses of PLLs (21 R521, R522, R528, R529, R542, R543): O20. -/

namespace Sys2Proof.Machine

/-! ### A byte per element of an array -/

theorem flatMap_le_one {α : Type} (f : α → Nat) (l : List α) : l.flatMap (fun x => le 1 (f x)) = l.map (fun x => BitVec.ofNat 8 (f x)) :=
  (List.flatMap_def ..).trans (by induction l with
    | nil => rfl
    | cons x l ih => rw [List.map_cons, List.flatten_cons, ih]; rfl)

/-- The byte of one element, behind what precedes the array. -/
theorem fld_flatMap_le_one {α : Type} {n : Nat} (f : α → Nat) (v : Vector α n) (i : Fin n) (hcode : f v[i] < 256) (r : List Byte) :
    fld (v.toList.flatMap (fun x => le 1 (f x)) ++ r) i.val 1 = f v[i] := by
  rw [flatMap_le_one, fld_append_left _ _ (by simp), fld_one, List.getD_eq_getElem?_getD, List.getElem?_map,
    List.getElem?_eq_getElem (by simp), Option.map_some, Option.getD_some, BitVec.toNat_ofNat, Vector.getElem_toList]
  exact Nat.mod_eq_of_lt hcode

/-! ### CLOCK_STATUS (R542) -/

theorem SourceState.code_lt (x : SourceState) : x.code < 256 := by cases x <;> decide

theorem PllState.code_lt (x : PllState) : x.code < 256 := by cases x <;> decide

theorem length_flatMap_le_one {α : Type} {n : Nat} (f : α → Nat) (v : Vector α n) : (v.toList.flatMap (fun x => le 1 (f x))).length = n := by
  rw [flatMap_le_one, List.length_map, Vector.length_toList]

theorem length_domainBytes (v : Vector ClkDomain 13) : (v.toList.flatMap ClkDomain.bytes).length = 52 := by
  have hfour (c : ClkDomain) : c.bytes.length = 4 := by simp [ClkDomain.bytes]
  simp [List.length_flatMap, hfour]

theorem State.clockStatusBytes_fields (s : State) :
    let p := s.clockStatusBytes
    p.length = 96 ∧ fld p 0 8 = s.nowNs % 2 ^ 64 ∧ (∀ i : Fin 5, fld p (8 + i.val) 1 = (s.clk.sources[i]).code) ∧
      (∀ i : Fin 8, fld p (16 + i.val) 1 = (s.clk.plls[i]).code) ∧ fld p 84 4 = s.clk.transients.toNat ∧
      fld p 88 4 = s.clk.lasting.toNat ∧ fld p 92 1 = s.clk.lastReset.toNat := by
  have hsources := length_flatMap_le_one SourceState.code s.clk.sources
  have hplls := length_flatMap_le_one PllState.code s.clk.plls
  have hdomains := length_domainBytes s.clk.domains
  have hcause (r : List Byte) : fld ([s.clk.lastReset] ++ r) 0 1 = s.clk.lastReset.toNat := fld_cons_one _ r
  refine ⟨?_, ?_, fun i => ?_, fun i => ?_, ?_, ?_, ?_⟩
  · simp [clockStatusBytes, hsources, hplls, hdomains]
  · simp only [clockStatusBytes, List.append_assoc, fld_le]
    rfl
  · simp only [clockStatusBytes, List.append_assoc]
    rw [fld_append_right _ _ (by simp), length_le, Nat.add_sub_cancel_left]
    exact fld_flatMap_le_one _ _ i (SourceState.code_lt _) _
  · simp only [clockStatusBytes, List.append_assoc]
    rw [fld_append_right _ _ (by simp; omega), length_le, fld_append_right _ _ (by rw [hsources]; omega), hsources,
      fld_append_right _ _ (by simp; omega), length_zeroBytes, show 16 + i.val - 8 - 5 - 3 = i.val by omega]
    exact fld_flatMap_le_one _ _ i (PllState.code_lt _) _
  all_goals
    simp only [clockStatusBytes, List.append_assoc]
    simp (disch := simp [hsources, hplls, hdomains]) only [fld_append_right, length_le, hsources, length_zeroBytes, hplls, hdomains, Nat.reduceSub,
      fld_le, toNat_mod_four_bytes, hcause]

theorem exec_clockStatus_answers (q : Req) (s : State) (hq : Claims.FreshOf 0x0840 0 q s) : ∃ p : List Byte,
    exec (.clockStatus q) s = .next ((Claims.ok (s.start q 0x0840) p).deliver q 0x0840) ∧ p.length = 96 ∧ fld p 0 8 = s.nowNs % 2 ^ 64 ∧
    (∀ i : Fin 5, fld p (8 + i.val) 1 = (s.clk.sources[i]).code) ∧ (∀ i : Fin 8, fld p (16 + i.val) 1 = (s.clk.plls[i]).code) ∧
    fld p 84 4 = s.clk.transients.toNat ∧ fld p 88 4 = s.clk.lasting.toNat ∧ fld p 92 1 = s.clk.lastReset.toNat :=
  ⟨(s.start q 0x0840).clockStatusBytes, congrArg _ (serve_of_fresh hq.1 (beq_iff_eq.2 hq.2)), (s.start q 0x0840).clockStatusBytes_fields⟩

/-! ### A domain asked to switch (R527) -/

theorem State.switchTo_asks {s : State} {d : Fin 13} {clock : Nat} (htarget : (s.clk.domains[d]).target = none)
    (hgated : (s.clk.domains[d]).gated = false) (hclock : (s.clk.domains[d]).clock ≠ clock) :
    s.switchTo d clock = { s with clk := { s.clk with domains := s.clk.domains.set d { s.clk.domains[d] with target := some clock } } } := by
  have hgo : ((s.clk.domains[d]).gated || (s.clk.domains[d]).clock == clock) = false := by
    rw [hgated, Bool.false_or, beq_eq_false_iff_ne]
    exact hclock
  simp only [switchTo, htarget, hgo, Bool.false_eq_true, if_false]

/-! ### Crystals (R521) -/

theorem exec_crystalStart_released {x : Crystal} {t : Nat} {s : State} (hstarting : s.clk.sources[crystalIndex x] = .starting)
    (hfirst : s.clk.restarted[crystalIndex x] = false) :
    exec (.crystalStart x t) s = .next (((s.at t).setSource (crystalIndex x) .running).crystalReleased x) := by
  have hstarting' : (s.at t).clk.sources[crystalIndex x] = .starting := hstarting
  have hfirst' : (((s.at t).setSource (crystalIndex x) .running).crystalReleased x).clk.restarted[crystalIndex x] = false := by
    cases x <;> exact hfirst
  rw [show exec (.crystalStart x t) s = execCrystalStart x t s from rfl, execCrystalStart]
  simp only [hstarting', hfirst', if_true, Bool.false_eq_true, if_false]

theorem exec_crystalStart_xb (t : Nat) (s : State) (hstarting : s.clk.sources[(3 : Fin 5)] = .starting)
    (hfirst : s.clk.restarted[(3 : Fin 5)] = false) (htarget : (s.clk.domains[(1 : Fin 13)]).target = none)
    (hclock : (s.clk.domains[(1 : Fin 13)]).clock ≠ 1) (hgated : (s.clk.domains[(1 : Fin 13)]).gated = false) :
    ∃ u, exec (.crystalStart .xb t) s = .next u ∧ u.clk.sources = s.clk.sources.set 3 .running ∧ u.clk.onXb = true ∧
      (u.clk.domains[(1 : Fin 13)]).target = some 1 ∧ u = { s.at t with clk := u.clk } := by
  let w : State := { s.at t with clk := { s.clk with sources := s.clk.sources.set 3 .running, onXb := true } }
  have hrun : exec (.crystalStart .xb t) s = .next (w.switchTo 1 1) := exec_crystalStart_released (x := .xb) hstarting hfirst
  rw [State.switchTo_asks (s := w) htarget hgated hclock] at hrun
  exact ⟨_, hrun, rfl, rfl, congrArg ClkDomain.target (Vector.getElem_set_self _), rfl⟩

theorem exec_crystalStart_xa (t : Nat) (s : State) (hstarting : s.clk.sources[(2 : Fin 5)] = .starting)
    (hfirst : s.clk.restarted[(2 : Fin 5)] = false) :
    ∃ u, exec (.crystalStart .xa t) s = .next u ∧ u.clk.sources = s.clk.sources.set 2 .running ∧ u = { s.at t with clk := u.clk } :=
  ⟨_, exec_crystalStart_released (x := .xa) hstarting hfirst, rfl, rfl⟩

/-- A clock fault that may pass: CLK_FAULT and one item for the supervisor. -/
theorem State.clkPending_reports (s : State) (source : Nat) (domains : List (Fin 13)) :
    (s.clkPending source domains).clk = s.clk ∧ Claims.Posts s (s.clkPending source domains) [0x0300] ∧
      Claims.Tells s (s.clkPending source domains) [.detect (clkDetect source .pending) s.aon] :=
  ⟨rfl, posts_post s 0x0300 clsFault _, rfl⟩

theorem exec_crystalStartLimit_first (x : Crystal) (t : Nat) (s : State) (hstarting : s.clk.sources[crystalIndex x] = .starting)
    (hfirst : s.clk.restarted[crystalIndex x] = false) :
    ∃ u, exec (.crystalStartLimit x t) s = .next u ∧ u.clk = { s.clk with restarted := s.clk.restarted.set (crystalIndex x) true } ∧
      Claims.Posts s u [0x0300] ∧
      Claims.Tells s u [.detect { fclass := 0x0C, source := 1, unit := BitVec.ofNat 8 (crystalClock x), outcome := .pending } (max s.aon t)] := by
  have hstarting' : (s.at t).clk.sources[crystalIndex x] = .starting := hstarting
  have hfirst' : (s.at t).clk.restarted[crystalIndex x] = false := hfirst
  have hrun := show exec (.crystalStartLimit x t) s = execCrystalStartLimit x t s from rfl
  simp only [execCrystalStartLimit, hstarting', hfirst', if_true, Bool.false_eq_true, if_false] at hrun
  exact ⟨_, hrun, ((s.at t).setRestarted (crystalIndex x) true).clkPending_reports _ _⟩

/-! ### PLLs (R522, R529) -/

theorem exec_pllLock_switches (p : Fin 8) (t : Nat) (s : State) (hp : p ≠ 7) (hxa : s.clk.sources[(2 : Fin 5)] = .running)
    (hlocks : s.clk.plls[p] = .locking ∨ s.clk.plls[p] = .relocking) (hfirst : s.clk.pllRetried[p] = false)
    (htarget : (s.clk.domains[pllDomain p]).target = none) (hclock : (s.clk.domains[pllDomain p]).clock ≠ 3 + p.val)
    (hgated : (s.clk.domains[pllDomain p]).gated = false) :
    ∃ u, exec (.pllLock p t) s = .next u ∧ u.clk.plls = s.clk.plls.set p .locked ∧ (u.clk.domains[pllDomain p]).target = some (3 + p.val) ∧
      u = { s.at t with clk := u.clk } := by
  let w : State := { s.at t with clk := { s.clk with plls := s.clk.plls.set p .locked } }
  have hready : ((s.at t).clk.sources[(2 : Fin 5)] = .running && ((s.at t).clk.plls[p] = .locking || (s.at t).clk.plls[p] = .relocking)) = true := by
    rw [Bool.and_eq_true, Bool.or_eq_true, decide_eq_true_eq, decide_eq_true_eq, decide_eq_true_eq]
    exact ⟨hxa, hlocks⟩
  have hfirst' : (s.at t).clk.pllRetried[p] = false := hfirst
  have hrun : exec (.pllLock p t) s = .next (w.switchTo (pllDomain p) (3 + p.val)) := by
    rw [show exec (.pllLock p t) s = execPllLock p t s from rfl, execPllLock]
    simp only [hready, hfirst', if_neg hp, if_true, Bool.false_eq_true, if_false]
    rfl
  rw [State.switchTo_asks (s := w) htarget hgated hclock] at hrun
  exact ⟨_, hrun, rfl, congrArg ClkDomain.target (Vector.getElem_set_self _), rfl⟩

theorem exec_clockLoss_pll (p : Fin 8) (t : Nat) (s : State) (h5 : p ≠ 5) (h7 : p ≠ 7) (hlocked : s.clk.plls[p] = .locked)
    (hclock : (s.clk.domains[pllDomain p]).clock = 3 + p.val) (htarget : (s.clk.domains[pllDomain p]).target = none)
    (hgated : (s.clk.domains[pllDomain p]).gated = false) :
    ∃ u, exec (.clockLoss (.pll p) t) s = .next u ∧ u.clk.plls = s.clk.plls.set p .relocking ∧ u.clk.pllRetried = s.clk.pllRetried.set p true ∧
      (u.clk.domains[pllDomain p]).target = some 2 ∧ Claims.Posts s u [0x0300] ∧
      Claims.Tells s u [.detect { fclass := 0x0C, source := 1, unit := BitVec.ofNat 8 (3 + p.val), outcome := .pending } (max s.aon t)] := by
  have hfio : ((s.at t).clk.domains[pllDomain p]).clock ≠ 2 := by
    rw [show ((s.at t).clk.domains[pllDomain p]).clock = 3 + p.val from hclock]
    omega
  have hleave : (s.at t).leavePll p = (s.at t).switchTo (pllDomain p) 2 := by
    rw [State.leavePll]
    simp only [if_neg h5, if_neg h7]
    exact if_pos hclock
  rw [State.switchTo_asks (s := s.at t) htarget hgated hfio] at hleave
  have hlocked' : (s.at t).clk.plls[p] = .locked := hlocked
  have hrun := show exec (.clockLoss (.pll p) t) s = .next ((s.at t).pllLost p) from rfl
  simp only [State.pllLost, hlocked', hleave] at hrun
  obtain ⟨hclk, hposts, htells⟩ := State.clkPending_reports (s := { s.at t with clk := { s.clk with
    domains := s.clk.domains.set (pllDomain p) { s.clk.domains[pllDomain p] with target := some 2 }
    plls := s.clk.plls.set p .relocking, pllRetried := s.clk.pllRetried.set p true } }) (pllClock p) [pllDomain p]
  refine ⟨_, hrun, congrArg Clk.plls hclk, congrArg Clk.pllRetried hclk, ?_, hposts, htells⟩
  exact (congrArg (fun c : Clk => (c.domains[pllDomain p]).target) hclk).trans (congrArg ClkDomain.target (Vector.getElem_set_self _))

/-- Settles O20: CLOCK_STATUS by the fields of its answer, each event by the switch it asks for and what it reports. -/
theorem clockSourcesComplete : Obligations.ClockSourcesComplete := by
  unfold Obligations.ClockSourcesComplete
  exact ⟨exec_clockStatus_answers, exec_crystalStart_xb, exec_crystalStart_xa, exec_crystalStartLimit_first, exec_pllLock_switches,
    exec_clockLoss_pll⟩

end Sys2Proof.Machine
end

section
/-! PROOF. Clock switches, the always-on time and crossings (21 R524 to R526, R532, R533, R540, R541): O21. -/

namespace Sys2Proof.Machine

/-! ### A switch that completes (R524 to R526) -/

/-- A domain on its new clock. -/
def ClkDomain.switched (clock : Nat) (forced : Bool) (o : ClkDomain) : ClkDomain :=
  { o with clock := clock, target := none, gated := false, forced := o.forced || forced, switches := satAdd o.switches 1 }

theorem State.fioTake_frame (s : State) : s.fioTake.clk = s.clk ∧ s.fioTake.mbx = s.mbx ∧ s.fioTake.lsd = s.lsd := by
  simp only [fioTake]
  split
  · split <;> exact ⟨rfl, rfl, rfl⟩
  · exact ⟨rfl, rfl, rfl⟩

/-- A completed switch: the domain runs on its new clock, the lines are untouched and CLK_SWITCH is posted. -/
theorem State.setClock_switches (s : State) (d : Fin 13) (clock : Nat) (forced : Bool) :
    (s.setClock d clock forced).clk = { s.clk with domains := s.clk.domains.set d ((s.clk.domains[d]).switched clock forced) } ∧
      (s.setClock d clock forced).lsd = s.lsd ∧ Claims.Posts s (s.setClock d clock forced) [0x0301] := by
  obtain ⟨hclk, hmbx, hlsd⟩ := State.fioTake_frame
    { s with clk := { s.clk with domains := s.clk.domains.set d ((s.clk.domains[d]).switched clock forced) } }
  exact ⟨hclk, hlsd, posts_of_mbx hmbx (posts_post ..)⟩

theorem State.forcedFault_keeps (s : State) (d : Fin 13) (clock : Nat) :
    (s.forcedFault d clock).clk.domains = s.clk.domains ∧ (s.forcedFault d clock).lsd = s.lsd ∧
      Claims.Posts s (s.forcedFault d clock) [0x0300] := by
  rw [forcedFault]
  split
  · exact ⟨rfl, rfl, posts_post s 0x0300 clsFault _⟩
  · exact ⟨rfl, rfl, posts_post s 0x0300 clsFault _⟩

/-- Only CK_TIM with line starts held has lines to resume. -/
theorem State.timBack_of_idle {s : State} {d : Fin 13} (h : d ≠ 9 ∨ s.lsd.hold = false) : s.timBack d = s := by
  rw [timBack, if_neg]
  rintro ⟨hd, -, hhold⟩
  rcases h with h | h
  · exact h hd
  · exact Bool.false_ne_true (h.symm.trans hhold)

theorem State.nextSwitch_of_none {s : State} {d : Fin 13} (h : (s.clk.domains[d]).waiting = []) : s.nextSwitch d = s := by
  simp only [nextSwitch, h]

/-- No switch waits behind the one that has completed. -/
theorem waiting_of_domains {s u : State} {d : Fin 13} {c : ClkDomain} (h : u.clk.domains = s.clk.domains.set d c) (hc : c.waiting = []) :
    (u.clk.domains[d]).waiting = [] := by
  rw [show u.clk.domains[d] = c by rw [h]; exact Vector.getElem_set_self _]
  exact hc

theorem exec_clockSwitch_switches (d : Fin 13) (t : Nat) (s : State) (c : Nat) (htarget : (s.clk.domains[d]).target = some c)
    (hwaiting : (s.clk.domains[d]).waiting = []) (hfree : d ≠ 9 ∨ s.lsd.hold = false) :
    let o := s.clk.domains[d]
    ∃ u, exec (.clockSwitch d t) s = .next u ∧ u.clk.domains = s.clk.domains.set d { o with
        clock := c, target := none, gated := false, switches := satAdd o.switches 1 } ∧ Claims.Posts s u [0x0301] := by
  intro o
  obtain ⟨hclk, hlsd, hposts⟩ := (s.at t).setClock_switches d c false
  have hdomains : ((s.at t).setClock d c false).clk.domains = s.clk.domains.set d { o with
      clock := c, target := none, gated := false, switches := satAdd o.switches 1 } := by
    rw [hclk, ClkDomain.switched, Bool.or_false]
    rfl
  have hrun : exec (.clockSwitch d t) s = .next ((((s.at t).setClock d c false).timBack d).nextSwitch d) := by
    rw [show exec (.clockSwitch d t) s = execClockSwitch d t s from rfl, execClockSwitch]
    simp only [show ((s.at t).clk.domains[d]).target = some c from htarget]
  rw [State.timBack_of_idle (by rw [hlsd]; exact hfree), State.nextSwitch_of_none (waiting_of_domains hdomains hwaiting)] at hrun
  exact ⟨_, hrun, hdomains, hposts⟩

/-- A forced switch: the domain's new clock, and the events of the switch and of its fault. -/
theorem State.forced_switches (s : State) (d : Fin 13) (clock source : Nat) (t : Nat) :
    (((s.at t).setClock d clock true).forcedFault d source).clk.domains = s.clk.domains.set d { s.clk.domains[d] with
        clock := clock, target := none, gated := false, forced := true, switches := satAdd (s.clk.domains[d]).switches 1 } ∧
      (((s.at t).setClock d clock true).forcedFault d source).lsd = s.lsd ∧
      Claims.Posts s (((s.at t).setClock d clock true).forcedFault d source) [0x0301, 0x0300] := by
  obtain ⟨hclk, hlsd, hposts⟩ := (s.at t).setClock_switches d clock true
  obtain ⟨hdomains, hlsd', hposts'⟩ := ((s.at t).setClock d clock true).forcedFault_keeps d source
  refine ⟨?_, hlsd'.trans hlsd, posts_trans hposts hposts'⟩
  rw [hdomains, hclk, ClkDomain.switched, Bool.or_true]
  rfl

theorem exec_switchHandshakeTimeout_forces (d : Fin 13) (t : Nat) (s : State) (c : Nat) (htarget : (s.clk.domains[d]).target = some c)
    (hwaiting : (s.clk.domains[d]).waiting = []) (hfree : d ≠ 9 ∨ s.lsd.hold = false) :
    let o := s.clk.domains[d]
    ∃ u, exec (.switchHandshakeTimeout d t) s = .next u ∧ u.clk.domains = s.clk.domains.set d { o with
        clock := c, target := none, gated := false, forced := true, switches := satAdd o.switches 1 } ∧ Claims.Posts s u [0x0301, 0x0300] := by
  intro o
  obtain ⟨hdomains, hlsd, hposts⟩ := s.forced_switches d c o.clock t
  have hrun : exec (.switchHandshakeTimeout d t) s =
      .next (((((s.at t).setClock d c true).forcedFault d o.clock).timBack d).nextSwitch d) := by
    rw [show exec (.switchHandshakeTimeout d t) s = execSwitchHandshakeTimeout d t s from rfl, execSwitchHandshakeTimeout]
    simp only [show ((s.at t).clk.domains[d]).target = some c from htarget]
    rfl
  rw [State.timBack_of_idle (by rw [hlsd]; exact hfree), State.nextSwitch_of_none (waiting_of_domains hdomains hwaiting)] at hrun
  exact ⟨_, hrun, hdomains, hposts⟩

theorem exec_newClockTimeout_fio (d : Fin 13) (t : Nat) (s : State) (c : Nat) (htarget : (s.clk.domains[d]).target = some c)
    (hwaiting : (s.clk.domains[d]).waiting = []) (hnew : c ≠ 2) (hold : (s.clk.domains[d]).clock ≠ 2)
    (hfio : s.clk.sources[(0 : Fin 5)] = .running) :
    let o := s.clk.domains[d]
    ∃ u, exec (.newClockTimeout d t) s = .next u ∧ u.clk.domains = s.clk.domains.set d { o with
        clock := 2, target := none, gated := false, forced := true, switches := satAdd o.switches 1 } ∧ Claims.Posts s u [0x0301, 0x0300] := by
  intro o
  obtain ⟨hdomains, -, hposts⟩ := s.forced_switches d 2 c t
  have hleave : ¬ (c = 2 ∨ ((s.at t).clk.domains[d]).clock = 2 ∨ (s.at t).clk.sources[(0 : Fin 5)] ≠ .running) := by
    rintro (h | h | h)
    · exact hnew h
    · exact hold h
    · exact h hfio
  have hrun : exec (.newClockTimeout d t) s = .next ((((s.at t).setClock d 2 true).forcedFault d c).nextSwitch d) := by
    rw [show exec (.newClockTimeout d t) s = execNewClockTimeout d t s from rfl, execNewClockTimeout]
    simp only [show ((s.at t).clk.domains[d]).target = some c from htarget, if_neg hleave]
  rw [State.nextSwitch_of_none (waiting_of_domains hdomains hwaiting)] at hrun
  exact ⟨_, hrun, hdomains, hposts⟩

/-! ### Always-on time and crossings (R532, R533, R540, R541) -/

theorem exec_xbIncrementUpdate_sets (x t : Nat) (s : State) (hpower : s.poweredOn 1 = true) (hxa : s.clk.sources[(2 : Fin 5)] = .running)
    (hxb : s.clk.onXb = true) :
    exec (.xbIncrementUpdate x t) s = .next { s.at t with clk := { s.clk with increment := x * 20 * 2 ^ 32 / 32768 } } := by
  have hready : ((s.at t).poweredOn 1 && (s.at t).clk.sources[(2 : Fin 5)] = .running && (s.at t).clk.onXb) = true := by
    rw [Bool.and_eq_true, Bool.and_eq_true, decide_eq_true_eq]
    exact ⟨⟨hpower, hxa⟩, hxb⟩
  rw [show exec (.xbIncrementUpdate x t) s = execXbIncrementUpdate x t s from rfl, execXbIncrementUpdate]
  simp only [hready, if_true]
  rfl

theorem exec_peerInReset_reports (d : Fin 13) (n : Nat) (s : State) (h : s.clk.inReset.getLsbD (clockPower d).val = true) :
    exec (.peerInReset d n) s = .next { s with clk := { s.clk with crossings := upd s.clk.crossings d (fun c =>
      { c with peerInReset := true, drops := satAdd c.drops n }) } } :=
  if_pos h

theorem exec_crossingReady_clears (d : Fin 13) (s : State) (h : s.clk.inReset.getLsbD (clockPower d).val = false) :
    exec (.crossingReady d) s = .next { s with clk := { s.clk with
      crossings := upd s.clk.crossings d (fun c => { c with peerInReset := false }) } } :=
  if_neg (by rw [State.domainInReset, h]; exact Bool.false_ne_true)

/-- Settles O21: a switch by the clock its domain runs on and the events it posts. -/
theorem clockSwitchesComplete : Obligations.ClockSwitchesComplete := by
  unfold Obligations.ClockSwitchesComplete
  exact ⟨exec_clockSwitch_switches, exec_switchHandshakeTimeout_forces, exec_newClockTimeout_fio, exec_xbIncrementUpdate_sets,
    fun _ _ _ => rfl, exec_peerInReset_reports, exec_crossingReady_clears⟩

end Sys2Proof.Machine
end

section
/-! PROOF. Power-on, module reset, Kettle restarts and RESET_NOTICE (15 R373; 17 R429; 21 R532, R534 to R536): O22. -/

namespace Sys2Proof.Machine

/-! ### MGMT_RESET_N and the release (R534, R536) -/

theorem us_one : us 1 = 1000 * 2 ^ 32 := us_eq 1

theorem exec_mgmtResetN_low (t t0 : Nat) (s : State) (hlow : s.clk.pinLow = some t0) (hlong : t0 + 1000 * 2 ^ 32 ≤ max s.aon t)
    (hwanted : s.clk.wanted = none) (hhold : s.clk.holdFrom = none) :
    exec (.mgmtResetN true t) s = .next { s.at t with clk := { s.clk with wanted := some 1, pinLow := none } } ∧
    exec (.mgmtResetN false t) s = .next { s.at t with clk := { s.clk with wanted := some 1 } } := by
  have hlong' : t0 + us 1 ≤ (s.at t).aon := by rw [us_one]; exact hlong
  have hlow' : (s.at t).clk.pinLow = some t0 := hlow
  have hwanted' : (s.at t).clk.wanted = none := hwanted
  have hhold' : (s.at t).clk.holdFrom = none := hhold
  refine ⟨?_, ?_⟩
  · rw [show exec (.mgmtResetN true t) s = execMgmtResetN true t s from rfl, execMgmtResetN]
    simp only [hlow', hwanted', hhold', hlong', decide_true, Option.isSome_none, Bool.false_and, Bool.or_self, Bool.not_false, Bool.and_self,
      if_true, Bool.false_eq_true, if_false]
    rw [← hhold]
    rfl
  · rw [show exec (.mgmtResetN false t) s = execMgmtResetN false t s from rfl, execMgmtResetN]
    simp only [hlow', hwanted', hhold', hlong', decide_true, Option.isSome_none, Bool.false_and, Bool.or_self, Bool.not_false, Bool.and_self,
      if_true, Bool.false_eq_true, if_false, Option.getD_some]
    rw [← hlow, ← hhold]
    rfl

theorem exec_resetRelease_boots (t t0 : Nat) (s : State) (hhold : s.clk.holdFrom = some t0) (hdue : t0 + 10000 * 2 ^ 32 ≤ max s.aon t)
    (hpin : s.clk.pinLow = none) (hpower : s.poweredOn 1 = true) :
    ∃ u, exec (.resetRelease t) s = .next u ∧ u.boot.stage = 1 ∧ u.clk.holdFrom = none ∧ u.clk.inReset = s.clk.inReset &&& ~~~2#12 ∧
      u.clk.sources[(0 : Fin 5)] = .running := by
  have hnow : t0 + us 10 ≤ (s.at t).aon ∧ (s.at t).clk.pinLow = none ∧
      ((s.at t).poweredOn 1 || ((s.at t).clk.lastReset == 1 && !(s.at t).pwr.criticalHold)) = true := by
    refine ⟨?_, hpin, ?_⟩
    · rw [us_eq]; exact hdue
    · rw [show (s.at t).poweredOn 1 = true from hpower, Bool.true_or]
  have hrun := show exec (.resetRelease t) s = execResetRelease t s from rfl
  simp only [execResetRelease, show (s.at t).clk.holdFrom = some t0 from hhold, if_pos hnow] at hrun
  exact ⟨_, hrun, rfl, rfl, rfl, rfl⟩

/-! ### The module reset (R534 to R536) -/

theorem State.wasteOn_keeps (s : State) : s.wasteOn.fsv.power = s.fsv.power := by
  rw [wasteOn]
  split <;> simp

theorem State.wastePower_power (s : State) : s.wastePower.fsv.power = true := wasteOn_keeps _

/-- What a module reset takes from the state before it: power, the flash, memory and, for an armed job, WASTE for cause POWER. -/
theorem State.moduleReset_entry (s : State) (cause : Byte) :
    ∃ w : State, s.moduleReset cause = ({ w.afterReset with
        clk := w.clk.held cause s.aon
        boot := { w.afterReset.boot with flash := { w.boot.flash with resets := satAdd w.boot.flash.resets 1 } } } : State).setAlert 9 ∧
      w.boot = s.boot ∧ w.pwr = s.pwr ∧ w.mem = s.mem ∧ (s.armed = true → w.fsv.power = true) := by
  refine ⟨(if s.armed then s.wastePower else s).resetNotice cause, rfl, ?_, ?_, ?_, fun harmed => ?_⟩
  · rw [resetNotice]; split <;> simp
  · rw [resetNotice]; split <;> simp
  · rw [resetNotice]; split <;> simp
  · rw [if_pos harmed, resetNotice]
    simp [wastePower_power]

theorem State.setAlert_sets (s : State) (b : Nat) (hb : b < 11) : (s.setAlert b).mgt.alertStatus.getLsbD b = true := by
  simp [setAlert, hb]

theorem exec_moduleResetSequence_resets (t : Nat) (s : State) (c : Byte) (hwanted : s.clk.wanted = some c) :
    ∃ u, exec (.moduleResetSequence t) s = .next u ∧ u.clk.lastReset = c ∧ u.clk.wanted = none ∧ u.clk.holdFrom = some (max s.aon t) ∧
      u.clk.inReset = 0xFFE ∧ u.job.state = .idle ∧ u.mbx = Mbx.init ∧ u.boot.flash.resets = satAdd s.boot.flash.resets 1 ∧
      u.boot.fwReady = false ∧ u.fsv.waste = u.fsv.power ∧ (s.armed = true → u.fsv.power = true) ∧ u.pwr.powered = s.pwr.powered ∧
      u.mgt.alertStatus.getLsbD 9 = true ∧ u.mem = s.mem := by
  have hdue : (s.at t).resetDue = some c := by
    simp only [State.resetDue, show (s.at t).clk.wanted = some c from hwanted]
  have hrun : exec (.moduleResetSequence t) s = .next ((s.at t).moduleReset c) := by
    rw [show exec (.moduleResetSequence t) s = execModuleResetSequence t s from rfl, execModuleResetSequence]
    simp only [hdue]
  obtain ⟨w, hw, hboot, hpwr, hmem, hpower⟩ := (s.at t).moduleReset_entry c
  rw [hw] at hrun
  refine ⟨_, hrun, rfl, rfl, rfl, rfl, rfl, rfl, ?_, rfl, rfl, hpower, ?_, State.setAlert_sets _ 9 (by decide), hmem⟩
  · exact show satAdd w.boot.flash.resets 1 = satAdd s.boot.flash.resets 1 by rw [hboot]; rfl
  · exact show w.pwr.powered = s.pwr.powered by rw [hpwr]; rfl

/-! ### Kettle restarts (R429, R535) -/

/-- The host rings' request sides, the waiting requests and the started ones of every mailbox are as before. -/
def RequestsKept (s t : State) : Prop :=
  ∀ k : Fin 8, (t.box k).outstanding = (s.box k).outstanding ∧ (t.box k).reqTail = (s.box k).reqTail ∧
    (t.box k).reqHead = (s.box k).reqHead ∧ (t.box k).requests = (s.box k).requests

theorem RequestsKept.of_mbx {s t : State} (h : t.mbx.boxes = s.mbx.boxes) : RequestsKept s t := by
  intro k
  rw [show t.box k = s.box k from congrArg (fun v : Vector Box 8 => v[k]) h]
  exact ⟨rfl, rfl, rfl, rfl⟩

theorem RequestsKept.trans {s t u : State} (h₁ : RequestsKept s t) (h₂ : RequestsKept t u) : RequestsKept s u := by
  intro k
  obtain ⟨a₁, b₁, c₁, d₁⟩ := h₁ k
  obtain ⟨a₂, b₂, c₂, d₂⟩ := h₂ k
  exact ⟨a₂.trans a₁, b₂.trans b₁, c₂.trans c₁, d₂.trans d₁⟩

theorem State.requestsKept_setBox {s : State} {m : Fin 8} {b : Box} (hout : b.outstanding = (s.box m).outstanding)
    (htail : b.reqTail = (s.box m).reqTail) (hhead : b.reqHead = (s.box m).reqHead) (hreq : b.requests = (s.box m).requests) :
    RequestsKept s (s.setBox m b) := by
  intro k
  rcases eq_or_ne k m with rfl | hk
  · rw [box_setBox_self]
    exact ⟨hout, htail, hhead, hreq⟩
  · rw [box_setBox_ne _ hk]
    exact ⟨rfl, rfl, rfl, rfl⟩

theorem State.requestsKept_writeReply (s : State) (m : Fin 8) (msg : List Byte) : RequestsKept s (s.writeReply m msg) := by
  by_cases hhost : m.val < 4
  · have hplaced : RequestsKept s (s.replyPlaced m msg) :=
      (RequestsKept.of_mbx rfl).trans (requestsKept_setBox (s := { s with mbx := { s.mbx with ringMem := _ } }) rfl rfl rfl rfl)
    exact hplaced.trans (.of_mbx (congrArg Mbx.boxes (writeReply_host_mbx hhost s msg)))
  · rw [writeReply]
    simp only [if_neg hhost]
    split
    · have hstored : RequestsKept s (s.setBox m { s.box m with replies := (s.box m).replies ++ [msg] }) :=
        requestsKept_setBox rfl rfl rfl rfl
      exact hstored.trans (.of_mbx rfl)
    · exact .of_mbx (by simp)

theorem State.requestsKept_deliver (s : State) (m : Fin 8) (msg : List Byte) : RequestsKept s (s.deliver m msg) := by
  rw [deliver]
  split
  · exact s.requestsKept_writeReply m msg
  · exact requestsKept_setBox rfl rfl rfl rfl

/-- One started request is answered: it leaves its mailbox, and every other request stays. -/
theorem State.lastReply_box (s : State) (m : Fin 8) (x : Outstanding) (msg : List Byte) {l : List Outstanding}
    (hl : (s.box m).outstanding = x :: l) (k : Fin 8) :
    ((s.updBox m (fun b => b.lastReply x msg)).box k).outstanding = (if k = m then l else (s.box k).outstanding) ∧
      ((s.updBox m (fun b => b.lastReply x msg)).box k).reqTail = (s.box k).reqTail ∧
      ((s.updBox m (fun b => b.lastReply x msg)).box k).reqHead = (s.box k).reqHead ∧
      ((s.updBox m (fun b => b.lastReply x msg)).box k).requests = (s.box k).requests := by
  rcases eq_or_ne k m with rfl | hk
  · rw [box_updBox_self, if_pos rfl, Box.lastReply]
    have herase : ((s.box k).answered x.tag).outstanding = l := by simp [Box.answered, hl]
    split
    · exact ⟨herase, rfl, rfl, rfl⟩
    · exact ⟨herase, rfl, rfl, rfl⟩
  · rw [box_updBox_ne _ hk, if_neg hk]
    exact ⟨rfl, rfl, rfl, rfl⟩

/-- The answers of a mailbox's started requests over a restart. -/
def State.internalAnswer (m : Fin 8) (s : State) (x : Outstanding) : State :=
  let msg := replyMsg x.opcode x.tag .internal 0xFFFFFFFF []
  let s1 := s.updBox m (fun b => b.lastReply x msg)
  if x.muted || (decide (6 ≤ m.val) && !x.owed) then s1 else s1.deliver m msg

theorem State.internalReplies_eq (s : State) (m : Fin 8) :
    s.internalReplies m = (s.box m).outstanding.foldl (State.internalAnswer m) s := rfl

/-- The mailboxes in `l` have no started request left; nothing else of their requests has changed. -/
def AnsweredIn (l : List (Fin 8)) (s t : State) : Prop :=
  ∀ k : Fin 8, (t.box k).outstanding = (if k ∈ l then [] else (s.box k).outstanding) ∧ (t.box k).reqTail = (s.box k).reqTail ∧
    (t.box k).reqHead = (s.box k).reqHead ∧ (t.box k).requests = (s.box k).requests

theorem State.foldl_internalAnswer (m : Fin 8) (l : List Outstanding) (s : State) (hl : (s.box m).outstanding = l) :
    AnsweredIn [m] s (l.foldl (State.internalAnswer m) s) := by
  induction l generalizing s with
  | nil =>
    intro k
    refine ⟨?_, rfl, rfl, rfl⟩
    rcases eq_or_ne k m with rfl | hk
    · simp [hl]
    · simp [hk]
  | cons x l ih =>
    have hanswer := s.lastReply_box m x (replyMsg x.opcode x.tag .internal 0xFFFFFFFF []) hl
    have hkept : RequestsKept (s.updBox m (fun b => b.lastReply x (replyMsg x.opcode x.tag .internal 0xFFFFFFFF [])))
        (State.internalAnswer m s x) := by
      simp only [State.internalAnswer]
      split
      · exact .of_mbx rfl
      · exact State.requestsKept_deliver _ m _
    have hout : ((State.internalAnswer m s x).box m).outstanding = l := by
      rw [(hkept m).1, (hanswer m).1, if_pos rfl]
    intro k
    obtain ⟨hrest, htail, hhead, hreq⟩ := ih _ hout k
    obtain ⟨ho, ht, hh, hr⟩ := hkept k
    obtain ⟨ho', ht', hh', hr'⟩ := hanswer k
    refine ⟨?_, htail.trans (ht.trans ht'), hhead.trans (hh.trans hh'), hreq.trans (hr.trans hr')⟩
    rw [List.foldl_cons, hrest, ho, ho']
    rcases eq_or_ne k m with rfl | hk
    · simp
    · simp [hk]

theorem State.foldl_internalReplies (l : List (Fin 8)) (s : State) : AnsweredIn l s (l.foldl State.internalReplies s) := by
  induction l generalizing s with
  | nil => exact fun k => ⟨(if_neg List.not_mem_nil).symm, rfl, rfl, rfl⟩
  | cons m l ih =>
    intro k
    have hfirst : AnsweredIn [m] s (s.internalReplies m) := s.internalReplies_eq m ▸ foldl_internalAnswer m _ s rfl
    obtain ⟨ho, ht, hh, hr⟩ := hfirst k
    obtain ⟨ho', ht', hh', hr'⟩ := ih (s.internalReplies m) k
    refine ⟨?_, ht'.trans ht, hh'.trans hh, hr'.trans hr⟩
    rw [List.foldl_cons, ho', ho]
    by_cases hkm : k = m
    · simp [hkm]
    · simp [hkm]

theorem State.msix_globalFault (s : State) (v : Nat) : (s.msix v).hif.globalFault = s.hif.globalFault := by
  rw [msix]
  split <;> rfl

theorem State.setGlobalFault_sets (s : State) (b : Nat) (hb : b < 8) : (s.setGlobalFault b).hif.globalFault.getLsbD b = true := by
  rw [setGlobalFault]
  simp only
  split
  · simp [hb]
  · rw [msix_globalFault]
    simp [hb]

theorem State.internalAnswer_frame (m : Fin 8) (s : State) (x : Outstanding) :
    (s.internalAnswer m x).job = s.job ∧ (s.internalAnswer m x).aon = s.aon := by
  simp only [internalAnswer]
  split <;> simp

theorem State.internalReplies_frame (s : State) (m : Fin 8) : (s.internalReplies m).job = s.job ∧ (s.internalReplies m).aon = s.aon := by
  rw [internalReplies_eq]
  exact ⟨foldl_keep (·.job) _ (fun s x => (s.internalAnswer_frame m x).1) _ s, foldl_keep (·.aon) _ (fun s x => (s.internalAnswer_frame m x).2) _ s⟩

theorem State.kettleRestart_spec (s : State) :
    (∀ m : Fin 8, (s.kettleRestart.box m).outstanding = [] ∧ (s.kettleRestart.box m).reqTail = (s.box m).reqTail ∧
      (s.kettleRestart.box m).reqHead = (s.box m).reqHead ∧ (s.kettleRestart.box m).requests = (s.box m).requests) ∧
    s.kettleRestart.mbx.results = [] ∧ s.kettleRestart.boot.update = none ∧ s.kettleRestart.boot.kettleAt = some s.aon ∧
    s.kettleRestart.hif.globalFault.getLsbD 3 = true ∧ s.kettleRestart.job = s.job := by
  have hanswered := foldl_internalReplies (List.finRange 8) s
  have hjob : ((List.finRange 8).foldl State.internalReplies s).job = s.job := foldl_keep (·.job) _ (fun s m => (s.internalReplies_frame m).1) _ s
  have haon : ((List.finRange 8).foldl State.internalReplies s).aon = s.aon := foldl_keep (·.aon) _ (fun s m => (s.internalReplies_frame m).2) _ s
  simp only [kettleRestart]
  generalize (List.finRange 8).foldl State.internalReplies s = w at hanswered hjob haon ⊢
  refine ⟨fun m => ?_, by simp [setAlert], by simp, by simp [haon], ?_, by simp [hjob]⟩
  · obtain ⟨ho, ht, hh, hr⟩ := hanswered m
    rw [if_pos (List.mem_finRange m)] at ho
    rw [← ht, ← hh, ← hr, ← ho]
    simp only [State.box, setAlert_mbx, setGlobalFault_frame]
    split
    · rw [Fin.getElem_fin, Vector.getElem_map]
      exact ⟨rfl, rfl, rfl, rfl⟩
    · exact ⟨rfl, rfl, rfl, rfl⟩
  · exact setGlobalFault_sets _ 3 (by decide)

/-! ### RESET_NOTICE (R373) -/

theorem State.hopsOnly_passOn (s : State) (h : ChainHdr) (mtype : Byte) (body : List Byte) : HopsOnly s (s.passOn h mtype body) :=
  ite_rel (.refl s) ((s.hopsOnly_wakeDir ..).trans (hopsOnly_chainTo ..))

theorem State.hopsOnly_txnAsk (s : State) : HopsOnly s s.txnAsk := by
  unfold txnAsk
  split
  · next g _ =>
      refine ite_rel (.refl s) (HopsOnly.trans (t := s.updGroup g.id (fun x => { x with queried := true })) rfl ?_)
      exact foldl_rel HopsOnly.refl HopsOnly.trans (fun s a => s.hopsOnly_chainVia _ _) _ _
  · exact .refl s

theorem State.txnResolve_chain (s : State) : s.txnResolve.chain = s.chain := by
  unfold txnResolve
  split
  · split <;> simp
  · rfl

theorem State.hopsOnly_txnPeerReset (s : State) (a : Fin 16) : HopsOnly s (s.txnPeerReset a) := by
  unfold txnPeerReset
  split
  · exact ite_rel (s.hopsOnly_txnAsk.trans (.of_chain (txnResolve_chain _))) (.refl s)
  · exact .refl s

/-- The peer is marked as in reset, whatever is then asked of the others. -/
theorem State.peerInReset_marks (s : State) (a : Fin 16) (cause : Byte) : (s.peerInReset a cause).chain.inReset.getLsbD a.val = true := by
  have hmarked : (s.peerInReset a cause).chain.inReset = s.chain.inReset ||| (1#16 <<< a.val) :=
    congrArg Chain.inReset (State.hopsOnly_txnPeerReset _ a)
  rw [hmarked]
  simp

theorem exec_resetNotice_marks (h : ChainHdr) (c : Byte) (t : Nat) (s : State) (hepoch : h.epoch = s.chain.epoch) :
    ∃ u, exec (.resetNotice h c t) s = .next u ∧ u.chain.inReset.getLsbD h.src.val = true := by
  have hcurrent : ((s.at t).ackChain h).current h = true := beq_iff_eq.2 hepoch
  have hrun : exec (.resetNotice h c t) s = .next ((((s.at t).ackChain h).passOn h 0x32 [c]).peerInReset h.src c) :=
    congrArg Host.Outcome.next (if_pos hcurrent)
  exact ⟨_, hrun, State.peerInReset_marks _ h.src c⟩

/-! ### Kettle faults (R535) -/

theorem sec_one : sec 1 = 1000000000 * 2 ^ 32 := by rw [sec, ns, Nat.mul_one]

/-- A Kettle fault that follows no restart of the last second restarts the Kettle. -/
theorem State.kettleFaulted_restarts {s : State} (h : s.boot.kettleAt = none ∨ ∃ t0, s.boot.kettleAt = some t0 ∧ t0 + sec 1 ≤ s.aon)
    (detail : Nat) : ∃ d, s.kettleFaulted detail = s.kettleRestart.detect d := by
  rcases h with h | ⟨t0, h, hlate⟩
  · simp only [kettleFaulted, h, Bool.false_eq_true, if_false]
    exact ⟨_, rfl⟩
  · simp only [kettleFaulted, h, decide_eq_false (Nat.not_lt.2 hlate), Bool.false_eq_true, if_false]
    exact ⟨_, rfl⟩

/-- A second one within a second asks for a watchdog reset. -/
theorem State.kettleFaulted_lasting {s : State} {t0 : Nat} (h : s.boot.kettleAt = some t0) (hsoon : s.aon < t0 + sec 1) (detail : Nat) :
    (s.kettleFaulted detail).clk.wanted = some 3 := by
  simp only [kettleFaulted, h, decide_eq_true hsoon, if_true]

theorem exec_kettle_restarts (t : Nat) (s : State)
    (h : s.boot.kettleAt = none ∨ ∃ t0, s.boot.kettleAt = some t0 ∧ t0 + 1000000000 * 2 ^ 32 ≤ max s.aon t) :
    (∃ u, exec (.kettleFault t) s = .next u ∧ (∀ m : Fin 8, (u.box m).outstanding = [] ∧ (u.box m).reqTail = (s.box m).reqTail ∧
        (u.box m).reqHead = (s.box m).reqHead ∧ (u.box m).requests = (s.box m).requests) ∧ u.mbx.results = [] ∧ u.boot.update = none ∧
      u.boot.kettleAt = some (max s.aon t) ∧ u.hif.globalFault.getLsbD 3 = true ∧ u.job = s.job) ∧
    (∃ u, exec (.kettleWatchdog t) s = .next u ∧ u.boot.kettleAt = some (max s.aon t) ∧ u.hif.globalFault.getLsbD 3 = true ∧ u.job = s.job) := by
  rw [← sec_one] at h
  obtain ⟨hboxes, hresults, hupdate, hat, hfault, hjob⟩ := (s.at t).kettleRestart_spec
  obtain ⟨d, hd⟩ := State.kettleFaulted_restarts (s := s.at t) h 0
  obtain ⟨e, he⟩ := State.kettleFaulted_restarts (s := s.at t) h 1
  have hrun : exec (.kettleFault t) s = .next ((s.at t).kettleFaulted 0) := rfl
  have hrun' : exec (.kettleWatchdog t) s = .next ((s.at t).kettleFaulted 1) := rfl
  exact ⟨⟨_, hrun.trans (congrArg _ hd), hboxes, hresults, hupdate, hat, hfault, hjob⟩, _, hrun'.trans (congrArg _ he), hat, hfault, hjob⟩

theorem exec_kettle_resets (t t0 : Nat) (s : State) (hat : s.boot.kettleAt = some t0) (hsoon : max s.aon t < t0 + 1000000000 * 2 ^ 32) :
    (∃ u, exec (.kettleFault t) s = .next u ∧ u.clk.wanted = some 3) ∧ (∃ u, exec (.kettleWatchdog t) s = .next u ∧ u.clk.wanted = some 3) := by
  rw [← sec_one] at hsoon
  exact ⟨⟨_, rfl, State.kettleFaulted_lasting (s := s.at t) hat hsoon 0⟩, _, rfl, State.kettleFaulted_lasting (s := s.at t) hat hsoon 1⟩

/-- Settles O22: each reset by what it keeps, a Kettle restart by the requests that it answers. -/
theorem resetsComplete : Obligations.ResetsComplete := by
  unfold Obligations.ResetsComplete
  exact ⟨fun _ _ _ => rfl, exec_mgmtResetN_low, exec_moduleResetSequence_resets, exec_resetRelease_boots, exec_kettle_restarts,
    exec_kettle_resets, fun _ _ => rfl, exec_resetNotice_marks⟩

end Sys2Proof.Machine
end

section
/-! PROOF. FW_STATUS and the three update commands (22 R556 to R560): O23. -/

namespace Sys2Proof.Machine

/-! ### FW_STATUS (R556) -/

theorem State.fwStatusBytes_fields (s : State) :
    let p := s.fwStatusBytes
    p.length = 48 ∧ fld p 0 1 = s.boot.running.val ∧ fld p 2 1 = s.boot.flash.floor.val ∧ fld p 40 8 = s.nowNs % 2 ^ 64 := by
  have hrunning : s.boot.running.val % 256 ^ 1 = s.boot.running.val := Nat.mod_eq_of_lt (Nat.lt_trans s.boot.running.isLt (by decide))
  have hfloor : s.boot.flash.floor.val % 256 ^ 1 = s.boot.flash.floor.val :=
    Nat.mod_eq_of_lt (Nat.lt_trans s.boot.flash.floor.isLt (by decide))
  refine ⟨?_, ?_, ?_, ?_⟩
  · simp [fwStatusBytes]
  all_goals
    simp only [fwStatusBytes, List.append_assoc]
    simp (disch := simp) only [fld_append_right, length_le, length_zeroBytes, Nat.reduceSub, fld_le, fld_le_end, hrunning, hfloor]
  -- The time of the answer: eight bytes are 64 bits.
  rfl

theorem exec_fwStatus_answers (q : Req) (s : State) (hq : Claims.FreshOf 0x0010 0 q s) : ∃ p : List Byte,
    exec (.fwStatus q) s = .next ((Claims.ok (s.start q 0x0010) p).deliver q 0x0010) ∧ p.length = 48 ∧ fld p 0 1 = s.boot.running.val ∧
    fld p 2 1 = s.boot.flash.floor.val ∧ fld p 40 8 = s.nowNs % 2 ^ 64 :=
  ⟨(s.start q 0x0010).fwStatusBytes, congrArg _ (serve_of_fresh hq.1 (beq_iff_eq.2 hq.2)), (s.start q 0x0010).fwStatusBytes_fields⟩

/-! ### FW_UPDATE_BEGIN (R557) -/

/-- The payload of FW_UPDATE_BEGIN. -/
def beginPayload (key : Bool) (len : Nat) : List Byte := [if key then 1 else 0, 0, 0, 0] ++ le 4 len ++ List.replicate 8 0

theorem beginPayload_fields (key : Bool) {len : Nat} (hlen : len < 2 ^ 32) :
    fld (beginPayload key len) 0 1 = (if key then 1 else 0) ∧ fld (beginPayload key len) 4 4 = len ∧
      zeros (beginPayload key len) 1 3 = true ∧ zeros (beginPayload key len) 8 8 = true := by
  refine ⟨?_, ?_, rfl, rfl⟩
  · cases key <;> rfl
  · rw [beginPayload, List.append_assoc, fld_append_right _ _ (by simp)]
    exact (fld_le 4 len _).trans (Nat.mod_eq_of_lt hlen)

theorem exec_fwUpdateBegin_opens (q : Req) (s : State) (key : Bool) (len : Nat) (hq : Claims.Fresh 0x0011 q s) (hidle : s.updBusy = false)
    (hlen : if key = true then 64 ≤ len ∧ len ≤ 65536 else 4096 ≤ len ∧ len ≤ 67108864)
    (hp : q.payload = [if key then 1 else 0, 0, 0, 0] ++ le 4 len ++ List.replicate 8 0) :
    let u : Update := { item := if key then .keyPackage else .firmware, length := len, pages := [], written := 0, busy := some (.erase, q.origin) }
    let fl := s.boot.flash
    let b : Boot := if key then { s.boot with update := some u, flash := { fl with packages := fl.packages.set fl.packageTarget none } }
      else { s.boot with update := some u, slots := s.boot.slots.set s.targetSlot SlotInfo.none }
    exec (.fwUpdateBegin q) s = .next ((Claims.accepted { s.start q 0x0011 with boot := b }).deliver q 0x0011) := by
  have hpayload : q.payload = beginPayload key len := hp
  have hrun : exec (.fwUpdateBegin q) s = .next ((cmdFwUpdateBegin.run q (s.start q 0x0011)).deliver q 0x0011) :=
    congrArg _ (serve_of_fresh hq (by rw [hp]; rfl))
  have hstart : (s.start q 0x0011).updBusy = false := hidle
  have hsmall : len < 2 ^ 32 := by cases key <;> simp at hlen <;> omega
  obtain ⟨hitem, hlength, hzero, hzero'⟩ := beginPayload_fields key hsmall
  intro u fl b
  rw [hrun]
  simp only [cmdFwUpdateBegin, hpayload, hitem, hlength, hzero, hzero', hstart]
  cases key
  · obtain ⟨hlo, hhi⟩ := hlen
    rw [checks_pass (by simp [hlo, hhi])]
    rfl
  · obtain ⟨hlo, hhi⟩ := hlen
    rw [checks_pass (by simp [hlo, hhi])]
    rfl

/-! ### FW_UPDATE_DATA (R558) -/

/-- The payload of FW_UPDATE_DATA. -/
def dataPayload (off len src : Nat) : List Byte := le 4 off ++ le 4 len ++ le 8 src ++ List.replicate 8 0

theorem dataPayload_fields {off len src : Nat} (hoff : off < 2 ^ 32) (hlen : len < 2 ^ 32) (hsrc : src < 2 ^ 64) :
    fld (dataPayload off len src) 0 4 = off ∧ fld (dataPayload off len src) 4 4 = len ∧ fld (dataPayload off len src) 8 8 = src ∧
      zeros (dataPayload off len src) 16 8 = true := by
  refine ⟨?_, ?_, ?_, rfl⟩
  all_goals
    simp only [dataPayload, List.append_assoc]
    simp (disch := simp) only [fld_append_right, length_le, Nat.reduceSub, fld_le]
    exact Nat.mod_eq_of_lt (by assumption)

theorem State.fwUpdate_of_open {s : State} {o : Update} (hopen : s.boot.update = some o) (hitem : o.item ≠ .recovery) : s.fwUpdate = some o := by
  simp only [fwUpdate, hopen, if_neg hitem]

theorem State.updBusy_of_idle {s : State} {o : Update} (hopen : s.boot.update = some o) (hidle : o.busy = none) : s.updBusy = false := by
  simp only [updBusy, hopen, hidle, Option.isSome_none]

theorem exec_fwUpdateData_programs (q : Req) (s : State) (o : Update) (off len src : Nat) (hq : Claims.Fresh 0x0012 q s)
    (hopen : s.boot.update = some o) (hitem : o.item ≠ .recovery) (hidle : o.busy = none) (halign : off % 256 = 0) (hoff : off < 2 ^ 32)
    (hpos : 1 ≤ len) (hmax : len ≤ 1048576) (hfits : off + len ≤ o.length) (hnew : (piecePages off len).any o.pages.contains = false)
    (hlo : 0x3400000000 ≤ src) (hhi : src + len ≤ 0x3800000000) (hp : q.payload = le 4 off ++ le 4 len ++ le 8 src ++ List.replicate 8 0) :
    let u : Update := { o with busy := some (.program off len src, q.origin) }
    exec (.fwUpdateData q) s = .next ((Claims.accepted { s.start q 0x0012 with boot := { s.boot with update := some u } }).deliver q 0x0012) := by
  have hpayload : q.payload = dataPayload off len src := hp
  have hrun : exec (.fwUpdateData q) s = .next ((cmdFwUpdateData.run q (s.start q 0x0012)).deliver q 0x0012) :=
    congrArg _ (serve_of_fresh hq (by rw [hp]; rfl))
  have hupdate : (s.start q 0x0012).fwUpdate = some o := State.fwUpdate_of_open (s := s.start q 0x0012) hopen hitem
  have hbusy : (s.start q 0x0012).updBusy = false := State.updBusy_of_idle (s := s.start q 0x0012) hopen hidle
  obtain ⟨hoffset, hlength, hsource, hzero⟩ := dataPayload_fields (off := off) (len := len) (src := src) hoff (by omega) (by omega)
  have hzone : inZone src len = true := inZone_of_le hlo hhi
  intro u
  rw [hrun]
  simp only [cmdFwUpdateData, hpayload, hoffset, hlength, hsource, hzero, hupdate, hbusy, hzone]
  rw [checks_pass]
  · rfl
  · simp [halign, hmax, hfits, hnew]
    omega

/-! ### FW_UPDATE_COMMIT (R559) -/

theorem exec_fwUpdateCommit_verifies (q : Req) (s : State) (o : Update) (act raise : Bool) (hq : Claims.Fresh 0x0013 q s)
    (hopen : s.boot.update = some o) (hitem : o.item ≠ .recovery) (hidle : o.busy = none) (hgap : o.gap = none)
    (hfree : act = false ∨ s.armed = false)
    (hp : q.payload = [BitVec.ofNat 8 ((if act then 1 else 0) + if raise then 2 else 0), 0, 0, 0, 0, 0, 0, 0]) :
    let u : Update := { o with busy := some (.commit act raise, q.origin) }
    exec (.fwUpdateCommit q) s = .next ((Claims.accepted { s.start q 0x0013 with boot := { s.boot with update := some u } }).deliver q 0x0013) := by
  have hrun : exec (.fwUpdateCommit q) s = .next ((cmdFwUpdateCommit.run q (s.start q 0x0013)).deliver q 0x0013) :=
    congrArg _ (serve_of_fresh hq (by rw [hp]; rfl))
  have hflags : fld q.payload 0 1 ≤ 3 ∧ bit (fld q.payload 0 1) 0 = act ∧ bit (fld q.payload 0 1) 1 = raise := by
    rw [hp, fld_cons_one]
    cases act <;> cases raise <;> decide
  obtain ⟨hsmall, hact, hraise⟩ := hflags
  have hzero : zeros q.payload 1 7 = true := by rw [hp]; rfl
  have hupdate : (s.start q 0x0013).fwUpdate = some o := State.fwUpdate_of_open (s := s.start q 0x0013) hopen hitem
  have hunblocked : (act && (s.start q 0x0013).armed) = false := by
    rcases hfree with h | h
    · rw [h, Bool.false_and]
    · rw [show (s.start q 0x0013).armed = false from h, Bool.and_false]
  intro u
  rw [hrun]
  simp only [cmdFwUpdateCommit, hact, hraise, hzero, hupdate]
  rw [checks_pass (by simpa using hsmall)]
  simp only [hidle, hgap, hunblocked, Option.isSome_none, Bool.false_eq_true, if_false]
  rfl

/-! ### While an operation executes (R556) -/

theorem exec_update_busy (q : Req) (s : State) (hbusy : s.updBusy = true) :
    (Claims.Fresh 0x0011 q s → q.payload = [0, 0, 0, 0, 0, 0x10, 0, 0, 0, 0, 0, 0, 0, 0, 0, 0] →
      exec (.fwUpdateBegin q) s = .next ((Ans.fail (s.start q 0x0011) .badState).deliver q 0x0011)) ∧
    (Claims.FreshOf 0x0012 24 q s → exec (.fwUpdateData q) s = .next ((Ans.fail (s.start q 0x0012) .badState).deliver q 0x0012)) ∧
    (Claims.Fresh 0x0013 q s → q.payload = List.replicate 8 0 →
      exec (.fwUpdateCommit q) s = .next ((Ans.fail (s.start q 0x0013) .badState).deliver q 0x0013)) := by
  obtain ⟨u, hopen, hexec⟩ : ∃ u, s.boot.update = some u ∧ u.busy.isSome = true := by
    rcases h : s.boot.update with _ | u
    · simp [State.updBusy, h] at hbusy
    · exact ⟨u, rfl, by simpa [State.updBusy, h] using hbusy⟩
  have hbusy' (op : Nat) : (s.start q op).updBusy = true := hbusy
  have hopened (op : Nat) : (s.start q op).fwUpdate = none ∨ (s.start q op).fwUpdate = some u := by
    have hstart : (s.start q op).boot.update = some u := hopen
    simp only [State.fwUpdate, hstart]
    split
    · exact .inl rfl
    · exact .inr rfl
  refine ⟨fun hq hp => ?_, fun hq => ?_, fun hq hp => ?_⟩
  · have hrun : exec (.fwUpdateBegin q) s = .next ((cmdFwUpdateBegin.run q (s.start q 0x0011)).deliver q 0x0011) :=
      congrArg _ (serve_of_fresh hq (by rw [hp]; rfl))
    have hpayload : q.payload = beginPayload false 0x1000 := hp
    obtain ⟨hitem, hlength, hzero, hzero'⟩ := beginPayload_fields false (len := 0x1000) (by decide)
    rw [hrun]
    simp only [cmdFwUpdateBegin, hpayload, hitem, hlength, hzero, hzero', hbusy']
    rfl
  · have hrun : exec (.fwUpdateData q) s = .next ((cmdFwUpdateData.run q (s.start q 0x0012)).deliver q 0x0012) :=
      congrArg _ (serve_of_fresh hq.1 (beq_iff_eq.2 hq.2))
    rw [hrun]
    rcases hopened 0x0012 with h | h
    · simp only [cmdFwUpdateData, h]
    · simp only [cmdFwUpdateData, h, hbusy']
      rfl
  · have hrun : exec (.fwUpdateCommit q) s = .next ((cmdFwUpdateCommit.run q (s.start q 0x0013)).deliver q 0x0013) :=
      congrArg _ (serve_of_fresh hq (by rw [hp]; rfl))
    have hgood : ∀ c ∈ [(decide (3 < fld q.payload 0 1) || !zeros q.payload 1 7, Status.badParam)], c.1 = false := by
      rw [hp]
      decide
    rw [hrun]
    simp only [cmdFwUpdateCommit]
    rw [checks_pass hgood]
    rcases hopened 0x0013 with h | h
    · simp only [h]
    · simp only [h, hexec, if_true]

/-- Settles O23: each command by the fields of its payload and the checks before its effect. -/
theorem updateCommandsComplete : Obligations.UpdateCommandsComplete := by
  unfold Obligations.UpdateCommandsComplete
  exact ⟨exec_fwStatus_answers, exec_fwUpdateBegin_opens, exec_fwUpdateData_programs, exec_fwUpdateCommit_verifies, exec_update_busy⟩

end Sys2Proof.Machine
end

section
/-! PROOF. Flash operations of a firmware update and its activation (22 R548, R549, R556, R559, R561): O24. -/

namespace Sys2Proof.Machine

/-! ### Active-slot records (R548, R549) -/

/-- A written copy reads back as its sequence number and slot. -/
theorem recordOf_recordBytes (seq : BitVec 32) (slot : Fin 2) : recordOf (recordBytes seq slot.val) = some (seq, slot) := by
  have hlen : ([0x50, 0x4C, 0x53, 0x52] ++ le 4 seq.toNat ++ le 1 slot.val ++ zeroBytes 19 : List Byte).length = 28 := by simp
  have hslot : fld (recordBytes seq slot.val) 8 1 = slot.val := by
    simp only [recordBytes, List.append_assoc]
    simp (disch := simp) only [fld_append_right, length_le, List.length_cons, List.length_nil, Nat.reduceAdd, Nat.reduceSub, fld_le]
    exact Nat.mod_eq_of_lt (Nat.lt_trans slot.isLt (by decide))
  have hseq : fld (recordBytes seq slot.val) 4 4 = seq.toNat := by
    simp only [recordBytes, List.append_assoc]
    simp (disch := simp) only [fld_append_right, List.length_cons, List.length_nil, Nat.reduceAdd, Nat.reduceSub, fld_le]
    exact Nat.mod_eq_of_lt seq.isLt
  have hbody : (recordBytes seq slot.val).take 28 = [0x50, 0x4C, 0x53, 0x52] ++ le 4 seq.toNat ++ le 1 slot.val ++ zeroBytes 19 :=
    List.take_left' hlen
  have hcrc : fld (recordBytes seq slot.val) 28 4 = (crc32c 0 ((recordBytes seq slot.val).take 28)).toNat := by
    rw [hbody, recordBytes, fld_append_right _ _ (Nat.le_of_eq hlen), hlen, Nat.sub_self, fld_le_end]
    exact Nat.mod_eq_of_lt (BitVec.isLt _)
  have hmagic : (recordBytes seq slot.val).take 4 = [0x50, 0x4C, 0x53, 0x52] := rfl
  have hlow : ∀ i : Fin 2, (if i.val = 1 then 1 else 0 : Fin 2) = i := by decide
  rw [recordOf]
  simp only [hslot, hseq, hmagic, hcrc, slot.isLt, and_self, if_true, BitVec.ofNat_toNat, BitVec.setWidth_eq, hlow]

theorem newerA_succ (b : BitVec 32) : newerA (b + 1) b = true := by
  rw [newerA, add_sub_cancel_left]
  decide

theorem newerA_pred (a : BitVec 32) : newerA a (a + 1) = false := by
  rw [newerA, show a - (a + 1) = (-1 : BitVec 32) by ring]
  decide

/-- A commit's record counts as the newer of the two copies. -/
theorem Flash.named_writeRecord (f : Flash) (slot : Fin 2) : (f.writeRecord slot).named = slot := by
  have hset0 (v : List Byte) : (f.records.set (0 : Fin 2) v)[(0 : Fin 2)] = v ∧ (f.records.set (0 : Fin 2) v)[(1 : Fin 2)] = f.records[(1 : Fin 2)] :=
    ⟨Vector.getElem_set_self _, Vector.getElem_set_ne _ _ (by decide)⟩
  have hset1 (v : List Byte) : (f.records.set (1 : Fin 2) v)[(1 : Fin 2)] = v ∧ (f.records.set (1 : Fin 2) v)[(0 : Fin 2)] = f.records[(0 : Fin 2)] :=
    ⟨Vector.getElem_set_self _, Vector.getElem_set_ne _ _ (by decide)⟩
  rcases ha : recordOf f.records[(0 : Fin 2)] with _ | a <;> rcases hb : recordOf f.records[(1 : Fin 2)] with _ | b
  · simp only [writeRecord, named, newest, ha, hb, hset0, recordOf_recordBytes]
  · simp only [writeRecord, named, newest, ha, hb, hset0, recordOf_recordBytes, newerA_succ, if_true]
  · simp only [writeRecord, named, newest, ha, hb, hset1, recordOf_recordBytes, newerA_pred, Bool.false_eq_true, if_false]
  · rcases hnew : newerA a.1 b.1 with _ | _
    · simp only [writeRecord, named, newest, ha, hb, hnew, hset0, recordOf_recordBytes, newerA_succ, if_true, Bool.false_eq_true, if_false]
    · simp only [writeRecord, named, newest, ha, hb, hnew, hset1, recordOf_recordBytes, newerA_pred, if_true, Bool.false_eq_true, if_false]

/-! ### FW_DONE (R561) -/

theorem State.fwDone_firmware {u : Update} (hu : u.item = .firmware) (s : State) (o : Origin) (cmd : Nat) (st : Status) (detail off : Nat) :
    (s.fwDone u o cmd st detail off).boot = s.boot ∧ (s.fwDone u o cmd st detail off).aon = s.aon ∧
      Claims.Posts s (s.fwDone u o cmd st detail off) [0x0011] := by
  have hitem : u.item ≠ .recovery := by rw [hu]; decide
  rw [fwDone, if_neg hitem]
  exact ⟨by simp, by simp, State.result_posts ..⟩

/-! ### Erase, program and commit (R556 to R559) -/

theorem refusedCause_good {floor : Fin 64} {image : ImageCheck} (hfloor : floor.val ≤ image.secVer.val) (hmajor : 3 ≤ image.major.toNat) :
    refusedCause .firmware floor true true true image = 0 := by
  simp [refusedCause, Nat.not_lt.2 hfloor, Nat.not_lt.2 hmajor]

/-- A firmware image in its slot, with its record. -/
theorem State.committed_firmware {u : Update} (hitem : u.item = .firmware) (s : State) (image : ImageCheck) :
    s.committed u image 0 false = { s with boot := { s.boot with
      update := none, slots := s.boot.slots.set s.targetSlot (slotInfoOf image s.boot.flash.floor)
      flash := { s.boot.flash.writeRecord s.targetSlot with floor := s.boot.flash.floor } } } := by
  simp [committed, hitem]

section Operation

variable {t : Nat} {s : State} {u : Update} {o : Origin} (hopen : s.boot.update = some u) (hitem : u.item = .firmware)
include hopen hitem

theorem exec_fwOperationDone_erase (hbusy : u.busy = some (.erase, o)) :
    ∃ v, exec (.fwOperationDone .done t) s = .next v ∧ v.boot.update = some { u with busy := none } ∧ Claims.Posts s v [0x0011] ∧
      (∀ c ∈ v.boot.flash.cells, c.1 < s.itemBase .firmware ∨ s.itemBase .firmware + 0x4000000 ≤ c.1) ∧
      v.boot.slots = s.boot.slots ∧ v.boot.flash.packages = s.boot.flash.packages := by
  let w := ((s.at t).erased u.item).openUpdate (some { u with busy := none })
  have hrun : exec (.fwOperationDone .done t) s = .next (w.fwDone u o 0 .ok 0 0) := by
    rw [show exec (.fwOperationDone .done t) s = execFwOperationDone .done t s from rfl, execFwOperationDone]
    simp only [show (s.at t).boot.update = some u from hopen, hbusy]
    rfl
  obtain ⟨hboot, -, hposts⟩ := w.fwDone_firmware hitem o 0 .ok 0 0
  refine ⟨_, hrun, ?_, hposts, fun c hc => ?_, ?_, ?_⟩
  · rw [hboot]; rfl
  · have hcells : w.boot.flash.cells =
        s.boot.flash.cells.filter fun d => !decide (s.itemBase .firmware ≤ d.1 ∧ d.1 < s.itemBase .firmware + itemSize .firmware) := by
      rw [← hitem]; rfl
    rw [hboot, hcells] at hc
    have hout : ¬ (s.itemBase .firmware ≤ c.1 ∧ c.1 < s.itemBase .firmware + itemSize .firmware) := by
      simpa only [Bool.not_eq_true', decide_eq_false_iff_not] using (List.mem_filter.1 hc).2
    rw [show itemSize .firmware = 0x4000000 from rfl] at hout
    omega
  · rw [hboot]; rfl
  · rw [hboot]; rfl

theorem exec_fwOperationDone_program {off len src : Nat} (hbusy : u.busy = some (.program off len src, o))
    (hwf : Memory.wf s.boot.flash.cells = true) :
    ∃ v, exec (.fwOperationDone .done t) s = .next v ∧ Claims.Posts s v [0x0011] ∧
      Memory.read v.boot.flash.cells (s.itemBase .firmware + off) len = s.memRead src len ∧
      v.boot.update = some { u with pages := u.pages ++ piecePages off len, written := u.written + len, busy := none } := by
  let w := (s.at t).programmed u off (s.memRead src len)
  have hlen : (s.memRead src len).length = len := Memory.length_read
  have hrun : exec (.fwOperationDone .done t) s = .next (w.fwDone u o 1 .ok 0 off) := by
    rw [show exec (.fwOperationDone .done t) s = execFwOperationDone .done t s from rfl, execFwOperationDone]
    simp only [show (s.at t).boot.update = some u from hopen, hbusy]
    rfl
  obtain ⟨hboot, -, hposts⟩ := w.fwDone_firmware hitem o 1 .ok 0 off
  refine ⟨_, hrun, hposts, ?_, ?_⟩
  · have hcells : w.boot.flash.cells = Memory.write s.boot.flash.cells (s.itemBase .firmware + off) (s.memRead src len) := by
      rw [← hitem]; rfl
    rw [hboot, hcells]
    have hread := Memory.read_write_self (a := s.itemBase .firmware + off) (p := s.memRead src len) hwf
    rwa [hlen] at hread
  · have hupdate : w.boot.update = some { u with
        pages := u.pages ++ piecePages off (s.memRead src len).length, written := u.written + (s.memRead src len).length, busy := none } := rfl
    rw [hboot, hupdate, hlen]

theorem exec_fwOperationDone_commit {act : Bool} {image : ImageCheck} (hbusy : u.busy = some (.commit act false, o))
    (hfloor : s.boot.flash.floor.val ≤ image.secVer.val) (hmajor : 3 ≤ image.major.toNat) :
    ∃ v, exec (.fwOperationDone (.verified true true true image 0 0) t) s = .next v ∧ v.boot.update = none ∧ v.boot.flash.named = s.targetSlot ∧
      v.boot.slots = s.boot.slots.set s.targetSlot (slotInfoOf image s.boot.flash.floor) ∧ v.boot.flash.floor = s.boot.flash.floor ∧
      Claims.Posts s v [0x0011] ∧ v.boot.activateAt = (if act then some (max s.aon t + 1000000 * 2 ^ 32) else s.boot.activateAt) := by
  let w : State := { s.at t with boot := { s.boot with
    update := none, slots := s.boot.slots.set s.targetSlot (slotInfoOf image s.boot.flash.floor)
    flash := { s.boot.flash.writeRecord s.targetSlot with floor := s.boot.flash.floor } } }
  have hcommitted : (s.at t).committed u image 0 false = w := State.committed_firmware hitem (s.at t) image
  have hcause : refusedCause u.item (s.at t).boot.flash.floor true true true image = 0 := by
    rw [hitem]
    exact refusedCause_good hfloor hmajor
  let v := w.fwDone u o 2 .ok 0 0
  have hrun : exec (.fwOperationDone (.verified true true true image 0 0) t) s =
      .next (if act then { v with boot := { v.boot with activateAt := some (v.aon + ms 1) } } else v) := by
    rw [show exec (.fwOperationDone (.verified true true true image 0 0) t) s =
      execFwOperationDone (.verified true true true image 0 0) t s from rfl, execFwOperationDone]
    simp only [show (s.at t).boot.update = some u from hopen, hbusy, hcause, hcommitted]
    rfl
  obtain ⟨hboot, haon, hposts⟩ := w.fwDone_firmware hitem o 2 .ok 0 0
  have hms : ms 1 = 1000000 * 2 ^ 32 := by rw [ms, ns, Nat.mul_one]
  have hnamed : w.boot.flash.named = s.targetSlot := s.boot.flash.named_writeRecord s.targetSlot
  have hvboot : v.boot = w.boot := hboot
  refine ⟨_, hrun, ?_⟩
  cases act
  · rw [if_neg Bool.false_ne_true, if_neg Bool.false_ne_true, hvboot]
    exact ⟨rfl, hnamed, rfl, rfl, hposts, rfl⟩
  · have haon' : v.aon = max s.aon t := haon
    rw [if_pos rfl, if_pos rfl, hvboot, haon', hms]
    exact ⟨rfl, hnamed, rfl, rfl, hposts, rfl⟩

theorem exec_fwOperationDone_unsigned {act raise : Bool} {image : ImageCheck} (hbusy : u.busy = some (.commit act raise, o)) :
    ∃ v, exec (.fwOperationDone (.verified false true true image 0 0) t) s = .next v ∧ v.boot.update = some { u with busy := none } ∧
      v.boot.flash = s.boot.flash ∧ v.boot.slots = s.boot.slots ∧ Claims.Posts s v [0x0011] := by
  let w := (s.at t).openUpdate (some { u with busy := none })
  have hcause : refusedCause u.item (s.at t).boot.flash.floor false true true image = 1 := rfl
  have hrun : exec (.fwOperationDone (.verified false true true image 0 0) t) s = .next (w.fwDone u o 2 .badParam 1 0) := by
    rw [show exec (.fwOperationDone (.verified false true true image 0 0) t) s =
      execFwOperationDone (.verified false true true image 0 0) t s from rfl, execFwOperationDone]
    simp only [show (s.at t).boot.update = some u from hopen, hbusy, hcause]
    rfl
  obtain ⟨hboot, -, hposts⟩ := w.fwDone_firmware hitem o 2 .badParam 1 0
  refine ⟨_, hrun, ?_, ?_, ?_, hposts⟩
  · rw [hboot]; rfl
  · rw [hboot]; rfl
  · rw [hboot]; rfl

end Operation

/-! ### Activation (R559) -/

theorem exec_firmwareActivation_resets (t t0 : Nat) (s : State) (hset : s.boot.activateAt = some t0) (hdue : t0 ≤ max s.aon t) :
    ∃ v, exec (.firmwareActivation t) s = .next v ∧ v.clk.lastReset = 5 ∧ v.mbx = Mbx.init ∧ v.boot.fwReady = false ∧ v.boot.update = none ∧
      v.clk.inReset = 0xFFE := by
  have hdue' : t0 ≤ (s.at t).aon := hdue
  have hrun : exec (.firmwareActivation t) s = .next ((s.at t).moduleReset 5) := by
    rw [show exec (.firmwareActivation t) s = execFirmwareActivation t s from rfl, execFirmwareActivation]
    simp only [show (s.at t).boot.activateAt = some t0 from hset, if_pos hdue']
  obtain ⟨w, hw, -⟩ := (s.at t).moduleReset_entry 5
  rw [hw] at hrun
  exact ⟨_, hrun, rfl, rfl, rfl, rfl, rfl⟩

/-- Settles O24: each operation by what it leaves in flash, a commit by the record that it writes. -/
theorem flashOperationsComplete : Obligations.FlashOperationsComplete := by
  unfold Obligations.FlashOperationsComplete
  exact ⟨fun _ _ _ _ hopen hbusy hitem => exec_fwOperationDone_erase hopen hitem hbusy,
    fun _ _ _ _ _ _ _ hopen hbusy hitem hwf => exec_fwOperationDone_program hopen hitem hbusy hwf,
    fun _ _ _ _ _ _ hopen hbusy hitem hfloor hmajor => exec_fwOperationDone_commit hopen hitem hbusy hfloor hmajor,
    fun _ _ _ _ _ _ _ hopen hbusy hitem => exec_fwOperationDone_unsigned hopen hitem hbusy, exec_firmwareActivation_resets⟩

end Sys2Proof.Machine
end

section
/-! PROOF. Boot stages and the stop of boot (22 R545, R547, R548, R551, R552, R555): O25. -/

namespace Sys2Proof.Machine

variable {t n : Nat} {s : State}

theorem exec_bootStage_of_booting (r : BootResult) (hboot : s.booting = true) : exec (.bootStage r t) s = .next ((s.at t).bootStage r) :=
  congrArg Host.Outcome.next (if_pos hboot)

theorem exec_bootStage_plls (hboot : s.booting = true) (hstage : s.boot.stage = 1) (hxa : s.clk.sources[(2 : Fin 5)] ≠ .failed) :
    exec (.bootStage (.passed n) t) s = .next { s.at t with
      boot := { s.boot with stage := 2 }, clk := { s.clk with plls := s.clk.plls.map (fun p => if p = .off then .locking else p) } } := by
  rw [exec_bootStage_of_booting _ hboot]
  unfold State.bootStage
  simp only [show (s.at t).boot.stage.toNat = 1 from congrArg BitVec.toNat hstage,
    if_neg (show ¬ (s.at t).clk.sources[(2 : Fin 5)] = .failed from hxa)]
  rfl

theorem State.release_other (s : State) {d : Fin 12} (h : d ≠ 8) :
    s.release d = { s with clk := { s.clk with inReset := s.clk.inReset &&& ~~~(1#12 <<< d.val) } } := by
  rw [release, if_neg fun hd => h hd.1]

theorem exec_bootStage_memoryUp (hboot : s.booting = true) (hstage : s.boot.stage = 4) (hup : s.poweredOn 3 = true) :
    exec (.bootStage (.passed n) t) s = .next { s.at t with boot := { s.boot with stage := 5 }
                                                            clk := { s.clk with inReset := s.clk.inReset &&& ~~~8#12 } } := by
  rw [exec_bootStage_of_booting _ hboot]
  unfold State.bootStage
  simp only [show (s.at t).boot.stage.toNat = 4 from congrArg BitVec.toNat hstage, if_pos (show (s.at t).poweredOn 3 = true from hup),
    (s.at t).release_other (show (3 : Fin 12) ≠ 8 by decide)]
  rfl

theorem nonZero_ne_zero {w : Nat} (v : BitVec (w + 1)) : nonZero v ≠ 0 := by
  rw [nonZero]
  split
  · simp
  · assumption

theorem exec_bootStage_keys (hboot : s.booting = true) (hstage : s.boot.stage = 5) :
    ∃ u, exec (.bootStage (.passed n) t) s = .next u ∧ u.boot = { s.boot with stage := 6 } ∧ u.free = s.free + 10 ∧
      (∀ i : Fin 5, u.miu.kc[i] ≠ 0 ∧ u.miu.kb[i] ≠ 0) := by
  refine ⟨(s.at t).drawKeys.stage 6, ?_, rfl, rfl, fun i => ⟨?_, ?_⟩⟩
  · rw [exec_bootStage_of_booting _ hboot]
    unfold State.bootStage
    simp only [show (s.at t).boot.stage.toNat = 5 from congrArg BitVec.toNat hstage]
  · simpa [State.stage, State.drawKeys] using nonZero_ne_zero (w := 24) _
  · simpa [State.stage, State.drawKeys] using nonZero_ne_zero (w := 19) _

theorem exec_bootStage_selfTest (hboot : s.booting = true) (hstage : s.boot.stage = 6) :
    exec (.bootStage (.passed n) t) s = .next { s.at t with
      boot := { s.boot with stage := 7 }, mem := [], miu := { s.miu with stuck := [], retired := [] } } := by
  rw [exec_bootStage_of_booting _ hboot]
  unfold State.bootStage
  simp only [show (s.at t).boot.stage.toNat = 6 from congrArg BitVec.toNat hstage]
  rfl

theorem exec_bootStage_slot (a b : ImageCheck) (hboot : s.booting = true) (hstage : s.boot.stage = 7)
    (hvalid : (if s.boot.flash.named = 0 then ImageCheck.valid a s.boot.flash.floor else ImageCheck.valid b s.boot.flash.floor) = true) :
    ∃ u, exec (.bootStage (.images a b) t) s = .next u ∧ u.boot.stage = 8 ∧ u.boot.running = s.boot.flash.named ∧ u.boot.fallback = false := by
  have hslot : ∀ k : Fin 2, (if k = 0 then ImageCheck.valid a s.boot.flash.floor else ImageCheck.valid b s.boot.flash.floor) = true →
      (#v[slotInfoOf a s.boot.flash.floor, slotInfoOf b s.boot.flash.floor])[k].valid = true
    | 0 => id
    | 1 => id
  rw [exec_bootStage_of_booting _ hboot]
  unfold State.bootStage
  simp only [show (s.at t).boot.stage.toNat = 7 from congrArg BitVec.toNat hstage, State.chooseSlot]
  exact ⟨_, congrArg Host.Outcome.next (if_pos (hslot _ hvalid)), rfl, rfl, rfl⟩

theorem exec_bootStage_lock (hboot : s.booting = true) (hstage : s.boot.stage = 9) :
    ∃ u, exec (.bootStage (.passed n) t) s = .next u ∧ u.boot = { s.boot with stage := 10 } ∧ u.hif.locked = true ∧
      u.hif.windows = (Vector.replicate 8 Window.none).set 0 { base := 0x3400000000, size := 0x400000, read := true, write := true, valid := true } := by
  refine ⟨(s.at t).lock, ?_, rfl, rfl, rfl⟩
  rw [exec_bootStage_of_booting _ hboot]
  unfold State.bootStage
  simp only [show (s.at t).boot.stage.toNat = 9 from congrArg BitVec.toNat hstage]

/-! ### Boot completes -/

theorem posts_postEv (s : State) (e : Ev) : Claims.Posts s (s.postEv e) [e.code] := List.map_append

theorem posts_postEvs (s : State) (l : List Ev) : Claims.Posts s (l.foldl State.postEv s) (l.map Ev.code) := by
  induction l generalizing s with
  | nil => exact posts_nil s
  | cons e l ih => exact posts_trans (posts_postEv s e) (ih _)

theorem State.wakeChain_boot (s : State) : s.wakeChain.boot = s.boot ∧ s.wakeChain.mbx = s.mbx := by
  simp only [wakeChain]
  constructor <;> (repeat' split) <;> simp

theorem State.startChain_boot (s : State) (rejoining : Bool) :
    (s.startChain rejoining).boot = s.boot ∧ (s.startChain rejoining).mbx = s.mbx :=
  State.wakeChain_boot _

theorem State.releases_keep (s : State) (l : List (Fin 12)) :
    (l.foldl State.release s).boot = s.boot ∧ (l.foldl State.release s).mbx = s.mbx ∧ (l.foldl State.release s).aon = s.aon :=
  ⟨foldl_keep State.boot State.release (fun _ _ => rfl) l s, foldl_keep State.mbx State.release (fun _ _ => rfl) l s,
    foldl_keep State.aon State.release (fun _ _ => rfl) l s⟩

theorem State.bootDone_serves (s : State) :
    ∃ rest, s.bootDone.boot.fwReady = true ∧ s.bootDone.boot.bootTime = s.stamp ∧ (∀ m : Fin 8, (s.bootDone.box m).ready = true) ∧
      Claims.Posts s s.bootDone (0x0012 :: rest) := by
  obtain ⟨hboot, hmbx, haon⟩ := s.releases_keep (([4, 5, 6, 7, 8, 9, 10, 11] : List (Fin 12)).filter s.poweredOn)
  rw [bootDone]
  generalize (([4, 5, 6, 7, 8, 9, 10, 11] : List (Fin 12)).filter s.poweredOn).foldl State.release s = w at hboot hmbx haon ⊢
  let w1 : State := { w with
    boot := { w.boot with fwReady := true, bootTime := w.stamp }
    mbx := { w.mbx with boxes := w.mbx.boxes.map (fun b => { b with ready := true }) } }
  let w2 := w1.post 0x0012 clsSystem [(1, w.boot.running.val), (1, b2n w.boot.fallback), (4, w.boot.sectionTransients),
    (1, w.keysMask), (4, w.miu.retired.length), (8, w.nowNs)]
  let w3 := w2.pwr.lateEvents.foldl State.postEv { w2 with pwr := { w2.pwr with lateEvents := [] } }
  have hboot3 : w3.boot = w1.boot := foldl_keep State.boot State.postEv (fun _ _ => rfl) ..
  have hboxes3 : w3.mbx.boxes = w1.mbx.boxes := foldl_keep (fun u => u.mbx.boxes) State.postEv (fun _ _ => rfl) ..
  obtain ⟨hstart, hstartMbx⟩ := w3.startChain_boot (w2.clk.lastReset != 0)
  have hposts : Claims.Posts w1 w3 (0x0012 :: w2.pwr.lateEvents.map Ev.code) := posts_trans (posts_post ..) (posts_postEvs _ _)
  refine ⟨w2.pwr.lateEvents.map Ev.code, ?_, ?_, fun m => ?_, ?_⟩
  · exact congrArg Boot.fwReady (hstart.trans hboot3)
  · refine (congrArg Boot.bootTime (hstart.trans hboot3)).trans ?_
    show BitVec.ofNat 64 (w.aon / 2 ^ 32) = BitVec.ofNat 64 (s.aon / 2 ^ 32)
    rw [haon]
  · have hbox : (w3.startChain (w2.clk.lastReset != 0)).box m = (w.mbx.boxes.map (fun b => { b with ready := true }))[m] := by
      rw [box, hstartMbx, hboxes3]
    exact (congrArg Box.ready hbox).trans (by simp)
  · rw [Claims.Posts, hstartMbx]
    exact hposts.trans (by rw [← hmbx])

theorem exec_bootStage_done (hboot : s.booting = true) (hstage : s.boot.stage = 10)
    (hup : ∀ d : Fin 12, 4 ≤ d.val → s.poweredOn d = true) :
    ∃ u rest, exec (.bootStage (.passed n) t) s = .next u ∧ u.boot.fwReady = true ∧ u.boot.bootTime = BitVec.ofNat 64 (max s.aon t / 2 ^ 32) ∧
      (∀ m : Fin 8, (u.box m).ready = true) ∧ Claims.Posts s u (0x0012 :: rest) := by
  obtain ⟨rest, hserves⟩ := (s.at t).bootDone_serves
  refine ⟨(s.at t).bootDone, rest, ?_, hserves⟩
  have hall : (s.at t).allPowered = true := by
    show s.allPowered = true
    simp [State.allPowered, hup]
  rw [exec_bootStage_of_booting _ hboot]
  unfold State.bootStage
  simp only [show (s.at t).boot.stage.toNat = 10 from congrArg BitVec.toNat hstage, if_pos hall]

/-! ### Boot stops (R547) -/

theorem State.bootStop_serves (s : State) (c : Byte) :
    (s.bootStop c).boot = { s.boot with stopCause := c, recovery := true } ∧ ((s.bootStop c).box 4).ready = true ∧
      ((s.bootStop c).box 5).ready = true ∧ (s.bootStop c).mgt.alertStatus.getLsbD 2 = true := by
  refine ⟨rfl, ?_, ?_, State.setAlert_sets _ 2 (by decide)⟩
  · show ((upd (upd s.mbx.boxes 4 fun b => { b with ready := true }) 5 fun b => { b with ready := true })[(4 : Fin 8)]).ready = true
    rw [getElem_upd_ne _ (by decide), getElem_upd_self]
  · show ((upd (upd s.mbx.boxes 4 fun b => { b with ready := true }) 5 fun b => { b with ready := true })[(5 : Fin 8)]).ready = true
    rw [getElem_upd_self]

theorem exec_bootStage_stops (hboot : s.booting = true) (hstage : s.boot.stage = 1) :
    ∃ u, exec (.bootStage .failed t) s = .next u ∧ u.boot.recovery = true ∧ u.boot.stopCause = 1 ∧ (u.box 4).ready = true ∧ (u.box 5).ready = true ∧
      u.mgt.alertStatus.getLsbD 2 = true ∧ u.boot.stage = 1 := by
  obtain ⟨-, hfour, hfive, halert⟩ := (s.at t).bootStop_serves 1
  refine ⟨(s.at t).bootStop 1, ?_, rfl, rfl, hfour, hfive, halert, hstage⟩
  rw [exec_bootStage_of_booting _ hboot]
  unfold State.bootStage
  simp only [show (s.at t).boot.stage.toNat = 1 from congrArg BitVec.toNat hstage]

theorem exec_bootStage_unusable (hboot : s.booting = true) (hstage : s.boot.stage = 6) :
    ∃ u, exec (.bootStage (.selfTest [] [0]) t) s = .next u ∧ u.boot.recovery = true ∧ u.boot.stopCause = 2 ∧ u.boot.stage = 6 := by
  have hout : pageOf 0 = none := if_neg fun h => absurd h.1 (by decide)
  refine ⟨(s.at t).bootStop 2, ?_, rfl, rfl, hstage⟩
  rw [exec_bootStage_of_booting _ hboot]
  unfold State.bootStage
  simp only [show (s.at t).boot.stage.toNat = 6 from congrArg BitVec.toNat hstage]
  simp [State.selfTested, hout]

/-- Settles O25: each stage's result in its own case of `State.bootStage`. -/
theorem bootStagesComplete : Obligations.BootStagesComplete := by
  unfold Obligations.BootStagesComplete
  exact ⟨fun _ _ _ => exec_bootStage_plls, fun _ _ _ => exec_bootStage_memoryUp, fun _ _ _ => exec_bootStage_keys,
    fun _ _ _ => exec_bootStage_selfTest, fun _ _ a b => exec_bootStage_slot a b, fun _ _ _ => exec_bootStage_lock,
    fun _ _ _ => exec_bootStage_done, fun _ _ => exec_bootStage_stops, fun _ _ => exec_bootStage_unusable⟩

end Sys2Proof.Machine
end

section
/-! PROOF. The registers of the management port (25 R590 to R593, R596): O26. -/

namespace Sys2Proof.Machine

/-- A write with the right byte count and its PEC does what the register does. -/
theorem State.mgWrite_good (s : State) (f : State → State) : s.mgWrite true true f = f s := rfl

theorem exec_alertStatusClear_clears (v : Nat) (s : State) : let a := s.mgt.alertStatus &&& ~~~(BitVec.ofNat 11 (v % 2 ^ 32))
    exec (.alertStatusClear (le 4 v) true) s = .next { s with mgt := { s.mgt with
      alertStatus := a, alert := s.mgt.alert && (a &&& ~~~(s.mgt.alertMask.truncate 11)) != 0 } } := by
  intro a
  have hrun : exec (.alertStatusClear (le 4 v) true) s = .next (s.alertClear (fld (le 4 v) 0 4)) := rfl
  rw [hrun, fld_le_end]
  rfl

theorem exec_mgmtRegisterWrite_flogIndex (v : Nat) (s : State) : exec (.mgmtRegisterWrite 0x08 (le 4 v) true) s =
    .next { s with mgt := { s.mgt with flogIndex := BitVec.ofNat 5 (v % 2 ^ 32) } } := by
  have hrun : exec (.mgmtRegisterWrite 0x08 (le 4 v) true) s =
      .next { s with mgt := { s.mgt with flogIndex := BitVec.ofNat 5 (fld (le 4 v) 0 4) } } := rfl
  rw [hrun, fld_le_end]
  rfl

/-! ### Tunnels (R593) -/

section Tunnel

variable (n : Fin 2) (s : State)

theorem exec_mbCtrlGo_submits (hfree : (s.mgt.tunnels[n]).reqFree = true) :
    exec (.mbCtrlGo n [1, 0, 0, 0] true) s = .next ((s.updTunnel n (fun t => { t with reqFree := false })).setBox (tunnelBox n)
      { s.box (tunnelBox n) with requests := (s.box (tunnelBox n)).requests ++ [(s.mgt.tunnels[n]).buffer] }) :=
  congrArg Host.Outcome.next (if_pos hfree)

theorem exec_mbCtrlGo_overruns (hbusy : (s.mgt.tunnels[n]).reqFree = false) :
    exec (.mbCtrlGo n [1, 0, 0, 0] true) s = .next (({ s with mgt := { s.mgt with nacks := satAdd s.mgt.nacks 1 } } : State).updTunnel n
      (fun t => { t with overrun := true })) := by
  have hnot : ¬ (s.mgt.tunnels[n]).reqFree = true := by rw [hbusy]; exact Bool.false_ne_true
  exact congrArg Host.Outcome.next (if_neg hnot)

/-- Bytes put into a buffer from an offset stand there, and the rest of the buffer stays. -/
theorem bufferPut_cons {buf data : List Byte} {off : Byte} (hbuf : buf.length = 256) (hfit : off.toNat + data.length ≤ 256) :
    bufferPut buf (off :: data) = buf.take off.toNat ++ data ++ buf.drop (off.toNat + data.length) :=
  List.take_of_length_le (by simp; omega)

theorem exec_mbReqWrite_places {off : Byte} {data : List Byte} (hfree : (s.mgt.tunnels[n]).reqFree = true)
    (hbuf : (s.mgt.tunnels[n]).buffer.length = 256) (hsome : 1 ≤ data.length) (hmost : data.length ≤ 254)
    (hfit : off.toNat + data.length ≤ 256) :
    ∃ b : List Byte, exec (.mbReqWrite n (off :: data) true) s = .next (s.updTunnel n (fun t => { t with buffer := b })) ∧ b.length = 256 ∧
      (b.drop off.toNat).take data.length = data ∧ b.take off.toNat = (s.mgt.tunnels[n]).buffer.take off.toNat ∧
      b.drop (off.toNat + data.length) = (s.mgt.tunnels[n]).buffer.drop (off.toNat + data.length) := by
  have hcount : decide (2 ≤ (off :: data).length ∧ (off :: data).length ≤ 255) = true := by simp; omega
  have htake : ((s.mgt.tunnels[n]).buffer.take off.toNat).length = off.toNat := by rw [List.length_take, hbuf]; omega
  have hrun : exec (.mbReqWrite n (off :: data) true) s =
      .next (s.updTunnel n (fun t => { t with buffer := bufferPut (s.mgt.tunnels[n]).buffer (off :: data) })) := by
    rw [show exec (.mbReqWrite n (off :: data) true) s = execMbReqWrite n (off :: data) true s from rfl, execMbReqWrite, hcount,
      State.mgWrite_good, State.mbReq, if_pos hfree]
    rfl
  rw [bufferPut_cons hbuf hfit] at hrun
  refine ⟨_, hrun, ?_, ?_, ?_, ?_⟩
  · rw [List.length_append, List.length_append, htake, List.length_drop, hbuf]
    omega
  · rw [List.append_assoc, List.drop_left' htake, List.take_left]
  · rw [List.append_assoc, List.take_left' htake]
  · rw [List.drop_left' (by rw [List.length_append, htake])]

theorem exec_mbRplRead_reads {off : Byte} {r : List Byte} {rest : List (List Byte)} (hheld : (s.box (tunnelBox n)).replies = r :: rest) :
    exec (.mbRplRead n off) s = .next { s with wires := .readData ((r.drop off.toNat).take 128) :: s.wires } := by
  rw [show exec (.mbRplRead n off) s = execMbRplRead n off s from rfl, execMbRplRead, hheld]
  rfl

end Tunnel

/-! ### The alert line and the bus (R590, R591, R596) -/

theorem exec_alertResponseRead_answers (s : State) (halert : s.mgt.alert = true) : exec .alertResponseRead s =
    .next { s with mgt := { s.mgt with alert := false }, wires := .readData [BitVec.ofNat 8 (2 * (0x58 + s.mgt.maddr.toNat))] :: s.wires } :=
  congrArg Host.Outcome.next (if_pos halert)

theorem exec_alertResponseRead_silent (s : State) (halert : s.mgt.alert = false) :
    exec .alertResponseRead s = .next { s with wires := .nack :: s.wires } :=
  congrArg Host.Outcome.next (if_neg (by rw [halert]; exact Bool.false_ne_true))

theorem exec_alertStatusClear_count (data : List Byte) (pec : Bool) (s : State) (hlen : data.length ≠ 4) :
    exec (.alertStatusClear data pec) s = .next { s with mgt := { s.mgt with nacks := satAdd s.mgt.nacks 1 }, wires := .nack :: s.wires } := by
  rw [show exec (.alertStatusClear data pec) s = execAlertStatusClear data pec s from rfl, execAlertStatusClear, beq_false_of_ne hlen]
  rfl

theorem exec_alertStatusClear_pec (data : List Byte) (s : State) (hlen : data.length = 4) :
    exec (.alertStatusClear data false) s = .next { s with mgt := { s.mgt with pecErrors := satAdd s.mgt.pecErrors 1 } } := by
  rw [show exec (.alertStatusClear data false) s = execAlertStatusClear data false s from rfl, execAlertStatusClear, beq_iff_eq.2 hlen]
  rfl

/-- Settles O26: each register by what a write or read of it does. -/
theorem managementRegistersComplete : Obligations.ManagementRegistersComplete := by
  unfold Obligations.ManagementRegistersComplete
  exact ⟨exec_alertStatusClear_clears, fun v s => ⟨exec_mgmtRegisterWrite_flogIndex v s, rfl⟩, exec_mbCtrlGo_submits, exec_mbCtrlGo_overruns,
    fun _ _ => rfl, fun _ _ => rfl, fun n _ _ s => exec_mbReqWrite_places n s, fun n _ s _ _ => exec_mbRplRead_reads n s,
    exec_alertResponseRead_answers, exec_alertResponseRead_silent, fun _ _ => rfl, exec_alertStatusClear_count, exec_alertStatusClear_pec⟩

end Sys2Proof.Machine
end

section
/-! PROOF. MGMT_DOMAINS, standby and wake, the recovery upload, POWER_STATUS and THERMAL_CONFIG (25 R595, R597 to R599; 26 R613, R614): O27. -/

namespace Sys2Proof.Machine

/-! ### MGMT_DOMAINS, standby and wake (R597) -/

theorem State.mgDomains_fields (s : State) :
    fld (le 4 s.mgDomains) 0 2 = s.pwr.powered.toNat ∧ fld (le 4 s.mgDomains) 2 2 = s.pwr.railSince.toNat := by
  have hpowered : s.pwr.powered.toNat < 2 ^ 12 := s.pwr.powered.isLt
  have hrails : s.pwr.railSince.toNat < 2 ^ 12 := s.pwr.railSince.isLt
  have hword : s.mgDomains = s.pwr.powered.toNat + s.pwr.railSince.toNat * 65536 := by simp [mgDomains, word]
  rw [hword]
  simp only [fld, le, leNat, List.drop, List.take, BitVec.toNat_ofNat]
  omega

theorem exec_mgmtDomains_reads (q : Req) (s : State) (hq : Claims.Fresh 0x0F01 q s) (hp : q.payload = List.replicate 8 0) : ∃ p : List Byte,
    exec (.mgmtDomains q) s = .next ((Claims.ok (s.start q 0x0F01) p).deliver q 0x0F01) ∧ p.length = 4 ∧
    fld p 0 2 = s.pwr.powered.toNat ∧ fld p 2 2 = s.pwr.railSince.toNat := by
  have hrun : exec (.mgmtDomains q) s = .next ((cmdMgmtDomains.run q (s.start q 0x0F01)).deliver q 0x0F01) :=
    congrArg _ (serve_of_fresh hq (by rw [hp]; rfl))
  have hread : cmdMgmtDomains.run q (s.start q 0x0F01) = Claims.ok (s.start q 0x0F01) (le 4 s.mgDomains) := by
    simp only [cmdMgmtDomains, hp]
    rfl
  rw [hread] at hrun
  exact ⟨_, hrun, length_le .., s.mgDomains_fields⟩

theorem exec_mgmtDomains_standby (q : Req) (s : State) (force : Bool) (hq : Claims.Fresh 0x0F01 q s)
    (hp : q.payload = [1, if force then 1 else 0, 0x5A, 0xA5, 0, 0, 0, 0]) (hfree : force = true ∨ s.armed = false) :
    exec (.mgmtDomains q) s = .next ((Claims.ok { s.start q 0x0F01 with
      boot := { s.boot with standbyAt := some (s.aon + 1000000 * 2 ^ 32) } }).deliver q 0x0F01) := by
  have hrun : exec (.mgmtDomains q) s = .next ((cmdMgmtDomains.run q (s.start q 0x0F01)).deliver q 0x0F01) :=
    congrArg _ (serve_of_fresh hq (by rw [hp]; rfl))
  have hms : ms 1 = 1000000 * 2 ^ 32 := by rw [ms, ns, Nat.mul_one]
  have hop : fld q.payload 0 1 = 1 := by rw [hp]; rfl
  have hforce : fld q.payload 1 1 = if force then 1 else 0 := by rw [hp]; cases force <;> rfl
  have hkey : fld q.payload 2 2 = 0xA55A := by rw [hp]; rfl
  have hzero : zeros q.payload 4 4 = true := by rw [hp]; rfl
  have hblocked : ((s.start q 0x0F01).armed && !bit (if force then 1 else 0) 0) = false := by
    rcases hfree with h | h
    · rw [h]; exact Bool.and_false _
    · rw [show (s.start q 0x0F01).armed = false from h, Bool.false_and]
  rw [hrun]
  simp only [cmdMgmtDomains, hop, hforce, hkey, hzero, hms]
  rw [checks_pass]
  · rfl
  · cases force <;> simp_all

theorem exec_standby_powersDown (t t0 : Nat) (s : State) (hset : s.boot.standbyAt = some t0) (hdue : t0 ≤ max s.aon t) :
    ∃ u, exec (.standby t) s = .next u ∧ u.pwr.powered = 1 ∧ u.mem = [] ∧ u.mbx = Mbx.init := by
  let w := (s.at t).stopManagement none
  have hrun : exec (.standby t) s = .next (if w.armed then w.wastePower else w).standbyDown := by
    rw [show exec (.standby t) s = execStandby t s from rfl, execStandby]
    simp only [show (s.at t).boot.standbyAt = some t0 from hset, if_pos (show t0 ≤ (s.at t).aon from hdue)]
    rfl
  exact ⟨_, hrun, rfl, rfl, rfl⟩

theorem exec_pwrCtrlWake_boots (t : Nat) (s : State) (hdown : s.poweredOn 1 = false) (hcool : s.pwr.criticalHold = false) :
    ∃ u, exec (.pwrCtrlWake [0xA5, 0x5A, 1, 0] true t) s = .next u ∧ u.poweredOn 1 = true ∧ u.boot.stage = 1 ∧ u.clk.lastReset = 1 := by
  have hrun : exec (.pwrCtrlWake [0xA5, 0x5A, 1, 0] true t) s = .next (s.at t).wake := rfl
  have hgo : ¬ ((s.at t).poweredOn 1 || (s.at t).pwr.criticalHold) = true := by
    rw [show (s.at t).poweredOn 1 = false from hdown, show (s.at t).pwr.criticalHold = false from hcool]
    exact Bool.false_ne_true
  rw [State.wake, if_neg hgo] at hrun
  refine ⟨_, hrun, ?_, rfl, rfl⟩
  show (s.pwr.powered ||| 1#12 <<< 1).getLsbD 1 = true
  rw [BitVec.getLsbD_or]
  exact Bool.or_true _

theorem exec_pwrCtrlWake_awake (t : Nat) (s : State) (hup : s.poweredOn 1 = true) :
    exec (.pwrCtrlWake [0xA5, 0x5A, 1, 0] true t) s = .next (s.at t) := by
  have hawake : ((s.at t).poweredOn 1 || (s.at t).pwr.criticalHold) = true := by
    rw [show (s.at t).poweredOn 1 = true from hup, Bool.true_or]
  exact congrArg Host.Outcome.next (if_pos hawake)

/-! ### The recovery upload (R598, R599) -/

theorem State.recoveryUpdate_of_open {s : State} {o : Update} (hopen : s.boot.update = some o) (hitem : o.item = .recovery) :
    s.recoveryUpdate = some o := by
  simp only [recoveryUpdate, hopen, if_pos hitem]

theorem exec_recoveryBegin_opens (q : Req) (s : State) (len : Nat) (hq : Claims.Fresh 0x0F02 q s) (hidle : s.updBusy = false) (hmin : 4096 ≤ len)
    (hmax : len ≤ 67108864) (hp : q.payload = le 4 len ++ [0, 0, 0, 0]) :
    let u : Update := { item := .recovery, length := len, pages := [], written := 0, busy := some (.erase, q.origin) }
    exec (.recoveryBegin q) s = .next ((Claims.accepted { s.start q 0x0F02 with boot := { s.boot with update := some u } }).deliver q 0x0F02) := by
  have hrun : exec (.recoveryBegin q) s = .next ((cmdRecoveryBegin.run q (s.start q 0x0F02)).deliver q 0x0F02) :=
    congrArg _ (serve_of_fresh hq (by rw [hp]; rfl))
  have hlen : fld q.payload 0 4 = len := by
    rw [hp, fld_le]
    exact Nat.mod_eq_of_lt (by omega)
  have hzero : zeros q.payload 4 4 = true := by rw [hp]; rfl
  have hstart : (s.start q 0x0F02).updBusy = false := hidle
  intro u
  rw [hrun]
  simp only [cmdRecoveryBegin, hlen, hzero, hstart]
  rw [checks_pass (by simp [hmin, hmax])]
  rfl

theorem exec_recoveryData_stores (q : Req) (s : State) (o : Update) (data : List Byte) (hq : Claims.Fresh 0x0F03 q s)
    (hopen : s.boot.update = some o) (hitem : o.item = .recovery) (hidle : o.busy = none) (hwf : Memory.wf s.boot.flash.cells = true)
    (hsome : 1 ≤ data.length) (hmost : data.length ≤ 224) (hfits : o.written + data.length ≤ o.length) (hsize : o.length ≤ 67108864)
    (hp : q.payload = le 4 o.written ++ le 2 data.length ++ [0, 0] ++ data) :
    ∃ u : State, exec (.recoveryData q) s = .next ((Claims.ok u).deliver q 0x0F03) ∧
      Memory.read u.boot.flash.cells (0x9000000 + o.written) data.length = data ∧ u = { s.start q 0x0F03 with boot := u.boot } ∧
      u.boot.update.map (·.written) = some (o.written + data.length) := by
  have hprefix : (le 4 o.written ++ le 2 data.length ++ [0, 0] : List Byte).length = 8 := by simp
  have hlen : q.payload.length = 8 + data.length := by rw [hp, List.length_append, hprefix]
  have hcount : cmdRecoveryData.okLen q.payload.length = true := by
    rw [hlen]
    exact decide_eq_true (by omega)
  have hrun : exec (.recoveryData q) s = .next ((cmdRecoveryData.run q (s.start q 0x0F03)).deliver q 0x0F03) :=
    congrArg _ (serve_of_fresh hq hcount)
  have hoff : fld q.payload 0 4 = o.written := by
    rw [hp, List.append_assoc, List.append_assoc, fld_le]
    exact Nat.mod_eq_of_lt (by omega)
  have hpiece : fld q.payload 4 2 = data.length := by
    rw [hp, List.append_assoc, List.append_assoc, fld_append_right _ _ (by simp), length_le, fld_le]
    exact Nat.mod_eq_of_lt (by omega)
  have hzero : zeros q.payload 6 2 = true := by rw [hp]; rfl
  have hdata : q.payload.drop 8 = data := by rw [hp]; exact List.drop_left' hprefix
  have hupdate : (s.start q 0x0F03).recoveryUpdate = some o := State.recoveryUpdate_of_open (s := s.start q 0x0F03) hopen hitem
  have hin : ¬ (o.written ≠ o.written ∨ o.length < o.written + data.length) := by omega
  have hok : cmdRecoveryData.run q (s.start q 0x0F03) = Claims.ok ((s.start q 0x0F03).programmed o o.written data) := by
    simp only [cmdRecoveryData, hoff, hpiece, hzero, hdata, hupdate, hlen]
    rw [checks_pass (by simp)]
    simp only [hidle, Option.isSome_none, Bool.false_eq_true, if_false, if_neg hin]
    rfl
  rw [hok] at hrun
  refine ⟨_, hrun, ?_, rfl, rfl⟩
  have hbase : (s.start q 0x0F03).itemBase o.item = 0x9000000 := by rw [hitem]; rfl
  rw [State.programmed, hbase]
  exact Memory.read_write_self hwf

theorem exec_recoveryCommit_verifies (q : Req) (s : State) (o : Update) (act : Bool) (hq : Claims.Fresh 0x0F04 q s)
    (hopen : s.boot.update = some o) (hitem : o.item = .recovery) (hidle : o.busy = none) (hfull : o.written = o.length)
    (hfree : act = false ∨ s.armed = false) (hp : q.payload = [if act then 1 else 0, 0, 0, 0, 0, 0, 0, 0]) :
    let u : Update := { o with busy := some (.commit act false, q.origin) }
    exec (.recoveryCommit q) s = .next ((Claims.accepted { s.start q 0x0F04 with boot := { s.boot with update := some u } }).deliver q 0x0F04) := by
  have hrun : exec (.recoveryCommit q) s = .next ((cmdRecoveryCommit.run q (s.start q 0x0F04)).deliver q 0x0F04) :=
    congrArg _ (serve_of_fresh hq (by rw [hp]; rfl))
  have hflags : fld q.payload 0 1 ≤ 1 ∧ bit (fld q.payload 0 1) 0 = act := by
    rw [hp, fld_cons_one]
    cases act <;> decide
  obtain ⟨hsmall, hact⟩ := hflags
  have hzero : zeros q.payload 1 7 = true := by rw [hp]; rfl
  have hupdate : (s.start q 0x0F04).recoveryUpdate = some o := State.recoveryUpdate_of_open (s := s.start q 0x0F04) hopen hitem
  have hblocked : (act && (s.start q 0x0F04).armed) = false := by
    rcases hfree with h | h
    · rw [h, Bool.false_and]
    · rw [show (s.start q 0x0F04).armed = false from h, Bool.and_false]
  intro u
  rw [hrun]
  simp only [cmdRecoveryCommit, hact, hzero, hupdate]
  rw [checks_pass (by simpa using hsmall)]
  have hgo : ¬ (o.busy.isSome || o.written != o.length || (act && (s.start q 0x0F04).armed)) = true := by simp [hidle, hfull, hblocked]
  simp only [if_neg hgo]
  rfl

/-! ### POWER_STATUS and THERMAL_CONFIG (R613, R614) -/

theorem State.powerStatusBytes_fields (s : State) :
    let p := s.powerStatusBytes
    p.length = 80 ∧ fld p 0 4 = s.pwr.vinMv % 2 ^ 32 ∧ fld p 12 2 = s.pwr.powered.toNat ∧ fld p 14 2 = s.pwr.railFaults.toNat ∧
      fld p 60 4 = s.pwr.transients.toNat ∧ fld p 64 4 = s.pwr.lasting.toNat ∧ fld p 72 8 = s.nowNs % 2 ^ 64 := by
  have hpowered : s.pwr.powered.toNat % 256 ^ 2 = s.pwr.powered.toNat := Nat.mod_eq_of_lt (Nat.lt_trans s.pwr.powered.isLt (by decide))
  have hrails : s.pwr.railFaults.toNat % 256 ^ 2 = s.pwr.railFaults.toNat :=
    Nat.mod_eq_of_lt (Nat.lt_trans s.pwr.railFaults.isLt (by decide))
  have htemps : ((List.finRange 20).flatMap fun i => le 2 (s.pwr.tempField i)).length = 40 := by simp [List.length_flatMap]
  refine ⟨?_, ?_, ?_, ?_, ?_, ?_, ?_⟩
  · simp [powerStatusBytes, htemps]
  all_goals
    simp only [powerStatusBytes, List.append_assoc]
    simp (disch := simp [htemps]) only [fld_append_right, length_le, length_zeroBytes, htemps, Nat.reduceSub, fld_le, fld_le_end, hpowered,
      hrails, toNat_mod_four_bytes]
  -- VIN and the time of the answer: four bytes are 32 bits, eight are 64.
  · rfl
  · rfl

theorem exec_powerStatus_answers (q : Req) (s : State) (hq : Claims.FreshOf 0x0020 0 q s) : ∃ p : List Byte,
    exec (.powerStatus q) s = .next ((Claims.ok { s.start q 0x0020 with free := s.free + 1 } p).deliver q 0x0020) ∧ p.length = 80 ∧
    fld p 0 4 = s.pwr.vinMv % 2 ^ 32 ∧ fld p 12 2 = s.pwr.powered.toNat ∧ fld p 14 2 = s.pwr.railFaults.toNat ∧
    fld p 60 4 = s.pwr.transients.toNat ∧ fld p 64 4 = s.pwr.lasting.toNat ∧ fld p 72 8 = s.nowNs % 2 ^ 64 :=
  ⟨(s.start q 0x0020).powerStatusBytes, congrArg _ (serve_of_fresh hq.1 (beq_iff_eq.2 hq.2)), (s.start q 0x0020).powerStatusBytes_fields⟩

theorem exec_thermalConfig_sets (q : Req) (s : State) (dw dt mw mt pw : Nat) (hq : Claims.Fresh 0x0021 q s) (hdw : 70 ≤ dw) (hdw' : dw ≤ 100)
    (hdt : 75 ≤ dt) (hdt' : dt ≤ 105) (hmw : 60 ≤ mw) (hmw' : mw ≤ 90) (hmt : 65 ≤ mt) (hmt' : mt ≤ 92) (hpw : 30 ≤ pw) (hpw' : pw ≤ 64)
    (hdie : dw ≤ dt) (hdram : mw ≤ mt)
    (hp : q.payload = [BitVec.ofNat 8 dw, BitVec.ofNat 8 dt, BitVec.ofNat 8 mw, BitVec.ofNat 8 mt, BitVec.ofNat 8 pw, 0, 0, 0]) :
    exec (.thermalConfig q) s = .next ((Claims.ok { s.start q 0x0021 with pwr := { s.pwr with
      dieWarn := dw, dieThrottle := dt, dramWarn := mw, dramThrottle := mt, plateWarn := pw } }).deliver q 0x0021) := by
  have hrun : exec (.thermalConfig q) s = .next ((cmdThermalConfig.run q (s.start q 0x0021)).deliver q 0x0021) :=
    congrArg _ (serve_of_fresh hq (by rw [hp]; rfl))
  have hfields : fld q.payload 0 1 = dw ∧ fld q.payload 1 1 = dt ∧ fld q.payload 2 1 = mw ∧ fld q.payload 3 1 = mt ∧ fld q.payload 4 1 = pw := by
    rw [hp]
    simp only [fld, leNat, List.drop, List.take, BitVec.toNat_ofNat]
    omega
  obtain ⟨h0, h1, h2, h3, h4⟩ := hfields
  have hzero : zeros q.payload 5 3 = true := by rw [hp]; rfl
  rw [hrun]
  simp only [cmdThermalConfig, h0, h1, h2, h3, h4, hzero]
  rw [checks_pass]
  · rfl
  · simp [outside]
    omega

theorem exec_thermalConfig_inverted (q : Req) (s : State) (hq : Claims.FreshOf 0x0021 8 q s)
    (hbad : fld q.payload 1 1 < fld q.payload 0 1 ∨ fld q.payload 3 1 < fld q.payload 2 1) :
    exec (.thermalConfig q) s = .next ((Ans.fail (s.start q 0x0021) .badParam).deliver q 0x0021) := by
  have hrun : exec (.thermalConfig q) s = .next ((cmdThermalConfig.run q (s.start q 0x0021)).deliver q 0x0021) :=
    congrArg _ (serve_of_fresh hq.1 (beq_iff_eq.2 hq.2))
  rw [hrun]
  simp only [cmdThermalConfig, checks_cons, decide_eq_true hbad, Bool.or_true, if_true]

/-- Settles O27: each command and register by what it does. -/
theorem managementCommandsComplete : Obligations.ManagementCommandsComplete := by
  unfold Obligations.ManagementCommandsComplete
  exact ⟨exec_mgmtDomains_reads, exec_mgmtDomains_standby, exec_recoveryBegin_opens, exec_recoveryData_stores, exec_recoveryCommit_verifies,
    fun t t0 s hset hdue _ => exec_standby_powersDown t t0 s hset hdue, exec_pwrCtrlWake_boots, exec_pwrCtrlWake_awake, exec_powerStatus_answers,
    exec_thermalConfig_sets, exec_thermalConfig_inverted⟩

end Sys2Proof.Machine
end

section
/-! PROOF. Supply faults, the domains they take down and bring back, and temperature samples (24 R586; 26 R604 to R607, R610, R611): O19. -/

namespace Sys2Proof.Machine

/-! ### What a reset of a domain and the loss of a connector leave -/

theorem State.linkLost_keeps (s : State) (d : Fin 12) :
    (s.linkLost d).pwr = s.pwr ∧ (s.linkLost d).clk = s.clk ∧ (s.linkLost d).job = s.job := by
  have hdrop (s : State) (c : Fin 4) (q : HmcReq) :
      (s.hmcDrop c q).pwr = s.pwr ∧ (s.hmcDrop c q).clk = s.clk ∧ (s.hmcDrop c q).job = s.job := by
    unfold hmcDrop
    split <;> simp
  simp [linkLost, entryOver, sleepAnswer, hdrop]

/-- No connector loses power: nothing is lost. -/
theorem State.linkLost_of_none {s : State} {d : Fin 12} (h9 : dependsOn 9 d = true → s.poweredOn 9 = false)
    (h10 : dependsOn 10 d = true → s.poweredOn 10 = false) : s.linkLost d = s := by
  have hgone : (List.finRange 4).filter (fun c : Fin 4 => let p : Fin 12 := if c.val < 2 then 9 else 10; dependsOn p d && s.poweredOn p) = [] := by
    refine List.filter_eq_nil_iff.2 fun c _ => ?_
    by_cases hc : c.val < 2
    · simpa [hc] using h9
    · simpa [hc] using h10
  rw [linkLost, hgone, List.foldl_nil]

theorem State.resetDomain_keeps (s : State) (d : Fin 12) :
    (s.resetDomain d).pwr = s.pwr ∧ (s.resetDomain d).clk = s.clk ∧ (s.resetDomain d).job = s.job ∧
      (s.resetDomain d).mbx.outbox = s.mbx.outbox := by
  unfold resetDomain
  split <;> simp [hostDomainReset, lanesOff]

theorem State.downOne_keeps (s : State) (d : Fin 12) :
    (s.downOne d).pwr.repowerAt = s.pwr.repowerAt ∧ (s.downOne d).pwr.railFaults = s.pwr.railFaults ∧ (s.downOne d).job = s.job ∧
      (s.downOne d).mbx.outbox = s.mbx.outbox := by
  obtain ⟨hpwr, -, hjob, hout⟩ := s.resetDomain_keeps d
  rw [downOne]
  split
  · refine ⟨?_, ?_, hjob, hout⟩
    · show (s.resetDomain d).pwr.repowerAt = _
      rw [hpwr]
    · show (s.resetDomain d).pwr.railFaults = _
      rw [hpwr]
  · exact ⟨rfl, rfl, rfl, rfl⟩

theorem domainBit_getLsbD : ∀ d e : Fin 12, (1#12 <<< d.val).getLsbD e.val = (e == d) := by decide

theorem State.poweredOn_downOne (s : State) (d e : Fin 12) : (s.downOne d).poweredOn e = (s.poweredOn e && e != d) := by
  obtain ⟨hpwr, -⟩ := s.resetDomain_keeps d
  rw [downOne]
  split
  next hup =>
    show ((s.resetDomain d).pwr.powered &&& ~~~(1#12 <<< d.val)).getLsbD e.val = _
    rw [hpwr, BitVec.getLsbD_and, BitVec.getLsbD_not, domainBit_getLsbD, decide_eq_true e.isLt, Bool.true_and]
    rfl
  next hdown =>
    rcases eq_or_ne e d with rfl | hne
    · simp [hdown]
    · simp [hne]

theorem State.inReset_downOne (s : State) (d e : Fin 12) :
    (s.downOne d).clk.inReset.getLsbD e.val = (s.clk.inReset.getLsbD e.val || (s.poweredOn d && e == d)) := by
  obtain ⟨-, hclk, -⟩ := s.resetDomain_keeps d
  rw [downOne]
  split
  next hup =>
    show ((s.resetDomain d).clk.inReset ||| 1#12 <<< d.val).getLsbD e.val = _
    rw [hclk, hup, BitVec.getLsbD_or, domainBit_getLsbD, Bool.true_and]
  next hdown => simp [hdown]

/-- One domain of a power-down: it goes down where it depends on the domain named. -/
def State.downWith (d : Fin 12) (s : State) (e : Fin 12) : State := if dependsOn e d then s.downOne e else s

theorem State.poweredOn_downWith (d : Fin 12) (s : State) (e k : Fin 12) :
    (s.downWith d e).poweredOn k = (s.poweredOn k && !(k == e && dependsOn e d)) := by
  rw [downWith]
  split
  next h => rw [poweredOn_downOne, h, Bool.and_true]; rfl
  next h => simp [h]

theorem State.poweredOn_powerDown (s : State) (d e : Fin 12) (hmost : dependsOn e d = true → e ≠ 0) :
    (s.powerDown d).poweredOn e = (s.poweredOn e && !dependsOn e d) := by
  have hfold (l : List (Fin 12)) (s : State) :
      (l.foldl (State.downWith d) s).poweredOn e = (s.poweredOn e && !(l.contains e && dependsOn e d)) := by
    induction l generalizing s with
    | nil => simp
    | cons k l ih =>
      rw [List.foldl_cons, ih, poweredOn_downWith, List.contains_cons]
      rcases eq_or_ne e k with rfl | hne
      · cases s.poweredOn e <;> cases dependsOn e d <;> simp
      · simp [beq_false_of_ne hne]
  have hall : ∀ e : Fin 12, e ≠ 0 → ([11, 10, 9, 8, 7, 6, 5, 4, 3, 2, 1] : List (Fin 12)).contains e = true := by decide
  refine (hfold _ s).trans ?_
  rcases hdep : dependsOn e d
  · rw [Bool.and_false]
  · rw [hall e (hmost hdep)]
    rfl

theorem State.inReset_downWith {d : Fin 12} {s : State} {e k : Fin 12} (h : s.clk.inReset.getLsbD k.val = true) :
    (s.downWith d e).clk.inReset.getLsbD k.val = true := by
  rw [downWith]
  split
  · rw [inReset_downOne, h, Bool.true_or]
  · exact h

theorem State.inReset_powerDown {s : State} {d e : Fin 12} (hdep : dependsOn e d = true) (hmost : e ≠ 0) (hup : s.poweredOn e = true) :
    (s.powerDown d).clk.inReset.getLsbD e.val = true := by
  have hkeep (l : List (Fin 12)) (s : State) (h : s.clk.inReset.getLsbD e.val = true) :
      (l.foldl (State.downWith d) s).clk.inReset.getLsbD e.val = true := by
    induction l generalizing s with
    | nil => exact h
    | cons k l ih => exact ih _ (inReset_downWith h)
  have hfold (l : List (Fin 12)) (s : State) (hin : e ∈ l) (hup : s.poweredOn e = true) :
      (l.foldl (State.downWith d) s).clk.inReset.getLsbD e.val = true := by
    induction l generalizing s with
    | nil => exact absurd hin List.not_mem_nil
    | cons k l ih =>
      rcases eq_or_ne e k with rfl | hne
      · refine hkeep l _ ?_
        rw [downWith, if_pos hdep, inReset_downOne, hup]
        simp
      · refine ih _ ((List.mem_cons.1 hin).resolve_left hne) ?_
        rw [poweredOn_downWith, hup]
        simp [hne]
  have hall : ∀ e : Fin 12, e ≠ 0 → e ∈ ([11, 10, 9, 8, 7, 6, 5, 4, 3, 2, 1] : List (Fin 12)) := by decide
  exact hfold _ s (hall e hmost) hup

theorem State.powerDown_keeps (s : State) (d : Fin 12) :
    (s.powerDown d).pwr.repowerAt = s.pwr.repowerAt ∧ (s.powerDown d).pwr.railFaults = s.pwr.railFaults ∧ (s.powerDown d).job = s.job ∧
      (s.powerDown d).mbx.outbox = s.mbx.outbox := by
  have hone (s : State) (e : Fin 12) :
      ((s.downWith d e).pwr.repowerAt, (s.downWith d e).pwr.railFaults, (s.downWith d e).job, (s.downWith d e).mbx.outbox) =
        (s.pwr.repowerAt, s.pwr.railFaults, s.job, s.mbx.outbox) := by
    obtain ⟨hrepower, hrails, hjob, hout⟩ := s.downOne_keeps e
    rw [downWith]
    split
    · rw [hrepower, hrails, hjob, hout]
    · rfl
  have hall := foldl_keep (fun u => (u.pwr.repowerAt, u.pwr.railFaults, u.job, u.mbx.outbox)) (State.downWith d) hone
    [11, 10, 9, 8, 7, 6, 5, 4, 3, 2, 1] s
  exact ⟨congrArg (·.1) hall, congrArg (·.2.1) hall, congrArg (·.2.2.1) hall, congrArg (·.2.2.2) hall⟩

theorem dependsOn_zero : ∀ d : Fin 12, 2 ≤ d.val → dependsOn 0 d = false := by decide

theorem ne_zero_of_dependsOn {e d : Fin 12} (hd : 2 ≤ d.val) (h : dependsOn e d = true) : e ≠ 0 := by
  rintro rfl
  rw [dependsOn_zero d hd] at h
  exact Bool.false_ne_true h

/-! ### VIN (R606) -/

theorem State.standbyDown_keeps (s : State) :
    s.standbyDown.pwr = { s.pwr.held with powered := 1 } ∧ s.standbyDown.mgt = s.mgt.held ∧ s.standbyDown.fsv.waste = s.fsv.power ∧
      s.standbyDown.fsv.power = s.fsv.power ∧ s.standbyDown.aon = s.aon ∧ s.standbyDown.job.state = .idle ∧ s.standbyDown.mem = [] := by
  simp [standbyDown, afterReset, resetNotice]
  rfl

/-- The first fault of PD1: what is powered goes down from a state whose WASTE is held for an armed job, and a repower is planned. -/
theorem State.mainRail_first {s : State} (hfirst : s.railAgain 1 = false) (cause : RailCause) (delay : Nat) :
    ∃ (v w : State) (l : List Ev), v.pwr = s.pwr ∧ v.aon = s.aon ∧ (s.armed = true → v.fsv.power = true) ∧ w = (v.railMark 1 false).standbyDown ∧
      s.mainRail cause delay = { w with pwr := { w.pwr with
        lateEvents := l, repowerAt := (Vector.replicate 12 none).set 1 (some (w.aon + delay)) } } := by
  rw [mainRail]
  simp only [hfirst, Bool.false_eq_true, if_false]
  obtain ⟨hpwr, haon, hpower⟩ : (if s.armed then s.wastePower else s).pwr = s.pwr ∧ (if s.armed then s.wastePower else s).aon = s.aon ∧
      (s.armed = true → (if s.armed then s.wastePower else s).fsv.power = true) := by
    refine ⟨?_, ?_, fun h => ?_⟩
    · split <;> simp
    · split <;> simp
    · rw [if_pos h]
      exact s.wastePower_power
  generalize (if s.armed then s.wastePower else s) = v at hpwr haon hpower
  generalize hw : (v.railMark 1 false).standbyDown = w
  exact ⟨v, w, _, hpwr, haon, hpower, hw.symm, rfl⟩

theorem exec_vinFault_standsBy (mv t : Nat) (s : State) (hup : s.poweredOn 1 = true) (hout : mv < 33000 ∨ 78000 < mv)
    (hfirst : s.pwr.repowered[(1 : Fin 12)] = none) :
    ∃ u, exec (.vinFault mv t) s = .next u ∧ u.pwr.powered = 1 ∧ u.pwr.vinMv = mv ∧ u.pwr.vinLow = true ∧ u.job.state = .idle ∧ u.mem = [] ∧
      u.pwr.repowerAt[(1 : Fin 12)] = some (max s.aon t) ∧ u.mgt.alertStatus.getLsbD 8 = true ∧
      (s.armed = true → u.fsv.waste = true ∧ u.fsv.power = true) := by
  let s1 : State := { (s.at t).vinSeen mv with pwr := { ((s.at t).vinSeen mv).pwr with vinLow := true, vinSince := none } }
  let c : RailCause := if mv < 33000 then .vinUv else .vinOv
  have hrun : exec (.vinFault mv t) s = .next (s1.mainRail c 0) := by
    have hcond : (((s.at t).vinSeen mv).poweredOn 1 && (decide (mv < 33000) || decide (78000 < mv))) = true := by
      rw [show ((s.at t).vinSeen mv).poweredOn 1 = true from hup]
      simpa using hout
    exact if_pos hcond
  have hagain : s1.railAgain 1 = false := by simp only [State.railAgain, show s1.pwr.repowered[(1 : Fin 12)] = none from hfirst]
  obtain ⟨v, w, l, hvpwr, hvaon, hvpower, hw, hmain⟩ := State.mainRail_first hagain c 0
  obtain ⟨hpwr, hmgt, hwaste, hpower, haon, hjob, hmem⟩ := (v.railMark 1 false).standbyDown_keeps
  rw [← hw] at hpwr hmgt hwaste hpower haon hjob hmem
  rw [hmain] at hrun
  refine ⟨_, hrun, ?_, ?_, ?_, hjob, hmem, ?_, ?_, fun harmed => ?_⟩
  · show w.pwr.powered = 1
    rw [hpwr]
  · show w.pwr.vinMv = mv
    rw [hpwr]
    exact congrArg (fun p : Pwr => p.vinMv) hvpwr
  · show w.pwr.vinLow = true
    rw [hpwr]
    exact congrArg (fun p : Pwr => p.vinLow) hvpwr
  · show ((Vector.replicate 12 none).set 1 (some (w.aon + 0)))[1] = _
    rw [Vector.getElem_set_self, haon]
    exact congrArg some hvaon
  · show w.mgt.alertStatus.getLsbD 8 = true
    rw [hmgt]
    exact State.setAlert_sets _ 8 (by decide)
  · have hset : v.fsv.power = true := hvpower harmed
    exact ⟨hwaste.trans hset, hpower.trans hset⟩

/-! ### Rail faults of PD2 to PD11 (R606) -/

theorem exec_railFault_takesDown (d : Fin 12) (c : RailCause) (t : Nat) (s : State) (hd : 2 ≤ d.val) (hup : s.poweredOn d = true)
    (hfirst : s.pwr.repowered[d] = none) (hidle : s.armed = false) :
    ∃ u, exec (.railFault d c t) s = .next u ∧ (∀ e : Fin 12, dependsOn e d = true → u.poweredOn e = false) ∧
      u.pwr.repowerAt[d] = some (max s.aon t + 1000000 * 2 ^ 32) ∧ u.pwr.railFaults.getLsbD d.val = true ∧
      ((dependsOn 9 d = true → s.poweredOn 9 = false) → (dependsOn 10 d = true → s.poweredOn 10 = false) → Claims.Posts s u [0x0330]) := by
  have hd0 : d ≠ 0 := by rintro rfl; exact absurd hd (by decide)
  have hd1 : d ≠ 1 := by rintro rfl; exact absurd hd (by decide)
  have hagain : (s.at t).railAgain d = false := by simp only [State.railAgain, show (s.at t).pwr.repowered[d] = none from hfirst]
  have hms : ms 1 = 1000000 * 2 ^ 32 := by rw [ms, ns, Nat.mul_one]
  let w := ((s.at t).planRepower d (some ((s.at t).aon + ms 1))).railMark d false
  let v := ((w.linkLost d).powerDown d).post 0x0330 clsFault (railData d (causeCode c) clsPending s.pwr.vinMv)
  obtain ⟨hlostPwr, -, hlostJob⟩ := w.linkLost_keeps d
  obtain ⟨hrepower, hrails, hjob, hout⟩ := (w.linkLost d).powerDown_keeps d
  have hvidle : (v.detect (railDetect d .pending false)).armed = false := by
    have hvjob : v.job = s.job := hjob.trans hlostJob
    show v.armed = false
    rw [State.armed, hvjob]
    exact hidle
  have hrun : exec (.railFault d c t) s = .next (v.detect (railDetect d .pending false)) := by
    rw [show exec (.railFault d c t) s = execRailFault d c t s from rfl, execRailFault, State.railFault,
      if_pos (show (s.at t).poweredOn d = true from hup), if_neg hd0, if_neg hd1, State.sideRail]
    simp only [hagain, Bool.false_eq_true, if_false, Bool.not_false, if_true, Bool.false_and]
    refine congrArg Host.Outcome.next ?_
    show (if 3 ≤ d.val then (v.detect (railDetect d .pending false)).armedLoss _ else v.detect (railDetect d .pending false)) = _
    split
    · exact if_neg (by rw [hvidle]; exact Bool.false_ne_true)
    · rfl
  refine ⟨_, hrun, fun e he => ?_, ?_, ?_, fun h9 h10 => ?_⟩
  · refine ((w.linkLost d).poweredOn_powerDown d e (ne_zero_of_dependsOn hd)).trans ?_
    rw [he]
    exact Bool.and_false _
  · show ((w.linkLost d).powerDown d).pwr.repowerAt[d] = _
    rw [hrepower, hlostPwr, ← hms]
    simp [w, State.railMark, State.planRepower, dependsOn]
  · show ((w.linkLost d).powerDown d).pwr.railFaults.getLsbD d.val = true
    rw [hrails, hlostPwr]
    show (s.pwr.railFaults ||| 1#12 <<< d.val).getLsbD d.val = true
    rw [BitVec.getLsbD_or, domainBit_getLsbD]
    simp
  · have hnone : w.linkLost d = w := State.linkLost_of_none (s := w) h9 h10
    have hposts : Claims.Posts ((w.linkLost d).powerDown d) v [0x0330] := posts_post ..
    have hsame : ((w.linkLost d).powerDown d).mbx.outbox = s.mbx.outbox := by rw [hout, hnone]; rfl
    rw [Claims.Posts, ← hsame]
    exact hposts

/-! ### Repower, power-up and power-down (R604, R605, R607) -/

theorem State.powerUp_side (s : State) {d : Fin 12} (hd : 2 ≤ d.val) (hchain : d ≠ 11) :
    s.powerUp d = ({ s with pwr := { s.pwr with powered := s.pwr.powered ||| 1#12 <<< d.val } } : State).release d := by
  have hd1 : d ≠ 1 := by rintro rfl; exact absurd hd (by decide)
  rw [powerUp, if_neg hd1, if_neg fun h => hchain h.1]

theorem State.mayPower_of {s : State} {d : Fin 12} (hd : 2 ≤ d.val) (hdown : s.poweredOn d = false) (hparent : s.poweredOn (parentOf d) = true) :
    s.mayPower d = true := by
  have hd0 : d ≠ 0 := by rintro rfl; exact absurd hd (by decide)
  simp [mayPower, hd0, hdown, hparent]

theorem exec_repower_powers (d : Fin 12) (mv t : Nat) (s : State) (due : Nat) (hd : 2 ≤ d.val) (hchain : d ≠ 11)
    (hplan : s.pwr.repowerAt[d] = some due) (hdue : due ≤ max s.aon t) (hdown : s.poweredOn d = false) (hparent : s.poweredOn (parentOf d) = true) :
    ∃ u, exec (.repower d mv t) s = .next u ∧ u.poweredOn d = true ∧ u.pwr.repowerAt[d] = none ∧
      u.pwr.transients = satAdd s.pwr.transients 1 ∧ Claims.Posts s u [0x0330] := by
  have hd1 : d ≠ 1 := by rintro rfl; exact absurd hd (by decide)
  let w := (s.at t).vinSeen mv
  have hmay : w.mayPower d = true := State.mayPower_of (s := w) hd hdown hparent
  have hrun : exec (.repower d mv t) s = .next (w.repowered d) := by
    rw [show exec (.repower d mv t) s = execRepower d mv t s from rfl, execRepower]
    simp only [show ((s.at t).vinSeen mv).pwr.repowerAt[d] = some due from hplan]
    exact congrArg Host.Outcome.next (if_pos ⟨hdue, hmay, .inl hd1⟩)
  simp only [State.repowered, if_neg hd1, w.powerUp_side hd hchain] at hrun
  refine ⟨_, hrun, ?_, ?_, rfl, ?_⟩
  · show (s.pwr.powered ||| 1#12 <<< d.val).getLsbD d.val = true
    rw [BitVec.getLsbD_or, domainBit_getLsbD]
    simp
  · exact Vector.getElem_set_self d.isLt
  · exact posts_post ..

theorem exec_domainPowerUp_powers (d : Fin 12) (t : Nat) (s : State) (hd : 2 ≤ d.val) (hchain : d ≠ 11) (hdown : s.poweredOn d = false)
    (hparent : s.poweredOn (parentOf d) = true) (hon : s.pwr.off.getLsbD d.val = false) (hshadow : d ≠ 6 ∨ s.chk.shadowOff = false)
    (hserves : s.boot.fwReady = true) :
    exec (.domainPowerUp d true t) s = .next { s.at t with
      pwr := { s.pwr with powered := s.pwr.powered ||| 1#12 <<< d.val }, clk := { s.clk with inReset := s.clk.inReset &&& ~~~(1#12 <<< d.val) }
      lsd := if d = 8 ∧ s.clk.inReset.getLsbD 8 = true then s.lsd.zeroed else s.lsd } := by
  have hd1 : d ≠ 1 := by rintro rfl; exact absurd hd (by decide)
  have hmay : (s.at t).mayPower d = true := State.mayPower_of (s := s.at t) hd hdown hparent
  have hturn : (s.at t).powerTurn d = true := by
    rw [State.powerTurn, if_neg hd1, show (s.at t).boot.fwReady = true from hserves, Bool.true_or]
  have hpass : (d == 6 && (s.at t).chk.shadowOff) = false := by
    rcases hshadow with h | h
    · rw [beq_false_of_ne h, Bool.false_and]
    · rw [show (s.at t).chk.shadowOff = false from h, Bool.and_false]
  have hgo : ((s.at t).mayPower d && (s.at t).powerTurn d && !(s.at t).pwr.off.getLsbD d.val && !(d == 6 && (s.at t).chk.shadowOff)) = true := by
    rw [hmay, hturn, hpass, show (s.at t).pwr.off.getLsbD d.val = false from hon]
    rfl
  have hrun : exec (.domainPowerUp d true t) s = .next ((s.at t).powerUp d) := if_pos hgo
  rw [hrun, State.powerUp_side _ hd hchain]
  rfl

theorem exec_domainPowerDown_takesDown (d : Fin 12) (t : Nat) (s : State) (hd : 2 ≤ d.val) (hup : s.poweredOn d = true) (hidle : s.armed = false) :
    ∃ u, exec (.domainPowerDown d t) s = .next u ∧ (∀ e : Fin 12, dependsOn e d = true → u.poweredOn e = false ∧
      (s.poweredOn e = true → u.clk.inReset.getLsbD e.val = true)) ∧ (∀ e : Fin 12, dependsOn e d = false → u.poweredOn e = s.poweredOn e) := by
  have hd0 : d ≠ 0 := by rintro rfl; exact absurd hd (by decide)
  have hd1 : d ≠ 1 := by rintro rfl; exact absurd hd (by decide)
  obtain ⟨w, hrun, hpwr⟩ : ∃ w : State, exec (.domainPowerDown d t) s = .next (w.powerDown d) ∧ w.pwr = s.pwr := by
    have hgo : ¬ (d = 0 ∨ (s.at t).poweredOn d = false) := by
      rintro (h | h)
      · exact hd0 h
      · rw [show (s.at t).poweredOn d = true from hup] at h
        exact Bool.false_ne_true h.symm
    rw [show exec (.domainPowerDown d t) s = execDomainPowerDown d t s from rfl, execDomainPowerDown]
    simp only [if_neg hgo, if_neg hd1]
    split
    · exact ⟨s.at t, rfl, rfl⟩
    · obtain ⟨hlostPwr, -, hlostJob⟩ := (s.at t).linkLost_keeps d
      obtain ⟨-, -, hjob, -⟩ := ((s.at t).linkLost d).powerDown_keeps d
      have hunarmed : (((s.at t).linkLost d).powerDown d).armed = false := by
        rw [State.armed, hjob, hlostJob]
        exact hidle
      refine ⟨(s.at t).linkLost d, congrArg Host.Outcome.next (if_neg ?_), hlostPwr⟩
      rw [hunarmed]
      exact Bool.false_ne_true
  have hon (e : Fin 12) : w.poweredOn e = s.poweredOn e := by rw [State.poweredOn, hpwr]; rfl
  refine ⟨_, hrun, fun e he => ⟨?_, fun hewas => ?_⟩, fun e he => ?_⟩
  · rw [w.poweredOn_powerDown d e (ne_zero_of_dependsOn hd), he]
    exact Bool.and_false _
  · exact State.inReset_powerDown he (ne_zero_of_dependsOn hd he) ((hon e).trans hewas)
  · rw [w.poweredOn_powerDown d e (ne_zero_of_dependsOn hd), he, hon]
    exact Bool.and_true _

/-! ### Temperature samples (R610, R611) -/

theorem foldl_add_replicate (n : Nat) (c a : Int) : (List.replicate n c).foldl (· + ·) a = a + n * c := by
  induction n generalizing a with
  | zero => simp
  | succ n ih =>
    rw [List.replicate_succ, List.foldl_cons, ih]
    push_cast
    ring

/-- A reading in range that agrees with the rest of its group is good. -/
theorem Pwr.badReading_of_even {p : Pwr} {temps : List Int} {i : Fin 20} {c : Int} (hlo : -640 ≤ c) (hhi : c ≤ 2400)
    (hi : temps.getD i.val 0 = c) (hgroup : ∀ j ∈ groupSensors (groupOf i), temps.getD j.val 0 = c) : p.badReading temps i = false := by
  let others := ((groupSensors (groupOf i)).filter fun j => j ≠ i && !p.excluded[j]).map fun j => temps.getD j.val 0
  have heven : others = List.replicate others.length c := by
    refine List.eq_replicate_of_mem fun x hx => ?_
    obtain ⟨j, hj, rfl⟩ := List.mem_map.1 hx
    exact hgroup j (List.mem_filter.1 hj).1
  have hsum : others.foldl (· + ·) 0 = others.length * c := by
    rw [heven, foldl_add_replicate, List.length_replicate, zero_add]
  have hgap : temps.getD i.val 0 * others.length - others.foldl (· + ·) 0 = 0 := by
    rw [hi, hsum, mul_comm, sub_self]
  have hrange : ¬ (temps.getD i.val 0 < -640 ∨ 2400 < temps.getD i.val 0) := by omega
  show (decide (temps.getD i.val 0 < -640 ∨ 2400 < temps.getD i.val 0) || (decide (0 < (others.length : Int)) &&
    decide (320 * (others.length : Int) < |temps.getD i.val 0 * others.length - others.foldl (· + ·) 0|))) = false
  rw [hgap, decide_eq_false hrange, abs_zero, decide_eq_false (show ¬ 320 * (others.length : Int) < 0 by omega), Bool.and_false]
  rfl

/-- No sensor is excluded or suspect. -/
def Pwr.sound (p : Pwr) : Prop := p.excluded = Vector.replicate 20 false ∧ p.suspect = Vector.replicate 20 false

theorem State.sampleSensor_good {temps : List Int} {s : State} {i : Fin 20} (hsound : s.pwr.sound) (hgood : s.pwr.badReading temps i = false) :
    State.sampleSensor temps s i = { s with pwr := { s.pwr with temps := s.pwr.temps.set i (temps.getD i.val 0) } } := by
  obtain ⟨hex, hsus⟩ := hsound
  have hexi : s.pwr.excluded[i] = false := by rw [hex]; exact Vector.getElem_replicate i.isLt
  have hsusi : s.pwr.suspect[i] = false := by rw [hsus]; exact Vector.getElem_replicate i.isLt
  have hkeep : s.pwr.suspect.set i false = s.pwr.suspect := by
    rw [← hsusi]
    exact Vector.set_getElem_self i.isLt
  simp only [sampleSensor, hexi, hgood, hsusi, hkeep, Bool.false_eq_true, if_false]

theorem State.sampleSensors_good {temps : List Int} (hgood : ∀ (p : Pwr) (i : Fin 20), p.badReading temps i = false) (l : List (Fin 20)) {s : State}
    (hsound : s.pwr.sound) : l.foldl (State.sampleSensor temps) s =
      { s with pwr := { s.pwr with temps := l.foldl (fun (v : Vector Int 20) (i : Fin 20) => v.set i (temps.getD i.val 0)) s.pwr.temps } } := by
  induction l generalizing s with
  | nil => rfl
  | cons i l ih =>
    rw [List.foldl_cons, sampleSensor_good hsound (hgood _ i)]
    exact ih hsound

theorem foldl_set_getElem {n : Nat} (f : Fin n → Int) (l : List (Fin n)) (v : Vector Int n) (k : Fin n) :
    (l.foldl (fun v i => v.set i (f i)) v)[k] = if k ∈ l then f k else v[k] := by
  induction l generalizing v with
  | nil => rfl
  | cons i l ih =>
    rw [List.foldl_cons, ih]
    by_cases hk : k ∈ l
    · rw [if_pos hk, if_pos (List.mem_cons_of_mem _ hk)]
    · rw [if_neg hk]
      rcases eq_or_ne k i with rfl | hne
      · rw [if_pos List.mem_cons_self]
        exact Vector.getElem_set_self k.isLt
      · rw [if_neg (by simp [hne, hk])]
        exact Vector.getElem_set_ne i.isLt k.isLt fun h => hne (Fin.ext h.symm)

/-- A sample of good readings is stored. -/
theorem State.sample_stores {temps : List Int} (hgood : ∀ (p : Pwr) (i : Fin 20), p.badReading temps i = false) {s : State} (hsound : s.pwr.sound) :
    ∃ v : Vector Int 20, (∀ i : Fin 20, v[i] = temps.getD i.val 0) ∧
      (List.finRange 20).foldl (State.sampleSensor temps) s = { s with pwr := { s.pwr with temps := v } } := by
  refine ⟨_, fun i => ?_, sampleSensors_good hgood _ hsound⟩
  exact (foldl_set_getElem (fun i : Fin 20 => temps.getD i.val 0) _ _ i).trans (if_pos (List.mem_finRange _))

/-- A group that stands at one temperature. -/
theorem Pwr.hottest_even {p : Pwr} {g : Fin 4} {c : Int} (hsound : p.sound) (hgroup : ∀ i ∈ groupSensors g, p.temps[i] = c) :
    ∃ i, p.hottest g = some (i, c) := by
  have hkeep : (groupSensors g).filter (fun i => !p.excluded[i]) = groupSensors g := by
    refine List.filter_eq_self.2 fun i _ => ?_
    rw [hsound.1]
    simp
  have hfold (l : List (Fin 20)) (i : Fin 20) (h : ∀ j ∈ l, p.temps[j] = c) :
      l.foldl (fun m i => match m with
        | none => some (i, p.temps[i])
        | some (j, v) => if v < p.temps[i] then some (i, p.temps[i]) else some (j, v)) (some (i, c)) = some (i, c) := by
    induction l with
    | nil => rfl
    | cons j l ih =>
      rw [List.foldl_cons, h j List.mem_cons_self]
      simp only [lt_irrefl, if_false]
      exact ih fun k hk => h k (List.mem_cons_of_mem _ hk)
  rw [hottest, hkeep]
  obtain ⟨i, l, hl⟩ : ∃ i l, groupSensors g = i :: l := by
    fin_cases g <;> exact ⟨_, _, rfl⟩
  rw [hl] at hgroup ⊢
  rw [List.foldl_cons]
  simp only [hgroup i List.mem_cons_self]
  exact ⟨i, hfold l i fun j hj => hgroup j (List.mem_cons_of_mem _ hj)⟩

/-- The level of a group that was at NORMAL. -/
theorem Pwr.levelOf_normal {p : Pwr} {g : Fin 4} {i : Fin 20} {c : Int} (hhot : p.hottest g = some (i, c)) (hlevel : p.levels[g] = 0) :
    p.levelOf g = if ((p.thresholds g).2.2 : Int) * 16 ≤ c then 3 else if ((p.thresholds g).2.1 : Int) * 16 ≤ c then 2
      else if ((p.thresholds g).1 : Int) * 16 ≤ c then 1 else 0 := by
  rw [levelOf, hhot]
  simp [hlevel]

theorem State.groupLevel_same {s : State} {g : Fin 4} (h : s.pwr.levelOf g = s.pwr.levels[g]) : s.groupLevel g = s := by
  rw [groupLevel]
  exact if_pos h

theorem groupOf_of_mem : ∀ g, ∀ i ∈ groupSensors g, groupOf i = g := by decide

/-- A sample in which the sensors of each group agree: stored, and each group stands at its reading. -/
theorem State.sample_groups {temps : List Int} {s : State} {r : Fin 4 → Int} (hsound : s.pwr.sound) (hrange : ∀ g, -640 ≤ r g ∧ r g ≤ 2400)
    (htemps : ∀ i : Fin 20, temps.getD i.val 0 = r (groupOf i)) :
    ∃ (v : Vector Int 20) (w : State), (∀ i : Fin 20, v[i] = r (groupOf i)) ∧ (List.finRange 20).foldl (State.sampleSensor temps) s = w ∧
      w = { s with pwr := { s.pwr with temps := v } } ∧ ∀ g, ∃ i, w.pwr.hottest g = some (i, r g) := by
  have hgood (p : Pwr) (i : Fin 20) : p.badReading temps i = false :=
    Pwr.badReading_of_even (hrange _).1 (hrange _).2 (htemps i) fun j hj => by rw [htemps, groupOf_of_mem _ j hj]
  obtain ⟨v, hv, hstore⟩ := State.sample_stores hgood hsound
  refine ⟨v, _, fun i => (hv i).trans (htemps i), hstore, rfl, fun g => Pwr.hottest_even ⟨hsound.1, hsound.2⟩ fun i hi => ?_⟩
  exact (hv i).trans ((htemps i).trans (congrArg r (groupOf_of_mem g i hi)))

theorem State.groupLevels_same {s : State} {l : List (Fin 4)} (h : ∀ g ∈ l, s.pwr.levelOf g = s.pwr.levels[g]) :
    l.foldl State.groupLevel s = s := by
  induction l with
  | nil => rfl
  | cons g l ih =>
    rw [List.foldl_cons, groupLevel_same (h g List.mem_cons_self)]
    exact ih fun k hk => h k (List.mem_cons_of_mem _ hk)

theorem exec_temperatureSample_cool (v : Int) (t : Nat) (s : State) (hlo : -640 ≤ v) (hdie : v < 16 * s.pwr.dieWarn)
    (hdram : v < 16 * s.pwr.dramWarn) (hplate : v < 16 * s.pwr.plateWarn) (hhi : v < 1760) (hdieThrottle : s.pwr.dieWarn ≤ s.pwr.dieThrottle)
    (hdramThrottle : s.pwr.dramWarn ≤ s.pwr.dramThrottle) (hplateWarn : s.pwr.plateWarn ≤ 65) (hdramWarn : s.pwr.dramWarn ≤ 95)
    (hex : s.pwr.excluded = Vector.replicate 20 false) (hsus : s.pwr.suspect = Vector.replicate 20 false)
    (hlevels : s.pwr.levels = Vector.replicate 4 0) :
    exec (.temperatureSample (List.replicate 20 v) t) s =
      .next { s.at t with pwr := { s.pwr with temps := Vector.replicate 20 v, criticalHold := false } } := by
  have htemps (i : Fin 20) : (List.replicate 20 v).getD i.val 0 = v := by
    rw [List.getD_eq_getElem _ _ (by rw [List.length_replicate]; exact i.isLt), List.getElem_replicate]
  obtain ⟨temps, w, hreads, hsample, hw, hhot⟩ := State.sample_groups (s := s.at t) (r := fun _ => v) ⟨hex, hsus⟩ (fun _ => ⟨hlo, by omega⟩) htemps
  have hbelow : ∀ g, v < ((w.pwr.thresholds g).1 : Int) * 16 ∧ v < ((w.pwr.thresholds g).2.1 : Int) * 16 ∧
      v < ((w.pwr.thresholds g).2.2 : Int) * 16 := by
    rw [hw]
    intro g
    match g with
    | 0 | 1 | 2 | 3 =>
      simp only [Pwr.thresholds, State.at]
      omega
  have hlevel (g : Fin 4) : w.pwr.levels[g] = 0 := by
    rw [hw]
    exact (congrArg (·[g]) hlevels).trans (Vector.getElem_replicate g.isLt)
  have hsame (g : Fin 4) : w.pwr.levelOf g = w.pwr.levels[g] := by
    obtain ⟨i, hi⟩ := hhot g
    obtain ⟨hwarn, hthrottle, hcritical⟩ := hbelow g
    rw [Pwr.levelOf_normal hi (hlevel g), if_neg (by omega), if_neg (by omega), if_neg (by omega), hlevel]
  have hcool : w.pwr.cool = true := by
    refine List.all_eq_true.2 fun g _ => ?_
    obtain ⟨i, hi⟩ := hhot g
    rw [hi]
    exact decide_eq_true (hbelow g).1
  have hcritical : ¬ (w.pwr.tstate = 3 ∧ w.poweredOn 1 = true) := by
    rw [Pwr.tstate, show w.pwr.levels = Vector.replicate 4 0 by rw [hw]; exact hlevels]
    exact fun h => absurd h.1 (by decide)
  rw [show exec (.temperatureSample (List.replicate 20 v) t) s = execTemperatureSample (List.replicate 20 v) t s from rfl, execTemperatureSample,
    hsample]
  simp only [State.groupLevels_same (l := List.finRange 4) fun g _ => hsame g]
  rw [State.criticalDown, if_neg hcritical, if_pos hcool, hw]
  have hall : temps = Vector.replicate 20 v := by
    ext k hk
    exact (hreads ⟨k, hk⟩).trans (Vector.getElem_replicate hk).symm
  rw [hall]
  rfl

/-- The die reads `v` and everything else 0 °C. -/
def dieReading (v : Int) (g : Fin 4) : Int := if g = 0 then v else 0

theorem exec_temperatureSample_warm (v : Int) (t : Nat) (s : State) (hwarm : 16 * s.pwr.dieWarn ≤ v) (hbelow : v < 16 * s.pwr.dieThrottle)
    (hhi : v < 1760) (hlo : -640 ≤ v) (hex : s.pwr.excluded = Vector.replicate 20 false) (hsus : s.pwr.suspect = Vector.replicate 20 false)
    (hlevels : s.pwr.levels = Vector.replicate 4 0) (hdramWarn : 0 < s.pwr.dramWarn) (hplateWarn : 0 < s.pwr.plateWarn)
    (hdramThrottle : s.pwr.dramWarn ≤ s.pwr.dramThrottle) :
    ∃ u, exec (.temperatureSample (List.replicate 8 v ++ List.replicate 12 0) t) s = .next u ∧ u.pwr.levels = #v[1, 0, 0, 0] ∧
      Claims.Posts s u [0x0331] ∧ u.hif.globalFault.getLsbD 6 = true ∧ u.mgt.alertStatus.getLsbD 6 = true := by
  have htemps (i : Fin 20) : (List.replicate 8 v ++ List.replicate 12 0).getD i.val 0 = dieReading v (groupOf i) := by
    fin_cases i <;> rfl
  have hrange (g : Fin 4) : -640 ≤ dieReading v g ∧ dieReading v g ≤ 2400 := by
    rw [dieReading]
    split <;> omega
  obtain ⟨temps, w, -, hsample, hw, hhot⟩ := State.sample_groups (s := s.at t) (r := dieReading v) ⟨hex, hsus⟩ hrange htemps
  have hlevelsW : w.pwr.levels = Vector.replicate 4 0 := by rw [hw]; exact hlevels
  have hlevel (g : Fin 4) : w.pwr.levels[g] = 0 := (congrArg (·[g]) hlevelsW).trans (Vector.getElem_replicate g.isLt)
  have hthresholds (g : Fin 4) : w.pwr.thresholds g = s.pwr.thresholds g := by rw [hw]; rfl
  obtain ⟨i, hi⟩ := hhot 0
  have hdie : w.pwr.levelOf 0 = 1 := by
    have hcritical : ¬ ((s.pwr.thresholds 0).2.2 : Int) * 16 ≤ v := by show ¬ ((110 : Nat) : Int) * 16 ≤ v; omega
    have hthrottle : ¬ ((s.pwr.thresholds 0).2.1 : Int) * 16 ≤ v := by show ¬ (s.pwr.dieThrottle : Int) * 16 ≤ v; omega
    have hwarn : ((s.pwr.thresholds 0).1 : Int) * 16 ≤ v := by show (s.pwr.dieWarn : Int) * 16 ≤ v; omega
    rw [Pwr.levelOf_normal hi (hlevel 0), hthresholds, dieReading, if_pos rfl, if_neg hcritical, if_neg hthrottle, if_pos hwarn]
  let w1 : State := { w with pwr := { w.pwr with levels := w.pwr.levels.set 0 1 } }
  let w2 : State := ((w1.post 0x0331 clsSystem [(1, 0), (1, i.val), (1, 1), (2, wrapInt 16 (dieReading v 0))]).setGlobalFault 6).setAlert 6
  have hpwr : w2.pwr = w1.pwr := by simp [w2]
  have hlevels2 : w2.pwr.levels = #v[1, 0, 0, 0] := by
    rw [hpwr]
    show w.pwr.levels.set 0 1 = _
    rw [hlevelsW]
    rfl
  have hfirst : w.groupLevel 0 = w2 := by
    rw [State.groupLevel]
    simp only [hdie, hlevel 0, hi]
    rfl
  have hrest : ∀ g ∈ ([1, 2, 3] : List (Fin 4)), w2.pwr.levelOf g = w2.pwr.levels[g] := by
    intro g hg
    have hg0 : g ≠ 0 := by rintro rfl; exact absurd hg (by decide)
    have hzero : w1.pwr.levels[g] = 0 := (Vector.getElem_set_ne (by decide) g.isLt fun h => hg0 (Fin.ext h.symm)).trans (hlevel g)
    obtain ⟨k, hk⟩ := hhot g
    have hthreshold : 0 < (s.pwr.thresholds g).1 ∧ 0 < (s.pwr.thresholds g).2.1 ∧ 0 < (s.pwr.thresholds g).2.2 := by
      match g, hg0 with
      | 0, h => exact absurd rfl h
      | 1, _ | 2, _ | 3, _ =>
        simp only [Pwr.thresholds]
        omega
    rw [hpwr, Pwr.levelOf_normal (p := w1.pwr) hk hzero, hzero, show w1.pwr.thresholds g = s.pwr.thresholds g from hthresholds g, dieReading,
      if_neg hg0, if_neg (by omega), if_neg (by omega), if_neg (by omega)]
  have hcritical : ¬ (w2.pwr.tstate = 3 ∧ w2.poweredOn 1 = true) := by
    rw [Pwr.tstate, hlevels2]
    exact fun h => absurd h.1 (by decide)
  have hwarmed : ¬ w2.pwr.cool = true := by
    intro h
    have hzero := List.all_eq_true.1 h 0 (List.mem_finRange 0)
    rw [hpwr, show w1.pwr.hottest 0 = some (i, dieReading v 0) from hi, show w1.pwr.thresholds 0 = s.pwr.thresholds 0 from hthresholds 0,
      dieReading, if_pos rfl] at hzero
    have hlow : v < (s.pwr.dieWarn : Int) * 16 := of_decide_eq_true hzero
    omega
  have hrun : exec (.temperatureSample (List.replicate 8 v ++ List.replicate 12 0) t) s = .next w2 := by
    rw [show exec (.temperatureSample (List.replicate 8 v ++ List.replicate 12 0) t) s =
      execTemperatureSample (List.replicate 8 v ++ List.replicate 12 0) t s from rfl, execTemperatureSample, hsample,
      show List.finRange 4 = 0 :: [1, 2, 3] from rfl, List.foldl_cons, hfirst]
    simp only [State.groupLevels_same hrest]
    rw [State.criticalDown, if_neg hcritical, if_neg hwarmed]
  refine ⟨w2, hrun, hlevels2, ?_, ?_, State.setAlert_sets _ 6 (by decide)⟩
  · have hout : w1.mbx = s.mbx := by
      show w.mbx = s.mbx
      rw [hw]
      rfl
    have hposts : Claims.Posts w1 w2 [0x0331] := by simp [w2, Claims.Posts, State.post, State.postEv]
    exact posts_of_mbx hout hposts
  · exact State.setGlobalFault_sets _ 6 (by decide)

/-- Settles O19: each fault, power event and sample by the state it leaves. -/
theorem supplyFaultsAndTemperaturesAct : Obligations.SupplyFaultsAndTemperaturesAct := by
  unfold Obligations.SupplyFaultsAndTemperaturesAct
  refine ⟨⟨exec_vinFault_standsBy, exec_railFault_takesDown, exec_repower_powers, exec_domainPowerUp_powers, exec_domainPowerDown_takesDown⟩, ?_, ?_⟩
  · intro v t s hlo hdie hdram hplate hhi hdieThrottle hdramThrottle hplateWarn _ hdramWarn _ _ hex hsus hlevels
    exact exec_temperatureSample_cool v t s hlo hdie hdram hplate hhi hdieThrottle hdramThrottle hplateWarn hdramWarn hex hsus hlevels
  · intro v t s hwarm hbelow hhi hlo hex hsus hlevels hdramWarn hplateWarn hdramThrottle _ _
    exact exec_temperatureSample_warm v t s hwarm hbelow hhi hlo hex hsus hlevels hdramWarn hplateWarn hdramThrottle

end Sys2Proof.Machine
end

section
/-! PROOF. PLANE_DEFINE, ROW_DEFINE, PANEL_DEFINE, JOB_DEFINE, JOB_CLEAR and JOB_STATUS (18 R446, R447, R449 to R451, R466): O28. -/

namespace Sys2Proof.Machine

/-! ### Planes and rows (R446, R447) -/

theorem exec_planeDefine_sets (q : Req) (s : State) (plane : Fin 16) (codes : Bool) (hq : Claims.Fresh 0x0201 q s) (hdef : s.job.state.defines = true)
    (hfree : s.planeNamed plane.val = false) (hp : q.payload = [BitVec.ofNat 8 plane.val, if codes then 1 else 0, 0, 0, 0, 0, 0, 0]) :
    exec (.planeDefine q) s = .next ((Claims.ok { s.start q 0x0201 with layout := { s.layout with
      planes := upd s.layout.planes plane (fun x => { x with codes := codes }) } }).deliver q 0x0201) := by
  have hrun : exec (.planeDefine q) s = .next ((cmdPlaneDefine.run q (s.start q 0x0201)).deliver q 0x0201) :=
    congrArg _ (serve_of_fresh hq (by rw [hp]; rfl))
  have hplane : fld q.payload 0 1 = plane.val := by
    rw [hp, fld_cons_one]
    exact Nat.mod_eq_of_lt (Nat.lt_trans plane.isLt (by decide))
  have hcodes : fld q.payload 1 1 = if codes then 1 else 0 := by rw [hp]; cases codes <;> rfl
  have hbit : ((if codes then 1 else 0 : Nat) == 1) = codes ∧ ¬ 1 < (if codes then 1 else 0) := by cases codes <;> decide
  have hzero : zeros q.payload 2 6 = true := by rw [hp]; rfl
  have hstate : (s.start q 0x0201).job.state.defines = true := hdef
  have hunnamed : (s.start q 0x0201).planeNamed plane.val = false := hfree
  have hrow : ¬ 15 < plane.val := by omega
  rw [hrun]
  simp only [cmdPlaneDefine, hplane, hcodes, hbit, hzero, hstate, hunnamed, Fin.ofNat_val_eq_self]
  rw [checks_pass (by simp [hrow])]
  rfl

theorem exec_rowDefine_assigns (q : Req) (s : State) (row plane : Fin 16) (k phase : Nat) (hq : Claims.Fresh 0x0202 q s)
    (hdef : s.job.state.defines = true) (hk : k = 1 ∨ k = 2 ∨ k = 4) (hphase : phase < k)
    (hp : q.payload = [BitVec.ofNat 8 row.val, BitVec.ofNat 8 plane.val, BitVec.ofNat 8 k, BitVec.ofNat 8 phase, 0, 0, 0, 0]) :
    exec (.rowDefine q) s = .next ((Claims.ok { s.start q 0x0202 with layout := { s.layout with
      rows := upd s.layout.rows row (fun d => { d with plane := some plane, k := k, phase := phase }) } }).deliver q 0x0202) := by
  have hrun : exec (.rowDefine q) s = .next ((cmdRowDefine.run q (s.start q 0x0202)).deliver q 0x0202) :=
    congrArg _ (serve_of_fresh hq (by rw [hp]; rfl))
  have hfields : fld q.payload 0 1 = row.val ∧ fld q.payload 1 1 = plane.val ∧ fld q.payload 2 1 = k ∧ fld q.payload 3 1 = phase := by
    rw [hp]
    simp only [fld, leNat, List.drop, List.take, BitVec.toNat_ofNat]
    omega
  obtain ⟨hrow, hplane, hfactor, hoffset⟩ := hfields
  have hzero : zeros q.payload 4 4 = true := by rw [hp]; rfl
  have hstate : (s.start q 0x0202).job.state.defines = true := hdef
  have hnone : plane.val ≠ 0xFF := by omega
  have hrow' : ¬ 15 < row.val := by omega
  have hplane' : ¬ 15 < plane.val := by omega
  rw [hrun]
  simp only [cmdRowDefine, hrow, hplane, hfactor, hoffset, hzero, hstate, if_neg hnone, Fin.ofNat_val_eq_self]
  rw [checks_pass (by rcases hk with rfl | rfl | rfl <;> simp [hrow', hplane', hnone] <;> omega)]
  rfl

/-! ### Panels (R449) -/

/-- The check of a panel record rests on the lists and the planes alone. -/
theorem State.checkPanel_congr {s t : State} (hhamper : t.hamper = s.hamper) (hlayout : t.layout = s.layout) (slot : Fin 4096) (p : List Byte) :
    t.checkPanel slot p = s.checkPanel slot p := by
  have hlist (length : Nat) : t.listFault length = s.listFault length := by
    funext e
    rw [listFault, listFault, hhamper, hlayout]
  have hplane (panel : Panel) (plane : Fin 16) : t.recordPlane panel plane = s.recordPlane panel plane := by
    rw [recordPlane, recordPlane, hhamper]
  have hover (panel : Panel) : t.recordOverflow panel = s.recordOverflow panel := by
    rw [recordOverflow, recordOverflow]
    simp only [hplane]
  rw [checkPanel, checkPanel]
  simp only [hlist, hover]

theorem exec_panelDefine_replaces (q : Req) (s : State) (slot : Fin 4096) (src : Nat) (p : Panel) (hq : Claims.Fresh 0x0203 q s)
    (hdef : s.job.state.defines = true) (hout : s.job.seq.contains slot = false) (hlo : 0x3400000000 ≤ src) (hhi : src + 1040 ≤ 0x3800000000)
    (hgood : s.checkPanel slot (s.memRead src 1040) = .good p) (hp : q.payload = le 2 slot.val ++ List.replicate 6 0 ++ le 8 src) :
    ∃ r : List Byte, exec (.panelDefine q) s = .next ((Claims.ok { s.start q 0x0203 with layout := { s.layout with
      panels := s.layout.panels.filter (fun x => x.slot ≠ slot) ++ [p] } } r).deliver q 0x0203) ∧ r.length = 16 := by
  have hrun : exec (.panelDefine q) s = .next ((cmdPanelDefine.run q (s.start q 0x0203)).deliver q 0x0203) :=
    congrArg _ (serve_of_fresh hq (by rw [hp]; rfl))
  have hslot : fld q.payload 0 2 = slot.val := by
    rw [hp, List.append_assoc, fld_le]
    exact Nat.mod_eq_of_lt (by omega)
  have hsrc : fld q.payload 8 8 = src := by
    rw [hp, fld_append_right _ _ (by simp)]
    simp only [List.length_append, length_le, List.length_replicate, Nat.reduceAdd, Nat.sub_self, fld_le_end]
    exact Nat.mod_eq_of_lt (by omega)
  have hflags : fld q.payload 2 1 = 0 ∧ zeros q.payload 3 5 = true := by rw [hp]; exact ⟨rfl, rfl⟩
  have hzone : inZone src 1040 = true := inZone_of_le hlo hhi
  have hstate : (s.start q 0x0203).job.state.defines = true := hdef
  have hseq : (s.start q 0x0203).job.seq.contains slot = false := hout
  have hcheck : (s.start q 0x0203).checkPanel slot ((s.start q 0x0203).memRead src 1040) = .good p := by
    rw [show (s.start q 0x0203).memRead src 1040 = s.memRead src 1040 from rfl, State.checkPanel_congr (s := s) (t := s.start q 0x0203) rfl rfl]
    exact hgood
  have hrange : ¬ 4095 < slot.val := by omega
  refine ⟨panelReply ((s.start q 0x0203).panelFigures p), ?_, by simp [panelReply]⟩
  rw [hrun]
  simp only [cmdPanelDefine, hslot, hsrc, hflags, hzone, hstate, hseq, Fin.ofNat_val_eq_self]
  rw [checks_pass (by simp [hrange])]
  simp only [definePanel, hcheck]
  rfl

theorem exec_panelDefine_removes (q : Req) (s : State) (slot : Fin 4096) (hq : Claims.Fresh 0x0203 q s) (hdef : s.job.state.defines = true)
    (hout : s.job.seq.contains slot = false) (hp : q.payload = le 2 slot.val ++ [1] ++ List.replicate 13 0) :
    exec (.panelDefine q) s = .next ((Claims.ok { s.start q 0x0203 with layout := { s.layout with
      panels := s.layout.panels.filter (fun x => x.slot ≠ slot) } } (List.replicate 16 0)).deliver q 0x0203) := by
  have hrun : exec (.panelDefine q) s = .next ((cmdPanelDefine.run q (s.start q 0x0203)).deliver q 0x0203) :=
    congrArg _ (serve_of_fresh hq (by rw [hp]; rfl))
  have hslot : fld q.payload 0 2 = slot.val := by
    rw [hp, List.append_assoc, fld_le]
    exact Nat.mod_eq_of_lt (by omega)
  have hflags : fld q.payload 2 1 = 1 ∧ zeros q.payload 3 5 = true := by rw [hp]; exact ⟨rfl, rfl⟩
  have hstate : (s.start q 0x0203).job.state.defines = true := hdef
  have hseq : (s.start q 0x0203).job.seq.contains slot = false := hout
  have hrange : ¬ 4095 < slot.val := by omega
  rw [hrun]
  simp only [cmdPanelDefine, hslot, hflags, hstate, hseq, Fin.ofNat_val_eq_self]
  rw [checks_pass (by simp [hrange, bit])]
  rfl

/-! ### The sequence (R450) -/

theorem State.undefinedAt_none {s : State} {nums : List Nat} (h : ∀ n ∈ nums, ∃ p ∈ s.layout.panels, p.slot.val = n) : s.undefinedAt nums = none := by
  rw [undefinedAt, Option.map_eq_none_iff, List.find?_eq_none]
  rintro ⟨n, i⟩ hmem
  obtain ⟨p, hp, hslot⟩ := h n (List.fst_mem_of_mem_zipIdx hmem)
  simp only [Bool.not_eq_true, Bool.not_eq_false', List.any_eq_true]
  exact ⟨p, hp, decide_eq_true hslot⟩

theorem endlessAt_none {panels : List Panel} (h : ∀ p ∈ panels.dropLast, p.rpt ≠ 0) : endlessAt panels = none := by
  rw [endlessAt, Option.map_eq_none_iff, List.find?_eq_none]
  rintro ⟨p, i⟩ hmem
  obtain ⟨hi, hget⟩ : ∃ hi : i < panels.length, panels[i] = p := by
    have hget := List.mem_zipIdx_iff_getElem?.1 hmem
    exact List.getElem?_eq_some_iff.1 hget
  by_cases hlast : i + 1 < panels.length
  · have hdrop : p ∈ panels.dropLast := by
      have hi' : i < panels.dropLast.length := by rw [List.length_dropLast]; omega
      rw [← hget, ← List.getElem_dropLast hi']
      exact List.getElem_mem hi'
    simp [h p hdrop]
  · simp [hlast]

theorem exec_jobDefine_defines (q : Req) (s : State) (count mode src : Nat) (hq : Claims.Fresh 0x0204 q s) (hdef : s.job.state.defines = true)
    (hsome : 1 ≤ count) (hmost : count ≤ 4096) (hmode : mode ≤ 2) (hlo : 0x3400000000 ≤ src) (hhi : src + 2 * count ≤ 0x3800000000)
    (hunbound : s.bound = false) :
    let nums := (List.range count).map (fun i => fld (s.memRead (src + 2 * i) 2) 0 2)
    let seq : List (Fin 4096) := nums.map (Fin.ofNat 4096)
    let panels := seqPanels s.layout seq
    (∀ n ∈ nums, ∃ p ∈ s.layout.panels, p.slot.val = n) → (∀ p ∈ panels.dropLast, p.rpt ≠ 0) →
    (∀ t, seqTotals panels = some t → t.2 < 2 ^ 48) →
    q.payload = le 2 count ++ [BitVec.ofNat 8 mode, 0, 0, 0, 0, 0] ++ le 8 src →
    exec (.jobDefine q) s = .next ((Claims.ok { s.start q 0x0204 with job := { s.job with state := .defined, seq := seq, peMode := mode } }
      (totalsBytes (seqTotals panels))).deliver q 0x0204) := by
  intro nums seq panels hdefined hends hlines hp
  have hrun : exec (.jobDefine q) s = .next ((cmdJobDefine.run q (s.start q 0x0204)).deliver q 0x0204) :=
    congrArg _ (serve_of_fresh hq (by rw [hp]; rfl))
  have hcount : fld q.payload 0 2 = count := by
    rw [hp, List.append_assoc, fld_le]
    exact Nat.mod_eq_of_lt (by omega)
  have hpe : fld q.payload 2 1 = mode := by
    rw [hp, List.append_assoc, fld_append_right _ _ (by simp), length_le, List.cons_append, fld_cons_one]
    exact Nat.mod_eq_of_lt (by omega)
  have hsrc : fld q.payload 8 8 = src := by
    rw [hp, fld_append_right _ _ (by simp)]
    simp only [List.length_append, length_le, List.length_cons, List.length_nil, Nat.reduceAdd, Nat.sub_self, fld_le_end]
    exact Nat.mod_eq_of_lt (by omega)
  have hzero : zeros q.payload 3 5 = true := by rw [hp]; rfl
  have hzone : inZone src (2 * count) = true := inZone_of_le hlo hhi
  have hstate : (s.start q 0x0204).job.state.defines = true := hdef
  have hfree : (s.start q 0x0204).bound = false := hunbound
  have hnums : (List.range count).map (fun i => fld ((s.start q 0x0204).memRead (src + 2 * i) 2) 0 2) = nums := rfl
  have hpanels : seqPanels (s.start q 0x0204).layout (nums.map (Fin.ofNat 4096)) = panels := rfl
  have hundefined : (s.start q 0x0204).undefinedAt nums = none := State.undefinedAt_none (s := s.start q 0x0204) hdefined
  rw [hrun]
  simp only [cmdJobDefine, hcount, hpe, hsrc, hzero, hzone, hstate, hfree, hnums, hpanels]
  rw [checks_pass]
  · rcases htotals : seqTotals panels with _ | t
    · simp only [hundefined, endlessAt_none hends]
      rfl
    · have hshort : ¬ decide (2 ^ 48 ≤ t.2) = true := by simpa using hlines t htotals
      simp only [hundefined, endlessAt_none hends, if_neg hshort]
      rfl
  · simp [hmost, hmode]
    omega

/-! ### JOB_CLEAR (R451) -/

theorem State.autoFree_txn (before s : State) : (before.autoFree s).txn = s.txn := by
  refine foldl_keep State.txn _ (fun s t => ?_) _ s
  split <;> rfl

theorem exec_jobClear_discards (q : Req) (s : State) (hq : Claims.FreshOf 0x020A 0 q s) (hstate : s.job.state = .defined ∨ s.job.state = .stopped) :
    ∃ u : State, exec (.jobClear q) s = .next ((Claims.ok u).deliver q 0x020A) ∧ u.job = { s.job with state := .idle, seq := [] } ∧
      u.layout.panels = [] ∧ u.txn.newest.bindings = [] ∧ u.layout.planes = s.layout.planes ∧ u.layout.rows = s.layout.rows := by
  have hrun : exec (.jobClear q) s = .next ((cmdJobClear.run q (s.start q 0x020A)).deliver q 0x020A) :=
    congrArg _ (serve_of_fresh hq.1 (beq_iff_eq.2 hq.2))
  have hdefines : (s.start q 0x020A).job.state.defines = true := by
    show s.job.state.defines = true
    rcases hstate with h | h <;> rw [h] <;> rfl
  have hbusy : ((s.start q 0x020A).job.state == .idle) = false := by
    show (s.job.state == .idle) = false
    rcases hstate with h | h <;> rw [h] <;> rfl
  let w : State := { (s.start q 0x020A).setPanels [] with job := { s.job with seq := [], state := .idle } }
  have hclear : cmdJobClear.run q (s.start q 0x020A) = Claims.ok w.retireBindings := by
    simp only [cmdJobClear, hdefines, hbusy]
    rfl
  rw [hclear] at hrun
  refine ⟨_, hrun, State.autoFree_job .., ?_, ?_, ?_, ?_⟩
  · exact congrArg Layout.panels (State.autoFree_layout ..)
  · exact congrArg (fun x : Txn => x.newest.bindings) (State.autoFree_txn ..)
  · exact (congrArg Layout.planes (State.autoFree_layout _ _)).trans rfl
  · exact (congrArg Layout.rows (State.autoFree_layout _ _)).trans rfl

/-! ### JOB_STATUS (R466) -/

theorem State.jobStatus_fields (s : State) :
    let p := s.jobStatus
    p.length = 64 ∧ fld p 0 1 = s.job.state.code ∧ fld p 1 1 = s.job.reason.toNat ∧ fld p 12 4 = s.job.detail.toNat ∧
      fld p 56 8 = s.nowNs % 2 ^ 64 := by
  have hcode : s.job.state.code % 256 ^ 1 = s.job.state.code := by cases s.job.state <;> rfl
  refine ⟨?_, ?_, ?_, ?_, ?_⟩
  · simp [jobStatus]
  all_goals
    simp only [jobStatus, List.append_assoc]
    simp (disch := simp) only [fld_append_right, length_le, List.length_cons, List.length_nil, Nat.reduceAdd, Nat.reduceSub, fld_le, fld_le_end,
      hcode, toNat_mod_four_bytes]
  · exact fld_cons_one ..
  -- The time of the answer: eight bytes are 64 bits.
  rfl

theorem exec_jobStatus_answers (q : Req) (s : State) (hq : Claims.FreshOf 0x0200 0 q s) : ∃ p : List Byte,
    exec (.jobStatus q) s = .next ((Claims.ok (s.start q 0x0200) p).deliver q 0x0200) ∧ p.length = 64 ∧
    fld p 0 1 = s.job.state.code ∧ fld p 1 1 = s.job.reason.toNat ∧ fld p 12 4 = s.job.detail.toNat ∧ fld p 56 8 = s.nowNs % 2 ^ 64 :=
  ⟨(s.start q 0x0200).jobStatus, congrArg _ (serve_of_fresh hq.1 (beq_iff_eq.2 hq.2)), (s.start q 0x0200).jobStatus_fields⟩

/-! ### Outside IDLE, DEFINED and STOPPED -/

theorem exec_definition_badState (q : Req) (s : State) (hdef : s.job.state.defines = false) :
    (Claims.Fresh 0x0201 q s → q.payload = List.replicate 8 0 →
      exec (.planeDefine q) s = .next ((Ans.fail (s.start q 0x0201) .badState).deliver q 0x0201)) ∧
    (Claims.Fresh 0x0202 q s → q.payload = [0, 0, 1, 0, 0, 0, 0, 0] →
      exec (.rowDefine q) s = .next ((Ans.fail (s.start q 0x0202) .badState).deliver q 0x0202)) ∧
    (Claims.FreshOf 0x020A 0 q s → exec (.jobClear q) s = .next ((Ans.fail (s.start q 0x020A) .badState).deliver q 0x020A)) := by
  have hstate (op : Nat) : (s.start q op).job.state.defines = false := hdef
  refine ⟨fun hq hp => ?_, fun hq hp => ?_, fun hq => ?_⟩
  · have hrun : exec (.planeDefine q) s = .next ((cmdPlaneDefine.run q (s.start q 0x0201)).deliver q 0x0201) :=
      congrArg _ (serve_of_fresh hq (by rw [hp]; rfl))
    rw [hrun]
    simp only [cmdPlaneDefine, hp, hstate]
    rfl
  · have hrun : exec (.rowDefine q) s = .next ((cmdRowDefine.run q (s.start q 0x0202)).deliver q 0x0202) :=
      congrArg _ (serve_of_fresh hq (by rw [hp]; rfl))
    rw [hrun]
    simp only [cmdRowDefine, hp, hstate]
    rfl
  · have hrun : exec (.jobClear q) s = .next ((cmdJobClear.run q (s.start q 0x020A)).deliver q 0x020A) :=
      congrArg _ (serve_of_fresh hq.1 (beq_iff_eq.2 hq.2))
    rw [hrun]
    simp only [cmdJobClear, hstate]
    rfl

/-- Settles O28: each command by what it defines, and where it may not. -/
theorem jobDefinitionCompletes : Obligations.JobDefinitionCompletes := by
  unfold Obligations.JobDefinitionCompletes
  exact ⟨exec_planeDefine_sets, exec_rowDefine_assigns, exec_panelDefine_replaces, exec_panelDefine_removes, exec_jobDefine_defines,
    exec_jobClear_discards, exec_jobStatus_answers, exec_definition_badState⟩

end Sys2Proof.Machine
end

section
/-! PROOF. JOB_ARM, the arming steps and the readiness of rows (02 R33; 07 R160; 18 R453, R454, R466, R634; 24 R585, R586): O29. -/

namespace Sys2Proof.Machine

/-! ### What an accepted JOB_ARM leaves (R33, R585, R586) -/

theorem State.logWrite_ranges (s : State) (r : LogRec) : (s.logWrite r).fsv.ranges = s.fsv.ranges ∧ (s.logWrite r).fsv.power = s.fsv.power := by
  rw [logWrite]
  split <;> simp [drq]

theorem State.closeAll_closes (s : State) : s.closeAll.fsv.ranges = [] ∧ s.closeAll.fsv.power = false ∧ s.closeAll.layout = s.layout := by
  let w : State := { s with fsv := { s.fsv with ranges := [], power := false } }
  have hfold (l : List WasteRange) : (l.foldl State.logRange w).fsv.ranges = [] ∧ (l.foldl State.logRange w).fsv.power = false ∧
      (l.foldl State.logRange w).layout = s.layout :=
    ⟨foldl_keep (fun u => u.fsv.ranges) State.logRange (fun u r => (u.logWrite_ranges _).1) l w,
      foldl_keep (fun u => u.fsv.power) State.logRange (fun u r => (u.logWrite_ranges _).2) l w,
      foldl_keep State.layout State.logRange (fun u r => by simp [logRange]) l w⟩
  rw [closeAll]
  exact iteInduction (motive := fun u : State => u.fsv.ranges = [] ∧ u.fsv.power = false ∧ u.layout = s.layout) (fun _ => hfold _) fun _ => hfold _

theorem State.endTest_fsv (s : State) (reason : Nat) : (s.endTest reason).fsv = s.fsv ∧ (s.endTest reason).layout = s.layout := by
  rw [endTest]
  split <;> simp

theorem State.armLsd_ends (s : State) : s.armLsd.lsd.lasting = false ∧ s.armLsd.fsv = s.fsv ∧ s.armLsd.layout = s.layout := by
  refine ⟨?_, by simp [armLsd], by simp [armLsd]⟩
  rw [armLsd, encResume]
  split <;> rfl

/-- Edges that take effect change the web's state, post events and mark waste; nothing else. -/
def EdgesOnly (s u : State) : Prop := u = { s with lsd := u.lsd, mbx := u.mbx, fsv := { s.fsv with inbox := u.fsv.inbox } }

theorem EdgesOnly.of (s : State) (l : Lsd) (m : Mbx) (i : List FsvItem) :
    EdgesOnly s { s with lsd := l, mbx := m, fsv := { s.fsv with inbox := i } } := rfl

theorem EdgesOnly.refl (s : State) : EdgesOnly s s := rfl

theorem EdgesOnly.trans {s t u : State} (h₁ : EdgesOnly s t) (h₂ : EdgesOnly t u) : EdgesOnly s u :=
  Eq.trans h₂ (congrArg (fun v : State => { v with lsd := u.lsd, mbx := u.mbx, fsv := { v.fsv with inbox := u.fsv.inbox } }) h₁)

theorem State.edgesOnly_speedEval (s : State) : EdgesOnly s s.speedEval :=
  ite_rel (.refl s) (ite_rel (.refl s) (.of s ..))

theorem State.edgesOnly_reverseOpenRow (s : State) (r : Fin 16) : EdgesOnly s (s.reverseOpenRow r) := by
  unfold reverseOpenRow
  dsimp only
  split <;> rfl

theorem State.edgesOnly_motionEval (s : State) (tick : Nat) : EdgesOnly s (s.motionEval tick) := by
  have hreversed (t : State) (ht : EdgesOnly s t) (rows : List (Fin 16)) : EdgesOnly s (rows.foldl reverseOpenRow t) :=
    ht.trans (foldl_rel EdgesOnly.refl EdgesOnly.trans edgesOnly_reverseOpenRow rows t)
  unfold motionEval
  exact ite_rel (.refl s) (ite_rel (ite_rel (.of s ..) (.of s ..)) (ite_rel (.refl s) (hreversed _ (.of s ..) _)))

theorem State.edgesOnly_webSettle (s : State) : EdgesOnly s s.webSettle := by
  have hedge (s : State) (e : Edge) : EdgesOnly s (s.takeEdge e) :=
    EdgesOnly.trans (EdgesOnly.trans (.of s ..) (edgesOnly_motionEval ..)) (edgesOnly_speedEval _)
  have hstart : EdgesOnly s { s with lsd := { s.lsd with incoming := s.lsd.incoming.dropWhile fun e => decide (s.lsd.cfg.effective e ≤ s.tick) } } := rfl
  exact hstart.trans (foldl_rel EdgesOnly.refl EdgesOnly.trans hedge _ _)

theorem State.webSettle_layout (s : State) : s.webSettle.layout = s.layout := by
  rw [s.edgesOnly_webSettle]

theorem State.wakeChain_keeps (s : State) : s.wakeChain.job = s.job ∧ s.wakeChain.lsd = s.lsd ∧ s.wakeChain.fsv = s.fsv ∧
    s.wakeChain.mem = s.mem ∧ s.wakeChain.layout = s.layout := by
  simp [wakeChain]

theorem State.beginArm_spec (s : State) (o : Origin) :
    (s.beginArm o).job.state = .arming ∧ (s.beginArm o).job.armStep = 1 ∧ (s.beginArm o).job.armReq = some o ∧ (s.beginArm o).lsd.lasting = false ∧
      (s.beginArm o).fsv.ranges = [] ∧ (s.beginArm o).fsv.power = false ∧ (s.beginArm o).mem = s.mem ∧ (s.beginArm o).layout = s.layout := by
  obtain ⟨s1, hs1, hlasting, hranges, hpower, hmem, hlayout⟩ : ∃ s1, (s.webSettle.closeAll.endTest 2).armLsd = s1 ∧ s1.lsd.lasting = false ∧
      s1.fsv.ranges = [] ∧ s1.fsv.power = false ∧ s1.mem = s.mem ∧ s1.layout = s.layout := by
    obtain ⟨hranges, hpower, hclosed⟩ := s.webSettle.closeAll_closes
    obtain ⟨htest, htestLayout⟩ := s.webSettle.closeAll.endTest_fsv 2
    obtain ⟨hlasting, hfsv, harmed⟩ := (s.webSettle.closeAll.endTest 2).armLsd_ends
    refine ⟨_, rfl, hlasting, ?_, ?_, by simp, ?_⟩
    · rw [hfsv, htest, hranges]
    · rw [hfsv, htest, hpower]
    · rw [harmed, htestLayout, hclosed, webSettle_layout]
  let w : State := { s1 with
    fsv := { s1.fsv with stopWanted := none }
    job := { s1.job with state := .arming, armStep := 1, armReq := some o, stepSince := s1.aon, stopReqs := [] } }
  have hw : s.beginArm o = w.wakeChain := by rw [beginArm, hs1]
  obtain ⟨hjob, hlsd, hfsv, hwmem, hwlayout⟩ := w.wakeChain_keeps
  rw [hw, hjob, hlsd, hfsv, hwmem, hwlayout]
  exact ⟨rfl, rfl, rfl, hlasting, hranges, hpower, hmem, hlayout⟩

/-! ### JOB_ARM (R453) -/

theorem find?_finRange_eq_none {p : Fin 16 → Bool} (h : ∀ i, p i = false) : (List.finRange 16).find? p = none :=
  List.find?_eq_none.2 fun i _ => by rw [h i]; exact Bool.false_ne_true

theorem exec_jobArm_begins (q : Req) (s : State) (hq : Claims.FreshOf 0x0205 0 q s) (hstate : s.job.state = .defined ∨ s.job.state = .stopped)
    (hweb : s.lsd.configured = true) (haddress : s.chain.address.isSome = true) (hrow : ∃ r, s.assigned r = true)
    (hinterleave : ∀ p, s.interleaveBad p = false) (hscreen : ∀ p, s.screenBad p = false) (hpeer : s.geometryPeer = none)
    (hfault : s.armBlockedByFault = false) :
    ∃ u : State, exec (.jobArm q) s = .next ((Claims.accepted u).deliver q 0x0205) ∧ u.job.state = .arming ∧ u.job.armStep = 1 ∧
      u.job.armReq = some q.origin ∧ u.lsd.lasting = false ∧ u.fsv.ranges = [] ∧ u.fsv.power = false ∧ u.mem = s.mem ∧ u.layout = s.layout := by
  let w := s.start q 0x0205
  have hrun : exec (.jobArm q) s = .next ((cmdJobArm.run q w).deliver q 0x0205) := congrArg _ (serve_of_fresh hq.1 (beq_iff_eq.2 hq.2))
  have hmay : (w.job.state == .defined || w.job.state == .stopped) = true := by
    show (s.job.state == .defined || s.job.state == .stopped) = true
    rcases hstate with h | h <;> rw [h] <;> rfl
  have hheld : w.chain.address.isNone = false := by rw [← Option.not_isSome, show w.chain.address.isSome = true from haddress, Bool.not_true]
  have hany : (List.finRange 16).any w.assigned = true := by
    obtain ⟨r, hr⟩ := hrow
    exact List.any_eq_true.2 ⟨r, List.mem_finRange r, hr⟩
  have hbegin : cmdJobArm.run q w = Claims.accepted (w.beginArm q.origin) := by
    simp only [cmdJobArm]
    rw [checks_pass (by simp [hmay, hheld, hany, show w.lsd.configured = true from hweb])]
    simp only [find?_finRange_eq_none (p := w.interleaveBad) hinterleave, find?_finRange_eq_none (p := w.screenBad) hscreen,
      show w.geometryPeer = none from hpeer, show w.armBlockedByFault = false from hfault, Bool.false_eq_true, if_false]
    rfl
  rw [hbegin] at hrun
  exact ⟨_, hrun, w.beginArm_spec q.origin⟩

theorem exec_jobArm_unconfigured (q : Req) (s : State) (hq : Claims.FreshOf 0x0205 0 q s) (hweb : s.lsd.configured = false) :
    exec (.jobArm q) s = .next ((Ans.fail (s.start q 0x0205) .badState).deliver q 0x0205) := by
  have hrun : exec (.jobArm q) s = .next ((cmdJobArm.run q (s.start q 0x0205)).deliver q 0x0205) :=
    congrArg _ (serve_of_fresh hq.1 (beq_iff_eq.2 hq.2))
  rw [hrun]
  simp only [cmdJobArm, checks_cons, show (s.start q 0x0205).lsd.configured = false from hweb, Bool.not_false, if_true, ite_self]

/-! ### Arming steps and readiness (R454, R160, R634) -/

theorem exec_armingStep_of_arming {t : Nat} {s : State} (harming : s.job.state = .arming) :
    exec (.armingStep t) s = .next (match (s.at t).job.armStep with
      | 1 => (s.at t).armChain
      | 2 => (s.at t).armLanes
      | 3 => (s.at t).armIdentify
      | 4 => (s.at t).armHeads
      | 5 => (s.at t).armFlush
      | _ => (s.at t).armReady) := by
  have hgo : ((s.at t).job.state == .arming) = true := by rw [show (s.at t).job.state = .arming from harming]; rfl
  exact congrArg Host.Outcome.next (if_pos hgo)

theorem foldl_add_eq_zero {α : Type} {l : List α} {f : α → Nat} (h : ∀ a ∈ l, f a = 0) : l.foldl (fun n a => n + f a) 0 = 0 := by
  induction l with
  | nil => rfl
  | cons a l ih =>
    rw [List.foldl_cons, h a List.mem_cons_self]
    exact ih fun b hb => h b (List.mem_cons_of_mem _ hb)

theorem exec_armingStep_lanes (t : Nat) (s : State) (harming : s.job.state = .arming) (hstep : s.job.armStep = 2)
    (hup : ∀ c ∈ s.armConns, s.failedLanes c = 0 ∧ s.connUp c = true) :
    exec (.armingStep t) s = .next { s.at t with job := { s.job with armStep := 3, stepSince := max s.aon t } } := by
  have hbad : (s.at t).armConns.foldl (fun n c => n + (s.at t).failedLanes c) 0 = 0 :=
    foldl_add_eq_zero fun c hc => (hup c hc).1
  have hall : (s.at t).armConns.all (s.at t).connUp = true := List.all_eq_true.2 fun c hc => (hup c hc).2
  rw [exec_armingStep_of_arming harming]
  simp only [show (s.at t).job.armStep = 2 from hstep, State.armLanes]
  rw [if_neg (not_not.2 hbad), if_pos hall]
  rfl

theorem exec_armingStep_ready (t : Nat) (s : State) (harming : s.job.state = .arming) (hstep : s.job.armStep = 7)
    (hready : ∀ r, s.assigned r = true → (s.rows[r]).ready = true)
    (hactive : ∀ c ∈ s.armConns, ∀ l ∈ connLanes c, (s.lane (asLane l)).state = .active) :
    ∃ u, exec (.armingStep t) s = .next u ∧ u.job = { s.job with state := .armed, armStep := 0, armReq := none } ∧ Claims.Posts s u [0x0200] ∧
      u = { s.at t with job := u.job, mbx := u.mbx } := by
  let w : State := { s.at t with job := { s.job with state := .armed, armStep := 0, armReq := none } }
  have hgo : ((rowsWhere (s.at t).assigned).all (fun r => (s.at t).rows[r].ready) &&
      (s.at t).armConns.all (fun c => (connLanes c).all (fun l => ((s.at t).lane (asLane l)).state == .active))) = true := by
    refine Bool.and_eq_true_iff.2 ⟨List.all_eq_true.2 fun r hr => hready r (List.mem_filter.1 hr).2, List.all_eq_true.2 fun c hc => ?_⟩
    exact List.all_eq_true.2 fun l hl => beq_iff_eq.2 (hactive c hc l hl)
  have hrun : exec (.armingStep t) s = .next (w.jobResult s.job.armReq .armed 0 .ok 0) := by
    rw [exec_armingStep_of_arming harming]
    simp only [show (s.at t).job.armStep = 7 from hstep]
    exact congrArg Host.Outcome.next (if_pos hgo)
  have hresult : w.jobResult s.job.armReq .armed 0 .ok 0 = { w with mbx := (w.jobResult s.job.armReq .armed 0 .ok 0).mbx } := State.result_eq ..
  refine ⟨_, hrun, congrArg State.job hresult, posts_of_mbx (t := w) rfl (State.result_posts ..), ?_⟩
  rw [congrArg State.job hresult]
  exact hresult

theorem exec_rowReady_readies (r : Fin 16) (t : Nat) (s : State) (harming : s.job.state = .arming) (hstep : s.job.armStep = 7)
    (hassigned : s.assigned r = true) (hready : s.rowIsReady r = true) :
    exec (.rowReady r t) s = .next ((s.at t).updRow r (fun x => { x with ready := true })) := by
  have hgo : ((s.at t).job.state == .arming && (s.at t).job.armStep == 7 && (s.at t).assigned r && (s.at t).rowIsReady r) = true := by
    rw [show (s.at t).job.state = .arming from harming, show (s.at t).job.armStep = 7 from hstep, show (s.at t).assigned r = true from hassigned,
      show (s.at t).rowIsReady r = true from hready]
    rfl
  exact congrArg Host.Outcome.next (if_pos hgo)

/-- Settles O29: JOB_ARM by what it leaves, the steps by their conditions. -/
theorem armingCompletes : Obligations.ArmingCompletes := by
  unfold Obligations.ArmingCompletes
  exact ⟨exec_jobArm_begins, exec_armingStep_lanes, exec_armingStep_ready, exec_rowReady_readies, exec_jobArm_unconfigured⟩

end Sys2Proof.Machine
end

section
/-! PROOF. JOB_START, JOB_PAUSE, JOB_RESUME and JOB_STOP, PRINT_ENABLE, the ends of rows and of jobs, and the fault stop (02 R39; 18 R456 to R459,
R461, R463 to R466; 24 R580): O30. -/

namespace Sys2Proof.Machine

/-! ### JOB_START (R456, R457) -/

/-- The web's configuration stays. -/
def CfgKept (s u : State) : Prop := u.lsd.cfg = s.lsd.cfg

theorem CfgKept.refl (s : State) : CfgKept s s := rfl

theorem CfgKept.trans {s t u : State} (h₁ : CfgKept s t) (h₂ : CfgKept t u) : CfgKept s u := Eq.trans h₂ h₁

theorem CfgKept.of_lsd {s u : State} (h : u.lsd.cfg = s.lsd.cfg := by rfl) : CfgKept s u := h

theorem State.webSettle_cfg (s : State) : s.webSettle.lsd.cfg = s.lsd.cfg := by
  have hreverse (u : State) (r : Fin 16) : CfgKept u (u.reverseOpenRow r) := by
    unfold reverseOpenRow
    dsimp only
    split <;> exact .of_lsd
  have hreversed (u v : State) (h : CfgKept u v) (rows : List (Fin 16)) : CfgKept u (rows.foldl State.reverseOpenRow v) :=
    h.trans (foldl_rel CfgKept.refl CfgKept.trans hreverse rows v)
  have hmotion (u : State) (tick : Nat) : CfgKept u (u.motionEval tick) := by
    unfold motionEval
    exact ite_rel (.refl u) (ite_rel (ite_rel .of_lsd .of_lsd) (ite_rel (.refl u) (hreversed _ _ .of_lsd _)))
  have hspeed (u : State) : CfgKept u u.speedEval := ite_rel (.refl u) (ite_rel (.refl u) .of_lsd)
  have hedge (u : State) (e : Edge) : CfgKept u (u.takeEdge e) := CfgKept.trans (CfgKept.trans .of_lsd (hmotion _ _)) (hspeed _)
  exact CfgKept.trans (t := { s with lsd := { s.lsd with
    incoming := s.lsd.incoming.dropWhile fun e => decide (s.lsd.cfg.effective e ≤ s.tick) } }) .of_lsd
    (foldl_rel CfgKept.refl CfgKept.trans hedge _ _)

theorem exec_jobStart_held (q : Req) (s : State) (hq : Claims.FreshOf 0x0206 0 q s) (harmed : s.job.state = .armed) (hmode : s.job.peMode ≠ 0)
    (hlow : s.job.printEnable = false) :
    let w := (s.start q 0x0206).webSettle
    ∃ u : State, exec (.jobStart q) s = .next ((Claims.ok u).deliver q 0x0206) ∧ u.job = { s.job with state := .started } ∧
      u.lsd = { w.lsd with latchEnabled := false } ∧ u.mbx.outbox.length = w.mbx.outbox.length + 1 := by
  intro w
  have htaken : EdgesTaken (s.start q 0x0206) w := State.edgesTaken_webSettle _
  have hrun : exec (.jobStart q) s = .next ((cmdJobStart.run q (s.start q 0x0206)).deliver q 0x0206) :=
    congrArg _ (serve_of_fresh hq.1 (beq_iff_eq.2 hq.2))
  have hstate : ((s.start q 0x0206).job.state != .armed) = false := by rw [show (s.start q 0x0206).job.state = .armed from harmed]; rfl
  have henabled : ((s.start q 0x0206).job.peMode == 0 || (s.start q 0x0206).job.printEnable) = false := by
    rw [show (s.start q 0x0206).job.printEnable = false from hlow, beq_false_of_ne (show (s.start q 0x0206).job.peMode ≠ 0 from hmode)]
    rfl
  let u := (({ w with lsd := { w.lsd with latchEnabled := false } } : State).setJob .started).jobEvent none .ok
  have hheld : cmdJobStart.run q (s.start q 0x0206) = Claims.ok u := by
    simp only [cmdJobStart]
    rw [checks_pass (by simp [hstate])]
    simp only [henabled, Bool.false_and, Bool.false_eq_true, if_false]
    rfl
  rw [hheld] at hrun
  refine ⟨u, hrun, ?_, rfl, List.length_append⟩
  show { w.job with state := .started } = _
  rw [htaken.job]
  rfl

theorem exec_jobStart_latches (q : Req) (s : State) (hq : Claims.FreshOf 0x0206 0 q s) (harmed : s.job.state = .armed) (hmode : s.job.peMode = 0)
    (horigin : s.lsd.cfg.originMode ≠ 0) :
    ∃ u : State, exec (.jobStart q) s = .next ((Claims.ok u).deliver q 0x0206) ∧ u.job = { s.job with state := .started } ∧
      u.lsd.latchEnabled = true := by
  let w := (s.start q 0x0206).webSettle
  have htaken : EdgesTaken (s.start q 0x0206) w := State.edgesTaken_webSettle _
  have hrun : exec (.jobStart q) s = .next ((cmdJobStart.run q (s.start q 0x0206)).deliver q 0x0206) :=
    congrArg _ (serve_of_fresh hq.1 (beq_iff_eq.2 hq.2))
  have hstate : ((s.start q 0x0206).job.state != .armed) = false := by rw [show (s.start q 0x0206).job.state = .armed from harmed]; rfl
  have henabled : ((s.start q 0x0206).job.peMode == 0 || (s.start q 0x0206).job.printEnable) = true := by
    rw [show (s.start q 0x0206).job.peMode = 0 from hmode]
    rfl
  let u := (({ w with lsd := { w.lsd with latchEnabled := true } } : State).setJob .started).jobEvent none .ok
  have hcfg : (u.lsd.cfg.originMode == 0) = false := by
    rw [show u.lsd.cfg = s.lsd.cfg from (s.start q 0x0206).webSettle_cfg]
    exact beq_false_of_ne horigin
  have hstarted : cmdJobStart.run q (s.start q 0x0206) = Claims.ok u := by
    simp only [cmdJobStart]
    rw [checks_pass (by simp [hstate])]
    simp only [henabled]
    show Ans.mk (if (true && u.lsd.cfg.originMode == 0) = true then u.latch u.posNow u.nowNs else u) .. = _
    rw [hcfg]
    rfl
  rw [hstarted] at hrun
  refine ⟨u, hrun, ?_, rfl⟩
  show { w.job with state := .started } = _
  rw [htaken.job]
  rfl

/-! ### JOB_PAUSE and JOB_RESUME (R458, R459) -/

/-- The payload of a boundary by line. -/
theorem linePayload_fields {p : List Byte} {line : Nat} (hline : line < 2 ^ 48) (hp : p = List.replicate 8 0 ++ le 8 line) :
    fld p 0 1 = 0 ∧ zeros p 1 7 = true ∧ fld p 8 8 = line := by
  subst hp
  refine ⟨rfl, rfl, ?_⟩
  rw [fld_append_right _ _ (by simp), List.length_replicate, Nat.sub_self, fld_le_end]
  exact Nat.mod_eq_of_lt (by omega)

/-- Every row concerned has its lead. -/
theorem State.boundaryLine_lead {s : State} {line : Nat} (hlead : ∀ r, s.live r = true → s.lsd.rows[r].next + 7 ≤ s.effLine r line) :
    s.boundaryLine false line = .ok line := by
  have hshort : s.shortRow s.live line 8 = none := by
    refine List.findSome?_eq_none_iff.2 fun r hr => if_neg ?_
    have := hlead r (List.mem_filter.1 hr).2
    omega
  simp only [boundaryLine, hshort, Bool.false_eq_true, if_false]

theorem exec_jobPause_places (q : Req) (s : State) (line : Nat) (hq : Claims.Fresh 0x0207 q s) (hrunning : s.job.state = .running)
    (hmode : s.job.peMode ≠ 2) (hfree : s.job.pauseAt = none) (hline : line < 2 ^ 48)
    (hlead : ∀ r, s.live r = true → s.lsd.rows[r].next + 7 ≤ s.effLine r line) (hp : q.payload = List.replicate 8 0 ++ le 8 line) :
    ∃ u : State, exec (.jobPause q) s = .next ((Claims.ok u (le 8 line)).deliver q 0x0207) ∧ u.job.pauseAt = some line ∧ u.job.resumeAt = none ∧
      u.job.state = .running ∧ u = { s.start q 0x0207 with job := u.job } := by
  have hrun : exec (.jobPause q) s = .next ((cmdJobPause.run q (s.start q 0x0207)).deliver q 0x0207) :=
    congrArg _ (serve_of_fresh hq (by rw [hp]; rfl))
  obtain ⟨hflags, hzero, hfield⟩ := linePayload_fields hline hp
  have hblocked : ((s.start q 0x0207).job.state != .running || (s.start q 0x0207).job.peMode == 2) = false := by
    rw [show (s.start q 0x0207).job.state = .running from hrunning, beq_false_of_ne (show (s.start q 0x0207).job.peMode ≠ 2 from hmode)]
    rfl
  have hplace : (s.start q 0x0207).boundaryLine false line = .ok line := State.boundaryLine_lead (s := s.start q 0x0207) hlead
  let u : State := { s.start q 0x0207 with job := { s.job with
    pauseAt := some line, resumeAt := none, rows := s.job.rows.map (fun j => { j with pausePosted := false, resumePosted := false }) } }
  have hpause : cmdJobPause.run q (s.start q 0x0207) = Claims.ok u (le 8 line) := by
    simp only [cmdJobPause, hflags, hzero, hfield]
    rw [checks_pass]
    · simp only [State.placePause, show (s.start q 0x0207).job.pauseAt = none from hfree, show bit 0 0 = false from rfl, hplace,
        Option.isSome_none, Bool.false_eq_true, if_false]
      rfl
    · simp [hblocked]
      omega
  rw [hpause] at hrun
  exact ⟨u, hrun, rfl, rfl, hrunning, rfl⟩

theorem exec_jobResume_places (q : Req) (s : State) (p line : Nat) (hq : Claims.Fresh 0x0208 q s) (hrunning : s.job.state = .running)
    (hmode : s.job.peMode ≠ 2) (hpaused : s.job.pauseAt = some p) (hfree : s.job.resumeAt = none) (hbeyond : p < line) (hline : line < 2 ^ 48)
    (hlead : ∀ r, s.live r = true → s.lsd.rows[r].next + 7 ≤ s.effLine r line) (hp : q.payload = List.replicate 8 0 ++ le 8 line) :
    exec (.jobResume q) s = .next ((Claims.ok { s.start q 0x0208 with job := { s.job with resumeAt := some line } } (le 8 line)).deliver q 0x0208) := by
  have hrun : exec (.jobResume q) s = .next ((cmdJobResume.run q (s.start q 0x0208)).deliver q 0x0208) :=
    congrArg _ (serve_of_fresh hq (by rw [hp]; rfl))
  obtain ⟨hflags, hzero, hfield⟩ := linePayload_fields hline hp
  have hblocked : ((s.start q 0x0208).job.state != .running || (s.start q 0x0208).job.peMode == 2) = false := by
    rw [show (s.start q 0x0208).job.state = .running from hrunning, beq_false_of_ne (show (s.start q 0x0208).job.peMode ≠ 2 from hmode)]
    rfl
  have hplace : (s.start q 0x0208).boundaryLine false line = .ok line := State.boundaryLine_lead (s := s.start q 0x0208) hlead
  rw [hrun]
  simp only [cmdJobResume, hflags, hzero, hfield]
  rw [checks_pass]
  · simp only [State.placeResume, show (s.start q 0x0208).job.pauseAt = some p from hpaused, show (s.start q 0x0208).job.resumeAt = none from hfree,
      show bit 0 0 = false from rfl, show bit 0 1 = false from rfl, hplace, Bool.false_eq_true, if_false, if_neg (Nat.not_le.2 hbeyond)]
    rw [← hpaused]
    rfl
  · simp [hblocked]
    omega

/-! ### What a job stop leaves (R464) -/

/-- What the host, the board and the fault supervisor's decision show stays. -/
def StopKept (s u : State) : Prop := u.hif = s.hif ∧ u.mgt = s.mgt ∧ u.fsv.stopWanted = s.fsv.stopWanted

theorem StopKept.refl (s : State) : StopKept s s := ⟨rfl, rfl, rfl⟩

theorem StopKept.trans {s t u : State} (h₁ : StopKept s t) (h₂ : StopKept t u) : StopKept s u :=
  ⟨h₂.1.trans h₁.1, h₂.2.1.trans h₁.2.1, h₂.2.2.trans h₁.2.2⟩

theorem StopKept.foldl {α : Type} {f : State → α → State} (h : ∀ s a, StopKept s (f s a)) (l : List α) (s : State) : StopKept s (l.foldl f s) :=
  foldl_rel StopKept.refl StopKept.trans h l s

theorem State.stopKept_webSettle (s : State) : StopKept s s.webSettle := by
  rw [s.edgesOnly_webSettle]
  exact ⟨rfl, rfl, rfl⟩

theorem State.stopKept_autoFree (before s : State) : StopKept s (before.autoFree s) := by
  refine StopKept.foldl (fun u t => ?_) _ s
  exact ite_rel (R := StopKept) ⟨rfl, rfl, rfl⟩ (.refl u)

theorem State.stopKept_retireOlder (s : State) : StopKept s s.retireOlder := by
  unfold retireOlder
  split
  · exact .refl s
  · exact s.stopKept_autoFree { s with txn := { s.txn with older := none, eff := Vector.replicate 16 none } }

theorem State.stopKept_startCommit (s : State) (h : Fin 64) (o : Option Origin) : StopKept s (s.startCommit h o) := by
  have hfailed (u : State) : StopKept u (u.commitFailed h) := by
    simp [StopKept, commitFailed, detect, tellFsv]
  have hsent (u : State) : StopKept u (u.sendCommit h) := by
    simp [StopKept, sendCommit]
  exact ite_rel (R := StopKept) ⟨rfl, rfl, rfl⟩
    (ite_rel (R := StopKept) (StopKept.trans ⟨rfl, rfl, rfl⟩ (hfailed _)) (StopKept.trans ⟨rfl, rfl, rfl⟩ (hsent _)))

/-- The actions of a job stop, up to the job's own state. -/
def State.stopActions (s : State) : State :=
  let s1 := (List.finRange 16).foldl State.endRow s.webSettle
  let s2 := { s1 with chk := s1.chk.idle }
  let s3 := s2.armConns.foldl (fun s c => s.queueFlush c 1) s2
  (s3.retireOlder.retireBindings.commitAll.endCapture 1).clearPanic

theorem State.stopKept_stopActions (s : State) : StopKept s s.stopActions := by
  have hend (u : State) (r : Fin 16) : StopKept u (u.endRow r) := by simp [StopKept, endRow]
  have hflush (u : State) (c : Fin 4) : StopKept u (u.queueFlush c 1) := by
    rw [queueFlush]
    refine StopKept.foldl (fun v l => ?_) _ u
    exact ⟨rfl, rfl, rfl⟩
  have hcommit (u : State) : StopKept u u.commitAll := StopKept.foldl (fun v h => v.stopKept_startCommit h none) _ u
  have hcapture (u : State) : StopKept u (u.endCapture 1) := by simp [StopKept]
  have hpanic (u : State) : StopKept u u.clearPanic := by
    unfold clearPanic
    split
    · exact .refl u
    · exact ⟨rfl, rfl, rfl⟩
  have hbindings (u : State) : StopKept u u.retireBindings := u.stopKept_autoFree { u with txn := { u.txn with
    newest := { u.txn.newest with bindings := [] }, older := u.txn.older.map (fun g => { g with bindings := [] }) } }
  have hrows : StopKept s ((List.finRange 16).foldl State.endRow s.webSettle) := s.stopKept_webSettle.trans (StopKept.foldl hend _ _)
  unfold stopActions
  generalize (List.finRange 16).foldl State.endRow s.webSettle = s1 at hrows ⊢
  have hchk : StopKept s { s1 with chk := s1.chk.idle } := hrows
  dsimp only
  generalize ({ s1 with chk := s1.chk.idle } : State) = s2 at hchk ⊢
  have hflushed := hchk.trans (StopKept.foldl hflush s2.armConns s2)
  generalize s2.armConns.foldl (fun s c => s.queueFlush c 1) s2 = s3 at hflushed ⊢
  exact ((((hflushed.trans (stopKept_retireOlder _)).trans (hbindings _)).trans (hcommit _)).trans (hcapture _)).trans (hpanic _)

/-- The job is STOPPED, logged and reported to the requests that wait for its stop. -/
def State.stopAs (s : State) (reason : Byte) (st : Status) (detail : Nat) (fclass : Byte) : State :=
  let stops := s.job.stopReqs
  let s1 := { s with job := { s.job with
    state := .stopped, reason := reason, detail := BitVec.ofNat 32 detail, stopReqs := [], armReq := none
    stopPending := false, stopAt := none, pauseAt := none, resumeAt := none, stoppedAt := s.aon } }
  let s2 := s1.logStop reason fclass
  if stops.isEmpty then s2.jobResult none .stopped reason st detail
  else stops.foldl (fun s o => s.jobResult (some o) .stopped reason st detail) s2

theorem State.jobStopped_eq (s : State) (reason : Byte) (st : Status) (detail : Nat) (fclass : Byte) :
    s.jobStopped reason st detail fclass = s.stopActions.stopAs reason st detail fclass := by
  unfold jobStopped
  extract_lets s1 s2 s3 s4 s5 s6
  rw [show s.stopActions = s6 from rfl]
  clear_value s6
  rfl

theorem State.logStop_keeps (s : State) (reason fclass : Byte) :
    (s.logStop reason fclass).job = s.job ∧ (s.logStop reason fclass).hif = s.hif ∧
      (s.logStop reason fclass).fsv.stopWanted = s.fsv.stopWanted ∧
      ∀ b, s.mgt.alertStatus.getLsbD b = true → (s.logStop reason fclass).mgt.alertStatus.getLsbD b = true := by
  refine ⟨by simp [logStop], by simp [logStop], ?_, fun b hb => ?_⟩
  · rw [logStop, logWrite]
    split <;> rfl
  · rw [logStop, logWrite]
    split
    · show (s.mgt.alertStatus ||| 1#11 <<< 10).getLsbD b = true
      rw [BitVec.getLsbD_or, hb, Bool.true_or]
    · exact hb

theorem State.stopAs_spec (s : State) (reason : Byte) (st : Status) (detail : Nat) (fclass : Byte) : let u := s.stopAs reason st detail fclass
    u.job.state = .stopped ∧ u.job.reason = reason ∧ u.job.stopReqs = [] ∧ u.job.pauseAt = none ∧ u.job.resumeAt = none ∧ u.hif = s.hif ∧
      u.fsv.stopWanted = s.fsv.stopWanted ∧ ∀ b, s.mgt.alertStatus.getLsbD b = true → u.mgt.alertStatus.getLsbD b = true := by
  let v : State := { s with job := { s.job with
    state := .stopped, reason := reason, detail := BitVec.ofNat 32 detail, stopReqs := [], armReq := none
    stopPending := false, stopAt := none, pauseAt := none, resumeAt := none, stoppedAt := s.aon } }
  obtain ⟨hjob, hhif, hwanted, halert⟩ := v.logStop_keeps reason fclass
  obtain ⟨w, hw⟩ : ∃ w, w = v.logStop reason fclass := ⟨_, rfl⟩
  rw [← hw] at hjob hhif hwanted halert
  have hstop : s.stopAs reason st detail fclass =
      if s.job.stopReqs.isEmpty then w.jobResult none .stopped reason st detail
      else s.job.stopReqs.foldl (fun s o => s.jobResult (some o) .stopped reason st detail) w := by
    rw [hw]
    rfl
  have hkept : (s.stopAs reason st detail fclass).job = w.job ∧ (s.stopAs reason st detail fclass).hif = w.hif ∧
      (s.stopAs reason st detail fclass).fsv = w.fsv ∧ (s.stopAs reason st detail fclass).mgt = w.mgt := by
    rw [hstop]
    split <;> simp
  obtain ⟨hujob, huhif, hufsv, humgt⟩ := hkept
  intro u
  rw [show u.job = v.job from hujob.trans hjob, show u.hif = s.hif from huhif.trans hhif, show u.fsv = w.fsv from hufsv,
    show u.mgt = w.mgt from humgt]
  exact ⟨rfl, rfl, rfl, rfl, rfl, rfl, hwanted, halert⟩

/-- A stopped job: its state and reason, no boundary and no request left; what was reported stands. -/
theorem State.jobStopped_spec (s : State) (reason : Byte) (st : Status) (detail : Nat) (fclass : Byte) : let u := s.jobStopped reason st detail fclass
    u.job.state = .stopped ∧ u.job.reason = reason ∧ u.job.stopReqs = [] ∧ u.job.pauseAt = none ∧ u.job.resumeAt = none ∧ u.hif = s.hif ∧
      u.fsv.stopWanted = s.fsv.stopWanted ∧ ∀ b, s.mgt.alertStatus.getLsbD b = true → u.mgt.alertStatus.getLsbD b = true := by
  obtain ⟨hhif, hmgt, hwanted⟩ := s.stopKept_stopActions
  obtain ⟨hstate, hreason, hreqs, hpause, hresume, huhif, huwanted, halert⟩ := s.stopActions.stopAs_spec reason st detail fclass
  rw [jobStopped_eq]
  exact ⟨hstate, hreason, hreqs, hpause, hresume, huhif.trans hhif, huwanted.trans hwanted, fun b hb => halert b (by rw [hmgt]; exact hb)⟩

theorem State.stopNow_of_ready {s : State} (hready : s.job.state = .armed ∨ s.job.state = .started) (reason : Byte) (detail : Nat) (fclass : Byte) :
    s.stopNow reason detail fclass = s.jobStopped reason (stopStatus reason) detail fclass := by
  rcases hready with h | h <;> simp only [stopNow, h]

/-! ### JOB_STOP and MGMT_JOB_STOP (R461, R465, R597) -/

theorem State.armed_of_ready {s : State} (hready : s.job.state = .armed ∨ s.job.state = .started) : s.armed = true := by
  rcases hready with h | h <;> simp only [armed, h]

theorem exec_jobStop_ready (q : Req) (s : State) (hq : Claims.Fresh 0x0209 q s) (hready : s.job.state = .armed ∨ s.job.state = .started)
    (hp : q.payload = List.replicate 16 0) :
    ∃ u : State, exec (.jobStop q) s = .next ((Claims.accepted u).deliver q 0x0209) ∧ u.job.state = .stopped ∧ u.job.reason = 2 ∧
      u.job.stopReqs = [] ∧ u.job.pauseAt = none := by
  let w := (s.start q 0x0209).awaitStop q.origin
  have hrun : exec (.jobStop q) s = .next ((cmdJobStop.run q (s.start q 0x0209)).deliver q 0x0209) :=
    congrArg _ (serve_of_fresh hq (by rw [hp]; rfl))
  have hfields : fld q.payload 0 1 = 0 ∧ zeros q.payload 1 7 = true := by rw [hp]; exact ⟨rfl, rfl⟩
  have harmed : (s.start q 0x0209).armed = true := State.armed_of_ready (s := s.start q 0x0209) hready
  have hstop : cmdJobStop.run q (s.start q 0x0209) = Claims.accepted (w.stopNow reasonCommand) := by
    simp only [cmdJobStop, hfields, harmed]
    rw [checks_pass (by simp)]
    simp only [beq_self_eq_true, Bool.or_true, if_true]
    rfl
  rw [hstop, State.stopNow_of_ready (s := w) hready] at hrun
  obtain ⟨hstate, hreason, hreqs, hpause, -⟩ := w.jobStopped_spec reasonCommand (stopStatus reasonCommand) 0 0
  exact ⟨_, hrun, hstate, hreason, hreqs, hpause⟩

theorem exec_mgmtJobStop_ready (q : Req) (s : State) (hq : Claims.Fresh 0x0F00 q s) (hready : s.job.state = .armed ∨ s.job.state = .started)
    (hp : q.payload = [0x5A, 0xA5, 0, 0, 0, 0, 0, 0]) :
    ∃ u : State, exec (.mgmtJobStop q) s = .next ((Claims.accepted u).deliver q 0x0F00) ∧ u.job.state = .stopped ∧ u.job.reason = 5 ∧
      u.job.stopReqs = [] := by
  let w : State := { s.start q 0x0F00 with job := { s.job with stopReqs := s.job.stopReqs ++ [q.origin] } }
  have hrun : exec (.mgmtJobStop q) s = .next ((cmdMgmtJobStop.run q (s.start q 0x0F00)).deliver q 0x0F00) :=
    congrArg _ (serve_of_fresh hq (by rw [hp]; rfl))
  have hfields : fld q.payload 0 2 = 0xA55A ∧ zeros q.payload 2 6 = true := by rw [hp]; exact ⟨rfl, rfl⟩
  have harmed : (s.start q 0x0F00).armed = true := State.armed_of_ready (s := s.start q 0x0F00) hready
  have hstop : cmdMgmtJobStop.run q (s.start q 0x0F00) = Claims.accepted (w.stopNow reasonManagement) := by
    simp only [cmdMgmtJobStop, hfields, harmed]
    rw [checks_pass (by simp)]
    rfl
  rw [hstop, State.stopNow_of_ready (s := w) hready] at hrun
  obtain ⟨hstate, hreason, hreqs, -⟩ := w.jobStopped_spec reasonManagement (stopStatus reasonManagement) 0 0
  exact ⟨_, hrun, hstate, hreason, hreqs⟩

/-! ### Rows reach their stop line or their end (R461 to R463) -/

/-- Some events are posted; the job stays. -/
def PostsOnly (s u : State) : Prop := u.job = s.job ∧ u.layout = s.layout ∧ ∃ l, Claims.Posts s u l

theorem PostsOnly.refl (s : State) : PostsOnly s s := ⟨rfl, rfl, [], posts_nil s⟩

theorem State.postsOnly_panicEval (s : State) : PostsOnly s s.panicEval := by
  have hraise (r : Fin 16) : PostsOnly s (s.raisePanic r) := by
    unfold raisePanic
    split
    · exact .refl s
    · exact ⟨rfl, rfl, _, posts_post ..⟩
  have hclear : PostsOnly s s.clearPanic := by
    unfold clearPanic
    split
    · exact .refl s
    · exact ⟨rfl, rfl, _, posts_post ..⟩
  unfold panicEval
  refine ite_rel ?_ (.refl s)
  split
  · split
    · exact hraise _
    · exact .refl s
  · exact ite_rel hclear (.refl s)

theorem State.incomplete_keeps (s : State) (r : Fin 16) (e : Nat) :
    (s.incomplete r e).job = s.job ∧ (s.incomplete r e).layout = s.layout ∧ (s.incomplete r e).mbx = s.mbx := by
  unfold incomplete
  split
  · exact ⟨rfl, rfl, rfl⟩
  · split
    · exact ⟨rfl, rfl, rfl⟩
    · split <;> exact ⟨rfl, rfl, rfl⟩

/-- A row's end is noted: its flags, the way to STOPPING, and JOB_BOUNDARY. -/
def State.rowEnds (s : State) (r : Fin 16) (f : JobRow → JobRow) (kind line : Nat) : State := ((s.updJobRow r f).toStopping).boundary r kind line

theorem State.rowEnds_spec (s : State) (r : Fin 16) (f : JobRow → JobRow) (kind line : Nat) : let u := s.rowEnds r f kind line
    u.job = { s.job with rows := upd s.job.rows r f, state := if s.job.state = .running then .stopping else s.job.state } ∧ u.layout = s.layout ∧
      ∃ e ∈ u.mbx.outbox, e.code = 0x0201 := by
  have hposted (w : State) : ∃ e ∈ (w.boundary r kind line).mbx.outbox, e.code = 0x0201 :=
    ⟨_, List.mem_append_right _ List.mem_cons_self, rfl⟩
  intro u
  refine ⟨?_, ?_, hposted _⟩
  · show (s.updJobRow r f).toStopping.job = _
    rw [toStopping, show (s.updJobRow r f).job.state = s.job.state from rfl]
    by_cases h : s.job.state = .running
    · rw [if_pos (beq_iff_eq.2 h), if_pos h]
      rfl
    · rw [if_neg (fun hb => h (beq_iff_eq.1 hb)), if_neg h]
      rfl
  · show (s.updJobRow r f).toStopping.layout = _
    rw [toStopping]
    split <;> rfl

theorem exists_code_of_posts {s u : State} {l : List (BitVec 16)} {c : BitVec 16} (h : Claims.Posts s u l) (hs : ∃ e ∈ s.mbx.outbox, e.code = c) :
    ∃ e ∈ u.mbx.outbox, e.code = c := by
  obtain ⟨e, he, hc⟩ := hs
  have hmem : c ∈ u.mbx.outbox.map Ev.code := by
    rw [show u.mbx.outbox.map Ev.code = s.mbx.outbox.map Ev.code ++ l from h]
    exact List.mem_append_left _ (List.mem_map.2 ⟨e, he, hc⟩)
  exact List.mem_map.1 hmem

/-- A fate that has been reported stays reported. -/
theorem State.fateReported_at {s : State} {r : Fin 16} {n : Nat} (t : Nat) (h : s.fateReported r n = true) : (s.at t).fateReported r n = true := by
  have htime : s.aon / 2 ^ 31 ≤ (s.at t).aon / 2 ^ 31 := Nat.div_le_div_right (Nat.le_max_left ..)
  simp only [fateReported, Bool.and_eq_true, Bool.not_eq_true', List.any_eq_false, Bool.or_eq_true, decide_eq_true_eq, not_and, not_or] at h ⊢
  obtain ⟨hstarted, hpulses⟩ := h
  refine ⟨hstarted, fun p hp hline => ?_⟩
  obtain ⟨hout, hlate⟩ := hpulses p hp hline
  refine ⟨hout, fun hlt => hlate ?_⟩
  exact Nat.lt_of_le_of_lt htime hlt

theorem State.rowStop_spec (s : State) (r : Fin 16) (e : Nat) : let u := s.rowStop r e
    u.job = { s.job with rows := upd s.job.rows r (fun j => { j with stopped := true })
                         state := if s.job.state = .running then .stopping else s.job.state } ∧
      u.layout = s.layout ∧ ∃ e ∈ u.mbx.outbox, e.code = 0x0201 := by
  obtain ⟨hjob, hlayout, hposted⟩ := s.rowEnds_spec r (fun j => { j with stopped := true }) 2 e
  obtain ⟨hkeptJob, hkeptLayout, hkeptMbx⟩ := (s.rowEnds r (fun j => { j with stopped := true }) 2 e).incomplete_keeps r e
  obtain ⟨hpanicJob, hpanicLayout, l, hl⟩ := ((s.rowEnds r (fun j => { j with stopped := true }) 2 e).incomplete r e).postsOnly_panicEval
  exact ⟨hpanicJob.trans (hkeptJob.trans hjob), hpanicLayout.trans (hkeptLayout.trans hlayout),
    exists_code_of_posts hl (by rw [hkeptMbx]; exact hposted)⟩

theorem State.rowIsDone_spec (s : State) (r : Fin 16) (m : Nat) : let u := s.rowIsDone r m
    u.job.rows = upd s.job.rows r (fun j => { j with done := true }) ∧ ∃ e ∈ u.mbx.outbox, e.code = 0x0201 := by
  obtain ⟨hjob, -, hposted⟩ := s.rowEnds_spec r (fun j => { j with done := true }) 3 m
  obtain ⟨hpanicJob, -, l, hl⟩ := (s.rowEnds r (fun j => { j with done := true }) 3 m).postsOnly_panicEval
  exact ⟨congrArg Job.rows (hpanicJob.trans hjob), exists_code_of_posts hl hposted⟩

theorem exec_rowStopped_stops (r : Fin 16) (t : Nat) (s : State) (e : Nat) (hlive : s.live r = true) (hline : s.job.rows[r].stopLine = some e)
    (hfate : e = 0 ∨ s.fateReported r (e - 1) = true) :
    ∃ u, exec (.rowStopped r t) s = .next u ∧ (u.job.rows[r]).stopped = true ∧ u.live r = false ∧
      (u.job.state = if s.job.state = .running then .stopping else s.job.state) ∧ (∃ e ∈ u.mbx.outbox, e.code = 0x0201) := by
  have hstop : (s.at t).atStop r = some e := by
    rw [State.atStop, if_pos (show (s.at t).live r = true from hlive)]
    simp only [show (s.at t).job.rows[r].stopLine = some e from hline]
    exact if_pos (hfate.imp_right (State.fateReported_at t))
  have hrun : exec (.rowStopped r t) s = .next ((s.at t).rowStop r e) := by
    rw [show exec (.rowStopped r t) s = .next ((s.at t).stopCheck r) from rfl, State.stopCheck, hstop]
  obtain ⟨hjob, -, hposted⟩ := (s.at t).rowStop_spec r e
  have hstopped : (((s.at t).rowStop r e).job.rows[r]).stopped = true := by
    rw [hjob]
    simp only [getElem_upd_self]
  refine ⟨_, hrun, hstopped, ?_, congrArg Job.state hjob, hposted⟩
  rw [State.live, hstopped]
  exact Bool.and_false _

theorem exec_rowDone_ends (r : Fin 16) (t : Nat) (s : State) (m : Nat) (hlive : s.live r = true) (hlines : s.rowLines r = some (m + 1))
    (hfate : s.fateReported r m = true) :
    ∃ u, exec (.rowDone r t) s = .next u ∧ (u.job.rows[r]).done = true ∧ u.live r = false ∧ (∃ e ∈ u.mbx.outbox, e.code = 0x0201) := by
  have hend : (s.at t).atEnd r = some m := by
    rw [State.atEnd, if_pos (show (s.at t).live r = true from hlive)]
    simp only [show (s.at t).rowLines r = some (m + 1) from hlines]
    exact if_pos (State.fateReported_at t hfate)
  have hrun : exec (.rowDone r t) s = .next ((s.at t).rowIsDone r m) := by
    rw [show exec (.rowDone r t) s = execRowDone r t s from rfl, execRowDone]
    simp only [hend]
  obtain ⟨hrows, hposted⟩ := (s.at t).rowIsDone_spec r m
  have hdone : (((s.at t).rowIsDone r m).job.rows[r]).done = true := by rw [hrows, getElem_upd_self]
  refine ⟨_, hrun, hdone, ?_, hposted⟩
  rw [State.live, hdone, Bool.not_true, Bool.and_false, Bool.false_and]

/-! ### JOB_STOP of a running job (R461) -/

/-- The stop lines and the requests that wait for the stop stay. -/
def StopsKept (s u : State) : Prop :=
  u.job.stopPending = s.job.stopPending ∧ u.job.stopReqs = s.job.stopReqs ∧ ∀ k : Fin 16, (u.job.rows[k]).stopLine = (s.job.rows[k]).stopLine

theorem StopsKept.refl (s : State) : StopsKept s s := ⟨rfl, rfl, fun _ => rfl⟩

theorem StopsKept.trans {s t u : State} (h₁ : StopsKept s t) (h₂ : StopsKept t u) : StopsKept s u :=
  ⟨h₂.1.trans h₁.1, h₂.2.1.trans h₁.2.1, fun k => (h₂.2.2 k).trans (h₁.2.2 k)⟩

theorem State.stopsKept_stopCheck (s : State) (r : Fin 16) : StopsKept s (s.stopCheck r) := by
  unfold stopCheck
  split
  next e _ =>
    obtain ⟨hjob, -⟩ := s.rowStop_spec r e
    rw [StopsKept, hjob]
    exact ⟨rfl, rfl, fun k => getElem_upd_keep (g := JobRow.stopLine) rfl k⟩
  next => exact .refl s

theorem exec_jobStop_running (q : Req) (s : State) (hq : Claims.Fresh 0x0209 q s) (hrunning : s.job.state = .running)
    (hp : q.payload = List.replicate 16 0) :
    ∃ u : State, exec (.jobStop q) s = .next ((Claims.accepted u).deliver q 0x0209) ∧ u.job.stopPending = true ∧
      (∀ r, s.live r = true → u.job.rows[r].stopLine = some s.lsd.rows[r].next) ∧ u.job.stopReqs = s.job.stopReqs ++ [q.origin] := by
  let w := (s.start q 0x0209).awaitStop q.origin
  have hrun : exec (.jobStop q) s = .next ((cmdJobStop.run q (s.start q 0x0209)).deliver q 0x0209) :=
    congrArg _ (serve_of_fresh hq (by rw [hp]; rfl))
  have hfields : fld q.payload 0 1 = 0 ∧ zeros q.payload 1 7 = true := by rw [hp]; exact ⟨rfl, rfl⟩
  have harmed : (s.start q 0x0209).armed = true := by
    show s.armed = true
    simp only [State.armed, hrunning]
  have hstop : cmdJobStop.run q (s.start q 0x0209) = Claims.accepted (w.stopNow reasonCommand) := by
    simp only [cmdJobStop, hfields, harmed]
    rw [checks_pass (by simp)]
    simp only [beq_self_eq_true, Bool.or_true, if_true]
    rfl
  obtain ⟨v, hv, hpending, hreqs, hlines⟩ : ∃ v, w.stopNow reasonCommand = (List.finRange 16).foldl State.stopCheck v ∧ v.job.stopPending = true ∧
      v.job.stopReqs = s.job.stopReqs ++ [q.origin] ∧ ∀ r, s.live r = true → (v.job.rows[r]).stopLine = some s.lsd.rows[r].next := by
    rw [State.stopNow]
    simp only [show w.job.state = .running from hrunning]
    refine ⟨_, rfl, rfl, rfl, fun r hr => ?_⟩
    have hrow : (Vector.ofFn fun r : Fin 16 =>
        if w.live r then { w.job.rows[r] with stopLine := some w.lsd.rows[r].next } else w.job.rows[r])[r] =
          { w.job.rows[r] with stopLine := some w.lsd.rows[r].next } :=
      (Vector.getElem_ofFn r.isLt).trans (if_pos hr)
    exact congrArg JobRow.stopLine hrow
  obtain ⟨hkeptPending, hkeptReqs, hkeptLines⟩ : StopsKept v ((List.finRange 16).foldl State.stopCheck v) :=
    foldl_rel StopsKept.refl StopsKept.trans State.stopsKept_stopCheck _ v
  rw [hstop, hv] at hrun
  exact ⟨_, hrun, hkeptPending.trans hpending, fun r hr => (hkeptLines r).trans (hlines r hr), hkeptReqs.trans hreqs⟩

/-! ### PRINT_ENABLE (R457) -/

theorem exec_printEnable_reports (level : Bool) (edge t : Nat) (s : State) (hstood : edge + 10000 * 2 ^ 32 ≤ max s.aon t)
    (hchange : s.job.printEnable ≠ level) (hmode : s.job.peMode = 0) :
    ∃ u, exec (.printEnable level edge t) s = .next u ∧ u.job = { s.job with printEnable := level } ∧ Claims.Posts (s.at t).webSettle u [0x0202] ∧
      u = { (s.at t).webSettle with job := u.job, mbx := u.mbx } := by
  have htaken : EdgesTaken (s.at t) (s.at t).webSettle := State.edgesTaken_webSettle _
  obtain ⟨w, hw⟩ : ∃ w, w = (s.at t).webSettle := ⟨_, rfl⟩
  rw [← hw] at htaken ⊢
  have hgo : edge + us 10 ≤ w.aon ∧ w.job.printEnable ≠ level := by
    rw [htaken.aon, htaken.job, us_eq]
    exact ⟨hstood, hchange⟩
  let v : State := { w with job := { w.job with printEnable := level } }
  have hrun : exec (.printEnable level edge t) s = .next (v.peEvent 0 none) := by
    rw [show exec (.printEnable level edge t) s = execPrintEnable level edge t s from rfl, execPrintEnable, ← hw]
    simp only [if_pos hgo]
    exact congrArg Host.Outcome.next (if_pos (show w.job.peMode = 0 by rw [htaken.job]; exact hmode))
  refine ⟨_, hrun, ?_, posts_post .., rfl⟩
  show { w.job with printEnable := level } = _
  rw [htaken.job]
  rfl

/-! ### The end of a job and the fault stop (R464, R580) -/

theorem exec_jobEnd_ends (t : Nat) (s : State) (hstate : s.job.state = .running ∨ s.job.state = .stopping)
    (hdone : ∀ r, s.assigned r = true → (s.job.rows[r]).done = true) :
    ∃ u, exec (.jobEnd t) s = .next u ∧ u.job.state = .stopped ∧ u.job.reason = 1 ∧ u.job.stopReqs = [] ∧ u.job.pauseAt = none ∧
      u.job.resumeAt = none := by
  have hgo : (((s.at t).job.state == .running || (s.at t).job.state == .stopping) &&
      (rowsWhere (s.at t).assigned).all (fun r => !(s.at t).live r)) = true := by
    refine Bool.and_eq_true_iff.2 ⟨?_, List.all_eq_true.2 fun r hr => ?_⟩
    · show (s.job.state == .running || s.job.state == .stopping) = true
      rcases hstate with h | h <;> rw [h] <;> rfl
    · show (!(s.assigned r && !s.job.rows[r].done && !s.job.rows[r].stopped)) = true
      rw [hdone r (List.mem_filter.1 hr).2, Bool.not_true, Bool.and_false, Bool.false_and]
      rfl
  have hall : (rowsWhere (s.at t).assigned).all (fun r => (s.at t).job.rows[r].done) = true :=
    List.all_eq_true.2 fun r hr => hdone r (List.mem_filter.1 hr).2
  have hrun : exec (.jobEnd t) s = .next ((s.at t).jobStopped reasonEnd .ok 0 0) := by
    rw [show exec (.jobEnd t) s = execJobEnd t s from rfl, execJobEnd]
    simp only [if_pos hgo, if_pos hall]
  obtain ⟨hstopped, hreason, hreqs, hpause, hresume, -⟩ := (s.at t).jobStopped_spec reasonEnd .ok 0 0
  exact ⟨_, hrun, hstopped, hreason, hreqs, hpause, hresume⟩

theorem State.announceStop_keeps (s : State) (w : StopWanted) : (s.announceStop w).job = s.job ∧ (s.announceStop w).fsv = s.fsv := by
  simp [announceStop, chainBroadcast]

theorem exec_faultStop_stops (t : Nat) (s : State) (w : StopWanted) (hwanted : s.fsv.stopWanted = some w)
    (hready : s.job.state = .armed ∨ s.job.state = .started) :
    ∃ u, exec (.faultStop t) s = .next u ∧ u.job.state = .stopped ∧ u.job.reason = w.reason ∧ u.fsv.stopWanted = none ∧
      u.hif.globalFault.getLsbD 2 = true ∧ u.mgt.alertStatus.getLsbD 4 = true := by
  let s2 : State := { s.at t with fsv := { s.fsv with stopWanted := none } }
  let v := s2.announceStop w
  obtain ⟨hvjob, hvfsv⟩ : v.job = s.job ∧ v.fsv = s2.fsv := s2.announceStop_keeps w
  have hvready : v.job.state = .armed ∨ v.job.state = .started := by rw [hvjob]; exact hready
  have hrun : exec (.faultStop t) s = .next (v.jobStopped w.reason (stopStatus w.reason) 0 w.fclass) := by
    rw [← State.stopNow_of_ready hvready]
    rw [show exec (.faultStop t) s = execFaultStop t s from rfl, execFaultStop]
    simp only [show (s.at t).fsv.stopWanted = some w from hwanted]
    exact congrArg Host.Outcome.next (if_pos (State.armed_of_ready (s := s2) hready))
  obtain ⟨hstate, hreason, -, -, -, hhif, hkept, halert⟩ := v.jobStopped_spec w.reason (stopStatus w.reason) 0 w.fclass
  refine ⟨_, hrun, hstate, hreason, ?_, ?_, halert 4 (State.setAlert_sets _ 4 (by decide))⟩
  · rw [hkept, hvfsv]
  · rw [hhif]
    exact State.setGlobalFault_sets _ 2 (by decide)

theorem exec_faultStop_idle (t : Nat) (s : State) (w : StopWanted) (hwanted : s.fsv.stopWanted = some w) (hidle : s.armed = false) :
    exec (.faultStop t) s = .next { s.at t with fsv := { s.fsv with stopWanted := none } } := by
  let s2 : State := { s.at t with fsv := { s.fsv with stopWanted := none } }
  have hunarmed : ¬ s2.armed = true := by rw [show s2.armed = false from hidle]; exact Bool.false_ne_true
  rw [show exec (.faultStop t) s = execFaultStop t s from rfl, execFaultStop]
  simp only [show (s.at t).fsv.stopWanted = some w from hwanted]
  exact congrArg Host.Outcome.next (if_neg hunarmed)

/-- Settles O30: each command, row event and stop by the state it leaves. -/
theorem jobRunsAndEndsComplete : Obligations.JobRunsAndEndsComplete := by
  unfold Obligations.JobRunsAndEndsComplete
  exact ⟨⟨exec_jobStart_held, exec_jobStart_latches, exec_jobPause_places, exec_jobResume_places, exec_jobStop_ready, exec_jobStop_running,
      exec_mgmtJobStop_ready, exec_printEnable_reports⟩,
    exec_rowStopped_stops, exec_rowDone_ends, exec_jobEnd_ends, exec_faultStop_stops, exec_faultStop_idle⟩

end Sys2Proof.Machine
end

section
/-! PROOF. Trims of the oscillators, charts and memory retraining end (23 R562, R563, R565): O42. -/

namespace Sys2Proof.Machine

/-! ### Trims (R562) -/

/-- A trim code that waits comes into force, or waits on while a domain runs on FIO. -/
theorem State.fioTake_of_next {s : State} {code : Byte} (hnext : s.cal.fioNext = some code) :
    s.fioTake = s ∨ s.fioTake = { s with cal := { s.cal with fioCode := code, fioNext := none } } := by
  simp only [fioTake, hnext]
  split
  · exact .inl rfl
  · exact .inr rfl

theorem State.sourceBack_of_running {s : State} {i : Fin 5} (h : s.clk.sources[i] = .running) (clock : Nat) (domains : List (Fin 13)) :
    s.sourceBack i clock domains = s :=
  if_neg (by rw [h]; decide)

theorem State.sioBack_of_running {s : State} (h : s.clk.sources[(1 : Fin 5)] = .running) : s.sioBack = s :=
  if_neg (by rw [h]; decide)

theorem exec_fioTrim_succeeds (khz : Nat) (code : Byte) (t : Nat) (s : State) (hcan : s.canTrim 0 = true)
    (hrun : s.clk.sources[(0 : Fin 5)] = .running) (hreq : s.cal.fioReq = []) (hretry : s.cal.fioRetry = false) :
    ∃ u, exec (.fioTrim khz code true t) s = .next u ∧ u.cal.fioKhz = BitVec.ofNat 32 khz ∧ u.cal.fioRetry = false ∧
      (u.cal.fioCode = code ∧ u.cal.fioNext = none ∨ u.cal.fioNext = some code ∧ u.cal.fioCode = s.cal.fioCode) ∧ u = { s.at t with cal := u.cal } := by
  let v : State := { s.at t with cal := { s.cal with fioKhz := BitVec.ofNat 32 khz, fioNext := some code, fioRetry := false, fioReq := [] } }
  have htake : v.fioTake = v ∨ v.fioTake = { v with cal := { v.cal with fioCode := code, fioNext := none } } := State.fioTake_of_next rfl
  have hsource : v.fioTake.clk.sources[(0 : Fin 5)] = .running := by rcases htake with h | h <;> rw [h] <;> exact hrun
  have hexec : exec (.fioTrim khz code true t) s = .next v.fioTake := by
    rw [show exec (.fioTrim khz code true t) s = execFioTrim khz code true t s from rfl, execFioTrim]
    simp only [show (s.at t).canTrim 0 = true from hcan, show (s.at t).cal.fioRetry = false from hretry,
      show (s.at t).cal.fioReq = [] from hreq, if_true, Bool.false_eq_true, if_false]
    exact congrArg Host.Outcome.next (State.sourceBack_of_running hsource 2 [])
  refine ⟨_, hexec, ?_⟩
  rcases htake with h | h <;> rw [h]
  · exact ⟨rfl, rfl, .inr ⟨rfl, rfl⟩, rfl⟩
  · exact ⟨rfl, rfl, .inl ⟨rfl, rfl⟩, rfl⟩

theorem exec_fioTrim_pending (khz : Nat) (code : Byte) (t : Nat) (s : State) (hcan : s.canTrim 0 = true) (hretry : s.cal.fioRetry = false) :
    ∃ u d, exec (.fioTrim khz code false t) s = .next u ∧
      u.cal = { s.cal with fioKhz := BitVec.ofNat 32 khz, fioRetry := true } ∧ Claims.Tells s u [.detect d (max s.aon t)] ∧ d.outcome = .pending ∧
      u = { s.at t with cal := u.cal, fsv := u.fsv } := by
  have hexec : exec (.fioTrim khz code false t) s = .next (State.detect { s.at t with
      cal := { s.cal with fioKhz := BitVec.ofNat 32 khz, fioRetry := true } } (calDetect 0 .pending)) := by
    rw [show exec (.fioTrim khz code false t) s = execFioTrim khz code false t s from rfl, execFioTrim]
    simp only [show (s.at t).canTrim 0 = true from hcan, show (s.at t).cal.fioRetry = false from hretry, if_true, Bool.false_eq_true, if_false]
    rfl
  exact ⟨_, _, hexec, rfl, rfl, rfl, rfl⟩

theorem exec_fioTrim_lasting (khz : Nat) (code : Byte) (t : Nat) (s : State) (hcan : s.canTrim 0 = true) (hreq : s.cal.fioReq = [])
    (hretry : s.cal.fioRetry = true) :
    ∃ u d, exec (.fioTrim khz code false t) s = .next u ∧ u.cal.fioCode = s.cal.fioCode ∧ u.cal.fioRetry = false ∧
      u.cal.lasting = satAdd s.cal.lasting 1 ∧ Claims.Posts s u [0x0311] ∧ Claims.Tells s u [.detect d (max s.aon t)] ∧ d.outcome = .reported := by
  have hexec : exec (.fioTrim khz code false t) s = .next (State.trimLasting { s.at t with
      cal := { s.cal with fioKhz := BitVec.ofNat 32 khz, fioRetry := false, fioReq := [] } } 0 khz) := by
    rw [show exec (.fioTrim khz code false t) s = execFioTrim khz code false t s from rfl, execFioTrim]
    simp only [show (s.at t).canTrim 0 = true from hcan, show (s.at t).cal.fioRetry = true from hretry,
      show (s.at t).cal.fioReq = [] from hreq, if_true, Bool.false_eq_true, if_false]
    rfl
  exact ⟨_, calDetect 0 .reported, hexec, rfl, rfl, rfl, List.map_append, rfl, rfl⟩

theorem exec_sioTrim_succeeds (hz : Nat) (code : Byte) (t : Nat) (s : State) (hcan : s.canTrim 1 = true)
    (hrun : s.clk.sources[(1 : Fin 5)] = .running) (hreq : s.cal.sioReq = []) (hretry : s.cal.sioRetry = false) :
    exec (.sioTrim hz code true t) s = .next { s.at t with cal := { s.cal with sioHz := BitVec.ofNat 32 hz, sioCode := code } } := by
  let v : State := { s.at t with cal := { s.cal with sioHz := BitVec.ofNat 32 hz, sioCode := code, sioRetry := false, sioReq := [] } }
  have hexec : exec (.sioTrim hz code true t) s = .next v.sioBack := by
    rw [show exec (.sioTrim hz code true t) s = execSioTrim hz code true t s from rfl, execSioTrim]
    simp only [show (s.at t).canTrim 1 = true from hcan, show (s.at t).cal.sioRetry = false from hretry,
      show (s.at t).cal.sioReq = [] from hreq, if_true, Bool.false_eq_true, if_false]
    rfl
  rw [hexec, State.sioBack_of_running (s := v) hrun, show v = { s.at t with cal := { s.cal with
    sioHz := BitVec.ofNat 32 hz, sioCode := code, sioRetry := false, sioReq := [] } } from rfl, ← hreq, ← hretry]

theorem exec_sioTrim_lasting (hz : Nat) (code : Byte) (t : Nat) (s : State) (hcan : s.canTrim 1 = true) (hreq : s.cal.sioReq = [])
    (hretry : s.cal.sioRetry = true) :
    ∃ u, exec (.sioTrim hz code false t) s = .next u ∧ u.cal.sioCode = s.cal.sioCode ∧ u.cal.lasting = satAdd s.cal.lasting 1 ∧
      Claims.Posts s u [0x0311] := by
  have hexec : exec (.sioTrim hz code false t) s = .next (State.trimLasting { s.at t with
      cal := { s.cal with sioHz := BitVec.ofNat 32 hz, sioRetry := false, sioReq := [] } } 1 hz) := by
    rw [show exec (.sioTrim hz code false t) s = execSioTrim hz code false t s from rfl, execSioTrim]
    simp only [show (s.at t).canTrim 1 = true from hcan, show (s.at t).cal.sioRetry = true from hretry,
      show (s.at t).cal.sioReq = [] from hreq, if_true, Bool.false_eq_true, if_false]
    rfl
  exact ⟨_, hexec, rfl, rfl, List.map_append⟩

/-- XA is the reference of both trims. -/
theorem State.canTrim_eq_false {s : State} (h : s.clk.sources[(2 : Fin 5)] ≠ .running) (i : Fin 5) : s.canTrim i = false := by
  rw [canTrim, beq_false_of_ne h, Bool.and_false, Bool.false_and]

theorem exec_trim_without_xa (x : Nat) (code : Byte) (good : Bool) (t : Nat) (s : State) (h : s.clk.sources[(2 : Fin 5)] ≠ .running) :
    exec (.fioTrim x code good t) s = .next (s.at t) ∧ exec (.sioTrim x code good t) s = .next (s.at t) :=
  ⟨if_neg (Bool.eq_false_iff.1 (State.canTrim_eq_false (s := s.at t) h 0)),
    if_neg (Bool.eq_false_iff.1 (State.canTrim_eq_false (s := s.at t) h 1))⟩

/-! ### Charts (R565) -/

/-- Ending a chart takes its blocks from the compressors, and nothing else. -/
theorem State.chartEnd_eq (s : State) (c : Chart) :
    s.chartEnd c = { s with cal := { s.cal with chart := none }, codec := (s.chartEnd c).codec } :=
  foldl_rel (R := fun s u : State => u = { s with codec := u.codec }) (fun _ => rfl)
    (fun {s t u} h₁ h₂ => by rw [h₂, h₁]) (fun _ _ => rfl) _ { s with cal := { s.cal with chart := none } }

theorem State.chartEnd_comp (s : State) (c : Chart) : (s.chartEnd c).codec.comp = s.codec.comp :=
  foldl_keep (·.codec.comp) (fun u i => u.endRaw (chartKey c i)) (fun _ _ => rfl) _ { s with cal := { s.cal with chart := none } }

theorem State.chartEnd_chartBlock (s : State) (c : Chart) : (s.chartEnd c).chartBlock c = s.chartBlock c := by
  rw [chartEnd_eq]
  rfl

theorem State.chartStage_eq {s u : State} {c : Chart} {n i h : Nat} (hstaged : s.chartStage c n i = some (u, h)) :
    u = { s with hamper := u.hamper } := by
  unfold chartStage at hstaged
  dsimp only at hstaged
  split at hstaged
  · cases hstaged
  · split at hstaged
    · cases hstaged
    · split at hstaged
      · cases hstaged
      · cases hstaged
        rfl

/-- Each row of a chart gives one list, stored in the Hamper. -/
theorem State.chartRows_spec {s u : State} {c : Chart} {n i : Nat} {rows : List (Fin 16)} {lists : List (Nat × Nat)}
    (hstaged : s.chartRows c n i rows = some (u, lists)) : u = { s with hamper := u.hamper } ∧ lists.length = rows.length := by
  induction rows generalizing s i lists with
  | nil =>
    cases hstaged
    exact ⟨rfl, rfl⟩
  | cons r rest ih =>
    unfold chartRows at hstaged
    split at hstaged
    next => cases hstaged
    next v h hone =>
      obtain ⟨⟨w, tail⟩, hrest, hw⟩ := Option.map_eq_some_iff.1 hstaged
      cases hw
      obtain ⟨hrows, hlength⟩ := ih hrest
      exact ⟨by rw [hrows, chartStage_eq hone], congrArg (· + 1) hlength⟩

theorem State.chartFail_spec (s : State) (c : Chart) (st : Status) (detail : Nat) :
    s.chartFail c st detail = { s with mbx := (s.chartFail c st detail).mbx } ∧ Claims.Posts s (s.chartFail c st detail) [0x0310] :=
  ⟨s.result_eq .., s.result_posts ..⟩

theorem State.chartDone_spec (s : State) (c : Chart) (n : Nat) (lists : List (Nat × Nat)) :
    let u := s.chartDone c n lists
    u = { s with layout := u.layout, mbx := u.mbx } ∧ Claims.Posts s u [0x0310] ∧
      ∃ p ∈ u.layout.panels, p.slot = c.panel ∧ p.rpt = 1 ∧ p.length = chartLength c.kind n := by
  let p : Panel :=
    { slot := c.panel, length := chartLength c.kind n, rpt := 1, lists := (List.range 256).filterMap (fun k => lists.find? (fun e => e.1 = k)) }
  have hresult : s.chartDone c n lists = (s.setPanel p).result (some c.origin) 0x0310 clsSystem .ok 0
    (calDoneData 0 .ok (chartLength c.kind n) (lists.map (·.2))) := rfl
  have heq : s.chartDone c n lists = { s.setPanel p with mbx := (s.chartDone c n lists).mbx } := by
    rw [hresult]
    exact State.result_eq ..
  have hposts : Claims.Posts (s.setPanel p) (s.chartDone c n lists) [0x0310] := by
    rw [hresult]
    exact State.result_posts ..
  refine ⟨by rw [heq]; rfl, posts_of_mbx rfl hposts, p, ?_, rfl, rfl, rfl⟩
  rw [heq]
  exact List.mem_cons_self

theorem exec_chartBuilt_fails (t : Nat) (s : State) (c : Chart) (hchart : s.cal.chart = some c) :
    ∃ u, exec (.chartBuilt false t) s = .next u ∧ u.cal = { s.cal with chart := none } ∧ Claims.Posts s u [0x0310] ∧
      u.hamper = s.hamper ∧ u.layout = s.layout := by
  have hexec : exec (.chartBuilt false t) s = .next (((s.at t).chartEnd c).chartFail c .lastingFault 0) := by
    rw [show exec (.chartBuilt false t) s = execChartBuilt false t s from rfl]
    unfold execChartBuilt
    simp only [show (s.at t).cal.chart = some c from hchart]
    rfl
  obtain ⟨hfail, hposts⟩ := State.chartFail_spec ((s.at t).chartEnd c) c .lastingFault 0
  have hend := State.chartEnd_eq (s.at t) c
  exact ⟨_, hexec, by rw [hfail, hend]; rfl, posts_of_mbx (by rw [hend]; rfl) hposts, by rw [hfail, hend]; rfl, by rw [hfail, hend]; rfl⟩

theorem exec_chartBuilt_unverified (t : Nat) (s : State) (c : Chart) (hchart : s.cal.chart = some c) (hcomp : s.codec.comp ≠ 0)
    (hwaits : s.chartVerified c = false) : exec (.chartBuilt true t) s = .next (s.at t) := by
  rw [show exec (.chartBuilt true t) s = execChartBuilt true t s from rfl]
  unfold execChartBuilt
  simp only [show (s.at t).cal.chart = some c from hchart]
  exact if_pos (by rw [bne_iff_ne.2 (show (s.at t).codec.comp ≠ 0 from hcomp), show (s.at t).chartVerified c = false from hwaits]; rfl)

/-- A chart whose blocks are verified and that nothing blocks is staged row by row. -/
theorem exec_chartBuilt_verified (t : Nat) (s : State) (c : Chart) (hchart : s.cal.chart = some c) (hcomp : s.codec.comp ≠ 0)
    (hdone : s.chartVerified c = true) (hfree : s.chartBlock c = none) :
    exec (.chartBuilt true t) s = .next (match ((s.at t).chartEnd c).chartRows c (maskRows c.rows).length 0 (maskRows c.rows) with
      | none => ((s.at t).chartEnd c).chartFail c .noResource 0
      | some r => r.1.chartDone c (maskRows c.rows).length r.2) := by
  have hblock : ((s.at t).chartEnd c).chartBlock c = none := ((s.at t).chartEnd_chartBlock c).trans hfree
  have hworks : (((s.at t).chartEnd c).codec.comp == 0#8) = false := by
    rw [State.chartEnd_comp]
    exact beq_false_of_ne hcomp
  rw [show exec (.chartBuilt true t) s = execChartBuilt true t s from rfl]
  unfold execChartBuilt
  simp only [show (s.at t).cal.chart = some c from hchart, show (s.at t).chartVerified c = true from hdone, hworks, hblock,
    Bool.not_true, Bool.and_false, Bool.or_false, Bool.false_eq_true, if_false]
  cases ((s.at t).chartEnd c).chartRows c (maskRows c.rows).length 0 (maskRows c.rows) with
  | none => rfl
  | some r => rfl

theorem exec_chartBuilt_completes (t : Nat) (s : State) (c : Chart) (hchart : s.cal.chart = some c) (hcomp : s.codec.comp ≠ 0)
    (hdone : s.chartVerified c = true) (hfree : s.chartBlock c = none) :
    ∃ u, exec (.chartBuilt true t) s = .next u ∧ u.cal.chart = none ∧ Claims.Posts s u [0x0310] ∧
      match ((s.at t).chartEnd c).chartRows c (maskRows c.rows).length 0 (maskRows c.rows) with
      | none => u.hamper = s.hamper ∧ u.layout = s.layout
      | some r => u.hamper = r.1.hamper ∧ r.2.length = (maskRows c.rows).length ∧
          ∃ p ∈ u.layout.panels, p.slot = c.panel ∧ p.rpt = 1 ∧ p.length = chartLength c.kind (maskRows c.rows).length := by
  refine ⟨_, exec_chartBuilt_verified t s c hchart hcomp hdone hfree, ?_⟩
  have hend := State.chartEnd_eq (s.at t) c
  cases hrows : ((s.at t).chartEnd c).chartRows c (maskRows c.rows).length 0 (maskRows c.rows) with
  | none =>
    obtain ⟨hfail, hposts⟩ := State.chartFail_spec ((s.at t).chartEnd c) c .noResource 0
    exact ⟨by rw [hfail, hend], posts_of_mbx (by rw [hend]; rfl) hposts, by rw [hfail, hend]; rfl, by rw [hfail, hend]; rfl⟩
  | some r =>
    obtain ⟨v, lists⟩ := r
    obtain ⟨hv, hlength⟩ := State.chartRows_spec hrows
    obtain ⟨hend', hposts, hpanel⟩ := v.chartDone_spec c (maskRows c.rows).length lists
    have hcal : (v.chartDone c (maskRows c.rows).length lists).cal.chart = none := by rw [hend', hv, hend]
    exact ⟨hcal, posts_of_mbx (by rw [hv, hend]; rfl) hposts, by dsimp only; rw [hend'], hlength, hpanel⟩

/-- Without a chart its end is that of none. -/
theorem exec_chartBuilt_of_none (ok : Bool) (t : Nat) (s : State) (h : s.cal.chart = none) : exec (.chartBuilt ok t) s = .next (s.at t) := by
  rw [show exec (.chartBuilt ok t) s = execChartBuilt ok t s from rfl]
  unfold execChartBuilt
  simp only [show (s.at t).cal.chart = none from h]

/-! ### Memory retraining (R563) -/

theorem State.channelRetrained_passed (s : State) (ch : Fin 32) : State.channelRetrained 0 0 s ch = s := by
  have hzero : (0 : BitVec 32).getLsbD ch.val = false := BitVec.getLsbD_zero
  simp only [channelRetrained, hzero, Bool.false_eq_true, if_false]

theorem State.foldl_channelRetrained_passed (l : List (Fin 32)) (s : State) : l.foldl (State.channelRetrained 0 0) s = s :=
  foldl_rel (R := fun s u => u = s) (fun _ => rfl) (fun h₁ h₂ => h₂.trans h₁) State.channelRetrained_passed l s

/-- One result event for each request that waited. -/
theorem State.foldl_result_spec (l : List Origin) (code : BitVec 16) (cls : Fin 4) (st : Status) (detail : Nat) (data : List DataField) (s : State) :
    let u := l.foldl (fun s o => s.result (some o) code cls st detail data) s
    u = { s with mbx := u.mbx } ∧ Claims.Posts s u (l.map fun _ => code) := by
  refine ⟨foldl_rel (R := fun s u : State => u = { s with mbx := u.mbx }) (fun _ => rfl) (fun {s t u} h₁ h₂ => by rw [h₂, h₁])
    (fun s o => s.result_eq (some o) code cls st detail data none) l s, ?_⟩
  induction l generalizing s with
  | nil => exact posts_nil s
  | cons o l ih => exact posts_trans (s.result_posts ..) (ih (s.result (some o) code cls st detail data))

theorem exec_memRetrainDone_passed (t : Nat) (s : State) :
    ∃ u, exec (.memRetrainDone 0 0 t) s = .next u ∧ u.cal = { s.cal with retrain := [] } ∧
      Claims.Posts s u (s.cal.retrain.map (fun _ => 0x0310)) ∧ u = { s.at t with cal := u.cal, mbx := u.mbx } := by
  let v : State := { s.at t with cal := { s.cal with retrain := [] } }
  have hexec : exec (.memRetrainDone 0 0 t) s = .next
      (s.cal.retrain.foldl (fun s o => s.result (some o) 0x0310 clsSystem .ok 0 (calDoneData 1 .ok 0 [])) v) := by
    rw [show exec (.memRetrainDone 0 0 t) s = execMemRetrainDone 0 0 t s from rfl]
    unfold execMemRetrainDone
    simp only [State.foldl_channelRetrained_passed]
    cases hwait : s.cal.retrain with
    | nil =>
      have hsame : v = s.at t := by
        show ({ s.at t with cal := { s.cal with retrain := [] } } : State) = s.at t
        rw [← hwait]
        rfl
      simp only [show (s.at t).cal.retrain = [] from hwait]
      exact congrArg Host.Outcome.next hsame.symm
    | cons o l =>
      simp only [show (s.at t).cal.retrain = o :: l from hwait]
      rfl
  obtain ⟨heq, hposts⟩ := State.foldl_result_spec s.cal.retrain 0x0310 clsSystem .ok 0 (calDoneData 1 .ok 0 []) v
  exact ⟨_, hexec, by rw [heq], posts_of_mbx rfl hposts, by rw [heq]⟩

/-! ### The obligation -/

/-- Settles O42: one run of a trim, of a chart's end and of a retraining's end per case. -/
theorem trimsAndChartsComplete : Obligations.TrimsAndChartsComplete :=
  ⟨fun khz code t s hcan hrun hreq => ⟨exec_fioTrim_succeeds khz code t s hcan hrun hreq, exec_fioTrim_pending khz code t s hcan,
      exec_fioTrim_lasting khz code t s hcan hreq⟩,
    fun hz code t s hcan hrun hreq => ⟨exec_sioTrim_succeeds hz code t s hcan hrun hreq, exec_sioTrim_lasting hz code t s hcan hreq⟩,
    fun x code good t s h => exec_trim_without_xa x code good t s h,
    fun t s c hchart => ⟨exec_chartBuilt_fails t s c hchart, exec_chartBuilt_unverified t s c hchart,
      exec_chartBuilt_completes t s c hchart⟩,
    exec_chartBuilt_of_none, exec_memRetrainDone_passed⟩

end Sys2Proof.Machine
end

section
/-! PROOF. Errors of device memory and of SRAM arrays, sweeps, MEM_ECC and fences (20 R507 to R509, R511, R512, R519; 22 R553): O59. -/

namespace Sys2Proof.Machine

/-! ### DRAM errors (R507, R508, R509) -/

/-- What meets an error of a read: the state at its time, where the scrubber has counted the error of its pass. -/
theorem exec_dramReadError (a : Nat) (b : Fin 72) (double again : Bool) (reader : MemReader) (t : Nat) (s : State) :
    ∃ v : State, exec (.dramReadError a b double again reader t) s = .next (if double || s.miu.dead.contains (wordOf a)
      then v.dramDouble a again reader else v.dramSingle a b again reader) ∧
      v = { s.at t with miu := { s.miu with passErrors := v.miu.passErrors } } := by
  rw [show exec (.dramReadError a b double again reader t) s = execDramReadError a b double again reader t s from rfl]
  unfold execDramReadError
  dsimp only
  split
  next => exact ⟨_, rfl, rfl⟩
  next => exact ⟨s.at t, rfl, rfl⟩

/-- The planted error of a corrected word is gone. -/
theorem corrupted_filter (l : List Corruption) (target w : Nat) :
    (l.filter (fun c => !(c.target == target && c.addr == w))).any (fun c => c.target = target && c.addr = w) = false := by
  simp only [List.any_eq_false, List.mem_filter, Bool.not_eq_true]
  rintro c ⟨-, hc⟩
  have hother : ¬c.target = target ∨ ¬c.addr = w := by simpa using hc
  simpa using fun htarget => hother.resolve_left (not_not.2 htarget)

theorem State.dramSingle_transient (s : State) (a : Nat) (b : Fin 72) (reader : MemReader) : let u := s.dramSingle a b false reader
    u.miu.ceTransient = satAdd s.miu.ceTransient 1 ∧ (u.miu.eccPosts[(0 : Fin 8)]).count = (s.miu.eccPosts[(0 : Fin 8)]).count + 1 ∧
      u.mbx = s.mbx ∧ (∃ d, u.fsv.inbox = s.fsv.inbox ++ [.detect d s.aon] ∧ d.outcome = .transient) ∧
      u.miu.corrupted 0 (wordOf a) = false := by
  refine ⟨rfl, ?_, rfl, ⟨_, rfl, rfl⟩, corrupted_filter ..⟩
  show ((upd s.miu.eccPosts 0 _)[(0 : Fin 8)]).count = _
  rw [getElem_upd_self]
  rfl

theorem State.dramSingle_lasting (s : State) (a : Nat) (b : Fin 72) (reader : MemReader) (hplanted : s.miu.corrupted 0 (wordOf a) = false)
    (hnew : s.miu.stuck.any (fun e => e.1 = wordOf a) = false) (hroom : s.miu.stuck.length < 1024) : let u := s.dramSingle a b true reader
    u.miu.ceLasting = satAdd s.miu.ceLasting 1 ∧ u.miu.stuck = s.miu.stuck ++ [(wordOf a, b)] ∧ Claims.Posts s u [0x02F0] ∧
      ∃ d, u.fsv.inbox = s.fsv.inbox ++ [.detect d s.aon] ∧ d.outcome = .masked := by
  have hunlisted (p : Fin 72 → Bool) : s.miu.stuck.any (fun e => decide (e.1 = wordOf a) && p e.2) = false := by
    refine List.any_eq_false.2 fun e he => ?_
    rw [Bool.not_eq_true, Bool.eq_false_iff.2 (List.any_eq_false.1 hnew e he), Bool.false_and]
  unfold dramSingle
  simp only [hplanted, hunlisted (fun x => decide (x = b)), hunlisted (fun x => decide (x ≠ b)), Bool.not_false, Bool.and_true,
    Bool.false_and, Bool.false_or, Bool.false_eq_true, if_true, if_false, Nat.not_le.2 hroom]
  exact ⟨rfl, rfl, List.map_append, _, rfl, rfl⟩

/-- A codec or a DMA read that meets an uncorrectable word: lasting when its second read fails too. -/
theorem State.dramDouble_handed (s : State) (a : Nat) (again : Bool) (reader : MemReader) (hreader : reader = .cdx ∨ reader = .dma) :
    let u := s.dramDouble a again reader
    let last := again || s.miu.dead.contains (wordOf a) || s.miu.corrupted 0 (wordOf a)
    u.miu.ue = satAdd s.miu.ue (if last then 2 else 1) ∧ (last = true → wordOf a ∈ u.miu.poison) ∧ Claims.Posts s u [0x02F0] ∧
      ∃ d, u.fsv.inbox = s.fsv.inbox ++ [.detect d s.aon] ∧ d.outcome = if last then .reported else .transient := by
  have hspc : (reader == .spc) = false := by rcases hreader with rfl | rfl <;> rfl
  have hnone (v : State) : v.poisonLasting a reader = v := by rcases hreader with rfl | rfl <;> rfl
  unfold dramDouble
  simp only [hspc, hnone, bne, Bool.or_false, Bool.not_false, Bool.and_true, ite_self]
  refine ⟨rfl, fun hlast => ?_, List.map_append, _, rfl, rfl⟩
  show wordOf a ∈ if (!(again || s.miu.dead.contains (wordOf a) || s.miu.corrupted 0 (wordOf a)) || s.miu.poison.contains (wordOf a)) = true
    then s.miu.poison else wordOf a :: s.miu.poison
  rw [hlast, Bool.not_true, Bool.false_or]
  split
  next hin => exact List.contains_iff_mem.1 hin
  next => exact List.mem_cons_self

theorem exec_dramReadError_transient (a : Nat) (b : Fin 72) (reader : MemReader) (t : Nat) (s : State)
    (hlive : s.miu.dead.contains (wordOf a) = false) :
    ∃ u d, exec (.dramReadError a b false false reader t) s = .next u ∧ u.miu.ceTransient = satAdd s.miu.ceTransient 1 ∧
      (u.miu.eccPosts[(0 : Fin 8)]).count = (s.miu.eccPosts[(0 : Fin 8)]).count + 1 ∧ Claims.Posts s u [] ∧
      Claims.Tells s u [.detect d (max s.aon t)] ∧ d.outcome = .transient ∧ u.miu.corrupted 0 (wordOf a) = false := by
  obtain ⟨v, hexec, hv⟩ := exec_dramReadError a b false false reader t s
  rw [hlive] at hexec
  obtain ⟨hcount, hpost, hmbx, ⟨d, htold, houtcome⟩, hgone⟩ := v.dramSingle_transient a b reader
  refine ⟨_, d, hexec, hcount.trans (by rw [hv]), hpost.trans (by rw [hv]), posts_of_mbx (hmbx.trans (by rw [hv]; rfl)) (posts_nil _),
    htold.trans (by rw [hv]; rfl), houtcome, hgone⟩

theorem exec_dramReadError_stuck (a : Nat) (b : Fin 72) (reader : MemReader) (t : Nat) (s : State)
    (hlive : s.miu.dead.contains (wordOf a) = false) (hplanted : s.miu.corrupted 0 (wordOf a) = false)
    (hnew : s.miu.stuck.any (fun e => e.1 = wordOf a) = false) (hroom : s.miu.stuck.length < 1024) :
    ∃ u d, exec (.dramReadError a b false true reader t) s = .next u ∧ u.miu.ceLasting = satAdd s.miu.ceLasting 1 ∧
      u.miu.stuck = s.miu.stuck ++ [(wordOf a, b)] ∧ Claims.Posts s u [0x02F0] ∧ Claims.Tells s u [.detect d (max s.aon t)] ∧
      d.outcome = .masked := by
  obtain ⟨v, hexec, hv⟩ := exec_dramReadError a b false true reader t s
  rw [hlive] at hexec
  obtain ⟨hcount, hstuck, hposts, d, htold, houtcome⟩ :=
    v.dramSingle_lasting a b reader (by rw [hv]; exact hplanted) (by rw [hv]; exact hnew) (by rw [hv]; exact hroom)
  exact ⟨_, d, hexec, hcount.trans (by rw [hv]), hstuck.trans (by rw [hv]), posts_of_mbx (by rw [hv]; rfl) hposts,
    htold.trans (by rw [hv]; rfl), houtcome⟩

theorem exec_dramReadError_double (a : Nat) (b : Fin 72) (again : Bool) (reader : MemReader) (t : Nat) (s : State)
    (hreader : reader = .cdx ∨ reader = .dma) :
    ∃ u d, exec (.dramReadError a b true again reader t) s = .next u ∧ (let last := again || s.miu.dead.contains (wordOf a) || s.miu.corrupted 0 (wordOf a)
      u.miu.ue = satAdd s.miu.ue (if last then 2 else 1) ∧ (last = true → wordOf a ∈ u.miu.poison) ∧
      d.outcome = if last then .reported else .transient) ∧
      Claims.Posts s u [0x02F0] ∧ Claims.Tells s u [.detect d (max s.aon t)] := by
  obtain ⟨v, hexec, hv⟩ := exec_dramReadError a b true again reader t s
  rw [Bool.true_or, if_pos rfl] at hexec
  have hdead : v.miu.dead = s.miu.dead := by rw [hv]
  have hplanted : v.miu.corrupted 0 (wordOf a) = s.miu.corrupted 0 (wordOf a) := by rw [hv]; rfl
  obtain ⟨hue, hpoison, hposts, d, htold, houtcome⟩ := v.dramDouble_handed a again reader hreader
  rw [hdead, hplanted] at hue hpoison houtcome
  exact ⟨_, d, hexec, ⟨hue.trans (by rw [hv]), hpoison, houtcome⟩, posts_of_mbx (by rw [hv]; rfl) hposts, htold.trans (by rw [hv]; rfl)⟩

/-! ### SRAM arrays (R511, R512, R513) -/

theorem exec_sramReadError_corrected (arr : SramArray) (a t : Nat) (s : State) : ∃ u d, exec (.sramReadError arr a false false t) s = .next u ∧
    u.miu.sramCe = satAdd s.miu.sramCe 1 ∧ Claims.Posts s u [] ∧ Claims.Tells s u [.detect d (max s.aon t)] ∧ d.outcome = .transient :=
  ⟨_, _, rfl, rfl, (List.append_nil _).symm, rfl, rfl⟩

theorem exec_sramReadError_engine (a t : Nat) (again : Bool) (s : State) : ∃ u, exec (.sramReadError .engine a true again t) s = .next u ∧
    u.miu.sramUe = satAdd s.miu.sramUe 1 ∧ Claims.Posts s u [0x02F0] ∧ u.fsv = s.fsv :=
  ⟨_, rfl, rfl, List.map_append, rfl⟩

/-- With nothing planted, a sweep only notes its time. -/
theorem exec_sramSweep_clean (arr : SramArray) (t : Nat) (s : State) (hclean : s.miu.corrupt = []) :
    ∃ u, exec (.sramSweep arr t) s = .next u ∧ u.miu.sweptAt[(arrayCode arr - 1) % 7]? = some (max s.aon t) ∧
      u = { s.at t with miu := { s.miu with sweptAt := u.miu.sweptAt } } := by
  let i : Fin 7 := ⟨(arrayCode arr - 1) % 7, Nat.mod_lt _ (by omega)⟩
  refine ⟨{ s.at t with miu := { s.miu with sweptAt := s.miu.sweptAt.set i (max s.aon t) } }, ?_, ?_, rfl⟩
  · show Host.Outcome.next (((s.miu.corrupt).filter _).foldl _ _) = _
    rw [hclean]
    rfl
  · show (s.miu.sweptAt.set i (max s.aon t))[i.val]? = _
    rw [Vector.getElem?_eq_getElem i.isLt, Vector.getElem_set_self]

/-! ### MEM_ECC and fences (R519, R553) -/

theorem exec_memEcc (m : Fin 8) (t : Nat) (s : State) :
    ((s.miu.eccPosts[m]).due (max s.aon t) = false → exec (.memEcc m t) s = .next (s.at t)) ∧
    ((s.miu.eccPosts[m]).due (max s.aon t) = true → ∃ u, exec (.memEcc m t) s = .next u ∧ Claims.Posts s u [0x02F0] ∧
      u.miu = { s.miu with eccPosts := s.miu.eccPosts.set m { EccPost.init with postedAt := some (max s.aon t) } }) :=
  ⟨fun hearly => if_neg (Bool.eq_false_iff.1 hearly), fun hdue => ⟨_, if_pos hdue, List.map_append, rfl⟩⟩

theorem exec_fenceViolation (g : Agent) (a t : Nat) (s : State) :
    (fenceAllows g a = true → exec (.fenceViolation g a t) s = .next (s.at t)) ∧
    (fenceAllows g a = false → ∃ u d, exec (.fenceViolation g a t) s = .next u ∧ u.boot.fenceRefused = satAdd s.boot.fenceRefused 1 ∧
      u.mem = s.mem ∧ Claims.Tells s u [.detect d (max s.aon t)] ∧ d.outcome = .detected ∧ d.stops = true) :=
  ⟨fun hallowed => if_pos hallowed, fun hrefused => ⟨_, _, if_neg (Bool.eq_false_iff.1 hrefused), rfl, rfl, rfl, rfl, rfl⟩⟩

/-! ### The obligation -/

/-- Settles O59: one run of each event per kind of error. -/
theorem memoryErrorsComplete : Obligations.MemoryErrorsComplete :=
  ⟨fun a b reader t s hlive => ⟨exec_dramReadError_transient a b reader t s hlive, exec_dramReadError_stuck a b reader t s hlive⟩,
    exec_dramReadError_double, exec_sramReadError_corrected, exec_sramReadError_engine, exec_sramSweep_clean, exec_memEcc, exec_fenceViolation⟩

end Sys2Proof.Machine
end

section
/-! PROOF. The fault supervisor: its log, what it takes in, waste ranges and WASTE, and faults of peers (15 R371, R372; 17 R441, R442; 24 R577,
R578, R580, R582, R585, R586): O60. -/

namespace Sys2Proof.Machine

/-! ### LOG_STATUS and LOG_READ (R441, R442) -/

theorem exec_logStatus_answers (q : Req) (s : State) (hq : Claims.FreshOf 0x0800 0 q s) :
    ∃ p, exec (.logStatus q) s = .next ((Claims.ok (s.start q 0x0800) p).deliver q 0x0800) ∧
      p.length = 32 ∧ fld p 16 4 = 262144 ∧ fld p 20 4 = s.fsv.lost.toNat ∧ fld p 24 8 = s.nowNs % 2 ^ 64 := by
  let p := le 8 s.fsv.oldest ++ le 8 s.fsv.newest ++ le 4 logCapacity ++ le 4 s.fsv.lost.toNat ++ le 8 s.nowNs
  refine ⟨p, congrArg _ (serve_of_fresh hq.1 (beq_iff_eq.2 hq.2)), by simp [p], ?_, ?_, ?_⟩
  · rw [show p = (le 8 s.fsv.oldest ++ le 8 s.fsv.newest) ++ (le 4 logCapacity ++ (le 4 s.fsv.lost.toNat ++ le 8 s.nowNs)) by
      simp only [p, List.append_assoc], fld_append_right _ _ (by simp), show 16 - _ = 0 by simp, fld_le]
    rfl
  · rw [show p = (le 8 s.fsv.oldest ++ le 8 s.fsv.newest ++ le 4 logCapacity) ++ (le 4 s.fsv.lost.toNat ++ le 8 s.nowNs) by
      simp only [p, List.append_assoc], fld_append_right _ _ (by simp), show 20 - _ = 0 by simp, fld_le, toNat_mod_four_bytes]
  · rw [fld_append_right _ _ (by simp), show 24 - _ = 0 by simp, fld_le_end]
    rfl

/-- The payload of LOG_READ. -/
def logReadPayload (seq n dst : Nat) : List Byte := le 8 seq ++ le 4 n ++ [0, 0, 0, 0] ++ le 8 dst

theorem logReadPayload_fields {seq n dst : Nat} (hseq : seq < 2 ^ 64) (hn : n ≤ 65536) (hdst : dst < 2 ^ 64) :
    fld (logReadPayload seq n dst) 0 8 = seq ∧ fld (logReadPayload seq n dst) 8 4 = n ∧ zeros (logReadPayload seq n dst) 12 4 = true ∧
      fld (logReadPayload seq n dst) 16 8 = dst := by
  have hassoc : logReadPayload seq n dst = le 8 seq ++ (le 4 n ++ ([0, 0, 0, 0] ++ le 8 dst)) := by
    simp only [logReadPayload, List.append_assoc]
  refine ⟨?_, ?_, ?_, ?_⟩
  · rw [hassoc, fld_le]
    exact Nat.mod_eq_of_lt hseq
  · rw [hassoc, fld_append_right _ _ (by simp), show 8 - _ = 0 by simp, fld_le]
    exact Nat.mod_eq_of_lt (by omega)
  · rfl
  · rw [logReadPayload, fld_append_right _ _ (by simp), show 16 - _ = 0 by simp, fld_le_end]
    exact Nat.mod_eq_of_lt hdst

/-- The records that a read from `seq` of at most `n` answers, and their head. -/
def Fsv.recordsFrom (f : Fsv) (seq n : Nat) : List LogRec := (f.log.drop (max seq f.oldest - f.oldest)).take n
def Fsv.readHead (f : Fsv) (seq n : Nat) : List Byte := le 8 (max seq f.oldest) ++ le 4 (f.recordsFrom seq n).length ++ [0, 0, 0, 0]

theorem exec_logRead_answers (q : Req) (s : State) (seq n : Nat) (hq : Claims.Fresh 0x0801 q s) (hseq : seq < 2 ^ 64) (hn : 1 ≤ n)
    (hn' : n ≤ 3) (hp : q.payload = logReadPayload seq n 0) (hlog : s.fsv.log ≠ []) (hold : seq ≤ s.fsv.newest) :
    exec (.logRead q) s = .next ((Claims.ok (s.start q 0x0801) (s.fsv.readHead seq n ++ (s.fsv.recordsFrom seq n).flatMap LogRec.bytes)).deliver
      q 0x0801) := by
  have hrun : exec (.logRead q) s = .next ((cmdLogRead.run q (s.start q 0x0801)).deliver q 0x0801) :=
    congrArg _ (serve_of_fresh hq (by rw [hp]; rfl))
  obtain ⟨hfirst, hcount, hzero, hdst⟩ := logReadPayload_fields hseq (show n ≤ 65536 by omega) (show 0 < 2 ^ 64 by omega)
  rw [← hp] at hfirst hcount hzero hdst
  rw [hrun]
  simp only [cmdLogRead, hfirst, hcount, hzero, hdst]
  rw [checks_pass]
  · rfl
  · have hempty : (s.start q 0x0801).fsv.log.isEmpty = false := List.isEmpty_eq_false_iff.2 hlog
    have hlate : ¬ (s.start q 0x0801).fsv.newest < seq := Nat.not_lt.2 hold
    simp [hempty, hlate, inZone]
    omega

theorem exec_logRead_writes (q : Req) (s : State) (seq n dst : Nat) (hq : Claims.Fresh 0x0801 q s) (hseq : seq < 2 ^ 64) (hn : 1 ≤ n)
    (hn' : n ≤ 65536) (hp : q.payload = logReadPayload seq n dst) (halign : dst % 64 = 0) (hlo : 0x3400000000 ≤ dst)
    (hhi : dst + 64 * n ≤ 0x3800000000) (hlog : s.fsv.log ≠ []) (hold : seq ≤ s.fsv.newest) :
    exec (.logRead q) s = .next ((Claims.ok ((s.start q 0x0801).memWrite dst ((s.fsv.recordsFrom seq n).flatMap LogRec.bytes))
      (s.fsv.readHead seq n)).deliver q 0x0801) := by
  have hrun : exec (.logRead q) s = .next ((cmdLogRead.run q (s.start q 0x0801)).deliver q 0x0801) :=
    congrArg _ (serve_of_fresh hq (by rw [hp]; rfl))
  obtain ⟨hfirst, hcount, hzero, hdst⟩ := logReadPayload_fields hseq hn' (show dst < 2 ^ 64 by omega)
  rw [← hp] at hfirst hcount hzero hdst
  have hnonzero : dst ≠ 0 := by omega
  rw [hrun]
  simp only [cmdLogRead, hfirst, hcount, hzero, hdst, if_neg hnonzero]
  rw [checks_pass]
  · rfl
  · have hempty : (s.start q 0x0801).fsv.log.isEmpty = false := List.isEmpty_eq_false_iff.2 hlog
    have hlate : ¬ (s.start q 0x0801).fsv.newest < seq := Nat.not_lt.2 hold
    simp [hempty, hlate, inZone_of_le hlo hhi, halign]
    omega

theorem exec_logRead_empty (q : Req) (s : State) (seq n : Nat) (hq : Claims.Fresh 0x0801 q s) (hseq : seq < 2 ^ 64) (hn : 1 ≤ n)
    (hn' : n ≤ 3) (hp : q.payload = logReadPayload seq n 0) (hlate : s.fsv.newest < seq) :
    exec (.logRead q) s = .next ((Ans.fail (s.start q 0x0801) .empty).deliver q 0x0801) := by
  have hrun : exec (.logRead q) s = .next ((cmdLogRead.run q (s.start q 0x0801)).deliver q 0x0801) :=
    congrArg _ (serve_of_fresh hq (by rw [hp]; rfl))
  obtain ⟨hfirst, hcount, hzero, hdst⟩ := logReadPayload_fields hseq (show n ≤ 65536 by omega) (show 0 < 2 ^ 64 by omega)
  rw [← hp] at hfirst hcount hzero hdst
  have hbeyond : decide ((s.start q 0x0801).fsv.newest < seq) = true := decide_eq_true hlate
  have hcountOk : (n == 0) = false ∧ ¬ 3 < n := ⟨beq_false_of_ne (by omega), by omega⟩
  rw [hrun]
  simp only [cmdLogRead, hfirst, hcount, hzero, hdst, checks_cons, hbeyond, hcountOk, if_true, Bool.or_true]
  simp

/-! ### What FSV does with the oldest item (R577 to R580) -/

theorem exec_faultDetection_of_cons (t : Nat) (s : State) (i : FsvItem) (rest : List FsvItem) (hfirst : s.fsv.inbox = i :: rest) :
    exec (.faultDetection t) s =
      .next ((List.finRange 16).foldl State.withholdPoured (({ s.at t with fsv := { s.fsv with inbox := rest } } : State).fsvItem i)) := by
  rw [show exec (.faultDetection t) s = execFaultDetection t s from rfl]
  unfold execFaultDetection
  simp only [show (s.at t).fsv.inbox = i :: rest from hfirst]
  rfl

theorem exec_faultDetection_idle (t : Nat) (s : State) (hnone : s.fsv.inbox = []) : exec (.faultDetection t) s = .next (s.at t) := by
  rw [show exec (.faultDetection t) s = execFaultDetection t s from rfl]
  unfold execFaultDetection
  simp only [show (s.at t).fsv.inbox = [] from hnone]

/-- Without a line to withhold from, no poured line is called back. -/
theorem State.withholdPoured_of_none {s : State} (h : ∀ x ∈ s.job.rows.toList, x.withholdFrom = none) (r : Fin 16) : s.withholdPoured r = s := by
  have hrow : s.job.rows[r].withholdFrom = none := h _ (Vector.mem_toList_iff.2 (Vector.getElem_mem r.isLt))
  have hkept (n : Nat) : s.faultWithheld r n = false := by simp only [faultWithheld, hrow]
  simp only [withholdPoured, hkept, Bool.and_false, Bool.false_and, List.filter_false, List.map_nil, List.foldl_nil]

theorem State.foldl_withholdPoured_of_none {s : State} (h : ∀ x ∈ s.job.rows.toList, x.withholdFrom = none) (l : List (Fin 16)) :
    l.foldl State.withholdPoured s = s := by
  induction l with
  | nil => rfl
  | cons r l ih => rw [List.foldl_cons, withholdPoured_of_none h, ih]

/-- Poured lines were called back: each is marked with cause FAULT, and what FSV holds besides stays. -/
structure CalledBack (s u : State) : Prop where
  aon : u.aon = s.aon
  job : u.job = s.job
  mbx : u.mbx = s.mbx
  hif : u.hif = s.hif
  fsv : ∃ marks, u.fsv = { s.fsv with inbox := s.fsv.inbox ++ marks } ∧ ∀ m ∈ marks, ∃ x k, m = .mark x k k 0x06 s.aon

theorem CalledBack.of_fsv {s u : State} (haon : u.aon = s.aon := by rfl) (hjob : u.job = s.job := by rfl) (hmbx : u.mbx = s.mbx := by rfl)
    (hhif : u.hif = s.hif := by rfl) (hfsv : u.fsv = s.fsv := by rfl) : CalledBack s u where
  aon := haon
  job := hjob
  mbx := hmbx
  hif := hhif
  fsv := ⟨[], by rw [hfsv, List.append_nil], nofun⟩

theorem CalledBack.refl (s : State) : CalledBack s s := .of_fsv

theorem CalledBack.trans {s t u : State} (h₁ : CalledBack s t) (h₂ : CalledBack t u) : CalledBack s u where
  aon := h₂.aon.trans h₁.aon
  job := h₂.job.trans h₁.job
  mbx := h₂.mbx.trans h₁.mbx
  hif := h₂.hif.trans h₁.hif
  fsv := by
    obtain ⟨m₁, ht, hm₁⟩ := h₁.fsv
    obtain ⟨m₂, hu, hm₂⟩ := h₂.fsv
    refine ⟨m₁ ++ m₂, by rw [hu, ht, List.append_assoc], fun m hm => ?_⟩
    rcases List.mem_append.1 hm with hm | hm
    · exact hm₁ m hm
    · rw [← h₁.aon]
      exact hm₂ m hm

theorem State.calledBack_withholdSent (s : State) (r : Fin 16) (n : Nat) : CalledBack s (s.withholdSent r n 4 0x06) := by
  have hmark : CalledBack s (s.noteWithheld r n 4 0x06) := ite_rel (.refl s)
    { aon := rfl, job := rfl, mbx := rfl, hif := rfl, fsv := ⟨[.mark r n n 0x06 s.aon], rfl, fun m hm => ⟨r, n, List.mem_singleton.1 hm⟩⟩ }
  exact ite_rel (.refl s) (hmark.trans (foldl_rel CalledBack.refl CalledBack.trans (fun _ _ => .of_fsv) _ _))

theorem State.calledBack_withholdPoured (s : State) (r : Fin 16) : CalledBack s (s.withholdPoured r) :=
  foldl_rel CalledBack.refl CalledBack.trans (fun u n => u.calledBack_withholdSent r n) _ s

/-- A record with room in the log stands at its end under the next sequence number. -/
theorem State.logWrite_appends (s : State) (r0 : LogRec) (hroom : s.fsv.log.length < 262144) :
    (s.logWrite r0).fsv.log = s.fsv.log ++ [{ r0 with seq := s.fsv.nextSeq, armed := s.armed }] ∧
      (s.logWrite r0).fsv.nextSeq = s.fsv.nextSeq + 1 ∧ (s.logWrite r0).fsv.inbox = s.fsv.inbox ∧
      (s.logWrite r0).fsv.stopWanted = s.fsv.stopWanted := by
  have hfull : ¬ logCapacity ≤ s.fsv.log.length := Nat.not_le.2 hroom
  unfold logWrite
  simp only [if_neg hfull]
  split <;> exact ⟨rfl, rfl, rfl, rfl⟩

/-- A classified detection gives one record and one FSV_FAULT, and a lasting one of this module is announced. -/
theorem State.logFault_spec (s : State) (d : Detect) (time : Nat) (count : BitVec 32) (ref : Nat) (hroom : s.fsv.log.length < 262144) :
    let u := s.logFault d time count ref
    (∃ r, u.fsv.log = s.fsv.log ++ [r] ∧ r.seq = s.fsv.nextSeq ∧ r.rtype = 0 ∧ r.fclass = d.fclass ∧ r.source = d.source ∧
      r.outcome = d.outcome.code ∧ r.unit = d.unit ∧ r.row = d.row ∧ r.first = d.first ∧ r.last = d.last) ∧
    u.fsv.nextSeq = s.fsv.nextSeq + 1 ∧ u.fsv.inbox = s.fsv.inbox ∧ u.fsv.stopWanted = s.fsv.stopWanted ∧ u.aon = s.aon ∧ u.job = s.job ∧
    Claims.Posts s u [0x0320] ∧ (d.outcome.lasting = true → d.source ≠ 31 → u.hif.globalFault.getLsbD 0 = true) := by
  let r0 : LogRec := { LogRec.zero with
    time := BitVec.ofNat 64 (time / 2 ^ 32), fclass := d.fclass, source := d.source, outcome := d.outcome.code,
    unit := d.unit, row := d.row, rows := d.rows, first := d.first, last := d.last, detail := d.detail, count := count,
    generation := s.generationFor d.row d.first, injected := d.injected, peer := d.peer, ref := BitVec.ofNat 32 ref }
  obtain ⟨hlog, hseq, hinbox, hwanted⟩ := s.logWrite_appends r0 hroom
  obtain ⟨v, hv⟩ : ∃ v, v = (s.logWrite r0).post 0x0320 clsFault [(4, s.fsv.nextSeq), (1, d.fclass.toNat), (1, d.source.toNat),
    (1, d.outcome.code.toNat), (1, d.unit.toNat), (1, d.row.toNat), (8, wrapInt 64 d.first), (8, wrapInt 64 d.last)] := ⟨_, rfl⟩
  have hfsv : v.fsv = (s.logWrite r0).fsv := by rw [hv]; rfl
  have haon : v.aon = s.aon := by rw [hv]; simp
  have hjob : v.job = s.job := by rw [hv]; simp
  have hposts : Claims.Posts s v [0x0320] := by
    rw [hv]
    exact posts_of_mbx (t := s.logWrite r0) (by simp) (posts_post ..)
  have hif : s.logFault d time count ref = if d.outcome.lasting && d.source != srcPeer then
      ((v.setGlobalFault 0).setAlert 3).chainBroadcast 0x30
        ([s.ownAddress, d.fclass, BitVec.ofNat 8 (b2n (d.fclass == fcEncoder))] ++ le 8 s.nowNs) else v := by
    rw [hv]
    rfl
  have hkept : (s.logFault d time count ref).fsv = v.fsv ∧ (s.logFault d time count ref).aon = v.aon ∧
      (s.logFault d time count ref).job = v.job ∧ (s.logFault d time count ref).mbx = v.mbx := by
    rw [hif]
    split <;> simp [chainBroadcast]
  obtain ⟨hufsv, huaon, hujob, humbx⟩ := hkept
  intro u
  rw [show u.fsv = _ from hufsv.trans hfsv, show u.aon = _ from huaon, show u.job = _ from hujob]
  refine ⟨⟨_, hlog, rfl, rfl, rfl, rfl, rfl, rfl, rfl, rfl, rfl⟩, hseq, hinbox, hwanted, haon, hjob, ?_, fun hlasting hown => ?_⟩
  · rw [Claims.Posts, humbx]
    exact hposts
  · show (s.logFault d time count ref).hif.globalFault.getLsbD 0 = true
    rw [hif, if_pos (by rw [hlasting, bne_iff_ne.2 (show d.source ≠ srcPeer from hown)]; rfl), chainBroadcast]
    simp only [chainSend_frame]
    exact setGlobalFault_sets v 0 (by decide)

/-- A pending detection of a new unit is kept. -/
theorem State.fsvDetect_pending {s : State} {d : Detect} (hpending : d.outcome = .pending)
    (hnew : s.fsv.pendingFaults.any (fun p => p.d.sameUnit d) = false) (time : Nat) :
    s.fsvDetect d time = { s with fsv := { s.fsv with
      pendingFaults := s.fsv.pendingFaults ++ [{ d := d, time := time, count := 1, consequences := [] }] } } := by
  unfold fsvDetect
  simp only [hpending, hnew, Bool.false_eq_true, if_false]

/-- A classified detection of a unit that is not pending is logged, and one that stops decides on a stop. -/
theorem State.fsvDetect_classified {s : State} {d : Detect} (hpending : d.outcome ≠ .pending) (hconsequence : d.outcome ≠ .consequence)
    (hnew : s.fsv.pendingFaults.any (fun p => p.d.sameUnit d) = false) (time : Nat) :
    s.fsvDetect d time = if d.stops then (s.logFault d time 1 0).wantStop (if d.source == srcPeer then 4 else 3) d.fclass s.fsv.nextSeq d.rows
      (if d.fclass == fcPourPath then d.last else d.first).toNat else s.logFault d time 1 0 := by
  have hnone : s.fsv.pendingFaults.find? (fun p => p.d.sameUnit d) = none := List.find?_eq_none.2 (List.any_eq_false.1 hnew)
  unfold fsvDetect
  split
  next hout => exact absurd hout hpending
  next hout => exact absurd hout hconsequence
  next => simp only [hnone]

/-- A decision to stop is taken for an armed job, and the first one stands. -/
theorem State.wantStop_spec (s : State) (reason fclass : Byte) (seq : Nat) (rows : BitVec 16) (first : Nat) :
    let u := s.wantStop reason fclass seq rows first
    u.fsv = { s.fsv with stopWanted := u.fsv.stopWanted } ∧ u.aon = s.aon ∧ u.mbx = s.mbx ∧ u.hif = s.hif ∧
      (s.armed = false → u = s) ∧
      (s.armed = true → s.fsv.stopWanted = none → u.fsv.stopWanted = some { reason := reason, fclass := fclass, seq := seq, rows := rows, first := first }) := by
  unfold wantStop
  split
  next h => exact ⟨by simp, by simp, by simp, by simp, fun hno => absurd h (Bool.eq_false_iff.1 hno), fun _ hnone => by rw [hnone]; rfl⟩
  next h => exact ⟨rfl, rfl, rfl, rfl, fun _ => rfl, fun hyes => absurd hyes h⟩

theorem exec_faultDetection_pending (d : Detect) (time t : Nat) (rest : List FsvItem) (s : State) (hfirst : s.fsv.inbox = .detect d time :: rest)
    (hnew : s.fsv.pendingFaults.any (fun p => p.d.sameUnit d) = false) (hpending : d.outcome = .pending)
    (hpouring : ∀ x ∈ s.job.rows.toList, x.withholdFrom = none) :
    exec (.faultDetection t) s = .next { s.at t with fsv := { s.fsv with
      inbox := rest, pendingFaults := s.fsv.pendingFaults ++ [{ d := d, time := time, count := 1, consequences := [] }] } } := by
  rw [exec_faultDetection_of_cons t s _ rest hfirst]
  let v : State := { s.at t with fsv := { s.fsv with inbox := rest } }
  have htake : v.fsvItem (.detect d time) = _ := State.fsvDetect_pending (s := v) hpending hnew time
  rw [htake, State.foldl_withholdPoured_of_none]
  exact hpouring

theorem State.fsvDetect_classified_spec {s : State} {d : Detect} (hpending : d.outcome ≠ .pending) (hconsequence : d.outcome ≠ .consequence)
    (hnew : s.fsv.pendingFaults.any (fun p => p.d.sameUnit d) = false) (hroom : s.fsv.log.length < 262144) (time : Nat) :
    let u := s.fsvDetect d time
    (∃ r, u.fsv.log = s.fsv.log ++ [r] ∧ r.seq = s.fsv.nextSeq ∧ r.rtype = 0 ∧ r.fclass = d.fclass ∧ r.source = d.source ∧
      r.outcome = d.outcome.code ∧ r.unit = d.unit ∧ r.row = d.row ∧ r.first = d.first ∧ r.last = d.last) ∧
    u.fsv.nextSeq = s.fsv.nextSeq + 1 ∧ u.fsv.inbox = s.fsv.inbox ∧ u.aon = s.aon ∧ Claims.Posts s u [0x0320] ∧
    (d.outcome.lasting = true → d.source ≠ 31 → u.hif.globalFault.getLsbD 0 = true) ∧
    (d.stops = true → s.armed = true → s.fsv.stopWanted = none →
      ∃ w, u.fsv.stopWanted = some w ∧ w.fclass = d.fclass ∧ w.seq = s.fsv.nextSeq ∧ w.rows = d.rows) ∧
    (d.stops = false ∨ s.armed = false → u.fsv.stopWanted = s.fsv.stopWanted ∧ u.job = s.job) := by
  obtain ⟨hrecord, hnext, hinbox, hwanted, haon, hjob, hposts, hannounced⟩ := s.logFault_spec d time 1 0 hroom
  have hu := fsvDetect_classified hpending hconsequence hnew time
  generalize s.logFault d time 1 0 = l at hu hrecord hnext hinbox hwanted haon hjob hposts hannounced
  have harmed : l.armed = s.armed := by rw [armed, hjob]; rfl
  obtain ⟨hfsv, hwaon, hmbx, hhif, hno, hyes⟩ := l.wantStop_spec (if d.source == srcPeer then 4 else 3) d.fclass s.fsv.nextSeq d.rows
    (if d.fclass == fcPourPath then d.last else d.first).toNat
  intro u
  rw [show u = _ from hu]
  cases hstops : d.stops with
  | false =>
    exact ⟨hrecord, hnext, hinbox, haon, hposts, hannounced, nofun, fun _ => ⟨hwanted, hjob⟩⟩
  | true =>
    rw [if_pos rfl, hfsv]
    refine ⟨hrecord, hnext, hinbox, hwaon.trans haon, ?_, fun h h' => by rw [hhif]; exact hannounced h h',
      fun _ ha hs => ⟨_, hyes (harmed.trans ha) (hwanted.trans hs), rfl, rfl, rfl⟩, fun h => ?_⟩
    · rw [Claims.Posts, hmbx]
      exact hposts
    · have hidle : l.armed = false := harmed.trans (h.resolve_left (by decide))
      rw [hno hidle]
      exact ⟨hwanted, hjob⟩

theorem exec_faultDetection_classified (d : Detect) (time t : Nat) (rest : List FsvItem) (s : State)
    (hfirst : s.fsv.inbox = .detect d time :: rest) (hnew : s.fsv.pendingFaults.any (fun p => p.d.sameUnit d) = false)
    (hpending : d.outcome ≠ .pending) (hconsequence : d.outcome ≠ .consequence) (hroom : s.fsv.log.length < 262144) :
    ∃ u r, exec (.faultDetection t) s = .next u ∧
      u.fsv.log = s.fsv.log ++ [r] ∧ r.seq = s.fsv.nextSeq ∧ r.rtype = 0 ∧ r.fclass = d.fclass ∧ r.source = d.source ∧
      r.outcome = d.outcome.code ∧ r.unit = d.unit ∧ r.row = d.row ∧ r.first = d.first ∧ r.last = d.last ∧ u.fsv.nextSeq = s.fsv.nextSeq + 1 ∧
      Claims.Posts s u [0x0320] ∧ (∃ marks, u.fsv.inbox = rest ++ marks ∧ ∀ m ∈ marks, ∃ x k, m = .mark x k k 0x06 (max s.aon t)) ∧
      (d.outcome.lasting = true → d.source ≠ 31 → u.hif.globalFault.getLsbD 0 = true) ∧
      (d.stops = true → s.armed = true → s.fsv.stopWanted = none →
        ∃ w, u.fsv.stopWanted = some w ∧ w.fclass = d.fclass ∧ w.seq = s.fsv.nextSeq ∧ w.rows = d.rows) ∧
      (d.stops = false ∨ s.armed = false → u.fsv.stopWanted = s.fsv.stopWanted ∧ u.job = s.job) := by
  let v : State := { s.at t with fsv := { s.fsv with inbox := rest } }
  obtain ⟨⟨r, hlog, hseq, htype, hclass, hsource, houtcome, hunit, hrow, hfirstLine, hlast⟩, hnext, hinbox, haon, hposts, hannounced, hstop, hgo⟩ :=
    State.fsvDetect_classified_spec (s := v) hpending hconsequence hnew hroom time
  have htake : v.fsvItem (.detect d time) = v.fsvDetect d time := rfl
  generalize v.fsvDetect d time = w at htake hlog hnext hinbox haon hposts hannounced hstop hgo
  have hback : CalledBack w ((List.finRange 16).foldl State.withholdPoured w) :=
    foldl_rel CalledBack.refl CalledBack.trans State.calledBack_withholdPoured _ w
  obtain ⟨marks, hufsv, hmarks⟩ := hback.fsv
  refine ⟨_, r, (exec_faultDetection_of_cons t s _ rest hfirst).trans (by rw [htake]), ?_, hseq, htype, hclass, hsource, houtcome, hunit, hrow,
    hfirstLine, hlast, ?_, ?_, ⟨marks, ?_, ?_⟩, ?_, ?_, ?_⟩
  · rw [hufsv]
    exact hlog
  · rw [hufsv]
    exact hnext
  · rw [Claims.Posts, hback.mbx]
    exact hposts
  · rw [hufsv]
    exact congrArg (· ++ marks) hinbox
  · rw [show max s.aon t = w.aon from haon.symm]
    exact hmarks
  · rw [hback.hif]
    exact hannounced
  · rw [hufsv]
    exact hstop
  · rw [hufsv, hback.job]
    exact hgo

/-- A mark before the origin is latched is dropped. -/
theorem exec_faultDetection_unlatched (r : Fin 16) (a b time t : Nat) (c : Byte) (rest : List FsvItem) (s : State)
    (hfirst : s.fsv.inbox = .mark r a b c time :: rest) (horigin : s.lsd.origin = none)
    (hpouring : ∀ x ∈ s.job.rows.toList, x.withholdFrom = none) :
    exec (.faultDetection t) s = .next { s.at t with fsv := { s.fsv with inbox := rest } } := by
  rw [exec_faultDetection_of_cons t s _ rest hfirst]
  let v : State := { s.at t with fsv := { s.fsv with inbox := rest } }
  have hdrop : v.fsvItem (.mark r a b c time) = v := if_pos (by rw [show v.lsd.origin = none from horigin]; rfl)
  rw [hdrop, State.foldl_withholdPoured_of_none]
  exact hpouring

/-! ### Waste ranges and WASTE (R585, R586) -/

theorem State.wasteTrack_ranges (s : State) : s.wasteTrack.fsv.ranges = s.fsv.ranges ∧ s.wasteTrack.fsv.nextSeq = s.fsv.nextSeq := by
  have hon (u : State) : u.wasteOn.fsv.ranges = u.fsv.ranges ∧ u.wasteOn.fsv.nextSeq = u.fsv.nextSeq := by
    unfold wasteOn
    split <;> simp
  unfold wasteTrack
  dsimp only
  split
  next => exact hon _
  next => exact ⟨rfl, rfl⟩

theorem State.logWrite_nextSeq (s : State) (r : LogRec) : (s.logWrite r).fsv.nextSeq = s.fsv.nextSeq + 1 := by
  unfold logWrite
  dsimp only
  split <;> rfl

/-- One WASTE record for each range that closes. -/
theorem State.foldl_logRange_spec (l : List WasteRange) (s : State) : let u := l.foldl State.logRange s
    u.fsv.ranges = s.fsv.ranges ∧ u.fsv.nextSeq = s.fsv.nextSeq + l.length ∧ u.mem = s.mem ∧ u.job = s.job := by
  induction l generalizing s with
  | nil => exact ⟨rfl, rfl, rfl, rfl⟩
  | cons w l ih =>
    obtain ⟨hranges, hseq, hmem, hjob⟩ := ih (s.logRange w)
    refine ⟨hranges.trans (logWrite_ranges ..).1, hseq.trans ?_, hmem.trans (by simp [logRange]), hjob.trans (by simp [logRange])⟩
    rw [show (s.logRange w).fsv.nextSeq = s.fsv.nextSeq + 1 from logWrite_nextSeq .., List.length_cons, Nat.add_assoc, Nat.add_comm 1]

theorem exec_wasteRangeClose (t : Nat) (s : State) : ∃ u, exec (.wasteRangeClose t) s = .next u ∧
    u.fsv.ranges = s.fsv.ranges.filter (fun w => !decide (w.last < (s.at t).jobPos)) ∧
    u.fsv.nextSeq = s.fsv.nextSeq + (s.fsv.ranges.filter (fun w => decide (w.last < (s.at t).jobPos))).length ∧ u.mem = s.mem ∧ u.job = s.job := by
  obtain ⟨htrack, htrackSeq⟩ := (s.at t).wasteTrack_ranges
  let v : State := { (s.at t).wasteTrack with fsv := { (s.at t).wasteTrack.fsv with
    ranges := (s.at t).wasteTrack.fsv.ranges.filter (fun w => !decide (w.last < (s.at t).jobPos)) } }
  obtain ⟨hranges, hseq, hmem, hjob⟩ := State.foldl_logRange_spec (s.fsv.ranges.filter (fun w => decide (w.last < (s.at t).jobPos))) v
  refine ⟨_, rfl, hranges.trans ?_, hseq.trans ?_, hmem.trans (by simp [v]), hjob.trans (by simp [v])⟩
  · show (s.at t).wasteTrack.fsv.ranges.filter _ = _
    rw [htrack]
    rfl
  · show (s.at t).wasteTrack.fsv.nextSeq + _ = _
    rw [htrackSeq]
    rfl

/-- Outside every range that was not inside one, nothing is followed. -/
theorem State.wasteTrack_outside {s : State} (hout : ∀ w ∈ s.fsv.ranges, s.jobPos < w.first ∨ w.last < s.jobPos) (hinside : s.fsv.inside = false) :
    s.wasteTrack = s := by
  have hnone : s.fsv.ranges.any (fun w => decide (w.first ≤ s.jobPos ∧ s.jobPos ≤ w.last)) = false := by
    refine List.any_eq_false.2 fun w hw => ?_
    rw [decide_eq_true_eq]
    have := hout w hw
    omega
  unfold wasteTrack
  simp only [hnone, hinside, Bool.false_eq_true, if_false]
  rw [← hinside]

theorem exec_wasteHoldEnd (t l : Nat) (s : State) (hout : ∀ w ∈ s.fsv.ranges, (s.at t).jobPos < w.first ∨ w.last < (s.at t).jobPos)
    (hinside : s.fsv.inside = false) (hleft : s.fsv.leftAt = some l) :
    (l + 1000000 * 2 ^ 32 ≤ max s.aon t → s.fsv.power = false →
      exec (.wasteHoldEnd t) s = .next { s.at t with fsv := { s.fsv with waste := false, leftAt := none } }) ∧
    (max s.aon t < l + 1000000 * 2 ^ 32 ∨ s.fsv.power = true → exec (.wasteHoldEnd t) s = .next (s.at t)) := by
  have hrun : exec (.wasteHoldEnd t) s = .next (if l + ms 1 ≤ max s.aon t ∧ s.fsv.inside = false ∧ s.fsv.power = false then
      { s.at t with fsv := { s.fsv with waste := false, leftAt := none } } else s.at t) := by
    rw [show exec (.wasteHoldEnd t) s = execWasteHoldEnd t s from rfl]
    unfold execWasteHoldEnd
    simp only [State.wasteTrack_outside (s := s.at t) hout hinside, show (s.at t).fsv.leftAt = some l from hleft]
    rfl
  rw [ms, ns, Nat.mul_one] at hrun
  refine ⟨fun hdue hpower => hrun.trans (congrArg _ (if_pos ⟨hdue, hinside, hpower⟩)), fun hheld => hrun.trans (congrArg _ (if_neg ?_))⟩
  rintro ⟨hdue, -, hpower⟩
  rcases hheld with hearly | hheld
  · exact absurd hdue (Nat.not_le.2 hearly)
  · rw [hpower] at hheld
    cases hheld

/-! ### Faults and ranges of peers (R371, R372) -/

theorem State.current_of_epoch {s : State} {h : ChainHdr} (hepoch : h.epoch = s.chain.epoch) : s.current h = true := beq_iff_eq.2 hepoch

/-- Acknowledged and passed on, a message has changed nothing of this module but its hops. -/
theorem State.passOn_keeps (s : State) (h : ChainHdr) (mtype : Byte) (body : List Byte) : let u := s.passOn h mtype body
    u.mbx = s.mbx ∧ u.fsv = s.fsv ∧ u.lsd = s.lsd ∧ u.aon = s.aon ∧ u.chain.peerStop = s.chain.peerStop := by
  have hchain : (s.passOn h mtype body).chain.peerStop = s.chain.peerStop := by
    have hops := s.hopsOnly_passOn h mtype body
    rw [HopsOnly] at hops
    rw [hops]
  refine ⟨?_, ?_, ?_, ?_, hchain⟩ <;> (unfold passOn; dsimp only; split <;> simp)

theorem exec_chnFault_reports (h : ChainHdr) (c : Byte) (stop : Bool) (time : BitVec 64) (t : Nat) (s : State) (hepoch : h.epoch = s.chain.epoch) :
    ∃ u d, exec (.chnFault h c stop time t) s = .next u ∧ Claims.Posts s u [0x02D5] ∧ Claims.Tells s u [.detect d (max s.aon t)] ∧
      d.outcome = .reported ∧ d.stops = (stop && s.chain.peerStop) ∧ u.lsd = s.lsd := by
  let a := (s.at t).ackChain h
  have hack : a.mbx = s.mbx ∧ a.fsv = s.fsv ∧ a.lsd = s.lsd ∧ a.aon = max s.aon t ∧ a.chain = s.chain := by simp [a, State.ackChain]
  obtain ⟨hambx, hafsv, halsd, haaon, hachain⟩ := hack
  obtain ⟨hmbx, hfsv, hlsd, haon, hstop⟩ := a.passOn_keeps h 0x30 ([BitVec.ofNat 8 h.src.val, c, BitVec.ofNat 8 (b2n stop)] ++ le 8 time.toNat)
  let p := a.passOn h 0x30 ([BitVec.ofNat 8 h.src.val, c, BitVec.ofNat 8 (b2n stop)] ++ le 8 time.toNat)
  let d : Detect :=
    { fclass := c, source := srcPeer, unit := BitVec.ofNat 8 h.src.val, peer := BitVec.ofNat 8 h.src.val, outcome := .reported, stops := stop && p.chain.peerStop }
  have hrun : exec (.chnFault h c stop time t) s =
      .next ((p.post 0x02D5 clsJob [(1, h.src.val), (1, 1), (4, c.toNat + 256 * b2n stop)]).detect d) :=
    if_pos (State.current_of_epoch (s := a) (by rw [hachain]; exact hepoch))
  refine ⟨_, d, hrun, posts_of_mbx (t := p) (hmbx.trans hambx) (posts_post ..), ?_, rfl, ?_, hlsd.trans halsd⟩
  · show p.fsv.inbox ++ [.detect d p.aon] = _
    rw [show p.fsv = s.fsv from hfsv.trans hafsv, show p.aon = max s.aon t from haon.trans haaon]
  · show (stop && p.chain.peerStop) = _
    rw [show p.chain.peerStop = s.chain.peerStop from hstop.trans (by rw [hachain])]

theorem exec_chnWaste_unlatched (h : ChainHdr) (c : Byte) (first last : Int) (t : Nat) (s : State) (hepoch : h.epoch = s.chain.epoch)
    (horigin : s.lsd.origin = none) :
    ∃ u, exec (.chnWaste h c first last t) s = .next u ∧ Claims.Posts s u [0x02D5] ∧ u.fsv = s.fsv := by
  let a := (s.at t).ackChain h
  have hack : a.mbx = s.mbx ∧ a.fsv = s.fsv ∧ a.lsd = s.lsd ∧ a.chain = s.chain := by simp [a, State.ackChain]
  obtain ⟨hambx, hafsv, halsd, hachain⟩ := hack
  let body := [BitVec.ofNat 8 h.src.val, c] ++ zeroBytes 6 ++ sle 8 first ++ sle 8 last
  obtain ⟨hmbx, hfsv, hlsd, -, -⟩ := a.passOn_keeps h 0x31 body
  let u := (a.passOn h 0x31 body).post 0x02D5 clsJob [(1, h.src.val), (1, 2), (4, c.toNat)]
  have hunlatched : ¬ u.lsd.origin.isSome = true := by
    rw [show u.lsd.origin = none from (congrArg Lsd.origin (hlsd.trans halsd)).trans horigin]
    exact Bool.false_ne_true
  have hrun : exec (.chnWaste h c first last t) s = .next u :=
    (if_pos (State.current_of_epoch (s := a) (by rw [hachain]; exact hepoch))).trans (congrArg Host.Outcome.next (if_neg hunlatched))
  exact ⟨u, hrun, posts_of_mbx (hmbx.trans hambx) (posts_post ..), hfsv.trans hafsv⟩

theorem exec_wasteBroadcast_sends (t : Nat) (s : State) (c : Byte) (first last : Int) (hout : s.chain.wasteOut = some (c, first, last))
    (hdue : s.chain.wasteAt + 1000000 * 2 ^ 32 ≤ max s.aon t) :
    ∃ u, exec (.wasteBroadcast t) s = .next u ∧ u.chain.wasteOut = none ∧ u.chain.wasteAt = max s.aon t := by
  let v : State := { s.at t with chain := { s.chain with wasteOut := none, wasteAt := max s.aon t } }
  let m : ChainMsg := { mtype := 0x31, src := v.ownAddress, dst := 0xFF, body := [s.ownAddress, c] ++ zeroBytes 6 ++ sle 8 first ++ sle 8 last }
  have hdue' : s.chain.wasteAt + ms 1 ≤ max s.aon t := by
    rw [ms, ns, Nat.mul_one]
    exact hdue
  have hrun : exec (.wasteBroadcast t) s = .next (v.chainSend m) := by
    rw [show exec (.wasteBroadcast t) s = execWasteBroadcast t s from rfl]
    unfold execWasteBroadcast
    simp only [show (s.at t).chain.wasteOut = some (c, first, last) from hout]
    exact congrArg Host.Outcome.next (if_pos (.inl hdue'))
  have hops := v.hopsOnly_chainSend m
  rw [HopsOnly] at hops
  exact ⟨_, hrun, by rw [hops], by rw [hops]⟩

/-! ### The obligation -/

/-- Settles O60: one run of each command and event. -/
theorem faultSupervisorCompletes : Obligations.FaultSupervisorCompletes := by
  unfold Obligations.FaultSupervisorCompletes
  refine ⟨exec_logStatus_answers, fun q s seq n dst hq hseq hn hn' hp => ⟨?_, ?_, ?_⟩, exec_faultDetection_idle,
    fun d time t rest s hfirst hnew => ⟨exec_faultDetection_pending d time t rest s hfirst hnew,
      exec_faultDetection_classified d time t rest s hfirst hnew⟩,
    exec_faultDetection_unlatched, exec_wasteRangeClose, exec_wasteHoldEnd, exec_chnFault_reports, exec_chnWaste_unlatched,
    exec_wasteBroadcast_sends⟩
  · rintro rfl hfew hlog hold
    exact exec_logRead_answers q s seq n hq hseq hn hfew hp hlog hold
  · exact exec_logRead_writes q s seq n dst hq hseq hn hn' hp
  · rintro rfl hfew hlate
    exact exec_logRead_empty q s seq n hq hseq hn hfew hp hlate

end Sys2Proof.Machine
end

section
/-! PROOF. The chain's commands, its enumeration, rejoining, sleep and wake (15 R359 to R361, R363, R377, R378; 17 R436 to R438, R440): O55. -/

namespace Sys2Proof.Machine

/-! ### What the chain's operations leave (R357, R360, R364) -/

/-- CHN_ENUM is told by the mailboxes alone. -/
theorem State.enumEvent_spec (s : State) (cause : Nat) (o : Option Origin) (st : Status) :
    s.enumEvent cause o st = { s with mbx := (s.enumEvent cause o st).mbx } ∧ Claims.Posts s (s.enumEvent cause o st) [0x02D0] :=
  ⟨s.result_eq .., s.result_posts ..⟩

/-- A step of chain time moves the offset, and the ticks that follow it. -/
theorem State.stepTime_keeps (s : State) : s.stepTime.mbx = s.mbx ∧
    s.stepTime.chain = { s.chain with offset := s.stepTime.chain.offset, slewAt := s.stepTime.chain.slewAt } := by
  unfold stepTime
  dsimp only
  split <;> exact ⟨rfl, rfl⟩

/-- CHN_ENUM, and a step of chain time after it. -/
theorem State.enumEvent_stepTime (s : State) (cause : Nat) (o : Option Origin) (st : Status) : let u := (s.enumEvent cause o st).stepTime
    Claims.Posts s u [0x02D0] ∧ u.chain = { s.chain with offset := u.chain.offset, slewAt := u.chain.slewAt } := by
  obtain ⟨hevent, hposts⟩ := s.enumEvent_spec cause o st
  obtain ⟨hmbx, hstep⟩ := (s.enumEvent cause o st).stepTime_keeps
  have hchain : (s.enumEvent cause o st).chain = s.chain := by rw [hevent]
  rw [hchain] at hstep
  refine ⟨?_, hstep⟩
  rw [Claims.Posts, hmbx]
  exact hposts

/-- A message sent on one side changes of the chain's state that hop alone, and no mailbox. -/
theorem State.chainTo_keeps (s : State) (side : Side) (m : ChainMsg) : (s.chainTo side m).mbx = s.mbx ∧
    (s.chainTo side m).chain = { s.chain with hopIn := (s.chainTo side m).chain.hopIn, hopOut := (s.chainTo side m).chain.hopOut } :=
  ⟨by simp, s.hopsOnly_chainTo side m⟩

theorem State.sleepOut_chain (s : State) (l : Fin 34) : (s.sleepOut l).chain = s.chain :=
  foldl_keep (·.chain) (fun u (_ : Nat) => u.sendTraining l 7) (fun _ _ => rfl) _ s

/-- The chain's state with one hop replaced. -/
def Chain.withHop (c : Chain) (side : Side) (h : Hop) : Chain :=
  match side with
  | .inn => { c with hopIn := h }
  | .out => { c with hopOut := h }

theorem State.setHop_chain (s : State) (side : Side) (h : Hop) : (s.setHop side h).chain = s.chain.withHop side h := by cases side <;> rfl

theorem State.withHop_self (s : State) (side : Side) : s.chain.withHop side (s.hop side) = s.chain := by cases side <;> rfl

/-- A direction that carries messages goes to sleep. -/
theorem State.sleepDir_chain {s : State} {side : Side} (hsend : s.canSend side = true) :
    (s.sleepDir side).chain = s.chain.withHop side { s.hop side with txSleep := true } := by
  rw [sleepDir, if_pos hsend, setHop_chain, sleepOut_chain]

/-- A direction that is woken does not sleep. -/
theorem State.wakeDir_chain (s : State) (side : Side) :
    (s.wakeDir side).chain = s.chain.withHop side { s.hop side with txSleep := false } := by
  unfold wakeDir
  split
  next => exact s.setHop_chain side _
  next hawake => rw [← Bool.eq_false_iff.2 hawake, withHop_self]

theorem State.wakeChain_chain (s : State) : s.wakeChain.chain = { s.chain with
    hopIn := { s.chain.hopIn with txSleep := false }, hopOut := { s.chain.hopOut with txSleep := false } } := by
  have hlane (c : Prop) [Decidable c] (u : State) (l : Fin 34) (f : Lane → Lane) : (if c then u.updLane l f else u).chain = u.chain := by
    split <;> rfl
  unfold wakeChain
  dsimp only
  rw [hlane, wakeDir_chain, hop, hlane, wakeDir_chain]
  rfl

/-! ### Commands (R436, R437, R438, R440) -/

theorem State.chainStatusBytes_fields (s : State) : let p := s.chainStatusBytes
    p.length = 48 ∧ p[0]? = some s.ownAddress ∧ fld p 8 4 = s.chain.sleepMs % 2 ^ 32 ∧ fld p 32 8 = s.nowNs % 2 ^ 64 := by
  refine ⟨by simp [chainStatusBytes], rfl, ?_, ?_⟩
  all_goals
    simp only [chainStatusBytes, List.append_assoc]
    simp (disch := simp) only [fld_append_right, length_le, length_sle, List.length_cons, List.length_nil, Nat.reduceAdd, Nat.reduceSub, fld_le]
  · rfl
  · rfl

theorem exec_chainStatus_answers (q : Req) (s : State) (hq : Claims.FreshOf 0x0700 0 q s) :
    ∃ p, exec (.chainStatus q) s = .next ((Claims.ok (s.start q 0x0700) p).deliver q 0x0700) ∧
      p.length = 48 ∧ p[0]? = some s.ownAddress ∧ fld p 8 4 = s.chain.sleepMs % 2 ^ 32 ∧ fld p 32 8 = s.nowNs % 2 ^ 64 :=
  ⟨_, congrArg _ (serve_of_fresh hq.1 (beq_iff_eq.2 hq.2)), (s.start q 0x0700).chainStatusBytes_fields⟩

theorem exec_chainEnumerate_elsewhere (q : Req) (s : State) (hq : Claims.FreshOf 0x0701 0 q s) (hstrap : s.chain.strap = false) :
    exec (.chainEnumerate q) s = .next ((Ans.fail (s.start q 0x0701) .badState).deliver q 0x0701) := by
  have hrun : exec (.chainEnumerate q) s = .next ((cmdChainEnumerate.run q (s.start q 0x0701)).deliver q 0x0701) :=
    congrArg _ (serve_of_fresh hq.1 (beq_iff_eq.2 hq.2))
  rw [hrun]
  simp only [cmdChainEnumerate, show (s.start q 0x0701).chain.strap = false from hstrap, checks_cons, Bool.not_false, Bool.true_or, if_true]

/-- The head that sends the token holds address 0 and waits for its return. -/
theorem State.sendEnum_spec (s : State) (second : Bool) : (s.sendEnum second).mbx = s.mbx ∧ (s.sendEnum second).chain = { s.chain with
    address := some 0, enumWait := some (s.aon, second), hopIn := (s.sendEnum second).chain.hopIn, hopOut := (s.sendEnum second).chain.hopOut } :=
  State.chainTo_keeps { s with chain := { s.chain with address := some 0, enumWait := some (s.aon, second) } } .out _

theorem exec_chainEnumerate_begins (q : Req) (s : State) (hq : Claims.FreshOf 0x0701 0 q s) (hstrap : s.chain.strap = true)
    (hidle : s.chainArmed = false) : ∃ u, exec (.chainEnumerate q) s = .next ((Claims.accepted u).deliver q 0x0701) ∧
      u.chain.address = some 0 ∧ u.chain.enumWait = some (s.aon, false) ∧ u.chain.enumReq = some q.origin := by
  let v : State := { s.start q 0x0701 with chain := { s.chain with enumReq := some q.origin } }
  have hrun : exec (.chainEnumerate q) s = .next ((cmdChainEnumerate.run q (s.start q 0x0701)).deliver q 0x0701) :=
    congrArg _ (serve_of_fresh hq.1 (beq_iff_eq.2 hq.2))
  have hbegin : cmdChainEnumerate.run q (s.start q 0x0701) = Claims.accepted (v.sendEnum false) := by
    have hmay : (!(s.start q 0x0701).chain.strap || (s.start q 0x0701).chainArmed) = false := by
      rw [show (s.start q 0x0701).chain.strap = true from hstrap, show (s.start q 0x0701).chainArmed = false from hidle]
      rfl
    simp only [cmdChainEnumerate, checks_cons, checks_nil, hmay, Bool.false_eq_true, if_false]
    rfl
  rw [hbegin] at hrun
  obtain ⟨-, hchain⟩ := v.sendEnum_spec false
  exact ⟨_, hrun, by rw [hchain], by rw [hchain]; rfl, by rw [hchain]⟩

theorem exec_chainConfig_sets (q : Req) (s : State) (stop : Bool) (sleep : Nat) (hq : Claims.Fresh 0x0702 q s) (hidle : s.armed = false)
    (hsleep : sleep ≤ 3600000) (hp : q.payload = [if stop then 1 else 0, 0, 0, 0] ++ le 4 sleep) :
    exec (.chainConfig q) s = .next ((Claims.ok { s.start q 0x0702 with chain := { s.chain with peerStop := stop, sleepMs := sleep } }).deliver
      q 0x0702) := by
  have hrun : exec (.chainConfig q) s = .next ((cmdChainConfig.run q (s.start q 0x0702)).deliver q 0x0702) :=
    congrArg _ (serve_of_fresh hq (by rw [hp]; rfl))
  have hflags : fld q.payload 0 1 = b2n stop := by
    rw [hp]
    cases stop <;> rfl
  have hzero : zeros q.payload 1 3 = true := by rw [hp]; rfl
  have hms : fld q.payload 4 4 = sleep := by
    rw [hp, fld_append_right _ _ (by simp), show 4 - _ = 0 by simp, fld_le_end]
    exact Nat.mod_eq_of_lt (by omega)
  have hbit : bit (b2n stop) 0 = stop := by cases stop <;> rfl
  have hfits : b2n stop ≤ 1 := by cases stop <;> decide
  rw [hrun]
  simp only [cmdChainConfig, hflags, hzero, hms, hbit]
  rw [checks_pass]
  · rfl
  · simp [show (s.start q 0x0702).armed = false from hidle, hsleep, hfits]

theorem State.linkAnswer_spec {s : State} {o : Origin} {t : Nat} (hreq : s.chain.linkReq = some (o, t)) :
    (s.linkAnswer.chain.linkReq = none ↔ s.chain.count = 1 ∨ (s.linkAnswer.hopUp .inn && s.linkAnswer.hopUp .out) = true) ∧
      s.linkAnswer.chain.hopIn = s.chain.hopIn ∧ s.linkAnswer.chain.hopOut = s.chain.hopOut := by
  have hanswer : s.linkAnswer = if s.chain.count = 1 ∨ (s.hopUp .inn && s.hopUp .out) = true then
      ({ s with chain := { s.chain with linkReq := none } } : State).resolve o .ok 0 [] else s := by
    unfold linkAnswer
    simp only [hreq]
  have hkept : s.linkAnswer.chain.hopIn = s.chain.hopIn ∧ s.linkAnswer.chain.hopOut = s.chain.hopOut ∧ s.linkAnswer.hlk = s.hlk := by
    rw [hanswer]
    split <;> simp
  obtain ⟨hin, hout, hlk⟩ := hkept
  have hup (side : Side) : s.linkAnswer.hopUp side = s.hopUp side := by
    cases side <;> simp only [hopUp, hop, hin, hout, hlk]
  refine ⟨?_, hin, hout⟩
  rw [hup, hup, hanswer]
  split
  next h => exact ⟨fun _ => h, fun _ => by simp⟩
  next h => exact ⟨fun hnone => absurd (hreq.symm.trans hnone) (Option.some_ne_none _), fun hup => absurd hup h⟩

theorem exec_chainLink_wakes (q : Req) (s : State) (hq : Claims.Fresh 0x0704 q s) (hp : q.payload = [0, 0, 0, 0, 0, 0, 0, 0]) :
    ∃ u, exec (.chainLink q) s = .next ((Claims.later u).deliver q 0x0704) ∧ u.chain.hopIn.txSleep = false ∧
      u.chain.hopOut.txSleep = false ∧ (u.chain.linkReq = none ↔ s.chain.count = 1 ∨ (u.hopUp .inn && u.hopUp .out) = true) := by
  let v : State := { s.start q 0x0704 with chain := { s.chain with linkReq := some (q.origin, s.aon) } }
  have hrun : exec (.chainLink q) s = .next ((cmdChainLink.run q (s.start q 0x0704)).deliver q 0x0704) :=
    congrArg _ (serve_of_fresh hq (by rw [hp]; rfl))
  have hact : fld q.payload 0 1 = 0 ∧ zeros q.payload 1 7 = true := by rw [hp]; exact ⟨rfl, rfl⟩
  have hwake : cmdChainLink.run q (s.start q 0x0704) = Claims.later v.wakeChain.linkAnswer := by
    simp only [cmdChainLink, hact]
    rfl
  rw [hwake] at hrun
  have hchain := v.wakeChain_chain
  obtain ⟨hreq, hin, hout⟩ := State.linkAnswer_spec (s := v.wakeChain) (o := q.origin) (t := s.aon) (by rw [hchain])
  refine ⟨_, hrun, by rw [hin, hchain], by rw [hout, hchain], ?_⟩
  rw [hreq, hchain]

theorem exec_chainLink_sleeps (q : Req) (s : State) (hq : Claims.Fresh 0x0704 q s) (hp : q.payload = [1, 0, 0, 0, 0, 0, 0, 0])
    (hidle : s.chainArmed = false) (hsend : s.canSend .out = true) :
    ∃ u, exec (.chainLink q) s = .next ((Claims.ok u).deliver q 0x0704) ∧ u.chain = { s.chain with hopOut := { s.chain.hopOut with txSleep := true } } := by
  have hrun : exec (.chainLink q) s = .next ((cmdChainLink.run q (s.start q 0x0704)).deliver q 0x0704) :=
    congrArg _ (serve_of_fresh hq (by rw [hp]; rfl))
  have hact : fld q.payload 0 1 = 1 ∧ zeros q.payload 1 7 = true := by rw [hp]; exact ⟨rfl, rfl⟩
  have hsleep : cmdChainLink.run q (s.start q 0x0704) = Claims.ok ((s.start q 0x0704).sleepDir .out) := by
    simp only [cmdChainLink, hact, show (s.start q 0x0704).chainArmed = false from hidle]
    rfl
  rw [hsleep] at hrun
  exact ⟨_, hrun, State.sleepDir_chain (s := s.start q 0x0704) hsend⟩

/-! ### Enumeration (R360, R361) -/

theorem State.ackChain_keeps (s : State) (h : ChainHdr) : (s.ackChain h).mbx = s.mbx ∧ (s.ackChain h).chain = s.chain := by
  simp [ackChain]

/-- The token is back at the head: the chain is numbered under the next epoch. -/
theorem State.takeEnum_done {s : State} (hstrap : s.chain.strap = true) (hwaits : s.chain.enumWait.isSome = true) (v : Byte) :
    (s.takeEnum v Config.serial).chain.address = some 0 ∧ (s.takeEnum v Config.serial).chain.count = v.toNat ∧
      (s.takeEnum v Config.serial).chain.epoch = s.chain.epoch + 1 ∧ (s.takeEnum v Config.serial).chain.enumWait = none ∧
      Claims.Posts s (s.takeEnum v Config.serial) [0x02D0] := by
  let s1 : State := { s with chain := { s.chain with
    address := some 0, count := v.toNat, epoch := s.chain.epoch + 1, enumWait := none, enumReq := none, reference := true } }
  let m : ChainMsg := { mtype := 0x02, src := 0, dst := 0xFF, body := [v] ++ le 1 s1.chain.epoch.toNat ++ serialBytes }
  have htake : s.takeEnum v Config.serial = ((s1.chainTo .out m).enumEvent 0 s.chain.enumReq .ok).stepTime := by
    rw [takeEnum, if_pos hstrap, if_neg (not_not.2 rfl), if_pos hwaits]
  obtain ⟨hmbx, hchain⟩ := s1.chainTo_keeps .out m
  obtain ⟨hposts, hstep⟩ := (s1.chainTo .out m).enumEvent_stepTime 0 s.chain.enumReq .ok
  rw [hchain] at hstep
  rw [htake, hstep]
  exact ⟨rfl, rfl, rfl, rfl, posts_of_mbx hmbx hposts⟩

theorem exec_enum_returns (h : ChainHdr) (v : Byte) (serial : BitVec 64) (t : Nat) (s : State) (hstrap : s.chain.strap = true)
    (hserial : serial = Config.serial) (hwaits : s.chain.enumWait.isSome = true) : ∃ u, exec (.enum h v serial t) s = .next u ∧
      u.chain.address = some 0 ∧ u.chain.count = v.toNat ∧ u.chain.epoch = s.chain.epoch + 1 ∧ u.chain.enumWait = none ∧ Claims.Posts s u [0x02D0] := by
  subst hserial
  obtain ⟨haddress, hcount, hepoch, hwait, hposts⟩ := State.takeEnum_done (s := (s.at t).ackChain h) hstrap hwaits v
  exact ⟨_, rfl, haddress, hcount, hepoch, hwait, hposts⟩

theorem exec_enum_numbers (h : ChainHdr) (v : Byte) (serial : BitVec 64) (t : Nat) (s : State) (hstrap : s.chain.strap = false)
    (hv : v.toNat ≤ 15) : ∃ u, exec (.enum h v serial t) s = .next u ∧ u.chain.address.map (·.val) = some v.toNat ∧ Claims.Posts s u [] := by
  let s1 : State := { (s.at t).ackChain h with chain := { s.chain with address := some (Fin.ofNat 16 v.toNat) } }
  let m : ChainMsg := { mtype := 0x01, src := 0, dst := 0xFF, body := [v + 1] ++ le 8 serial.toNat }
  have hrun : exec (.enum h v serial t) s = .next (s1.chainTo .out m) :=
    congrArg Host.Outcome.next ((if_neg (Bool.eq_false_iff.1 (show ((s.at t).ackChain h).chain.strap = false from hstrap))).trans
      (if_neg (Nat.not_lt.2 hv)))
  obtain ⟨hmbx, hchain⟩ := s1.chainTo_keeps .out m
  refine ⟨_, hrun, ?_, posts_of_mbx hmbx (posts_nil _)⟩
  rw [hchain]
  exact congrArg some (Nat.mod_eq_of_lt (by omega))

theorem exec_enum_tooLong (h : ChainHdr) (v : Byte) (serial : BitVec 64) (t : Nat) (s : State) (hstrap : s.chain.strap = false)
    (hv : 15 < v.toNat) : ∃ u, exec (.enum h v serial t) s = .next u ∧ u.chain.address = none ∧ Claims.Posts s u [0x02D0] := by
  let s1 : State := { (s.at t).ackChain h with chain := { s.chain with address := none } }
  have hrun : exec (.enum h v serial t) s = .next (s1.enumEvent 1 none .ok) :=
    congrArg Host.Outcome.next ((if_neg (Bool.eq_false_iff.1 (show ((s.at t).ackChain h).chain.strap = false from hstrap))).trans (if_pos hv))
  obtain ⟨hevent, hposts⟩ := s1.enumEvent_spec 1 none .ok
  exact ⟨_, hrun, by rw [hevent], hposts⟩

theorem exec_enumDone_takes (h : ChainHdr) (n : Byte) (e : BitVec 6) (serial : BitVec 64) (t : Nat) (s : State) (hstrap : s.chain.strap = false) :
    ∃ u, exec (.enumDone h n e serial t) s = .next u ∧ u.chain.count = n.toNat ∧ u.chain.epoch = e ∧ Claims.Posts s u [0x02D0] := by
  let a := (s.at t).ackChain h
  let m : ChainMsg := { mtype := 0x02, src := 0, dst := 0xFF, body := [n] ++ le 1 e.toNat ++ le 8 serial.toNat }
  let s3 : State := { a.chainTo .out m with chain := { (a.chainTo .out m).chain with count := n.toNat, epoch := e } }
  have hrun : exec (.enumDone h n e serial t) s = .next ((s3.enumEvent 0 none .ok).stepTime) :=
    if_neg (Bool.eq_false_iff.1 (show a.chain.strap = false from hstrap))
  obtain ⟨hposts, hstep⟩ := s3.enumEvent_stepTime 0 none .ok
  exact ⟨_, hrun, by rw [hstep], by rw [hstep], posts_of_mbx (a.chainTo_keeps .out m).1 hposts⟩

theorem ms_one : ms 1 = 1000000 * 2 ^ 32 := by rw [ms, ns, Nat.mul_one]

theorem exec_enumTimeout_early (t t0 : Nat) (again : Bool) (s : State) (hwait : s.chain.enumWait = some (t0, again))
    (hearly : max s.aon t < t0 + 1000000 * 2 ^ 32) : exec (.enumTimeout t) s = .next (s.at t) := by
  rw [show exec (.enumTimeout t) s = execEnumTimeout t s from rfl]
  unfold execEnumTimeout
  simp only [show (s.at t).chain.enumWait = some (t0, again) from hwait, ms_one]
  exact congrArg Host.Outcome.next (if_neg (Nat.not_le.2 hearly))

theorem exec_enumTimeout_repeats (t t0 : Nat) (again : Bool) (s : State) (hwait : s.chain.enumWait = some (t0, again))
    (hdue : t0 + 1000000 * 2 ^ 32 ≤ max s.aon t) : ∃ u, exec (.enumTimeout t) s = .next u ∧
      u.chain.enumWait = (if again then none else some (max s.aon t, true)) ∧ Claims.Posts s u (if again then [0x02D0] else []) := by
  have hrun : exec (.enumTimeout t) s = .next (if again then
      ({ s.at t with chain := { s.chain with enumWait := none, enumReq := none } } : State).enumEvent 2 s.chain.enumReq .lastingFault
      else (s.at t).sendEnum true) := by
    rw [show exec (.enumTimeout t) s = execEnumTimeout t s from rfl]
    unfold execEnumTimeout
    simp only [show (s.at t).chain.enumWait = some (t0, again) from hwait, ms_one]
    exact congrArg Host.Outcome.next (if_pos hdue)
  refine ⟨_, hrun, ?_⟩
  cases again with
  | false =>
    obtain ⟨hmbx, hchain⟩ := (s.at t).sendEnum_spec true
    exact ⟨by rw [if_neg Bool.false_ne_true, hchain]; rfl, posts_of_mbx hmbx (posts_nil _)⟩
  | true =>
    obtain ⟨hevent, hposts⟩ := State.enumEvent_spec { s.at t with chain := { s.chain with enumWait := none, enumReq := none } } 2 s.chain.enumReq .lastingFault
    exact ⟨by rw [if_pos rfl, hevent]; rfl, hposts⟩

theorem exec_noHead_posts (t t0 : Nat) (s : State) (hup : s.chain.upSince = some t0) (hdue : t0 + 1000000000 * 2 ^ 32 ≤ max s.aon t)
    (hstrap : s.chain.strap = false) (haddress : s.chain.address = none) (hposted : s.chain.noHeadPosted = false) :
    ∃ u, exec (.noHead t) s = .next u ∧ u.chain = { s.chain with noHeadPosted := true } ∧ Claims.Posts s u [0x02D0] := by
  let v : State := { s.at t with chain := { s.chain with noHeadPosted := true } }
  have hrun : exec (.noHead t) s = .next (v.enumEvent 4 none .ok) := by
    rw [show exec (.noHead t) s = execNoHead t s from rfl]
    unfold execNoHead
    simp only [show (s.at t).chain.upSince = some t0 from hup, sec_one]
    have hgo : t0 + 1000000000 * 2 ^ 32 ≤ (s.at t).aon ∧ (s.at t).chain.strap = false ∧ (s.at t).chain.address = none ∧
      (s.at t).chain.noHeadPosted = false := ⟨hdue, hstrap, haddress, hposted⟩
    refine (congrArg Host.Outcome.next (if_pos hgo)).trans ?_
    rw [← hup]
    rfl
  obtain ⟨hevent, hposts⟩ := v.enumEvent_spec 4 none .ok
  exact ⟨_, hrun, by rw [hevent], hposts⟩

theorem exec_chainOfOne_elsewhere (t : Nat) (s : State) (hstrap : s.chain.strap = false) : exec (.chainOfOne t) s = .next (s.at t) :=
  congrArg Host.Outcome.next (if_neg (by rw [show (s.at t).chain.strap = false from hstrap]; exact Bool.false_ne_true))

theorem exec_chainOfOne_numbers (t : Nat) (s : State) (hstrap : s.chain.strap = true) (haddress : s.chain.address = none)
    (hin : (s.at t).silent 32 = true) (hout : (s.at t).silent 33 = true) : ∃ u, exec (.chainOfOne t) s = .next u ∧
      u.chain.address = some 0 ∧ u.chain.count = 1 ∧ u.chain.epoch = s.chain.epoch + 1 ∧ Claims.Posts s u [0x02D0] := by
  let v : State := { s.at t with chain := { s.chain with
    address := some 0, count := 1, epoch := s.chain.epoch + 1, enumWait := none, enumReq := none, rejoining := false } }
  have halone : ((s.at t).chain.strap && ((s.at t).chain.address.isNone || (s.at t).chain.enumWait.isSome) && (s.at t).silent 32 &&
      (s.at t).silent 33) = true := by
    rw [show (s.at t).chain.strap = true from hstrap, show (s.at t).chain.address = none from haddress, hin, hout]
    rfl
  have hrun : exec (.chainOfOne t) s = .next (v.enumEvent 0 s.chain.enumReq .ok) := congrArg Host.Outcome.next (if_pos halone)
  obtain ⟨hevent, hposts⟩ := v.enumEvent_spec 0 s.chain.enumReq .ok
  exact ⟨_, hrun, by rw [hevent], by rw [hevent], by rw [hevent], hposts⟩

/-! ### Rejoining, sleep and wake (R363, R377, R378, R440) -/

/-- A module between two neighbours takes the address between theirs. -/
theorem State.rejoinDecide_between {s : State} {a b n n' : Byte} {e e' : BitVec 6} (hin : s.chain.rejoinIn = some (a, n, e))
    (hout : s.chain.rejoinOut = some (b, n', e')) (hnext : b.toNat = a.toNat + 2) (hlast : b.toNat < n.toNat) (hcount : n.toNat ≤ 16) :
    s.rejoinDecide.chain.address.map (·.val) = some (a.toNat + 1) ∧ s.rejoinDecide.chain.count = n.toNat ∧ s.rejoinDecide.chain.epoch = e ∧
      s.rejoinDecide.chain.rejoining = false := by
  have hmax : max 1 n.toNat = n.toNat := by omega
  have hown : (a.toNat + 1) % n.toNat = a.toNat + 1 := Nat.mod_eq_of_lt (by omega)
  have hpeer : (a.toNat + 2) % n.toNat = a.toNat + 2 := Nat.mod_eq_of_lt (by omega)
  let v : State := { s with chain := { s.chain with
    rejoining := false, rejoinIn := none, rejoinOut := none, address := some (Fin.ofNat 16 (a.toNat + 1)), count := n.toNat, epoch := e } }
  have hdecide : s.rejoinDecide = v.stepTime := by
    unfold rejoinDecide
    simp only [hin, hout, hmax, hown, hpeer]
    exact if_pos ⟨hnext, .inl (Nat.succ_ne_zero _), by omega⟩
  obtain ⟨-, hchain⟩ := v.stepTime_keeps
  rw [hdecide, hchain]
  exact ⟨congrArg some (Nat.mod_eq_of_lt (by omega)), rfl, rfl, rfl⟩

theorem exec_rejoin_between (h : ChainHdr) (a b n : Byte) (e e' : BitVec 6) (t : Nat) (s : State) (hside : h.side = .inn)
    (hrejoining : s.chain.rejoining = true) (hout : s.chain.rejoinOut = some (b, n, e')) (hnext : b.toNat = a.toNat + 2)
    (hlast : b.toNat < n.toNat) (hcount : n.toNat ≤ 16) : ∃ u, exec (.rejoin h (.answer a n e) t) s = .next u ∧
      u.chain.address.map (·.val) = some (a.toNat + 1) ∧ u.chain.count = n.toNat ∧ u.chain.epoch = e ∧ u.chain.rejoining = false := by
  let v : State := { (s.at t).ackChain h with chain := { s.chain with rejoinIn := some (a, n, e) } }
  have hrun : exec (.rejoin h (.answer a n e) t) s = .next v.rejoinDecide := by
    rw [show exec (.rejoin h (.answer a n e) t) s = execRejoin h (.answer a n e) t s from rfl]
    unfold execRejoin
    simp only [hside]
    exact if_pos (show ((s.at t).ackChain h).chain.rejoining = true from hrejoining)
  exact ⟨_, hrun, State.rejoinDecide_between rfl hout hnext hlast hcount⟩

theorem ms_eq (n : Nat) : ms n = n * 1000000 * 2 ^ 32 := by rw [ms, ns, Nat.mul_comm 1000000 n]

theorem exec_chainSleepTimer_never (t : Nat) (s : State) (hoff : s.chain.sleepMs = 0) : exec (.chainSleepTimer t) s = .next (s.at t) :=
  congrArg Host.Outcome.next (if_neg fun hdue => absurd hdue.1 (by rw [show (s.at t).chain.sleepMs = 0 from hoff]; exact Nat.lt_irrefl 0))

theorem exec_chainSleepTimer_sleeps (t : Nat) (s : State) (hon : 0 < s.chain.sleepMs)
    (hdue : s.chain.lastArmed + s.chain.sleepMs * 1000000 * 2 ^ 32 ≤ max s.aon t) (hidle : s.armed = false) (hsend : s.canSend .inn = true) :
    ∃ u, exec (.chainSleepTimer t) s = .next u ∧ u.chain = { s.chain with hopIn := { s.chain.hopIn with txSleep := true } } := by
  rw [← ms_eq] at hdue
  have hrun : exec (.chainSleepTimer t) s = .next ((s.at t).sleepDir .inn) := congrArg Host.Outcome.next (if_pos ⟨hon, hdue, hidle⟩)
  exact ⟨_, hrun, State.sleepDir_chain (s := s.at t) hsend⟩

theorem exec_chainWakeTimeout_early (t t0 : Nat) (o : Origin) (s : State) (hreq : s.chain.linkReq = some (o, t0))
    (hearly : max s.aon t < t0 + 2000000 * 2 ^ 32) : exec (.chainWakeTimeout t) s = .next (s.at t) := by
  rw [show exec (.chainWakeTimeout t) s = execChainWakeTimeout t s from rfl]
  unfold execChainWakeTimeout
  simp only [show (s.at t).chain.linkReq = some (o, t0) from hreq, ms_eq]
  exact congrArg Host.Outcome.next (if_neg fun h => absurd h.1 (Nat.not_le.2 hearly))

theorem exec_chainWakeTimeout_fails (t t0 : Nat) (o : Origin) (s : State) (hreq : s.chain.linkReq = some (o, t0))
    (hdue : t0 + 2000000 * 2 ^ 32 ≤ max s.aon t) (hcount : s.chain.count ≠ 1) (hdown : (s.hopUp .inn && s.hopUp .out) = false) :
    ∃ u, exec (.chainWakeTimeout t) s = .next u ∧ u.chain = { s.chain with linkReq := none } := by
  let v : State := { s.at t with chain := { s.chain with linkReq := none } }
  have hrun : exec (.chainWakeTimeout t) s = .next (v.resolve o .lastingFault (s.at t).directionsDown []) := by
    rw [show exec (.chainWakeTimeout t) s = execChainWakeTimeout t s from rfl]
    unfold execChainWakeTimeout
    simp only [show (s.at t).chain.linkReq = some (o, t0) from hreq, ms_eq]
    exact congrArg Host.Outcome.next (if_pos ⟨hdue, hcount, hdown⟩)
  exact ⟨_, hrun, by rw [v.resolve_eq]⟩

/-! ### The obligation -/

/-- Settles O55: one run of each command and event of the chain. -/
theorem chainComplete : Obligations.ChainComplete := by
  unfold Obligations.ChainComplete
  exact ⟨exec_chainStatus_answers,
    fun q s hq => ⟨exec_chainEnumerate_elsewhere q s hq, exec_chainEnumerate_begins q s hq⟩,
    exec_chainConfig_sets, fun q s hq => ⟨exec_chainLink_wakes q s hq, exec_chainLink_sleeps q s hq⟩,
    fun h v serial t s => ⟨exec_enum_returns h v serial t s, exec_enum_numbers h v serial t s, exec_enum_tooLong h v serial t s⟩,
    exec_enumDone_takes, fun t t0 again s hwait => ⟨exec_enumTimeout_early t t0 again s hwait, exec_enumTimeout_repeats t t0 again s hwait⟩,
    exec_noHead_posts, fun t s => ⟨exec_chainOfOne_elsewhere t s, exec_chainOfOne_numbers t s⟩, exec_rejoin_between,
    fun t s => ⟨exec_chainSleepTimer_never t s, exec_chainSleepTimer_sleeps t s⟩,
    fun t t0 o s hreq => ⟨exec_chainWakeTimeout_early t t0 o s hreq, exec_chainWakeTimeout_fails t t0 o s hreq⟩⟩

end Sys2Proof.Machine
end

section
/-! PROOF. Acknowledgements, hops lost and restored, chain time and beacons (15 R357 to R359, R364, R365, R367, R369, R374): O56. -/

namespace Sys2Proof.Machine

/-! ### One hop and its lane (R357, R374) -/

@[simp] theorem State.hop_setHop_self (s : State) (side : Side) (h : Hop) : (s.setHop side h).hop side = h := by cases side <;> rfl

theorem State.hop_setHop_otherSide (s : State) (side : Side) (h : Hop) : (s.setHop (otherSide side) h).hop side = s.hop side := by cases side <;> rfl

/-- This hop and its lane, and what was posted and told, are as before. -/
structure HopKept (side : Side) (s u : State) : Prop where
  hop : u.hop side = s.hop side
  lane : (u.lane (hopLane side)) = s.lane (hopLane side)
  mbx : u.mbx = s.mbx
  fsv : u.fsv = s.fsv
  aon : u.aon = s.aon

theorem HopKept.refl {side : Side} (s : State) : HopKept side s s := ⟨rfl, rfl, rfl, rfl, rfl⟩

theorem HopKept.trans {side : Side} {s t u : State} (h₁ : HopKept side s t) (h₂ : HopKept side t u) : HopKept side s u :=
  ⟨h₂.hop.trans h₁.hop, h₂.lane.trans h₁.lane, h₂.mbx.trans h₁.mbx, h₂.fsv.trans h₁.fsv, h₂.aon.trans h₁.aon⟩

theorem State.hopKept_setHop (s : State) (side : Side) (h : Hop) : HopKept side s (s.setHop (otherSide side) h) where
  hop := s.hop_setHop_otherSide side h
  lane := by simp [lane]
  mbx := by simp
  fsv := by simp
  aon := by simp

theorem State.hopKept_laneOut (s : State) (side : Side) (l : Fin 34) (b : List (Bool × BitVec 64)) : HopKept side s (s.laneOut l b) :=
  ⟨by cases side <;> rfl, rfl, rfl, rfl, rfl⟩

/-- A message sent on the other side. -/
theorem State.hopKept_chainTo (s : State) (side : Side) (m : ChainMsg) : HopKept side s (s.chainTo (otherSide side) m) := by
  have hpump (u : State) : HopKept side u (u.chainPump (otherSide side)) := by
    unfold chainPump
    dsimp only
    split
    next => exact (u.hopKept_setHop side _).trans (hopKept_laneOut ..)
    next => exact .refl u
  exact ite_rel ((s.hopKept_setHop side _).trans (hpump _)) (.refl s)

/-- A hop that is lost retrains with its cause, on a chain longer than two without a word about the peer. -/
theorem State.loseHop_spec (s : State) (side : Side) (cause : BitVec 4) (hcount : s.chain.count ≠ 2) : let u := s.loseHop side cause
    (u.hop side).retrain = some (s.aon, cause) ∧ (u.lane (hopLane side)).state = .retrain ∧ Claims.Posts s u [0x02D1] ∧
      ∃ d, u.fsv.inbox = s.fsv.inbox ++ [.detect d s.aon] ∧ d.outcome = .pending := by
  let h := s.hop side
  let s1 := s.setHop side { h with retrain := some (s.aon, cause), lostAt := some s.aon, tx := { h.tx with wait := none, queue := [] } }
  let s2 := (s1.updLane (hopLane side) (fun n => { n with
    state := .retrain, stage := 3, since := s.aon, lossMask := cause, partnerReady := false
    sync := if cause &&& 5 = 0 then n.sync else BlockSync.init })).hopEvent side cause clsPending
  let s3 := (s2.detect (hopDetect side .pending)).sendTraining (hopLane side) 3
  let waiting := (match h.tx.wait with | some w => [w.2.1] | none => []) ++ h.tx.queue
  have hlose : s.loseHop side cause = waiting.foldl (fun s m => s.chainTo (otherSide side) m) s3 := by
    unfold loseHop
    dsimp only
    split
    next => exact if_neg fun hpeer => hcount hpeer.1
    next => rfl
  have hkept : HopKept side s3 (s.loseHop side cause) := by
    rw [hlose]
    exact foldl_rel HopKept.refl HopKept.trans (fun u m => u.hopKept_chainTo side m) waiting s3
  have haon : s2.aon = s.aon := by simp [s2, s1, hopEvent]
  have hmbx : s1.mbx = s.mbx := by simp [s1]
  have hfsv : s1.fsv = s.fsv := by simp [s1]
  intro u
  refine ⟨?_, ?_, ?_, hopDetect side .pending, ?_, rfl⟩
  · rw [hkept.hop]
    exact congrArg Hop.retrain (s.hop_setHop_self side _)
  · rw [hkept.lane]
    show ((State.sendTraining _ (hopLane side) 3).lane (hopLane side)).state = _
    rw [lane_sendTraining_self]
    show ((s1.updLane (hopLane side) _).lane (hopLane side)).state = _
    rw [lane_updLane_self]
  · rw [Claims.Posts, hkept.mbx]
    exact posts_of_mbx (t := s1) hmbx List.map_append
  · rw [hkept.fsv]
    show s1.fsv.inbox ++ [.detect _ s2.aon] = _
    rw [hfsv, haon]

/-! ### Acknowledgements (R357, R358) -/

theorem State.chainPump_of_nil {s : State} {side : Side} (h : (s.hop side).tx.queue = []) : s.chainPump side = s := by
  unfold chainPump
  simp only [h]
  split
  next hnext => cases hnext
  next => rfl

/-- A good acknowledgement of the message that waits, by its result. -/
theorem exec_chnAck_of_wait (side : Side) (blk : BitVec 64) (t t0 : Nat) (s : State) (n : Byte) (m : ChainMsg)
    (hwait : (s.hop side).tx.wait = some (n, m, false, t0)) (hgood : ((blockBytes blk).getD 0 0 == 0xC3 && chkOk blk) = true)
    (hseq : (blockBytes blk).getD 1 0 = n) :
    exec (.chnAck side blk t) s = .next (if (blockBytes blk).getD 2 0 = 0 then
      (((s.at t).setHop side { s.hop side with tx := { (s.hop side).tx with wait := none } }).chainPump side) else (s.at t).hopMiss side) := by
  rw [show exec (.chnAck side blk t) s = execChnAck side blk t s from rfl]
  unfold execChnAck
  simp only [show ((s.at t).hop side) = s.hop side by cases side <;> rfl, hgood, hwait, hseq, Bool.not_true, Bool.false_eq_true, if_false, bne_self_eq_false]
  split <;> rfl

/-- A miss of a message sent once sends it again. -/
theorem State.hopMiss_resends {s : State} {side : Side} {n : Byte} {m : ChainMsg} {t0 : Nat}
    (hwait : (s.hop side).tx.wait = some (n, m, false, t0)) :
    ((s.hopMiss side).hop side).tx.wait = some (n, m, true, s.aon) ∧ Claims.Posts s (s.hopMiss side) [0x02D1] := by
  let s1 := s.setHop side { s.hop side with tx := { (s.hop side).tx with wait := some (n, m, true, s.aon) } }
  have hmbx : s1.mbx = s.mbx := by simp [s1]
  have hmiss : s.hopMiss side = (((s1.laneOut (hopLane side) (m.blocks side n true s.chain.epoch)).hopEvent side 0 clsPending).detect
      (hopDetect side .pending)) := by
    unfold hopMiss
    simp only [hwait, Bool.false_eq_true, if_false]
    rfl
  rw [hmiss]
  refine ⟨?_, posts_of_mbx (t := s1) hmbx List.map_append⟩
  rw [show ((((s1.laneOut (hopLane side) (m.blocks side n true s.chain.epoch)).hopEvent side 0 clsPending).detect
    (hopDetect side .pending)).hop side) = s1.hop side by cases side <;> rfl]
  exact congrArg (fun h : Hop => h.tx.wait) (s.hop_setHop_self side _)

theorem exec_chnAck_ok (side : Side) (blk : BitVec 64) (t t0 : Nat) (s : State) (n : Byte) (m : ChainMsg)
    (hwait : (s.hop side).tx.wait = some (n, m, false, t0)) (hgood : ((blockBytes blk).getD 0 0 == 0xC3 && chkOk blk) = true)
    (hseq : (blockBytes blk).getD 1 0 = n) (hok : (blockBytes blk).getD 2 0 = 0) (hqueue : (s.hop side).tx.queue = []) :
    exec (.chnAck side blk t) s = .next ((s.at t).setHop side { s.hop side with tx := { (s.hop side).tx with wait := none } }) := by
  rw [exec_chnAck_of_wait side blk t t0 s n m hwait hgood hseq, if_pos hok, State.chainPump_of_nil]
  rw [State.hop_setHop_self]
  exact hqueue

theorem exec_chnAck_resends (side : Side) (blk : BitVec 64) (t t0 : Nat) (s : State) (n : Byte) (m : ChainMsg)
    (hwait : (s.hop side).tx.wait = some (n, m, false, t0)) (hgood : ((blockBytes blk).getD 0 0 == 0xC3 && chkOk blk) = true)
    (hseq : (blockBytes blk).getD 1 0 = n) (hbad : (blockBytes blk).getD 2 0 ≠ 0) :
    ∃ u, exec (.chnAck side blk t) s = .next u ∧ (u.hop side).tx.wait = some (n, m, true, max s.aon t) ∧ Claims.Posts s u [0x02D1] := by
  refine ⟨_, exec_chnAck_of_wait side blk t t0 s n m hwait hgood hseq, ?_⟩
  rw [if_neg hbad]
  exact State.hopMiss_resends (s := s.at t) (t0 := t0) (by cases side <;> exact hwait)

theorem exec_chnAckTimeout_of_wait (side : Side) (t t0 : Nat) (s : State) (n : Byte) (m : ChainMsg) (resend : Bool)
    (hwait : (s.hop side).tx.wait = some (n, m, resend, t0)) :
    exec (.chnAckTimeout side t) s = .next (if t0 + 2000 * 2 ^ 32 ≤ max s.aon t then (s.at t).hopMiss side else s.at t) := by
  rw [show exec (.chnAckTimeout side t) s = execChnAckTimeout side t s from rfl]
  unfold execChnAckTimeout
  simp only [show ((s.at t).hop side) = s.hop side by cases side <;> rfl, hwait, us_eq]
  rfl

theorem exec_chnAckTimeout_early (side : Side) (t t0 : Nat) (s : State) (n : Byte) (m : ChainMsg) (resend : Bool)
    (hwait : (s.hop side).tx.wait = some (n, m, resend, t0)) (hearly : max s.aon t < t0 + 2000 * 2 ^ 32) :
    exec (.chnAckTimeout side t) s = .next (s.at t) :=
  (exec_chnAckTimeout_of_wait side t t0 s n m resend hwait).trans (congrArg _ (if_neg (Nat.not_le.2 hearly)))

theorem exec_chnAckTimeout_loses (side : Side) (t t0 : Nat) (s : State) (n : Byte) (m : ChainMsg) (resend : Bool)
    (hwait : (s.hop side).tx.wait = some (n, m, resend, t0)) (hdue : t0 + 2000 * 2 ^ 32 ≤ max s.aon t) (hresend : resend = true)
    (hcount : s.chain.count ≠ 2) : ∃ u, exec (.chnAckTimeout side t) s = .next u ∧
      (u.hop side).retrain = some (max s.aon t, 0) ∧ (u.lane (hopLane side)).state = .retrain ∧ Claims.Posts s u [0x02D1] := by
  subst hresend
  have hmiss : (s.at t).hopMiss side = (s.at t).loseHop side 0 := by
    unfold State.hopMiss
    simp only [show ((s.at t).hop side) = s.hop side by cases side <;> rfl, hwait]
    rfl
  obtain ⟨hretrain, hlane, hposts, -⟩ := (s.at t).loseHop_spec side 0 hcount
  exact ⟨_, (exec_chnAckTimeout_of_wait side t t0 s n m true hwait).trans (congrArg _ ((if_pos hdue).trans hmiss)), hretrain, hlane, hposts⟩

/-! ### Hops lost, restored and down (R374) -/

theorem exec_hopLoss_asleep (side : Side) (c : BitVec 4) (hs : List (BitVec 2)) (t : Nat) (s : State) (hsleep : (s.hop side).rxSleep = true) :
    exec (.hopLoss side c hs t) s = .next (s.at t) := by
  have hheld : ¬ (((s.at t).lane (hopLane side)).state == .active && ((s.at t).hop side).retrain.isNone && !((s.at t).hop side).rxSleep) = true := by
    rw [show ((s.at t).hop side) = s.hop side by cases side <;> rfl, hsleep, Bool.not_true, Bool.and_false]
    exact Bool.false_ne_true
  exact congrArg Host.Outcome.next (if_neg hheld)

theorem exec_hopLoss_loses (side : Side) (c : BitVec 4) (hs : List (BitVec 2)) (t : Nat) (s : State) :
    let all := (c &&& 5) ||| (if (s.lane (hopLane side)).sync.loses hs then 2 else 0)
    (s.lane (hopLane side)).state = .active → (s.hop side).retrain = none → (s.hop side).rxSleep = false → all ≠ 0 → s.chain.count ≠ 2 →
      ∃ u d, exec (.hopLoss side c hs t) s = .next u ∧ (u.hop side).retrain = some (max s.aon t, all) ∧
        (u.lane (hopLane side)).state = .retrain ∧ Claims.Posts s u [0x02D1] ∧ Claims.Tells s u [.detect d (max s.aon t)] ∧ d.outcome = .pending := by
  intro all hactive hretrain hawake hcause hcount
  let v := (s.at t).updLane (hopLane side) (fun n => { n with
    sync := hs.foldl BlockSync.header n.sync, signalAt := if c.getLsbD 0 then none else n.signalAt })
  have hgo : (((s.at t).lane (hopLane side)).state == .active && ((s.at t).hop side).retrain.isNone && !((s.at t).hop side).rxSleep) = true := by
    rw [show ((s.at t).hop side) = s.hop side by cases side <;> rfl, show ((s.at t).lane (hopLane side)).state = .active from hactive, hretrain, hawake]
    rfl
  have hrun : exec (.hopLoss side c hs t) s = .next (v.loseHop side all) :=
    congrArg Host.Outcome.next ((if_pos hgo).trans (if_neg hcause))
  obtain ⟨hlost, hlane, hposts, d, htold, hpending⟩ := v.loseHop_spec side all hcount
  exact ⟨_, d, hrun, hlost, hlane, hposts, htold, hpending⟩

theorem exec_hopRetrainDone_of_retrain (side : Side) (t t0 : Nat) (c : BitVec 4) (s : State) (hretrain : (s.hop side).retrain = some (t0, c)) :
    exec (.hopRetrainDone side t) s = .next (if t0 + 100000 * 2 ^ 32 < max s.aon t then (s.at t).hopDown side c
      else if (s.lane (hopLane side)).stage = 4 ∧ s.chainAligned (hopLane side) = true then (s.at t).hopBack side c else s.at t) := by
  rw [show exec (.hopRetrainDone side t) s = execHopRetrainDone side t s from rfl]
  unfold execHopRetrainDone
  simp only [show ((s.at t).hop side) = s.hop side by cases side <;> rfl, hretrain, us_eq]
  rfl

/-- A restored hop before its partner is looked at: READY, no longer retraining, and announced as transient. -/
def State.hopReady (s : State) (side : Side) (cause : BitVec 4) : State :=
  ((((s.setHop side { s.hop side with retrain := none }).updLane (hopLane side) (fun n => { n with
    state := .ready, since := s.aon, transients := satAdd n.transients 1 })).hopEvent side cause clsTransient).detect
      (hopDetect side .transient)).sendTraining (hopLane side) 6

theorem State.hopBack_eq (s : State) (side : Side) (cause : BitVec 4) : s.hopBack side cause =
    if ((s.hopReady side cause).lane (hopLane side)).partnerReady then
      ((s.hopReady side cause).updLane (hopLane side) (fun n => { n with state := .active })).hopActive side else s.hopReady side cause := rfl

theorem State.hopReady_chain (s : State) (side : Side) (cause : BitVec 4) :
    (s.hopReady side cause).chain = s.chain.withHop side { s.hop side with retrain := none } :=
  s.setHop_chain side _

theorem State.hopReady_hop (s : State) (side : Side) (cause : BitVec 4) : (s.hopReady side cause).hop side = { s.hop side with retrain := none } := by
  cases side with
  | inn => exact congrArg Chain.hopIn (s.hopReady_chain .inn cause)
  | out => exact congrArg Chain.hopOut (s.hopReady_chain .out cause)

theorem State.hopReady_lane (s : State) (side : Side) (cause : BitVec 4) :
    ((s.hopReady side cause).lane (hopLane side)).state = .ready ∧
      ((s.hopReady side cause).lane (hopLane side)).transients = satAdd (s.lane (hopLane side)).transients 1 ∧
      ((s.hopReady side cause).lane (hopLane side)).partnerReady = (s.lane (hopLane side)).partnerReady := by
  let s1 := s.setHop side { s.hop side with retrain := none }
  have hlane : s1.lane (hopLane side) = s.lane (hopLane side) := by simp [s1, lane]
  rw [hopReady, lane_sendTraining_self]
  show ((s1.updLane (hopLane side) _).lane (hopLane side)).state = _ ∧ ((s1.updLane (hopLane side) _).lane (hopLane side)).transients = _ ∧
    ((s1.updLane (hopLane side) _).lane (hopLane side)).partnerReady = _
  rw [lane_updLane_self, hlane]
  exact ⟨rfl, rfl, rfl⟩

theorem State.hopReady_posts (s : State) (side : Side) (cause : BitVec 4) : Claims.Posts s (s.hopReady side cause) [0x02D1] := by
  have hmbx : (s.setHop side { s.hop side with retrain := none }).mbx = s.mbx := by simp
  rw [Claims.Posts, hopReady, ← hmbx]
  exact List.map_append

theorem exec_hopRetrainDone_ready (side : Side) (t t0 : Nat) (c : BitVec 4) (s : State) (hretrain : (s.hop side).retrain = some (t0, c))
    (hsoon : max s.aon t ≤ t0 + 100000 * 2 ^ 32) (hstage : (s.lane (hopLane side)).stage = 4) (haligned : s.chainAligned (hopLane side) = true)
    (hpartner : (s.lane (hopLane side)).partnerReady = false) :
    ∃ u, exec (.hopRetrainDone side t) s = .next u ∧ (u.hop side).retrain = none ∧ (u.lane (hopLane side)).state = .ready ∧
      (u.lane (hopLane side)).transients = satAdd (s.lane (hopLane side)).transients 1 ∧ Claims.Posts s u [0x02D1] := by
  have hrun := exec_hopRetrainDone_of_retrain side t t0 c s hretrain
  rw [if_neg (Nat.not_lt.2 hsoon), if_pos ⟨hstage, haligned⟩, State.hopBack_eq] at hrun
  obtain ⟨hstate, htransients, hready⟩ := (s.at t).hopReady_lane side c
  rw [if_neg (Bool.eq_false_iff.1 (hready.trans hpartner))] at hrun
  exact ⟨_, hrun, by rw [State.hopReady_hop], hstate, htransients, (s.at t).hopReady_posts side c⟩

/-- A hop that was not down becomes active: of the chain's state only its own hop and the start of being up may change. -/
theorem State.hopActive_spec {s : State} {side : Side} (hdown : (s.hop side).down = false) (hrejoining : s.chain.rejoining = false)
    (hstrap : s.chain.strap = false) (hlink : s.chain.linkReq = none) :
    ((s.hopActive side).hop side).retrain = none ∧ (s.hopActive side).hlk = s.hlk ∧ (s.hopActive side).mbx = s.mbx := by
  let s1 := s.setHop side { s.hop side with down := false, retrain := none }
  have hchain : s1.chain = s.chain.withHop side { s.hop side with down := false, retrain := none } := s.setHop_chain side _
  have hkept : s1.chain.rejoining = false ∧ s1.chain.strap = false ∧ s1.chain.linkReq = none := by
    rw [hchain]
    cases side <;> exact ⟨hrejoining, hstrap, hlink⟩
  obtain ⟨hrejoining1, hstrap1, hlink1⟩ := hkept
  have hquiet (u : State) (up : Bool) (hr : u.chain.rejoining = false) (hs : u.chain.strap = false) (hl : u.chain.linkReq = none) :
      (if u.chain.rejoining then u.askRejoin side else if up && u.chain.strap && u.chain.address.isNone then u.sendEnum false else u).linkAnswer = u := by
    rw [hr, hs, Bool.and_false, Bool.false_and, if_neg Bool.false_ne_true, if_neg Bool.false_ne_true]
    unfold linkAnswer
    simp only [hl]
  have hactive : s.hopActive side = s1 ∨ s.hopActive side = { s1 with chain := { s1.chain with upSince := some s1.aon } } := by
    unfold hopActive
    simp only [hdown, Bool.false_eq_true, if_false]
    rw [show s.setHop side { s.hop side with down := false, retrain := none } = s1 from rfl]
    split
    · exact .inr (hquiet _ _ hrejoining1 hstrap1 hlink1)
    · exact .inl (hquiet _ _ hrejoining1 hstrap1 hlink1)
  have hhop : s1.hop side = { s.hop side with down := false, retrain := none } := s.hop_setHop_self side _
  have hsame : s1.hlk = s.hlk ∧ s1.mbx = s.mbx := by simp [s1]
  rcases hactive with h | h <;> rw [h]
  · exact ⟨by rw [hhop], hsame⟩
  · refine ⟨?_, hsame⟩
    rw [show State.hop { s1 with chain := { s1.chain with upSince := some s1.aon } } side = s1.hop side by cases side <;> rfl, hhop]

theorem exec_hopRetrainDone_active (side : Side) (t t0 : Nat) (c : BitVec 4) (s : State) (hretrain : (s.hop side).retrain = some (t0, c))
    (hsoon : max s.aon t ≤ t0 + 100000 * 2 ^ 32) (hstage : (s.lane (hopLane side)).stage = 4) (haligned : s.chainAligned (hopLane side) = true)
    (hpartner : (s.lane (hopLane side)).partnerReady = true) (hdown : (s.hop side).down = false) (hrejoining : s.chain.rejoining = false)
    (hstrap : s.chain.strap = false) (hlink : s.chain.linkReq = none) :
    ∃ u, exec (.hopRetrainDone side t) s = .next u ∧ (u.hop side).retrain = none ∧ (u.lane (hopLane side)).state = .active ∧
      Claims.Posts s u [0x02D1] := by
  have hrun := exec_hopRetrainDone_of_retrain side t t0 c s hretrain
  rw [if_neg (Nat.not_lt.2 hsoon), if_pos ⟨hstage, haligned⟩, State.hopBack_eq] at hrun
  obtain ⟨-, -, hready⟩ := (s.at t).hopReady_lane side c
  have hhop := (s.at t).hopReady_hop side c
  have hposts := (s.at t).hopReady_posts side c
  have hchain := (s.at t).hopReady_chain side c
  rw [if_pos (hready.trans hpartner)] at hrun
  generalize (s.at t).hopReady side c = v at hrun hhop hposts hchain
  let w := v.updLane (hopLane side) (fun n => { n with state := .active })
  have hwhop : w.hop side = v.hop side := by cases side <;> rfl
  have hw : w.chain.rejoining = false ∧ w.chain.strap = false ∧ w.chain.linkReq = none := by
    rw [show w.chain = v.chain from rfl, hchain]
    cases side <;> exact ⟨hrejoining, hstrap, hlink⟩
  obtain ⟨hwrejoining, hwstrap, hwlink⟩ := hw
  have hwdown : (w.hop side).down = false := by
    rw [hwhop, hhop, show (s.at t).hop side = s.hop side by cases side <;> rfl]
    exact hdown
  obtain ⟨hactive, hhlk, hmbx⟩ := State.hopActive_spec hwdown hwrejoining hwstrap hwlink
  refine ⟨_, hrun, hactive, ?_, ?_⟩
  · rw [State.lane, hhlk]
    show (w.lane (hopLane side)).state = _
    rw [State.lane_updLane_self]
  · rw [Claims.Posts, hmbx]
    exact hposts

theorem exec_hopRetrainDone_waits (side : Side) (t t0 : Nat) (c : BitVec 4) (s : State) (hretrain : (s.hop side).retrain = some (t0, c))
    (hsoon : max s.aon t ≤ t0 + 100000 * 2 ^ 32) (hstage : (s.lane (hopLane side)).stage ≠ 4) :
    exec (.hopRetrainDone side t) s = .next (s.at t) := by
  rw [exec_hopRetrainDone_of_retrain side t t0 c s hretrain, if_neg (Nat.not_lt.2 hsoon), if_neg fun h => hstage h.1]

theorem exec_hopRetrainDone_down (side : Side) (t t0 : Nat) (c : BitVec 4) (s : State) (hretrain : (s.hop side).retrain = some (t0, c))
    (hlate : t0 + 100000 * 2 ^ 32 < max s.aon t) : ∃ u, exec (.hopRetrainDone side t) s = .next u ∧ (u.hop side).retrain = none ∧
      (u.hop side).down = true ∧ Claims.Posts s u [0x02D1, 0x02D2] := by
  have hrun := exec_hopRetrainDone_of_retrain side t t0 c s hretrain
  rw [if_pos hlate] at hrun
  let s1 := (s.at t).setHop side { (s.at t).hop side with retrain := none, down := true }
  have hmbx : s1.mbx = s.mbx := by simp [s1]
  have hhop : ((s.at t).hopDown side c).hop side = s1.hop side := by cases side <;> rfl
  have hset : s1.hop side = { (s.at t).hop side with retrain := none, down := true } := (s.at t).hop_setHop_self side _
  have hposts : Claims.Posts s1 ((s.at t).hopDown side c) ([0x02D1] ++ [0x02D2]) :=
    posts_trans (t := (s1.updLane (hopLane side) (fun n => n.begin_ LaneCfg.init (s.at t).aon)).hopEvent side c clsLasting) List.map_append List.map_append
  exact ⟨_, hrun, by rw [hhop, hset], by rw [hhop, hset], posts_of_mbx hmbx hposts⟩

/-! ### Chain time and beacons (R364, R365, R367, R369) -/

theorem exec_sync_leads (side : Side) (t1 t2 t3 t4 : Nat) (s : State) (hsend : s.canSend side = true) :
    ∃ u, exec (.sync side t1 t2 t3 t4) s = .next u ∧
      (u.hop side).lead = (((t2 : Int) - t1) + ((t3 : Int) - t4)).fdiv 2 ∧ (u.hop side).tx = (s.hop side).tx := by
  let lead : Int := (((t2 : Int) - t1) + ((t3 : Int) - t4)).fdiv 2
  let s1 := s.setHop side { s.hop side with delay := ((((t4 : Int) - t1) - ((t3 : Int) - t2)).fdiv 2).toNat, lead := lead }
  let follows := if s.chain.strap then s.chain.rejoining else s.chain.address.isNone || s.headSide == some side
  have hrun : exec (.sync side t1 t2 t3 t4) s = .next (if follows then s1.slewTo (s1.chain.offsetAt s1.aon + lead) else s1) := if_pos hsend
  have hhop : (if follows then s1.slewTo (s1.chain.offsetAt s1.aon + lead) else s1).hop side = s1.hop side := by
    split
    · cases side <;> rfl
    · rfl
  refine ⟨_, hrun, ?_⟩
  rw [hhop, State.hop_setHop_self]
  exact ⟨rfl, rfl⟩

/-- What is known of beacons stays: the last one, when it came, and the sample of P. -/
structure BeaconKept (s u : State) : Prop where
  last : u.chain.last = s.chain.last
  lastAt : u.chain.lastAt = s.chain.lastAt
  sampleK : u.chain.sampleK = s.chain.sampleK
  samplePos : u.chain.samplePos = s.chain.samplePos

theorem BeaconKept.refl (s : State) : BeaconKept s s := ⟨rfl, rfl, rfl, rfl⟩

theorem BeaconKept.trans {s t u : State} (h₁ : BeaconKept s t) (h₂ : BeaconKept t u) : BeaconKept s u :=
  ⟨h₂.last.trans h₁.last, h₂.lastAt.trans h₁.lastAt, h₂.sampleK.trans h₁.sampleK, h₂.samplePos.trans h₁.samplePos⟩

theorem BeaconKept.of_hops {s u : State} (h : HopsOnly s u) : BeaconKept s u := by
  rw [HopsOnly] at h
  exact ⟨by rw [h], by rw [h], by rw [h], by rw [h]⟩

theorem BeaconKept.of_chain {s u : State} (h : u.chain = s.chain) : BeaconKept s u := .of_hops (.of_chain h)

theorem State.beaconKept_storeRef (s : State) (b : Beacon) (own : BeaconSlot) : BeaconKept s (s.storeRef b own) := by
  unfold storeRef
  exact ⟨by dsimp only, by dsimp only, by dsimp only, by dsimp only⟩

theorem State.beaconKept_crossCheck (s : State) (b : Beacon) (own : BeaconSlot) : BeaconKept s (s.crossCheck b own) := by
  unfold crossCheck
  dsimp only
  (repeat' split) <;> exact ⟨by simp, by simp, by simp, by simp⟩

theorem State.beaconKept_geomCheck (s : State) (b : Beacon) (own : BeaconSlot) : BeaconKept s (s.geomCheck b own) := by
  refine foldl_rel BeaconKept.refl BeaconKept.trans (fun u i => ?_) _ s
  split
  next => exact .refl u
  next x _ =>
    refine ite_rel (.refl u) ?_
    have hpost (c : Prop) [Decidable c] (v : State) (data : List DataField) : BeaconKept v (if c then v.post 0x02D6 clsJob data else v) :=
      ite_rel (.of_chain rfl) (.refl v)
    exact ((hpost _ u _).trans (hpost _ _ _)).trans ⟨rfl, rfl, rfl, rfl⟩

/-- The chain's state with a beacon taken as the last one. -/
def State.withBeacon (s0 : State) (s : State) (b : Beacon) : State :=
  let s1 := s0.peersBack b
  { s1 with chain := { s1.chain with
    last := some b, lastAt := s.aon, lossPosted := false
    originator := s1.chain.originator && (b.slot 0).isNone
    seqGaps := if (match s.chain.last with | some l => b.seq != l.seq + 1 | none => false) then satAdd s1.chain.seqGaps 1 else s1.chain.seqGaps
    lastArmed := if b.slots.any (fun x => x.filled && x.armed) then s.aon else s1.chain.lastArmed } }

theorem State.readBeacon_eq (s : State) (b : Beacon) :
    let s2 := State.withBeacon ((if s.chain.lossPosted then s.detect { fclass := fcChain, source := srcChn, outcome := .transient } else s).drq 19) s b
    s.readBeacon b = match s2.chain.address.bind b.slot with
      | none => s2
      | some own => (if b.reference then s2.storeRef b own else s2.crossCheck b own).geomCheck b own := by
  unfold readBeacon withBeacon
  rfl

theorem State.readBeacon_cases (s : State) (b : Beacon) : ∃ s2 : State,
    (s2.chain.last = some b ∧ s2.chain.lastAt = s.aon ∧ s2.chain.sampleK = s.chain.sampleK ∧ s2.chain.samplePos = s.chain.samplePos) ∧
      (s.readBeacon b = s2 ∨ ∃ own, s.readBeacon b = (if b.reference then s2.storeRef b own else s2.crossCheck b own).geomCheck b own) := by
  have hchain : ((if s.chain.lossPosted then s.detect { fclass := fcChain, source := srcChn, outcome := .transient } else s).drq 19).chain = s.chain := by
    split <;> rfl
  refine ⟨State.withBeacon _ s b, ⟨rfl, rfl, congrArg (·.sampleK) hchain, congrArg (·.samplePos) hchain⟩, ?_⟩
  rw [readBeacon_eq]
  split
  next => exact .inl rfl
  next own _ => exact .inr ⟨own, rfl⟩

/-- A beacon that is read becomes the last one, and the sample of P stays. -/
theorem State.readBeacon_spec (s : State) (b : Beacon) : (s.readBeacon b).chain.last = some b ∧ (s.readBeacon b).chain.lastAt = s.aon ∧
    (s.readBeacon b).chain.sampleK = s.chain.sampleK ∧ (s.readBeacon b).chain.samplePos = s.chain.samplePos := by
  obtain ⟨s2, ⟨hlast, hlastAt, hk, hpos⟩, hread⟩ := s.readBeacon_cases b
  have hkept : BeaconKept s2 (s.readBeacon b) := by
    rcases hread with h | ⟨own, h⟩
    · rw [h]
      exact .refl s2
    · have hcompared : BeaconKept s2 (if b.reference then s2.storeRef b own else s2.crossCheck b own) :=
        ite_rel (s2.beaconKept_storeRef b own) (s2.beaconKept_crossCheck b own)
      rw [h]
      generalize (if b.reference then s2.storeRef b own else s2.crossCheck b own) = v at hcompared
      exact hcompared.trans (v.beaconKept_geomCheck b own)
  exact ⟨hkept.last.trans hlast, hkept.lastAt.trans hlastAt, hkept.sampleK.trans hk, hkept.samplePos.trans hpos⟩

theorem exec_beacon_read (h : ChainHdr) (b : Beacon) (t : Nat) (s : State) (hepoch : h.epoch = s.chain.epoch) (hother : s.originates = false)
    (hlap : b.lap ≠ 0) : ∃ u, exec (.beacon h b t) s = .next u ∧ u.chain.last = some b ∧ u.chain.lastAt = max s.aon t := by
  let a := (s.at t).ackChain h
  have hcurrent : a.current h = true := State.current_of_epoch hepoch
  have hpass : a.takeBeacon h b = a.passBeacon h b := if_neg (Bool.eq_false_iff.1 (show a.originates = false from hother))
  obtain ⟨v, hv, haon⟩ : ∃ v : State, a.passBeacon h b = v.readBeacon b ∧ v.aon = max s.aon t := by
    refine ⟨_, if_neg hlap, ?_⟩
    split
    · rfl
    · simp [a, State.ackChain]
  have hrun : exec (.beacon h b t) s = .next (v.readBeacon b) :=
    (congrArg Host.Outcome.next (if_pos hcurrent)).trans (congrArg _ (hpass.trans hv))
  obtain ⟨hlast, hat, -, -⟩ := v.readBeacon_spec b
  exact ⟨_, hrun, hlast, hat.trans haon⟩

theorem exec_beaconSample_again (t : Nat) (s : State) (hk : ((s.at t).chainNs / 125000).toNat ≤ s.chain.sampleK) :
    exec (.beaconSample t) s = .next (s.at t) := if_pos hk

theorem State.beaconKept_sendBeacon (s : State) (b : Beacon) : BeaconKept s (s.sendBeacon b) :=
  ite_rel (.of_hops ((s.hopsOnly_chainTo ..).trans (State.hopsOnly_chainTo ..))) (.of_hops (s.hopsOnly_chainTo ..))

/-- The state that has sampled P at a chain time, and the beacon that its originator starts then. -/
def State.sampled (s : State) (k : Nat) : State :=
  { s with chain := { s.chain with sampleK := k, samplePos := s.lsd.posAt (s.chainMoment (k * 125000)) } }

def State.firstBeacon (s : State) (k : Nat) (a : Fin 16) : Beacon :=
  { seq := BitVec.ofNat 8 k, lap := 0, count := BitVec.ofNat 8 s.chain.count, lineMode := s.chain.hopIn.down || s.chain.hopOut.down,
    reference := s.chain.reference, tk := k * 125000, slots := [s.ownSlot a] }

theorem exec_beaconSample_of_new {t : Nat} {s : State} (hk : s.chain.sampleK < ((s.at t).chainNs / 125000).toNat) :
    let k := ((s.at t).chainNs / 125000).toNat
    let s2 := (s.at t).sampled k
    let s3 : State := { s2 with chain := { s2.chain with reference := false, halfLap := none } }
    exec (.beaconSample t) s = match s2.chain.address with
      | none => .next s2
      | some a => if s2.originates then
          .next (if s3.chain.count = 1 then s3.readBeacon { s2.firstBeacon k a with lap := 1 } else s3.sendBeacon (s2.firstBeacon k a))
        else .next s2 :=
  (if_neg (Nat.not_le.2 hk)).trans rfl

theorem exec_beaconSample_samples (t : Nat) (s : State) (hk : s.chain.sampleK < ((s.at t).chainNs / 125000).toNat) :
    ∃ u, exec (.beaconSample t) s = .next u ∧ u.chain.sampleK = ((s.at t).chainNs / 125000).toNat ∧
      u.chain.samplePos = s.lsd.posAt ((s.at t).chainMoment (((s.at t).chainNs / 125000).toNat * 125000)) := by
  let s2 := (s.at t).sampled ((s.at t).chainNs / 125000).toNat
  let s3 : State := { s2 with chain := { s2.chain with reference := false, halfLap := none } }
  have hread (b : Beacon) : (s3.readBeacon b).chain.sampleK = s3.chain.sampleK ∧ (s3.readBeacon b).chain.samplePos = s3.chain.samplePos :=
    (s3.readBeacon_spec b).2.2
  have hsent (b : Beacon) : BeaconKept s3 (s3.sendBeacon b) := s3.beaconKept_sendBeacon b
  rw [exec_beaconSample_of_new hk]
  split
  next => exact ⟨s2, rfl, rfl, rfl⟩
  next a _ =>
    by_cases horiginates : s2.originates = true
    · rw [if_pos horiginates]
      by_cases hone : s3.chain.count = 1
      · rw [if_pos hone]
        exact ⟨_, rfl, hread _⟩
      · rw [if_neg hone]
        exact ⟨_, rfl, (hsent _).sampleK, (hsent _).samplePos⟩
    · rw [if_neg horiginates]
      exact ⟨s2, rfl, rfl, rfl⟩

theorem exec_beaconLoss_posts (t : Nat) (s : State) (hdue : s.chain.lastAt + 256000 * 2 ^ 32 ≤ max s.aon t) (hposted : s.chain.lossPosted = false)
    (hcount : 1 < s.chain.count) (haddress : s.chain.address.isSome = true) :
    ∃ u d, exec (.beaconLoss t) s = .next u ∧ u.chain.lossPosted = true ∧ Claims.Posts s u [0x02D3] ∧
      Claims.Tells s u [.detect d (max s.aon t)] ∧ d.outcome = .pending := by
  have hlate : s.chain.lastAt + us 256 ≤ max s.aon t := by
    rw [us_eq]
    exact hdue
  exact ⟨_, _, if_pos ⟨hlate, hposted, hcount, haddress⟩, rfl, List.map_append, rfl, rfl⟩

/-- A message of another epoch is acknowledged, and nothing more. -/
theorem exec_of_other_epoch (h : ChainHdr) (b : Beacon) (c : Byte) (stop mgmt : Bool) (time : BitVec 64) (first last : Int) (msg : List Byte)
    (full t : Nat) (s : State) (hepoch : h.epoch ≠ s.chain.epoch) : ∀ i ∈ [Instr.beacon h b t, .chnFault h c stop time t,
      .chnWaste h c first last t, .resetNotice h c t, .peerReq h mgmt msg t, .peerReply h msg full t],
      exec i s = .next ((s.at t).ackChain h) := by
  have hold : ((s.at t).ackChain h).current h = false := beq_false_of_ne hepoch
  have hno : ¬ ((s.at t).ackChain h).current h = true := Bool.eq_false_iff.1 hold
  have hnot : (!((s.at t).ackChain h).current h) = true := by rw [hold]; rfl
  simp only [List.forall_mem_cons, List.not_mem_nil, false_imp_iff, implies_true, and_true]
  exact ⟨congrArg Host.Outcome.next (if_neg hno), if_neg hno, if_neg hno, congrArg Host.Outcome.next (if_neg hno), if_pos hnot, if_pos hnot⟩

/-! ### The obligation -/

/-- Settles O56: one run of each event of a hop and of the beacons. -/
theorem hopsAndBeaconsComplete : Obligations.HopsAndBeaconsComplete := by
  unfold Obligations.HopsAndBeaconsComplete
  exact ⟨fun side blk t t0 s n m hwait hgood hseq => ⟨exec_chnAck_ok side blk t t0 s n m hwait hgood hseq,
      exec_chnAck_resends side blk t t0 s n m hwait hgood hseq⟩,
    fun side t t0 s n m resend hwait => ⟨exec_chnAckTimeout_early side t t0 s n m resend hwait, exec_chnAckTimeout_loses side t t0 s n m resend hwait⟩,
    fun side c hs t s => ⟨exec_hopLoss_asleep side c hs t s, exec_hopLoss_loses side c hs t s⟩,
    fun side t t0 c s hretrain => ⟨exec_hopRetrainDone_ready side t t0 c s hretrain, exec_hopRetrainDone_active side t t0 c s hretrain,
      exec_hopRetrainDone_waits side t t0 c s hretrain, exec_hopRetrainDone_down side t t0 c s hretrain⟩,
    fun side t1 t2 t3 t4 s => ⟨fun hno => if_neg (Bool.eq_false_iff.1 hno), exec_sync_leads side t1 t2 t3 t4 s⟩,
    fun t s => ⟨exec_beaconSample_again t s, exec_beaconSample_samples t s⟩, exec_beacon_read, exec_beaconLoss_posts, exec_of_other_epoch⟩

end Sys2Proof.Machine
end

section
/-! PROOF. AXIS_CONFIG, AXIS_MOTION, AXIS_GEAR, AXIS_HOME and AXIS_LIMITS (16 R385 to R388, R392, R404, R406 to R409): O53. -/

namespace Sys2Proof.Machine

/-! ### Fields of a payload -/

/-- A signed field behind a prefix. -/
theorem sfld_append_right {p : List Byte} (r : List Byte) {k : Nat} (n : Nat) (h : p.length ≤ k) : sfld (p ++ r) k n = sfld r (k - p.length) n :=
  congrArg (signed (8 * n)) (fld_append_right r n h)

theorem sfld_sle (n : Nat) (v : Int) (r : List Byte) (hn : 0 < n) (hlo : -(2 ^ (8 * n - 1) : Int) ≤ v) (hhi : v < (2 ^ (8 * n - 1) : Int)) :
    sfld (sle n v ++ r) 0 n = v := by
  have hbytes : 256 ^ n = 2 ^ (8 * n) := by rw [Nat.pow_mul]
  have hpos : (0 : Int) < ((2 ^ (8 * n) : Nat) : Int) := Int.natCast_pos.2 (Nat.two_pow_pos _)
  have hlt : (v % ((2 ^ (8 * n) : Nat) : Int)).toNat < 2 ^ (8 * n) := by
    have := Int.emod_lt_of_pos v hpos
    omega
  rw [sfld, sle, fld_le, hbytes, Nat.mod_eq_of_lt hlt]
  exact signed_wrap (by omega) hlo hhi

theorem fld_one_of_fin (i : Fin 8) (r : List Byte) : fld (BitVec.ofNat 8 i.val :: r) 0 1 = i.val := by
  rw [fld_cons_one, BitVec.toNat_ofNat]
  exact Nat.mod_eq_of_lt (by omega)

/-! ### One axis of the state (R382) -/

@[simp] theorem State.axis_updAxis_self (s : State) (i : Fin 8) (f : Axis → Axis) : (s.updAxis i f).axis i = f (s.axis i) := getElem_upd_self ..

theorem State.axis_updAxis_ne (s : State) {i k : Fin 8} (h : k ≠ i) (f : Axis → Axis) : (s.updAxis i f).axis k = s.axis k := getElem_upd_ne _ h f

/-- An update counts by what it makes of its axis. -/
theorem State.updAxis_congr {s : State} {i : Fin 8} {f g : Axis → Axis} (h : f (s.axis i) = g (s.axis i)) : s.updAxis i f = s.updAxis i g := by
  rw [updAxis, upd_congr h, updAxis]

theorem State.updAxis_updAxis (s : State) (i : Fin 8) (f g : Axis → Axis) : (s.updAxis i f).updAxis i g = s.updAxis i (fun a => g (f a)) := by
  simp only [updAxis, upd_upd]

/-- A command that ends leaves the axis at its place, at rest with no command, and lets its next limits in. -/
theorem State.motDone_axis (s : State) (i : Fin 8) (code : Nat) : ((s.motDone i code).axis i).state = (s.axis i).state ∧
    ((s.motDone i code).axis i).pos = (s.axis i).pos ∧ ((s.motDone i code).axis i).vel = (s.axis i).vel ∧
    ((s.motDone i code).axis i).vMax = (s.axis i).vMax := by
  have hdeferred (a : Axis) : a.takeDeferred.state = a.state ∧ a.takeDeferred.pos = a.pos ∧ a.takeDeferred.vel = a.vel ∧
      a.takeDeferred.vMax = a.vMax := by
    unfold Axis.takeDeferred
    split <;> exact ⟨rfl, rfl, rfl, rfl⟩
  unfold motDone
  dsimp only
  split
  next => exact ⟨rfl, rfl, rfl, rfl⟩
  next =>
    rw [State.result_eq]
    show ((s.updAxis i _).axis i).state = _ ∧ ((s.updAxis i _).axis i).pos = _ ∧ ((s.updAxis i _).axis i).vel = _ ∧ ((s.updAxis i _).axis i).vMax = _
    rw [axis_updAxis_self]
    exact hdeferred _

theorem State.motDone_idle {s : State} {i : Fin 8} (h : (s.axis i).kind = none) (code : Nat) : s.motDone i code = s := by
  unfold motDone
  simp only [h]

/-- A command that takes an axis over is its command from then on. -/
theorem State.takeAxis_axis (s : State) (i : Fin 8) (code : Nat) (k : AxisKind) (o : Origin) (f : Axis → Axis) :
    (s.takeAxis i code k o f).axis i = { f ((s.motDone i code).axis i) with kind := some k, origin := some o } := by
  rw [takeAxis, axis_updAxis_self]

theorem State.doneAtOnce_spec (s : State) (i : Fin 8) (k : AxisKind) (o : Origin) :
    (s.doneAtOnce i k o).mot = s.mot ∧ Claims.Posts s (s.doneAtOnce i k o) [0x02E0] :=
  ⟨by simp [doneAtOnce], s.result_posts ..⟩

/-! ### AXIS_CONFIG (R404) -/

/-- The payload of AXIS_CONFIG. -/
def axisConfigPayload (i : Fin 8) (soft : Bool) (v a d j stop : Nat) (lo hi : Int) : List Byte :=
  [BitVec.ofNat 8 i.val, if soft then 1 else 0, 0, 0] ++ le 4 v ++ le 4 a ++ le 4 d ++ le 4 j ++ le 4 stop ++ sle 8 lo ++ sle 8 hi

theorem axisConfigPayload_fields {i : Fin 8} {soft : Bool} {v a d j stop : Nat} {lo hi : Int} (hv : v < 2 ^ 31) (ha : a < 2 ^ 31) (hd : d < 2 ^ 31)
    (hj : j < 2 ^ 31) (hstop : stop < 2 ^ 31) (hlo : -(2 ^ 63 : Int) ≤ lo) (hhi : hi < 2 ^ 63) (hle : lo < hi) :
    let p := axisConfigPayload i soft v a d j stop lo hi
    (fld p 0 1 = i.val ∧ fld p 1 1 = b2n soft ∧ zeros p 2 2 = true) ∧ fld p 4 4 = v ∧ fld p 8 4 = a ∧ fld p 12 4 = d ∧ fld p 16 4 = j ∧ fld p 20 4 = stop ∧
      sfld p 24 8 = lo ∧ sfld p 32 8 = hi := by
  have hmod {x : Nat} (hx : x < 2 ^ 31) : x % 256 ^ 4 = x := Nat.mod_eq_of_lt (by omega)
  have hsigned {x : Int} (r : List Byte) (h : -(2 ^ 63 : Int) ≤ x) (h' : x < 2 ^ 63) : sfld (sle 8 x ++ r) 0 8 = x := sfld_sle 8 x r (by decide) h h'
  have hend {x : Int} (h : -(2 ^ 63 : Int) ≤ x) (h' : x < 2 ^ 63) : sfld (sle 8 x) 0 8 = x := by
    simpa using hsigned [] h h'
  refine ⟨⟨fld_one_of_fin i _, by cases soft <;> rfl, rfl⟩, ?_, ?_, ?_, ?_, ?_, ?_, ?_⟩
  all_goals
    simp only [axisConfigPayload, List.append_assoc]
    simp (disch := simp) only [fld_append_right, sfld_append_right, length_le, length_sle, List.length_cons, List.length_nil, Nat.reduceAdd,
      Nat.reduceSub, fld_le, hmod hv, hmod ha, hmod hd, hmod hj, hmod hstop]
  · exact hsigned _ hlo (by omega)
  · exact hend (by omega) hhi

theorem inRate_of {lo v : Nat} (hlo : lo ≤ v) (hhi : v < 2 ^ 31) : inRate lo v = true := decide_eq_true ⟨hlo, hhi⟩

theorem axisOf_of_fld {p : List Byte} {i : Fin 8} (h : fld p 0 1 = i.val) : axisOf p = i ∧ axisBad p = false := by
  unfold axisOf axisBad
  rw [h]
  exact ⟨Fin.ofNat_val_eq_self i, decide_eq_false (by omega)⟩

theorem exec_axisConfig_sets (q : Req) (s : State) (i : Fin 8) (soft : Bool) (v a d j stop : Nat) (lo hi : Int) (hq : Claims.Fresh 0x0601 q s)
    (hv : 1 ≤ v) (hv' : v < 2 ^ 31) (ha : 1 ≤ a) (ha' : a < 2 ^ 31) (hd : 1 ≤ d) (hj : j < 2 ^ 31) (hstop : d ≤ stop) (hstop' : stop < 2 ^ 31)
    (hlo : -(2 ^ 63 : Int) ≤ lo) (hle : lo < hi) (hhi : hi < 2 ^ 63) (hlink : s.linkOn i = true)
    (hstate : (s.axis i).state = .disabled ∨ (s.axis i).state = .idle) (hp : q.payload = axisConfigPayload i soft v a d j stop lo hi) :
    exec (.axisConfig q) s = .next ((Claims.ok ((s.start q 0x0601).updAxis i (fun x => { x with
      configured := true, softLimits := soft, minPos := lo, maxPos := hi, vMax := v, dStop := stop, deferred := none
      lim := { aMax := a, dMax := d, jerk := j } }))).deliver q 0x0601) := by
  have hlen : (q.payload.length == 40) = true := by rw [hp]; simp [axisConfigPayload]
  have hrun : exec (.axisConfig q) s = .next ((cmdAxisConfig.run q (s.start q 0x0601)).deliver q 0x0601) := congrArg _ (serve_of_fresh hq hlen)
  obtain ⟨⟨hi', hsoft, hzero⟩, hfv, hfa, hfd, hfj, hfstop, hflo, hfhi⟩ :=
    axisConfigPayload_fields (i := i) (soft := soft) hv' ha' (Nat.lt_of_le_of_lt hstop hstop') hj hstop' hlo hhi hle
  rw [← hp] at hi' hsoft hzero hfv hfa hfd hfj hfstop hflo hfhi
  obtain ⟨haxis, hgood⟩ := axisOf_of_fld hi'
  have hbit : bit (b2n soft) 0 = soft := by cases soft <;> rfl
  have hfits : decide (1 < b2n soft) = false := by cases soft <;> rfl
  have hmay : (((s.start q 0x0601).axis i).state != .disabled && ((s.start q 0x0601).axis i).state != .idle) = false := by
    show ((s.axis i).state != .disabled && (s.axis i).state != .idle) = false
    rcases hstate with h | h <;> rw [h] <;> rfl
  have horder : decide (hi ≤ lo) = false := decide_eq_false (not_le.2 hle)
  rw [hrun]
  simp only [cmdAxisConfig, haxis, hgood, hsoft, hzero, hfv, hfa, hfd, hfj, hfstop, hflo, hfhi, hbit, hfits, hmay, horder]
  rw [checks_pass]
  · rfl
  · simp [inRate_of hv hv', inRate_of ha ha', inRate_of hd (Nat.lt_of_le_of_lt hstop hstop'), inRate_of (Nat.zero_le j) hj,
      inRate_of hstop hstop', show (s.start q 0x0601).linkOn i = true from hlink]

/-! ### AXIS_MOTION (R385 to R387, R406) -/

/-- The payload of AXIS_MOTION. -/
def axisMotionPayload (i : Fin 8) (kind : Nat) (vel target : Int) : List Byte :=
  [BitVec.ofNat 8 i.val, BitVec.ofNat 8 kind, 0, 0] ++ sle 4 vel ++ sle 8 target

theorem axisMotionPayload_fields {i : Fin 8} {kind : Nat} {vel target : Int} (hkind : kind ≤ 4) (hvel : -(2 ^ 31 : Int) ≤ vel) (hvel' : vel < 2 ^ 31)
    (htarget : -(2 ^ 47 : Int) ≤ target) (htarget' : target < 2 ^ 47) : let p := axisMotionPayload i kind vel target
    (fld p 0 1 = i.val ∧ fld p 1 1 = kind ∧ zeros p 2 2 = true) ∧ sfld p 4 4 = vel ∧ sfld p 8 8 = target := by
  refine ⟨⟨fld_one_of_fin i _, ?_, rfl⟩, ?_, ?_⟩
  · show (BitVec.ofNat 8 kind).toNat + 256 * 0 = kind
    rw [BitVec.toNat_ofNat, Nat.mod_eq_of_lt (by omega)]
    rfl
  · simp only [axisMotionPayload, List.append_assoc]
    rw [sfld_append_right _ _ (by simp)]
    exact sfld_sle 4 vel _ (by decide) hvel hvel'
  · rw [axisMotionPayload, sfld_append_right _ _ (by simp)]
    have hread := sfld_sle 8 target [] (by decide) (by omega) (by omega)
    rwa [List.append_nil] at hread

/-- What an accepted AXIS_MOTION starts. -/
def State.motion (s : State) (i : Fin 8) (kind : Nat) (o : Origin) (vel target : Int) : State :=
  match kind with
  | 0 | 1 => s.startMove i kind o vel target
  | 2 => s.startJog i o vel
  | 3 => s.startStop i .stop o
  | _ => s.startStop i .quickStop o

section Motion

variable {q : Req} {s : State} {i : Fin 8} {kind : Nat} {vel target : Int} (hq : Claims.Fresh 0x0603 q s)
  (hconfigured : (s.axis i).configured = true) (hmax : vel.natAbs ≤ (s.axis i).vMax) (hvel : -(2 ^ 31 : Int) ≤ vel) (hvel' : vel < 2 ^ 31)
  (htarget : -(2 ^ 47 : Int) ≤ target) (htarget' : target < 2 ^ 47) (hp : q.payload = axisMotionPayload i kind vel target)

include hq hconfigured hmax hvel hvel' htarget htarget' hp

/-- AXIS_MOTION of a kind the axis takes in its state. -/
theorem exec_axisMotion_starts (hkind : kind ≤ 4) (hrelative : kind ≠ 1) (hlimits : kind = 0 → (s.axis i).offLimits target = false)
    (hstate : if 3 ≤ kind then (s.axis i).state.enabled = true else (s.axis i).state.takesMotion = true) :
    exec (.axisMotion q) s = .next ((Claims.accepted ((s.start q 0x0603).motion i kind q.origin vel ((s.axis i).targetOf kind target))).deliver
      q 0x0603) := by
  have hlen : (q.payload.length == 16) = true := by rw [hp]; simp [axisMotionPayload]
  have hrun : exec (.axisMotion q) s = .next ((cmdAxisMotion.run q (s.start q 0x0603)).deliver q 0x0603) := congrArg _ (serve_of_fresh hq hlen)
  obtain ⟨⟨hi, hfkind, hzero⟩, hfvel, hftarget⟩ := axisMotionPayload_fields (i := i) hkind hvel hvel' htarget htarget'
  rw [← hp] at hi hfkind hzero hfvel hftarget
  obtain ⟨haxis, hgood⟩ := axisOf_of_fld hi
  have hbad : decide (4 < kind) = false := decide_eq_false (Nat.not_lt.2 hkind)
  have hslow : decide (((s.start q 0x0603).axis i).vMax < vel.natAbs) = false := decide_eq_false (Nat.not_lt.2 hmax)
  have hreach : (decide (kind < 2) && (!posRange (((s.start q 0x0603).axis i).targetOf kind target) ||
      ((s.start q 0x0603).axis i).offLimits (((s.start q 0x0603).axis i).targetOf kind target))) = false := by
    by_cases hmove : kind = 0
    · subst hmove
      have hrange : posRange target = true := decide_eq_true ⟨htarget, htarget'⟩
      rw [show ((s.start q 0x0603).axis i).targetOf 0 target = target from rfl, hrange,
        show ((s.start q 0x0603).axis i).offLimits target = false from hlimits rfl]
      rfl
    · rw [decide_eq_false (show ¬ kind < 2 by omega), Bool.false_and]
  have hmay : (if decide (3 ≤ kind) then !((s.start q 0x0603).axis i).state.enabled else !((s.start q 0x0603).axis i).state.takesMotion) = false := by
    simp only [decide_eq_true_eq]
    split at hstate
    next h => rw [if_pos h, show ((s.start q 0x0603).axis i).state.enabled = true from hstate]; rfl
    next h => rw [if_neg h, show ((s.start q 0x0603).axis i).state.takesMotion = true from hstate]; rfl
  rw [hrun]
  simp only [cmdAxisMotion, haxis, hgood, hfkind, hzero, hfvel, hftarget, hbad]
  rw [checks_pass]
  · rfl
  · simp only [List.forall_mem_cons, List.not_mem_nil, false_imp_iff, implies_true, and_true, hslow, hreach, hmay,
      show ((s.start q 0x0603).axis i).configured = true from hconfigured, Bool.and_false, Bool.or_false]
    exact ⟨rfl, rfl⟩

theorem exec_axisMotion_moves (hkind : kind = 0) (hidle : (s.axis i).state = .idle) (hlimits : (s.axis i).offLimits target = false)
    (haway : target * 2 ^ 32 ≠ (s.axis i).pos) :
    ∃ u, exec (.axisMotion q) s = .next ((Claims.accepted u).deliver q 0x0603) ∧ (u.axis i).state = .moving ∧ (u.axis i).target = target ∧
      (u.axis i).kind = some .absolute ∧ (u.axis i).speed = if vel = 0 then (s.axis i).vMax else vel.natAbs := by
  subst hkind
  have hrun := exec_axisMotion_starts hq hconfigured hmax hvel hvel' htarget htarget' hp (by decide) (by decide) (fun _ => hlimits)
    (by rw [if_neg (by decide), hidle]; rfl)
  let v := s.start q 0x0603
  have htake : v.motion i 0 q.origin vel target = v.takeAxis i doneREPLACED .absolute q.origin (fun a => { a with
      state := .moving, target := target, speed := if vel = 0 then a.vMax else vel.natAbs, overshoot := false }) :=
    if_neg fun h => haway h.2
  obtain ⟨-, -, -, hvMax⟩ := v.motDone_axis i doneREPLACED
  refine ⟨_, hrun, ?_⟩
  rw [show (s.axis i).targetOf 0 target = target from rfl, htake, State.takeAxis_axis]
  exact ⟨rfl, rfl, rfl, by rw [hvMax]; rfl⟩

theorem exec_axisMotion_there (hkind : kind = 0) (hidle : (s.axis i).state = .idle) (hlimits : (s.axis i).offLimits target = false)
    (hthere : target * 2 ^ 32 = (s.axis i).pos) :
    ∃ u, exec (.axisMotion q) s = .next ((Claims.accepted u).deliver q 0x0603) ∧ u.mot = s.mot ∧ Claims.Posts s u [0x02E0] := by
  subst hkind
  have hrun := exec_axisMotion_starts hq hconfigured hmax hvel hvel' htarget htarget' hp (by decide) (by decide) (fun _ => hlimits)
    (by rw [if_neg (by decide), hidle]; rfl)
  let v := s.start q 0x0603
  have hrest : (v.axis i).atRest = true ∧ target * 2 ^ 32 = (v.axis i).pos := ⟨beq_iff_eq.2 hidle, hthere⟩
  have hdone : v.motion i 0 q.origin vel target = v.doneAtOnce i .absolute q.origin := if_pos hrest
  obtain ⟨hmot, hposts⟩ := v.doneAtOnce_spec i .absolute q.origin
  refine ⟨_, hrun, ?_⟩
  rw [show (s.axis i).targetOf 0 target = target from rfl, hdone]
  exact ⟨hmot, hposts⟩

theorem exec_axisMotion_jogs (hkind : kind = 2) (hidle : (s.axis i).state = .idle) (hmoves : vel ≠ 0) :
    ∃ u, exec (.axisMotion q) s = .next ((Claims.accepted u).deliver q 0x0603) ∧ (u.axis i).state = .jogging ∧ (u.axis i).jogVel = vel := by
  subst hkind
  have hrun := exec_axisMotion_starts hq hconfigured hmax hvel hvel' htarget htarget' hp (by decide) (by decide) nofun
    (by rw [if_neg (by decide), hidle]; rfl)
  let v := s.start q 0x0603
  have htake : v.motion i 2 q.origin vel ((s.axis i).targetOf 2 target) =
      v.takeAxis i doneREPLACED .jog q.origin (fun a => { a with state := .jogging, jogVel := vel }) := if_neg fun h => hmoves h.2
  refine ⟨_, hrun, ?_⟩
  rw [htake, State.takeAxis_axis]
  exact ⟨rfl, rfl⟩

/-- STOP and QUICK_STOP. -/
theorem exec_axisMotion_stops (hkind : kind = 3 ∨ kind = 4) (henabled : (s.axis i).state.enabled = true) :
    exec (.axisMotion q) s = .next ((Claims.accepted ((s.start q 0x0603).startStop i (if kind = 3 then .stop else .quickStop) q.origin)).deliver
      q 0x0603) := by
  have hrun := exec_axisMotion_starts hq hconfigured hmax hvel hvel' htarget htarget' hp (by omega) (by omega) (fun h => by omega)
    (by rw [if_pos (by omega)]; exact henabled)
  rcases hkind with rfl | rfl <;> exact hrun

theorem exec_axisMotion_stopsAtRest (hkind : kind = 3 ∨ kind = 4) (hidle : (s.axis i).state = .idle) :
    ∃ u, exec (.axisMotion q) s = .next ((Claims.accepted u).deliver q 0x0603) ∧ u.mot = s.mot ∧ Claims.Posts s u [0x02E0] := by
  have hrun := exec_axisMotion_stops hq hconfigured hmax hvel hvel' htarget htarget' hp hkind (by rw [hidle]; rfl)
  let v := s.start q 0x0603
  let k : AxisKind := if kind = 3 then .stop else .quickStop
  have hrest : (v.axis i).atRest = true := beq_iff_eq.2 hidle
  have hdone : v.startStop i k q.origin = v.doneAtOnce i k q.origin := if_pos hrest
  obtain ⟨hmot, hposts⟩ := v.doneAtOnce_spec i k q.origin
  exact ⟨_, hrun.trans (by rw [hdone]), hmot, hposts⟩

theorem exec_axisMotion_slows (hkind : kind = 3 ∨ kind = 4) (hmoving : (s.axis i).state = .moving) :
    ∃ u, exec (.axisMotion q) s = .next ((Claims.accepted u).deliver q 0x0603) ∧ (u.axis i).state = .stopping ∧
      (u.axis i).pos = (s.axis i).pos ∧ (u.axis i).vel = (s.axis i).vel ∧ (u.axis i).kind = some (if kind = 3 then .stop else .quickStop) := by
  have hrun := exec_axisMotion_stops hq hconfigured hmax hvel hvel' htarget htarget' hp hkind (by rw [hmoving]; rfl)
  let v := s.start q 0x0603
  let k : AxisKind := if kind = 3 then .stop else .quickStop
  have hmoves : ¬ (v.axis i).atRest = true := by
    rw [Axis.atRest, show (v.axis i).state = .moving from hmoving]
    decide
  have htake : v.startStop i k q.origin = v.takeAxis i doneSTOPPED k q.origin (fun a => { a with
    state := .stopping, ending := doneDONE, gear := none, homing := none }) := if_neg hmoves
  obtain ⟨-, hpos, hvelocity, -⟩ := v.motDone_axis i doneSTOPPED
  refine ⟨_, hrun.trans (by rw [htake]), ?_⟩
  rw [State.takeAxis_axis]
  exact ⟨rfl, hpos, hvelocity, rfl⟩

end Motion

/-! ### AXIS_GEAR (R391, R392, R407) -/

/-- The payload of AXIS_GEAR. -/
def axisGearPayload (i : Fin 8) (r1 at_ : Int) (blend : Nat) : List Byte :=
  [BitVec.ofNat 8 i.val, 0, 0, 0] ++ sle 4 r1 ++ sle 8 at_ ++ le 4 blend ++ [0, 0, 0, 0]

theorem axisGearPayload_fields {i : Fin 8} {r1 at_ : Int} {blend : Nat} (hr : -(2 ^ 31 : Int) ≤ r1) (hr' : r1 < 2 ^ 31)
    (hat : -(2 ^ 63 : Int) ≤ at_) (hat' : at_ < 2 ^ 63) (hblend : blend < 2 ^ 32) : let p := axisGearPayload i r1 at_ blend
    (fld p 0 1 = i.val ∧ zeros p 1 3 = true ∧ zeros p 20 4 = true) ∧ sfld p 4 4 = r1 ∧ sfld p 8 8 = at_ ∧ fld p 16 4 = blend := by
  refine ⟨⟨fld_one_of_fin i _, rfl, rfl⟩, ?_, ?_, ?_⟩
  all_goals
    simp only [axisGearPayload, List.append_assoc]
    simp (disch := simp) only [fld_append_right, sfld_append_right, length_sle, List.length_cons, List.length_nil, Nat.reduceAdd,
      Nat.reduceSub, fld_le]
  · exact sfld_sle 4 r1 _ (by decide) hr hr'
  · exact sfld_sle 8 at_ _ (by decide) hat hat'
  · exact Nat.mod_eq_of_lt hblend

theorem exec_axisGear_gears (q : Req) (s : State) (i : Fin 8) (r1 at_ : Int) (blend : Nat) (hq : Claims.Fresh 0x0604 q s)
    (hconfigured : (s.axis i).configured = true) (hidle : (s.axis i).state = .idle) (hr : -(2 ^ 31 : Int) ≤ r1) (hr' : r1 < 2 ^ 31)
    (hat : -(2 ^ 63 : Int) ≤ at_) (hat' : at_ < 2 ^ 63) (hblend : blend < 2 ^ 32) (hp : q.payload = axisGearPayload i r1 at_ blend) :
    ∃ u g, exec (.axisGear q) s = .next ((Claims.accepted u).deliver q 0x0604) ∧ (u.axis i).state = .geared ∧ (u.axis i).gear = some g ∧
      g.r1 = r1 ∧ g.atPos = at_ ∧ g.blend = blend ∧ g.pending = true ∧ ((s.axis i).gear = none → g.r0 = 0) := by
  have hlen : (q.payload.length == 24) = true := by rw [hp]; simp [axisGearPayload]
  have hrun : exec (.axisGear q) s = .next ((cmdAxisGear.run q (s.start q 0x0604)).deliver q 0x0604) := congrArg _ (serve_of_fresh hq hlen)
  obtain ⟨⟨hi, hzero, hzero'⟩, hfr, hfat, hfblend⟩ := axisGearPayload_fields (i := i) hr hr' hat hat' hblend
  rw [← hp] at hi hzero hzero' hfr hfat hfblend
  obtain ⟨haxis, hgood⟩ := axisOf_of_fld hi
  let v := s.start q 0x0604
  let g := v.newGear (v.axis i) r1 at_ blend
  have hmay : (!((v.axis i).state == .idle || ((v.axis i).state == .geared && !(v.axis i).blending))) = false := by
    rw [show (v.axis i).state = .idle from hidle]
    rfl
  have hgear : cmdAxisGear.run q v = Claims.accepted (v.takeAxis i doneREPLACED .gear q.origin (fun a => { a with state := .geared, gear := some g })) := by
    simp only [cmdAxisGear, haxis, hgood, hzero, hzero', hfr, hfat, hfblend, hmay]
    rw [checks_pass]
    · rfl
    · simp [show (v.axis i).configured = true from hconfigured]
  rw [hgear] at hrun
  refine ⟨_, g, hrun, ?_, ?_, ?_⟩
  · rw [State.takeAxis_axis]
  · rw [State.takeAxis_axis]
  · show (v.newGear (v.axis i) r1 at_ blend).r1 = r1 ∧ (v.newGear (v.axis i) r1 at_ blend).atPos = at_ ∧ (v.newGear (v.axis i) r1 at_ blend).blend = blend ∧
      (v.newGear (v.axis i) r1 at_ blend).pending = true ∧ ((v.axis i).gear = none → (v.newGear (v.axis i) r1 at_ blend).r0 = 0)
    unfold State.newGear
    split
    next g0 hg => exact ⟨rfl, rfl, rfl, rfl, fun hnone => absurd (hg.symm.trans hnone) (Option.some_ne_none _)⟩
    next => exact ⟨rfl, rfl, rfl, rfl, fun _ => rfl⟩

/-! ### AXIS_HOME and AXIS_LIMITS (R388, R408, R409) -/

/-- The payload of AXIS_HOME. -/
def axisHomePayload (i : Fin 8) (vel pos : Int) (travel back confirm : Nat) : List Byte :=
  [BitVec.ofNat 8 i.val, 0, 0, 0] ++ sle 4 vel ++ sle 8 pos ++ le 4 travel ++ le 4 back ++ [BitVec.ofNat 8 confirm, 0, 0, 0, 0, 0, 0, 0]

theorem axisHomePayload_fields {i : Fin 8} {vel pos : Int} {travel back confirm : Nat} (hvel : -(2 ^ 31 : Int) ≤ vel) (hvel' : vel < 2 ^ 31)
    (hpos : -(2 ^ 47 : Int) ≤ pos) (hpos' : pos < 2 ^ 47) (htravel : travel < 2 ^ 31) (hback : back < 2 ^ 31) (hconfirm : confirm ≤ 255) :
    let p := axisHomePayload i vel pos travel back confirm
    (fld p 0 1 = i.val ∧ zeros p 1 3 = true ∧ zeros p 25 7 = true) ∧ sfld p 4 4 = vel ∧ sfld p 8 8 = pos ∧ fld p 16 4 = travel ∧ fld p 20 4 = back ∧
      fld p 24 1 = confirm := by
  refine ⟨⟨fld_one_of_fin i _, rfl, rfl⟩, ?_, ?_, ?_, ?_, ?_⟩
  all_goals
    simp only [axisHomePayload, List.append_assoc]
    simp (disch := simp) only [fld_append_right, sfld_append_right, length_le, length_sle, List.length_cons, List.length_nil, Nat.reduceAdd,
      Nat.reduceSub, fld_le, fld_cons_one]
  · exact sfld_sle 4 vel _ (by decide) hvel hvel'
  · exact sfld_sle 8 pos _ (by decide) (by omega) (by omega)
  · exact Nat.mod_eq_of_lt (by omega)
  · exact Nat.mod_eq_of_lt (by omega)
  · rw [BitVec.toNat_ofNat]
    exact Nat.mod_eq_of_lt (by omega)

theorem exec_axisHome_homes (q : Req) (s : State) (i : Fin 8) (vel pos : Int) (travel back confirm : Nat) (hq : Claims.Fresh 0x0605 q s)
    (hconfigured : (s.axis i).configured = true) (hidle : (s.axis i).state = .idle) (hmoves : vel ≠ 0) (hmax : vel.natAbs ≤ (s.axis i).vMax)
    (hvel : -(2 ^ 31 : Int) ≤ vel) (hvel' : vel < 2 ^ 31) (hpos : -(2 ^ 47 : Int) ≤ pos) (hpos' : pos < 2 ^ 47) (htravel : 1 ≤ travel)
    (htravel' : travel < 2 ^ 31) (hback : back < 2 ^ 31) (hconfirm : 1 ≤ confirm) (hconfirm' : confirm ≤ 255)
    (hp : q.payload = axisHomePayload i vel pos travel back confirm) :
    ∃ u, exec (.axisHome q) s = .next ((Claims.accepted u).deliver q 0x0605) ∧ (u.axis i).state = .homing ∧ (u.axis i).homing = some
      { vel := vel, pos := pos, maxTravel := travel, backoff := back, confirm := confirm, count := 0, firstActual := 0,
        startPos := (s.axis i).pos, backing := false } := by
  have hlen : (q.payload.length == 32) = true := by rw [hp]; simp [axisHomePayload]
  have hrun : exec (.axisHome q) s = .next ((cmdAxisHome.run q (s.start q 0x0605)).deliver q 0x0605) := congrArg _ (serve_of_fresh hq hlen)
  obtain ⟨⟨hi, hzero, hzero'⟩, hfvel, hfpos, hftravel, hfback, hfconfirm⟩ :=
    axisHomePayload_fields (i := i) hvel hvel' hpos hpos' htravel' hback hconfirm'
  rw [← hp] at hi hzero hzero' hfvel hfpos hftravel hfback hfconfirm
  obtain ⟨haxis, hgood⟩ := axisOf_of_fld hi
  let v := s.start q 0x0605
  let h : Homing := { vel := vel, pos := pos, maxTravel := travel, backoff := back, confirm := confirm, count := 0, firstActual := 0,
                      startPos := (s.axis i).pos, backing := false }
  have hrange : posRange pos = true := decide_eq_true ⟨hpos, hpos'⟩
  have hslow : decide ((v.axis i).vMax < vel.natAbs) = false := decide_eq_false (Nat.not_lt.2 hmax)
  have hmay : ((v.axis i).state != .idle) = false := by rw [show (v.axis i).state = .idle from hidle]; rfl
  have hnone : (vel == 0) = false ∧ (confirm == 0) = false := ⟨beq_false_of_ne hmoves, beq_false_of_ne (by omega)⟩
  have hhome : cmdAxisHome.run q v =
      Claims.accepted (v.takeAxis i doneREPLACED .home q.origin (fun a => { a with state := .homing, homing := some h, speed := vel.natAbs })) := by
    simp only [cmdAxisHome, haxis, hgood, hzero, hzero', hfvel, hfpos, hftravel, hfback, hfconfirm, hmay, hslow, hnone, hrange]
    rw [checks_pass]
    · rfl
    · simp [show (v.axis i).configured = true from hconfigured, inRate_of htravel htravel', inRate_of (Nat.zero_le back) hback]
  rw [hhome] at hrun
  refine ⟨_, hrun, ?_⟩
  rw [State.takeAxis_axis]
  exact ⟨rfl, rfl⟩

/-- The payload of AXIS_LIMITS with no flag. -/
def axisLimitsPayload (i : Fin 8) (a d j : Nat) : List Byte := [BitVec.ofNat 8 i.val, 0, 0, 0] ++ le 4 a ++ le 4 d ++ le 4 j

theorem axisLimitsPayload_fields {i : Fin 8} {a d j : Nat} (ha : a < 2 ^ 31) (hd : d < 2 ^ 31) (hj : j < 2 ^ 31) : let p := axisLimitsPayload i a d j
    (fld p 0 1 = i.val ∧ fld p 1 1 = 0 ∧ zeros p 2 2 = true) ∧ fld p 4 4 = a ∧ fld p 8 4 = d ∧ fld p 12 4 = j := by
  refine ⟨⟨fld_one_of_fin i _, rfl, rfl⟩, ?_, ?_, ?_⟩
  all_goals
    simp only [axisLimitsPayload, List.append_assoc]
    simp (disch := simp) only [fld_append_right, length_le, List.length_cons, List.length_nil, Nat.reduceAdd, Nat.reduceSub, fld_le, fld_le_end]
    exact Nat.mod_eq_of_lt (by omega)

theorem exec_axisLimits_changes (q : Req) (s : State) (i : Fin 8) (a d j : Nat) (hq : Claims.Fresh 0x0606 q s)
    (hconfigured : (s.axis i).configured = true) (ha : 1 ≤ a) (ha' : a < 2 ^ 31) (hd : 1 ≤ d) (hstop : d ≤ (s.axis i).dStop) (hd' : d < 2 ^ 31)
    (hj : j < 2 ^ 31) (hp : q.payload = axisLimitsPayload i a d j) :
    exec (.axisLimits q) s = .next ((Claims.ok ((s.start q 0x0606).updAxis i (fun x =>
      x.changeLimits s.mot.period false { aMax := a, dMax := d, jerk := j }))).deliver q 0x0606) := by
  have hlen : (q.payload.length == 16) = true := by rw [hp]; simp [axisLimitsPayload]
  have hrun : exec (.axisLimits q) s = .next ((cmdAxisLimits.run q (s.start q 0x0606)).deliver q 0x0606) := congrArg _ (serve_of_fresh hq hlen)
  obtain ⟨⟨hi, hflags, hzero⟩, hfa, hfd, hfj⟩ := axisLimitsPayload_fields (i := i) ha' hd' hj
  rw [← hp] at hi hflags hzero hfa hfd hfj
  obtain ⟨haxis, hgood⟩ := axisOf_of_fld hi
  have hfits : decide (((s.start q 0x0606).axis i).dStop < d) = false := decide_eq_false (Nat.not_lt.2 hstop)
  rw [hrun]
  simp only [cmdAxisLimits, haxis, hgood, hflags, hzero, hfa, hfd, hfj, hfits]
  rw [checks_pass]
  · rfl
  · simp [show ((s.start q 0x0606).axis i).configured = true from hconfigured, inRate_of ha ha', inRate_of hd hd', inRate_of (Nat.zero_le j) hj]

theorem Axis.changeLimits_idle {a : Axis} (h : a.state = .idle) (t : Nat) (now : Bool) (l : AxisLimits) :
    a.changeLimits t now l = { a with lim := l, deferred := none } := by
  unfold changeLimits
  simp only [h]

theorem Axis.changeLimits_moving {a : Axis} (h : a.state = .moving) (t : Nat) (l : AxisLimits) :
    a.changeLimits t false l = { a with deferred := some l } := by
  unfold changeLimits
  simp only [h]
  rfl

/-! ### The obligation -/

/-- Settles O53: one accepted run of each command, by its state of the axis. -/
theorem axisCommandsComplete : Obligations.AxisCommandsComplete := by
  unfold Obligations.AxisCommandsComplete
  refine ⟨exec_axisConfig_sets, fun q s i kind vel target hq hconfigured hmax hvel hvel' htarget htarget' hp =>
      ⟨exec_axisMotion_moves hq hconfigured hmax hvel hvel' htarget htarget' hp, exec_axisMotion_there hq hconfigured hmax hvel hvel' htarget htarget' hp,
        exec_axisMotion_jogs hq hconfigured hmax hvel hvel' htarget htarget' hp,
        exec_axisMotion_stopsAtRest hq hconfigured hmax hvel hvel' htarget htarget' hp,
        exec_axisMotion_slows hq hconfigured hmax hvel hvel' htarget htarget' hp⟩,
    exec_axisGear_gears, exec_axisHome_homes, fun q s i a d j hq hconfigured ha ha' hd hstop hd' hj hp => ⟨fun hidle => ?_, fun hmoving => ?_⟩⟩
  · refine (exec_axisLimits_changes q s i a d j hq hconfigured ha ha' hd hstop hd' hj hp).trans
      (congrArg (fun u => Host.Outcome.next ((Claims.ok u).deliver q 0x0606))
        (State.updAxis_congr (g := fun x => { x with lim := { aMax := a, dMax := d, jerk := j }, deferred := none }) ?_))
    exact Axis.changeLimits_idle hidle _ _ _
  · refine (exec_axisLimits_changes q s i a d j hq hconfigured ha ha' hd hstop hd' hj hp).trans
      (congrArg (fun u => Host.Outcome.next ((Claims.ok u).deliver q 0x0606))
        (State.updAxis_congr (g := fun x => { x with deferred := some { aMax := a, dMax := d, jerk := j } }) ?_))
    exact Axis.changeLimits_moving hmoving _ _

end Sys2Proof.Machine
end

section
/-! PROOF. The drive port, its servo tick and its drives (16 R382 to R384, R396, R398, R399, R402, R403, R405, R410): O54. -/

namespace Sys2Proof.Machine

/-! ### DRIVE_PORT_CONFIG, AXIS_ENABLE and AXIS_STATUS (R403, R405, R410) -/

/-- The payload of DRIVE_PORT_CONFIG. -/
def drivePortPayload (c links lead : Nat) : List Byte := [BitVec.ofNat 8 c, BitVec.ofNat 8 links, 0, 0] ++ le 4 lead

theorem drivePortPayload_fields {c links lead : Nat} (hc : c ≤ 4) (hlinks : links ≤ 3) (hlead : lead ≤ 1000000) : let p := drivePortPayload c links lead
    fld p 0 1 = c ∧ fld p 1 1 = links ∧ zeros p 2 2 = true ∧ fld p 4 4 = lead := by
  refine ⟨?_, ?_, rfl, ?_⟩
  · show fld (BitVec.ofNat 8 c :: _) 0 1 = c
    rw [fld_cons_one, BitVec.toNat_ofNat]
    exact Nat.mod_eq_of_lt (by omega)
  · show fld (BitVec.ofNat 8 links :: _) 0 1 = links
    rw [fld_cons_one, BitVec.toNat_ofNat]
    exact Nat.mod_eq_of_lt (by omega)
  · rw [drivePortPayload, fld_append_right _ _ (by simp)]
    exact (fld_le_end 4 lead).trans (Nat.mod_eq_of_lt (by omega))

theorem exec_drivePortConfig_sets (q : Req) (s : State) (c links lead : Nat) (hq : Claims.Fresh 0x0600 q s) (hc : c ≤ 4) (hlinks : links ≤ 3)
    (hlead : lead ≤ 1000000) (hall : ∀ i : Fin 8, (s.axis i).state = .disabled) (hp : q.payload = drivePortPayload c links lead) :
    exec (.drivePortConfig q) s = .next ((Claims.ok { s.start q 0x0600 with mot := { s.mot with
      period := 62500 * 2 ^ c, links := BitVec.ofNat 2 links, gearLeadNs := lead, tick := s.tickNow (62500 * 2 ^ c) } }).deliver q 0x0600) := by
  have hlen : (q.payload.length == 8) = true := by rw [hp]; simp [drivePortPayload]
  have hrun : exec (.drivePortConfig q) s = .next ((cmdDrivePortConfig.run q (s.start q 0x0600)).deliver q 0x0600) := congrArg _ (serve_of_fresh hq hlen)
  obtain ⟨hfc, hflinks, hzero, hflead⟩ := drivePortPayload_fields hc hlinks hlead
  rw [← hp] at hfc hflinks hzero hflead
  have hnone : (s.start q 0x0600).mot.axes.toList.any (fun a => a.state != .disabled) = false := by
    refine List.any_eq_false.2 fun a ha => ?_
    obtain ⟨i, hi, rfl⟩ := Vector.mem_iff_getElem.1 (Vector.mem_toList_iff.1 ha)
    rw [show (s.start q 0x0600).mot.axes[i].state = .disabled from hall ⟨i, hi⟩]
    decide
  rw [hrun]
  simp only [cmdDrivePortConfig, hfc, hflinks, hzero, hflead, hnone]
  rw [checks_pass]
  · rfl
  · simp [hc, hlinks, hlead]

/-- The fields of a request that names an axis and one byte of flags. -/
theorem axisFlags_fields {q : Req} {i : Fin 8} {b : Byte} (hp : q.payload = [BitVec.ofNat 8 i.val, b, 0, 0, 0, 0, 0, 0]) :
    fld q.payload 0 1 = i.val ∧ fld q.payload 1 1 = b.toNat ∧ zeros q.payload 2 6 = true := by
  rw [hp]
  exact ⟨fld_one_of_fin i _, by show fld (b :: _) 0 1 = _; rw [fld_cons_one], rfl⟩

/-- AXIS_ENABLE of a configured axis, by its two flags. -/
theorem exec_axisEnable_runs {q : Req} {s : State} {i : Fin 8} {b : Byte} (hq : Claims.Fresh 0x0602 q s) (hconfigured : (s.axis i).configured = true)
    (hp : q.payload = [BitVec.ofNat 8 i.val, b, 0, 0, 0, 0, 0, 0]) (hb : b.toNat ≤ 3) : let v := s.start q 0x0602
    let waits := v.takeAxis i doneREPLACED .enable q.origin (fun a =>
      { a with enable := bit b.toNat 0, faultReset := a.faultReset || bit b.toNat 1, enabledAt := s.aon })
    exec (.axisEnable q) s = .next ((Claims.accepted
      (if bit b.toNat 0 = true then (if (s.axis i).state = .disabled ∨ (s.axis i).state = .fault then waits else v.doneAtOnce i .enable q.origin)
       else if (s.axis i).state = .fault ∧ bit b.toNat 1 = true then waits
       else (v.disableAxis i).doneAtOnce i .enable q.origin)).deliver q 0x0602) := by
  intro v waits
  have hlen : (q.payload.length == 8) = true := by rw [hp]; rfl
  have hrun : exec (.axisEnable q) s = .next ((cmdAxisEnable.run q v).deliver q 0x0602) := congrArg _ (serve_of_fresh hq hlen)
  obtain ⟨hi, hflags, hzero⟩ := axisFlags_fields hp
  obtain ⟨haxis, hgood⟩ := axisOf_of_fld hi
  rw [hrun]
  simp only [cmdAxisEnable, haxis, hgood, hflags, hzero]
  rw [checks_pass]
  · rfl
  · simp [show (v.axis i).configured = true from hconfigured, hb]

theorem exec_axisEnable_waits (q : Req) (s : State) (i : Fin 8) (hq : Claims.Fresh 0x0602 q s) (hconfigured : (s.axis i).configured = true)
    (hp : q.payload = [BitVec.ofNat 8 i.val, 1, 0, 0, 0, 0, 0, 0]) (hdisabled : (s.axis i).state = .disabled) :
    ∃ u, exec (.axisEnable q) s = .next ((Claims.accepted u).deliver q 0x0602) ∧ (u.axis i).enable = true ∧ (u.axis i).kind = some .enable ∧
      (u.axis i).state = .disabled ∧ (u.axis i).enabledAt = s.aon := by
  have hrun := exec_axisEnable_runs hq hconfigured hp (by decide)
  simp only [show bit (1 : Byte).toNat 0 = true from rfl, if_true, hdisabled, true_or] at hrun
  refine ⟨_, hrun, ?_⟩
  rw [State.takeAxis_axis]
  exact ⟨rfl, rfl, ((s.start q 0x0602).motDone_axis i doneREPLACED).1.trans hdisabled, rfl⟩

theorem exec_axisEnable_disables (q : Req) (s : State) (i : Fin 8) (hq : Claims.Fresh 0x0602 q s) (hconfigured : (s.axis i).configured = true)
    (hp : q.payload = [BitVec.ofNat 8 i.val, 0, 0, 0, 0, 0, 0, 0]) (hidle : (s.axis i).state = .idle) (hnone : (s.axis i).kind = none) :
    ∃ u, exec (.axisEnable q) s = .next ((Claims.accepted u).deliver q 0x0602) ∧ (u.axis i).enable = false ∧ (u.axis i).state = .disabled ∧
      Claims.Posts s u [0x02E0] := by
  have hrun := exec_axisEnable_runs hq hconfigured hp (by decide)
  simp only [show bit (0 : Byte).toNat 0 = false from rfl, hidle, Bool.false_eq_true, reduceCtorEq, if_false, false_and] at hrun
  let v := s.start q 0x0602
  have hdone : v.motDone i doneSTOPPED = v := State.motDone_idle (s := v) hnone _
  obtain ⟨hmot, hposts⟩ := (v.disableAxis i).doneAtOnce_spec i .enable q.origin
  have haxis : ((v.disableAxis i).doneAtOnce i .enable q.origin).axis i = (v.disableAxis i).axis i := by
    rw [State.axis, hmot, State.axis]
  have hdisabled : (v.disableAxis i).axis i = { (s.axis i).toIdle with enable := false, state := .disabled } := by
    rw [State.disableAxis, hdone, State.axis_updAxis_self]
    simp only [show v.axis i = s.axis i from rfl, hidle, reduceCtorEq, if_false]
  refine ⟨_, hrun, ?_, ?_, ?_⟩
  · rw [haxis, hdisabled]
  · rw [haxis, hdisabled]
  · have houtbox : (v.disableAxis i).mbx.outbox = s.mbx.outbox := by
      rw [State.disableAxis, hdone]
      rfl
    unfold Claims.Posts at hposts ⊢
    rwa [houtbox] at hposts

theorem exec_axisStatus_answers (q : Req) (s : State) (i : Fin 8) (hq : Claims.Fresh 0x0607 q s)
    (hp : q.payload = [BitVec.ofNat 8 i.val, 0, 0, 0, 0, 0, 0, 0]) :
    ∃ p, exec (.axisStatus q) s = .next ((Claims.ok (s.start q 0x0607) p).deliver q 0x0607) ∧ p.length = 56 ∧ fld p 0 1 = (s.axis i).state.code ∧
      fld p 1 1 = (s.axis i).dstatus.toNat ∧ fld p 4 4 = (s.axis i).linkTransients.toNat ∧ fld p 48 8 = s.nowNs % 2 ^ 64 := by
  have hlen : (q.payload.length == 8) = true := by rw [hp]; rfl
  have hrun : exec (.axisStatus q) s = .next ((cmdAxisStatus.run q (s.start q 0x0607)).deliver q 0x0607) := congrArg _ (serve_of_fresh hq hlen)
  obtain ⟨hi, -, -⟩ := axisFlags_fields hp
  have hzero : zeros q.payload 1 7 = true := by rw [hp]; rfl
  obtain ⟨haxis, hgood⟩ := axisOf_of_fld hi
  have hstatus : cmdAxisStatus.run q (s.start q 0x0607) = Claims.ok (s.start q 0x0607) (s.axisStatus i) := by
    simp only [cmdAxisStatus, haxis, hgood, hzero]
    rw [checks_pass]
    · rfl
    · simp
  rw [hstatus] at hrun
  refine ⟨_, hrun, by simp [State.axisStatus], ?_, ?_, ?_, ?_⟩
  all_goals
    unfold State.axisStatus
    simp only [List.append_assoc]
    simp (disch := simp) only [fld_append_right, length_le, length_sle, length_zeroBytes, List.length_cons, List.length_nil, Nat.reduceAdd, Nat.reduceSub,
      fld_le, fld_le_end]
  · cases (s.axis i).state <;> rfl
  · exact fld_cons_one ..
  · exact toNat_mod_four_bytes _
  · rfl

/-! ### What an axis's own turn leaves alone (R382) -/

/-- From `s` to `u` only axis `i` has moved: the tick, the links and the job are the same, and so is every other axis. -/
structure AxisOnly (i : Fin 8) (s u : State) : Prop where
  tick : u.mot.tick = s.mot.tick
  links : u.mot.links = s.mot.links
  job : u.job = s.job
  others : ∀ k : Fin 8, k ≠ i → u.axis k = s.axis k

namespace AxisOnly

variable {i : Fin 8} {s u v : State}

theorem refl (i : Fin 8) (s : State) : AxisOnly i s s := ⟨rfl, rfl, rfl, fun _ _ => rfl⟩

theorem trans (h : AxisOnly i s u) (h' : AxisOnly i u v) : AxisOnly i s v :=
  ⟨h'.tick.trans h.tick, h'.links.trans h.links, h'.job.trans h.job, fun k hk => (h'.others k hk).trans (h.others k hk)⟩

theorem of_mot (hmot : u.mot = s.mot) (hjob : u.job = s.job) : AxisOnly i s u :=
  ⟨congrArg _ hmot, congrArg _ hmot, hjob, fun k _ => by rw [State.axis, hmot, State.axis]⟩

theorem updAxis (i : Fin 8) (s : State) (f : Axis → Axis) : AxisOnly i s (s.updAxis i f) := ⟨rfl, rfl, rfl, fun _ hk => s.axis_updAxis_ne hk f⟩

theorem motDone (i : Fin 8) (s : State) (code : Nat) : AxisOnly i s (s.motDone i code) := by
  unfold State.motDone
  dsimp only
  split
  next => exact refl i s
  next => exact (updAxis i s (fun a => ({ a with kind := none, origin := none, overshoot := false }).takeDeferred)).trans (of_mot (by simp) (by simp))

theorem gearEvent (i : Fin 8) (s : State) (kind : Nat) (p ratio : Int) : AxisOnly i s (s.gearEvent i kind p ratio) := of_mot rfl rfl

theorem gearStop (i : Fin 8) (s : State) (code : Nat) : AxisOnly i s (s.gearStop i code) := updAxis i s _

theorem gearSpeed (i : Fin 8) (s : State) (p ratio : Int) : AxisOnly i s (s.gearSpeed i p ratio) := by
  unfold State.gearSpeed
  dsimp only
  split
  next => exact (updAxis i s _).trans (gearEvent i _ _ _ _)
  next => exact refl i s

theorem ite {c : Prop} [Decidable c] (h : AxisOnly i s u) (h' : AxisOnly i s v) : AxisOnly i s (if c then u else v) := by
  split
  next => exact h
  next => exact h'

theorem gearTick (i : Fin 8) (s : State) (g : Gear) (at_ : Nat) : AxisOnly i s (s.gearTick i g at_) := by
  unfold State.gearTick
  dsimp only
  have hevent (b : Bool) {u : State} (h : AxisOnly i s u) (kind : Nat) (p ratio : Int) :
      AxisOnly i s (if b then u.gearEvent i kind p ratio else u) := ite (h.trans (gearEvent i u kind p ratio)) h
  have hmoved (f : Axis → Axis) (b e : Bool) (p r p' r' : Int) := hevent e (hevent b (updAxis i s f) 1 p r) 2 p' r'
  exact ite ((hmoved ..).trans ((updAxis i _ _).trans (motDone i _ _)))
    (ite ((hmoved ..).trans (gearStop i _ _)) (ite ((hmoved ..).trans (gearStop i _ _)) ((hmoved ..).trans (gearSpeed i _ _ _))))

theorem axisTick (at_ : Nat) (s : State) (i : Fin 8) : AxisOnly i s (State.axisTick at_ s i) := by
  unfold State.axisTick
  dsimp only
  split
  next => exact gearTick i s _ at_
  next =>
    split
    next => exact (updAxis i s _).trans (motDone i _ _)
    next => exact updAxis i s _

end AxisOnly

/-! ### SERVO_TICK (R382, R384, R396, R398) -/

/-- What a tick makes of an axis that follows its drive or stands still. -/
def Axis.TickRests (a b : Axis) : Prop :=
  ((a.state = .disabled ∨ a.state = .fault) → b.pos = (a.actual * 65536 + a.offset) * 2 ^ 32) ∧ (a.state = .idle → b = a)

theorem State.axisTick_rests (at_ : Nat) (s : State) (i : Fin 8) : (s.axis i).TickRests ((State.axisTick at_ s i).axis i) := by
  have hrun (h : (s.axis i).state ≠ .geared) (hnone : ((s.axis i).run s.mot.period).2 = none) :
      (State.axisTick at_ s i).axis i = ((s.axis i).run s.mot.period).1 := by
    unfold axisTick
    dsimp only
    split
    next hgeared _ => exact absurd hgeared h
    next => rw [hnone]; exact axis_updAxis_self ..
  refine ⟨?_, fun hidle => ?_⟩
  · have hfollows (h : (s.axis i).state = .disabled ∨ (s.axis i).state = .fault) : (s.axis i).run s.mot.period =
        ({ s.axis i with pos := ((s.axis i).actual * 65536 + (s.axis i).offset) * 2 ^ 32, vel := 0, acc := 0 }, none) := by
      unfold Axis.run
      rcases h with h | h <;> simp only [h]
    intro h
    rw [hrun (by rcases h with h | h <;> rw [h] <;> decide) (congrArg Prod.snd (hfollows h)), hfollows h]
  · have hstands : (s.axis i).run s.mot.period = (s.axis i, none) := by
      unfold Axis.run
      simp only [hidle]
    rw [hrun (by rw [hidle]; decide) (congrArg Prod.snd hstands), hstands]

/-- The turns of a list of axes, each of which comes once. -/
theorem State.axisTicks_spec (at_ : Nat) (l : List (Fin 8)) (hl : l.Nodup) (s : State) : let u := l.foldl (State.axisTick at_) s
    u.mot.tick = s.mot.tick ∧ u.mot.links = s.mot.links ∧ u.job = s.job ∧ u.mem = s.mem ∧
      ∀ i : Fin 8, if i ∈ l then (s.axis i).TickRests (u.axis i) else u.axis i = s.axis i := by
  induction l generalizing s with
  | nil => exact ⟨rfl, rfl, rfl, rfl, fun i => rfl⟩
  | cons k l ih =>
    obtain ⟨hk, hl⟩ := List.nodup_cons.1 hl
    obtain ⟨htick, hlinks, hjob, hmem, haxes⟩ := ih hl (State.axisTick at_ s k)
    have hown := AxisOnly.axisTick at_ s k
    refine ⟨htick.trans hown.tick, hlinks.trans hown.links, hjob.trans hown.job, hmem.trans (s.axisTick_mem ..), fun i => ?_⟩
    have hi := haxes i
    by_cases hik : i = k
    · rw [hik, if_neg hk] at hi
      rw [hik, if_pos List.mem_cons_self, List.foldl_cons, hi]
      exact s.axisTick_rests ..
    · rw [hown.others i hik] at hi
      simpa only [List.foldl_cons, List.mem_cons, hik, false_or] using hi

theorem State.setpointEntry_length (s : State) (i : Fin 8) : (s.setpointEntry i).length = 12 := by
  unfold setpointEntry
  dsimp only
  split <;> simp

theorem State.setpointFrame_length (s : State) (k : Fin 2) : (s.setpointFrame k).length = 56 := by
  simp [setpointFrame, setpointEntry_length, List.range_succ]

theorem State.sendSetpoints_spec (s : State) : s.sendSetpoints.mot = s.mot ∧ s.sendSetpoints.job = s.job ∧
    ∀ k : Fin 2, s.mot.links.getLsbD k.val = true → ∃ f, .setpoint k f ∈ s.sendSetpoints.wires ∧ f.length = 56 := by
  unfold sendSetpoints
  refine ⟨by dsimp only; split <;> split <;> rfl, by dsimp only; split <;> split <;> rfl, fun k hk => ?_⟩
  match k, hk with
  | 0, h0 =>
    refine ⟨s.setpointFrame 0, ?_, s.setpointFrame_length 0⟩
    simp only [if_pos h0]
    split
    next => exact List.mem_cons_of_mem _ List.mem_cons_self
    next => exact List.mem_cons_self
  | 1, h1 =>
    dsimp only
    split
    next =>
      rw [if_pos (show (s.emit (.setpoint 0 (s.setpointFrame 0))).mot.links.getLsbD (1 : Fin 2).val = true from h1)]
      exact ⟨_, List.mem_cons_self, State.setpointFrame_length ..⟩
    next => exact ⟨_, List.mem_cons_self, s.setpointFrame_length 1⟩

theorem State.servoTick_spec (s : State) : s.servoTick.mot.tick = s.mot.tick + 1 ∧ s.servoTick.job = s.job ∧
    (∀ i : Fin 8, (s.axis i).TickRests (s.servoTick.axis i)) ∧
    ∀ k : Fin 2, s.mot.links.getLsbD k.val = true → ∃ f, .setpoint k f ∈ s.servoTick.wires ∧ f.length = 56 := by
  have hticks := State.axisTicks_spec (s.chainMoment ((s.mot.tick + 1) * s.mot.period)) (List.finRange 8) (List.nodup_finRange 8)
    { s with mot := { s.mot with tick := s.mot.tick + 1 } }
  unfold servoTick
  dsimp only at hticks ⊢
  generalize (List.finRange 8).foldl _ _ = u at hticks ⊢
  obtain ⟨htick, hlinks, hjob, -, haxes⟩ := hticks
  obtain ⟨hmot, hjob', hsent⟩ := u.sendSetpoints_spec
  have haxis (i : Fin 8) : (u.sendSetpoints.drq 18).axis i = u.axis i := by
    rw [axis, drq_mot, hmot, axis]
  refine ⟨(congrArg Mot.tick hmot).trans htick, hjob'.trans hjob, fun i => ?_, fun k hk => hsent k ?_⟩
  · rw [haxis]
    have hi := haxes i
    rwa [if_pos (List.mem_finRange i)] at hi
  · rw [hlinks]
    exact hk

theorem exec_servoTick_follows (t : Nat) (s : State) : let w := (s.at t).webSettle
    (w.domainUp 11 = false → exec (.servoTick t) s = .next { w with mot := { w.mot with tick := max w.mot.tick (w.tickNow w.mot.period) } }) ∧
    (w.domainUp 11 = true → w.tickNow w.mot.period ≤ w.mot.tick → exec (.servoTick t) s = .next w) ∧
    (w.domainUp 11 = true → w.mot.tick < w.tickNow w.mot.period → exec (.servoTick t) s = .next w.servoTick) := by
  intro w
  have hrun : exec (.servoTick t) s = .next (if !w.domainUp 11 then { w with mot := { w.mot with tick := max w.mot.tick (w.tickNow w.mot.period) } }
    else if w.mot.tick < w.tickNow w.mot.period then w.servoTick else w) := rfl
  refine ⟨fun hdown => ?_, fun hup hpast => ?_, fun hup hdue => ?_⟩
  · rw [hrun, hdown]
    rfl
  · rw [hrun, hup, if_neg (by decide), if_neg (Nat.not_lt.2 hpast)]
  · rw [hrun, hup, if_neg (by decide), if_pos hdue]

/-! ### Slots of a drive (R394, R399, R402) -/

/-- What a status slot of a homing axis does not touch. -/
theorem Axis.homeSlot_keeps (a : Axis) (limit : Bool) (x : Int) : (a.homeSlot limit x).state = a.state ∧ (a.homeSlot limit x).kind = a.kind ∧
    (a.homeSlot limit x).linkLost = a.linkLost := by
  unfold homeSlot
  dsimp only
  (repeat' split) <;> exact ⟨rfl, rfl, rfl⟩

theorem Axis.homeSlot_other {a : Axis} (h : a.state ≠ .homing) (limit : Bool) (x : Int) : a.homeSlot limit x = a := by
  unfold homeSlot
  split
  next hhoming _ => exact absurd hhoming h
  next => rfl

/-- A command that ends leaves none. -/
theorem State.motDone_kind (s : State) (i : Fin 8) (code : Nat) : ((s.motDone i code).axis i).kind = none := by
  have hdeferred (a : Axis) : a.takeDeferred.kind = a.kind := by
    unfold Axis.takeDeferred
    split <;> rfl
  unfold motDone
  dsimp only
  split
  next h => exact h
  next =>
    rw [State.result_eq]
    show ((s.updAxis i _).axis i).kind = none
    rw [axis_updAxis_self]
    exact hdeferred _

theorem State.motDone_posts {s : State} {i : Fin 8} {k : AxisKind} (h : (s.axis i).kind = some k) (code : Nat) :
    Claims.Posts s (s.motDone i code) [0x02E0] := by
  unfold motDone
  simp only [h]
  exact posts_of_mbx rfl (State.result_posts ..)

/-- An axis without a command goes to FAULT. -/
theorem State.axisFault_idle {s : State} {i : Fin 8} (h : (s.axis i).kind = none) :
    s.axisFault i = s.updAxis i (fun a => { a.toIdle with state := .fault, faultReset := false }) := by
  rw [axisFault, motDone_idle h]

section SlotFault

variable (s : State) (i : Fin 8) (c : SlotFault)

/-- The state once a failed slot has broken the run of good ones. -/
def State.slotMissed : State := s.updAxis i (fun a => ({ a with goodFrames := 0 } : Axis).homeSlot false a.actual)

theorem State.slotMissed_axis : ((s.slotMissed i).axis i).state = (s.axis i).state ∧ ((s.slotMissed i).axis i).kind = (s.axis i).kind ∧
    ((s.slotMissed i).axis i).linkLost = (s.axis i).linkLost := by
  rw [slotMissed, axis_updAxis_self]
  exact Axis.homeSlot_keeps ({ s.axis i with goodFrames := 0 } : Axis) ..

theorem State.slotFault_pends (hpending : (s.axis i).linkPending = none) (hlost : (s.axis i).linkLost = false) : let u := s.slotFault i c
    (u.axis i).linkPending = some c ∧ (u.axis i).state = (s.axis i).state ∧ Claims.Posts s u [0x02E1] ∧
      Claims.Tells s u [.detect (driveDetect i .pending) s.aon] := by
  have hslot : s.slotFault i c = (((s.slotMissed i).updAxis i (fun a => { a with linkPending := some c })).driveEvent i (SlotFaultCode c)
      clsPending).detect (driveDetect i .pending) := by
    simp only [slotFault, hpending, hlost, slotMissed, Option.isSome_none, Bool.false_eq_true, if_false]
  have haxis : (s.slotFault i c).axis i = { (s.slotMissed i).axis i with linkPending := some c } := by
    rw [hslot]
    exact axis_updAxis_self ..
  refine ⟨by rw [haxis], by rw [haxis]; exact (s.slotMissed_axis i).1, ?_, ?_⟩
  · rw [hslot]
    exact posts_post ..
  · rw [hslot]
    rfl

theorem State.slotFault_lasts (hpending : (s.axis i).linkPending.isSome = true) (hnone : (s.axis i).kind = none) : let u := s.slotFault i c
    (u.axis i).state = .fault ∧ (u.axis i).enable = false ∧ (u.axis i).linkPending = none ∧ (u.axis i).linkLost = true ∧
      Claims.Posts s u [0x02E1] := by
  have hslot : s.slotFault i c = ((((s.slotMissed i).axisFault i).updAxis i (fun a =>
      { a with enable := false, linkPending := none, linkLost := true })).driveEvent i (SlotFaultCode c) clsLasting).detect
        (driveDetect i .reported) := by
    simp only [slotFault, hpending, slotMissed, if_true]
  have hidle := State.axisFault_idle ((s.slotMissed_axis i).2.1.trans hnone)
  have hfault : (((s.slotMissed i).axisFault i).axis i).state = .fault := by rw [hidle, axis_updAxis_self]
  have hmbx : ((s.slotMissed i).axisFault i).mbx = s.mbx := by rw [hidle]; rfl
  generalize (s.slotMissed i).axisFault i = w at hslot hfault hmbx
  have haxis : (s.slotFault i c).axis i = { w.axis i with enable := false, linkPending := none, linkLost := true } := by
    rw [hslot]
    exact axis_updAxis_self ..
  refine ⟨by rw [haxis]; exact hfault, by rw [haxis], by rw [haxis], by rw [haxis], ?_⟩
  rw [hslot]
  exact posts_of_mbx hmbx (posts_post w _ _ _)

theorem State.slotFault_again (hpending : (s.axis i).linkPending = none) (hlost : (s.axis i).linkLost = true) : s.slotFault i c = s.slotMissed i := by
  simp only [slotFault, hpending, hlost, slotMissed, Option.isSome_none, Bool.false_eq_true, if_false, if_true]

end SlotFault

theorem exec_driveSlotFault_judges (i : Fin 8) (c : SlotFault) (t : Nat) (s : State) (hopen : s.slotOpen i = true) :
    exec (.driveSlotFault i c t) s = .next (((s.at t).judge i).slotFault i c) := congrArg Host.Outcome.next (if_pos hopen)

theorem State.judge_axis (s : State) (i : Fin 8) : (s.judge i).axis i = { s.axis i with judged := s.mot.tick + 1 } := axis_updAxis_self ..

theorem exec_driveSlotFault_spec (i : Fin 8) (c : SlotFault) (t : Nat) (s : State) (hopen : s.slotOpen i = true) (hnone : (s.axis i).kind = none) :
    ((s.axis i).linkPending = none → (s.axis i).linkLost = false → ∃ u d, exec (.driveSlotFault i c t) s = .next u ∧
      (u.axis i).linkPending = some c ∧ (u.axis i).state = (s.axis i).state ∧ Claims.Posts s u [0x02E1] ∧
      Claims.Tells s u [.detect d (max s.aon t)] ∧ d.outcome = .pending) ∧
    ((s.axis i).linkPending.isSome = true → ∃ u, exec (.driveSlotFault i c t) s = .next u ∧ (u.axis i).state = .fault ∧
      (u.axis i).enable = false ∧ (u.axis i).linkPending = none ∧ (u.axis i).linkLost = true ∧ Claims.Posts s u [0x02E1]) ∧
    ((s.axis i).linkPending = none → (s.axis i).linkLost = true → ∃ u, exec (.driveSlotFault i c t) s = .next u ∧
      (u.axis i).state = (s.axis i).state ∧ (u.axis i).linkLost = true ∧ Claims.Posts s u []) := by
  have hrun := exec_driveSlotFault_judges i c t s hopen
  have haxis := (s.at t).judge_axis i
  rw [show (s.at t).axis i = s.axis i from rfl] at haxis
  have hstate : (((s.at t).judge i).axis i).state = (s.axis i).state := by rw [haxis]
  refine ⟨fun hpending hlost => ?_, fun hpending => ?_, fun hpending hlost => ?_⟩
  · obtain ⟨hlink, hkept, hposts, htells⟩ := ((s.at t).judge i).slotFault_pends i c (by rw [haxis]; exact hpending) (by rw [haxis]; exact hlost)
    exact ⟨_, driveDetect i .pending, hrun, hlink, hkept.trans hstate, hposts, htells, rfl⟩
  · exact ⟨_, hrun, ((s.at t).judge i).slotFault_lasts i c (by rw [haxis]; exact hpending) (by rw [haxis]; exact hnone)⟩
  · obtain ⟨hkept, -, hlink⟩ := ((s.at t).judge i).slotMissed_axis i
    rw [((s.at t).judge i).slotFault_again i c (by rw [haxis]; exact hpending) (by rw [haxis]; exact hlost)] at hrun
    exact ⟨_, hrun, hkept.trans hstate, by rw [hlink, haxis]; exact hlost, posts_nil s⟩

/-! ### STATUS frames (R396, R399) -/

/-- What a good frame of an axis that is not homing says of its drive. -/
def Axis.told (a : Axis) (tick : Nat) (f : List Byte) : Axis :=
  { a with judged := tick + 1, dstatus := BitVec.ofNat 8 (fld f 3 1) &&& 0x0F, goodFrames := a.goodFrames + 1
           linkLost := a.linkLost && decide (a.goodFrames = 0), actual := extend32 ((q16 a.pos - a.offset).fdiv 65536) (fld f 4 4) }

theorem Axis.told_dstatus (a : Axis) (tick : Nat) (f : List Byte) {k : Nat} (hk : k ≤ 1) : (a.told tick f).dstatus.getLsbD k = bit (fld f 3 1) k := by
  show (BitVec.ofNat 8 (fld f 3 1) &&& 0x0F).getLsbD k = _
  have hlow : (0x0F : Byte).getLsbD k = true := by
    match k, hk with
    | 0, _ => rfl
    | 1, _ => rfl
  rw [BitVec.getLsbD_and, BitVec.getLsbD_ofNat, hlow, decide_eq_true (by omega : k < 8), Bool.true_and, Bool.and_true, bit]

section StatusFrame

variable {i : Fin 8} {f : List Byte} {s : State} (t : Nat) (hopen : s.slotOpen i = true) (hgood : s.statusFault i f = none)
  (hpending : (s.axis i).linkPending = none) (hhoming : (s.axis i).state ≠ .homing)

include hopen hgood hpending hhoming

/-- A good frame is taken in; then a reported fault counts, or what waits on the drive completes. -/
theorem exec_statusFrame_told {v : State} (hv : v = (s.at t).updAxis i (fun a => a.told s.mot.tick f)) :
    exec (.statusFrame i f t) s = .next (if bit (fld f 3 1) 1 = true ∧ (s.axis i).state ≠ .fault then (v.axisFault i).driveEvent i 4 clsLasting
      else (v.faultClears i).enableDone i) := by
  have hrun : exec (.statusFrame i f t) s = .next (((s.at t).judge i).goodFrame i f) := by
    show Host.Outcome.next (if (s.at t).slotOpen i = true then _ else _) = _
    rw [if_pos (show (s.at t).slotOpen i = true from hopen), show (s.at t).statusFault i f = none from hgood]
  have haxis := (s.at t).judge_axis i
  have hsays : ((s.at t).judge i).driveSays i (BitVec.ofNat 8 (fld f 3 1)) (fld f 4 4) = v := by
    rw [hv, State.driveSays, State.judge, State.updAxis_updAxis]
    exact State.updAxis_congr (Axis.homeSlot_other (show ((s.axis i).told s.mot.tick f).state ≠ .homing from hhoming) ..)
  have hlink : (((s.at t).judge i).axis i).linkPending = none := by rw [haxis]; exact hpending
  have hstate : (((s.at t).judge i).axis i).state = (s.axis i).state := by rw [haxis]; rfl
  rw [hrun]
  simp only [State.goodFrame, hlink, hsays, hstate]

theorem exec_statusFrame_idle (hwell : bit (fld f 3 1) 1 = false) (hidle : (s.axis i).state = .idle) :
    exec (.statusFrame i f t) s = .next ((s.at t).updAxis i (fun a => a.told s.mot.tick f)) := by
  obtain ⟨v, hv⟩ : ∃ v, v = (s.at t).updAxis i (fun a => a.told s.mot.tick f) := ⟨_, rfl⟩
  have hrun := exec_statusFrame_told t hopen hgood hpending hhoming hv
  have hstate : (v.axis i).state = .idle := by
    rw [hv, State.axis_updAxis_self]
    exact hidle
  have hclears : v.faultClears i = v := by simp only [State.faultClears, hstate, reduceCtorEq, false_and, if_false]
  have hdone : v.enableDone i = v := by simp only [State.enableDone, hstate, reduceCtorEq, false_and, if_false]
  rw [hrun, if_neg (by simp [hwell]), hclears, hdone, hv]

theorem exec_statusFrame_enables (hwell : bit (fld f 3 1) 1 = false) (henabled : bit (fld f 3 1) 0 = true) (hdisabled : (s.axis i).state = .disabled)
    (henable : (s.axis i).enable = true) (hkind : (s.axis i).kind = some .enable) :
    ∃ u, exec (.statusFrame i f t) s = .next u ∧ (u.axis i).state = .idle ∧ (u.axis i).kind = none ∧ Claims.Posts s u [0x02E0] := by
  obtain ⟨v, hv⟩ : ∃ v, v = (s.at t).updAxis i (fun a => a.told s.mot.tick f) := ⟨_, rfl⟩
  have hrun := exec_statusFrame_told t hopen hgood hpending hhoming hv
  have haxis : v.axis i = (s.axis i).told s.mot.tick f := hv ▸ State.axis_updAxis_self ..
  have hmbx : v.mbx = s.mbx := by rw [hv]; rfl
  have hclears : v.faultClears i = v := by
    have hstate : (v.axis i).state = .disabled := by rw [haxis]; exact hdisabled
    simp only [State.faultClears, hstate, reduceCtorEq, false_and, if_false]
  have hdone : v.enableDone i = (v.updAxis i (fun a => { a with state := .idle })).motDone i doneDONE := by
    have hwaits : (v.axis i).state = .disabled ∧ (v.axis i).enable = true ∧ (v.axis i).kind = some .enable ∧ (v.axis i).dstatus.getLsbD 0 = true := by
      rw [haxis]
      exact ⟨hdisabled, henable, hkind, (Axis.told_dstatus _ _ _ (Nat.zero_le 1)).trans henabled⟩
    exact if_pos hwaits
  rw [if_neg (by simp [hwell]), hclears, hdone] at hrun
  have hended : ((v.updAxis i (fun a => { a with state := .idle })).axis i).kind = some .enable := by
    rw [State.axis_updAxis_self, haxis]
    exact hkind
  refine ⟨_, hrun, ?_, State.motDone_kind .., ?_⟩
  · rw [(State.motDone_axis ..).1, State.axis_updAxis_self]
  · exact posts_of_mbx (s := s) (t := v.updAxis i (fun a => { a with state := .idle })) hmbx (State.motDone_posts hended _)

theorem exec_statusFrame_faults (hill : bit (fld f 3 1) 1 = true) (hidle : (s.axis i).state = .idle) (hnone : (s.axis i).kind = none) :
    ∃ u, exec (.statusFrame i f t) s = .next u ∧ (u.axis i).state = .fault ∧ Claims.Posts s u [0x02E1] := by
  obtain ⟨v, hv⟩ : ∃ v, v = (s.at t).updAxis i (fun a => a.told s.mot.tick f) := ⟨_, rfl⟩
  have hrun := exec_statusFrame_told t hopen hgood hpending hhoming hv
  have hfault := State.axisFault_idle (s := v) (i := i) (by rw [hv, State.axis_updAxis_self]; exact hnone)
  have hmbx : v.mbx = s.mbx := by rw [hv]; rfl
  rw [if_pos ⟨hill, by rw [hidle]; decide⟩, hfault] at hrun
  refine ⟨_, hrun, ?_, posts_of_mbx hmbx (posts_post v _ _ _)⟩
  show ((v.updAxis i _).axis i).state = .fault
  rw [State.axis_updAxis_self]

end StatusFrame

/-! ### The enable timeout (R405) -/

theorem exec_enableTimeout_spec (i : Fin 8) (t : Nat) (s : State) :
    ((s.axis i).kind ≠ some .enable ∨ max s.aon t < (s.axis i).enabledAt + 100000000 * 2 ^ 32 → exec (.enableTimeout i t) s = .next (s.at t)) ∧
    ((s.axis i).kind = some .enable → (s.axis i).enabledAt + 100000000 * 2 ^ 32 ≤ max s.aon t → ∃ u, exec (.enableTimeout i t) s = .next u ∧
      (u.axis i).enable = false ∧ (u.axis i).kind = none ∧ Claims.Posts s u [0x02E0]) := by
  have hrun : exec (.enableTimeout i t) s = .next (if (s.axis i).kind = some .enable ∧ (s.axis i).enabledAt + ms 100 ≤ max s.aon t then
      ((s.at t).motDone i doneFAULT).updAxis i (fun a => { a with enable := false, faultReset := false }) else s.at t) := rfl
  rw [ms_eq] at hrun
  refine ⟨fun hnot => ?_, fun hkind hpast => ?_⟩
  · rw [hrun, if_neg]
    rintro ⟨hkind, hpast⟩
    rcases hnot with hnot | hnot
    · exact hnot hkind
    · omega
  · rw [if_pos ⟨hkind, by omega⟩] at hrun
    refine ⟨_, hrun, ?_, ?_, ?_⟩
    · rw [State.axis_updAxis_self]
    · rw [State.axis_updAxis_self]
      exact State.motDone_kind ..
    · exact State.motDone_posts (s := s.at t) hkind _

/-! ### The obligation -/

/-- Settles O54: the commands by their accepted runs, the tick by what each axis makes of its turn, a slot by the run of failed ones before it. -/
theorem axesRunComplete : Obligations.AxesRunComplete := by
  unfold Obligations.AxesRunComplete
  refine ⟨exec_drivePortConfig_sets, fun q s i hq hconfigured => ⟨exec_axisEnable_waits q s i hq hconfigured, exec_axisEnable_disables q s i hq hconfigured⟩,
    exec_axisStatus_answers, fun t s => ?_, fun i c f t s hshut => ?_, exec_driveSlotFault_spec, fun i f t s hopen hgood hpending => ?_,
    exec_enableTimeout_spec⟩
  · obtain ⟨hdown, hpast, hdue⟩ := exec_servoTick_follows t s
    refine ⟨hdown, hpast, fun hup hlt => ⟨_, hdue hup hlt, ?_⟩⟩
    obtain ⟨htick, hjob, hrests, hsent⟩ := State.servoTick_spec (s.at t).webSettle
    exact ⟨htick, fun i => (hrests i).1, fun i => (hrests i).2, hsent, State.servoTick_mem _, hjob⟩
  · have hno : ¬ (s.at t).slotOpen i = true := by
      rw [show (s.at t).slotOpen i = false from hshut]
      decide
    exact ⟨congrArg Host.Outcome.next (if_neg hno), congrArg Host.Outcome.next (if_neg hno)⟩
  · refine ⟨fun hwell hidle => ?_, fun hwell henabled hdisabled => ?_, fun hill hidle => ?_⟩
    · exact exec_statusFrame_idle t hopen hgood hpending (by rw [hidle]; decide) hwell hidle
    · exact exec_statusFrame_enables t hopen hgood hpending (by rw [hdisabled]; decide) hwell henabled hdisabled
    · exact exec_statusFrame_faults t hopen hgood hpending (by rw [hidle]; decide) hill hidle

end Sys2Proof.Machine
end
